-- ==== Sys2Proof/Word.lean ====
section
/-! DEFINITION. The word and byte types of the control fabric (R4). Every register is a 32-bit word; a byte is the
unit of memory. Fields inside words are natural numbers below 2 to the power of their width. -/

namespace Sys2Proof

/-- A 32-bit register or table word (R4). -/
abbrev Word := BitVec 32

/-- One byte of memory. -/
abbrev Byte := BitVec 8

end Sys2Proof
end

