-- ==== Sys2Proof/Syntax.lean ====
section
/-! DEFINITION. The commands of the block: one constructor per row of spec/opcode_table.json, in its order, with the operands
that the row's rule names. The table states no operands and no bits; what an operand carries (a frame's bits, a line, a
measured value, the master of a write) is the part of the event that comes from outside the block (log entry 1). -/

namespace Sys2Proof

/-- Masters of the control fabric (R429). -/
inductive Master | hk | host | mspi | bi2c | twin | jtag
  deriving DecidableEq, Repr

/-- What the checker of a memory sees at a read (R406, R420): the syndrome, and that of the re-read after scrub write-back, each 0 where the
word is good. A memory with fewer check bits takes the lowest ones. -/
structure MemRead where
  syn : BitVec 16 := 0
  again : BitVec 16 := 0
  deriving DecidableEq, Repr

/-- An ANC packet of a line (R75, R91): identifiers, user data words, and whether its checksum is good. -/
structure AncPacket where
  did : BitVec 8
  sdid : BitVec 8
  data : List (BitVec 10)
  good : Bool
  deriving DecidableEq, Repr

/-- An audio sample that a line carries (R186, R187): channel, its reconstructed instant on the AMC in 1/65,536 sample, the
sample, its channel-status bit, whether it is uncorrectable, whether its audio is synchronous at the device rate, and, of ST 272,
whether extended data packets give its low 4 bits. -/
structure EmbSample where
  ch : Fin 32
  instant : BitVec 48
  sample : BitVec 24
  nonPcm : Bool
  bad : Bool
  synced : Bool
  ext : Bool
  deriving DecidableEq, Repr

/-- A received line (R75): its number and field, valid TRS at the expected position, its words from EAV on (`none` where a word
was lost), the data streams of the interface standard each with its received CRC (R74), the full-field and active-picture check
words of an EDH packet, the payload ID, ANC and audio packets, and on line 1 the arrival against the alignment point in words
(R81) and the format measured over the frame before it (R75). -/
structure VideoLine where
  line : BitVec 12
  f2 : Bool
  eav : Bool
  words : List (Option (BitVec 10))
  streams : List (List (BitVec 10) × BitVec 18)
  edh : Option (BitVec 16 × BitVec 16)
  pid : Option (BitVec 32)
  anc : List AncPacket
  audio : List EmbSample
  eps : Option (BitVec 26)
  meas : Option (BitVec 8)
  deriving DecidableEq, Repr


/-- One slot of a received port frame (R166 to R170): its bits left-justified, the channel-status bit and flag, and the active
bit of MADI. -/
structure SapSlot where
  data : BitVec 32
  cs : Bool
  nonPcm : Bool
  active : Bool
  deriving DecidableEq, Repr

/-- A received port frame (R173): the edge that starts it on the AMC, whole and 1/2,048 sample, whether it stands at the
configured spacing, its slots, whether it holds a line error, and whether it begins a channel-status block. -/
structure SapFrame where
  edge : BitVec 32
  frac : BitVec 11
  spacing : Bool
  slots : List SapSlot
  lineErr : Bool
  csStart : Bool
  deriving DecidableEq, Repr

/-- A received audio packet (R190): RTP sequence number and timestamp, its sample groups, one value per channel, whether
octets are left over, whether channel status marks it as non-audio, and its receive timestamp on the AMC, with a fraction (R309). -/
structure AudioPacket where
  seq : BitVec 16
  stamp : BitVec 32
  groups : List (List (BitVec 32))
  left : Bool
  nonPcm : Bool
  edge : BitVec 32 := 0
  frac : BitVec 16 := 0
  deriving DecidableEq, Repr

/-- A retimer (R14) of a video output, of a mix tile or of a Nova core. Packet egress is released at the calendar slots themselves: its
event is CALENDAR_ENTRY. -/
inductive RetimerUse
  | video (o : Fin 1152)
  | tile (t : Fin 64)
  | nova (k : Fin 64)
  deriving DecidableEq, Repr

/-- One sample row of an ST 2110-20 packet: its octets, whether it is of the second field, its row and its offset (R300). -/
structure SampleRow where
  len : BitVec 16
  second : Bool
  row : BitVec 15
  off : BitVec 15
  deriving DecidableEq, Repr

/-- The payload header of a video packet (R300): of ST 2110-20 with its rows, or of ST 2022-6. -/
inductive PayloadKind
  | st2110 (rows : List SampleRow)
  | st2022
  deriving DecidableEq, Repr

/-- A Nova core as it stood at one period boundary (R383): its state, PC, registers and the words of data memory that are not 0. -/
structure NovaCapture where
  core : Fin 64
  state : BitVec 3
  pc : BitVec 11
  g : List (BitVec 32)
  p : List (BitVec 15)
  acc : List (BitVec 80)
  cr : List (BitVec 32)
  dm : List (BitVec 15 × BitVec 32)
  deriving DecidableEq, Repr

/-- How a BIST segment ends (R396). -/
inductive BistEnd | passed | failed | abandoned
  deriving DecidableEq, Repr


/-- The commands. -/
inductive Instr
  /-- RETIMER_RELEASE (R14): At a release event of its edge domain a retimer swaps blocks if the filling block was
  complete in time, or else releases the previous block again, flagged. -/
  | retimerRelease (u : RetimerUse) (inTime : Bool)
  /-- EDGE_DATA_INTAKE (R15): An intake synchroniser delivers registered edge data into the core within 3 edge
  cycles plus 4 steps. -/
  | edgeDataIntake (d : Fin 40) (data : List (BitVec 32))
  /-- LINK_FRAME_SEND (R41): A transmitter sends one 1,072 UI link frame of header, payload, CRC, stuff bits and
  fill bits on a lane. -/
  | linkFrameSend (g : Fin 33) (l : Fin 8)
  /-- LANE_FRAME_RECEIVE (R61): A received lane frame is classified good or bad, counted, and the fault is classed
  transient or lasting by the next frame. -/
  | laneFrameReceive (g : Fin 33) (l : Fin 8) (frame : List Bool)
  /-- GROUP_FRAME_RECEIVE (R48): The deskewed group frame applies the control words agreed by the good lanes, and
  reports a disagreement as LANE_CTRL. -/
  | groupFrameReceive (g : Fin 33) (fill : Fin 33)
  /-- SLOT_COMMIT (R55): A write of 1 to LGRP_SLOT_COMMIT.COMMIT requests the loading of both slot-table shadows.
  -/
  | slotCommit (m : Master) (g : Fin 33)
  /-- SLOT_COMMIT_APPLY (R55): At the first FSEQ 0 frame at least 8 frames after the write, both slot shadows go
  into use and changed sub-streams restart. -/
  | slotCommitApply (g : Fin 33)
  /-- LANE_CLOCK_PRESENT (R58): The clock lane is present for 1 µs within tolerance, and the group goes from DOWN
  to CLOCK. -/
  | laneClockPresent (g : Fin 33)
  /-- EYE_EDGES_FOUND (R58): All 8 lanes show transitions, and the group goes from CLOCK to BITALIGN. -/
  | eyeEdgesFound (g : Fin 33)
  /-- SAMPLER_TRIM_SET (R58): The trim is set on all lanes and inverted lanes are detected, and the group goes
  from BITALIGN to FRAMEALIGN. -/
  | samplerTrimSet (g : Fin 33) (trims : List (BitVec 7)) (inverted : BitVec 8)
  /-- FRAME_ALIGNED (R58): Every lane shows 4 consecutive good framed frames, the group sends ALIGNED and goes to
  DESKEW. -/
  | frameAligned (g : Fin 33)
  /-- DESKEW_DONE (R58): The lanes are delayed to equal FSEQ within 2,048 UI of skew, and the group sends
  ALIGNED_ALL and goes to HANDSHAKE. -/
  | deskewDone (g : Fin 33) (skews : List (BitVec 12))
  /-- HANDSHAKE_DONE (R58): After 1,024 consecutive frames of ALIGNED_ALL the group goes UP, and both ends send
  DATA from the next FSEQ 0 frame. -/
  | handshakeDone (g : Fin 33)
  /-- LANE_CLOCK_LOST (R58): The clock lane is lost for 100 ns, which raises LANE_CLK and sends the group to DOWN.
  -/
  | laneClockLost (g : Fin 33)
  /-- TRAIN_TIMEOUT (R60): A group not UP within TRAIN_TIMEOUT raises LANE_TRAIN and, with AUTO_RETRAIN, waits 100
  ms in DOWN. -/
  | trainTimeout (g : Fin 33)
  /-- RETRAIN_DELAY_EXPIRE (R60): The 100 ms wait in DOWN after a training timeout ends, and training is tried
  again. -/
  | retrainDelayExpire (g : Fin 33)
  /-- LANE_LOSS_LIMIT (R59): A lane lasting-failed for LOSS_FRAMES frames starts a lane-local retrain, or a whole-
  group retrain if another lane is already retraining. -/
  | laneLossLimit (g : Fin 33) (l : Fin 8)
  /-- LANE_REJOIN (R59): A lane-local retrain completes and the lane re-joins at its recorded skew. -/
  | laneRejoin (g : Fin 33) (l : Fin 8)
  /-- LANE_REJOIN_TIMEOUT (R59): A lane-local retrain that has not re-joined within 1 ms is a whole-group retrain
  condition. -/
  | laneRejoinTimeout (g : Fin 33) (l : Fin 8)
  /-- LANE_RETRAIN (R59): A write of 1 to LGRP_LANEn.RETRAIN starts a lane-local retrain. -/
  | laneRetrain (m : Master) (g : Fin 33) (l : Fin 8)
  /-- GROUP_TRAIN (R58): A write of 1 to LGRP_CTRL.TRAIN starts a whole-group retrain from CLOCK. -/
  | groupTrain (m : Master) (g : Fin 33)
  /-- EYE_SCAN_START (R66): A write of 1 to LGRP_EYE_CTRL.START begins a full scan of one lane. -/
  | eyeScanStart (m : Master) (g : Fin 33)
  /-- EYE_SCAN_ABORT (R66): A write of 1 to ABORT stops the scan and keeps the points counted so far. -/
  | eyeScanAbort (m : Master) (g : Fin 33)
  /-- EYE_POINT_DONE (R66): The dwell of one scan point ends, its count is stored, and the scan moves to the next
  point. -/
  | eyePointDone (g : Fin 33) (count : BitVec 32)
  /-- EYE_MONITOR_TICK (R67): Every INTERVAL ms the eye monitor starts checking its four points on the next lane.
  -/
  | eyeMonitorTick (g : Fin 33)
  /-- EYE_MONITOR_DONE (R67): The dwell of a monitor point ends, and a non-zero count raises LANE_EYE. -/
  | eyeMonitorDone (g : Fin 33) (point : Fin 4) (count : BitVec 32)
  /-- QUALITY_MESSAGE_RECEIVE (R331): A complete 8-byte quality message from a QMSG input or from QBYTE is checked
  and accepted, and its content takes effect. -/
  | qualityMessageReceive (i : Fin 9) (m : List (BitVec 8))
  /-- QMSG_TIMEOUT (R331): No message is accepted for QMSG_TO seconds, so the candidate's QL becomes 15 and
  QMSG_LOST is raised. -/
  | qmsgTimeout (i : Fin 9)
  /-- INPUT_DESCRIPTOR_WRITE (R72): A write of input descriptor configuration words is checked and stored, or
  rejected as BIND_ERR. -/
  | inputDescriptorWrite (m : Master) (i : Fin 1152) (w0 w1 : BitVec 32)
  /-- INPUT_CONFIG_APPLY (R72): A stored input configuration takes effect at the next frame start of its format,
  or within 1 ms if the input is not acquired. -/
  | inputConfigApply (i : Fin 1152)
  /-- INPUT_LINE_RECEIVE (R75): A serial or depacketised line is checked for TRS, line numbers, CRC and ANC, and
  written into its bank or synchroniser. -/
  | inputLineReceive (i : Fin 1152) (v : VideoLine)
  /-- FORMAT_DECIDE (R75): After ACQ_FRAMES frames of one measurement, the format is decided and the input goes to
  TIMED, SYNCED or FMT_ERR. -/
  | formatDecide (i : Fin 1152) (pidAgrees : Bool) (clr : BitVec 3)
  /-- INPUT_LOSS (R73): LOSS_LINES lines without a valid EAV, or without packets, send the input to LOST. -/
  | inputLoss (i : Fin 1152)
  /-- ALIGN_ENTRY (R81): After ENTRY_FRAMES frames inside the window, the input becomes TIMED. -/
  | alignEntry (i : Fin 1152)
  /-- ALIGN_EXIT (R81): After OOW_FRAMES frames out of the window, a TIMED input goes to SYNCED or to UNTIMED. -/
  | alignExit (i : Fin 1152)
  /-- FS_AUTO_RELEASE (R85): After 50 frames meeting the re-entry condition, the AUTO synchroniser is released and
  the source returns to the bank. -/
  | fsAutoRelease (i : Fin 1152)
  /-- BANK_READ_FRAME_START (R83): At A(f) + 2 lines a bank starts a read frame and a new ε takes effect. -/
  | bankReadFrameStart (i : Fin 1152)
  /-- VIDEO_PACKET_RECEIVE (R78): A video packet is merged by sequence number into its input's merge buffer, or
  discarded as a duplicate or late packet. -/
  | videoPacketReceive (i : Fin 1152) (flow : BitVec 14) (seq line off : BitVec 32) (words : List (BitVec 10))
  /-- MERGE_LINE_RELEASE (R78): At release(n) a merged line leaves the merge buffer, and missing data makes it
  damaged. -/
  | mergeLineRelease (i : Fin 1152) (eps : BitVec 26) (meas : BitVec 8) (anc : List AncPacket) (audio : List EmbSample)
  /-- FS_READ_FRAME_START (R86): At a read-frame start a FREE synchroniser selects the newest complete frame,
  counting a repeat or a drop. -/
  | fsReadFrameStart (n : Fin 256)
  /-- FS_LOCKED_LINE_READ (R87): A LOCKED synchroniser reads a line at its timestamp time, or repeats the previous
  line if the line is late. -/
  | fsLockedLineRead (n : Fin 256) (line : BitVec 12) (hbmLate : Bool) (word : BitVec 32) (ecc : MemRead)
  /-- FS_FREEZE_EXPIRE (R88): After FREEZE_FR frames of freeze following loss, the synchroniser carries black. -/
  | fsFreezeExpire (n : Fin 256)
  /-- VIN_REBIND (R73): One frame after a BLOCK reset of VIN, every input is rebound from its descriptor. -/
  | vinRebind 
  /-- OUTPUT_DESCRIPTOR_WRITE (R98): A write of output descriptor words is checked and stored, or rejected with
  XPT_BIND. -/
  | outputDescriptorWrite (m : Master) (o : Fin 1152) (w0 w1 : BitVec 32)
  /-- OUTPUT_CONFIG_APPLY (R98): A stored output configuration takes effect at the next frame start of the
  output's format. -/
  | outputConfigApply (o : Fin 1152)
  /-- SALVO_GO (R107): A write of 1 to XPT_TAKE[k].GO starts the validation of salvo table k. -/
  | salvoGo (m : Master) (k : Fin 2)
  /-- SALVO_VALIDATION_DONE (R109): Salvo validation completes, and the salvo is rejected or armed for a take
  frame. -/
  | salvoValidationDone (k : Fin 2) (near : Bool)
  /-- SALVO_CANCEL (R113): A write of 1 to XPT_TAKE[k].CANCEL cancels a validating or armed salvo, or is ignored.
  -/
  | salvoCancel (m : Master) (k : Fin 2)
  /-- SALVO_CUT (R110): At C(F) every salvo armed for frame F is committed to the data path in arming order. -/
  | salvoCut 
  /-- REFERENCE_FRAME_START (R103): At T(F), XPT_FRAME increments and the COMPAT switch-line setting is sampled.
  -/
  | referenceFrameStart 
  /-- SWITCH_POINT (R104): At a destination's switch point, committed changes land, AIR fields update, and the
  format mismatch is judged. -/
  | switchPoint (d : Fin 1664) (line : BitVec 12)
  /-- STATE_CHECK (R120): Two line periods after a due switch point, AIR is compared with REQ and XPT_STATE is
  raised on a difference. -/
  | stateCheck (d : Fin 1664)
  /-- OUTPUT_FRAME_START (R100): At O(f) an output starts its frame, placing the line-1 EAV in a link frame or
  starting its packet calendar. -/
  | outputFrameStart (o : Fin 1152)
  /-- OUTPUT_LINE_GATHER (R263): The gather unit of an external output assembles one output line into lane slots
  or egress payload. -/
  | outputLineGather (o : Fin 1152) (line : BitVec 12) (f2 late : Bool) (room : BitVec 8) (word : BitVec 32) (ecc : MemRead)
  /-- CMP_COMMIT_GO (R142): A write of 1 to CMP_COMMIT.GO copies the shadow to pending and starts its validation.
  -/
  | cmpCommitGo (m : Master) (n : Fin 64)
  /-- COMMIT_VALIDATION_DONE (R142): Commit validation completes, and the commit is rejected or becomes PENDING.
  -/
  | commitValidationDone (n : Fin 64)
  /-- DECISION_POINT (R143): At D(N) each pending commit or sealed group is examined and flips if its fence
  condition holds. -/
  | decisionPoint (n : Fin 64)
  /-- FENCE_TIMEOUT (R145): A commit's fence count reaches TIMEOUT, which raises CMP_FENCE_TO and applies TO_ACT.
  -/
  | fenceTimeout (n : Fin 64)
  /-- GROUP_SEAL (R146): A write of 1 to CMP_GROUP[g].SEAL closes the group to new members. -/
  | groupSeal (m : Master) (n : Fin 64) (g : Fin 16)
  /-- COMMIT_CANCEL (R147): A write of 1 to CMP_COMMIT.CANCEL ends an unflipped commit that is outside any sealed
  group. -/
  | commitCancel (m : Master) (n : Fin 64)
  /-- GROUP_CANCEL (R147): A write of 1 to CMP_GROUP[g].CANCEL ends the members of a sealed group. -/
  | groupCancel (m : Master) (n : Fin 64) (g : Fin 16)
  /-- PICTURE_START (R128): At a composer picture start the live configuration applies, layer sources are checked,
  and the stores are built. -/
  | pictureStart (n : Fin 64)
  /-- COMPOSER_LINE (R159): A composer writes an output line into its bank, or the previous line of the field if
  the line is late. -/
  | composerLine (n : Fin 64) (late : Bool)
  /-- KEEPER_LOAD (R152): The authenticated KEEPER_LOAD command copies a surface into the carve-out and checks its
  CRC, or releases the Keeper. -/
  | keeperLoad (target : BitVec 16) (a0 a1 a2 a3 : BitVec 32)
  /-- KEEPER_LOAD_COMPLETE (R152): A Keeper load completes, and the new image replaces the old one at the first
  picture after the next decision point. -/
  | keeperLoadComplete (n : Fin 64)
  /-- KEEPER_SHOW (R152): The authenticated KEEPER_SHOW command sets VIS at the next picture. -/
  | keeperShow (target : BitVec 16)
  /-- KEEPER_HIDE (R152): The authenticated KEEPER_HIDE command clears VIS at the next picture. -/
  | keeperHide (target : BitVec 16)
  /-- KEEPER_CRC_CHECK (R156): Every second the CRC of each Keeper image is recomputed, and a mismatch raises
  KEEPER_CRC. -/
  | keeperCrcCheck 
  /-- SAMPLE_INSTANT (R163): At each sample instant the AMC increments by 1. -/
  | sampleInstant 
  /-- PERIOD_BOUNDARY (R25): At B(n) intake blocks load, mix results go to egress, Nova exchanges run, and
  boundary-applied changes take effect. -/
  | periodBoundary 
  /-- INTAKE_CLOSE (R165): At B(n) + 2 µs the presented samples are fixed, and absent samples are substituted as
  missing. -/
  | intakeClose 
  /-- SAP_CLOCK_DETECT (R172): A clock or line transitions present for 4 frame periods move a port from NOCLK to
  SEEK. -/
  | sapClockDetect (p : Fin 16)
  /-- SAP_FRAME_FOUND (R172): Four consecutive frames at the configured spacing move a port to RUN and assign its
  stamps. -/
  | sapFrameFound (p : Fin 16) (edge : BitVec 32) (frac : BitVec 11) (rate : BitVec 14)
  /-- SAP_FRAME_RECEIVE (R173): A port frame is stamped, its samples are stored in the receive ring, and its
  transmit samples are sent. -/
  | sapFrameReceive (p : Fin 16) (f : SapFrame)
  /-- SAP_CLOCK_LOSS (R172): No clock or line transitions for 4 frame periods send a port from RUN to NOCLK. -/
  | sapClockLoss (p : Fin 16)
  /-- SAP_MASK_COMMIT (R176): A write of 1 to SAP_MASK_COMMIT.GO requests the new masks. -/
  | sapMaskCommit (m : Master) (p : Fin 16)
  /-- SAP_MASK_APPLY (R176): Both masks go into use at the first block boundary 4 or more frames after the write.
  -/
  | sapMaskApply (p : Fin 16)
  /-- TRACKER_INPUT (R181): A tracker measures an input sample instant on the AMC and updates its ratio and phase.
  -/
  | trackerInput (t : Fin 64) (ratio phase pherr : BitVec 32)
  /-- TRACKER_LOCK (R183): A phase error within 1/16 sample for 50 ms moves a tracker to LOCKED, and its output
  ramps in. -/
  | trackerLock (t : Fin 64)
  /-- TRACKER_HOLD (R183): No input sample for 2 ms moves a tracker to HOLD and raises ASRC_LOCK. -/
  | trackerHold (t : Fin 64)
  /-- TRACKER_RANGE (R183): A rate out of tolerance for 100 ms moves a tracker to RANGE. -/
  | trackerRange (t : Fin 64)
  /-- TRACKER_RANGE_CLEAR (R183): A rate back in tolerance for 100 ms returns a tracker to ACQUIRE. -/
  | trackerRangeClear (t : Fin 64)
  /-- ASRC_COMMIT (R184): A write of 1 to ASRC_COMMIT.GO requests the channel table for the next boundary. -/
  | asrcCommit (m : Master)
  /-- AUDIO_PACKET_RECEIVE (R191): An audio flow packet is checked, merged across paths, stamped and stored in its
  ring. -/
  | audioPacketReceive (d : Fin 512) (pathB : Bool) (k : AudioPacket)
  /-- AUDIO_PACKET_QUEUE (R192): A transmit descriptor queues a packet at the first calendar slot after its
  samples are complete. -/
  | audioPacketQueue (d : Fin 512)
  /-- AMAP_COMMIT (R196): A write of 1 to AMAP_CTRL.GO starts the validation of the audio map shadows. -/
  | amapCommit (m : Master)
  /-- AMAP_VALIDATION_DONE (R196): AMAP validation completes, and the commit is rejected or becomes pending. -/
  | amapValidationDone 
  /-- GAIN_WRITE (R214): A gain table write is accepted for the next boundary, staged in a batch, ignored, or
  withheld while the ramp queue is full. -/
  | gainWrite (m : Master) (off : BitVec 25) (data : List (BitVec 8))
  /-- GAIN_WRITE_ACCEPT (R217): A withheld gain write is accepted once the pending queue has room, and its
  response returns. -/
  | gainWriteAccept 
  /-- BATCH_OPEN (R218): A write of MIX_CTRL.BATCH = 1 opens the staging list. -/
  | batchOpen (m : Master)
  /-- BATCH_COMMIT (R218): A write of 1 to COMMIT closes the staging list for its boundary, or applies it at once
  on a stopped engine. -/
  | batchCommit (m : Master)
  /-- BATCH_DISCARD (R218): A write of 1 to DISCARD empties the staging list. -/
  | batchDiscard (m : Master)
  /-- MIX_TILE_PERIOD (R209): A mix tile runs its period program over the intake block of the period. -/
  | mixTilePeriod (t : Fin 64) (e : Fin 262144) (ecc : MemRead)
  /-- NOVA_BUNDLE_ISSUE (R227): A Nova core issues one 96-bit bundle in one step, followed by loop and interrupt
  evaluation. -/
  | novaBundleIssue (k : Fin 64) (im dm dm2 : MemRead)
  /-- NOVA_EXCHANGE_END (R245): E steps after entry the exchange section ends, and the core enters RUN at ENTRY.
  -/
  | novaExchangeEnd (k : Fin 64)
  /-- NOVA_HANDLER_WINDOW (R249): A handler still running IWIN steps after entry raises NOVA_IWIN. -/
  | novaHandlerWindow (k : Fin 64)
  /-- NOVA_RUN (R252): A write of NOVA_CTRL.RUN = 1 on a HALTED core checks the exchange layout and starts the
  core, or refuses it. -/
  | novaRun (m : Master) (k : Fin 64)
  /-- NOVA_STOP (R247): A write of RUN = 0 halts the core at the next boundary. -/
  | novaStop (m : Master) (k : Fin 64)
  /-- NOVA_CLR_FAULT (R243): A write of 1 to CLR_FAULT moves the core from FAULT to HALTED. -/
  | novaClrFault (m : Master) (k : Fin 64)
  /-- NOVA_DOORBELL (R253): A write to NOVA_DBELL stores a value for delivery at the next exchange section. -/
  | novaDoorbell (m : Master) (k : Fin 64) (v : BitVec 32)
  /-- NOVA_PARAM_GO (R254): A write of NOVA_PARAM.GO commits the staged parameters for copying at the next
  exchange section. -/
  | novaParamGo (m : Master) (k : Fin 64) (len : BitVec 7)
  /-- SCHED_LOAD (R277): A write of 1 to SCHED_LOAD.GO starts the validation of the image in the buffer. -/
  | schedLoad (m : Master)
  /-- IMAGE_VALIDATION_DONE (R277): Image validation completes, and the image is refused or becomes pending. -/
  | imageValidationDone 
  /-- STEP_MONITOR_WINDOW (R262): A step monitor's 10 µs window ends, and the rate is recorded and checked against
  the floor. -/
  | stepMonitorWindow (k : Fin 64) (steps : BitVec 16) (mv tj : BitVec 10)
  /-- GOVERNOR_INTERVAL (R266): At the end of each INTERVAL the governor adjusts the commanded core voltage. -/
  | governorInterval 
  /-- AVS_FRAME_DONE (R265): An AVSBus frame completes, and it is checked and repeated once on failure. -/
  | avsFrameDone (frame : Fin 3) (ok : Bool) (value : BitVec 10)
  /-- UNIT_DEADLINE (R280): At each deadline the guard records a unit's slack, counts its steps and classes any
  overrun. -/
  | unitDeadline (cls : Fin 4) (unit : Fin 1152) (steps : BitVec 32) (slack : Option (BitVec 10))
  /-- ETH_FRAME_RECEIVE (R294): A received Ethernet frame is checked, timestamped and classified to a flow, the
  exception ring or a drop. -/
  | ethFrameReceive (k : Fin 32) (frame : List (BitVec 8)) (pcsErr fecErr : Bool)
  /-- ETH_LINK_UP (R292): A link's PCS and FEC report alignment with no fault, and the link comes up. -/
  | ethLinkUp (k : Fin 32) (fault : Bool)
  /-- ETH_LINK_DOWN (R292): A link goes down, which raises ETH_LINK and stops its traffic. -/
  | ethLinkDown (k : Fin 32) (aligned : Bool)
  /-- FLOW_ENTRY_WRITE (R296): A write to flow word 0 checks and applies words 0–3 between packets, or refuses
  them. -/
  | flowEntryWrite (m : Master) (e : Fin 16384) (w0 : BitVec 32)
  /-- QUEUE_ENABLE (R299): A write of queue EN = 1 validates the queue and template, or refuses it. -/
  | queueEnable (m : Master) (q : Fin 16376) (w0 : BitVec 32)
  /-- QUEUE_DISABLE (R299): A write of queue EN = 0 disables the queue at the next frame boundary and discards its
  descriptors. -/
  | queueDisable (m : Master) (q : Fin 16376) (w0 : BitVec 32)
  /-- DESCRIPTOR_ENQUEUE (R301): A producer enqueues a frame descriptor with a sequence number and a deadline, or
  it is dropped at a full queue. -/
  | descriptorEnqueue (q : Fin 16376) (stamp : BitVec 32) (marker : Bool) (kind : PayloadKind) (payload : List (BitVec 8))
  /-- DESCRIPTOR_EXPIRE (R301): A descriptor not started by its deadline is discarded and raises Q_EXPIRED. -/
  | descriptorExpire (q : Fin 16376)
  /-- CALENDAR_CYCLE_START (R303): A calendar cycle starts at an alignment event, or a newly applied calendar
  takes over. -/
  | calendarCycleStart (n : Fin 8) (event : Bool)
  /-- CALENDAR_ENTRY (R304): At an entry's time the link serves the head descriptor of its queue, or the entry
  stays empty. -/
  | calendarEntry (n : Fin 8) (j : Fin 16384) (cut late : Bool)
  /-- SLOT_FORFEIT (R307): An entry whose frame cannot start by t_e + SLOT_WIN is forfeited and raises SLOT_MISS.
  -/
  | slotForfeit (k : Fin 32)
  /-- PAUSE_END (R308): A pause time expires and a waiting frame may start. -/
  | pauseEnd (k : Fin 32) (cls : Fin 9)
  /-- PAUSE_LIMIT (R308): A class paused beyond MAX_PAUSE raises PAUSE_LONG. -/
  | pauseLimit (k : Fin 32) (cls : Fin 9)
  /-- CPU_FRAME_GO (R298): A write of FLOWQ_CPU_CMD.GO enqueues a CPU frame descriptor, or is held while the queue
  is full. -/
  | cpuFrameGo (m : Master) (n : Fin 8) (w : BitVec 32)
  /-- CPU_DESCRIPTOR_ACCEPT (R298): A held CPU descriptor is accepted once a slot frees. -/
  | cpuDescriptorAccept (n : Fin 8)
  /-- CPU_FRAME_SEND (R305): A CPU frame is sent when its occupancy ends before the next calendar entry. -/
  | cpuFrameSend (k : Fin 32)
  /-- CRC_MEMORY_JOB (R315): A write of CRCU_MEM_CTRL.GO starts a memory CRC job, or is refused. -/
  | crcMemoryJob (m : Master) (w : BitVec 32)
  /-- CRC_MEMORY_JOB_DONE (R315): A memory job completes and writes its result. -/
  | crcMemoryJobDone 
  /-- REF_PHASE_EVENT (R341): A phase event of the selected candidate updates the loop, and a pending switch takes
  its build-out. -/
  | refPhaseEvent (i : Fin 9) (fall : Bool) (phase : BitVec 32)
  /-- CANDIDATE_PRESENT (R328): A candidate meets its presence condition and goes to QUALIFYING. -/
  | candidatePresent (i : Fin 9)
  /-- CANDIDATE_LOST (R328): A candidate's events are missing beyond its limit, so it goes to ABSENT and the
  selection is re-evaluated. -/
  | candidateLost (i : Fin 9)
  /-- CANDIDATE_MEASURE (R335): Each second every present candidate's frequency and drift are measured against the
  holdover value. -/
  | candidateMeasure (freqs : List (BitVec 32)) (mean : BitVec 24)
  /-- QUALIFICATION_DONE (R334): After QUAL_S seconds of acceptable events the candidate becomes QUALIFIED. -/
  | qualificationDone (i : Fin 9)
  /-- DISQUALIFICATION (R334): Hard drift for QUAL_S seconds, or a bad event period for 1 s, disqualifies a
  candidate. -/
  | disqualification (i : Fin 9) (hard : Bool)
  /-- DISQ_HOLD_EXPIRE (R334): After DISQ_HOLD seconds with the cause cleared, a candidate returns to QUALIFYING.
  -/
  | disqHoldExpire (i : Fin 9)
  /-- DISAGREEMENT (R336): Two equal-rank candidates disagree for QUAL_S seconds, and a judge decides between
  them. -/
  | disagreement (i j : Fin 9) (cleared : Bool)
  /-- REF_MANUAL_SELECT (R340): The authenticated command selects a candidate on the pair, or is refused. -/
  | refManualSelect (target : BitVec 16)
  /-- LOOP_ACQUIRED (R342): A phase error below THRESH for 1 s moves the loop from ACQUIRE to NARROW. -/
  | loopAcquired 
  /-- LOOP_NARROW_STEP (R342): Every NARROW_S seconds the bandwidth halves, reaching TRACK at TRACK_BW. -/
  | loopNarrowStep 
  /-- LOOP_PHASE_LOSS (R342): A phase error over 10 × THRESH for 1 s returns the loop to ACQUIRE. -/
  | loopPhaseLoss 
  /-- RECOVERY_END (R343): RECOV_S seconds after leaving ACQUIRE the RECOVERY regime ends. -/
  | recoveryEnd 
  /-- HOLDOVER_AGE_LIMIT (R348): The holdover reaches HOLD_MAX, so its QL becomes 14 and REF_FREERUN is raised. -/
  | holdoverAgeLimit 
  /-- GENERATOR_FRAME_START (R349): A frame generator of rate r starts a frame, giving alignment points and frame
  pulses. -/
  | generatorFrameStart (r : Fin 8) (phase : BitVec 32)
  /-- REALIGN (R352): A write of MER_LOOP_REALIGN.GO requests the realignment of the selected items. -/
  | realign (m : Master)
  /-- REALIGN_APPLY (R352): Generators, outputs and the sample grid take their basis phase at their next frame
  start, pulse or edge. -/
  | realignApply (item : Fin 14)
  /-- FPOUT_PULSE_END (R353): A frame-pulse output ends its WIDTH µs pulse. -/
  | fpoutPulseEnd (n : Fin 4)
  /-- PTP_SERVO_UPDATE (R356): Once per sync interval the servo steps or steers the STC, or refuses a jump. -/
  | ptpServoUpdate (x : Fin 2) (ofs : BitVec 96)
  /-- PTP_RESTEP (R357): The authenticated command arms a step of the STC at the next measured offset. -/
  | ptpRestep (target : BitVec 16)
  /-- PTP_ANNOUNCE_TIMEOUT (R355): ANN_TO announce intervals without an announce return an instance to LISTENING.
  -/
  | ptpAnnounceTimeout (x : Fin 2)
  /-- PTP_SYNC_TIMEOUT (R355): SYNC_TO sync intervals without a sync return an instance to LISTENING. -/
  | ptpSyncTimeout (x : Fin 2)
  /-- STC_ADVANCE (R359): Each LOSC_IN cycle the STC advances by 40 ns corrected by TIME_RATE. -/
  | stcAdvance 
  /-- STC_READ_LATCH (R359): A read of TIME_STC_NS latches the seconds and the fraction for the reading master. -/
  | stcReadLatch (m : Master)
  /-- COMPARE_ARM (R362): A write of ARM arms a compare unit, which fires at once if its target has passed. -/
  | compareArm (m : Master) (u : Fin 8)
  /-- COMPARE_DISARM (R362): A write of DISARM disarms a compare unit. -/
  | compareDisarm (m : Master) (u : Fin 8)
  /-- EVENT_CAPTURE (R364): A selected EVT or REFIN edge is stamped into the event FIFO, or lost when the FIFO is
  full. -/
  | eventCapture (source : Fin 12) (fall : Bool) (ns : Fin 40)
  /-- WRITE_CELL (R380): A mirrored WRITE cell is received and queued for its epoch. -/
  | writeCell (seq : BitVec 16) (epoch : BitVec 32) (space : Fin 3) (be : BitVec 4) (page : BitVec 16) (off data bidx : BitVec 32) (master : BitVec 8)
  /-- BULK_CELL (R377): A BULK cell of mirrored or resync data is received. -/
  | bulkCell (seq : BitVec 16) (sub : BitVec 8) (addr : BitVec 32) (stack : Fin 2) (slice : Fin 8) (bytes : List (BitVec 8))
  /-- DECISION_CELL (R381): A decision of the active device is received and queued for its epoch. -/
  | decisionCell (seq : BitVec 16) (epoch : BitVec 32) (kind : BitVec 8) (page : BitVec 16) (bidx w4 w5 w6 w7 : BitVec 32)
  /-- DIGEST_CELL (R385): Mate digests are received for comparison. -/
  | digestCell (label : BitVec 32) (first : BitVec 13) (digests : List (BitVec 32))
  /-- HEALTH_CELL (R395): The mate's health, state and LSIDE count are received. -/
  | healthCell (h : BitVec 2) (st : BitVec 3) (part : Bool) (lside : BitVec 6) (badStraps : Bool) (sel : BitVec 4)
  /-- ACK_CELL (R378): An acknowledgement frees replay-buffer cells. -/
  | ackCell (seq : BitVec 16)
  /-- NAK_CELL (R378): A NAK makes the sender resend from the missing SEQ. -/
  | nakCell (seq : BitVec 16)
  /-- YIELD_CELL (R390): A YIELD from the active mate makes a STANDBY device take over and return TAKE. -/
  | yieldCell (cause : BitVec 32) (last : BitVec 16)
  /-- TAKE_CELL (R375): A TAKE from the mate moves a yielding device to STANDBY. -/
  | takeCell 
  /-- VERDICT_CELL (R387): The mate's verdict is received and attribution is decided. -/
  | verdictCell (u : BitVec 13) (label : BitVec 32) (fault : Bool) (src : BitVec 8)
  /-- TREF_CELL (R383): The mate's reference-frame position is received as the TWIN candidate's phase event. -/
  | trefCell (frame : BitVec 32) (pos : BitVec 6) (phase : BitVec 32)
  /-- COUNTERS_CELL (R383): During resync the standby adopts the active device's counters and realigns. -/
  | countersCell (frame amc epoch : BitVec 32) (gens pics : List (BitVec 32))
  /-- MIRROR_APPLY (R379): At the mirror step boundary of an epoch the queued items are applied in SEQ order. -/
  | mirrorApply 
  /-- MATE_LOST (R375): No LGTW UP or HEALTH cell for LOSS_US µs declares the mate lost. -/
  | mateLost 
  /-- PAIR_WAIT_EXPIRE (R375): PAIR_WAIT passes without LGTW UP, and the device goes to ALONE. -/
  | pairWaitExpire 
  /-- ARBITRATION (R376): Both devices are active for 4 superframes, and the device with fewer LSIDE groups yields
  to STBY_SYNC. -/
  | arbitration 
  /-- YIELD_DECISION (R390): The active device yields, sending HOLD and YIELD cells and stopping mirrored writes.
  -/
  | yieldDecision 
  /-- TAKE_TIMEOUT (R375): No TAKE within 1 ms returns a yielding device to ACTIVE with PAIR_NO_TAKE. -/
  | takeTimeout 
  /-- ACK_TIMEOUT (R378): No ACK for 1 ms empties the replay buffer and starts a resync. -/
  | ackTimeout 
  /-- RESYNC_GO (R383): A write of TWIN_RESYNC.GO on the active device starts a resync. -/
  | resyncGo (m : Master)
  /-- RESYNC_PHASE_DONE (R383): A resync phase completes and the next begins, the last leaving the standby in
  STANDBY. -/
  | resyncPhaseDone (compat : BitVec 4) (cores : List NovaCapture)
  /-- UMPIRE_COMPARE (R385): An own digest is compared with the mate's, or counted as a gap, and three mismatches
  enter DISPUTE. -/
  | umpireCompare (u : BitVec 13)
  /-- VERDICT_SEND (R386): When window W closes, each device sends its verdict fault bit. -/
  | verdictSend 
  /-- VERDICT_TIMEOUT (R387): No mate verdict within 1 ms gives attribution 3. -/
  | verdictTimeout 
  /-- HEALTH_GRADE (R394): Every 10 ms a device grades its health and sends a HEALTH cell. -/
  | healthGrade 
  /-- HEALTH_CLR (R394): A write of TWIN_HEALTH.CLR clears the latched health causes. -/
  | healthClr (m : Master)
  /-- BIST_SEGMENT (R396): A standby runs a logic BIST segment in a tile's idle window. -/
  | bistSegment (tile : BitVec 10) (r : BistEnd)
  /-- LSIDE_MISMATCH (R397): A group's LSIDE differs from the expectation for 2 line periods, which raises
  PAIR_STATE. -/
  | lsideMismatch (g : Fin 32)
  /-- TWIN_SWITCHOVER (R392): The authenticated command makes the active device yield, or moves a standby with a
  lost mate to ALONE. -/
  | twinSwitchover (target : BitVec 16) (a0 : BitVec 32)
  /-- TWIN_SWITCHBACK (R393): The authenticated command moves activity to the HOME side. -/
  | twinSwitchback (target : BitVec 16)
  /-- SECOND_ATTEMPT_TIMEOUT (R406): No second attempt within 100 ms reports the fault as lasting. -/
  | secondAttemptTimeout (src : BitVec 8) (page : BitVec 16) (inst : BitVec 32)
  /-- HOLD_LIMIT (R411): A video hold beyond MAX_FRAMES frames carries black. -/
  | holdLimit (d : Fin 1664)
  /-- FCU_ACK (R412): A write of 1 to FCU_ACK bit c acknowledges the entries of class c. -/
  | fcuAck (m : Master) (classes : BitVec 16)
  /-- FF_CLR (R414): A write of FCU_CTRL.FF_CLR clears the first-fault record. -/
  | ffClr (m : Master)
  /-- ALIVE_CLR (R416): A write of FCU_CTRL.ALIVE_CLR resumes ALIVE if no stop condition or unacknowledged
  CRITICAL remains. -/
  | aliveClr (m : Master)
  /-- HEARTBEAT (R416): A write to FCU_HEARTBEAT is a firmware heartbeat. -/
  | heartbeat (m : Master) (v : BitVec 32)
  /-- HEARTBEAT_TIMEOUT (R416): No heartbeat for 2 ms stops ALIVE and raises HK_HEARTBEAT. -/
  | heartbeatTimeout 
  /-- HB_GRACE_EXPIRE (R417): The WARM grace period ends without a heartbeat, and the heartbeat stop condition is
  present. -/
  | hbGraceExpire 
  /-- ALIVE_TOGGLE (R415): ALIVE changes level at its programmed frequency. -/
  | aliveToggle 
  /-- INJECT_ARM (R418): The authenticated command arms a checker for one injected access, or is refused. -/
  | injectArm (target : BitVec 16) (a0 a1 : BitVec 32)
  /-- INJECT_EXPIRE (R418): An arming with no access within 1 s expires and sets INJ_EXPIRED. -/
  | injectExpire 
  /-- SCRUB_STEP (R423): The scrubber reads a protected word in a free slot and writes back a corrected word, or
  poisons it. -/
  | scrubStep (k : Fin 8) (i : BitVec 16) (a : BitVec 32) (syn again : BitVec 16) (pos : BitVec 12)
  /-- REGISTER_WRITE (R26): A write to register or table space with no row of its own is judged by access rights
  and applied to its fields. -/
  | registerWrite (m : Master) (addr : BitVec 32) (id : BitVec 6) (first last : BitVec 4) (ws : List (BitVec 32))
  /-- TABLE_WINDOW_ACCESS (R491): A TW_DATA access reads or writes the table word at INDEX, incrementing INDEX or
  setting ERR. -/
  | tableWindowAccess (m : Master) (p : BitVec 16) (data : Option (BitVec 32 × BitVec 4)) (syn again : BitVec 32)
  /-- TABLE_SPACE_ACCESS (R493): A BAR2 access reaches the gain table, image buffer, table aperture or surface
  aperture. -/
  | tableSpaceAccess (m : Master) (off : BitVec 29) (data : Option (List (BitVec 32 × BitVec 4))) (n : BitVec 7) (syn again : BitVec 32)
  /-- SINCE_LAST_READ_RESTART (R489): A read of a since-last-read register restarts its fields. -/
  | sinceLastReadRestart (m : Master) (p : BitVec 16) (off : BitVec 12)
  /-- FABRIC_TIMEOUT (R431): A target silent for 1 ms is answered for with SLVERR, which raises CFAB_TIMEOUT. -/
  | fabricTimeout (m : Master) (addr : BitVec 32) (id : BitVec 6) (write : Bool)
  /-- USB4_LINK_UP (R436): The USB4 link comes up at the highest common generation. -/
  | usb4LinkUp (gen : BitVec 3) (tunnel busMaster msix : Bool)
  /-- USB4_LINK_DOWN (R436): The USB4 link is lost, which ends outstanding host transactions and raises USB4_DOWN.
  -/
  | usb4LinkDown 
  /-- USB4_ROUTER_RESET (R438): A reset of the device router by its upstream router performs a WARM reset. -/
  | usb4RouterReset 
  /-- FUNCTION_LEVEL_RESET (R438): A function-level reset returns the function, MSI-X and HOST page to COLD
  values. -/
  | functionLevelReset 
  /-- HOST_EOI (R439): A write of a HOST_EOI bit re-evaluates its vector and sends a message if its condition
  stands. -/
  | hostEoi (m : Master) (v : Fin 64)
  /-- MSIX_UNMASK (R439): Unmasking a vector whose condition is 1 sends a message. -/
  | msixUnmask (m : Master) (v : Fin 64)
  /-- MSPI_READ (R441): SPI command 0x0B reads words from a fabric address. -/
  | mspiRead (addr : BitVec 32) (n : BitVec 8)
  /-- MSPI_WRITE (R441): SPI command 0x02 writes words to a fabric address. -/
  | mspiWrite (addr : BitVec 32) (ws : List (BitVec 32))
  /-- MSPI_STATUS (R441): SPI command 0x05 returns the status byte and clears its error bits. -/
  | mspiStatus 
  /-- MSPI_BAD_FRAME (R441): An unknown command byte or a short SPI frame is discarded and raises MSPI_ERR. -/
  | mspiBadFrame 
  /-- BI2C_WRITE (R442): An I2C write transfer sets a fabric address and writes data words. -/
  | bi2cWrite (addr : BitVec 32) (ws : List (BitVec 32)) (ok : Bool)
  /-- BI2C_READ (R442): An I2C read transfer returns data words from the address. -/
  | bi2cRead (n : BitVec 8) (ok : Bool)
  /-- BOOT_GO (R444): A write of HOST_CTRL.BOOT_GO submits a host image for verification. -/
  | bootGo (m : Master)
  /-- NONCE_DRAWN (R447): The session nonce is drawn within 1 ms of reset release. -/
  | nonceDrawn (n : BitVec 64)
  /-- CMD_CLAIM (R445): A read of CMD_CLAIM grants mailbox ownership if the mailbox is free. -/
  | cmdClaim (m : Master)
  /-- CMD_RELEASE (R445): A write of CMD_CTRL.RELEASE ends ownership. -/
  | cmdRelease (m : Master)
  /-- CMD_OWNER_TIMEOUT (R445): 100 ms without a write from the owner ends ownership. -/
  | cmdOwnerTimeout 
  /-- CMD_GO (R446): A write of CMD_CTRL.GO issues the command and starts verification. -/
  | cmdGo (m : Master)
  /-- CMD_VERIFY_DONE (R447): Tag and counter checking ends in acceptance, or in TAG_FAIL, COUNTER_FAIL, LOCKED or
  BAD_OP. -/
  | cmdVerifyDone 
  /-- MAILBOX_LOCK_EXPIRE (R450): The 1 s lock after a command flood ends. -/
  | mailboxLockExpire 
  /-- FW_INSTALL (R453): The authenticated command checks a staged image and starts writing it to a flash bank. -/
  | fwInstall (target : BitVec 16) (a0 a1 : BitVec 32)
  /-- FW_INSTALL_DONE (R453): The flash write completes with the header written last, or fails. -/
  | fwInstallDone (ok : Bool)
  /-- KEY_ROTATE (R454): The authenticated command makes key slot 1 active and optionally revokes slot 0. -/
  | keyRotate (target : BitVec 16) (a0 : BitVec 32)
  /-- KEY_ROTATE_DONE (R454): The OTP fuse programming of a key rotation completes. -/
  | keyRotateDone (ok : Bool)
  /-- COMPAT_SET (R455): The authenticated command sets DEV_COMPAT under the conditions of R29, or is refused. -/
  | compatSet (target : BitVec 16) (a0 : BitVec 32)
  /-- POR (R463): Power-on reset clears everything including the always-on store and samples the straps. -/
  | por 
  /-- COLD_RESET (R463): RESET_N asserted clears everything except OTP and the always-on store. -/
  | coldReset 
  /-- WARM_RST (R472): A write of DEV_CTRL.WARM_RST requests a WARM reset of the control plane. -/
  | warmRst (m : Master)
  /-- WARM_RESET_DONE (R472): The control plane reset completes and the boot ROM runs, with the media path kept.
  -/
  | warmResetDone 
  /-- BLOCK_RESET (R472): A write of PAGE_CTRL.BRST starts a BLOCK reset of one page. -/
  | blockReset (m : Master) (p : BitVec 16)
  /-- BLOCK_RESET_DONE (R472): A BLOCK reset completes and BRST returns to 0. -/
  | blockResetDone (p : BitVec 16)
  /-- PAGE_CTRL_WRITE (R483): A write to PAGE_CTRL sets PWR_REQ and ENABLE, starting or stopping the block. -/
  | pageCtrlWrite (m : Master) (p : BitVec 16) (data : BitVec 32) (be : BitVec 4)
  /-- BROWN_OUT (R475): A rail below its brown-out threshold for 2 µs releases the outputs in order and raises
  BROWNOUT. -/
  | brownOut (n : Fin 10)
  /-- BROWN_OUT_RECOVERY (R476): After every rail has been in window for 1 ms, a COLD reset completes with CAUSE
  2. -/
  | brownOutRecovery (scale compat side bootHost : Bool)
  /-- RAIL_MONITOR (R424): A supply monitor finds a rail out of its window for 10 µs and raises its source. -/
  | railMonitor (n : Fin 10) (mv : BitVec 12) (inWin : Bool)
  /-- TJ_MONITOR (R424): Thermal sensors exceed WARN or 115 °C, or disagree, and raise their sources. -/
  | tjMonitor (tj : BitVec 10) (warm : Bool) (spread : BitVec 8)
  /-- CLUSTER_SLEEP (R469): A cluster with no work is placed in the deepest state that its effective tolerance
  allows. -/
  | clusterSleep (k : Fin 64) (icore ballast : BitVec 10)
  /-- CLUSTER_WAKE (R470): A cluster begins its exit for predicted work or for a demand. -/
  | clusterWake (k : Fin 64) (wait : Bool) (iwake : BitVec 8) (icore ballast : BitVec 10)
  /-- WAKE_DEFER_END (R467): A deferred wake starts once the ramps in progress allow it. -/
  | wakeDeferEnd (k : Fin 64)
  /-- WAKE_COMPLETE (R468): A cluster's exit and any reload complete, and the cluster runs. -/
  | wakeComplete (k : Fin 64) (us : BitVec 24)
  /-- SERVICE_MODE (R465): A write of PWR_CTRL.SERVICE = 1 raises the core current slew limit to 20 A/µs. -/
  | serviceMode (m : Master)
  /-- RESET_RELEASE (R463): POR ends 1 ms after POR_N is high and every rail is in window, or RESET_N returns high
  to end COLD, and the straps are sampled and the boot sequence begins. -/
  | resetRelease (scale compat side bootHost : Bool)
  /-- ANNOUNCE_RECEIVE (R355): A PTP announce message is taken by an instance, which runs the best-master
  algorithm, maps clockClass to QL and moves from LISTENING to UNCALIBRATED or back to UNCALIBRATED on a
  grandmaster change. -/
  | announceReceive (x : Fin 2) (dom : BitVec 8) (gm : BitVec 64) (p1 p2 cls acc : BitVec 8) (variance utc : BitVec 16) (utcValid traceable : Bool)
  /-- DELAY_EXCHANGE (R367): A delay request-response exchange completes, the mean path delay is updated and
  PTP_DELAY is classed by the next exchange. -/
  | delayExchange (x : Fin 2) (delay : BitVec 32)
  /-- HK_LOCKSTEP (R424): The housekeeping lockstep pair detects a mismatch and raises the CRITICAL source 0xD7.
  -/
  | hkLockstep 
  /-- HK_EXCEPT (R424): The housekeeping firmware takes an exception and raises source 0xD8. -/
  | hkExcept 
  /-- USB4_LINK_ERROR (R438): A USB4 or tunnelled-path link error occurs and is reported as USB4_ERR, transient if
  the link layer recovers it and lasting otherwise. -/
  | usb4LinkError (recovered : Bool)
  /-- DECERR_READ (R431): A read of an undecoded address, or one not allowed by the access rights, or one over the
  ID limit, is answered with DECERR or SLVERR, returns zeros and raises 0xD0 or 0xD2. -/
  | decerrRead (m : Master) (addr : BitVec 32) (id : BitVec 6) (n : BitVec 7) (over_ : Bool)
  /-- SAP_LOCK (R201): An AES3 or MADI receiver loses lock on its stream and raises source 0x63. -/
  | sapLock (p : Fin 16)
  deriving DecidableEq, Repr

end Sys2Proof
end

