-- ==== Sys2Proof/Machine/Store.lean ====
section
/-! DEFINITION. Sparse tables as plain data: a list of key and value pairs in one canonical form (keys strictly rising, no
entry equal to the table's default), and the named register fields that are kept in such a table. -/

namespace Sys2Proof.Machine

/-- A sparse table: what is not listed reads as the table's default. -/
abbrev Store (α : Type) := List (Nat × α)

/-- The value at key `k`; the default `d` where nothing is listed. -/
def Store.get {α : Type} (d : α) : Store α → Nat → α
  | [], _ => d
  | (j, v) :: r, k => if k = j then v else Store.get d r k

/-- List `v` at key `k`, keeping the keys rising. -/
def Store.ins {α : Type} (k : Nat) (v : α) : Store α → Store α
  | [] => [(k, v)]
  | (j, w) :: r => if k < j then (k, v) :: (j, w) :: r else if k = j then (k, v) :: r else (j, w) :: Store.ins k v r

/-- Unlist key `k`. -/
def Store.del {α : Type} (k : Nat) (m : Store α) : Store α := m.filter (fun p => p.1 != k)

/-- Write `v` at key `k`: the default value is never listed, so equal tables are equal lists. -/
def Store.set {α : Type} [DecidableEq α] (d : α) (m : Store α) (k : Nat) (v : α) : Store α :=
  if v = d then Store.del k m else Store.ins k v m

/-- Replace the value at key `k` by `f` of it. -/
def Store.upd {α : Type} [DecidableEq α] (d : α) (m : Store α) (k : Nat) (f : α → α) : Store α :=
  Store.set d m k (f (Store.get d m k))

/-- Unlist every key in `lo ≤ key < hi`. -/
def Store.clear {α : Type} (lo hi : Nat) (m : Store α) : Store α := m.filter (fun p => !(lo ≤ p.1 && p.1 < hi))

/-- The entries with `lo ≤ key < hi`. -/
def Store.range {α : Type} (lo hi : Nat) (m : Store α) : Store α := m.filter (fun p => lo ≤ p.1 && p.1 < hi)

/-- Copy the range `lo ≤ key < hi` onto the range that begins at `dst`, whatever stood there. -/
def Store.copy {α : Type} (lo hi dst : Nat) (m : Store α) : Store α :=
  (Store.range lo hi m).foldl (fun r p => Store.ins (p.1 - lo + dst) p.2 r) (Store.clear dst (dst + (hi - lo)) m)

/-- The canonical form: keys strictly rising and no default value listed. -/
def Store.wf {α : Type} [DecidableEq α] (d : α) : Store α → Bool
  | [] => true
  | [(_, v)] => v ≠ d
  | (j, v) :: (k, w) :: r => decide (j < k) && decide (v ≠ d) && Store.wf d ((k, w) :: r)

/-- Access codes of a field (R6). -/
inductive Acc | rw | ro | wo | w1c | w1s | rwl
  deriving DecidableEq, Repr

/-- What a COLD or a WARM reset does to a field (R9). -/
inductive Rst | kept | val (n : Nat)
  deriving DecidableEq, Repr

/-- One field of a register or of a table word: where it stands (space 0 register space, space 1 the page's table window;
8 more for the copy in use, 16 more for a pending copy), its page, the byte offset or word index, lowest bit, width, access
code, the values at POR, COLD and WARM, and, for an array of registers, the distance and count of its members. -/
structure Fld where
  space : Nat
  page : Nat
  off : Nat
  lo : Nat
  w : Nat
  acc : Acc
  por : Nat
  cold : Rst
  warm : Rst
  stride : Nat
  count : Nat
  deriving DecidableEq, Repr

/-- The key of a place: space, page, offset and bit packed into one number. -/
def placeKey (space page off lo : Nat) : Nat := ((space * 512 + page) * 67108864 + off) * 32 + lo

/-- The key of a field in the field table. -/
def Fld.key (f : Fld) : Nat := placeKey f.space f.page f.off f.lo

/-- A field whose place fits its key: true of every field of the field maps. -/
def Fld.ok (f : Fld) : Bool := f.page < 512 && f.off < 67108864 && f.lo < 32

/-- Member `i` of an array of registers or table entries. -/
def Fld.nth (f : Fld) (i : Nat) : Fld := { f with off := f.off + i * f.stride }

/-- The same field on the `i`-th page of its block. -/
def Fld.on (f : Fld) (i : Nat) : Fld := { f with page := f.page + i }

/-- The copy of a shadowed field that is in use. -/
def Fld.live (f : Fld) : Fld := { f with space := f.space + 8 }

/-- The copy of a shadowed field that waits for its boundary. -/
def Fld.pend (f : Fld) : Fld := { f with space := f.space + 16 }

/-- Whether the field, or a member of its array, stands in the word at `off`; the answer is the member number. -/
def Fld.hit (f : Fld) (space off : Nat) : Option Nat :=
  if f.space = space ∧ f.off ≤ off then
    if f.stride = 0 then (if off = f.off then some 0 else none)
    else if (off - f.off) % f.stride = 0 ∧ (off - f.off) / f.stride < f.count then some ((off - f.off) / f.stride)
    else none
  else none

/-- Read a field table: a field holds as many bits as its width. -/
def getFld (m : Store Nat) (f : Fld) : Nat := Store.get f.por m f.key % 2 ^ f.w

/-- Write a field table; the value is cut to the field's width. -/
def setFld (m : Store Nat) (f : Fld) (v : Nat) : Store Nat := Store.set f.por m f.key (v % 2 ^ f.w)

/-- A number read as a signed number of `w` bits. -/
def toSigned (w v : Nat) : Int := if v % 2 ^ w < 2 ^ (w - 1) then (v % 2 ^ w : Nat) else (v % 2 ^ w : Nat) - (2 ^ w : Nat)

/-- The two's complement of `w` bits of a signed number. -/
def ofSigned (w : Nat) (v : Int) : Nat := (v % (2 ^ w : Nat)).toNat

/-- Bits `hi` down to `lo` of a number. -/
def bits (v hi lo : Nat) : Nat := v / 2 ^ lo % 2 ^ (hi + 1 - lo)

/-- One bit of a number. -/
def bit (v i : Nat) : Bool := v.testBit i

/-- Set bit `i` of a number to `b`. -/
def setBit (v i : Nat) (b : Bool) : Nat :=
  if v.testBit i == b then v else if b then v + 2 ^ i else v - 2 ^ i

/-- A saturating count: one more, no further than `2 ^ w - 1`. -/
def satInc (w v : Nat) : Nat := if v + 1 < 2 ^ w then v + 1 else 2 ^ w - 1

/-- Add to a saturating count. -/
def satAdd (w v n : Nat) : Nat := min (v + n) (2 ^ w - 1)

/-- 1 for true, 0 for false. -/
def b2n (b : Bool) : Nat := if b then 1 else 0

end Sys2Proof.Machine
end

