-- ==== Sys2Proof/Machine/Crc.lean ====
section
/-! DEFINITION. Bits and cyclic redundancy checks: one shift register for every check of the spec (R46, R74, R312, R330). -/

namespace Sys2Proof.Machine

/-- The `n` bits of a number, most significant first. -/
def bitsMsb (n v : Nat) : List Bool := (List.range n).map (fun i => v.testBit (n - 1 - i))

/-- The `n` bits of a number, least significant first. -/
def bitsLsb (n v : Nat) : List Bool := (List.range n).map (fun i => v.testBit i)

/-- A number from its bits, most significant first. -/
def natMsb (l : List Bool) : Nat := l.foldl (fun a b => 2 * a + b2n b) 0

/-- The low `n` bits of a number in reverse order. -/
def reverseBits (n v : Nat) : Nat := natMsb (bitsLsb n v)

/-- One bit shifted, most significant first, into a check register of width `w` against `poly`. -/
def crcBit (w poly r : Nat) (b : Bool) : Nat :=
  let r2 := r * 2 % 2 ^ w
  if r.testBit (w - 1) != b then r2 ^^^ poly else r2

/-- Bits shifted into a check register. -/
def crcBits (w poly r : Nat) (l : List Bool) : Nat := l.foldl (crcBit w poly) r

/-- The CRC of the lane frame and of the Umpire: CRC-32C without reflection, preset ones, inverted (R46). -/
def crc32c (l : List Bool) : Nat := crcBits 32 0x1EDC6F41 0xFFFFFFFF l ^^^ 0xFFFFFFFF

/-- CRC-32C as preset 3 of the check-value channels computes it: reflected in and out (R312). -/
def crc32cReflected (bytes : List Nat) : Nat :=
  reverseBits 32 (crcBits 32 0x1EDC6F41 0xFFFFFFFF (bytes.flatMap (bitsLsb 8))) ^^^ 0xFFFFFFFF

end Sys2Proof.Machine
end

