-- ==== Sys2Proof/Machine/Formats.lean ====
section
/-! DEFINITION. Format codes (R71): raster in bits 7 to 4, rate in bits 3 to 0; line structures and switch lines (R101). -/

namespace Sys2Proof.Machine

def rasterOf (f : Nat) : Nat := f / 16
def rateOf (f : Nat) : Nat := f % 16

/-- The combinations that R71 lists. -/
def validFmt (f : Nat) : Bool :=
  let t := rateOf f
  match rasterOf f with
  | 0 => t = 6
  | 1 => t = 5
  | 2 | 3 | 5 | 6 | 8 | 9 => 5 ≤ t && t ≤ 7
  | 4 | 7 => t ≤ 4
  | _ => false

/-- Words per line (R71); raster 6 in the level A structure, raster 9 per link. -/
def wordsPerLine (f : Nat) : Nat :=
  let t := rateOf f
  match rasterOf f with
  | 0 => 1716
  | 1 => 1728
  | 2 => if t = 5 then 3960 else 3300
  | 3 | 5 | 6 => if t = 5 then 5280 else 4400
  | 4 => if t ≤ 1 then 5500 else if t = 2 then 5280 else 4400
  | 7 => if t ≤ 1 then 11000 else if t = 2 then 10560 else 8800
  | 8 | 9 => if t = 5 then 10560 else 8800
  | _ => 0

/-- Total lines of a frame (R71). -/
def totalLines (f : Nat) : Nat :=
  match rasterOf f with
  | 0 => 525 | 1 => 625 | 2 => 750 | 3 | 4 | 5 | 6 => 1125 | 7 | 8 | 9 => 2250 | _ => 0

/-- Active lines of a frame (R71). -/
def activeLines (f : Nat) : Nat :=
  match rasterOf f with
  | 0 => 486 | 1 => 576 | 2 => 720 | 3 | 4 | 5 | 6 => 1080 | 7 | 8 | 9 => 2160 | _ => 0

/-- Active pixels of a line: 720 for 525i and 625i, 1,280, 1,920 and 3,840 for the others (log entry 9: the rasters' names). -/
def activeWidth (f : Nat) : Nat :=
  match rasterOf f with
  | 0 | 1 => 720 | 2 => 1280 | 3 | 4 | 5 | 6 => 1920 | 7 | 8 | 9 => 3840 | _ => 0

/-- Rasters sent as two fields (R71). -/
def interlaced (f : Nat) : Bool := rasterOf f = 0 || rasterOf f = 1 || rasterOf f = 3

/-- Words per second of the interface, in kHz before the 1,000/1,001 factor (R54). -/
def wordRateKHz (f : Nat) : Nat :=
  match rasterOf f with
  | 0 | 1 => 27000 | 2 | 3 | 4 => 148500 | 5 | 6 => 297000 | 7 => 594000 | 8 | 9 => 1188000 | _ => 1

/-- Rates 0, 3 and 6 run slower by 1.001 (R71). -/
def fractional (rate : Nat) : Bool := rate = 0 || rate = 3 || rate = 6

/-- The switch line of a format (R101); line 1 under `SWLINE1` (R33). -/
def switchLine (swline1 : Bool) (f : Nat) : Nat :=
  if swline1 then 1 else match rasterOf f with | 0 => 10 | 1 => 6 | _ => 7

/-- Frames per second of a rate code in thousandths, before the 1.001 factor (R71). -/
def rateMilli (t : Nat) : Nat :=
  match t with | 0 | 1 => 24000 | 2 => 25000 | 3 | 4 => 30000 | 5 => 50000 | 6 | 7 => 60000 | _ => 25000

/-- The frame rate of a format in thousandths: half the field rate when interlaced (R104). -/
def frameMilli (f : Nat) : Nat := if interlaced f then rateMilli (rateOf f) / 2 else rateMilli (rateOf f)

/-- Whether a format is in the family of reference rate code `t`: its frame rate equals that rate or twice it (R104). -/
def inFamily (t f : Nat) : Bool :=
  validFmt f && (fractional (rateOf f) == fractional t) && (frameMilli f = rateMilli t || frameMilli f = 2 * rateMilli t)

/-- The rasters a serial payload checks with CRC-18 per line (R74). -/
def crcRaster (f : Nat) : Bool := 2 ≤ rasterOf f && rasterOf f ≤ 9

/-- The frame generator that gives A(f) to a format of rate `r` (R349). -/
def generatorOf (f : Nat) : Nat :=
  if interlaced f then (match rateOf f with | 5 => 2 | 6 => 3 | _ => 4) else rateOf f

end Sys2Proof.Machine
end

