-- ==== Sys2Proof/Config.lean ====
section
/-! DEFINITION. What one device fixes and the values that the spec leaves open. The free values are opaque: nothing can
be proved of them but what holds for every value. -/

namespace Sys2Proof.Config

/-- A fresh value that the spec states nothing about: the `n`-th one drawn (log entry 2). The step that needs one reads
and advances the counter `Chip.free`. -/
opaque freeNat : Nat → Nat

/-- The value that an ASRC channel interpolates (R182): from its source channel's newest samples (instant on the AMC in 1/65,536
sample, and sample), at the input time that a tracker of this ratio (4.28) and phase (1/65,536 sample) maps to an instant of the
AMC. The spec gives the limits that the conversion meets and no arithmetic (log entry 2). -/
opaque asrcSample (input : List (Nat × Int)) (instant : Int) (ratio : Nat) (phase : Int) : Nat

/-- The clock phase data of the instant of stamp `t` in line `line` of output `o` (R188): the state holds no finer instant of a
line than the AMC (log entry 2). -/
opaque clockPhase (o line t : Nat) : Nat

/-- Fuse contents that the spec leaves to each unit: the 64-bit unit serial number (R494, log entry 6). -/
opaque unitId : BitVec 64

/-- The identifier that `MER_SEL_CTRL.DEV_ID` loads from the fuses (R332, R368, log entry 6). -/
opaque merDevId : BitVec 16

/-- The 32-byte secret of key slot `k` in the fuses (R447, R454, log entry 6). -/
opaque fuseKey : Nat → List (BitVec 8)

/-- The boot ROM's bytes, which the spec does not give (R430, log entry 6). -/
opaque bootRom : Nat → BitVec 8

/-- The subsystem identities of the host function, from the fuses (R437, R518, log entry 6): subsystem ID in the upper half. -/
opaque subsystem : BitVec 32

/-- The check of a firmware image's signature against the fused public key, ECDSA over its bytes (R443); the public key is
the unit's own, so the outcome is the unit's (log entry 6). -/
opaque imageSigned : List (BitVec 8) → Bool

end Sys2Proof.Config
end

