-- ==== Sys2Proof/Machine/RegAudio.lean ====
section
/-! DEFINITION. Field maps of Sap, Asrc, Amap (spec/06 R201, R202): one named field per row of the field maps, its place, width, access
code and reset values (POR value, then what COLD and WARM do). An array of registers is one field with a stride and a count. -/

namespace Sys2Proof.Machine


namespace Sap

def mode : Fld := ⟨0, 0xC0, 0x40, 0, 3, .rw, 0, (.val 0), .kept, 0, 1⟩
def master : Fld := ⟨0, 0xC0, 0x40, 3, 1, .rw, 1, (.val 1), .kept, 0, 1⟩
def async : Fld := ⟨0, 0xC0, 0x40, 4, 1, .rw, 0, (.val 0), .kept, 0, 1⟩
def slots : Fld := ⟨0, 0xC0, 0x40, 5, 3, .rw, 1, (.val 1), .kept, 0, 1⟩
def slotw : Fld := ⟨0, 0xC0, 0x40, 8, 1, .rw, 0, (.val 0), .kept, 0, 1⟩
def fsdly : Fld := ⟨0, 0xC0, 0x40, 9, 1, .rw, 0, (.val 0), .kept, 0, 1⟩
def fslong : Fld := ⟨0, 0xC0, 0x40, 10, 1, .rw, 0, (.val 0), .kept, 0, 1⟩
def fspol : Fld := ⟨0, 0xC0, 0x40, 11, 1, .rw, 0, (.val 0), .kept, 0, 1⟩
def bedge : Fld := ⟨0, 0xC0, 0x40, 12, 1, .rw, 0, (.val 0), .kept, 0, 1⟩
def compact : Fld := ⟨0, 0xC0, 0x40, 13, 1, .rw, 1, (.val 1), .kept, 0, 1⟩
def tri : Fld := ⟨0, 0xC0, 0x40, 14, 1, .rw, 0, (.val 0), .kept, 0, 1⟩
def tx24 : Fld := ⟨0, 0xC0, 0x40, 15, 1, .rw, 1, (.val 1), .kept, 0, 1⟩
def mclkEn : Fld := ⟨0, 0xC0, 0x40, 16, 1, .rw, 0, (.val 0), .kept, 0, 1⟩
def mclkSel : Fld := ⟨0, 0xC0, 0x40, 17, 2, .rw, 1, (.val 1), .kept, 0, 1⟩
def agrp : Fld := ⟨0, 0xC0, 0x40, 19, 5, .rw, 0, (.val 0), .kept, 0, 1⟩
def madi56 : Fld := ⟨0, 0xC0, 0x40, 24, 1, .rw, 0, (.val 0), .kept, 0, 1⟩
def madi96 : Fld := ⟨0, 0xC0, 0x40, 25, 1, .rw, 0, (.val 0), .kept, 0, 1⟩
def state : Fld := ⟨0, 0xC0, 0x44, 0, 3, .ro, 0, (.val 0), .kept, 0, 1⟩
def rate : Fld := ⟨0, 0xC0, 0x44, 3, 14, .ro, 0, (.val 0), .kept, 0, 1⟩
def rxCh : Fld := ⟨0, 0xC0, 0x44, 17, 7, .ro, 0, (.val 0), .kept, 0, 1⟩
def txCh : Fld := ⟨0, 0xC0, 0x44, 24, 7, .ro, 0, (.val 0), .kept, 0, 1⟩
def phi : Fld := ⟨0, 0xC0, 0x48, 0, 16, .ro, 0, (.val 0), .kept, 0, 1⟩
def maskGo : Fld := ⟨0, 0xC0, 0x4C, 0, 1, .w1s, 0, (.val 0), (.val 0), 0, 1⟩
def rxMask : Fld := ⟨0, 0xC0, 0x50, 0, 32, .rw, 0xFFFFFFFF, (.val 0xFFFFFFFF), .kept, 4, 2⟩
def txMask : Fld := ⟨0, 0xC0, 0x58, 0, 32, .rw, 0xFFFFFFFF, (.val 0xFFFFFFFF), .kept, 4, 2⟩
def slipCnt : Fld := ⟨0, 0xC0, 0x60, 0, 32, .w1c, 0, (.val 0), .kept, 0, 1⟩
def lineCnt : Fld := ⟨0, 0xC0, 0x64, 0, 32, .w1c, 0, (.val 0), .kept, 0, 1⟩
def underCnt : Fld := ⟨0, 0xC0, 0x68, 0, 32, .w1c, 0, (.val 0), .kept, 0, 1⟩
def lateCnt : Fld := ⟨0, 0xC0, 0x6C, 0, 32, .w1c, 0, (.val 0), .kept, 0, 1⟩
def csrx : Fld := ⟨0, 0xC0, 0x80, 0, 32, .ro, 0, (.val 0), .kept, 4, 6⟩
/-- Every field of the page body and its table window. -/
def fields : List Fld :=
  [mode, master, async, slots, slotw, fsdly, fslong, fspol, bedge, compact, tri, tx24] ++
  [mclkEn, mclkSel, agrp, madi56, madi96, state, rate, rxCh, txCh, phi, maskGo, rxMask] ++
  [txMask, slipCnt, lineCnt, underCnt, lateCnt, csrx]

end Sap

namespace Asrc

def go : Fld := ⟨0, 0xD0, 0x40, 0, 1, .w1s, 0, (.val 0), (.val 0), 0, 1⟩
def used : Fld := ⟨0, 0xD0, 0x44, 0, 10, .ro, 0, (.val 0), .kept, 0, 1⟩
def nLocked : Fld := ⟨0, 0xD0, 0x44, 10, 7, .ro, 0, (.val 0), .kept, 0, 1⟩
def tEn : Fld := ⟨0, 0xD0, 0x100, 0, 1, .rw, 0, (.val 0), .kept, 16, 64⟩
def tKind : Fld := ⟨0, 0xD0, 0x100, 1, 3, .rw, 1, (.val 1), .kept, 16, 64⟩
def tInst : Fld := ⟨0, 0xD0, 0x100, 4, 9, .rw, 0, (.val 0), .kept, 16, 64⟩
def tRate : Fld := ⟨0, 0xD0, 0x100, 13, 3, .rw, 2, (.val 2), .kept, 16, 64⟩
def tBw : Fld := ⟨0, 0xD0, 0x100, 16, 3, .rw, 2, (.val 2), .kept, 16, 64⟩
def tAgrp : Fld := ⟨0, 0xD0, 0x100, 19, 5, .rw, 0, (.val 0), .kept, 16, 64⟩
def tAdelay : Fld := ⟨0, 0xD0, 0x100, 24, 8, .rw, 12, (.val 12), .kept, 16, 64⟩
def tState : Fld := ⟨0, 0xD0, 0x104, 0, 3, .ro, 0, (.val 0), .kept, 16, 64⟩
def tPherr : Fld := ⟨0, 0xD0, 0x104, 3, 16, .ro, 0, (.val 0), .kept, 16, 64⟩
def tResync : Fld := ⟨0, 0xD0, 0x104, 19, 13, .ro, 0, (.val 0), .kept, 16, 64⟩
def tRatio : Fld := ⟨0, 0xD0, 0x108, 0, 32, .ro, 0, (.val 0), .kept, 16, 64⟩
def chTrk : Fld := ⟨1, 0xD0, 0, 0, 6, .rw, 0, (.val 0), .kept, 1, 512⟩
def chCh : Fld := ⟨1, 0xD0, 0, 6, 6, .rw, 0, (.val 0), .kept, 1, 512⟩
def chEn : Fld := ⟨1, 0xD0, 0, 12, 1, .rw, 0, (.val 0), .kept, 1, 512⟩
/-- Every field of the page body and its table window. -/
def fields : List Fld :=
  [go, used, nLocked, tEn, tKind, tInst, tRate, tBw, tAgrp, tAdelay, tState, tPherr] ++
  [tResync, tRatio, chTrk, chCh, chEn]

end Asrc

namespace Amap

def go : Fld := ⟨0, 0xD4, 0x40, 0, 1, .w1s, 0, (.val 0), (.val 0), 0, 1⟩
def code : Fld := ⟨0, 0xD4, 0x44, 0, 3, .ro, 0, (.val 0), .kept, 0, 1⟩
def reason : Fld := ⟨0, 0xD4, 0x44, 3, 4, .ro, 0, (.val 0), .kept, 0, 1⟩
def index : Fld := ⟨0, 0xD4, 0x44, 7, 16, .ro, 0, (.val 0), .kept, 0, 1⟩
def amc : Fld := ⟨0, 0xD4, 0x48, 0, 32, .ro, 0, (.val 0), .kept, 0, 1⟩
def nSubst : Fld := ⟨0, 0xD4, 0x4C, 0, 13, .ro, 0, (.val 0), .kept, 0, 1⟩
def nUnlocked : Fld := ⟨0, 0xD4, 0x4C, 13, 13, .ro, 0, (.val 0), .kept, 0, 1⟩
def gdelay0 : Fld := ⟨0, 0xD4, 0x100, 0, 13, .ro, 0, (.val 0), .kept, 0, 1⟩
def gdelay : Fld := ⟨0, 0xD4, 0x104, 0, 13, .rw, 0, (.val 0), .kept, 4, 31⟩
def intake : Fld := ⟨1, 0xD4, 0, 0, 19, .rw, 0, (.val 0), .kept, 1, 4096⟩
def stSubst : Fld := ⟨1, 0xD4, 4096, 0, 1, .ro, 0, (.val 0), .kept, 1, 4096⟩
def stUnlocked : Fld := ⟨1, 0xD4, 4096, 1, 1, .ro, 0, (.val 0), .kept, 1, 4096⟩
def stNonpcm : Fld := ⟨1, 0xD4, 4096, 2, 1, .ro, 0, (.val 0), .kept, 1, 4096⟩
def egress : Fld := ⟨1, 0xD4, 8192, 0, 13, .rw, 0, (.val 0), .kept, 1, 17408⟩
def dAgrp : Fld := ⟨1, 0xD4, 26624, 0, 5, .rw, 0, (.val 0), .kept, 2, 256⟩
def dState : Fld := ⟨1, 0xD4, 26624, 5, 3, .ro, 0, (.val 0), .kept, 2, 256⟩
def dErr : Fld := ⟨1, 0xD4, 26624, 16, 16, .ro, 0, (.val 0), .kept, 2, 256⟩
def dPresent : Fld := ⟨1, 0xD4, 26625, 0, 32, .ro, 0, (.val 0), .kept, 2, 256⟩
def eGroups : Fld := ⟨1, 0xD4, 27136, 0, 8, .rw, 0, (.val 0), .kept, 2, 256⟩
def eAcp : Fld := ⟨1, 0xD4, 27136, 8, 1, .rw, 1, (.val 1), .kept, 2, 256⟩
def eDrop : Fld := ⟨1, 0xD4, 27137, 0, 16, .ro, 0, (.val 0), .kept, 2, 256⟩
def rFlowA : Fld := ⟨1, 0xD4, 28672, 0, 14, .rw, 0, (.val 0), .kept, 4, 512⟩
def rFlowB : Fld := ⟨1, 0xD4, 28672, 14, 14, .rw, 0, (.val 0), .kept, 4, 512⟩
def rBEn : Fld := ⟨1, 0xD4, 28672, 28, 1, .rw, 0, (.val 0), .kept, 4, 512⟩
def rAsync : Fld := ⟨1, 0xD4, 28672, 29, 1, .rw, 0, (.val 0), .kept, 4, 512⟩
def rFmt : Fld := ⟨1, 0xD4, 28672, 30, 2, .rw, 1, (.val 1), .kept, 4, 512⟩
def rNch : Fld := ⟨1, 0xD4, 28673, 0, 7, .rw, 8, (.val 8), .kept, 4, 512⟩
def rRate : Fld := ⟨1, 0xD4, 28673, 7, 2, .rw, 0, (.val 0), .kept, 4, 512⟩
def rAgrp : Fld := ⟨1, 0xD4, 28673, 9, 5, .rw, 0, (.val 0), .kept, 4, 512⟩
def rEn : Fld := ⟨1, 0xD4, 28673, 14, 1, .rw, 0, (.val 0), .kept, 4, 512⟩
def rUnder : Fld := ⟨1, 0xD4, 28674, 0, 16, .ro, 0, (.val 0), .kept, 4, 512⟩
def rLate : Fld := ⟨1, 0xD4, 28674, 16, 16, .ro, 0, (.val 0), .kept, 4, 512⟩
def rMissA : Fld := ⟨1, 0xD4, 28675, 0, 16, .ro, 0, (.val 0), .kept, 4, 512⟩
def rMissB : Fld := ⟨1, 0xD4, 28675, 16, 16, .ro, 0, (.val 0), .kept, 4, 512⟩
def tQueue : Fld := ⟨1, 0xD4, 30720, 0, 14, .rw, 0, (.val 0), .kept, 4, 512⟩
def tEn : Fld := ⟨1, 0xD4, 30720, 14, 1, .rw, 0, (.val 0), .kept, 4, 512⟩
def tFmt : Fld := ⟨1, 0xD4, 30720, 15, 2, .rw, 1, (.val 1), .kept, 4, 512⟩
def tNch : Fld := ⟨1, 0xD4, 30720, 17, 7, .rw, 8, (.val 8), .kept, 4, 512⟩
def tSpp : Fld := ⟨1, 0xD4, 30720, 24, 8, .rw, 48, (.val 48), .kept, 4, 512⟩
def tBase : Fld := ⟨1, 0xD4, 30721, 0, 12, .rw, 0, (.val 0), .kept, 4, 512⟩
def tSent : Fld := ⟨1, 0xD4, 30722, 0, 32, .ro, 0, (.val 0), .kept, 4, 512⟩
/-- Every field of the page body and its table window. -/
def fields : List Fld :=
  [go, code, reason, index, amc, nSubst, nUnlocked, gdelay0, gdelay, intake, stSubst, stUnlocked] ++
  [stNonpcm, egress, dAgrp, dState, dErr, dPresent, eGroups, eAcp, eDrop, rFlowA, rFlowB, rBEn] ++
  [rAsync, rFmt, rNch, rRate, rAgrp, rEn, rUnder, rLate, rMissA, rMissB, tQueue, tEn] ++
  [tFmt, tNch, tSpp, tBase, tSent]

end Amap

end Sys2Proof.Machine
end

