-- ==== Sys2Proof/Machine/RegCmp.lean ====
section
/-! DEFINITION. Field maps of Cmp (spec/05 R161): one named field per row of the field maps, its place, width, access
code and reset values (POR value, then what COLD and WARM do). An array of registers is one field with a stride and a count. -/

namespace Sys2Proof.Machine


namespace Cmp

def liveView : Fld := ⟨0, 0x80, 0x40, 0, 1, .rw, 0, (.val 0), .kept, 0, 1⟩
def undecl : Fld := ⟨0, 0x80, 0x40, 1, 1, .rw, 1, (.val 1), .kept, 0, 1⟩
def outFmt : Fld := ⟨0, 0x80, 0x44, 0, 8, .rw, 0xFF, (.val 0xFF), .kept, 0, 1⟩
def outClr : Fld := ⟨0, 0x80, 0x44, 8, 3, .rw, 0, (.val 0), .kept, 0, 1⟩
def bgY : Fld := ⟨0, 0x80, 0x48, 0, 10, .rw, 64, (.val 64), .kept, 0, 1⟩
def bgCb : Fld := ⟨0, 0x80, 0x48, 10, 10, .rw, 512, (.val 512), .kept, 0, 1⟩
def bgCr : Fld := ⟨0, 0x80, 0x48, 20, 10, .rw, 512, (.val 512), .kept, 0, 1⟩
def nLayers : Fld := ⟨0, 0x80, 0x4C, 0, 4, .ro, 0, (.val 0), .kept, 0, 1⟩
def fset : Fld := ⟨0, 0x80, 0x4C, 8, 24, .ro, 0xFFFFFF, (.val 0xFFFFFF), .kept, 0, 1⟩
def state : Fld := ⟨0, 0x80, 0x50, 0, 2, .ro, 0, (.val 0), .kept, 0, 1⟩
def carryFmt : Fld := ⟨0, 0x80, 0x50, 2, 8, .ro, 0xFF, (.val 0xFF), .kept, 0, 1⟩
def shown : Fld := ⟨0, 0x80, 0x50, 10, 8, .ro, 0, (.val 0), .kept, 0, 1⟩
def keeperShown : Fld := ⟨0, 0x80, 0x50, 18, 1, .ro, 0, (.val 0), .kept, 0, 1⟩
def picture : Fld := ⟨0, 0x80, 0x54, 0, 32, .ro, 0, (.val 0), .kept, 0, 1⟩
def go : Fld := ⟨0, 0x80, 0x58, 0, 1, .w1s, 0, (.val 0), (.val 0), 0, 1⟩
def cancel : Fld := ⟨0, 0x80, 0x58, 1, 1, .w1s, 0, (.val 0), (.val 0), 0, 1⟩
def fenceIdx : Fld := ⟨0, 0x80, 0x58, 2, 8, .rw, 0, (.val 0), .kept, 0, 1⟩
def fenceEn : Fld := ⟨0, 0x80, 0x58, 10, 1, .rw, 0, (.val 0), .kept, 0, 1⟩
def cgroup : Fld := ⟨0, 0x80, 0x58, 11, 4, .rw, 0, (.val 0), .kept, 0, 1⟩
def timeout : Fld := ⟨0, 0x80, 0x58, 15, 10, .rw, 0, (.val 0), .kept, 0, 1⟩
def toAct : Fld := ⟨0, 0x80, 0x58, 25, 2, .rw, 0, (.val 0), .kept, 0, 1⟩
def target : Fld := ⟨0, 0x80, 0x5C, 0, 32, .rw, 0, (.val 0), .kept, 0, 1⟩
def code : Fld := ⟨0, 0x80, 0x60, 0, 4, .ro, 0, (.val 0), .kept, 0, 1⟩
def reason : Fld := ⟨0, 0x80, 0x60, 4, 4, .ro, 0, (.val 0), .kept, 0, 1⟩
def offLayer : Fld := ⟨0, 0x80, 0x60, 8, 3, .ro, 0, (.val 0), .kept, 0, 1⟩
def waited : Fld := ⟨0, 0x80, 0x60, 16, 16, .ro, 0, (.val 0), .kept, 0, 1⟩
def poolUsed : Fld := ⟨0, 0x80, 0x64, 0, 16, .ro, 0, (.val 0), .kept, 0, 1⟩
def poolFree : Fld := ⟨0, 0x80, 0x64, 16, 16, .ro, 65535, (.val 65535), .kept, 0, 1⟩
def kX : Fld := ⟨0, 0x80, 0x68, 0, 13, .rwl, 0, (.val 0), .kept, 0, 1⟩
def kY : Fld := ⟨0, 0x80, 0x68, 16, 13, .rwl, 0, (.val 0), .kept, 0, 1⟩
def kW : Fld := ⟨0, 0x80, 0x6C, 0, 13, .rwl, 0, (.val 0), .kept, 0, 1⟩
def kH : Fld := ⟨0, 0x80, 0x6C, 16, 13, .rwl, 0, (.val 0), .kept, 0, 1⟩
def kEn : Fld := ⟨0, 0x80, 0x70, 0, 1, .rwl, 0, (.val 0), .kept, 0, 1⟩
def kVis : Fld := ⟨0, 0x80, 0x70, 1, 1, .rwl, 0, (.val 0), .kept, 0, 1⟩
def kAlpha : Fld := ⟨0, 0x80, 0x70, 2, 10, .rwl, 0, (.val 0), .kept, 0, 1⟩
def kClr : Fld := ⟨0, 0x80, 0x70, 12, 3, .rwl, 0, (.val 0), .kept, 0, 1⟩
def kUnits : Fld := ⟨0, 0x80, 0x74, 0, 13, .ro, 0, (.val 0), .kept, 0, 1⟩
def kRefuse : Fld := ⟨0, 0x80, 0x74, 13, 4, .ro, 0, (.val 0), .kept, 0, 1⟩
def kCrcErr : Fld := ⟨0, 0x80, 0x74, 17, 1, .ro, 0, (.val 0), .kept, 0, 1⟩
def lEn : Fld := ⟨0, 0x80, 0x100, 0, 1, .rw, 0, (.val 0), .kept, 0x20, 8⟩
def lKind : Fld := ⟨0, 0x80, 0x100, 1, 1, .rw, 0, (.val 0), .kept, 0x20, 8⟩
def lLossAct : Fld := ⟨0, 0x80, 0x100, 2, 2, .rw, 0, (.val 0), .kept, 0x20, 8⟩
def lPalpha : Fld := ⟨0, 0x80, 0x100, 4, 1, .rw, 0, (.val 0), .kept, 0x20, 8⟩
def lPredec : Fld := ⟨0, 0x80, 0x100, 5, 1, .rw, 0, (.val 0), .kept, 0x20, 8⟩
def lHbank : Fld := ⟨0, 0x80, 0x100, 6, 2, .rw, 0, (.val 0), .kept, 0x20, 8⟩
def lVbank : Fld := ⟨0, 0x80, 0x100, 8, 2, .rw, 0, (.val 0), .kept, 0x20, 8⟩
def lSurf : Fld := ⟨0, 0x80, 0x104, 0, 10, .rw, 0, (.val 0), .kept, 0x20, 8⟩
def lSx : Fld := ⟨0, 0x80, 0x108, 0, 13, .rw, 0, (.val 0), .kept, 0x20, 8⟩
def lSy : Fld := ⟨0, 0x80, 0x108, 16, 13, .rw, 0, (.val 0), .kept, 0x20, 8⟩
def lSw : Fld := ⟨0, 0x80, 0x10C, 0, 13, .rw, 0, (.val 0), .kept, 0x20, 8⟩
def lSh : Fld := ⟨0, 0x80, 0x10C, 16, 13, .rw, 0, (.val 0), .kept, 0x20, 8⟩
def lX : Fld := ⟨0, 0x80, 0x110, 0, 14, .rw, 0, (.val 0), .kept, 0x20, 8⟩
def lY : Fld := ⟨0, 0x80, 0x110, 16, 14, .rw, 0, (.val 0), .kept, 0x20, 8⟩
def lDw : Fld := ⟨0, 0x80, 0x114, 0, 13, .rw, 0, (.val 0), .kept, 0x20, 8⟩
def lDh : Fld := ⟨0, 0x80, 0x114, 16, 13, .rw, 0, (.val 0), .kept, 0x20, 8⟩
def lGa : Fld := ⟨0, 0x80, 0x118, 0, 10, .rw, 1023, (.val 1023), .kept, 0x20, 8⟩
def lShow : Fld := ⟨0, 0x80, 0x11C, 0, 3, .ro, 1, (.val 1), .kept, 0x20, 8⟩
def lSrcClr : Fld := ⟨0, 0x80, 0x11C, 3, 3, .ro, 7, (.val 7), .kept, 0x20, 8⟩
def lSrcFmt : Fld := ⟨0, 0x80, 0x11C, 6, 8, .ro, 0xFF, (.val 0xFF), .kept, 0x20, 8⟩
def gSeal : Fld := ⟨0, 0x80, 0x200, 0, 1, .w1s, 0, (.val 0), (.val 0), 4, 16⟩
def gCancel : Fld := ⟨0, 0x80, 0x200, 1, 1, .w1s, 0, (.val 0), (.val 0), 4, 16⟩
def members : Fld := ⟨0, 0x80, 0x200, 2, 7, .ro, 0, (.val 0), .kept, 4, 16⟩
def gCode : Fld := ⟨0, 0x80, 0x200, 9, 4, .ro, 0, (.val 0), .kept, 4, 16⟩
def fence : Fld := ⟨0, 0x80, 0x800, 0, 32, .rw, 0, (.val 0), .kept, 4, 256⟩
def coefE : Fld := ⟨1, 0x80, 0, 0, 12, .rw, 0, (.val 0), .kept, 1, 2048⟩
def coefO : Fld := ⟨1, 0x80, 0, 16, 12, .rw, 0, (.val 0), .kept, 1, 2048⟩
def sBase : Fld := ⟨1, 0x80, 4096, 0, 15, .rw, 0, (.val 0), .kept, 4, 1024⟩
def sStack : Fld := ⟨1, 0x80, 4096, 15, 1, .rw, 0, (.val 0), .kept, 4, 1024⟩
def sValid : Fld := ⟨1, 0x80, 4096, 16, 1, .rw, 0, (.val 0), .kept, 4, 1024⟩
def sClr : Fld := ⟨1, 0x80, 4096, 17, 3, .rw, 0, (.val 0), .kept, 4, 1024⟩
def sWidth : Fld := ⟨1, 0x80, 4097, 0, 13, .rw, 0, (.val 0), .kept, 4, 1024⟩
def sHeight : Fld := ⟨1, 0x80, 4097, 16, 13, .rw, 0, (.val 0), .kept, 4, 1024⟩
def sStride : Fld := ⟨1, 0x80, 4098, 0, 16, .rw, 0, (.val 0), .kept, 4, 1024⟩
/-- Every field of the page body and its table window. -/
def fields : List Fld :=
  [liveView, undecl, outFmt, outClr, bgY, bgCb, bgCr, nLayers, fset, state, carryFmt, shown] ++
  [keeperShown, picture, go, cancel, fenceIdx, fenceEn, cgroup, timeout, toAct, target, code, reason] ++
  [offLayer, waited, poolUsed, poolFree, kX, kY, kW, kH, kEn, kVis, kAlpha, kClr] ++
  [kUnits, kRefuse, kCrcErr, lEn, lKind, lLossAct, lPalpha, lPredec, lHbank, lVbank, lSurf, lSx] ++
  [lSy, lSw, lSh, lX, lY, lDw, lDh, lGa, lShow, lSrcClr, lSrcFmt, gSeal] ++
  [gCancel, members, gCode, fence, coefE, coefO, sBase, sStack, sValid, sClr, sWidth, sHeight] ++
  [sStride]

end Cmp

end Sys2Proof.Machine
end

