-- ==== Sys2Proof/Machine/RegDev.lean ====
section
/-! DEFINITION. Field maps of Dev, Hbm (spec/16 R494, R496): one named field per row of the field maps, its place, width, access
code and reset values (POR value, then what COLD and WARM do). An array of registers is one field with a stride and a count. -/

namespace Sys2Proof.Machine


namespace Dev

def compat : Fld := ⟨0, 0x0, 0x48, 0, 4, .rwl, 0, .kept, .kept, 0, 1⟩
def warmRst : Fld := ⟨0, 0x0, 0x4C, 0, 1, .w1s, 0, (.val 0), (.val 0), 0, 1⟩
def boot : Fld := ⟨0, 0x0, 0x50, 0, 3, .ro, 0, (.val 0), (.val 0), 0, 1⟩
def bank : Fld := ⟨0, 0x0, 0x50, 3, 1, .ro, 0, (.val 0), (.val 0), 0, 1⟩
def hostImg : Fld := ⟨0, 0x0, 0x50, 4, 1, .ro, 0, (.val 0), (.val 0), 0, 1⟩
def fallback : Fld := ⟨0, 0x0, 0x50, 5, 1, .ro, 0, (.val 0), (.val 0), 0, 1⟩
def fwVer : Fld := ⟨0, 0x0, 0x54, 0, 32, .ro, 0, (.val 0), (.val 0), 0, 1⟩
/-- Every field of the page body and its table window. -/
def fields : List Fld :=
  [compat, warmRst, boot, bank, hostImg, fallback, fwVer]

end Dev

namespace Hbm

def ready : Fld := ⟨0, 0x130, 0x40, 0, 2, .ro, 0, (.val 0), .kept, 0, 1⟩
def sref : Fld := ⟨0, 0x130, 0x40, 2, 2, .ro, 0, (.val 0), .kept, 0, 1⟩
def passes : Fld := ⟨0, 0x130, 0x44, 0, 16, .ro, 0, (.val 0), .kept, 4, 2⟩
def pos : Fld := ⟨0, 0x130, 0x44, 16, 12, .ro, 0, (.val 0), .kept, 4, 2⟩
def ceCnt : Fld := ⟨0, 0x130, 0x4C, 0, 32, .w1c, 0, (.val 0), .kept, 4, 2⟩
def ueCnt : Fld := ⟨0, 0x130, 0x54, 0, 32, .w1c, 0, (.val 0), .kept, 4, 2⟩
def poison : Fld := ⟨0, 0x130, 0x5C, 0, 24, .ro, 0, (.val 0), .kept, 4, 2⟩
/-- Every field of the page body and its table window. -/
def fields : List Fld :=
  [ready, sref, passes, pos, ceCnt, ueCnt, poison]

end Hbm

end Sys2Proof.Machine
end

