-- ==== Sys2Proof/Machine/RegFcu.lean ====
section
/-! DEFINITION. Field maps of Fcu (spec/13 R427): one named field per row of the field maps, its place, width, access
code and reset values (POR value, then what COLD and WARM do). An array of registers is one field with a stride and a count. -/

namespace Sys2Proof.Machine


namespace Fcu

def aliveClr : Fld := ⟨0, 0x3, 0x40, 0, 1, .w1s, 0, (.val 0), (.val 0), 0, 1⟩
def ffClr : Fld := ⟨0, 0x3, 0x40, 1, 1, .w1s, 0, (.val 0), (.val 0), 0, 1⟩
def hbGrace : Fld := ⟨0, 0x3, 0x40, 8, 8, .rw, 100, (.val 100), .kept, 0, 1⟩
def aliveRun : Fld := ⟨0, 0x3, 0x44, 0, 1, .ro, 0, (.val 0), .kept, 0, 1⟩
def stop : Fld := ⟨0, 0x3, 0x44, 1, 3, .ro, 0, (.val 0), .kept, 0, 1⟩
def waitHb : Fld := ⟨0, 0x3, 0x44, 4, 1, .ro, 1, (.val 1), .kept, 0, 1⟩
def ffValid : Fld := ⟨0, 0x3, 0x44, 5, 1, .ro, 0, .kept, .kept, 0, 1⟩
def aliveHz : Fld := ⟨0, 0x3, 0x48, 0, 14, .rw, 1000, (.val 1000), .kept, 0, 1⟩
def heartbeat : Fld := ⟨0, 0x3, 0x4C, 0, 32, .wo, 0, (.val 0), (.val 0), 0, 1⟩
def unackReal : Fld := ⟨0, 0x3, 0x50, 0, 16, .ro, 0, (.val 0), .kept, 0, 1⟩
def unackInj : Fld := ⟨0, 0x3, 0x50, 16, 16, .ro, 0, (.val 0), .kept, 0, 1⟩
def ack : Fld := ⟨0, 0x3, 0x54, 0, 16, .w1s, 0, (.val 0), (.val 0), 0, 1⟩
def worst : Fld := ⟨0, 0x3, 0x58, 0, 32, .ro, 0, (.val 0), .kept, 4, 2⟩
def logWptr : Fld := ⟨0, 0x3, 0x60, 0, 8, .ro, 0, (.val 0), (.val 0), 0, 1⟩
def logRptr : Fld := ⟨0, 0x3, 0x60, 8, 8, .rw, 0, (.val 0), (.val 0), 0, 1⟩
def logOvw : Fld := ⟨0, 0x3, 0x64, 0, 32, .w1c, 0, (.val 0), (.val 0), 0, 1⟩
def seq : Fld := ⟨0, 0x3, 0x68, 0, 32, .ro, 0, (.val 0), .kept, 0, 1⟩
def maxFrames : Fld := ⟨0, 0x3, 0x6C, 0, 16, .rw, 250, (.val 250), .kept, 0, 1⟩
def tjWarn : Fld := ⟨0, 0x3, 0x70, 0, 8, .rw, 100, (.val 100), .kept, 0, 1⟩
def injArmed : Fld := ⟨0, 0x3, 0x74, 0, 1, .ro, 0, (.val 0), (.val 0), 0, 1⟩
def injRehearsal : Fld := ⟨0, 0x3, 0x74, 1, 1, .ro, 0, (.val 0), .kept, 0, 1⟩
def injChecker : Fld := ⟨0, 0x3, 0x74, 2, 5, .ro, 0, (.val 0), .kept, 0, 1⟩
def injFired : Fld := ⟨0, 0x3, 0x74, 7, 1, .ro, 0, (.val 0), .kept, 0, 1⟩
def injPattern : Fld := ⟨0, 0x3, 0x78, 0, 32, .ro, 0, (.val 0), .kept, 0, 1⟩
def injInst : Fld := ⟨0, 0x3, 0x7C, 0, 16, .ro, 0, (.val 0), .kept, 0, 1⟩
/-- Every field of the page body and its table window. -/
def fields : List Fld :=
  [aliveClr, ffClr, hbGrace, aliveRun, stop, waitHb, ffValid, aliveHz, heartbeat, unackReal, unackInj, ack] ++
  [worst, logWptr, logRptr, logOvw, seq, maxFrames, tjWarn, injArmed, injRehearsal, injChecker, injFired, injPattern] ++
  [injInst]

end Fcu

end Sys2Proof.Machine
end

