-- ==== Sys2Proof/Machine/RegHost.lean ====
section
/-! DEFINITION. Field maps of Cfab, Hst, Mgmt, Cmd (spec/14 R457 to R460): one named field per row of the field maps, its place, width, access
code and reset values (POR value, then what COLD and WARM do). An array of registers is one field with a stride and a count. -/

namespace Sys2Proof.Machine


namespace Cfab

def remap : Fld := ⟨0, 0x9, 0x40, 0, 1, .rw, 0, (.val 0), (.val 0), 0, 1⟩
def outstanding : Fld := ⟨0, 0x9, 0x44, 0, 10, .ro, 0, (.val 0), (.val 0), 0, 1⟩
def full : Fld := ⟨0, 0x9, 0x44, 10, 1, .ro, 0, (.val 0), (.val 0), 0, 1⟩
def pri : Fld := ⟨0, 0x9, 0x48, 0, 18, .rw, 0xF4A6, (.val 0xF4A6), .kept, 4, 5⟩
def limit : Fld := ⟨0, 0x9, 0x60, 0, 10, .rw, 0, (.val 0), .kept, 4, 6⟩
def outCount : Fld := ⟨0, 0x9, 0x80, 0, 10, .ro, 0, (.val 0), (.val 0), 4, 6⟩
def outIds : Fld := ⟨0, 0x9, 0x80, 10, 7, .ro, 0, (.val 0), (.val 0), 4, 6⟩
def outPeak : Fld := ⟨0, 0x9, 0x80, 17, 10, .ro, 0, (.val 0), (.val 0), 4, 6⟩
def errMaster : Fld := ⟨0, 0x9, 0xA0, 0, 3, .ro, 0, (.val 0), .kept, 0, 1⟩
def errResp : Fld := ⟨0, 0x9, 0xA0, 3, 2, .ro, 0, (.val 0), .kept, 0, 1⟩
def errWrite : Fld := ⟨0, 0x9, 0xA0, 5, 1, .ro, 0, (.val 0), .kept, 0, 1⟩
def errId : Fld := ⟨0, 0x9, 0xA0, 6, 6, .ro, 0, (.val 0), .kept, 0, 1⟩
def errValid : Fld := ⟨0, 0x9, 0xA0, 31, 1, .w1c, 0, (.val 0), .kept, 0, 1⟩
def errAddr : Fld := ⟨0, 0x9, 0xA4, 0, 32, .ro, 0, (.val 0), .kept, 0, 1⟩
def denyHost : Fld := ⟨0, 0x9, 0xA8, 0, 16, .w1c, 0, (.val 0), .kept, 0, 1⟩
def denyOther : Fld := ⟨0, 0x9, 0xA8, 16, 16, .w1c, 0, (.val 0), .kept, 0, 1⟩
/-- Every field of the page body and its table window. -/
def fields : List Fld :=
  [remap, outstanding, full, pri, limit, outCount, outIds, outPeak, errMaster, errResp, errWrite, errId] ++
  [errValid, errAddr, denyHost, denyOther]

end Cfab

namespace Hst

def wramEn : Fld := ⟨0, 0xA, 0x40, 0, 1, .rw, 0, (.val 0), (.val 0), 0, 1⟩
def bootGo : Fld := ⟨0, 0xA, 0x40, 1, 1, .w1s, 0, (.val 0), (.val 0), 0, 1⟩
def gen : Fld := ⟨0, 0xA, 0x44, 0, 3, .ro, 0, (.val 0), .kept, 0, 1⟩
def linkUp : Fld := ⟨0, 0xA, 0x44, 3, 1, .ro, 0, (.val 0), .kept, 0, 1⟩
def tunnelUp : Fld := ⟨0, 0xA, 0x44, 4, 1, .ro, 0, (.val 0), .kept, 0, 1⟩
def busMaster : Fld := ⟨0, 0xA, 0x44, 5, 1, .ro, 0, (.val 0), .kept, 0, 1⟩
def msixEn : Fld := ⟨0, 0xA, 0x44, 6, 1, .ro, 0, (.val 0), .kept, 0, 1⟩
def eoi : Fld := ⟨0, 0xA, 0x48, 0, 32, .w1s, 0, (.val 0), (.val 0), 4, 2⟩
def cond : Fld := ⟨0, 0xA, 0x50, 0, 32, .ro, 0, (.val 0), .kept, 4, 2⟩
def errCnt : Fld := ⟨0, 0xA, 0x58, 0, 32, .w1c, 0, (.val 0), .kept, 0, 1⟩
def msixTable : Fld := ⟨0, 0xA, 0x800, 0, 32, .rw, 0, (.val 0), .kept, 4, 256⟩
def msixPba : Fld := ⟨0, 0xA, 0xC00, 0, 32, .ro, 0, (.val 0), .kept, 4, 2⟩
def mapVec : Fld := ⟨1, 0xA, 0, 0, 6, .rw, 0, (.val 0), .kept, 1, 512⟩
def mapEn : Fld := ⟨1, 0xA, 0, 6, 1, .rw, 1, (.val 1), .kept, 1, 512⟩
def mapIrqn : Fld := ⟨1, 0xA, 0, 7, 1, .rw, 0, (.val 0), .kept, 1, 512⟩
/-- Every field of the page body and its table window. -/
def fields : List Fld :=
  [wramEn, bootGo, gen, linkUp, tunnelUp, busMaster, msixEn, eoi, cond, errCnt, msixTable, msixPba] ++
  [mapVec, mapEn, mapIrqn]

end Hst

namespace Mgmt

def mspiWr : Fld := ⟨0, 0xB, 0x40, 0, 1, .rw, 0, (.val 0), .kept, 0, 1⟩
def mspiCmd : Fld := ⟨0, 0xB, 0x40, 1, 1, .rw, 0, (.val 0), .kept, 0, 1⟩
def bi2cCmd : Fld := ⟨0, 0xB, 0x40, 2, 1, .rw, 0, (.val 0), .kept, 0, 1⟩
def mspiBusy : Fld := ⟨0, 0xB, 0x44, 7, 1, .ro, 0, (.val 0), (.val 0), 0, 1⟩
def denyMspi : Fld := ⟨0, 0xB, 0x48, 0, 16, .w1c, 0, (.val 0), .kept, 0, 1⟩
def denyBi2c : Fld := ⟨0, 0xB, 0x48, 16, 16, .w1c, 0, (.val 0), .kept, 0, 1⟩
def errMspi : Fld := ⟨0, 0xB, 0x4C, 0, 16, .w1c, 0, (.val 0), .kept, 0, 1⟩
def errBi2c : Fld := ⟨0, 0xB, 0x4C, 16, 16, .w1c, 0, (.val 0), .kept, 0, 1⟩
/-- Every field of the page body and its table window. -/
def fields : List Fld :=
  [mspiWr, mspiCmd, bi2cCmd, mspiBusy, denyMspi, denyBi2c, errMspi, errBi2c]

end Mgmt

namespace Cmd

def go : Fld := ⟨0, 0x8, 0x40, 0, 1, .w1s, 0, (.val 0), (.val 0), 0, 1⟩
def release : Fld := ⟨0, 0x8, 0x40, 1, 1, .w1s, 0, (.val 0), (.val 0), 0, 1⟩
def state : Fld := ⟨0, 0x8, 0x48, 0, 4, .ro, 0, (.val 0), (.val 10), 0, 1⟩
def refuse : Fld := ⟨0, 0x8, 0x48, 4, 4, .ro, 0, (.val 0), (.val 0), 0, 1⟩
def lastOp : Fld := ⟨0, 0x8, 0x48, 8, 8, .ro, 0, (.val 0), (.val 0), 0, 1⟩
def nonceLo : Fld := ⟨0, 0x8, 0x4C, 0, 32, .ro, 0, (.val 0), (.val 0), 0, 1⟩
def nonceHi : Fld := ⟨0, 0x8, 0x50, 0, 32, .ro, 0, (.val 0), (.val 0), 0, 1⟩
def lastLo : Fld := ⟨0, 0x8, 0x54, 0, 32, .ro, 0, (.val 0), (.val 0), 0, 1⟩
def lastHi : Fld := ⟨0, 0x8, 0x58, 0, 32, .ro, 0, (.val 0), (.val 0), 0, 1⟩
def opcode : Fld := ⟨0, 0x8, 0x5C, 0, 8, .rw, 0, (.val 0), (.val 0), 0, 1⟩
def target : Fld := ⟨0, 0x8, 0x5C, 16, 16, .rw, 0, (.val 0), (.val 0), 0, 1⟩
def cntLo : Fld := ⟨0, 0x8, 0x60, 0, 32, .rw, 0, (.val 0), (.val 0), 0, 1⟩
def cntHi : Fld := ⟨0, 0x8, 0x64, 0, 32, .rw, 0, (.val 0), (.val 0), 0, 1⟩
def tag : Fld := ⟨0, 0x8, 0x68, 0, 32, .wo, 0, (.val 0), (.val 0), 4, 4⟩
def arg : Fld := ⟨0, 0x8, 0x80, 0, 32, .rw, 0, (.val 0), (.val 0), 4, 8⟩
def recent : Fld := ⟨0, 0x8, 0xA4, 0, 5, .ro, 0, (.val 0), (.val 0), 0, 1⟩
def locked : Fld := ⟨0, 0x8, 0xA4, 5, 1, .ro, 0, (.val 0), (.val 0), 0, 1⟩
/-- Every field of the page body and its table window. -/
def fields : List Fld :=
  [go, release, state, refuse, lastOp, nonceLo, nonceHi, lastLo, lastHi, opcode, target, cntLo] ++
  [cntHi, tag, arg, recent, locked]

end Cmd

end Sys2Proof.Machine
end

