-- ==== Sys2Proof/Machine/RegLane.lean ====
section
/-! DEFINITION. Field maps of Lgrp (spec/02 R69): one named field per row of the field maps, its place, width, access
code and reset values (POR value, then what COLD and WARM do). An array of registers is one field with a stride and a count. -/

namespace Sys2Proof.Machine


namespace Lgrp

def train : Fld := ⟨0, 0x20, 0x40, 0, 1, .w1s, 0, (.val 0), (.val 0), 0, 1⟩
def autoRetrain : Fld := ⟨0, 0x20, 0x40, 1, 1, .rw, 1, (.val 1), .kept, 0, 1⟩
def state : Fld := ⟨0, 0x20, 0x44, 0, 3, .ro, 0, (.val 0), .kept, 0, 1⟩
def laneGood : Fld := ⟨0, 0x20, 0x44, 3, 8, .ro, 0, (.val 0), .kept, 0, 1⟩
def laneRetrain : Fld := ⟨0, 0x20, 0x44, 11, 8, .ro, 0, (.val 0), .kept, 0, 1⟩
def rxTrn : Fld := ⟨0, 0x20, 0x44, 19, 3, .ro, 0, (.val 0), .kept, 0, 1⟩
def rxActive : Fld := ⟨0, 0x20, 0x48, 0, 1, .ro, 0, (.val 0), .kept, 0, 1⟩
def rxHold : Fld := ⟨0, 0x20, 0x48, 1, 1, .ro, 0, (.val 0), .kept, 0, 1⟩
def lside : Fld := ⟨0, 0x20, 0x48, 2, 2, .ro, 0, (.val 0), .kept, 0, 1⟩
def health : Fld := ⟨0, 0x20, 0x48, 4, 2, .ro, 0, (.val 0), .kept, 0, 1⟩
def txActive : Fld := ⟨0, 0x20, 0x48, 6, 1, .ro, 0, (.val 0), .kept, 0, 1⟩
def txHold : Fld := ⟨0, 0x20, 0x48, 7, 1, .ro, 0, (.val 0), .kept, 0, 1⟩
def lossFrames : Fld := ⟨0, 0x20, 0x4C, 0, 16, .rw, 4096, (.val 4096), .kept, 0, 1⟩
def trainTimeout : Fld := ⟨0, 0x20, 0x4C, 16, 8, .rw, 10, (.val 10), .kept, 0, 1⟩
def ebufFill : Fld := ⟨0, 0x20, 0x50, 0, 6, .ro, 0, (.val 0), .kept, 0, 1⟩
def ebufMin : Fld := ⟨0, 0x20, 0x50, 6, 6, .ro, 32, (.val 32), .kept, 0, 1⟩
def ebufMax : Fld := ⟨0, 0x20, 0x50, 12, 6, .ro, 0, (.val 0), .kept, 0, 1⟩
def slotCommit : Fld := ⟨0, 0x20, 0x54, 0, 1, .w1s, 0, (.val 0), (.val 0), 0, 1⟩
def phase : Fld := ⟨0, 0x20, 0x60, 0, 7, .ro, 0, (.val 0), .kept, 4, 8⟩
def inv : Fld := ⟨0, 0x20, 0x60, 7, 1, .ro, 0, (.val 0), .kept, 4, 8⟩
def skew : Fld := ⟨0, 0x20, 0x60, 8, 12, .ro, 0, (.val 0), .kept, 4, 8⟩
def lasting : Fld := ⟨0, 0x20, 0x60, 20, 1, .ro, 0, (.val 0), .kept, 4, 8⟩
def laneRetrainReq : Fld := ⟨0, 0x20, 0x60, 21, 1, .w1s, 0, (.val 0), (.val 0), 4, 8⟩
def crcCnt : Fld := ⟨0, 0x20, 0x80, 0, 32, .w1c, 0, (.val 0), .kept, 0, 1⟩
def stuffCnt : Fld := ⟨0, 0x20, 0x84, 0, 32, .w1c, 0, (.val 0), .kept, 0, 1⟩
def transCnt : Fld := ⟨0, 0x20, 0x88, 0, 32, .w1c, 0, (.val 0), .kept, 0, 1⟩
def lastCnt : Fld := ⟨0, 0x20, 0x8C, 0, 32, .w1c, 0, (.val 0), .kept, 0, 1⟩
def eyeLane : Fld := ⟨0, 0x20, 0x90, 0, 3, .rw, 0, (.val 0), .kept, 0, 1⟩
def eyeStart : Fld := ⟨0, 0x20, 0x90, 3, 1, .w1s, 0, (.val 0), (.val 0), 0, 1⟩
def eyeAbort : Fld := ⟨0, 0x20, 0x90, 4, 1, .w1s, 0, (.val 0), (.val 0), 0, 1⟩
def eyeDwell : Fld := ⟨0, 0x20, 0x90, 8, 4, .rw, 8, (.val 8), .kept, 0, 1⟩
def eyeWidth : Fld := ⟨0, 0x20, 0x94, 0, 7, .ro, 0, (.val 0), .kept, 0, 1⟩
def eyeHeight : Fld := ⟨0, 0x20, 0x94, 7, 7, .ro, 0, (.val 0), .kept, 0, 1⟩
def eyeResLane : Fld := ⟨0, 0x20, 0x94, 14, 3, .ro, 0, (.val 0), .kept, 0, 1⟩
def eyePartial : Fld := ⟨0, 0x20, 0x94, 17, 1, .ro, 0, (.val 0), .kept, 0, 1⟩
def monEn : Fld := ⟨0, 0x20, 0x98, 0, 1, .rw, 1, (.val 1), .kept, 0, 1⟩
def monH : Fld := ⟨0, 0x20, 0x98, 1, 7, .rw, 12, (.val 12), .kept, 0, 1⟩
def monV : Fld := ⟨0, 0x20, 0x98, 8, 6, .rw, 8, (.val 8), .kept, 0, 1⟩
def monInterval : Fld := ⟨0, 0x20, 0x98, 14, 8, .rw, 10, (.val 10), .kept, 0, 1⟩
def syncCnt : Fld := ⟨0, 0x20, 0x9C, 0, 32, .w1c, 0, (.val 0), .kept, 0, 1⟩
def rxSsid : Fld := ⟨0, 0x20, 0x400, 0, 7, .rw, 0, (.val 0), .kept, 4, 128⟩
def rxUsed : Fld := ⟨0, 0x20, 0x400, 7, 1, .rw, 0, (.val 0), .kept, 4, 128⟩
def txSsid : Fld := ⟨0, 0x20, 0x600, 0, 7, .rw, 0, (.val 0), .kept, 4, 128⟩
def txUsed : Fld := ⟨0, 0x20, 0x600, 7, 1, .rw, 0, (.val 0), .kept, 4, 128⟩
def eyeCount : Fld := ⟨1, 0x20, 0, 0, 32, .ro, 0, (.val 0), .kept, 1, 4160⟩
/-- Every field of the page body and its table window. -/
def fields : List Fld :=
  [train, autoRetrain, state, laneGood, laneRetrain, rxTrn, rxActive, rxHold, lside, health, txActive, txHold] ++
  [lossFrames, trainTimeout, ebufFill, ebufMin, ebufMax, slotCommit, phase, inv, skew, lasting, laneRetrainReq, crcCnt] ++
  [stuffCnt, transCnt, lastCnt, eyeLane, eyeStart, eyeAbort, eyeDwell, eyeWidth, eyeHeight, eyeResLane, eyePartial, monEn] ++
  [monH, monV, monInterval, syncCnt, rxSsid, rxUsed, txSsid, txUsed, eyeCount]

end Lgrp

end Sys2Proof.Machine
end

