-- ==== Sys2Proof/Machine/RegMix.lean ====
section
/-! DEFINITION. Field maps of Mix (spec/07 R223): one named field per row of the field maps, its place, width, access
code and reset values (POR value, then what COLD and WARM do). An array of registers is one field with a stride and a count. -/

namespace Sys2Proof.Machine


namespace Mix

def batch : Fld := ⟨0, 0xD8, 0x40, 0, 1, .rw, 0, (.val 0), (.val 0), 0, 1⟩
def commit : Fld := ⟨0, 0xD8, 0x40, 1, 1, .w1s, 0, (.val 0), .kept, 0, 1⟩
def discard : Fld := ⟨0, 0xD8, 0x40, 2, 1, .w1s, 0, (.val 0), (.val 0), 0, 1⟩
def run : Fld := ⟨0, 0xD8, 0x44, 0, 1, .ro, 0, (.val 0), .kept, 0, 1⟩
def fs : Fld := ⟨0, 0xD8, 0x44, 1, 1, .ro, 0, (.val 0), .kept, 0, 1⟩
def plen : Fld := ⟨0, 0xD8, 0x44, 2, 2, .ro, 1, (.val 1), .kept, 0, 1⟩
def slotsMin : Fld := ⟨0, 0xD8, 0x44, 4, 13, .ro, 4096, (.val 4096), .kept, 0, 1⟩
def slotsTile : Fld := ⟨0, 0xD8, 0x44, 17, 6, .ro, 0, (.val 0), .kept, 0, 1⟩
def muted : Fld := ⟨0, 0xD8, 0x44, 23, 1, .ro, 0, (.val 0), .kept, 0, 1⟩
def bCode : Fld := ⟨0, 0xD8, 0x48, 0, 3, .ro, 0, (.val 0), .kept, 0, 1⟩
def bReason : Fld := ⟨0, 0xD8, 0x48, 3, 2, .ro, 0, (.val 0), .kept, 0, 1⟩
def bCount : Fld := ⟨0, 0xD8, 0x48, 5, 17, .ro, 0, (.val 0), .kept, 0, 1⟩
def bTile : Fld := ⟨0, 0xD8, 0x48, 22, 6, .ro, 0, (.val 0), .kept, 0, 1⟩
def activeMax : Fld := ⟨0, 0xD8, 0x4C, 0, 13, .ro, 0, (.val 0), .kept, 0, 1⟩
def pendMax : Fld := ⟨0, 0xD8, 0x4C, 13, 13, .ro, 0, (.val 0), .kept, 0, 1⟩
def satCnt : Fld := ⟨0, 0xD8, 0x50, 0, 32, .w1c, 0, (.val 0), .kept, 0, 1⟩
def deferCnt : Fld := ⟨0, 0xD8, 0x54, 0, 32, .w1c, 0, (.val 0), .kept, 0, 1⟩
def ramp : Fld := ⟨1, 0xD8, 0, 0, 16, .rw, 240, (.val 240), .kept, 1, 4096⟩
def sat : Fld := ⟨1, 0xD8, 0, 16, 1, .ro, 0, (.val 0), .kept, 1, 4096⟩
def oMuted : Fld := ⟨1, 0xD8, 0, 17, 1, .ro, 0, (.val 0), .kept, 1, 4096⟩
/-- Every field of the page body and its table window. -/
def fields : List Fld :=
  [batch, commit, discard, run, fs, plen, slotsMin, slotsTile, muted, bCode, bReason, bCount] ++
  [bTile, activeMax, pendMax, satCnt, deferCnt, ramp, sat, oMuted]

end Mix

end Sys2Proof.Machine
end

