-- ==== Sys2Proof/Machine/RegNova.lean ====
section
/-! DEFINITION. Field maps of Nova (spec/08 R259): one named field per row of the field maps, its place, width, access
code and reset values (POR value, then what COLD and WARM do). An array of registers is one field with a stride and a count. -/

namespace Sys2Proof.Machine


namespace Nova

def run : Fld := ⟨0, 0xE0, 0x40, 0, 1, .rw, 0, (.val 0), .kept, 0, 1⟩
def clrFault : Fld := ⟨0, 0xE0, 0x40, 1, 1, .w1s, 0, (.val 0), (.val 0), 0, 1⟩
def state : Fld := ⟨0, 0xE0, 0x44, 0, 3, .ro, 0, (.val 0), .kept, 0, 1⟩
def isr : Fld := ⟨0, 0xE0, 0x44, 3, 1, .ro, 0, (.val 0), .kept, 0, 1⟩
def pc : Fld := ⟨0, 0xE0, 0x44, 4, 11, .ro, 0, (.val 0), .kept, 0, 1⟩
def dbPend : Fld := ⟨0, 0xE0, 0x44, 15, 1, .ro, 0, (.val 0), .kept, 0, 1⟩
def ovr : Fld := ⟨0, 0xE0, 0x44, 16, 1, .ro, 0, (.val 0), .kept, 0, 1⟩
def fpc : Fld := ⟨0, 0xE0, 0x48, 0, 11, .ro, 0, (.val 0), .kept, 0, 1⟩
def fcode : Fld := ⟨0, 0xE0, 0x48, 12, 3, .ro, 0, (.val 0), .kept, 0, 1⟩
def fslot : Fld := ⟨0, 0xE0, 0x48, 16, 2, .ro, 0, (.val 0), .kept, 0, 1⟩
def entry : Fld := ⟨0, 0xE0, 0x4C, 0, 11, .ro, 0, (.val 0), .kept, 0, 1⟩
def ivec : Fld := ⟨0, 0xE0, 0x4C, 11, 11, .ro, 0, (.val 0), .kept, 0, 1⟩
def iwin : Fld := ⟨0, 0xE0, 0x4C, 22, 10, .ro, 0, (.val 0), .kept, 0, 1⟩
def nin : Fld := ⟨0, 0xE0, 0x50, 0, 7, .ro, 0, (.val 0), .kept, 0, 1⟩
def nout : Fld := ⟨0, 0xE0, 0x50, 7, 7, .ro, 0, (.val 0), .kept, 0, 1⟩
def plen : Fld := ⟨0, 0xE0, 0x50, 14, 2, .ro, 0, (.val 0), .kept, 0, 1⟩
def exch : Fld := ⟨0, 0xE0, 0x50, 16, 12, .ro, 0, (.val 0), .kept, 0, 1⟩
def xinBase : Fld := ⟨0, 0xE0, 0x54, 0, 15, .ro, 0, (.val 0), .kept, 0, 1⟩
def xoutBase : Fld := ⟨0, 0xE0, 0x54, 16, 15, .ro, 0, (.val 0), .kept, 0, 1⟩
def paramBase : Fld := ⟨0, 0xE0, 0x58, 0, 15, .ro, 0, (.val 0), .kept, 0, 1⟩
def budget : Fld := ⟨0, 0xE0, 0x5C, 0, 32, .ro, 0, (.val 0), .kept, 0, 1⟩
def stepsLast : Fld := ⟨0, 0xE0, 0x60, 0, 32, .ro, 0, (.val 0), .kept, 0, 1⟩
def stepsMax : Fld := ⟨0, 0xE0, 0x64, 0, 32, .ro, 0, (.val 0), .kept, 0, 1⟩
def dbell : Fld := ⟨0, 0xE0, 0x68, 0, 32, .rw, 0, (.val 0), .kept, 0, 1⟩
def mbox : Fld := ⟨0, 0xE0, 0x6C, 0, 32, .ro, 0, (.val 0), .kept, 0, 1⟩
def paramLen : Fld := ⟨0, 0xE0, 0x70, 0, 7, .rw, 1, (.val 1), .kept, 0, 1⟩
def paramGo : Fld := ⟨0, 0xE0, 0x70, 7, 1, .w1s, 0, (.val 0), .kept, 0, 1⟩
def satCnt : Fld := ⟨0, 0xE0, 0x74, 0, 32, .w1c, 0, (.val 0), .kept, 0, 1⟩
def iwinCnt : Fld := ⟨0, 0xE0, 0x78, 0, 32, .w1c, 0, (.val 0), .kept, 0, 1⟩
def staging : Fld := ⟨1, 0xE0, 41088, 0, 32, .rw, 0, (.val 0), .kept, 1, 64⟩
/-- Every field of the page body and its table window. -/
def fields : List Fld :=
  [run, clrFault, state, isr, pc, dbPend, ovr, fpc, fcode, fslot, entry, ivec] ++
  [iwin, nin, nout, plen, exch, xinBase, xoutBase, paramBase, budget, stepsLast, stepsMax, dbell] ++
  [mbox, paramLen, paramGo, satCnt, iwinCnt, staging]

end Nova

end Sys2Proof.Machine
end

