-- ==== Sys2Proof/Machine/RegPacket.lean ====
section
/-! DEFINITION. Field maps of Eth, Flowq, Crcu (spec/10 R320, R322, R324): one named field per row of the field maps, its place, width, access
code and reset values (POR value, then what COLD and WARM do). An array of registers is one field with a stride and a count. -/

namespace Sys2Proof.Machine


namespace Eth

def mode : Fld := ⟨0, 0x48, 0x40, 0, 3, .rw, 0, (.val 0), .kept, 0, 1⟩
def fec25 : Fld := ⟨0, 0x48, 0x40, 3, 1, .rw, 1, (.val 1), .kept, 0, 1⟩
def badMode : Fld := ⟨0, 0x48, 0x40, 4, 1, .rw, 0, (.val 0), .kept, 0, 1⟩
def rxPause : Fld := ⟨0, 0x48, 0x40, 5, 1, .rw, 0, (.val 0), .kept, 0, 1⟩
def rxPfc : Fld := ⟨0, 0x48, 0x40, 6, 1, .rw, 0, (.val 0), .kept, 0, 1⟩
def stbyTx : Fld := ⟨0, 0x48, 0x40, 7, 1, .rw, 0, (.val 0), .kept, 0, 1⟩
def excOwner : Fld := ⟨0, 0x48, 0x40, 8, 1, .rw, 0, (.val 0), .kept, 0, 1⟩
def maxLen : Fld := ⟨0, 0x48, 0x40, 9, 14, .rw, 1518, (.val 1518), .kept, 0, 1⟩
def up : Fld := ⟨0, 0x48, 0x44, 0, 4, .ro, 0, (.val 0), .kept, 0, 1⟩
def paused : Fld := ⟨0, 0x48, 0x44, 4, 4, .ro, 0, (.val 0), .kept, 0, 1⟩
def cfgErr : Fld := ⟨0, 0x48, 0x44, 8, 1, .ro, 0, (.val 0), .kept, 0, 1⟩
def calRun : Fld := ⟨0, 0x48, 0x44, 9, 1, .ro, 0, (.val 0), .kept, 0, 1⟩
def calStop : Fld := ⟨0, 0x48, 0x44, 10, 1, .ro, 0, (.val 0), .kept, 0, 1⟩
def maxPause : Fld := ⟨0, 0x48, 0x48, 0, 16, .rw, 1000, (.val 1000), .kept, 0, 1⟩
def slotWin : Fld := ⟨0, 0x48, 0x48, 16, 12, .rw, 500, (.val 500), .kept, 0, 1⟩
def excClass : Fld := ⟨0, 0x48, 0x4C, 0, 5, .rw, 15, (.val 15), .kept, 0, 1⟩
def tsqWptr : Fld := ⟨0, 0x48, 0x50, 0, 9, .ro, 0, (.val 0), (.val 0), 0, 1⟩
def tsqRptr : Fld := ⟨0, 0x48, 0x50, 16, 9, .rw, 0, (.val 0), (.val 0), 0, 1⟩
def excWptr : Fld := ⟨0, 0x48, 0x54, 0, 5, .ro, 0, (.val 0), (.val 0), 0, 1⟩
def excRptr : Fld := ⟨0, 0x48, 0x54, 8, 5, .rw, 0, (.val 0), (.val 0), 0, 1⟩
def unmatched : Fld := ⟨0, 0x48, 0x58, 0, 32, .w1c, 0, (.val 0), .kept, 0, 1⟩
def tsqLost : Fld := ⟨0, 0x48, 0x5C, 0, 32, .w1c, 0, (.val 0), .kept, 0, 1⟩
def macLo : Fld := ⟨0, 0x48, 0x100, 0, 32, .rw, 0, (.val 0), .kept, 0x20, 4⟩
def macHi : Fld := ⟨0, 0x48, 0x104, 0, 16, .rw, 0, (.val 0), .kept, 0x20, 4⟩
def ipv4 : Fld := ⟨0, 0x48, 0x108, 0, 32, .rw, 0, (.val 0), .kept, 0x20, 4⟩
def rxLat : Fld := ⟨0, 0x48, 0x10C, 0, 32, .rw, 0, (.val 0), .kept, 0x20, 4⟩
def txLat : Fld := ⟨0, 0x48, 0x110, 0, 32, .rw, 0, (.val 0), .kept, 0x20, 4⟩
def lUp : Fld := ⟨0, 0x48, 0x114, 0, 1, .ro, 0, (.val 0), .kept, 0x20, 4⟩
def lLock : Fld := ⟨0, 0x48, 0x114, 1, 1, .ro, 0, (.val 0), .kept, 0x20, 4⟩
def lPri : Fld := ⟨0, 0x48, 0x114, 2, 8, .ro, 0, (.val 0), .kept, 0x20, 4⟩
def fecUnc : Fld := ⟨0, 0x48, 0x114, 16, 16, .ro, 0, (.val 0), .kept, 0x20, 4⟩
def badCnt : Fld := ⟨0, 0x48, 0x118, 0, 32, .w1c, 0, (.val 0), .kept, 0x20, 4⟩
def missCnt : Fld := ⟨0, 0x48, 0x11C, 0, 32, .w1c, 0, (.val 0), .kept, 0x20, 4⟩
def tsq : Fld := ⟨1, 0x48, 0, 0, 32, .ro, 0, (.val 0), .kept, 1, 2048⟩
def excRing : Fld := ⟨1, 0x48, 4096, 0, 32, .ro, 0, (.val 0), .kept, 1, 16384⟩
/-- Every field of the page body and its table window. -/
def fields : List Fld :=
  [mode, fec25, badMode, rxPause, rxPfc, stbyTx, excOwner, maxLen, up, paused, cfgErr, calRun] ++
  [calStop, maxPause, slotWin, excClass, tsqWptr, tsqRptr, excWptr, excRptr, unmatched, tsqLost, macLo, macHi] ++
  [ipv4, rxLat, txLat, lUp, lLock, lPri, fecUnc, badCnt, missCnt, tsq, excRing]

end Eth

namespace Flowq

def nFlows : Fld := ⟨0, 0x50, 0x40, 0, 15, .ro, 0, (.val 0), .kept, 0, 1⟩
def nQueues : Fld := ⟨0, 0x50, 0x40, 15, 15, .ro, 0, (.val 0), .kept, 0, 1⟩
def refIndex : Fld := ⟨0, 0x50, 0x44, 0, 14, .ro, 0, (.val 0), .kept, 0, 1⟩
def refCode : Fld := ⟨0, 0x50, 0x44, 14, 3, .ro, 0, (.val 0), .kept, 0, 1⟩
def refValid : Fld := ⟨0, 0x50, 0x44, 31, 1, .w1c, 0, (.val 0), .kept, 0, 1⟩
def cpuAddr : Fld := ⟨0, 0x50, 0x100, 0, 22, .rw, 0, (.val 0), .kept, 16, 8⟩
def cpuLen : Fld := ⟨0, 0x50, 0x104, 0, 14, .rw, 0, (.val 0), .kept, 16, 8⟩
def cpuSub : Fld := ⟨0, 0x50, 0x104, 14, 2, .rw, 0, (.val 0), .kept, 16, 8⟩
def cpuTs : Fld := ⟨0, 0x50, 0x104, 16, 1, .rw, 0, (.val 0), .kept, 16, 8⟩
def cpuGo : Fld := ⟨0, 0x50, 0x104, 17, 1, .w1s, 0, (.val 0), (.val 0), 16, 8⟩
def cpuTag : Fld := ⟨0, 0x50, 0x108, 0, 16, .rw, 0, (.val 0), .kept, 16, 8⟩
def cpuFree : Fld := ⟨0, 0x50, 0x10C, 0, 5, .ro, 16, (.val 16), (.val 16), 16, 8⟩
def fEn : Fld := ⟨1, 0x50, 0, 0, 1, .rw, 0, (.val 0), .kept, 8, 16384⟩
def fLink : Fld := ⟨1, 0x50, 0, 1, 5, .rw, 0, (.val 0), .kept, 8, 16384⟩
def fVlanEn : Fld := ⟨1, 0x50, 0, 6, 1, .rw, 0, (.val 0), .kept, 8, 16384⟩
def fVid : Fld := ⟨1, 0x50, 0, 7, 12, .rw, 0, (.val 0), .kept, 8, 16384⟩
def fSrcEn : Fld := ⟨1, 0x50, 0, 19, 1, .rw, 0, (.val 0), .kept, 8, 16384⟩
def fUse : Fld := ⟨1, 0x50, 0, 20, 3, .rw, 0, (.val 0), .kept, 8, 16384⟩
def fSamp : Fld := ⟨1, 0x50, 0, 23, 3, .rw, 0, (.val 0), .kept, 8, 16384⟩
def fCsum : Fld := ⟨1, 0x50, 0, 26, 1, .rw, 0, (.val 0), .kept, 8, 16384⟩
def fDstIp : Fld := ⟨1, 0x50, 1, 0, 32, .rw, 0, (.val 0), .kept, 8, 16384⟩
def fSrcIp : Fld := ⟨1, 0x50, 2, 0, 32, .rw, 0, (.val 0), .kept, 8, 16384⟩
def fDstPort : Fld := ⟨1, 0x50, 3, 0, 16, .rw, 0, (.val 0), .kept, 8, 16384⟩
def fPt : Fld := ⟨1, 0x50, 3, 16, 7, .rw, 0, (.val 0), .kept, 8, 16384⟩
def fPtEn : Fld := ⟨1, 0x50, 3, 23, 1, .rw, 0, (.val 0), .kept, 8, 16384⟩
def fPkts : Fld := ⟨1, 0x50, 4, 0, 32, .ro, 0, (.val 0), .kept, 8, 16384⟩
def fDisc : Fld := ⟨1, 0x50, 5, 0, 16, .ro, 0, (.val 0), .kept, 8, 16384⟩
def fLastNs : Fld := ⟨1, 0x50, 6, 0, 30, .ro, 0, (.val 0), .kept, 8, 16384⟩
def qEn : Fld := ⟨1, 0x50, 131072, 0, 1, .rw, 0, (.val 0), .kept, 4, 16384⟩
def qLink : Fld := ⟨1, 0x50, 131072, 1, 5, .rw, 0, (.val 0), .kept, 4, 16384⟩
def qKind : Fld := ⟨1, 0x50, 131072, 6, 2, .rw, 0, (.val 0), .kept, 4, 16384⟩
def qMissAct : Fld := ⟨1, 0x50, 131072, 8, 1, .rw, 0, (.val 0), .kept, 4, 16384⟩
def qTsEn : Fld := ⟨1, 0x50, 131072, 9, 1, .rw, 0, (.val 0), .kept, 4, 16384⟩
def qDepth : Fld := ⟨1, 0x50, 131072, 10, 3, .rw, 2, (.val 2), .kept, 4, 16384⟩
def qPri : Fld := ⟨1, 0x50, 131072, 13, 3, .rw, 0, (.val 0), .kept, 4, 16384⟩
def qHdrLen : Fld := ⟨1, 0x50, 131072, 16, 7, .rw, 54, (.val 54), .kept, 4, 16384⟩
def qSrcSubst : Fld := ⟨1, 0x50, 131072, 23, 1, .rw, 1, (.val 1), .kept, 4, 16384⟩
def qSeq : Fld := ⟨1, 0x50, 131073, 0, 32, .rw, 0, (.val 0), .kept, 4, 16384⟩
def qSent : Fld := ⟨1, 0x50, 131074, 0, 32, .ro, 0, (.val 0), .kept, 4, 16384⟩
def qFill : Fld := ⟨1, 0x50, 131075, 0, 9, .ro, 0, (.val 0), .kept, 4, 16384⟩
def qDrops : Fld := ⟨1, 0x50, 131075, 16, 16, .ro, 0, (.val 0), .kept, 4, 16384⟩
def template : Fld := ⟨1, 0x50, 262144, 0, 32, .rw, 0, (.val 0), .kept, 1, 524288⟩
/-- Every field of the page body and its table window. -/
def fields : List Fld :=
  [nFlows, nQueues, refIndex, refCode, refValid, cpuAddr, cpuLen, cpuSub, cpuTs, cpuGo, cpuTag, cpuFree] ++
  [fEn, fLink, fVlanEn, fVid, fSrcEn, fUse, fSamp, fCsum, fDstIp, fSrcIp, fDstPort, fPt] ++
  [fPtEn, fPkts, fDisc, fLastNs, qEn, qLink, qKind, qMissAct, qTsEn, qDepth, qPri, qHdrLen] ++
  [qSrcSubst, qSeq, qSent, qFill, qDrops, template]

end Flowq

namespace Crcu

def nActive : Fld := ⟨0, 0x51, 0x40, 0, 7, .ro, 0, (.val 0), .kept, 0, 1⟩
def memBusy : Fld := ⟨0, 0x51, 0x40, 7, 1, .ro, 0, (.val 0), .kept, 0, 1⟩
def memBase : Fld := ⟨0, 0x51, 0x44, 0, 32, .rw, 0, (.val 0), .kept, 0, 1⟩
def rowLen : Fld := ⟨0, 0x51, 0x48, 0, 16, .rw, 0, (.val 0), .kept, 0, 1⟩
def stride : Fld := ⟨0, 0x51, 0x48, 16, 16, .rw, 0, (.val 0), .kept, 0, 1⟩
def rows : Fld := ⟨0, 0x51, 0x4C, 0, 16, .rw, 0, (.val 0), .kept, 0, 1⟩
def channel : Fld := ⟨0, 0x51, 0x4C, 16, 6, .rw, 0, (.val 0), .kept, 0, 1⟩
def region : Fld := ⟨0, 0x51, 0x4C, 22, 2, .rw, 0, (.val 0), .kept, 0, 1⟩
def memGo : Fld := ⟨0, 0x51, 0x4C, 24, 1, .w1s, 0, (.val 0), .kept, 0, 1⟩
def cEn : Fld := ⟨1, 0x51, 0, 0, 1, .rw, 0, (.val 0), .kept, 8, 64⟩
def cSrc : Fld := ⟨1, 0x51, 0, 1, 2, .rw, 0, (.val 0), .kept, 8, 64⟩
def cInst : Fld := ⟨1, 0x51, 0, 3, 14, .rw, 0, (.val 0), .kept, 8, 64⟩
def cEpoch : Fld := ⟨1, 0x51, 0, 17, 2, .rw, 0, (.val 0), .kept, 8, 64⟩
def cPreset : Fld := ⟨1, 0x51, 0, 19, 3, .rw, 3, (.val 3), .kept, 8, 64⟩
def cPeer : Fld := ⟨1, 0x51, 0, 22, 6, .rw, 0, (.val 0), .kept, 8, 64⟩
def cCmpEn : Fld := ⟨1, 0x51, 0, 28, 1, .rw, 0, (.val 0), .kept, 8, 64⟩
def cPoly : Fld := ⟨1, 0x51, 1, 0, 32, .rw, 0, (.val 0), .kept, 8, 64⟩
def cInit : Fld := ⟨1, 0x51, 2, 0, 32, .rw, 0, (.val 0), .kept, 8, 64⟩
def cXorout : Fld := ⟨1, 0x51, 3, 0, 32, .rw, 0, (.val 0), .kept, 8, 64⟩
def cWidth : Fld := ⟨1, 0x51, 4, 0, 6, .rw, 32, (.val 32), .kept, 8, 64⟩
def cRefin : Fld := ⟨1, 0x51, 4, 6, 1, .rw, 0, (.val 0), .kept, 8, 64⟩
def cRefout : Fld := ⟨1, 0x51, 4, 7, 1, .rw, 0, (.val 0), .kept, 8, 64⟩
def cN : Fld := ⟨1, 0x51, 4, 16, 16, .rw, 1, (.val 1), .kept, 8, 64⟩
def cOffset : Fld := ⟨1, 0x51, 5, 0, 16, .rw, 0, (.val 0), .kept, 8, 64⟩
def cLen : Fld := ⟨1, 0x51, 5, 16, 16, .rw, 0, (.val 0), .kept, 8, 64⟩
def cWptr : Fld := ⟨1, 0x51, 6, 0, 6, .ro, 0, (.val 0), .kept, 8, 64⟩
def cRptr : Fld := ⟨1, 0x51, 6, 8, 6, .rw, 0, (.val 0), .kept, 8, 64⟩
def cLost : Fld := ⟨1, 0x51, 6, 16, 16, .ro, 0, (.val 0), .kept, 8, 64⟩
def cUnpaired : Fld := ⟨1, 0x51, 7, 0, 16, .ro, 0, (.val 0), .kept, 8, 64⟩
def cMismatches : Fld := ⟨1, 0x51, 7, 16, 16, .ro, 0, (.val 0), .kept, 8, 64⟩
def result : Fld := ⟨1, 0x51, 1024, 0, 32, .ro, 0, (.val 0), .kept, 1, 8192⟩
/-- Every field of the page body and its table window. -/
def fields : List Fld :=
  [nActive, memBusy, memBase, rowLen, stride, rows, channel, region, memGo, cEn, cSrc, cInst] ++
  [cEpoch, cPreset, cPeer, cCmpEn, cPoly, cInit, cXorout, cWidth, cRefin, cRefout, cN, cOffset] ++
  [cLen, cWptr, cRptr, cLost, cUnpaired, cMismatches, result]

end Crcu

end Sys2Proof.Machine
end

