-- ==== Sys2Proof/Machine/RegPower.lean ====
section
/-! DEFINITION. Field maps of Pwr, Rst (spec/15 R478, R480): one named field per row of the field maps, its place, width, access
code and reset values (POR value, then what COLD and WARM do). An array of registers is one field with a stride and a count. -/

namespace Sys2Proof.Machine


namespace Pwr

def service : Fld := ⟨0, 0x1, 0x40, 0, 1, .rw, 0, (.val 0), .kept, 0, 1⟩
def railsOk : Fld := ⟨0, 0x1, 0x44, 0, 1, .ro, 0, (.val 0), .kept, 0, 1⟩
def deferring : Fld := ⟨0, 0x1, 0x44, 1, 1, .ro, 0, (.val 0), .kept, 0, 1⟩
def latTol : Fld := ⟨0, 0x1, 0x48, 0, 24, .rw, 0, (.val 0), .kept, 0, 1⟩
def icore : Fld := ⟨0, 0x1, 0x4C, 0, 10, .ro, 0, (.val 0), .kept, 0, 1⟩
def ballast : Fld := ⟨0, 0x1, 0x4C, 10, 10, .ro, 0, (.val 0), .kept, 0, 1⟩
def deferCnt : Fld := ⟨0, 0x1, 0x50, 0, 16, .w1c, 0, (.val 0), .kept, 0, 1⟩
def lateCnt : Fld := ⟨0, 0x1, 0x50, 16, 16, .w1c, 0, (.val 0), .kept, 0, 1⟩
def railMv : Fld := ⟨0, 0x1, 0x60, 0, 12, .ro, 0, (.val 0), .kept, 4, 10⟩
def railInWin : Fld := ⟨0, 0x1, 0x60, 12, 1, .ro, 0, (.val 0), .kept, 4, 10⟩
def clState : Fld := ⟨1, 0x1, 0, 0, 3, .ro, 4, (.val 4), .kept, 1, 64⟩
def clAllowed : Fld := ⟨1, 0x1, 0, 3, 3, .ro, 0, (.val 0), .kept, 1, 64⟩
def clIwake : Fld := ⟨1, 0x1, 0, 8, 8, .ro, 0, (.val 0), .kept, 1, 64⟩
def clTol : Fld := ⟨1, 0x1, 0, 16, 16, .ro, 0, (.val 0), .kept, 1, 64⟩
/-- Every field of the page body and its table window. -/
def fields : List Fld :=
  [service, railsOk, deferring, latTol, icore, ballast, deferCnt, lateCnt, railMv, railInWin, clState, clAllowed] ++
  [clIwake, clTol]

end Pwr

namespace Rst

def cause : Fld := ⟨0, 0x2, 0x40, 0, 3, .ro, 0, .kept, .kept, 0, 1⟩
def warmDeferred : Fld := ⟨0, 0x2, 0x40, 3, 1, .ro, 0, (.val 0), (.val 0), 0, 1⟩
def nWarm : Fld := ⟨0, 0x2, 0x44, 0, 16, .ro, 0, (.val 0), .kept, 0, 1⟩
def nBlock : Fld := ⟨0, 0x2, 0x44, 16, 16, .ro, 0, (.val 0), .kept, 0, 1⟩
/-- Every field of the page body and its table window. -/
def fields : List Fld :=
  [cause, warmDeferred, nWarm, nBlock]

end Rst

end Sys2Proof.Machine
end

