-- ==== Sys2Proof/Machine/RegSched.lean ====
section
/-! DEFINITION. Field maps of Sched (spec/09 R287): one named field per row of the field maps, its place, width, access
code and reset values (POR value, then what COLD and WARM do). An array of registers is one field with a stride and a count. -/

namespace Sys2Proof.Machine


namespace Sched

def fs : Fld := ⟨0, 0x120, 0x40, 0, 1, .rw, 0, (.val 0), .kept, 0, 1⟩
def plen : Fld := ⟨0, 0x120, 0x40, 1, 2, .rw, 1, (.val 1), .kept, 0, 1⟩
def periods : Fld := ⟨0, 0x120, 0x44, 0, 1, .ro, 0, (.val 0), .kept, 0, 1⟩
def floorOk : Fld := ⟨0, 0x120, 0x44, 1, 1, .ro, 0, (.val 0), .kept, 0, 1⟩
def condOk : Fld := ⟨0, 0x120, 0x44, 2, 1, .ro, 0, (.val 0), .kept, 0, 1⟩
def govAtMax : Fld := ⟨0, 0x120, 0x44, 3, 1, .ro, 0, (.val 0), .kept, 0, 1⟩
def loadGo : Fld := ⟨0, 0x120, 0x48, 0, 1, .w1s, 0, (.val 0), (.val 0), 0, 1⟩
def code : Fld := ⟨0, 0x120, 0x4C, 0, 3, .ro, 0, (.val 0), .kept, 0, 1⟩
def reason : Fld := ⟨0, 0x120, 0x4C, 3, 4, .ro, 0, (.val 0), .kept, 0, 1⟩
def section_ : Fld := ⟨0, 0x120, 0x4C, 7, 9, .ro, 0, (.val 0), .kept, 0, 1⟩
def imgId : Fld := ⟨0, 0x120, 0x50, 0, 32, .ro, 0, (.val 0), .kept, 0, 1⟩
def rateMin : Fld := ⟨0, 0x120, 0x54, 0, 12, .ro, 0, (.val 0), .kept, 0, 1⟩
def rateCluster : Fld := ⟨0, 0x120, 0x54, 12, 6, .ro, 0, (.val 0), .kept, 0, 1⟩
def rateLow : Fld := ⟨0, 0x120, 0x58, 0, 12, .ro, 4095, (.val 4095), .kept, 0, 1⟩
def rateLowCluster : Fld := ⟨0, 0x120, 0x58, 12, 6, .ro, 0, (.val 0), .kept, 0, 1⟩
def govEn : Fld := ⟨0, 0x120, 0x5C, 0, 1, .rw, 0, (.val 0), .kept, 0, 1⟩
def govTarget : Fld := ⟨0, 0x120, 0x5C, 1, 12, .rw, 1600, (.val 1600), .kept, 0, 1⟩
def govHyst : Fld := ⟨0, 0x120, 0x5C, 13, 6, .rw, 20, (.val 20), .kept, 0, 1⟩
def govInterval : Fld := ⟨0, 0x120, 0x5C, 19, 8, .rw, 10, (.val 10), .kept, 0, 1⟩
def avsDiv : Fld := ⟨0, 0x120, 0x5C, 27, 2, .rw, 1, (.val 1), .kept, 0, 1⟩
def vmin : Fld := ⟨0, 0x120, 0x60, 0, 10, .rw, 720, (.val 720), .kept, 0, 1⟩
def vmax : Fld := ⟨0, 0x120, 0x60, 10, 10, .rw, 860, (.val 860), .kept, 0, 1⟩
def avsRail : Fld := ⟨0, 0x120, 0x60, 20, 4, .rw, 0, (.val 0), .kept, 0, 1⟩
def vset : Fld := ⟨0, 0x120, 0x64, 0, 10, .ro, 0, (.val 0), .kept, 0, 1⟩
def vread : Fld := ⟨0, 0x120, 0x64, 10, 10, .ro, 0, (.val 0), .kept, 0, 1⟩
def avs : Fld := ⟨0, 0x120, 0x64, 20, 2, .ro, 0, (.val 0), .kept, 0, 1⟩
def vsense : Fld := ⟨0, 0x120, 0x68, 0, 10, .ro, 0, (.val 0), .kept, 0, 1⟩
def tj : Fld := ⟨0, 0x120, 0x68, 10, 10, .ro, 0, (.val 0), .kept, 0, 1⟩
def slackWarn : Fld := ⟨0, 0x120, 0x6C, 0, 10, .rw, 102, (.val 102), .kept, 0, 1⟩
def recover : Fld := ⟨0, 0x120, 0x6C, 10, 4, .rw, 2, (.val 2), .kept, 0, 1⟩
def slackMin : Fld := ⟨0, 0x120, 0x70, 0, 10, .ro, 1023, (.val 1023), .kept, 4, 4⟩
def slackUnit : Fld := ⟨0, 0x120, 0x70, 10, 11, .ro, 0, (.val 0), .kept, 4, 4⟩
def ovrCnt : Fld := ⟨0, 0x120, 0x80, 0, 32, .w1c, 0, (.val 0), .kept, 0, 1⟩
def ovrClass : Fld := ⟨0, 0x120, 0x84, 0, 2, .ro, 0, (.val 0), .kept, 0, 1⟩
def ovrUnit : Fld := ⟨0, 0x120, 0x84, 2, 11, .ro, 0, (.val 0), .kept, 0, 1⟩
def ovrCause : Fld := ⟨0, 0x120, 0x84, 13, 3, .ro, 0, (.val 0), .kept, 0, 1⟩
def ovrLevel : Fld := ⟨0, 0x120, 0x84, 16, 2, .ro, 0, (.val 0), .kept, 0, 1⟩
def budgetCnt : Fld := ⟨0, 0x120, 0x88, 0, 32, .w1c, 0, (.val 0), .kept, 0, 1⟩
/-- Every field of the page body and its table window. -/
def fields : List Fld :=
  [fs, plen, periods, floorOk, condOk, govAtMax, loadGo, code, reason, section_, imgId, rateMin] ++
  [rateCluster, rateLow, rateLowCluster, govEn, govTarget, govHyst, govInterval, avsDiv, vmin, vmax, avsRail, vset] ++
  [vread, avs, vsense, tj, slackWarn, recover, slackMin, slackUnit, ovrCnt, ovrClass, ovrUnit, ovrCause] ++
  [ovrLevel, budgetCnt]

end Sched

end Sys2Proof.Machine
end

