-- ==== Sys2Proof/Machine/RegTiming.lean ====
section
/-! DEFINITION. Field maps of MerSel, MerLoop, MerHold, Ptp, Time (spec/11 R368 to R372): one named field per row of the field maps, its place, width, access
code and reset values (POR value, then what COLD and WARM do). An array of registers is one field with a stride and a count. -/

namespace Sys2Proof.Machine


namespace MerSel

def devId : Fld := ⟨0, 0x10, 0x40, 0, 16, .rw, Config.merDevId.toNat, (.val Config.merDevId.toNat), .kept, 0, 1⟩
def fabGrp : Fld := ⟨0, 0x10, 0x40, 16, 5, .rw, 0, (.val 0), .kept, 0, 1⟩
def fabRate : Fld := ⟨0, 0x10, 0x40, 21, 4, .rw, 2, (.val 2), .kept, 0, 1⟩
def sel : Fld := ⟨0, 0x10, 0x44, 0, 4, .ro, 8, (.val 8), .kept, 0, 1⟩
def qlOut : Fld := ⟨0, 0x10, 0x44, 4, 4, .ro, 14, (.val 14), .kept, 0, 1⟩
def manual : Fld := ⟨0, 0x10, 0x44, 8, 1, .ro, 0, (.val 0), .kept, 0, 1⟩
def fallback : Fld := ⟨0, 0x10, 0x44, 9, 1, .ro, 0, (.val 0), .kept, 0, 1⟩
def disagree : Fld := ⟨0, 0x10, 0x44, 10, 1, .ro, 0, (.val 0), .kept, 0, 1⟩
def driftSoft : Fld := ⟨0, 0x10, 0x48, 0, 12, .rw, 50, (.val 50), .kept, 0, 1⟩
def driftHard : Fld := ⟨0, 0x10, 0x48, 12, 12, .rw, 200, (.val 200), .kept, 0, 1⟩
def qualS : Fld := ⟨0, 0x10, 0x4C, 0, 10, .rw, 10, (.val 10), .kept, 0, 1⟩
def disqHold : Fld := ⟨0, 0x10, 0x4C, 10, 10, .rw, 60, (.val 60), .kept, 0, 1⟩
def disagreePpb : Fld := ⟨0, 0x10, 0x4C, 20, 12, .rw, 100, (.val 100), .kept, 0, 1⟩
def accPpm : Fld := ⟨0, 0x10, 0x50, 0, 8, .rw, 25, (.val 25), .kept, 0, 1⟩
def qmsgTo : Fld := ⟨0, 0x10, 0x50, 8, 5, .rw, 5, (.val 5), .kept, 0, 1⟩
def prio : Fld := ⟨0, 0x10, 0x100, 0, 4, .rw, 0, (.val 0), .kept, 16, 8⟩
def prioLocal : Fld := ⟨0, 0x10, 0x180, 0, 4, .rw, 15, (.val 15), .kept, 0, 1⟩
def qlFix : Fld := ⟨0, 0x10, 0x100, 4, 4, .rw, 15, (.val 15), .kept, 16, 9⟩
def qlSrc : Fld := ⟨0, 0x10, 0x100, 8, 1, .rw, 0, (.val 0), .kept, 16, 9⟩
def ctype : Fld := ⟨0, 0x10, 0x100, 9, 3, .rw, 0, (.val 0), .kept, 16, 4⟩
def crate : Fld := ⟨0, 0x10, 0x100, 12, 4, .rw, 2, (.val 2), .kept, 16, 9⟩
def edge : Fld := ⟨0, 0x10, 0x100, 16, 1, .rw, 0, (.val 0), .kept, 16, 9⟩
def cstate : Fld := ⟨0, 0x10, 0x104, 0, 3, .ro, 0, (.val 0), .kept, 16, 9⟩
def ql : Fld := ⟨0, 0x10, 0x104, 3, 4, .ro, 15, (.val 15), .kept, 16, 9⟩
def drift : Fld := ⟨0, 0x10, 0x104, 7, 1, .ro, 0, (.val 0), .kept, 16, 9⟩
def srcId : Fld := ⟨0, 0x10, 0x104, 8, 8, .ro, 0, (.val 0), .kept, 16, 9⟩
def trace : Fld := ⟨0, 0x10, 0x104, 16, 1, .ro, 0, (.val 0), .kept, 16, 9⟩
def chold : Fld := ⟨0, 0x10, 0x104, 17, 1, .ro, 0, (.val 0), .kept, 16, 9⟩
def hops : Fld := ⟨0, 0x10, 0x104, 18, 4, .ro, 0, (.val 0), .kept, 16, 9⟩
def loop : Fld := ⟨0, 0x10, 0x104, 22, 1, .ro, 0, (.val 0), .kept, 16, 9⟩
def freq : Fld := ⟨0, 0x10, 0x108, 0, 32, .ro, 0, (.val 0), .kept, 16, 9⟩
def cphase : Fld := ⟨0, 0x10, 0x10C, 0, 32, .ro, 0, (.val 0), .kept, 16, 9⟩
/-- Every field of the page body and its table window. -/
def fields : List Fld :=
  [devId, fabGrp, fabRate, sel, qlOut, manual, fallback, disagree, driftSoft, driftHard, qualS, disqHold] ++
  [disagreePpb, accPpm, qmsgTo, prio, prioLocal, qlFix, qlSrc, ctype, crate, edge, cstate, ql] ++
  [drift, srcId, trace, chold, hops, loop, freq, cphase]

end MerSel

namespace MerLoop

def regime : Fld := ⟨0, 0x11, 0x40, 0, 2, .rw, 1, (.val 1), .kept, 0, 1⟩
def recovEn : Fld := ⟨0, 0x11, 0x40, 2, 1, .rw, 1, (.val 1), .kept, 0, 1⟩
def recovS : Fld := ⟨0, 0x11, 0x40, 3, 10, .rw, 60, (.val 60), .kept, 0, 1⟩
def trackBw : Fld := ⟨0, 0x11, 0x44, 0, 16, .rw, 100, (.val 100), .kept, 0, 1⟩
def thresh : Fld := ⟨0, 0x11, 0x44, 16, 10, .rw, 100, (.val 100), .kept, 0, 1⟩
def narrowS : Fld := ⟨0, 0x11, 0x44, 26, 6, .rw, 2, (.val 2), .kept, 0, 1⟩
def slew : Fld := ⟨0, 0x11, 0x48, 0, 16, .rw, 50, (.val 50), .kept, 0, 1⟩
def tbwFp : Fld := ⟨0, 0x11, 0x4C, 0, 16, .rw, 10000, (.val 10000), .kept, 0, 1⟩
def tbwWc : Fld := ⟨0, 0x11, 0x4C, 16, 16, .rw, 20000, (.val 20000), .kept, 0, 1⟩
def tbw10m : Fld := ⟨0, 0x11, 0x50, 0, 16, .rw, 5000, (.val 5000), .kept, 0, 1⟩
def tbwPtp : Fld := ⟨0, 0x11, 0x50, 16, 16, .rw, 50, (.val 50), .kept, 0, 1⟩
def tbwFab : Fld := ⟨0, 0x11, 0x54, 0, 16, .rw, 2000, (.val 2000), .kept, 0, 1⟩
def tbwTwin : Fld := ⟨0, 0x11, 0x54, 16, 16, .rw, 20000, (.val 20000), .kept, 0, 1⟩
def state : Fld := ⟨0, 0x11, 0x58, 0, 3, .ro, 0, (.val 0), .kept, 0, 1⟩
def regimeNow : Fld := ⟨0, 0x11, 0x58, 3, 2, .ro, 1, (.val 1), .kept, 0, 1⟩
def bwNow : Fld := ⟨0, 0x11, 0x58, 5, 16, .ro, 0, (.val 0), .kept, 0, 1⟩
def pherr : Fld := ⟨0, 0x11, 0x5C, 0, 32, .ro, 0, (.val 0), .kept, 0, 1⟩
def cw : Fld := ⟨0, 0x11, 0x60, 0, 32, .ro, 0, .kept, .kept, 0, 1⟩
def build : Fld := ⟨0, 0x11, 0x64, 0, 32, .ro, 0, (.val 0), .kept, 0, 1⟩
def raVideo : Fld := ⟨0, 0x11, 0x68, 0, 1, .rw, 0, (.val 0), .kept, 0, 1⟩
def raFpout : Fld := ⟨0, 0x11, 0x68, 1, 1, .rw, 0, (.val 0), .kept, 0, 1⟩
def raWcout : Fld := ⟨0, 0x11, 0x68, 2, 1, .rw, 0, (.val 0), .kept, 0, 1⟩
def raAudio : Fld := ⟨0, 0x11, 0x68, 3, 1, .rw, 0, (.val 0), .kept, 0, 1⟩
def raGo : Fld := ⟨0, 0x11, 0x68, 4, 1, .w1s, 0, (.val 0), (.val 0), 0, 1⟩
def raResult : Fld := ⟨0, 0x11, 0x68, 5, 3, .ro, 0, (.val 0), .kept, 0, 1⟩
def vidOfs : Fld := ⟨0, 0x11, 0x6C, 0, 32, .rw, 0, (.val 0), .kept, 0, 1⟩
def audOfs : Fld := ⟨0, 0x11, 0x70, 0, 32, .ro, 0, (.val 0), .kept, 0, 1⟩
def fpEn : Fld := ⟨0, 0x11, 0x80, 0, 1, .rw, 0, (.val 0), .kept, 4, 4⟩
def fpRate : Fld := ⟨0, 0x11, 0x80, 1, 4, .rw, 2, (.val 2), .kept, 4, 4⟩
def fpPol : Fld := ⟨0, 0x11, 0x80, 5, 1, .rw, 0, (.val 0), .kept, 4, 4⟩
def fpWidth : Fld := ⟨0, 0x11, 0x80, 6, 10, .rw, 10, (.val 10), .kept, 4, 4⟩
def fpOfs : Fld := ⟨0, 0x11, 0x90, 0, 32, .rw, 0, (.val 0), .kept, 4, 4⟩
def wcEn : Fld := ⟨0, 0x11, 0xA0, 0, 1, .rw, 0, (.val 0), .kept, 4, 2⟩
def wcRate : Fld := ⟨0, 0x11, 0xA0, 1, 1, .rw, 0, (.val 0), .kept, 4, 2⟩
def wcPol : Fld := ⟨0, 0x11, 0xA0, 2, 1, .rw, 0, (.val 0), .kept, 4, 2⟩
def wcOfs : Fld := ⟨0, 0x11, 0xA8, 0, 32, .rw, 0, (.val 0), .kept, 4, 2⟩
def genOfs : Fld := ⟨0, 0x11, 0x100, 0, 31, .ro, 0, (.val 0), .kept, 4, 8⟩
def genValid : Fld := ⟨0, 0x11, 0x100, 31, 1, .ro, 0, (.val 0), .kept, 4, 8⟩
/-- Every field of the page body and its table window. -/
def fields : List Fld :=
  [regime, recovEn, recovS, trackBw, thresh, narrowS, slew, tbwFp, tbwWc, tbw10m, tbwPtp, tbwFab] ++
  [tbwTwin, state, regimeNow, bwNow, pherr, cw, build, raVideo, raFpout, raWcout, raAudio, raGo] ++
  [raResult, vidOfs, audOfs, fpEn, fpRate, fpPol, fpWidth, fpOfs, wcEn, wcRate, wcPol, wcOfs] ++
  [genOfs, genValid]

end MerLoop

namespace MerHold

def window : Fld := ⟨0, 0x12, 0x40, 0, 10, .rw, 300, (.val 300), .kept, 0, 1⟩
def gap : Fld := ⟨0, 0x12, 0x40, 10, 10, .rw, 60, (.val 60), .kept, 0, 1⟩
def minSamp : Fld := ⟨0, 0x12, 0x40, 20, 10, .rw, 60, (.val 60), .kept, 0, 1⟩
def holdQl : Fld := ⟨0, 0x12, 0x44, 0, 4, .rw, 12, (.val 12), .kept, 0, 1⟩
def holdMax : Fld := ⟨0, 0x12, 0x44, 4, 20, .rw, 86400, (.val 86400), .kept, 0, 1⟩
def valid : Fld := ⟨0, 0x12, 0x48, 0, 1, .ro, 0, .kept, .kept, 0, 1⟩
def samples : Fld := ⟨0, 0x12, 0x48, 1, 11, .ro, 0, .kept, .kept, 0, 1⟩
def age : Fld := ⟨0, 0x12, 0x48, 12, 20, .ro, 0, (.val 0), .kept, 0, 1⟩
def value : Fld := ⟨0, 0x12, 0x4C, 0, 32, .ro, 0, .kept, .kept, 0, 1⟩
def newest : Fld := ⟨0, 0x12, 0x50, 0, 10, .ro, 0, .kept, .kept, 0, 1⟩
def smpCw : Fld := ⟨1, 0x12, 0, 0, 24, .ro, 0, .kept, .kept, 1, 1024⟩
def smpValid : Fld := ⟨1, 0x12, 0, 24, 1, .ro, 0, .kept, .kept, 1, 1024⟩
/-- Every field of the page body and its table window. -/
def fields : List Fld :=
  [window, gap, minSamp, holdQl, holdMax, valid, samples, age, value, newest, smpCw, smpValid]

end MerHold

namespace Ptp

def steer : Fld := ⟨0, 0x13, 0x40, 0, 1, .rw, 0, (.val 0), .kept, 0, 1⟩
def follow : Fld := ⟨0, 0x13, 0x40, 1, 1, .rw, 1, (.val 1), .kept, 0, 1⟩
def bw : Fld := ⟨0, 0x13, 0x44, 0, 16, .rw, 100, (.val 100), .kept, 0, 1⟩
def maxAdj : Fld := ⟨0, 0x13, 0x44, 16, 16, .rw, 1000, (.val 1000), .kept, 0, 1⟩
def jumpLimit : Fld := ⟨0, 0x13, 0x48, 0, 20, .rw, 10000, (.val 10000), .kept, 0, 1⟩
def jumpN : Fld := ⟨0, 0x13, 0x48, 20, 8, .rw, 16, (.val 16), .kept, 0, 1⟩
def stepped : Fld := ⟨0, 0x13, 0x4C, 0, 1, .ro, 0, (.val 0), .kept, 0, 1⟩
def following : Fld := ⟨0, 0x13, 0x4C, 1, 1, .ro, 0, (.val 0), .kept, 0, 1⟩
def restepArmed : Fld := ⟨0, 0x13, 0x4C, 2, 1, .ro, 0, (.val 0), .kept, 0, 1⟩
def utcOfs : Fld := ⟨0, 0x13, 0x50, 0, 16, .ro, 0, (.val 0), .kept, 0, 1⟩
def utcValid : Fld := ⟨0, 0x13, 0x50, 16, 1, .ro, 0, (.val 0), .kept, 0, 1⟩
def iEn : Fld := ⟨0, 0x13, 0x100, 0, 1, .rw, 0, (.val 0), .kept, 0x40, 2⟩
def iProfile : Fld := ⟨0, 0x13, 0x100, 1, 2, .rw, 0, (.val 0), .kept, 0x40, 2⟩
def iDomain : Fld := ⟨0, 0x13, 0x100, 3, 8, .rw, 127, (.val 127), .kept, 0x40, 2⟩
def iLink : Fld := ⟨0, 0x13, 0x100, 11, 5, .rw, 0, (.val 0), .kept, 0x40, 2⟩
def iLogSync : Fld := ⟨0, 0x13, 0x100, 16, 4, .rw, 13, (.val 13), .kept, 0x40, 2⟩
def iAnnTo : Fld := ⟨0, 0x13, 0x100, 20, 3, .rw, 3, (.val 3), .kept, 0x40, 2⟩
def iSyncTo : Fld := ⟨0, 0x13, 0x100, 23, 3, .rw, 3, (.val 3), .kept, 0x40, 2⟩
def iState : Fld := ⟨0, 0x13, 0x104, 0, 3, .ro, 0, (.val 0), (.val 0), 0x40, 2⟩
def iRefusing : Fld := ⟨0, 0x13, 0x104, 3, 1, .ro, 0, (.val 0), (.val 0), 0x40, 2⟩
def iQl : Fld := ⟨0, 0x13, 0x104, 4, 4, .ro, 15, (.val 15), (.val 15), 0x40, 2⟩
def iOfs : Fld := ⟨0, 0x13, 0x108, 0, 32, .ro, 0, (.val 0), (.val 0), 0x40, 2⟩
def iDelay : Fld := ⟨0, 0x13, 0x10C, 0, 32, .ro, 0, (.val 0), (.val 0), 0x40, 2⟩
def gmIdLo : Fld := ⟨0, 0x13, 0x110, 0, 32, .ro, 0, (.val 0), (.val 0), 0x40, 2⟩
def gmIdHi : Fld := ⟨0, 0x13, 0x114, 0, 32, .ro, 0, (.val 0), (.val 0), 0x40, 2⟩
def gmClass : Fld := ⟨0, 0x13, 0x118, 0, 8, .ro, 0, (.val 0), (.val 0), 0x40, 2⟩
def gmAccuracy : Fld := ⟨0, 0x13, 0x118, 8, 8, .ro, 0, (.val 0), (.val 0), 0x40, 2⟩
def gmVariance : Fld := ⟨0, 0x13, 0x118, 16, 16, .ro, 0, (.val 0), (.val 0), 0x40, 2⟩
def refused : Fld := ⟨0, 0x13, 0x11C, 0, 32, .w1c, 0, (.val 0), .kept, 0x40, 2⟩
/-- Every field of the page body and its table window. -/
def fields : List Fld :=
  [steer, follow, bw, maxAdj, jumpLimit, jumpN, stepped, following, restepArmed, utcOfs, utcValid, iEn] ++
  [iProfile, iDomain, iLink, iLogSync, iAnnTo, iSyncTo, iState, iRefusing, iQl, iOfs, iDelay, gmIdLo] ++
  [gmIdHi, gmClass, gmAccuracy, gmVariance, refused]

end Ptp

namespace Time

def amcTol : Fld := ⟨0, 0x14, 0x40, 0, 16, .rw, 16, (.val 16), .kept, 0, 1⟩
def rate : Fld := ⟨0, 0x14, 0x50, 0, 32, .ro, 0, (.val 0), .kept, 0, 1⟩
def amcOfs : Fld := ⟨0, 0x14, 0x54, 0, 32, .ro, 0, (.val 0), .kept, 0, 1⟩
def evtEdges : Fld := ⟨0, 0x14, 0x58, 0, 16, .rw, 0, (.val 0), .kept, 0, 1⟩
def refcap : Fld := ⟨0, 0x14, 0x5C, 0, 24, .rw, 0, (.val 0), .kept, 0, 1⟩
def evtWptr : Fld := ⟨0, 0x14, 0x60, 0, 8, .ro, 0, (.val 0), (.val 0), 0, 1⟩
def evtRptr : Fld := ⟨0, 0x14, 0x60, 16, 8, .rw, 0, (.val 0), (.val 0), 0, 1⟩
def evtLost : Fld := ⟨0, 0x14, 0x64, 0, 32, .w1c, 0, (.val 0), .kept, 0, 1⟩
def cArm : Fld := ⟨0, 0x14, 0x100, 0, 1, .w1s, 0, (.val 0), .kept, 16, 8⟩
def cBase : Fld := ⟨0, 0x14, 0x100, 1, 1, .rw, 0, (.val 0), .kept, 16, 8⟩
def cDisarm : Fld := ⟨0, 0x14, 0x100, 2, 1, .w1s, 0, (.val 0), (.val 0), 16, 8⟩
def cLate : Fld := ⟨0, 0x14, 0x100, 3, 1, .ro, 0, (.val 0), .kept, 16, 8⟩
def cNs : Fld := ⟨0, 0x14, 0x104, 0, 32, .rw, 0, (.val 0), .kept, 16, 8⟩
def cSecLo : Fld := ⟨0, 0x14, 0x108, 0, 32, .rw, 0, (.val 0), .kept, 16, 8⟩
def cSecHi : Fld := ⟨0, 0x14, 0x10C, 0, 16, .rw, 0, (.val 0), .kept, 16, 8⟩
def evt : Fld := ⟨1, 0x14, 0, 0, 32, .ro, 0, (.val 0), .kept, 1, 1024⟩
/-- Every field of the page body and its table window. -/
def fields : List Fld :=
  [amcTol, rate, amcOfs, evtEdges, refcap, evtWptr, evtRptr, evtLost, cArm, cBase, cDisarm, cLate] ++
  [cNs, cSecLo, cSecHi, evt]

end Time

end Sys2Proof.Machine
end

