-- ==== Sys2Proof/Machine/RegTwin.lean ====
section
/-! DEFINITION. Field maps of Twin, Ump (spec/12 R401, R403): one named field per row of the field maps, its place, width, access
code and reset values (POR value, then what COLD and WARM do). An array of registers is one field with a stride and a count. -/

namespace Sys2Proof.Machine


namespace Twin

def home : Fld := ⟨0, 0x128, 0x40, 0, 1, .rw, 0, (.val 0), .kept, 0, 1⟩
def lossTake : Fld := ⟨0, 0x128, 0x40, 1, 1, .rw, 1, (.val 1), .kept, 0, 1⟩
def lossUs : Fld := ⟨0, 0x128, 0x40, 2, 8, .rw, 20, (.val 20), .kept, 0, 1⟩
def lead : Fld := ⟨0, 0x128, 0x40, 10, 5, .rw, 8, (.val 8), .kept, 0, 1⟩
def bistEn : Fld := ⟨0, 0x128, 0x40, 15, 1, .rw, 1, (.val 1), .kept, 0, 1⟩
def pairWait : Fld := ⟨0, 0x128, 0x40, 16, 8, .rw, 20, (.val 20), .kept, 0, 1⟩
def state : Fld := ⟨0, 0x128, 0x44, 2, 3, .ro, 1, (.val 1), .kept, 0, 1⟩
def active : Fld := ⟨0, 0x128, 0x44, 5, 1, .ro, 0, (.val 0), .kept, 0, 1⟩
def health : Fld := ⟨0, 0x128, 0x44, 6, 2, .ro, 0, (.val 0), .kept, 0, 1⟩
def mateHealth : Fld := ⟨0, 0x128, 0x44, 8, 2, .ro, 3, (.val 3), .kept, 0, 1⟩
def matePresent : Fld := ⟨0, 0x128, 0x44, 10, 1, .ro, 0, (.val 0), .kept, 0, 1⟩
def partialUp : Fld := ⟨0, 0x128, 0x44, 11, 1, .ro, 0, (.val 0), .kept, 0, 1⟩
def lsideBad : Fld := ⟨0, 0x128, 0x44, 12, 6, .ro, 0, (.val 0), .kept, 0, 1⟩
def hClr : Fld := ⟨0, 0x128, 0x48, 0, 1, .w1s, 0, (.val 0), (.val 0), 0, 1⟩
def cause : Fld := ⟨0, 0x128, 0x48, 1, 8, .ro, 0, (.val 0), .kept, 0, 1⟩
def healthDwell : Fld := ⟨0, 0x128, 0x4C, 0, 16, .rw, 60, (.val 60), .kept, 0, 1⟩
def mateGood : Fld := ⟨0, 0x128, 0x4C, 16, 16, .ro, 0, (.val 0), .kept, 0, 1⟩
def epoch : Fld := ⟨0, 0x128, 0x50, 0, 32, .ro, 0, (.val 0), .kept, 0, 1⟩
def queued : Fld := ⟨0, 0x128, 0x54, 0, 14, .ro, 0, (.val 0), .kept, 0, 1⟩
def replays : Fld := ⟨0, 0x128, 0x54, 16, 16, .ro, 0, (.val 0), .kept, 0, 1⟩
def resyncGo : Fld := ⟨0, 0x128, 0x58, 0, 1, .w1s, 0, (.val 0), (.val 0), 0, 1⟩
def resyncPhase : Fld := ⟨0, 0x128, 0x58, 1, 3, .ro, 0, (.val 0), .kept, 0, 1⟩
def lastCause : Fld := ⟨0, 0x128, 0x5C, 0, 4, .ro, 0, (.val 0), .kept, 0, 1⟩
def lastDir : Fld := ⟨0, 0x128, 0x5C, 4, 1, .ro, 0, (.val 0), .kept, 0, 1⟩
def switches : Fld := ⟨0, 0x128, 0x60, 0, 16, .ro, 0, (.val 0), .kept, 0, 1⟩
def disputes : Fld := ⟨0, 0x128, 0x60, 16, 16, .ro, 0, (.val 0), .kept, 0, 1⟩
/-- Every field of the page body and its table window. -/
def fields : List Fld :=
  [home, lossTake, lossUs, lead, bistEn, pairWait, state, active, health, mateHealth, matePresent, partialUp] ++
  [lsideBad, hClr, cause, healthDwell, mateGood, epoch, queued, replays, resyncGo, resyncPhase, lastCause, lastDir] ++
  [switches, disputes]

end Twin

namespace Ump

def en : Fld := ⟨0, 0x129, 0x40, 0, 1, .rw, 1, (.val 1), .kept, 0, 1⟩
def cmpWait : Fld := ⟨0, 0x129, 0x40, 8, 8, .rw, 10, (.val 10), .kept, 0, 1⟩
def winPre : Fld := ⟨0, 0x129, 0x40, 16, 8, .rw, 20, (.val 20), .kept, 0, 1⟩
def winPost : Fld := ⟨0, 0x129, 0x40, 24, 8, .rw, 100, (.val 100), .kept, 0, 1⟩
def comparing : Fld := ⟨0, 0x129, 0x44, 0, 1, .ro, 0, (.val 0), .kept, 0, 1⟩
def dispute : Fld := ⟨0, 0x129, 0x44, 1, 1, .ro, 0, (.val 0), .kept, 0, 1⟩
def attrib : Fld := ⟨0, 0x129, 0x44, 2, 2, .ro, 0, (.val 0), .kept, 0, 1⟩
def dunit : Fld := ⟨0, 0x129, 0x44, 4, 13, .ro, 0, (.val 0), .kept, 0, 1⟩
def lastUnit : Fld := ⟨0, 0x129, 0x48, 0, 13, .ro, 0, (.val 0), .kept, 0, 1⟩
def lastLabel : Fld := ⟨0, 0x129, 0x4C, 0, 32, .ro, 0, (.val 0), .kept, 0, 1⟩
def lastOwn : Fld := ⟨0, 0x129, 0x50, 0, 32, .ro, 0, (.val 0), .kept, 0, 1⟩
def lastMate : Fld := ⟨0, 0x129, 0x54, 0, 32, .ro, 0, (.val 0), .kept, 0, 1⟩
def mismatchCnt : Fld := ⟨0, 0x129, 0x58, 0, 32, .w1c, 0, (.val 0), .kept, 0, 1⟩
def gapCnt : Fld := ⟨0, 0x129, 0x5C, 0, 32, .w1c, 0, (.val 0), .kept, 0, 1⟩
def dclr : Fld := ⟨0, 0x129, 0x60, 0, 8, .rw, 16, (.val 16), .kept, 0, 1⟩
def excl : Fld := ⟨1, 0x129, 0, 0, 32, .rw, 0, (.val 0), .kept, 1, 256⟩
/-- Every field of the page body and its table window. -/
def fields : List Fld :=
  [en, cmpWait, winPre, winPost, comparing, dispute, attrib, dunit, lastUnit, lastLabel, lastOwn, lastMate] ++
  [mismatchCnt, gapCnt, dclr, excl]

end Ump

end Sys2Proof.Machine
end

