-- ==== Sys2Proof/Machine/RegVideo.lean ====
section
/-! DEFINITION. Field maps of Vin, Vpkt, Fsync (spec/03 R93, R95, R96): one named field per row of the field maps, its place, width, access
code and reset values (POR value, then what COLD and WARM do). An array of registers is one field with a stride and a count. -/

namespace Sys2Proof.Machine


namespace Vin

def crcEn : Fld := ⟨0, 0x60, 0x40, 0, 1, .rw, 1, (.val 1), .kept, 0, 1⟩
def edhEn : Fld := ⟨0, 0x60, 0x40, 1, 1, .rw, 1, (.val 1), .kept, 0, 1⟩
def pidEn : Fld := ⟨0, 0x60, 0x40, 2, 1, .rw, 1, (.val 1), .kept, 0, 1⟩
def nTimed : Fld := ⟨0, 0x60, 0x44, 0, 11, .ro, 0, (.val 0), .kept, 0, 1⟩
def nLost : Fld := ⟨0, 0x60, 0x44, 11, 11, .ro, 0, (.val 0), .kept, 0, 1⟩
def nSynced : Fld := ⟨0, 0x60, 0x44, 22, 10, .ro, 0, (.val 0), .kept, 0, 1⟩
def hyst : Fld := ⟨0, 0x60, 0x48, 0, 12, .rw, 64, (.val 64), .kept, 0, 1⟩
def oowFrames : Fld := ⟨0, 0x60, 0x48, 12, 8, .rw, 2, (.val 2), .kept, 0, 1⟩
def entryFrames : Fld := ⟨0, 0x60, 0x48, 20, 8, .rw, 3, (.val 3), .kept, 0, 1⟩
def lossLines : Fld := ⟨0, 0x60, 0x4C, 0, 8, .rw, 8, (.val 8), .kept, 0, 1⟩
def acqFrames : Fld := ⟨0, 0x60, 0x4C, 8, 8, .rw, 2, (.val 2), .kept, 0, 1⟩
def errInput : Fld := ⟨0, 0x60, 0x50, 0, 11, .ro, 0, (.val 0), .kept, 0, 1⟩
def errCode : Fld := ⟨0, 0x60, 0x50, 12, 3, .ro, 0, (.val 0), .kept, 0, 1⟩
def errValid : Fld := ⟨0, 0x60, 0x50, 31, 1, .w1c, 0, (.val 0), .kept, 0, 1⟩
def ancInput : Fld := ⟨0, 0x60, 0x100, 0, 11, .rw, 0, (.val 0), .kept, 4, 32⟩
def ancDid : Fld := ⟨0, 0x60, 0x100, 11, 8, .rw, 0, (.val 0), .kept, 4, 32⟩
def ancSdid : Fld := ⟨0, 0x60, 0x100, 19, 8, .rw, 0, (.val 0), .kept, 4, 32⟩
def ancEn : Fld := ⟨0, 0x60, 0x100, 27, 1, .rw, 0, (.val 0), .kept, 4, 32⟩
def ancWptr : Fld := ⟨0, 0x60, 0x180, 0, 8, .ro, 0, (.val 0), .kept, 4, 32⟩
def ancRptr : Fld := ⟨0, 0x60, 0x180, 8, 8, .rw, 0, (.val 0), .kept, 4, 32⟩
def transport : Fld := ⟨1, 0x60, 0, 0, 2, .rw, 0, (.val 0), .kept, 8, 1152⟩
def group : Fld := ⟨1, 0x60, 0, 2, 5, .rw, 0, (.val 0), .kept, 8, 1152⟩
def ssid : Fld := ⟨1, 0x60, 0, 7, 7, .rw, 0, (.val 0), .kept, 8, 1152⟩
def fmt : Fld := ⟨1, 0x60, 0, 14, 8, .rw, 0xFF, (.val 0xFF), .kept, 8, 1152⟩
def bond : Fld := ⟨1, 0x60, 0, 22, 1, .rw, 0, (.val 0), .kept, 8, 1152⟩
def sqd : Fld := ⟨1, 0x60, 0, 23, 1, .rw, 0, (.val 0), .kept, 8, 1152⟩
def fsMode : Fld := ⟨1, 0x60, 0, 24, 2, .rw, 0, (.val 0), .kept, 8, 1152⟩
def fsIdx : Fld := ⟨1, 0x60, 1, 0, 8, .rw, 0, (.val 0), .kept, 8, 1152⟩
def demb : Fld := ⟨1, 0x60, 1, 8, 8, .rw, 0, (.val 0), .kept, 8, 1152⟩
def dembEn : Fld := ⟨1, 0x60, 1, 16, 1, .rw, 0, (.val 0), .kept, 8, 1152⟩
def state : Fld := ⟨1, 0x60, 4, 0, 3, .ro, 0, (.val 0), .kept, 8, 1216⟩
def mfmt : Fld := ⟨1, 0x60, 4, 3, 8, .ro, 0xFF, (.val 0xFF), .kept, 8, 1216⟩
def pidMismatch : Fld := ⟨1, 0x60, 4, 11, 1, .ro, 0, (.val 0), .kept, 8, 1216⟩
def follow : Fld := ⟨1, 0x60, 4, 12, 1, .ro, 0, (.val 0), .kept, 8, 1216⟩
def eps : Fld := ⟨1, 0x60, 5, 0, 26, .ro, 0, (.val 0), .kept, 8, 1216⟩
def crcErr : Fld := ⟨1, 0x60, 6, 0, 16, .ro, 0, (.val 0), .kept, 8, 1216⟩
def lostLines : Fld := ⟨1, 0x60, 6, 16, 16, .ro, 0, (.val 0), .kept, 8, 1216⟩
def pid : Fld := ⟨1, 0x60, 7, 0, 32, .ro, 0, (.val 0), .kept, 8, 1216⟩
def ancRing : Fld := ⟨1, 0x60, 10240, 0, 32, .ro, 0, (.val 0), .kept, 1, 8192⟩
/-- Every field of the page body and its table window. -/
def fields : List Fld :=
  [crcEn, edhEn, pidEn, nTimed, nLost, nSynced, hyst, oowFrames, entryFrames, lossLines, acqFrames, errInput] ++
  [errCode, errValid, ancInput, ancDid, ancSdid, ancEn, ancWptr, ancRptr, transport, group, ssid, fmt] ++
  [bond, sqd, fsMode, fsIdx, demb, dembEn, state, mfmt, pidMismatch, follow, eps, crcErr] ++
  [lostLines, pid, ancRing]

end Vin

namespace Vpkt

def poolUsed : Fld := ⟨0, 0x61, 0x40, 0, 16, .ro, 0, (.val 0), .kept, 4, 2⟩
def flowA : Fld := ⟨1, 0x61, 0, 0, 14, .rw, 0, (.val 0), .kept, 4, 1152⟩
def flowB : Fld := ⟨1, 0x61, 0, 14, 14, .rw, 0, (.val 0), .kept, 4, 1152⟩
def bEn : Fld := ⟨1, 0x61, 0, 28, 1, .rw, 0, (.val 0), .kept, 4, 1152⟩
def pkind : Fld := ⟨1, 0x61, 0, 29, 1, .rw, 0, (.val 0), .kept, 4, 1152⟩
def pmode : Fld := ⟨1, 0x61, 0, 30, 1, .rw, 0, (.val 0), .kept, 4, 1152⟩
def win : Fld := ⟨1, 0x61, 1, 0, 11, .rw, 2, (.val 2), .kept, 4, 1152⟩
def ancFlow : Fld := ⟨1, 0x61, 1, 11, 14, .rw, 0, (.val 0), .kept, 4, 1152⟩
def ancFlowEn : Fld := ⟨1, 0x61, 1, 25, 1, .rw, 0, (.val 0), .kept, 4, 1152⟩
def loss : Fld := ⟨1, 0x61, 2, 0, 16, .ro, 0, (.val 0), .kept, 4, 1152⟩
def late : Fld := ⟨1, 0x61, 2, 16, 16, .ro, 0, (.val 0), .kept, 4, 1152⟩
def missA : Fld := ⟨1, 0x61, 3, 0, 16, .ro, 0, (.val 0), .kept, 4, 1152⟩
def missB : Fld := ⟨1, 0x61, 3, 16, 16, .ro, 0, (.val 0), .kept, 4, 1152⟩
/-- Every field of the page body and its table window. -/
def fields : List Fld :=
  [poolUsed, flowA, flowB, bEn, pkind, pmode, win, ancFlow, ancFlowEn, loss, late, missA] ++
  [missB]

end Vpkt

namespace Fsync

def guard : Fld := ⟨0, 0x78, 0x40, 0, 8, .rw, 4, (.val 4), .kept, 0, 1⟩
def nFree : Fld := ⟨0, 0x78, 0x44, 0, 9, .ro, 256, (.val 256), .kept, 0, 1⟩
def poolFree : Fld := ⟨0, 0x78, 0x44, 9, 9, .ro, 0, (.val 0), .kept, 0, 1⟩
def pool : Fld := ⟨1, 0x78, 0, 0, 1, .rw, 0, (.val 0), .kept, 4, 256⟩
def lossAct : Fld := ⟨1, 0x78, 0, 1, 1, .rw, 0, (.val 0), .kept, 4, 256⟩
def freezeFr : Fld := ⟨1, 0x78, 0, 2, 16, .rw, 0, (.val 0), .kept, 4, 256⟩
def fsK : Fld := ⟨1, 0x78, 0, 18, 2, .rw, 1, (.val 1), .kept, 4, 256⟩
def input : Fld := ⟨1, 0x78, 1, 0, 11, .ro, 0x7FF, (.val 0x7FF), .kept, 4, 256⟩
def state : Fld := ⟨1, 0x78, 1, 11, 2, .ro, 0, (.val 0), .kept, 4, 256⟩
def locked : Fld := ⟨1, 0x78, 1, 13, 1, .ro, 0, (.val 0), .kept, 4, 256⟩
def repeatCnt : Fld := ⟨1, 0x78, 2, 0, 32, .ro, 0, (.val 0), .kept, 4, 256⟩
def dropCnt : Fld := ⟨1, 0x78, 3, 0, 32, .ro, 0, (.val 0), .kept, 4, 256⟩
/-- Every field of the page body and its table window. -/
def fields : List Fld :=
  [guard, nFree, poolFree, pool, lossAct, freezeFr, fsK, input, state, locked, repeatCnt, dropCnt]

end Fsync

end Sys2Proof.Machine
end

