-- ==== Sys2Proof/Machine/RegXpt.lean ====
section
/-! DEFINITION. Field maps of Xpt (spec/04 R123): one named field per row of the field maps, its place, width, access
code and reset values (POR value, then what COLD and WARM do). An array of registers is one field with a stride and a count. -/

namespace Sys2Proof.Machine


namespace Xpt

def trate : Fld := ⟨0, 0x70, 0x40, 0, 4, .rw, 2, (.val 2), .kept, 0, 1⟩
def cutUs : Fld := ⟨0, 0x70, 0x40, 4, 12, .rw, 1000, (.val 1000), .kept, 0, 1⟩
def pend : Fld := ⟨0, 0x70, 0x44, 0, 2, .ro, 0, (.val 0), .kept, 0, 1⟩
def nMismatch : Fld := ⟨0, 0x70, 0x44, 2, 11, .ro, 0, (.val 0), .kept, 0, 1⟩
def nOfftake : Fld := ⟨0, 0x70, 0x44, 13, 11, .ro, 0, (.val 0), .kept, 0, 1⟩
def tratePend : Fld := ⟨0, 0x70, 0x44, 24, 1, .ro, 0, (.val 0), .kept, 0, 1⟩
def frame : Fld := ⟨0, 0x70, 0x48, 0, 32, .ro, 0, (.val 0), .kept, 0, 1⟩
def takeLen : Fld := ⟨0, 0x70, 0x50, 0, 13, .rw, 0, (.val 0), .kept, 4, 2⟩
def takeGo : Fld := ⟨0, 0x70, 0x50, 13, 1, .w1s, 0, (.val 0), .kept, 4, 2⟩
def takeCancel : Fld := ⟨0, 0x70, 0x50, 14, 1, .w1s, 0, (.val 0), (.val 0), 4, 2⟩
def takeAt : Fld := ⟨0, 0x70, 0x50, 15, 1, .rw, 0, (.val 0), .kept, 4, 2⟩
def takeAtFrame : Fld := ⟨0, 0x70, 0x58, 0, 32, .rw, 0, (.val 0), .kept, 4, 2⟩
def takeCode : Fld := ⟨0, 0x70, 0x60, 0, 4, .ro, 0, (.val 0), .kept, 4, 2⟩
def takeReason : Fld := ⟨0, 0x70, 0x60, 4, 4, .ro, 0, (.val 0), .kept, 4, 2⟩
def takeIndex : Fld := ⟨0, 0x70, 0x60, 8, 12, .ro, 0, (.val 0), .kept, 4, 2⟩
def takeSkipped : Fld := ⟨0, 0x70, 0x60, 20, 12, .ro, 0, (.val 0), .kept, 4, 2⟩
def takeFrm : Fld := ⟨0, 0x70, 0x68, 0, 32, .ro, 0, (.val 0), .kept, 4, 2⟩
def transport : Fld := ⟨1, 0x70, 0, 0, 2, .rw, 0, (.val 0), .kept, 4, 1152⟩
def group : Fld := ⟨1, 0x70, 0, 2, 5, .rw, 0, (.val 0), .kept, 4, 1152⟩
def ssid : Fld := ⟨1, 0x70, 0, 7, 7, .rw, 0, (.val 0), .kept, 4, 1152⟩
def fmt : Fld := ⟨1, 0x70, 0, 14, 8, .rw, 0xFF, (.val 0xFF), .kept, 4, 1152⟩
def autofmt : Fld := ⟨1, 0x70, 0, 22, 1, .rw, 0, (.val 0), .kept, 4, 1152⟩
def bond : Fld := ⟨1, 0x70, 0, 23, 1, .rw, 0, (.val 0), .kept, 4, 1152⟩
def sqd : Fld := ⟨1, 0x70, 0, 24, 1, .rw, 0, (.val 0), .kept, 4, 1152⟩
def queue : Fld := ⟨1, 0x70, 1, 0, 14, .rw, 0, (.val 0), .kept, 4, 1152⟩
def emb : Fld := ⟨1, 0x70, 1, 14, 8, .rw, 0, (.val 0), .kept, 4, 1152⟩
def fset : Fld := ⟨1, 0x70, 2, 0, 32, .ro, 0xFFFFFFFF, (.val 0xFFFFFFFF), .kept, 4, 1152⟩
def ostate : Fld := ⟨1, 0x70, 3, 0, 2, .ro, 0, (.val 0), .kept, 4, 1152⟩
def carryFmt : Fld := ⟨1, 0x70, 3, 2, 8, .ro, 0xFF, (.val 0xFF), .kept, 4, 1152⟩
def reqSrc : Fld := ⟨1, 0x70, 4608, 0, 11, .ro, 0x7FF, (.val 0x7FF), .kept, 2, 1664⟩
def reqAmode : Fld := ⟨1, 0x70, 4608, 11, 2, .ro, 0, (.val 0), .kept, 2, 1664⟩
def protect : Fld := ⟨1, 0x70, 4608, 13, 1, .rw, 0, (.val 0), .kept, 2, 1664⟩
def mismatch : Fld := ⟨1, 0x70, 4608, 14, 1, .ro, 0, (.val 0), .kept, 2, 1664⟩
def offtake : Fld := ⟨1, 0x70, 4608, 15, 1, .ro, 0, (.val 0), .kept, 2, 1664⟩
def airSrc : Fld := ⟨1, 0x70, 4609, 0, 11, .ro, 0x7FF, (.val 0x7FF), .kept, 2, 1664⟩
def airAmode : Fld := ⟨1, 0x70, 4609, 11, 2, .ro, 0, (.val 0), .kept, 2, 1664⟩
def airFmt : Fld := ⟨1, 0x70, 4609, 13, 8, .ro, 0xFF, (.val 0xFF), .kept, 2, 1664⟩
def salvoDest : Fld := ⟨1, 0x70, 8192, 0, 11, .rw, 0, (.val 0), .kept, 1, 8192⟩
def salvoSrc : Fld := ⟨1, 0x70, 8192, 11, 11, .rw, 0, (.val 0), .kept, 1, 8192⟩
def salvoAmode : Fld := ⟨1, 0x70, 8192, 22, 2, .rw, 0, (.val 0), .kept, 1, 8192⟩
def salvoSetAmode : Fld := ⟨1, 0x70, 8192, 24, 1, .rw, 0, (.val 0), .kept, 1, 8192⟩
/-- Every field of the page body and its table window. -/
def fields : List Fld :=
  [trate, cutUs, pend, nMismatch, nOfftake, tratePend, frame, takeLen, takeGo, takeCancel, takeAt, takeAtFrame] ++
  [takeCode, takeReason, takeIndex, takeSkipped, takeFrm, transport, group, ssid, fmt, autofmt, bond, sqd] ++
  [queue, emb, fset, ostate, carryFmt, reqSrc, reqAmode, protect, mismatch, offtake, airSrc, airAmode] ++
  [airFmt, salvoDest, salvoSrc, salvoAmode, salvoSetAmode]

end Xpt

end Sys2Proof.Machine
end

