-- ==== Sys2Proof/Machine/Sev.lean ====
section
/-! DEFINITION. Default severity words of the 256 fault sources (spec/13 R428): TSEV in bits 2..0, LSEV in bits 6..4, bit 8
always lasting, bit 9 reserved source; one list per class of 16 sources (R404, R405), from the source tables of the
chapters. -/

namespace Sys2Proof.Machine

def sevClass0 : List Nat := [33, 304, 33, 304, 33, 304, 33, 304, 33, 304, 33, 304, 33, 304, 304, 320]
def sevClass1 : List Nat := [33, 33, 33, 304, 304, 304, 49, 288, 288, 304, 33, 49, 512, 512, 512, 512]
def sevClass2 : List Nat := [304, 33, 33, 272, 272, 33, 33, 33, 288, 288, 272, 288, 288, 304, 512, 512]
def sevClass3 : List Nat := [33, 33, 288, 288, 33, 288, 17, 33, 17, 33, 288, 272, 512, 512, 512, 512]
def sevClass4 : List Nat := [288, 17, 17, 288, 33, 33, 288, 272, 272, 272, 288, 304, 272, 288, 512, 512]
def sevClass5 : List Nat := [272, 288, 272, 288, 288, 49, 304, 272, 288, 272, 272, 272, 512, 512, 512, 512]
def sevClass6 : List Nat := [288, 33, 33, 288, 33, 17, 288, 33, 288, 33, 288, 33, 17, 272, 288, 512]
def sevClass7 : List Nat := [33, 272, 272, 288, 512, 512, 512, 512, 512, 512, 512, 512, 512, 512, 512, 512]
def sevClass8 : List Nat := [304, 304, 272, 288, 17, 288, 512, 512, 512, 512, 512, 512, 512, 512, 512, 512]
def sevClass9 : List Nat := [50, 272, 320, 288, 49, 304, 288, 288, 272, 512, 512, 512, 512, 512, 512, 512]
def sevClass10 : List Nat := [288, 272, 288, 288, 288, 288, 304, 288, 17, 288, 288, 320, 288, 288, 512, 512]
def sevClass11 : List Nat := [512, 304, 33, 288, 272, 272, 288, 33, 288, 272, 512, 512, 512, 512, 512, 512]
def sevClass12 : List Nat := [288, 33, 304, 304, 288, 288, 288, 288, 304, 304, 304, 304, 288, 304, 512, 512]
def sevClass13 : List Nat := [272, 304, 288, 288, 33, 17, 17, 320, 304, 512, 304, 512, 512, 512, 512, 512]
def sevClass14 : List Nat := [288, 320, 304, 304, 304, 272, 288, 320, 288, 512, 512, 512, 512, 512, 512, 512]
def sevClass15 : List Nat := [288, 288, 272, 304, 304, 304, 272, 272, 288, 512, 512, 512, 512, 512, 512, 512]

/-- The default severity word of source `n`. -/
def sevDefault (n : Nat) : Nat :=
  (([sevClass0, sevClass1, sevClass2, sevClass3, sevClass4, sevClass5, sevClass6, sevClass7, sevClass8, sevClass9,
    sevClass10, sevClass11, sevClass12, sevClass13, sevClass14, sevClass15].getD (n / 16) []).getD (n % 16) 512)

end Sys2Proof.Machine
end

