-- ==== Sys2Proof/Machine/State.lean ====
section
/-! DEFINITION. The state of the block as plain data: every register and table field (one sparse table of named fields,
the fields themselves in the Reg files), the pages' sticky and interrupt-enable words, the engines' own state, memory, the
pins, and the queue of waiting commands. -/

namespace Sys2Proof.Machine

/-- The system time counter: TAI seconds (48 bits), nanoseconds and a 16-bit binary fraction of a nanosecond (R359). -/
structure Stc where
  sec : Nat := 0
  ns : Nat := 0
  frac : Nat := 0
  deriving DecidableEq, Repr

/-- One report on its way to the FCU (R404): source, reporting page, instance, detail word, transient or lasting, and the
injection tags (R420). `held` lists the held items that only the reporter knows (classes 0 and 6, R410). -/
structure Report where
  src : Nat
  page : Nat
  inst : Nat
  detail : Nat
  lasting : Bool
  inj : Bool := false
  real : Bool := true
  held : List (Nat × Nat) := []
  /-- Reported at NOTE whatever the severity table says (R75, R86). -/
  note : Bool := false
  deriving DecidableEq, Repr

/-- One log entry (R413). -/
structure LogEntry where
  src : Nat := 0
  esev : Nat := 0
  bsev : Nat := 0
  lasting : Bool := false
  esc : Bool := false
  inj : Bool := false
  real : Bool := false
  extmask : Bool := false
  ack : Bool := false
  page : Nat := 0
  inst : Nat := 0
  detail : Nat := 0
  time : Stc := {}
  seq : Nat := 0
  deriving DecidableEq, Repr

/-- A first attempt that waits for its second, or a fault that stands as lasting (R406). -/
structure Attempt where
  src : Nat
  page : Nat
  inst : Nat
  detail : Nat
  inj : Bool
  /-- Whether a real fault stands behind the attempt: false for one that was only injected (R420). -/
  real : Bool
  standing : Bool
  deriving DecidableEq, Repr

/-- A held item of a MAJOR or CRITICAL reaction (R411): `kind` 0 destination, 1 intake entry, 2 mix output, 3 Nova core's
outputs; the report's source and instance; frames or periods held so far; whether the release condition has been met. -/
structure Hold where
  kind : Nat
  item : Nat
  src : Nat
  page : Nat
  inst : Nat
  frames : Nat := 0
  level : Nat := 0
  black : Bool := false
  passed : Bool := false
  deriving DecidableEq, Repr

/-- The armed injection (R418). -/
structure Arming where
  checker : Nat
  inst : Nat
  pattern : Nat
  rehearsal : Bool
  deriving DecidableEq, Repr

/-- The fault collector. `regs` holds the fields of the FCU page and of the severity pages. -/
structure Fcu where
  regs : Store Nat := []
  log : Store LogEntry := []
  first : Option LogEntry := none
  aon : List LogEntry := []
  attempts : List Attempt := []
  holds : List Hold := []
  arm : Option Arming := none
  /-- Level of the ALIVE pin. -/
  alive : Bool := false
  /-- The heartbeat stop condition of R416 or R417 is present. -/
  hbStop : Bool := false
  /-- The step-floor stop condition of R267 is present. -/
  floorStop : Bool := false
  /-- The WARM grace period of R417 runs. -/
  grace : Bool := false
  /-- A first heartbeat has come since POR or COLD (R415). -/
  beaten : Bool := false
  /-- Entries logged and not yet read (R414). -/
  unread : Nat := 0
  /-- Classes that hold an unacknowledged real CRITICAL entry, bit c for class c (R416). -/
  crit : Nat := 0
  deriving DecidableEq, Repr

/-- What one lane carries on: transmitter and receiver scrambler states, run counts and last bits (R39, R40), the
transmitter's FSEQ, the receiver's FSEQ, the last received header and payload and whether that frame was good, the bad
frames in succession, the source that the lane's pending first attempt was made under (R61), and the frames in succession
that met the condition of FRAMEALIGN (R58). -/
structure Lane where
  txScr : Nat := 0
  txRun : Nat := 0
  txLast : Bool := false
  txFseq : Nat := 0
  rxScr : Nat := 0
  rxRun : Nat := 0
  rxLast : Bool := false
  rxFseq : Nat := 0
  rxHdr : Nat := 0
  rxPay : Nat := 0
  rxGood : Bool := false
  badRun : Nat := 0
  src : Nat := 0
  alignRun : Nat := 0
  deriving DecidableEq, Repr

/-- What one transmit slot carries in the present group frame (R52): its words and the index of the marked one. -/
structure TxSlot where
  words : List Nat := []
  mark : Option Nat := none
  deriving DecidableEq, Repr

/-- What one lane group carries on beside its registers: frames without FSEQ agreement (R59), the wait of R60 (1: the
100 ms delay, 2: until TRAIN is written), the training code, health and slots of the group frame being sent (R48, R53, R58), quality message bytes in reception and whether
all came in good frames, the message being sent (R49), scan position and lane (R66), and the monitored lane (R67). -/
structure Group where
  skewRun : Nat := 0
  wait : Nat := 0
  txTrn : Nat := 1
  txHealth : Nat := 0
  txSlots : Store TxSlot := []
  txCells : Nat := 0
  qBuf : List Nat := []
  qOk : Bool := false
  txMsg : List Nat := []
  eyePos : Nat := 0
  scanLane : Nat := 0
  monLane : Nat := 7
  monBusy : Bool := false
  deriving DecidableEq, Repr

/-- A stored video line: line number, field parity and its words. -/
structure BankLine where
  line : Nat
  f2 : Bool := false
  words : List Nat
  deriving DecidableEq, Repr

/-- What one input carries on beside its descriptor: the state behind `BIND_ERR` (R73) and whether a rejected configuration
stands, a stored configuration that waits for its frame start (R72), lines without EAV, the format measured last and the frames
it has held for (R75), whether ε has been measured since the input was lost (R76), frames in and out of the window and meeting
the re-entry condition (R81, R85), a rebind that is due (R73), the attached synchroniser, and the EDH check registers of the field:
full field and active picture, and whether they cover the field from its start without lost words (R74). -/
structure Input where
  st : Nat := 0
  bindErr : Bool := false
  waiting : Bool := false
  noEav : Nat := 0
  acqFmt : Nat := 0xFF
  acqRun : Nat := 0
  measured : Bool := false
  inRun : Nat := 0
  outRun : Nat := 0
  reRun : Nat := 0
  rebind : Bool := false
  sync : Option Nat := none
  edhFf : Nat := 0
  edhAp : Nat := 0
  edhOk : Bool := false
  deriving DecidableEq, Repr

/-- One alignment bank: up to five lines, newest first (R82), and the newest pictures that passed it with their numbers, the
lines of each newest first (R128). -/
structure Bank where
  lines : List BankLine := []
  pics : List (Nat × List BankLine) := []
  eps : Int := 0
  pos : Nat := 0
  deriving DecidableEq, Repr

/-- One frame synchroniser: number of complete frames and of the frame being read, lines written since the last active line
of the newest one, lines of the frame in writing, of the newest complete frame, of the one before it and of the one being read
(R86), the format of its frames, frames frozen after loss, loss, black after loss (R88), the lines last read, one of each field,
the newest first, the released lines by their number in the flow, newest first, the number of the line to be read next (R87), and
the newest pictures that a `LOCKED` one has read with their numbers, the lines of each newest first (R128). -/
structure Sync where
  newest : Nat := 0
  readFrame : Nat := 0
  since : Nat := 0
  writing : List BankLine := []
  complete : List BankLine := []
  prior : List BankLine := []
  reading : List BankLine := []
  fmt : Nat := 0xFF
  frozen : Nat := 0
  lost : Bool := false
  black : Bool := false
  lastRead : List BankLine := []
  ring : List (Nat × BankLine) := []
  readPos : Option Nat := none
  pics : List (Nat × List BankLine) := []
  deriving DecidableEq, Repr

/-- One packet of a merge buffer with the paths it came on (R78). -/
structure MergePkt where
  seq : Nat
  line : Nat
  off : Nat
  words : List Nat
  gotA : Bool
  gotB : Bool
  deriving DecidableEq, Repr

/-- A merge buffer: packets held, the number of lines released so far, the bytes of the merge region it takes (R80), the highest
extended sequence number (R78), and the words of an ST 2022-6 line that has been released and not yet been checked. -/
structure Merge where
  pkts : List MergePkt := []
  released : Nat := 0
  bytes : Nat := 0
  high : Option Nat := none
  line : List (Option Nat) := []
  deriving DecidableEq, Repr

/-- One entry of a salvo (R106). -/
structure SalvoEntry where
  dest : Nat
  src : Nat
  amode : Nat
  setAmode : Bool
  deriving DecidableEq, Repr

/-- A salvo that has been armed: its table, take frame and changes (R109). -/
structure Armed where
  table : Nat
  frame : Nat
  changes : List SalvoEntry
  deriving DecidableEq, Repr

/-- A change of a cut salvo that has not landed (R111). -/
structure Landing where
  table : Nat
  dest : Nat
  src : Nat
  amode : Nat
  frame : Nat
  deriving DecidableEq, Repr

/-- A format change of an `AUTOFMT` output (R116): the table whose take began it, if one did, and the source, audio mode and
format it changes to (without a take, those on air when it ends), the reference frame it was due in, and whether the old
format has stopped. -/
structure Adoption where
  out : Nat
  table : Option Nat
  src : Nat
  amode : Nat
  fmt : Nat
  frame : Nat
  stopped : Bool := false
  deriving DecidableEq, Repr

/-- A salvo verdict (R119): table, rejection reason or 0, first offending entry, take frame. -/
structure Verdict where
  table : Nat
  reason : Nat
  index : Nat
  frame : Nat
  deriving DecidableEq, Repr

/-- A line that waits in a transmit sub-stream (R53): whether its first word, which is marked, is still to be sent, and the
words still to be sent. -/
structure TxLine where
  fresh : Bool := true
  words : List Nat := []
  deriving DecidableEq, Repr

/-- What an external output carries on: lines of the frame being sent, newest first, the last complete frame, and the line
last sent (R411; a line of black has no words), the lines that wait in its transmit sub-stream, or the line whose packets are being
queued, the pacing accumulator in 2^-24 word, or the packets of that line so far (R275), and what they have carried of it (R384). -/
structure OutFrame where
  lines : List BankLine := []
  complete : List BankLine := []
  last : Option BankLine := none
  tx : List TxLine := []
  pace : Nat := 0
  pays : List Nat := []
  deriving DecidableEq, Repr

/-- The crosspoint's own state: tables in validation in GO order, armed salvos in arming order, changes that are landing,
the reference rate in force and those adopted at a cut with the reference frame of the cut (R105), whether the cut of the next reference frame has
passed, the COMPAT switch-line setting of the frame (R29), outputs whose configuration waits, that show `BIND_ERR`, and that
are bound, format changes in progress (R116), and the standby's own verdicts (R119). -/
structure XptX where
  validating : List Nat := []
  armed : List Armed := []
  landing : List Landing := []
  rate : Nat := 2
  newRate : List (Nat × Nat) := []
  cutDone : Bool := false
  swline1 : Bool := false
  waiting : List Nat := []
  bindErr : List Nat := []
  bound : List Nat := []
  gap : List Adoption := []
  own : List Verdict := []
  deriving DecidableEq, Repr

/-- The picture that a layer shows (R128, R130): what `LYR_STATUS` shows, a source bank with the number of the picture in it,
lines that a synchroniser read, or the words of a surface crop, and the format and field of the picture. -/
structure LayerPic where
  show_ : Nat := 5
  ref : Option (Nat × Nat) := none
  lines : List BankLine := []
  surf : List (List Nat) := []
  bad : List Nat := []
  fmt : Nat := 0xFF
  f2 : Bool := false
  clr : Nat := 7
  deriving DecidableEq, Repr

/-- A Keeper image and its settings on their way in (R152): region, alpha, colorimetry, visibility, carve-out units, and the
check value, none where it is formed from the copy. `release` disables the Keeper; `wait`: the
mate has not sent the first BULK cell of the image, which names the base (R377). -/
structure KeeperNew where
  x : Nat := 0
  y : Nat := 0
  w : Nat := 0
  h : Nat := 0
  alpha : Nat := 0
  clr : Nat := 0
  vis : Bool := false
  base : Nat := 0
  units : Nat := 0
  surf : Nat := 0
  crc : Option Nat := none
  release : Bool := false
  wait : Bool := false
  deriving DecidableEq, Repr

/-- A Keeper change that is complete (R152): the picture at which it comes, once a decision point has named it, and the new image or
the new visibility. -/
structure KeeperDue where
  at_ : Option Nat := none
  new : Option KeeperNew := none
  vis : Bool := false
  deriving DecidableEq, Repr

/-- One composer's own state: the picture at which a decided flip goes live (R143), the group its commit has joined, store
units of the live and pending configuration (R129), pictures of a new format still to start with (R148), a format that waits
for its start, the field and next line of the picture, the layers of this picture and of the next one of an interlaced output
(R128), the last stored picture of each layer (R133), the frame and field that each layer took from a synchroniser, layers frozen by
decision (R157), conditions that stand by layer, the Keeper's units and check value, a load in progress, the Keeper changes
that wait, in order (R152), and the picture of the last decision point. -/
structure Comp where
  flip : Option Nat := none
  group : Nat := 0
  unitsLive : Nat := 0
  unitsPend : Nat := 0
  start : Nat := 0
  newFmt : Option Nat := none
  f2 : Bool := false
  line : Nat := 1
  layers : List LayerPic := []
  ahead : List LayerPic := []
  last : Store LayerPic := []
  took : Store (Option (Nat × Bool)) := []
  frozen : Nat := 0
  conds : List (Nat × Nat) := []
  kBase : Nat := 0
  kCrc : Nat := 0
  kLoad : Option KeeperNew := none
  kDue : List KeeperDue := []
  decided : Option Nat := none
  planWaits : Option (Nat × Nat × List (Nat × Nat × Nat)) := none
  deriving DecidableEq, Repr

/-- A commit group (R146): members, decision points waited, whether its flip has been decided. -/
structure CGroup where
  members : List Nat := []
  waited : Nat := 0
  decided : Bool := false
  deriving DecidableEq, Repr

/-- How `FS` and `BCLK` frame a transmit frame (R166, R167): BCLKs from the FS edge to the first bit, the BCLKs that a master
holds FS active (none for a slave: the board drives it), whether FS is inverted, and whether data change on the rising edge of
BCLK (and are sampled on the falling one). -/
structure SapFraming where
  delay : Nat
  width : Option Nat
  inverted : Bool
  rising : Bool
  deriving DecidableEq, Repr

/-- The bits beside the sample of one transmit subframe (R169, R170): its channel-status bit, the start of a channel-status
block, and in `MADI` mode the mode bit of channel 0 and the active bit. The validity and user bits are 0. -/
structure SubBits where
  cs : Bool
  block : Bool
  channel0 : Bool
  active : Bool
  deriving DecidableEq, Repr

/-- Responses of the control fabric (R431); `withheld` where a write still waits for its own (R217, R378), or a transaction for those
before it (R433); `held` where the request still stands at its master's port (R432, R438). -/
inductive Resp | okay | slverr | decerr | withheld | held
  deriving DecidableEq, Repr

/-- What the block drives outward while one command runs. Cleared when the next command begins. -/
inductive Out
  /-- A link frame of 1,072 bits on lane `l` of group `g` (R41). -/
  | linkFrame (g l : Nat) (frame : List Bool)
  /-- SDI words of one sub-stream, delivered to ingest (R53); the indices of the marked words, each the start of a line. -/
  | words (g ssid : Nat) (ws marks : List Nat)
  /-- A changed sub-stream restarts and reports a line break (R55). -/
  | lineBreak (g ssid : Nat)
  /-- One video line of an output. -/
  | line (out line : Nat) (ws : List Nat)
  /-- One line of black with silent embedded audio, of a format. -/
  | blackLine (out line fmt : Nat)
  /-- An Ethernet frame on link `k`. -/
  | ethFrame (k : Nat) (frame : List Nat)
  /-- A matched packet goes to the consumers of flow entry `e`: its receive timestamp (R309) and its UDP payload (R295). -/
  | flow (e : Nat) (arrival : Stc) (payload : List Nat)
  /-- A transmit frame of SAP `p`: its transmit stamp, its framing, the slots (none where `DOUT` is high-impedance), and the
  subframe bits of each slot in `AES3` and `MADI` modes (R167, R169, R170). -/
  | sapFrame (p stamp : Nat) (framing : SapFraming) (slots : List (Option Nat)) (bits : List SubBits)
  /-- Embedded audio samples of an output line: stamp, clock phase data, channel, 24-bit sample and channel-status bit, and whether a
  control packet goes with them (R188, R189). -/
  | embed (out line : Nat) (samples : List (Nat × Nat × Nat × Nat × Bool)) (acp : Bool)
  /-- An audio packet queued for an egress queue: RTP timestamp and sample groups (R192). -/
  | rtp (queue stamp : Nat) (groups : List (List Nat))
  /-- One MSI-X message of vector `v` (R439). -/
  | msix (v : Nat)
  /-- A cell to the mate (R377): type, sequence number and words W1 to W7; `SUB` stands first for CONTROL and BULK. -/
  | cell (kind seq : Nat) (payload : List Nat)
  /-- An AVSBus frame: rail and commanded millivolts (R265). -/
  | avs (rail mv : Nat)
  /-- An AVSBus read: rail and frame, 1 voltage, 2 status (R265). -/
  | avsRead (rail frame : Nat)
  /-- A quality message of 8 bytes (R330). -/
  | qmsg (bytes : List Nat)
  /-- A frame pulse or word clock edge of output `n` (R353). -/
  | pulse (n : Nat) (level : Bool)
  /-- Bytes shifted out on the management SPI or the board I2C. -/
  | serial (bytes : List Nat)
  /-- A block that a retimer releases (R14), and whether it is a repeat. -/
  | block (b : RetimerUse) (ws : List Nat) (again : Bool)
  /-- A response that returns later than its transaction was served: the master, the fabric ID, the response, the data of a read (R217,
  R378, R433). -/
  | response (master id : Nat) (resp : Resp) (data : List Nat)
  /-- A flash bank write (R453). -/
  | flash (bank : Nat) (bytes : Nat)
  deriving DecidableEq, Repr

/-- A transaction that has been served while `ahead` earlier ones of its master with its ID were still in flight: its response and
data wait until theirs have returned (R433). -/
structure Served where
  master : Nat
  id : Nat
  ahead : Nat
  resp : Resp
  data : List Nat
  deriving DecidableEq, Repr

/-- One mirrored item (R377, R379): a word write, or a decision (space 3) of kind `off` with its words in `payload`. -/
structure MirrorItem where
  epoch : Nat
  seq : Nat
  space : Nat
  page : Nat
  off : Nat
  data : Nat
  be : Nat
  bidx : Nat
  master : Nat
  payload : List Nat := []
  deriving DecidableEq, Repr

/-- What a reference candidate carries on beside its registers (R328 to R336): whether it is present, its state behind
`DO_NOT_USE`, the last accepted quality message and the one whose content is in effect (R331), its message source timed out,
the measured frequency and whether d is evaluated, seconds above the hard limit (R335), whether a disagreement ranks it
last (R336), and whether the last message may be the first of two with consecutive `SEQ`. -/
structure Cand where
  present : Bool := false
  st : Nat := 0
  last : List Nat := []
  eff : List Nat := []
  timedOut : Bool := false
  freq : Int := 0
  eval : Bool := false
  hardRun : Nat := 0
  chain : Bool := false
  deriving DecidableEq, Repr

/-- What a PTP instance carries on (R355, R356): consecutive syncs within 1 us, the last offsets before the first lock, sync
intervals refused in succession, time at the adjustment limit in 2^-7 s, the filtered offset in 2^-8 ns and what it was when the
instance entered `SLAVE`, the grandmaster's timeTraceable flag (R332) and its two priorities (R354), and whether a restep is armed
(R357). -/
structure PtpInst where
  run : Nat := 0
  offs : List Int := []
  refuseRun : Nat := 0
  adjRun : Nat := 0
  ofs : Int := 0
  base : Int := 0
  traceable : Bool := false
  prio1 : Nat := 255
  prio2 : Nat := 255
  armed : Bool := false
  deriving DecidableEq, Repr

/-- Meridian's own state: candidates, the candidate whose events the loop follows, a selection that waits for its first phase
event (R341), the place in its frame of a received FABRIC mark (R50), the pairs that disagree, with the candidate that each pair ranks last, 15 none (R336), the candidate last lost
(R339; 15 none), the manual choice in force, the build-out in 1/16 ns, the bandwidth in 2^-16 mHz, whether the second so far
is good for the history (R346), the control word that holdover or free-run slews to, whether the holdover has passed `HOLD_MAX`
(R348), items that wait for a realignment (R352: 0 to 7 generators, 8 to 11 frame pulses, 12 and 13 word clocks) and how far the
frames have come that generators wait for (1 accepted, 2 C(F), 3 T(F), 4 T(F + 1)), the mate's reference rate, the residue of the STC
below its fraction (R359), latched STC readings by master, whether an event stamp was lost (R364),
whether a step has loaded the AMC (R361),
the levels of the frame pulses, the frame counts of the generators (R349, R379), whether the servo drives `TIME_RATE` (R358), with its
frequency estimate (R356), the edges of each `REFINn` counted for its capture (R363), what is left of the control word's slew below
one unit (R345), the result that a realignment in progress will show (R369), and whether `LOSC_IN` is lost (R328). -/
structure Mer where
  cands : Store Cand := []
  drive : Nat := 8
  pend : Option Nat := none
  fabMark : Option Nat := none
  apart : List (Nat × Nat × Nat) := []
  lastLost : Nat := 15
  build16 : Int := 0
  bw : Nat := 0
  clean : Bool := false
  target : Int := 0
  fromHold : Bool := false
  aged : Bool := false
  realign : List Nat := []
  raStage : Nat := 0
  mateTrate : Option Nat := none
  stcRes : Int := 0
  latch : Store Stc := []
  evtGap : Bool := false
  amcLoaded : Bool := false
  ptp : Store PtpInst := []
  pulse : Nat := 0
  genCnt : Store Nat := []
  servo : Bool := false
  capCnt : Store Nat := []
  est : Int := 0
  slewRem : Nat := 0
  raRes : Nat := 0
  stopped : Bool := false
  deriving DecidableEq, Repr
/-- A stored sample: its stamp, its value left-justified in 32 bits (R197), and its channel-status flag (R189). The stamp
`2^32` marks an empty place. -/
structure Smp where
  stamp : Nat := 4294967296
  v : Int := 0
  nonPcm : Bool := false
  deriving DecidableEq, Repr

/-- What a serial port carries on (R172 to R176): the receive stamp of the next frame, frames since `RUN`, frames at the wrong
spacing in succession, frames since a mask commit, whether the new transmit mask still waits for its block boundary, line errors
and slips of the block, the channel-status block in reception, and the place of the next transmit frame in its block of 192. -/
structure SapX where
  next : Nat := 0
  frames : Nat := 0
  badRun : Nat := 0
  maskRun : Option Nat := none
  txDue : Bool := false
  blkLine : Bool := false
  blkSlip : Bool := false
  cs : List Bool := []
  txBlk : Nat := 0
  deriving DecidableEq, Repr

/-- What a tracker's output does in a period (R183): zeros, rising from 0, unity or falling to 0. -/
inductive TrkOut
  | silent | rising | full | falling
  deriving DecidableEq, Repr

/-- What a tracker carries on (R181 to R185): its measured phase error in 1/4096 sample, its phase in 1/65,536 sample and its
ratio; the ratio and phase it interpolates with; its output in the running period; whether the output is to
ramp out at the next boundary; the loop bandwidth (a `BW` code, 5 for 20 Hz); and whether a source `0x67` condition stands for
this block. -/
structure TrkX where
  pherr : Int := 0
  phase : Int := 0
  ratio : Nat := 0
  useRatio : Nat := 0
  usePhase : Int := 0
  out : TrkOut := .silent
  fall : Bool := false
  loop : Nat := 5
  block : Bool := false
  deriving DecidableEq, Repr

/-- What a receive flow carries on (R191): the last sequence number of each path, the numbers seen on either path, those that
one path has skipped, and those that one path alone has delivered so far, each with the stamp of its last sample. -/
structure FlowRx where
  lastA : Option Nat := none
  lastB : Option Nat := none
  seen : List Nat := []
  lackA : List Nat := []
  lackB : List Nat := []
  onlyA : List (Nat × Nat) := []
  onlyB : List (Nat × Nat) := []
  deriving DecidableEq, Repr

/-- What a de-embedder carries on (R186, R187): the input whose audio it received last and whether that audio was synchronous at
the device rate, the channels of the frame in reception, and whether samples came and were bad in this block. -/
structure DembX where
  from_ : Option Nat := none
  sync : Bool := false
  cur : Nat := 0
  bad : Bool := false
  deriving DecidableEq, Repr

/-- The newest samples handed to an egress entry: the stamp that follows them, and the samples newest first. -/
structure EgHist where
  next : Nat := 0
  samples : List Int := []
  deriving DecidableEq, Repr

/-- What an embedder carries on (R188): the next stamp to place, samples that wait with the lines they have waited, and
whether the control packet of this field has been sent. -/
structure EmbX where
  next : Option Nat := none
  waits : List (Nat × Nat) := []
  acp : Bool := false
  deriving DecidableEq, Repr

/-- The audio ports' and maps' own state: receive rings by 65536 x kind + selection (R177), the AMC at the latest period
boundary and whether a period is open there, the code of that period's length as it opened (R279), the boundary whose intake has closed, the intake block of the period, the
latest block of each Nova output, sources with late samples since the last close, sources that are reported as unlocked, the
egress history of each entry, the ports, trackers, flows, embedders and de-embedders, and the newest samples of each asynchronous
source channel, newest first: the instant on the AMC in 1/65,536 sample as its stamp (R181). -/
structure Aud where
  rings : Store (Store Smp) := []
  m : Nat := 0
  isOpen : Bool := false
  plen : Option Nat := none
  closed : Option Nat := none
  intake : Store (List Int) := []
  novaOut : Store (List Int) := []
  late : List (Nat × Nat × Nat) := []
  unlocked : List Nat := []
  egress : Store EgHist := []
  saps : Store SapX := []
  trks : Store TrkX := []
  trkDirty : List Nat := []
  rxf : Store FlowRx := []
  txNext : Store (Option Nat) := []
  embs : Store EmbX := []
  dembs : Store DembX := []
  asrcIn : Store (List Smp) := []
  deriving DecidableEq, Repr

/-- A gain ramp (R215): crosspoint, value it starts from, samples done and samples in all. The target is the word in force. -/
structure Ramp where
  e : Nat
  la : Int
  k : Nat
  n : Nat
  deriving DecidableEq, Repr

/-- Levels of a scheduled audio unit (R282): the level, an overrun in the period that runs, periods in time since the last
overrun, and whether its recovery block is due. -/
structure Level where
  level : Nat := 0
  ovr : Bool := false
  run : Nat := 0
  recover : Bool := false
  deriving DecidableEq, Repr

/-- One mix tile: ramps, pending changes in queue order (crosspoint and word), the block mixed in this period by output, the
blocks last delivered, the blocks last delivered at full level, and its level. -/
structure MixTile where
  ramps : List Ramp := []
  queue : List (Nat × Nat) := []
  mixed : Store (List Int) := []
  given : Store (List Int) := []
  good : Store (List Int) := []
  lvl : Level := {}
  ran : Bool := false
  deriving DecidableEq, Repr

/-- A gain write that waits for room (R217): its entries, the master whose `TW_ADDR` moves on with its acceptance, and the master and
fabric ID of the transaction whose response returns with it. -/
structure Withheld where
  es : List (Nat × Nat)
  tw : Option Nat := none
  flight : Option (Nat × Nat) := none
  deriving DecidableEq, Repr

/-- The mix engine's own state: target words (what reads return), words in force, changes accepted for the next boundary, the
staged batch with the writes counted, a committed batch, the tiles, whether `MIX_CFG` has been raised since `ENABLE`, the
period program loaded (`FS`, `PLEN`, order, block), gain writes that are withheld, and words poisoned by an ECC error. -/
structure MixX where
  gain : Store Nat := []
  applied : Store Nat := []
  accepted : List (Nat × Nat) := []
  staged : List (Nat × Nat) := []
  count : Nat := 0
  batch : List (Nat × Nat) := []
  tiles : Store MixTile := []
  warned : Bool := false
  prog : Option (Nat × Nat × Nat × Nat) := none
  withheld : List Withheld := []
  poison : List Nat := []
  deriving DecidableEq, Repr

/-- A result of a Nova core on its way to its register (R237, R238): the step at which it lands, its kind (0 load, 1 multiply class, 2
other), its register (0 to 15 G, 16 to 23 P, 24 to 27 the accumulators as `EXT` reads them, 28 to 31 as further multiplies read
them, 32 to 63 control registers, 64 the flags that `CMP` sets, 65 the `SAT` flag, 66 `IE`), and its value. -/
structure NRes where
  due : Nat
  kind : Nat
  dest : Nat
  val : Int
  deriving DecidableEq, Repr

/-- A Nova core (R225, R226): registers, accumulators as reads and as further multiplies see them (R237), control registers, PC,
instruction and data memory by word, whether a program is loaded, results on their way, a taken branch (target, whether by `RTI`,
delay slots left), steps since the exchange section, the step of the handler's entry and whether it has passed its window,
saturation and a `Q` bundle that was not quiet in this period, whether the core has started and not yet run, the hold store,
the overrun level, and poisoned words (data memory by address, instruction memory from 65,536 on). -/
structure NCore where
  g : Store Nat := []
  p : Store Nat := []
  a : Store Int := []
  am : Store Int := []
  cr : Store Nat := []
  pc : Nat := 0
  im : Store Nat := []
  dm : Store Nat := []
  loaded : Bool := false
  res : List NRes := []
  br : Option (Nat × Bool × Nat) := none
  t : Nat := 0
  irqAt : Option Nat := none
  irqHit : Bool := false
  sat : Bool := false
  unquiet : Bool := false
  first : Bool := false
  hold : Store (List Int) := []
  lvl : Level := {}
  poison : List Nat := []
  deriving DecidableEq, Repr

/-- A section of an image that has been applied (R271): kind, target, budget and body. -/
structure Loaded where
  kind : Nat
  target : Nat
  budget : Nat
  body : List Nat
  deriving DecidableEq, Repr

/-- The schedules' own state: the sections (kind and target) of an image that is validating or pending (R252, R277); whether the
boundary that ends the last period is still to come (R279); the monitors' last windows and the lowest of the interval (R262), those
below the floor, those that still owe a window at the floor before an episode ends (R267), windows below the floor and windows
outside the floor condition so far, what they were when the present period opened, and what each composer and output gather had seen
of both when its present line began (R281); the governor's counts of
intervals above its target and at `VMAX` (R266); a voltage that waits, the voltage of the write on the bus, whether a write or its status is outstanding and whether a
frame is being repeated (R265); budgets per line of each composer's plan (format, budget, lead), the slot map records of each
output with their target (R275), and those that wait for its next O(f), calendars that wait for their
port behind the mode they were validated in (R276, R306), and the sections in force. -/
structure SchX where
  names : List (Nat × Nat) := []
  last : Bool := false
  wins : Store Nat := []
  low : Option (Nat × Nat) := none
  below : List Nat := []
  owed : List Nat := []
  rateBad : Nat := 0
  condBad : Nat := 0
  perSeen : Nat × Nat := (0, 0)
  seen : Store (Nat × Nat) := []
  high : Nat := 0
  atMax : Nat := 0
  volt : Option Nat := none
  sent : Nat := 0
  busy : Bool := false
  repeating : Bool := false
  plans : Store (List (Nat × Nat × Nat)) := []
  maps : Store (List (List Nat)) := []
  mapWaits : Store (Option (List (List Nat))) := []
  calWaits : Store (List Nat) := []
  inForce : List Loaded := []
  deriving DecidableEq, Repr
/-- A descriptor of a media queue (R301): its extended sequence number, RTP timestamp, marker bit, and the bytes after the RTP header. -/
structure Desc where
  seq : Nat
  stamp : Nat
  marker : Bool
  payload : List Nat
  deriving DecidableEq, Repr

/-- A media queue: its descriptors, oldest first, the IPv4 identification of its next frame, and the video frames it has been given
(R300). -/
structure MediaQ where
  descs : List Desc := []
  ident : Nat := 0
  frames : Nat := 0
  deriving DecidableEq, Repr

/-- A descriptor of a CPU queue (R298). -/
structure CpuDesc where
  addr : Nat
  len : Nat
  sub : Nat
  ts : Bool
  tag : Nat
  deriving DecidableEq, Repr

/-- One Ethernet port: CPU descriptors, oldest first, one that is held until a slot frees (R298), whether timestamps were lost
since the last recorded one (R311), and the calendar in use, none when empty (R303), with the mode it was applied in (R306). -/
structure EthPort where
  cpu : List CpuDesc := []
  held : Option CpuDesc := none
  gap : Bool := false
  cal : List Nat := []
  calMode : Nat := 0
  deriving DecidableEq, Repr

/-- One Ethernet link (R304, R308): paused classes (bits 7 to 0 the priorities, bit 8 all of the link), those that were reported
as paused too long, the entries that wait for a pause to end, oldest first, by queue and whether their frames are sent (R302), and the
frame that the link's retimer has released last, with whether that was a repeat (R14). -/
structure EthLink where
  paused : Nat := 0
  long : Nat := 0
  wait : List (Nat × Bool) := []
  block : List Nat := []
  again : Bool := false
  deriving DecidableEq, Repr

/-- One check-value channel (R312 to R316): the CRC register of an open result, packets in it and since the channel was
enabled, the RTP timestamp of the open result, the results it has given since it was enabled (tag and value, newest first),
and those that still wait for the peer's. -/
structure Chan where
  reg : Option Nat := none
  open_ : Nat := 0
  pkts : Nat := 0
  stamp : Nat := 0
  given : List (Nat × Nat) := []
  waits : List (Nat × Nat) := []
  deriving DecidableEq, Repr

/-- A memory job (R315). -/
structure MemJob where
  base : Nat
  rowLen : Nat
  stride : Nat
  rows : Nat
  region : Nat
  channel : Nat
  deriving DecidableEq, Repr

/-- The packet blocks' own state. -/
structure PktX where
  queues : Store MediaQ := []
  ports : Store EthPort := []
  links : Store EthLink := []
  chans : Store Chan := []
  job : Option MemJob := none
  deriving DecidableEq, Repr

/-- One Umpire unit (R385, R386): digests of the mate that wait (label and digest, newest first), own digests that wait for the mate's
(label, digest and the instant at which `CMP_WAIT` is over), mismatches and gaps in succession, and the instants of the last three
mismatches of the run, oldest first. -/
structure UmpUnit where
  mates : List (Nat × Nat) := []
  mine : List (Nat × Nat × Stc) := []
  run : Nat := 0
  gaps : Nat := 0
  firsts : List Stc := []
  deriving DecidableEq, Repr

/-- The pair's own state beside its registers: what the mate's last HEALTH cell said (state, `PARTIAL`, `LSIDE` count), good HEALTH
cells of the second that runs (R395), whether the straps were found inconsistent, whether the two devices are on different candidates (R339), the next sequence number expected (R378), the
cause of a yield in progress, the last sequence number of a device that yielded (R391), whether a resync was broken off (R375),
latched health causes as `CAUSE` bits and the instant of the last source `0x18` (R394), groups under R397, where BULK data goes on
(R377: space and byte address), Keeper loads whose image is still to come (composer and bytes), the bases of images that come or have come
(composer and unit) and the bytes still to come of the one that comes (R381), whether any sequence number is taken as the first of a resync, the last epoch whose items have been
applied (R379), items whose epoch has come and that wait for the boundary of their `BIDX`, the words of COUNTERS cells so far (R383), the last
TREF cell (frame and position), the Umpire's units, the window of a dispute (R386) with matches of its unit so far, the
verdicts (R387), and the cells that wait for an LGTW frame, in the order they are sent: type, `SEQ` and words from `SUB` or W1 on (R377). -/
structure TwinX where
  mateState : Nat := 1
  matePartial : Bool := false
  mateLside : Nat := 0
  goodRun : Nat := 0
  cfgBad : Bool := false
  refDiff : Bool := false
  rxSeq : Nat := 0
  yieldCause : Nat := 0
  tail : Option Nat := none
  broken : Bool := false
  latched : Nat := 0
  eyeAt : Option Stc := none
  lsideBad : List Nat := []
  bulkAt : Nat × Nat := (0, 0)
  imgNext : List (Nat × Nat) := []
  imgBase : List (Nat × Nat) := []
  imgLeft : Nat := 0
  rxAny : Bool := false
  applied : Nat := 0
  due : List MirrorItem := []
  counters : List Nat := []
  tref : Option (Nat × Nat) := none
  umps : Store UmpUnit := []
  win : Option (Stc × Stc) := none
  matched : Nat := 0
  own : Option (Bool × Nat) := none
  mate : Option (Bool × Nat) := none
  tx : List (Nat × Nat × List Nat) := []
  deriving DecidableEq, Repr

/-- A retimer (R14): the block being filled once the core has marked it complete, the block that it has released last, and whether
that was a repeat. -/
structure Retimer where
  use : RetimerUse
  filling : Option (List Nat) := none
  block : List Nat := []
  again : Bool := false
  deriving DecidableEq, Repr

/-- The mailbox, the board controller's paths and the boot (R441 to R455): the mailbox's owner, the master that issued the last
command, whether the nonce has been drawn, the instants of its failures, a key rotation that is being fused (with whether slot 0 is
revoked), a firmware image on its way to flash (bank, working-RAM offset, bytes, its `SEQ`), and the two error bits of the SPI status byte. -/
structure HostX where
  owner : Option Nat := none
  issuer : Nat := 1
  nonce : Bool := false
  fails : List Stc := []
  rotate : Option Bool := none
  install : Option (Nat × Nat × Nat × Nat) := none
  spiErr : Bool := false
  spiDenied : Bool := false
  i2cAddr : Nat := 0
  deriving DecidableEq, Repr

/-- Resets and power (R463 to R476): the reset that is asserted (0 none, 1 POR, 2 `RESET_N`, 3 brown-out), a WARM reset in progress
or deferred (its cause code), the pins that a brown-out has released, clusters whose wake waits for the load slew, enabled pages
whose block waits for its cluster's exit (R471), and audio maps that take their COLD values at the next boundary (R200). -/
structure PowerX where
  asserted : Nat := 0
  warm : Option Nat := none
  deferred : Option Nat := none
  released : Bool := false
  waits : List Nat := []
  starts : List Nat := []
  amapDue : Bool := false
  deriving DecidableEq, Repr

/-- The straps as sampled at the last POR or COLD (R463, R505). -/
structure Straps where
  scale : Bool := false
  compat : Bool := false
  side : Bool := false
  bootHost : Bool := false
  deriving DecidableEq, Repr

/-- Pins: `RESET_N`, and whether `IRQ_N` is driven low (R440). ALIVE is held in the FCU. -/
structure Pins where
  resetN : Bool := true
  irqLow : Bool := false
  deriving DecidableEq, Repr

/-- Fuse state that commands change (R454) or that gates a unit (R456). -/
structure Otp where
  active1 : Bool := false
  revoked0 : Bool := false
  revoked1 : Bool := false
  prog1 : Bool := false
  debugEn : Bool := false
  minVersion : Nat := 0
  unreadable : Bool := false
  deriving DecidableEq, Repr

/-- Everything but memory and the command queue. `flds` holds every register and table field that is away from its POR value; then come
the pages' headers: `PAGE_STICKY`, `PAGE_IRQ_EN`, `ENABLE`, `PWR_REQ`, `PAGE_LAT_TOL` and the pages in a BLOCK reset (R482 to R484). `free`
counts the free values drawn (log entry 2); `out` and `reports` hold what the present command has driven outward and reported. -/
structure Chip where
  flds : Store Nat := []
  sticky : Store Nat := []
  irqEn : Store Nat := []
  enable : Store Nat := []
  pwrReq : Store Nat := []
  latTol : Store Nat := []
  resetting : Store Nat := []
  fcu : Fcu := {}
  reports : List Report := []
  stc : Stc := {}
  straps : Straps := {}
  pins : Pins := {}
  otp : Otp := {}
  free : Nat := 0
  out : List Out := []
  /-- Conditions of the 64 interrupt vectors and the MSI-X pending bits, bit v for vector v (R439). -/
  cond : Nat := 0
  pba : Nat := 0
  /-- A yield decision is due: its cause code of TWIN_LAST (R390), 0 none. -/
  yieldDue : Nat := 0
  /-- TIME_RATE is held after a class 11 reaction (R367, R410). -/
  rateHeld : Bool := false
  /-- A class 12 reaction grades the device DEGRADED (R398, R410). -/
  containDegraded : Bool := false
  /-- A debug transaction has been seen since the last reset (R456). -/
  debugSeen : Bool := false
  /-- Transactions in flight: master, fabric ID (R429, R432). -/
  inFlight : List (Nat × Nat) := []
  /-- Those of them that have been served and wait for the responses before theirs, in the order of their issue (R433). -/
  served : List Served := []
  /-- Writes that wait and bring no response any more, by master and fabric ID: their transactions have ended (R431, R410, R438). -/
  silent : List (Nat × Nat) := []
  /-- Response and data of the last fabric access (R431). -/
  resp : Resp := .okay
  rdata : List Nat := []
  lanes : Store Lane := []
  grps : Store Group := []
  vin : Store Input := []
  banks : Store Bank := []
  syncs : Store Sync := []
  merges : Store Merge := []
  xpt : XptX := {}
  cmps : Store Comp := []
  cgrps : Store CGroup := []
  outs : Store OutFrame := []
  mirrorQ : List MirrorItem := []
  mirrorSeq : Nat := 0
  /-- Sequenced cells that the mate has not acknowledged: sequence number, type and words (R378). -/
  replay : List (Nat × Nat × List Nat) := []
  mer : Mer := {}
  /-- The audio media counter (R163). -/
  amc : Nat := 0
  aud : Aud := {}
  mix : MixX := {}
  novas : Store NCore := []
  sch : SchX := {}
  pkt : PktX := {}
  twin : TwinX := {}
  /-- What waits for room in the replay buffer (R378), oldest first: mirrored writes whose responses are withheld, the payload of the last
  one of a transaction holding its fabric ID; decisions (space 3); cells of copied content (space 4, `off` their type, their words in
  `payload`). -/
  mirrorWait : List MirrorItem := []
  retimers : List Retimer := []
  /-- What each edge clock domain has delivered into the core last (R15). -/
  intakes : Store (List Nat) := []
  host : HostX := {}
  power : PowerX := {}
  /-- Poisoned words outside the blocks that keep their own: checker number of the memory (R419), its instance, word address (R423). -/
  poisoned : List (Nat × Nat × Nat) := []
  deriving DecidableEq, Repr

/-- The machine: the block, its byte memory in canonical form, and the commands that wait. -/
structure State where
  c : Chip := {}
  mem : List Host.Cell := []
  pending : List Instr := []
  deriving DecidableEq, Repr

/-- Why a run stops with a fault. No command of this block raises one: the block reports every fault to its collector and
goes on. -/
inductive Fault
  /-- Raised by no command; kept so that the type is inhabited. Safe: the model never stops with it. -/
  | none
  deriving DecidableEq, Repr

/-- Why a run stops with a refusal. -/
inductive Refusal
  /-- Raised by an arm of `exec` whose command has no meaning in the model yet. Safe: the model says nothing of it. -/
  | notModelled (mnemonic : String)
  deriving DecidableEq, Repr

/-- The machine right after POR, with the straps low, no command waiting and nothing stored (log entries 3 to 6). -/
def State.reset : State := {}

end Sys2Proof.Machine
end

