-- ==== Sys2Proof/Machine/Ops.lean ====
section
/-! DEFINITION. The named operations over registers, sticky bits, reports, injection, free values and memory. Every meaning
reads and writes the machine through these. -/

namespace Sys2Proof.Machine

/-! ## Fields -/

/-- Read a register or table field. -/
def Chip.rd (c : Chip) (f : Fld) : Nat := getFld c.flds f

/-- Write a register or table field; the value is cut to the field's width. -/
def Chip.wr (c : Chip) (f : Fld) (v : Nat) : Chip := { c with flds := setFld c.flds f v }

/-- Read a one-bit field. -/
def Chip.on (c : Chip) (f : Fld) : Bool := c.rd f = 1

/-- Read a field as a signed number of its width. -/
def Chip.rdS (c : Chip) (f : Fld) : Int := toSigned f.w (c.rd f)

/-- Write a signed number to a field. -/
def Chip.wrS (c : Chip) (f : Fld) (v : Int) : Chip := c.wr f (ofSigned f.w v)

/-- Count one in a saturating counter field. -/
def Chip.inc (c : Chip) (f : Fld) : Chip := c.wr f (satInc f.w (c.rd f))

/-- Count one in a wrapping counter field. -/
def Chip.incWrap (c : Chip) (f : Fld) : Chip := c.wr f (c.rd f + 1)

/-- Add to a saturating counter field. -/
def Chip.addSat (c : Chip) (f : Fld) (n : Nat) : Chip := c.wr f (satAdd f.w (c.rd f) n)

/-- Take one off a counter field, not below 0. -/
def Chip.decr (c : Chip) (f : Fld) : Chip := c.wr f (c.rd f - 1)

/-- Read a field of the FCU page or of a severity page. -/
def Chip.frd (c : Chip) (f : Fld) : Nat := getFld c.fcu.regs f

/-- Write a field of the FCU page or of a severity page. -/
def Chip.fwr (c : Chip) (f : Fld) (v : Nat) : Chip := { c with fcu := { c.fcu with regs := setFld c.fcu.regs f v } }

/-- A field value with 0 read as `d` (the "0 is treated as" rules). -/
def orElse0 (v d : Nat) : Nat := if v = 0 then d else v

/-- A value limited to `lo` to `hi`. -/
def clampN (lo hi v : Nat) : Nat := if v < lo then lo else if hi < v then hi else v

/-- A signed value limited to `lo` to `hi`. -/
def clampI (lo hi v : Int) : Int := if v < lo then lo else if hi < v then hi else v

/-- Copy every field of a page between two places of one window or register file: the words `lo ≤ off < hi` of space `sp`
onto the copy of space `dst` (R55, R142, R176, R184, R196). -/
def Chip.copyWords (c : Chip) (sp page lo hi dst : Nat) : Chip :=
  { c with flds := Store.copy (placeKey sp page lo 0) (placeKey sp page hi 0) (placeKey dst page lo 0) c.flds }

/-! ## Page headers -/

def fcuPage : Nat := 0x3
def vinPage : Nat := 0x60
def vpktPage : Nat := 0x61
def xptPage : Nat := 0x70
def fsyncPage : Nat := 0x78
def cmpPage (n : Nat) : Nat := 0x80 + n
def lgrpPage (g : Nat) : Nat := 0x20 + g
def sapPage (n : Nat) : Nat := 0xC0 + n
def asrcPage : Nat := 0xD0
def amapPage : Nat := 0xD4
def mixPage : Nat := 0xD8
def novaPage (n : Nat) : Nat := 0xE0 + n
def schedPage : Nat := 0x120
def twinPage : Nat := 0x128
def umpPage : Nat := 0x129
def ethPage (n : Nat) : Nat := 0x48 + n
def flowqPage : Nat := 0x50
def crcuPage : Nat := 0x51
def merSelPage : Nat := 0x10
def merLoopPage : Nat := 0x11
def merHoldPage : Nat := 0x12
def ptpPage : Nat := 0x13
def timePage : Nat := 0x14
def cmdPage : Nat := 0x8
def cfabPage : Nat := 0x9
def hostPage : Nat := 0xA
def mgmtPage : Nat := 0xB
def devPage : Nat := 0x0
def pwrPage : Nat := 0x1
def rstPage : Nat := 0x2
def hbmPage : Nat := 0x130

/-- The pages of the page index (R485). -/
def pageExists (p : Nat) : Bool :=
  p ≤ 0xB || (0x10 ≤ p && p ≤ 0x14) || (0x20 ≤ p && p ≤ 0x40) || (0x48 ≤ p && p ≤ 0x51) || p = 0x60 || p = 0x61 ||
  p = 0x70 || p = 0x78 || (0x80 ≤ p && p ≤ 0xD0) || p = 0xD4 || p = 0xD8 || (0xE0 ≤ p && p ≤ 0x120) || p = 0x128 ||
  p = 0x129 || p = 0x130

/-- Pages whose `PAGE_CTRL.ENABLE` software may write (R485). -/
def enableWritable (p : Nat) : Bool :=
  (0x20 ≤ p && p ≤ 0x40) || (0x48 ≤ p && p ≤ 0x4F) || (0x80 ≤ p && p ≤ 0xCF) || p = 0xD8 || p = 0x120

/-- `PAGE_CTRL.ENABLE` at COLD (R485). -/
def enableCold (scale : Bool) (p : Nat) : Nat :=
  if enableWritable p then (if p = 0x40 then b2n scale else 0) else 1

/-- `PAGE_CTRL.ENABLE` now. -/
def Chip.enabled (c : Chip) (p : Nat) : Bool := Store.get (enableCold c.straps.scale p) c.enable p = 1

/-- `PAGE_STICKY` of a page. -/
def Chip.stickyWord (c : Chip) (p : Nat) : Nat := Store.get 0 c.sticky p

/-- Set sticky bit `b` of page `p` (R482); a set is never lost to a clear of the same step (R7). -/
def Chip.stick (c : Chip) (p b : Nat) : Chip := { c with sticky := Store.set 0 c.sticky p (setBit (c.stickyWord p) b true) }

/-- `PAGE_IRQ_EN` of a page: bits 3 to 1 of the FCU page reset to 1 (R427). -/
def Chip.irqEnWord (c : Chip) (p : Nat) : Nat := Store.get (if p = fcuPage then 14 else 0) c.irqEn p

/-! ## Outputs and free values -/

/-- Drive something outward. -/
def Chip.emit (c : Chip) (o : Out) : Chip := { c with out := c.out ++ [o] }

/-- A fresh value that the spec leaves open, and the machine with its counter advanced (log entry 2). -/
def Chip.fresh (c : Chip) : Nat × Chip := (Config.freeNat c.free, { c with free := c.free + 1 })

/-! ## Reports, first and second attempts, injection -/

/-- Hand a report to the collector (R404). An instance is 16 bits in the record; what stands above tells apart two conditions
of one instance that are judged on their own (R413). The collector takes the reports of one step together (R408). -/
def Chip.report (c : Chip) (r : Report) : Chip := { c with reports := c.reports ++ [r] }

/-- Report an always-lasting source, or a condition reported at detection as lasting (R406). -/
def Chip.raise (c : Chip) (src page inst detail : Nat) : Chip :=
  c.report { src := src, page := page, inst := inst, detail := detail, lasting := true }

/-- Report a condition at NOTE (R75). -/
def Chip.raiseNote (c : Chip) (src page inst detail : Nat) : Chip :=
  c.report { src := src, page := page, inst := inst, detail := detail, lasting := true, note := true }

/-- Report a transient fault. -/
def Chip.raiseT (c : Chip) (src page inst detail : Nat) : Chip :=
  c.report { src := src, page := page, inst := inst, detail := detail, lasting := false }

/-- The attempt that is kept for a source, page and instance. -/
def Chip.attempt (c : Chip) (src page inst : Nat) : Option Attempt :=
  c.fcu.attempts.find? (fun a => a.src = src && a.page = page && a.inst = inst)

/-- Forget the attempt of a source, page and instance. -/
def Chip.dropAttempt (c : Chip) (src page inst : Nat) : Chip :=
  { c with fcu := { c.fcu with attempts := c.fcu.attempts.filter (fun a => !(a.src = src && a.page = page && a.inst = inst)) } }

/-- Note that the condition of an instance has passed an attempt: its holds may end (R411). -/
def Chip.passHolds (c : Chip) (src page inst : Nat) : Chip :=
  { c with fcu := { c.fcu with holds := c.fcu.holds.map (fun h =>
      if h.src = src ∧ h.page = page ∧ h.inst = inst then { h with passed := true } else h) } }

/-- The pending attempt of a source meets its second attempt, whose real outcome is `bad` (R406): a second failure is
reported as lasting, once until an attempt passes; a pass reports the first failure as transient. A fault that was only
injected is transient whatever comes next, and a real failure after it begins an attempt of its own. -/
def Chip.resolve (c : Chip) (src page inst detail : Nat) (bad inj : Bool) : Chip :=
  let keep := fun (c : Chip) (a : Attempt) => { c with fcu := { c.fcu with attempts := c.fcu.attempts ++ [a] } }
  match c.attempt src page inst with
  | none => if bad then keep c ⟨src, page, inst, detail, inj, true, false⟩ else c.passHolds src page inst
  | some a =>
    if a.standing then (if bad then c else (c.dropAttempt src page inst).passHolds src page inst)
    else
      let c := (c.dropAttempt src page inst).report ⟨src, page, inst, a.detail, bad && a.real, a.inj, a.real, [], false⟩
      if bad then
        (if a.real then keep c ⟨src, page, inst, a.detail, a.inj, true, true⟩ else keep c ⟨src, page, inst, detail, inj, true, false⟩)
      else c.passHolds src page inst

/-- One attempt of a source with a second-attempt rule (R406). `bad` is what really happened; `inj` tells that the access was
injected (R420). An access that was only injected leaves a first attempt that is tagged so. -/
def Chip.judge (c : Chip) (src page inst detail : Nat) (bad : Bool) (inj : Bool := false) : Chip :=
  let c := c.resolve src page inst detail bad inj
  if inj && !bad then
    { c with fcu := { c.fcu with attempts := c.fcu.attempts ++ [⟨src, page, inst, detail, true, false, false⟩] } }
  else c

/-- The floor of a quotient, or one more where it is not exact: the spec states no rounding (a free value, log entry 2). -/
def Chip.divFree (c : Chip) (n d : Int) : Int × Chip :=
  if n % d = 0 then (n / d, c) else (n / d + (c.fresh.1 % 2 : Nat), c.fresh.2)

/-- What an armed checker makes of an access whose real syndrome is `real` (R420): the machine after the arming fired, the
syndrome to act on, and the tags of the report. -/
structure Checked where
  c : Chip
  /-- The real syndrome: the data path treats the access by it. -/
  real : Nat
  /-- The syndrome that names the source: the pattern when only the injection was seen. -/
  seen : Nat
  inj : Bool

/-- An access to checker `k`, instance `i` with real syndrome `real` (R419, R420). -/
def Chip.check (c : Chip) (k i real : Nat) : Checked :=
  match c.fcu.arm with
  | some a =>
    if a.checker = k ∧ a.inst = i then
      let c := { c with fcu := { c.fcu with arm := none } }
      let c := ((c.fwr Fcu.injArmed 0).fwr Fcu.injFired 1).stick fcuPage 7
      let c := if real = 0 then c else c.stick fcuPage 9
      ⟨c, real, if real = 0 then a.pattern else real, true⟩
    else ⟨c, real, real, false⟩
  | none => ⟨c, real, real, false⟩

/-- Whether a syndrome is that of a single wrong bit, which ECC corrects (R420). -/
def oneBit (s : Nat) : Bool := s ≠ 0 && s &&& (s - 1) = 0

/-- A checked read of an ECC memory: corrected errors raise `ce`, judged by the re-read after scrub write-back (R406),
uncorrectable ones raise `ue`. An injected error alone is transient unless the source is always lasting. -/
def Chip.eccRead (c : Chip) (k i ce ue page inst addr real again : Nat) (held : List (Nat × Nat)) : Chip :=
  let r := c.check k i real
  if r.seen = 0 then r.c
  else
    let one := oneBit r.seen
    r.c.report ⟨if one then ce else ue, page, inst, addr, !one || (again ≠ 0 && r.real ≠ 0), r.inj, r.real ≠ 0, held, false⟩

/-! ## Byte memory: one list of cells for every byte-addressed store -/

/-- Regions of byte memory; a region's bytes stand at keys `code * 2^33 + offset`. 0 working RAM, 1 and 2 the surface
regions of stacks 0 and 1, 3 the Keeper carve-out, 4 the schedule image buffer. -/
def memKey (region off : Nat) : Nat := region * 8589934592 + off

abbrev Mem := List Host.Cell

/-- What a byte that nothing has written reads as (log entry 3). -/
def memDefault : Byte := 0

/-- The byte at an offset of a region. -/
def Mem.byte (m : Mem) (region off : Nat) : Nat := (Store.get memDefault m (memKey region off)).toNat

/-- Write one byte. -/
def Mem.put (m : Mem) (region off v : Nat) : Mem := Store.set memDefault m (memKey region off) (BitVec.ofNat 8 v)

/-- Write bytes at rising offsets. -/
def Mem.puts (m : Mem) (region off : Nat) : List Nat → Mem
  | [] => m
  | v :: r => Mem.puts (Mem.put m region off v) region (off + 1) r

/-- Read `n` bytes at rising offsets. -/
def Mem.bytes (m : Mem) (region off : Nat) : Nat → List Nat
  | 0 => []
  | n + 1 => Mem.byte m region off :: Mem.bytes m region (off + 1) n

/-- Unlist a region: its bytes read as unwritten (COLD). -/
def Mem.clear (m : Mem) (region : Nat) : Mem := Store.clear (memKey region 0) (memKey (region + 1) 0) m

/-- The canonical form of memory: addresses strictly rising, nothing listed that an unlisted address reads as. -/
def Mem.wf (m : Mem) : Bool := Store.wf memDefault m

/-- A little-endian number from bytes (R4). -/
def leNat : List Nat → Nat
  | [] => 0
  | b :: r => b % 256 + 256 * leNat r

/-- The `n` little-endian bytes of a number. -/
def leBytes : Nat → Nat → List Nat
  | 0, _ => []
  | n + 1, v => v % 256 :: leBytes n (v / 256)

/-- The 32-bit word at a byte offset of a region. -/
def Mem.word (m : Mem) (region off : Nat) : Nat := leNat (Mem.bytes m region off 4)

end Sys2Proof.Machine
end

