-- ==== Sys2Proof/Machine/Settle.lean ====
section
/-! DEFINITION. What the fault collector and the interrupt logic do at the end of every command: severities and escalation
(R407), order and sequence numbers (R408), the three records (R413, R414), reactions (R409 to R411, R416, R421), and the
interrupt conditions of all pages (R439, R440). -/

namespace Sys2Proof.Machine

/-! ## Severities -/

/-- `TSEV` of source `n` (R428). -/
def Fsev.tsev (n : Nat) : Fld := ⟨0, 4 + n / 64, 0x40 + 4 * (n % 64), 0, 3, .rw, sevDefault n % 8, .val (sevDefault n % 8), .kept, 0, 1⟩

/-- `LSEV` of source `n` (R428). -/
def Fsev.lsev (n : Nat) : Fld :=
  ⟨0, 4 + n / 64, 0x40 + 4 * (n % 64), 4, 3, .rw, sevDefault n / 16 % 8, .val (sevDefault n / 16 % 8), .kept, 0, 1⟩

/-- Whether source `n` is always reported as lasting (R406, R428). -/
def sevAlways (n : Nat) : Bool := (sevDefault n).testBit 8

/-- Whether source `n` is reserved (R428). -/
def sevReserved (n : Nat) : Bool := (sevDefault n).testBit 9

/-- The base severity of a report (R407). -/
def Chip.baseSev (c : Chip) (r : Report) : Nat :=
  if sevReserved r.src then 0
  else if r.note then min 1 (c.frd (Fsev.lsev r.src))
  else if r.lasting || sevAlways r.src then c.frd (Fsev.lsev r.src) else c.frd (Fsev.tsev r.src)

/-- Whether a class holds an unacknowledged entry that counts for escalating a report (R407). -/
def Chip.escalates (c : Chip) (r : Report) : Bool :=
  bit (c.frd Fcu.unackReal) (r.src / 16) || (r.inj && !r.real && bit (c.frd Fcu.unackInj) (r.src / 16))

/-- The effective severity of a report (R407). -/
def Chip.effSev (c : Chip) (r : Report) : Nat :=
  if c.baseSev r = 0 then 0 else if c.escalates r then min 4 (c.baseSev r + 1) else c.baseSev r

/-- The order in which the reports of one step are numbered (R408): higher severity, then lower source, then lower
instance first. -/
def beforeReport (a b : Nat × Report) : Bool :=
  a.1 > b.1 || (a.1 = b.1 && (a.2.src < b.2.src || (a.2.src = b.2.src && a.2.inst ≤ b.2.inst)))

/-- Insert into the order of R408. -/
def insertReport (a : Nat × Report) : List (Nat × Report) → List (Nat × Report)
  | [] => [a]
  | b :: r => if beforeReport a b then a :: b :: r else b :: insertReport a r

/-- The reports of one step in the order of R408, each with its effective severity. -/
def Chip.ranked (c : Chip) : List (Nat × Report) :=
  c.reports.foldl (fun l r => insertReport (c.effSev r, r) l) []

/-! ## Records -/

/-- Rehearsal masks the external actions of a report tagged INJ alone (R421). -/
def Chip.masked (c : Chip) (r : Report) : Bool := r.inj && !r.real && c.frd Fcu.injRehearsal = 1

/-- The log entry of a report (R413). -/
def Chip.entryOf (c : Chip) (esev : Nat) (r : Report) : LogEntry :=
  { src := r.src, esev := esev, bsev := c.baseSev r, lasting := r.lasting || sevAlways r.src, esc := c.baseSev r < esev,
    inj := r.inj, real := r.inj && r.real, extmask := c.masked r, page := r.page % 65536, inst := r.inst % 65536,
    detail := r.detail % 2 ^ 32, time := { c.stc with frac := 0 }, seq := c.frd Fcu.seq }

/-- The WORST nibble of a class (R427). -/
def Fcu.worstOf (cls : Nat) : Fld :=
  ⟨0, 0x3, if cls < 8 then 0x58 else 0x5C, 4 * (cls % 8), 3, .ro, 0, .val 0, .kept, 0, 1⟩

/-- Mark a class as holding an unacknowledged entry (R412, R427). -/
def Chip.markUnack (c : Chip) (e : LogEntry) : Chip :=
  let cls := e.src / 16
  let c := if e.inj && !e.real then c.fwr Fcu.unackInj (setBit (c.frd Fcu.unackInj) cls true)
    else c.fwr Fcu.unackReal (setBit (c.frd Fcu.unackReal) cls true)
  let c := if e.esev = 4 ∧ !(e.inj && !e.real) then { c with fcu := { c.fcu with crit := setBit c.fcu.crit cls true } } else c
  c.fwr (Fcu.worstOf cls) (max e.esev (c.frd (Fcu.worstOf cls)))

/-- Write an entry to the log ring, the first-fault record and the always-on copy (R414). -/
def Chip.logEntry (c : Chip) (e : LogEntry) : Chip :=
  let w := c.frd Fcu.logWptr
  let full := c.fcu.unread = 256
  let c := if full then ((c.fwr Fcu.logRptr (c.frd Fcu.logRptr + 1)).fwr Fcu.logOvw (satInc 32 (c.frd Fcu.logOvw))).stick fcuPage 4
    else { c with fcu := { c.fcu with unread := c.fcu.unread + 1 } }
  let c := { c with fcu := { c.fcu with log := Store.set {} c.fcu.log w e,
                                        first := c.fcu.first.orElse (fun _ => some e),
                                        aon := (c.fcu.aon ++ [e]).drop (c.fcu.aon.length - 15) } }
  ((c.fwr Fcu.logWptr (w + 1)).fwr Fcu.seq (e.seq + 1)).fwr Fcu.ffValid 1

/-! ## Reactions -/

/-- A stop condition of ALIVE occurs (R416): its cause bit is set, and ALIVE freezes, or is driven low with
`ALIVE_STATIC` (R33). -/
def Chip.stopAlive (c : Chip) (cause : Nat) : Chip :=
  let c := (c.fwr Fcu.stop (setBit (c.frd Fcu.stop) cause true)).stick fcuPage 5
  let c := c.fwr Fcu.aliveRun 0
  if bit (c.rd Dev.compat) 2 then { c with fcu := { c.fcu with alive := false } } else c

/-- Destinations whose route on air is source `s` (R410). -/
def Chip.destsOf (c : Chip) (s : Nat) : List Nat :=
  (List.range 1664).filter (fun d => c.rd (Xpt.airSrc.nth d) = s)

/-- The instance that an intake selection names (R194). -/
def audInst (kind sel : Nat) : Nat :=
  match kind with | 1 | 4 | 5 => sel / 64 | 2 => sel / 32 | _ => sel

/-- The tracker of an ASRC channel in use (R184). -/
def Chip.chanTrk (c : Chip) (ch : Nat) : Nat := c.rd (Asrc.chTrk.nth ch).live

/-- Whether an intake selection names the instance of a report of class 6 (R201, R410): a port, a de-embedder, a flow, the source that
`0x64` to `0x66` give. DEDUCED (log entry 26): a tracker is named through its converter channels. -/
def Chip.namesInst (c : Chip) (r : Report) (kind sel : Nat) : Bool :=
  let i := audInst kind sel
  let n := r.inst % 65536
  match r.src with
  | 0x60 | 0x61 | 0x62 | 0x63 => kind = 1 && i = n
  | 0x64 | 0x65 | 0x66 => kind = r.inst / 65536 && i = n
  | 0x67 | 0x68 | 0x6E => kind = 3 && c.chanTrk i = n
  | 0x69 => kind = 2 && i = n
  | 0x6B | 0x6C => kind = 4 && i = n
  | _ => false

/-- The intake entries in use that name the instance of a report of class 6 (R410). -/
def Chip.entriesNaming (c : Chip) (r : Report) : List Nat :=
  let f := Amap.intake.live
  let lo := placeKey f.space f.page 0 0
  ((Store.range lo (placeKey f.space f.page 4096 0) c.flds).filter (fun p => c.namesInst r (p.2 % 8) (p.2 / 8 % 65536))).map
    (fun p => (p.1 - lo) / 32)

/-- The held set of a MAJOR or CRITICAL report (R410). -/
def Chip.heldSet (c : Chip) (r : Report) : List (Nat × Nat) :=
  match r.src / 16 with
  | 0 => r.held
  | 6 => (c.entriesNaming r).map (fun e => (1, e))
  | 3 => (c.destsOf (r.inst % 65536)).map (fun d => (0, d))
  | 4 => if r.src ≤ 0x45 then
      let i := if r.src = 0x42 ∨ r.src = 0x44 then c.rd (Fsync.input.nth r.inst) else r.inst
      (c.destsOf i).map (fun d => (0, d))
    else [(0, r.inst)]
  | 5 => if c.on (Cmp.kEn.on (r.page - 0x80)) then [] else (c.destsOf (1152 + (r.page - 0x80))).map (fun d => (0, d))
  | 7 => if r.src = 0x70 then [(2, r.inst)] else (List.range 64).map (fun o => (2, 64 * r.inst + o))
  | 8 => [(3, r.inst)]
  | _ => []

/-- Whether an item is held already. -/
def Chip.isHeld (c : Chip) (i : Nat × Nat) : Bool := c.fcu.holds.any (fun h => h.kind = i.1 && h.item = i.2)

/-- The hold of one item under a report: of an item that another condition holds already it goes on from where that hold stands. -/
def Chip.holdOf (c : Chip) (r : Report) (i : Nat × Nat) : Hold :=
  let old := c.fcu.holds.filter (fun h => h.kind = i.1 && h.item = i.2 && h.level ≠ 4)
  { kind := i.1, item := i.2, src := r.src, page := r.page, inst := r.inst, frames := (old.map Hold.frames).foldl max 0,
    level := (old.map Hold.level).foldl max 0, black := old.any Hold.black }

/-- Whether a hold is that of a report's instance. -/
def Hold.isOf (h : Hold) (r : Report) : Bool := h.src = r.src && h.page = r.page && h.inst = r.inst

/-- Start the holds of a report (R411), one for each condition and item; a condition that holds an item already has failed again. -/
def Chip.startHolds (c : Chip) (r : Report) : Chip :=
  let has := fun (i : Nat × Nat) (h : Hold) => h.kind = i.1 && h.item = i.2 && h.isOf r && h.level ≠ 4
  let new := ((c.heldSet r).filter (fun i => !c.fcu.holds.any (has i))).map (c.holdOf r)
  { c with fcu := { c.fcu with holds := c.fcu.holds.map (fun h => if h.isOf r then { h with passed := false } else h) ++ new } }

/-- The QL of the holdover pseudo-candidate (R348). -/
def Chip.holdoverQl (c : Chip) : Nat :=
  if c.rd MerHold.age < c.rd MerHold.holdMax then
    (if c.rd MerHold.holdQl = 0 ∨ c.rd MerHold.holdQl = 15 then 12 else c.rd MerHold.holdQl)
  else 14

/-- The loop enters `HOLDOVER` (R342, R347): the holdover value that stands now is taken once and held. -/
def Chip.loopToHoldover (c : Chip) : Chip :=
  let inst := c.rd MerSel.sel
  let c := ((((c.wr MerLoop.state 4).wr MerSel.sel 15).wr MerHold.age 0).wr MerSel.manual 0).wr MerSel.fallback 0
  let c := { c with mer := { c.mer with pend := none, aged := false, clean := false, target := c.rdS MerHold.value } }
  (((c.wr MerSel.qlOut c.holdoverQl).raise 0xA5 merLoopPage inst 0).stick merLoopPage 0).stick merSelPage 0

/-- The transactions of one master that are in flight, as CFAB shows them (R457). -/
def Chip.showFlightOf (c : Chip) (m : Nat) : Chip :=
  let own := (c.inFlight.filter (fun p : Nat × Nat => p.1 = m)).map Prod.snd
  ((c.wr (Cfab.outCount.nth m) own.length).wr (Cfab.outIds.nth m) own.eraseDups.length).wr (Cfab.outPeak.nth m)
    (max (c.rd (Cfab.outPeak.nth m)) own.length)

/-- The transactions in flight are `l` (R429, R432): CFAB shows them, and MGMT whether one of the management SPI is among them (R459). -/
def Chip.setFlight (c : Chip) (l : List (Nat × Nat)) : Chip :=
  let c := (({ c with inFlight := l }.wr Cfab.outstanding l.length).wr Cfab.full (b2n (512 ≤ l.length))).wr Mgmt.mspiBusy
    (b2n (l.any (fun p => p.1 = 2)))
  (((((c.showFlightOf 0).showFlightOf 1).showFlightOf 2).showFlightOf 3).showFlightOf 4).showFlightOf 5

/-- The transactions in flight whose writes still wait, for room in the gain queues or in the replay buffer (R217, R378). -/
def Chip.waiting (c : Chip) : List (Nat × Nat) := c.served.foldl (fun l x => l.erase (x.master, x.id)) c.inFlight

/-- The outstanding transactions of a master, one of six, end with an error response (R410). -/
def Chip.endOutstanding (c : Chip) (m : Nat) : Chip :=
  { c with served := c.served.filter (fun x => x.master ≠ m), silent := c.silent ++ c.waiting.filter (fun (f : Nat × Nat) => f.1 = m) }.setFlight
    (c.inFlight.filter (fun p : Nat × Nat => p.1 ≠ m))

/-- `SCHED_GOV_VLIM` as it acts (R287). -/
def Chip.vmin (c : Chip) : Nat := max (c.rd Sched.vmin) 720
def Chip.vmax (c : Chip) : Nat := min (c.rd Sched.vmax) 860

/-- The governor commands a voltage (R265, R266): while the bus is failed it holds the last one, and while the status of the
last write is outstanding the new one waits. -/
def Chip.setVolt (c : Chip) (v : Nat) : Chip :=
  if c.rd Sched.vset = v ∨ c.rd Sched.avs = 3 then c
  else
    let c := c.wr Sched.vset v
    if c.sch.busy then { c with sch := { c.sch with volt := some v } }
    else { c with sch := { c.sch with busy := true, sent := v } }.emit (.avs (c.rd Sched.avsRail) v)

/-- Containment of the classes whose blocks leave it to the collector (R410). -/
def Chip.contain (c : Chip) (r : Report) : Chip :=
  match r.src / 16 with
  | 10 => if c.rd MerLoop.state = 1 ∨ c.rd MerLoop.state = 2 ∨ c.rd MerLoop.state = 3 then c.loopToHoldover else c
  | 11 => { c with rateHeld := true }
  | 12 => { c with containDegraded := true }
  | 13 => if r.src ≤ 0xD2 then c.endOutstanding r.inst else c
  | 14 => if 0xE0 ≤ r.src ∧ r.src ≤ 0xE3 then c.setVolt c.vmax else c
  | 15 => c.wr Cmd.locked 1
  | _ => c

/-- The reaction to one logged report (R409). -/
def Chip.react (c : Chip) (esev : Nat) (r : Report) : Chip :=
  let c := if 2 ≤ esev then c.stick fcuPage (esev - 1) else c
  let c := if 3 ≤ esev then c.contain r else c
  let c := if 3 ≤ esev ∧ !c.masked r then c.startHolds r else c
  if esev = 4 ∧ !c.masked r then
    let c := c.stopAlive 0
    if c.yieldDue = 0 ∧ c.straps.scale ∧ c.rd Twin.state = 3 then { c with yieldDue := 1 } else c
  else c

/-- One report in its turn: OFF is neither logged nor counted (R407). -/
def Chip.collect (c : Chip) (p : Nat × Report) : Chip :=
  let c := if p.2.src = 0x18 then { c with twin := { c.twin with eyeAt := some c.stc } } else c
  if p.1 = 0 then c
  else
    let e := c.entryOf p.1 p.2
    ((c.logEntry e).markUnack e).react p.1 p.2

/-- Collect the reports of the step. Severities are taken before any of them is logged (R407, R408). -/
def Chip.collectAll (c : Chip) : Chip := c.ranked.foldl Chip.collect { c with reports := [] }

/-- Collect the reports of the step, then those that the reactions themselves made (holdover entered, R410). -/
def Chip.collectTwice (c : Chip) : Chip :=
  if c.collectAll.reports.isEmpty then c.collectAll else c.collectAll.collectAll

/-- Pages whose fields a reaction to a fault may write: CMD, CFAB, MGMT, MER_SEL, MER_LOOP, MER_HOLD and SCHED (R410). -/
def reacts (p : Nat) : Bool := p = 0x8 || p = 0x9 || p = 0xB || p = 0x10 || p = 0x11 || p = 0x12 || p = 0x120

/-- Pages whose sticky bits a reaction may set: the FCU's (R409), MER_SEL's and MER_LOOP's (holdover entered). -/
def reactsSticky (p : Nat) : Bool := p = 0x3 || p = 0x10 || p = 0x11

/-! ## Interrupts -/

/-- The request of a page: any enabled sticky bit (R439). -/
def Chip.requests (c : Chip) (p : Nat) : Bool := c.stickyWord p &&& c.irqEnWord p ≠ 0

/-- `IRQN` of a page's map entry: 1 at POR and COLD for the FCU, PWR and TWIN pages (R440, R458). -/
def irqnFld (p : Nat) : Fld :=
  let d := b2n (p = 0x1 || p = 0x3 || p = 0x128)
  { Hst.mapIrqn with off := p, por := d, cold := .val d, stride := 0, count := 1 }

/-- The conditions of all 64 vectors (R439). -/
def Chip.vectorConds (c : Chip) : Nat :=
  (c.sticky.map Prod.fst).foldl (fun m p =>
    if c.requests p && c.on (Hst.mapEn.nth p) then setBit m (c.rd (Hst.mapVec.nth p)) true else m) 0

/-- Whether any page drives `IRQ_N` low (R440). -/
def Chip.irqLevel (c : Chip) : Bool :=
  (c.sticky.map Prod.fst).any (fun p => c.requests p && c.rd (irqnFld p) = 1)

/-- The mask bit of a vector in the MSI-X table; it resets to 1 (PCI Express, log entry 8). -/
def msixMask (v : Nat) : Fld := { Hst.msixTable with off := 0x800 + 16 * v + 12, w := 1, por := 1, cold := .val 1, stride := 0, count := 1 }

/-- Vector `v` sends its message, or becomes pending while it is masked (R439). -/
def Chip.sendVector (c : Chip) (v : Nat) : Chip :=
  if !c.on Hst.msixEn then c
  else if c.on (msixMask v) then { c with pba := setBit c.pba v true }
  else { c.emit (.msix v) with pba := setBit c.pba v false }

/-- Re-evaluate the vectors: each whose condition rises sends one message (R439). -/
def Chip.interrupts (c : Chip) : Chip :=
  let now := c.vectorConds
  let old := c.cond
  let c := { c with cond := now, pins := { c.pins with irqLow := c.irqLevel } }
  if now = old then c
  else (List.range 64).foldl (fun c v => if bit now v && !bit old v then c.sendVector v else c) c

/-- The end of every command. -/
def Chip.settle (c : Chip) : Chip := (if c.reports.isEmpty then c else c.collectTwice).interrupts

/-- The machine as a command begins: nothing driven outward yet. -/
def Chip.start (c : Chip) : Chip := { c with out := [], reports := [] }

/-- A command that touches everything but byte memory and the queue. While POR or COLD is asserted nothing takes place
(R463, R472). -/
def act (s : State) (f : Chip → Chip) : Host.Outcome State Fault Refusal :=
  .next { s with c := if s.c.power.asserted = 0 then (f s.c.start).settle else s.c.start }

/-- A command that also writes byte memory. -/
def actMem (s : State) (f : Chip → Mem → Chip × Mem) : Host.Outcome State Fault Refusal :=
  .next (if s.c.power.asserted = 0 then { s with c := (f s.c.start s.mem).1.settle, mem := (f s.c.start s.mem).2 }
         else { s with c := s.c.start })

/-- An event of the supplies and the reset pins, which takes place in a reset too. -/
def actAlways (s : State) (f : Chip → Mem → Chip × Mem) : Host.Outcome State Fault Refusal :=
  .next { s with c := (f s.c.start s.mem).1.settle, mem := (f s.c.start s.mem).2 }

end Sys2Proof.Machine
end

