-- ==== Sys2Proof/Machine/Access.lean ====
section
/-! DEFINITION. Who may write what (R435, R380): the page maps, the words they make up, and the guard that every write row
passes before its action. -/

namespace Sys2Proof.Machine

/-- The number of a master (R429). -/
def masterNum : Master → Nat
  | .hk => 0 | .host => 1 | .mspi => 2 | .bi2c => 3 | .twin => 4 | .jtag => 5

/-- Move a block's fields to the `i`-th of its pages. -/
def onPage (i : Nat) (l : List Fld) : List Fld := l.map (fun f => f.on i)

/-- The fields of a page's body and table window (R485, and the body layouts of the chapters). -/
def fieldsOf (p : Nat) : List Fld :=
  if 0x20 ≤ p ∧ p ≤ 0x40 then onPage (p - 0x20) Lgrp.fields
  else if 0x48 ≤ p ∧ p ≤ 0x4F then onPage (p - 0x48) Eth.fields
  else if 0x80 ≤ p ∧ p ≤ 0xBF then onPage (p - 0x80) Cmp.fields
  else if 0xC0 ≤ p ∧ p ≤ 0xCF then onPage (p - 0xC0) Sap.fields
  else if 0xE0 ≤ p ∧ p ≤ 0x11F then onPage (p - 0xE0) Nova.fields
  else match p with
  | 0x0 => Dev.fields | 0x1 => Pwr.fields | 0x2 => Rst.fields | 0x3 => Fcu.fields | 0x8 => Cmd.fields
  | 0x9 => Cfab.fields | 0xA => Hst.fields | 0xB => Mgmt.fields | 0x10 => MerSel.fields | 0x11 => MerLoop.fields
  | 0x12 => MerHold.fields | 0x13 => Ptp.fields | 0x14 => Time.fields | 0x50 => Flowq.fields | 0x51 => Crcu.fields
  | 0x60 => Vin.fields | 0x61 => Vpkt.fields | 0x70 => Xpt.fields | 0x78 => Fsync.fields | 0xD0 => Asrc.fields
  | 0xD4 => Amap.fields | 0xD8 => Mix.fields | 0x120 => Sched.fields | 0x128 => Twin.fields | 0x129 => Ump.fields
  | 0x130 => Hbm.fields
  | _ => []

/-- Read a stored field of any page: the FCU and severity pages have a table of their own. -/
def Chip.rdAny (c : Chip) (f : Fld) : Nat := if 3 ≤ f.page ∧ f.page ≤ 7 then c.frd f else c.rd f

/-- Write a stored field of any page. -/
def Chip.wrAny (c : Chip) (f : Fld) (v : Nat) : Chip := if 3 ≤ f.page ∧ f.page ≤ 7 then c.fwr f v else c.wr f v

/-- The page that holds a word: fences, group registers and surface descriptors are one copy behind every CMP page (R161). -/
def homePage (p sp off : Nat) : Nat :=
  if 0x80 ≤ p ∧ p ≤ 0xBF ∧ ((sp = 0 ∧ ((0x200 ≤ off ∧ off < 0x240) ∨ 0x800 ≤ off)) ∨ (sp = 1 ∧ 4096 ≤ off)) then 0x80 else p

/-- A field with its own member's reset value, where the members of an array differ: `CFAB_LIMIT` (R457), `IRQN` of the interrupt
map (R458), the mask bit of an MSI-X entry. -/
def fixFld (f : Fld) : Fld :=
  if f.page = cfabPage ∧ f.space = 0 ∧ 0x60 ≤ f.off ∧ f.off < 0x78 then
    let d := [128, 256, 16, 8, 96, 8].getD ((f.off - 0x60) / 4) 0
    { f with por := d, cold := .val d }
  else if f.page = hostPage ∧ f.space = 1 ∧ f.lo = 7 then irqnFld f.off
  else if f.page = hostPage ∧ f.space = 0 ∧ 0x800 ≤ f.off ∧ f.off < 0xC00 ∧ f.off % 16 = 12 then msixMask ((f.off - 0x800) / 16)
  else f

/-- The fields of a severity word (R428): `TSEV` of an always-lasting source reads 0 and is read-only, a reserved source has no
fields. -/
def fsevFields (p off : Nat) : List Fld :=
  let n := 64 * (p - 4) + (off - 0x40) / 4
  if off < 0x40 ∨ 0x140 ≤ off ∨ off % 4 ≠ 0 ∨ sevReserved n then []
  else (if sevAlways n then [] else [Fsev.tsev n]) ++ [Fsev.lsev n]

/-- The fields that stand in one word, each as the member that stands there. -/
def wordFields (p sp off : Nat) : List Fld :=
  if 4 ≤ p ∧ p ≤ 7 then (if sp = 0 then fsevFields p off else [])
  else (fieldsOf p).filterMap (fun f => (f.hit sp off).map (fun i => fixFld (f.nth i)))

/-- The word that the stored fields make up; write-only fields read 0 (R6). -/
def Chip.storedWord (c : Chip) (p sp off : Nat) : Nat :=
  (wordFields p sp off).foldl (fun a f => a + (if f.acc = .wo then 0 else c.rdAny f) * 2 ^ f.lo) 0

/-- The RW fields of a word as they stand: what a write that changes only an action bit carries in the others. -/
def Chip.rwWord (c : Chip) (p sp off : Nat) : Nat :=
  (wordFields p sp off).foldl (fun a f => a + (if f.acc = .rw then c.rdAny f else 0) * 2 ^ f.lo) 0

/-- Whether the device is one of a pair (R374). -/
def Chip.paired (c : Chip) : Bool := c.straps.scale

/-- The pair state (R375): 0 `SINGLE` whatever is stored, when the device stands alone by its strap. -/
def Chip.pairState (c : Chip) : Nat := if c.paired then c.rd Twin.state else 0

/-- Whether the device is the standby of a pair: `STBY_SYNC` or `STANDBY` (R375). -/
def Chip.isStandby (c : Chip) : Bool := c.pairState = 5 || c.pairState = 6

/-- Whether mirrored writes are ignored here: on a standby, and on a device that yields (R380, R390). -/
def Chip.ignoresMirrored (c : Chip) : Bool := c.isStandby || c.pairState = 4

/-- Whether the device sends what it does to a standby (R375, R380), one that it resynchronises among them (R383). -/
def Chip.mirrors (c : Chip) : Bool :=
  c.pairState = 3 || c.pairState = 4 || (c.pairState = 2 && c.rd Twin.resyncPhase ≠ 0)

/-- `TW_ADDR` of a master in a page (R491): its index and its increment bit. Each master has a space of its own. -/
def twIndex (m p : Nat) : Fld := ⟨2 + m, p, 0xF0, 0, 24, .rw, 0, .val 0, .val 0, 0, 1⟩
def twInc (m p : Nat) : Fld := ⟨2 + m, p, 0xF0, 31, 1, .rw, 0, .val 0, .val 0, 0, 1⟩
def twErr (m p : Nat) : Fld := ⟨2 + m, p, 0xF8, 0, 1, .w1c, 0, .val 0, .val 0, 0, 1⟩

/-- `DEV_TAB_WIN` and `DEV_SURF_WIN` of a master (R493, R494). -/
def tabWin (m : Nat) : Fld := ⟨2 + m, devPage, 0x60, 0, 16, .rw, 0, .val 0, .val 0, 0, 1⟩
def surfStack (m : Nat) : Fld := ⟨2 + m, devPage, 0x64, 0, 1, .rw, 0, .val 0, .val 0, 0, 1⟩
def surfSlice (m : Nat) : Fld := ⟨2 + m, devPage, 0x64, 1, 3, .rw, 0, .val 0, .val 0, 0, 1⟩

/-- Whether a master may write the field at bit `lo` of a word (R435). -/
def Chip.mayWrite (c : Chip) (m : Master) (p sp off lo : Nat) : Bool :=
  let ctrl := sp = 0 && off = 0x40
  match m with
  | .hk => true
  | .jtag => c.otp.debugEn
  | .host => !(ctrl && (p = cfabPage || (p = hostPage && lo = 0)))
  | .mspi => if p = cmdPage then c.on Mgmt.mspiCmd else c.on Mgmt.mspiWr && !(ctrl && (p = cfabPage || p = hostPage || p = mgmtPage))
  | .bi2c => p = cmdPage && c.on Mgmt.bi2cCmd
  | .twin => false

/-- Whether a write of `data` under the enabled bits `en` would change a field or write 1 to an action bit of it (R435). -/
def Chip.touches (c : Chip) (f : Fld) (data en : Nat) : Bool :=
  let e := en / 2 ^ f.lo % 2 ^ f.w
  let d := data / 2 ^ f.lo &&& e
  match f.acc with
  | .rw => d ≠ (c.rdAny f &&& e)
  | .w1c | .w1s => d ≠ 0
  | .wo => e ≠ 0
  | .ro | .rwl => false

/-- Count a denied write (R435). -/
def Chip.denied (c : Chip) (m : Master) : Chip :=
  match m with
  | .mspi => ({ c with host := { c.host with spiDenied := true } }.inc Mgmt.denyMspi).stick mgmtPage 2
  | .bi2c => (c.inc Mgmt.denyBi2c).stick mgmtPage 2
  | .host => (c.inc Cfab.denyHost).stick cfabPage 3
  | _ => (c.inc Cfab.denyOther).stick cfabPage 3

/-- The first debug transaction after a reset raises source `0xF8` (R456). -/
def Chip.debugOpen (c : Chip) (m : Master) : Chip :=
  if m = .jtag ∧ c.otp.debugEn ∧ !c.debugSeen then { c with debugSeen := true }.raise 0xF8 cfabPage 5 0 else c

/-- Whether a master can issue a transaction: none while a WARM reset holds the control plane (R473), and the debug port on a
part with its fuse alone (R456). -/
def Chip.masterRuns (c : Chip) (m : Master) : Bool := c.power.warm.isNone && (m ≠ .jtag || c.otp.debugEn)

/-- The place of a cell type in the order of R377: CONTROL and HEALTH, DIGEST, the sequenced cells, IDLE. -/
def cellRank (kind : Nat) : Nat :=
  match kind with
  | 5 | 6 => 0
  | 4 => 1
  | 0 => 3
  | _ => 2

/-- Whether cell `a` is sent before `b` that waits: by type, and sequenced cells by `SEQ` (R377). -/
def cellBefore (a b : Nat × Nat × List Nat) : Bool :=
  cellRank a.1 < cellRank b.1 ||
    (cellRank a.1 = 2 && cellRank b.1 = 2 && a.2.1 ≠ b.2.1 && (b.2.1 + 65536 - a.2.1) % 65536 < 32768)

/-- Put a cell in its place among those that wait; a sequenced cell that waits already is not put in again. -/
def putCell (a : Nat × Nat × List Nat) : List (Nat × Nat × List Nat) → List (Nat × Nat × List Nat)
  | [] => [a]
  | b :: r =>
    if cellRank a.1 = 2 ∧ cellRank b.1 = 2 ∧ a.2.1 = b.2.1 then b :: r
    else if cellBefore a b then a :: b :: r else b :: putCell a r

/-- A cell is given to LGTW (R377): while that group is UP it waits for its place in a group frame, else it is lost. -/
def Chip.cellOut (c : Chip) (kind seq : Nat) (ws : List Nat) : Chip :=
  let c := c.emit (.cell kind seq ws)
  if c.rd (Lgrp.state.on 32) = 6 then { c with twin := { c.twin with tx := putCell (kind, seq, ws) c.twin.tx } } else c

/-- W1 and W2 of a YIELD cell, after its `SUB` (R377, R390): the cause and the last `SEQ` sent. -/
def Chip.yieldWords (c : Chip) (cause : Nat) : List Nat := [3, cause, (c.mirrorSeq + 65535) % 65536]

/-! ## Boundaries (R25, R279, R379) -/

/-- The period length that the SCHED page gives (R279, R33): code 0 to 2; `PLEN` 3 is treated as 1. -/
def Chip.plenCode (c : Chip) : Nat :=
  if bit (c.rd Dev.compat) 3 then 2 else if c.rd Sched.plen = 3 then 1 else c.rd Sched.plen

/-- The code of the length that periods have now: a period in flight keeps the length with which it opened (R279, R285). -/
def Chip.periodCode (c : Chip) : Nat := (if c.aud.isOpen then c.aud.plen else none).getD c.plenCode

/-- Samples of a period (R279): 8, 16 or 32. -/
def Chip.periodLen (c : Chip) : Nat := 8 * 2 ^ c.periodCode

/-- Whether period boundaries run or a last one is still to come (R278). -/
def Chip.ticking (c : Chip) : Bool := c.enabled schedPage || c.sch.last

/-- The device rate in kHz (R279). -/
def Chip.rateKHz (c : Chip) : Nat := if c.on Sched.fs then 96 else 48

/-- The format an input is received in. -/
def Chip.inputFmt (c : Chip) (i : Nat) : Nat :=
  let m := c.rd (Vin.mfmt.nth i)
  if m ≠ 0xFF then m else c.rd (Vin.fmt.nth i).live

/-- The epochs from the present one to that of a new item (R379). -/
def Chip.leadEpochs (c : Chip) : Nat := max 4 (c.rd Twin.lead)

/-- The first period boundary after the mirror step boundary of a new item, as its AMC value (R379). Where the present superframe of
5.36 us stands is not in the model: DESIGN CHOICE (log entry 22), the lead counts from now in whole superframes. -/
def Chip.periodBidx (c : Chip) : Nat :=
  let n := c.amc + (c.leadEpochs * 536 * c.rateKHz + 99999) / 100000
  ((n / c.periodLen + 1) * c.periodLen) % 2 ^ 32

/-- The count of boundaries of the block that a mirrored word belongs to (R379), none where the AMC counts them. -/
def Chip.wordCount (c : Chip) (sp p off : Nat) : Option Nat :=
  if sp = 1 ∧ p = xptPage then some (Store.get 0 c.mer.genCnt (generatorOf (c.rd (Xpt.airFmt.nth (off / 4)))))
  else if p = xptPage then some (c.rd Xpt.frame)
  else if sp = 1 ∧ p = vinPage then some (Store.get 0 c.mer.genCnt (generatorOf (c.inputFmt (off / 8))))
  else if sp = 0 ∧ 0x80 ≤ p ∧ p ≤ 0xBF then some (c.rd (Cmp.picture.on (p - 0x80)))
  else none

/-- `BIDX` of a mirrored word that takes effect at a boundary (R379). DESIGN CHOICE (log entry 22): of boundaries that are not counted
by the AMC it is the next one, whose instant the model does not hold beside that of the mirror step boundary. -/
def Chip.wordBidx (c : Chip) (sp p off : Nat) : Nat := ((c.wordCount sp p off).map (fun n => (n + 1) % 2 ^ 32)).getD c.periodBidx

/-! ## Sending -/

/-- Whether the replay buffer holds its 8,192 cells (R378), or cells wait for room in it already. -/
def Chip.replayFull (c : Chip) : Bool := decide (8192 ≤ c.replay.length) || !c.mirrorWait.isEmpty

/-- Queue an item for its epoch, keep its cell for replay, and send it (R377 to R379). -/
def Chip.sendItem (c : Chip) (it : MirrorItem) (kind : Nat) (ws : List Nat) : Chip :=
  let c := { c with mirrorQ := c.mirrorQ ++ [it], mirrorSeq := (c.mirrorSeq + 1) % 65536, replay := c.replay ++ [(it.seq, kind, ws)] }
  (c.cellOut kind it.seq ws).wr Twin.queued c.replay.length

/-- Send one cell of copied content (R377, R383): it takes a sequence number and waits to be acknowledged, and has no epoch. -/
def Chip.putCopy (c : Chip) (kind : Nat) (ws : List Nat) : Chip :=
  let q := c.mirrorSeq
  let c := { c with mirrorSeq := (q + 1) % 65536, replay := c.replay ++ [(q, kind, ws)] }
  (c.cellOut kind q ws).wr Twin.queued c.replay.length

/-- Send it now, or when the replay buffer has room (R378). -/
def Chip.sendCell (c : Chip) (kind : Nat) (ws : List Nat) : Chip :=
  if c.replayFull then { c with mirrorWait := c.mirrorWait ++ [⟨0, 0, 4, 0, kind, 0, 0, 0, 0, ws⟩] } else c.putCopy kind ws

/-- The epoch of a new item (R379). -/
def Chip.nextEpoch (c : Chip) : Nat := (c.rd Twin.epoch + c.leadEpochs) % 2 ^ 32

/-- Whether a mirrored word takes effect at a boundary that `BIDX` names (R379): gain words and mix outputs, output
configurations and `XPT_CTRL`, the input descriptors, output formats of composers, trackers and channels of the converters. -/
def boundaryWord (sp p off : Nat) : Bool :=
  (sp = 2 && off < 0x02000000) || (sp = 1 && (p = mixPage || p = asrcPage || (p = xptPage && off < 4608) || p = vinPage)) ||
    (sp = 0 && ((p = xptPage && off = 0x40) || (0x80 ≤ p && p ≤ 0xBF && (off = 0x44 || off = 0x48))))

/-- A mirrored word write of master number `m` is queued for its epoch and sent (R377 to R380). -/
def Chip.queueMirror (c : Chip) (m sp p off data be : Nat) : Chip :=
  let e := c.nextEpoch
  let b := if boundaryWord sp p off then c.wordBidx sp p off else 0xFFFFFFFF
  c.sendItem ⟨e, c.mirrorSeq, sp, p, off, data, be, b, m, []⟩ 1 [e, sp + 16 * be + 256 * p, off, data, b, m]

/-- A decision is queued for its epoch on both devices and sent as a DECISION cell (R381); `ws` holds W4 to W7. -/
def Chip.queueDecision (c : Chip) (kind page bidx : Nat) (ws : List Nat) : Chip :=
  let e := c.nextEpoch
  c.sendItem ⟨e, c.mirrorSeq, 3, page, kind, 0, 0, bidx, 0, ws⟩ 3 ([e, kind + 256 * page, bidx] ++ ws)

/-- What has waited for room goes out (R378, R379). -/
def Chip.queueWaiting (c : Chip) (i : MirrorItem) : Chip :=
  match i.space with
  | 3 => c.queueDecision i.off i.page i.bidx i.payload
  | 4 => c.putCopy i.off i.payload
  | _ => c.queueMirror i.master i.space i.page i.off i.data i.be

/-- Send a mirrored word write to the standby (R378, R380); while the replay buffer holds its 8,192 cells the write waits, and its response
with it. -/
def Chip.mirrorWrite (c : Chip) (m : Master) (sp p off data be : Nat) : Chip :=
  if c.replayFull then
    { c with mirrorWait := c.mirrorWait ++ [⟨0, 0, sp, p, off, data, be, 0, masterNum m, []⟩], resp := .withheld }
  else c.queueMirror (masterNum m) sp p off data be

/-- The transactions of `f`, master and ID, that have been served, after `n` others of `f` have been answered: those that wait on, and
those whose responses return now, in the order of their issue (R433). -/
def servedAfter (f : Nat × Nat) : Nat → List Served → List Served × List Served
  | _, [] => ([], [])
  | n, x :: r =>
    if (x.master, x.id) ≠ f then
      let t := servedAfter f n r
      (x :: t.1, t.2)
    else if x.ahead ≤ n then
      let t := servedAfter f (n + 1) r
      (t.1, x :: t.2)
    else
      let t := servedAfter f n r
      ({ x with ahead := x.ahead - n } :: t.1, t.2)

/-- A response to one transaction in flight returns. -/
def Chip.oneResponse (c : Chip) (f : Nat × Nat) (r : Resp) (data : List Nat) : Chip :=
  ({ c with resp := r, rdata := data }.emit (.response f.1 f.2 r data)).setFlight (c.inFlight.erase f)

/-- The response of a transaction in flight returns, and with it those of the later ones with its master and ID that have been served
(R217, R378, R433). -/
def Chip.returnFlight (c : Chip) (f : Nat × Nat) (r : Resp) : Chip :=
  if c.inFlight.contains f then
    let t := servedAfter f 1 c.served
    t.2.foldl (fun c x => c.oneResponse f x.resp x.data) ({ c with served := t.1 }.oneResponse f r [])
  else c

/-- The write that waited is done, and its response returns, unless its transaction has ended before. -/
def Chip.answerFlight (c : Chip) (f : Nat × Nat) : Chip :=
  if c.silent.contains f then { c with silent := c.silent.erase f } else c.returnFlight f .okay

/-- The responses of the transactions that end with waiting writes return (R378). -/
def Chip.answerWaits (c : Chip) (l : List MirrorItem) : Chip :=
  (l.filter (fun i => i.space < 3)).foldl (fun c i => i.payload.foldl (fun c id => c.answerFlight (i.master, id)) c) c

/-- The waiting write that was made last is the last one of a transaction. -/
def Chip.waitFlight (c : Chip) (id : Nat) : Chip :=
  { c with mirrorWait := c.mirrorWait.dropLast ++ (c.mirrorWait.drop (c.mirrorWait.length - 1)).map (fun i => { i with payload := [id] }) }

/-- Room has been made in the replay buffer: what waits is queued, oldest first, and the responses of writes return (R378). -/
def Chip.mirrorRoom (c : Chip) : Chip :=
  let n := 8192 - c.replay.length
  if n = 0 ∨ c.mirrorWait.isEmpty then c
  else
    let done := c.mirrorWait.take n
    (done.foldl Chip.queueWaiting { c with mirrorWait := c.mirrorWait.drop n }).answerWaits done

/-- No mate is to be told any more: writes and decisions that wait are queued for their epoch on this device alone. -/
def Chip.mirrorAlone (c : Chip) : Chip :=
  if c.mirrorWait.isEmpty then c
  else
    let items := (c.mirrorWait.filter (fun i => i.space ≠ 4)).map (fun i =>
      if i.space = 3 then { i with epoch := c.nextEpoch } else { i with epoch := c.nextEpoch, bidx := 0xFFFFFFFF, payload := [] })
    { c with mirrorQ := c.mirrorQ ++ items, mirrorWait := [] }.answerWaits c.mirrorWait

/-- A device that yields or resynchronises takes the writes that wait as writes on a standby (R380, R390). -/
def Chip.mirrorDrop (c : Chip) : Chip :=
  let c1 := { c with mirrorWait := [] }.answerWaits c.mirrorWait
  if c.mirrorWait.any (fun i => decide (i.space < 3)) then c1.stick twinPage 10 else c1

/-- A decision of the active device (R381): with a standby to tell, it is queued for its epoch on both devices and sent as a
DECISION cell; else it takes effect now. `ws` holds W4 to W7. -/
def Chip.decision (c : Chip) (kind page bidx : Nat) (ws : List Nat) (now : Chip → Chip) : Chip :=
  if !c.mirrors then now c
  else if c.replayFull then { c with mirrorWait := c.mirrorWait ++ [⟨0, 0, 3, page, kind, 0, 0, bidx, 0, ws⟩] }
  else c.queueDecision kind page bidx ws

/-- A write by a master to words of a page (R380, R435): denied, ignored on a standby, sent to the standby, or done now. -/
def Chip.guardedWords (c : Chip) (m : Master) (sp p lo : Nat) (ws : List (Nat × Nat)) (mirrored : Bool) (f : Chip → Chip) : Chip :=
  let c := c.debugOpen m
  if !c.masterRuns m then c
  else if !(ws.all (fun w => c.mayWrite m p sp w.1 lo)) then
    (if ws.any (fun w => (wordFields p sp w.1).any (fun f => c.touches f w.2 (2 ^ 32 - 1))) then c.denied m else c)
  else if mirrored && c.ignoresMirrored then c.stick twinPage 10
  else if mirrored && c.mirrors then ws.foldl (fun c w => c.mirrorWrite m sp p w.1 w.2 15) c
  else f c

/-- The same for one word. -/
def Chip.guarded (c : Chip) (m : Master) (sp p off data : Nat) (mirrored : Bool) (f : Chip → Chip) : Chip :=
  c.guardedWords m sp p 1 [(off, data)] mirrored f

/-- A write of 1 to an action bit of a page by a master. -/
def Chip.trigger (c : Chip) (m : Master) (p off lo : Nat) (mirrored : Bool) (f : Chip → Chip) : Chip :=
  c.guardedWords m 0 p lo [(off, c.rwWord p 0 off + 2 ^ lo)] mirrored f

/-- Write the RW fields of one word; `mask` tells which bits the byte enables let through. -/
def Chip.putRw (c : Chip) (p sp off data mask : Nat) : Chip :=
  (wordFields p sp off).foldl (fun c f =>
    if f.acc = .rw then
      let m := mask / 2 ^ f.lo % 2 ^ f.w
      c.wrAny f ((data / 2 ^ f.lo % 2 ^ f.w &&& m) ||| (c.rdAny f &&& (2 ^ f.w - 1 - m)))
    else c) c

/-- All 32 bits of a word. -/
def allBits : Nat := 2 ^ 32 - 1

end Sys2Proof.Machine
end

