-- ==== Sys2Proof/Machine/LineOps.lean ====
section
/-! DEFINITION. How a video line is made up (R71, R74, R77): timing reference words, line numbers, CRCs, payload ID and ANC packets.
The layouts are those of the SMPTE standards that the spec names (PRESUMED, log entries 13 and 15). -/

namespace Sys2Proof.Machine

/-! ## Where the picture stands -/

/-- The first line that carries picture, per field (log entry 15). -/
def firstActive (fmt : Nat) (f2 : Bool) : Nat :=
  match rasterOf fmt with
  | 0 => if f2 then 283 else 21
  | 1 => if f2 then 336 else 23
  | 2 => 26
  | 3 => if f2 then 584 else 21
  | 4 | 5 | 6 => 42
  | _ => 83

/-- Lines of picture in one picture: a frame, or a field of an interlaced format. -/
def pictureRows (fmt : Nat) : Nat := if interlaced fmt then activeLines fmt / 2 else activeLines fmt

/-- The field and the picture row that a line carries. -/
def activeRow (fmt line : Nat) : Option (Bool × Nat) :=
  let n := pictureRows fmt
  let a := firstActive fmt false
  let b := firstActive fmt true
  if a ≤ line ∧ line < a + n then some (false, line - a)
  else if interlaced fmt ∧ b ≤ line ∧ line < b + n then some (true, line - b) else none

/-- The last line of a frame that carries picture (R86). -/
def lastActive (fmt : Nat) : Nat := firstActive fmt (interlaced fmt) + pictureRows fmt - 1

/-- Whether a line belongs to the second field (log entry 15). -/
def secondField (fmt line : Nat) : Bool :=
  match rasterOf fmt with
  | 0 => decide (266 ≤ line) || decide (line ≤ 3)
  | 1 => decide (313 ≤ line)
  | 3 => decide (564 ≤ line)
  | _ => false

/-- Whether a line begins a field, or a progressive frame. -/
def fieldStart (fmt line : Nat) : Bool :=
  if interlaced fmt then secondField fmt line != secondField fmt (if line = 1 then totalLines fmt else line - 1) else line = 1

/-- The word of a line of blanking: Y 64, chroma 512. -/
def blankWord (k : Nat) : Nat := if k % 2 = 0 then 512 else 64

/-! ## Streams -/

/-- The words at even places of a list. -/
def evens : List Nat → List Nat
  | a :: _ :: r => a :: evens r
  | [a] => [a]
  | [] => []

/-- The words at odd places of a list. -/
def odds : List Nat → List Nat
  | _ :: b :: r => b :: odds r
  | _ => []

/-- Two streams side by side again. -/
def interleave : List Nat → List Nat → List Nat
  | a :: r, b :: q => a :: b :: interleave r q
  | r, [] => r
  | [], q => q

/-! ## Words of the line structure -/

/-- Nine bits with the complement of bit 8 above them. -/
def notB8 (v : Nat) : Nat := v % 512 + (if v.testBit 8 then 0 else 512)

/-- The word XYZ with its protection bits: second field, blanking, EAV. -/
def xyz (f v h : Bool) : Nat :=
  512 + 256 * b2n f + 128 * b2n v + 64 * b2n h + 32 * b2n (v != h) + 16 * b2n (f != h) + 8 * b2n (f != v) + 4 * b2n ((f != v) != h)

/-- A timing reference. -/
def trs (f v h : Bool) : List Nat := [0x3FF, 0, 0, xyz f v h]

/-- The two line number words. -/
def lineNumber (line : Nat) : List Nat := [notB8 (line % 128 * 4), notB8 (line / 128 % 32 * 4)]

/-- The CRC-18 of a data stream (R74): generator x^18 + x^5 + x^4 + 1, words least significant bit first, register 0 at the
start. -/
def streamCrc (ws : List Nat) : Nat := reverseBits 18 (crcBits 18 0x31 0 (ws.flatMap (bitsLsb 10)))

/-- An eight-bit value with even parity in bit 8 and its complement in bit 9. -/
def udw (v : Nat) : Nat := notB8 (v % 256 + 256 * b2n ((bitsLsb 8 v).foldl (fun a b => a != b) false))

/-- An ANC packet of data identifier words and user data words. -/
def ancPacketWords (did sdid : Nat) (data : List Nat) : List Nat :=
  let body := udw did :: udw sdid :: udw data.length :: data
  [0, 0x3FF, 0x3FF] ++ body ++ [notB8 ((body.map (· % 512)).foldl (· + ·) 0)]

/-- The ST 352 payload ID of a format and a colorimetry code, byte 1 lowest. -/
def payloadId (fmt clr : Nat) : Nat :=
  let r := rasterOf fmt
  let b1 := if r ≤ 1 then 0x81 else if r = 2 then 0x84 else if r ≤ 4 then 0x85 else if r ≤ 6 then 0x89 else if r = 7 then 0xC0
    else if r = 8 then 0xCE else 0xD1
  let rate := fun t => match t with | 0 => 2 | 1 => 3 | 2 => 5 | 3 => 6 | 4 => 7 | 5 => 9 | 6 => 10 | _ => 11
  let t := rateOf fmt
  let b2 := if interlaced fmt then rate (t - 3) else 0xC0 + rate t
  let tr := if clr = 2 then 1 else if clr = 3 then 2 else 0
  let col := if clr = 0 ∨ clr = 4 then 0 else if clr ≤ 3 then 2 else 3
  b1 + 256 * (b2 + 16 * tr) + 65536 * (16 * col + (if activeWidth fmt = 1920 then 64 else 0)) + 2 ^ 24

/-- The lines that carry the payload ID. -/
def payloadIdLine (fmt line : Nat) : Bool :=
  match rasterOf fmt with
  | 0 => line = 13 || line = 276
  | 1 => line = 9 || line = 322
  | 3 => line = 10 || line = 572
  | _ => line = 10

/-- The payload ID packet of a line, on the lines that carry one. -/
def payloadIdWords (fmt line pid : Nat) : List Nat :=
  if payloadIdLine fmt line then ancPacketWords 0x41 1 ((List.range 4).map (fun k => udw (pid / 256 ^ k))) else []

/-! ## Whole lines -/

/-- The CRC words of stream `s` after the line before it, `prev`: over the active part before, EAV and the line number. -/
def crcWords (aw : Nat) (prev s : List Nat) : List Nat :=
  let c := streamCrc (prev.drop (prev.length - aw) ++ s.take 6)
  [notB8 (c % 512), notB8 (c / 512)]

/-- A line with its CRCs formed anew (R75, R77): rasters 2 to 9, both data streams. -/
def setCrc (fmt : Nat) (prev ws : List Nat) : List Nat :=
  if rasterOf fmt ≤ 1 then ws
  else
    let one := fun (sel : List Nat → List Nat) =>
      let s := sel ws
      s.take 6 ++ crcWords (activeWidth fmt) (sel prev) s ++ s.drop 8
    interleave (one evens) (one odds)

/-- A stream of `n` words: its header, ANC from there on, blanking, SAV and the active words. -/
def streamLine (n : Nat) (head anc sav act : List Nat) (blank : Nat → Nat) : List Nat :=
  let pad := n - head.length - sav.length - act.length
  head ++ (anc.take pad ++ (List.range (pad - anc.length)).map blank) ++ sav ++ act

/-- A whole line of a format (R77): TRS, line number, CRC, ANC words in the luma stream, blanking, and active words, which
stand at blanking where none are given. -/
def buildLine (fmt line : Nat) (f2 : Bool) (prev anc act : List Nat) : List Nat :=
  let n := wordsPerLine fmt
  let v := (activeRow fmt line).isNone
  let full := 2 * activeWidth fmt
  let act := act ++ (List.range (full - act.length)).map (fun k => blankWord (act.length + k))
  let eav := trs f2 v true
  let sav := trs f2 v false
  if rasterOf fmt ≤ 1 then streamLine n eav anc sav act blankWord
  else
    let head := eav ++ lineNumber line ++ [0, 0]
    setCrc fmt prev (interleave (streamLine (n / 2) head [] sav (evens act) (fun _ => 512))
      (streamLine (n / 2) head anc sav (odds act) (fun _ => 64)))

/-- A line in a place of its own in the raster (R74): timing references, number and CRC are formed anew. -/
def replaceLine (fmt line : Nat) (f2 : Bool) (prev ws : List Nat) : List Nat :=
  let v := (activeRow fmt line).isNone
  let aw := activeWidth fmt
  let one := fun (s : List Nat) =>
    let s := trs f2 v true ++ lineNumber line ++ s.drop 6
    s.take (s.length - aw - 4) ++ trs f2 v false ++ s.drop (s.length - aw)
  setCrc fmt prev (interleave (one (evens ws)) (one (odds ws)))

/-- The two level A lines of a level B-DL line (R74): its links stand word by word beside each other, link A carries the
earlier line. -/
def levelALines (k : Nat) : Nat × Nat := ((2 * k + 1124) % 1125 + 1, (2 * k) % 1125 + 1)

end Sys2Proof.Machine
end

