-- ==== Sys2Proof/Machine/VideoOps.lean ====
section
/-! DEFINITION. Shared operations over inputs, banks and synchronisers (R73, R82, R85, R88): every state change of an input
goes through `Chip.setInput`. -/

namespace Sys2Proof.Machine

namespace InSt
def unbound : Nat := 0
def lost : Nat := 1
def acquiring : Nat := 2
def timed : Nat := 3
def untimed : Nat := 4
def synced : Nat := 5
def fmtErr : Nat := 6
def bindErr : Nat := 7
end InSt

/-- What an input carries on. -/
def Chip.input (c : Chip) (i : Nat) : Input := Store.get {} c.vin i

/-- Change what an input carries on. -/
def Chip.updInput (c : Chip) (i : Nat) (f : Input → Input) : Chip := { c with vin := Store.upd {} c.vin i f }

/-- The state behind `BIND_ERR` (R73): what the source carries follows it. -/
def Chip.inputSt (c : Chip) (i : Nat) : Nat := (c.input i).st

/-- Synchroniser `n`. -/
def Chip.sync (c : Chip) (n : Nat) : Sync := Store.get {} c.syncs n

/-- Change synchroniser `n`. -/
def Chip.updSync (c : Chip) (n : Nat) (f : Sync → Sync) : Chip := { c with syncs := Store.upd {} c.syncs n f }

/-- The bank of source `s`. -/
def Chip.bank (c : Chip) (s : Nat) : Bank := Store.get {} c.banks s

/-- The pictures of a bank with one line more: line 1 or a change of field begins a picture (R128). -/
def addPicLine (l : BankLine) : List (Nat × List BankLine) → List (Nat × List BankLine)
  | [] => [(1, [l])]
  | (n, ls) :: r =>
    if l.line = 1 ∨ (ls.head?.map BankLine.f2).getD l.f2 ≠ l.f2 then ((n + 1, [l]) :: (n, ls) :: r).take 4
    else (n, l :: ls) :: r

/-- Write a line into a bank: five lines of the source's format are held (R82). -/
def Chip.bankLine (c : Chip) (s : Nat) (l : BankLine) : Chip :=
  { c with
    poisoned := c.poisoned.filter (fun q => !(q.1 = 5 && q.2.1 = s))
    banks := Store.upd {} c.banks s (fun b => { b with lines := (l :: b.lines).take 5, pics := addPicLine l b.pics }) }

/-- The state that descriptor word 4 shows (R73). -/
def Chip.shownSt (c : Chip) (i : Nat) : Nat := if (c.input i).bindErr then InSt.bindErr else (c.input i).st

/-- The VIN_STATUS count of a state (R93). -/
def inputCount (st : Nat) : Option Fld :=
  if st = InSt.timed then some Vin.nTimed else if st = InSt.lost then some Vin.nLost
  else if st = InSt.synced then some Vin.nSynced else none

/-- Count one input more or fewer in a state. -/
def Chip.countInput (c : Chip) (st : Nat) (up : Bool) : Chip :=
  match inputCount st with
  | some f => c.wr f (if up then c.rd f + 1 else c.rd f - 1)
  | none => c

/-- Change what an input carries on, and let the shown state and the counts of VIN_STATUS follow. -/
def Chip.restate (c : Chip) (i : Nat) (f : Input → Input) : Chip :=
  let old := c.shownSt i
  let c := c.updInput i f
  let new := c.shownSt i
  let c := if i < 1152 ∧ old ≠ new then (c.countInput old false).countInput new true else c
  c.wr (Vin.state.nth i) new

/-- Free synchronisers and free pool synchronisers (R96). -/
def Chip.countSyncs (c : Chip) (n : Nat) (attach : Bool) : Chip :=
  let p := c.rd (Fsync.pool.nth n)
  let c := if attach then (c.wr Fsync.nFree (c.rd Fsync.nFree - 1)).wr Fsync.poolFree (c.rd Fsync.poolFree - p)
    else (c.wr Fsync.nFree (c.rd Fsync.nFree + 1)).wr Fsync.poolFree (c.rd Fsync.poolFree + p)
  c.stick fsyncPage 3

/-- Attach synchroniser `n` to input `i` (R85). -/
def Chip.attachSync (c : Chip) (n i : Nat) (locked : Bool) : Chip :=
  let c := (((c.wr (Fsync.input.nth n) i).wr (Fsync.state.nth n) 1).wr (Fsync.locked.nth n) (b2n locked)).countSyncs n true
  (c.updSync n (fun _ => { fmt := c.rd (Vin.mfmt.nth i) })).updInput i (fun x => { x with sync := some n })

/-- Release the synchroniser of input `i` (R85). -/
def Chip.releaseSync (c : Chip) (i : Nat) : Chip :=
  match (c.input i).sync with
  | none => c
  | some n =>
    let c := (((c.wr (Fsync.input.nth n) 0x7FF).wr (Fsync.state.nth n) 0).wr (Fsync.locked.nth n) 0).countSyncs n false
    (c.updSync n (fun _ => {})).updInput i (fun x => { x with sync := none })

/-- The synchroniser of an input that enters `LOST` acts by `LOSS_ACT` (R88). The frame in writing is given up, and so are the lines that
a `LOCKED` one had still to read; it reads its last complete frame from now on. -/
def Chip.syncLoss (c : Chip) (i : Nat) : Chip :=
  match (c.input i).sync with
  | none => c
  | some n =>
    let locked := c.on (Fsync.locked.nth n)
    (c.wr (Fsync.state.nth n) 3).updSync n (fun s =>
      { s with lost := true, frozen := 0, black := false, writing := [], ring := [], readPos := none,
               reading := if locked then s.complete else s.reading })

/-- Put an input into a state (R73). Entering `LOST` from an acquired state raises source `0x32`, and the synchroniser takes
its loss action; the measured format is none while nothing is received. DEDUCED (log entry 12): the acquired states are `TIMED` to
`FMT_ERR`, codes 3 to 6. -/
def Chip.setInput (c : Chip) (i st : Nat) : Chip :=
  let old := c.inputSt i
  if old = st then c
  else
    let c := c.restate i (fun x => { x with st := st, noEav := 0, inRun := 0, outRun := 0, reRun := 0,
                                             acqRun := if st ≤ InSt.acquiring then 0 else x.acqRun,
                                             measured := x.measured && decide (InSt.lost < st),
                                             edhOk := x.edhOk && decide (InSt.acquiring < st) })
    let c := if st = InSt.lost ∧ 3 ≤ old ∧ old ≤ 6 then (c.raise 0x32 vinPage i 0).stick vinPage 2 else c
    let c := if st ≤ InSt.lost then c.wr (Vin.mfmt.nth i) 0xFF else c
    let c := if st = InSt.lost ∧ 2 ≤ old then c.syncLoss i else c
    if st = InSt.unbound then c.releaseSync i else c

/-- Every input bound to lane group `g` is lost while the group is not UP (R60, R73). -/
def Chip.loseGroup (c : Chip) (g : Nat) : Chip :=
  (c.vin.map Prod.fst).foldl (fun c i =>
    if 2 ≤ c.inputSt i ∧ c.inputSt i ≤ 6 ∧ c.rd (Vin.transport.nth i).live = 1 ∧ c.rd (Vin.group.nth i).live = g then
      c.setInput i InSt.lost else c) c

end Sys2Proof.Machine
end

