-- ==== Sys2Proof/Machine/Binding.lean ====
section
/-! DEFINITION. Binding of inputs (R72, R76, R80, R85): how a configuration is judged and takes effect. -/

namespace Sys2Proof.Machine

/-- Words of a line of a packet input in the merge region (R80): twice the active width for ST 2110-20, the total words for
ST 2022-6. With `FMT` 0xFF the measured format counts, before that the widest line (log entry 12). -/
def Chip.mergeWords (c : Chip) (i fmt : Nat) : Nat :=
  if c.on (Vpkt.pkind.nth i) then
    let f := if fmt = 0xFF then c.rd (Vin.mfmt.nth i) else fmt
    if f = 0xFF then 11000 else wordsPerLine f
  else 2 * activeWidth fmt

/-- Bytes of the merge region for a line width and a window (R80). -/
def mergeBytes (words win : Nat) : Nat := 64 * ((words * 10 + 511) / 512) * (win + 4)

/-- `WIN` as it acts: 0 is treated as 1 (R95). -/
def Chip.winOf (c : Chip) (i : Nat) : Nat := orElse0 (c.rd (Vpkt.win.nth i)) 1

/-- The merge buffer of an input. -/
def Chip.merge (c : Chip) (i : Nat) : Merge := Store.get {} c.merges i
def Chip.updMerge (c : Chip) (i : Nat) (f : Merge → Merge) : Chip := { c with merges := Store.upd {} c.merges i f }

/-- Bytes of a stack's merge region in use by the inputs other than `i`: 0 to 575 on stack 0, the rest on stack 1 (R80). -/
def Chip.mergeUsed (c : Chip) (i : Nat) : Nat :=
  (c.merges.filter (fun p => p.1 ≠ i && (p.1 < 576) == (i < 576))).foldl (fun a p => a + p.2.bytes) 0

/-- Show the use of both stacks in units of 64 KiB (R95). DESIGN CHOICE (log entry 12): a unit in part use counts whole. -/
def Chip.showPool (c : Chip) : Chip :=
  let used := fun lo => (c.merges.filter (fun p => (p.1 < 576) == lo)).foldl (fun a p => a + p.2.bytes) 0
  (c.wr (Vpkt.poolUsed.nth 0) ((used true + 65535) / 65536)).wr (Vpkt.poolUsed.nth 1) ((used false + 65535) / 65536)

/-- Whether another input is bound to the group and SSID that input `i`'s stored words name (R72). -/
def Chip.ssidTaken (c : Chip) (i : Nat) : Bool :=
  c.vin.any (fun p => p.1 ≠ i && c.rd (Vin.transport.nth p.1).live = 1 &&
    c.rd (Vin.group.nth p.1).live = c.rd (Vin.group.nth i) && c.rd (Vin.ssid.nth p.1).live = c.rd (Vin.ssid.nth i))

/-- The bonding rules of R76, judged on the stored words of `i` against the other descriptors in force. -/
def Chip.bondBroken (c : Chip) (i : Nat) : Bool :=
  let q := i - i % 4
  let differs := fun j => c.rd (Vin.fmt.nth j).live ≠ c.rd (Vin.fmt.nth i) || c.rd (Vin.sqd.nth j).live ≠ c.rd (Vin.sqd.nth i)
  if i % 4 ≠ 0 then c.on (Vin.bond.nth i) || (c.on (Vin.bond.nth q).live && differs q)
  else c.on (Vin.bond.nth i) &&
    (rasterOf (c.rd (Vin.fmt.nth i)) ≠ 9 ||
     [q + 1, q + 2, q + 3].any (fun j => c.rd (Vin.transport.nth j).live ≠ 0 && differs j))

/-- A verdict that has been decided and waits for its frame start on both devices (R89): it attaches a synchroniser to an input. -/
def MirrorItem.attaches (i : MirrorItem) : Option (Nat × Nat) :=
  let w := i.payload.headD 0
  if i.space = 3 ∧ i.off = 1 ∧ w / 2048 % 4 = 2 then some (w / 65536 % 256, w % 2048) else none

/-- The synchronisers that verdicts on their way attach, with their inputs. -/
def Chip.promised (c : Chip) : List (Nat × Nat) := (c.mirrorWait ++ c.mirrorQ ++ c.twin.due).filterMap MirrorItem.attaches

/-- The input that synchroniser `n` is attached to, or will be by a verdict on its way (R85); 0x7FF for a free one. -/
def Chip.syncHolder (c : Chip) (n : Nat) : Nat :=
  if c.rd (Fsync.input.nth n) ≠ 0x7FF then c.rd (Fsync.input.nth n)
  else ((c.promised.find? (fun p => p.1 = n)).map Prod.snd).getD 0x7FF

/-- The synchroniser rules of R85: a named one that is in the pool or attached elsewhere, or `LOCKED` on a lane input. -/
def Chip.syncRefused (c : Chip) (i : Nat) : Bool :=
  let mode := c.rd (Vin.fsMode.nth i)
  let n := c.rd (Vin.fsIdx.nth i)
  let at_ := c.syncHolder n
  (mode = 1 || mode = 3) && (c.on (Fsync.pool.nth n) || (at_ ≠ 0x7FF && at_ ≠ i) || (mode = 3 && c.rd (Vin.transport.nth i) ≠ 2))

/-- The code of `VIN_BIND_ERR` under which the stored words of `i` are rejected; 0 when they are accepted (R72, R93). DESIGN CHOICE
(log entry 12): of several faults the first in the order of R72 is recorded, the synchroniser last. -/
def Chip.bindCode (c : Chip) (i : Nat) : Nat :=
  let t := c.rd (Vin.transport.nth i)
  let fmt := c.rd (Vin.fmt.nth i)
  if t = 3 then 6
  else if t = 0 then 0
  else if t = 1 ∧ c.ssidTaken i then 1
  else if (if fmt = 0xFF then decide (t = 2) && !c.on (Vpkt.pkind.nth i) else !validFmt fmt) then 2
  else if c.bondBroken i then 3
  else if t = 2 ∧ 2 ^ 31 < c.mergeUsed i + mergeBytes (c.mergeWords i fmt) (c.winOf i) then 4
  else if c.syncRefused i then 5
  else 0

/-- A configuration of input `i` is rejected (R72): `STATE` reads `BIND_ERR`, and source `0x3B` (with `0x3A` for the merge pool) is
raised. -/
def Chip.rejectInput (c : Chip) (i code : Nat) : Chip :=
  let c := (c.raise 0x3B vinPage i 0).stick vinPage 9
  let c := ((c.wr Vin.errInput i).wr Vin.errCode code).wr Vin.errValid 1
  let c := if code = 4 then (c.raise 0x3A vpktPage i 0).stick vpktPage 3 else c
  c.restate i (fun x => { x with bindErr := true, waiting := false })

/-- A write of an input's configuration words (R72): checked and stored, or rejected, the descriptor keeping its words. -/
def Chip.writeDescriptor (c : Chip) (i w0 w1 : Nat) : Chip :=
  let n := (c.putRw vinPage 1 (8 * i) w0 allBits).putRw vinPage 1 (8 * i + 1) w1 allBits
  let code := n.bindCode i
  if code = 0 then n.restate i (fun x => { x with bindErr := false, waiting := true }) else c.rejectInput i code

/-! ## Verdicts -/

/-- A timed input becomes `UNTIMED`, as source `0x40` (R81). -/
def Chip.goUntimed (c : Chip) (i : Nat) : Chip :=
  if c.inputSt i = InSt.untimed then c else ((c.raise 0x40 vinPage i 0).stick vinPage 7).setInput i InSt.untimed

/-- Advance the reader of a synchroniser (R86): 0 repeats the frame being read, 1 takes the frame after it, more pass frames
over, to the newest that was written `GUARD` lines ago. The first frame read is the newest, with 2 the one before it. -/
def Chip.syncAdvance (c : Chip) (n adv : Nat) : Chip :=
  let inst := c.rd (Fsync.input.nth n)
  let y := c.sync n
  let first := y.readFrame = 0
  if adv = 0 then
    if first then c else ((c.inc (Fsync.repeatCnt.nth n)).raiseNote 0x42 fsyncPage n inst).stick fsyncPage 0
  else
    let ready := if c.rd Fsync.guard ≤ y.since then y.newest else y.newest - 1
    let target := if first then y.newest + 1 - adv else if adv = 1 then y.readFrame + 1 else max (y.readFrame + adv) ready
    let c := c.updSync n (fun s => { s with readFrame := target, reading := if target + 1 = s.newest then s.prior else s.complete })
    let c := c.wr (Fsync.state.nth n) 2
    if adv = 1 ∨ first then c
    else ((c.addSat (Fsync.dropCnt.nth n) (target - y.readFrame - 1)).raiseNote 0x42 fsyncPage n inst).stick fsyncPage 0

/-- Apply a verdict (R81, R85, R89): 0 `TIMED`, 1 `UNTIMED`, 2 `SYNCED` with synchroniser `n`, attached if it is not yet, 3 the
read-frame advance of synchroniser `n`. The bank of an input that becomes timed starts from its ε (R83). -/
def Chip.applyVerdict (c : Chip) (i v n adv : Nat) : Chip :=
  match v with
  | 0 =>
    let c := (c.releaseSync i).setInput i InSt.timed
    { c with banks := Store.upd {} c.banks i (fun b => { b with eps := c.rdS (Vin.eps.nth i) }) }
  | 1 => c.goUntimed i
  | 2 =>
    let locked := c.rd (Vin.fsMode.nth i).live = 3
    let fmt := c.rd (Vin.mfmt.nth i)
    let c := if (c.input i).sync = some n then
        let c := c.updSync n (fun s => if s.fmt = fmt then { s with lost := false, black := false } else { fmt := fmt })
        (c.wr (Fsync.state.nth n) (if (c.sync n).readFrame = 0 then 1 else 2)).wr (Fsync.locked.nth n) (b2n locked)
      else (c.releaseSync i).attachSync n i locked
    c.setInput i InSt.synced
  | _ => if (c.input i).sync = some n then c.syncAdvance n adv else c

/-- A verdict taken by this device: applied at once, or sent to the standby and applied with it (R89). A standby takes none. -/
def Chip.verdict (c : Chip) (i v n adv : Nat) : Chip :=
  if c.isStandby then c
  else
    let g := Store.get 0 c.mer.genCnt (generatorOf (c.inputFmt i))
    c.decision 1 vinPage (g + 1) [i + 2048 * v + 65536 * n, adv, 0, 0] (fun c => c.applyVerdict i v n adv)

/-- An acquired input is judged against its descriptor and its measured format (R75, R85). A synchroniser that another input
has taken since the write is a bind error (log entry 12). DESIGN CHOICE (log entry 12): an input whose `FS_MODE` changes from `FREE` or
`LOCKED` to `AUTO` while it is `SYNCED` keeps its synchroniser, in the pool or not, as the one that `AUTO` attached. -/
def Chip.judgeInput (c : Chip) (i : Nat) : Chip :=
  let fmt := c.rd (Vin.fmt.nth i).live
  let m := c.rd (Vin.mfmt.nth i)
  let mode := c.rd (Vin.fsMode.nth i).live
  let n := c.rd (Vin.fsIdx.nth i).live
  let holder := c.syncHolder n
  if fmt ≠ 0xFF ∧ fmt ≠ m then
    let c := if c.inputSt i = InSt.fmtErr then c else (c.raise 0x33 vinPage i 0).stick vinPage 3
    c.setInput i InSt.fmtErr
  else if mode = 1 ∨ mode = 3 then
    if holder ≠ 0x7FF ∧ holder ≠ i then c.rejectInput i 5 else c.verdict i 2 n 0
  else if mode = 2 ∧ (c.input i).sync.isSome then c.verdict i 2 ((c.input i).sync.getD 0) 0
  else
    let c := c.releaseSync i
    if c.inputSt i = InSt.synced ∨ c.inputSt i = InSt.fmtErr then c.setInput i InSt.acquiring else c

/-- A stored configuration takes effect (R72), judged against what is in force by now: another binding starts afresh, one that
keeps the binding of an acquired input is judged again. -/
def Chip.applyDescriptor (c : Chip) (i : Nat) : Chip :=
  if !(c.input i).waiting then c
  else if c.bindCode i ≠ 0 then c.rejectInput i (c.bindCode i)
  else
    let t := c.rd (Vin.transport.nth i)
    let same := t = c.rd (Vin.transport.nth i).live ∧
      (t ≠ 1 ∨ (c.rd (Vin.group.nth i) = c.rd (Vin.group.nth i).live ∧ c.rd (Vin.ssid.nth i) = c.rd (Vin.ssid.nth i).live))
    let c := (c.copyWords 1 vinPage (8 * i) (8 * i + 2) 9).updInput i (fun x => { x with waiting := false })
    let bytes := if t = 2 then mergeBytes (c.mergeWords i (c.rd (Vin.fmt.nth i))) (c.winOf i) else 0
    let c := (c.updMerge i (fun m => if bytes = 0 then {} else { m with bytes := bytes })).showPool
    if t = 0 then c.setInput i InSt.unbound
    else if same then (if 3 ≤ c.inputSt i ∧ c.inputSt i ≤ 6 then c.judgeInput i else c)
    else (c.releaseSync i).setInput i InSt.lost

/-- A write of a packet-input entry (R80, R95): on a bound input the merge region follows `WIN` and `PKIND`; a word that would take
its stack past 2 GiB is rejected and left as it was (log entry 12). -/
def Chip.vpktWrite (c : Chip) (off : Nat) (n : Chip) : Chip :=
  let i := off / 4
  if c.rd (Vin.transport.nth i).live ≠ 2 ∨ 2 ≤ off % 4 then n
  else
    let bytes := mergeBytes (n.mergeWords i (n.rd (Vin.fmt.nth i).live)) (n.winOf i)
    if 2 ^ 31 < n.mergeUsed i + bytes then c.rejectInput i 4
    else (n.updMerge i (fun m => { m with bytes := bytes })).showPool

end Sys2Proof.Machine
end

