-- ==== Sys2Proof/Machine/IngestOps.lean ====
section
/-! DEFINITION. Shared operations of ingest (R74 to R91): checks of a line, filling of lost words, ANC capture, the alignment
measurement, verdicts of the pair. -/

namespace Sys2Proof.Machine

/-- The CRC-18 of a received data stream (R74). -/
def lineCrc (ws : List (BitVec 10)) : Nat := streamCrc (ws.map BitVec.toNat)

/-- The syndrome of a line: the first data stream in error gives it, 0 when every stream checks. -/
def lineSyndrome (ss : List (List (BitVec 10) × BitVec 18)) : Nat :=
  (ss.map (fun p => lineCrc p.1 ^^^ p.2.toNat)).foldl (fun a x => if a ≠ 0 then a else x) 0

/-- Fill the lost words of a line with the co-sited words of the previous line of the same field (R75); with no previous line
the spec states no value, and each word is free (log entry 2). -/
def Chip.fillWords (c : Chip) (prev : Option (List Nat)) : Nat → List (Option (BitVec 10)) → List Nat × Chip
  | _, [] => ([], c)
  | k, some w :: r =>
    let q := c.fillWords prev (k + 1) r
    (w.toNat :: q.1, q.2)
  | k, none :: r =>
    let w := match prev with
      | some p => (p.getD k 0, c)
      | none => (c.fresh.1 % 1024, c.fresh.2)
    let q := w.2.fillWords prev (k + 1) r
    (w.1 :: q.1, q.2)

/-- The previous line of the same field in an input's bank. -/
def Chip.prevLine (c : Chip) (i : Nat) (f2 : Bool) : Option (List Nat) :=
  ((c.bank i).lines.find? (fun l => l.f2 = f2)).map (fun l => l.words)

/-- Write a line into the synchroniser of an input (R86): a frame is written from its line 1, or from a line above its picture when
it begins there, and its last active line completes it. A frame whose picture had begun before is not kept, and nothing is written
while the synchroniser gives its loss output (R88). -/
def Chip.syncWrite (c : Chip) (n fmt : Nat) (l : BankLine) : Chip :=
  c.updSync n (fun s =>
    let begins := l.line = 1 || (s.writing.isEmpty && l.line < firstActive fmt false)
    let now := if begins then [l] else if s.writing.isEmpty then [] else l :: s.writing
    if s.lost then s
    else if l.line = lastActive fmt ∧ fmt ≠ 0xFF ∧ !now.isEmpty then
      { s with newest := s.newest + 1, prior := s.complete, complete := now.reverse, writing := [], since := 0 }
    else { s with writing := now, since := s.since + 1 })

/-- Write a line into the bank of input `i` and into its synchroniser (R82, R86, R87), where it stands under its number in the flow; a
line of raster 6 is the half `half` of a received one. -/
def Chip.keepLine (c : Chip) (i : Nat) (l : BankLine) (half : Nat := 0) : Chip :=
  let fmt := c.inputFmt i
  let c := c.bankLine i l
  match (c.input i).sync with
  | some n => (c.syncWrite n fmt l).updSync n (fun s =>
      let k := (c.merge i).released - 1
      { s with ring := ((if rasterOf fmt = 6 then 2 * k + 1 + half else k, l) :: s.ring).take (3 * totalLines fmt) })
  | none => c

/-- The CRC of a line of input `i` is formed anew where words of it were lost (R75). -/
def Chip.repairLine (c : Chip) (i : Nat) (f2 : Bool) (ws : List (Option (BitVec 10))) : List Nat × Chip :=
  let prev := c.prevLine i f2
  let q := c.fillWords prev 0 ws
  (if ws.any Option.isNone then setCrc (c.inputFmt i) (((c.bank i).lines.head?.map BankLine.words).getD []) q.1 else q.1, q.2)

/-- Store a line of input `i`, its lost words filled (R75, R82, R86). A level B-DL line is converted to its two level A lines
(R74). -/
def Chip.storeLine (c : Chip) (i line : Nat) (f2 : Bool) (ws : List (Option (BitVec 10))) : Chip :=
  let fmt := c.inputFmt i
  if rasterOf fmt = 6 then
    let alt := fun (k : Nat) => (ws.zipIdx.filter (fun p => p.2 % 2 = k)).map Prod.fst
    let put := fun (c : Chip) (m : Nat) (k : Nat) (half : List (Option (BitVec 10))) =>
      let q := c.fillWords (c.prevLine i false) 0 half
      q.2.keepLine i ⟨m, false, replaceLine fmt m false (((c.bank i).lines.head?.map BankLine.words).getD []) q.1⟩ k
    put (put c (levelALines line).1 0 (alt 0)) (levelALines line).2 1 (alt 1)
  else
    let q := c.repairLine i f2 ws
    q.2.keepLine i ⟨line, f2, q.1⟩

/-- Whether two links of a quad-link set whose ε has been measured differ in it by more than one line (R76). -/
def Chip.bondSkewed (c : Chip) (q : Nat) : Bool :=
  let e := fun k => c.rdS (Vin.eps.nth (q + k))
  let l := wordsPerLine (c.inputFmt q)
  let ks := (List.range 4).filter (fun k => (c.input (q + k)).measured)
  c.on (Vin.bond.nth q).live && ks.any (fun a => ks.any (fun b => decide ((l : Int) < e a - e b)))

/-- A measured ε (R81): it is shown, the frames in and out of the window are counted, and the skew of a quad-link set is
judged (R76). -/
def Chip.measureEps (c : Chip) (i : Nat) (e : Int) : Chip :=
  let l : Int := wordsPerLine (c.inputFmt i)
  let hyst : Int := c.rd Vin.hyst
  let inside := decide (-2 * l + hyst ≤ e ∧ e ≤ 2 * l - hyst)
  let out := decide (2 * l < e ∨ e < -2 * l)
  let was := c.bondSkewed (i - i % 4)
  let c := (c.wrS (Vin.eps.nth i) e).updInput i (fun x =>
    { x with measured := true, inRun := if inside then x.inRun + 1 else 0, outRun := if out then x.outRun + 1 else 0,
             reRun := if inside then x.reRun + 1 else 0 })
  if c.bondSkewed (i - i % 4) ∧ !was then (c.raise 0x35 vinPage (i - i % 4) 0).stick vinPage 5 else c

/-- A format measured over one frame (R75): the frames in succession that showed it are counted. -/
def Chip.noteFormat (c : Chip) (i fmt : Nat) : Chip :=
  c.updInput i (fun x => { x with acqFmt := fmt, acqRun := if x.acqFmt = fmt then x.acqRun + 1 else 1 })

/-- User data words packed two to a ring word (R91). -/
def packAnc : List Nat → List Nat
  | a :: b :: r => (a + 65536 * b) :: packAnc r
  | [a] => [a]
  | [] => []

/-- Offer a packet to ANC capture filter `f` (R91): it is written whole or, when it does not fit, discarded. DESIGN CHOICE (log
entry 12): equal pointers mean an empty ring, so that 255 of its 256 words can be in use. -/
def Chip.ancFilter (c : Chip) (i line : Nat) (p : AncPacket) (f : Nat) : Chip :=
  if c.on (Vin.ancEn.nth f) ∧ c.rd (Vin.ancInput.nth f) = i ∧ c.rd (Vin.ancDid.nth f) = p.did.toNat ∧
      (128 ≤ p.did.toNat ∨ c.rd (Vin.ancSdid.nth f) = p.sdid.toNat) then
    let ws := (line + 65536 * p.did.toNat + 2 ^ 24 * (p.data.length % 256)) :: packAnc (p.data.map BitVec.toNat)
    let w := c.rd (Vin.ancWptr.nth f)
    let free := (c.rd (Vin.ancRptr.nth f) + 255 - w) % 256
    if free < ws.length then c.stick vinPage 10
    else
      let c := (ws.foldl (fun (a : Chip × Nat) x => (a.1.wr (Vin.ancRing.nth (256 * f + a.2 % 256)) x, a.2 + 1)) (c, w)).1
      c.wr (Vin.ancWptr.nth f) (w + ws.length)
  else c

/-- Whether a packet carries embedded audio, which goes to the de-embedder (R75): ST 299 data identifiers for rasters 2 to
9, ST 272 ones for rasters 0 and 1 (PRESUMED from those standards, log entry 13). -/
def isAudioDid (fmt did : Nat) : Bool :=
  if rasterOf fmt ≤ 1 then did = 0xFF || did = 0xFD || did = 0xFB || did = 0xF9 || (0xEC ≤ did && did ≤ 0xEF) ||
    did = 0xFE || did = 0xFC || did = 0xFA || did = 0xF8
  else (0xE0 ≤ did && did ≤ 0xE7) || (0xA0 ≤ did && did ≤ 0xA7)

/-- The ANC packets of a line (R75, R91): good ones that are not audio go to the filters; a bad checksum is source `0x36`, whose
second attempt is the next line of the input. -/
def Chip.ancPackets (c : Chip) (i line : Nat) (ps : List AncPacket) : Chip :=
  let bad := ps.any (fun p => !p.good)
  let c := c.judge 0x36 vinPage i 0 bad
  let c := if bad then c.stick vinPage 6 else c
  (ps.filter (fun p => p.good && !isAudioDid (c.inputFmt i) p.did.toNat)).foldl
    (fun c p => (List.range 32).foldl (fun c f => c.ancFilter i line p f) c) c

/-! ## EDH -/

/-- The lines whose words enter the two EDH check registers of a field (R74; PRESUMED from RP 165, log entry 13): the whole field, and
its active picture. -/
def edhLines (fmt line : Nat) : Bool × Bool :=
  let within := fun (a b : Nat) => decide (a ≤ line ∧ line ≤ b)
  if rasterOf fmt = 0 then (within 12 271 || within 275 525 || within 1 8, within 21 262 || within 284 525)
  else (within 8 317 || within 321 625 || within 1 4, within 24 310 || within 336 622)

/-- The CRC-16 of RP 165 carried on over words, least significant bit first: generator x^16 + x^12 + x^5 + 1. -/
def edhCrc (r : Nat) (ws : List Nat) : Nat := crcBits 16 0x1021 r (ws.flatMap (bitsLsb 10))

/-- A line of raster 0 or 1 enters the EDH check registers; a line that carries an EDH packet compares them with its check words and
starts them anew for the next field. The answer tells whether they differ: registers that do not cover the field from its start, or whose
field lost words, are not compared. -/
def Chip.edhLine (c : Chip) (i fmt line : Nat) (got : List (Option (BitVec 10))) (edh : Option (BitVec 16 × BitVec 16)) : Bool × Chip :=
  let x := c.input i
  match edh with
  | some g =>
    (x.edhOk && (reverseBits 16 x.edhFf ≠ g.1.toNat || reverseBits 16 x.edhAp ≠ g.2.toNat),
      c.updInput i (fun x => { x with edhFf := 0, edhAp := 0, edhOk := true }))
  | none =>
    let q := edhLines fmt line
    let ws := got.map (fun w => (w.map BitVec.toNat).getD 0)
    (false, c.updInput i (fun x =>
      { x with edhOk := x.edhOk && !got.any Option.isNone,
               edhFf := if q.1 then edhCrc x.edhFf ws else x.edhFf,
               edhAp := if q.2 then edhCrc x.edhAp (ws.drop (ws.length - 1440)) else x.edhAp }))

/-- The lines of a quad-link set that carry the picture: all four links timed or synchronised (R76). -/
def Chip.bondWhole (c : Chip) (q : Nat) : Bool :=
  (List.range 4).all (fun k => c.inputSt (q + k) = InSt.timed || c.inputSt (q + k) = InSt.synced)

/-- Whether source `i` carries its picture: a timed input, or a synchroniser with a frame to read (R73, R76, R85, R88). -/
def Chip.carries (c : Chip) (i : Nat) : Bool :=
  let x := c.input i
  let own := match x.st, x.sync with
    | 3, _ => true
    | 5, some n | 1, some n | 2, some n => c.rd (Fsync.state.nth n) ≠ 1 && !(c.sync n).black && decide (0 < (c.sync n).readFrame)
    | _, _ => false
  own && (i ≥ 1152 || !c.on (Vin.bond.nth (i - i % 4)).live || c.bondWhole (i - i % 4))

/-! ## Alignment verdicts -/

/-- The lowest-numbered free synchroniser of the pool (R85); one that a verdict on its way attaches is not free. -/
def Chip.freePoolSync (c : Chip) : Option Nat :=
  (List.range 256).find? (fun n => c.on (Fsync.pool.nth n) && c.syncHolder n = 0x7FF)

/-- The standby follows a mirrored verdict and reports a measurement of its own that disagrees (R89). -/
def Chip.followVerdict (c : Chip) (i v n adv : Nat) : Chip :=
  let l : Int := wordsPerLine (c.inputFmt i)
  let e := c.rdS (Vin.eps.nth i)
  let disagrees := if v = 0 then decide (2 * l < e ∨ e < -2 * l)
    else if v = 3 ∧ (c.input i).sync = some n then decide (0 < adv ∧ (c.sync n).newest < (c.sync n).readFrame + adv) else false
  let c := c.judge 0x45 vinPage i 0 disagrees
  let c := (if disagrees then c.stick vinPage 11 else c).wr (Vin.follow.nth i) (b2n disagrees)
  c.applyVerdict i v n adv

/-- A mirrored verdict takes effect (R381), words W4 and W5: on the standby it is followed, else applied. -/
def Chip.takeVerdict (c : Chip) (w4 adv : Nat) : Chip :=
  let f := if c.isStandby then c.followVerdict else c.applyVerdict
  f (w4 % 2048) (w4 / 2048 % 4) (w4 / 65536 % 256) (adv % 4)

/-- The generator whose frame starts count for a mirrored verdict. -/
def Chip.verdictGen (c : Chip) (i : MirrorItem) : Nat := generatorOf (c.inputFmt (i.payload.headD 0 % 2048))

/-- Mirrored verdicts whose frame start has come take effect there (R89, R379). -/
def Chip.takeVerdicts (c : Chip) (r : Nat) : Chip :=
  let due := c.twin.due.filter (fun i => i.space = 3 && i.off = 1 && c.verdictGen i = r && i.bidx = Store.get 0 c.mer.genCnt r)
  let c := { c with twin := { c.twin with due := c.twin.due.filter (fun i => !due.contains i) } }
  due.foldl (fun c i => c.takeVerdict (i.payload.headD 0) (i.payload.getD 1 0)) c

end Sys2Proof.Machine
end

