-- ==== Sys2Proof/Machine/Mailbox.lean ====
section
/-! DEFINITION. How an accepted mailbox command ends (R446). -/

namespace Sys2Proof.Machine

/-- A command's own rules have run: code 0 ends it as `DONE`, another code as `REFUSED` with source `0xF2`. -/
def Chip.cmdEnd (c : Chip) (op code : Nat) : Chip :=
  let c := (c.wr Cmd.lastOp op).wr Cmd.go 0
  if code = 0 then ((c.wr Cmd.state 3).wr Cmd.refuse 0).stick cmdPage 0
  else (((c.wr Cmd.state 4).wr Cmd.refuse code).raise 0xF2 cmdPage c.host.issuer 0).stick cmdPage 1

/-- An accepted command whose action goes on (R446). -/
def Chip.cmdRunning (c : Chip) (op : Nat) : Chip := ((c.wr Cmd.lastOp op).wr Cmd.state 2).wr Cmd.refuse 0

end Sys2Proof.Machine
end

