-- ==== Sys2Proof/Machine/RefOps.lean ====
section
/-! DEFINITION. Shared operations of Meridian: effective quality levels (R329), candidate states (R334), selection (R336 to
R339), the loop's states and bandwidths (R342 to R344), quality messages (R330 to R332) and the holdover value (R347). -/

namespace Sys2Proof.Machine

/-- Candidate `i`. -/
def Chip.cand (c : Chip) (i : Nat) : Cand := Store.get {} c.mer.cands i

/-- Change candidate `i`. -/
def Chip.updCand (c : Chip) (i : Nat) (f : Cand → Cand) : Chip :=
  { c with mer := { c.mer with cands := Store.upd {} c.mer.cands i f } }

/-- Change Meridian's own state. -/
def Chip.updMer (c : Chip) (f : Mer → Mer) : Chip := { c with mer := f c.mer }

/-- PTP instance `x`. -/
def Chip.ptpInst (c : Chip) (x : Nat) : PtpInst := Store.get {} c.mer.ptp x

/-- Change PTP instance `x`. -/
def Chip.updPtp (c : Chip) (x : Nat) (f : PtpInst → PtpInst) : Chip :=
  { c with mer := { c.mer with ptp := Store.upd {} c.mer.ptp x f } }

/-- `PRIO` of a candidate: LOCAL has a reset value of its own (R368). -/
def prioFld (i : Nat) : Fld := if i = 8 then MerSel.prioLocal else MerSel.prio.nth i

/-- A rate code field read as R368 says: 8 to 15 are treated as 2. -/
def rateCode (v : Nat) : Nat := if v < 8 then v else 2

/-- `TYPE` of a REFIN candidate: 5 to 7 are treated as 0; 0 for candidates 4 to 8 (R368). -/
def Chip.refType (c : Chip) (i : Nat) : Nat := if i < 4 ∧ c.rd (MerSel.ctype.nth i) ≤ 4 then c.rd (MerSel.ctype.nth i) else 0

/-! ## Quality levels and states -/

/-- QL of message content: a received QL0 is treated as QL15 (R329). -/
def msgQl (m : List Nat) : Nat := let q := m.getD 2 0 % 16; if q = 0 then 15 else q

/-- The effective QL of a candidate, by the first rule of R329 that applies. -/
def Chip.effQl (c : Chip) (i : Nat) : Nat :=
  if c.on (MerSel.qlSrc.nth i) then c.rd (MerSel.qlFix.nth i)
  else if i = 8 then 14
  else if c.on (MerSel.loop.nth i) then 15
  else if i = 4 ∨ i = 5 then c.rd (Ptp.iQl.nth (i - 4))
  else if (c.cand i).timedOut ∨ (c.cand i).eff = [] then 15
  else msgQl (c.cand i).eff

/-- The state that `MER_CAND_STAT.STATE` shows (R334). -/
def Chip.candState (c : Chip) (i : Nat) : Nat := if c.effQl i = 15 then 4 else (c.cand i).st

/-- Show a candidate's state and QL. -/
def Chip.showCand (c : Chip) (i : Nat) : Chip :=
  (c.wr (MerSel.ql.nth i) (c.effQl i)).wr (MerSel.cstate.nth i) (c.candState i)

/-- Whether a candidate may be selected (R337). -/
def Chip.eligible (c : Chip) (i : Nat) : Bool := c.candState i = 2 && c.rd (prioFld i) ≠ 0 && c.effQl i < 15

/-! ## Selection -/

/-- Whether a standing disagreement ranks a candidate after every other one of its QL and `PRIO` (R336). -/
def Chip.demoted (c : Chip) (i : Nat) : Bool := c.mer.apart.any (fun p => p.2.2 = i)

/-- Rank of a candidate in the order of R338: QL, `PRIO`, a demoted one after every candidate of its QL and `PRIO`, index. -/
def Chip.rank (c : Chip) (i : Nat) : Nat :=
  ((c.effQl i * 16 + c.rd (prioFld i)) * 2 + b2n (c.demoted i)) * 16 + i

/-- Rank of a judge (R336): QL, `PRIO`, index. -/
def Chip.judgeRank (c : Chip) (i : Nat) : Nat := (c.effQl i * 16 + c.rd (prioFld i)) * 16 + i

/-- The index whose place in the list order a candidate takes: its own, or, of a demoted one, the last of its QL and `PRIO`. -/
def Chip.listPlace (c : Chip) (i : Nat) : Nat :=
  if c.demoted i then
    ((List.range 9).filter (fun j => c.rd (prioFld j) = c.rd (prioFld i) ∧ c.effQl j = c.effQl i)).foldl max i
  else i

/-- Rank in the list order of R337: `PRIO`, then index. -/
def Chip.listRank (c : Chip) (i : Nat) : Nat :=
  ((c.rd (prioFld i) * 16 + c.listPlace i) * 2 + b2n (c.demoted i)) * 16 + i

/-- The first of some candidates under a rank. -/
def firstBy (rank : Nat → Nat) (l : List Nat) : Option Nat :=
  l.foldl (fun b i => match b with | none => some i | some j => if rank i < rank j then some i else some j) none

/-- The candidates that may be selected now. -/
def Chip.eligibles (c : Chip) : List Nat := (List.range 9).filter c.eligible

/-- A holdover value exists: one stands in the history's window, or one is being held (R337, R347). -/
def Chip.holdoverExists (c : Chip) : Bool := c.on MerHold.valid || c.rd MerLoop.state = 4

/-- Holdover when it exists, else free-run: 15 and 8 are what `SEL` shows (R368). -/
def Chip.holdOrFree (c : Chip) : Nat := if c.holdoverExists then 15 else 8

/-- The selection that R338 makes in SCALE = SINGLE. -/
def Chip.chooseSingle (c : Chip) : Nat :=
  match firstBy c.rank c.eligibles with
  | none => c.holdOrFree
  | some i => if c.holdoverExists ∧ c.holdoverQl < c.effQl i then 15 else i

/-- The selection that R339 makes in SCALE = PAIRED: the present one stays while it is eligible, LOCAL where it was chosen by
command; the next eligible one in
list order follows it; from holdover or free-run the list is taken from the position of the candidate last lost, or after
POR and COLD from its start. -/
def Chip.choosePaired (c : Chip) : Nat :=
  let sel := c.rd MerSel.sel
  let lastLost := c.mer.lastLost
  if (sel < 8 ∨ (sel = 8 ∧ c.on MerSel.manual)) ∧ c.eligible sel then sel
  else if sel < 8 then
    (firstBy c.listRank (c.eligibles.filter (fun i => c.listRank sel < c.listRank i))).getD c.holdOrFree
  else
    (firstBy c.listRank (c.eligibles.filter (fun i => lastLost = 15 || c.listRank lastLost ≤ c.listRank i))).getD
      (if sel = 15 then 15 else c.holdOrFree)

/-- Event rate of a candidate in mHz (R326, R327): frame rates, 1 kHz for the divided inputs and PTP, 1 Hz for 1 PPS. -/
def Chip.eventRate (c : Chip) (i : Nat) : Nat :=
  let frames := fun r => if fractional r then rateMilli r * 1000 / 1001 else rateMilli r
  match i with
  | 4 | 5 => 1000000
  | 6 => frames (rateCode (c.rd MerSel.fabRate))
  | 7 => frames (c.mer.mateTrate.getD 2)
  | 8 => 1000000
  | _ => match c.refType i with
    | 1 => frames (rateCode (c.rd (MerSel.crate.nth i)))
    | 4 => 1000
    | _ => 1000000

/-- Frame period of a rate code in ns, as a fraction (R349). -/
def framePeriodNum (r : Nat) : Nat := if fractional r then 1001 * 1000000000 else 1000 * 1000000000
def framePeriodDen (r : Nat) : Nat := rateMilli r

/-- Event period of a candidate in ns, as a fraction (R326, R327). -/
def Chip.eventPeriod (c : Chip) (i : Nat) : Nat × Nat :=
  let frames := fun r => (framePeriodNum r, framePeriodDen r)
  match i with
  | 4 | 5 | 8 => (1000000, 1)
  | 6 => frames (rateCode (c.rd MerSel.fabRate))
  | 7 => frames (c.mer.mateTrate.getD 2)
  | _ => match c.refType i with
    | 1 => frames (rateCode (c.rd (MerSel.crate.nth i)))
    | 4 => (1000000000, 1)
    | _ => (1000000, 1)

/-- The type bandwidth of a candidate in mHz (R343). -/
def Chip.typeBw (c : Chip) (i : Nat) : Nat :=
  match i with
  | 4 | 5 => c.rd MerLoop.tbwPtp
  | 6 => c.rd MerLoop.tbwFab
  | 7 => c.rd MerLoop.tbwTwin
  | _ => match c.refType i with
    | 1 => c.rd MerLoop.tbwFp
    | 2 => c.rd MerLoop.tbw10m
    | 3 => c.rd MerLoop.tbwWc
    | _ => c.rd MerLoop.tbwPtp

/-- `TRACK_BW` as it acts, in mHz. -/
def Chip.trackBw (c : Chip) : Nat := clampN 10 2000 (c.rd MerLoop.trackBw)

/-- Set the bandwidth, in 2^-16 mHz: no more than half the event rate of the candidate that the loop follows (R344). -/
def Chip.setBw (c : Chip) (bw : Nat) : Chip :=
  let lim := c.eventRate c.mer.drive * 65536 / 2
  (c.updMer (fun m => { m with bw := bw })).wr MerLoop.bwNow (min bw lim / 65536)

/-- `REGIME` as it acts: 3 is treated as 0 (R369). -/
def Chip.regime (c : Chip) : Nat := if c.rd MerLoop.regime = 3 then 0 else c.rd MerLoop.regime

/-- The loop enters `TRACK` with a bandwidth. -/
def Chip.enterTrack (c : Chip) (bw : Nat) : Chip :=
  ((c.wr MerLoop.state 3).stick merLoopPage 3).setBw bw

/-- One halving, which passes to `TRACK` when it would pass `TRACK_BW` (R342). -/
def Chip.halve (c : Chip) (bw : Nat) : Chip :=
  if bw / 2 < c.trackBw * 65536 then c.enterTrack (c.trackBw * 65536) else c.setBw (bw / 2)

/-- The loop enters `NARROW` from bandwidth `bw` and halves at entry (R342, R343). -/
def Chip.enterNarrow (c : Chip) (bw : Nat) : Chip :=
  if bw ≤ c.trackBw * 65536 then c.enterTrack (c.trackBw * 65536) else (c.wr MerLoop.state 2).halve bw

/-- The QL that the device sends (R332): the holdover's in `HOLDOVER`, QL14 in `FREERUN`, else the selected candidate's. -/
def Chip.qlSent (c : Chip) : Nat :=
  if c.rd MerLoop.state = 4 then c.holdoverQl else if c.rd MerLoop.state = 0 then 14 else c.effQl (c.rd MerSel.sel)

/-- Show it (R368). -/
def Chip.showQlOut (c : Chip) : Chip := c.wr MerSel.qlOut c.qlSent

/-- No holdover stands any more: it has no age (R348, R370). -/
def Chip.endHoldover (c : Chip) : Chip := (c.wr MerHold.age 0).updMer (fun m => { m with aged := false })

/-- The loop enters `ACQUIRE` (R342, R343): at 40 Hz under SERVICE, at the type bandwidth in the other regimes; RECOVERY
begins when it comes from `HOLDOVER` under SERVICE with `RECOV_EN`. -/
def Chip.enterAcquire (c : Chip) (fromHold : Bool) : Chip :=
  let now := if c.regime = 0 then (if (fromHold && c.on MerLoop.recovEn) || c.rd MerLoop.regimeNow = 3 then 3 else 0) else c.regime
  let c := ((c.endHoldover.wr MerLoop.state 1).wr MerLoop.regimeNow now).updMer (fun m => { m with clean := false })
  (c.setBw ((if now = 0 then 40000 else c.typeBw c.mer.drive) * 65536)).showQlOut

/-- The loop runs at its bandwidth after a change of what decides it (R343, R344): outside SERVICE at the type bandwidth. -/
def Chip.refreshBw (c : Chip) : Chip :=
  if c.rd MerLoop.state = 0 ∨ c.rd MerLoop.state = 4 then c
  else c.setBw (if c.rd MerLoop.regimeNow = 0 then c.mer.bw else c.typeBw c.mer.drive * 65536)

/-- A regime of type bandwidths begins by a write of `REGIME` (R343): `NARROW` passes to `TRACK` at once. -/
def Chip.beginRegime (c : Chip) : Chip :=
  let c := c.wr MerLoop.regimeNow c.regime
  if c.rd MerLoop.state = 2 then c.enterTrack (c.typeBw c.mer.drive * 65536) else c.refreshBw

/-- A regime of type bandwidths ends: the loop enters `NARROW` and halves from the type bandwidth (R343). -/
def Chip.endRegime (c : Chip) : Chip :=
  let c := c.wr MerLoop.regimeNow 0
  let bw := c.typeBw c.mer.drive * 65536
  if c.rd MerLoop.state = 0 ∨ c.rd MerLoop.state = 4 then c else c.enterNarrow bw

/-- The loop enters `FREERUN` (R342): source `0xA6`. -/
def Chip.loopToFreerun (c : Chip) : Chip :=
  let inst := c.rd MerSel.sel
  let c := (((c.endHoldover.wr MerLoop.state 0).wr MerSel.sel 8).wr MerSel.manual 0).wr MerSel.fallback 0
  let c := c.updMer (fun m => { m with pend := none, drive := 8, clean := false, target := 0 })
  (((c.wr MerSel.qlOut 14).raise 0xA6 merLoopPage inst 0).stick merLoopPage 1).stick merSelPage 0

/-- Select candidate `n` (R341): the selection is decided now and takes effect at the candidate's first phase event. -/
def Chip.selectCand (c : Chip) (n : Nat) (manual fallback : Bool) : Chip :=
  let fromHold := c.rd MerLoop.state = 4 || (c.mer.fromHold && c.mer.pend.isSome)
  let c := ((c.wr MerSel.sel n).wr MerSel.manual (b2n manual)).wr MerSel.fallback (b2n fallback)
  (c.updMer (fun m => { m with pend := some n, fromHold := fromHold, clean := false })).showQlOut.stick merSelPage 0

/-- A selection that waits for its first event is given up: the loop stays in `HOLDOVER` or `FREERUN`, which `SEL` shows as 15
or 8 (R368). -/
def Chip.dropPending (c : Chip) : Chip :=
  let v := if c.rd MerLoop.state = 4 then 15 else 8
  let was := c.rd MerSel.sel
  let c := (((c.updMer (fun m => { m with pend := none, fromHold := false })).wr MerSel.sel v).wr MerSel.manual 0).wr MerSel.fallback 0
  if was = v then c.showQlOut else c.showQlOut.stick merSelPage 0

/-- Act on a selection: 15 holdover, 8 LOCAL or free-run, else a candidate. `FREERUN` leaves only for `ACQUIRE` (R342). -/
def Chip.applySel (c : Chip) (n : Nat) (manual fallback : Bool) : Chip :=
  let sel := c.rd MerSel.sel
  let st := c.rd MerLoop.state
  let shown := fun (c : Chip) => (c.wr MerSel.manual (b2n manual)).wr MerSel.fallback (b2n fallback)
  if n = 15 then (if st = 4 ∨ st = 0 then c.dropPending else c.loopToHoldover)
  else if n = 8 then shown (if st = 0 then c.dropPending else c.loopToFreerun)
  else if n = sel then shown c.showQlOut
  else c.selectCand n manual fallback

/-- Re-evaluate the selection after a candidate's state or QL has changed (R338, R339). -/
def Chip.reselect (c : Chip) : Chip :=
  if c.paired then
    let sel := c.rd MerSel.sel
    let n := c.choosePaired
    let c := if sel < 8 ∧ !c.eligible sel then c.updMer (fun m => { m with lastLost := sel }) else c
    if n = sel then c.applySel n (c.on MerSel.manual) (c.on MerSel.fallback)
    else c.applySel n false (decide (sel < 8) && c.eligible n)
  else c.applySel c.chooseSingle false false

/-- Show a candidate after a change and re-evaluate the selection. -/
def Chip.candChanged (c : Chip) (i : Nat) : Chip := (c.showCand i).reselect

/-! ## Presence -/

/-- A candidate becomes present (R328, R334): LOCAL is qualified at once. -/
def Chip.candPresent (c : Chip) (i : Nat) : Chip :=
  if (c.cand i).present then c
  else
    let c := c.updCand i (fun x => { x with present := true, st := if i = 8 then 2 else 1, eff := [], timedOut := false, hardRun := 0 })
    let c := if i = 8 then c.updMer (fun m => { m with stopped := false }) else c
    c.candChanged i

/-- A candidate is lost (R334, R328): source `0xA0` for the selected one, else `0xA1`; loss of LOCAL also raises `0xAB` and stops what
domain 33 times. -/
def Chip.candLost (c : Chip) (i : Nat) : Chip :=
  if !(c.cand i).present then c
  else
    let sel := c.rd MerSel.sel = i
    let c := c.updCand i (fun x => { x with present := false, st := 0, hardRun := 0, eval := false })
    let c := c.updMer (fun m => { m with apart := m.apart.filter (fun p => p.1 ≠ i && p.2.1 ≠ i), stopped := m.stopped || i = 8 })
    let c := c.wr MerSel.disagree (b2n (!c.mer.apart.isEmpty))
    let c := (c.wr (MerSel.drift.nth i) 0).wr (MerSel.freq.nth i) 0
    let c := if sel then (c.raise 0xA0 merSelPage i 0).stick merSelPage 1 else (c.raise 0xA1 merSelPage i 0).stick merSelPage 2
    let c := if i = 8 then (c.raise 0xAB merLoopPage 8 0).stick merLoopPage 5 else c
    c.candChanged i

/-- Type and pulse rate of each REFIN candidate (R327). -/
def Chip.typesNow (c : Chip) : List (Nat × Nat) :=
  (List.range 4).map (fun i => (c.refType i, if c.refType i = 1 then rateCode (c.rd (MerSel.crate.nth i)) else 0))

/-- The candidates follow a change of MER_SEL from what it was before: a REFIN whose type or pulse rate has changed, and FABRIC when
another group is named, is present no more (log entry 30). Bandwidths, states and selection follow. -/
def Chip.refsFollow (c : Chip) (was : Chip) : Chip :=
  let c := if c.rd MerSel.fabGrp = was.rd MerSel.fabGrp then c else (c.updMer (fun m => { m with fabMark := none })).candLost 6
  let c := (List.range 4).foldl (fun c i => if c.typesNow[i]? = was.typesNow[i]? then c else c.candLost i) c
  ((List.range 9).foldl (fun c i => c.showCand i) c.refreshBw).reselect

/-- A PTP candidate is present while its instance is in `SLAVE` and is not refusing (R328). -/
def Chip.ptpCand (c : Chip) (x : Nat) : Chip :=
  if c.rd (Ptp.iState.nth x) = 3 ∧ !c.on (Ptp.iRefusing.nth x) then c.candPresent (4 + x) else c.candLost (4 + x)

/-! ## Quality messages -/

/-- CRC-8 with generator 0x07 of one byte (R330). -/
def crc8Byte (r b : Nat) : Nat :=
  (List.range 8).foldl (fun r _ => if r.testBit 7 then (r * 2 % 256) ^^^ 0x07 else r * 2) (r ^^^ b % 256)

/-- CRC-8 over bytes (R330). -/
def crc8 (bs : List Nat) : Nat := bs.foldl crc8Byte 0

/-- The CRC syndrome of a message: 0 when byte 7 is right (R330). -/
def qmsgSyndrome (m : List Nat) : Nat := crc8 (m.take 7) ^^^ m.getD 7 0 % 256

/-- The content of a message that changes take effect for: bytes 1 to 3 and 5 to 6 (R331). -/
def qmsgContent (m : List Nat) : List Nat := (m.drop 1).take 3 ++ (m.drop 5).take 2

/-- `DEV_ID` in a message. -/
def qmsgDevId (m : List Nat) : Nat := m.getD 5 0 + 256 * m.getD 6 0

/-- A message is accepted (R331): a change of content, or first content, takes effect when two accepted messages with
consecutive `SEQ` both carry it; the message that carries this device's own `DEV_ID` shows a timing loop (R329). -/
def Chip.acceptQmsg (c : Chip) (i : Nat) (m : List Nat) : Chip :=
  let old := c.cand i
  let pair := old.chain ∧ (old.last.getD 4 0 + 1) % 256 = m.getD 4 0 ∧ qmsgContent old.last = qmsgContent m
  let c := c.updCand i (fun x => { x with last := m, chain := true, eff := if pair then m else x.eff, timedOut := if pair then false else x.timedOut })
  let c := (c.wr (MerSel.srcId.nth i) (m.getD 1 0)).wr (MerSel.trace.nth i) (m.getD 3 0)
  let c := (c.wr (MerSel.chold.nth i) (m.getD 3 0 / 2)).wr (MerSel.hops.nth i) (m.getD 3 0 / 16)
  let own := qmsgDevId m = c.rd MerSel.devId ∧ qmsgDevId m ≠ 0
  let c := if own ∧ !c.on (MerSel.loop.nth i) then (c.raise 0xAA merSelPage i 0).stick merSelPage 7 else c
  (c.wr (MerSel.loop.nth i) (b2n own)).candChanged i

/-- A message of 8 bytes has come for candidate `i` (R331): a wrong CRC or `VER` discards it as source `0xA8`, whose second
attempt is the next message. `QMSG` inputs are checker 12. The receiver hunts for `SYNC`: bytes that do not begin with it are no
message. -/
def Chip.qualityMessage (c : Chip) (i : Nat) (m : List Nat) : Chip :=
  if m.headD 0 ≠ 0x5A then c else
  let bad := qmsgSyndrome m ≠ 0 || m.getD 2 0 / 16 ≠ 1
  let k := if i < 4 then c.check 12 i (qmsgSyndrome m) else ⟨c, qmsgSyndrome m, qmsgSyndrome m, false⟩
  let c := k.c.judge 0xA8 merSelPage i 0 bad k.inj
  let c := if bad || k.inj then c.stick merSelPage 6 else c
  if bad then c else c.acceptQmsg i m

/-- The message that the device sends in `QBYTE` (R332), with sequence number `seq`; on LGTW QL15 while TWIN is selected. What the
loop stands on decides the QL: `HOLDOVER` and `FREERUN` last until the first event of a new selection. -/
def Chip.ownQmsg (c : Chip) (lgtw : Bool) (seq : Nat) : List Nat :=
  let sel := c.rd MerSel.sel
  let m := (c.cand sel).last
  let ptp := sel = 4 ∨ sel = 5
  let st := c.rd MerLoop.state
  let src := if sel < 8 ∧ st ≠ 0 then m.getD 1 0 else 0
  let trace := if st = 4 then 0 else if ptp then b2n (c.ptpInst (sel - 4)).traceable else if sel < 8 then m.getD 3 0 % 2 else 0
  let ptpd := if ptp then 1 else if sel < 8 then m.getD 3 0 / 4 % 2 else 0
  let hops := if sel < 8 then min 15 (m.getD 3 0 / 16 + 1) else 0
  let hold := if st = 4 then 1 else if sel < 8 then m.getD 3 0 / 2 % 2 else 0
  let ql := if lgtw ∧ sel = 7 then 15 else c.qlSent
  let b := [0x5A, src, ql + 16, trace + 2 * hold + 4 * ptpd + 16 * hops, seq % 256, c.rd MerSel.devId % 256,
    c.rd MerSel.devId / 256]
  b ++ [crc8 b]

/-! ## The holdover history -/

/-- The valid samples in the window of R347, between one second and the next: the sample taken `k` whole seconds before the newest
one counts for D ≤ k and k < D + W. -/
def Chip.holdSamples (c : Chip) : List Int :=
  let d := orElse0 (c.rd MerHold.gap) 1
  let w := orElse0 (c.rd MerHold.window) 1
  let w := if 1024 < w + d then 1024 - d else w
  (List.range w).filterMap (fun j =>
    let i := (c.rd MerHold.newest + 1024 - (d + j)) % 1024
    if c.on (MerHold.smpValid.nth i) then some (c.rdS (MerHold.smpCw.nth i)) else none)

/-- The holdover value shown at every moment, in 2^-8 ppb; it exists when enough valid samples stand in the window (R347). When it
comes to exist or ends, the selection is made again: the pseudo-candidate has become eligible or is so no more (R337, R338). -/
def Chip.updHoldValue (c : Chip) : Chip :=
  let l := c.holdSamples
  let valid : Bool := orElse0 (c.rd MerHold.minSamp) 1 ≤ l.length
  let v := if valid then (c.divFree (l.sum * 16) l.length).2.wrS MerHold.value (c.divFree (l.sum * 16) l.length).1 else c
  if c.on MerHold.valid = valid then v else ((v.wr MerHold.valid (b2n valid)).stick merHoldPage 0).reselect

/-- The AMC is loaded (R352, R361, R383): stamps start anew, and with them the packets and embedded samples that wait for one. -/
def Chip.loadAmc (c : Chip) (n : Nat) : Chip :=
  { c with amc := n, aud := { c.aud with txNext := [], embs := c.aud.embs.map (fun p => (p.1, { p.2 with next := none, waits := [] })) } }

end Sys2Proof.Machine
end

