-- ==== Sys2Proof/Machine/Meridian.lean ====
section
/-! DEFINITION. The references, the loop, holdover and output timing (R326 to R353): one meaning per row. -/

namespace Sys2Proof.Machine

/-! ## Messages -/

/-- R331: a quality message of candidate `i` (0 to 3 by `QMSG`, 6 and 7 by `QBYTE`). -/
def execQualityMessageReceive (i : Fin 9) (m : List (BitVec 8)) (s : State) : Host.Outcome State Fault Refusal :=
  act s (fun c =>
    if i.val = 4 ∨ i.val = 5 ∨ i.val = 8 ∨ m.length ≠ 8 then c else c.qualityMessage i (m.map BitVec.toNat))

/-- R331: no message has been accepted for `QMSG_TO` seconds: the candidate's QL becomes 15. It times out once for each last accepted
message. -/
def execQmsgTimeout (i : Fin 9) (s : State) : Host.Outcome State Fault Refusal :=
  act s (fun c =>
    if i.val = 4 ∨ i.val = 5 ∨ i.val = 8 ∨ !(c.cand i).present ∨ ((c.cand i).timedOut ∧ !(c.cand i).chain) then c
    else
      let c := (c.raise 0xA9 merSelPage i 0).stick merSelPage 6
      (c.updCand i (fun x => { x with timedOut := true, chain := false, eff := [] })).candChanged i)

/-! ## Presence and qualification -/

/-- Whether a candidate can be present at all: a REFIN whose `TYPE` is off stays `ABSENT`, PTP follows its instance, FABRIC and
TWIN need their group UP (R327, R328). -/
def Chip.canPresent (c : Chip) (i : Nat) : Bool :=
  if i < 4 then c.refType i ≠ 0
  else if i < 6 then c.rd (Ptp.iState.nth (i - 4)) = 3 && !c.on (Ptp.iRefusing.nth (i - 4))
  else if i = 6 then c.rd (Lgrp.state.on (c.rd MerSel.fabGrp)) = 6
  else if i = 7 then c.rd (Lgrp.state.on 32) = 6
  else true

/-- R328: a candidate has met its presence condition. -/
def execCandidatePresent (i : Fin 9) (s : State) : Host.Outcome State Fault Refusal :=
  act s (fun c => if c.canPresent i then c.candPresent i else c)

/-- R328: a candidate's events are missing beyond its limit. -/
def execCandidateLost (i : Fin 9) (s : State) : Host.Outcome State Fault Refusal :=
  act s (fun c => c.candLost i)

/-- Measure one present candidate (R335): drift is evaluated while the history is valid, never for LOCAL. `f` is its
frequency in 2^-8 ppb. -/
def Chip.measureCand (c : Chip) (i : Nat) (f : Int) : Chip :=
  if !(c.cand i).present then c
  else if i = 8 ∨ !c.on MerHold.valid then
    ((c.updCand i (fun x => { x with freq := f, eval := false, hardRun := 0 })).wr (MerSel.freq.nth i) 0).wr (MerSel.drift.nth i) 0
  else
    let d := f - c.rdS MerHold.value
    let soft := 256 * c.rd MerSel.driftSoft < d.natAbs
    let hard := 256 * c.rd MerSel.driftHard < d.natAbs
    let c := c.updCand i (fun x => { x with freq := f, eval := true, hardRun := if hard then x.hardRun + 1 else 0 })
    let c := c.wrS (MerSel.freq.nth i) d
    let c := if soft ∧ !c.on (MerSel.drift.nth i) then (c.raise 0xA2 merSelPage i 0).stick merSelPage 3 else c
    c.wr (MerSel.drift.nth i) (b2n soft)

/-- Whether the second that ends now is good for the history (R346): the loop was in `TRACK` all the second, no switch took place, and
the selected candidate's `DRIFT` bit, as the last measurement left it, was clear. -/
def Chip.secondGood (c : Chip) : Bool :=
  c.mer.clean && c.rd MerLoop.state = 3 && !(c.rd MerSel.sel < 9 && c.on (MerSel.drift.nth (c.rd MerSel.sel)))

/-- Store the second's mean control word as the newest sample (R346); the holdover value follows (R347). -/
def Chip.historySample (c : Chip) (good : Bool) (mean : Nat) : Chip :=
  let i := (c.rd MerHold.newest + 1) % 1024
  let was := c.on (MerHold.smpValid.nth i)
  let n := c.rd MerHold.samples + b2n good - b2n was
  let c := (((c.wr MerHold.newest i).wr (MerHold.smpCw.nth i) mean).wr (MerHold.smpValid.nth i) (b2n good)).wr MerHold.samples n
  (c.updMer (fun m => { m with clean := c.rd MerLoop.state = 3 })).updHoldValue

/-- A signed value moved towards a target by at most `lim`. -/
def slewTo (v target : Int) (lim : Nat) : Int := clampI (v - lim) (v + lim) target

/-- The holdover has come to `HOLD_MAX` (R348): QL14, and source `0xA6` once. -/
def Chip.holdAged (c : Chip) : Chip :=
  let c := (c.wr MerHold.age (max (c.rd MerHold.age) (c.rd MerHold.holdMax))).updMer (fun m => { m with aged := true })
  (((c.raise 0xA6 merHoldPage 15 0).stick merHoldPage 1).stick merLoopPage 1).wr MerSel.qlOut 14 |>.reselect

/-- What a second does to the control word in `FREERUN` and `HOLDOVER`: it slews at `SLEW` to its target (R342, R345). -/
def Chip.slewSecond (c : Chip) : Chip :=
  let st := c.rd MerLoop.state
  if st = 0 ∨ st = 4 then
    let c := c.wrS MerLoop.cw (slewTo (c.rdS MerLoop.cw) c.mer.target (256 * orElse0 (c.rd MerLoop.slew) 1))
    if st = 4 then
      (let c := c.inc MerHold.age
       if !c.mer.aged ∧ c.rd MerHold.holdMax ≤ c.rd MerHold.age then c.holdAged else c)
    else c
  else c

/-- Whether `TIME_RATE` follows the media reference (R358). -/
def Chip.rateFollows (c : Chip) : Bool :=
  c.on Ptp.follow && (c.rd (Ptp.iState.nth (c.rd Ptp.steer)) ≠ 3 || c.on (Ptp.iRefusing.nth (c.rd Ptp.steer)))

/-- What a second does to `TIME_RATE` while the servo does not drive it (R358): it follows the control word at `SLEW`. -/
def Chip.followSecond (c : Chip) : Chip :=
  let c := (c.wr Ptp.following (b2n c.rateFollows)).updMer (fun m => { m with servo := m.servo && !c.rateFollows })
  if c.rateFollows ∧ !c.rateHeld then
    c.wrS Time.rate (slewTo (c.rdS Time.rate) (c.rdS MerLoop.cw) (256 * orElse0 (c.rd MerLoop.slew) 1))
  else c

/-- R335: the second's measurement. `freqs` holds the nine measured frequencies in 2^-8 ppb, `mean` the mean control word over
the second in 2^-4 ppb. Drift is evaluated against the holdover value of this instant, whose window ends before the sample taken D
seconds ago; with it go the history sample (R346) and the second's slews (R342, R358). Seconds are those of domain 33, which stands
still while `LOSC_IN` is lost (R328). -/
def execCandidateMeasure (freqs : List (BitVec 32)) (mean : BitVec 24) (s : State) : Host.Outcome State Fault Refusal :=
  act s (fun c =>
    if c.mer.stopped then c
    else
      let d := (List.range 9).foldl (fun c i => c.measureCand i (freqs.getD i 0).toInt) c
      ((d.historySample c.secondGood mean.toNat).slewSecond).followSecond)

/-- R334: a candidate has been present for `QUAL_S` seconds within the limits. -/
def execQualificationDone (i : Fin 9) (s : State) : Host.Outcome State Fault Refusal :=
  act s (fun c =>
    let x := c.cand i
    if x.present ∧ c.candState i = 1 ∧ x.hardRun = 0 then (c.updCand i (fun x => { x with st := 2 })).candChanged i else c)

/-- Disqualify a candidate: source `0xA3` (R334). LOCAL stays qualified. -/
def Chip.disqualify (c : Chip) (i : Nat) : Chip :=
  if c.candState i = 2 ∧ i ≠ 8 then
    (((c.updCand i (fun x => { x with st := 3 })).raise 0xA3 merSelPage i 0).stick merSelPage 4).candChanged i
  else c

/-- R334: hard drift held for `QUAL_S` seconds (`hard`), or event periods out of tolerance for 1 s. -/
def execDisqualification (i : Fin 9) (hard : Bool) (s : State) : Host.Outcome State Fault Refusal :=
  act s (fun c =>
    if hard ∧ (c.cand i).hardRun < orElse0 (c.rd MerSel.qualS) 1 then c else c.disqualify i)

/-- R334: `DISQ_HOLD` seconds have passed and the cause has cleared. -/
def execDisqHoldExpire (i : Fin 9) (s : State) : Host.Outcome State Fault Refusal :=
  act s (fun c =>
    let x := c.cand i
    if x.present ∧ c.candState i = 3 ∧ x.hardRun = 0 then (c.updCand i (fun x => { x with st := 1 })).candChanged i else c)

/-- Whether two candidates have equal rank (R336). -/
def Chip.equalRank (c : Chip) (i j : Nat) : Bool :=
  c.candState i = 2 && c.candState j = 2 && c.effQl i = c.effQl j && c.rd (prioFld i) = c.rd (prioFld j)

/-- Whether two candidates agree within `DISAGREE` (R336). -/
def Chip.agree (c : Chip) (i j : Nat) : Bool :=
  ((c.cand i).freq - (c.cand j).freq).natAbs ≤ 256 * orElse0 (c.rd MerSel.disagreePpb) 1

/-- The pairs that disagree, and `DISAGREE` with them (R336). -/
def Chip.setApart (c : Chip) (l : List (Nat × Nat × Nat)) : Chip :=
  (c.updMer (fun m => { m with apart := l })).wr MerSel.disagree (b2n (!l.isEmpty))

/-- R336: two candidates of equal rank have disagreed for `QUAL_S` seconds, or (`cleared`) their disagreement has cleared: they agree
again, or have equal rank no more. Without a judge the selected one of the two stays: the other ranks after it. -/
def execDisagreement (i j : Fin 9) (cleared : Bool) (s : State) : Host.Outcome State Fault Refusal :=
  act s (fun c =>
    let a := min i.val j.val
    let b := max i.val j.val
    let rest := c.mer.apart.filter (fun p => !(p.1 = a && p.2.1 = b))
    if cleared then
      if rest.length = c.mer.apart.length ∨ (c.equalRank i j ∧ !c.agree i j) then c else (c.setApart rest).reselect
    else if i = j ∨ !c.equalRank i j ∨ c.agree i j then c
    else
      let c := ((c.raise 0xA4 merSelPage i.val 0).stick merSelPage 5).setApart (rest ++ [(a, b, 15)])
      let others := (List.range 8).filter (fun k => k ≠ i.val && k ≠ j.val && c.candState k = 2)
      let sel := c.rd MerSel.sel
      let neither := fun (_ : Unit) =>
        let last := if sel = i.val then j.val else if sel = j.val then i.val else max i.val j.val
        (c.setApart (rest ++ [(a, b, last)])).reselect
      match firstBy c.judgeRank others with
      | none => neither ()
      | some k =>
        if c.agree k i ∧ !c.agree k j then c.disqualify j
        else if c.agree k j ∧ !c.agree k i then c.disqualify i
        else neither ())

/-! ## Manual selection -/

/-- Take a manual selection: on a device that finds the candidate not eligible, it is treated as lost at once (R340). -/
def Chip.takeManual (c : Chip) (i : Nat) : Chip :=
  if c.eligible i then c.applySel i true false
  else
    let c := (c.wr MerSel.sel i).updMer (fun m => { m with lastLost := i })
    c.reselect

/-- The command `REF_MANUAL_SELECT`: its refusal code, and the machine (R340). The selection travels to the mate. -/
def cmdRefManual (c : Chip) (i : Nat) : Nat × Chip :=
  if !c.paired then (1, c)
  else if 8 < i ∨ !c.eligible i then (2, c)
  else if c.ignoresMirrored then (3, c)
  else (0, c.decision 6 merSelPage 0xFFFFFFFF [i] (fun c => c.takeManual i))

/-- R340: an accepted `REF_MANUAL_SELECT`. -/
def execRefManualSelect (target : BitVec 16) (s : State) : Host.Outcome State Fault Refusal :=
  act s (fun c => (cmdRefManual c target.toNat).2.cmdEnd 0x03 (cmdRefManual c target.toNat).1)

/-! ## The loop -/

/-- The limit of the control word's change over one event period of candidate `i` (R345), in 2^-8 ppb, and what remains of it below one
unit for the next event. -/
def Chip.cwLimit (c : Chip) (i : Nat) : Nat × Nat :=
  let slew := orElse0 (c.rd MerLoop.slew) 1 * (if c.rd MerLoop.state = 1 then 10 else 1)
  let p := c.eventPeriod i
  let d := p.2 * 1000000000
  ((256 * slew * p.1 + c.mer.slewRem % d) / d, (256 * slew * p.1 + c.mer.slewRem % d) % d)

/-- The loop steers on one phase error: the control word moves, within the slew limit, to a value that the loop filter gives;
the spec states the filter's bandwidth only, so the value is free (log entry 2). Without `LOSC_IN` the media reference is
uncontrolled (R328). -/
def Chip.steer (c : Chip) (i : Nat) : Chip :=
  if c.mer.stopped then c
  else
    let lim := c.cwLimit i
    let cw := c.rdS MerLoop.cw
    (c.fresh.2.wrS MerLoop.cw (slewTo cw (toSigned 32 c.fresh.1) lim.1)).updMer (fun m => { m with slewRem := lim.2 })

/-- A phase in 1/16 ns as `CAND_PHASE` shows it (R368): ns, modulo the candidate's event period. -/
def Chip.shownPhase (c : Chip) (i : Nat) (phase : Int) : Int × Chip :=
  let p := c.eventPeriod i
  let k : Int := -((16 * (p.1 : Int) - 2 * phase * p.2) / (2 * 16 * p.1))
  c.divFree (phase * p.2 - k * 16 * p.1) (16 * p.2)

/-- A phase event of candidate `i` (R341), in 1/16 ns; LOCAL and a REFIN that is off have none (R326, R327). Until the first event of a
new selection the loop goes on with the candidate that it follows; it follows none that is lost (R328). -/
def Chip.phaseEvent (c : Chip) (i : Nat) (phase : Int) : Chip :=
  if i = 8 ∨ (i < 4 ∧ c.refType i = 0) then c
  else
    let shown := c.shownPhase i phase
    let c := shown.2.wrS (MerSel.cphase.nth i) shown.1
    if !(c.cand i).present then c
    else if c.mer.pend = some i then
      let ns := c.divFree phase 16
      let c := (ns.2.wrS MerLoop.build ns.1).wr MerLoop.pherr 0
      let held := c.mer.fromHold
      (c.updMer (fun m => { m with pend := none, drive := i, fromHold := false, build16 := phase, slewRem := 0 })).enterAcquire held
    else if c.mer.drive ≠ i ∨ c.rd MerLoop.state = 0 ∨ c.rd MerLoop.state = 4 then c
    else (c.wrS MerLoop.pherr (phase - c.mer.build16)).steer i

/-- R50, R327, R341: a phase event of candidate `i`; `phase` is its phase against the media reference's matching instant in 1/16 ns. Of a
REFIN, `fall` tells the edge that makes it: the edges that `EDGE` does not select make none. At the first event after a selection the
build-out is taken and the loop enters `ACQUIRE`. FABRIC's events are the marks of the nominated card: `phase` is then that of the
start of the frame that carried the mark, and the mark's position, in 1/64 of a frame of 20.9375 ns, is added to it. -/
def execRefPhaseEvent (i : Fin 9) (fall : Bool) (phase : BitVec 32) (s : State) : Host.Outcome State Fault Refusal :=
  act s (fun c =>
    if i.val < 4 ∧ fall ≠ c.on (MerSel.edge.nth i) then c
    else if i.val ≠ 6 then c.phaseEvent i phase.toInt
    else match c.mer.fabMark with
      | none => c
      | some r => (c.updMer (fun m => { m with fabMark := none })).phaseEvent 6 (phase.toInt + (335 * r / 64 : Nat)))

/-- R342: in `ACQUIRE` the phase error has stayed below `THRESH` for 1 s. -/
def execLoopAcquired (s : State) : Host.Outcome State Fault Refusal :=
  act s (fun c =>
    if c.rd MerLoop.state ≠ 1 then c
    else if c.rd MerLoop.regimeNow = 0 then c.enterNarrow (40000 * 65536)
    else c.enterTrack (c.typeBw c.mer.drive * 65536))

/-- R342: `NARROW_S` seconds have passed in `NARROW`: the bandwidth halves unless the phase error is above `THRESH`. -/
def execLoopNarrowStep (s : State) : Host.Outcome State Fault Refusal :=
  act s (fun c =>
    if c.rd MerLoop.state = 2 ∧ (c.rdS MerLoop.pherr).natAbs < 16 * orElse0 (c.rd MerLoop.thresh) 1 then c.halve c.mer.bw
    else c)

/-- R342: the phase error has exceeded 10 times `THRESH` for 1 s. -/
def execLoopPhaseLoss (s : State) : Host.Outcome State Fault Refusal :=
  act s (fun c =>
    if 1 ≤ c.rd MerLoop.state ∧ c.rd MerLoop.state ≤ 3 then
      ((c.raise 0xA7 merLoopPage c.mer.drive 0).stick merLoopPage 2).enterAcquire false
    else c)

/-- R343: RECOVERY ends `RECOV_S` seconds after the loop has left `ACQUIRE`. -/
def execRecoveryEnd (s : State) : Host.Outcome State Fault Refusal :=
  act s (fun c =>
    if c.rd MerLoop.regimeNow = 3 ∧ (c.rd MerLoop.state = 2 ∨ c.rd MerLoop.state = 3) then c.endRegime else c)

/-- R348: the holdover's age reaches `HOLD_MAX`: its QL becomes 14 and source `0xA6` is raised once. -/
def execHoldoverAgeLimit (s : State) : Host.Outcome State Fault Refusal :=
  act s (fun c =>
    if c.rd MerLoop.state = 4 ∧ !c.mer.aged then c.holdAged else c)

/-! ## Output timing -/

/-- Whether generator `r` has an alignment basis (R350). -/
def Chip.genBasis (c : Chip) (r : Nat) : Bool :=
  let sel := c.rd MerSel.sel
  (sel < 4 && c.refType sel = 1 && rateCode (c.rd (MerSel.crate.nth sel)) = r) ||
  (sel = 6 && rateCode (c.rd MerSel.fabRate) = r) || (sel = 7 && c.mer.mateTrate = some r) ||
  c.rd (Ptp.iState.nth 0) = 3 || c.rd (Ptp.iState.nth 1) = 3

/-- Whether the audio sample grid has one (R350). -/
def Chip.gridBasis (c : Chip) : Bool :=
  (c.rd MerSel.sel < 4 && c.refType (c.rd MerSel.sel) = 3) || c.rd (Ptp.iState.nth 0) = 3 || c.rd (Ptp.iState.nth 1) = 3

/-- A phase in ns reduced to (-half period, +half period], the period being `num / den` ns (R351). -/
def Chip.reduceNs (c : Chip) (v : Int) (num den : Nat) : Int × Chip :=
  let k : Int := -((((num : Int) - 2 * v * den)) / (2 * num))
  c.divFree (v * den - k * num) den

/-- `RATE` of a frame-pulse output: 10 to 15 are treated as 8 (R369). -/
def Chip.fpRateOf (c : Chip) (n : Nat) : Nat := let r := c.rd (MerLoop.fpRate.nth n); if 10 ≤ r then 8 else r

/-- Start a pulse on FPOUT `n`: it is driven to its active level (R353). -/
def Chip.pulseStart (c : Chip) (n : Nat) : Chip :=
  if c.on (MerLoop.fpEn.nth n) then
    (c.updMer (fun m => { m with pulse := setBit m.pulse n true })).emit (.pulse n (!c.on (MerLoop.fpPol.nth n)))
  else c

/-- R349: generator `r` starts a frame; `phase` is its phase against its basis in ns. The offset is shown (R351) and the
frame pulses of that rate start (R353). -/
def execGeneratorFrameStart (r : Fin 8) (phase : BitVec 32) (s : State) : Host.Outcome State Fault Refusal :=
  act s (fun c =>
    let o := c.reduceNs (phase.toInt - c.rdS MerLoop.vidOfs) (framePeriodNum r) (framePeriodDen r)
    let c := o.2.updMer (fun m => { m with genCnt := Store.upd 0 m.genCnt r (fun n => (n + 1) % 2 ^ 32) })
    let c := c.takeVerdicts r
    let c := if c.genBasis r then (c.wrS (MerLoop.genOfs.nth r) o.1).wr (MerLoop.genValid.nth r) 1
      else (c.wr (MerLoop.genOfs.nth r) 0).wr (MerLoop.genValid.nth r) 0
    (List.range 4).foldl (fun c n => if c.fpRateOf n = r.val then c.pulseStart n else c) c)

/-- R353: `WIDTH` microseconds after its start a pulse ends. -/
def execFpoutPulseEnd (n : Fin 4) (s : State) : Host.Outcome State Fault Refusal :=
  act s (fun c =>
    if bit c.mer.pulse n then
      (c.updMer (fun m => { m with pulse := setBit m.pulse n false })).emit (.pulse n (c.on (MerLoop.fpPol.nth n)))
    else c)

/-- The media clock of the STC at the device rate, rounded to the nearest sample (R361). -/
def Chip.mediaClock (c : Chip) : Nat :=
  let fs := if c.on Sched.fs then 96000 else 48000
  let t := ((c.stc.sec * 1000000000 + c.stc.ns) * 65536 + c.stc.frac) * fs
  ((2 * t + 65536000000000) / (2 * 65536000000000)) % 2 ^ 32

/-- The items a realignment selects that have no basis, and those that wait for their next start (R352): 0 to 7 generators,
8 to 11 frame pulses, 12 and 13 word clocks. -/
def Chip.realignItems (c : Chip) : List (Nat × Bool) :=
  (if c.on MerLoop.raVideo then (List.range 8).map (fun r => (r, c.genBasis r)) else []) ++
  (if c.on MerLoop.raFpout then ((List.range 4).filter (fun n => c.on (MerLoop.fpEn.nth n))).map
    (fun n => (8 + n, if c.fpRateOf n < 8 then c.genBasis (c.fpRateOf n) else false)) else []) ++
  (if c.on MerLoop.raWcout then ((List.range 2).filter (fun n => c.on (MerLoop.wcEn.nth n))).map
    (fun n => (12 + n, c.gridBasis)) else [])

/-- A realignment ends when no item waits any more (R352, R373). -/
def Chip.realignDone (c : Chip) : Chip :=
  if c.mer.realign.isEmpty then ((c.wr MerLoop.raGo 0).wr MerLoop.raResult c.mer.raRes).stick merLoopPage 4 else c

/-- The action of a realignment (R352). `AUDIO` is accepted only while the SCHED page is disabled; it loads the AMC (R361). `RESULT` tells
of a refusal at once, and of the rest when no item waits any more. -/
def Chip.realign (c : Chip) : Chip :=
  let items := c.realignItems
  let audio := c.on MerLoop.raAudio
  let refused := audio && c.enabled schedPage
  let without := items.any (fun p => !p.2) || (audio && !refused && !c.gridBasis)
  let c := if audio ∧ !refused ∧ c.gridBasis then (c.loadAmc c.mediaClock).wr MerLoop.audOfs 0 else c
  let res := if refused then 3 else if without then 2 else 1
  let c := (c.wr MerLoop.raResult (if refused then 3 else 0)).updMer (fun m =>
    { m with realign := (items.filter (fun p => p.2)).map Prod.fst, raStage := 1, raRes := res })
  let c := c.wr MerLoop.raGo 1
  c.realignDone

/-- R352: a write of 1 to `MER_LOOP_REALIGN.GO`. -/
def execRealign (m : Master) (s : State) : Host.Outcome State Fault Refusal :=
  act s (fun c => c.trigger m merLoopPage 0x68 4 true Chip.realign)

/-- R352: an item that waits reaches its next pulse or edge, or a generator its first frame start at or after T(F + 1), and is set to
its basis. -/
def execRealignApply (item : Fin 14) (s : State) : Host.Outcome State Fault Refusal :=
  act s (fun c =>
    if c.mer.realign.contains item.val ∧ (8 ≤ item.val ∨ c.mer.raStage = 4) then
      let c := c.updMer (fun m => { m with realign := m.realign.filter (fun k => k ≠ item.val) })
      (if item.val < 8 then c.wr (MerLoop.genOfs.nth item) 0 else c).realignDone
    else c)

end Sys2Proof.Machine
end

