-- ==== Sys2Proof/Machine/TimeOps.lean ====
section
/-! DEFINITION. Shared operations of network time: the STC, its steps, compare units and the event FIFO (R359 to R364). -/

namespace Sys2Proof.Machine

/-- Units of the STC's fraction: 2^-16 ns (R359). -/
def Stc.total (t : Stc) : Int := (((t.sec * 1000000000 + t.ns) * 65536 + t.frac : Nat) : Int)

/-- The STC from a count of 2^-16 ns. -/
def Stc.ofTotal (n : Int) : Stc :=
  let n := n.toNat % (2 ^ 48 * 1000000000 * 65536)
  { sec := n / (1000000000 * 65536), ns := n / 65536 % 1000000000, frac := n % 65536 }

/-- Record a stamp in the event FIFO (R364, layout of R310): `source` 0 to 7 EVTn, 8 to 11 REFINn, 31 STEP. -/
def Chip.pushEvent (c : Chip) (source : Nat) (fall : Bool) (t : Stc) : Chip :=
  let w := c.rd Time.evtWptr
  if (w + 1) % 256 = c.rd Time.evtRptr then
    (((c.inc Time.evtLost).stick timePage 8).raise 0xB8 timePage source 0).updMer (fun m => { m with evtGap := true })
  else
    let c := (c.wr (Time.evt.nth (4 * w)) (t.ns + 2 ^ 30 * b2n c.mer.evtGap)).wr (Time.evt.nth (4 * w + 1)) (t.sec % 2 ^ 32)
    let c := (c.wr (Time.evt.nth (4 * w + 2)) (t.sec / 2 ^ 32 + 65536 * t.frac)).wr (Time.evt.nth (4 * w + 3)) (source + 32 * b2n fall)
    ((c.wr Time.evtWptr (w + 1)).stick timePage 11).updMer (fun m => { m with evtGap := false })

/-- The signed distance of compare unit `u` past its target (R362): ns of the STC, or samples of the AMC. -/
def Chip.cmpDiff (c : Chip) (u : Nat) : Int :=
  if c.on (Time.cBase.nth u) then toSigned 32 (c.amc + 2 ^ 32 - c.rd (Time.cNs.nth u))
  else ((c.stc.sec * 1000000000 + c.stc.ns : Nat) : Int) -
    (((c.rd (Time.cSecLo.nth u) + 2 ^ 32 * c.rd (Time.cSecHi.nth u)) * 1000000000 + c.rd (Time.cNs.nth u) % 2 ^ 30 : Nat) : Int)

/-- Compare unit `u` fires (R362): unit `n` pulses FPOUT `n` when its `RATE` is 9 (R353). -/
def Chip.cmpFire (c : Chip) (u : Nat) : Chip :=
  let c := (c.wr (Time.cArm.nth u) 0).stick timePage u
  if u < 4 ∧ c.rd (MerLoop.fpRate.nth u) = 9 then c.pulseStart u else c

/-- Fire every armed unit of one time base whose target has been reached (R362). -/
def Chip.cmpCheck (c : Chip) (amcBase : Bool) : Chip :=
  (List.range 8).foldl (fun c u =>
    if c.on (Time.cArm.nth u) ∧ c.on (Time.cBase.nth u) = amcBase ∧ 0 ≤ c.cmpDiff u then c.cmpFire u else c) c

/-- The filtered offset of PTP instance `x`, in 2^-8 ns. Beyond what the register holds, what it shows is free. -/
def Chip.setOfs (c : Chip) (x : Nat) (v : Int) : Chip :=
  let c := c.updPtp x (fun p => { p with ofs := v })
  if -2147483648 ≤ v ∧ v < 2147483648 then c.wrS (Ptp.iOfs.nth x) v else c.fresh.2.wr (Ptp.iOfs.nth x) c.fresh.1

/-- Step the STC by `d` in 2^-8 ns (R360): the instances' offsets move the other way, a STEP entry is written, passed
compares fire, and the first step with the SCHED page disabled loads the AMC (R361). Source `0xB5`. -/
def Chip.stepStc (c : Chip) (x : Nat) (d : Int) : Chip :=
  let c := { c with stc := Stc.ofTotal (c.stc.total + 256 * d) }
  let c := [0, 1].foldl (fun c x => c.setOfs x ((c.ptpInst x).ofs - d)) c
  let c := c.pushEvent 31 false c.stc
  let c := if 0 ≤ d then c.cmpCheck false else c
  let c := if !c.enabled schedPage ∧ !c.mer.amcLoaded then
      (c.loadAmc c.mediaClock).updMer (fun m => { m with amcLoaded := true }) else c
  (c.raise 0xB5 ptpPage x 0).stick ptpPage 5

/-- The AMC minus the media clock of the STC, in 2^-16 sample (R361); source `0xAC` beyond `AMC_TOL` samples. Beyond what
the register holds, its value is free. -/
def Chip.updAmcOfs (c : Chip) : Chip :=
  let fs : Int := if c.on Sched.fs then 96000 else 48000
  let q := c.divFree (c.stc.total * fs) 1000000000
  let d := toSigned 48 (ofSigned 48 ((c.amc : Int) * 65536 - q.1))
  let c := if d.natAbs < 2 ^ 31 then q.2.wrS Time.amcOfs d else q.2.fresh.2.wr Time.amcOfs q.2.fresh.1
  if 65536 * orElse0 (c.rd Time.amcTol) 1 < d.natAbs then (c.raise 0xAC timePage 0 0).stick timePage 10 else c

/-- The phase in ns of the sample grid against its basis, whole samples taken off (R350, R351): against the selected word clock's edges
what `CAND_PHASE` shows, the other way round; else that of the STC past the last integer instant of its media clock. -/
def Chip.gridPhase (c : Chip) : Int × Chip :=
  let fs := if c.on Sched.fs then 96000 else 48000
  let sel := c.rd MerSel.sel
  if sel < 4 ∧ c.refType sel = 3 then c.reduceNs (-c.rdS (MerSel.cphase.nth sel)) 1000000000 fs
  else
    let past := c.divFree (c.stc.total * (fs : Nat) % 65536000000000) (65536 * fs)
    past.2.reduceNs past.1 1000000000 fs

/-- `MER_AUD_OFS` while the sample grid has a basis (R351). -/
def Chip.updAudOfs (c : Chip) : Chip := if c.gridBasis then c.gridPhase.2.wrS MerLoop.audOfs c.gridPhase.1 else c

/-- Put PTP instance `x` into a state (R355); its candidate follows (R328). -/
def Chip.setPtp (c : Chip) (x st : Nat) : Chip :=
  let old := c.rd (Ptp.iState.nth x)
  if old = st then c
  else
    let c := (c.wr (Ptp.iState.nth x) st).updPtp x (fun p => { p with run := 0, offs := [], adjRun := 0 })
    let c := if st = 3 then (c.stick ptpPage 8).updPtp x (fun p => { p with base := p.ofs }) else c
    let c := c.updMer (fun m => { m with servo := m.servo && (st = 3 || c.rd Ptp.steer ≠ x) })
    let c := if st = 2 ∨ st = 3 then c
      else (c.wr (Ptp.iRefusing.nth x) 0).updPtp x (fun p => { p with refuseRun := 0 })
    (c.wr Ptp.following (b2n c.rateFollows)).ptpCand x

/-- The link of an instance goes down or comes up (R355). -/
def Chip.ptpLink (c : Chip) (link : Nat) (up : Bool) : Chip :=
  [0, 1].foldl (fun c x =>
    if c.on (Ptp.iEn.nth x) ∧ c.rd (Ptp.iLink.nth x) = link then
      (if up then (if c.rd (Ptp.iState.nth x) = 4 then c.setPtp x 1 else c) else c.setPtp x 4)
    else c) c

/-- An instance follows its `EN` bit (R355); an enabled one whose link is down is `FAULTY`. -/
def Chip.ptpEnable (c : Chip) (x : Nat) (linkUp : Bool) : Chip :=
  if !c.on (Ptp.iEn.nth x) then c.setPtp x 0
  else if c.rd (Ptp.iState.nth x) = 0 then c.setPtp x (if linkUp then 1 else 4) else c

/-- QL of a grandmaster's clockClass (R333). -/
def classQl (k : Nat) : Nat :=
  match k with
  | 6 => 1 | 13 => 2 | 7 => 3 | 14 => 4 | 52 | 187 => 8 | 58 | 193 => 9 | 248 => 12 | 255 => 15 | _ => 13

end Sys2Proof.Machine
end

