-- ==== Sys2Proof/Machine/XptOps.lean ====
section
/-! DEFINITION. Shared operations of the crosspoint (R97 to R124): sources and formats at a destination, output bindings,
validation of salvos, landing of changes. -/

namespace Sys2Proof.Machine

/-- T(F) is told to the mate (R377, R383): `XPT_FRAME` and the position of T(F) in the group frame, which depends on instants that the model
does not hold and is free (log entry 22). -/
def Chip.sendTref (c : Chip) : Chip :=
  if c.paired ∧ c.rd (Lgrp.state.on 32) = 6 then c.fresh.2.cellOut 6 0 [6, c.rd Xpt.frame, c.fresh.1 % 64] else c

/-- A realignment of generators moves on by one at C(F), T(F) and T(F + 1) (R352). -/
def Chip.realignStage (c : Chip) (at_ : List Nat) : Chip :=
  { c with mer := { c.mer with raStage := if at_.contains c.mer.raStage then c.mer.raStage + 1 else c.mer.raStage } }

/-- The number of a route that carries nothing (R97). -/
def noSource : Nat := 0x7FF

/-- The difference of two reference frame numbers, signed (R103). -/
def frameDiff (a b : Nat) : Int := toSigned 32 ((a + 2 ^ 32 - b) % 2 ^ 32)

/-- The state of a source (R73, R84): a composer's bank reads `TIMED` while the composer runs and `LOST` otherwise. -/
def Chip.srcSt (c : Chip) (s : Nat) : Nat :=
  if s = noSource then InSt.unbound
  else if s < 1152 then c.inputSt s
  else if c.rd (Cmp.state.on (s - 1152)) = 0 then InSt.lost else InSt.timed

/-- The format of a source (R115): measured for an input, carried for a composer; 0xFF none. -/
def Chip.srcFmt (c : Chip) (s : Nat) : Nat :=
  if s = noSource then 0xFF else if s < 1152 then c.rd (Vin.mfmt.nth s) else c.rd (Cmp.carryFmt.on (s - 1152))

/-- Whether a format is in an output's format set (R99). -/
def Chip.inSet (c : Chip) (o fmt : Nat) : Bool :=
  fmt ≠ 0xFF && (List.range 4).any (fun j => c.rd (Xpt.fset.nth o) / 256 ^ j % 256 = fmt)

/-- The state of an output behind `BIND_ERR` (R98, R99): 0 `UNBOUND`, 1 `RUNNING`, 3 `NO_MAP`. -/
def Chip.outSt (c : Chip) (o : Nat) : Nat :=
  if c.rd (Xpt.transport.nth o).live = 0 then 0
  else if c.inSet o (c.rd (Xpt.fmt.nth o).live) then 1 else 3

/-- The format of a destination (R102, R115, R116): the format an output last carried, its `FMT` before that; for a layer
feed the composer's output format. -/
def Chip.destFmt (c : Chip) (d : Nat) : Nat :=
  if d < 1152 then
    (if c.rd (Xpt.airFmt.nth d) = 0xFF then c.rd (Xpt.fmt.nth d).live else c.rd (Xpt.airFmt.nth d))
  else c.rd (Cmp.carryFmt.on ((d - 1152) / 8))

/-- Whether the old format of an `AUTOFMT` output has stopped and the new one has not started (R116). -/
def Chip.inGap (c : Chip) (o : Nat) : Bool := c.xpt.gap.any (fun a => a.out = o && a.stopped)

/-- Change the crosspoint's own state. -/
def Chip.updXpt (c : Chip) (f : XptX → XptX) : Chip := { c with xpt := f c.xpt }

/-- Show an output's state and format. DESIGN CHOICE (log entry 14): `BIND_ERR` is shown over the state in force until a write of the
output's configuration is accepted. -/
def Chip.showOutput (c : Chip) (o : Nat) : Chip :=
  let st := c.outSt o
  let c := c.wr (Xpt.ostate.nth o) (if c.xpt.bindErr.contains o then 2 else st)
  c.wr (Xpt.carryFmt.nth o) (if st = 1 ∧ !c.inGap o then c.rd (Xpt.airFmt.nth o) else 0xFF)

/-- Count the bound outputs that are not in family (R104, R123). -/
def Chip.countOfftake (c : Chip) : Chip :=
  c.wr Xpt.nOfftake (c.xpt.bound.filter (fun o => !inFamily c.xpt.rate (c.destFmt o))).length

/-- Set or clear the format mismatch of an output (R115); its start is source `0x46`. -/
def Chip.setMismatch (c : Chip) (o : Nat) (b : Bool) : Chip :=
  if c.on (Xpt.mismatch.nth o) = b then c
  else
    let c := c.wr (Xpt.mismatch.nth o) (b2n b)
    if b then ((c.inc Xpt.nMismatch).raise 0x46 xptPage o 0).stick xptPage 4
    else (c.decr Xpt.nMismatch).passHolds 0x46 xptPage o

/-- Judge the mismatch of an output (R115, R116): its source has a format that differs from `FMT`, or with `AUTOFMT` is not in
the format set. DESIGN CHOICE (log entry 14): an output that is not `RUNNING` carries no format and is never in mismatch. -/
def Chip.judgeMismatch (c : Chip) (o : Nat) : Chip :=
  let s := c.rd (Xpt.airSrc.nth o)
  let f := c.srcFmt s
  let differs := if c.on (Xpt.autofmt.nth o).live then !c.inSet o f else f ≠ c.rd (Xpt.fmt.nth o).live
  c.setMismatch o (c.outSt o = 1 && f ≠ 0xFF && 2 ≤ c.srcSt s && differs)

/-- The slot map records of an output whose transport matches its descriptor (R275). A record is its section's target and its
four words. -/
def Chip.mapRecords (c : Chip) (o : Nat) : List (List Nat) :=
  let t := c.rd (Xpt.transport.nth o).live
  (Store.get [] c.sch.maps o).filter (fun r =>
    if t = 1 then r.headD 99 = c.rd (Xpt.group.nth o).live && r.getD 2 0 % 128 = c.rd (Xpt.ssid.nth o).live
    else t = 2 && r.headD 99 = 32 && r.getD 2 0 % 16384 = c.rd (Xpt.queue.nth o).live)

/-- The format that a slot map record is for (R275). -/
def recordFmt (r : List Nat) : Nat := r.getD 1 0 / 2048 % 256

/-- The record of an output for a format. -/
def Chip.mapRecord (c : Chip) (o fmt : Nat) : Option (List Nat) := (c.mapRecords o).find? (fun r => recordFmt r = fmt)

/-- The format set of an output (R275): the formats of its records. -/
def Chip.showFset (c : Chip) (o : Nat) : Chip :=
  let fs := (c.mapRecords o).map recordFmt
  c.wr (Xpt.fset.nth o) (leNat ((fs ++ [0xFF, 0xFF, 0xFF, 0xFF]).take 4))

/-- An output's configuration or its format set has changed: format, state and counts follow (R98, R99). -/
def Chip.refreshOutput (c : Chip) (o : Nat) : Chip :=
  let was := c.rd (Xpt.ostate.nth o)
  let st := c.outSt o
  let keep := c.on (Xpt.autofmt.nth o).live && c.inSet o (c.rd (Xpt.airFmt.nth o))
  let c := c.wr (Xpt.airFmt.nth o) (if st ≠ 1 then 0xFF else if keep then c.rd (Xpt.airFmt.nth o) else c.rd (Xpt.fmt.nth o).live)
  let c := if st = 3 ∧ was ≠ 3 then (c.raise 0x4D xptPage o 0).stick xptPage 10 else c
  let c := if st = 1 then c else c.setMismatch o false
  (c.showOutput o).countOfftake

/-! ## Output descriptors -/

/-- Whether another output is bound, or about to be, to the transport that output `o`'s stored words name (R98). -/
def Chip.outTaken (c : Chip) (o : Nat) : Bool :=
  let t := c.rd (Xpt.transport.nth o)
  let same := fun (p : Nat) (g : Fld → Fld) =>
    c.rd (g (Xpt.transport.nth p)) = t && (if t = 1 then
      c.rd (g (Xpt.group.nth p)) = c.rd (Xpt.group.nth o) && c.rd (g (Xpt.ssid.nth p)) = c.rd (Xpt.ssid.nth o)
    else c.rd (g (Xpt.queue.nth p)) = c.rd (Xpt.queue.nth o))
  c.xpt.bound.any (fun p => p ≠ o && same p Fld.live) || c.xpt.waiting.any (fun p => p ≠ o && same p id)

/-- The bonding rules of output descriptors, judged on the stored words of `o` against those in force (R118). -/
def Chip.outBondBroken (c : Chip) (o : Nat) : Bool :=
  let q := o - o % 4
  let differs := fun j => c.rd (Xpt.fmt.nth j).live ≠ c.rd (Xpt.fmt.nth o) || c.rd (Xpt.sqd.nth j).live ≠ c.rd (Xpt.sqd.nth o)
  if o % 4 ≠ 0 then c.on (Xpt.bond.nth o) || (c.on (Xpt.bond.nth q).live && differs q)
  else c.on (Xpt.bond.nth o) &&
    (rasterOf (c.rd (Xpt.fmt.nth o)) ≠ 9 ||
     [q + 1, q + 2, q + 3].any (fun j => c.rd (Xpt.transport.nth j).live ≠ 0 && differs j))

/-- Whether the stored words of output `o` are rejected (R98). -/
def Chip.outRejected (c : Chip) (o : Nat) : Bool :=
  let t := c.rd (Xpt.transport.nth o)
  t = 3 || (t ≠ 0 && (c.outTaken o || !validFmt (c.rd (Xpt.fmt.nth o)) || c.outBondBroken o))

/-- A write of an output's configuration words (R98): stored, or rejected as source `0x4C` with the words left as they were. -/
def Chip.writeOutput (c : Chip) (o w0 w1 : Nat) : Chip :=
  let n := (c.putRw xptPage 1 (4 * o) w0 allBits).putRw xptPage 1 (4 * o + 1) w1 allBits
  if n.outRejected o then
    let c := (c.raise 0x4C xptPage o 0).stick xptPage 9
    (c.updXpt (fun x => { x with bindErr := if x.bindErr.contains o then x.bindErr else o :: x.bindErr })).showOutput o
  else
    (n.updXpt (fun x => { x with bindErr := x.bindErr.filter (· ≠ o),
                                 waiting := if x.waiting.contains o then x.waiting else o :: x.waiting })).showOutput o

/-- Format changes of an output that are given up: what their takes change lands at a switch point instead. -/
def Chip.dropGap (c : Chip) (o : Nat) : Chip :=
  c.updXpt (fun x =>
    { x with gap := x.gap.filter (fun a => a.out ≠ o),
             landing := x.landing ++ (x.gap.filter (fun a => a.out = o)).filterMap (fun a =>
               a.table.map (fun k => ⟨k, o, a.src, a.amode, a.frame⟩)) })

/-- A stored output configuration takes effect (R98). -/
def Chip.applyOutput (c : Chip) (o : Nat) : Chip :=
  if !c.xpt.waiting.contains o then c
  else
    let c := c.copyWords 1 xptPage (4 * o) (4 * o + 2) 9
    let on := c.rd (Xpt.transport.nth o).live ≠ 0
    let c := c.updXpt (fun x => { x with waiting := x.waiting.filter (· ≠ o),
                                         bound := (if on then [o] else []) ++ x.bound.filter (· ≠ o) })
    (((c.dropGap o).showFset o).wr (Xpt.airFmt.nth o) 0xFF).refreshOutput o

/-! ## Salvos -/

/-- Entry `e` of salvo table `k` (R106). -/
def Chip.salvoEntry (c : Chip) (k e : Nat) : SalvoEntry :=
  let n := 4096 * k + e
  ⟨c.rd (Xpt.salvoDest.nth n), c.rd (Xpt.salvoSrc.nth n), c.rd (Xpt.salvoAmode.nth n), c.on (Xpt.salvoSetAmode.nth n)⟩

/-- Whether an entry is skipped (R114). -/
def Chip.skipped (c : Chip) (e : SalvoEntry) : Bool := e.dest ≤ 1663 && c.on (Xpt.protect.nth e.dest)

/-- Whether an input belongs to a bonded set (R76). -/
def Chip.srcBonded (c : Chip) (s : Nat) : Bool := s < 1152 && c.on (Vin.bond.nth (s - s % 4)).live

/-- Whether an output belongs to an output quad-link set (R118). -/
def Chip.outBonded (c : Chip) (d : Nat) : Bool :=
  let q := d - d % 4
  d < 1152 && c.on (Xpt.bond.nth q).live && rasterOf (c.rd (Xpt.fmt.nth q).live) = 9 &&
    [q + 1, q + 2, q + 3].all (fun j => c.rd (Xpt.fmt.nth j).live = c.rd (Xpt.fmt.nth q).live &&
      c.rd (Xpt.sqd.nth j).live = c.rd (Xpt.sqd.nth q).live)

/-- The quad-link rule that an entry breaks (R118): reason 5. -/
def Chip.bondRule (c : Chip) (e : SalvoEntry) : Bool :=
  let sb := c.srcBonded e.src
  let ob := c.outBonded e.dest
  (ob && e.dest % 4 ≠ 0) || (sb && e.src % 4 ≠ 0) || (sb && e.dest < 1152 && !ob) ||
    (ob && e.src ≠ noSource && !sb) ||
    (sb && ob && c.rd (Vin.sqd.nth e.src).live ≠ c.rd (Xpt.sqd.nth e.dest).live)

/-- The reason under which one entry is rejected (R108), 0 none; `seen` holds the destinations of the entries before it. -/
def Chip.entryReason (c : Chip) (seen : List Nat) (e : SalvoEntry) : Nat :=
  if 1663 < e.dest ∨ (1216 ≤ e.src ∧ e.src ≤ 2046) ∨ (e.amode = 3 ∧ e.setAmode) then 1
  else if seen.contains e.dest then 4
  else if c.bondRule e then 5
  else if c.srcBonded e.src ∧ 1152 ≤ e.dest then 6
  else 0

/-- The routes that one entry makes: one, or four for a quad-link set (R118). -/
def Chip.entryRoutes (c : Chip) (e : SalvoEntry) : List (Nat × Nat) :=
  if c.outBonded e.dest then
    (List.range 4).map (fun j => (e.dest + j, if e.src = noSource then noSource else e.src + j))
  else [(e.dest, e.src)]

/-- Examine the entries in order (R108): the first rejection, or the entries that count with their indices. -/
def Chip.scanEntries (c : Chip) (k : Nat) : List Nat → List Nat → List (Nat × SalvoEntry) → (Nat × Nat) × List (Nat × SalvoEntry)
  | [], _, acc => ((0, 0), acc.reverse)
  | i :: r, seen, acc =>
    let e := c.salvoEntry k i
    if c.skipped e then c.scanEntries k r seen acc
    else
      let q := c.entryReason seen e
      if q = 0 then c.scanEntries k r (e.dest :: seen) ((i, e) :: acc) else ((q, i), [])

/-- Requested routes once the given changes have been taken (R107): the later change of a destination prevails. -/
def Chip.routeAfter (c : Chip) (chg : List (Nat × Nat)) (d : Nat) : Nat :=
  match chg.reverse.find? (fun p => p.1 = d) with
  | some p => p.2
  | none => c.rd (Xpt.reqSrc.nth d)

/-- Composer links of a route table (R21): `(a, b)` where composer `a` feeds a layer of composer `b`. -/
def linksOf (route : Nat → Nat) : List (Nat × Nat) :=
  (List.range 512).filterMap (fun j =>
    if 1152 ≤ route (1152 + j) ∧ route (1152 + j) < 1216 then some (route (1152 + j) - 1152, j / 8) else none)

/-- Composers that carry an external source on a layer feed. -/
def fedBy (route : Nat → Nat) : List Nat :=
  (List.range 64).filter (fun b => (List.range 8).any (fun l => route (1152 + 8 * b + l) < 1152))

/-- Composers whose output is routed to an external destination. -/
def outTo (route : Nat → Nat) : List Nat :=
  (List.range 64).filter (fun a => (List.range 1152).any (fun d => route d = 1152 + a))

/-- What the links lead to from a set. -/
def stepLinks (links : List (Nat × Nat)) (xs : List Nat) : List Nat :=
  ((links.filter (fun p => xs.contains p.1)).map Prod.snd).eraseDups

/-- Everything that the links lead to from a set in at most `n` steps, the set included. -/
def reachLinks (links : List (Nat × Nat)) : Nat → List Nat → List Nat
  | 0, xs => xs
  | n + 1, xs => reachLinks links n (xs ++ (stepLinks links xs)).eraseDups

/-- The longest path that ends at composer `a` and begins in `from_`, counted in composers, up to `n`; 0 none. -/
def depthAt (links : List (Nat × Nat)) (from_ : List Nat) (a : Nat) : Nat → Nat → Nat → Nat
  | 0, _, best => best
  | n + 1, k, best =>
    depthAt links (stepLinks links from_) a n (k + 1) (if from_.contains a then k + 1 else best)

/-- The depth of composer `a`: composers on the longest chain to it from an external source. -/
def depthIn (links : List (Nat × Nat)) (fed : List Nat) (a : Nat) : Nat := depthAt links fed a 64 0 0

/-- Composers on the longest chain from composer `a` to an external destination. -/
def depthOut (links : List (Nat × Nat)) (out : List Nat) (a : Nat) : Nat :=
  depthAt (links.map (fun p => (p.2, p.1))) out a 64 0 0

/-- Whether a change lies on a cycle of composers (R21). -/
def onCycle (links : List (Nat × Nat)) (e : SalvoEntry) : Bool :=
  1152 ≤ e.dest && 1152 ≤ e.src && e.src < 1216 &&
    (reachLinks links 64 [(e.dest - 1152) / 8]).contains (e.src - 1152)

/-- Whether a change lies on a chain of more than 4 composers from an external source to an external destination (R21). -/
def onLongChain (links : List (Nat × Nat)) (fed out : List Nat) (e : SalvoEntry) : Bool :=
  let up := if 1152 ≤ e.src then depthIn links fed (e.src - 1152) else 0
  if e.src = noSource then false
  else if e.dest < 1152 then 1152 ≤ e.src && 4 < up
  else
    let down := depthOut links out ((e.dest - 1152) / 8)
    down ≠ 0 && !(1152 ≤ e.src && up = 0) && 4 < up + down

/-- Every change of the salvos armed before (R107). -/
def Chip.armedRoutes (c : Chip) : List (Nat × Nat) :=
  c.xpt.armed.flatMap (fun a => a.changes.flatMap c.entryRoutes)

/-- Validate salvo table `k` (R108): reason and first offending entry, or the entries that count. Reason 7 is judged first,
then the entries in order, then cycles and then chains of the whole (log entry 14). -/
def Chip.validateSalvo (c : Chip) (k : Nat) : (Nat × Nat) × List SalvoEntry :=
  let n := c.rd (Xpt.takeLen.nth k)
  if n = 0 ∨ 4096 < n then ((7, 0), [])
  else
    let q := c.scanEntries k (List.range n) [] []
    if q.1.1 ≠ 0 then (q.1, [])
    else
      let chg := c.armedRoutes ++ (q.2.map Prod.snd).flatMap c.entryRoutes
      let route := c.routeAfter chg
      let links := linksOf route
      match q.2.find? (fun p => onCycle links p.2) with
      | some p => ((2, p.1), [])
      | none =>
        let fed := fedBy route
        let out := outTo route
        match q.2.find? (fun p => onLongChain links fed out p.2) with
        | some p => ((3, p.1), [])
        | none => ((0, 0), q.2.map Prod.snd)

/-- The first reference frame whose cut is still to come (R109); `near`: it falls less than 100 us after validation, which on
a paired device puts it out of reach. -/
def Chip.nextCut (c : Chip) (near : Bool) : Nat :=
  (c.rd Xpt.frame + 1 + b2n c.xpt.cutDone + b2n (c.paired && near)) % 2 ^ 32

/-- The take frame of a salvo that has passed validation (R109), or none where reason 8 rejects it. -/
def Chip.takeFrame (c : Chip) (k : Nat) (near : Bool) : Option Nat :=
  let next := c.nextCut near
  let least := match c.xpt.armed.getLast? with
    | some a => if frameDiff a.frame next < 0 then next else a.frame
    | none => next
  if !c.on (Xpt.takeAt.nth k) then some least
  else if 0 ≤ frameDiff (c.rd (Xpt.takeAtFrame.nth k)) least then some (c.rd (Xpt.takeAtFrame.nth k)) else none

/-- This device's verdict on salvo table `k` (R108, R109, R119). -/
def Chip.salvoVerdict (c : Chip) (k : Nat) (near : Bool) : Verdict :=
  let q := (c.validateSalvo k).1
  if q.1 ≠ 0 then ⟨k, q.1, q.2, 0⟩
  else match c.takeFrame k near with
    | some f => ⟨k, 0, 0, f⟩
    | none => ⟨k, 8, 0, 0⟩

/-- Entries of table `k` that a take skips (R114). -/
def Chip.countSkipped (c : Chip) (k : Nat) : Nat :=
  let n := c.rd (Xpt.takeLen.nth k)
  if 4096 < n then 0 else ((List.range n).filter (fun e => c.skipped (c.salvoEntry k e))).length

/-- A take of table `k` reaches a final state (R111). -/
def Chip.salvoFinal (c : Chip) (k code : Nat) : Chip :=
  ((c.wr (Xpt.takeCode.nth k) code).wr (Xpt.takeGo.nth k) 0).wr Xpt.pend (setBit (c.rd Xpt.pend) k false)

/-- Start a take of table `k` (R107). -/
def Chip.salvoGo (c : Chip) (k : Nat) : Chip :=
  if c.on (Xpt.takeGo.nth k) then c.stick xptPage 8
  else
    let c := (((c.wr (Xpt.takeGo.nth k) 1).wr (Xpt.takeCode.nth k) 1).wr (Xpt.takeReason.nth k) 0).wr (Xpt.takeIndex.nth k) 0
    ((c.wr (Xpt.takeSkipped.nth k) 0).wr Xpt.pend (setBit (c.rd Xpt.pend) k true)).updXpt
      (fun x => { x with validating := x.validating ++ [k] })

/-- The changes of table `k` that a take makes: its entries, but for those that are skipped (R114). -/
def Chip.tableChanges (c : Chip) (k : Nat) : List SalvoEntry :=
  ((List.range (min 4096 (c.rd (Xpt.takeLen.nth k)))).map (fun e => c.salvoEntry k e)).filter (fun e => !c.skipped e)

/-- A salvo verdict takes effect (R108, R109, R119): the salvo is rejected, or armed for its take frame. -/
def Chip.applySalvo (c : Chip) (v : Verdict) : Chip :=
  let k := v.table
  if !c.xpt.validating.contains k then c
  else
    let chg := c.tableChanges k
    let c := c.updXpt (fun x => { x with validating := x.validating.filter (· ≠ k), own := x.own.filter (fun o => o.table ≠ k) })
    let c := (c.wr (Xpt.takeSkipped.nth k) (min 4095 (c.countSkipped k))).wr (Xpt.takeReason.nth k) v.reason
    let c := c.wr (Xpt.takeIndex.nth k) v.index
    if v.reason = 8 then ((c.salvoFinal k 7).raise 0x48 xptPage k 0).stick xptPage 3
    else if v.reason ≠ 0 then ((c.salvoFinal k 5).raise 0x47 xptPage k 0).stick xptPage 2
    else
      ((c.wr (Xpt.takeCode.nth k) 2).wr (Xpt.takeFrm.nth k) v.frame).updXpt
        (fun x => { x with armed := x.armed ++ [⟨k, v.frame, chg⟩] })

/-- The standby applies the active device's verdict, and reports a verdict of its own that differs (R119). DESIGN CHOICE (log entry 14):
the report carries the number of the salvo table, which R122 states for `0x47` and `0x48`. -/
def Chip.followSalvo (c : Chip) (v : Verdict) : Chip :=
  let own := match c.xpt.own.find? (fun o => o.table = v.table) with
    | some o => o
    | none => c.salvoVerdict v.table false
  let c := if c.xpt.validating.contains v.table ∧ own ≠ v then (c.raise 0x4A xptPage v.table 0).stick xptPage 6 else c
  c.applySalvo v

/-- Cancel the salvo of table `k` (R113). -/
def Chip.salvoCancel (c : Chip) (k : Nat) : Chip :=
  let code := c.rd (Xpt.takeCode.nth k)
  if code = 1 then
    (c.salvoFinal k 6).updXpt (fun x => { x with validating := x.validating.filter (· ≠ k), own := x.own.filter (fun o => o.table ≠ k) })
  else if code = 2 then
    (match c.xpt.armed.getLast? with
     | some a => if a.table = k then (c.salvoFinal k 6).updXpt (fun x => { x with armed := x.armed.dropLast }) else c.stick xptPage 8
     | none => c)
  else if code = 3 then c.stick xptPage 8
  else c

/-- A cut salvo reaches `APPLIED` when the last of its changes has landed (R111). A table from 2 on is none: those changes are no take's. -/
def Chip.salvoLanded (c : Chip) (k : Nat) : Chip :=
  if k < 2 ∧ c.rd (Xpt.takeCode.nth k) = 3 ∧ !c.xpt.landing.any (fun l => l.table = k) ∧ !c.xpt.gap.any (fun a => a.table = some k) then
    (c.salvoFinal k 4).stick xptPage k
  else c

/-- The format that an output carries, or in the gap of a format change the one that starts next (R116). -/
def Chip.nextFmt (c : Chip) (o : Nat) : Nat :=
  match c.xpt.gap.reverse.find? (fun a => a.out = o && a.stopped) with
  | some a => a.fmt
  | none => c.rd (Xpt.airFmt.nth o)

/-- Whether an `AUTOFMT` output adopts the format of a source (R116). -/
def Chip.adopts (c : Chip) (o s : Nat) : Bool :=
  o < 1152 && c.on (Xpt.autofmt.nth o).live && c.outSt o = 1 && 2 ≤ c.srcSt s && c.inSet o (c.srcFmt s) &&
    c.srcFmt s ≠ c.nextFmt o

/-- Commit one route of a cut salvo (R110): `REQ` takes the new value, and the change waits for its switch point, or for the
format change of R117. A format change that an earlier take has begun and that has not stopped the old format gives way to it. One
that has stopped the old format goes on; a route of yet another format makes it a change to that one, any other lands after it. -/
def Chip.commitRoute (c : Chip) (k frame : Nat) (e : SalvoEntry) (r : Nat × Nat) : Chip :=
  if c.on (Xpt.protect.nth r.1) then c
  else
    let c := c.wr (Xpt.reqSrc.nth r.1) r.2
    let c := if e.setAmode then c.wr (Xpt.reqAmode.nth r.1) e.amode else c
    let am := c.rd (Xpt.reqAmode.nth r.1)
    if c.adopts r.1 r.2 then
      c.updXpt (fun x => { x with gap := x.gap ++ [⟨r.1, some k, r.2, am, c.srcFmt r.2, frame, c.inGap r.1⟩] })
    else (if c.inGap r.1 then c else c.dropGap r.1).updXpt (fun x => { x with landing := x.landing ++ [⟨k, r.1, r.2, am, frame⟩] })

/-- Cut one salvo (R110). An entry whose destination has been protected since is skipped (R114). -/
def Chip.cutSalvo (c : Chip) (a : Armed) : Chip :=
  let c := c.wr (Xpt.takeCode.nth a.table) 3
  let c := a.changes.foldl (fun c e =>
    if c.skipped e then c.inc (Xpt.takeSkipped.nth a.table)
    else (c.entryRoutes e).foldl (fun c r => c.commitRoute a.table a.frame e r) c) c
  c.salvoLanded a.table

/-- `TRATE` as it acts: codes 8 to 15 are treated as 2 (R123). -/
def Chip.trateEff (c : Chip) : Nat := if 8 ≤ c.rd Xpt.trate then 2 else c.rd Xpt.trate

/-- Show whether a written `TRATE` waits (R105). -/
def Chip.showTrate (c : Chip) : Chip := c.wr Xpt.tratePend (b2n (c.trateEff ≠ c.xpt.rate))

/-- A hold of a destination ends (R411). -/
def Chip.endDestHold (c : Chip) (d : Nat) : Chip :=
  { c with fcu := { c.fcu with holds := c.fcu.holds.filter (fun h => !(h.kind = 0 && h.item = d)) } }

/-- Whether the limit of a destination's hold has passed, so that it carries black (R411). -/
def Chip.heldBlack (c : Chip) (d : Nat) : Bool := c.fcu.holds.any (fun h => h.kind = 0 && h.item = d && h.black)

/-- A frame of a destination starts (R411): holds whose condition has passed its second attempt end, the others count a frame
and turn black after `MAX_FRAMES` of them. -/
def Chip.destFrameHolds (c : Chip) (d : Nat) : Chip :=
  let most := c.frd Fcu.maxFrames
  { c with fcu := { c.fcu with holds := (c.fcu.holds.filter (fun h => !(h.kind = 0 && h.item = d && h.passed))).map (fun h =>
      if h.kind = 0 ∧ h.item = d then { h with frames := h.frames + 1, black := decide (most ≠ 0 ∧ most ≤ h.frames) } else h) } }

/-- A change lands on a destination (R111, R411). -/
def Chip.landRoute (c : Chip) (d src am : Nat) : Chip :=
  ((c.wr (Xpt.airSrc.nth d) src).wr (Xpt.airAmode.nth d) am).endDestHold d

end Sys2Proof.Machine
end

