-- ==== Sys2Proof/Machine/AudioOps.lean ====
section
/-! DEFINITION. Shared operations of the audio ports and maps (R163 to R203): period, rings, what intake presents, egress
histories, holds of audio items, ports, maps. -/

namespace Sys2Proof.Machine

/-- Whether the present sample instant is a boundary whose row is still to come (R25, R164): its AMC value is a multiple of P, and a
period ends or opens at it. -/
def Chip.boundaryDue (c : Chip) : Bool :=
  c.ticking && c.amc % c.periodLen = 0 && !(c.aud.isOpen && c.aud.m = c.amc) && (c.aud.isOpen || c.enabled schedPage)

/-- Inputs that take part at the device rate (R194, R207). -/
def Chip.nIn (c : Chip) : Nat := if c.on Sched.fs then 2048 else 4096

/-- The difference of two stamps, signed (R163). -/
def stampDiff (a b : Nat) : Int := frameDiff a b

/-- A stamp moved by a number of samples. -/
def stampAdd (a : Nat) (d : Int) : Nat := ((((a : Int) + d) % 4294967296)).toNat

def Chip.updAud (c : Chip) (f : Aud → Aud) : Chip := { c with aud := f c.aud }
def Chip.sapx (c : Chip) (p : Nat) : SapX := Store.get {} c.aud.saps p
def Chip.updSap (c : Chip) (p : Nat) (f : SapX → SapX) : Chip := c.updAud (fun a => { a with saps := Store.upd {} a.saps p f })
def Chip.trkx (c : Chip) (t : Nat) : TrkX := Store.get {} c.aud.trks t
def Chip.updTrk (c : Chip) (t : Nat) (f : TrkX → TrkX) : Chip := c.updAud (fun a => { a with trks := Store.upd {} a.trks t f })

/-- Judge a condition of many instances at one second attempt: those in `bad` fail, every other instance of the source whose
attempt is kept passes (R406). Each is page, instance and detail. -/
def Chip.judgeAll (c : Chip) (src : Nat) (bad : List (Nat × Nat × Nat)) : Chip :=
  let pass := (c.fcu.attempts.filter (fun a => a.src = src && !bad.any (fun b => b.1 = a.page && b.2.1 = a.inst))).map
    (fun a => (a.page, a.inst, a.detail))
  let c := bad.foldl (fun c b => c.judge src b.1 b.2.1 b.2.2 true) c
  pass.foldl (fun c b => c.judge src b.1 b.2.1 b.2.2 false) c

/-! ## Receive sources -/

/-- Where a source reports: page, instance (kept apart by kind), detail (R201). -/
def audPlace (kind inst : Nat) : Nat × Nat × Nat := (if kind = 1 then sapPage inst else amapPage, inst + 65536 * kind, kind)

/-- The alignment group delay of a source in samples (R177): group 0 has none, and 6,144 is the most. -/
def Chip.groupDelay (c : Chip) (kind inst : Nat) : Nat :=
  let g := match kind with
    | 1 => c.rd (Sap.agrp.on inst)
    | 2 => c.rd (Amap.dAgrp.nth inst).live
    | 3 => c.rd (Asrc.tAgrp.nth (c.chanTrk inst)).live
    | 4 => c.rd (Amap.rAgrp.nth inst).live
    | _ => 0
  if g = 0 then 0 else min 6144 (c.rd (Amap.gdelay.nth (g - 1)).live)

/-! ## Which input feeds a de-embedder -/

/-- The inputs whose descriptors in use name de-embedder `d`, lowest first (R186). -/
def Chip.dembInputs (c : Chip) (d : Nat) : List Nat :=
  let f := Vin.dembEn.live
  (((Store.range (placeKey f.space f.page 0 0) (placeKey f.space f.page 9216 0) c.flds).filter (fun p => p.1 % 32 = f.lo && p.2 = 1)).map
    (fun p => (p.1 / 32 % 67108864) / 8)).filter (fun i => i < 1152 && c.rd (Vin.demb.nth i).live = d)

def Chip.dembx (c : Chip) (d : Nat) : DembX := Store.get {} c.aud.dembs d
def Chip.updDemb (c : Chip) (d : Nat) (f : DembX → DembX) : Chip := c.updAud (fun a => { a with dembs := Store.upd {} a.dembs d f })

/-- Whether the video of an input is in step with the reference (R187): `TIMED`, or `SYNCED` in `LOCKED` operation. -/
def Chip.dembTimed (c : Chip) (i : Nat) : Bool :=
  c.inputSt i = InSt.timed || (c.inputSt i = InSt.synced && c.on (Fsync.locked.nth (((c.input i).sync).getD 0)))

/-- The state of de-embedder `d` (R186, R187). DESIGN CHOICE (log entry 17): none also while the input that feeds it has brought
no audio. -/
def Chip.dembState (c : Chip) (d : Nat) : Nat :=
  match c.dembInputs d with
  | [] => 0
  | i :: rest =>
    if !rest.isEmpty then 4
    else if (c.dembx d).from_ ≠ some i then 0
    else if c.dembTimed i && (c.dembx d).sync then (if c.on Sched.fs then 2 else 1) else 3

/-- Whether a source is not synchronous, so that its entries are unlocked (R194). -/
def Chip.audUnlocked (c : Chip) (kind inst : Nat) : Bool :=
  match kind with
  | 1 => c.on (Sap.async.on inst)
  | 2 => c.dembState inst = 3
  | 4 => c.on (Amap.rAsync.nth inst).live
  | _ => false

/-- Count a source's underrun, late sample (R179, R180). -/
def Chip.countAud (c : Chip) (under : Bool) (kind inst : Nat) : Chip :=
  match kind with
  | 1 => c.inc ((if under then Sap.underCnt else Sap.lateCnt).on inst)
  | 4 => c.inc ((if under then Amap.rUnder else Amap.rLate).nth inst)
  | _ => c

/-- The sticky bit of a missing or late sample (R202, R203). -/
def Chip.stickAud (c : Chip) (under : Bool) (kind inst : Nat) : Chip :=
  if kind = 1 then c.stick (sapPage inst) (if under then 4 else 5) else c.stick amapPage (if under then 2 else 3)

/-- The ring of a source channel. -/
def Chip.ring (c : Chip) (kind sel : Nat) : Store Smp := Store.get [] c.aud.rings (65536 * kind + sel)

/-- Store a sample in its ring by stamp, or discard it as late or early (R177, R180). DESIGN CHOICE (log entry 17): while no period runs
the last boundary and the last close go on to be the measure. -/
def Chip.ringPut (c : Chip) (kind sel stamp : Nat) (v : Int) (nonPcm : Bool) : Chip :=
  let inst := audInst kind sel
  let g : Int := c.groupDelay kind inst
  let top : Int := stampDiff stamp c.aud.m + 1 + g
  let late := match c.aud.closed with
    | some m => decide (stampDiff stamp m + 1 + g ≤ 0)
    | none => false
  let early := decide ((8192 : Int) - c.periodLen - g ≤ top)
  if late || early then
    let p := audPlace kind inst
    ((c.countAud false kind inst).stickAud false kind inst).updAud (fun a =>
      { a with late := if a.late.contains p then a.late else p :: a.late })
  else
    let r := Store.set {} (c.ring kind sel) (stamp % 8192) ⟨stamp, v, nonPcm⟩
    c.updAud (fun a => { a with rings := Store.set [] a.rings (65536 * kind + sel) r })

/-- The sample of a ring with a stamp, where it is there. -/
def ringGet (r : Store Smp) (stamp : Nat) : Option Smp :=
  let s := Store.get {} r (stamp % 8192)
  if s.stamp = stamp then some s else none

/-- A sample of an asynchronous source channel is kept with its instant on the AMC in 1/65,536 sample (R177, R181): the newest
8,192. -/
def Chip.asrcPut (c : Chip) (kind sel instant : Nat) (v : Int) (nonPcm : Bool) : Chip :=
  let k := 65536 * kind + sel
  c.updAud (fun a => { a with asrcIn := Store.set [] a.asrcIn k ((⟨instant, v, nonPcm⟩ :: Store.get [] a.asrcIn k).take 8192) })

/-- A number read as a signed 32-bit sample. -/
def smp32 (v : Nat) : Int := toSigned 32 v

/-! ## Sample formats -/

/-- A 32-bit sample rounded half to even to its top `w` bits, saturating at the largest positive code (R197). -/
def roundTop (w : Nat) (v : Int) : Int :=
  let s : Int := ((2 ^ (32 - w) : Nat) : Int)
  let q := v / s
  let r := v % s
  let q := if s < 2 * r || (2 * r = s && q % 2 = 1) then q + 1 else q
  min q ((2 ^ (w - 1) : Nat) - 1)

/-- What a 32-bit slot sends (R197). -/
def slotWord (tx24 : Bool) (v : Int) : Nat := if tx24 then 256 * ofSigned 24 (roundTop 24 v) else ofSigned 32 v

/-! ## Holds of audio items (R411) -/

/-- A block scaled down over the period: level 2 (R282). -/
def fadeOut (p : Nat) (b : List Int) : List Int := b.zipIdx.map (fun x => Int.tdiv (x.1 * ((p : Int) - 1 - (x.2 : Int))) p)

/-- A block scaled up over the period: recovery (R282). -/
def fadeIn (p : Nat) (b : List Int) : List Int := b.zipIdx.map (fun x => Int.tdiv (x.1 * ((x.2 : Int) + 1)) p)

/-- The level that holds an audio item: 0 none, 1 to 3 while a condition holds it, and 4 for the block with which a hold of level 2 or 3 is
released. -/
def Chip.holdLevel (c : Chip) (kind item : Nat) : Nat :=
  let ls := (c.fcu.holds.filter (fun h => h.kind = kind && h.item = item)).map Hold.level
  let most := (ls.filter (fun l => decide (l < 4))).foldl max 0
  if most = 0 ∧ ls.contains 4 then 4 else most

/-- A block under a level: `prev` was delivered before, `good` is the last good block, `new` is fresh. -/
def levelBlock (p level : Nat) (prev good new : List Int) : List Int :=
  match level with
  | 0 => new
  | 1 => prev
  | 2 => fadeOut p good
  | 3 => List.replicate p 0
  | _ => fadeIn p new

/-- At a boundary every audio hold advances by one level, or ends where its condition has passed (R411). -/
def Chip.stepHolds (c : Chip) : Chip :=
  let step := fun (h : Hold) =>
    if h.kind = 0 then some h
    else if h.level = 4 then none
    else if h.passed then (if h.level ≤ 1 then none else some { h with level := 4 })
    else some { h with level := min 3 (h.level + 1) }
  { c with fcu := { c.fcu with holds := c.fcu.holds.filterMap step } }

/-! ## Egress -/

/-- An egress entry in use: the mix output, where it is enabled (R195). -/
def Chip.egressOut (c : Chip) (e : Nat) : Option Nat :=
  let w := c.rd (Amap.egress.nth e).live
  if bit w 12 then some (w % 4096) else none

/-- The enabled egress entries. -/
def Chip.egressOn (c : Chip) : List (Nat × Nat) :=
  let f := Amap.egress.live
  let lo := placeKey f.space f.page 8192 0
  (Store.range lo (placeKey f.space f.page 25600 0) c.flds).filterMap (fun p =>
    if bit p.2 12 then some ((p.1 - lo) / 32, p.2 % 4096) else none)

/-- Hand a block to an egress entry: it leaves from stamp `m` on. -/
def Chip.egressPut (c : Chip) (e m : Nat) (b : List Int) : Chip :=
  let h : EgHist := Store.get {} c.aud.egress e
  let n : EgHist := ⟨stampAdd m b.length, (b.reverse ++ (if h.next = m then h.samples else [])).take 512⟩
  c.updAud (fun a => { a with egress := Store.set {} a.egress e n })

/-- The sample of an egress entry with a stamp; a disabled entry carries 0 (R195). -/
def Chip.egressAt (c : Chip) (e stamp : Nat) : Int :=
  let h := Store.get {} c.aud.egress e
  let i := stampDiff h.next stamp - 1
  if i < 0 then 0 else h.samples.getD i.toNat 0

/-! ## Serial ports -/

/-- Channels of a port's mode (R166, R170). -/
def Chip.sapSlots (c : Chip) (p : Nat) : Nat :=
  match c.rd (Sap.mode.on p) with
  | 1 => 2 ^ clampN 1 6 (c.rd (Sap.slots.on p))
  | 2 | 3 => 2
  | 4 => if c.on (Sap.madi96.on p) then 32 else if c.on (Sap.madi56.on p) then 56 else 64
  | _ => 0

/-- Whether a port's configuration is valid (R167, R170, R171, R172). -/
def Chip.sapValid (c : Chip) (p : Nat) : Bool :=
  let master := c.on (Sap.master.on p)
  let async := c.on (Sap.async.on p)
  let slotw := if c.on (Sap.slotw.on p) then 24 else 32
  match c.rd (Sap.mode.on p) with
  | 0 => true
  | 1 => !(master && async) && !(c.on (Sap.slotw.on p) && master) &&
      (async || c.sapSlots p * slotw * c.rateKHz ≤ 98304)
  | 2 => !(master && async) && !(c.on (Sap.slotw.on p) && master)
  | 3 => true
  | 4 => 12 ≤ p && !master && (!c.on (Sap.madi96.on p) || c.on Sched.fs)
  | _ => false

/-- Whether slot `s` is enabled by the masks in use; bits beyond the mode's channels are ignored (R175). -/
def Chip.sapMask (c : Chip) (tx : Bool) (p s : Nat) : Bool :=
  let f := (if tx then Sap.txMask else Sap.rxMask)
  s < c.sapSlots p && bit (c.rd ((f.nth (s / 32)).on p).live) (s % 32)

/-- The port channel of a slot, where it has one (R175). -/
def Chip.sapChan (c : Chip) (tx : Bool) (p s : Nat) : Option Nat :=
  if !c.sapMask tx p s then none
  else if c.on (Sap.compact.on p) then some ((List.range s).filter (fun k => c.sapMask tx p k)).length else some s

/-- Port channels in use in one direction. -/
def Chip.sapUsed (c : Chip) (tx : Bool) (p : Nat) : Nat :=
  ((List.range (c.sapSlots p)).filter (fun s => c.sapMask tx p s)).length

/-- Show the port channels in use. -/
def Chip.showSap (c : Chip) (p : Nat) : Chip := (c.wr (Sap.rxCh.on p) (c.sapUsed false p)).wr (Sap.txCh.on p) (c.sapUsed true p)

/-- `ENABLE` of a port is written (R172). -/
def Chip.sapEnable (c : Chip) (p : Nat) (on_ : Bool) : Chip :=
  let c := c.updSap p (fun _ => {})
  if !on_ then (c.wr (Sap.state.on p) 0).wr (Sap.rate.on p) 0
  else if !c.sapValid p then (c.wr (Sap.state.on p) 4).stick (sapPage p) 8
  else if c.rd (Sap.mode.on p) = 0 then c.wr (Sap.state.on p) 0
  else
    let clocked := (c.rd (Sap.mode.on p) = 1 ∨ c.rd (Sap.mode.on p) = 2) ∧ c.on (Sap.master.on p)
    (c.wr (Sap.state.on p) (if clocked then 2 else 1)).showSap p

/-- The clock of a port is lost, or its frames stand wrong (R172): source `0x60`. -/
def Chip.sapLost (c : Chip) (p st : Nat) : Chip :=
  (((c.wr (Sap.state.on p) st).updSap p (fun x => { x with badRun := 0, frames := 0 })).raise 0x60 (sapPage p) p 0).stick (sapPage p) 0

/-- The receive stamp that a frame edge takes on entry to `RUN` (R173): the edge lies `frac` / 2,048 sample after the instant
with AMC value `edge`. -/
def entryStamp (edge frac : Nat) : Nat := if frac < 64 then edge else (edge + 1) % 2 ^ 32

/-- φ of a frame in 1/2,048 sample (R173). -/
def framePhi (stamp edge frac : Nat) : Int := stampDiff stamp edge * 2048 - frac

/-- A slot's bits as a sample (R197): 24-bit formats have their low bits 0. -/
def Chip.slotSample (c : Chip) (p : Nat) (v : Nat) : Int :=
  let m := c.rd (Sap.mode.on p)
  if m = 3 ∨ m = 4 ∨ (m = 1 ∧ c.on (Sap.slotw.on p)) then smp32 (v / 256 * 256) else smp32 v

/-- The receive samples of a frame go to their port channels (R173, R175, R177): into the rings of a synchronous port by
`stamp`, and to the converter's input with the frame's `instant` at an asynchronous one, whose channels reach intake only through
ASRC channels. An inactive MADI channel is a missing sample. -/
def Chip.sapStore (c : Chip) (p stamp instant : Nat) (slots : List SapSlot) : Chip :=
  let async := c.on (Sap.async.on p)
  (slots.zipIdx).foldl (fun c x =>
    match c.sapChan false p x.2 with
    | some ch =>
      if c.rd (Sap.mode.on p) ≠ 4 ∨ x.1.active then
        (let v := c.slotSample p x.1.data.toNat
         if async then c.asrcPut 1 (64 * p + ch) instant v x.1.nonPcm else c.ringPut 1 (64 * p + ch) stamp v x.1.nonPcm)
      else c
    | none => c) c

/-- How a port frames what it sends (R166, R167): I2S starts its data one BCLK after each FS edge and holds FS for one slot.
PRESUMED (log entry 17): a short FS lasts one BCLK. -/
def Chip.sapFraming (c : Chip) (p : Nat) : SapFraming :=
  let m := c.rd (Sap.mode.on p)
  let width := if m = 2 ∨ c.on (Sap.fslong.on p) then 32 else 1
  if m = 1 ∨ m = 2 then
    ⟨if m = 2 then 1 else b2n (c.on (Sap.fsdly.on p)), if c.on (Sap.master.on p) then some width else none,
     c.on (Sap.fspol.on p), c.on (Sap.bedge.on p)⟩
  else ⟨0, none, false, false⟩

/-- The check byte of a channel-status block (R169): x⁸ + x⁴ + x³ + x² + 1 from all ones, least significant bit first. PRESUMED
(log entry 17): as AES3 has it. -/
def statusCrc (bytes : List Nat) : Nat :=
  (bytes.flatMap (fun b => (List.range 8).map (fun k => bit b k))).foldl (fun a b =>
    if bit a 0 = b then a / 2 else Nat.xor (a / 2) 0xB8) 0xFF

/-- The channel status that the device transmits (R169, R170, R189): professional, linear PCM, no emphasis, the device rate,
24-bit words and a valid check byte. PRESUMED (log entry 17): the places of these in the block are those of AES3. -/
def txStatus (fs96 : Bool) : List Nat :=
  let body := [if fs96 then 0x05 else 0x85, 0, 0x2C, 0, if fs96 then 0x10 else 0] ++ List.replicate 18 0
  body ++ [statusCrc body]

/-- The channel-status bit of subframe `n` of a stream of the device (R169, R170, R189), 192 to a block. -/
def statusBit (fs96 : Bool) (n : Nat) : Bool := bit ((txStatus fs96).getD (n % 192 / 8) 0) (n % 8)

/-- The first octet of an AM824 sample that the device sends (R189, R190): the start of a channel-status block, the first channel of a
pair, parity, and the channel status of linear PCM; user and validity bits are 0. PRESUMED (log entry 17): the places of these bits are
those of ST 2110-31, and a block starts with each stamp that is a multiple of 192. -/
def am824Octet (fs96 : Bool) (stamp ch v : Nat) : Nat :=
  let cs := statusBit fs96 stamp
  let odd := (bitsLsb 24 v).foldl (· != ·) cs
  32 * b2n (stamp % 192 = 0) + 16 * b2n (ch % 2 = 0) + 8 * b2n odd + 4 * b2n cs

/-- The slots of a transmit frame (R167, R170, R175, R195, R197). Without `TRI` a masked slot carries 0; `MADI56` sends channels
0 to 55 of 64 as active. -/
def Chip.sapSend (c : Chip) (p stamp : Nat) : Chip :=
  let m := c.rd (Sap.mode.on p)
  let n := c.sapSlots p
  let wide := m = 2 ∨ (m = 1 ∧ !c.on (Sap.slotw.on p))
  let slots := (List.range (if m = 4 ∧ n = 56 then 64 else n)).map (fun s =>
    match c.sapChan true p s with
    | some ch =>
      let v := c.egressAt (64 * p + ch) stamp
      some (if wide then slotWord (c.on (Sap.tx24.on p)) v else 256 * ofSigned 24 (roundTop 24 v))
    | none => if c.on (Sap.tri.on p) ∧ (m = 1 ∨ m = 2) then none else some 0)
  let b := (c.sapx p).txBlk
  let cs := statusBit (c.on Sched.fs) b
  let bits := if m = 3 ∨ m = 4 then
      (List.range slots.length).map (fun s => (⟨cs && s < n, b = 0, m = 4 && s = 0, s < n⟩ : SubBits)) else []
  (c.emit (.sapFrame p stamp (c.sapFraming p) slots bits)).updSap p (fun x => { x with txBlk := (b + 1) % 192 })

/-- Channel status of subframe A, or of MADI channel 0 (R169, R170): a whole block of 192 bits is captured. -/
def Chip.sapStatus (c : Chip) (p : Nat) (start cs : Bool) : Chip :=
  let old := if start then [] else (c.sapx p).cs
  let l := (old ++ [cs]).take 192
  let c := c.updSap p (fun x => { x with cs := l })
  if l.length = 192 then
    (List.range 6).foldl (fun c i => c.wr ((Sap.csrx.nth i).on p) (leNat ((List.range 4).map (fun b =>
      natMsb ((List.range 8).map (fun k => l.getD (32 * i + 8 * b + 7 - k) false)))))) c
  else c

/-! ## Trackers -/

/-- Whether a tracker's written configuration is valid (R181). -/
def Chip.trkValid (c : Chip) (t : Nat) : Bool :=
  let k := c.rd (Asrc.tKind.nth t)
  c.rd (Asrc.tRate.nth t) ≤ 4 && (k = 4 || (k = 1 && c.rd (Asrc.tInst.nth t) < 16) || (k = 2 && c.rd (Asrc.tInst.nth t) < 256))

/-- Put a tracker into a state (R183), counting those in `LOCKED`. The output of one that leaves `LOCKED` ramps out at the next
boundary where `fall` says so, else it is 0 from then on. The loop starts again at 20 Hz. -/
def Chip.setTrk (c : Chip) (t st : Nat) (fall : Bool := false) : Chip :=
  let old := c.rd (Asrc.tState.nth t)
  let c := c.wr (Asrc.tState.nth t) st
  let c := if old = 2 ∧ st ≠ 2 then (c.decr Asrc.nLocked).updTrk t (fun x => { x with fall := fall, loop := 5 }) else c
  let c := if fall ∨ (1 ≤ st ∧ st ≤ 4) then c else c.updTrk t (fun x => { x with out := .silent, fall := false })
  if old ≠ 2 ∧ st = 2 then c.inc Asrc.nLocked else c

/-- What the output of a tracker does in the next period (R183): a ramp starts at a boundary and takes one period. -/
def TrkX.next (x : TrkX) (locked : Bool) : TrkOut :=
  if x.fall && (x.out = .rising || x.out = .full) then .falling
  else if !locked then .silent
  else if x.out = .rising || x.out = .full then .full else .rising

/-- The nominal rate of a tracker's input in Hz (R181). -/
def trkHz (code : Nat) : Nat := match code with | 0 => 32000 | 1 => 44100 | 3 => 88200 | 4 => 96000 | _ => 48000

/-- Whether a tracker's measured ratio is within 1,000 ppm of its nominal one (R181). -/
def Chip.trkInRange (c : Chip) (t : Nat) : Bool :=
  let nom : Int := (trkHz (c.rd (Asrc.tRate.nth t).live) * 2 ^ 28 : Nat)
  decide (((((c.trkx t).ratio * (c.rateKHz * 1000) : Nat) : Int) - nom).natAbs * 1000 ≤ nom.natAbs)

/-- Source `0x67` of a tracker (R183). -/
def Chip.trkFault (c : Chip) (t : Nat) : Chip := (c.updTrk t (fun x => { x with block := true })).stick asrcPage 0

/-- `ADELAY` as it acts, in units of 4 samples (R182). -/
def Chip.adelay (c : Chip) (t : Nat) : Nat := max 8 (c.rd (Asrc.tAdelay.nth t).live)

/-- A written tracker configuration (R183): `EN` acts at once, the rest at the next boundary. -/
def Chip.trkWritten (c : Chip) (t : Nat) : Chip :=
  let c := c.updAud (fun a => { a with trkDirty := if a.trkDirty.contains t then a.trkDirty else t :: a.trkDirty })
  if !c.on (Asrc.tEn.nth t) then c.setTrk t 0
  else if !c.trkValid t then (c.setTrk t 5).stick asrcPage 3
  else if c.rd (Asrc.tState.nth t) = 0 ∨ c.rd (Asrc.tState.nth t) = 5 then c.setTrk t 1 else c

/-- Whether the source that a tracker names is asynchronous, so that there is an input to follow (R181). -/
def Chip.trkSource (c : Chip) (t : Nat) : Bool :=
  let i := c.rd (Asrc.tInst.nth t).live
  match c.rd (Asrc.tKind.nth t).live with
  | 1 => i < 16 && c.on (Sap.async.on i)
  | 2 => c.dembState i = 3
  | 4 => c.on (Amap.rEn.nth i).live && c.on (Amap.rAsync.nth i).live
  | _ => false

/-- A tracker's configuration takes effect at a boundary (R183); one whose source or delay changes restarts, its output 0. -/
def Chip.trkApply (c : Chip) (t : Nat) : Chip :=
  let differs := fun (f : Fld) => c.rd (f.nth t) ≠ c.rd (f.nth t).live
  let restart := differs Asrc.tKind || differs Asrc.tInst || differs Asrc.tRate || differs Asrc.tAdelay
  let c := c.copyWords 0 asrcPage (0x100 + 16 * t) (0x104 + 16 * t) 8
  let st := c.rd (Asrc.tState.nth t)
  if restart ∧ 1 ≤ st ∧ st ≤ 4 then (c.setTrk t 1).updTrk t (fun x => { x with out := .silent, fall := false }) else c

/-- Whether the source channel of an ASRC channel exists (R184). -/
def Chip.asrcHas (c : Chip) (ch : Nat) : Bool :=
  let t := c.chanTrk ch
  let i := c.rd (Asrc.tInst.nth t).live
  let k := c.rd (Asrc.chCh.nth ch).live
  c.on (Asrc.chEn.nth ch).live && c.trkSource t && (match c.rd (Asrc.tKind.nth t).live with
    | 1 => if c.on (Sap.compact.on i) then k < c.sapUsed false i else c.sapMask false i k
    | 2 => bit (c.rd (Amap.dPresent.nth i)) k
    | 4 => k < c.rd (Amap.rNch.nth i).live
    | _ => false)

/-- The newest samples of the source channel that an ASRC channel converts (R184). -/
def Chip.asrcInput (c : Chip) (ch : Nat) : List Smp :=
  let t := c.chanTrk ch
  let kind := c.rd (Asrc.tKind.nth t).live
  let i := c.rd (Asrc.tInst.nth t).live
  Store.get [] c.aud.asrcIn (65536 * kind + (if kind = 2 then 32 else 64) * i + c.rd (Asrc.chCh.nth ch).live)

/-- The samples of an ASRC channel in the period before boundary `m` (R182, R183), where it has any: that stamped t is the input
at the time that the tracker's ratio and phase give for instant(t) less `ADELAY`, one value for every entry that names the
channel. The spec gives the conversion's limits and no arithmetic, so the samples are free values (log entry 2). -/
def Chip.asrcBlock (c : Chip) (ch m : Nat) : Option (List Int) :=
  let t := c.chanTrk ch
  let x := c.trkx t
  let p := c.periodLen
  if !c.asrcHas ch ∨ x.out = .silent then none
  else
    let ins := (c.asrcInput ch).map (fun s => (s.stamp, s.v))
    let b := (List.range p).map (fun (k : Nat) => smp32 (Config.asrcSample ins
      (65536 * ((stampAdd m ((k : Int) - p) : Int) - 4 * c.adelay t)) x.useRatio x.usePhase))
    some (match x.out with | .rising => fadeIn p b | .falling => fadeOut p b | _ => b)

/-- The ASRC channels fill their rings up to boundary `m`, with the channel table and the trackers of the period that ends there (R177,
R182 to R184). -/
def Chip.asrcFill (c : Chip) (m : Nat) : Chip :=
  ((List.range 512).filter (fun ch => c.on (Asrc.chEn.nth ch).live)).foldl (fun c ch =>
    match c.asrcBlock ch m with
    | none => c
    | some b =>
      let first := stampAdd m (-(b.length : Int))
      let nonPcm := ((c.asrcInput ch).head?.map Smp.nonPcm).getD false
      c.updAud (fun a => { a with rings := Store.upd [] a.rings (65536 * 3 + ch) (fun r =>
        (b.zipIdx).foldl (fun r s => Store.set {} r ((first + s.2) % 8192) ⟨(first + s.2) % 2 ^ 32, s.1, nonPcm⟩) r) })) c

/-! ## Maps -/

/-- The flow entries that an enabled receive descriptor names (R190). -/
def Chip.rxFlows (c : Chip) (d : Nat) : List Nat :=
  c.rd (Amap.rFlowA.nth d) :: (if c.on (Amap.rBEn.nth d) then [c.rd (Amap.rFlowB.nth d)] else [])

/-- Octets of a sample in a flow format (R190). -/
def octetsOf (fmt : Nat) : Nat := match fmt with | 0 => 2 | 1 => 3 | _ => 4

/-- Whether the selection of an intake word is out of range (R194, R196). -/
def intakeBad (w : Nat) : Bool :=
  let sel := w / 8 % 65536
  match w % 8 with
  | 0 => sel ≠ 0
  | 1 => 1024 ≤ sel
  | 2 => 8192 ≤ sel
  | 3 => 512 ≤ sel
  | 4 => 32768 ≤ sel
  | 5 => 4096 ≤ sel
  | _ => true

/-- Whether an enabled transmit descriptor breaks reason 2 (R196). -/
def Chip.txBad (c : Chip) (d : Nat) : Bool :=
  let n := c.rd (Amap.tNch.nth d)
  let f := c.rd (Amap.tFmt.nth d)
  let s := c.rd (Amap.tSpp.nth d)
  c.on (Amap.tEn.nth d) && (n = 0 || 64 < n || f = 3 || 4096 < c.rd (Amap.tBase.nth d) + n || s = 0 || 1440 < s * n * octetsOf f)

/-- Whether an enabled receive descriptor breaks reason 3 (R196). -/
def Chip.rxBad (c : Chip) (d : Nat) : Bool :=
  let n := c.rd (Amap.rNch.nth d)
  c.on (Amap.rEn.nth d) && (n = 0 || 64 < n || c.rd (Amap.rFmt.nth d) = 3 ||
    (!c.on (Amap.rAsync.nth d) && c.rd (Amap.rRate.nth d) ≠ c.rd Sched.fs))

/-- The first offence of the shadows: lowest window index, then lowest reason (R196). DESIGN CHOICE (log entry 17): an offence of a
descriptor has the index of its first word, whichever of its words holds the field. -/
def Chip.validateAmap (c : Chip) : Option (Nat × Nat) :=
  let f := Amap.intake
  let lo := placeKey f.space f.page 0 0
  let r1 := (Store.range lo (placeKey f.space f.page 4096 0) c.flds).filterMap (fun p =>
    if intakeBad p.2 then some (1, (p.1 - lo) / 32) else none)
  let rx := (List.range 512).filter (fun d => c.on (Amap.rEn.nth d))
  let tx := (List.range 512).filter (fun d => c.on (Amap.tEn.nth d))
  let r3 := rx.filterMap (fun d => if c.rxBad d then some (3, 28672 + 4 * d) else none)
  let r4 := rx.filterMap (fun d =>
    if rx.any (fun k => k < d && (c.rxFlows k).any (fun x => (c.rxFlows d).contains x)) then some (4, 28672 + 4 * d) else none)
  let r2 := tx.filterMap (fun d => if c.txBad d then some (2, 30720 + 4 * d) else none)
  let r5 := tx.filterMap (fun d =>
    if tx.any (fun k => k < d && c.rd (Amap.tQueue.nth k) = c.rd (Amap.tQueue.nth d)) then some (5, 30720 + 4 * d) else none)
  (r1 ++ r3 ++ r4 ++ r2 ++ r5).foldl (fun a x =>
    match a with
    | none => some x
    | some y => if x.2 < y.2 || (x.2 = y.2 && x.1 < y.1) then some x else some y) none

/-- Whether a receive descriptor names the same flow entries in two states, so that the merging of its paths goes on (R191). -/
def Chip.sameFlows (a b : Chip) (d : Nat) : Bool :=
  [Amap.rEn, Amap.rBEn, Amap.rFlowA, Amap.rFlowB].all (fun f => a.rd (f.nth d).live = b.rd (f.nth d).live)

/-- The shadows of the maps go live together (R196). A receive descriptor that names other flow entries starts its merging anew (R191). -/
def Chip.amapApply (c : Chip) : Chip :=
  let was := c
  let c := (c.copyWords 1 amapPage 0 4096 9).copyWords 1 amapPage 8192 32768 9
  let c := c.copyWords 0 amapPage 0x100 0x180 8
  let c := c.updAud (fun a => { a with txNext := a.txNext.filter (fun p => c.on (Amap.tEn.nth p.1).live),
                                       rxf := a.rxf.filter (fun p => c.sameFlows was p.1) })
  ((c.wr Amap.code 3).wr Amap.go 0).stick amapPage 0

/-- The AMAP tables and group delays in use and their shadows take COLD values at the boundary that follows a BLOCK reset, whatever
was written since (R200). -/
def Chip.amapBlank (c : Chip) : Chip :=
  let clear := fun (s : Store Nat) (sp lo hi : Nat) => Store.clear (placeKey sp amapPage lo 0) (placeKey sp amapPage hi 0) s
  let flds := [1, 9].foldl (fun s sp => clear s sp 0 32768) c.flds
  { (c.updAud (fun a => { a with txNext := [], rxf := [] })) with
    flds := [0, 8].foldl (fun s sp => clear s sp 0x100 0x180) flds, power := { c.power with amapDue := false } }

/-- Transmit descriptors that have come into use send from stamp `m` on (R192). -/
def Chip.txStart (c : Chip) (m : Nat) : Chip :=
  let f := Amap.tEn.live
  let lo := placeKey f.space f.page 30720 0
  let on_ := ((Store.range lo (placeKey f.space f.page 32768 0) c.flds).filter (fun p => p.1 % 32 = f.lo && p.2 = 1)).map
    (fun p => (p.1 - lo) / 128)
  c.updAud (fun a => { a with txNext := on_.foldl (fun s d => if (Store.get none s d).isNone then Store.set none s d (some m) else s) a.txNext })

/-- A commit of the maps (R196). -/
def Chip.amapGo (c : Chip) : Chip :=
  if c.on Amap.go then c.stick amapPage 8
  else (((c.wr Amap.go 1).wr Amap.code 1).wr Amap.reason 0).wr Amap.index 0

/-- A commit of the ASRC channel table (R184). -/
def Chip.asrcGo (c : Chip) : Chip := c.wr Asrc.go 1

/-- The shadow channel table goes into use at the boundary (R184). -/
def Chip.asrcApply (c : Chip) : Chip :=
  if !c.on Asrc.go then c
  else
    let c := (c.copyWords 1 asrcPage 0 512 9).wr Asrc.go 0
    (c.wr Asrc.used ((List.range 512).filter (fun ch => c.on (Asrc.chEn.nth ch).live)).length).stick asrcPage 4

/-- A commit of a port's masks (R176). DESIGN CHOICE (log entry 17): the masks are those that the shadow registers hold now, whatever is
written to them until the block boundary. -/
def Chip.sapMaskGo (c : Chip) (p : Nat) : Chip :=
  ((c.copyWords 0 (sapPage p) 0x50 0x60 16).wr (Sap.maskGo.on p) 1).updSap p (fun x => { x with maskRun := some 0 })

/-- A mask goes into use (R176): the transmit mask ends the commit. -/
def Chip.sapMaskUse (c : Chip) (tx : Bool) (p : Nat) : Chip :=
  let page := sapPage p
  let lo := if tx then 0x58 else 0x50
  let c := { c with flds := Store.copy (placeKey 16 page lo 0) (placeKey 16 page (lo + 8) 0) (placeKey 8 page lo 0) c.flds }
  let c := (c.updSap p (fun x => { x with maskRun := none, txDue := !tx })).showSap p
  if tx then (c.wr (Sap.maskGo.on p) 0).stick page 7 else c

/-- Both masks go into use (R176). -/
def Chip.sapMasksUse (c : Chip) (p : Nat) : Chip := (c.sapMaskUse false p).sapMaskUse true p

/-! ## De-embedding and embedding -/

/-- The stamp of a de-embedded sample (R187): its instant with the bank delay, and the delay of a locked synchroniser, added;
the first sample instant at or after. A `LOCKED` input has no ε in use at a bank, and its measured one counts. -/
def Chip.dembStamp (c : Chip) (i instant : Nat) : Nat :=
  let f := c.inputFmt i
  let l : Int := wordsPerLine f
  let lock : Int := match (c.input i).sync with
    | some n => if c.on (Fsync.locked.nth n) then l * (totalLines f * clampN 1 2 (c.rd (Fsync.fsK.nth n)) : Nat) else 0
    | none => 0
  let eps := if lock = 0 then (c.bank i).eps else c.rdS (Vin.eps.nth i)
  let d : Int := 2 * l - eps + lock
  let den : Int := (wordRateKHz f * 1000000 : Nat)
  let num : Int := (instant : Int) * den + d * (c.rateKHz * 1000 : Nat) * (if fractional (rateOf f) then 1001 else 1000) * 65536
  ((-((-num) / (den * 65536))) % 4294967296).toNat

/-- A de-embedded sample (R197): 24 bits, or the upper 20 of ST 272 without extended data. -/
def embSample (fmt : Nat) (s : EmbSample) : Int :=
  smp32 (if rasterOf fmt ≤ 1 ∧ !s.ext then s.sample.toNat / 16 * 4096 else 256 * s.sample.toNat)

/-- The samples of one line reach their de-embedder (R186, R187, R189): its rings while its audio is in step, else the
converter's input. Audio that is synchronous at 96 kHz has 16 channels. -/
def Chip.deembed (c : Chip) (i line : Nat) (ss : List EmbSample) : Chip :=
  let d := c.rd (Vin.demb.nth i).live
  if !c.on (Vin.dembEn.nth i).live ∨ (c.on (Vin.bond.nth (i - i % 4)).live ∧ i % 4 ≠ 0) ∨ (c.dembInputs d).head? ≠ some i then c
  else
    let x := c.dembx d
    let c := if line = 1 then (c.wr (Amap.dPresent.nth d) x.cur).updDemb d (fun x => { x with cur := 0 }) else c
    if ss.isEmpty then c
    else
      let sync := ss.all (fun s => s.synced)
      let bad := ss.any (fun s => s.bad)
      let c := c.updDemb d (fun x => { x with from_ := some i, sync := sync, bad := x.bad || bad,
                                              cur := ss.foldl (fun w s => setBit w s.ch true) x.cur })
      let c := if bad then (c.inc (Amap.dErr.nth d)).stick amapPage 5 else c
      let fmt := c.inputFmt i
      let step := c.dembTimed i && sync
      ss.foldl (fun c s =>
        if s.bad ∨ (c.on Sched.fs ∧ s.synced ∧ 16 ≤ s.ch.val) then c
        else if step then c.ringPut 2 (32 * d + s.ch) (c.dembStamp i s.instant.toNat) (embSample fmt s) s.nonPcm
        else c.asrcPut 2 (32 * d + s.ch) s.instant.toNat (embSample fmt s) s.nonPcm) c

/-- Source `0x69` is judged by blocks of the de-embedder (R201). -/
def Chip.judgeDembs (c : Chip) : Chip :=
  let bad := c.aud.dembs.filter (fun p => p.2.bad)
  (c.judgeAll 0x69 (bad.map (fun p => (amapPage, p.1, 0)))).updAud (fun a =>
    { a with dembs := a.dembs.map (fun p => (p.1, { p.2 with bad := false })) })

/-- Channels that embedder `e` inserts (R188). -/
def Chip.embChannels (c : Chip) (e fmt : Nat) : List Nat :=
  (List.range 32).filter (fun ch => bit (c.rd (Amap.eGroups.nth e).live) (ch / 4) &&
    (if c.on Sched.fs then ch < 16 && 2 ≤ rasterOf fmt else if rasterOf fmt ≤ 1 then ch < 16 else true))

/-- A field of an output begins: its embedder owes a control packet again (R188). -/
def Chip.embedField (c : Chip) (o : Nat) : Chip :=
  let e := c.rd (Xpt.emb.nth o).live
  c.updAud (fun a => { a with embs := Store.upd {} a.embs e (fun x => { x with acp := false }) })

/-- The embedder of an output serves one line (R188): the stamps whose instant has passed are placed as far as `room` sample
instants fit, the rest wait; a stamp still waiting two lines after its own is dropped, source `0x6A`. Of a quad-link set link 1
alone is embedded in. The first line of a field owes a control packet. Channel status declares linear PCM (R189); PRESUMED (log entry
17): a status block starts with each stamp that is a multiple of 192. -/
def Chip.embedLine (c : Chip) (o line fmt room : Nat) : Chip :=
  let e := c.rd (Xpt.emb.nth o).live
  let c := if fieldStart fmt line then c.embedField o else c
  let x : EmbX := Store.get {} c.aud.embs e
  let first := x.next.getD c.amc
  let fresh := (List.range (min 64 (stampDiff c.amc first + 1).toNat)).map (fun k => ((first + k) % 2 ^ 32, 0))
  let all := x.waits ++ fresh
  let sw := switchLine c.xpt.swline1 fmt
  let room := if line = sw ∨ line = sw + 1 then 0 else room
  let placed := all.take room
  let left := (all.drop room).map (fun p => (p.1, p.2 + 1))
  let kept := left.filter (fun p => p.2 ≤ 2)
  let drops := left.length - kept.length
  let embeds := !(o % 4 ≠ 0 && c.outBonded o) && !(c.on Sched.fs && rasterOf fmt ≤ 1)
  let chs := if embeds then c.embChannels e fmt else []
  let acp := c.on (Amap.eAcp.nth e).live && !x.acp && room ≠ 0 && embeds
  let out := placed.flatMap (fun p => chs.map (fun ch => (p.1, Config.clockPhase o line p.1, ch, 
    ofSigned 24 (roundTop 24 (c.egressAt (1024 + 32 * e + ch) p.1)), statusBit (c.on Sched.fs) p.1)))
  let c := c.updAud (fun a => { a with embs := Store.set {} a.embs e ⟨some ((c.amc + 1) % 2 ^ 32), kept, x.acp || acp⟩ })
  let c := if out.isEmpty ∧ !acp then c else c.emit (.embed o line out acp)
  if drops = 0 then c
  else ((c.addSat (Amap.eDrop.nth e) (drops * chs.length)).raise 0x6A amapPage e 0).stick amapPage 6

end Sys2Proof.Machine
end

