-- ==== Sys2Proof/Machine/LaneOps.lean ====
section
/-! DEFINITION. Shared operations of the lane groups: scrambling and stuffing (R39 to R42), frames and slots (R44 to R56),
training state changes (R58 to R60). -/

namespace Sys2Proof.Machine

/-! ## Bits on the lane -/

/-- The scrambler seed of lane `l` (R39). -/
def laneSeed (l : Nat) : Nat := 0x7FFFFFFF ^^^ (l * 0x01111111)

/-- Scramble bits: the same for both directions (R39). The answer ends with the state after the last bit. -/
def scramble : Nat → List Bool → List Bool × Nat
  | s, [] => ([], s)
  | s, d :: r =>
    let p := s.testBit 30 != s.testBit 27
    let q := scramble (s * 2 % 2 ^ 31 + b2n p) r
    ((d != p) :: q.1, q.2)

/-- The run state of a lane: length of the present run and its bit. -/
structure Run where
  n : Nat
  last : Bool

/-- Count one bit. -/
def Run.next (r : Run) (b : Bool) : Run := if r.n ≠ 0 ∧ b = r.last then ⟨r.n + 1, b⟩ else ⟨1, b⟩

/-- Send framed bits, with a complementary bit after every run of 24 (R40). -/
def stuff : Run → List Bool → List Bool × Run
  | r, [] => ([], r)
  | r, b :: l =>
    let r := r.next b
    if r.n = 24 then
      let q := stuff ⟨1, !b⟩ l
      (b :: (!b) :: q.1, q.2)
    else
      let q := stuff r l
      (b :: q.1, q.2)

/-- Alternating fill bits, the first the complement of the last bit sent (R41). -/
def fillBits : Nat → Bool → List Bool
  | 0, _ => []
  | n + 1, last => (!last) :: fillBits n (!last)

/-- What the receiver has of a frame so far: the run, the framed bits in reverse, their number, a violation seen. -/
structure Destuff where
  run : Run
  out : List Bool
  n : Nat
  viol : Bool

/-- One received bit (R42): the bit after a run of 24 is removed; past 1,024 framed bits the rest is ignored. -/
def Destuff.next (d : Destuff) (b : Bool) : Destuff :=
  if d.run.n = 24 then { d with run := ⟨1, b⟩, viol := d.viol || (d.n < 1024 && b = d.run.last) }
  else if d.n < 1024 then { d with run := d.run.next b, out := b :: d.out, n := d.n + 1 }
  else { d with run := d.run.next b }

/-- The framed bits of one period of a lane, with the violation and the run state after it. -/
def destuff (r : Run) (bits : List Bool) : List Bool × Bool × Run :=
  let d := bits.foldl Destuff.next ⟨r, [], 0, false⟩
  (d.out.reverse, d.viol, d.run)

/-! ## The frame -/

/-- The header of R45 that this device sends. -/
def header (fseq active hold health trn q mark lane : Nat) : Nat :=
  0xA7 * 2 ^ 56 + fseq % 256 * 2 ^ 48 + active % 2 * 2 ^ 47 + hold % 2 * 2 ^ 46 + health % 4 * 2 ^ 42 + trn % 8 * 2 ^ 32 +
  q % 256 * 2 ^ 24 + mark % 65536 * 2 ^ 8 + lane % 8 * 2 ^ 5

/-- A slot of 58 bits (R52). -/
def slotBits (s : TxSlot) : Nat :=
  min 5 s.words.length * 2 ^ 55 + (s.mark.getD 0) % 8 * 2 ^ 52 +
  (List.range 5).foldl (fun a i => a + s.words.getD i 0 % 1024 * 2 ^ (40 - 10 * i)) 0

/-- The words of a received slot below `WCNT` (R52). -/
def slotWordsOf (v : Nat) : List Nat :=
  (List.range (bits v 57 55)).map (fun i => bits v (49 - 10 * i) (40 - 10 * i))

/-- Slot `j` of a 928-bit payload (R52). -/
def slotOf (payload j : Nat) : Nat := bits payload (927 - 58 * j) (870 - 58 * j)

/-- A slot that is discarded (R56): more than five words, or a marker on no word. -/
def slotBad (v : Nat) (mark : Bool) : Bool := 5 < bits v 57 55 || (mark && bits v 57 55 ≤ bits v 54 52)

/-! ## Groups -/

/-- Lane `l` of group `g`. -/
def laneKey (g l : Nat) : Nat := 8 * g + l
def Chip.lane (c : Chip) (g l : Nat) : Lane := Store.get {} c.lanes (laneKey g l)
def Chip.updLane (c : Chip) (g l : Nat) (f : Lane → Lane) : Chip := { c with lanes := Store.upd {} c.lanes (laneKey g l) f }

/-- Group `g`. -/
def Chip.grp (c : Chip) (g : Nat) : Group := Store.get {} c.grps g
def Chip.updGrp (c : Chip) (g : Nat) (f : Group → Group) : Chip := { c with grps := Store.upd {} c.grps g f }

/-- The training state of a group (R58). -/
def Chip.grpState (c : Chip) (g : Nat) : Nat := c.rd (Lgrp.state.on g)

/-- The source under which a condition of a group is reported: `0x1B` on LGTW (R62). -/
def laneSrc (g src : Nat) : Nat := if g = 32 then 0x1B else src

/-- Report an always-lasting lane condition and set its sticky bit (R62, R70). Conditions of the whole group carry instance
8. -/
def Chip.laneRaise (c : Chip) (g src inst b : Nat) : Chip :=
  (c.raise (laneSrc g src) (lgrpPage g) inst 0).stick (lgrpPage g) b

/-- What follows when a group is no longer UP (R60, R328): its inputs are lost, and so are the candidates it carries. -/
def Chip.leaveUp (c : Chip) (g : Nat) : Chip :=
  let c := if g < 32 then c.loseGroup g else c
  let c := if g < 32 ∧ c.rd MerSel.fabGrp = g then (c.updMer (fun m => { m with fabMark := none })).candLost 6 else c
  if g = 32 then { c with twin := { c.twin with tx := [] } }.candLost 7 else c

/-- Put a group into a state and clear what belongs to the old one. -/
def Chip.setGrp (c : Chip) (g st wait : Nat) : Chip :=
  let old := c.grpState g
  let c := ((c.wr (Lgrp.state.on g) st).wr (Lgrp.laneRetrain.on g) 0).updGrp g (fun x => { x with skewRun := 0, wait := wait })
  let c := (List.range 8).foldl (fun c l => c.wr ((Lgrp.laneRetrainReq.on g).nth l) 0) c
  let c := if st = 0 ∨ st = 6 then c.wr (Lgrp.train.on g) 0 else c
  if old = 6 ∧ st ≠ 6 then c.leaveUp g else c

/-- A group goes to DOWN; from UP that is source `0x19` (R60). -/
def Chip.downGroup (c : Chip) (g wait : Nat) : Chip :=
  let c := if c.grpState g = 6 then c.laneRaise g 0x19 8 9 else c
  c.setGrp g 0 wait

/-- A whole-group retrain condition (R58, R59): to CLOCK, or to DOWN until `TRAIN` is written when `AUTO_RETRAIN` = 0. -/
def Chip.wholeRetrain (c : Chip) (g : Nat) : Chip :=
  if c.grpState g ≠ 6 then c
  else if c.on (Lgrp.autoRetrain.on g) then c.setGrp g 1 0 else c.downGroup g 2

/-- Note a fill of the elastic buffer (R38). -/
def Chip.setFill (c : Chip) (g f : Nat) : Chip :=
  let c := c.wr (Lgrp.ebufFill.on g) f
  (c.wr (Lgrp.ebufMin.on g) (min f (c.rd (Lgrp.ebufMin.on g)))).wr (Lgrp.ebufMax.on g) (max f (c.rd (Lgrp.ebufMax.on g)))

/-- Whether a lane is in lane-local retrain. -/
def Chip.laneBusy (c : Chip) (g l : Nat) : Bool := bit (c.rd (Lgrp.laneRetrain.on g)) l

/-- Start or end a lane-local retrain (R59). -/
def Chip.setLaneBusy (c : Chip) (g l : Nat) (b : Bool) : Chip :=
  (c.updLane g l (fun x => { x with alignRun := 0 })).wr (Lgrp.laneRetrain.on g) (setBit (c.rd (Lgrp.laneRetrain.on g)) l b)

/-- `ACTIVE` and `HOLD` that this device sends (R63, R375). -/
def Chip.sendsActive (c : Chip) : Bool :=
  let st := c.pairState
  st = 0 || st = 2 || st = 3 || (st = 4 && !c.on (Lgrp.rxActive.on 32))
def Chip.sendsHold (c : Chip) : Bool := c.pairState = 4 && !c.on (Lgrp.rxActive.on 32)

/-! ## Management state and data path (R397) -/

/-- Whether the received `LSIDE` of I/O group `g` differs from what this device expects (R397): its own side while it is the
active device, the mate's while it is in `STANDBY`. -/
def Chip.lsideDiffers (c : Chip) (g : Nat) : Bool :=
  let st := c.pairState
  let own := b2n c.straps.side
  let bound := c.xpt.bound.any (fun o => c.rd (Xpt.transport.nth o).live = 1 && c.rd (Xpt.group.nth o).live = g)
  c.grpState g = 6 && bound &&
    ((2 ≤ st && st ≤ 4 && c.rd (Lgrp.lside.on g) ≠ 1 + own) || (st = 6 && c.rd (Lgrp.lside.on g) ≠ 2 - own))

/-- Groups whose difference has ended leave `LSIDE_BAD` (R397). -/
def Chip.lsideEase (c : Chip) : Chip :=
  if c.twin.lsideBad.isEmpty then c
  else
    let done := c.twin.lsideBad.filter (fun g => !c.lsideDiffers g)
    let c := { c with twin := { c.twin with lsideBad := c.twin.lsideBad.filter (fun g => c.lsideDiffers g) } }
    (done.foldl (fun c g => c.passHolds 0xC8 twinPage g) c).wr Twin.lsideBad c.twin.lsideBad.length

end Sys2Proof.Machine
end

