-- ==== Sys2Proof/Machine/Retimers.lean ====
section
/-! DEFINITION. Retimers (R13, R14): two blocks each, one being filled by the core and one that the edge domain has. -/

namespace Sys2Proof.Machine

/-- A retimer; an empty one before its first block. -/
def Chip.retimer (c : Chip) (u : RetimerUse) : Retimer := (c.retimers.find? (fun r => r.use = u)).getD { use := u }

/-- Change a retimer. -/
def Chip.setRetimer (c : Chip) (r : Retimer) : Chip := { c with retimers := r :: c.retimers.filter (fun q => q.use ≠ r.use) }

/-- The core has filled a block and marks it complete. -/
def Chip.fillBlock (c : Chip) (u : RetimerUse) (ws : List Nat) : Chip := c.setRetimer { c.retimer u with filling := some ws }

/-- A retimer releases a block at its release event: the one it was filled with, or the previous one again, flagged. -/
def Chip.releaseBlock (c : Chip) (u : RetimerUse) (fresh : Option (List Nat)) : Chip :=
  let r := c.retimer u
  match fresh with
  | some ws => (c.setRetimer { r with filling := none, block := ws, again := false }).emit (.block u ws false)
  | none => (c.setRetimer { r with again := true }).emit (.block u r.block true)

end Sys2Proof.Machine
end

