-- ==== Sys2Proof/Machine/Compose.lean ====
section
/-! DEFINITION. How a composer line comes about (R134 to R141): where the picture stands in a line, cropping, scaling and
blending. -/

namespace Sys2Proof.Machine

/-! ## Pictures in lines -/

/-- The lines of a layer's picture as they stand: those a synchroniser read, or those of a picture of a bank or, for a source from 4096
on, of a `LOCKED` synchroniser. -/
def Chip.picLines (c : Chip) (p : LayerPic) : List BankLine :=
  match p.ref with
  | some (s, n) =>
    ((if s < 4096 then (c.bank s).pics else (c.sync (s - 4096)).pics).find? (fun q => q.1 = n)).elim [] Prod.snd
  | none => p.lines

/-- A word of the active part of a picture row. A row that never came has free words (log entry 2). -/
def lineWord (base : Nat) (fmt : Nat) (ls : List BankLine) (f2 : Bool) (row k : Nat) : Nat :=
  match ls.find? (fun l => l.line = firstActive fmt f2 + row) with
  | some l => if l.words.isEmpty then blankWord k
    else l.words.getD (l.words.length - 2 * activeWidth fmt + k) (blankWord k)
  | none => Config.freeNat (base + row * 16384 + k) % 1024

/-! ## Scaling -/

/-- The components of a pixel: luma, the two chroma components and alpha. -/
inductive Comp4 | y | cb | cr | a
  deriving DecidableEq, Repr

/-- The clamp of a filtered component (R137). -/
def clampComp (k : Comp4) (v : Int) : Int :=
  match k with
  | .y => clampI 64 940 v
  | .cb | .cr => clampI 64 960 v
  | .a => clampI 0 1023 v

/-- The 16.16 step of an axis (R135). -/
def scaleInc (s d : Nat) : Int := (((s * 65536 + d / 2) / d : Nat) : Int)

/-- The first position of an axis (R135): the shift rounds down. -/
def scaleInit (s d : Nat) : Int := (scaleInc s d - 65536) / 2

/-- The position of output sample `x` (R135). -/
def scalePos (s d : Nat) (x : Int) : Int := x * scaleInc s d + scaleInit s d

/-- The phase of a position (R135). -/
def phaseOf (pos : Int) : Nat := ((pos / 1024) % 64).toNat

/-- One filter pass at a position (R135, R137): `taps` are the coefficients of its phase, `n` the samples of the axis. -/
def filterAt (k : Comp4) (taps : Nat → List Int) (n : Nat) (pos : Int) (p : Int → Int) : Int :=
  let cs := taps (phaseOf pos)
  let first := pos / 65536 - ((cs.length / 2 : Nat) : Int) + 1
  let acc := ((List.range cs.length).map (fun (j : Nat) => cs.getD j 0 * p (clampI 0 ((n : Int) - 1) (first + (j : Int))))).foldl
    (· + ·) 0
  clampComp k ((acc + 2048) / 4096)

/-- The fixed 4-tap filter of a monitor composer (R139). -/
def monitorTaps (k : Nat) : List Int :=
  if k = 0 then [1024, 2047, 1025, 0]
  else [1024 - 16 * (k : Int), 2048 - 16 * (k : Int), 1024 + 16 * (k : Int), 16 * (k : Int)]

/-- The horizontal taps of bank `b`, phase `k` (R138). -/
def Chip.hTaps (c : Chip) (n b k : Nat) : List Int :=
  (List.range 4).flatMap (fun j =>
    [c.rdS ((Cmp.coefE.on n).nth (512 * b + 4 * k + j)), c.rdS ((Cmp.coefO.on n).nth (512 * b + 4 * k + j))])

/-- The vertical taps of bank `b`, phase `k` (R138). -/
def Chip.vTaps (c : Chip) (n b k : Nat) : List Int :=
  (List.range 3).flatMap (fun j =>
    [c.rdS ((Cmp.coefE.on n).nth (512 * b + 256 + 3 * k + j)), c.rdS ((Cmp.coefO.on n).nth (512 * b + 256 + 3 * k + j))])

/-- A register of layer `l` of composer `n`, in the copy that `g` names. -/
def lyr (f : Fld) (n l : Nat) : Fld := (f.nth l).on n

/-- Sample `(x, row)` of a layer's crop, before pre-decimation: column in samples of the component, row in lines of the
picture (a frame line, or a field line of an interlaced source). A place outside the picture reads its nearest edge. -/
def Chip.cropSample (c : Chip) (n l base : Nat) (p : LayerPic) (k : Comp4) (x row : Int) : Int :=
  let sx : Int := c.rd (lyr Cmp.lSx n l).live
  if c.on (lyr Cmp.lKind n l).live then
    let px := match k with | .y | .a => x + sx % 2 | .cb => 2 * x | .cr => 2 * x + 1
    let w := (p.surf.getD row.toNat []).getD px.toNat 0
    match k with
    | .y => ((w % 1024 : Nat) : Int)
    | .cb | .cr => ((w / 1024 % 1024 : Nat) : Int)
    | .a => ((w / 2 ^ 20 % 1024 : Nat) : Int)
  else
    let w : Int := activeWidth p.fmt
    let r := (clampI 0 ((pictureRows p.fmt : Int) - 1) row).toNat
    let word := fun (i : Int) => (lineWord base p.fmt (c.picLines p) p.f2 r i.toNat : Int)
    match k with
    | .y => word (2 * clampI 0 (w - 1) (sx + x) + 1)
    | .cb => word (4 * clampI 0 (w / 2 - 1) (sx / 2 + x))
    | .cr => word (4 * clampI 0 (w / 2 - 1) (sx / 2 + x) + 2)
    | .a => 1023

/-- Sample `(x, row)` after pre-decimation (R139). -/
def Chip.predecSample (c : Chip) (n l base : Nat) (p : LayerPic) (k : Comp4) (x row : Int) : Int :=
  if 16 ≤ n ∧ c.on (lyr Cmp.lPredec n l).live then
    (c.cropSample n l base p k (2 * x) row + c.cropSample n l base p k (2 * x + 1) row + 1) / 2
  else c.cropSample n l base p k x row

/-- The first picture row of a crop and its number of rows in the picture: field lines of an interlaced source (R136). DESIGN CHOICE (log
entry 16): an odd `SY` rounds down to field line (`SY` - 1) / 2, an odd `SH` gives field 1 the odd line, and field lines are clamped to
those of the crop. -/
def Chip.cropRows (c : Chip) (n l : Nat) (p : LayerPic) : Int × Nat :=
  let sy := c.rd (lyr Cmp.lSy n l).live
  let sh := c.rd (lyr Cmp.lSh n l).live
  if c.on (lyr Cmp.lKind n l).live then (0, sh)
  else if interlaced p.fmt then (((sy / 2 : Nat) : Int), (sh + 1 - b2n p.f2) / 2) else ((sy : Int), sh)

/-- The vertical pass (R135 to R137): component `k` of column `x` at destination row `r`. -/
def Chip.vertical (c : Chip) (n l base : Nat) (p : LayerPic) (k : Comp4) (x r : Int) : Int :=
  let s := c.rd (lyr Cmp.lSh n l).live
  let d := c.rd (lyr Cmp.lDh n l).live
  let q := c.cropRows n l p
  let field := interlaced p.fmt && !c.on (lyr Cmp.lKind n l).live
  let pos := if field then (scalePos s d r - (b2n p.f2 : Int) * 65536) / 2 else scalePos s d r
  let sample := fun (i : Int) => c.predecSample n l base p k x (q.1 + i)
  if s = d then sample (clampI 0 ((q.2 : Int) - 1) (pos / 65536))
  else filterAt k (if n < 16 then c.vTaps n (c.rd (lyr Cmp.lVbank n l).live) else monitorTaps) q.2 pos sample

/-- The rows of a surface crop that destination row `r` of a layer reads (R135). -/
def Chip.surfaceRows (c : Chip) (n l : Nat) (r : Int) : List Nat :=
  let s := c.rd (lyr Cmp.lSh n l).live
  let d := c.rd (lyr Cmp.lDh n l).live
  let taps := if n < 16 then 6 else (monitorTaps 0).length
  let pos := scalePos s d r
  let first := pos / 65536 - ((taps / 2 : Nat) : Int) + 1
  (if s = d then [pos / 65536] else (List.range taps).map (fun (j : Nat) => first + (j : Int))).map (fun i =>
    (clampI 0 ((s : Int) - 1) i).toNat)

/-- Component `k` of a layer at destination column `x` (in samples of the component) and row `r` (R135). -/
def Chip.scaled (c : Chip) (n l base : Nat) (p : LayerPic) (k : Comp4) (x r : Int) : Int :=
  let s0 := c.rd (lyr Cmp.lSw n l).live
  let s1 := if 16 ≤ n ∧ c.on (lyr Cmp.lPredec n l).live then s0 / 2 else s0
  let d := c.rd (lyr Cmp.lDw n l).live
  let width := match k with | .y | .a => s1 | _ => s1 / 2
  let sample := fun (i : Int) => c.vertical n l base p k i r
  if s1 = d then sample x
  else filterAt k (if n < 16 then c.hTaps n (c.rd (lyr Cmp.lHbank n l).live) else monitorTaps) width (scalePos s1 d x) sample

/-! ## Blending -/

/-- The effective alpha of a layer pixel (R141). -/
def effAlpha (ga pa : Int) : Int := (ga * pa + 511) / 1023

/-- One blend (R141). -/
def blendOver (s a d : Int) : Int := (s * a + d * (1023 - a) + 511) / 1023

/-- Whether a layer shows its picture: shown or frozen (R133). -/
def LayerPic.visible (p : LayerPic) : Bool := p.show_ = 0 || p.show_ = 6

/-- One component of the output pixel at column `x`, frame line `y`, over the ordinary layers (R141). Chroma takes the alpha of
the even pixel of its pair. -/
def Chip.blendLayers (c : Chip) (n base : Nat) (ls : List (Nat × LayerPic)) (k : Comp4) (x y : Int) (bg : Int) : Int :=
  ls.foldl (fun d q =>
    let l := q.1
    let lx := c.rdS (lyr Cmp.lX n l).live
    let ly := c.rdS (lyr Cmp.lY n l).live
    let u := x - lx
    let v := y - ly
    if q.2.visible && decide (0 ≤ u ∧ u < (c.rd (lyr Cmp.lDw n l).live : Int) ∧ 0 ≤ v ∧ v < (c.rd (lyr Cmp.lDh n l).live : Int)) then
      let even := u - u % 2
      let pa := if c.on (lyr Cmp.lKind n l).live && c.on (lyr Cmp.lPalpha n l).live then
        c.scaled n l base q.2 .a (if k = .y then u else even) v else 1023
      let a := effAlpha (c.rd (lyr Cmp.lGa n l).live) pa
      let s := match k with
        | .y => c.scaled n l base q.2 .y u v
        | _ => c.scaled n l base q.2 k (u / 2) v
      blendOver s a d
    else d) bg

/-- Whether a line of the picture reads a poisoned word of a surface: the line is then treated as late (R159, R423). -/
def Chip.readsPoison (c : Chip) (n fmt line : Nat) : Bool :=
  match activeRow fmt line with
  | some (f2, row) =>
    let y : Int := ((if interlaced fmt then 2 * row + b2n f2 else row : Nat) : Int)
    (Store.get {} c.cmps n).layers.zipIdx.any (fun q =>
      let v := y - c.rdS (lyr Cmp.lY n q.2).live
      !q.1.bad.isEmpty && q.1.visible && decide (0 ≤ v ∧ v < (c.rd (lyr Cmp.lDh n q.2).live : Int)) &&
        (c.surfaceRows n q.2 v).any q.1.bad.contains)
  | none => false

/-- One component with the Keeper blended last, unscaled (R149). -/
def Chip.blendKeeper (c : Chip) (m : Mem) (n : Nat) (k : Comp4) (x y d : Int) : Int :=
  let u := x - (c.rd (Cmp.kX.on n) : Int)
  let v := y - (c.rd (Cmp.kY.on n) : Int)
  let w := c.rd (Cmp.kW.on n)
  if c.on (Cmp.kEn.on n) && c.on (Cmp.kVis.on n) &&
      decide (0 ≤ u ∧ u < (w : Int) ∧ 0 ≤ v ∧ v < (c.rd (Cmp.kH.on n) : Int)) then
    let px := match k with | .y | .a => u | .cb => u - u % 2 | .cr => u - u % 2 + 1
    let word := m.word 3 ((Store.get {} c.cmps n).kBase * 65536 + 4 * (v.toNat * w + px.toNat))
    let s : Nat := match k with | .y | .a => word % 1024 | _ => word / 1024 % 1024
    blendOver s (effAlpha (c.rd (Cmp.kAlpha.on n)) 1023) d
  else d

/-- The active words of an output line of composer `n` at frame line `y` (R141). -/
def Chip.composeRow (c : Chip) (m : Mem) (n fmt : Nat) (y : Nat) : List Nat :=
  let base := c.free
  let ls := (((Store.get {} c.cmps n).layers.zipIdx).map (fun p => (p.2, p.1))).filter (fun p => p.1 ≠ 7 || !c.on (Cmp.kEn.on n))
  let at_ := fun (k : Comp4) (x : Nat) (bg : Nat) =>
    (c.blendKeeper m n k x y (c.blendLayers n base ls k x y bg)).toNat
  (List.range (activeWidth fmt)).flatMap (fun x =>
    [if x % 2 = 0 then at_ .cb x (c.rd (Cmp.bgCb.on n).live) else at_ .cr (x - 1) (c.rd (Cmp.bgCr.on n).live),
     at_ .y x (c.rd (Cmp.bgY.on n).live)])

/-- A whole output line of a composer (R84, R141): its picture in the line structure of its format, with the payload ID that declares
its colorimetry (log entry 13). `prev` is the line before it. -/
def Chip.composeLine (c : Chip) (m : Mem) (n fmt line : Nat) (prev : List Nat) : List Nat :=
  let row := match activeRow fmt line with
    | some (f2, row) => c.composeRow m n fmt (if interlaced fmt then 2 * row + b2n f2 else row)
    | none => []
  buildLine fmt line (secondField fmt line) prev (payloadIdWords fmt line (payloadId fmt (c.rd (Cmp.outClr.on n).live))) row

end Sys2Proof.Machine
end

