-- ==== Sys2Proof/Machine/CmpOps.lean ====
section
/-! DEFINITION. Shared operations of the composers (R126 to R148): surfaces, store units, validation, fences, groups, flips,
the check of layers at a picture start. -/

namespace Sys2Proof.Machine

/-- Composer `n`'s own state. -/
def Chip.comp (c : Chip) (n : Nat) : Comp := Store.get {} c.cmps n
def Chip.updComp (c : Chip) (n : Nat) (f : Comp → Comp) : Chip := { c with cmps := Store.upd {} c.cmps n f }
def Chip.cgrp (c : Chip) (g : Nat) : CGroup := Store.get {} c.cgrps g
def Chip.updCgrp (c : Chip) (g : Nat) (f : CGroup → CGroup) : Chip := { c with cgrps := Store.upd {} c.cgrps g f }

/-- Whether a composer's Keeper is enabled (R149). -/
def Chip.keeperOn (c : Chip) (n : Nat) : Bool := c.on (Cmp.kEn.on n)

/-- Whether a surface descriptor is valid (R131). -/
def Chip.surfValid (c : Chip) (s : Nat) : Bool :=
  let w := c.rd (Cmp.sWidth.nth s)
  let st := c.rd (Cmp.sStride.nth s)
  c.on (Cmp.sValid.nth s) && w % 2 = 0 && 2 ≤ w && w ≤ st && st % 64 = 0 &&
    c.rd (Cmp.sBase.nth s) * 65536 + st * c.rd (Cmp.sHeight.nth s) * 4 ≤ 2 ^ 31

/-- The formats that a composer accepts (R126). -/
def composerFmt (n fmt : Nat) : Bool :=
  validFmt fmt && (rasterOf fmt ≤ 5 || (n < 16 && (rasterOf fmt = 7 || rasterOf fmt = 8)))

/-- Whether a format is in a composer's plan (R126). -/
def Chip.planHas (c : Chip) (n fmt : Nat) : Bool :=
  fmt ≠ 0xFF && (List.range 3).any (fun j => c.rd (Cmp.fset.on n) / 256 ^ j % 256 = fmt)

/-- Layers whose ordinary configuration counts: layer 7 does not while the Keeper is enabled (R142). -/
def Chip.countedLayers (c : Chip) (n : Nat) : List Nat := if c.keeperOn n then List.range 7 else List.range 8

/-- The clipped size of an interval of a destination (R129). -/
def clipLen (p : Int) (len bound : Nat) : Nat := (min (p + len) bound - max p 0).toNat

/-- Store units of one layer (R129). -/
def storeUnits (fmt dw dh : Nat) : Nat :=
  if interlaced fmt then 3 * ((dw * ((dh + 1) / 2) * 4 + 65535) / 65536) else 2 * ((dw * dh * 4 + 65535) / 65536)

/-- Store units of the pending configuration of composer `n` (R129). -/
def Chip.pendUnits (c : Chip) (n : Nat) : Nat :=
  let fmt := c.rd (Cmp.outFmt.on n).pend
  if !validFmt fmt then 0
  else (c.countedLayers n).foldl (fun a l =>
    if c.on (lyr Cmp.lEn n l).pend then
      a + storeUnits fmt (clipLen (c.rdS (lyr Cmp.lX n l).pend) (c.rd (lyr Cmp.lDw n l).pend) (activeWidth fmt))
        (clipLen (c.rdS (lyr Cmp.lY n l).pend) (c.rd (lyr Cmp.lDh n l).pend) (activeLines fmt))
    else a) 0

/-- Units of a stack's composer region (R129): stack 0 for even composers, stack 1 for odd ones. -/
def regionUnits (n : Nat) : Nat := if n % 2 = 0 then 61440 else 65536

/-- Units in use on the stack of composer `n`. -/
def Chip.usedUnits (c : Chip) (n : Nat) : Nat :=
  (c.cmps.filter (fun p => p.1 % 2 = n % 2)).foldl (fun a p => a + p.2.unitsLive + p.2.unitsPend) 0

/-- `CMP_POOL.FREE` of composer `n`, saturating (R161). -/
def Chip.poolFreeOf (c : Chip) (n : Nat) : Nat := min 65535 (regionUnits n - c.usedUnits n)

/-- Show the units of composer `n`. -/
def Chip.showUnits (c : Chip) (n : Nat) : Chip := c.wr (Cmp.poolUsed.on n) ((c.comp n).unitsLive + (c.comp n).unitsPend)

/-- Whether every phase of a coefficient bank sums to 4096 (R138). -/
def Chip.bankOk (c : Chip) (n b : Nat) : Bool :=
  (List.range 64).all (fun k => (c.hTaps n b k).foldl (· + ·) 0 = 4096 && (c.vTaps n b k).foldl (· + ·) 0 = 4096)

/-- The pending crop width after pre-decimation (R134). -/
def Chip.pendSw (c : Chip) (n l : Nat) : Nat :=
  let sw := c.rd (lyr Cmp.lSw n l).pend
  if 16 ≤ n ∧ c.on (lyr Cmp.lPredec n l).pend then sw / 2 else sw

/-- Whether a pending layer breaks R134. -/
def Chip.geometryBad (c : Chip) (n l : Nat) : Bool :=
  let sw := c.rd (lyr Cmp.lSw n l).pend
  let sh := c.rd (lyr Cmp.lSh n l).pend
  let dw := c.rd (lyr Cmp.lDw n l).pend
  let dh := c.rd (lyr Cmp.lDh n l).pend
  let s := c.rd (lyr Cmp.lSurf n l).pend
  c.rd (lyr Cmp.lX n l).pend % 2 ≠ 0 || sw % 2 ≠ 0 || dw % 2 ≠ 0 || sw < 2 || dw < 2 || sh < 2 || dh < 2 ||
    16 * dw < sw || 16 * dh < sh ||
    (if n < 16 then 16 * sw < dw || 16 * sh < dh
     else c.pendSw n l < dw || sh < dh || (c.on (lyr Cmp.lPredec n l).pend && sw % 4 ≠ 0)) ||
    (c.on (lyr Cmp.lKind n l).pend &&
      (c.rd (Cmp.sWidth.nth s) < c.rd (lyr Cmp.lSx n l).pend + sw || c.rd (Cmp.sHeight.nth s) < c.rd (lyr Cmp.lSy n l).pend + sh))

/-- Whether a pending layer selects an invalid bank (R138), filtered by it or not. -/
def Chip.bankBad (c : Chip) (n l : Nat) : Bool :=
  n < 16 && (!c.bankOk n (c.rd (lyr Cmp.lHbank n l).pend) || !c.bankOk n (c.rd (lyr Cmp.lVbank n l).pend))

/-- The reasons that one enabled pending layer gives (R142). -/
def Chip.layerBreaks (c : Chip) (n l reason : Nat) : Bool :=
  match reason with
  | 1 => (if n < 16 then 3840 else 1920) < c.pendSw n l
  | 2 => c.geometryBad n l
  | 3 => c.bankBad n l
  | 4 => c.rd (Cmp.nLayers.on n) ≤ l
  | 9 => c.on (lyr Cmp.lKind n l).pend && !c.surfValid (c.rd (lyr Cmp.lSurf n l).pend)
  | _ => false

/-- The reasons that concern the whole pending configuration (R142). Format `0xFF` asks for no output (log entry 16). -/
def Chip.wholeBreaks (c : Chip) (n reason : Nat) : Bool :=
  let fmt := c.rd (Cmp.outFmt.on n).pend
  let clr := c.rd (Cmp.outClr.on n).pend
  let g := c.rd (Cmp.cgroup.on n)
  match reason with
  | 5 => c.rd (Cmp.nLayers.on n) = 0 || 5 ≤ clr || (fmt ≠ 0xFF && !(composerFmt n fmt && c.planHas n fmt))
  | 6 => regionUnits n < c.usedUnits n + c.pendUnits n
  | 7 => c.keeperOn n && (clr ≠ c.rd (Cmp.kClr.on n) || fmt = 0xFF ||
      activeWidth fmt < c.rd (Cmp.kX.on n) + c.rd (Cmp.kW.on n) || activeLines fmt < c.rd (Cmp.kY.on n) + c.rd (Cmp.kH.on n))
  | 8 => g ≠ 0 && ((c.comp n).group ≠ g ||
      (c.cgrp g).members.any (fun k => k ≠ n && rateOf (c.rd (Cmp.outFmt.on k).pend) ≠ rateOf fmt))
  | _ => false

/-- Validate the pending configuration of composer `n` (R142): the lowest reason that holds, with the first layer that has it;
reason 0 when none does (log entry 16). -/
def Chip.validateCommit (c : Chip) (n : Nat) : Nat × Nat :=
  match (List.range 10).find? (fun r => c.wholeBreaks n r ||
      (c.countedLayers n).any (fun l => c.on (lyr Cmp.lEn n l).pend && c.layerBreaks n l r)) with
  | none => (0, 0)
  | some r => (r, ((c.countedLayers n).find? (fun l => c.on (lyr Cmp.lEn n l).pend && c.layerBreaks n l r)).getD 0)

/-- The source of a rejection (R142) and its sticky bit (R162). -/
def rejectSource (reason : Nat) : Nat × Nat :=
  match reason with | 1 => (0x52, 2) | 3 => (0x59, 10) | 6 => (0x5B, 12) | _ => (0x50, 1)

/-- Whether a commit code is final (R147). -/
def finalCode (k : Nat) : Bool := 4 ≤ k

/-- A commit of composer `n` ends with a final code other than `FLIPPED`; its pending stores are released. -/
def Chip.endCommit (c : Chip) (n code : Nat) : Chip :=
  (((c.wr (Cmp.code.on n) code).wr (Cmp.go.on n) 0).updComp n (fun x => { x with unitsPend := 0, flip := none })).showUnits n

/-- A commit joins its group (R146); a sealed one does not take it, and a group in a final state opens again. -/
def Chip.joinGroup (c : Chip) (n g : Nat) : Chip :=
  if g = 0 ∨ c.on (Cmp.gSeal.nth g) then c.updComp n (fun x => { x with group := 0 })
  else
    let fresh := finalCode (c.rd (Cmp.gCode.nth g))
    let c := if fresh then ((c.wr (Cmp.gCode.nth g) 0).wr (Cmp.gSeal.nth g) 0).updCgrp g (fun _ => {}) else c
    let c := (c.updCgrp g (fun x => { x with members := n :: x.members.filter (· ≠ n) })).updComp n (fun x => { x with group := g })
    c.wr (Cmp.members.nth g) (c.cgrp g).members.length

/-- A commit starts (R142): the shadow is copied to the pending configuration, and the commit joins its group. The ordinary
configuration of layer 7 stays in the shadow while the Keeper is enabled (R149). -/
def Chip.commitGo (c : Chip) (n : Nat) : Chip :=
  if c.on (Cmp.go.on n) then c.stick (cmpPage n) 13
  else
    let p := cmpPage n
    let c := (c.copyWords 0 p 0x44 0x4C 16).copyWords 0 p 0x100 0x1E0 16
    let sp := if c.keeperOn n then 8 else 0
    let c := { c with flds := Store.copy (placeKey sp p 0x1E0 0) (placeKey sp p 0x200 0) (placeKey 16 p 0x1E0 0) c.flds }
    let c := ((((c.wr (Cmp.go.on n) 1).wr (Cmp.code.on n) 1).wr (Cmp.reason.on n) 0).wr (Cmp.offLayer.on n) 0).wr (Cmp.waited.on n) 0
    c.joinGroup n (c.rd (Cmp.cgroup.on n))

/-- A member leaves its open group. -/
def Chip.leaveGroup (c : Chip) (n : Nat) : Chip :=
  let g := (c.comp n).group
  if g = 0 then c
  else
    let c := (c.updCgrp g (fun x => { x with members := x.members.filter (· ≠ n) })).updComp n (fun x => { x with group := 0 })
    c.wr (Cmp.members.nth g) (c.cgrp g).members.length

/-- The members of a group in rising order. -/
def Chip.groupMembers (c : Chip) (g : Nat) : List Nat := (List.range 64).filter (fun n => (c.cgrp g).members.contains n)

/-- Whether composer `n`'s commit belongs to a sealed group that is not final. -/
def Chip.inSealed (c : Chip) (n : Nat) : Bool :=
  let g := (c.comp n).group
  g ≠ 0 && c.on (Cmp.gSeal.nth g)

/-- Whether a commit may flip (R143). -/
def Chip.fenceOk (c : Chip) (n : Nat) : Bool :=
  !c.on (Cmp.fenceEn.on n) ||
    0 ≤ frameDiff (c.rd (Cmp.fence.nth (c.rd (Cmp.fenceIdx.on n)))) (c.rd (Cmp.target.on n))

/-- The latency of a composer in pictures (R128). -/
def Chip.latency (c : Chip) (n : Nat) : Nat := if interlaced (c.rd (Cmp.carryFmt.on n)) then 2 else 1

/-- The output picture whose decision point comes now (R143): a composer that carries no format flips at its next picture
start (log entry 16). -/
def Chip.decisionPicture (c : Chip) (n : Nat) : Nat :=
  let next := c.rd (Cmp.picture.on n) + 1
  if c.rd (Cmp.carryFmt.on n) = 0xFF then next % 2 ^ 32 else (next + c.latency n) % 2 ^ 32

/-- Whether the decision point belongs to a frame start: a field 1, for an interlaced output (R143). -/
def Chip.decisionDue (c : Chip) (n : Nat) : Bool :=
  c.rd (Cmp.carryFmt.on n) = 0xFF || !interlaced (c.rd (Cmp.carryFmt.on n)) || (c.comp n).f2

/-- The picture at which a member of a group flips with a decision taken now (R143, R146): the first that follows and begins a
frame. -/
def Chip.groupPicture (c : Chip) (n : Nat) : Nat :=
  if c.decisionDue n then c.decisionPicture n else (c.decisionPicture n + 1) % 2 ^ 32

/-- Codes of composer decisions (R381). -/
inductive CmpDec | flip | held | discard | force
  deriving DecidableEq, Repr

/-- The number of a composer decision in its cell. -/
def decNum : CmpDec → Nat
  | .flip => 0 | .held => 1 | .discard => 2 | .force => 3

/-- Give a group and all its members a code; a final code ends them. -/
def Chip.setGroupCode (c : Chip) (g code : Nat) : Chip :=
  let c := (c.groupMembers g).foldl (fun c n =>
    if finalCode code then c.endCommit n code else c.wr (Cmp.code.on n) code) c
  let c := c.wr (Cmp.gCode.nth g) code
  if finalCode code then (c.wr (Cmp.gSeal.nth g) 0).updCgrp g (fun x => { x with decided := false }) else c

/-- A decision on the commit of composer `n`, or on its group `g`, takes effect (R143, R145, R146). A flip is decided for the
next output picture that the decision point names. -/
def Chip.applyCmpDec (c : Chip) (n g : Nat) (d : CmpDec) (pic : Nat) : Chip :=
  match d with
  | .flip | .force =>
    if g = 0 then c.updComp n (fun x => { x with flip := some pic })
    else
      let c := c.updCgrp g (fun x => { x with decided := true })
      (c.groupMembers g).foldl (fun c k =>
        c.updComp k (fun x => { x with flip := some (if k = n then pic else c.groupPicture k) })) c
  | .held => if g = 0 then c.wr (Cmp.code.on n) 3 else c.setGroupCode g 3
  | .discard => if g = 0 then c.endCommit n 6 else c.setGroupCode g 6

/-- The standby follows a composer decision, and reports its own evaluation where it differs (R157). -/
def Chip.followCmpDec (c : Chip) (n g : Nat) (d : CmpDec) (pic : Nat) : Chip :=
  let ms := if g = 0 then [n] else c.groupMembers g
  let own := ms.all (fun k => c.fenceOk k)
  let differs := (d = .flip) ≠ own
  let c := if differs then (c.raise 0x58 (cmpPage n) n 0).stick (cmpPage n) 9 else c
  c.applyCmpDec n g d pic

/-- A composer decision of this device (R157): a standby takes none. -/
def Chip.cmpDecision (c : Chip) (n g : Nat) (d : CmpDec) : Chip :=
  if c.isStandby then c
  else
    let pic := c.decisionPicture n
    c.decision 3 (cmpPage n) pic [n + 64 * g + 1024 * decNum d, 0, 0, 0] (fun c => c.applyCmpDec n g d pic)

/-- Count a decision point that found the fence unsatisfied (R145). -/
def Chip.countWait (c : Chip) (n : Nat) : Chip := c.inc (Cmp.waited.on n)

/-- A write of 1 to a group's `SEAL` (R146): the group is closed to new members. Group register 0 is reserved. -/
def Chip.groupSeal (c : Chip) (g : Nat) : Chip :=
  if g = 0 then c
  else
    let c := if finalCode (c.rd (Cmp.gCode.nth g)) then (c.updCgrp g (fun _ => {})).wr (Cmp.members.nth g) 0 else c
    (c.wr (Cmp.gSeal.nth g) 1).wr (Cmp.gCode.nth g) 2

/-- A write of 1 to a commit's `CANCEL` (R147). A commit whose flip has been decided counts as flipped. -/
def Chip.commitCancel (c : Chip) (n : Nat) : Chip :=
  let code := c.rd (Cmp.code.on n)
  if code = 1 ∨ code = 2 ∨ code = 3 then
    (if c.inSealed n ∨ (c.comp n).flip.isSome then c.stick (cmpPage n) 13 else (c.leaveGroup n).endCommit n 7)
  else if code = 4 then c.stick (cmpPage n) 13 else c

/-- A write of 1 to a group's `CANCEL` (R147), through the page of composer `n`: one of a group that has flipped is ignored, as `WR_BUSY`. -/
def Chip.groupCancel (c : Chip) (n g : Nat) : Chip :=
  if g = 0 then c
  else if c.rd (Cmp.gCode.nth g) = 4 then c.stick (cmpPage n) 13
  else if !c.on (Cmp.gSeal.nth g) then c
  else if (c.cgrp g).decided then c.stick (cmpPage n) 13 else c.setGroupCode g 7

/-- Whether a Keeper change is due at a picture (R152). -/
def KeeperDue.dueAt (k : KeeperDue) (pic : Nat) : Bool :=
  match k.at_ with
  | some p => decide (frameDiff p pic ≤ 0)
  | none => false

/-! ## Picture starts -/

/-- The colorimetry that a payload ID declares (PRESUMED from ST 352, log entry 15). -/
def payloadClr (sd : Bool) (pid : Nat) : Nat :=
  if pid = 0 then (if sd then 4 else 7)
  else
    let tr := pid / 2 ^ 12 % 4
    let col := pid / 2 ^ 20 % 4
    if sd then 4
    else if col = 0 ∧ tr = 0 then 0
    else if col = 2 ∧ tr = 0 then 1 else if col = 2 ∧ tr = 1 then 2 else if col = 2 ∧ tr = 2 then 3 else 7

/-- The colorimetry of a source (R132). -/
def Chip.srcClr (c : Chip) (s : Nat) : Nat :=
  if s = noSource then 7
  else if s < 1152 then payloadClr (rasterOf (c.srcFmt s) ≤ 1) (c.rd (Vin.pid.nth s))
  else c.rd (Cmp.outClr.on (s - 1152)).live

/-- The picture of a bank whose line 1 was read last (R82, R128): a line leaves the bank 2L - ε words after it
was written. -/
def Chip.bankPicture (c : Chip) (s : Nat) : Option (Nat × Bool) :=
  let l : Int := wordsPerLine (c.srcFmt s)
  let d : Int := 2 * l - (if s < 1152 then (c.bank s).eps else 0)
  match (c.bank s).pics with
  | (n, ls) :: r =>
    if d < l * (ls.length : Int) then some (n, (ls.head?.map BankLine.f2).getD false)
    else match r with
      | (n2, ls2) :: _ => some (n2, (ls2.head?.map BankLine.f2).getD false)
      | [] => none
  | [] => none

/-- The picture of a source whose line 1 was read last, as `LayerPic.ref` names it, and its field: the one that its `LOCKED` synchroniser
reads (R87), else that of its bank. -/
def Chip.readPicture (c : Chip) (s : Nat) : Option ((Nat × Nat) × Bool) :=
  match (if s < 1152 then (c.input s).sync else none) with
  | some y => (c.sync y).pics.head?.map (fun p => ((4096 + y, p.1), (p.2.head?.map BankLine.f2).getD false))
  | none => (c.bankPicture s).map (fun p => ((s, p.1), p.2))

/-- The words of a surface crop as they stand (R128, R131), from the even column on that holds its first chroma pair. -/
def Chip.surfaceCrop (c : Chip) (m : Mem) (n l : Nat) (g : Fld → Fld) : List (List Nat) :=
  let s := c.rd (g (lyr Cmp.lSurf n l))
  let region := 1 + c.rd (Cmp.sStack.nth s)
  let base := c.rd (Cmp.sBase.nth s) * 65536
  let stride := c.rd (Cmp.sStride.nth s)
  let sx := c.rd (g (lyr Cmp.lSx n l))
  let sy := c.rd (g (lyr Cmp.lSy n l))
  (List.range (c.rd (g (lyr Cmp.lSh n l)))).map (fun r =>
    (List.range (sx % 2 + c.rd (g (lyr Cmp.lSw n l)))).map (fun x =>
      m.word region (base + 4 * ((sy + r) * stride + (sx - sx % 2) + x))))

/-- The rows of a surface crop that hold a poisoned word (R423). -/
def Chip.surfaceBad (c : Chip) (n l : Nat) (g : Fld → Fld) : List Nat :=
  let s := c.rd (g (lyr Cmp.lSurf n l))
  let sx := c.rd (g (lyr Cmp.lSx n l))
  let sy := c.rd (g (lyr Cmp.lSy n l))
  let first := fun (r : Nat) => c.rd (Cmp.sBase.nth s) * 16384 + (sy + r) * c.rd (Cmp.sStride.nth s) + (sx - sx % 2)
  let width := sx % 2 + c.rd (g (lyr Cmp.lSw n l))
  (List.range (c.rd (g (lyr Cmp.lSh n l)))).filter (fun r => c.poisoned.any (fun q =>
    q.1 = c.rd (Cmp.sStack.nth s) && q.2.1 = 0 && first r ≤ q.2.2 && q.2.2 < first r + width))

/-- The lines of a black picture of a format. -/
def blackPicture (fmt : Nat) : List BankLine := (List.range (totalLines fmt)).map (fun i => ⟨i + 1, false, []⟩)

/-- Whether a feed source is lost (R133). A source that is acquiring carries nothing and counts too (log entry 16). -/
def Chip.srcLost (c : Chip) (s : Nat) : Bool := c.srcSt s ≠ InSt.timed && c.srcSt s ≠ InSt.synced

/-- What layer `l` of composer `n` takes from the synchroniser of its source that reads whole frames (R128): its number, the frame that it reads, and the
field of it. An interlaced output takes the field of its own parity; a progressive one takes the two fields of a frame in turn. -/
def Chip.syncTake (c : Chip) (n l out : Nat) : Option (Nat × Nat × Bool) :=
  let s := c.rd (Xpt.airSrc.nth (1152 + 8 * n + l))
  match (if s < 1152 then (c.input s).sync else none) with
  | some y =>
    if c.on (Fsync.locked.nth y) ∧ !(c.sync y).lost then none else
    let frame := (c.sync y).readFrame
    let f2 := if interlaced out then (c.comp n).f2 else Store.get none (c.comp n).took l = some (frame, false)
    some (y, frame, interlaced (c.srcFmt s) && f2)
  | none => none

/-- What a layer of composer `n` takes in the interval that ends now (R128, R130, R132, R133), under the configuration that
`g` names: `SHOW` and the source, with the source that reports its condition, 0 none. -/
def Chip.layerTake (c : Chip) (m : Mem) (n l : Nat) (g : Fld → Fld) : LayerPic × Nat :=
  let out := c.rd (g (Cmp.outFmt.on n))
  let clrOk := fun k => k = c.rd (g (Cmp.outClr.on n)) || (k = 7 && c.on (Cmp.undecl.on n))
  if !c.on (g (lyr Cmp.lEn n l)) ∨ c.rd (Cmp.nLayers.on n) ≤ l ∨ (l = 7 ∧ c.keeperOn n) then ({ show_ := 1 }, 0)
  else if c.on (g (lyr Cmp.lKind n l)) then
    let k := c.rd (Cmp.sClr.nth (c.rd (g (lyr Cmp.lSurf n l))))
    let p : LayerPic := { show_ := if clrOk k then 0 else 4, surf := c.surfaceCrop m n l g, bad := c.surfaceBad n l g, clr := k }
    (p, if clrOk k then 0 else 0x53)
  else
    let s := c.rd (Xpt.airSrc.nth (1152 + 8 * n + l))
    let f := c.srcFmt s
    let k := c.srcClr s
    if c.srcLost s then
      let act := c.rd (g (lyr Cmp.lLossAct n l))
      ({ show_ := if act = 1 then 0 else if act = 2 then 6 else 2, clr := k, fmt := if act = 1 then out else f,
         lines := if act = 1 then blackPicture out else [] }, 0x57)
    else if rateOf f ≠ rateOf out then ({ show_ := 3, clr := k, fmt := f }, 0x54)
    else if !clrOk k then ({ show_ := 4, clr := k, fmt := f }, 0x53)
    else if s < 1152 ∧ (c.input s).sync.isSome ∧ !c.carries s then
      ({ show_ := 0, clr := k, fmt := f, lines := blackPicture f, f2 := interlaced f && (c.comp n).f2 }, 0)
    else match c.syncTake n l out with
      | some (y, _, f2) => ({ show_ := 0, clr := k, fmt := f, lines := (c.sync y).reading.filter (fun b => b.f2 = f2), f2 := f2 }, 0)
      | none => match c.readPicture s with
        | some (i, f2) => ({ show_ := 0, ref := some i, fmt := f, f2 := f2, clr := k }, 0)
        | none => ({ show_ := 5, fmt := f, clr := k }, 0)

/-- The sticky bit of a layer condition (R162). -/
def layerSticky (src : Nat) : Nat := if src = 0x53 then 4 else if src = 0x54 then 5 else 8

/-- The conditions of the layers at this picture set their sticky bits (R162). A wrong colorimetry is reported in each picture (R132),
the others when they begin (R133); those that ended pass. -/
def Chip.layerConds (c : Chip) (n : Nat) (now : List (Nat × Nat)) : Chip :=
  let old := (c.comp n).conds
  let c := now.foldl (fun c p =>
    (if p.1 = 0x53 ∨ !old.contains p then c.raise p.1 (cmpPage n) n p.2 else c).stick (cmpPage n) (layerSticky p.1)) c
  let c := ((old.filter (fun p => !now.any (fun q => q.1 = p.1))).map Prod.fst).eraseDups.foldl
    (fun c s => c.passHolds s (cmpPage n) n) c
  c.updComp n (fun x => { x with conds := now })

/-- `FREEZE` of a layer starts or ends by decision (R133, R157). -/
def Chip.applyFreeze (c : Chip) (n l : Nat) (b : Bool) : Chip :=
  c.updComp n (fun x => { x with frozen := setBit x.frozen l b })

/-- The standby follows a `FREEZE` decision, and reports its own evaluation where it differs (R157). -/
def Chip.followFreeze (c : Chip) (n l : Nat) (b : Bool) : Chip :=
  let own := c.srcLost (c.rd (Xpt.airSrc.nth (1152 + 8 * n + l)))
  let c := if own ≠ b then (c.raise 0x58 (cmpPage n) n l).stick (cmpPage n) 9 else c
  c.applyFreeze n l b

/-- What a decision on its way makes of the freeze of a layer (R381). -/
def MirrorItem.freezes (n l : Nat) (i : MirrorItem) : Option Bool :=
  let w := i.payload.headD 0
  if i.space = 3 ∧ i.off = 3 ∧ w % 64 = n ∧ w / 8192 % 8 = l ∧ (w / 1024 % 8 = 4 ∨ w / 1024 % 8 = 5) then some (w / 1024 % 8 = 4) else none

/-- The freeze of a layer follows its source on the device that decides (R133, R157). DESIGN CHOICE (log entry 16): in a pair the decision
names the picture after the one that starts now, the first that both devices can reach together. -/
def Chip.judgeFreeze (c : Chip) (n l : Nat) (wants : Bool) : Chip :=
  let on_ := ((c.mirrorQ.filterMap (MirrorItem.freezes n l)).getLast?).getD (bit (c.comp n).frozen l)
  if c.isStandby ∨ on_ = wants then c
  else c.decision 3 (cmpPage n) ((c.rd (Cmp.picture.on n) + 2) % 2 ^ 32) [n + 1024 * (if wants then 4 else 5) + 8192 * l, 0, 0, 0]
    (fun c => c.applyFreeze n l wants)

/-- The last stored picture of a layer keeps its lines, whatever its source's bank does from now on (R133). -/
def Chip.keepPicture (c : Chip) (n l : Nat) : Chip :=
  let p : LayerPic := Store.get {} (c.comp n).last l
  match p.ref with
  | none => c
  | some _ =>
    let ls := c.picLines p
    c.updComp n (fun x => { x with last := Store.set {} x.last l { p with ref := none, lines := ls } })

/-- The layers for the output picture that is composed next: each takes its source, freezes follow, conditions are reported
(R128, R132, R133). A layer is frozen from the first picture with a lost source on; in a pair it stays so until the decided end, and a
standby whose own source is good follows the decision (R157). -/
def Chip.takeLayers (c : Chip) (m : Mem) (n : Nat) (g : Fld → Fld) : Chip × List LayerPic :=
  let ts := (List.range 8).map (fun l => c.layerTake m n l g)
  let took := (List.range 8).map (fun l => (c.syncTake n l (c.rd (g (Cmp.outFmt.on n)))).map Prod.snd)
  let c := c.updComp n (fun x => { x with took := took.zipIdx.foldl (fun t p => Store.set none t p.2 p.1) x.took })
  let c := (ts.zipIdx).foldl (fun c p =>
    if p.1.1.show_ = 6 ∨ bit (c.comp n).frozen p.2 ∨ c.isHeld (0, 1152 + 8 * n + p.2) then c.keepPicture n p.2 else c) c
  let conds := (ts.zipIdx.filter (fun p => p.1.2 ≠ 0)).map (fun p => (p.1.2, p.2))
  let c := (ts.zipIdx).foldl (fun c p => c.judgeFreeze n p.2 (p.1.1.show_ = 6)) c
  let c := c.layerConds n conds
  let feed := fun l => c.rd (g (lyr Cmp.lLossAct n l)) = 2 && !c.on (g (lyr Cmp.lKind n l))
  let pics := (ts.map Prod.fst).zipIdx.map (fun p =>
    let q : LayerPic := p.1
    let held : LayerPic := Store.get {} (c.comp n).last p.2
    let keep := c.isHeld (0, 1152 + 8 * n + p.2)
    let frozen := q.show_ = 6 || (q.show_ = 0 && bit (c.comp n).frozen p.2 && feed p.2)
    if frozen || (q.show_ = 0 && keep) then
      (if keep && c.heldBlack (1152 + 8 * n + p.2) then { q with ref := none, lines := [], surf := [] }
       else if held.show_ = 0 then { held with show_ := if frozen then 6 else 0, clr := q.clr } else { q with show_ := 5 })
    else q)
  let c := (pics.zipIdx).foldl (fun c p =>
    if p.1.show_ = 0 ∧ !c.heldBlack (1152 + 8 * n + p.2) then c.updComp n (fun x => { x with last := Store.set {} x.last p.2 p.1 }) else c) c
  (c, pics)

/-- Show the layers of the picture that starts in `LYR_STATUS` and `CMP_STATUS`. -/
def Chip.showLayers (c : Chip) (n : Nat) (ps : List LayerPic) : Chip :=
  let c := (ps.zipIdx).foldl (fun c p =>
    ((c.wr (lyr Cmp.lShow n p.2) p.1.show_).wr (lyr Cmp.lSrcClr n p.2) p.1.clr).wr (lyr Cmp.lSrcFmt n p.2) p.1.fmt) c
  let shown := (ps.zipIdx).foldl (fun a p => setBit a p.2 p.1.visible) 0
  (c.wr (Cmp.shown.on n) shown).wr (Cmp.keeperShown.on n) (b2n (c.keeperOn n && c.on (Cmp.kVis.on n)))

/-- A decided flip goes live (R143, R148): pending configuration and stores replace the old ones. -/
def Chip.flipNow (c : Chip) (n : Nat) : Chip :=
  let old := c.rd (Cmp.carryFmt.on n)
  let page := cmpPage n
  let c := { c with flds := Store.copy (placeKey 16 page 0x44 0) (placeKey 16 page 0x4C 0) (placeKey 8 page 0x44 0) c.flds }
  let c := { c with flds := Store.copy (placeKey 16 page 0x100 0) (placeKey 16 page 0x200 0) (placeKey 8 page 0x100 0) c.flds }
  let new := c.rd (Cmp.outFmt.on n).live
  let c := c.updComp n (fun x => { x with flip := none, unitsLive := x.unitsPend, unitsPend := 0,
                                          newFmt := if new = old then none else some new,
                                          last := if new = old then x.last else [] })
  let c := (((c.wr (Cmp.code.on n) 4).wr (Cmp.go.on n) 0).stick page 0).showUnits n
  let g := (c.comp n).group
  if g ≠ 0 ∧ (c.groupMembers g).all (fun k => c.rd (Cmp.code.on k) = 4) then
    ((c.wr (Cmp.gCode.nth g) 4).wr (Cmp.gSeal.nth g) 0).updCgrp g (fun x => { x with decided := false })
  else c

/-- `CMP_STATUS.STATE` (R161). -/
def Chip.showComp (c : Chip) (n : Nat) : Chip :=
  c.wr (Cmp.state.on n) (if c.rd (Cmp.carryFmt.on n) = 0xFF then 0 else if 0 < (c.comp n).start then 1 else 2)

/-- A fetch plan that waits for the picture start takes effect (R278). -/
def Chip.takePlan (c : Chip) (n : Nat) : Chip :=
  match (c.comp n).planWaits with
  | some (nl, fs, plan) =>
    let c := ((c.wr (Cmp.nLayers.on n) nl).wr (Cmp.fset.on n) fs).updComp n (fun x => { x with planWaits := none })
    { c with sch := { c.sch with plans := Store.set [] c.sch.plans n plan } }
  | none => c

end Sys2Proof.Machine
end

