-- ==== Sys2Proof/Machine/MixOps.lean ====
section
/-! DEFINITION. Shared operations of the mix engine (R204 to R224): gain words, gain writes, ramp slots, batches, the sum of a
tile, and the overrun levels of audio units (R282). -/

namespace Sys2Proof.Machine

def Chip.updMix (c : Chip) (f : MixX → MixX) : Chip := { c with mix := f c.mix }
def Chip.tile (c : Chip) (t : Nat) : MixTile := Store.get {} c.mix.tiles t
def Chip.updTile (c : Chip) (t : Nat) (f : MixTile → MixTile) : Chip := c.updMix (fun x => { x with tiles := Store.upd {} x.tiles t f })

/-! ## Gain words -/

/-- The linear value of a gain word, on a scale on which unity is 2^37 (R205, R206). -/
def linear (q15 : Bool) (w : Nat) : Int :=
  let e := bits w 14 10
  let m := w % 1024
  if q15 then toSigned 16 w * 4194304
  else
    let a : Int := if e = 0 then (m : Int) else ((1024 + m) * 2 ^ (e - 1) : Nat)
    if bit w 15 then -a else a

/-- Whether the gain table holds Q1.15 fractions (R205). -/
def Chip.gainQ15 (c : Chip) : Bool := bit (c.rd Dev.compat) 1

/-- What a read of a crosspoint returns (R214): the target, or the word staged in an open batch; 0 for a poisoned entry (R423). -/
def Chip.gainRead (c : Chip) (e : Nat) : Nat :=
  match (if c.on Mix.batch then c.mix.staged.find? (fun p => p.1 = e) else none) with
  | some p => p.2
  | none => if c.mix.poison.contains e then 0 else Store.get 0 c.mix.gain e

/-- `RAMP` of a crosspoint's output (R215). -/
def Chip.rampOf (c : Chip) (e : Nat) : Nat := c.rd (Mix.ramp.nth (e / 4096))

/-- Whether a crosspoint takes part at the device rate (R213). -/
def Chip.xpIn (c : Chip) (e : Nat) : Bool := e % 4096 < c.nIn

/-- The value of a ramp after `k` of its samples (R215). -/
def Ramp.value (r : Ramp) (lt : Int) (k : Nat) : Int := if r.n ≤ k then lt else r.la + (lt - r.la) * k / r.n

/-- A tile's free ramp slots (R217). -/
def MixTile.free (t : MixTile) : Nat := 4096 - t.ramps.length

/-! ## Changes at a boundary -/

/-- A change takes effect with a ramp of its own or at once (R215, R216): it starts from the value last applied. -/
def Chip.startRamp (c : Chip) (e w : Nat) : Chip :=
  let t := e / 262144
  let n := c.rampOf e
  let old := Store.get 0 c.mix.applied e
  let from_ := match (c.tile t).ramps.find? (fun r => r.e = e) with
    | some r => r.value (linear c.gainQ15 old) r.k
    | none => linear c.gainQ15 old
  let c := c.updMix (fun x => { x with applied := Store.set 0 x.applied e w })
  let r : Ramp := ⟨e, from_, 0, n⟩
  let put := fun (rs : List Ramp) =>
    if n = 0 ∨ !c.xpIn e then rs.filter (fun q => q.e ≠ e)
    else if rs.any (fun q => q.e = e) then rs.map (fun q => if q.e = e then r else q) else rs ++ [r]
  c.updTile t (fun x => { x with ramps := put x.ramps })

/-- The target a crosspoint stands at: queued, else in force. -/
def Chip.targetOf (c : Chip) (e : Nat) : Nat :=
  match (c.tile (e / 262144)).queue.find? (fun p => p.1 = e) with
  | some p => p.2
  | none => Store.get 0 c.mix.applied e

/-- A change accepted for this boundary (R216, R217): it replaces a ramp or a queued change of its crosspoint, takes a free slot
while nothing waits, or joins the queue. -/
def Chip.takeChange (c : Chip) (e w : Nat) : Chip :=
  let t := e / 262144
  let x := c.tile t
  let queued := x.queue.any (fun p => p.1 = e)
  if c.rampOf e = 0 ∨ !c.xpIn e then
    (c.updTile t (fun x => { x with queue := x.queue.filter (fun p => p.1 ≠ e) })).startRamp e w
  else if c.targetOf e = w then c
  else if queued then c.updTile t (fun x => { x with queue := x.queue.map (fun p => if p.1 = e then (e, w) else p) })
  else if x.ramps.any (fun r => r.e = e) ∨ (x.queue.isEmpty ∧ 0 < x.free) then c.startRamp e w
  else (c.updTile t (fun x => { x with queue := x.queue ++ [(e, w)] })).inc Mix.deferCnt

/-- The pending queue of a tile takes free slots in its order (R217). -/
def Chip.serveQueue (c : Chip) (t : Nat) : Chip :=
  let q := (c.tile t).queue
  q.foldl (fun c p =>
    let x := c.tile t
    let drop := fun (c : Chip) => c.updTile t (fun x => { x with queue := x.queue.filter (fun y => y.1 ≠ p.1) })
    if c.rampOf p.1 = 0 ∨ !c.xpIn p.1 then (drop c).startRamp p.1 p.2
    else if Store.get 0 c.mix.applied p.1 = p.2 then drop c
    else if 0 < x.free then (drop c).startRamp p.1 p.2 else c) c

/-! ## Batches -/

/-- The entries of a batch, the last write of each crosspoint, in staging order of that write (R218). -/
def batchEntries (staged : List (Nat × Nat)) : List (Nat × Nat) :=
  (staged.foldl (fun (a : Store (Option Nat) × List (Nat × Nat)) p =>
    if (Store.get none a.1 p.1).isSome then a else (Store.set none a.1 p.1 (some p.2), p :: a.2)) ([], [])).2

/-- How a batch ends (R219). -/
def Chip.batchEnd (c : Chip) (code : Nat) : Chip :=
  ((c.wr Mix.bCode code).wr Mix.commit 0).updMix (fun x => { x with batch := [], staged := [] })

/-- A batch is rejected (R219). -/
def Chip.batchReject (c : Chip) (reason tile : Nat) : Chip :=
  ((((c.batchEnd 5).wr Mix.bReason reason).wr Mix.bTile tile).raise 0x72 mixPage tile 0).stick mixPage 3

/-- A batch has taken effect (R219). -/
def Chip.batchStarted (c : Chip) : Chip := (c.batchEnd 4).stick mixPage 2

/-- The words of a list take effect at once, with no ramps (R211, R218). -/
def Chip.gainNow (c : Chip) (es : List (Nat × Nat)) : Chip :=
  let put := fun (g : Store Nat) => es.foldl (fun g p => Store.set 0 g p.1 p.2) g
  let clean := fun (l : List Nat) => l.filter (fun e => !es.any (fun p => p.1 = e))
  c.updMix (fun x => { x with gain := put x.gain, applied := put x.applied, poison := clean x.poison })

/-- The entries of a batch that need a ramp in tile `t`; with `new`, only those that take over no ramp (R216, R219). -/
def Chip.batchNeeds (c : Chip) (es : List (Nat × Nat)) (t : Nat) (new : Bool) : Nat :=
  (es.filter (fun p => p.1 / 262144 = t && c.xpIn p.1 && c.rampOf p.1 ≠ 0 && Store.get 0 c.mix.applied p.1 ≠ p.2 &&
    !(new && (c.tile t).ramps.any (fun r => r.e = p.1)))).length

/-- The direct changes to crosspoints of a batch are dropped (R218). -/
def Chip.dropDirect (c : Chip) (es : List (Nat × Nat)) : Chip :=
  let named := fun (e : Nat) => es.any (fun p => p.1 = e)
  let tiles := c.mix.tiles.map (fun t => (t.1, { t.2 with queue := t.2.queue.filter (fun p => !named p.1) }))
  c.updMix (fun x => { x with accepted := x.accepted.filter (fun p => !named p.1), tiles := tiles })

/-- The tiles in order. -/
def tileList : List Nat := List.range 64

/-- A committed batch starts, is held, or is rejected at a boundary (R219), after each tile's queue has been served. -/
def Chip.slotsBatch (c : Chip) : Chip :=
  let es := c.mix.batch
  let serve := fun (c : Chip) => tileList.foldl (fun c t => if (c.tile t).queue.isEmpty then c else c.serveQueue t) c
  if c.rd Mix.bCode ≠ 2 ∧ c.rd Mix.bCode ≠ 3 then serve c
  else
    match tileList.find? (fun t => decide (4096 < c.batchNeeds es t false)) with
    | some t => (serve c).batchReject 2 t
    | none =>
      let d := serve (c.dropDirect es)
      match tileList.find? (fun t => decide ((d.tile t).free < d.batchNeeds es t true)) with
      | some t => ((serve c).wr Mix.bCode 3).wr Mix.bTile t
      | none =>
        let d := es.foldl (fun d p => if Store.get 0 d.mix.applied p.1 = p.2 then d else d.startRamp p.1 p.2) d
        let gain := es.foldl (fun g p => Store.set 0 g p.1 p.2) d.mix.gain
        let poison := d.mix.poison.filter (fun e => !es.any (fun p => p.1 = e))
        (d.updMix (fun x => { x with gain := gain, poison := poison })).batchStarted

/-- Ramps advance by the samples of the period that ends, where one does; a finished ramp frees its slot (R217). -/
def Chip.advanceRamps (c : Chip) : Chip :=
  let p := c.periodLen
  let adv := fun (rs : List Ramp) => (rs.map (fun (r : Ramp) => { r with k := r.k + p })).filter (fun r => decide (r.k < r.n))
  c.updMix (fun x => { x with tiles := x.tiles.map (fun t => (t.1, { t.2 with ramps := adv t.2.ramps })) })

/-- `MIX_STATUS.SLOTS_MIN` and `MIX_RAMP_STAT` after a boundary. -/
def Chip.showSlots (c : Chip) : Chip :=
  let least := tileList.foldl (fun (a : Nat × Nat) t => if (c.tile t).free < a.1 then ((c.tile t).free, t) else a) ((c.tile 0).free, 0)
  let act := tileList.foldl (fun m t => max m (c.tile t).ramps.length) (c.rd Mix.activeMax)
  let q := tileList.foldl (fun m t => max m (c.tile t).queue.length) (c.rd Mix.pendMax)
  (((c.wr Mix.slotsMin least.1).wr Mix.slotsTile least.2).wr Mix.activeMax act).wr Mix.pendMax q

/-- Slots are given out at a boundary: queue, batch, new changes; a queue that is not empty is reported (R217). -/
def Chip.slots (c : Chip) : Chip :=
  let c := c.slotsBatch
  let new := c.mix.accepted
  let c := new.foldl (fun c p => c.takeChange p.1 p.2) (c.updMix (fun x => { x with accepted := [] }))
  let c := tileList.foldl (fun c t => if (c.tile t).queue.isEmpty then c else (c.raise 0x71 mixPage t 0).stick mixPage 1) c
  c.showSlots

/-! ## The engine starts and stops (R211) -/

/-- No output is muted any more: the levels behind the flags have been left (R212). -/
def Chip.unmute (c : Chip) : Chip :=
  if c.on Mix.muted then (List.range 4096).foldl (fun c o => c.wr (Mix.oMuted.nth o) 0) (c.wr Mix.muted 0) else c

/-- The engine stops: every ramp ends at its target, and every change and committed batch takes effect. -/
def Chip.mixStop (c : Chip) : Chip :=
  let queued := c.mix.tiles.flatMap (fun t => t.2.queue)
  let c := c.gainNow (queued ++ c.mix.accepted)
  let tiles := c.mix.tiles.filterMap (fun t => if t.2.given.isEmpty then none
    else some (t.1, { t.2 with ramps := [], queue := [], mixed := [], lvl := {}, ran := false }))
  let c := c.updMix (fun x => { x with accepted := [], tiles := tiles })
  let c := if c.rd Mix.bCode = 2 ∨ c.rd Mix.bCode = 3 then (c.gainNow c.mix.batch).batchStarted else c
  (c.unmute.wr Mix.run 0).showSlots

/-- Whether the loaded period program fits the device rate and period length. -/
def Chip.mixFits (c : Chip) : Bool :=
  match c.mix.prog with
  | some p => p.1 = c.rd Sched.fs && p.2.1 = c.plenCode
  | none => false

/-- An enabled engine that does not run looks for its program at a boundary (R211). -/
def Chip.mixStart (c : Chip) : Chip :=
  if c.mixFits then c.wr Mix.run 1
  else if c.mix.warned then c
  else ((c.updMix (fun x => { x with warned := true })).raise 0x73 mixPage 0 0).stick mixPage 4

/-! ## Levels of audio units (R282) -/

/-- What a unit delivers at a boundary: 0 its new block, 1 the previous block, 2 the last good block faded out, 3 zeros, 4 its
new block faded in. -/
def Level.step (l : Level) (late : Bool) (recover : Nat) : Level × Nat :=
  if l.level = 0 ∨ l.recover then (if late then ({ level := 1 }, 1) else ({}, 0))
  else if l.level = 1 then (if late then ({ level := 2 }, 2) else ({}, 0))
  else if late then ({ level := 3 }, 3)
  else if recover ≤ l.run + 1 then ({ level := l.level, recover := true }, 4)
  else ({ level := l.level, run := l.run + 1 }, 3)

/-- `SCHED_GUARD.RECOVER`; 0 is treated as 1. -/
def Chip.recoverN (c : Chip) : Nat := orElse0 (c.rd Sched.recover) 1

/-! ## The tile's sum -/

/-- A 56-bit sum to an output sample (R207): rounded half to even at 8 bits, saturated; true where it was out of range. -/
def mixOut (acc : Int) : Int × Bool :=
  let q := acc / 256
  let r := acc % 256
  let q := if 128 < r || (r = 128 && q % 2 = 1) then q + 1 else q
  (clampI (-2147483648) 2147483647 q, decide (q < -2147483648) || decide (2147483647 < q))

/-- One term of the sum (R207). -/
def mixTerm (x l : Int) : Int := x * l / 536870912

/-- The crosspoints of an output that may contribute: words in force and ramps. -/
def Chip.rowOf (c : Chip) (o : Nat) (rs : List Ramp) : List (Nat × Int × Option Ramp) :=
  let q15 := c.gainQ15
  let gain := fun (e w : Nat) => if c.mix.poison.contains e then 0 else linear q15 w
  let here := (Store.range (4096 * o) (4096 * (o + 1)) c.mix.applied).map (fun p => (p.1, gain p.1 p.2, rs.find? (fun r => r.e = p.1)))
  let muted := (rs.filter (fun r => r.e / 4096 = o && Store.get 0 c.mix.applied r.e = 0)).map (fun r => (r.e, (0 : Int), some r))
  (here ++ muted).filter (fun p => c.xpIn p.1)

/-- The block of an output for the period (R207): samples and whether any was saturated. -/
def Chip.mixBlock (c : Chip) (o : Nat) (rs : List Ramp) : List Int × Bool :=
  let row := (c.rowOf o rs).map (fun p => (Store.get [] c.aud.intake (p.1 % 4096), p.2))
  let p := c.periodLen
  let ys := (List.range p).map (fun k => mixOut ((row.map (fun q =>
    mixTerm (q.1.getD k 0) (match q.2.2 with | some r => r.value q.2.1 (r.k + k + 1) | none => q.2.1))).foldl (· + ·) 0))
  (ys.map Prod.fst, ys.any Prod.snd)

/-! ## Delivery -/

/-- At the boundary that ends a period each tile hands its outputs their blocks, by its level and by holds (R212, R282, R411);
none where the engine did not run or no period ends. -/
def Chip.mixDeliver (c : Chip) : Chip :=
  let p := c.periodLen
  if !c.on Mix.run || !c.aud.isOpen then c.updMix (fun x => { x with tiles := x.tiles.map (fun t => (t.1, { t.2 with given := [], good := [] })) })
  else
    let c := tileList.foldl (fun (c : Chip) t =>
      let x := c.tile t
      let late := x.lvl.ovr || !x.ran
      let r : Level × Nat := x.lvl.step late c.recoverN
      let blocks := (List.range 64).map (fun j =>
        let o := 64 * t + j
        let new := Store.get [] x.mixed o
        let lvl := if r.2 ≠ 0 then r.2 else c.holdLevel 2 o
        let old := Store.get [] x.good o
        (o, levelBlock p lvl (Store.get [] x.given o) old new, if 1 ≤ lvl ∧ lvl ≤ 3 then old else new))
      let out := fun (f : Nat × List Int × List Int → List Int) =>
        blocks.filterMap (fun b => if f b = [] then none else some (b.1, f b))
      let was : Bool := decide (x.lvl.level ≥ 2) && decide (x.lvl.level ≤ 3)
      let good := if late then x.good else out (fun b => b.2.2)
      let c := c.updTile t (fun x => { x with lvl := r.1, given := out (fun b => b.2.1), good := good, mixed := [], ran := false })
      let c := if r.2 = 3 ∧ c.rd (Mix.oMuted.nth (64 * t)) = 0 then
          (((List.range 64).foldl (fun c j => c.wr (Mix.oMuted.nth (64 * t + j)) 1) c).stick mixPage 7 : Chip)
        else c
      let c := if r.1.level = 3 ∧ x.lvl.level ≠ 3 then c.stick schedPage 10 else c
      if was && decide (r.1.level < 2) then
        ((List.range 64).foldl (fun c j => c.wr (Mix.oMuted.nth (64 * t + j)) 0) c).stick schedPage 11
      else c) c
    c.wr Mix.muted (b2n (tileList.any (fun t => c.on (Mix.oMuted.nth (64 * t)))))

/-- The block that a mix output delivers. -/
def Chip.mixGiven (c : Chip) (o : Nat) : List Int :=
  let b := Store.get [] (c.tile (o / 64)).given o
  if b = [] then List.replicate c.periodLen 0 else b

/-! ## Gain writes -/

/-- Changes of a write that would have to find room in a tile's queue (R217): `RAMP` not 0, a change of the target, and no
replacement of a queued, accepted or ramping change. -/
def Chip.needsRoom (c : Chip) (es : List (Nat × Nat)) (t : Nat) : Nat :=
  let x := c.tile t
  (es.filter (fun p => p.1 / 262144 = t && c.xpIn p.1 && c.rampOf p.1 ≠ 0 && !x.queue.any (fun q => q.1 = p.1) &&
    !x.ramps.any (fun r => r.e = p.1) && !c.mix.accepted.any (fun q => q.1 = p.1))).length

/-- New changes already accepted for the coming boundary in a tile (R217). -/
def Chip.newAccepted (c : Chip) (t : Nat) : Nat :=
  let x := c.tile t
  (((c.mix.accepted.filter (fun p => p.1 / 262144 = t && c.xpIn p.1 && c.rampOf p.1 ≠ 0 && !x.queue.any (fun q => q.1 = p.1) &&
    !x.ramps.any (fun r => r.e = p.1))).map Prod.fst).eraseDups).length

/-- Whether a write finds room in every tile that it touches (R217). -/
def Chip.hasRoom (c : Chip) (es : List (Nat × Nat)) : Bool :=
  ((es.map (fun p => p.1 / 262144)).eraseDups).all (fun t =>
    let n := c.needsRoom es t
    n = 0 || decide ((c.tile t).queue.length + c.newAccepted t + n ≤ 4096))

/-- A gain write of whole entries (R214, R217, R218): staged, done at once on a stopped engine, accepted for the coming boundary,
or withheld, its response with it. -/
def Chip.gainTake (c : Chip) (es : List (Nat × Nat)) : Chip :=
  let es := es.filter (fun p => p.1 < 16777216)
  if c.on Mix.batch then
    let n := c.mix.count
    let fit := es.take (65536 - n)
    (c.updMix (fun x => { x with staged := fit.reverse ++ x.staged, count := n + es.length })).wr Mix.bCount (min 65536 (n + es.length))
  else if !c.on Mix.run then c.gainNow es
  else
    let new := es.filter (fun p => Store.get 0 c.mix.gain p.1 ≠ p.2 || c.mix.poison.contains p.1)
    if c.hasRoom new then
      let gain := new.foldl (fun g p => Store.set 0 g p.1 p.2) c.mix.gain
      let poison := c.mix.poison.filter (fun e => !new.any (fun p => p.1 = e))
      c.updMix (fun x => { x with gain := gain, accepted := x.accepted ++ new, poison := poison })
    else { c.updMix (fun x => { x with withheld := x.withheld ++ [{ es := es }] }) with resp := .withheld }

/-- The entries of a write of bytes at a byte offset of the gain table (R213). -/
def gainEntries (off : Nat) : List Nat → List (Nat × Nat)
  | a :: b :: r => (off / 2, a % 256 + 256 * (b % 256)) :: gainEntries (off + 2) r
  | _ => []

/-- The bytes of a write as the enabled halfwords of the gain table (R213, R214): whole entries, and whether one is partial. -/
def gainHalves (off : Nat) : List (Nat × Nat) → List (Nat × Nat) × Bool
  | [] => ([], false)
  | (w, be) :: r =>
    let t := gainHalves (off + 4) r
    let e := off / 2
    ((if be % 4 = 3 then [(e, w % 65536)] else []) ++ (if be / 4 % 4 = 3 then [(e + 1, w / 65536 % 65536)] else []) ++ t.1,
     (be % 4 = 1 || be % 4 = 2 || be / 4 % 4 = 1 || be / 4 % 4 = 2) || t.2)

/-- A write of words, each with its byte enables, to the gain table from byte offset `off` on: all entries are accepted together, and a
write that covers a part of an entry is ignored (R214). -/
def Chip.gainWrite (c : Chip) (off : Nat) (ws : List (Nat × Nat)) : Chip :=
  let g := gainHalves off ws
  if g.2 then c.stick mixPage 6 else c.gainTake g.1

/-- The withheld write that was made last was made through `TW_DATA` by master `k`: its index moves on with the acceptance (R217,
R491). -/
def Chip.withheldBy (c : Chip) (k : Nat) : Chip :=
  c.updMix (fun x => { x with withheld := x.withheld.dropLast ++ (x.withheld.drop (x.withheld.length - 1)).map (fun w => { w with tw := some k }) })

/-- The withheld write that was made last is the last one of a transaction, whose response returns with it (R217). -/
def Chip.withheldFlight (c : Chip) (f : Nat × Nat) : Chip :=
  c.updMix (fun x => { x with withheld := x.withheld.dropLast ++ (x.withheld.drop (x.withheld.length - 1)).map (fun w => { w with flight := some f }) })

/-- `BATCH` is written 1 (R218). -/
def Chip.batchOpen (c : Chip) : Chip :=
  if c.on Mix.commit then c.stick mixPage 5
  else if c.on Mix.batch then c
  else ((((c.wr Mix.batch 1).wr Mix.bCode 1).wr Mix.bReason 0).wr Mix.bCount 0).updMix (fun x => { x with staged := [], count := 0 })

/-- `COMMIT` is written 1 (R218, R219). -/
def Chip.batchCommit (c : Chip) : Chip :=
  if !c.on Mix.batch then c
  else
    let c := c.wr Mix.batch 0
    if 65536 < c.mix.count then c.batchReject 1 0
    else
      let es := batchEntries c.mix.staged
      if !c.on Mix.run then (c.gainNow es).batchStarted
      else ((c.wr Mix.commit 1).wr Mix.bCode 2).updMix (fun x => { x with batch := es, staged := [] })

/-- `DISCARD` is written 1 (R218). -/
def Chip.batchDiscard (c : Chip) : Chip :=
  if !c.on Mix.batch then c
  else ((c.wr Mix.batch 0).wr Mix.bCode 6).updMix (fun x => { x with staged := [], count := 0 })

end Sys2Proof.Machine
end

