-- ==== Sys2Proof/Machine/NovaCore.lean ====
section
/-! DEFINITION. One Nova core executing one bundle (R225 to R242, R248 to R250): encodings, the three slots, result latencies,
loops, branches and interrupts. -/

namespace Sys2Proof.Machine

/-! ## Registers -/

def NCore.gv (x : NCore) (i : Nat) : Nat := Store.get 0 x.g i
def NCore.gs (x : NCore) (i : Nat) : Int := toSigned 32 (x.gv i)
def NCore.pv (x : NCore) (i : Nat) : Nat := Store.get 0 x.p i
def NCore.cv (x : NCore) (i : Nat) : Nat := Store.get 0 x.cr i
def NCore.mv (x : NCore) (i : Nat) : Nat := Store.get 0 x.dm i
def NCore.setCr (x : NCore) (i v : Nat) : NCore := { x with cr := Store.set 0 x.cr i v }
def NCore.setMv (x : NCore) (i v : Nat) : NCore :=
  { x with dm := Store.set 0 x.dm i (v % 4294967296), poison := x.poison.filter (fun q => q ≠ i) }

/-- Widths of CR0 to CR22 (R227). -/
def crWidth (i : Nat) : Nat :=
  [5, 11, 11, 5, 16, 11, 11, 16, 11, 11, 15, 16, 15, 16, 4, 2, 32, 1, 6, 32, 32, 32, 11].getD i 0

/-- Control registers that no instruction writes (R227). -/
def crReadOnly (i : Nat) : Bool := i = 15 || i = 16 || i = 17 || i = 18 || i = 19 || i = 21 || i = 22

/-- Write a control register as `MOVCT` and the table window do: `ISR` is kept (R227). -/
def NCore.writeCr (x : NCore) (i v : Nat) : NCore :=
  let v := v % 2 ^ crWidth i
  x.setCr i (if i = 14 then v - 2 * (v / 2 % 2) + 2 * (x.cv 14 / 2 % 2) else v)

def sat16 (v : Int) : Int × Bool := (min (max v (-32768)) 32767, decide (v < -32768) || decide (32767 < v))
def sat32 (v : Int) : Int × Bool := (min (max v (-2147483648)) 2147483647, decide (v < -2147483648) || decide (2147483647 < v))

/-- v ÷ 2^n rounded half to even (R233). -/
def rhe (v : Int) (n : Nat) : Int :=
  let d : Int := ((2 ^ n : Nat) : Int)
  let q := v / d
  let r := v % d
  if d < 2 * r || (2 * r = d && q % 2 = 1) then q + 1 else q

/-- An 80-bit two's complement number. -/
def acc80 (v : Int) : Int := toSigned 80 (ofSigned 80 v)

/-- The parts of a packed complex number (R233). -/
def re16 (w : Nat) : Int := toSigned 16 (w % 65536)
def im16 (w : Nat) : Int := toSigned 16 (w / 65536)

/-! ## Reserved encodings (R229) -/

/-- The bits of an X slot below its opcode that lie in a field of the instruction; none where the opcode is reserved (R233). -/
def xUsed (op : Nat) : Option Nat :=
  let d := 0x3C00000
  let s1 := 0x3C0000
  let s2 := 0x3C000
  let aux := 0x3FFF
  let a := 0xC00000
  if op = 0 then some 0
  else if op ≤ 0x0A ∨ op = 0x11 ∨ op = 0x12 ∨ op = 0x19 then some (d + s1 + s2)
  else if op ≤ 0x0E ∨ op = 0x1B then some (d + s1 + aux)
  else match op with
    | 0x0F => some (d + 0x3FFFFF)
    | 0x10 => some (d + 0xFFFF)
    | 0x13 | 0x14 | 0x1A => some (d + s1)
    | 0x15 => some (s1 + s2)
    | 0x16 => some (s1 + aux)
    | 0x17 | 0x18 => some (d + s1 + s2 + aux)
    | 0x20 | 0x21 | 0x22 => some (a + s1 + s2)
    | 0x23 | 0x24 | 0x25 => some (0x800000 + s1 + s2)
    | 0x26 => some a
    | 0x27 | 0x28 => some (a + s1 + aux)
    | 0x30 | 0x32 => some (d + 0xC0000 + aux)
    | 0x31 => some (d + 0x40000 + aux)
    | _ => none

/-- The bits of a C slot below `Q` that lie in a field of the instruction (R236). -/
def cUsed (op : Nat) : Option Nat :=
  match op with
  | 0 | 4 | 5 | 8 | 11 | 12 => some 0
  | 1 | 3 => some 0x7FF
  | 2 => some 0x7FFF
  | 6 => some 0x3FFFFFF
  | 7 => some 0x3FF000F
  | 9 | 10 => some 0x1F000F
  | _ => none

/-- Whether bits of `w` stand outside the used ones, or the opcode is reserved. -/
def strays (w : Nat) : Option Nat → Bool
  | none => true
  | some u => w &&& u ≠ w

/-- Whether a dual-access field is reserved (R230). -/
def accessBad (f : Nat) : Bool := f / 8192 = 3 || (f / 8192 = 0 && f ≠ 0)

/-- Whether an M slot is reserved (R230). -/
def mBad (m : Nat) : Bool :=
  match m / 2 ^ 30 with
  | 0 => accessBad (bits m 29 15) || accessBad (bits m 14 0)
  | 1 => bits m 18 16 ≠ 0 || (2 ≤ bits m 29 28 && bit m 27)
  | 2 =>
    let op := bits m 29 27
    4 ≤ op || bits m 19 16 ≠ 0 || (op < 2 && bits m 23 20 ≠ 0) || (2 ≤ op && bits m 15 0 ≠ 0)
  | _ => true

/-- The first reserved encoding of a bundle: fault code and slot (R229, R243). -/
def reservedOf (c x m w3 : Nat) : Option (Nat × Nat) :=
  let cop := c / 2 ^ 27
  if strays (c % 2 ^ 26) (cUsed cop) || (cop = 2 && 12 ≤ bits c 14 11) then some (1, 0)
  else if (cop = 9 || cop = 10) && 23 ≤ bits c 20 16 then some (2, 0)
  else if strays (x % 2 ^ 26) (xUsed (x / 2 ^ 26)) || ((x / 2 ^ 26 = 0x28 || x / 2 ^ 26 = 0x32) && x % 4 = 3) then some (1, 1)
  else if mBad m then some (1, 2)
  else if w3 ≠ 0 then some (1, 3) else none

/-! ## M slot (R230 to R232) -/

/-- Post-modify of pointer `i` standing at `p` (R231). -/
def NCore.post (x : NCore) (i p : Nat) (mod : Int) : Nat :=
  let r : Int := (p : Int) + mod
  let cb : Int := x.cv (if i = 6 then 10 else 12)
  let cl : Int := x.cv (if i = 6 then 11 else 13)
  let r := if 6 ≤ i ∧ cl ≠ 0 then
      (let r := if cb + cl ≤ r then r - cl else r
       if r < cb then r + cl else r)
    else r
  ofSigned 15 r

/-- What a slot does: the core with its stores done, the results that it sends out, whether it loads, whether it saturated, and
the addresses that it loads. -/
structure SlotOut where
  x : NCore
  res : List NRes := []
  loads : Bool := false
  sat : Bool := false
  addrs : List Nat := []

/-- One access of the dual form, with the pointers as they stand for it (R230, R232). -/
def NCore.access (x : NCore) (t f : Nat) (ps : Nat → Nat) : SlotOut × (Nat → Nat) :=
  let op := bits f 14 13
  let gi := bits f 12 9
  let pi := bits f 8 6
  if op = 0 then (⟨x, [], false, false, []⟩, ps)
  else
    let a := ps pi
    let np := x.post pi a (toSigned 6 (bits f 5 0))
    let r : List NRes := [⟨t + 1, 2, 16 + pi, np⟩]
    let ps := fun i => if i = pi then np else ps i
    if op = 1 then (⟨x, ⟨t + 3, 0, gi, x.mv a⟩ :: r, true, false, [a]⟩, ps)
    else (⟨x.setMv a (x.gv gi), r, false, false, []⟩, ps)

/-- The M slot (R230). -/
def NCore.mSlot (x : NCore) (t m : Nat) : SlotOut :=
  let pi := bits m 23 21
  let imm := bits m 15 0
  let simm := toSigned 16 imm
  match m / 2 ^ 30 with
  | 0 =>
    let a := x.access t (bits m 29 15) x.pv
    let b := a.1.x.access t (bits m 14 0) a.2
    ⟨b.1.x, a.1.res ++ b.1.res, a.1.loads || b.1.loads, false, a.1.addrs ++ b.1.addrs⟩
  | 1 =>
    let reg := bits m 27 24
    let mode := bits m 20 19
    let p := x.pv pi
    let addr := match mode with | 2 => ofSigned 15 ((p : Int) + simm) | 3 => imm % 32768 | _ => p
    let move : List NRes := match mode with
      | 0 => [⟨t + 1, 2, 16 + pi, x.post pi p simm⟩]
      | 1 => [⟨t + 1, 2, 16 + pi, x.post pi p (x.gs (imm % 16))⟩]
      | _ => []
    match bits m 29 28 with
    | 0 => ⟨x, ⟨t + 3, 0, reg, x.mv addr⟩ :: move, true, false, [addr]⟩
    | 1 => ⟨x.setMv addr (x.gv reg), move, false, false, []⟩
    | 2 => ⟨x, ⟨t + 3, 0, 16 + reg % 8, x.mv addr⟩ :: move, true, false, [addr]⟩
    | _ => ⟨x.setMv addr (x.pv (reg % 8)), move, false, false, []⟩
  | 2 =>
    let pd := bits m 26 24
    let gi := bits m 23 20
    let r : NRes := match bits m 29 27 with
      | 0 => ⟨t + 1, 2, 16 + pd, imm⟩
      | 1 => ⟨t + 1, 2, 16 + pd, (x.pv pd : Int) + simm⟩
      | 2 => ⟨t + 1, 2, 16 + pd, x.gv gi⟩
      | _ => ⟨t + 1, 2, gi, x.pv pd⟩
    ⟨x, [r], false, false, []⟩
  | _ => ⟨x, [], false, false, []⟩

/-! ## X slot (R233 to R235) -/

/-- The flags of a comparison (R235): Z, N, C, V in bits 0 to 3. -/
def cmpFlags (a b : Nat) : Nat :=
  let d := ofSigned 32 ((a : Int) - b)
  let s : Int := toSigned 32 a - toSigned 32 b
  b2n (d = 0) + 2 * (d / 2 ^ 31) + 4 * b2n (decide (b ≤ a)) + 8 * b2n (decide (s < -2147483648) || decide (2147483647 < s))

/-- A number packed from two 16-bit parts. -/
def pack16 (re im : Int) : Int := ofSigned 16 im * 65536 + ofSigned 16 re

/-- What an ALU instruction writes to D, and whether it saturated (R233). -/
def NCore.alu (x : NCore) (w : Nat) : Int × Bool :=
  let a := x.gv (bits w 21 18)
  let b := x.gv (bits w 17 14)
  let sa := toSigned 32 a
  let sb := toSigned 32 b
  let aux := bits w 13 0
  let op := w / 2 ^ 26
  let sh := if op ≤ 0x0A then b % 32 else aux % 32
  let part := fun (f : Nat → Int) =>
    let v := if op = 0x17 then f a + f b else f a - f b
    sat16 (if bit aux 0 then v / 2 else v)
  match op with
  | 0x01 => (sa + sb, false)
  | 0x02 => (sa - sb, false)
  | 0x03 => sat32 (sa + sb)
  | 0x04 => sat32 (sa - sb)
  | 0x05 => ((a &&& b : Nat), false)
  | 0x06 => ((a ||| b : Nat), false)
  | 0x07 => ((a ^^^ b : Nat), false)
  | 0x08 | 0x0B => ((a * 2 ^ sh : Nat), false)
  | 0x09 | 0x0C => ((a / 2 ^ sh : Nat), false)
  | 0x0A | 0x0D => (sa / ((2 ^ sh : Nat) : Int), false)
  | 0x0E => (sa + toSigned 14 aux, false)
  | 0x0F => (toSigned 22 (w % 2 ^ 22), false)
  | 0x10 => ((w % 65536 * 65536 + x.gv (bits w 25 22) % 65536 : Nat), false)
  | 0x11 => (min sa sb, false)
  | 0x12 => (max sa sb, false)
  | 0x13 => sat32 (if sa < 0 then -sa else sa)
  | 0x14 => sat32 (-sa)
  | 0x17 | 0x18 => (pack16 (part re16).1 (part im16).1, (part re16).2 || (part im16).2)
  | 0x19 => ((b % 65536 * 65536 + a % 65536 : Nat), false)
  | 0x1A => sat16 (rhe sa 16)
  | _ => (((if bit aux 0 then a / 65536 else a % 65536) * 65536 : Nat), false)

/-- The accumulators that a multiply-class instruction writes, with their values (R233, R234). -/
def NCore.mul (x : NCore) (w : Nat) : List (Nat × Int) :=
  let s1 := x.gv (bits w 21 18)
  let s2 := x.gv (bits w 17 14)
  let aux := bits w 13 0
  let a := bits w 23 22
  let i := 2 * bits w 23 23
  let old := fun (k : Nat) => Store.get 0 x.am k
  let prod := toSigned 32 s1 * toSigned 32 s2
  let re := re16 s1 * re16 s2 - im16 s1 * im16 s2
  let im := re16 s1 * im16 s2 + im16 s1 * re16 s2
  match w / 2 ^ 26 with
  | 0x20 => [(a, prod)]
  | 0x21 => [(a, old a + prod)]
  | 0x22 => [(a, old a - prod)]
  | 0x23 => [(i, re), (i + 1, im)]
  | 0x24 => [(i, old i + re), (i + 1, old (i + 1) + im)]
  | 0x25 => [(i, old i + (re16 s1 * re16 s2 + im16 s1 * im16 s2)),
             (i + 1, old (i + 1) + (im16 s1 * re16 s2 - re16 s1 * im16 s2))]
  | 0x26 => [(a, 0)]
  | 0x27 => [(a, toSigned 32 s1 * ((2 ^ min (aux % 64) 48 : Nat) : Int))]
  | _ =>
    let u := ofSigned 80 (old a)
    [(a, match aux % 4 with
      | 0 => ((u / 2 ^ 32 * 2 ^ 32 + s1 : Nat) : Int)
      | 1 => ((u / 2 ^ 64 * 2 ^ 64 + s1 * 2 ^ 32 + u % 2 ^ 32 : Nat) : Int)
      | _ => ((s1 % 65536 * 2 ^ 64 + u % 2 ^ 64 : Nat) : Int))]

/-- A part of an accumulator as `ARD` and the table window read it (R233, R259). -/
def accPart (v : Int) (part : Nat) : Nat :=
  match part with
  | 0 => ofSigned 32 v
  | 1 => ofSigned 32 (v / 4294967296)
  | _ => ofSigned 32 (v / 18446744073709551616)

/-- What an accumulator read writes to D, and whether it saturated (R233). -/
def NCore.accRead (x : NCore) (w : Nat) : Int × Bool :=
  let aux := bits w 13 0
  let acc := fun (k : Nat) => Store.get 0 x.a k
  match w / 2 ^ 26 with
  | 0x30 => sat32 (rhe (acc (bits w 19 18)) (aux % 64))
  | 0x31 =>
    let p := bits w 18 18
    let re := sat16 (rhe (acc (2 * p)) (aux % 64))
    let im := sat16 (rhe (acc (2 * p + 1)) (aux % 64))
    (pack16 re.1 im.1, re.2 || im.2)
  | _ => (accPart (acc (bits w 19 18)) (aux % 4), false)

/-- The X slot: its results and whether it saturated. -/
def NCore.xSlot (x : NCore) (t w : Nat) : List NRes × Bool :=
  let op := w / 2 ^ 26
  let write := fun (r : Int × Bool) =>
    ((⟨t + 1, 2, bits w 25 22, r.1⟩ : NRes) :: (if r.2 then [⟨t + 1, 2, 65, 1⟩] else []), r.2)
  if op = 0 then ([], false)
  else if op = 0x15 then ([⟨t + 1, 2, 64, cmpFlags (x.gv (bits w 21 18)) (x.gv (bits w 17 14))⟩], false)
  else if op = 0x16 then
    ([⟨t + 1, 2, 64, cmpFlags (x.gv (bits w 21 18)) (ofSigned 32 (toSigned 14 (bits w 13 0)))⟩], false)
  else if op < 0x20 then write (x.alu w)
  else if op < 0x30 then
    ((x.mul w).flatMap (fun r => [⟨t + 1, 1, 28 + r.1, acc80 r.2⟩, ⟨t + 2, 1, 24 + r.1, acc80 r.2⟩]), false)
  else write (x.accRead w)

/-! ## C slot (R236, R239, R241) -/

/-- Whether a condition holds (R236). -/
def condHolds (flags cc : Nat) : Bool :=
  let z := bit flags 0
  let n := bit flags 1
  let c := bit flags 2
  let v := bit flags 3
  let s := bit flags 4
  match cc with
  | 0 => z | 1 => !z | 2 => n != v | 3 => n == v | 4 => z || n != v | 5 => !z && n == v
  | 6 => !c | 7 => c | 8 => v | 9 => !v | 10 => s | _ => !s

/-- What the C slot does beside its results: a taken branch (target and whether by `RTI`), and the address at which a loop with
count 0 goes on. -/
structure Control where
  x : NCore
  res : List NRes := []
  take : Option (Nat × Bool) := none
  skip : Option Nat := none

/-- The C slot at address `pc` in step `t` (R236, R241). -/
def NCore.cSlot (x : NCore) (t pc c : Nat) : Control :=
  let dst := c % 2048
  let loop := fun (count : Nat) =>
    let b := if bit c 25 then 7 else 4
    let le := pc + bits c 24 16 + 1
    (⟨((x.setCr b count).setCr (b + 1) (pc + 1)).setCr (b + 2) le, [], none, if count = 0 then some (le + 1) else none⟩ : Control)
  let cr := bits c 20 16
  match c / 2 ^ 27 with
  | 1 => ⟨x, [], some (dst, false), none⟩
  | 2 => ⟨x, [], if condHolds (x.cv 0) (bits c 14 11) then some (dst, false) else none, none⟩
  | 3 => ⟨x, [⟨t + 1, 2, 33, ((pc + 3) % 2048 : Nat)⟩], some (dst, false), none⟩
  | 4 => ⟨x, [], some (x.cv 1, false), none⟩
  | 5 => ⟨x, [], some (x.cv 2, true), none⟩
  | 6 => loop (c % 65536)
  | 7 => loop (x.gv (c % 16) % 65536)
  | 9 => ⟨x, if crReadOnly cr then [] else [⟨t + 1, 2, 32 + cr, x.gv (c % 16)⟩], none, none⟩
  | 10 => ⟨x, [⟨t + 1, 2, c % 16, if cr = 21 then (t : Int) else x.cv cr⟩], none, none⟩
  | 11 => ⟨x, [⟨t + 1, 2, 66, 1⟩], none, none⟩
  | 12 => ⟨x, [⟨t + 1, 2, 66, 0⟩], none, none⟩
  | _ => ⟨x, [], none, none⟩

/-- The next address after loop evaluation: loop 1 first, loop 0 second (R241). -/
def NCore.loopEnd (x : NCore) (pc : Nat) : NCore × Nat :=
  let a : NCore × Nat :=
    if 1 ≤ x.cv 7 ∧ pc = x.cv 9 then
      (if 2 ≤ x.cv 7 then (x.setCr 7 (x.cv 7 - 1), x.cv 8) else (x.setCr 7 0, pc + 1))
    else (x, pc + 1)
  let x := a.1
  if a.2 = pc + 1 ∧ 1 ≤ x.cv 4 ∧ pc = x.cv 6 then
    (if 2 ≤ x.cv 4 then (x.setCr 4 (x.cv 4 - 1), x.cv 5) else (x.setCr 4 0, pc + 1))
  else a

/-! ## Results land (R237, R238) -/

/-- One result lands in its register. -/
def NCore.land1 (x : NCore) (r : NRes) : NCore :=
  if r.dest < 16 then { x with g := Store.set 0 x.g r.dest (ofSigned 32 r.val) }
  else if r.dest < 24 then { x with p := Store.set 0 x.p (r.dest - 16) (ofSigned 15 r.val) }
  else if r.dest < 28 then { x with a := Store.set 0 x.a (r.dest - 24) r.val }
  else if r.dest < 32 then { x with am := Store.set 0 x.am (r.dest - 28) r.val }
  else if r.dest < 64 then x.writeCr (r.dest - 32) (ofSigned 32 r.val)
  else match r.dest with
    | 64 => x.setCr 0 (x.cv 0 / 16 * 16 + ofSigned 4 r.val)
    | 65 => x.setCr 0 (setBit (x.cv 0) 4 true)
    | _ => x.setCr 14 (setBit (x.cv 14) 0 (decide (r.val = 1)))

/-- Every result that is due by step `t` lands, in the order of issue. -/
def NCore.land (x : NCore) (t : Nat) : NCore :=
  let due := x.res.filter (fun r => decide (r.due ≤ t))
  { due.foldl NCore.land1 x with res := x.res.filter (fun r => !decide (r.due ≤ t)) }

/-- Every result on its way lands: the core has stopped issuing. -/
def NCore.flush (x : NCore) : NCore := { (x.res.mergeSort (fun a b => decide (a.due ≤ b.due))).foldl NCore.land1 x with res := [] }

/-- Loads and multiplies on their way are discarded (R246). -/
def NCore.discard (x : NCore) : NCore :=
  let y := { x with res := x.res.filter (fun r => r.kind = 2) }.flush
  { y with am := y.a }

/-- Two slots of one bundle write one register: the spec orders only two loads (R238), so the value is free. `f` is the free
value; the answer is what the later slot's results become and whether the free value was taken. -/
def clash (f : Nat) (old new : List NRes) : List NRes × Bool :=
  let one := fun (r : NRes) =>
    let same := old.any (fun q => q.dest = r.dest && q.due = r.due && q.val ≠ r.val)
    let cmp := r.dest = 32 && old.any (fun q => q.dest = 64 && q.val ≠ ofSigned 4 r.val)
    let sat := r.dest = 32 && old.any (fun q => q.dest = 65) && !bit (ofSigned 32 r.val) 4
    let v := ofSigned 32 r.val
    let v := if cmp then v / 16 * 16 + f % 16 else v
    let v := if sat then setBit v 4 (bit f 4) else v
    (if same then { r with val := toSigned 32 f } else if cmp || sat then { r with val := v } else r, same || cmp || sat)
  ((new.map (fun r => (one r).1)), new.any (fun r => (one r).2))

/-! ## One bundle -/

/-- How a bundle ends: the core after it, a fault (code, slot, PC), whether the period's work has ended, and what happened: a
saturation, a `Q` that was not quiet, a write of CR20, and whether the free value was taken. -/
structure Issued where
  x : NCore
  fault : Option (Nat × Nat × Nat) := none
  halted : Bool := false
  sat : Bool := false
  unquiet : Bool := false
  mbox : Bool := false
  used : Bool := false

/-- The words of the bundle at an address (R228). -/
def NCore.bundle (x : NCore) (pc i : Nat) : Nat := Store.get 0 x.im (4 * pc + i)

/-- The rule of R239, R241 or R242 that the bundle at `pc` breaks: fault code. -/
def NCore.broken (x : NCore) (pc c : Nat) : Option Nat :=
  let cop := c / 2 ^ 27
  let branch := cop = 1 || cop = 3 || cop = 4 || cop = 5 || (cop = 2 && condHolds (x.cv 0) (bits c 14 11))
  let ctl := branch || cop = 6 || cop = 7 || cop = 8
  let isr := bit (x.cv 14) 1
  let atEnd := (1 ≤ x.cv 4 && pc = x.cv 6) || (1 ≤ x.cv 7 && pc = x.cv 9)
  if x.br.isSome && ctl then some 3
  else if (cop = 5 && !isr) || (cop = 8 && isr) then some 6
  else if atEnd && (branch || x.br.isSome) then some 4
  else if (cop = 6 || cop = 7) && 2047 < pc + bits c 24 16 + 1 then some 5 else none

/-- An interrupt is taken after a quiet bundle (R248): `ictl` is `ICTL` as it stood before the bundle. -/
def NCore.interrupt (x : NCore) (ictl : Nat) : NCore :=
  let ready := x.cv 15 &&& (ictl / 4 % 4)
  if !bit ictl 0 || bit ictl 1 || ready = 0 then x
  else
    let s := if bit ready 0 then 0 else 1
    let y := (((x.setCr 2 x.pc).setCr 3 (x.cv 0)).setCr 14 (x.cv 14 / 4 * 4 + 2)).setCr 15 (setBit (x.cv 15) s false)
    ({ y with pc := x.cv 22 + 4 * s, irqAt := some x.t, irqHit := false, t := x.t + 2 }).land (x.t + 2)

/-- The core issues the bundle at PC (R227); `f` is a free value. -/
def NCore.issue (x : NCore) (f : Nat) : Issued :=
  let pc := x.pc
  let t := x.t
  let c := x.bundle pc 0
  let w := x.bundle pc 1
  let m := x.bundle pc 2
  match reservedOf c w m (x.bundle pc 3), x.broken pc c with
  | some (code, slot), _ => { x := x, fault := some (code, slot, pc) }
  | none, some code => { x := x, fault := some (code, 0, pc) }
  | none, none =>
    let ictl := x.cv 14
    let inDelay := x.br.isSome
    let cop := c / 2 ^ 27
    let ms := x.mSlot t m
    let xs := x.xSlot t w
    let cs := x.cSlot t pc c
    let x1 := clash f ms.res xs.1
    let c1 := clash f (ms.res ++ x1.1) cs.res
    let y := { ms.x with cr := cs.x.cr, res := x.res ++ ms.res ++ x1.1 ++ c1.1 }
    let done : NCore × Nat × Bool := match x.br, cs.skip with
      | some (dst, rti, left), _ => if left ≤ 1 then ({ y with br := none }, dst, rti) else ({ y with br := some (dst, rti, left - 1) }, pc + 1, false)
      | none, some k => (y, k, false)
      | none, none => ((y.loopEnd pc).1, (y.loopEnd pc).2, false)
    let y := done.1
    let y := match cs.take with | some (dst, rti) => { y with br := some (dst, rti, 2) } | none => y
    let y := ({ y with t := t + 1, pc := done.2.1 }).land (t + 1)
    let y := if done.2.2 then { (y.setCr 0 (y.cv 3)).setCr 14 (y.cv 14 / 4 * 4 + 1) with irqAt := none } else y
    let ctl := cs.take.isSome || cop = 6 || cop = 7 || cop = 8
    let quiet := bit c 26 && !ms.loads && !ctl && !inDelay
    let mbox := cop = 9 && bits c 20 16 = 20
    let out : Issued := { x := y, sat := xs.2, unquiet := bit c 26 && !quiet, mbox := mbox, used := x1.2 || c1.2 }
    if cop = 8 then { out with x := y.flush, halted := true }
    else if 2047 < y.pc then { out with x := { y with pc := 2047 }, fault := some (5, 0, 2047) }
    else if quiet then { out with x := y.interrupt ictl } else out

/-- The words of data memory that the bundle at PC loads, for their checks (R419). -/
def NCore.loadsFrom (x : NCore) : List Nat := (x.mSlot x.t (x.bundle x.pc 2)).addrs

end Sys2Proof.Machine
end

