-- ==== Sys2Proof/Machine/NovaOps.lean ====
section
/-! DEFINITION. Shared operations of the Nova cores on the chip (R243 to R260): states, the exchange section, faults, starts, and
the table window. -/

namespace Sys2Proof.Machine

def Chip.nova (c : Chip) (k : Nat) : NCore := Store.get {} c.novas k
def Chip.updNova (c : Chip) (k : Nat) (f : NCore → NCore) : Chip := { c with novas := Store.upd {} c.novas k f }

/-- The states of R243. -/
def Nst.off : Nat := 0
def Nst.halted : Nat := 1
def Nst.wait : Nat := 2
def Nst.xchg : Nat := 3
def Nst.run : Nat := 4
def Nst.fault : Nat := 5

def Chip.novaSt (c : Chip) (k : Nat) : Nat := c.rd (Nova.state.on k)

/-- What `NOVA_STATUS` and `NOVA_MBOX` show of a core. -/
def Chip.showNova (c : Chip) (k : Nat) : Chip :=
  let x := c.nova k
  ((c.wr (Nova.isr.on k) (x.cv 14 / 2 % 2)).wr (Nova.pc.on k) x.pc).wr (Nova.mbox.on k) (x.cv 20)

/-- A core stops issuing for good: `RUN` reads 0 and what is on its way lands (R243, R252). -/
def Chip.novaIdle (c : Chip) (k st : Nat) : Chip :=
  (((c.wr (Nova.state.on k) st).wr (Nova.run.on k) 0).updNova k (fun x => { x.flush with lvl := {} })).showNova k

/-- A core enters `FAULT` (R229, R239, R242, R258). -/
def Chip.novaFault (c : Chip) (k code slot fpc : Nat) : Chip :=
  let c := (c.updNova k (fun x => { x with pc := fpc })).novaIdle k Nst.fault
  let c := (((c.wr (Nova.fpc.on k) fpc).wr (Nova.fcode.on k) code).wr (Nova.fslot.on k) slot).stick (novaPage k) 7
  if code ≤ 2 then (c.raise 0x80 (novaPage k) k fpc).stick (novaPage k) 0
  else if code ≤ 6 then (c.raise 0x81 (novaPage k) k fpc).stick (novaPage k) 1
  else c

/-- The condition that sent a core to `FAULT` has ended: its outputs may be released (R411). -/
def Chip.novaClear (c : Chip) (k : Nat) : Chip :=
  ((c.passHolds 0x80 (novaPage k) k).passHolds 0x81 (novaPage k) k).passHolds 0x05 (novaPage k) k

/-- Whether an image that names the core is validating or pending (R252). -/
def Chip.novaBusy (c : Chip) (k : Nat) : Bool :=
  (c.rd Sched.code = 1 || c.rd Sched.code = 2) && c.sch.names.any (fun p => p = (1, k))

/-- Samples of a period by a period-length code (R270, R272). -/
def samplesOf (plen : Nat) : Nat := 8 * 2 ^ (if plen = 3 then 1 else plen)

/-- Whether two ranges of words overlap. -/
def overlaps (a n b m : Nat) : Bool := n ≠ 0 && m ≠ 0 && decide (a < b + m) && decide (b < a + n)

/-- The exchange check of R252. -/
def Chip.novaFits (c : Chip) (k : Nat) : Bool :=
  let p := c.periodLen
  let i := c.rd (Nova.xinBase.on k)
  let ni := 2 * c.rd (Nova.nin.on k) * p
  let o := c.rd (Nova.xoutBase.on k)
  let no := 2 * c.rd (Nova.nout.on k) * p
  let b := c.rd (Nova.paramBase.on k)
  c.rd (Nova.plen.on k) = c.plenCode && c.rd (Nova.nin.on k) ≤ 64 && c.rd (Nova.nout.on k) ≤ 64 &&
  i + ni ≤ 32768 && o + no ≤ 32768 && b + 64 ≤ 32768 && !overlaps i ni o no && !overlaps i ni b 64 && !overlaps o no b 64 &&
  c.rd (Nova.ivec.on k) + 7 ≤ 2047

/-- `RUN` is written 1 (R252). -/
def Chip.novaRun (c : Chip) (k : Nat) : Chip :=
  let st := c.novaSt k
  if st = Nst.wait ∨ st = Nst.xchg ∨ st = Nst.run then c.wr (Nova.run.on k) 1
  else if st ≠ Nst.halted ∨ c.novaBusy k then (c.wr (Nova.run.on k) 0).stick (novaPage k) 8
  else if !c.novaFits k then ((c.wr (Nova.run.on k) 0).raise 0x85 (novaPage k) k 0).stick (novaPage k) 6
  else ((c.wr (Nova.run.on k) 1).wr (Nova.state.on k) Nst.wait).updNova k (fun x => { x with first := true, lvl := {} })

/-- `RUN` is written 0 (R247). -/
def Chip.novaStop (c : Chip) (k : Nat) : Chip := c.wr (Nova.run.on k) 0

/-- `CLR_FAULT` is written 1 (R243). -/
def Chip.novaClr (c : Chip) (k : Nat) : Chip :=
  if c.novaSt k = Nst.fault then ((c.wr (Nova.state.on k) Nst.halted).novaClear k) else c

/-- A doorbell is written (R253). -/
def Chip.novaBell (c : Chip) (k v : Nat) : Chip := (c.wr (Nova.dbell.on k) v).wr (Nova.dbPend.on k) 1

/-- `NOVA_PARAM` is written: `LEN`, and `GO` where it is 1 (R254). -/
def Chip.novaParam (c : Chip) (k len : Nat) (go : Bool) : Chip :=
  if c.on (Nova.paramGo.on k) then c.stick (novaPage k) 8
  else (c.wr (Nova.paramLen.on k) len).wr (Nova.paramGo.on k) (b2n go)

/-! ## The exchange section (R244 to R247) -/

/-- The words of one channel's block in data memory, as samples. -/
def NCore.block (x : NCore) (base p : Nat) : List Int := (List.range p).map (fun s => toSigned 32 (x.mv ((base + s) % 32768)))

/-- Write a block to data memory. -/
def NCore.putBlock (x : NCore) (base : Nat) (b : List Int) : NCore :=
  (b.zipIdx).foldl (fun x v => x.setMv ((base + v.2) % 32768) (ofSigned 32 v.1)) x

/-- The outputs of a core at boundary `m`: by its level and by holds, from the hold store or from the output buffer (R244, R246,
R282, R411). -/
def Chip.novaOutputs (c : Chip) (k m : Nat) (late : Bool) : Chip :=
  let p := c.periodLen
  let x := c.nova k
  let n := c.rd (Nova.nout.on k)
  let j := (m / p + 1) % 2
  let fresh := fun ch => x.block (c.rd (Nova.xoutBase.on k) + (j * n + ch) * p) p
  let r : Level × Nat := x.lvl.step late c.recoverN
  let lvl := if r.2 ≠ 0 then r.2 else c.holdLevel 3 k
  let zero := List.replicate p (0 : Int)
  let old := fun ch => (fun b => if b = [] then zero else b) (Store.get [] x.hold ch)
  let out := (List.range n).map (fun ch => (64 * k + ch, levelBlock p lvl (old ch) (old ch) (if late then old ch else fresh ch)))
  let hold := if late ∨ (1 ≤ lvl ∧ lvl ≤ 3) then x.hold else (List.range n).foldl (fun h ch => Store.set [] h ch (fresh ch)) x.hold
  let novaOut := out.foldl (fun s b => Store.set [] s b.1 b.2) (Store.clear (64 * k) (64 * k + 64) c.aud.novaOut)
  let c := (c.updAud (fun a => { a with novaOut := novaOut })).updNova k (fun x => { x with hold := hold, lvl := r.1 })
  let c := if r.1.level = 3 ∧ x.lvl.level ≠ 3 then c.stick schedPage 10 else c
  if 2 ≤ x.lvl.level ∧ r.1.level < 2 then c.stick schedPage 11 else c

/-- The steps of a core's period so far (R227). -/
def Chip.novaSteps (c : Chip) (k : Nat) : Nat := c.rd (Nova.exch.on k) + (c.nova k).t

/-- The output blocks that a core has made in the period that runs, channel by channel (R244). -/
def Chip.novaBlocks (c : Chip) (k : Nat) : List Nat :=
  let p := c.periodLen
  let n := c.rd (Nova.nout.on k)
  let x := c.nova k
  ((List.range n).flatMap (fun ch => x.block (c.rd (Nova.xoutBase.on k) + (x.cv 17 * n + ch) * p) p)).map (ofSigned 32)

/-- The inputs of a core: the block that its egress entries were handed at this boundary (R244). -/
def Chip.novaInputs (c : Chip) (k m : Nat) : Chip :=
  let p := c.periodLen
  let n := c.rd (Nova.nin.on k)
  let base := c.rd (Nova.xinBase.on k) + m / p % 2 * n * p
  (List.range n).foldl (fun c ch =>
    let b := (List.range p).map (fun s : Nat => c.egressAt (13312 + 64 * k + ch) (stampAdd m s))
    c.updNova k (fun x => x.putBlock (base + ch * p) b)) c

/-- A committed parameter block is copied (R254). -/
def Chip.novaParams (c : Chip) (k : Nat) : Chip :=
  if !c.on (Nova.paramGo.on k) then c
  else
    let n := clampN 1 64 (c.rd (Nova.paramLen.on k))
    let c := (List.range n).foldl (fun c i =>
      c.updNova k (fun x => x.setMv ((c.rd (Nova.paramBase.on k) + i) % 32768) (c.rd ((Nova.staging.nth i).on k)))) c
    ((c.updNova k (fun x => x.setCr 15 (setBit (x.cv 15) 1 true))).wr (Nova.paramGo.on k) 0).stick (novaPage k) 9

/-- The rest of the exchange section (R244): `PERIOD`, `XBUF`, a doorbell, and the core's state for the period. -/
def Chip.novaRestart (c : Chip) (k m : Nat) : Chip :=
  let c := if c.on (Nova.dbPend.on k) then
      (c.updNova k (fun x => (x.setCr 19 (c.rd (Nova.dbell.on k))).setCr 15 (setBit (x.cv 15) 0 true))).wr (Nova.dbPend.on k) 0
    else c
  let entry := c.rd (Nova.entry.on k)
  let j := m / c.periodLen % 2
  let c := c.updNova k (fun x =>
    let x := ((((((x.setCr 16 m).setCr 17 j).setCr 4 0).setCr 7 0).setCr 0 0).setCr 14 (x.cv 14 / 4 * 4))
    { x with pc := entry, br := none, t := 0, irqAt := none, irqHit := false, sat := false, unquiet := false })
  (c.wr (Nova.state.on k) Nst.xchg).showNova k

/-- What boundary `m` does to a core (R243 to R247). `opens` tells whether a period opens there (R279). The saturation of the
period that ends there is judged however it ended (R234). -/
def Chip.novaBoundary (c : Chip) (k m : Nat) (opens : Bool) : Chip :=
  let st := c.novaSt k
  if st = Nst.off ∨ st = Nst.halted ∨ st = Nst.fault then
    let c := if (c.nova k).sat then (c.judge 0x84 (novaPage k) k 0 true).updNova k (fun x => { x with sat := false }) else c
    (c.updAud (fun a => { a with novaOut := Store.clear (64 * k) (64 * k + 64) a.novaOut })).wr (Nova.ovr.on k) 0
  else
    let x := c.nova k
    let late := st = Nst.run ∨ st = Nst.xchg ∨ x.lvl.ovr
    let ran := st ≠ Nst.wait ∨ (c.aud.isOpen ∧ !x.first)
    let c := if ran then (c.judge 0x84 (novaPage k) k 0 x.sat).updNova k (fun x => { x with sat := false }) else c
    let c := if st = Nst.run then c.wr (Nova.stepsMax.on k) (max (c.novaSteps k) (c.rd (Nova.stepsMax.on k))) else c
    let c := (c.wr (Nova.ovr.on k) (b2n (st = Nst.run)))
    let c := if late then c.updNova k NCore.discard else c
    let c := c.novaOutputs k m late
    if !c.on (Nova.run.on k) then c.novaIdle k Nst.halted
    else if !opens then c.wr (Nova.state.on k) Nst.wait
    else ((c.novaInputs k m).novaParams k).novaRestart k m

/-- The exchange section's steps (R245). -/
def exchSteps (nin nout plen : Nat) : Nat := ((nin + nout) * samplesOf plen + 1) / 2 + 40

/-! ## The table window (R255, R259) -/

/-- Whether an index is a register's. -/
def novaReg (i : Nat) : Bool := 40960 ≤ i && i < 41028

/-- What a read of the table window returns. -/
def Chip.novaWinRead (c : Chip) (k i : Nat) : Nat :=
  let x := c.nova k
  let st := c.novaSt k
  let shown := st = Nst.halted ∨ st = Nst.fault
  if i < 8192 then Store.get 0 x.im i
  else if i < 40960 then x.mv (i - 8192)
  else if 41088 ≤ i ∧ i < 41152 then c.rd ((Nova.staging.nth (i - 41088)).on k)
  else if !shown then 0
  else if i < 40976 then x.gv (i - 40960)
  else if i < 40984 then x.pv (i - 40976)
  else if i < 40996 then accPart (Store.get 0 x.a ((i - 40984) / 3)) ((i - 40984) % 3)
  else if i = 41014 then k
  else if i = 41017 then x.t
  else if i < 41028 then x.cv (i - 40996)
  else 0

/-- Replace a part of an accumulator (R259). -/
def putPart (old : Int) (part v : Nat) : Int :=
  let u := ofSigned 80 old
  toSigned 80 (match part with
    | 0 => u / 2 ^ 32 * 2 ^ 32 + v
    | 1 => u / 2 ^ 64 * 2 ^ 64 + v * 2 ^ 32 + u % 2 ^ 32
    | _ => v % 65536 * 2 ^ 64 + u % 2 ^ 64)

/-- A write through the table window (R255). -/
def Chip.novaWinWrite (c : Chip) (k i v : Nat) : Chip :=
  let st := c.novaSt k
  if 41088 ≤ i then
    (if 41152 ≤ i then c
     else if c.on (Nova.paramGo.on k) then c.stick (novaPage k) 8
     else c.wr ((Nova.staging.nth (i - 41088)).on k) v)
  else if !(st = Nst.halted || (st = Nst.fault && novaReg i)) then c.stick (novaPage k) 8
  else
    let c := c.updNova k (fun x =>
      if i < 8192 then { x with im := Store.set 0 x.im i v, poison := x.poison.filter (fun q => q ≠ 65536 + i / 4) }
      else if i < 40960 then x.setMv (i - 8192) v
      else if i < 40976 then { x with g := Store.set 0 x.g (i - 40960) v }
      else if i < 40984 then { x with p := Store.set 0 x.p (i - 40976) (v % 32768) }
      else if i < 40996 then
        let a := (i - 40984) / 3
        let n := putPart (Store.get 0 x.a a) ((i - 40984) % 3) v
        { x with a := Store.set 0 x.a a n, am := Store.set 0 x.am a n }
      else if i < 41019 ∧ !crReadOnly (i - 40996) then x.writeCr (i - 40996) v
      else x)
    c.showNova k

end Sys2Proof.Machine
end

