-- ==== Sys2Proof/Machine/SchedOps.lean ====
section
/-! DEFINITION. Schedule images, the schedule guard and the governor (R261 to R288): capacities, validation, application. -/

namespace Sys2Proof.Machine

def Chip.updSch (c : Chip) (f : SchX → SchX) : Chip := { c with sch := f c.sch }

/-! ## Capacities (R268) -/

/-- C(T) for a deadline of `num` / `den` ns. -/
def capacity (num den : Nat) : Nat := (14 * num + 5 * den) / (10 * den)

/-- The capacity of a period. -/
def Chip.periodCapacity (c : Chip) : Nat := capacity (c.periodLen * 1000000) c.rateKHz

/-- The capacity of a line of a format. -/
def lineCapacity (f : Nat) : Nat :=
  if fractional (rateOf f) then capacity (wordsPerLine f * 1001000000) (wordRateKHz f * 1000)
  else capacity (wordsPerLine f * 1000000) (wordRateKHz f)

/-- W(P) of a mix tile (R210). -/
def mixSteps (fs plen : Nat) : Nat := (if fs = 1 then 8192 else 16384) * samplesOf plen + 1024

/-- The word rate of a format per link frame as unsigned 8.24, rounded (R275). -/
def paceOf (f : Nat) : Nat :=
  let n := wordRateKHz f * 1072 * 16777216
  let d := 51200000
  if fractional (rateOf f) then (2 * n * 1000 + d * 1001) / (2 * d * 1001) else (2 * n + d) / (2 * d)

/-! ## The image in the buffer (R270, R271) -/

/-- A word of the image buffer. -/
def imgWord (m : Mem) (off : Nat) : Nat := Mem.word m 4 off

/-- The image buffer as the hardware reads it: a poisoned word is 0, its COLD value (R423). -/
def Chip.imageMem (c : Chip) (m : Mem) : Mem :=
  (c.poisoned.filter (fun q => q.1 = 7 && q.2.1 = schedPage)).foldl (fun m q => Mem.puts m 4 (4 * q.2.2) [0, 0, 0, 0]) m

/-- One entry of the section table. -/
structure Section where
  kind : Nat
  target : Nat
  off : Nat
  len : Nat
  budget : Nat
  word0 : Nat

/-- Section `i` (R271). -/
def imgSection (m : Mem) (i : Nat) : Section :=
  let w := fun j => imgWord m (64 + 16 * i + 4 * j)
  ⟨w 0 % 256, w 0 / 65536, w 1, w 2, w 3, w 0⟩

/-- Number of sections. -/
def imgCount (m : Mem) : Nat := imgWord m 4 / 65536

/-- The words of a section. -/
def Section.body (s : Section) (m : Mem) : List Nat := (List.range (s.len / 4)).map (fun k => imgWord m (s.off + 4 * k))

/-- CRC-32C of the image with its check word taken as 0 (R270, R46). -/
def imgCrc (m : Mem) (size : Nat) : Nat :=
  crc32c ((List.range size).flatMap (fun i => bitsMsb 8 (if 60 ≤ i ∧ i < 64 then 0 else Mem.byte m 4 i)))

/-- The first header reason (R277). A zero identifier and reserved bits that are set count under reason 8, after the others
(log entry 18). -/
def Chip.headerReason (c : Chip) (m : Mem) : Nat :=
  let n := imgCount m
  let size := imgWord m 8
  let w4 := imgWord m 16
  if imgWord m 0 ≠ 0x4D495844 ∨ imgWord m 4 % 65536 ≠ 1 then 1
  else if n = 0 ∨ 512 < n ∨ size % 4 ≠ 0 ∨ 4194304 < size ∨ size < 64 + 16 * n then 2
  else if imgCrc m size ≠ imgWord m 60 then 3
  else if w4 % 2 ≠ c.rd Sched.fs ∨ w4 / 2 % 4 ≠ c.plenCode then 4
  else if 1400 < imgWord m 20 then 5
  else if imgWord m 12 = 0 ∨ 8 ≤ w4 ∨ (List.range 8).any (fun k => imgWord m (28 + 4 * k) ≠ 0) then 8
  else 0

/-- Whether section `i` is out of place (R271): outside the image or over the header and table, misaligned, or overlapping an
earlier one. -/
def sectionMisplaced (m : Mem) (i : Nat) : Bool :=
  let s := imgSection m i
  s.off % 4 ≠ 0 || s.len % 4 ≠ 0 || s.off < 64 + 16 * imgCount m || imgWord m 8 < s.off + s.len ||
  (List.range i).any (fun j => overlaps s.off s.len (imgSection m j).off (imgSection m j).len)

/-- Whether `KIND` and `TARGET` are invalid, or an earlier section has both (R277). -/
def sectionTargetBad (m : Mem) (i : Nat) : Bool :=
  let s := imgSection m i
  let ok := match s.kind with | 1 | 3 => s.target ≤ 63 | 2 => s.target = 0 | 4 => s.target ≤ 32 | 5 => s.target ≤ 7 | _ => false
  !ok || (List.range i).any (fun j => (imgSection m j).kind = s.kind && (imgSection m j).target = s.target)

/-- The data segments of a `NOVA_PROG` section (R272). -/
def segmentsOf : Nat → List Nat → Option (List (Nat × List Nat))
  | 0, _ => some []
  | _ + 1, [] => none
  | n + 1, h :: r =>
    let addr := h % 65536
    let len := h / 65536
    if 32768 ≤ addr ∨ len = 0 ∨ 32768 < addr + len ∨ r.length < len then none
    else (segmentsOf n (r.drop len)).map (fun l => (addr, r.take len) :: l)

/-- A `NOVA_PROG` body's fields (R272). -/
structure NovaSection where
  entry : Nat
  ivec : Nat
  iwin : Nat
  nin : Nat
  nout : Nat
  plen : Nat
  nb : Nat
  xin : Nat
  xout : Nat
  param : Nat
  nseg : Nat

def novaSection (b : List Nat) : NovaSection :=
  let w := fun i => b.getD i 0
  ⟨bits (w 0) 10 0, bits (w 0) 21 11, bits (w 0) 31 22, bits (w 1) 6 0, bits (w 1) 13 7, bits (w 1) 15 14, bits (w 1) 27 16,
   bits (w 2) 14 0, bits (w 2) 30 16, bits (w 3) 14 0, bits (w 3) 31 16⟩

/-- Reason 8 of a `NOVA_PROG` section (R251, R252, R272). -/
def Chip.novaSectionBad (c : Chip) (b : List Nat) : Bool :=
  let s := novaSection b
  let w := fun i => b.getD i 0
  let p := samplesOf s.plen
  b.length < 4 || 2 ^ 28 ≤ w 1 || bit (w 2) 15 || bit (w 2) 31 || bit (w 3) 15 || s.nb = 0 || 2048 < s.nb || 64 < s.nseg ||
  b.length < 4 + 4 * s.nb || (List.range s.nb).any (fun k => w (4 + 4 * k + 3) ≠ 0) ||
  (segmentsOf s.nseg (b.drop (4 + 4 * s.nb))).isNone ||
  s.plen ≠ c.plenCode || 64 < s.nin || 64 < s.nout || 2047 < s.ivec + 7 ||
  32768 < s.xin + 2 * s.nin * p || 32768 < s.xout + 2 * s.nout * p || 32768 < s.param + 64 ||
  overlaps s.xin (2 * s.nin * p) s.xout (2 * s.nout * p) || overlaps s.xin (2 * s.nin * p) s.param 64 ||
  overlaps s.xout (2 * s.nout * p) s.param 64

/-- Reason 8 of a `MIX_PROG` section (R273): its body is one word. -/
def mixSectionBad (b : List Nat) : Bool :=
  let v := b.headD 0
  let n := bits v 17 5
  b.length ≠ 1 || 2 ^ 18 ≤ v || bits v 2 1 = 3 || bits v 4 3 = 3 || n = 0 || 4096 < n || n &&& (n - 1) ≠ 0

/-- The formats of a `CMP_PLAN` section, each with its word (R274). -/
def planFormats (b : List Nat) : List (Nat × Nat) :=
  (List.range 3).map (fun j => (b.getD 1 0 / 256 ^ j % 256, b.getD (2 + j) 0))

/-- Reason 8 of a `CMP_PLAN` section (R126, R274). -/
def planSectionBad (n : Nat) (b : List Nat) : Bool :=
  let w0 := b.headD 0
  b.length ≠ 5 || w0 < 2 || 8 < w0 || 2 ^ 24 ≤ b.getD 1 0 ||
  (planFormats b).any (fun p => p.1 ≠ 0xFF && (!composerFmt n p.1 || 2 ^ 19 ≤ p.2 || bits p.2 18 16 = 0 || 4 < bits p.2 18 16))

/-- The 4-word records of a `VOUT_MAP` section (R275). -/
def sectionRecords (b : List Nat) : List (List Nat) := (List.range (b.length / 4)).map (fun k => (b.drop (4 * k)).take 4)

/-- Whether an output is bound to a section's target (R275). -/
def Chip.boundTo (c : Chip) (o t : Nat) : Bool :=
  let k := c.rd (Xpt.transport.nth o).live
  if t = 32 then k = 2 else k = 1 && c.rd (Xpt.group.nth o).live = t

/-- Reason 8 of a `VOUT_MAP` section (R275). -/
def Chip.mapSectionBad (c : Chip) (t : Nat) (b : List Nat) : Bool :=
  let rs := sectionRecords b
  let out := fun (r : List Nat) => bits (r.headD 0) 10 0
  let bad := fun (r : List Nat) =>
    let f := bits (r.headD 0) 18 11
    let w1 := r.getD 1 0
    2 ^ 19 ≤ r.headD 0 || 2 ^ 16 ≤ r.getD 3 0 || 1151 < out r || !validFmt f || !c.boundTo (out r) t ||
    4 < (rs.filter (fun q => out q = out r)).length || 1 < (rs.filter (fun q => bits (q.headD 0) 18 0 = bits (r.headD 0) 18 0)).length ||
    (if t = 32 then bits w1 15 14 ≠ 0 || 2 ^ 16 ≤ r.getD 2 0
     else 2 ^ 11 ≤ w1 || bits w1 10 7 = 0 || 5 < bits w1 10 7 || r.getD 2 0 < paceOf f)
  b.isEmpty || b.length % 4 ≠ 0 || rs.any bad

/-- Links of a port in its mode (R289). -/
def linksOfMode (m : Nat) : Nat := match m with | 1 => 1 | 2 => 2 | 3 | 4 | 5 => 4 | _ => 0

/-- Whether link `k` exists in the mode of its port (R289). -/
def Chip.linkExists (c : Chip) (k : Nat) : Bool := k % 4 < linksOfMode (c.rd (Eth.mode.on (k / 4)))

/-- The rate of a port's links in its mode, Gbit/s (R289, R306). -/
def linkGbit (m : Nat) : Nat := match m with | 1 => 400 | 2 => 200 | 3 => 100 | 4 => 25 | _ => 10

/-- Whether a calendar breaks R306 at port `n` in its present mode: an entry names a queue that is not on a link of the port, or its
frame reaches the next entry of the same link or the end of the cycle. Each entry is offset, queue and bytes. -/
def Chip.calOverruns (c : Chip) (n cycle : Nat) (es : List (Nat × Nat × Nat)) : Bool :=
  let mode := c.rd (Eth.mode.on n)
  let link := fun (q : Nat) => c.rd (Flowq.qLink.nth q)
  es.any (fun e => 16376 ≤ e.2.1 || !c.on (Flowq.qEn.nth e.2.1) || link e.2.1 / 4 ≠ n || !c.linkExists (link e.2.1)) ||
  (es.zipIdx).any (fun e =>
    let next := ((es.drop (e.2 + 1)).find? (fun f => link f.2.1 = link e.1.2.1)).map Prod.fst
    decide ((next.getD cycle - e.1.1) * linkGbit mode ≤ (e.1.2.2 + 20) * 8))

/-- Whether offsets ascend strictly. -/
def ascending : List Nat → Bool
  | a :: b :: r => decide (a < b) && ascending (b :: r)
  | _ => true

/-- Reason 8 of an `EGRESS_CAL` section for port `port` (R276, R306). -/
def Chip.calSectionBad (c : Chip) (port : Nat) (b : List Nat) : Bool :=
  let w0 := b.headD 0
  let n := w0 % 65536
  let cycle := b.getD 1 0
  let offs := (List.range n).map (fun i => b.getD (2 + 2 * i) 0)
  2 ^ 18 ≤ w0 || n = 0 || 16384 < n || w0 / 65536 = 3 || cycle = 0 || (w0 / 65536 = 2 && 1000000000 % cycle ≠ 0) ||
  b.length ≠ 2 + 2 * n || !ascending offs || offs.any (fun o => cycle ≤ o) ||
  (List.range n).any (fun i => bits (b.getD (3 + 2 * i) 0) 15 14 ≠ 0) ||
  c.calOverruns port cycle ((List.range n).map (fun i =>
    (b.getD (2 + 2 * i) 0, b.getD (3 + 2 * i) 0 % 16384, b.getD (3 + 2 * i) 0 / 65536)))

/-- Reason 8 of a section (R277). -/
def Chip.sectionBad (c : Chip) (m : Mem) (i : Nat) : Bool :=
  let s := imgSection m i
  let b := s.body m
  bits s.word0 15 8 ≠ 0 || (2 < s.kind && s.budget ≠ 0) || (match s.kind with
    | 1 => c.novaSectionBad b
    | 2 => mixSectionBad b
    | 3 => planSectionBad s.target b
    | 4 => c.mapSectionBad s.target b
    | _ => c.calSectionBad s.target b)

/-- Reason 7 of a section (R268, R269). -/
def Chip.budgetBad (c : Chip) (m : Mem) (i : Nat) : Bool :=
  let s := imgSection m i
  let b := s.body m
  match s.kind with
  | 1 =>
    let n := novaSection b
    c.periodCapacity < s.budget + 56 || s.budget < exchSteps n.nin n.nout n.plen + 2 * n.iwin
  | 2 => s.budget ≠ mixSteps (b.headD 0 % 2) (bits (b.headD 0) 2 1) || c.periodCapacity < s.budget + 4200
  | 3 => (planFormats b).any (fun p => p.1 ≠ 0xFF && lineCapacity p.1 < p.2 % 65536 + 280)
  | 4 => (sectionRecords b).any (fun r => lineCapacity (bits (r.headD 0) 18 11) < r.getD 3 0 + 140)
  | _ => false

/-- Reason 9 of a section (R277). -/
def Chip.targetBusy (c : Chip) (m : Mem) (i : Nat) : Bool :=
  let s := imgSection m i
  let b := s.body m
  match s.kind with
  | 1 => let st := c.novaSt s.target; st = Nst.wait || st = Nst.xchg || st = Nst.run
  | 3 =>
    let n := s.target
    c.rd (Cmp.state.on n) ≠ 0 && (!(planFormats b).any (fun p => p.1 = c.rd (Cmp.outFmt.on n).live) ||
      (List.range 8).any (fun l => c.on (lyr Cmp.lEn n l).live && b.headD 0 ≤ l && !(l = 7 && c.keeperOn n)))
  | _ => false

/-- The reason of one section, in the order of R277. -/
def Chip.sectionReason (c : Chip) (m : Mem) (i : Nat) : Nat :=
  if sectionMisplaced m i then 2
  else if sectionTargetBad m i then 6
  else if c.sectionBad m i then 8
  else if c.budgetBad m i then 7
  else if c.targetBusy m i then 9
  else 0

/-- The first reason found and its section, or 0 and 0 (R277). -/
def Chip.validateImage (c : Chip) (m : Mem) : Nat × Nat :=
  let m := c.imageMem m
  let h := c.headerReason m
  if h ≠ 0 then (h, 0)
  else
    match (List.range (imgCount m)).find? (fun i => c.sectionReason m i ≠ 0) with
    | some i => (c.sectionReason m i, i)
    | none => (0, 0)

/-! ## Loading (R278, R251, R283) -/

/-- A unit leaves its level and its pending attempt behind (R283). -/
def Chip.forgetUnit (c : Chip) (cls unit : Nat) : Chip := c.dropAttempt 0x90 schedPage (unit + 65536 * cls)

/-- A program section is loaded into a core (R251, R272). -/
def Chip.novaLoad (c : Chip) (k : Nat) (b : List Nat) (budget : Nat) : Chip :=
  let s := novaSection b
  let im := (((b.drop 4).take (4 * s.nb)).zipIdx.filter (fun p => p.1 ≠ 0)).map (fun p => (p.2, p.1))
  let segs := (segmentsOf s.nseg (b.drop (4 + 4 * s.nb))).getD []
  let x : NCore := { im := im, loaded := true, cr := Store.set 0 [] 22 s.ivec }
  let x := segs.foldl (fun x g => (g.2.zipIdx).foldl (fun x w => x.setMv (g.1 + w.2) w.1) x) x
  let c := c.updNova k (fun _ => { x with cr := Store.set 0 x.cr 18 k })
  let c := ((((c.wr (Nova.entry.on k) s.entry).wr (Nova.ivec.on k) s.ivec).wr (Nova.iwin.on k) s.iwin).wr (Nova.nin.on k) s.nin)
  let c := ((c.wr (Nova.nout.on k) s.nout).wr (Nova.plen.on k) s.plen).wr (Nova.exch.on k) (exchSteps s.nin s.nout s.plen)
  let c := ((c.wr (Nova.xinBase.on k) s.xin).wr (Nova.xoutBase.on k) s.xout).wr (Nova.paramBase.on k) s.param
  let c := ((c.wr (Nova.budget.on k) budget).wr (Nova.state.on k) Nst.halted).wr (Nova.run.on k) 0
  (((c.novaClear k).forgetUnit 0 k).showNova k)

/-- One section takes effect, or waits for its own boundary (R278). -/
def Chip.applySection (c : Chip) (m : Mem) (i : Nat) : Chip :=
  let s := imgSection m i
  let b := s.body m
  match s.kind with
  | 1 => c.novaLoad s.target b s.budget
  | 2 =>
    let v := b.headD 0
    let c := (List.range 64).foldl (fun c t => (c.forgetUnit 1 t).updTile t (fun x => { x with lvl := {} })) c
    c.unmute.updMix (fun x => { x with prog := some (v % 2, bits v 2 1, bits v 4 3, bits v 17 5) })
  | 3 =>
    let n := s.target
    let plan := (planFormats b).filterMap (fun p => if p.1 = 0xFF then none else some (p.1, p.2 % 65536, bits p.2 18 16))
    let c := c.updComp n (fun x => { x with planWaits := some (b.headD 0, b.getD 1 0, plan) })
    if c.enabled (cmpPage n) then c else c.takePlan n
  | 4 =>
    let rs := sectionRecords b
    (c.xpt.bound.filter (fun o => c.boundTo o s.target)).foldl (fun c o =>
      let mine := (rs.filter (fun r => bits (r.headD 0) 10 0 = o)).map (fun r => s.target :: r)
      c.updSch (fun x => { x with mapWaits := Store.set none x.mapWaits o (some mine) })) c
  | _ => c.updSch (fun x => { x with calWaits := Store.set [] x.calWaits s.target (c.rd (Eth.mode.on s.target) :: b) })

/-- The sections of an image take the place of those in force of the same kind and target. -/
def Chip.keepSections (c : Chip) (m : Mem) : Chip :=
  let new := (List.range (imgCount m)).map (fun i => let s := imgSection m i; (⟨s.kind, s.target, s.budget, s.body m⟩ : Loaded))
  c.updSch (fun x => { x with inForce := x.inForce.filter (fun a => !new.any (fun b => a.kind = b.kind && a.target = b.target)) ++ new })

/-- A pending image is applied (R278). -/
def Chip.applyImage (c : Chip) (m : Mem) : Chip :=
  if c.rd Sched.code ≠ 2 then c
  else
    let m := c.imageMem m
    let c := (List.range (imgCount m)).foldl (fun c i => c.applySection m i) c
    let c := ((c.wr Sched.imgId (imgWord m 12)).wr Sched.code 3).wr Sched.loadGo 0
    ((c.updSch (fun x => { x with names := [] })).keepSections m).stick schedPage 9

/-- A slot map that waits goes into use at the output's O(f) (R278). -/
def Chip.takeMap (c : Chip) (o : Nat) : Chip :=
  match Store.get none c.sch.mapWaits o with
  | none => c
  | some rs =>
    let c := c.updSch (fun x => { x with maps := Store.set [] x.maps o rs, mapWaits := Store.set none x.mapWaits o none })
    (c.showFset o).refreshOutput o

/-- `SCHED_LOAD.GO` is written 1 (R277). -/
def Chip.schedGo (c : Chip) (m : Mem) : Chip :=
  if c.on Sched.loadGo then c.stick schedPage 12
  else
    let m := c.imageMem m
    let names := (List.range (min 512 (imgCount m))).map (fun i => ((imgSection m i).kind, (imgSection m i).target))
    ((((c.wr Sched.loadGo 1).wr Sched.code 1).wr Sched.reason 0).wr Sched.section_ 0).updSch (fun x => { x with names := names })

/-- The verdict on an image takes effect (R277, R278): refused, or pending and applied at once where no boundary is to come. -/
def Chip.imageVerdict (c : Chip) (m : Mem) (reason section_ : Nat) : Chip :=
  if c.rd Sched.code ≠ 1 then c
  else if reason ≠ 0 then
    let c := (((c.wr Sched.reason reason).wr Sched.section_ section_).wr Sched.code 4).wr Sched.loadGo 0
    ((c.updSch (fun x => { x with names := [] })).raise 0x98 schedPage 0 0).stick schedPage 8
  else
    let c := c.wr Sched.code 2
    if c.ticking then c else c.applyImage m

/-- The standby follows the active device's verdict (R284): its own would differ, source `0x97`. -/
def Chip.followImage (c : Chip) (m : Mem) (reason section_ : Nat) : Chip :=
  let c := if c.rd Sched.code = 1 ∧ c.validateImage m ≠ (reason, section_) then (c.raise 0x97 schedPage 0 0).stick schedPage 7 else c
  c.imageVerdict m reason section_

/-- The verdict that word W4 of a decision holds (R381): the standby follows it, the active device takes it as its own. -/
def Chip.takeImage (c : Chip) (m : Mem) (w4 : Nat) : Chip :=
  if c.isStandby then c.followImage m (w4 % 16) (w4 / 16 % 512) else c.imageVerdict m (w4 % 16) (w4 / 16 % 512)

/-! ## Rates and voltage (R262, R266, R267) -/

/-- The device rate and period length as the MIX page shows them (R223, R279). -/
def Chip.showRate (c : Chip) : Chip := (c.wr Mix.fs (c.rd Sched.fs)).wr Mix.plen c.plenCode

/-- The lowest window among the monitors' latest: rate in Mstep/s and cluster. -/
def Chip.presentLow (c : Chip) : Nat × Nat :=
  c.sch.wins.foldl (fun a p => if min 4095 (p.2 / 10) < a.1 then (min 4095 (p.2 / 10), p.1) else a) (4095, 0)

/-- The commanded voltage that the governor starts from (R266). DESIGN CHOICE (log entry 18): before the first command it is the voltage
last read, or `VMIN` where none has been read. -/
def Chip.commanded (c : Chip) : Nat := orElse0 (c.rd Sched.vset) (orElse0 c.sch.sent (orElse0 (c.rd Sched.vread) c.vmin))

/-- A window of monitor `k` with `n` steps (R262, R267). -/
def Chip.rateWindow (c : Chip) (k n : Nat) : Chip :=
  let rate := min 4095 (n / 10)
  let bad := n < 14000
  let low := match c.sch.low with
    | some q => if rate < q.1 then some (rate, k) else some q
    | none => some (rate, k)
  let c := c.updSch (fun x => { x with wins := Store.set 0 x.wins k n, low := low })
  let c := if rate < c.rd Sched.rateLow then (c.wr Sched.rateLow rate).wr Sched.rateLowCluster k else c
  if bad then
    let first := c.sch.owed.isEmpty
    let owed := if first then List.range 64 else if c.sch.owed.contains k then c.sch.owed else k :: c.sch.owed
    let below := if c.sch.below.contains k then c.sch.below else k :: c.sch.below
    let c := c.updSch (fun x => { x with below := below, owed := owed, rateBad := x.rateBad + 1 })
    let c := if first then (c.raise 0x92 schedPage k 0).stick schedPage 2 else c.stick schedPage 2
    let c := { c with fcu := { c.fcu with floorStop := true } }
    let c := if c.on Sched.govEn then c.setVolt (min (c.commanded + 20) c.vmax) else c
    (c.wr Sched.floorOk 0).stopAlive 2
  else
    let c := c.updSch (fun x => { x with below := x.below.filter (fun j => j ≠ k), owed := x.owed.filter (fun j => j ≠ k) })
    let c := if c.sch.owed.isEmpty then c.passHolds 0x92 schedPage k else c
    if c.sch.below.isEmpty then { c with fcu := { c.fcu with floorStop := false } }.wr Sched.floorOk 1 else c

/-- The floor condition over a whole window (R267). -/
def Chip.condWindow (c : Chip) (mv : Nat) (tj : Int) : Chip :=
  let c := (c.wr Sched.vsense mv).wrS Sched.tj tj
  if mv < 720 ∨ 110 < tj then
    let c := (c.wr Sched.condOk 0).updSch (fun x => { x with condBad := x.condBad + 1 })
    (c.raise 0x95 schedPage 0 0).stick schedPage 5
  else (c.wr Sched.condOk 1).passHolds 0x95 schedPage 0

/-- One interval of the governor (R266). -/
def Chip.governor (c : Chip) : Chip :=
  let r := match c.sch.low with | some q => q | none => c.presentLow
  let c := ((c.wr Sched.rateMin r.1).wr Sched.rateCluster r.2).updSch (fun x => { x with low := none })
  if !c.on Sched.govEn then c
  else
    let target := max (c.rd Sched.govTarget) 1450
    let hyst := c.rd Sched.govHyst
    let v := c.commanded
    let low := r.1 + hyst < target
    let n := if low ∧ v = c.vmax then c.sch.atMax + 1 else 0
    let c := c.updSch (fun x => { x with atMax := n })
    let c := if n = 10 then ((c.wr Sched.govAtMax 1).raise 0x93 schedPage 0 0).stick schedPage 3
      else if n = 0 then (c.wr Sched.govAtMax 0).passHolds 0x93 schedPage 0 else c
    if low then (c.updSch (fun x => { x with high := 0 })).setVolt (min (v + 5) c.vmax)
    else if target + hyst < r.1 then
      (if 10 ≤ c.sch.high + 1 then (c.updSch (fun x => { x with high := 0 })).setVolt (max (v - 5) c.vmin)
       else c.updSch (fun x => { x with high := x.high + 1 }))
    else c.updSch (fun x => { x with high := 0 })

/-! ## The guard (R280, R281) -/

/-- The steps that the loaded schedules grant a unit per deadline (R263). -/
def Chip.unitBudget (c : Chip) (cls unit : Nat) : Nat :=
  match cls with
  | 0 => c.rd (Nova.budget.on unit)
  | 1 => mixSteps (c.rd Sched.fs) c.periodCode
  | 2 =>
    let f := c.rd (Cmp.carryFmt.on unit)
    (((Store.get [] c.sch.plans unit).find? (fun p => p.1 = f)).map (fun p => p.2.1)).getD 65535
  | _ =>
    let f := c.rd (Xpt.airFmt.nth unit)
    (((Store.get [] c.sch.maps unit).find? (fun r => r.getD 1 0 / 2048 % 256 = f)).map (fun r => r.getD 4 0)).getD 65535

/-- The steps of a unit's work at its deadline (R227, R263): a core's own count and W(P) of a mix tile are fixed. -/
def Chip.unitSteps (c : Chip) (cls unit used : Nat) : Nat :=
  match cls with
  | 0 => if c.novaSt unit = Nst.wait then c.rd (Nova.stepsLast.on unit) else c.novaSteps unit
  | 1 => mixSteps (c.rd Sched.fs) c.periodCode
  | _ => used

/-- Whether a unit is at work, so that it has a deadline (R243, R280). -/
def Chip.unitWorks (c : Chip) (cls unit : Nat) : Bool :=
  match cls with
  | 0 => let st := c.novaSt unit; st = Nst.wait || st = Nst.xchg || st = Nst.run
  | 1 => c.on Mix.run
  | 2 => c.rd (Cmp.state.on unit) ≠ 0
  | _ => c.outSt unit = 1

/-- The level that a unit enters when it overruns (R282); a composer or an output gather has none. -/
def Chip.overrunLevel (c : Chip) (cls unit : Nat) : Nat :=
  match cls with
  | 0 => ((c.nova unit).lvl.step true c.recoverN).1.level
  | 1 => ((c.tile unit).lvl.step true c.recoverN).1.level
  | _ => 0

/-- The counts of windows outside the floor condition and below the floor as the present instance of a unit began (R281): the period of
a core or a tile, the line of a composer or an output gather. -/
def Chip.seenBy (c : Chip) (cls unit : Nat) : Nat × Nat :=
  if cls < 2 then c.sch.perSeen else Store.get (0, 0) c.sch.seen (2048 * cls + unit)

/-- An instance of a composer or an output gather begins (R281). -/
def Chip.instanceBegins (c : Chip) (cls unit : Nat) : Chip :=
  if cls < 2 then c else c.updSch (fun x => { x with seen := Store.set (0, 0) x.seen (2048 * cls + unit) (x.condBad, x.rateBad) })

/-- The cause of an overrun (R281). -/
def Chip.overrunCause (c : Chip) (cls unit steps : Nat) : Nat :=
  let s := c.seenBy cls unit
  if c.unitBudget cls unit < steps then 1
  else if s.1 ≠ c.sch.condBad then 2
  else if s.2 ≠ c.sch.rateBad then 3
  else 4

/-- A deadline of a unit (R280 to R282): `slack` in 1/1,024 of T, none where the deadline was missed. -/
def Chip.deadline (c : Chip) (cls unit steps : Nat) (slack : Option Nat) : Chip :=
  let inst := unit + 65536 * cls
  let late := match cls with
    | 0 => c.novaSt unit = Nst.run || c.novaSt unit = Nst.xchg
    | 1 => slack.isNone || !(c.tile unit).ran
    | _ => slack.isNone
  let val := if late then 0 else slack.getD 0
  let c := if val < c.rd (Sched.slackMin.nth cls) then (c.wr (Sched.slackMin.nth cls) val).wr (Sched.slackUnit.nth cls) unit else c
  let c := if !late ∧ val < c.rd Sched.slackWarn then (c.raise 0x91 schedPage inst cls).stick schedPage 1 else c
  let c := if c.unitBudget cls unit < steps then ((c.inc Sched.budgetCnt).raise 0x96 schedPage inst cls).stick schedPage 6 else c
  let cause := c.overrunCause cls unit steps
  let c := if late then
      let c := ((c.inc Sched.ovrCnt).wr Sched.ovrClass cls).wr Sched.ovrUnit unit
      let c := ((c.wr Sched.ovrCause cause).wr Sched.ovrLevel (c.overrunLevel cls unit)).stick schedPage 0
      let c := if cls = 1 then c.updTile unit (fun x => { x with lvl := { x.lvl with ovr := true } }) else c
      if cause = 4 then (c.dropAttempt 0x90 schedPage inst).raise 0x90 schedPage inst cls else c.judge 0x90 schedPage inst cls true
    else c.judge 0x90 schedPage inst cls false
  c.instanceBegins cls unit

end Sys2Proof.Machine
end

