-- ==== Sys2Proof/Machine/PktOps.lean ====
section
/-! DEFINITION. Shared operations of the packet blocks (R289 to R316): links, frames, flow entries, queues, the time-stamp
queue and the check-value channels. -/

namespace Sys2Proof.Machine

/-- Change the packet blocks' own state. -/
def Chip.updPkt (c : Chip) (f : PktX → PktX) : Chip := { c with pkt := f c.pkt }

def Chip.mediaQ (c : Chip) (q : Nat) : MediaQ := Store.get {} c.pkt.queues q
def Chip.ethPort (c : Chip) (n : Nat) : EthPort := Store.get {} c.pkt.ports n
def Chip.ethLink (c : Chip) (k : Nat) : EthLink := Store.get {} c.pkt.links k
def Chip.chan (c : Chip) (h : Nat) : Chan := Store.get {} c.pkt.chans h

def Chip.updPort (c : Chip) (n : Nat) (f : EthPort → EthPort) : Chip :=
  c.updPkt (fun x => { x with ports := Store.upd {} x.ports n f })
def Chip.updLink (c : Chip) (k : Nat) (f : EthLink → EthLink) : Chip :=
  c.updPkt (fun x => { x with links := Store.upd {} x.links k f })
def Chip.updChan (c : Chip) (h : Nat) (f : Chan → Chan) : Chip :=
  c.updPkt (fun x => { x with chans := Store.upd {} x.chans h f })

/-- The members of an array of fields that are away from their POR value, lowest first. -/
def Chip.listed (c : Chip) (f : Fld) : List Nat :=
  c.flds.filterMap (fun p =>
    let d := p.1 - f.key
    if f.key ≤ p.1 ∧ d % (32 * f.stride) = 0 ∧ d / (32 * f.stride) < f.count then some (d / (32 * f.stride)) else none)

/-! ## Links -/

/-- A per-link field of link `k`. -/
def onLink (f : Fld) (k : Nat) : Fld := (f.on (k / 4)).nth (k % 4)

/-- Whether link `k` is up. -/
def Chip.linkUp (c : Chip) (k : Nat) : Bool := c.on (onLink Eth.lUp k)

/-- Show the paused classes of link `k`. -/
def Chip.showPause (c : Chip) (k : Nat) : Chip :=
  let p := (c.ethLink k).paused
  let c := c.wr (onLink Eth.lPri k) (if bit p 8 then 255 else p)
  c.wr (Eth.paused.on (k / 4)) (setBit (c.rd (Eth.paused.on (k / 4))) (k % 4) (p ≠ 0))

/-- Whether link `k` is paused for priority `pri` (R308). -/
def Chip.pausedFor (c : Chip) (k pri : Nat) : Bool := bit (c.ethLink k).paused 8 || bit (c.ethLink k).paused pri

/-! ## Queues -/

/-- Change a media queue; its `FILL` follows. -/
def Chip.updQueue (c : Chip) (q : Nat) (f : MediaQ → MediaQ) : Chip :=
  let c := c.updPkt (fun x => { x with queues := Store.upd {} x.queues q f })
  c.wr (Flowq.qFill.nth q) (c.mediaQ q).descs.length

/-- Descriptors that a queue may hold (R301). -/
def Chip.queueSize (c : Chip) (q : Nat) : Nat := 2 ^ (min 6 (c.rd (Flowq.qDepth.nth q)) + 2)

/-- Bytes of the frame of a descriptor, from the destination address to the FCS (R300). -/
def Chip.frameLen (c : Chip) (q : Nat) (d : Desc) : Nat := c.rd (Flowq.qHdrLen.nth q) + d.payload.length + 4

/-- The head descriptor of a queue is discarded, and counted. -/
def Chip.dropHead (c : Chip) (q : Nat) : Chip :=
  (c.updQueue q (fun x => { x with descs := x.descs.drop 1 })).inc (Flowq.qDrops.nth q)

/-- The head descriptor of a queue is discarded as expired, source `0x27` (R301). -/
def Chip.expireHead (c : Chip) (q : Nat) : Chip :=
  (((c.dropHead q).judge 0x27 flowqPage q 0 true).stick flowqPage 3)

/-- Every descriptor of a queue is discarded as expired (R292). -/
def Chip.expireAll (c : Chip) (q : Nat) : Chip := ((c.mediaQ q).descs).foldl (fun c _ => c.expireHead q) c

/-- Link `k` goes down (R292): source `0x20`; its queues discard their descriptors as expired, and its pauses end. `aligned` tells whether
its PCS and FEC stay aligned (R320). -/
def Chip.linkDown (c : Chip) (k : Nat) (aligned : Bool) : Chip :=
  let c := c.wr (onLink Eth.lLock k) (b2n aligned)
  if !c.linkUp k then c
  else
    let c := c.wr (onLink Eth.lUp k) 0
    let c := c.wr (Eth.up.on (k / 4)) (setBit (c.rd (Eth.up.on (k / 4))) (k % 4) false)
    let c := (c.raise 0x20 (ethPage (k / 4)) k 0).stick (ethPage (k / 4)) 0
    let c := (c.updLink k (fun _ => {})).showPause k
    let c := ((c.listed Flowq.qEn).filter (fun q => c.rd (Flowq.qLink.nth q) = k)).foldl (fun c q => c.expireAll q) c
    c.ptpLink k false

/-- The links of a port go down (R292, R318). -/
def Chip.portDown (c : Chip) (n : Nat) : Chip := (List.range 4).foldl (fun c s => c.linkDown (4 * n + s) false) c

/-- A calendar that was applied in another mode stops, source `0x2D` (R306); so does one that still waits for its alignment event. -/
def Chip.ethMode (c : Chip) (n : Nat) : Chip :=
  let p := c.ethPort n
  let mode := c.rd (Eth.mode.on n)
  let wait : List Nat := Store.get [] c.sch.calWaits n
  if (p.cal.isEmpty || p.calMode = mode) && (wait.isEmpty || wait.headD 0 = mode) then c
  else
    let c := (c.updPort n (fun p => { p with cal := [] })).wr (Eth.calRun.on n) 0
    let c := c.updSch (fun x => { x with calWaits := Store.set [] x.calWaits n [] })
    ((c.wr (Eth.calStop.on n) 1).raise 0x2D (ethPage n) (4 * n) 0).stick (ethPage n) 7

/-- A calendar that a BLOCK reset stopped runs again once its port is enabled in the mode it was applied in (R306, R318). -/
def Chip.resumeCal (c : Chip) (n : Nat) : Chip :=
  let c := c.ethMode n
  if (c.ethPort n).cal.isEmpty then c else c.wr (Eth.calRun.on n) 1

/-- `PAGE_CTRL.ENABLE` of an ETH page has been written (R292, R318). -/
def Chip.ethEnable (c : Chip) (n : Nat) (on : Bool) : Chip :=
  if !on then c.portDown n
  else
    let bad := decide (5 < c.rd (Eth.mode.on n))
    let c := c.wr (Eth.cfgErr.on n) (b2n bad)
    if bad then c.stick (ethPage n) 9 else c.resumeCal n

/-! ## Frames -/

/-- Big-endian number of bytes, as the network sends it. -/
def beNat (l : List Nat) : Nat := l.foldl (fun a b => 256 * a + b % 256) 0

/-- The `n` big-endian bytes of a number. -/
def beBytes (n v : Nat) : List Nat := (leBytes n v).reverse

/-- Replace bytes from an offset on. -/
def patch (l : List Nat) (off : Nat) (bs : List Nat) : List Nat := l.take off ++ bs ++ l.drop (off + bs.length)

/-- Sum of the 16-bit words of bytes, the last padded with 0. -/
def sum16 : List Nat → Nat
  | a :: b :: r => 256 * a + b + sum16 r
  | [a] => 256 * a
  | [] => 0

/-- The Internet checksum's folded one's complement sum. -/
def onesSum (l : List Nat) : Nat :=
  let s := sum16 l
  let s := s % 65536 + s / 65536
  s % 65536 + s / 65536

/-- A check value with the parameters of R312. -/
structure CrcParams where
  width : Nat
  poly : Nat
  init : Nat
  refin : Bool
  refout : Bool
  xorout : Nat

/-- Bytes shifted into the register of a check value (R312). -/
def CrcParams.feed (p : CrcParams) (reg : Nat) (bytes : List Nat) : Nat :=
  crcBits p.width (p.poly % 2 ^ p.width) reg (bytes.flatMap (if p.refin then bitsLsb 8 else bitsMsb 8))

/-- The result of the register (R312). -/
def CrcParams.result (p : CrcParams) (reg : Nat) : Nat :=
  ((if p.refout then reverseBits p.width reg else reg) ^^^ p.xorout) % 2 ^ p.width

/-- A check value over bytes (R312). -/
def CrcParams.over (p : CrcParams) (bytes : List Nat) : Nat := p.result (p.feed (p.init % 2 ^ p.width) bytes)

/-- Preset 1 (R312), the frame check sequence of IEEE 802.3. -/
def crcEthernet : CrcParams := ⟨32, 0x04C11DB7, 0xFFFFFFFF, true, true, 0xFFFFFFFF⟩

/-- The presets of R312; 0 and 6 to 7 are the channel's fields. -/
def crcPreset (n : Nat) (own : CrcParams) : CrcParams :=
  match n with
  | 1 => crcEthernet
  | 2 => ⟨32, 0x1EDC6F41, 0xFFFFFFFF, true, true, 0xFFFFFFFF⟩
  | 3 => ⟨32, 0x1EDC6F41, 0xFFFFFFFF, false, false, 0xFFFFFFFF⟩
  | 4 => ⟨32, 0x04C11DB7, 0xFFFFFFFF, false, false, 0⟩
  | 5 => ⟨16, 0x1021, 0xFFFF, false, false, 0⟩
  | _ => own

/-- The bytes of the header template of a queue (R299, R322). -/
def Chip.templateBytes (c : Chip) (q : Nat) : List Nat :=
  ((List.range 32).flatMap (fun i => leBytes 4 (c.rd (Flowq.template.nth (32 * q + i))))).take (c.rd (Flowq.qHdrLen.nth q))

/-- Whether a template is an Ethernet header, IPv4 with IHL 5, UDP and a 12-byte RTP version 2 header (R299). -/
def templateOk (t : List Nat) : Bool :=
  let ip := t.length - 40
  let type := beNat ((t.drop (ip - 2)).take 2)
  (t.length = 54 || (t.length = 58 && beNat ((t.drop 12).take 2) = 0x8100)) && type = 0x0800 &&
    t.getD ip 0 = 0x45 && t.getD (ip + 9) 0 = 17 && t.getD (ip + 28) 0 / 64 = 2 && t.getD (ip + 28) 0 % 32 = 0

/-- The frame of a descriptor, without its FCS (R300). -/
def Chip.buildFrame (c : Chip) (q : Nat) (d : Desc) : List Nat :=
  let k := c.rd (Flowq.qLink.nth q)
  let t := c.templateBytes q
  let ip := t.length - 40
  let t := if c.on (Flowq.qSrcSubst.nth q) then
      patch (patch t 6 (beBytes 2 (c.rd (onLink Eth.macHi k)) ++ beBytes 4 (c.rd (onLink Eth.macLo k)))) (ip + 12)
        (beBytes 4 (c.rd (onLink Eth.ipv4 k)))
    else t
  let t := patch t (ip + 2) (beBytes 2 (40 + d.payload.length) ++ beBytes 2 (c.mediaQ q).ident)
  let t := patch t (ip + 10) [0, 0]
  let t := patch t (ip + 10) (beBytes 2 (65535 - onesSum ((t.drop ip).take 20)))
  let t := patch t (ip + 24) (beBytes 2 (20 + d.payload.length) ++ [0, 0])
  let t := patch t (ip + 29) [t.getD (ip + 29) 0 % 128 + 128 * b2n d.marker]
  patch t (ip + 30) (beBytes 2 (d.seq % 65536) ++ beBytes 4 d.stamp) ++ d.payload

/-- A frame with its FCS, the CRC sent least significant byte first. -/
def withFcs (frame : List Nat) : List Nat := frame ++ leBytes 4 (crcEthernet.over frame)

/-! ## Time-stamp queue -/

/-- Record a transmit timestamp on port `n` for queue `q`, link `s` (R309 to R311). -/
def Chip.txStamp (c : Chip) (n q s tag : Nat) : Chip :=
  let w := c.rd (Eth.tsqWptr.on n)
  let t := Stc.ofTotal (c.stc.total + c.rdS (onLink Eth.txLat (4 * n + s)))
  if (w + 1) % 512 = c.rd (Eth.tsqRptr.on n) then
    (((c.inc (Eth.tsqLost.on n)).stick (ethPage n) 4).raise 0x29 (ethPage n) (4 * n + s) 0).updPort n (fun p => { p with gap := true })
  else
    let e := fun i => (Eth.tsq.on n).nth (4 * w + i)
    let c := (c.wr (e 0) (t.ns + 2 ^ 30 * b2n (c.ethPort n).gap)).wr (e 1) (t.sec % 2 ^ 32)
    let c := (c.wr (e 2) (t.sec / 2 ^ 32 + 65536 * t.frac)).wr (e 3) (q % 16384 + 2 ^ 14 * s + 65536 * (tag % 65536))
    (c.wr (Eth.tsqWptr.on n) (w + 1)).updPort n (fun p => { p with gap := false })

/-! ## Exception ring -/

/-- The 32-bit words of bytes, the last padded with 0 (R4). -/
def wordsOf : List Nat → List Nat
  | a :: b :: d :: e :: r => leNat [a, b, d, e] :: wordsOf r
  | [] => []
  | l => [leNat l]

/-- Deliver a frame, given without its FCS, to the exception ring of link `k`'s port (R297). -/
def Chip.exception (c : Chip) (k cls : Nat) (bad : Bool) (frame : List Nat) : Chip :=
  let n := k / 4
  let w := c.rd (Eth.excWptr.on n)
  if (w + 1) % 32 = c.rd (Eth.excRptr.on n) then (c.raise 0x2A (ethPage n) k 0).stick (ethPage n) 5
  else
    let t := Stc.ofTotal (c.stc.total - c.rdS (onLink Eth.rxLat k))
    let body := frame.take 2032
    let w0 := body.length + 2 ^ 12 * b2n (2032 < frame.length) + 2 ^ 13 * b2n bad + 2 ^ 14 * cls + 2 ^ 17 * (k % 4)
    let ws := [w0, t.ns, t.sec % 2 ^ 32, t.sec / 2 ^ 32 + 65536 * t.frac] ++ wordsOf body
    let c := (ws.zipIdx).foldl (fun (c : Chip) p => c.wr ((Eth.excRing.on n).nth (512 * w + p.2)) p.1) c
    c.wr (Eth.excWptr.on n) (w + 1)

/-! ## Check-value channels -/

/-- The parameters of a channel (R312, R324). -/
def Chip.crcParams (c : Chip) (h : Nat) : CrcParams :=
  crcPreset (c.rd (Crcu.cPreset.nth h))
    ⟨clampN 8 32 (c.rd (Crcu.cWidth.nth h)), c.rd (Crcu.cPoly.nth h), c.rd (Crcu.cInit.nth h), c.on (Crcu.cRefin.nth h),
     c.on (Crcu.cRefout.nth h), c.rd (Crcu.cXorout.nth h)⟩

/-- A channel starts its computation again (R314). -/
def Chip.crcRestart (c : Chip) (h : Nat) : Chip :=
  (c.updChan h (fun _ => {})).wr Crcu.nActive (c.listed Crcu.cEn).length

/-- A channel compares one of its results with its peer's of the same tag (R316). -/
def Chip.crcCompare (c : Chip) (h : Nat) (own peer : Nat) : Chip :=
  if own = peer then c
  else ((c.inc (Crcu.cMismatches.nth h)).raise 0x2C crcuPage h 0).stick crcuPage 0

/-- The results of channel `h` that wait for its peer meet the peer's new result (R316): the one with the same tag is compared,
those with an earlier tag are unpaired. -/
def Chip.crcMeet (c : Chip) (h tag v : Nat) : Chip :=
  let ws := (c.chan h).waits
  let c := (ws.filter (fun p => p.1 = tag)).foldl (fun c p => c.crcCompare h p.2 v) c
  let c := (ws.filter (fun p => 0 < toSigned 32 (tag + 2 ^ 32 - p.1))).foldl (fun (c : Chip) _ => c.inc (Crcu.cUnpaired.nth h)) c
  c.updChan h (fun x => { x with waits := x.waits.filter (fun p => decide (toSigned 32 (tag + 2 ^ 32 - p.1) < 0)) })

/-- A result of channel `h` (R314, R316): it goes into the ring, and to the comparisons. DESIGN CHOICE (log entry 21): the ring is full
when `WPTR` + 1 = `RPTR`, as R297 and R311 have it of the other rings. -/
def Chip.crcResult (c : Chip) (h tag v : Nat) : Chip :=
  let w := c.rd (Crcu.cWptr.nth h)
  let c := if (w + 1) % 64 = c.rd (Crcu.cRptr.nth h) then (c.inc (Crcu.cLost.nth h)).stick crcuPage 1
    else
      let c := (c.wr (Crcu.result.nth (128 * h + 2 * w)) v).wr (Crcu.result.nth (128 * h + 2 * w + 1)) tag
      c.wr (Crcu.cWptr.nth h) (w + 1)
  let c := c.updChan h (fun x => { x with given := (tag, v) :: x.given, reg := none, open_ := 0 })
  let c := ((List.range 64).filter (fun d => c.on (Crcu.cCmpEn.nth d) && c.rd (Crcu.cPeer.nth d) = h && d ≠ h)).foldl
    (fun c d => c.crcMeet d tag v) c
  if !c.on (Crcu.cCmpEn.nth h) then c
  else
    let past := (c.chan (c.rd (Crcu.cPeer.nth h))).given
    match past.find? (fun p => p.1 = tag) with
    | some p => c.crcCompare h v p.2
    | none =>
      if past.any (fun p => decide (0 < toSigned 32 (p.1 + 2 ^ 32 - tag))) then c.inc (Crcu.cUnpaired.nth h)
      else c.updChan h (fun x => { x with waits := (tag, v) :: x.waits })

/-- A packet of the flow or queue that channel `h` covers (R313): its UDP payload begins with the RTP header. -/
def Chip.crcPacket (c : Chip) (h : Nat) (udp : List Nat) : Chip :=
  let p := c.crcParams h
  let stamp := beNat ((udp.drop 4).take 4)
  let marker := decide (128 ≤ udp.getD 1 0)
  let epoch := if c.rd (Crcu.cEpoch.nth h) = 3 then 0 else c.rd (Crcu.cEpoch.nth h)
  let x := c.chan h
  let c := if epoch = 1 ∧ x.open_ ≠ 0 ∧ x.stamp ≠ stamp then c.crcResult h x.stamp (p.result (x.reg.getD 0)) else c
  let len := c.rd (Crcu.cLen.nth h)
  let rest := udp.drop (c.rd (Crcu.cOffset.nth h))
  let bytes := if len = 0 then rest else rest.take len
  let reg := p.feed ((c.chan h).reg.getD (p.init % 2 ^ p.width)) bytes
  let c := c.updChan h (fun x => { x with reg := some reg, open_ := x.open_ + 1, pkts := (x.pkts + 1) % 2 ^ 32, stamp := stamp })
  let close := match epoch with
    | 0 => true
    | 1 => marker
    | _ => orElse0 (c.rd (Crcu.cN.nth h)) 1 ≤ (c.chan h).open_
  if close then c.crcResult h (if epoch = 1 then stamp else (c.chan h).pkts) (p.result reg) else c

/-- A packet passes every channel that covers its flow entry (`src` 0) or queue (`src` 1) (R313). -/
def Chip.crcPackets (c : Chip) (src inst : Nat) (udp : List Nat) : Chip :=
  ((c.listed Crcu.cEn).filter (fun h =>
    (if c.rd (Crcu.cSrc.nth h) = 3 then 0 else c.rd (Crcu.cSrc.nth h)) = src && c.rd (Crcu.cInst.nth h) = inst)).foldl
    (fun c h => c.crcPacket h udp) c

/-! ## Sending -/

/-- The video output that feeds media queue `q` now: the queue is of kind 0, and the output bound to it runs, is not changing its
format, and has a gathered line whose packets are not all queued (R98, R99, R116, R275, R299). -/
def Chip.producer (c : Chip) (q : Nat) : Option Nat :=
  if c.rd (Flowq.qKind.nth q) ≠ 0 then none
  else c.xpt.bound.find? (fun o => c.rd (Xpt.transport.nth o).live = 2 && c.rd (Xpt.queue.nth o).live = q && c.outSt o = 1 &&
    !c.inGap o && !(Store.get {} c.outs o).tx.isEmpty)

/-- Packets that an output sends for a line: the calendar entries of its slot map record (R275). -/
def Chip.linePackets (c : Chip) (o : Nat) : Nat :=
  orElse0 ((((c.mapRecord o (c.rd (Xpt.airFmt.nth o))).map (fun r => r.getD 3 0)).getD 0) % 65536) 1

/-- One more packet of the line that output `o` has gathered is queued; after the last the line is done. -/
def Chip.packetTaken (c : Chip) (o : Nat) (payload : List Nat) : Chip :=
  let n := c.linePackets o
  { c with outs := Store.upd {} c.outs o (fun x =>
      let x := { x with pays := x.pays ++ payload }
      if n ≤ x.pace + 1 then { x with tx := [], pace := 0 } else { x with pace := x.pace + 1 }) }

/-- `FRAME` and `FRATE` of ST 2022-6 for a format (log entry 21). -/
def hbrmtCodes (fmt : Nat) : Nat × Nat :=
  (match rasterOf fmt with | 0 => 0x10 | 1 => 0x11 | 2 => 0x30 | 3 => 0x20 | _ => 0x21,
   [0x1B, 0x1A, 0x18, 0x17, 0x16, 0x12, 0x11, 0x10].getD (rateOf fmt) 0)

/-- The payload header of a video frame with extended sequence number `seq` (R300): the upper half of the number and the sample row
headers of ST 2110-20, each but the last marked as continued; or the eight bytes of ST 2022-6 with the frame count. Both layouts are
PRESUMED from their standards (log entry 21). -/
def payloadHeader (kind : PayloadKind) (fmt frames seq : Nat) : List Nat :=
  match kind with
  | .st2110 rows =>
    beBytes 2 (seq / 65536 % 65536) ++ (rows.zipIdx).flatMap (fun r =>
      beBytes 2 r.1.len.toNat ++ beBytes 2 (r.1.row.toNat + 32768 * b2n r.1.second) ++
        beBytes 2 (r.1.off.toNat + 32768 * b2n (r.2 + 1 < rows.length)))
  | .st2022 => [8, frames % 256, 0, 0] ++ beBytes 4 ((hbrmtCodes fmt).1 * 2 ^ 20 + (hbrmtCodes fmt).2 * 2 ^ 12 + 2 ^ 8)

/-- A producer enqueues the descriptor of one frame (R301), `header` making its payload header of the sequence number. The sequence number is assigned first, so a descriptor that finds the queue
full leaves a gap; on a link that is down it is discarded as expired (R292). -/
def Chip.enqueue (c : Chip) (q stamp : Nat) (marker : Bool) (header : Nat → List Nat) (payload : List Nat) : Chip :=
  if !c.on (Flowq.qEn.nth q) then c
  else
    let seq := c.rd (Flowq.qSeq.nth q)
    let c := c.incWrap (Flowq.qSeq.nth q)
    let full := decide (c.queueSize q ≤ (c.mediaQ q).descs.length)
    let c := c.judge 0x25 flowqPage q 0 full
    if full then (c.stick flowqPage 2).inc (Flowq.qDrops.nth q)
    else
      let c := c.updQueue q (fun x => { x with descs := x.descs ++ [⟨seq, stamp, marker, header seq ++ payload⟩] })
      if c.linkUp (c.rd (Flowq.qLink.nth q)) then c else c.expireAll q

/-- Whether the media frames of port `n`'s links are sent (R302). -/
def Chip.mediaSends (c : Chip) (n : Nat) : Bool := c.sendsActive || c.on (Eth.stbyTx.on n)

/-- A calendar slot whose block is late (R14): the link's retimer releases the frame before again, flagged. -/
def Chip.repeatFrame (c : Chip) (k : Nat) : Chip :=
  let f := (c.ethLink k).block
  if f.isEmpty ∨ !c.mediaSends (k / 4) then c
  else (c.updLink k (fun x => { x with again := true })).emit (.ethFrame k f)

/-- The head frame of media queue `q` starts on its link (R300 to R302, R304, R310). A standby that does not transmit takes its
descriptor all the same; `sends` tells what held at the frame's calendar entry. -/
def Chip.sendHead (c : Chip) (q : Nat) (sends : Bool) : Chip :=
  match (c.mediaQ q).descs with
  | [] => c
  | d :: _ =>
    let k := c.rd (Flowq.qLink.nth q)
    let n := k / 4
    let frame := c.buildFrame q d
    let c := c.updQueue q (fun x => { x with descs := x.descs.drop 1, ident := (x.ident + 1) % 65536 })
    let c := ((c.judge 0x26 (ethPage n) q 0 false).judge 0x27 flowqPage q 0 false)
    if !sends then c
    else
      let c := c.updLink k (fun x => { x with block := withFcs frame, again := false })
      let c := (c.incWrap (Flowq.qSent.nth q)).emit (.ethFrame k (withFcs frame))
      let c := if c.on (Flowq.qTsEn.nth q) then c.txStamp n q (k % 4) (d.seq % 65536) else c
      c.crcPackets 1 q (frame.drop (frame.length - d.payload.length - 12))

/-- Frames that waited for a pause start when their pause has ended (R304, R308). -/
def Chip.serveWait (c : Chip) (k : Nat) : Chip :=
  let ws := (c.ethLink k).wait
  let paused := fun (w : Nat × Bool) => c.pausedFor k (c.rd (Flowq.qPri.nth w.1))
  (ws.filter (fun w => !paused w)).foldl (fun c w => c.sendHead w.1 w.2) (c.updLink k (fun x => { x with wait := ws.filter paused }))

/-- Pause or release class `cls` of link `k` (R308); a new pause of a class that is paused replaces what remains. -/
def Chip.setPause (c : Chip) (k cls : Nat) (b : Bool) : Chip :=
  let c := c.updLink k (fun x => { x with paused := setBit x.paused cls b, long := if b then x.long else setBit x.long cls false })
  let c := c.showPause k
  if b then c else c.serveWait k

/-- Count the enabled flow entries and media queues (R322). -/
def Chip.countFlowq (c : Chip) : Chip :=
  (c.wr Flowq.nFlows (c.listed Flowq.fEn.live).length).wr Flowq.nQueues (c.listed Flowq.qEn).length

/-- Record a refusal in `FLOWQ_REFUSE`. -/
def Chip.refuseFlowq (c : Chip) (inst code src b : Nat) : Chip :=
  let c := ((c.wr Flowq.refIndex inst).wr Flowq.refCode code).wr Flowq.refValid 1
  (c.raise src flowqPage inst code).stick flowqPage b

/-- A write to word 0 of flow entry `e` (R296): words 0 to 3 are checked and applied together, or refused. -/
def Chip.flowWrite (c : Chip) (e w0 : Nat) : Chip :=
  let n := c.putRw flowqPage 1 (8 * e) w0 allBits
  let use := n.rd (Flowq.fUse.nth e)
  let code := if 5 ≤ use then 1 else if use = 0 ∧ n.rd (Flowq.fSamp.nth e) ≠ 0 then 2
    else if !n.linkExists (n.rd (Flowq.fLink.nth e)) then 3 else 0
  if code ≠ 0 then c.refuseFlowq e code 0x23 0
  else (n.copyWords 1 flowqPage (8 * e) (8 * e + 4) 9).countFlowq

/-- A write to word 0 of media queue `q` (R299). -/
def Chip.queueWrite (c : Chip) (q w0 : Nat) : Chip :=
  let on := c.on (Flowq.qEn.nth q)
  if w0 % 2 = 0 then
    ((c.putRw flowqPage 1 (131072 + 4 * q) w0 allBits).updQueue q (fun x => { x with descs := [] })).countFlowq
  else if on then c.stick flowqPage 5
  else
    let n := c.putRw flowqPage 1 (131072 + 4 * q) w0 allBits
    let hdr := n.rd (Flowq.qHdrLen.nth q)
    let code := if 2 ≤ n.rd (Flowq.qKind.nth q) then 4
      else if (hdr ≠ 54 ∧ hdr ≠ 58) ∨ !templateOk (n.templateBytes q) then 5
      else if !n.linkExists (n.rd (Flowq.qLink.nth q)) then 6 else 0
    if code ≠ 0 then c.refuseFlowq q code 0x24 1 else n.countFlowq

/-! ## CPU queues -/

/-- A held descriptor of port `n`'s CPU queue is accepted when a slot is free (R298). -/
def Chip.cpuAccept (c : Chip) (n : Nat) : Chip :=
  match (c.ethPort n).held with
  | none => c
  | some d =>
    if c.rd (Flowq.cpuFree.nth n) = 0 then c
    else
      let c := c.updPort n (fun p => { p with cpu := p.cpu ++ [d], held := none })
      (c.decr (Flowq.cpuFree.nth n)).wr (Flowq.cpuGo.nth n) 0

/-- `FLOWQ_CPU_CMD[n]` is written with `GO` = 1 (R298). While a descriptor is held, a further one is ignored (log entry 21). -/
def Chip.cpuGo (c : Chip) (n w : Nat) : Chip :=
  if c.on (Flowq.cpuGo.nth n) then c
  else
    let c := (c.putRw flowqPage 0 (0x104 + 16 * n) w allBits).wr (Flowq.cpuGo.nth n) 1
    let d : CpuDesc := ⟨c.rd (Flowq.cpuAddr.nth n), c.rd (Flowq.cpuLen.nth n), c.rd (Flowq.cpuSub.nth n), c.on (Flowq.cpuTs.nth n),
      c.rd (Flowq.cpuTag.nth n)⟩
    (c.updPort n (fun p => { p with held := some d })).cpuAccept n

/-- The CPU queue of port `n` and its rings are emptied (R318). -/
def Chip.emptyPort (c : Chip) (n : Nat) : Chip :=
  let c := c.updPort n (fun p => { p with cpu := [], held := none, gap := false })
  (c.wr (Flowq.cpuFree.nth n) 16).wr (Flowq.cpuGo.nth n) 0

/-! ## Memory jobs -/

/-- Size of a region of R315: the surface region of a stack (2 GiB) or the image buffer (4 MiB). -/
def jobRegionSize (r : Nat) : Nat := if r = 2 then 4194304 else 2147483648

/-- `CRCU_MEM_CTRL` is written with `GO` = 1 (R315). DESIGN CHOICE (log entry 21): while a job runs the write is ignored. -/
def Chip.crcJob (c : Chip) (w : Nat) : Chip :=
  if c.on Crcu.memGo then c
  else
    let c := c.putRw crcuPage 0 0x4C w allBits
    let j : MemJob := ⟨c.rd Crcu.memBase, c.rd Crcu.rowLen, c.rd Crcu.stride, c.rd Crcu.rows, c.rd Crcu.region, c.rd Crcu.channel⟩
    let last := if j.rows = 0 then j.base else j.base + 4 * ((j.rows - 1) * j.stride + j.rowLen)
    if j.region = 3 ∨ jobRegionSize j.region < last ∨ c.rd (Crcu.cSrc.nth j.channel) ≠ 2 then c.stick crcuPage 3
    else ((c.wr Crcu.memGo 1).wr Crcu.memBusy 1).updPkt (fun x => { x with job := some j })

/-- The bytes of a memory job in address order of its rows (R315). -/
def jobBytes (m : Mem) (j : MemJob) : List Nat :=
  (List.range j.rows).flatMap (fun r =>
    Mem.bytes m (if j.region = 2 then 4 else 1 + j.region) (j.base + 4 * r * j.stride) (4 * j.rowLen))

end Sys2Proof.Machine
end

