-- ==== Sys2Proof/Machine/Audio.lean ====
section
/-! DEFINITION. Serial audio ports, conversion, flows and maps (R163 to R203): one meaning per row. The period boundary stands
in Period.lean. -/

namespace Sys2Proof.Machine

/-- A word-clock output rises at the sample instants of its rate (R353); at 48 kHz on a 96 kHz device, at even AMC values. -/
def Chip.wordClock (c : Chip) (n : Nat) : Chip :=
  if c.on (MerLoop.wcEn.nth n) ∧ (c.on (MerLoop.wcRate.nth n) ∨ !c.on Sched.fs ∨ c.amc % 2 = 0) then
    c.emit (.pulse (4 + n) (!c.on (MerLoop.wcPol.nth n)))
  else c

/-- The asynchronous `AES3` and `MADI` ports, whose transmit side runs at the device rate (R169, R170), send a frame at each sample
instant while they are enabled. -/
def Chip.sendAsync (c : Chip) : Chip :=
  ((List.range 16).filter (fun p => c.on (Sap.async.on p) && (c.rd (Sap.mode.on p) = 3 || c.rd (Sap.mode.on p) = 4) &&
    1 ≤ c.rd (Sap.state.on p) && c.rd (Sap.state.on p) ≤ 3)).foldl (fun c p => c.sapSend p c.amc) c

/-- R163: a sample instant: the AMC counts, compare units on it fire (R362), word clocks rise (R353), `MER_AUD_OFS` is reported (R351),
and asynchronous `AES3` and `MADI` ports send (R169). At a boundary they send once egress has the samples of the period that opens
(R195), in the boundary's own row. -/
def execSampleInstant (s : State) : Host.Outcome State Fault Refusal :=
  act s (fun c =>
    let c := (((({ c with amc := (c.amc + 1) % 2 ^ 32 }).cmpCheck true).wordClock 0).wordClock 1).updAudOfs
    if c.boundaryDue then c else c.sendAsync)

/-- What intake presents for one entry (R172, R178, R179, R194): block, substituted, unlocked, non-PCM. -/
def Chip.present (c : Chip) (w : Nat) : (List Int × Bool × Bool × Bool) × Chip :=
  let kind := w % 8
  let sel := w / 8 % 65536
  let inst := audInst kind sel
  let p := c.periodLen
  let zero := List.replicate p (0 : Int)
  if c.audUnlocked kind inst then ((zero, false, true, false), c)
  else if kind = 1 ∧ c.rd (Sap.state.on inst) = 4 then ((zero, true, false, false), c)
  else if kind = 5 then
    let b := Store.get [] c.aud.novaOut sel
    ((if b.isEmpty then zero else b, b.isEmpty, false, false), c)
  else
    let first := stampAdd c.aud.m (-((p : Int) + c.groupDelay kind inst))
    let r := c.ring kind sel
    let ss := (List.range p).map (fun i => ringGet r ((first + i) % 2 ^ 32))
    ((ss.map (fun s => (s.map Smp.v).getD 0), ss.any Option.isNone, false, ss.any (fun s => (s.map Smp.nonPcm).getD false)), c)

/-- The intake entries in use: number and word (R194). -/
def Chip.intakeOn (c : Chip) : List (Nat × Nat) :=
  let f := Amap.intake.live
  let lo := placeKey f.space f.page 0 0
  ((Store.range lo (placeKey f.space f.page 4096 0) c.flds).map (fun p => ((p.1 - lo) / 32, p.2))).filter
    (fun p => p.1 < c.nIn && p.2 % 8 ≠ 0)

/-- Present one entry and record its flags; the entries' sources with missing samples and without lock are gathered. -/
def Chip.takeEntry (c : Chip) (e w : Nat) : Chip × Bool × Bool :=
  let q := c.present w
  let c := q.2
  let lvl := c.holdLevel 1 e
  let prev := Store.get [] c.aud.intake e
  let b := levelBlock c.periodLen lvl prev prev q.1.1
  let c := c.updAud (fun a => { a with intake := Store.set [] a.intake e b })
  let c := ((c.wr (Amap.stSubst.nth e) (b2n q.1.2.1)).wr (Amap.stUnlocked.nth e) (b2n q.1.2.2.1)).wr (Amap.stNonpcm.nth e) (b2n q.1.2.2.2)
  (c, q.1.2.1, q.1.2.2.1)

/-- A packet missing on one path only (R191): counted, and judged against the next packet of that path. -/
def Chip.pathMissed (c : Chip) (d : Nat) (pathB : Bool) : Chip :=
  ((c.inc (if pathB then Amap.rMissB.nth d else Amap.rMissA.nth d)).judge 0x6C amapPage (d + 65536 * b2n pathB) 0 true).stick amapPage 7

/-- The packets of receive flows that one path alone delivered and whose last stamp the close of boundary `m` is the last to
present: the other path has missed them (R191). -/
def Chip.silentPaths (c : Chip) (m : Nat) : Chip :=
  c.aud.rxf.foldl (fun c e =>
    let past := fun (q : Nat × Nat) => decide (stampDiff q.2 m + 1 + (c.groupDelay 4 e.1 : Int) ≤ 0)
    let miss := fun (c : Chip) (b : Bool) (l : List (Nat × Nat)) => (l.filter past).foldl (fun c _ => c.pathMissed e.1 b) c
    let c := miss (miss c true e.2.onlyA) false e.2.onlyB
    c.updAud (fun a => { a with rxf := Store.upd {} a.rxf e.1 (fun x =>
      { x with onlyA := x.onlyA.filter (fun q => !past q), onlyB := x.onlyB.filter (fun q => !past q) }) })) c

/-- R165, R178 to R180, R194: B(n) + 2 us: the samples of the period are fixed, missing ones are 0; sources with missing and
late samples and unlocked sources are reported. -/
def execIntakeClose (s : State) : Host.Outcome State Fault Refusal :=
  act s (fun c =>
    if !c.aud.isOpen ∨ c.aud.closed = some c.aud.m then c
    else
      let c := c.judgeDembs.silentPaths c.aud.m
      let es := c.intakeOn
      let c := { c with flds := Store.clear (placeKey 1 amapPage 4096 0) (placeKey 1 amapPage 8192 0) c.flds }
      let c := c.updAud (fun a => { a with intake := a.intake.filter (fun p => es.any (fun e => e.1 = p.1)) })
      let q := es.foldl (fun (a : Chip × List (Nat × Nat) × List (Nat × Nat) × Nat × Nat) e =>
        let k := (e.2 % 8, audInst (e.2 % 8) (e.2 / 8 % 65536))
        let r := a.1.takeEntry e.1 e.2
        (r.1, if r.2.1 then k :: a.2.1 else a.2.1, if r.2.2 then k :: a.2.2.1 else a.2.2.1,
         a.2.2.2.1 + b2n r.2.1, a.2.2.2.2 + b2n r.2.2)) (c, [], [], 0, 0)
      let c := (q.1.wr Amap.nSubst q.2.2.2.1).wr Amap.nUnlocked q.2.2.2.2
      let under := q.2.1.eraseDups
      let c := under.foldl (fun c k => (c.countAud true k.1 k.2).stickAud true k.1 k.2) c
      let c := c.judgeAll 0x64 (under.map (fun k => audPlace k.1 k.2))
      let c := c.judgeAll 0x65 c.aud.late
      let open_ := (q.2.2.1.eraseDups).map (fun k => audPlace k.1 k.2)
      let old := c.aud.unlocked
      let c := if open_.isEmpty then c else c.stick amapPage 4
      let c := (open_.filter (fun p => !old.contains p.2.1)).foldl (fun c p => c.raise 0x66 p.1 p.2.1 p.2.2) c
      let c := (old.filter (fun i => !open_.any (fun p => p.2.1 = i))).foldl
        (fun c i => c.passHolds 0x66 (if i / 65536 = 1 then sapPage (i % 65536) else amapPage) i) c
      c.updAud (fun a => { a with closed := some a.m, late := [], unlocked := open_.map (fun p => p.2.1) }))

/-! ## Serial ports -/

/-- R172: clock or line transitions have been present for 4 frame periods. -/
def execSapClockDetect (p : Fin 16) (s : State) : Host.Outcome State Fault Refusal :=
  act s (fun c => if c.rd (Sap.state.on p) = 1 then c.wr (Sap.state.on p) 2 else c)

/-- Whether a port takes frames at `rate` (R169): `AES3` accepts 32 to 96 kHz within 1,000 ppm, in 10 Hz units. -/
def Chip.sapRateOk (c : Chip) (p rate : Nat) : Bool := c.rd (Sap.mode.on p) ≠ 3 || (31968 ≤ 10 * rate && 10 * rate ≤ 96096)

/-- R169, R172, R173: four frames at the configured spacing and at a rate that the mode accepts: the port enters `RUN` and the
frame that starts at this edge takes its stamp. -/
def execSapFrameFound (p : Fin 16) (edge : BitVec 32) (frac : BitVec 11) (rate : BitVec 14) (s : State) :
    Host.Outcome State Fault Refusal :=
  act s (fun c =>
    if c.rd (Sap.state.on p) ≠ 2 ∨ !c.sapRateOk p rate.toNat then c
    else
      let m := c.rd (Sap.mode.on p)
      let own := (m = 1 ∨ m = 2) ∧ c.on (Sap.master.on p)
      let k := if own then edge.toNat else entryStamp edge.toNat frac.toNat
      let c := (c.wr (Sap.state.on p) 3).wr (Sap.rate.on p) rate.toNat
      let c := (c.passHolds 0x60 (sapPage p) p).passHolds 0x63 (sapPage p) p
      ((c.updSap p (fun x => { x with next := k, frames := 0, badRun := 0 })).showSap p).stick (sapPage p) 6)

/-- One frame of a port in `RUN` (R169 to R176). A master's frame carries the AMC value of the instant at which it starts; an
asynchronous `AES3` or `MADI` port sends at the sample instants instead. A new transmit mask takes effect at the frame whose
transmit stamp is a multiple of P. -/
def Chip.sapFrame (c : Chip) (p : Nat) (f : SapFrame) : Chip :=
  let m := c.rd (Sap.mode.on p)
  let own := (m = 1 ∨ m = 2) ∧ c.on (Sap.master.on p)
  let async := c.on (Sap.async.on p)
  let x := c.sapx p
  let phi := framePhi x.next f.edge.toNat f.frac.toNat
  let slip := !async && !decide own && (decide (phi < -128) || decide (2048 < phi))
  let k := if !async ∧ own then f.edge.toNat else if slip then entryStamp f.edge.toNat f.frac.toNat else x.next
  let c := if async then c else c.wrS (Sap.phi.on p) (framePhi k f.edge.toNat f.frac.toNat)
  let c := if slip then (c.inc (Sap.slipCnt.on p)).stick (sapPage p) 1 else c
  let c := c.sapStore p k (65536 * f.edge.toNat + 32 * f.frac.toNat) f.slots
  let tx := if async then stampAdd c.amc (-1) else if own then k else stampAdd k (-1)
  let c := if x.txDue ∧ tx % c.periodLen = 0 then c.sapMaskUse true p else c
  let c := if async ∧ (m = 3 ∨ m = 4) then c else c.sapSend p tx
  let c := if m = 3 ∨ m = 4 then c.sapStatus p f.csStart ((f.slots.head?.map SapSlot.cs).getD false) else c
  let c := if f.lineErr then (c.inc (Sap.lineCnt.on p)).stick (sapPage p) 2 else c
  let c := c.updSap p (fun x => { x with next := (k + 1) % 2 ^ 32, frames := x.frames + 1, badRun := 0,
                                         maskRun := x.maskRun.map (· + 1), blkLine := x.blkLine || f.lineErr, blkSlip := x.blkSlip || slip })
  let x := c.sapx p
  let done := if async then x.frames % c.periodLen = 0 else x.next % c.periodLen = 0
  if done then
    ((c.judge 0x61 (sapPage p) p 0 x.blkSlip).judge 0x62 (sapPage p) p 0 x.blkLine).updSap p
      (fun x => { x with blkLine := false, blkSlip := false })
  else c

/-- R172 to R175: a frame of a port is received, and its transmit frame goes out. Two frames in succession at the wrong
spacing send the port back to `SEEK`. -/
def execSapFrameReceive (p : Fin 16) (f : SapFrame) (s : State) : Host.Outcome State Fault Refusal :=
  act s (fun c =>
    if c.rd (Sap.state.on p) ≠ 3 then c
    else if f.spacing then c.sapFrame p f
    else if 1 ≤ (c.sapx p).badRun then c.sapLost p 2
    else (c.sapFrame p f).updSap p (fun x => { x with badRun := 1 }))

/-- R172: no clock or line transitions for 4 frame periods. -/
def execSapClockLoss (p : Fin 16) (s : State) : Host.Outcome State Fault Refusal :=
  act s (fun c => if c.rd (Sap.state.on p) = 3 then c.sapLost p 1 else c)

/-- R201: an AES3 or MADI receiver loses lock on its stream, source `0x63`. -/
def execSapLock (p : Fin 16) (s : State) : Host.Outcome State Fault Refusal :=
  act s (fun c =>
    let m := c.rd (Sap.mode.on p)
    if (m = 3 ∨ m = 4) ∧ 2 ≤ c.rd (Sap.state.on p) ∧ c.rd (Sap.state.on p) ≤ 3 then
      (c.raise 0x63 (sapPage p) p 0).stick (sapPage p) 3
    else c)

/-- R176: a write of 1 to `SAP_MASK_COMMIT.GO`. -/
def execSapMaskCommit (m : Master) (p : Fin 16) (s : State) : Host.Outcome State Fault Refusal :=
  act s (fun c => c.trigger m (sapPage p) 0x4C 0 true (fun c => c.sapMaskGo p))

/-- R176: the first block boundary at least 4 frames after the commit: the receive mask goes into use, and the transmit mask with
it or, where the transmit stamp runs one behind, at that stamp's own boundary. A port that runs no frames takes the masks at once
(log entry 17). -/
def execSapMaskApply (p : Fin 16) (s : State) : Host.Outcome State Fault Refusal :=
  act s (fun c =>
    let x := c.sapx p
    let edge := if c.on (Sap.async.on p) then x.frames % c.periodLen = 0 else x.next % c.periodLen = 0
    let own := (c.rd (Sap.mode.on p) = 1 ∨ c.rd (Sap.mode.on p) = 2) ∧ c.on (Sap.master.on p)
    if !c.on (Sap.maskGo.on p) then c
    else if c.rd (Sap.state.on p) ≠ 3 then c.sapMasksUse p
    else if x.maskRun.getD 0 < 4 ∨ ¬ edge then c
    else if c.on (Sap.async.on p) ∨ own then c.sapMasksUse p
    else c.sapMaskUse false p)

/-! ## Sample-rate conversion -/

/-- R181, R183: a tracker measures an input sample instant: ratio (4.28), phase in 1/65,536 sample and phase error in 1/4,096
sample are what its loop makes of it (log entry 17). On a standby the active device's ratio stays in force (R185). -/
def execTrackerInput (t : Fin 64) (ratio phase pherr : BitVec 32) (s : State) : Host.Outcome State Fault Refusal :=
  act s (fun c =>
    let st := c.rd (Asrc.tState.nth t)
    if st = 0 ∨ st = 5 ∨ !c.trkSource t then c
    else
      let e := pherr.toInt
      let c := c.wrS (Asrc.tPherr.nth t) (clampI (-32768) 32767 e)
      let c := c.updTrk t (fun x => { x with pherr := e, phase := phase.toInt, ratio := ratio.toNat })
      let c := if c.isStandby ∨ st = 3 then c else c.wr (Asrc.tRatio.nth t) ratio.toNat
      if st = 3 then c.setTrk t 1
      else if st = 2 ∧ c.adelay t * 4096 < e.natAbs then ((c.inc (Asrc.tResync.nth t)).setTrk t 1 true).trkFault t
      else c)

/-- R183: the phase error has stayed within 1/16 input sample for 50 ms. -/
def execTrackerLock (t : Fin 64) (s : State) : Host.Outcome State Fault Refusal :=
  act s (fun c => if c.rd (Asrc.tState.nth t) = 1 ∧ (c.trkx t).pherr.natAbs ≤ 256 then c.setTrk t 2 else c)

/-- R183: no input sample for 2 ms. -/
def execTrackerHold (t : Fin 64) (s : State) : Host.Outcome State Fault Refusal :=
  act s (fun c => if c.rd (Asrc.tState.nth t) = 2 then (c.setTrk t 3 true).trkFault t else c)

/-- R181, R183: the measured rate has been out of tolerance for 100 ms. -/
def execTrackerRange (t : Fin 64) (s : State) : Host.Outcome State Fault Refusal :=
  act s (fun c =>
    let st := c.rd (Asrc.tState.nth t)
    if 1 ≤ st ∧ st ≤ 3 ∧ !c.trkInRange t then ((c.setTrk t 4 true).raise 0x68 asrcPage t 0).stick asrcPage 1 else c)

/-- R181, R183: the rate has been back within tolerance for 100 ms. -/
def execTrackerRangeClear (t : Fin 64) (s : State) : Host.Outcome State Fault Refusal :=
  act s (fun c => if c.rd (Asrc.tState.nth t) = 4 ∧ c.trkInRange t then (c.setTrk t 1).passHolds 0x68 asrcPage t else c)

/-- R184: a write of 1 to `ASRC_COMMIT.GO`. -/
def execAsrcCommit (m : Master) (s : State) : Host.Outcome State Fault Refusal :=
  act s (fun c => c.trigger m asrcPage 0x40 0 true (fun c => c.asrcGo))

/-! ## Flows -/

/-- The most samples per channel that a packet may hold (R190). -/
def maxPacket (rate : Nat) : Nat := match rate with | 0 => 192 | 2 => 177 | _ => 384

/-- The sequence numbers that a path skipped before `seq` (R191). -/
def skippedSeqs (last : Option Nat) (seq : Nat) : List Nat :=
  match last with
  | some l =>
    let n := (seq + 65536 - l - 1) % 65536
    if n < 1024 then (List.range n).map (fun k => (l + 1 + k) % 65536) else []
  | none => []

/-- Merge bookkeeping of a packet (R191), its last sample stamped `last`: whether it is the first copy. A number that one path has
delivered and the other skips is missing on that other path. -/
def Chip.mergeAudio (c : Chip) (d : Nat) (pathB : Bool) (seq last : Nat) : Bool × Chip :=
  let x : FlowRx := Store.get {} c.aud.rxf d
  let skip := skippedSeqs (if pathB then x.lastB else x.lastA) seq
  let alone := if pathB then x.onlyA else x.onlyB
  let missedHere := skip.filter (fun q => alone.any (fun a => a.1 = q))
  let other := if pathB then x.lackA else x.lackB
  let first := !x.seen.contains seq
  let own := if pathB then x.onlyB else x.onlyA
  let own := if first ∧ !other.contains seq then (seq, last) :: own else own
  let alone := alone.filter (fun a => a.1 ≠ seq && !missedHere.contains a.1)
  let c := missedHere.foldl (fun c _ => c.pathMissed d pathB) c
  let c := if other.contains seq then c.pathMissed d (!pathB) else c
  let c := c.judge 0x6C amapPage (d + 65536 * b2n pathB) 0 false
  let lack := ((skip.filter (fun q => !x.seen.contains q)) ++ (if pathB then x.lackB else x.lackA)).take 1024
  let rest := other.filter (· ≠ seq)
  let x2 : FlowRx := if pathB then { x with lastB := some seq, lackB := lack, lackA := rest, onlyB := own, onlyA := alone }
    else { x with lastA := some seq, lackA := lack, lackB := rest, onlyA := own, onlyB := alone }
  let c := c.updAud (fun a => { a with rxf := Store.set {} a.rxf d { x2 with seen := (seq :: x.seen).take 2048 } })
  (first, c)

/-- A sample of a flow format, left-justified (R197). -/
def flowSample (fmt v : Nat) : Int := if fmt = 0 then smp32 (v % 65536 * 65536) else smp32 (v % 2 ^ 24 * 256)

/-- R190, R191, R295: a packet of a flow entry that feeds audio and that receive descriptor `d` names is checked, merged, stamped and stored. Malformed packets are source `0x6B`;
an asynchronous flow reaches intake through its tracker alone, by the packets' receive timestamps (R309). -/
def execAudioPacketReceive (d : Fin 512) (pathB : Bool) (k : AudioPacket) (s : State) : Host.Outcome State Fault Refusal :=
  act s (fun c =>
    let e := c.rd (if pathB then Amap.rFlowB.nth d else Amap.rFlowA.nth d).live
    if !c.on (Amap.rEn.nth d).live ∨ (pathB ∧ !c.on (Amap.rBEn.nth d).live) ∨ !c.on (Flowq.fEn.nth e).live ∨
        c.rd (Flowq.fUse.nth e).live ≠ 3 then c
    else
      let n := c.rd (Amap.rNch.nth d).live
      let rate := c.rd (Amap.rRate.nth d).live
      let bad := k.left || k.groups.any (fun g => g.length ≠ n) || decide (maxPacket rate < k.groups.length)
      let c := c.judge 0x6B amapPage (d + 65536 * (2 + b2n pathB)) 0 bad
      if bad then c.stick amapPage 7
      else
        let async := c.on (Amap.rAsync.nth d).live
        let last := if async then k.edge.toNat else (k.stamp.toNat + k.groups.length - 1) % 2 ^ 32
        let q := if c.on (Amap.rBEn.nth d).live then c.mergeAudio d pathB k.seq.toNat last else (true, c)
        let c := q.2
        if !q.1 ∨ (!async ∧ rate = 2) then c
        else (k.groups.zipIdx).foldl (fun c g =>
          (g.1.zipIdx).foldl (fun c x =>
            let v := flowSample (c.rd (Amap.rFmt.nth d).live) x.1.toNat
            if async then c.asrcPut 4 (64 * d + x.2) (65536 * k.edge.toNat + k.frac.toNat) v k.nonPcm
            else c.ringPut 4 (64 * d + x.2) ((k.stamp.toNat + g.2) % 2 ^ 32) v k.nonPcm) c) c)

/-- A sample in a packet: two or three bytes, most significant first, or an AM824 octet and three (R190, R192). -/
def packetSample (fs96 : Bool) (fmt stamp ch v : Nat) : List Nat :=
  match fmt with
  | 0 => beBytes 2 v
  | 1 => beBytes 3 v
  | _ => am824Octet fs96 stamp ch v :: beBytes 3 v

/-- R192: a transmit descriptor queues its next packet once its samples are complete; the first packet begins at the boundary from
which the descriptor is in use, or the first after its stamps start anew (log entry 17). Without an egress queue of kind RTP there is no
packet. -/
def execAudioPacketQueue (d : Fin 512) (s : State) : Host.Outcome State Fault Refusal :=
  act s (fun c =>
    let spp := c.rd (Amap.tSpp.nth d).live
    let q := c.rd (Amap.tQueue.nth d).live
    match Store.get none c.aud.txNext d with
    | none => c
    | some first =>
    if !c.on (Amap.tEn.nth d).live ∨ c.rd (Flowq.qKind.nth q) ≠ 1 ∨ stampDiff c.amc ((first + spp) % 2 ^ 32) < 0 then c
    else
      let w := if c.rd (Amap.tFmt.nth d).live = 0 then 16 else 24
      let base := 9216 + c.rd (Amap.tBase.nth d).live
      let groups := (List.range spp).map (fun i => (List.range (c.rd (Amap.tNch.nth d).live)).map (fun ch =>
        ofSigned w (roundTop w (c.egressAt (base + ch) ((first + i) % 2 ^ 32)))))
      let payload := (groups.zipIdx).flatMap (fun g => (g.1.zipIdx).flatMap (fun x =>
        packetSample (c.on Sched.fs) (c.rd (Amap.tFmt.nth d).live) ((first + g.2) % 2 ^ 32) x.2 x.1))
      let c := (c.emit (.rtp q first groups)).enqueue q first false (fun _ => []) payload
      (c.incWrap (Amap.tSent.nth d)).updAud (fun a => { a with txNext := Store.set none a.txNext d (some ((first + spp) % 2 ^ 32)) }))

/-! ## Maps -/

/-- R196: a write of 1 to `AMAP_CTRL.GO`. -/
def execAmapCommit (m : Master) (s : State) : Host.Outcome State Fault Refusal :=
  act s (fun c => c.trigger m amapPage 0x40 0 true (fun c => c.amapGo))

/-- R196: validation completes: rejected, or pending for the next boundary; live at once while no boundaries run. -/
def execAmapValidationDone (s : State) : Host.Outcome State Fault Refusal :=
  act s (fun c =>
    if c.rd Amap.code ≠ 1 then c
    else match c.validateAmap with
      | some r =>
        let c := (((c.wr Amap.code 4).wr Amap.reason r.1).wr Amap.index r.2).wr Amap.go 0
        (c.raise 0x6D amapPage 0 0).stick amapPage 1
      | none => if c.ticking then c.wr Amap.code 2 else c.amapApply)

end Sys2Proof.Machine
end

