-- ==== Sys2Proof/Machine/TwinOps.lean ====
section
/-! DEFINITION. Shared operations of the pair and the Umpire (R374 to R400): states and roles, health, digests and disputes. -/

namespace Sys2Proof.Machine

/-- Change the pair's own state. -/
def Chip.updTwin (c : Chip) (f : TwinX → TwinX) : Chip := { c with twin := f c.twin }

/-- Change an Umpire unit. -/
def Chip.updUmp (c : Chip) (u : Nat) (f : UmpUnit → UmpUnit) : Chip :=
  c.updTwin (fun t => { t with umps := Store.upd {} t.umps u f })

/-- Whether a state is one of the active role: it sends `ACTIVE` = 1 (R375). -/
def activeRole (st : Nat) : Bool := st = 2 || st = 3 || st = 4

/-- A dispute ends (R388). -/
def Chip.endDispute (c : Chip) : Chip :=
  if c.on Ump.dispute then
    ((c.wr Ump.dispute 0).stick umpPage 3).updTwin (fun t => { t with win := none, own := none, mate := none, matched := 0 })
  else c

/-- Show whether digests are compared (R403): in `ACTIVE` or `STANDBY`, with no resync in progress. -/
def Chip.showPair (c : Chip) : Chip :=
  let st := c.pairState
  (c.wr Ump.comparing (b2n ((st = 3 || st = 6) && c.rd Twin.resyncPhase = 0))).lsideEase

/-- Put the device into a pair state (R375). A change of role is counted and recorded with its cause (R401); a first take-up of
the active role from `START` has no cause code and leaves `TWIN_LAST` as it is (log entry 22). -/
def Chip.setPair (c : Chip) (st cause : Nat) : Chip :=
  let was := activeRole c.pairState
  let now := activeRole st
  let c := (c.wr Twin.state st).wr Twin.active (b2n now)
  let c := if was = now then c
    else
      let c := (c.inc Twin.switches).stick twinPage 0
      if cause = 0 then c else (c.wr Twin.lastCause cause).wr Twin.lastDir (b2n was)
  c.showPair

/-- This device takes over (R391): decisions it holds no verdict for are its own to take again, and sequence numbers go on from
the last one received. -/
def Chip.takeOver (c : Chip) (st cause : Nat) : Chip :=
  let c := (c.setPair st cause).raise 0xC5 twinPage 0 cause
  let c := { c with mirrorSeq := c.twin.rxSeq }.updXpt (fun x => { x with own := [] })
  c.endDispute

/-- Whether the mate is lost (R375). -/
def Chip.mateLost (c : Chip) : Bool := !c.on Twin.matePresent

/-- The active device becomes due to yield (R389); in any other state nothing does. -/
def Chip.dueYield (c : Chip) (cause : Nat) : Chip :=
  if c.pairState = 3 ∧ c.yieldDue = 0 then { c with yieldDue := cause } else c

/-- The command `TWIN_SWITCHOVER` (R392): its refusal code, and the machine. -/
def cmdSwitchover (c : Chip) (force : Bool) : Nat × Chip :=
  let st := c.pairState
  if st = 0 then (1, c)
  else if activeRole st ∧ c.twin.mateState ≠ 6 then (2, c)
  else if activeRole st ∧ c.rd Twin.mateHealth ≠ 0 ∧ !force then (3, c)
  else if !activeRole st ∧ !(st = 6 ∧ c.mateLost) then (4, c)
  else if st = 4 ∨ c.yieldDue ≠ 0 then (5, c)
  else if st = 6 then (0, c.takeOver 2 4)
  else (0, c.dueYield 4)

/-- The command `TWIN_SWITCHBACK` (R393). -/
def cmdSwitchback (c : Chip) : Nat × Chip :=
  let st := c.pairState
  if st = 0 then (1, c)
  else if !activeRole st then (2, c)
  else if c.rd Twin.home = b2n c.straps.side then (3, c)
  else if c.twin.mateState ≠ 6 ∨ c.rd Twin.mateGood < c.rd Twin.healthDwell then (4, c)
  else if st = 4 ∨ c.yieldDue ≠ 0 then (5, c)
  else (0, c.dueYield 5)

/-! ## Health -/

/-- Whether a class's worst unacknowledged entry is at least `sev`. -/
def Chip.unackAt (c : Chip) (sev : Nat) : Bool := (List.range 16).any (fun k => decide (sev ≤ c.frd (Fcu.worstOf k)))

/-- Whether a unit stands at overrun level 2 or 3, or a Nova core in `FAULT` (R394). -/
def Chip.audioDegraded (c : Chip) : Bool :=
  (c.novas.any (fun p => decide (2 ≤ p.2.lvl.level) || c.novaSt p.1 = Nst.fault)) ||
    c.mix.tiles.any (fun p => decide (2 ≤ p.2.lvl.level))

/-- Whether source `0x18` was raised within the last 10 s (R394). -/
def Chip.eyeRecent (c : Chip) : Bool :=
  match c.twin.eyeAt with
  | some t => decide (c.stc.total - t.total ≤ 10000000000 * 65536)
  | none => false

/-- The causes of the health grade (R394, R401), as the `CAUSE` field. -/
def Chip.healthCauses (c : Chip) : Nat :=
  b2n (c.unackAt 4 || bit (c.frd Fcu.stop) 0) + (c.twin.latched &&& 6) +
    8 * b2n (c.fcu.floorStop || (c.sch.condBad ≠ 0 && !c.on Sched.condOk) || c.frd Fcu.stop ≠ 0) + 16 * b2n (c.unackAt 3 || c.containDegraded) +
    32 * b2n (c.rd Twin.resyncPhase ≠ 0 || c.on Twin.partialUp) + 64 * b2n c.eyeRecent + 128 * b2n c.audioDegraded

/-- The grade that causes give (R394). -/
def gradeOf (causes : Nat) : Nat := if causes % 16 ≠ 0 then 2 else if causes ≠ 0 then 1 else 0

/-- Count of the UP I/O groups whose received `LSIDE` names this device (R376). -/
def Chip.lsideCount (c : Chip) : Nat :=
  ((List.range 32).filter (fun g => c.grpState g = 6 && c.rd (Lgrp.lside.on g) = 1 + b2n c.straps.side)).length

/-- Grade this device, and tell the mate (R394). Its own health becoming FAILED makes an active device yield (R389). -/
def Chip.gradeHealth (c : Chip) : Chip :=
  let causes := c.healthCauses
  let new := gradeOf causes
  let old := c.rd Twin.health
  let c := (c.wr Twin.cause causes).wr Twin.health new
  let c := if new = old then c else c.stick twinPage 12
  let c := if new = 2 ∧ old ≠ 2 then c.dueYield 3 else c
  let st := c.pairState
  c.cellOut 5 0 [new + 4 * b2n (activeRole st) + 8 * st + 64 * c.rd Twin.partialUp, causes, c.lsideCount, c.rd Twin.epoch]

/-- `TWIN_HEALTH.CLR` is written 1 (R394). -/
def Chip.clearHealth (c : Chip) : Chip := (c.updTwin (fun t => { t with latched := 0 })).wr Twin.hClr 0

/-- The active device begins a resync of its mate (R383). -/
def Chip.beginResync (c : Chip) : Chip := (c.wr Twin.resyncPhase 1).showPair

/-- `TWIN_RESYNC.GO` is written 1 (R383): on the active device with a mate. -/
def Chip.resyncGo (c : Chip) : Chip :=
  let st := c.pairState
  if (st = 2 ∨ st = 3) ∧ !c.mateLost ∧ !c.on Twin.resyncGo then (c.wr Twin.resyncGo 1).beginResync else c

/-! ## The Umpire -/

/-- The digest of bytes: the CRC-32C of R46 (R384). -/
def digestOf (bytes : List Nat) : Nat := (crcPreset 3 crcEthernet).over bytes

/-- Label of a line of a format (R384). -/
def Chip.lineLabel (c : Chip) (fmt line : Nat) : Nat :=
  Store.get 0 c.mer.genCnt (generatorOf fmt) % 2 ^ 20 * 4096 + line % 4096

/-- The comparison period that a unit has completed last: label and covered bytes (R384), none before its first. A line of black is made
up as any line is; a packet output's bytes are those that its packets carry of the line, their headers left out (DESIGN CHOICE, log
entry 28). The packets that an embedder puts on a line are not in the model as words: the bytes of such a line are none. -/
def Chip.unitPeriod (c : Chip) (u : Nat) : Option (Nat × Option (List Nat)) :=
  let coded := fun (l : BankLine) (fmt : Nat) =>
    (if l.words.isEmpty then buildLine fmt l.line l.f2 [] [] [] else l.words).flatMap (leBytes 2)
  let words := fun (b : List Int) => b.flatMap (fun v => leBytes 4 (ofSigned 32 v))
  if u < 1152 then
    (Store.get {} c.outs u).last.map (fun l =>
      (c.lineLabel (c.rd (Xpt.airFmt.nth u)) l.line,
       if c.rd (Xpt.transport.nth u).live = 2 then some (Store.get {} c.outs u).pays
       else if c.rd (Xpt.airAmode.nth u) = 1 then none else some (coded l (c.rd (Xpt.airFmt.nth u)))))
  else if u < 1216 then
    (c.bank u).lines.head?.map (fun l =>
      (c.lineLabel (c.rd (Cmp.carryFmt.on (u - 1152))) l.line, some (coded l (c.rd (Cmp.carryFmt.on (u - 1152))))))
  else if u < 6144 then some (c.aud.m, some (words (c.mixGiven (u - 2048))))
  else
    let k := u - 6144
    some (c.aud.m, some ((List.range (c.rd (Nova.nout.on k))).flatMap (fun ch => words (Store.get [] c.aud.novaOut (64 * k + ch)))))

/-- Whether a unit exists and is compared (R384, R403). -/
def Chip.unitCompared (c : Chip) (u : Nat) : Bool :=
  (u < 1216 || (2048 ≤ u && u < 6208)) && !bit (c.rd (Ump.excl.nth (u / 32))) (u % 32)

/-- The instant `ns` nanoseconds away. -/
def Stc.plus (t : Stc) (ns : Int) : Stc := Stc.ofTotal (t.total + ns * 65536)

/-- DISPUTE is entered over unit `u` (R386); its window runs around the run of mismatches. -/
def Chip.enterDispute (c : Chip) (u : Nat) (first : Stc) : Chip :=
  let c := ((c.wr Ump.dispute 1).wr Ump.dunit u).wr Ump.attrib 0
  let win := (first.plus (-(100000 * c.rd Ump.winPre : Nat)), c.stc.plus (1000 * c.rd Ump.winPost : Nat))
  let c := c.updTwin (fun t => { t with win := some win, matched := 0, own := none, mate := none })
  ((c.inc Twin.disputes).raise 0xC0 umpPage u 0).stick umpPage 1

/-- One comparison of unit `u` with the mate's digest (R385, R386, R388). -/
def Chip.compareUnit (c : Chip) (u label own mate : Nat) : Chip :=
  let bad := decide (own ≠ mate)
  let i := c.check 11 u (own ^^^ mate)
  let c := i.c.judge 0xC1 umpPage u label bad i.inj
  let c := if i.inj ∧ !bad then c.stick umpPage 0 else c
  let x : UmpUnit := Store.get {} c.twin.umps u
  if !bad then
    let c := c.updUmp u (fun x => { x with run := 0, gaps := 0, firsts := [] })
    if c.on Ump.dispute ∧ c.rd Ump.dunit = u then
      let c := c.updTwin (fun t => { t with matched := t.matched + 1 })
      if orElse0 (c.rd Ump.dclr) 1 ≤ c.twin.matched then c.endDispute else c
    else c
  else
    let runs := x.firsts ++ [c.stc]
    let runs := runs.drop (runs.length - 3)
    let c := c.updUmp u (fun x => { x with run := x.run + 1, gaps := 0, firsts := runs })
    let c := (((c.wr Ump.lastUnit u).wr Ump.lastLabel label).wr Ump.lastOwn own).wr Ump.lastMate mate
    let c := (c.inc Ump.mismatchCnt).stick umpPage 0
    let c := if c.rd Ump.dunit = u then c.updTwin (fun t => { t with matched := 0 }) else c
    if 3 ≤ x.run + 1 ∧ !c.on Ump.dispute ∧ c.rd Twin.health ≠ 2 ∧ c.rd Twin.mateHealth ≠ 2 then c.enterDispute u (runs.headD c.stc) else c

/-- A comparison without the mate's digest (R385): 16 in succession on a unit are source `0xCC`. -/
def Chip.umpireGap (c : Chip) (u : Nat) : Chip :=
  let c := (c.updUmp u (fun x => { x with gaps := x.gaps + 1 })).inc Ump.gapCnt
  if (Store.get {} c.twin.umps u : UmpUnit).gaps = 16 then (c.raise 0xCC umpPage u 0).stick umpPage 2 else c

/-- An own digest is complete (R385): it waits for the mate's until `CMP_WAIT` is over. -/
def Chip.awaitMate (c : Chip) (u label own : Nat) : Chip :=
  let t := c.stc.plus (10000 * orElse0 (c.rd Ump.cmpWait) 1 : Nat)
  c.updUmp u (fun x => { x with mine := x.mine ++ [(label, own, t)] })

/-- Whether the own digest of a label waits for the mate's. -/
def Chip.awaits (c : Chip) (u label : Nat) : Bool := (Store.get {} c.twin.umps u : UmpUnit).mine.any (fun d => d.1 = label)

/-- Own digests whose wait is over are compared without the mate's (R385). -/
def Chip.waitsOver (c : Chip) (u : Nat) : Chip :=
  let past := fun (d : Nat × Nat × Stc) => decide (d.2.2.total ≤ c.stc.total)
  let x : UmpUnit := Store.get {} c.twin.umps u
  (x.mine.filter past).foldl (fun c _ => c.umpireGap u) (c.updUmp u (fun x => { x with mine := x.mine.filter (fun d => !past d) }))

/-- The mate's digest of a unit and label (R385): compared with this device's own that waits for it, or kept until that one is complete. -/
def Chip.mateDigest (c : Chip) (u label digest : Nat) : Chip :=
  let c := c.waitsOver u
  match (Store.get {} c.twin.umps u : UmpUnit).mine.find? (fun d => d.1 = label) with
  | some d => (c.updUmp u (fun x => { x with mine := x.mine.filter (fun e => e.1 ≠ label) })).compareUnit u label d.2.1 digest
  | none => c.updUmp u (fun x => { x with mates := (label, digest) :: x.mates })

/-- An own digest is there to be compared (R385): with the mate's where it has come, or when that comes. -/
def Chip.ownDigest (c : Chip) (u label own : Nat) : Chip :=
  let c := c.waitsOver u
  match (Store.get {} c.twin.umps u : UmpUnit).mates.find? (fun d => d.1 = label) with
  | some d => (c.updUmp u (fun x => { x with mates := x.mates.takeWhile (fun e => e.1 ≠ label) })).compareUnit u label own d.2
  | none => c.awaitMate u label own

/-- The worst fault of this device's record in the window (R386): MAJOR or CRITICAL, in any class but 12. -/
def Chip.worstInWindow (c : Chip) (w : Stc × Stc) : Option LogEntry :=
  let counts := fun (e : LogEntry) => decide (3 ≤ e.esev) && e.src / 16 ≠ 12 && decide (w.1.total ≤ e.time.total) &&
    decide (e.time.total ≤ w.2.total) && (!e.inj || e.real || c.frd Fcu.injRehearsal = 0)
  ((c.fcu.log.map Prod.snd).filter counts).foldl (fun b e =>
    match b with
    | none => some e
    | some a => if a.esev < e.esev ∨ (a.esev = e.esev ∧ e.src < a.src) then some e else some a) none

/-- Attribution of a dispute (R387): 1 the active device, 2 the standby, 3 neither. -/
def Chip.attribute (c : Chip) (code : Nat) : Chip :=
  let c := c.wr Ump.attrib code
  let mine := (code = 1 && activeRole c.pairState) || (code = 2 && c.pairState = 6)
  let c := if mine then c.updTwin (fun t => { t with latched := setBit t.latched 1 true }) else c
  let c := if mine ∧ c.rd Twin.health ≠ 2 then (c.wr Twin.health 2).stick twinPage 12 else c
  let c := if code = 1 then c.dueYield 2 else c
  if code = 3 then c.updTwin (fun t => { t with win := none }) else c.endDispute

/-- Both verdicts decide the attribution (R387). -/
def Chip.decideDispute (c : Chip) : Chip :=
  match c.twin.own, c.twin.mate with
  | some a, some b =>
    let act := activeRole c.pairState
    let fa := if act then a.1 else b.1
    let fs := if act then b.1 else a.1
    c.attribute (if fa && !fs then 1 else if fs && !fa then 2 else 3)
  | _, _ => c

end Sys2Proof.Machine
end

