-- ==== Sys2Proof/Machine/FaultsOps.lean ====
section
/-! DEFINITION. Shared operations of the fault collector (R412 to R423): acknowledgement, the ALIVE pin, injection, poisoned
words. -/

namespace Sys2Proof.Machine

/-- Change the fault collector. -/
def Chip.updFcu (c : Chip) (f : Fcu → Fcu) : Chip := { c with fcu := f c.fcu }

/-- Pages with a table window and the index ranges of it, first and last index (R491 and the body layouts of the chapters). -/
def windowRanges (p : Nat) : List (Nat × Nat) :=
  if 0x20 ≤ p ∧ p ≤ 0x40 then [(0, 4159)]
  else if 0x48 ≤ p ∧ p ≤ 0x4F then [(0, 2047), (4096, 20479)]
  else if 0x80 ≤ p ∧ p ≤ 0xBF then [(0, 2047), (4096, 8191)]
  else if 0xE0 ≤ p ∧ p ≤ 0x11F then [(0, 41027), (41088, 41151)]
  else match p with
  | 0x1 => [(0, 63)] | 0x3 => [(0, 2183)] | 0xA => [(0, 511), (4096, 1052671)] | 0x12 => [(0, 1023)] | 0x14 => [(0, 1023)]
  | 0x50 => [(0, 131071), (131072, 196607), (262144, 786431)]
  | 0x51 => [(0, 511), (1024, 1024 + 128 * 64 - 1)]
  | 0x60 => [(0, 9727), (10240, 18431)] | 0x61 => [(0, 4607)] | 0x70 => [(0, 7935), (8192, 16383)] | 0x78 => [(0, 1023)]
  | 0xD0 => [(0, 511)]
  | 0xD4 => [(0, 25599), (26624, 27647), (28672, 32767)]
  | 0xD8 => [(0, 4095), (0x100000, 0x8FFFFF)] | 0x120 => [(0, 1048575)] | 0x129 => [(0, 255)]
  | _ => []

/-- `PAGE_CAPS.TW` of a page (R482). -/
def hasWindow (p : Nat) : Bool := !(windowRanges p).isEmpty

/-! ## Acknowledgement -/

/-- Set `ACK` in an entry of the acknowledged classes (R412). -/
def ackEntry (mask : Nat) (e : LogEntry) : LogEntry := if bit mask (e.src / 16) then { e with ack := true } else e

/-- Classes are acknowledged (R412). The first-fault record is frozen (R414), so its `ACK` bit stays. -/
def Chip.acknowledge (c : Chip) (mask : Nat) : Chip :=
  let keep := 65535 - mask % 65536
  let c := (c.fwr Fcu.unackReal (c.frd Fcu.unackReal &&& keep)).fwr Fcu.unackInj (c.frd Fcu.unackInj &&& keep)
  let c := (List.range 16).foldl (fun c k => if bit mask k then c.fwr (Fcu.worstOf k) 0 else c) c
  let c := { c with rateHeld := c.rateHeld && !bit mask 11, containDegraded := c.containDegraded && !bit mask 12 }
  c.updFcu (fun f => { f with crit := f.crit &&& keep, log := f.log.map (fun p => (p.1, ackEntry mask p.2)),
                              aon := f.aon.map (ackEntry mask) })

/-- The first-fault record is cleared (R414). -/
def Chip.clearFirst (c : Chip) : Chip := (c.updFcu (fun f => { f with first := none })).fwr Fcu.ffValid 0

/-! ## ALIVE -/

/-- `ALIVE_STATIC` (R33): the level follows whether ALIVE would toggle. -/
def Chip.showStatic (c : Chip) : Chip :=
  if bit (c.rd Dev.compat) 2 then c.updFcu (fun f => { f with alive := c.frd Fcu.aliveRun = 1 }) else c

/-- ALIVE toggles from a rising edge (R415, R416), once a heartbeat has come. -/
def Chip.startAlive (c : Chip) : Chip :=
  if c.fcu.beaten then (c.fwr Fcu.aliveRun 1).updFcu (fun f => { f with alive := true }) else c

/-- Whether a stop condition of ALIVE is present, or a class holds an unacknowledged real CRITICAL entry (R416). -/
def Chip.aliveBarred (c : Chip) : Bool := c.fcu.hbStop || c.fcu.floorStop || c.fcu.crit ≠ 0

/-- `FCU_CTRL.ALIVE_CLR` is written 1 (R416). -/
def Chip.aliveClear (c : Chip) : Chip :=
  if c.aliveBarred then c.stick fcuPage 6
  else
    let c := c.fwr Fcu.stop 0
    if c.frd Fcu.aliveRun = 1 then c else c.startAlive

/-- A firmware heartbeat (R415 to R417). -/
def Chip.heartbeat (c : Chip) : Chip :=
  let c := ((c.updFcu (fun f => { f with hbStop := false, grace := false })).passHolds 0xDA fcuPage 0).fwr Fcu.waitHb 0
  if c.fcu.beaten then c
  else
    let c := c.updFcu (fun f => { f with beaten := true })
    if c.frd Fcu.stop = 0 then c.startAlive else c

/-- The heartbeat stop condition is present (R416, R417). -/
def Chip.heartbeatMissing (c : Chip) : Chip :=
  ((c.updFcu (fun f => { f with hbStop := true, grace := false })).stopAlive 1).raise 0xDA fcuPage 0 0

/-! ## Injection -/

/-- Check widths of the checkers (R419). -/
def checkWidth (k : Nat) : Nat := [16, 16, 8, 8, 8, 8, 8, 8, 32, 18, 32, 32, 8].getD k 0

/-- Whether an instance is in a checker's range (R419). -/
def checkerInstance (k i : Nat) : Bool :=
  match k with
  | 0 | 1 | 6 => i = 0
  | 2 | 3 | 4 => i < 64
  | 5 => i < 1216
  | 7 => pageExists i && hasWindow i
  | 8 => i < 33
  | 9 => i < 1152
  | 10 => i < 32
  | 11 => i < 1216 || (2048 ≤ i && i < 6208)
  | 12 => i < 4
  | _ => false

/-- `INJECT_ARM` (R418): its refusal code, and the machine. -/
def cmdInject (c : Chip) (target a0 a1 : Nat) : Nat × Chip :=
  let i := a1 % 65536
  if 13 ≤ target then (1, c)
  else if !checkerInstance target i then (2, c)
  else if c.fcu.arm.isSome then (3, c)
  else if a0 = 0 ∨ 2 ^ checkWidth target ≤ a0 then (4, c)
  else
    let c := c.updFcu (fun f => { f with arm := some ⟨target, i, a0, bit a1 16⟩ })
    let c := (((c.fwr Fcu.injArmed 1).fwr Fcu.injRehearsal (b2n (bit a1 16))).fwr Fcu.injChecker target).fwr Fcu.injFired 0
    (0, ((c.fwr Fcu.injPattern a0).fwr Fcu.injInst i).raise 0xF6 cmdPage target 0)

/-- An arming ends without an access (R418, R426). -/
def Chip.disarm (c : Chip) : Chip := (c.updFcu (fun f => { f with arm := none })).fwr Fcu.injArmed 0

/-! ## Poisoned words -/

/-- The correctable source of a memory checker; the uncorrectable one follows it (R422). -/
def memSource (k : Nat) : Nat := [0x00, 0x02, 0x04, 0x04, 0x06, 0x08, 0x0A, 0x0C].getD k 0

/-- The page that a memory's report names (R520). -/
def memPage (k i : Nat) : Nat :=
  match k with
  | 0 | 1 => hbmPage
  | 2 | 3 => novaPage i
  | 4 => mixPage
  | 5 => if i < 1152 then vinPage else cmpPage (i - 1152)
  | 6 => cfabPage
  | _ => i

/-- The instance that a memory's report names (R520). -/
def memInst (k i : Nat) : Nat := if k < 2 then k else i

/-- Whether a word is poisoned, of the memories that have no list of their own. -/
def Chip.isPoisoned (c : Chip) (k i a : Nat) : Bool := c.poisoned.contains (k, i, a)

/-- The value of a field at COLD (R9). -/
def coldValue (f : Fld) : Nat :=
  match f.cold with
  | .val v => v
  | .kept => f.por

/-- A word of a register table whose content is lost holds its entry's COLD value until it is next written (R423). -/
def Chip.coldEntry (c : Chip) (p i : Nat) : Chip := (wordFields (homePage p 1 i) 1 i).foldl (fun c f => c.wr f (coldValue f)) c

/-- A word is poisoned until it is next written (R423). -/
def Chip.poisonWord (c : Chip) (k i a : Nat) : Chip :=
  match k with
  | 2 => c.updNova i (fun x => { x with poison := if x.poison.contains (65536 + a) then x.poison else (65536 + a) :: x.poison })
  | 3 => c.updNova i (fun x => { x with poison := if x.poison.contains a then x.poison else a :: x.poison })
  | 4 =>
    let e := 262144 * i + a % 262144
    if c.mix.poison.contains e then c else c.updMix (fun x => { x with poison := e :: x.poison })
  | _ =>
    if c.isPoisoned k i a then c
    else
      let c := { c with poisoned := (k, i, a) :: c.poisoned }
      if k < 2 then c.inc (Hbm.poison.nth k) else if k = 7 then c.coldEntry i a else c

/-- A word is written, so it is poisoned no longer (R423). -/
def Chip.unpoison (c : Chip) (k i a : Nat) : Chip :=
  if c.isPoisoned k i a then
    let c := { c with poisoned := c.poisoned.filter (fun q => q ≠ (k, i, a)) }
    if k < 2 then c.decr (Hbm.poison.nth k) else c
  else c

/-- Count an HBM error and show it (R496): a fault that was only injected shows its sticky bit and is not counted. -/
def Chip.hbmError (c : Chip) (k : Nat) (one real : Bool) : Chip :=
  let c := c.stick hbmPage (2 * k + b2n (!one))
  if real then c.inc (if one then Hbm.ceCnt.nth k else Hbm.ueCnt.nth k) else c

/-- A checked read of a memory of the checkers 0 to 7 (R420 to R423). `syn` is its syndrome and `again` that of the re-read after
scrub write-back, the second attempt of a corrected error (R406). Real uncorrectable words are poisoned. -/
def Chip.memRead (c : Chip) (k i a syn again : Nat) (held : List (Nat × Nat)) (injectable : Bool) : Chip :=
  let r := if injectable then c.check k (if k < 2 then 0 else i) syn else ⟨c, syn, syn, false⟩
  let c := r.c
  if r.seen = 0 then c
  else
    let one := oneBit r.seen
    let src := memSource k + b2n (!one)
    let c := c.report ⟨src, memPage k i, memInst k i, a, !one || (again ≠ 0 && r.real ≠ 0), r.inj, r.real ≠ 0, held, false⟩
    let c := if k < 2 then c.hbmError k one (r.real ≠ 0) else c
    if !one ∧ r.real ≠ 0 then c.poisonWord k i a else c

/-- A read of a memory that is good by its own check bits, on which an armed injection fires (R419, R420). -/
def Chip.cleanRead (c : Chip) (k i a : Nat) (held : List (Nat × Nat)) : Chip := c.memRead k i a 0 0 held true

end Sys2Proof.Machine
end

