-- ==== Sys2Proof/Machine/Keeper.lean ====
section
/-! DEFINITION. The Keeper layer (R149 to R157): carve-out units, the commands, and how a change takes effect. -/

namespace Sys2Proof.Machine

/-- Carve-out units in use: base and length (R150). -/
def Chip.carveUsed (c : Chip) : List (Nat × Nat) :=
  c.cmps.flatMap (fun p =>
    (if c.keeperOn p.1 then [(p.2.kBase, c.rd (Cmp.kUnits.on p.1))] else []) ++
    (p.2.kLoad.toList ++ p.2.kDue.filterMap KeeperDue.new).map (fun k => (k.base, k.units)))

/-- First fit from the lowest address (R150). -/
def firstFit (used : List (Nat × Nat)) (n : Nat) : Option Nat :=
  let free := fun b => b + n ≤ 4096 && used.all (fun u => b + n ≤ u.1 || u.1 + u.2 ≤ b)
  ((0 :: used.map (fun u => u.1 + u.2)).filter free).foldl (fun a b => some (a.elim b (min b))) none

/-- Units of an image (R150). -/
def imageUnits (w h : Nat) : Nat := (w * h * 4 + 65535) / 65536

/-- The CRC-32C of an image in the carve-out, in raster order (R151). -/
def imageCrc (m : Mem) (base w h : Nat) : Nat := crc32c ((m.bytes 3 (base * 65536) (w * h * 4)).flatMap (bitsMsb 8))

/-- The Keeper settings that a load asks for (R151); a release ignores every other argument. -/
def Chip.keeperArgs (c : Chip) (a0 a1 a2 a3 : Nat) : KeeperNew :=
  if bit a2 11 then { release := true } else
  let s := a0 % 1024
  let w := c.rd (Cmp.sWidth.nth s)
  let h := c.rd (Cmp.sHeight.nth s)
  { x := a1 % 8192, y := a1 / 65536 % 8192, w := w, h := h, alpha := a2 % 1024, clr := c.rd (Cmp.sClr.nth s), vis := bit a2 10,
    units := imageUnits w h, surf := s, crc := some (a3 % 2 ^ 32) }

/-- The first refusal condition of R153 that a load meets on acceptance, 0 none. A device that yields sends no more decisions (R390)
and refuses as a standby does. -/
def Chip.keeperRefusal (c : Chip) (n : Nat) (k : KeeperNew) : Nat :=
  let fmt := c.rd (Cmp.outFmt.on n).live
  if c.ignoresMirrored then 1
  else if c.rd (Cmp.nLayers.on n) = 0 ∨ fmt = 0xFF then 2
  else if k.release then 0
  else if !c.surfValid k.surf then 3
  else if activeWidth fmt < k.x + k.w ∨ activeLines fmt < k.y + k.h ∨ k.x % 2 ≠ 0 then 4
  else if k.clr ≠ c.rd (Cmp.outClr.on n).live then 5
  else if (firstFit c.carveUsed k.units).isNone then 6
  else 0

/-- A Keeper command is refused (R153). -/
def Chip.keeperRefuse (c : Chip) (n op code : Nat) : Chip := (c.wr (Cmp.kRefuse.on n) code).cmdEnd op code

/-- The words of the decision cell of a Keeper command (R381). -/
def keeperWords (n what : Nat) (k : KeeperNew) : List Nat :=
  [n + 64 * what, b2n (!k.release) + 2 * b2n k.vis + 4 * k.alpha + 4096 * k.clr, k.x + 65536 * k.y, k.w + 65536 * k.h]

/-- A Keeper change waits for the first picture whose decision point follows, or for the picture that a mirrored decision names (R152,
R381). -/
def Chip.keeperNew (c : Chip) (n : Nat) (k : KeeperNew) (at_ : Option Nat := none) : Chip :=
  (c.updComp n (fun x => { x with kDue := x.kDue ++ [{ at_ := at_, new := some k }], kLoad := none })).stick (cmpPage n) 14

/-- Visibility waits in the same way (R152, R381). -/
def Chip.keeperVis (c : Chip) (n : Nat) (b : Bool) (at_ : Option Nat := none) : Chip :=
  (c.updComp n (fun x => { x with kDue := x.kDue ++ [{ at_ := at_, vis := b }] })).stick (cmpPage n) 14

/-- The picture for which a Keeper decision is taken now (R152, R381): the first whose decision point is still to come. -/
def Chip.keeperPicture (c : Chip) (n : Nat) : Nat :=
  let p := c.groupPicture n
  if (c.comp n).decided = some p then (p + (if interlaced (c.rd (Cmp.carryFmt.on n)) then 2 else 1)) % 2 ^ 32 else p

/-- A mirrored Keeper decision takes effect at its picture (R157, R381): the device that loaded the image has it at hand, its mate takes
the place that the BULK cells of the image name and forms the check value from the copied image. -/
def Chip.applyKeeperDec (c : Chip) (n what ctl pos size pic : Nat) : Chip :=
  match what with
  | 0 => match (if bit ctl 0 then (c.comp n).kLoad else some { release := true }) with
    | some k => c.keeperNew n k (some pic)
    | none =>
      let w := size % 8192
      let h := size / 65536 % 8192
      let u := imageUnits w h
      let base := (c.twin.imgBase.find? (fun b => b.1 = n)).map Prod.snd
      let c := { c with twin := { c.twin with imgBase := c.twin.imgBase.eraseP (fun b => b.1 = n) } }
      c.keeperNew n { x := pos % 8192, y := pos / 65536 % 8192, w := w, h := h, vis := bit ctl 1, alpha := ctl / 4 % 1024,
                      clr := ctl / 4096 % 8, units := u, base := base.getD 0, wait := base.isNone } (some pic)
  | 1 => c.keeperVis n true (some pic)
  | _ => c.keeperVis n false (some pic)

/-- `KEEPER_LOAD` is accepted (R152, R153): refused, a release that is complete at once, or a load that runs. -/
def Chip.keeperLoad (c : Chip) (n a0 a1 a2 a3 : Nat) : Chip :=
  let k := c.keeperArgs a0 a1 a2 a3
  let code := c.keeperRefusal n k
  if code ≠ 0 then c.keeperRefuse n 4 code
  else if k.release then
    (c.decision 8 (cmpPage n) (c.keeperPicture n) (keeperWords n 0 k) (fun c => c.keeperNew n k)).cmdEnd 4 0
  else
    (c.updComp n (fun x => { x with kLoad := some { k with base := (firstFit c.carveUsed k.units).getD 0 } })).cmdRunning 4

/-- Copy a surface into the carve-out, raster order (R152). -/
def copySurface (m : Mem) (region src stride dst w : Nat) : Nat → Mem
  | 0 => m
  | h + 1 =>
    let m := copySurface m region src stride dst w h
    m.puts 3 (dst + 4 * w * h) (m.bytes region (src + 4 * stride * h) (4 * w))

/-- The image of a load goes to the standby in BULK cells of the Keeper carve-out, 24 bytes each (R157, R377). -/
def Chip.sendImage (c : Chip) (m : Mem) (k : KeeperNew) : Chip :=
  if !c.mirrors then c
  else (List.range ((k.w * k.h + 5) / 6)).foldl (fun c j =>
    let at_ := k.base * 65536 + 24 * j
    c.sendCell 2 ([3, at_] ++ (List.range 6).map (fun i => m.word 3 (at_ + 4 * i)))) c

/-- A load completes (R152): the copy is made and checked; a wrong check value refuses it. -/
def Chip.keeperLoaded (c : Chip) (m : Mem) (n : Nat) : Chip × Mem :=
  match (c.comp n).kLoad with
  | none => (c, m)
  | some k =>
    let region := 1 + c.rd (Cmp.sStack.nth k.surf)
    let m := copySurface m region (c.rd (Cmp.sBase.nth k.surf) * 65536) (c.rd (Cmp.sStride.nth k.surf)) (k.base * 65536) k.w k.h
    if some (imageCrc m k.base k.w k.h) ≠ k.crc then
      ((c.updComp n (fun x => { x with kLoad := none })).keeperRefuse n 4 7, m)
    else
      let c := c.decision 8 (cmpPage n) (c.keeperPicture n) (keeperWords n 0 k) (fun c => c.keeperNew n k)
      ((c.sendImage m k).cmdEnd 4 0, m)

/-- `KEEPER_SHOW` and `KEEPER_HIDE` (R152, R153). -/
def Chip.keeperShowHide (c : Chip) (n : Nat) (show_ : Bool) : Chip :=
  let op := if show_ then 5 else 6
  if c.ignoresMirrored then c.keeperRefuse n op 1
  else if c.rd (Cmp.nLayers.on n) = 0 ∨ c.rd (Cmp.outFmt.on n).live = 0xFF then c.keeperRefuse n op 2
  else if !c.keeperOn n then c.keeperRefuse n op 8
  else
    (c.decision 8 (cmpPage n) (c.keeperPicture n) [n + 64 * (if show_ then 1 else 2), 0, 0, 0] (fun c => c.keeperVis n show_)).cmdEnd
      op 0

/-- One Keeper change takes effect; the old image's units are freed with it (R152). -/
def Chip.keeperTake (c : Chip) (m : Mem) (n : Nat) (d : KeeperDue) : Chip :=
  match d.new with
  | none => c.wr (Cmp.kVis.on n) (b2n (d.vis && c.keeperOn n))
  | some k =>
    if k.release then
      ((c.wr (Cmp.kEn.on n) 0).wr (Cmp.kVis.on n) 0).wr (Cmp.kUnits.on n) 0
    else
      let c := (((c.wr (Cmp.kX.on n) k.x).wr (Cmp.kY.on n) k.y).wr (Cmp.kW.on n) k.w).wr (Cmp.kH.on n) k.h
      let c := (((c.wr (Cmp.kEn.on n) 1).wr (Cmp.kVis.on n) (b2n k.vis)).wr (Cmp.kAlpha.on n) k.alpha).wr (Cmp.kClr.on n) k.clr
      ((c.wr (Cmp.kUnits.on n) k.units).wr (Cmp.kCrcErr.on n) 0).updComp n (fun x =>
        { x with kBase := k.base, kCrc := k.crc.getD (imageCrc m k.base k.w k.h) })

/-- The Keeper changes that are due at a picture take effect in the order in which they were made (R152). -/
def Chip.keeperChange (c : Chip) (m : Mem) (n pic : Nat) : Chip :=
  let due := (c.comp n).kDue.filter (fun k => k.dueAt pic)
  let c := due.foldl (fun c k => c.keeperTake m n k) c
  if due.isEmpty then c else c.updComp n (fun x => { x with kDue := x.kDue.filter (fun k => !k.dueAt pic) })

/-- Check one Keeper image (R156): each mismatch is source `0x56`. -/
def Chip.keeperCheck (c : Chip) (m : Mem) (n : Nat) : Chip :=
  if !c.keeperOn n then c
  else
    let bad := imageCrc m (c.comp n).kBase (c.rd (Cmp.kW.on n)) (c.rd (Cmp.kH.on n)) ≠ (c.comp n).kCrc
    let c := c.wr (Cmp.kCrcErr.on n) (b2n bad)
    if bad then (c.raise 0x56 (cmpPage n) n 0).stick (cmpPage n) 7 else c.passHolds 0x56 (cmpPage n) n

end Sys2Proof.Machine
end

