-- ==== Sys2Proof/Machine/Composers.lean ====
section
/-! DEFINITION. Layer composers and the Keeper (R125 to R162): one meaning per row. -/

namespace Sys2Proof.Machine

/-- R142: a write of 1 to `CMP_COMMIT.GO`. -/
def execCmpCommitGo (m : Master) (n : Fin 64) (s : State) : Host.Outcome State Fault Refusal :=
  act s (fun c => c.trigger m (cmpPage n) 0x58 0 true (fun c => c.commitGo n))

/-- R142: validation completes: the commit is rejected, or becomes `PENDING` with its stores allocated. -/
def execCommitValidationDone (n : Fin 64) (s : State) : Host.Outcome State Fault Refusal :=
  act s (fun c =>
    if c.rd (Cmp.code.on n) ≠ 1 then c
    else
      let v := c.validateCommit n
      if v.1 ≠ 0 then
        let c := (((c.wr (Cmp.reason.on n) v.1).wr (Cmp.offLayer.on n) v.2).leaveGroup n).endCommit n 5
        (c.raise (rejectSource v.1).1 (cmpPage n) n v.2).stick (cmpPage n) (rejectSource v.1).2
      else
        let u := c.pendUnits n
        let c := ((c.wr (Cmp.code.on n) 2).updComp n (fun x => { x with unitsPend := u })).showUnits n
        c)

/-- Whether a decision on this composer is on its way to its epoch already. -/
def Chip.cmpDecided (c : Chip) (n : Nat) : Bool :=
  (c.comp n).flip.isSome || c.mirrorQ.any (fun i => i.space = 3 && i.off = 3 && i.page = cmpPage n && i.payload.headD 0 / 1024 % 8 < 4)

/-- R143, R146, R152: decision point D(N). -/
def execDecisionPoint (n : Fin 64) (s : State) : Host.Outcome State Fault Refusal :=
  act s (fun c =>
    let n := n.val
    if !c.enabled (cmpPage n) ∨ !c.decisionDue n then c
    else
      let x := c.comp n
      let pic := c.decisionPicture n
      let c := c.updComp n (fun x => { x with decided := some pic, kDue := x.kDue.map (fun k => { k with at_ := some (k.at_.getD pic) }) })
      let waits := fun k => c.rd (Cmp.code.on k) = 2 || c.rd (Cmp.code.on k) = 3
      if !waits n ∨ c.cmpDecided n then c
      else
        let g := x.group
        if g = 0 then (if c.fenceOk n then c.cmpDecision n 0 .flip else c.countWait n)
        else
          let ms := c.groupMembers g
          if ms.head? ≠ some n ∨ !c.on (Cmp.gSeal.nth g) ∨ (c.cgrp g).decided ∨ !ms.all waits then c
          else if ms.all (fun k => c.fenceOk k) then c.cmpDecision n g .flip
          else ms.foldl (fun c k => c.countWait k) c)

/-- R145: the fence count has reached `TIMEOUT`: source `0x51`, and `TO_ACT` decides. A group acts by its lowest-numbered
member. -/
def execFenceTimeout (n : Fin 64) (s : State) : Host.Outcome State Fault Refusal :=
  act s (fun c =>
    let n := n.val
    let t := c.rd (Cmp.timeout.on n)
    let g := (c.comp n).group
    let ms := if g = 0 then [n] else c.groupMembers g
    if c.rd (Cmp.code.on n) ≠ 2 ∨ t = 0 ∨ c.rd (Cmp.waited.on n) ≠ t ∨ c.cmpDecided n ∨ ms.head? ≠ some n ∨
        (g ≠ 0 ∧ !c.on (Cmp.gSeal.nth g)) ∨ ms.all (fun k => c.fenceOk k) then c
    else
      let c := (c.raise 0x51 (cmpPage n) n 0).stick (cmpPage n) 3
      c.cmpDecision n g (match c.rd (Cmp.toAct.on n) with | 1 => .discard | 2 => .force | _ => .held))

/-- R146: a write of 1 to `CMP_GROUP[g].SEAL` through composer page `n`. -/
def execGroupSeal (m : Master) (n : Fin 64) (g : Fin 16) (s : State) : Host.Outcome State Fault Refusal :=
  act s (fun c => c.trigger m (cmpPage n) (0x200 + 4 * g) 0 true (fun c => c.groupSeal g))

/-- R147: a write of 1 to `CMP_COMMIT.CANCEL`. -/
def execCommitCancel (m : Master) (n : Fin 64) (s : State) : Host.Outcome State Fault Refusal :=
  act s (fun c => c.trigger m (cmpPage n) 0x58 1 true (fun c => c.commitCancel n))

/-- R147: a write of 1 to `CMP_GROUP[g].CANCEL` through composer page `n`. -/
def execGroupCancel (m : Master) (n : Fin 64) (g : Fin 16) (s : State) : Host.Outcome State Fault Refusal :=
  act s (fun c => c.trigger m (cmpPage n) (0x200 + 4 * g) 1 true (fun c => c.groupCancel n g))

/-- A picture of the composer starts: the layers of the interval that ended are taken, and the picture is built (R128). DESIGN CHOICE (log
entry 16): layer 7 takes nothing while the Keeper is enabled, so that after a release it shows nothing (`SHOW` = 1) in the pictures whose
interval lay before the release, and its ordinary configuration has the store units that its commit was validated with. -/
def Chip.startPicture (c : Chip) (mem : Mem) (n pic : Nat) : Chip :=
  let fmt := c.rd (Cmp.carryFmt.on n)
  let two := interlaced fmt
  let soon := two && (c.comp n).flip = some ((pic + 1) % 2 ^ 32)
  let q := c.takeLayers mem n (if soon then Fld.pend else Fld.live)
  let c := q.1
  let x := c.comp n
  let starting := decide (0 < x.start)
  let now := if two then (if x.ahead.isEmpty then q.2.map (fun p => { p with show_ := 5 }) else x.ahead) else q.2
  let now := if starting then now.map (fun p => if p.show_ = 1 then p else { p with show_ := 5 }) else now
  let f2 := two && (if starting && x.layers.isEmpty then false else !x.f2)
  let c := c.updComp n (fun x => { x with layers := now, ahead := if two then q.2 else [], f2 := f2, line := if f2 then x.line else 1 })
  let c := (c.wr (Cmp.picture.on n) pic).showComp n
  let c := c.updComp n (fun x => { x with start := x.start - 1 })
  let c := c.keeperChange mem n pic
  let now := if c.keeperOn n then now.zipIdx.map (fun p => if p.2 = 7 then { show_ := 1 } else p.1) else now
  let c := (c.updComp n (fun x => { x with layers := now })).showLayers n now
  (List.range 8).foldl (fun c l => c.destFrameHolds (1152 + 8 * n + l)) c

/-- R128, R132, R143, R148, R278: picture start P(N). -/
def execPictureStart (n : Fin 64) (s : State) : Host.Outcome State Fault Refusal :=
  actMem s (fun c mem =>
    let n := n.val
    if !c.enabled (cmpPage n) then (c, mem)
    else
      let c := c.takePlan n
      let pic := (c.rd (Cmp.picture.on n) + 1) % 2 ^ 32
      let c := match (c.comp n).flip with
        | some k => if frameDiff k pic ≤ 0 then c.flipNow n else c
        | none => c
      let live := c.rd (Cmp.outFmt.on n).live
      let carry := c.rd (Cmp.carryFmt.on n)
      let next := (c.comp n).newFmt.orElse (fun _ => if carry = 0xFF ∧ live ≠ 0xFF then some live else none)
      match next with
      | none => (if carry = 0xFF then c else c.startPicture mem n pic, mem)
      | some f =>
        if carry ≠ 0xFF then
          (((c.wr (Cmp.carryFmt.on n) 0xFF).updComp n (fun x => { x with layers := [], ahead := [], f2 := false })).showComp n, mem)
        else if f = 0xFF ∨ c.rd (Cmp.nLayers.on n) = 0 ∨ !c.planHas n f then (c.updComp n (fun x => { x with newFmt := none }), mem)
        else
          let c := ((c.instanceBegins 2 n).wr (Cmp.carryFmt.on n) f).updComp n (fun x =>
            { x with newFmt := none, start := if interlaced f then 2 else 1, layers := [], ahead := [], f2 := false })
          (c.startPicture mem n pic, mem))

/-- The stacks that a line of the picture reads: those of the surfaces on show, and stack 0 for the Keeper (R131, R150). -/
def Chip.lineStacks (c : Chip) (n : Nat) : List Nat :=
  let shown := (Store.get {} c.cmps n).layers.zipIdx.filter (fun (q : LayerPic × Nat) => q.1.visible && !q.1.surf.isEmpty)
  (shown.map (fun (q : LayerPic × Nat) => c.rd (Cmp.sStack.nth (c.rd (lyr Cmp.lSurf n q.2).live))) ++ (if c.keeperOn n then [0] else [])).eraseDups

/-- R141, R159, R423: the next line of the picture is written into the composer's bank; a line that was not composed in time, or reads a
poisoned word of a surface, is the previous line of its field, source `0x55`. -/
def execComposerLine (n : Fin 64) (late : Bool) (s : State) : Host.Outcome State Fault Refusal :=
  actMem s (fun c mem =>
    let n := n.val
    let fmt := c.rd (Cmp.carryFmt.on n)
    let x := c.comp n
    if fmt = 0xFF ∨ totalLines fmt < x.line then (c, mem)
    else
      let late := late || c.readsPoison n fmt x.line
      let c := (c.lineStacks n).foldl (fun c k => c.cleanRead k 0 0 ((c.destsOf (1152 + n)).map (fun d => (0, d)))) c
      let old := (c.bank (1152 + n)).lines
      let before := ((old.find? (fun l => l.line % totalLines fmt + 1 = x.line)).map BankLine.words).getD []
      let prev := ((old.find? (fun l => l.f2 = x.f2)).map BankLine.words).getD (buildLine fmt x.line x.f2 before [] [])
      let ws := if late then prev else c.composeLine mem n fmt x.line before
      let c := if late then c.stick (cmpPage n) 6 else { c with free := c.free + 2 ^ 26 }
      let c := c.judge 0x55 (cmpPage n) n 0 late
      ((c.bankLine (1152 + n) ⟨x.line, x.f2, ws⟩).updComp n (fun x => { x with line := x.line + 1 }), mem))

/-- R152, R153: the authenticated `KEEPER_LOAD`. -/
def execKeeperLoad (target : BitVec 16) (a0 a1 a2 a3 : BitVec 32) (s : State) : Host.Outcome State Fault Refusal :=
  act s (fun c => if 64 ≤ target.toNat then c.cmdEnd 4 15 else c.keeperLoad target.toNat a0.toNat a1.toNat a2.toNat a3.toNat)

/-- R152: a Keeper load completes. -/
def execKeeperLoadComplete (n : Fin 64) (s : State) : Host.Outcome State Fault Refusal :=
  actMem s (fun c mem => c.keeperLoaded mem n)

/-- R152, R153: the authenticated `KEEPER_SHOW`. -/
def execKeeperShow (target : BitVec 16) (s : State) : Host.Outcome State Fault Refusal :=
  act s (fun c => if 64 ≤ target.toNat then c.cmdEnd 5 15 else c.keeperShowHide target.toNat true)

/-- R152, R153: the authenticated `KEEPER_HIDE`. -/
def execKeeperHide (target : BitVec 16) (s : State) : Host.Outcome State Fault Refusal :=
  act s (fun c => if 64 ≤ target.toNat then c.cmdEnd 6 15 else c.keeperShowHide target.toNat false)

/-- R156: every second each Keeper image is checked. -/
def execKeeperCrcCheck (s : State) : Host.Outcome State Fault Refusal :=
  actMem s (fun c mem =>
    ((List.range 64).foldl (fun c n => (if c.keeperOn n then c.cleanRead 0 0 0 [] else c).keeperCheck mem n) c, mem))

end Sys2Proof.Machine
end

