-- ==== Sys2Proof/Machine/Edge.lean ====
section
/-! DEFINITION. Retimers and intake synchronisers (R13 to R16). -/

namespace Sys2Proof.Machine

/-- What a late block means (R14, R212, R282): an overrun of the mix tile or of the Nova core whose period ends there. A late line of an
output carries the previous block again and nothing else. -/
def Chip.lateUnit (c : Chip) (u : RetimerUse) : Chip :=
  match u with
  | .tile t => if c.on Mix.run ∧ c.aud.isOpen then c.updTile t (fun x => { x with lvl := { x.lvl with ovr := true } }) else c
  | .nova k => if c.novaSt k = Nst.wait ∧ !(c.nova k).first then c.updNova k (fun x => { x with lvl := { x.lvl with ovr := true } }) else c
  | .video _ => c

/-- A line that a video retimer releases goes to its output's transport (R53, R63, R98): a lane sub-stream, its first word marked, where
a line is sent whole or not at all; or the line memory that its packets are taken from, in place of the line before. -/
def Chip.sendWords (c : Chip) (u : RetimerUse) : Chip :=
  match u with
  | .video o =>
    let t := c.rd (Xpt.transport.nth o).live
    if c.outSt o ≠ 1 ∨ c.inGap o then c
    else if t = 1 then { c with outs := Store.upd {} c.outs o (fun x => { x with tx := x.tx ++ [⟨true, (c.retimer u).block⟩] }) }
    else if t = 2 then { c with outs := Store.upd {} c.outs o (fun x => { x with tx := [⟨true, (c.retimer u).block⟩], pace := 0 }) }
    else c
  | _ => c

/-- R14: a release event. `inTime` tells whether a filled block was marked complete two edge-clock cycles before the release edge;
where it was not, or none is complete, the retimer releases the previous block again, flagged. -/
def execRetimerRelease (u : RetimerUse) (inTime : Bool) (s : State) : Host.Outcome State Fault Refusal :=
  act s (fun c =>
    let fresh := if inTime then (c.retimer u).filling else none
    let c := if fresh.isNone then c.lateUnit u else c
    (c.releaseBlock u fresh).sendWords u)

/-- R15: an intake synchroniser delivers data registered in edge clock domain `d` into the core. -/
def execEdgeDataIntake (d : Fin 40) (data : List (BitVec 32)) (s : State) : Host.Outcome State Fault Refusal :=
  act s (fun c => { c with intakes := Store.set [] c.intakes d (data.map BitVec.toNat) })

end Sys2Proof.Machine
end

