-- ==== Sys2Proof/Machine/Faults.lean ====
section
/-! DEFINITION. The fault collector (R404 to R428): one meaning per row. What it does with a report stands in Settle.lean. -/

namespace Sys2Proof.Machine

/-- R406: no second attempt has taken place within 100 ms, so the fault is reported as lasting. -/
def execSecondAttemptTimeout (src : BitVec 8) (page : BitVec 16) (inst : BitVec 32) (s : State) :
    Host.Outcome State Fault Refusal :=
  act s (fun c =>
    match c.attempt src.toNat page.toNat inst.toNat with
    | none => c
    | some a =>
      if a.standing then c
      else
        let c := (c.dropAttempt a.src a.page a.inst).report ⟨a.src, a.page, a.inst, a.detail, true, a.inj, a.real, [], false⟩
        if a.real then c.updFcu (fun f => { f with attempts := f.attempts ++ [{ a with standing := true }] }) else c)

/-- R411: the hold of destination `d` has lasted more than `MAX_FRAMES` frames. -/
def execHoldLimit (d : Fin 1664) (s : State) : Host.Outcome State Fault Refusal :=
  act s (fun c =>
    let most := c.frd Fcu.maxFrames
    c.updFcu (fun f => { f with holds := f.holds.map (fun h =>
      if h.kind = 0 ∧ h.item = d.val ∧ most ≠ 0 ∧ most < h.frames then { h with black := true } else h) }))

/-- R412: a write to `FCU_ACK`. -/
def execFcuAck (m : Master) (classes : BitVec 16) (s : State) : Host.Outcome State Fault Refusal :=
  act s (fun c => c.guarded m 0 fcuPage 0x54 classes.toNat false (fun c => c.acknowledge classes.toNat))

/-- R414: a write of 1 to `FCU_CTRL.FF_CLR`. -/
def execFfClr (m : Master) (s : State) : Host.Outcome State Fault Refusal :=
  act s (fun c => c.trigger m fcuPage 0x40 1 false Chip.clearFirst)

/-- R416: a write of 1 to `FCU_CTRL.ALIVE_CLR`. -/
def execAliveClr (m : Master) (s : State) : Host.Outcome State Fault Refusal :=
  act s (fun c => c.trigger m fcuPage 0x40 0 false Chip.aliveClear)

/-- R415 to R417: a write to `FCU_HEARTBEAT`. -/
def execHeartbeat (m : Master) (v : BitVec 32) (s : State) : Host.Outcome State Fault Refusal :=
  act s (fun c => c.guarded m 0 fcuPage 0x4C v.toNat false Chip.heartbeat)

/-- R416: 2 ms have passed without a heartbeat, outside a grace period. -/
def execHeartbeatTimeout (s : State) : Host.Outcome State Fault Refusal :=
  act s (fun c => if !c.fcu.beaten ∨ c.fcu.grace ∨ c.fcu.hbStop then c else c.heartbeatMissing)

/-- R417: the grace period of a WARM reset ends without a heartbeat. -/
def execHbGraceExpire (s : State) : Host.Outcome State Fault Refusal :=
  act s (fun c => if c.fcu.grace ∧ c.fcu.beaten ∧ !c.fcu.hbStop then c.heartbeatMissing
                  else c.updFcu (fun f => { f with grace := false }))

/-- R415: half a period of `ALIVE_HZ` has passed. -/
def execAliveToggle (s : State) : Host.Outcome State Fault Refusal :=
  act s (fun c =>
    if c.frd Fcu.aliveRun = 1 ∧ !bit (c.rd Dev.compat) 2 then c.updFcu (fun f => { f with alive := !f.alive }) else c)

/-- R418: `INJECT_ARM`. -/
def execInjectArm (target : BitVec 16) (a0 a1 : BitVec 32) (s : State) : Host.Outcome State Fault Refusal :=
  act s (fun c =>
    let r := cmdInject c target.toNat a0.toNat a1.toNat
    r.2.cmdEnd 0x09 r.1)

/-- R418: an arming has found no access within 1 s. -/
def execInjectExpire (s : State) : Host.Outcome State Fault Refusal :=
  act s (fun c => if c.fcu.arm.isSome then c.disarm.stick fcuPage 8 else c)

/-- R423: the scrubber reads word `a` of the memory of checker `k`, instance `i`, with syndrome `syn`, and again after writing it
back. In an HBM stack `pos` is its position in 1/4,096 of the stack: a position below the last one begins a new pass. -/
def execScrubStep (k : Fin 8) (i : BitVec 16) (a : BitVec 32) (syn again : BitVec 16) (pos : BitVec 12) (s : State) :
    Host.Outcome State Fault Refusal :=
  act s (fun c =>
    let k := k.val
    let i := i.toNat
    if !checkerInstance k i then c
    else
      let w := 2 ^ checkWidth k
      let held := if k = 4 then [(2, (262144 * i + a.toNat % 262144) / 4096)] else []
      let c := if k = 7 ∧ i = fcuPage ∧ 2048 ≤ a.toNat ∧ syn.toNat % w ≠ 0 then c.raise 0x0E fcuPage 0 a.toNat
        else c.memRead k i a.toNat (syn.toNat % w) (again.toNat % w) held (k ≠ 4)
      if 2 ≤ k then c
      else
        let c := if pos.toNat < c.rd (Hbm.pos.nth k) then (c.inc (Hbm.passes.nth k)).stick hbmPage 4 else c
        c.wr (Hbm.pos.nth k) pos.toNat)

end Sys2Proof.Machine
end

