-- ==== Sys2Proof/Machine/Gather.lean ====
section
/-! DEFINITION. Output gathering (R100, R112, R115, R116, R263, R411): the frame starts of an output and its lines. -/

namespace Sys2Proof.Machine

/-- The old format of an `AUTOFMT` output stops, or the new one starts (R116), when the frame start of the output falls at or
after the reference frame of that step. Of several takes the one committed last gives the source (R110). A source whose format has
left the set leaves the output at the format it last carried. -/
def Chip.adoptAt (c : Chip) (o : Nat) : Chip :=
  let as_ := c.xpt.gap.filter (fun a => a.out = o)
  match as_.getLast? with
  | none => c
  | some a =>
    let f := c.rd Xpt.frame
    if !c.inGap o then
      if as_.any (fun a => decide (0 ≤ frameDiff f a.frame)) then
        (c.updXpt (fun x => { x with gap := x.gap.map (fun b => if b.out = o then { b with stopped := true } else b) })).showOutput o
      else c
    else if 0 ≤ frameDiff f ((a.frame + 1) % 2 ^ 32) then
      let c := c.updXpt (fun x => { x with gap := x.gap.filter (fun b => b.out ≠ o) })
      let src := if a.table.isSome then a.src else c.rd (Xpt.airSrc.nth o)
      let amode := if a.table.isSome then a.amode else c.rd (Xpt.airAmode.nth o)
      let fmt := if c.inSet o (c.srcFmt src) then c.srcFmt src else c.rd (Xpt.airFmt.nth o)
      let c := (((c.wr (Xpt.airFmt.nth o) fmt).landRoute o src amode).wr (Xpt.offtake.nth o) 0).judgeMismatch o
      (as_.filterMap Adoption.table).eraseDups.foldl (fun c k => c.salvoLanded k) ((c.showOutput o).countOfftake)
    else c

/-- R100, R116, R275, R411: O(f) of output `o`. The frame sent so far is complete, a hold moves on by one frame, the format
change of an `AUTOFMT` output takes its next step, and a new slot map is taken. -/
def execOutputFrameStart (o : Fin 1152) (s : State) : Host.Outcome State Fault Refusal :=
  act s (fun c =>
    let c := c.takeMap o
    let c := c.adoptAt o
    let c := if (Store.get {} c.outs o).lines.isEmpty then c.instanceBegins 3 o else c
    let held := c.isHeld (0, o)
    let c := { c with outs := Store.upd {} c.outs o (fun x =>
      { x with complete := if held then x.complete else x.lines, lines := [], pace := 0 }) }
    c.destFrameHolds o)

/-- The words that the bank or the synchroniser of a source holds for a line (R82, R86, R87); a synchroniser holds the active
picture, and its other lines are blanking. -/
def Chip.sourceLine (c : Chip) (s line : Nat) (f2 : Bool) : Option (List Nat) :=
  let at_ := fun (ls : List BankLine) => (ls.find? (fun l => l.line = line && l.f2 = f2)).map (fun l => l.words)
  match (if s < 1152 then (c.input s).sync else none) with
  | some n =>
    let y := c.sync n
    if (activeRow y.fmt line).isNone then some (buildLine y.fmt line f2 [] [] [])
    else if c.on (Fsync.locked.nth n) && !y.lost then y.lastRead.head?.map (fun l => l.words) else at_ y.reading
  | none => at_ (c.bank s).lines

/-- The format of the picture that a source carries: that of the frames in its synchroniser while it has one (R88), else its own. -/
def Chip.carriedFmt (c : Chip) (s : Nat) : Nat :=
  match (if s < 1152 then (c.input s).sync else none) with
  | some n => (c.sync n).fmt
  | none => c.srcFmt s

/-- Whether the picture of a source goes on air at an output (R20, R73, R84, R88, R115, R116). -/
def Chip.onAir (c : Chip) (o s : Nat) : Bool :=
  s ≠ noSource && !c.on (Xpt.mismatch.nth o) && c.carriedFmt s = c.rd (Xpt.airFmt.nth o) &&
    (if s < 1152 then c.carries s else c.srcSt s = InSt.timed)

/-- The length of an audio packet that begins a list of words of one stream (R75), 0 where none begins. -/
def audioPacketLen (fmt : Nat) : List Nat → Nat
  | 0 :: 0x3FF :: 0x3FF :: did :: _ :: dc :: _ => if isAudioDid fmt (did % 256) then 7 + dc % 256 else 0
  | _ => 0

/-- Take the audio packets out of one stream of a line: their words stand at blanking (R112). `n` words of a packet are still to
come; the stream's words stand at every `step`-th place of the line from `k` on. -/
def stripStream (fmt step : Nat) : Nat → Nat → List Nat → List Nat
  | _, _, [] => []
  | n + 1, k, _ :: r => blankWord k :: stripStream fmt step n (k + step) r
  | 0, k, w :: r =>
    let len := audioPacketLen fmt (w :: r)
    if len = 0 then w :: stripStream fmt step 0 (k + step) r else blankWord k :: stripStream fmt step (len - 1) (k + step) r

/-- A line without its audio packets (R112): one stream on rasters 0 and 1, luma and chroma streams of their own on the others
(log entry 15). -/
def stripAudio (fmt : Nat) (ws : List Nat) : List Nat :=
  if rasterOf fmt ≤ 1 then stripStream fmt 1 0 0 ws
  else interleave (stripStream fmt 2 0 0 (evens ws)) (stripStream fmt 2 0 1 (odds ws))

/-- Send one line of an output, and keep it as the line last carried (R411). No words: black with silent audio. -/
def Chip.sendLine (c : Chip) (o : Nat) (l : BankLine) : Chip :=
  let c := { c with outs := Store.upd {} c.outs o (fun x => { x with lines := l :: x.lines, last := some l, pays := [] }) }
  c.emit (if l.words.isEmpty then .blackLine o l.line (c.rd (Xpt.airFmt.nth o)) else .line o l.line l.words)

/-- The line that a held output carries (R411): the line last carried until the next frame start, then the last complete frame,
then black. -/
def Chip.heldLine (c : Chip) (o line : Nat) (f2 : Bool) : BankLine :=
  let x : OutFrame := Store.get {} c.outs o
  let first := c.fcu.holds.any (fun h => h.kind = 0 && h.item = o && h.frames = 0)
  let old := if c.heldBlack o then none else if first then x.last else x.complete.find? (fun l => l.line = line && l.f2 = f2)
  ⟨line, f2, (old.map (fun l => l.words)).getD []⟩

/-- The line of a source as an output sends it, read under checker 5 (R112, R419, R422, R423): a line that cannot be corrected,
or reads a poisoned word, is replaced by the line before it. Where a source holds no such line the spec states no words, and they are free. -/
def Chip.pictureLine (c : Chip) (o line : Nat) (f2 : Bool) (word : Nat) (ecc : MemRead) : BankLine × Chip :=
  let syn := ecc.syn.toNat % 256
  let s := c.rd (Xpt.airSrc.nth o)
  let fmt := c.rd (Xpt.airFmt.nth o)
  let last := (Store.get {} c.outs o).last
  let c := c.memRead 5 s word syn (ecc.again.toNat % 256) ((c.destsOf s).map (fun d => (0, d))) true
  let q := if (syn ≠ 0 ∧ !oneBit syn) ∨ c.isPoisoned 5 s word then ((last.map (fun l => l.words)).getD [], c)
    else match c.sourceLine s line f2 with
      | some ws => (ws, c)
      | none => c.fillWords none 0 (List.replicate (wordsPerLine fmt) none)
  let keep := c.rd (Xpt.airAmode.nth o) = 0 ∧ s < 1152 ∧ c.srcSt s = InSt.timed
  (⟨line, f2, if keep then q.1 else stripAudio fmt q.1⟩, q.2)

/-- R14, R20, R112, R115, R116, R188, R263, R282, R411: one line of a running output, which fills its retimer block. A gather that
is late fills none, and the line before it goes out again; `room` sample instants fit the line for the embedder; `word` and `ecc`
are the word address of the read and what its checker sees. DESIGN CHOICE (log entry 15): an output with `AMODE` = EMBED embeds its egress
channels over a line of black too, as R112 and R188 have it: that of an unbound source (R20), of an unrouted output (R97) and of a format
mismatch (R115), where those rules speak of silent audio. -/
def execOutputLineGather (o : Fin 1152) (line : BitVec 12) (f2 late : Bool) (room : BitVec 8) (word : BitVec 32) (ecc : MemRead) (s : State) :
    Host.Outcome State Fault Refusal :=
  act s (fun c =>
    if c.outSt o ≠ 1 ∨ c.inGap o then c
    else
      let src := c.rd (Xpt.airSrc.nth o)
      let q : BankLine × Chip :=
        if c.isHeld (0, o) then (c.heldLine o line.toNat f2, c)
        else if late then
          (⟨line.toNat, f2, (((Store.get {} c.outs o).last).map (fun l => l.words)).getD []⟩, c)
        else if !c.onAir o src then (⟨line.toNat, f2, []⟩, c)
        else c.pictureLine o line.toNat f2 word.toNat ecc
      let fmt := c.rd (Xpt.airFmt.nth o)
      let c := q.2.sendLine o q.1
      let c := if late then c
        else c.fillBlock (.video o) (if q.1.words.isEmpty then buildLine fmt line.toNat f2 [] [] [] else q.1.words)
      if c.rd (Xpt.airAmode.nth o) = 1 ∧ !c.isHeld (0, o) then c.embedLine o line.toNat (c.rd (Xpt.airFmt.nth o)) room.toNat else c)

end Sys2Proof.Machine
end

