-- ==== Sys2Proof/Machine/Lane.lean ====
section
/-! DEFINITION. The Swiwin lane groups (R35 to R70): one meaning per row. -/

namespace Sys2Proof.Machine

/-! ## Sending -/

/-- The training code that a group sends (R58): DATA begins with a frame whose `FSEQ` is 0. -/
def Chip.nextTrn (c : Chip) (g fseq : Nat) : Nat :=
  match c.grpState g with
  | 6 => if fseq = 0 ∨ (c.grp g).txTrn = 0 then 0 else 3
  | 5 => 3
  | 4 => 2
  | _ => 1

/-- Take the next word of the lines that wait in a sub-stream, and whether it is marked (R53). -/
def txPop : List TxLine → Option ((Nat × Bool) × List TxLine)
  | [] => none
  | l :: r => match l.words with
    | [] => txPop r
    | w :: ws => some ((w, l.fresh), ⟨false, ws⟩ :: r)

/-- Take up to `n` words. -/
def txTake : Nat → List TxLine → List (Nat × Bool) × List TxLine
  | 0, ls => ([], ls)
  | n + 1, ls => match txPop ls with
    | none => ([], [])
    | some (w, r) => (w :: (txTake n r).1, (txTake n r).2)

/-- Words in ascending slot order, five to a slot (R53, R54). -/
def fillSlots : List Nat → List (Nat × Bool) → List (Nat × TxSlot)
  | [], _ => []
  | k :: ks, ws =>
    (k, ⟨(ws.take 5).map Prod.fst, (ws.take 5).findIdx? Prod.snd⟩) :: fillSlots ks (ws.drop 5)

/-- One output's words for the group frame (R53, R54, R99, R116, R275): the accumulator gains `PACE` and its integer part is
the number of words; what its slots cannot hold is lost. An output that is not running, or in the gap of a format change,
leaves every slot at `WCNT` 0. -/
def Chip.formSubstream (c : Chip) (g o : Nat) : Chip :=
  let id := c.rd (Xpt.ssid.nth o).live
  let ks := (List.range 128).filter (fun k =>
    c.on (((Lgrp.txUsed.on g).nth k).live) && c.rd (((Lgrp.txSsid.on g).nth k).live) = id)
  let x : OutFrame := Store.get {} c.outs o
  match (if c.outSt o = 1 ∧ !c.inGap o then c.mapRecord o (c.rd (Xpt.airFmt.nth o)) else none) with
  | none => { c with outs := Store.upd {} c.outs o (fun x => { x with tx := [] }) }
  | some r =>
    let acc := x.pace + r.getD 3 0
    let q := txTake (acc / 2 ^ 24) x.tx
    let c := { c with outs := Store.upd {} c.outs o (fun x => { x with tx := q.2, pace := acc % 2 ^ 24 }) }
    c.updGrp g (fun y => { y with txSlots := (fillSlots ks q.1).foldl (fun t p => Store.set {} t p.1 p.2) y.txSlots })

/-- The slots of an I/O group's next group frame are formed from the outputs bound to it. -/
def Chip.formSlots (c : Chip) (g : Nat) : Chip :=
  (c.xpt.bound.filter (fun o => c.rd (Xpt.transport.nth o).live = 1 && c.rd (Xpt.group.nth o).live = g)).foldl
    (fun c o => c.formSubstream g o) (c.updGrp g (fun x => { x with txSlots := [] }))

/-- The 256 bits of a cell (R377): W0 with `TYPE`, `SUB` and `SEQ`, then W1 to W7. -/
def cellBits (x : Nat × Nat × List Nat) : Nat :=
  let sub := x.1 = 2 ∨ x.1 = 6
  let ws := if sub then x.2.2.drop 1 else x.2.2
  let w0 := x.1 + (if sub then 256 * (x.2.2.headD 0 % 256) else 0) + 65536 * x.2.1
  ((w0 :: (ws ++ List.replicate 7 0).take 7)).foldl (fun a w => a * 2 ^ 32 + w % 2 ^ 32) 0

/-- While the device yields, a YIELD cell is among the cells of every LGTW frame (R390). -/
def Chip.yieldCell (c : Chip) : Chip :=
  if c.pairState = 4 ∧ !c.twin.tx.any (fun x => x.1 = 6 && x.2.2.headD 0 = 3) then
    { c with twin := { c.twin with tx := putCell (6, 0, c.yieldWords c.twin.yieldCause) c.twin.tx } } else c

/-- The 29 cells of an LGTW group frame are taken from those that wait, and IDLE cells fill it (R377). -/
def Chip.formCells (c : Chip) : Chip :=
  let c := c.yieldCell
  let bits_ := ((c.twin.tx.map cellBits ++ List.replicate 29 0).take 29).foldl (fun a w => a * 2 ^ 256 + w) 0
  { c with twin := { c.twin with tx := c.twin.tx.drop 29 } }.updGrp 32 (fun x => { x with txCells := bits_ })

/-- The values that all eight lanes of a group frame send alike are set with lane 0 (R48, R49, R379), and the slots of its
lanes are formed. -/
def Chip.openGroupFrame (c : Chip) (g fseq : Nat) : Chip :=
  let trn := c.nextTrn g fseq
  let msg := if fseq % 8 = 0 then c.ownQmsg (g = 32) ((c.grp g).txMsg.getD 4 255 + 1) else (c.grp g).txMsg
  let c := c.updGrp g (fun x => { x with txTrn := trn, txMsg := msg, txHealth := c.rd Twin.health })
  let c := (c.wr (Lgrp.txActive.on g) (b2n c.sendsActive)).wr (Lgrp.txHold.on g) (b2n c.sendsHold)
  let c := if trn ≠ 0 then c else if g < 32 then c.formSlots g else c.formCells
  if g = 32 ∧ fseq = 0 ∧ !c.isStandby then c.incWrap Twin.epoch else c

/-- The payload and the `MARK` bits of a lane frame (R47, R52, R57, R377): zeros in training, the lane's part of the cells on LGTW, else
the slots of the group frame; a slot without words is sent with `WCNT` 0 and no marker (R56). -/
def Chip.lanePayload (c : Chip) (g l : Nat) : Nat × Nat :=
  if (c.grp g).txTrn ≠ 0 then (0, 0)
  else if g = 32 then ((c.grp 32).txCells / 2 ^ (928 * (7 - l)) % 2 ^ 928, 0)
  else (List.range 16).foldl (fun a j =>
    let x : TxSlot := Store.get {} (c.grp g).txSlots (16 * l + j)
    (a.1 + slotBits x * 2 ^ (870 - 58 * j), a.2 + b2n x.mark.isSome * 2 ^ j)) (0, 0)

/-- R41: one link frame is sent on a lane of an enabled group: header, payload, CRC, stuff bits and fill bits. With
lane 0 the payload of the whole group frame is formed. -/
def execLinkFrameSend (g : Fin 33) (l : Fin 8) (s : State) : Host.Outcome State Fault Refusal :=
  act s (fun c =>
    if !c.enabled (lgrpPage g) then c
    else
      let x := c.lane g l
      let c := if l.val = 0 then c.openGroupFrame g x.txFseq else c
      let p := c.lanePayload g l
      let y := c.grp g
      let hdr := header x.txFseq (c.rd (Lgrp.txActive.on g)) (c.rd (Lgrp.txHold.on g)) y.txHealth y.txTrn
        (y.txMsg.getD (x.txFseq % 8) 0) p.2 l
      let plain := bitsMsb 64 hdr ++ bitsMsb 928 p.1
      let framed := plain ++ bitsMsb 32 (crc32c plain)
      let sc := scramble (if x.txFseq = 0 then laneSeed l else x.txScr) (framed.drop 16)
      let st := stuff ⟨x.txRun, x.txLast⟩ (framed.take 16 ++ sc.1)
      let fill := fillBits (1072 - st.1.length) st.2.last
      let run := fill.foldl Run.next st.2
      (c.updLane g l (fun z => { z with txScr := sc.2, txRun := run.n, txLast := run.last, txFseq := (x.txFseq + 1) % 256 })).emit
        (.linkFrame g l (st.1 ++ fill)))

/-! ## Receiving -/

/-- What a received lane frame shows: framed bits descrambled, the source of its fault (0 good) and the CRC syndrome. -/
structure LaneFrame where
  hdr : Nat
  pay : Nat
  src : Nat
  syndrome : Nat
  scr : Nat
  fseq : Nat
  run : Run

/-- Read one period of a lane (R42, R61). The receiver's scrambler loads at `FSEQ` 0 as received; when the frame proves bad
it runs on by the receiver's own count of frames. DESIGN CHOICE (log entry 11): of a frame with several faults only the first
counts, in the order `SYNC`, stuffing, CRC; and a training payload that differs from the scrambler sequence (R57) has no effect of
its own beside what the CRC shows. -/
def readFrame (x : Lane) (l : Nat) (inv : Bool) (frame : List Bool) : LaneFrame :=
  let d := destuff ⟨x.rxRun, x.rxLast⟩ (frame.map (fun b => b != inv))
  let head := natMsb (d.1.take 16)
  let sync := head / 256 = 0xA7
  let own := (x.rxFseq + 1) % 256
  let fseq := if sync then head % 256 else own
  let sc := scramble (if fseq = 0 then laneSeed l else x.rxScr) (d.1.drop 16)
  let plain := d.1.take 16 ++ sc.1.take 976
  let syn := natMsb (sc.1.drop 976) ^^^ crc32c plain
  let src := if !sync then 0x11 else if d.2.1 then 0x12 else if syn ≠ 0 then 0x10 else 0
  let good := src = 0
  let scr := if good ∨ fseq = own then sc.2
    else (scramble (if own = 0 then laneSeed l else x.rxScr) (d.1.drop 16)).2
  { hdr := natMsb (plain.take 64), pay := natMsb (plain.drop 64), src := src, syndrome := syn, scr := scr,
    fseq := if good then fseq else own, run := d.2.2 }

/-- The sticky bit of a lane fault (R70). -/
def laneSticky (src : Nat) : Nat := if src = 0x10 then 0 else if src = 0x11 then 1 else 2

/-- The counter of a lane fault (R61). -/
def laneCounter (g src : Nat) : Fld :=
  if src = 0x10 then Lgrp.crcCnt.on g else if src = 0x11 then Lgrp.syncCnt.on g else Lgrp.stuffCnt.on g

/-- Classify a lane frame (R61, R406): the second attempt of a bad frame is the next frame on the same lane, whatever its
fault. `b` is the fault's source, 0 for a good frame. -/
def Chip.classifyLane (c : Chip) (g l b : Nat) (inj : Bool) : Chip :=
  let x := c.lane g l
  let page := lgrpPage g
  let key := laneSrc g x.src
  let c := match c.attempt key page l with
    | none => if b = 0 then c else c.resolve (laneSrc g b) page l 0 true inj
    | some a =>
      if a.real ∨ b = 0 then c.resolve key page l 0 (b ≠ 0) inj
      else (c.resolve key page l 0 false false).resolve (laneSrc g b) page l 0 true inj
  let c := if b = 0 ∧ x.badRun = 1 then c.inc (Lgrp.transCnt.on g)
    else if b ≠ 0 ∧ x.badRun = 1 then c.inc (Lgrp.lastCnt.on g) else c
  let c := c.wr ((Lgrp.lasting.on g).nth l) (b2n (b ≠ 0 ∧ x.badRun ≠ 0))
  let c := c.updLane g l (fun x => { x with badRun := if b = 0 then 0 else x.badRun + 1,
                                            src := if b ≠ 0 ∧ x.badRun = 0 then b else if inj ∧ b = 0 then 0x10 else x.src })
  if inj ∧ b = 0 then (c.judge (laneSrc g 0x10) page l 0 false true).stick page 0 else c

/-- A received lane frame is good or bad, counted and classified (R61), with its checker (R419). -/
def Chip.judgeFrame (c : Chip) (g l src syndrome : Nat) : Chip :=
  let k := c.check 8 g syndrome
  let c := if src = 0 then k.c else (k.c.inc (laneCounter g src)).stick (lgrpPage g) (laneSticky src)
  let c := c.wr (Lgrp.laneGood.on g) (setBit (c.rd (Lgrp.laneGood.on g)) l (src = 0))
  c.classifyLane g l src k.inj

/-- A frame of a lane that is being aligned (R57, R58): `SYNC` or its inverse is searched for, the scrambler state is learnt from
the payload of a training frame, whose zeros show the sequence itself, and the frames in succession with `SYNC`, rising `FSEQ`, the
lane's own number and a good CRC are counted. While `SYNC` is searched for it has no expected position, and nothing is judged; from the
first frame found on, each is good or bad as R61 states. -/
def Chip.alignFrame (c : Chip) (g l : Nat) (frame : List Bool) : Chip :=
  let x := c.lane g l
  let inv := c.on ((Lgrp.inv.on g).nth l)
  let d := destuff ⟨x.rxRun, x.rxLast⟩ (frame.map (fun b => b != inv))
  let head := natMsb (d.1.take 16)
  let f := readFrame x l inv frame
  let c := if f.src = 0 ∨ x.alignRun ≠ 0 then c.judgeFrame g l f.src f.syndrome
    else c.wr (Lgrp.laneGood.on g) (setBit (c.rd (Lgrp.laneGood.on g)) l false)
  if head / 256 = 0x58 then
    (c.wr ((Lgrp.inv.on g).nth l) (b2n !inv)).updLane g l (fun x =>
      { x with alignRun := 0, rxRun := d.2.2.n, rxLast := !d.2.2.last })
  else
    let good := f.src = 0 && bits f.hdr 7 5 = l && (x.alignRun = 0 || f.fseq = (x.rxFseq + 1) % 256)
    let seen := natMsb ((d.1.drop 961).take 31)
    c.updLane g l (fun x =>
      { x with rxScr := if good then f.scr else (scramble seen (List.replicate 32 false)).2,
               rxFseq := if good then f.fseq else head % 256, alignRun := if good then x.alignRun + 1 else 0,
               rxRun := f.run.n, rxLast := f.run.last })

/-- Whether a lane has shown what FRAMEALIGN asks for (R58): four such frames in succession. -/
def Chip.laneAligned (c : Chip) (g l : Nat) : Bool := decide (4 ≤ (c.lane g l).alignRun)

/-- R61: a lane frame of 1,072 bits is received: on a lane that is being aligned it is searched, on an aligned one it is good or
bad, counted and classified. -/
def execLaneFrameReceive (g : Fin 33) (l : Fin 8) (frame : List Bool) (s : State) : Host.Outcome State Fault Refusal :=
  act s (fun c =>
    if c.grpState g < 3 then c
    else if c.grpState g = 3 ∨ c.laneBusy g l then c.alignFrame g l frame
    else
      let f := readFrame (c.lane g l) l (c.on ((Lgrp.inv.on g).nth l)) frame
      let good := f.src = 0
      let c := c.updLane g l (fun x => { x with rxScr := f.scr, rxRun := f.run.n, rxLast := f.run.last, rxFseq := f.fseq,
                                                   rxGood := good, rxHdr := if good then f.hdr else x.rxHdr,
                                                   rxPay := if good then f.pay else x.rxPay })
      c.judgeFrame g l f.src f.syndrome)

/-- The good lanes of the group frame (R48). -/
def Chip.goodLanes (c : Chip) (g : Nat) : List Nat := (List.range 8).filter (fun l => (c.lane g l).rxGood && !c.laneBusy g l)

/-- Whether some lanes carry the same value of a part of their headers. -/
def Chip.lanesAgree (c : Chip) (g : Nat) (lanes : List Nat) (hi lo : Nat) : Bool :=
  match lanes with
  | [] => true
  | a :: r => r.all (fun l => bits (c.lane g l).rxHdr hi lo = bits (c.lane g a).rxHdr hi lo)

/-- Whether some lanes agree in every field that a group frame carries alike (R45, R47, R48): `LSIDE` to `QBYTE` from an I/O card,
`ACTIVE`, `HOLD`, `HEALTH`, `TRN` and `QBYTE` on LGTW. Bits that are reserved in that direction are ignored. -/
def Chip.controlAgrees (c : Chip) (g : Nat) (lanes : List Nat) : Bool :=
  if g = 32 then c.lanesAgree g lanes 47 46 && c.lanesAgree g lanes 43 42 && c.lanesAgree g lanes 34 24
  else c.lanesAgree g lanes 45 24

/-- Take a byte of a quality message (R49); a byte from a frame without an agreed value spoils its message. A whole message
goes to the FABRIC candidate from its group and to the TWIN candidate from LGTW. -/
def Chip.qbyte (c : Chip) (g fseq : Nat) (b : Option Nat) : Chip :=
  let i := fseq % 8
  let x := c.grp g
  let ok := b.isSome && (i = 0 || (x.qOk && x.qBuf.length = i))
  let buf := (if i = 0 then [] else x.qBuf) ++ [b.getD 0]
  let c := c.updGrp g (fun x => { x with qBuf := buf, qOk := ok })
  if i = 7 ∧ ok ∧ buf.length = 8 then
    (if g = 32 then c.qualityMessage 7 buf else if c.rd MerSel.fabGrp = g then c.qualityMessage 6 buf else c)
  else c

/-- Apply the agreed control words of a group frame (R47, R48, R51). A mark is taken from the group nominated as the FABRIC
reference only (R50). -/
def Chip.applyControl (c : Chip) (g hdr : Nat) : Chip :=
  let c := c.wr (Lgrp.rxTrn.on g) (bits hdr 34 32)
  let c := c.wr (Lgrp.health.on g) (bits hdr 43 42)
  if g = 32 then (c.wr (Lgrp.rxActive.on g) (bits hdr 47 47)).wr (Lgrp.rxHold.on g) (bits hdr 46 46)
  else
    let side := bits hdr 45 44
    let c := if c.rd (Lgrp.lside.on g) = side then c else c.stick (lgrpPage g) 11
    let c := if hdr.testBit 41 ∧ c.rd MerSel.fabGrp = g then c.updMer (fun m => { m with fabMark := some (bits hdr 40 35) }) else c
    c.wr (Lgrp.lside.on g) side

/-- Deliver the slots of the good lanes to their sub-streams in group slot order (R53, R56). -/
def Chip.deliverSlots (c : Chip) (g : Nat) (lanes : List Nat) : Chip :=
  let slot := fun k => slotOf (c.lane g (k / 16)).rxPay (k % 16)
  let mark := fun k => bit (c.lane g (k / 16)).rxHdr (8 + k % 16)
  let used := fun k => c.on (((Lgrp.rxUsed.on g).nth k).live)
  let ok := (List.range 128).filter (fun k => lanes.contains (k / 16) && used k && !slotBad (slot k) (mark k))
  let ssids := (ok.map (fun k => c.rd (((Lgrp.rxSsid.on g).nth k).live))).dedup
  let c2 := lanes.foldl (fun d l =>
    let bad := (List.range 16).any (fun j => used (16 * l + j) && slotBad (slot (16 * l + j)) (mark (16 * l + j)))
    let d := d.judge (laneSrc g 0x1A) (lgrpPage g) (l + 65536) 0 bad
    if bad then d.stick (lgrpPage g) 13 else d) c
  ssids.foldl (fun d id =>
    let r := (ok.filter (fun k => c.rd (((Lgrp.rxSsid.on g).nth k).live) = id)).foldl
      (fun (a : List Nat × List Nat) k =>
        (a.1 ++ slotWordsOf (slot k), if mark k then a.2 ++ [a.1.length + bits (slot k) 54 52] else a.2)) ([], [])
    d.emit (.words g id r.1 r.2)) c2

/-! ## Slot tables -/

/-- R55: a write of 1 to `LGRP_SLOT_COMMIT.COMMIT`. -/
def execSlotCommit (m : Master) (g : Fin 33) (s : State) : Host.Outcome State Fault Refusal :=
  act s (fun c => c.trigger m (lgrpPage g) 0x54 0 false (fun c => c.wr (Lgrp.slotCommit.on g) 1))

/-- The sub-streams whose receive slots differ between the shadow and the table in use (R55). -/
def Chip.changedSsids (c : Chip) (g : Nat) : List Nat :=
  (List.range 128).filter (fun id => (List.range 128).any (fun k =>
    let u := (Lgrp.rxUsed.on g).nth k
    let i := (Lgrp.rxSsid.on g).nth k
    (c.on u && c.rd i = id) != (c.on u.live && c.rd i.live = id)))

/-- R55: the superframe start at which both shadows come into use. A changed receive sub-stream restarts with a line break to ingest.
DESIGN CHOICE (log entry 11): the manual does not say what a restart is for a changed transmit sub-stream; it goes on with the words that
wait for it, from the middle of their line. -/
def execSlotCommitApply (g : Fin 33) (s : State) : Host.Outcome State Fault Refusal :=
  act s (fun c =>
    if !c.on (Lgrp.slotCommit.on g) then c
    else
      let ids := c.changedSsids g
      let c := (c.copyWords 0 (lgrpPage g) 0x400 0x800 8).wr (Lgrp.slotCommit.on g) 0
      ids.foldl (fun c id => c.emit (.lineBreak g id)) (c.stick (lgrpPage g) 14))

/-! ## Training -/

/-- R58: the clock lane has been present for 1 us within its limits. LGTW stays DOWN on a single device (R374). -/
def execLaneClockPresent (g : Fin 33) (s : State) : Host.Outcome State Fault Refusal :=
  act s (fun c =>
    if c.grpState g = 0 ∧ c.enabled (lgrpPage g) ∧ (c.grp g).wait = 0 ∧ (g.val < 32 ∨ c.paired) then c.setGrp g 1 0 else c)

/-- R58: all eight lanes show transitions. -/
def execEyeEdgesFound (g : Fin 33) (s : State) : Host.Outcome State Fault Refusal :=
  act s (fun c => if c.grpState g = 1 then c.setGrp g 2 0 else c)

/-- R58, R59: the main samplers are set, of all lanes of a group in BITALIGN or of the lanes that retrain alone in UP; `inverted`
marks the lanes received inverted. -/
def execSamplerTrimSet (g : Fin 33) (trims : List (BitVec 7)) (inverted : BitVec 8) (s : State) :
    Host.Outcome State Fault Refusal :=
  act s (fun c =>
    let st := c.grpState g
    let lanes := if st = 2 then List.range 8 else if st = 6 then (List.range 8).filter (fun l => c.laneBusy g l) else []
    lanes.foldl (fun c l =>
      ((c.wr ((Lgrp.phase.on g).nth l) (trims.getD l 0).toNat).wr ((Lgrp.inv.on g).nth l) (b2n (bit inverted.toNat l))).updLane g l
        (fun x => { x with alignRun := 0 }))
      (if st = 2 then c.setGrp g 3 0 else c))

/-- R58: every lane has shown four frames with `SYNC`, rising `FSEQ`, its `LANE` and a good CRC. -/
def execFrameAligned (g : Fin 33) (s : State) : Host.Outcome State Fault Refusal :=
  act s (fun c => if c.grpState g = 3 ∧ (List.range 8).all (fun l => c.laneAligned g l) then c.setGrp g 4 0 else c)

/-- R58: the lanes are delayed to equal `FSEQ`; `skews` are their delays in UI. More than 2,048 UI between two lanes does not
leave DESKEW. -/
def execDeskewDone (g : Fin 33) (skews : List (BitVec 12)) (s : State) : Host.Outcome State Fault Refusal :=
  act s (fun c =>
    let d := (List.range 8).map (fun l => (skews.getD l 0).toNat)
    if c.grpState g ≠ 4 ∨ !d.all (fun a => d.all (fun b => a ≤ b + 2048)) then c
    else (List.range 8).foldl (fun c l => c.wr ((Lgrp.skew.on g).nth l) (skews.getD l 0).toNat) (c.setGrp g 5 0))

/-- R58: `ALIGNED_ALL` has come on all lanes for 1,024 frames; the group enters UP with a fill of 16 words (R38). -/
def execHandshakeDone (g : Fin 33) (s : State) : Host.Outcome State Fault Refusal :=
  act s (fun c => if c.grpState g = 5 then ((c.setGrp g 6 0).setFill g 16).stick (lgrpPage g) 10 else c)

/-- R58: the clock lane has been lost for 100 ns: source `0x14`. -/
def execLaneClockLost (g : Fin 33) (s : State) : Host.Outcome State Fault Refusal :=
  act s (fun c => if c.grpState g = 0 then c else (c.laneRaise g 0x14 8 4).downGroup g 0)

/-- R60: the group has not reached UP in time: source `0x17`, then a wait in DOWN. -/
def execTrainTimeout (g : Fin 33) (s : State) : Host.Outcome State Fault Refusal :=
  act s (fun c =>
    if c.grpState g = 0 ∨ c.grpState g = 6 then c
    else (c.laneRaise g 0x17 8 7).downGroup g (if c.on (Lgrp.autoRetrain.on g) then 1 else 2))

/-- R60: the 100 ms in DOWN are over. -/
def execRetrainDelayExpire (g : Fin 33) (s : State) : Host.Outcome State Fault Refusal :=
  act s (fun c => if (c.grp g).wait = 1 then c.updGrp g (fun x => { x with wait := 0 }) else c)

/-- R59: a lane has been lasting-failed for `LOSS_FRAMES` frames: it retrains alone, or the whole group if another lane is
already retraining. -/
def execLaneLossLimit (g : Fin 33) (l : Fin 8) (s : State) : Host.Outcome State Fault Refusal :=
  act s (fun c =>
    if c.grpState g ≠ 6 ∨ c.laneBusy g l ∨ !c.on ((Lgrp.lasting.on g).nth l) ∨
        (c.lane g l).badRun ≤ orElse0 (c.rd (Lgrp.lossFrames.on g)) 1 then c
    else if c.rd (Lgrp.laneRetrain.on g) ≠ 0 then c.wholeRetrain g
    else c.setLaneBusy g l true)

/-- R59: a lane that has gone through FRAMEALIGN re-joins at its recorded skew; the elastic buffer is set to 16 words (R38). -/
def execLaneRejoin (g : Fin 33) (l : Fin 8) (s : State) : Host.Outcome State Fault Refusal :=
  act s (fun c =>
    if c.grpState g = 6 ∧ c.laneBusy g l ∧ c.laneAligned g l then
      ((c.setLaneBusy g l false).wr ((Lgrp.laneRetrainReq.on g).nth l) 0).setFill g 16
    else c)

/-- R59: a lane has not re-joined within 1 ms. -/
def execLaneRejoinTimeout (g : Fin 33) (l : Fin 8) (s : State) : Host.Outcome State Fault Refusal :=
  act s (fun c =>
    if c.laneBusy g l then ((c.wr ((Lgrp.laneRetrainReq.on g).nth l) 0).wholeRetrain g) else c)

/-- `LGRP_LANEn.RETRAIN` is written 1 (R59). -/
def Chip.laneRetrainGo (c : Chip) (g l : Nat) : Chip :=
  if c.grpState g = 6 ∧ !c.laneBusy g l then (c.setLaneBusy g l true).wr ((Lgrp.laneRetrainReq.on g).nth l) 1 else c

/-- `LGRP_CTRL.TRAIN` is written 1 (R58, R60). In DOWN it ends a wait: DESIGN CHOICE (log entry 11), the group stays in DOWN with
`TRAIN` reading 1 until the clock lane is present. -/
def Chip.trainGo (c : Chip) (g : Nat) : Chip :=
  if !c.enabled (lgrpPage g) then c
  else if c.grpState g = 0 then (c.updGrp g (fun x => { x with wait := 0 })).wr (Lgrp.train.on g) 1
  else (c.setGrp g 1 0).wr (Lgrp.train.on g) 1

/-- R59: a write of 1 to `LGRP_LANEn.RETRAIN`. -/
def execLaneRetrain (m : Master) (g : Fin 33) (l : Fin 8) (s : State) : Host.Outcome State Fault Refusal :=
  act s (fun c => c.trigger m (lgrpPage g) (0x60 + 4 * l) 21 false (fun c => c.laneRetrainGo g l))

/-- R58, R60: a write of 1 to `LGRP_CTRL.TRAIN`: a whole-group retrain from CLOCK, or the end of a wait in DOWN. -/
def execGroupTrain (m : Master) (g : Fin 33) (s : State) : Host.Outcome State Fault Refusal :=
  act s (fun c => c.trigger m (lgrpPage g) 0x40 0 false (fun c => c.trainGo g))

/-! ## Eye scan -/

/-- `START` of an eye scan is written 1 (R66); ignored while a scan of the group runs. -/
def Chip.eyeStartGo (c : Chip) (g : Nat) : Chip :=
  if c.on (Lgrp.eyeStart.on g) then c
  else
    let lane := c.rd (Lgrp.eyeLane.on g)
    (c.wr (Lgrp.eyeStart.on g) 1).updGrp g (fun x => { x with eyePos := 0, scanLane := lane })

/-- R66: a write of 1 to `START`; ignored while a scan of the group runs. -/
def execEyeScanStart (m : Master) (g : Fin 33) (s : State) : Host.Outcome State Fault Refusal :=
  act s (fun c => c.trigger m (lgrpPage g) 0x90 3 false (fun c => c.eyeStartGo g))

/-- A scan ends: `LANE` and `PARTIAL` of the result, and sticky bit `EYE_DONE` (R66, R70). DESIGN CHOICE (log entry 11): an aborted
scan leaves `WIDTH` and `HEIGHT` of the scan before it. -/
def Chip.eyeEnd (c : Chip) (g : Nat) (aborted : Bool) : Chip :=
  let lane := (c.grp g).scanLane
  (((c.wr (Lgrp.eyeStart.on g) 0).wr (Lgrp.eyeResLane.on g) lane).wr (Lgrp.eyePartial.on g) (b2n aborted)).stick (lgrpPage g) 12

/-- `ABORT` of an eye scan is written 1 (R66). -/
def Chip.eyeAbortGo (c : Chip) (g : Nat) : Chip := if c.on (Lgrp.eyeStart.on g) then c.eyeEnd g true else c

/-- R66: a write of 1 to `ABORT` stops a scan and keeps the points counted so far. -/
def execEyeScanAbort (m : Master) (g : Fin 33) (s : State) : Host.Outcome State Fault Refusal :=
  act s (fun c => c.trigger m (lgrpPage g) 0x90 4 false (fun c => c.eyeAbortGo g))

/-- The longest run of zeros in a list of counts. -/
def longestZeros (l : List Nat) : Nat :=
  (l.foldl (fun (a : Nat × Nat) v => if v = 0 then (a.1 + 1, max a.2 (a.1 + 1)) else (0, a.2)) (0, 0)).2

/-- Write `WIDTH` and `HEIGHT` (R66): phase p and voltage v stand at index (p + 32) * 64 + (v + 32). -/
def Chip.eyeResult (c : Chip) (g : Nat) : Chip :=
  let at_ := fun i => c.rd ((Lgrp.eyeCount.on g).nth i)
  (c.wr (Lgrp.eyeWidth.on g) (longestZeros ((List.range 65).map (fun p => at_ (p * 64 + 32))))).wr
    (Lgrp.eyeHeight.on g) (longestZeros ((List.range 64).map (fun v => at_ (32 * 64 + v))))

/-- R66: the dwell of a scan point ends with a count of disagreements; after the last point the results are written. -/
def execEyePointDone (g : Fin 33) (count : BitVec 32) (s : State) : Host.Outcome State Fault Refusal :=
  act s (fun c =>
    if !c.on (Lgrp.eyeStart.on g) then c
    else
      let i := (c.grp g).eyePos
      let c := (c.wr ((Lgrp.eyeCount.on g).nth i) count.toNat).updGrp g (fun x => { x with eyePos := i + 1 })
      if i + 1 = 4160 then (c.eyeResult g).eyeEnd g false else c)

/-- R67: `INTERVAL` ms have passed: the next lane is checked, unless a full scan runs. DESIGN CHOICE (log entry 11): the monitor
rests while the group is not UP. -/
def execEyeMonitorTick (g : Fin 33) (s : State) : Host.Outcome State Fault Refusal :=
  act s (fun c =>
    if c.on (Lgrp.monEn.on g) ∧ !c.on (Lgrp.eyeStart.on g) ∧ c.grpState g = 6 then
      c.updGrp g (fun x => { x with monLane := (x.monLane + 1) % 8, monBusy := true })
    else c)

/-- R67: a monitor point ends with a count; a count other than 0 is source `0x18`. -/
def execEyeMonitorDone (g : Fin 33) (point : Fin 4) (count : BitVec 32) (s : State) : Host.Outcome State Fault Refusal :=
  act s (fun c =>
    if !(c.grp g).monBusy then c
    else
      let c := if count = 0 then c else c.laneRaise g 0x18 (c.grp g).monLane 8
      if point.val = 3 then c.updGrp g (fun x => { x with monBusy := false }) else c)

end Sys2Proof.Machine
end

