-- ==== Sys2Proof/Machine/Mirrored.lean ====
section
/-! DEFINITION. Which fields are mirrored in a pair (R380; the lists of R34, R68, R93, R95, R96, R123, R161, R199, R223, R256, R284,
R317, R365, R401, R403, R425, R486). -/

namespace Sys2Proof.Machine

/-- Whether a register of a page's body holds mirrored fields; `f` is the field. -/
def mirroredReg (p : Nat) (f : Fld) : Bool :=
  let o := f.off
  if 0x20 ≤ p ∧ p < 0x40 then (o = 0x40 && f.lo = 1) || o = 0x4C || o = 0x98 || (0x400 ≤ o && o < 0x800)
  else if 0x48 ≤ p ∧ p ≤ 0x4F then (o = 0x40 && f.lo ≠ 8) || o = 0x48 || o = 0x4C
  else if 0x80 ≤ p ∧ p ≤ 0xBF then
    o = 0x40 || o = 0x44 || o = 0x48 || o = 0x58 || o = 0x5C || (0x100 ≤ o && o < 0x240) || 0x800 ≤ o
  else if 0xC0 ≤ p ∧ p ≤ 0xCF then o = 0x40 || (0x4C ≤ o && o < 0x60)
  else if 0xE0 ≤ p ∧ p ≤ 0x11F then o = 0x40 || o = 0x68 || o = 0x70
  else if 4 ≤ p ∧ p ≤ 7 then true
  else match p with
  | 0x3 => o = 0x48 || o = 0x6C || o = 0x70
  | 0x10 => f.acc = .rw && !(o = 0x40 && f.lo = 0)
  | 0x11 => f.acc = .rw || o = 0x68
  | 0x12 | 0x13 => f.acc = .rw
  | 0x14 => o = 0x58 || o = 0x5C || 0x100 ≤ o
  | 0x51 => 0x44 ≤ o && o ≤ 0x4C
  | 0x60 => o = 0x40 || o = 0x48 || o = 0x4C || (0x100 ≤ o && o < 0x180)
  | 0x70 => o = 0x40 || (0x50 ≤ o && o < 0x60)
  | 0x78 | 0xD8 | 0x128 => o = 0x40 || (p = 0x128 && o = 0x4C)
  | 0xD0 | 0xD4 => o = 0x40 || 0x100 ≤ o
  | 0x120 => o = 0x40 || o = 0x48 || o = 0x6C
  | 0x129 => o = 0x40 || o = 0x60
  | _ => false

/-- Whether a word of a page's table window holds mirrored fields. -/
def mirroredEntry (p : Nat) (f : Fld) : Bool :=
  let i := f.off
  if 0x80 ≤ p ∧ p ≤ 0xBF then true
  else match p with
  | 0x50 => (i < 131072 && i % 8 < 4) || (131072 ≤ i && i < 196608 && i % 4 < 2) || 262144 ≤ i
  | 0x51 => i < 512 && i % 8 < 6
  | 0x60 => i < 9728 && i % 8 < 2
  | 0x61 => i % 4 < 2
  | 0x70 => i < 4608 && i % 4 < 2 || 4608 ≤ i
  | 0x78 => i % 4 = 0
  | 0xD0 | 0xD4 | 0xD8 | 0x129 => true
  | _ => false

/-- Whether a field is mirrored (R380): one that software can write, and the pages' lists name it. -/
def mirroredFld (p : Nat) (f : Fld) : Bool :=
  f.acc ≠ .ro && f.acc ≠ .rwl && (if f.space = 0 then mirroredReg p f else mirroredEntry p f)

/-- Whether a word of a page's body holds the Keeper's settings and status (R151, R161). -/
def keeperWord (p sp off : Nat) : Bool := sp = 0 && decide (0x80 ≤ p ∧ p ≤ 0xBF) && (off = 0x68 || off = 0x6C || off = 0x70 || off = 0x74)

/-- Whether a resync sets a field to its COLD value and copies it (R383): the mirrored ones, and the Keeper's. -/
def copiedFld (p : Nat) (f : Fld) : Bool := mirroredFld p f || keeperWord p f.space f.off

/-- Tables without field records that are mirrored whole: gain words, the image buffer, a Nova core's window (R223, R284, R256). -/
def mirroredWhole (p idx : Nat) : Bool :=
  (p = mixPage && 1048576 ≤ idx) || p = schedPage || (0xE0 ≤ p && p ≤ 0x11F)

/-- Whether `PAGE_CTRL.ENABLE` of a page is mirrored (R486). -/
def enableMirrored (p : Nat) : Bool := enableWritable p && p ≠ 0x40

/-- Whether a page performs a BLOCK reset (R485). -/
def blockResets (p : Nat) : Bool := pageExists p && !(p = 0 || p = 2 || (4 ≤ p && p ≤ 0xA))

/-- Whether `PAGE_CTRL.BRST` of a page is mirrored (R486). -/
def brstMirrored (p : Nat) : Bool :=
  blockResets p && !(p ≤ 0x14 || p = 0x40 || p = 0x128 || p = 0x129 || p = 0x130)

end Sys2Proof.Machine
end

