-- ==== Sys2Proof/Machine/Sha.lean ====
section
/-! DEFINITION. SHA-256 (FIPS 180-4) and HMAC-SHA-256 (FIPS 198-1), the standards that the command tag names (R448). -/

namespace Sys2Proof.Machine

/-- The greatest number below `2^37` whose power `r` is at most `n`, bit by bit from the top. -/
def intRoot (r n : Nat) : Nat :=
  (List.range 37).reverse.foldl (fun x i => if (x + 2 ^ i) ^ r ≤ n then x + 2 ^ i else x) 0

/-- The first 32 bits of the fraction of the `r`-th root of `p`: FIPS 180-4 draws its constants from them. -/
def rootFraction (r p : Nat) : BitVec 32 := BitVec.ofNat 32 (intRoot r (p * 2 ^ (32 * r)))

/-- The first 64 primes. -/
def shaPrimes : List Nat :=
  (List.range 312).filter (fun n => 2 ≤ n && (List.range 18).all (fun d => d < 2 || n ≤ d || n % d ≠ 0))

/-- The round constants of SHA-256: from the cube roots of the first 64 primes. -/
def shaK : List (BitVec 32) := shaPrimes.map (rootFraction 3)

/-- The eight working words. -/
structure ShaSt where
  a : BitVec 32
  b : BitVec 32
  c : BitVec 32
  d : BitVec 32
  e : BitVec 32
  f : BitVec 32
  g : BitVec 32
  h : BitVec 32

/-- The initial hash value: from the square roots of the first eight primes. -/
def shaInit : ShaSt :=
  let w := fun i => rootFraction 2 (shaPrimes.getD i 0)
  ⟨w 0, w 1, w 2, w 3, w 4, w 5, w 6, w 7⟩

/-- One round with its constant and schedule word. -/
def ShaSt.round (s : ShaSt) (k w : BitVec 32) : ShaSt :=
  let s1 := s.e.rotateRight 6 ^^^ s.e.rotateRight 11 ^^^ s.e.rotateRight 25
  let ch := (s.e &&& s.f) ^^^ (~~~ s.e &&& s.g)
  let t1 := s.h + s1 + ch + k + w
  let s0 := s.a.rotateRight 2 ^^^ s.a.rotateRight 13 ^^^ s.a.rotateRight 22
  let maj := (s.a &&& s.b) ^^^ (s.a &&& s.c) ^^^ (s.b &&& s.c)
  ⟨t1 + (s0 + maj), s.a, s.b, s.c, s.d + t1, s.e, s.f, s.g⟩

/-- The rounds of a block over a window of the last sixteen schedule words. -/
def shaRounds : List (BitVec 32) → List (BitVec 32) → ShaSt → ShaSt
  | [], _, s => s
  | k :: ks, w, s =>
    let x := w.getD 1 0
    let y := w.getD 14 0
    let s0 := x.rotateRight 7 ^^^ x.rotateRight 18 ^^^ (x >>> 3)
    let s1 := y.rotateRight 17 ^^^ y.rotateRight 19 ^^^ (y >>> 10)
    shaRounds ks (w.drop 1 ++ [s1 + w.getD 9 0 + s0 + w.getD 0 0]) (s.round k (w.getD 0 0))

/-- Words of 32 bits, most significant byte first. -/
def shaWords : List Nat → List (BitVec 32)
  | a :: b :: c :: d :: r => BitVec.ofNat 32 (((a * 256 + b) * 256 + c) * 256 + d) :: shaWords r
  | _ => []

/-- Hash one block of sixteen words. -/
def ShaSt.block (s : ShaSt) (w : List (BitVec 32)) : ShaSt :=
  let t := shaRounds shaK w s
  ⟨s.a + t.a, s.b + t.b, s.c + t.c, s.d + t.d, s.e + t.e, s.f + t.f, s.g + t.g, s.h + t.h⟩

/-- Hash `n` blocks. -/
def shaBlocks : Nat → List (BitVec 32) → ShaSt → ShaSt
  | 0, _, s => s
  | n + 1, w, s => shaBlocks n (w.drop 16) (s.block (w.take 16))

/-- The big-endian bytes of a number. -/
def shaBytes : Nat → Nat → List Nat
  | 0, _ => []
  | n + 1, v => shaBytes n (v / 256) ++ [v % 256]

/-- SHA-256 of bytes: 32 bytes. -/
def sha256 (m : List Nat) : List Nat :=
  let pad := m ++ [0x80] ++ List.replicate ((119 - m.length % 64) % 64) 0 ++ shaBytes 8 (8 * m.length)
  let t := shaBlocks (pad.length / 64) (shaWords pad) shaInit
  [t.a, t.b, t.c, t.d, t.e, t.f, t.g, t.h].flatMap (fun x => shaBytes 4 x.toNat)

/-- HMAC-SHA-256 under a key of at most 64 bytes. -/
def hmacSha256 (key m : List Nat) : List Nat :=
  let k := key ++ List.replicate (64 - key.length) 0
  sha256 (k.map (fun b => b ^^^ 0x5c) ++ sha256 (k.map (fun b => b ^^^ 0x36) ++ m))

end Sys2Proof.Machine
end

