-- ==== Sys2Proof/Machine/PowerOps.lean ====
section
/-! DEFINITION. Shared operations of power and reset (R461 to R481, R521): clusters and their states, what each kind of reset does
to every block, the boot. -/

namespace Sys2Proof.Machine

/-- Change the resets' and the power states' own state. -/
def Chip.updPower (c : Chip) (f : PowerX → PowerX) : Chip := { c with power := f c.power }

/-- Change the host side's own state. -/
def Chip.updHost (c : Chip) (f : HostX → HostX) : Chip := { c with host := f c.host }

/-! ## Clusters -/

/-- The clusters that hold a page's block (R521). -/
def clustersOf (p : Nat) : List Nat :=
  if p = vinPage ∨ p = vpktPage ∨ p = fsyncPage then List.range 8
  else if p = mixPage then [8, 9, 10, 11]
  else if 0xE0 ≤ p ∧ p ≤ 0x11F then [12 + (p - 0xE0) / 16]
  else if 0x80 ≤ p ∧ p ≤ 0xBF then [16 + (p - 0x80) / 4]
  else if p = xptPage then (List.range 16).map (32 + ·)
  else if 0x20 ≤ p ∧ p < 0x40 then [48 + (p - 0x20) / 8]
  else if p = 0x40 then [51]
  else if 0x48 ≤ p ∧ p ≤ 0x4F then [52 + (p - 0x48) / 4]
  else if p = flowqPage ∨ p = crcuPage then [53]
  else if (0xC0 ≤ p ∧ p ≤ 0xCF) ∨ p = asrcPage then [54]
  else if p = amapPage then [54, 55]
  else (List.range 8).map (56 + ·)

/-- The clusters that hold the memory of word `idx` of a page's table (R521): of a bank, an output, a tile or a de-embedder its own;
of what the placement does not divide, the page's. -/
def clustersOfWord (p idx : Nat) : List Nat :=
  if p = vinPage ∧ idx < 9728 then [idx / 8 / 152]
  else if p = vpktPage then [idx / 4 / 152]
  else if p = xptPage ∧ idx < 4608 then [32 + idx / 4 / 72]
  else if p = xptPage ∧ idx < 6912 then [32 + (idx - 4608) / 2 / 72]
  else if p = amapPage then [if 26624 ≤ idx ∧ idx < 27648 then 55 else 54]
  else if p = mixPage ∧ idx < 4096 then [8 + idx / 64 / 16]
  else if p = mixPage ∧ 1048576 ≤ idx then [8 + 2 * (idx - 1048576) / 262144 / 16]
  else clustersOf p

/-- The pages whose blocks a cluster holds. -/
def pagesOf (k : Nat) : List Nat := (List.range 0x131).filter (fun p => pageExists p && (clustersOf p).contains k)

/-- The state of a cluster (R468). -/
def Chip.cluster (c : Chip) (k : Nat) : Nat := c.rd (Pwr.clState.nth k)

/-- The effective tolerance of a cluster in microseconds (R469). -/
def Chip.effTol (c : Chip) (k : Nat) : Nat :=
  (pagesOf k).foldl (fun a p => min a (Store.get 0 c.latTol p)) (c.rd Pwr.latTol)

/-- Whether a page's block holds a loaded program or plan (R469, R257). -/
def Chip.holdsPlan (c : Chip) (p : Nat) : Bool :=
  (p = mixPage && c.mix.prog.isSome) ||
  (0x80 ≤ p && p ≤ 0xBF && (!(Store.get [] c.sch.plans (p - 0x80)).isEmpty || (c.comp (p - 0x80)).planWaits.isSome)) ||
  (0xE0 ≤ p && p ≤ 0x11F && (c.nova (p - 0xE0)).loaded)

/-- Whether a cluster may be placed in OFF (R469). -/
def Chip.mayOff (c : Chip) (k : Nat) : Bool :=
  (pagesOf k).all (fun p => !c.enabled p && Store.get 0 c.pwrReq p = 1 && !c.holdsPlan p)

/-- The exit latency of OFF in microseconds: 1.5 ms, and the reload of at most 2 ms (R468, log entry 23). -/
def offExit : Nat := 3500

/-- The deepest state that a cluster may take (R469; of a Nova core in `WAIT`, R257). -/
def Chip.allowedState (c : Chip) (k : Nat) : Nat :=
  let t := c.effTol k
  let waits := decide (12 ≤ k ∧ k ≤ 15) && (List.range 16).any (fun j =>
    let st := c.novaSt (16 * (k - 12) + j)
    2 ≤ st && st ≤ 4)
  if 56 ≤ k ∨ t < 2 then 1
  else if offExit ≤ t ∧ c.mayOff k then 4
  else if 40 ≤ t ∧ !waits then 3
  else 2

/-- The deepest state of a page's clusters (R468). -/
def Chip.pageState (c : Chip) (p : Nat) : Nat := (clustersOf p).foldl (fun a k => max a (c.cluster k)) 0

/-- Whether a cluster of the page is in WAKING. -/
def Chip.pageWaking (c : Chip) (p : Nat) : Bool := (clustersOf p).any (fun k => c.cluster k = 5)

/-- Whether the memory of word `idx` of a page's table lies in a cluster in OFF (R471). -/
def Chip.memoryOff (c : Chip) (p idx : Nat) : Bool := (clustersOfWord p idx).any (fun k => c.cluster k = 4)

/-- An access to the memory of word `idx` waits for the exit of its clusters from DOZE or RETAIN, which are in RUN when it is served
(R471, log entry 23). -/
def Chip.memoryExit (c : Chip) (p idx : Nat) : Chip :=
  ((clustersOfWord p idx).filter (fun k => c.cluster k = 2 || c.cluster k = 3)).foldl (fun c k => c.wr (Pwr.clState.nth k) 0) c

/-- The page is being reset by a BLOCK reset. -/
def Chip.isResetting (c : Chip) (p : Nat) : Bool := Store.get 0 c.resetting p = 1

/-! ## Blocks starting and stopping -/

/-- What `ENABLE` becoming 1 starts, or becoming 0 stops (R483 and the chapters of the blocks). -/
def Chip.enableBlock (c : Chip) (p : Nat) (on : Bool) : Chip :=
  if 0x20 ≤ p ∧ p ≤ 0x40 then (if on then c else c.downGroup (p - 0x20) 0)
  else if 0x48 ≤ p ∧ p ≤ 0x4F then c.ethEnable (p - 0x48) on
  else if 0xC0 ≤ p ∧ p ≤ 0xCF then c.sapEnable (p - 0xC0) on
  else if 0x80 ≤ p ∧ p ≤ 0xBF then
    (if on then c else (c.wr (Cmp.state.on (p - 0x80)) 0).wr (Cmp.carryFmt.on (p - 0x80)) 0xFF)
  else if p = mixPage then (if on then c.updMix (fun x => { x with warned := false }) else c)
  else if p = schedPage then c.updSch (fun x => { x with last := !on && c.on Sched.periods })
  else c

/-- A cluster begins its exit. -/
def Chip.beginExit (c : Chip) (k : Nat) : Chip := c.wr (Pwr.clState.nth k) 5

/-- The clusters of a page in one of the states `sts` begin their exits. -/
def Chip.exitPage (c : Chip) (p : Nat) (sts : List Nat) : Chip :=
  ((clustersOf p).filter (fun k => sts.contains (c.cluster k))).foldl (fun c k => c.beginExit k) c

/-- Write `ENABLE` of a page (R471, R483): a page whose cluster is in OFF starts once the exit is complete. Every write of 1 to the mix
engine's may be answered with source `0x73` once (R211). -/
def Chip.setEnable (c : Chip) (p : Nat) (on : Bool) : Chip :=
  if c.enabled p = on then (if on && p = mixPage then c.updMix (fun x => { x with warned := false }) else c)
  else
    let c := { c with enable := Store.set (enableCold c.straps.scale p) c.enable p (b2n on) }
    if on && (c.pageState p = 4 || c.pageWaking p) then
      (c.exitPage p [4]).updPower (fun x => { x with starts := p :: x.starts.filter (· ≠ p) })
    else (c.enableBlock p on).updPower (fun x => { x with starts := x.starts.filter (· ≠ p) })

/-! ## Dropping fields -/

/-- Space, page and offset of a stored field's key. -/
def keySpace (k : Nat) : Nat := k / 1099511627776
def keyPage (k : Nat) : Nat := k / 2147483648 % 512
def keyOff (k : Nat) : Nat := k / 32 % 67108864

/-- The field that a key stands for. -/
def fieldAt (k : Nat) : Option Fld :=
  (wordFields (keyPage k) (keySpace k) (keyOff k)).find? (fun f => f.lo ≤ k % 32 && k % 32 < f.lo + f.w)

/-- Every field of a page takes its COLD value, but those at the places `keep` (space and offset) holds. -/
def Chip.dropPage (c : Chip) (p : Nat) (keep : Nat → Nat → Bool) : Chip :=
  { c with flds := c.flds.filter (fun e => keyPage e.1 ≠ p || keep (keySpace e.1) (keyOff e.1)) }

/-- Only the writable fields of a page take their COLD values, the masters' window positions (R491) among them. -/
def Chip.dropConfig (c : Chip) (p : Nat) : Chip :=
  { c with flds := c.flds.filter (fun e => keyPage e.1 ≠ p ||
      !((2 ≤ keySpace e.1 && keySpace e.1 < 8) || (fieldAt e.1).any (fun f => f.acc = .rw))) }

/-! ## BLOCK resets -/

/-- BLOCK of a lane group (R60). -/
def Chip.blockGroup (c : Chip) (g : Nat) : Chip :=
  { (c.downGroup g 0).dropPage (lgrpPage g) (fun _ _ => false) with
    lanes := Store.clear (8 * g) (8 * g + 8) c.lanes, grps := Store.del g c.grps }

/-- BLOCK of an Ethernet port (R318): its calendar stays for the port's next start. -/
def Chip.blockEth (c : Chip) (n : Nat) : Chip :=
  ((c.portDown n).dropPage (ethPage n) (fun _ _ => false)).emptyPort n

/-- BLOCK of the flow queues (R318). -/
def Chip.blockFlowq (c : Chip) : Chip :=
  let c := (c.dropPage flowqPage (fun _ _ => false)).updPkt (fun x => { x with queues := [] })
  (List.range 8).foldl (fun c n => c.updPort n (fun p => { p with cpu := [], held := none })) c

/-- BLOCK of video ingest: every input is unbound for one frame, and then bound again from its kept words (R73). -/
def Chip.blockVin (c : Chip) : Chip :=
  let bound := (c.vin.map Prod.fst).filter (fun i => c.rd (Vin.transport.nth i) ≠ 0)
  let c := (c.vin.map Prod.fst).foldl (fun c i => c.releaseSync i) c
  let c := c.dropPage vinPage (fun sp off => sp = 1 && off < 9728 && off % 8 < 2)
  bound.foldl (fun c i => c.updInput i (fun _ => { rebind := true })) { c with vin := [] }

/-- BLOCK of the synchronisers: every one is detached, and its input goes on untimed. -/
def Chip.blockFsync (c : Chip) : Chip :=
  let held := (c.vin.filter (fun p => p.2.sync.isSome)).map Prod.fst
  let c := held.foldl (fun c i =>
    let c := c.releaseSync i
    if c.inputSt i = InSt.synced then c.goUntimed i else c) c
  { c.dropPage fsyncPage (fun _ _ => false) with syncs := [] }

/-- BLOCK of the crosspoint (R121): salvos and changes that have not landed are lost, and from its next switch point every
destination is unrouted. -/
def Chip.blockXpt (c : Chip) : Chip :=
  let air := (List.range 1664).filter (fun d => c.rd (Xpt.airSrc.nth d) ≠ noSource || c.rd (Xpt.airAmode.nth d) ≠ 0)
  let c := c.dropPage xptPage (fun sp off => sp = 1 && 4608 ≤ off && off < 7936 && off % 2 = 1)
  let c := (List.range 1664).foldl (fun c d => c.wr (Xpt.airFmt.nth d) 0xFF) c
  c.updXpt (fun x => { rate := x.rate, swline1 := x.swline1, landing := air.map (fun d => ⟨2, d, noSource, 0, 0⟩) })

/-- BLOCK of a composer (R158): what the pages share is kept. -/
def Chip.blockCmp (c : Chip) (n : Nat) : Chip :=
  let gs := (List.range 16).filter (fun g => (c.cgrp g).members.contains n)
  let c := gs.foldl (fun c g =>
    let c := c.updCgrp g (fun x => { x with members := x.members.filter (· ≠ n) })
    c.wr (Cmp.members.nth g) (c.cgrp g).members.length) c
  { c.dropPage (cmpPage n) (fun sp off => homePage (0x80 + n) (sp % 8) off = 0x80 && (n ≠ 0 || (sp % 8 = 0 && 0x200 ≤ off && off < 0x240) ||
      (sp % 8 = 0 && 0x800 ≤ off) || (sp % 8 = 1 && 4096 ≤ off))) with
    cmps := Store.del n c.cmps, banks := Store.del (1152 + n) c.banks }

/-- BLOCK of the mix engine (R221): the applied period program is kept, and so are the writes that have not been accepted yet, for which the
stopped engine has room. -/
def Chip.blockMix (c : Chip) : Chip :=
  ({ c.dropPage mixPage (fun _ _ => false) with mix := { prog := c.mix.prog, withheld := c.mix.withheld } }).showRate

/-- BLOCK of a Nova core (R257). -/
def Chip.blockNova (c : Chip) (k : Nat) : Chip :=
  let c := c.dropPage (novaPage k) (fun sp off => sp = 0 && 0x4C ≤ off && off < 0x60)
  let c := c.updNova k (fun x =>
    { im := x.im, dm := x.dm, loaded := x.loaded, poison := x.poison, hold := x.hold,
      cr := Store.set 0 (Store.set 0 [] 18 k) 22 (c.rd (Nova.ivec.on k)) })
  ((c.wr (Nova.state.on k) (if (c.nova k).loaded then Nst.halted else Nst.off)).novaClear k).showNova k

/-- BLOCK of the schedules (R285). -/
def Chip.blockSched (c : Chip) : Chip :=
  let last := c.on Sched.periods
  let c := c.dropPage schedPage (fun sp off => sp = 0 && off = 0x50)
  (c.updSch (fun x => { x with names := [], last := last, high := 0, atMax := 0 })).showRate

/-- BLOCK of the selection (R366): configuration at COLD values, under which no REFIN has a type, and the selection is made again. -/
def Chip.blockSel (c : Chip) : Chip :=
  (c.dropConfig merSelPage).refsFollow c

/-- BLOCK of the loop (R366): control word, generator phases and build-out are kept; `ACQUIRE` under STARTUP. -/
def Chip.blockLoop (c : Chip) : Chip :=
  let c := c.dropPage merLoopPage (fun sp off => sp = 0 && (off = 0x60 || off = 0x64 || off = 0x70 || (0x100 ≤ off && off < 0x120)))
  (c.updMer (fun m => { m with realign := [], raStage := 0 })).enterAcquire false

/-- BLOCK of the holdover page (R366): the configuration takes its COLD values and the age restarts; the history stays, and the value
is what the new configuration makes of it. -/
def Chip.blockHold (c : Chip) : Chip := (c.dropConfig merHoldPage).endHoldover.updHoldValue.showQlOut.reselect

/-- BLOCK of PTP (R366): the instances are disabled. -/
def Chip.blockPtp (c : Chip) : Chip :=
  let c := [0, 1].foldl (fun c x => c.setPtp x 0) c
  (c.dropPage ptpPage (fun _ _ => false)).updMer (fun m => { m with ptp := [] })

/-- BLOCK of the fault collector (R426): severities, settings, a stop of ALIVE and the first-fault record stay, and `WAIT_HB` takes its
COLD value (R10); holds end at their next boundary. -/
def Chip.blockFcu (c : Chip) : Chip :=
  let stays := fun (k : Nat) => keyPage k ≠ fcuPage || ([0x40, 0x44, 0x48, 0x6C, 0x70].contains (keyOff k) && k ≠ Fcu.waitHb.key)
  let c := (c.dropPage fcuPage (fun _ _ => false)).updFcu (fun f =>
    { f with regs := f.regs.filter (fun e => stays e.1), log := [], unread := 0, crit := 0,
             holds := f.holds.map (fun h => { h with passed := true }) })
  c.disarm

/-- BLOCK of the power page (R473): `LATENCY_TOL` becomes 0, so every sleeping cluster returns. -/
def Chip.blockPwr (c : Chip) : Chip :=
  let c := c.dropPage pwrPage (fun sp _ => sp = 1)
  ((List.range 64).filter (fun k => 2 ≤ c.cluster k ∧ c.cluster k ≤ 4)).foldl (fun c k => c.beginExit k) c

/-- BLOCK of the pair's page (R10, R400): only the state and the role stay. -/
def Chip.blockTwin (c : Chip) : Chip :=
  (((c.dropPage twinPage (fun _ _ => false)).wr Twin.state (c.rd Twin.state)).wr Twin.active (c.rd Twin.active)).showPair

/-- BLOCK of the Umpire (R400). -/
def Chip.blockUmp (c : Chip) : Chip :=
  ((c.dropPage umpPage (fun _ _ => false)).updTwin (fun t =>
    { t with umps := [], win := none, matched := 0, own := none, mate := none })).showPair

/-- A page's block takes its reset state (R10, R472 and the reset tables of the chapters). -/
def Chip.blockBody (c : Chip) (p : Nat) : Chip :=
  if 0x20 ≤ p ∧ p ≤ 0x40 then c.blockGroup (p - 0x20)
  else if 0x48 ≤ p ∧ p ≤ 0x4F then c.blockEth (p - 0x48)
  else if 0x80 ≤ p ∧ p ≤ 0xBF then c.blockCmp (p - 0x80)
  else if 0xC0 ≤ p ∧ p ≤ 0xCF then (c.dropPage p (fun _ _ => false)).updSap (p - 0xC0) (fun _ => {})
  else if 0xE0 ≤ p ∧ p ≤ 0x11F then c.blockNova (p - 0xE0)
  else match p with
  | 0x1 => c.blockPwr
  | 0x3 => c.blockFcu
  | 0x10 => c.blockSel
  | 0x11 => c.blockLoop
  | 0x12 => c.blockHold
  | 0x13 => c.blockPtp
  | 0x14 => (c.dropPage timePage (fun sp off => sp = 0 && off = 0x50)).updMer (fun m => { m with evtGap := false })
  | 0x50 => c.blockFlowq
  | 0x51 => (c.dropPage crcuPage (fun _ _ => false)).updPkt (fun x => { x with chans := [], job := none })
  | 0x60 => c.blockVin
  | 0x61 => { c.dropPage vpktPage (fun _ _ => false) with merges := [] }
  | 0x70 => c.blockXpt
  | 0x78 => c.blockFsync
  | 0xD0 => (c.dropPage asrcPage (fun _ _ => false)).updAud (fun a => { a with trks := [], trkDirty := [], asrcIn := [] })
  | 0xD4 => (c.dropPage amapPage (fun sp off => sp = 1 || 8 ≤ sp || (sp = 0 && 0x100 ≤ off && off < 0x180))).updPower (fun x => { x with amapDue := true })
  | 0xD8 => c.blockMix
  | 0x120 => c.blockSched
  | 0x128 => c.blockTwin
  | 0x129 => c.blockUmp
  | _ => c.dropPage p (fun _ _ => false)

/-- A BLOCK reset starts (R472, R473, R484). A cluster in DOZE or RETAIN exits. -/
def Chip.blockReset (c : Chip) (p : Nat) : Chip :=
  let c := (c.exitPage p [2, 3]).blockBody p
  let c := { c with enable := Store.del p c.enable, sticky := Store.del p c.sticky, resetting := Store.set 0 c.resetting p 1,
                    poisoned := c.poisoned.filter (fun q => q.1 ≠ 7 || q.2.1 ≠ p) }
  c.updPower (fun x => { x with starts := x.starts.filter (· ≠ p) })

/-- A BLOCK reset is done (R481). -/
def Chip.blockDone (c : Chip) (p : Nat) : Chip :=
  if !c.isResetting p then c
  else ({ c with resetting := Store.set 0 c.resetting p 0 }.inc Rst.nBlock).stick rstPage 1

/-! ## Power states -/

/-- What a page loses with its last cluster: its body and its tables, a core its memories and a port its calendars (R257, R468, R474), of
composers what they do not share. -/
def Chip.losePage (c : Chip) (p : Nat) : Chip :=
  let c := if p = amapPage then c.amapBlank else c.blockBody p
  let c := if 0xE0 ≤ p ∧ p ≤ 0x11F then (c.updNova (p - 0xE0) (fun _ => {})).showNova (p - 0xE0)
    else if 0x48 ≤ p ∧ p ≤ 0x4F then
      (c.updPort (p - 0x48) (fun x => { x with cal := [] })).updSch (fun x => { x with calWaits := Store.del (p - 0x48) x.calWaits })
    else c
  if 0x80 ≤ p ∧ p ≤ 0xBF then c else c.dropPage p (fun _ _ => false)

/-- What cluster `k` alone holds of a page (R468, R521): table words, banks, outputs and tiles. -/
def Chip.losePart (c : Chip) (k p : Nat) : Chip :=
  let c := { c with flds := c.flds.filter (fun e =>
    keyPage e.1 ≠ p || keySpace e.1 % 8 ≠ 1 || clustersOfWord p (keyOff e.1) ≠ [k]) }
  if p = vinPage then
    let c := (c.vin.filter (fun e => e.1 / 152 = k)).foldl (fun c e => c.releaseSync e.1) c
    { c with vin := c.vin.filter (fun e => e.1 / 152 ≠ k), banks := c.banks.filter (fun e => e.1 / 152 ≠ k) }
  else if p = vpktPage then { c with merges := c.merges.filter (fun e => e.1 / 152 ≠ k) }
  else if p = xptPage then { c with outs := c.outs.filter (fun e => 32 + e.1 / 72 ≠ k) }
  else if p = mixPage then c.updMix (fun x => { x with tiles := x.tiles.filter (fun e => 8 + e.1 / 16 ≠ k),
                                                       gain := x.gain.filter (fun e => 8 + e.1 / 262144 / 16 ≠ k),
                                                       applied := x.applied.filter (fun e => 8 + e.1 / 262144 / 16 ≠ k) })
  else c

/-- What a cluster loses in OFF (R468, R474): its part of each page, and with the page's last cluster the whole page. -/
def Chip.loseCluster (c : Chip) (k : Nat) : Chip :=
  (pagesOf k).foldl (fun c p =>
    if (clustersOf p).all (fun j => j = k || c.cluster j = 4) then c.losePage p else c.losePart k p) c

/-- A cluster is placed in a state. -/
def Chip.placeCluster (c : Chip) (k st : Nat) : Chip :=
  let c := if st = 4 then c.loseCluster k else c
  c.wr (Pwr.clState.nth k) st

/-- The blocks that waited for their clusters begin (R471). -/
def Chip.startWaiting (c : Chip) : Chip :=
  let due := c.power.starts.filter (fun p => c.pageState p ≠ 4 && !c.pageWaking p)
  let c := c.updPower (fun x => { x with starts := x.starts.filter (fun p => !due.contains p) })
  due.foldl (fun c p => if c.enabled p then c.enableBlock p true else c) c

/-- Measured currents of the core rail (R466). -/
def Chip.showCore (c : Chip) (icore ballast : Nat) : Chip := (c.wr Pwr.icore icore).wr Pwr.ballast ballast

/-! ## COLD and POR -/

/-- The fields that a COLD reset keeps: the straps' copy and the always-on store (R474). -/
def coldKept (k : Nat) : Bool := (fieldAt k).any (fun f => f.cold = .kept)

/-- POR (`kind` 1) or COLD (2 by `RESET_N`, 3 in a brown-out) is asserted (R463, R472, R474). Fuses are kept, and by COLD the
always-on store and the control word, which slews to the holdover value where one exists and to 0 where none does (R342, R348, R369). -/
def Chip.coldReset (c : Chip) (kind : Nat) : Chip :=
  let kept := fun (l : Store Nat) => l.filter (fun e => coldKept e.1)
  let f : Fcu := if kind = 1 then {} else { regs := kept c.fcu.regs, first := c.fcu.first, aon := c.fcu.aon }
  let n : Chip :=
    { otp := c.otp, free := c.free, straps := c.straps, fcu := f,
      flds := if kind = 1 then [] else kept c.flds,
      pwrReq := if kind = 1 then [] else c.pwrReq, latTol := if kind = 1 then [] else c.latTol,
      power := { asserted := kind, released := kind = 3 },
      reports := c.reports, out := c.out }
  if kind ≠ 1 ∧ n.on MerHold.valid then n.updMer (fun m => { m with target := n.rdS MerHold.value }) else n

/-- Every memory but the boot flash is cleared (R474). -/
def Mem.coldReset (m : Mem) : Mem := [0, 1, 2, 3, 4, 5].foldl (fun m r => Mem.clear m r) m

/-! ## Boot -/

/-- Where flash bank `b` begins in the flash's region 6 (R443). -/
def bankOff (b : Nat) : Nat := 4194304 * b

/-- `SEQ` of a flash bank's header. -/
def Mem.bankSeq (m : Mem) (b : Nat) : Nat := Mem.word m 6 (bankOff b + 16)

/-- The bytes of the image at an offset of a region: header and body. -/
def Mem.image (m : Mem) (region off : Nat) : List Nat := Mem.bytes m region off (256 + Mem.word m region (off + 8))

/-- Whether the image at an offset of a region is valid (R443). The length is judged before anything is read by it. -/
def Chip.imageValid (c : Chip) (m : Mem) (region off : Nat) : Bool :=
  let len := Mem.word m region (off + 8)
  let bytes := Mem.image m region off
  let signed := (bytes.take 16 ++ [0, 0, 0, 0] ++ bytes.drop 20).map (BitVec.ofNat 8)
  Mem.word m region off = 0x4C465748 && len % 4 = 0 && 4 ≤ len && len ≤ 2097152 &&
  ((bytes.drop 20).take 140).all (· = 0) && c.otp.minVersion ≤ Mem.word m region (off + 4) && Config.imageSigned signed

/-- The firmware in working RAM starts (R444, R495). -/
def Chip.startFirmware (c : Chip) (m : Mem) : Chip :=
  (((c.wr Cfab.remap 1).wr Dev.boot 4).wr Dev.fwVer (Mem.word m 0 4)).stick devPage 0

/-- The ROM waits for a host image (R444). -/
def Chip.waitImage (c : Chip) (stage : Nat) : Chip := (c.wr Dev.boot stage).wr Hst.wramEn 1

/-- The boot sequence of the ROM, whole (R444). Neither bank valid reads as stage 5, the host strap as stage 3 (log entry 23). -/
def Chip.boot (c : Chip) (m : Mem) : Chip × Mem :=
  let c := c.wr Cfab.remap 0
  if c.straps.bootHost then (c.waitImage 3, m)
  else
    let a := b2n (decide (Mem.bankSeq m 0 < Mem.bankSeq m 1))
    let bad := fun (c : Chip) (b : Nat) => c.raise 0xF4 devPage b 0
    if c.imageValid m 6 (bankOff a) then
      let m := Mem.puts m 0 0 (Mem.image m 6 (bankOff a))
      ((c.wr Dev.bank a).startFirmware m, m)
    else
      let c := (bad c a).wr Dev.fallback 1
      let b := 1 - a
      if c.imageValid m 6 (bankOff b) then
        let m := Mem.puts m 0 0 (Mem.image m 6 (bankOff b))
        (((c.wr Dev.bank b).stick devPage 2).startFirmware m, m)
      else ((bad c b).waitImage 5, m)

/-! ## WARM -/

/-- The fields whose WARM column gives a value take it; the masters' window positions are cleared (R9, R491). -/
def warmKept (k : Nat) : Bool :=
  8 ≤ keySpace k || (keySpace k < 2 && (fieldAt k).any (fun f => f.warm = .kept))

/-- Salvos that have not been cut are discarded (R121). -/
def Chip.warmSalvos (c : Chip) : Chip :=
  let c := [0, 1].foldl (fun c k =>
    let code := c.rd (Xpt.takeCode.nth k)
    if code = 1 ∨ code = 2 then c.salvoFinal k 8 else c) c
  c.updXpt (fun x => { x with validating := [], armed := [], own := [] })

/-- Commits and groups that are not final are cancelled (R158). -/
def Chip.warmCommits (c : Chip) : Chip :=
  let c := (List.range 64).foldl (fun c n =>
    let code := c.rd (Cmp.code.on n)
    if code = 1 ∨ code = 2 ∨ code = 3 then c.endCommit n 8 else c) c
  (List.range 16).foldl (fun c g =>
    if (c.cgrp g).members.isEmpty ∧ c.rd (Cmp.gSeal.nth g) = 0 ∨ finalCode (c.rd (Cmp.gCode.nth g)) then c
    else ((c.wr (Cmp.gCode.nth g) 8).wr (Cmp.gSeal.nth g) 0).updCgrp g (fun _ => {})) c

/-- Loads and staged lists that WARM ends with `WARM_CANCEL` (R196, R221, R285). -/
def Chip.warmLoads (c : Chip) : Chip :=
  let c := if c.rd Mix.bCode = 1 then
      (c.wr Mix.bCode 7).updMix (fun x => { x with staged := [], count := 0 }) else c
  let c := if c.rd Amap.code = 1 ∨ c.rd Amap.code = 2 then c.wr Amap.code 5 else c
  let c := if c.rd Sched.code = 1 ∨ c.rd Sched.code = 2 then (c.wr Sched.code 5).updSch (fun x => { x with names := [] }) else c
  (List.range 16).foldl (fun c p => c.updSap p (fun x => { x with maskRun := none, txDue := false })) c

/-- PTP instances restart in `LISTENING` (R366). -/
def Chip.warmPtp (c : Chip) (was : List Nat) : Chip :=
  [0, 1].foldl (fun c x => if c.on (Ptp.iEn.nth x) then c.setPtp x (if was.getD x 0 = 4 then 4 else 1) else c) c

/-- The control plane is reset (R472, R474, R452, R417, R426). -/
def Chip.warmPlane (c : Chip) : Chip :=
  let ptp := [0, 1].map (fun x => c.rd (Ptp.iState.nth x))
  let plane := fun (l : Store Nat) => Store.del cmdPage (Store.del cfabPage (Store.del hostPage (Store.del mgmtPage l)))
  let c := c.warmLoads.warmCommits.warmSalvos
  let c := { c with flds := c.flds.filter (fun e => warmKept e.1), sticky := plane c.sticky, irqEn := plane c.irqEn, inFlight := [],
                    served := [], silent := c.silent ++ c.waiting,
                    debugSeen := false, resetting := [] }
  let c := c.updMix (fun x => { x with withheld := x.withheld.map (fun w => { w with tw := none }) })
  let c := (c.wr Cmd.state 10).updHost (fun h => { i2cAddr := h.i2cAddr })
  let c := c.updFcu (fun f => { f with regs := f.regs.filter (fun e => warmKept e.1), log := [], unread := 0,
                                       grace := f.beaten, hbStop := f.hbStop && !f.beaten })
  let c := (List.range 8).foldl (fun c n => c.emptyPort n) c.disarm
  (c.warmPtp ptp).updMer (fun m => { m with evtGap := false })

/-- A WARM reset is requested (R472, R473): merged into one in progress, or deferred while a fuse is programmed. -/
def Chip.warmRequest (c : Chip) (m : Mem) (cause : Nat) : Chip × Mem :=
  if c.power.warm.isSome then (c, m)
  else if c.host.rotate.isSome then
    (((c.wr Rst.warmDeferred 1).wr Dev.warmRst (b2n (decide (cause = 3)))).stick rstPage 2 |>.updPower
      (fun x => { x with deferred := some cause }), m)
  else (c.warmPlane.updPower (fun x => { x with warm := some cause, deferred := none }), Mem.clear m 0)

/-- A WARM reset is done: it is counted, and the ROM runs (R444, R480, R481). -/
def Chip.warmDone (c : Chip) (m : Mem) : Chip × Mem :=
  match c.power.warm with
  | none => (c, m)
  | some cause =>
    let c := ((c.wr Rst.cause cause).inc Rst.nWarm).stick rstPage 0
    (c.updPower (fun x => { x with warm := none })).boot m

end Sys2Proof.Machine
end

