-- ==== Sys2Proof/Machine/HeaderOps.lean ====
section
/-! DEFINITION. Writes to the page headers (R482 to R484, R486). -/

namespace Sys2Proof.Machine

/-- The bits of a word that byte enables let through. -/
def beMask (be : Nat) : Nat := 255 * (be % 2) + 65280 * (be / 2 % 2) + 16711680 * (be / 4 % 2) + 4278190080 * (be / 8 % 2)

/-- A value whose bits in `mask` are those of `data`. -/
def mergeBits (old data mask : Nat) : Nat := (old &&& (allBits - mask)) ||| (data &&& mask)

/-- Exit latency of a state (R468). -/
def exitLatency (st : Nat) : Nat := [0, 0, 2, 40, offExit].getD st 0

/-- Clusters that sleep deeper than their tolerance now allows begin their exits (R469, R473). -/
def Chip.recheckClusters (c : Chip) (ks : List Nat) : Chip :=
  (ks.filter (fun k => 2 ≤ c.cluster k ∧ c.cluster k ≤ 4 ∧ c.effTol k < exitLatency (c.cluster k))).foldl
    (fun c k => c.beginExit k) c

/-- `PAGE_CTRL` as it stands, the write-one bit `BRST` left out. -/
def Chip.ctrlWord (c : Chip) (p : Nat) : Nat := b2n (c.enabled p) + 8 * Store.get 0 c.pwrReq p

/-- Whether a write of `PAGE_CTRL` carries `BRST` = 1, and whether it carries `ENABLE`, which a BLOCK reset overrides (R483). -/
def ctrlBrst (p data en : Nat) : Bool := bit (data &&& en) 1 && blockResets p
def ctrlEnable (p data en : Nat) : Bool := bit en 0 && enableWritable p && !ctrlBrst p data en

/-- Whether the write of `PAGE_CTRL` changes mirrored fields (R486). -/
def ctrlMirrored (p data en : Nat) : Bool :=
  (ctrlBrst p data en && brstMirrored p) || (ctrlEnable p data en && enableMirrored p)

/-- The write of `PAGE_CTRL` acts (R483): its local part, its mirrored part, or both. -/
def Chip.ctrlNow (c : Chip) (p data en : Nat) (loc mir : Bool) : Chip :=
  let c := if loc && bit en 3 then { c with pwrReq := Store.set 0 c.pwrReq p (data / 8 % 2) } else c
  if ctrlBrst p data en then
    (if (if brstMirrored p then mir else loc) && !c.isResetting p then c.blockReset p else c)
  else if ctrlEnable p data en then
    (if (if enableMirrored p then mir else loc) then c.setEnable p (bit data 0) else c)
  else c

/-- Whether the Keeper guards the composer from the write (R154). -/
def Chip.keeperGuards (c : Chip) (p data en : Nat) : Bool :=
  decide (0x80 ≤ p ∧ p ≤ 0xBF) && c.keeperOn (p - 0x80) && (ctrlBrst p data en || (bit en 0 && !bit data 0))

/-- A permitted write of `PAGE_CTRL` (R154, R380, R483). -/
def Chip.ctrlWrite (c : Chip) (m : Master) (p data be : Nat) : Chip :=
  let en := beMask be
  if c.keeperGuards p data en then (c.raise 0x5A p (p - 0x80) 0).stick p 11
  else if ctrlMirrored p data en && c.ignoresMirrored then (c.ctrlNow p data en true false).stick twinPage 10
  else if ctrlMirrored p data en && c.mirrors then (c.ctrlNow p data en true false).mirrorWrite m 0 p 8 data be
  else c.ctrlNow p data en true true

/-- What a write to a header word would change (R435). -/
def Chip.headerTouches (c : Chip) (p off data en : Nat) : Bool :=
  match off with
  | 0x08 => ctrlBrst p data en || (ctrlEnable p data en && bit data 0 != c.enabled p) ||
      (bit en 3 && data / 8 % 2 ≠ Store.get 0 c.pwrReq p)
  | 0x10 => data &&& en ≠ 0
  | 0x14 => mergeBits (c.irqEnWord p) data en ≠ c.irqEnWord p
  | 0x1C => mergeBits (Store.get 0 c.latTol p) data en % 2 ^ 24 ≠ Store.get 0 c.latTol p
  | _ => false

/-- A write to a word of a page header, `off` below `0x40`. -/
def Chip.headerWrite (c : Chip) (m : Master) (p off data be : Nat) : Chip :=
  let en := beMask be
  let c := c.debugOpen m
  if !c.masterRuns m then c
  else if !c.mayWrite m p 0 off 0 then (if c.headerTouches p off data en then c.denied m else c)
  else
    match off with
    | 0x08 => c.ctrlWrite m p data be
    | 0x10 => { c with sticky := Store.set 0 c.sticky p (c.stickyWord p &&& (allBits - (data &&& en))) }
    | 0x14 => { c with irqEn := Store.set (if p = fcuPage then 14 else 0) c.irqEn p (mergeBits (c.irqEnWord p) data en) }
    | 0x1C =>
      { c with latTol := Store.set 0 c.latTol p (mergeBits (Store.get 0 c.latTol p) data en % 2 ^ 24) }.recheckClusters (clustersOf p)
    | _ => c

/-! ## Fabric errors (R431) -/

/-- Record an error response (R457): 1 SLVERR, 2 DECERR. -/
def Chip.fabricError (c : Chip) (m : Master) (addr resp id : Nat) (write : Bool) : Chip :=
  let c := ((((c.wr Cfab.errMaster (masterNum m)).wr Cfab.errResp resp).wr Cfab.errWrite (b2n write)).wr Cfab.errId id).wr Cfab.errValid 1
  { c.wr Cfab.errAddr addr with resp := if resp = 2 then .decerr else .slverr, rdata := if write then [] else [0] }

/-- A DECERR answer. -/
def Chip.decErr (c : Chip) (m : Master) (addr id : Nat) (write : Bool) : Chip :=
  ((c.fabricError m addr 2 id write).raise 0xD0 cfabPage (masterNum m) 0).stick cfabPage 0

/-- An SLVERR answer that no source reports. -/
def Chip.slvErr (c : Chip) (m : Master) (addr id : Nat) (write : Bool) : Chip := c.fabricError m addr 1 id write

end Sys2Proof.Machine
end

