-- ==== Sys2Proof/Machine/HostOps.lean ====
section
/-! DEFINITION. Shared operations of the host attachment, the boot by the host and the mailbox (R436 to R455). -/

namespace Sys2Proof.Machine

/-- The master of a number (R429). -/
def masterOf (n : Nat) : Master :=
  match n with
  | 0 => .hk | 1 => .host | 2 => .mspi | 3 => .bi2c | 4 => .twin | _ => .jtag

/-! ## The function's identity (R437) -/

/-- A word of the identity in the function's configuration space, in the places of the PCI Express header (PRESUMED, log entry 8):
0 vendor and device, 2 revision and class code, 11 the subsystem identities. -/
def functionIdentity (word : Nat) : Option Nat :=
  match word with
  | 0 => some 0x92001F5A
  | 2 => some 0x048000B1
  | 11 => some Config.subsystem.toNat
  | _ => none

/-! ## Interrupts (R439) -/

/-- `HOST_EOI` is written 1 for vector `v`: a message goes out if its condition is 1. -/
def Chip.hostEoi (c : Chip) (v : Nat) : Chip := if bit c.cond v then c.sendVector v else c

/-- Every bit of a write to `HOST_EOI0` or `HOST_EOI1`. -/
def Chip.hostEois (c : Chip) (first data : Nat) : Chip :=
  (List.range 32).foldl (fun c b => if bit data b then c.hostEoi (first + b) else c) c

/-- Vector `v` is unmasked: a message goes out if its condition is 1; a pending bit without a condition ends. -/
def Chip.msixUnmask (c : Chip) (v : Nat) : Chip :=
  let c := c.wr (msixMask v) 0
  if bit c.cond v then c.sendVector v else { c with pba := setBit c.pba v false }

/-- The host's outstanding transactions end without a response (R436, R438). -/
def Chip.dropHost (c : Chip) : Chip := c.endOutstanding 1

/-- A function-level reset (R438). What the link shows of itself stays. -/
def Chip.functionReset (c : Chip) : Chip :=
  let c := c.dropHost
  let gen := c.rd Hst.gen
  let up := c.rd Hst.linkUp
  let tun := c.rd Hst.tunnelUp
  let c := c.dropPage hostPage (fun _ _ => false)
  let c := { c with sticky := Store.del hostPage c.sticky, irqEn := Store.del hostPage c.irqEn, pba := 0 }
  (((c.wr Hst.gen gen).wr Hst.linkUp up).wr Hst.tunnelUp tun).stick hostPage 3

/-! ## Boot by the host (R444) -/

/-- `HOST_CTRL.BOOT_GO` is written 1 while the ROM waits for an image. -/
def Chip.bootGo (c : Chip) (m : Mem) : Chip :=
  if c.rd Dev.boot ≠ 3 ∧ c.rd Dev.boot ≠ 5 then c
  else if c.imageValid m 0 0 then ((c.wr Dev.hostImg 1).wr Hst.bootGo 0).startFirmware m
  else ((c.wr Hst.bootGo 0).raise 0xF4 devPage 2 0).stick hostPage 4

/-! ## The mailbox -/

/-- Whether a master owns the mailbox. -/
def Chip.ownsCmd (c : Chip) (m : Master) : Bool := c.host.owner = some (masterNum m)

/-- A read of `CMD_CLAIM` (R445): the mailbox, and the word. -/
def Chip.cmdClaim (c : Chip) (m : Master) : Chip × Nat :=
  match c.host.owner with
  | none => (c.updHost (fun h => { h with owner := some (masterNum m) }), 3 + 4 * masterNum m)
  | some o => (c, 2 + 4 * o)

/-- `CMD_CTRL.RELEASE` is written 1 (R445). -/
def Chip.cmdRelease (c : Chip) (m : Master) : Chip :=
  if c.ownsCmd m then c.updHost (fun h => { h with owner := none }) else c

/-- `CMD_CTRL.GO` is written 1 (R446, R447): by the owner alone, and not while a command is under way. -/
def Chip.cmdGo (c : Chip) (m : Master) : Chip :=
  if !c.ownsCmd m ∨ c.on Cmd.go then c
  else
    let c := ((c.wr Cmd.lastOp (c.rd Cmd.opcode)).wr Cmd.refuse 0).updHost (fun h => { h with issuer := masterNum m })
    if c.host.nonce then (c.wr Cmd.state 1).wr Cmd.go 1 else c.wr Cmd.state 9

/-- A command ends in a final state other than `DONE` and `REFUSED`. -/
def Chip.cmdFinal (c : Chip) (st : Nat) : Chip := (c.wr Cmd.state st).wr Cmd.go 0

/-- Argument count of an opcode (R448). -/
def argCount (op : Nat) : Nat := [0, 1, 0, 0, 4, 0, 0, 2, 1, 2, 1, 0].getD op 0

/-- The message that a tag covers (R448). -/
def Chip.cmdMessage (c : Chip) : List Nat :=
  let op := c.rd Cmd.opcode
  leBytes 4 (c.rd Cmd.nonceLo) ++ leBytes 4 (c.rd Cmd.nonceHi) ++ leBytes 4 (c.rd Cmd.cntLo) ++ leBytes 4 (c.rd Cmd.cntHi) ++ [op] ++
    leBytes 2 (c.rd Cmd.target) ++ (List.range (argCount op)).flatMap (fun k => leBytes 4 (c.rd (Cmd.arg.nth k)))

/-- The bytes of a key slot (R447, R451). -/
def keyBytes (slot : Nat) : List Nat := (Config.fuseKey slot).map (fun b => b.toNat)

/-- Whether the tag is right under the key of `slot` (R448). -/
def Chip.tagRight (c : Chip) (slot : Nat) : Bool :=
  (hmacSha256 (keyBytes slot) c.cmdMessage).take 16 = (List.range 4).flatMap (fun k => leBytes 4 (c.rd (Cmd.tag.nth k)))

/-- Failures within the second that ends now (R450). -/
def Chip.recentFails (c : Chip) : List Stc := c.host.fails.filter (fun t => c.stc.total - t.total ≤ 1000000000 * 65536)

/-- One failure (R450): the sixteenth within 1 s is source `0xF3`. -/
def Chip.cmdFailure (c : Chip) : Chip :=
  let f := c.recentFails ++ [c.stc]
  let c := c.updHost (fun h => { h with fails := f })
  if 16 ≤ f.length then (c.raise 0xF3 cmdPage 0 0).stick cmdPage 4 else c

/-- Whether a key slot can serve (R451). -/
def Chip.slotServes (c : Chip) (slot : Nat) : Bool :=
  !c.otp.unreadable && !(if slot = 0 then c.otp.revoked0 else c.otp.revoked1)

/-- Verification ends (R446 to R451). DEDUCED (log entry 27): a key slot that cannot be read is an OTP read error too, source `0x0F`. An opcode outside the table has no message to check, so it is judged before the tag. -/
def Chip.cmdVerify (c : Chip) : Chip :=
  let op := c.rd Cmd.opcode
  let active := b2n c.otp.active1
  let cnt := c.rd Cmd.cntLo + 2 ^ 32 * c.rd Cmd.cntHi
  if c.rd Cmd.state ≠ 1 then c
  else if c.on Cmd.locked then c.cmdFinal 7
  else if op = 0 ∨ 0x0B < op then ((c.cmdFinal 8).raise 0xF2 cmdPage c.host.issuer 0).stick cmdPage 1
  else if !c.slotServes active then
    ((if c.otp.unreadable then c.raise 0x0F devPage 0 active else c).cmdFinal 5 |>.raise 0xF5 cmdPage active 0).cmdFailure
  else if !c.tagRight (if op = 8 then 1 else active) then (((c.cmdFinal 5).raise 0xF0 cmdPage c.host.issuer 0).stick cmdPage 2).cmdFailure
  else if cnt ≤ c.rd Cmd.lastLo + 2 ^ 32 * c.rd Cmd.lastHi then
    (((c.cmdFinal 6).raise 0xF1 cmdPage c.host.issuer 0).stick cmdPage 3).cmdFailure
  else ((c.wr Cmd.lastLo (cnt % 2 ^ 32)).wr Cmd.lastHi (cnt / 2 ^ 32)).cmdRunning op

/-! ## The commands of this chapter -/

/-- Whether an image of `len` body bytes at `off` lies in working RAM. -/
def inWorkingRam (off len : Nat) : Bool := off % 4 = 0 && off + 256 + len ≤ 4194304

/-- Flash bank `b` is erased (R453). -/
def Mem.eraseBank (m : Mem) (b : Nat) : Mem := Store.clear (memKey 6 (bankOff b)) (memKey 6 (bankOff (b + 1))) m

/-- The refusal code of `FW_INSTALL`, 0 for none (R448, R453). -/
def Chip.installCode (c : Chip) (m : Mem) (target a0 a1 : Nat) : Nat :=
  if target ≠ 0 then 15
  else if !inWorkingRam a0 0 || !inWorkingRam a0 (Mem.word m 0 (a0 + 8)) then 1
  else if !c.imageValid m 0 a0 then 2
  else if c.rd Dev.boot = 4 ∧ !c.on Dev.hostImg ∧ c.rd Dev.bank = a1 % 2 then 3
  else 0

/-- `FW_INSTALL` begins or is refused (R453): the bank is erased at once, its header comes last. -/
def Chip.fwInstall (c : Chip) (m : Mem) (target a0 a1 : Nat) : Chip × Mem :=
  let code := c.installCode m target a0 a1
  let b := a1 % 2
  let seq := (max (Mem.bankSeq m 0) (Mem.bankSeq m 1) + 1) % 2 ^ 32
  if code ≠ 0 then ((if code = 2 then c.raise 0xF4 devPage 2 0 else c).cmdEnd 7 code, m)
  else ((c.updHost (fun h => { h with install := some (b, a0, 256 + Mem.word m 0 (a0 + 8), seq) })).cmdRunning 7, Mem.eraseBank m b)

/-- The flash write ends (R453). -/
def Chip.fwInstallDone (c : Chip) (m : Mem) (ok : Bool) : Chip × Mem :=
  match c.host.install with
  | none => (c, m)
  | some (b, off, n, seq) =>
    let c := c.updHost (fun h => { h with install := none })
    if !ok then (c.cmdEnd 7 4, m)
    else
      let img := Mem.bytes m 0 off n
      ((c.emit (.flash b n)).cmdEnd 7 0, Mem.puts m 6 (bankOff b) (img.take 16 ++ leBytes 4 seq ++ img.drop 20))

/-- `KEY_ROTATE` (R454, R461). -/
def Chip.keyRotate (c : Chip) (target a0 : Nat) : Chip :=
  if target ≠ 1 ∨ c.otp.active1 then c.cmdEnd 8 1
  else if !c.otp.prog1 ∨ !c.slotServes 1 then c.cmdEnd 8 2
  else if c.rd (Pwr.railInWin.nth 9) = 0 then c.cmdEnd 8 3
  else (c.updHost (fun h => { h with rotate := some (bit a0 0) })).cmdRunning 8

/-- The fuses have been programmed (R454). A WARM request that waited begins (R473). -/
def Chip.keyRotateDone (c : Chip) (m : Mem) (ok : Bool) : Chip × Mem :=
  match c.host.rotate with
  | none => (c, m)
  | some rv =>
    let c := c.updHost (fun h => { h with rotate := none })
    let c := if ok then { c with otp := { c.otp with active1 := true, revoked0 := c.otp.revoked0 || rv } } else c
    let c := c.cmdEnd 8 (if ok then 0 else 3)
    match c.power.deferred with
    | none => (c, m)
    | some cause => c.warmRequest m cause

/-- `DEV_COMPAT` takes a value (R29, R31, R33, R279). -/
def Chip.setCompat (c : Chip) (v : Nat) : Chip :=
  let old := c.rd Dev.compat
  let c := c.wr Dev.compat v
  let c := if v % 16 = old then c else c.stick devPage 1
  let c := if bit old 3 ∧ !bit v 3 then c.wr Sched.plen 1 else c
  c.showRate.showStatic

/-- The refusal code of `COMPAT_SET`, 0 for none (R32, R448, R455). A device that yields ignores mirrored writes and refuses as a
standby does (R390). DESIGN CHOICE (log entry 22): on a paired device the values in force are judged, not those of accepted
writes that still wait for their epoch. -/
def Chip.compatCode (c : Chip) (target a0 : Nat) : Nat :=
  let diff := a0 ^^^ c.rd Dev.compat
  if target ≠ 0 then 15
  else if 16 ≤ a0 then 1
  else if c.ignoresMirrored then 2
  else if (bit diff 1 && c.enabled mixPage) || (bit diff 3 && c.enabled schedPage) then 3
  else 0

/-- `COMPAT_SET` (R34, R455). -/
def Chip.compatSet (c : Chip) (target a0 : Nat) : Chip :=
  let code := c.compatCode target a0
  if code ≠ 0 then c.cmdEnd 0x0A code
  else (if c.mirrors then c.mirrorWrite (masterOf c.host.issuer) 0 devPage 0x48 a0 15 else c.setCompat a0).cmdEnd 0x0A 0

end Sys2Proof.Machine
end

