-- ==== Sys2Proof/Machine/Ingest.lean ====
section
/-! DEFINITION. Video ingest, alignment and frame synchronisers (R71 to R96): one meaning per row. -/

namespace Sys2Proof.Machine

/-- R72: a write of input `i`'s configuration words 0 and 1. -/
def execInputDescriptorWrite (m : Master) (i : Fin 1152) (w0 w1 : BitVec 32) (s : State) : Host.Outcome State Fault Refusal :=
  act s (fun c => c.guardedWords m 1 vinPage 0 [(8 * i.val, w0.toNat), (8 * i.val + 1, w1.toNat)] true (fun c => c.writeDescriptor i w0.toNat w1.toNat))

/-- R72: the frame start, or the millisecond, at which a stored configuration takes effect. -/
def execInputConfigApply (i : Fin 1152) (s : State) : Host.Outcome State Fault Refusal :=
  act s (fun c => c.applyDescriptor i)

/-- The checks of a received line (R74, R75): CRC of every data stream, EDH on rasters 0 and 1, ANC checksums. A line that lost
words is damaged and not in error. The line CRC is checker 9 (R419). -/
def Chip.checkLine (c : Chip) (i : Nat) (v : VideoLine) (ws : List (Option (BitVec 10))) : Chip :=
  let fmt := c.inputFmt i
  let crc := crcRaster fmt && c.on Vin.crcEn && !ws.any Option.isNone
  let k := if crc then c.check 9 i (lineSyndrome v.streams) else ⟨c, 0, 0, false⟩
  let bad := crc && k.real ≠ 0
  let c := if crc then k.c.judge 0x30 vinPage i 0 bad k.inj else k.c
  let c := if bad || k.inj then c.stick vinPage 0 else c
  let c := if bad then c.inc (Vin.crcErr.nth i) else c
  let c := if rasterOf fmt ≤ 1 ∧ c.on Vin.edhEn then
      let q := c.edhLine i fmt v.line.toNat ws v.edh
      let c := q.2.judge 0x31 vinPage i 0 q.1
      if q.1 then (c.inc (Vin.crcErr.nth i)).stick vinPage 1 else c
    else c.updInput i (fun x => { x with edhOk := false })
  c.ancPackets i v.line.toNat v.anc

/-- The words of a received line: those of a serial line as they came, those of an ST 2022-6 line as its merge buffer released
them (R77). -/
def Chip.lineWords (c : Chip) (i : Nat) (v : VideoLine) : List (Option (BitVec 10)) :=
  if c.rd (Vin.transport.nth i).live = 2 then (c.merge i).line.map (fun w => w.map (BitVec.ofNat 10)) else v.words

/-- R75: a line of a serial input or a depacketised ST 2022-6 line is received (an ST 2110-20 input has no such lines). Valid TRS wakes a lost input; lines without a
valid EAV lose it; a damaged line is filled, counted and reported as source `0x34`. -/
def execInputLineReceive (i : Fin 1152) (v : VideoLine) (s : State) : Host.Outcome State Fault Refusal :=
  act s (fun c =>
    if c.inputSt i = InSt.unbound ∨ (c.rd (Vin.transport.nth i).live = 2 ∧ !c.on (Vpkt.pkind.nth i)) then c
    else if !v.eav then
      let n := (c.input i).noEav + 1
      let c := c.updInput i (fun x => { x with noEav := n })
      if 2 ≤ c.inputSt i ∧ orElse0 (c.rd Vin.lossLines) 1 ≤ n then c.setInput i InSt.lost else c
    else
      let c := c.updInput i (fun x => { x with noEav := 0 })
      let c := if c.inputSt i = InSt.lost then c.setInput i InSt.acquiring else c
      let c := match v.pid with
        | some p => c.wr (Vin.pid.nth i) p.toNat
        | none => c
      let ws := c.lineWords i v
      let serial := c.rd (Vin.transport.nth i).live = 1
      let damaged := ws.any Option.isNone && serial
      let c := c.checkLine i v ws
      let c := if serial then c.judge 0x34 vinPage i 0 damaged else c
      let c := if damaged then (c.inc (Vin.lostLines.nth i)).stick vinPage 4 else c
      let c := (c.storeLine i v.line.toNat v.f2 ws).deembed i v.line.toNat v.audio
      let c := match v.meas with
        | some m => c.noteFormat i m.toNat
        | none => c
      match v.eps with
      | some e => c.measureEps i e.toInt
      | none => c)

/-- R75: the same measurement has held for `ACQ_FRAMES` frames; `pidAgrees` tells whether the payload ID, when present, names
the measured format. An ST 2110-20 input takes its payload ID from the format and from `clr`, the colorimetry of the flow's
declaration (R71, R77). In `FMT_ERR` a changed measurement starts the acquisition again. The merge region of an ST 2022-6 input with
`FMT` 0xFF is from now on that of the measured format (R80). -/
def execFormatDecide (i : Fin 1152) (pidAgrees : Bool) (clr : BitVec 3) (s : State) : Host.Outcome State Fault Refusal :=
  act s (fun c =>
    let st := c.inputSt i
    let x := c.input i
    if st = InSt.fmtErr then (if x.acqRun ≠ 0 ∧ c.rd (Vin.mfmt.nth i) ≠ x.acqFmt then (c.setInput i InSt.acquiring).wr (Vin.mfmt.nth i) 0xFF else c)
    else if st ≠ InSt.acquiring ∨ x.acqRun < orElse0 (c.rd Vin.acqFrames) 1 then c
    else
      let c := c.wr (Vin.mfmt.nth i) x.acqFmt
      let c := if c.rd (Vin.transport.nth i).live = 2 then
          (c.updMerge i (fun m => { m with bytes := mergeBytes (c.mergeWords i (c.rd (Vin.fmt.nth i).live)) (c.winOf i) })).showPool
        else c
      let raster := c.rd (Vin.transport.nth i).live = 2 ∧ !c.on (Vpkt.pkind.nth i)
      let c := if raster then c.wr (Vin.pid.nth i) (payloadId x.acqFmt clr.toNat) else c
      let mism := !pidAgrees && c.on Vin.pidEn && !raster
      let c := c.wr (Vin.pidMismatch.nth i) (b2n mism)
      let c := if mism then (c.raiseNote 0x33 vinPage i 1).stick vinPage 3 else c
      c.judgeInput i)

/-- R73: `LOSS_LINES` lines without a valid EAV, or as long without a packet. -/
def execInputLoss (i : Fin 1152) (s : State) : Host.Outcome State Fault Refusal :=
  act s (fun c => if 2 ≤ c.inputSt i ∧ c.inputSt i ≤ 6 then c.setInput i InSt.lost else c)

/-- R81, R85: `ENTRY_FRAMES` frames inside the window: the input becomes `TIMED`, unless its `FS_MODE` keeps it `SYNCED`. -/
def execAlignEntry (i : Fin 1152) (s : State) : Host.Outcome State Fault Refusal :=
  act s (fun c =>
    let st := c.inputSt i
    let mode := c.rd (Vin.fsMode.nth i).live
    if (st = InSt.acquiring ∧ c.rd (Vin.mfmt.nth i) ≠ 0xFF ∨ st = InSt.untimed) ∧ mode ≠ 1 ∧ mode ≠ 3 ∧ (c.input i).sync.isNone ∧
        orElse0 (c.rd Vin.entryFrames) 1 ≤ (c.input i).inRun then c.verdict i 0 0xFF 0
    else c)

/-- R81, R85: `OOW_FRAMES` frames out of the window: in `AUTO` mode the lowest free pool synchroniser is attached, else the
input becomes `UNTIMED` as source `0x40` (with `0x43` when none is free). -/
def execAlignExit (i : Fin 1152) (s : State) : Host.Outcome State Fault Refusal :=
  act s (fun c =>
    if c.isStandby ∨ c.inputSt i ≠ InSt.timed ∨ (c.input i).outRun < orElse0 (c.rd Vin.oowFrames) 1 ∨
        c.promised.any (fun p => p.2 = i) then c
    else if c.rd (Vin.fsMode.nth i).live ≠ 2 then c.verdict i 1 0xFF 0
    else match c.freePoolSync with
      | some n => c.verdict i 2 n 0
      | none => ((c.raise 0x43 fsyncPage i 0).stick fsyncPage 1).verdict i 1 0xFF 0)

/-- R85: the re-entry condition has held for 50 frames: the `AUTO` synchroniser is released at a read-frame start. -/
def execFsAutoRelease (i : Fin 1152) (s : State) : Host.Outcome State Fault Refusal :=
  act s (fun c =>
    if c.inputSt i = InSt.synced ∧ c.rd (Vin.fsMode.nth i).live = 2 ∧ 50 ≤ (c.input i).reRun then c.verdict i 0 0xFF 0 else c)

/-- R83: the bank of a timed input starts a read frame with a new ε; a step over 64 words is source `0x41`. -/
def execBankReadFrameStart (i : Fin 1152) (s : State) : Host.Outcome State Fault Refusal :=
  act s (fun c =>
    if c.inputSt i ≠ InSt.timed then c
    else
      let e := c.rdS (Vin.eps.nth i)
      let jump := decide (64 < (e - (c.bank i).eps).natAbs)
      let c := c.judge 0x41 vinPage i 0 jump
      let c := if jump then c.stick vinPage 8 else c
      { c with banks := Store.upd {} c.banks i (fun b => { b with eps := e, pos := 0 }) })

/-! ## Packet inputs -/

/-- A path of a packet input, as the instance under which its misses are judged (R78). -/
def pathInst (i : Nat) (pathB : Bool) : Nat := i + 65536 * b2n pathB

/-- Extend a 16-bit sequence number to 32 bits (R78): the number nearest to the highest one so far. -/
def extendSeq (high : Option Nat) (v : Nat) : Nat :=
  match high with
  | none => v
  | some h =>
    let d := (v + 65536 - h % 65536) % 65536
    if d < 32768 then h + d else if 65536 ≤ h + d then h + d - 65536 else v

/-- The sequence number of a packet in 32 bits (R78): ST 2022-6 carries 16 of them. -/
def Chip.packetSeq (c : Chip) (i seq : Nat) : Nat :=
  if c.on (Vpkt.pkind.nth i) then extendSeq (c.merge i).high (seq % 65536) else seq

/-- R78, R295: a packet of receive flow `flow`, an entry for the input's kind of packets, for a packet input, which takes it from `FLOW_A`
and, with `B_EN`, from `FLOW_B` (R77): the first copy is kept, a copy is discarded, a packet of a released line is late (source `0x39`). `seq` is its extended sequence
number, of which ST 2022-6 carries 16 bits; `line` counts the lines of the flow, `off` the words within the line. Where a packet's words
stand is in the packet itself in both packing modes, so `PMODE` changes nothing here. -/
def execVideoPacketReceive (i : Fin 1152) (flow : BitVec 14) (seq line off : BitVec 32) (words : List (BitVec 10)) (s : State) :
    Host.Outcome State Fault Refusal :=
  act s (fun c =>
    let onA := decide (flow.toNat = c.rd (Vpkt.flowA.nth i))
    let pathB := !onA
    if c.rd (Vin.transport.nth i).live ≠ 2 ∨ (pathB ∧ !(c.on (Vpkt.bEn.nth i) && flow.toNat = c.rd (Vpkt.flowB.nth i))) ∨
        !c.on (Flowq.fEn.nth flow.toNat).live ∨ c.rd (Flowq.fUse.nth flow.toNat).live ≠ c.rd (Vpkt.pkind.nth i) then c
    else
      let c := if c.inputSt i = InSt.lost then c.setInput i InSt.acquiring else c
      let c := c.judge 0x38 vpktPage (pathInst i pathB) 0 false
      let m := c.merge i
      let ext := c.packetSeq i seq.toNat
      let c := c.updMerge i (fun m => { m with high := some (max ext (m.high.getD 0)) })
      let late := decide (line.toNat < m.released)
      let c := c.judge 0x39 vpktPage i 0 late
      if late then (c.inc (Vpkt.late.nth i)).stick vpktPage 2
      else if m.pkts.any (fun p => p.seq = ext) then
        c.updMerge i (fun m => { m with pkts := m.pkts.map (fun p =>
          if p.seq = ext then { p with gotA := p.gotA || !pathB, gotB := p.gotB || pathB } else p) })
      else
        c.updMerge i (fun m => { m with pkts := m.pkts ++
          [⟨ext, line.toNat, off.toNat, words.map BitVec.toNat, !pathB, pathB⟩] }))

/-- The words of a line from its packets; what no packet brought is missing (R78). -/
def mergeLine (n : Nat) (ps : List MergePkt) : List (Option (BitVec 10)) :=
  (List.range n).map (fun k =>
    (ps.find? (fun p => p.off ≤ k && k < p.off + p.words.length)).map (fun p => BitVec.ofNat 10 (p.words.getD (k - p.off) 0)))

/-- Count the packets of a line that one path did not bring (R78, R95). -/
def Chip.pathMisses (c : Chip) (i : Nat) (ps : List MergePkt) : Chip :=
  if !c.on (Vpkt.bEn.nth i) then c
  else ps.foldl (fun c p =>
    if p.gotA && p.gotB then c
    else
      ((c.inc (if p.gotA then Vpkt.missB.nth i else Vpkt.missA.nth i)).judge 0x38 vpktPage (pathInst i p.gotA) 0 true).stick
        vpktPage 1) c

/-- The words of ANC packets that stand in the luma stream of a line (R77). -/
def ancWords (ps : List AncPacket) : List Nat :=
  (ps.filter (fun p => p.good)).flatMap (fun p => ancPacketWords p.did.toNat p.sdid.toNat (p.data.map BitVec.toNat))

/-- A line of an ST 2110-20 input (R77): the active words as received, lost ones filled as R75 says, and everything about them formed
anew; payload ID and ANC stand in the blanking of the luma stream. -/
def Chip.rasterLine (c : Chip) (i fmt line : Nat) (f2 : Bool) (act : List (Option (BitVec 10))) (anc : List AncPacket) :
    BankLine × Chip :=
  let old := (c.prevLine i f2).map (fun p => p.drop (p.length - 2 * activeWidth fmt))
  let q := c.fillWords old 0 act
  let pid := payloadIdWords fmt line (c.rd (Vin.pid.nth i))
  let before := ((c.bank i).lines.head?.map BankLine.words).getD []
  (⟨line, f2, buildLine fmt line f2 before (pid ++ ancWords anc) q.1⟩, q.2)

/-- Whether ANC of an ST 2110-20 input is received (R77, R295): `ANC_FLOW` names an enabled entry for ANC. -/
def Chip.takesAnc (c : Chip) (i : Nat) : Bool :=
  let q := c.rd (Vpkt.ancFlow.nth i)
  c.on (Vpkt.ancFlowEn.nth i) && c.on (Flowq.fEn.nth q).live && c.rd (Flowq.fUse.nth q).live = 2

/-- R78, R79: the merge buffer releases the next line of input `i`: data missing on all paths make it damaged (source `0x37`). A line of
ST 2022-6 then goes to the checks of INPUT_LINE_RECEIVE, which measures its format and arrival; one of ST 2110-20 is formed and stored
here, with the packets `anc` that the flow `ANC_FLOW` states for it when `ANC_EN` = 1 and the samples `audio` of its audio packets (R75).
With its line 1 the arrival `eps` and the format `meas` of the frame before are measured. -/
def execMergeLineRelease (i : Fin 1152) (eps : BitVec 26) (meas : BitVec 8) (anc : List AncPacket) (audio : List EmbSample) (s : State) :
    Host.Outcome State Fault Refusal :=
  act s (fun c =>
    if c.rd (Vin.transport.nth i).live ≠ 2 then c
    else
      let m := c.merge i
      let n := m.released
      let ps := m.pkts.filter (fun p => p.line = n)
      let fmt := c.inputFmt i
      let t := max 1 (totalLines fmt)
      let line := n % t + 1
      let sdi := c.on (Vpkt.pkind.nth i)
      let width := if sdi then (if fmt = 0xFF then (ps.map (fun p => p.off + p.words.length)).foldl max 0
          else (if rasterOf fmt = 6 then 2 else 1) * wordsPerLine fmt)
        else if (activeRow fmt line).isSome then 2 * activeWidth fmt else 0
      let ws := mergeLine width ps
      let missing := ws.any Option.isNone
      let c := c.updMerge i (fun m => { m with pkts := m.pkts.filter (fun p => p.line ≠ n), released := n + 1 })
      let c := (c.pathMisses i ps).judge 0x37 vpktPage i 0 missing
      let c := if missing then ((c.inc (Vpkt.loss.nth i)).inc (Vin.lostLines.nth i)).stick vpktPage 0 else c
      if sdi then c.updMerge i (fun m => { m with line := ws.map (fun w => w.map BitVec.toNat) })
      else
        let takes := c.takesAnc i
        let ps := if takes then anc else []
        let q := (c.ancPackets i line ps).rasterLine i fmt line (secondField fmt line) ws ps
        let c := (q.2.keepLine i q.1).deembed i line (if takes then audio else [])
        if n % t = 0 then (c.noteFormat i meas.toNat).measureEps i eps.toInt else c)

/-! ## Synchronisers -/

/-- R86, R88: a read-frame start of a synchroniser. After loss it repeats the last complete frame or turns black. A `FREE` one selects
the newest complete frame whose last active line was written `GUARD` lines ago or earlier, as an advance of 0, 1 or 2 frames (R89); the
links of a quad-link set that are read so follow the first of them (R76). -/
def execFsReadFrameStart (n : Fin 256) (s : State) : Host.Outcome State Fault Refusal :=
  act s (fun c =>
    let i := c.rd (Fsync.input.nth n)
    let y := c.sync n
    if i = 0x7FF then c
    else if y.lost then
      let limit := c.rd (Fsync.freezeFr.nth n)
      let k := y.frozen + 1
      let black := c.rd (Fsync.lossAct.nth n) = 1 || (limit ≠ 0 && limit < k)
      c.updSync n (fun s => { s with frozen := k, black := black, reading := s.complete, readFrame := s.newest })
    else if c.on (Fsync.locked.nth n) then c
    else
      let free := fun k => match (c.input k).sync with
        | some m => !c.on (Fsync.locked.nth m) && !(c.sync m).lost
        | none => false
      let links := if i < 1152 ∧ c.on (Vin.bond.nth (i - i % 4)).live then
          ((List.range 4).map (fun k => i - i % 4 + k)).filter free
        else [i]
      let ready := if c.rd Fsync.guard ≤ y.since then y.newest else y.newest - 1
      let adv := if y.readFrame = 0 then y.newest + 1 - ready else min 2 (ready - y.readFrame)
      if ready = 0 ∨ links.head? ≠ some i then c
      else links.foldl (fun c k =>
        match (c.input k).sync with
        | some m => c.verdict k 3 m adv
        | none => c) c)

/-- `FS_K` as it acts (R96). -/
def Chip.fsDelay (c : Chip) (n : Nat) : Nat :=
  let k := c.rd (Fsync.fsK.nth n)
  if k = 0 then 1 else min 2 k

/-- The number, in the flow, of the line that a `LOCKED` synchroniser reads next (R87). The line that is released now has waited `WIN`
lines, and the one read now `K` frames and two lines, so they stand `WIN` - `K` frames - 2 lines apart; from then on it goes line
by line. None while the flow is younger than that. A line of raster 6 over ST 2022-6 counts as the two level A lines it becomes. -/
def Chip.lockedPos (c : Chip) (n i : Nat) : Option Nat :=
  match (c.sync n).readPos with
  | some p => some p
  | none =>
    let n0 := (c.merge i).released
    let a := (if rasterOf (c.inputFmt i) = 6 then 2 * n0 + 1 else n0) + c.winOf i
    let b := c.fsDelay n * totalLines (c.inputFmt i) + 2
    if b ≤ a then some (a - b) else none

/-- A read of a synchroniser that reads whole frames, of frame line `line`, is delayed by HBM (R88): the line before it is read again,
source `0x44`. -/
def Chip.syncLate (c : Chip) (n line : Nat) (late : Bool) : Chip :=
  let c := c.judge 0x44 fsyncPage n 0 late
  if !late then c
  else
    (c.stick fsyncPage 2).updSync n (fun s =>
      let f2 := secondField s.fmt line
      let old := s.reading.find? (fun l => l.line + 1 = line && l.f2 = f2)
      { s with reading := s.reading.map (fun l => if l.line = line then { l with words := (old.map BankLine.words).getD l.words } else l) })

/-- R87, R88: a line of a synchroniser is read. A `LOCKED` one reads its next line at its timestamp time; a line that has not been
released, or a read delayed by HBM, is answered with the previous line of the same field, source `0x44`. Any other reads `line` of its
frame. `word` and `ecc` are the word that is read in the synchroniser's stack and what its checker sees: a line with a word that is lost is
a late one (R423). -/
def execFsLockedLineRead (n : Fin 256) (line : BitVec 12) (hbmLate : Bool) (word : BitVec 32) (ecc : MemRead)
    (s : State) : Host.Outcome State Fault Refusal :=
  act s (fun c =>
    let i := c.rd (Fsync.input.nth n)
    let y := c.sync n
    let stack := n.val / 128
    let bad := (ecc.syn ≠ 0 && !oneBit ecc.syn.toNat) || c.isPoisoned stack 0 word.toNat
    let hbmLate := hbmLate || bad
    let c := c.memRead stack 0 word.toNat ecc.syn.toNat ecc.again.toNat ((c.destsOf i).map (fun d => (0, d))) true
    if i = 0x7FF then c
    else if !c.on (Fsync.locked.nth n) ∨ y.lost then c.syncLate n line.toNat hbmLate
    else match c.lockedPos n i with
    | none => c
    | some pos =>
      let fmt := c.inputFmt i
      let t := max 1 (totalLines fmt)
      let line := pos % t + 1
      let f2 := secondField fmt line
      let found := (y.ring.find? (fun l => l.1 = pos)).map Prod.snd
      let late := hbmLate || found.isNone
      let c := c.judge 0x44 fsyncPage n 0 late
      let c := if late then c.stick fsyncPage 2 else c
      let c := if found.isNone ∧ i < 1152 then c.inc (Vpkt.late.nth i) else c
      let old := (y.lastRead.find? (fun l => l.f2 = f2)).map (fun l => (⟨line, f2, l.words⟩ : BankLine))
      let now := if late then old else found
      let c := c.updSync n (fun s =>
        { s with readPos := some (pos + 1), lastRead := now.toList ++ s.lastRead.filter (fun l => now.isNone || l.f2 ≠ f2),
                 pics := match now with
                   | some l => addPicLine l s.pics
                   | none => s.pics })
      if line = 1 then (c.wr (Fsync.state.nth n) 2).updSync n (fun s => { s with readFrame := s.readFrame + 1 })
      else c)

/-- R88: `FREEZE_FR` frames of freeze are over: black with silent audio. -/
def execFsFreezeExpire (n : Fin 256) (s : State) : Host.Outcome State Fault Refusal :=
  act s (fun c =>
    if (c.sync n).lost ∧ c.rd (Fsync.lossAct.nth n) = 0 ∧ c.rd (Fsync.freezeFr.nth n) ≠ 0 then
      c.updSync n (fun s => { s with black := true })
    else c)

/-- R73: one frame after a BLOCK reset of VIN every input is rebound from its descriptor. -/
def execVinRebind (s : State) : Host.Outcome State Fault Refusal :=
  act s (fun c =>
    (c.vin.map Prod.fst).foldl (fun c i =>
      if (c.input i).rebind then (c.updInput i (fun x => { x with rebind := false, waiting := true })).applyDescriptor i else c) c)

end Sys2Proof.Machine
end

