-- ==== Sys2Proof/Machine/Network.lean ====
section
/-! DEFINITION. Network time (R354 to R364): PTP, the STC, compare units and event capture, one meaning per row. -/

namespace Sys2Proof.Machine

/-- `JUMP_LIMIT` as it acts, in 2^-8 ns (R371). -/
def Chip.jumpLimit (c : Chip) : Nat := 256 * max 100 (c.rd Ptp.jumpLimit)

/-- An instance in `UNCALIBRATED` counts consecutive syncs within 1 us and locks at 16 (R355). -/
def Chip.calibrate (c : Chip) (x : Nat) (ofs : Int) : Chip :=
  if c.rd (Ptp.iState.nth x) ≠ 2 then c
  else
    let n := if ofs.natAbs ≤ 256000 then (c.ptpInst x).run + 1 else 0
    let c := c.updPtp x (fun p => { p with run := n })
    if 16 ≤ n then c.setPtp x 3 else c

/-- The servo sets `TIME_RATE` from an offset (R356): an integral frequency estimate plus a proportional term within
`MAX_ADJ`. Both act against the offset; the spec states neither gain, so their sizes are free (log entry 2). It acts in `SLAVE` only,
and when it takes over again the estimate begins at the rate as it is, so that the rate is continuous (R358). At its limit for 10 s the
term raises `0xB6`. -/
def Chip.servoRate (c : Chip) (x : Nat) (ofs : Int) : Chip :=
  if c.rateHeld ∨ c.rd (Ptp.iState.nth x) ≠ 3 then c
  else if !c.mer.servo then c.updMer (fun m => { m with servo := true, est := c.rdS Time.rate })
  else
    let lim : Int := 256 * c.rd Ptp.maxAdj
    let against : Int := -ofs.sign
    let est := c.mer.est + against * c.fresh.1
    let c := c.fresh.2
    let prop := clampI (-lim) lim (against * c.fresh.1)
    let c := (c.fresh.2.wrS Time.rate (est + prop)).updMer (fun m => { m with est := est })
    let n := if prop = lim ∨ prop = -lim then (c.ptpInst x).adjRun + 2 ^ ((toSigned 4 (c.rd (Ptp.iLogSync.nth x)) + 7).toNat) else 0
    let was := (c.ptpInst x).adjRun
    let c := c.updPtp x (fun p => { p with adjRun := n })
    if was < 1280 ∧ 1280 ≤ n then (c.raise 0xB6 ptpPage x 0).stick ptpPage 6 else c

/-- An offset is refused (R356). -/
def Chip.refuseOffset (c : Chip) (x : Nat) : Chip :=
  let n := (c.ptpInst x).refuseRun + 1
  let c := (c.updPtp x (fun p => { p with refuseRun := n, run := 0 })).updMer (fun m => { m with servo := m.servo && c.rd Ptp.steer ≠ x })
  let c := ((c.wr (Ptp.iRefusing.nth x) 1).inc (Ptp.refused.nth x)).stick ptpPage 0
  let c := if n = orElse0 (c.rd Ptp.jumpN) 1 then (c.raise 0xB1 ptpPage x 0).stick ptpPage 1 else c
  (c.wr Ptp.following (b2n c.rateFollows)).ptpCand x

/-- An offset within the limit ends a refusal (R356). -/
def Chip.endRefusal (c : Chip) (x : Nat) : Chip :=
  let c := (c.wr (Ptp.iRefusing.nth x) 0).updPtp x (fun p => { p with refuseRun := 0 })
  (c.wr Ptp.following (b2n c.rateFollows)).ptpCand x

/-- The first lock after POR or COLD (R356): four consecutive offsets that agree within 1 us, then one step by their mean. -/
def Chip.firstLock (c : Chip) (x : Nat) (ofs : Int) : Chip :=
  let l := ((c.ptpInst x).offs ++ [ofs])
  let l := l.drop (l.length - 4)
  let c := c.updPtp x (fun p => { p with offs := l })
  if l.length = 4 ∧ l.all (fun a => l.all (fun b => decide ((a - b).natAbs ≤ 256000))) then
    let m := c.divFree l.sum 4
    ((m.2.stepStc x m.1).wr Ptp.stepped 1).updPtp x (fun p => { p with offs := [] })
  else c

/-- The instance that steers the STC handles one offset (R355, R356). -/
def Chip.steerOffset (c : Chip) (x : Nat) (ofs : Int) : Chip :=
  if !c.on Ptp.stepped then (c.firstLock x ofs).calibrate x ofs
  else if c.jumpLimit < ofs.natAbs then c.refuseOffset x
  else ((c.endRefusal x).servoRate x ofs).calibrate x ofs

/-- A restep is armed on instance `x`, or has been done (R357). -/
def Chip.armRestep (c : Chip) (x : Nat) (on : Bool) : Chip :=
  let c := c.updPtp x (fun p => { p with armed := on })
  c.wr Ptp.restepArmed (b2n ((c.ptpInst 0).armed || (c.ptpInst 1).armed))

/-- The next offset of an armed instance steps the STC, whatever its size (R357). -/
def Chip.restep (c : Chip) (x : Nat) (ofs : Int) : Chip :=
  ((((c.stepStc x ofs).wr Ptp.stepped 1).armRestep x false).endRefusal x).calibrate x ofs

/-- The other instance applies the jump rule to the change of its filtered offset since it entered `SLAVE` (R356). -/
def Chip.watchOffset (c : Chip) (x : Nat) (ofs : Int) : Chip :=
  if c.rd (Ptp.iState.nth x) = 3 ∧ c.jumpLimit < (ofs - (c.ptpInst x).base).natAbs then c.refuseOffset x
  else (c.endRefusal x).calibrate x ofs

/-- R356: the servo runs with an instance's filtered offset, in 2^-8 ns. A sync has come, which is the second attempt of a
sync timeout (R355). -/
def execPtpServoUpdate (x : Fin 2) (ofs : BitVec 96) (s : State) : Host.Outcome State Fault Refusal :=
  act s (fun c =>
    if c.rd (Ptp.iState.nth x) = 2 ∨ c.rd (Ptp.iState.nth x) = 3 then
      let c := (c.judge 0xB2 ptpPage x 0 false).setOfs x ofs.toInt
      if (c.ptpInst x).armed then c.restep x ofs.toInt
      else if c.rd Ptp.steer = x.val then c.steerOffset x ofs.toInt else c.watchOffset x ofs.toInt
    else c)

/-- The command `PTP_RESTEP` (R357): its refusal code, and the machine. -/
def cmdPtpRestep (c : Chip) (x : Nat) : Nat × Chip :=
  if c.rd Ptp.steer ≠ x ∨ 1 < x then (1, c)
  else if c.rd (Ptp.iState.nth x) ≠ 2 ∧ c.rd (Ptp.iState.nth x) ≠ 3 then (2, c)
  else if c.ignoresMirrored then (3, c)
  else (0, c.decision 7 ptpPage 0xFFFFFFFF [x] (fun c => c.armRestep x true))

/-- R357: an accepted `PTP_RESTEP`. -/
def execPtpRestep (target : BitVec 16) (s : State) : Host.Outcome State Fault Refusal :=
  act s (fun c => (cmdPtpRestep c target.toNat).2.cmdEnd 0x0B (cmdPtpRestep c target.toNat).1)

/-- R355: no announce for `ANN_TO` announce intervals. -/
def execPtpAnnounceTimeout (x : Fin 2) (s : State) : Host.Outcome State Fault Refusal :=
  act s (fun c =>
    if c.rd (Ptp.iState.nth x) = 2 ∨ c.rd (Ptp.iState.nth x) = 3 then
      ((c.raise 0xB3 ptpPage x 0).stick ptpPage 3).setPtp x 1
    else c)

/-- R355: no sync for `SYNC_TO` sync intervals; the second attempt is the next sync interval. -/
def execPtpSyncTimeout (x : Fin 2) (s : State) : Host.Outcome State Fault Refusal :=
  act s (fun c =>
    if c.on (Ptp.iEn.nth x) ∧ c.rd (Ptp.iState.nth x) ≠ 4 then
      let c := (c.judge 0xB2 ptpPage x 0 true).stick ptpPage 2
      if c.rd (Ptp.iState.nth x) = 2 ∨ c.rd (Ptp.iState.nth x) = 3 then c.setPtp x 1 else c
    else c)

/-- A grandmaster's data set as one number, the lower the better (R354): priority 1, class, accuracy, variance, priority 2, identity.
PRESUMED from IEEE 1588 (log entry 30), whose default algorithm the three profiles run. -/
def dataSet (p1 cls acc variance p2 id : Nat) : Nat :=
  ((((p1 * 256 + cls) * 256 + acc) * 65536 + variance) * 256 + p2) * 2 ^ 64 + id

/-- The data set of the grandmaster that instance `x` follows. -/
def Chip.ownDataSet (c : Chip) (x : Nat) : Nat :=
  dataSet (c.ptpInst x).prio1 (c.rd (Ptp.gmClass.nth x)) (c.rd (Ptp.gmAccuracy.nth x)) (c.rd (Ptp.gmVariance.nth x))
    (c.ptpInst x).prio2 (c.rd (Ptp.gmIdLo.nth x) + 2 ^ 32 * c.rd (Ptp.gmIdHi.nth x))

/-- R354, R355: an announce in domain `dom`, of priorities `p1` and `p2`. The best-master algorithm takes it in the instance's own domain
when no master is chosen, from the master chosen, or from a better one. A change of grandmaster takes an instance out of `SLAVE` as
source `0xB4`; the clock class gives the candidate's QL (R333). -/
def execAnnounceReceive (x : Fin 2) (dom : BitVec 8) (gm : BitVec 64) (p1 p2 cls acc : BitVec 8) (variance utc : BitVec 16)
    (utcValid traceable : Bool) (s : State) : Host.Outcome State Fault Refusal :=
  act s (fun c =>
    let st := c.rd (Ptp.iState.nth x)
    let same := gm.toNat = c.rd (Ptp.gmIdLo.nth x) + 2 ^ 32 * c.rd (Ptp.gmIdHi.nth x)
    let better := dataSet p1.toNat cls.toNat acc.toNat variance.toNat p2.toNat gm.toNat < c.ownDataSet x
    if st = 0 ∨ st = 4 ∨ dom.toNat ≠ c.rd (Ptp.iDomain.nth x) ∨ (st ≠ 1 ∧ !(same || better)) then c
    else
      let changed := st ≠ 1 ∧ !same
      let c := (c.wr (Ptp.gmIdLo.nth x) (gm.toNat % 2 ^ 32)).wr (Ptp.gmIdHi.nth x) (gm.toNat / 2 ^ 32)
      let c := ((c.wr (Ptp.gmClass.nth x) cls.toNat).wr (Ptp.gmAccuracy.nth x) acc.toNat).wr (Ptp.gmVariance.nth x) variance.toNat
      let c := (c.wr (Ptp.iQl.nth x) (classQl cls.toNat)).updPtp x (fun p =>
        { p with traceable := traceable, prio1 := p1.toNat, prio2 := p2.toNat })
      let c := if c.rd Ptp.steer = x.val then (c.wr Ptp.utcOfs utc.toNat).wr Ptp.utcValid (b2n utcValid) else c
      let c := if changed then (c.raise 0xB4 ptpPage x 0).stick ptpPage 4 else c
      let c := if st = 1 ∨ changed then c.setPtp x 2 else c
      c.candChanged (4 + x))

/-- R367: a delay exchange gives a mean path delay, in 2^-8 ns; negative or above 1 ms it is source `0xB7`, whose second
attempt is the next exchange. -/
def execDelayExchange (x : Fin 2) (delay : BitVec 32) (s : State) : Host.Outcome State Fault Refusal :=
  act s (fun c =>
    if c.rd (Ptp.iState.nth x) = 0 ∨ c.rd (Ptp.iState.nth x) = 4 then c
    else
      let bad := decide (delay.toInt < 0 ∨ 256000000 < delay.toInt)
      let c := (c.judge 0xB7 ptpPage x delay.toNat bad).wr (Ptp.iDelay.nth x) delay.toNat
      if bad then c.stick ptpPage 7 else c)

/-- R328, R359: one `LOSC_IN` cycle, while it is not lost: 40 ns corrected by `TIME_RATE`; what is below the fraction carries on. Compare units on the STC
fire (R362), and frame pulses of `RATE` 8 start at each second (R353). -/
def execStcAdvance (s : State) : Host.Outcome State Fault Refusal :=
  act s (fun c =>
    if c.mer.stopped then c else
    let a := c.mer.stcRes + 2621440 * (256000000000 + c.rdS Time.rate)
    let sec := c.stc.sec
    let c := { c with stc := Stc.ofTotal (c.stc.total + a / 256000000000) }.updMer (fun m => { m with stcRes := a % 256000000000 })
    let c := if c.stc.sec = sec then c
      else (List.range 4).foldl (fun c n => if c.fpRateOf n = 8 then c.pulseStart n else c) c
    c.cmpCheck false)

/-- R359: a read of `TIME_STC_NS` by a master latches the seconds and the fraction for its later reads. -/
def execStcReadLatch (m : Master) (s : State) : Host.Outcome State Fault Refusal :=
  act s (fun c =>
    let t := c.stc
    { c with resp := .okay, rdata := [t.ns] }.updMer (fun x => { x with latch := Store.set {} x.latch (masterNum m) t }))

/-- `ARM` of compare unit `u` is written 1 (R362). -/
def Chip.compareArmGo (c : Chip) (u : Nat) : Chip :=
  if 0 ≤ c.cmpDiff u then (((c.wr (Time.cLate.nth u) 1).raise 0xB9 timePage u 0).stick timePage 9).cmpFire u
  else (c.wr (Time.cArm.nth u) 1).wr (Time.cLate.nth u) 0

/-- R362: a write of 1 to `ARM` of compare unit `u`: a unit whose target is past fires at once, late. -/
def execCompareArm (m : Master) (u : Fin 8) (s : State) : Host.Outcome State Fault Refusal :=
  act s (fun c => c.trigger m timePage (0x100 + 16 * u) 0 true (fun c => c.compareArmGo u))

/-- R362: a write of 1 to `DISARM`. -/
def execCompareDisarm (m : Master) (u : Fin 8) (s : State) : Host.Outcome State Fault Refusal :=
  act s (fun c => c.trigger m timePage (0x100 + 16 * u) 2 true (fun c => c.wr (Time.cArm.nth u) 0))

/-- Whether an edge of a capture input is selected (R363): `EVTn` by its `EDGE`, `REFINn` by its capture enable. -/
def Chip.edgeSelected (c : Chip) (source : Nat) (fall : Bool) : Bool :=
  if source < 8 then (bits (c.rd Time.evtEdges) (2 * source + 1) (2 * source)).testBit (b2n fall)
  else bit (c.rd Time.refcap) (6 * (source - 8) + 5)

/-- Count an edge of `REFINn` for its capture, and tell whether it is a 2^`K`-th one; above 24 `K` is treated as 24 (R363, R372). -/
def Chip.captureCount (c : Chip) (n : Nat) : Bool × Chip :=
  let k := min 24 (bits (c.rd Time.refcap) (6 * n + 4) (6 * n))
  let e := (Store.get 0 c.mer.capCnt n + 1) % 2 ^ k
  (e = 0, c.updMer (fun m => { m with capCnt := Store.set 0 m.capCnt n e }))

/-- R363, R364: a selected edge is stamped on the STC, `ns` nanoseconds after its last advance; inputs 0 to 7 are `EVTn`,
8 to 11 edges of `REFINn`, of which every 2^`K`-th one is stamped. -/
def execEventCapture (source : Fin 12) (fall : Bool) (ns : Fin 40) (s : State) : Host.Outcome State Fault Refusal :=
  act s (fun c =>
    let e := if source.val < 8 then (true, c) else c.captureCount (source - 8)
    if !c.edgeSelected source fall then c
    else if !e.1 then e.2
    else
      e.2.pushEvent source fall { Stc.ofTotal (c.stc.total + 65536 * ns.val) with frac := 0 })

end Sys2Proof.Machine
end

