-- ==== Sys2Proof/Machine/NovaCmds.lean ====
section
/-! DEFINITION. Nova cores (R225 to R260): one meaning per row. What a boundary does stands in NovaOps.lean and Period.lean. -/

namespace Sys2Proof.Machine

/-- A checked read of a core's memory (R419, R423): the chip, and whether the word cannot be used. -/
def Chip.novaEcc (c : Chip) (checker k addr key : Nat) (ecc : MemRead) : Chip × Bool :=
  let syn := ecc.syn.toNat % 256
  let syn := if syn = 0 ∧ (c.nova k).poison.contains key then 3 else syn
  let c := c.eccRead checker k 0x04 0x05 (novaPage k) k addr syn (ecc.again.toNat % 256) [(3, k)]
  if syn ≠ 0 ∧ !oneBit syn then
    (c.updNova k (fun x => { x with poison := if x.poison.contains key then x.poison else key :: x.poison }), true)
  else (c, false)

/-- R227 to R242, R248, R250: a core in `RUN` issues one bundle. `im`, `dm` and `dm2` are what the checkers see at its instruction read and of
its data reads (R419). -/
def execNovaBundleIssue (k : Fin 64) (im dm dm2 : MemRead) (s : State) : Host.Outcome State Fault Refusal :=
  act s (fun c =>
    let k := k.val
    if c.novaSt k ≠ Nst.run then c
    else
      let pc := (c.nova k).pc
      let i := c.novaEcc 2 k pc (65536 + pc) im
      if i.2 then i.1.novaFault k 7 0 pc
      else
        let c := i.1
        let x := c.nova k
        let r := x.issue (Config.freeNat c.free)
        let d := (if r.fault.isSome then [] else x.loadsFrom.zip [dm, dm2]).foldl (fun (d : Chip × Bool) q =>
          let e := d.1.novaEcc 3 k q.1 q.1 q.2
          (e.1, d.2 || e.2)) (c, false)
        if d.2 then d.1.novaFault k 7 0 pc
        else
          let c := if r.used then { d.1 with free := d.1.free + 1 } else d.1
          let c := if r.sat ∧ !x.sat then (c.inc (Nova.satCnt.on k)).stick (novaPage k) 5 else c
          let c := if r.unquiet ∧ !x.unquiet then (c.raise 0x82 (novaPage k) k 0).stick (novaPage k) 3 else c
          let c := if r.mbox then c.stick (novaPage k) 2 else c
          let y := { r.x with sat := x.sat || r.sat, unquiet := x.unquiet || r.unquiet }
          let c := (c.updNova k (fun _ => y)).showNova k
          match r.fault with
          | some f => c.novaFault k f.1 f.2.1 f.2.2
          | none =>
            if r.halted then
              let n := c.novaSteps k
              (((c.fillBlock (.nova (Fin.ofNat 64 k)) (c.novaBlocks k)).wr (Nova.state.on k) Nst.wait).wr (Nova.stepsLast.on k) n).wr (Nova.stepsMax.on k) (max n (c.rd (Nova.stepsMax.on k)))
            else c)

/-- R245: the exchange section has lasted E steps: the core enters `RUN` at `ENTRY`. -/
def execNovaExchangeEnd (k : Fin 64) (s : State) : Host.Outcome State Fault Refusal :=
  act s (fun c =>
    if c.novaSt k ≠ Nst.xchg then c
    else
      let c := c.wr (Nova.state.on k) Nst.run
      if (c.nova k).first then (c.updNova k (fun x => { x with first := false })).stick (novaPage k) 10 else c)

/-- R249: a handler is still running `IWIN` steps after its entry. -/
def execNovaHandlerWindow (k : Fin 64) (s : State) : Host.Outcome State Fault Refusal :=
  act s (fun c =>
    let x := c.nova k
    match x.irqAt with
    | some t0 =>
      if c.novaSt k = Nst.run ∧ !x.irqHit ∧ t0 + c.rd (Nova.iwin.on k) ≤ x.t then
        (((c.updNova k (fun x => { x with irqHit := true })).inc (Nova.iwinCnt.on k)).raise 0x83 (novaPage k) k 0).stick (novaPage k) 4
      else c
    | none => c)

/-- R252: a write of `NOVA_CTRL.RUN` = 1. -/
def execNovaRun (m : Master) (k : Fin 64) (s : State) : Host.Outcome State Fault Refusal :=
  act s (fun c => c.guarded m 0 (novaPage k) 0x40 1 true (fun c => c.novaRun k))

/-- R247: a write of `RUN` = 0. -/
def execNovaStop (m : Master) (k : Fin 64) (s : State) : Host.Outcome State Fault Refusal :=
  act s (fun c => c.guarded m 0 (novaPage k) 0x40 0 true (fun c => c.novaStop k))

/-- R243: a write of 1 to `CLR_FAULT`. -/
def execNovaClrFault (m : Master) (k : Fin 64) (s : State) : Host.Outcome State Fault Refusal :=
  act s (fun c => c.trigger m (novaPage k) 0x40 1 true (fun c => c.novaClr k))

/-- R253: a write to `NOVA_DBELL`. -/
def execNovaDoorbell (m : Master) (k : Fin 64) (v : BitVec 32) (s : State) : Host.Outcome State Fault Refusal :=
  act s (fun c => c.guarded m 0 (novaPage k) 0x68 v.toNat true (fun c => c.novaBell k v.toNat))

/-- R254: a write of `NOVA_PARAM` with `GO` = 1. -/
def execNovaParamGo (m : Master) (k : Fin 64) (len : BitVec 7) (s : State) : Host.Outcome State Fault Refusal :=
  act s (fun c => c.guarded m 0 (novaPage k) 0x70 (len.toNat + 128) true (fun c => c.novaParam k len.toNat true))

end Sys2Proof.Machine
end

