-- ==== Sys2Proof/Machine/Packet.lean ====
section
/-! DEFINITION. The packet blocks (R289 to R316): one meaning per row. -/

namespace Sys2Proof.Machine

/-- What a frame holds after its Ethernet header: the EtherType behind at most one IEEE 802.1Q tag, the VLAN identifier if it
is tagged, and the offset of what follows. -/
def etherHeader (f : List Nat) : Nat × Option Nat × Nat :=
  let t := beNat ((f.drop 12).take 2)
  if t = 0x8100 then (beNat ((f.drop 16).take 2), some (beNat ((f.drop 14).take 2) % 4096), 18) else (t, none, 14)

/-- Whether a packet is IPv4 UDP with IHL 5 and no fragmentation (R294). -/
def isFlowUdp (type : Nat) (ip : List Nat) : Bool :=
  type = 0x0800 && 28 ≤ ip.length && ip.getD 0 0 = 0x45 && ip.getD 9 0 = 17 && beNat ((ip.drop 6).take 2) % 16384 = 0

/-- Whether a frame is a PTP frame (R294). -/
def isPtp (type : Nat) (ip : List Nat) : Bool :=
  type = 0x88F7 || (type = 0x0800 && ip.getD 0 0 / 16 = 4 && ip.getD 9 0 = 17 &&
    (let p := beNat ((ip.drop (4 * (ip.getD 0 0 % 16) + 2)).take 2); p = 319 || p = 320))

/-- The exception class of a frame (R294, R297). -/
def excClass (type : Nat) (ip : List Nat) : Nat :=
  if isPtp type ip then 0 else if type = 0x0806 then 1
  else if type = 0x0800 ∧ ip.getD 9 0 = 1 then 2 else if type = 0x0800 ∧ ip.getD 9 0 = 2 then 3 else 4

/-- Whether flow entry `e` matches a packet (R295). -/
def Chip.flowMatches (c : Chip) (k e : Nat) (vid : Option Nat) (ip : List Nat) : Bool :=
  c.rd (Flowq.fLink.nth e).live = k && beNat ((ip.drop 16).take 4) = c.rd (Flowq.fDstIp.nth e).live &&
    beNat ((ip.drop 22).take 2) = c.rd (Flowq.fDstPort.nth e).live &&
    (!c.on (Flowq.fSrcEn.nth e).live || beNat ((ip.drop 12).take 4) = c.rd (Flowq.fSrcIp.nth e).live) &&
    (!c.on (Flowq.fVlanEn.nth e).live || vid = some (c.rd (Flowq.fVid.nth e).live))

/-- Whether a matched packet is discarded at its entry (R295). -/
def Chip.flowDiscards (c : Chip) (e : Nat) (ip udp : List Nat) : Bool :=
  let pseudo := (ip.drop 12).take 8 ++ [0, 17] ++ beBytes 2 udp.length
  onesSum (ip.take 20) ≠ 65535 ||
    (c.on (Flowq.fCsum.nth e).live && beNat ((udp.drop 6).take 2) ≠ 0 && onesSum (pseudo ++ udp) ≠ 65535) ||
    (c.on (Flowq.fPtEn.nth e).live && udp.getD 9 0 % 128 ≠ c.rd (Flowq.fPt.nth e).live)

/-- A good frame that no flow entry takes (R294, rule 4). -/
def Chip.unmatchedFrame (c : Chip) (k cls : Nat) (f : List Nat) : Chip :=
  if bit (c.rd (Eth.excClass.on (k / 4))) cls then c.exception k cls false f else c.inc (Eth.unmatched.on (k / 4))

/-- A PAUSE or PFC frame (R308; its layout is PRESUMED from IEEE 802.3 Annex 31B and 802.1Qbb, log entry 21). -/
def Chip.pauseFrame (c : Chip) (k : Nat) (body : List Nat) : Chip :=
  let op := beNat (body.take 2)
  if op = 1 ∧ c.on (Eth.rxPause.on (k / 4)) then c.setPause k 8 (beNat ((body.drop 2).take 2) ≠ 0)
  else if op = 0x0101 ∧ c.on (Eth.rxPfc.on (k / 4)) then
    (List.range 8).foldl (fun c i =>
      if bit (beNat ((body.drop 2).take 2)) i then c.setPause k i (beNat ((body.drop (4 + 2 * i)).take 2) ≠ 0) else c) c
  else c

/-- A good frame, given without its FCS (R294, R295, R309, R313). -/
def Chip.goodFrame (c : Chip) (k : Nat) (f : List Nat) : Chip :=
  let h := etherHeader f
  let ip := f.drop h.2.2
  if h.1 = 0x8808 then c.pauseFrame k ip
  else if isPtp h.1 ip then c.exception k 0 false f
  else
    let hit := if isFlowUdp h.1 ip then (c.listed Flowq.fEn.live).find? (fun e => c.flowMatches k e h.2.1 ip) else none
    match hit with
    | none => c.unmatchedFrame k (excClass h.1 ip) f
    | some e =>
      let udp := (ip.drop 20).take (beNat ((ip.drop 24).take 2))
      if c.flowDiscards e ip udp then c.inc (Flowq.fDisc.nth e)
      else
        let t := Stc.ofTotal (c.stc.total - c.rdS (onLink Eth.rxLat k))
        let c := (c.incWrap (Flowq.fPkts.nth e)).wr (Flowq.fLastNs.nth e) t.ns
        let c := c.crcPackets 0 e (udp.drop 8)
        if c.rd (Flowq.fUse.nth e).live = 4 then c.exception k 4 false f else c.emit (.flow e t (udp.drop 8))

/-- Whether the links of port `n` use an FEC in its mode (R289). -/
def Chip.usesFec (c : Chip) (n : Nat) : Bool :=
  match c.rd (Eth.mode.on n) with
  | 1 | 2 | 3 => true
  | 4 => c.on (Eth.fec25.on n)
  | _ => false

/-- R289, R293 to R297, R308, R313: a frame, FCS included, is received on link `k`; `pcsErr` tells of a decoding error inside it,
`fecErr` of an uncorrectable codeword, in a mode with FEC. The pin time is the STC. -/
def execEthFrameReceive (k : Fin 32) (frame : List (BitVec 8)) (pcsErr fecErr : Bool) (s : State) :
    Host.Outcome State Fault Refusal :=
  act s (fun c =>
    if !c.linkUp k then c
    else
      let n := k.val / 4
      let f := frame.map BitVec.toNat
      let body := f.take (f.length - 4)
      let tagged := (etherHeader f).2.1.isSome
      let most := clampN 64 9216 (c.rd (Eth.maxLen.on n)) + (if tagged then 4 else 0)
      let fecErr := fecErr && c.usesFec n
      let c := c.judge 0x21 (ethPage n) k 0 fecErr
      let c := if fecErr then (c.inc (onLink Eth.fecUnc k)).stick (ethPage n) 1 else c
      let fcs := leNat (f.drop (f.length - 4)) ^^^ crcEthernet.over body
      let bad := pcsErr || f.length < 64 || most < f.length || fcs ≠ 0
      let i := c.check 10 k fcs
      let c := i.c.judge 0x22 (ethPage n) k 0 bad i.inj
      let c := if i.inj ∧ !bad then c.stick (ethPage n) 2 else c
      if bad then
        let c := (c.stick (ethPage n) 2).inc (onLink Eth.badCnt k)
        if c.on (Eth.badMode.on n) then c.exception k (excClass (etherHeader f).1 (f.drop (etherHeader f).2.2)) true body else c
      else c.goodFrame k body)

/-- R292, R320: the PCS of link `k`, and its FEC where it has one, report alignment; with no local or remote fault the link is up. -/
def execEthLinkUp (k : Fin 32) (fault : Bool) (s : State) : Host.Outcome State Fault Refusal :=
  act s (fun c =>
    let n := k.val / 4
    if !c.enabled (ethPage n) ∨ !c.linkExists k ∨ c.linkUp k then c
    else if fault then c.wr (onLink Eth.lLock k) 1
    else
      let c := ((c.wr (onLink Eth.lUp k) 1).wr (onLink Eth.lLock k) 1).passHolds 0x20 (ethPage n) k
      let c := (c.wr (Eth.up.on n) (setBit (c.rd (Eth.up.on n)) (k % 4) true)).stick (ethPage n) 8
      c.ptpLink k true)

/-- R292, R320: link `k` goes down; with a local or remote fault alone it stays `aligned`. -/
def execEthLinkDown (k : Fin 32) (aligned : Bool) (s : State) : Host.Outcome State Fault Refusal :=
  act s (fun c => c.linkDown k (aligned && c.enabled (ethPage (k / 4)) && c.linkExists k))

/-- R296: a write to word 0 of flow entry `e`. -/
def execFlowEntryWrite (m : Master) (e : Fin 16384) (w0 : BitVec 32) (s : State) : Host.Outcome State Fault Refusal :=
  act s (fun c => c.guarded m 1 flowqPage (8 * e) w0.toNat true (fun c => c.flowWrite e w0.toNat))

/-- R299: a write of media queue `q`'s word 0 with `EN` = 1. -/
def execQueueEnable (m : Master) (q : Fin 16376) (w0 : BitVec 32) (s : State) : Host.Outcome State Fault Refusal :=
  act s (fun c => c.guarded m 1 flowqPage (131072 + 4 * q) (w0.toNat ||| 1) true (fun c => c.queueWrite q (w0.toNat ||| 1)))

/-- R299: a write of media queue `q`'s word 0 with `EN` = 0. -/
def execQueueDisable (m : Master) (q : Fin 16376) (w0 : BitVec 32) (s : State) : Host.Outcome State Fault Refusal :=
  let w := w0.toNat - w0.toNat % 2
  act s (fun c => c.guarded m 1 flowqPage (131072 + 4 * q) w true (fun c => c.queueWrite q w))

/-- R99, R116, R275, R300, R301: the video output that feeds queue `q` enqueues the descriptor of one frame of its gathered line: its
payload header, `kind` of which tells ST 2110-20 from ST 2022-6 (log entry 21), and its share of the line. An audio transmit descriptor
enqueues its packets by itself (R192). -/
def execDescriptorEnqueue (q : Fin 16376) (stamp : BitVec 32) (marker : Bool) (kind : PayloadKind) (payload : List (BitVec 8)) (s : State) :
    Host.Outcome State Fault Refusal :=
  act s (fun c =>
    match c.producer q with
    | none => c
    | some o =>
      let n := (c.mediaQ q).frames
      let c := (c.packetTaken o (payload.map BitVec.toNat)).enqueue q stamp.toNat marker (payloadHeader kind (c.rd (Xpt.airFmt.nth o)) n) (payload.map BitVec.toNat)
      if marker then c.updQueue q (fun x => { x with frames := x.frames + 1 }) else c)

/-- R301: the head descriptor of queue `q` has not started by its deadline. -/
def execDescriptorExpire (q : Fin 16376) (s : State) : Host.Outcome State Fault Refusal :=
  act s (fun c => if (c.mediaQ q).descs.isEmpty then c else c.expireHead q)

/-- R303, R276: a calendar cycle of port `n` starts; at an alignment event a calendar that waits takes over. -/
def execCalendarCycleStart (n : Fin 8) (event : Bool) (s : State) : Host.Outcome State Fault Refusal :=
  act s (fun c =>
    let new : List Nat := Store.get [] c.sch.calWaits n
    if !event ∨ new.isEmpty then c
    else
      let c := c.updSch (fun x => { x with calWaits := Store.set [] x.calWaits n [] })
      ((c.updPort n (fun p => { p with cal := new.drop 1, calMode := c.rd (Eth.mode.on n) })).wr (Eth.calRun.on n) 1).wr (Eth.calStop.on n) 0)

/-- R14, R302 to R304: the time of entry `j` of port `n`'s calendar; an entry that the next alignment event cuts off is not served. The
slot is the release event of the link's retimer: with the block of the head frame complete in time that frame leaves; where it is
`late` the frame before goes out again, and the head leaves with a later entry (log entry 21). -/
def execCalendarEntry (n : Fin 8) (j : Fin 16384) (cut late : Bool) (s : State) : Host.Outcome State Fault Refusal :=
  act s (fun c =>
    let cal := (c.ethPort n).cal
    if cut ∨ !c.on (Eth.calRun.on n) ∨ cal.headD 0 % 65536 ≤ j.val then c
    else
      let w := cal.getD (3 + 2 * j) 0
      let q := w % 16384
      let k := c.rd (Flowq.qLink.nth q)
      if 16376 ≤ q ∨ !c.on (Flowq.qEn.nth q) ∨ k / 4 ≠ n.val ∨ !c.linkUp k then c
      else match (c.mediaQ q).descs with
        | [] => c
        | d :: _ =>
          if w / 65536 < c.frameLen q d then ((c.dropHead q).raise 0x28 flowqPage q 0).stick flowqPage 4
          else if c.pausedFor k (c.rd (Flowq.qPri.nth q)) then c.updLink k (fun x => { x with wait := x.wait ++ [(q, c.mediaSends n)] })
          else if late then c.repeatFrame k
          else c.sendHead q (c.mediaSends n))

/-- R307: the oldest entry that waits on link `k` could not start within `SLOT_WIN`. -/
def execSlotForfeit (k : Fin 32) (s : State) : Host.Outcome State Fault Refusal :=
  act s (fun c =>
    match (c.ethLink k).wait with
    | [] => c
    | (q, _) :: r =>
      let n := k.val / 4
      let c := (c.updLink k (fun x => { x with wait := r })).inc (onLink Eth.missCnt k)
      let c := (c.judge 0x26 (ethPage n) q 0 true).stick (ethPage n) 3
      if c.on (Flowq.qMissAct.nth q) ∧ !(c.mediaQ q).descs.isEmpty then c.dropHead q else c)

/-- R308: the pause of a class of link `k` expires (8: the pause of the whole link). -/
def execPauseEnd (k : Fin 32) (cls : Fin 9) (s : State) : Host.Outcome State Fault Refusal :=
  act s (fun c => c.setPause k cls false)

/-- R308: a class of link `k` has been paused for longer than `MAX_PAUSE`; once for the episode. -/
def execPauseLimit (k : Fin 32) (cls : Fin 9) (s : State) : Host.Outcome State Fault Refusal :=
  act s (fun c =>
    let x := c.ethLink k
    if c.rd (Eth.maxPause.on (k / 4)) = 0 ∨ !bit x.paused cls ∨ bit x.long cls then c
    else ((c.updLink k (fun x => { x with long := setBit x.long cls true })).raise 0x2B (ethPage (k / 4)) k cls).stick (ethPage (k / 4)) 6)

/-- R298: a write of `FLOWQ_CPU_CMD[n]` with `GO` = 1. -/
def execCpuFrameGo (m : Master) (n : Fin 8) (w : BitVec 32) (s : State) : Host.Outcome State Fault Refusal :=
  act s (fun c => c.guarded m 0 flowqPage (0x104 + 16 * n) w.toNat false (fun c => c.cpuGo n w.toNat))

/-- R298: a CPU descriptor that was held is accepted. -/
def execCpuDescriptorAccept (n : Fin 8) (s : State) : Host.Outcome State Fault Refusal := act s (fun c => c.cpuAccept n)

/-- R298, R305, R310, R423: the oldest CPU frame of link `k` is sent: read from working RAM, padded to 64 bytes with its FCS. DESIGN CHOICE
(log entry 21): a frame with a word that is lost is not sent, and its slot is returned. -/
def execCpuFrameSend (k : Fin 32) (s : State) : Host.Outcome State Fault Refusal :=
  actMem s (fun c mem =>
    let n := k.val / 4
    match (c.ethPort n).cpu.find? (fun d => d.sub = k.val % 4) with
    | none => (c, mem)
    | some d =>
      if !c.linkUp k ∨ c.pausedFor k 0 then (c, mem)
      else
        let bytes := (List.range d.len).map (fun i => Mem.byte mem 0 ((d.addr + i) % 4194304))
        let frame := bytes ++ List.replicate (60 - bytes.length) 0
        let lost := (List.range ((d.len + 3) / 4)).any (fun i => c.isPoisoned 6 0 ((d.addr / 4 + i) % 1048576))
        let c := (c.updPort n (fun p => { p with cpu := p.cpu.erase d })).cleanRead 6 0 (d.addr / 4) []
        let c := c.wr (Flowq.cpuFree.nth n) (c.rd (Flowq.cpuFree.nth n) + 1)
        if lost then (c, mem)
        else
          let c := c.emit (.ethFrame k (withFcs frame))
          (if d.ts then c.txStamp n (16376 + n) d.sub d.tag else c, mem))

/-- R315: a write of `CRCU_MEM_CTRL` with `GO` = 1. -/
def execCrcMemoryJob (m : Master) (w : BitVec 32) (s : State) : Host.Outcome State Fault Refusal :=
  act s (fun c => c.guarded m 0 crcuPage 0x4C w.toNat true (fun c => c.crcJob w.toNat))

/-- Whether a memory job over a surface region reads a word that is lost (R315, R423). -/
def MemJob.lost (j : MemJob) (c : Chip) : Bool :=
  c.poisoned.any (fun q => j.region < 2 ∧ q.1 = j.region ∧ q.2.1 = 0 ∧
    (List.range j.rows).any (fun r => decide (j.base / 4 + r * j.stride ≤ q.2.2 ∧ q.2.2 < j.base / 4 + r * j.stride + j.rowLen)))

/-- R315, R423: the memory job completes; its result's tag is its byte count (R314). A lost word of the image buffer is 0, its COLD
value; what a job reads of one of a surface is not stated, and its result is a free value then (log entry 21). -/
def execCrcMemoryJobDone (s : State) : Host.Outcome State Fault Refusal :=
  actMem s (fun c mem =>
    match c.pkt.job with
    | none => (c, mem)
    | some j =>
      let bytes := jobBytes (c.imageMem mem) j
      let c := ((c.wr Crcu.memGo 0).wr Crcu.memBusy 0).updPkt (fun x => { x with job := none })
      let c := if j.region = 2 then c.cleanRead 7 schedPage (j.base / 4) [] else c.cleanRead j.region 0 (j.base / 4) []
      let p := c.crcParams j.channel
      let q := if j.lost c then (c.fresh.1 % 2 ^ p.width, c.fresh.2) else (p.over bytes, c)
      ((q.2.crcResult j.channel (bytes.length % 2 ^ 32) q.1).stick crcuPage 2, mem))

end Sys2Proof.Machine
end

