-- ==== Sys2Proof/Machine/SchedCmds.lean ====
section
/-! DEFINITION. Steps, schedules and the governor (R261 to R288): one meaning per row. -/

namespace Sys2Proof.Machine

/-- R277: a write of 1 to `SCHED_LOAD.GO`. -/
def execSchedLoad (m : Master) (s : State) : Host.Outcome State Fault Refusal :=
  actMem s (fun c mem => (c.trigger m schedPage 0x48 0 true (fun c => c.schedGo mem), mem))

/-- Whether a verdict on the image is on its way (R284). -/
def Chip.imageJudged (c : Chip) : Bool := (c.mirrorWait ++ c.mirrorQ ++ c.twin.due).any (fun i => i.space = 3 && i.off = 5)

/-- R277, R278, R284: validation of the image completes. Only a device that is no standby validates; it tells its verdict, which both
devices take at the first period boundary after its mirror step boundary (R379), or at once where none is to come. -/
def execImageValidationDone (s : State) : Host.Outcome State Fault Refusal :=
  actMem s (fun c mem =>
    if c.rd Sched.code ≠ 1 ∨ c.isStandby ∨ c.imageJudged then (c, mem)
    else
      let v := c.validateImage mem
      (c.decision 5 schedPage (if c.ticking then c.periodBidx else 0xFFFFFFFF) [v.1 + 16 * v.2, 0, 0, 0] (fun c => c.imageVerdict mem v.1 v.2), mem))

/-- R262, R267: the 10 us window of monitor `k` ends with `steps` steps; over the window VDD_CORE stood at `mv` and Tj at `tj`. No
window ends while the loss of `LOSC_IN` has stopped the monitors' timebase (R328). -/
def execStepMonitorWindow (k : Fin 64) (steps : BitVec 16) (mv tj : BitVec 10) (s : State) : Host.Outcome State Fault Refusal :=
  act s (fun c => if c.mer.stopped then c else (c.rateWindow k steps.toNat).condWindow mv.toNat tj.toInt)

/-- R266: the end of an `INTERVAL`. -/
def execGovernorInterval (s : State) : Host.Outcome State Fault Refusal := act s Chip.governor

/-- R265: an AVSBus frame completes: 0 write, 1 voltage read, 2 status read; `ok` when its CRC and acknowledge are good. `value` is
the voltage read, or 1 for a status that reports the write complete. A failed repeat leaves a write outstanding and a voltage waiting:
the first voltage read that succeeds again asks for the status (log entry 18), and only that report lets the next write go. -/
def execAvsFrameDone (frame : Fin 3) (ok : Bool) (value : BitVec 10) (s : State) : Host.Outcome State Fault Refusal :=
  act s (fun c =>
    let rail := c.rd Sched.avsRail
    let again := fun (c : Chip) => c.emit (if frame.val = 0 then .avs rail c.sch.sent else .avsRead rail frame)
    let back := c.rd Sched.avs = 3
    let c := c.judge 0x94 schedPage 0 0 (!ok)
    if !ok then
      let c := c.stick schedPage 4
      if c.sch.repeating then
        (c.wr Sched.avs 3).updSch (fun x => { x with repeating := false })
      else again ((c.wr Sched.avs 2).updSch (fun x => { x with repeating := true }))
    else
      let c := (c.wr Sched.avs 1).updSch (fun x => { x with repeating := false })
      if frame.val = 0 then c.emit (.avsRead rail 2)
      else if frame.val = 1 then
        (let c := c.wr Sched.vread value.toNat
         if back ∧ c.sch.busy then c.emit (.avsRead rail 2) else c)
      else if value.toNat % 2 = 0 then (if c.sch.busy then c.emit (.avsRead rail 2) else c)
      else
        match c.sch.volt with
        | some v => (c.updSch (fun x => { x with volt := none, sent := v })).emit (.avs rail v)
        | none => c.updSch (fun x => { x with busy := false }))

/-- R263, R280 to R282: a deadline of a unit of class `cls` (0 Nova core, 1 mix tile, 2 composer, 3 output gather). A core's count is its
own, a mix tile's is W(P); `steps` is what a composer or an output gather has used. -/
def execUnitDeadline (cls : Fin 4) (unit : Fin 1152) (steps : BitVec 32) (slack : Option (BitVec 10)) (s : State) :
    Host.Outcome State Fault Refusal :=
  act s (fun c =>
    if (cls.val < 3 ∧ 64 ≤ unit.val) ∨ !c.unitWorks cls unit then c
    else c.deadline cls unit (c.unitSteps cls unit steps.toNat) (slack.map BitVec.toNat))

end Sys2Proof.Machine
end

