-- ==== Sys2Proof/Machine/Xpt.lean ====
section
/-! DEFINITION. The crosspoint (R97 to R124): one meaning per row. Output frame starts and line gathering stand in
Gather.lean. -/

namespace Sys2Proof.Machine

/-- R98: a write of output `o`'s configuration words 0 and 1. -/
def execOutputDescriptorWrite (m : Master) (o : Fin 1152) (w0 w1 : BitVec 32) (s : State) : Host.Outcome State Fault Refusal :=
  act s (fun c => c.guardedWords m 1 xptPage 0 [(4 * o.val, w0.toNat), (4 * o.val + 1, w1.toNat)] true (fun c => c.writeOutput o w0.toNat w1.toNat))

/-- R98: the frame start, or the millisecond, at which a stored configuration takes effect. -/
def execOutputConfigApply (o : Fin 1152) (s : State) : Host.Outcome State Fault Refusal :=
  act s (fun c => c.applyOutput o)

/-- R107: a write of 1 to `XPT_TAKE[k].GO`. -/
def execSalvoGo (m : Master) (k : Fin 2) (s : State) : Host.Outcome State Fault Refusal :=
  act s (fun c => c.trigger m xptPage (0x50 + 4 * k) 13 true (fun c => c.salvoGo k))

/-- R107 to R109, R119: the validation of the salvo at the head of the queue completes. The active device decides; the
standby keeps its own verdict to compare with the active device's. -/
def execSalvoValidationDone (k : Fin 2) (near : Bool) (s : State) : Host.Outcome State Fault Refusal :=
  act s (fun c =>
    if c.xpt.validating.head? ≠ some k.val ∨ c.xpt.own.any (fun v => v.table = k.val) then c
    else
      let v := c.salvoVerdict k near
      let keep := c.updXpt (fun x => { x with own := x.own ++ [v] })
      if c.isStandby then keep
      else if c.mirrors then
        keep.decision 2 xptPage (if v.reason = 0 then v.frame else (c.rd Xpt.frame + 1) % 2 ^ 32) [k + 2 * v.reason + 32 * v.index, v.frame, 0, 0] id
      else c.applySalvo v)

/-- R113: a write of 1 to `XPT_TAKE[k].CANCEL`. -/
def execSalvoCancel (m : Master) (k : Fin 2) (s : State) : Host.Outcome State Fault Refusal :=
  act s (fun c => c.trigger m xptPage (0x50 + 4 * k) 14 true (fun c => c.salvoCancel k))

/-- R110, R105: the cut of the next reference frame. Every salvo armed for it is committed in arming order, and a new `TRATE`
is adopted when no salvo is in validation and none is armed for a later frame. -/
def execSalvoCut (s : State) : Host.Outcome State Fault Refusal :=
  act s (fun c =>
    if c.xpt.cutDone then c
    else
      let f := (c.rd Xpt.frame + 1) % 2 ^ 32
      let due := c.xpt.armed.filter (fun a => frameDiff a.frame f ≤ 0)
      let later := c.xpt.armed.filter (fun a => 0 < frameDiff a.frame f)
      let c := (c.updXpt (fun x => { x with armed := later, cutDone := true })).realignStage [1]
      let c := due.foldl (fun c a => c.cutSalvo a) c
      let last := (c.xpt.newRate.getLast?.map Prod.fst).getD c.xpt.rate
      if c.trateEff ≠ last ∧ c.xpt.validating.isEmpty ∧ later.isEmpty then
        c.updXpt (fun x => { x with newRate := x.newRate ++ [(c.trateEff, f)] })
      else c)

/-- R103, R105, R29, R116: T(F). A rate adopted at the cut of frame F is in force from T(F + 1). -/
def execReferenceFrameStart (s : State) : Host.Outcome State Fault Refusal :=
  act s (fun c =>
    let c := ((c.incWrap Xpt.frame).realignStage [2, 3]).sendTref
    let f := c.rd Xpt.frame
    let due := c.xpt.newRate.filter (fun p => decide (frameDiff p.2 f < 0))
    let c := c.updXpt (fun x => { x with cutDone := false, swline1 := bit (c.rd Dev.compat) 0,
                                         rate := (due.getLast?.map Prod.fst).getD x.rate,
                                         newRate := x.newRate.filter (fun p => decide (0 ≤ frameDiff p.2 f)) })
    let c := c.showTrate.countOfftake
    c.xpt.bound.foldl (fun c o =>
      let src := c.rd (Xpt.airSrc.nth o)
      if c.adopts o src ∧ !c.xpt.gap.any (fun a => a.out = o) then
        c.updXpt (fun x => { x with gap := x.gap ++ [⟨o, none, src, c.rd (Xpt.airAmode.nth o), c.srcFmt src, f, false⟩] })
      else c) c)

/-- R33, R101, R104, R111, R115: line `line` of field 1 opens at destination `d`. On the switch line of its format (line 1 under
`SWLINE1`) it is a switch point: the changes due land, `AIR` follows, and the mismatch of an output is judged. A destination
without a format has no lines and no family, and any instant will do (log entry 14); in the gap of a format change there is no line. -/
def execSwitchPoint (d : Fin 1664) (line : BitVec 12) (s : State) : Host.Outcome State Fault Refusal :=
  act s (fun c =>
    let f := c.rd Xpt.frame
    let fmt := c.destFmt d
    if (fmt ≠ 0xFF ∧ line.toNat ≠ switchLine c.xpt.swline1 fmt) ∨ c.inGap d then c
    else
    let due := c.xpt.landing.filter (fun l => l.dest = d.val && decide (frameDiff l.frame f ≤ 0))
    let c := due.foldl (fun c l =>
      let c := c.landRoute d l.src l.amode
      let off := fmt ≠ 0xFF ∧ !inFamily c.xpt.rate fmt
      let c := c.wr (Xpt.offtake.nth d) (b2n off)
      if off then (c.raise 0x49 xptPage d 0).stick xptPage 5 else c) c
    let c := c.updXpt (fun x => { x with landing := x.landing.filter (fun l => !(l.dest = d.val && decide (frameDiff l.frame f ≤ 0))) })
    let c := if d.val < 1152 then (c.judgeMismatch d).showOutput d else c.wr (Xpt.airFmt.nth d) fmt
    (due.map Landing.table).eraseDups.foldl (fun c k => c.salvoLanded k) c)

/-- R120: two line periods after a due switch point, `AIR` is compared with `REQ`. A change that lands later by its own rule
(a later frame, or a format change) is not due. -/
def execStateCheck (d : Fin 1664) (s : State) : Host.Outcome State Fault Refusal :=
  act s (fun c =>
    let same := c.rd (Xpt.airSrc.nth d) = c.rd (Xpt.reqSrc.nth d) ∧ c.rd (Xpt.airAmode.nth d) = c.rd (Xpt.reqAmode.nth d)
    let waits := c.xpt.landing.any (fun l => l.dest = d.val && decide (0 < frameDiff l.frame (c.rd Xpt.frame))) ||
      c.xpt.gap.any (fun a => a.out = d.val)
    if same ∨ waits then c else (c.raise 0x4B xptPage d 0).stick xptPage 7)

end Sys2Proof.Machine
end

