-- ==== Sys2Proof/Machine/RegWrite.lean ====
section
/-! DEFINITION. What a write does to the words of each page, once the rights have been judged (R6, R487, R488 and the field maps of
the chapters): `data` is the written word, `msk` the bits of it that take effect. -/

namespace Sys2Proof.Machine

/-- The bits of a word that fields occupy. -/
def fldMask (fs : List Fld) : Nat := fs.foldl (fun a f => a ||| ((2 ^ f.w - 1) * 2 ^ f.lo)) 0

/-- The word's RW fields as the write leaves them, with the write-one bits that it carries. -/
def Chip.newWord (c : Chip) (p sp off data msk : Nat) : Nat := mergeBits (c.rwWord (homePage p sp off) sp off) data msk

/-- Whether the write changes an RW field. -/
def Chip.changesRw (c : Chip) (p sp off data msk : Nat) : Bool :=
  let h := homePage p sp off
  let rw := fldMask ((wordFields h sp off).filter (fun f => f.acc = .rw))
  (c.rwWord h sp off &&& msk &&& rw) ≠ (data &&& msk &&& rw)

/-- The fields of a word take the write by their access codes (R6): RW and WO set, W1C cleared bit by bit. -/
def Chip.plainWrite (c : Chip) (p sp off data msk : Nat) : Chip :=
  let h := homePage p sp off
  let c := c.putRw h sp off data msk
  (wordFields h sp off).foldl (fun c f =>
    let d := data / 2 ^ f.lo % 2 ^ f.w
    let e := msk / 2 ^ f.lo % 2 ^ f.w
    match f.acc with
    | .w1c => if d &&& e = 0 then c else c.wrAny f (c.rdAny f &&& (2 ^ f.w - 1 - (d &&& e)))
    | .wo => if e = 0 then c else c.wrAny f ((d &&& e) ||| (c.rdAny f &&& (2 ^ f.w - 1 - e)))
    | _ => c) c

/-- Whether the write carries a 1 to bit `b`. -/
def sets (data msk b : Nat) : Bool := bit (data &&& msk) b

/-! ## Device, power, faults, control -/

/-- Pages DEV to RST. -/
def Chip.sysWrite (c : Chip) (mem : Mem) (p off data msk : Nat) : Chip × Mem :=
  match p, off with
  | 0x0, 0x4C => if sets data msk 0 then c.warmRequest mem 3 else (c, mem)
  | 0x1, 0x40 => (if sets data msk 0 then c.wr Pwr.service 1 else c, mem)
  | 0x1, 0x48 => ((c.plainWrite p 0 off data msk).recheckClusters (List.range 64), mem)
  | _, _ => (c.plainWrite p 0 off data msk, mem)

/-- The FCU page (R427). -/
def Chip.fcuWrite (c : Chip) (off data msk : Nat) : Chip :=
  let n := c.plainWrite fcuPage 0 off data msk
  match off with
  | 0x40 =>
    let n := if sets data msk 1 then n.clearFirst else n
    if sets data msk 0 then n.aliveClear else n
  | 0x4C => c.heartbeat
  | 0x54 => c.acknowledge (data &&& msk)
  | 0x60 =>
    if n.frd Fcu.logRptr = c.frd Fcu.logRptr then n
    else n.updFcu (fun f => { f with unread := (n.frd Fcu.logWptr + 256 - n.frd Fcu.logRptr) % 256 })
  | _ => n

/-- A severity word (R428): 5 to 7 leave a field unchanged. -/
def Chip.fsevWrite (c : Chip) (p off data msk : Nat) : Chip :=
  (fsevFields p off).foldl (fun c f =>
    let e := msk / 2 ^ f.lo % 2 ^ f.w
    let v := (data / 2 ^ f.lo &&& e) ||| (c.frd f &&& (7 - e))
    if 4 < v then c else c.fwr f v) c

/-- The mailbox (R445, R446, R460). -/
def Chip.cmdWrite (c : Chip) (m : Master) (off data msk : Nat) : Chip :=
  if off = 0x40 then
    let c := if sets data msk 0 then c.cmdGo m else c
    if sets data msk 1 then c.cmdRelease m else c
  else if 0x5C ≤ off ∧ off < 0xA0 ∧ (c.on Cmd.go ∨ (c.host.owner.isSome ∧ !c.ownsCmd m)) then c.stick cmdPage 5
  else c.plainWrite cmdPage 0 off data msk

/-- The control fabric (R432, R457): limits whose sum passes 512 are ignored. -/
def Chip.cfabWrite (c : Chip) (off data msk : Nat) : Chip :=
  let n := c.plainWrite cfabPage 0 off data msk
  let total := (List.range 6).foldl (fun a k => a + max 1 (n.rd (fixFld (Cfab.limit.nth k)))) 0
  if 0x60 ≤ off ∧ off < 0x78 ∧ 512 < total then c.stick cfabPage 4 else n

/-- The HOST page (R439, R444, R458). -/
def Chip.hostWrite (c : Chip) (mem : Mem) (off data msk : Nat) : Chip :=
  let n := c.plainWrite hostPage 0 off data msk
  if off = 0x40 then (if sets data msk 1 then n.bootGo mem else n)
  else if off = 0x48 ∨ off = 0x4C then c.hostEois (8 * (off - 0x48)) (data &&& msk)
  else if 0x800 ≤ off ∧ off < 0xC00 ∧ off % 16 = 12 ∧ c.on (msixMask ((off - 0x800) / 16)) ∧ !n.on (msixMask ((off - 0x800) / 16)) then
    n.msixUnmask ((off - 0x800) / 16)
  else n

/-! ## Timing -/

/-- MER_SEL (R368): the candidates follow. -/
def Chip.merSelWrite (c : Chip) (off data msk : Nat) : Chip := (c.plainWrite merSelPage 0 off data msk).refsFollow c

/-- MER_LOOP (R342, R343, R352, R369); a frame pulse that is disabled goes to its inactive level (R353). -/
def Chip.merLoopWrite (c : Chip) (off data msk : Nat) : Chip :=
  let n := c.plainWrite merLoopPage 0 off data msk
  match off with
  | 0x40 =>
    if n.regime ≠ 0 then (if n.regime = c.regime then n else n.beginRegime)
    else if c.regime ≠ 0 ∧ n.rd MerLoop.regimeNow ≠ 0 then n.endRegime else n
  | 0x4C | 0x50 | 0x54 => n.refreshBw
  | 0x80 | 0x84 | 0x88 | 0x8C =>
    let k := (off - 0x80) / 4
    if n.on (MerLoop.fpEn.nth k) then n
    else
      let high := bit n.mer.pulse k
      let n := n.updMer (fun m => { m with pulse := setBit m.pulse k false })
      if high then n.emit (.pulse k (n.on (MerLoop.fpPol.nth k))) else n
  | 0x44 => if n.rd MerLoop.state = 3 ∧ n.rd MerLoop.regimeNow = 0 then n.setBw (n.trackBw * 65536) else n
  | 0x68 => if sets data msk 4 then n.realign else n
  | _ => n

/-- MER_HOLD (R347, R348): the holdover value and the QL of the pseudo-candidate follow, and the selection is made again. -/
def Chip.merHoldWrite (c : Chip) (off data msk : Nat) : Chip :=
  (c.plainWrite merHoldPage 0 off data msk).updHoldValue.showQlOut.reselect

/-- PTP (R355, R358, R371): an instance follows `EN`, and starts again on another link; `FOLLOWING` follows `FOLLOW` and `STEER`. -/
def Chip.ptpWrite (c : Chip) (off data msk : Nat) : Chip :=
  let n := c.plainWrite ptpPage 0 off data msk
  if off = 0x100 ∨ off = 0x140 then
    let x := (off - 0x100) / 0x40
    let n := if c.rd (Ptp.iLink.nth x) = n.rd (Ptp.iLink.nth x) then n else n.setPtp x 0
    n.ptpEnable x (n.linkUp (n.rd (Ptp.iLink.nth x)))
  else if off = 0x40 then
    let same := decide (c.rd Ptp.steer = n.rd Ptp.steer)
    (n.wr Ptp.following (b2n n.rateFollows)).updMer (fun m => { m with servo := m.servo && same && !n.rateFollows })
  else n

/-- TIME (R362, R372). -/
def Chip.timeWrite (c : Chip) (off data msk : Nat) : Chip :=
  let c := c.plainWrite timePage 0 off data msk
  if 0x100 ≤ off ∧ off % 16 = 0 then
    let u := (off - 0x100) / 16
    let c := if sets data msk 0 then c.compareArmGo u else c
    if sets data msk 2 then c.wr (Time.cArm.nth u) 0 else c
  else c

/-! ## Lanes and network -/

/-- A lane group (R68). -/
def Chip.lgrpWrite (c : Chip) (g off data msk : Nat) : Chip :=
  let n := c.plainWrite (lgrpPage g) 0 off data msk
  if off = 0x40 then (if sets data msk 0 then n.trainGo g else n)
  else if off = 0x54 then (if sets data msk 0 then c.wr (Lgrp.slotCommit.on g) 1 else c)
  else if off = 0x90 then
    let n := if sets data msk 3 then n.eyeStartGo g else n
    if sets data msk 4 then n.eyeAbortGo g else n
  else if 0x60 ≤ off ∧ off < 0x80 ∧ sets data msk 21 then n.laneRetrainGo g ((off - 0x60) / 4)
  else n

/-- An Ethernet port (R292, R306): `MODE` and `FEC25` only while it is disabled. -/
def Chip.ethWrite (c : Chip) (n off data msk : Nat) : Chip :=
  let p := ethPage n
  if off = 0x40 then
    if c.enabled p then
      let c := if msk &&& 15 = 0 then c else c.stick p 10
      c.plainWrite p 0 off data (msk &&& (allBits - 15))
    else
      let x := c.plainWrite p 0 off data msk
      if x.rd (Eth.mode.on n) = c.rd (Eth.mode.on n) then x else x.ethMode n
  else c.plainWrite p 0 off data msk

/-- The flow page's registers (R298). -/
def Chip.flowqWrite (c : Chip) (off data msk : Nat) : Chip :=
  if 0x100 ≤ off ∧ off % 16 = 4 ∧ sets data msk 17 then
    c.cpuGo ((off - 0x100) / 16) (c.newWord flowqPage 0 off data msk)
  else c.plainWrite flowqPage 0 off data msk

/-- The flow page's tables (R296, R299). The CPU queues, 16,376 to 16,383, are not configured through the queue table (R298). -/
def Chip.flowqTable (c : Chip) (i data msk : Nat) : Chip :=
  let w := c.newWord flowqPage 1 i data msk
  if i < 131072 then (if i % 8 = 0 then c.flowWrite (i / 8) w else c.plainWrite flowqPage 1 i data msk)
  else if i < 196608 then
    let q := (i - 131072) / 4
    if 16376 ≤ q then c
    else if i % 4 = 0 then c.queueWrite q w
    else if c.on (Flowq.qEn.nth q) then c.stick flowqPage 5
    else c.plainWrite flowqPage 1 i data msk
  else if c.on (Flowq.qEn.nth ((i - 262144) / 32)) then c.stick flowqPage 5
  else c.plainWrite flowqPage 1 i data msk

/-- The check-value page (R314, R315). -/
def Chip.crcuWrite (c : Chip) (sp off data msk : Nat) : Chip :=
  if sp = 0 then
    (if off = 0x4C ∧ sets data msk 24 then c.crcJob (c.newWord crcuPage 0 off data msk) else c.plainWrite crcuPage 0 off data msk)
  else
    let n := c.plainWrite crcuPage 1 off data msk
    if off < 512 ∧ off % 8 < 6 then n.crcRestart (off / 8) else n

/-! ## Video -/

/-- A word of an input descriptor (R72): the pair of configuration words is judged together. -/
def Chip.vinTable (c : Chip) (i data msk : Nat) : Chip :=
  let d := i / 8
  let w := c.newWord vinPage 1 i data msk
  if i % 8 = 0 then c.writeDescriptor d w (c.rwWord vinPage 1 (8 * d + 1)) else c.writeDescriptor d (c.rwWord vinPage 1 (8 * d)) w

/-- The crosspoint's registers (R105, R107, R113). -/
def Chip.xptWrite (c : Chip) (off data msk : Nat) : Chip :=
  let n := c.plainWrite xptPage 0 off data msk
  if off = 0x40 then n.showTrate
  else if off = 0x50 ∨ off = 0x54 then
    let k := (off - 0x50) / 4
    let c := if c.on (Xpt.takeGo.nth k) then (if c.changesRw xptPage 0 off data msk || !sets data msk 14 then c.stick xptPage 8 else c) else n
    let c := if sets data msk 13 then c.salvoGo k else c
    if sets data msk 14 then c.salvoCancel k else c
  else if (off = 0x58 ∧ c.on (Xpt.takeGo.nth 0)) ∨ (off = 0x5C ∧ c.on (Xpt.takeGo.nth 1)) then c.stick xptPage 8
  else n

/-- The crosspoint's tables (R98, R107). -/
def Chip.xptTable (c : Chip) (i data msk : Nat) : Chip :=
  if i < 4608 then
    let o := i / 4
    let w := c.newWord xptPage 1 i data msk
    if i % 4 = 0 then c.writeOutput o w (c.rwWord xptPage 1 (4 * o + 1)) else c.writeOutput o (c.rwWord xptPage 1 (4 * o)) w
  else if 8192 ≤ i ∧ c.on (Xpt.takeGo.nth ((i - 8192) / 4096)) then c.stick xptPage 8
  else c.plainWrite xptPage 1 i data msk

/-- The synchronisers' table (R96): free ones that join or leave the pool are counted. -/
def Chip.fsyncTable (c : Chip) (i data msk : Nat) : Chip :=
  let k := i / 4
  let n := c.plainWrite fsyncPage 1 i data msk
  if c.rd (Fsync.state.nth k) = 0 then n.wr Fsync.poolFree (c.rd Fsync.poolFree + n.rd (Fsync.pool.nth k) - c.rd (Fsync.pool.nth k))
  else n

/-- Whether a layer of composer `n`'s live or pending configuration does `uses` with its fields, seen through `v`. -/
def Chip.layersUse (c : Chip) (n : Nat) (uses : (Fld → Nat) → Bool) : Bool :=
  (List.range 8).any (fun l =>
    let live := fun (f : Fld) => c.rd ((f.nth l).on n).live
    let pend := fun (f : Fld) => c.rd ((f.nth l).on n).pend
    uses live || (c.on (Cmp.go.on n) && uses pend))

/-- Composer `n`'s registers (R142, R146, R147, R161). -/
def Chip.cmpWrite (c : Chip) (n off data msk : Nat) : Chip :=
  let p := cmpPage n
  let msk := if 0x100 ≤ off ∧ off < 0x200 ∧ off % 32 = 0 then msk &&& (allBits - (if n < 16 then 0x20 else 0x3C0)) else msk
  let x := c.plainWrite p 0 off data msk
  let busy := c.on (Cmp.go.on n)
  if off = 0x44 ∨ off = 0x48 ∨ (0x100 ≤ off ∧ off < 0x200) then (if busy then c.stick p 13 else x)
  else if off = 0x58 then
    let c := if busy then (if c.changesRw p 0 off data msk || !sets data msk 1 then c.stick p 13 else c) else x
    let c := if sets data msk 0 then c.commitGo n else c
    if sets data msk 1 then c.commitCancel n else c
  else if 0x200 ≤ off ∧ off < 0x240 then
    let g := (off - 0x200) / 4
    let c := if sets data msk 0 then c.groupSeal g else c
    if sets data msk 1 then c.groupCancel n g else c
  else x

/-- Composer `n`'s banks, and the surface descriptors that all composers share (R131, R138). -/
def Chip.cmpTable (c : Chip) (n i data msk : Nat) : Chip :=
  let p := cmpPage n
  let named :=
    if i < 2048 then c.layersUse n (fun v => v Cmp.lEn = 1 && (v Cmp.lHbank = i / 512 || v Cmp.lVbank = i / 512))
    else (List.range 64).any (fun k => c.layersUse k (fun v => v Cmp.lKind = 1 && v Cmp.lSurf = (i - 4096) / 4))
  if named then c.stick p 13 else c.plainWrite p 1 i data msk

/-! ## Audio -/

/-- A serial audio port (R172, R176). -/
def Chip.sapWrite (c : Chip) (n off data msk : Nat) : Chip :=
  if off = 0x40 ∧ c.enabled (sapPage n) then c.stick (sapPage n) 9
  else if off = 0x4C then (if sets data msk 0 then c.sapMaskGo n else c)
  else c.plainWrite (sapPage n) 0 off data msk

/-- The trackers and sample-rate converters (R183, R184). -/
def Chip.asrcWrite (c : Chip) (off data msk : Nat) : Chip :=
  if off = 0x40 then (if sets data msk 0 then c.asrcGo else c)
  else
    let n := c.plainWrite asrcPage 0 off data msk
    if 0x100 ≤ off ∧ off % 16 = 0 then n.trkWritten ((off - 0x100) / 16) else n

/-- The audio maps (R196): their shadows are not written during a commit, and group 0 has no delay. -/
def Chip.amapWrite (c : Chip) (sp off data msk : Nat) : Chip :=
  if sp = 0 ∧ off = 0x40 then (if sets data msk 0 then c.amapGo else c)
  else if sp = 0 ∧ off = 0x100 then c
  else if c.on Amap.go then c.stick amapPage 8
  else c.plainWrite amapPage sp off data msk

/-- The mix engine (R218). -/
def Chip.mixWrite (c : Chip) (off data msk : Nat) : Chip :=
  if off = 0x40 then
    let c := if sets data msk 0 then c.batchOpen else c
    let c := if sets data msk 1 then c.batchCommit else c
    if sets data msk 2 then c.batchDiscard else c
  else c.plainWrite mixPage 0 off data msk

/-- A Nova core's registers (R252, R254). -/
def Chip.novaWrite (c : Chip) (k off data msk : Nat) : Chip :=
  match off with
  | 0x40 =>
    let c := if bit msk 0 then (if bit data 0 then c.novaRun k else c.novaStop k) else c
    if sets data msk 1 then c.novaClr k else c
  | 0x68 => c.novaBell k (c.newWord (novaPage k) 0 off data msk)
  | 0x70 => c.novaParam k (c.newWord (novaPage k) 0 off data msk % 128) (sets data msk 7)
  | _ => c.plainWrite (novaPage k) 0 off data msk

/-- The schedules (R277, R279). -/
def Chip.schedWrite (c : Chip) (mem : Mem) (off data msk : Nat) : Chip :=
  match off with
  | 0x40 =>
    if c.enabled schedPage then c.stick schedPage 12
    else (c.plainWrite schedPage 0 off data (if bit (c.rd Dev.compat) 3 then msk &&& (allBits - 6) else msk)).showRate
  | 0x48 => if c.on Sched.loadGo then c.stick schedPage 12 else if sets data msk 0 then c.schedGo mem else c
  | _ => c.plainWrite schedPage 0 off data msk

/-- The pair's page (R383, R394, R401). -/
def Chip.twinWrite (c : Chip) (off data msk : Nat) : Chip :=
  match off with
  | 0x48 => if sets data msk 0 then c.clearHealth else c
  | 0x58 => if sets data msk 0 then c.resyncGo else c
  | _ => c.plainWrite twinPage 0 off data msk

/-! ## Any page -/

/-- A write that has passed the rights reaches its page. -/
def Chip.applyWord (c : Chip) (mem : Mem) (m : Master) (p sp off data msk : Nat) : Chip × Mem :=
  if msk = 0 then (c, mem)
  else if p < 3 then (if sp = 0 then c.sysWrite mem p off data msk else (c.plainWrite p sp off data msk, mem))
  else if p = schedPage ∧ sp = 0 then (c.schedWrite mem off data msk, mem)
  else if p = hostPage ∧ sp = 0 then (c.hostWrite mem off data msk, mem)
  else
    let x : Chip :=
      if 4 ≤ p ∧ p ≤ 7 then c.fsevWrite p off data msk
      else if 0x20 ≤ p ∧ p ≤ 0x40 then c.lgrpWrite (p - 0x20) off data msk
      else if 0x48 ≤ p ∧ p ≤ 0x4F then c.ethWrite (p - 0x48) off data msk
      else if 0x80 ≤ p ∧ p ≤ 0xBF then (if sp = 0 then c.cmpWrite (p - 0x80) off data msk else c.cmpTable (p - 0x80) off data msk)
      else if 0xC0 ≤ p ∧ p ≤ 0xCF then c.sapWrite (p - 0xC0) off data msk
      else if 0xE0 ≤ p ∧ p ≤ 0x11F then c.novaWrite (p - 0xE0) off data msk
      else match p, sp with
      | 0x3, _ => c.fcuWrite off data msk
      | 0x8, _ => c.cmdWrite m off data msk
      | 0x9, _ => c.cfabWrite off data msk
      | 0x10, _ => c.merSelWrite off data msk
      | 0x11, _ => c.merLoopWrite off data msk
      | 0x12, _ => c.merHoldWrite off data msk
      | 0x13, _ => c.ptpWrite off data msk
      | 0x14, 0 => c.timeWrite off data msk
      | 0x50, 0 => c.flowqWrite off data msk
      | 0x50, _ => c.flowqTable off data msk
      | 0x51, _ => c.crcuWrite sp off data msk
      | 0x60, 1 => c.vinTable off data msk
      | 0x61, 1 => c.vpktWrite off (c.plainWrite p 1 off data msk)
      | 0x70, 0 => c.xptWrite off data msk
      | 0x70, _ => c.xptTable off data msk
      | 0x78, 1 => c.fsyncTable off data msk
      | 0xD0, 0 => c.asrcWrite off data msk
      | 0xD4, _ => c.amapWrite sp off data msk
      | 0xD8, 0 => c.mixWrite off data msk
      | 0x128, _ => c.twinWrite off data msk
      | _, _ => c.plainWrite p sp off data msk
    (x, mem)

end Sys2Proof.Machine
end

