-- ==== Sys2Proof/Machine/RegRead.lean ====
section
/-! DEFINITION. What a read returns (R6, R380, R423, R482, R489, R491 and the field maps of the chapters), and the reads that have
effects of their own. -/

namespace Sys2Proof.Machine

/-! ## Page headers (R482, R485) -/

/-- `BLOCK` and `INST` of a page. -/
def pageIdent (p : Nat) : Nat × Nat :=
  if p = 0 then (0x0100, 0) else if p ≤ 3 then (0x0100 + p, 0)
  else if p ≤ 7 then (0x0104, p - 4)
  else if p ≤ 0xB then (0x0105 + (p - 8), 0)
  else if p ≤ 0x14 then (0x0200 + (p - 0x10), 0)
  else if p ≤ 0x40 then (0x0300, p - 0x20)
  else if p ≤ 0x4F then (0x0310, p - 0x48)
  else if p ≤ 0x51 then (0x0311 + (p - 0x50), 0)
  else if 0x80 ≤ p ∧ p ≤ 0xBF then (0x0410, p - 0x80)
  else if 0xC0 ≤ p ∧ p ≤ 0xCF then (0x0500, p - 0xC0)
  else if 0xE0 ≤ p ∧ p ≤ 0x11F then (0x0510, p - 0xE0)
  else match p with
  | 0x60 => (0x0400, 0) | 0x61 => (0x0401, 0) | 0x70 => (0x0402, 0) | 0x78 => (0x0403, 0)
  | 0xD0 => (0x0501, 0) | 0xD4 => (0x0502, 0) | 0xD8 => (0x0503, 0) | 0x120 => (0x0600, 0)
  | 0x128 => (0x0601, 0) | 0x129 => (0x0602, 0) | _ => (0x0603, 0)

/-- `BASE` of a page, none where it reports no source. -/
def pageBase (p : Nat) : Option Nat :=
  if 0x20 ≤ p ∧ p ≤ 0x40 then some 0x10
  else if 0x48 ≤ p ∧ p ≤ 0x4F then some 0x20
  else if 0x80 ≤ p ∧ p ≤ 0xBF then some 0x50
  else if 0xC0 ≤ p ∧ p ≤ 0xCF then some 0x60
  else if 0xE0 ≤ p ∧ p ≤ 0x11F then some 0x80
  else match p with
  | 0x0 => some 0xD7 | 0x1 => some 0xE0 | 0x3 => some 0xDA | 0x8 => some 0xF0 | 0x9 => some 0xD0 | 0xA => some 0xD3
  | 0xB => some 0xD5 | 0x10 => some 0xA0 | 0x11 => some 0xA5 | 0x13 => some 0xB1 | 0x14 => some 0xAC | 0x50 => some 0x23
  | 0x51 => some 0x2C | 0x60 => some 0x30 | 0x61 => some 0x37 | 0x70 => some 0x46 | 0x78 => some 0x42 | 0xD0 => some 0x67
  | 0xD4 => some 0x64 | 0xD8 => some 0x70 | 0x120 => some 0x90 | 0x128 => some 0xC2 | 0x129 => some 0xC0 | 0x130 => some 0x00
  | _ => none

/-- `NSTICKY`: the highest defined sticky bit plus 1. -/
def pageSticky (p : Nat) : Nat :=
  if 0x20 ≤ p ∧ p ≤ 0x40 then 15
  else if 0x48 ≤ p ∧ p ≤ 0x4F then 11
  else if 0x80 ≤ p ∧ p ≤ 0xBF then 15
  else if 0xC0 ≤ p ∧ p ≤ 0xCF then 10
  else if 0xE0 ≤ p ∧ p ≤ 0x11F then 11
  else match p with
  | 0x0 => 3 | 0x1 => 9 | 0x2 => 3 | 0x3 => 10 | 0x8 => 6 | 0x9 => 5 | 0xA => 5 | 0xB => 3 | 0x10 => 9 | 0x11 => 6 | 0x12 => 2
  | 0x13 => 9 | 0x14 => 12 | 0x50 => 6 | 0x51 => 4 | 0x60 => 12 | 0x61 => 4 | 0x70 => 11 | 0x78 => 4 | 0xD0 => 5 | 0xD4 => 9
  | 0xD8 => 8 | 0x120 => 13 | 0x128 => 13 | 0x129 => 4 | 0x130 => 5
  | _ => 0

/-- Whether a page holds mirrored fields (R485). -/
def pageMirror (p : Nat) : Bool :=
  !(p = 1 || p = 2 || (8 ≤ p && p ≤ 0xB) || p = 0x40 || p = 0x130)

/-- Pages that `DEV_COMPAT` can touch (R29, R30, R485). -/
def pageCompat (p : Nat) : Bool := p = xptPage || p = mixPage || p = fcuPage || p = schedPage

/-- `PAGE_CTRL.COMPAT` (R30). -/
def Chip.compatBit (c : Chip) (p : Nat) : Bool :=
  let v := c.rd Dev.compat
  (p = xptPage && bit v 0) || (p = mixPage && (bit v 1 || bit v 3)) || (p = fcuPage && bit v 2) || (p = schedPage && bit v 3)

/-- Pages whose clusters go deeper than IDLE (R485). -/
def pageSleeps (p : Nat) : Bool := !(p ≤ 0x14 || p = schedPage || p = twinPage || p = umpPage || p = hbmPage)

/-- `PAGE_LOCK` (R482): the DEV page's compatibility word and the Keeper's words of a composer. -/
def pageLock (p : Nat) : Nat := if p = devPage then 4 else if 0x80 ≤ p ∧ p ≤ 0xBF then 7 * 2 ^ 10 else 0

/-- A header word. -/
def Chip.headerWord (c : Chip) (p off : Nat) : Nat :=
  let waking := c.pageWaking p
  match off with
  | 0x00 => (pageIdent p).1 * 65536 + (pageIdent p).2 * 256 + 1
  | 0x04 => b2n (enableWritable p) + 2 * b2n (blockResets p) + 4 * b2n (hasWindow p) + 8 * b2n (pageMirror p) +
      16 * b2n (pageCompat p) + 32 * b2n (pageSleeps p) + 256 * pageSticky p
  | 0x08 => b2n (c.enabled p) + 2 * b2n (c.isResetting p) + 4 * b2n (c.compatBit p) + 8 * Store.get 0 c.pwrReq p
  | 0x0C => b2n (c.enabled p && !c.isResetting p && !waking) + 2 * b2n (c.isResetting p) + 4 * b2n waking +
      8 * b2n (c.ignoresMirrored && pageMirror p)
  | 0x10 => c.stickyWord p
  | 0x14 => c.irqEnWord p
  | 0x18 => c.stickyWord p &&& c.irqEnWord p
  | 0x1C => Store.get 0 c.latTol p
  | 0x20 => (if waking then 5 else c.pageState p) + 8 * (clustersOf p).foldl (fun a k => max a (c.allowedState k)) 0
  | 0x24 => match pageBase p with
    | some b => b
    | none => 0x1FF
  | 0x28 => pageLock p
  | _ => 0

/-! ## Page bodies -/

/-- The eight words of a log entry (R413). -/
def LogEntry.word (e : LogEntry) (k : Nat) : Nat :=
  match k with
  | 0 => e.src + 256 * e.esev + 2048 * e.bsev + 16384 * b2n e.lasting + 32768 * b2n e.esc + 65536 * b2n e.inj + 131072 * b2n e.real +
      262144 * b2n e.extmask + 524288 * b2n e.ack
  | 1 => e.page + 65536 * e.inst
  | 2 => e.detail
  | 3 => e.time.ns
  | 4 => e.time.sec % 2 ^ 32
  | 5 => e.time.sec / 2 ^ 32
  | 6 => e.seq
  | _ => 0

/-- The fault collector's window (R427): the log, the first-fault record, the always-on copy from its oldest entry on. -/
def Chip.logWord (c : Chip) (i : Nat) : Nat :=
  if i < 2048 then (Store.get {} c.fcu.log (i / 8)).word (i % 8)
  else if i < 2056 then (c.fcu.first.getD {}).word (i % 8)
  else (c.fcu.aon.getD ((i - 2056) / 8) {}).word (i % 8)

/-- A cluster's word (R478). -/
def Chip.clusterWord (c : Chip) (k : Nat) : Nat :=
  c.cluster k + 8 * c.allowedState k + 256 * c.rd (Pwr.clIwake.nth k) + 65536 * min 65535 (c.effTol k)

/-- Eight nibbles of worst severities (R427). -/
def Chip.worstWord (c : Chip) (first : Nat) : Nat :=
  (List.range 8).foldl (fun a k => a + c.frd (Fcu.worstOf (first + k)) * 16 ^ k) 0

/-- A composer's word (R142): with `LIVE` set the shadowed registers show the live configuration. -/
def Chip.cmpWord (c : Chip) (n off : Nat) : Nat :=
  if off = 0x64 then c.rd (Cmp.poolUsed.on n) + 65536 * c.poolFreeOf n
  else if c.on (Cmp.liveView.on n) ∧ (off = 0x44 ∨ off = 0x48 ∨ (0x100 ≤ off ∧ off < 0x200)) then
    (wordFields (cmpPage n) 0 off).foldl (fun a f => a + c.rd (if f.acc = .rw then f.live else f) * 2 ^ f.lo) 0
  else c.storedWord (homePage (cmpPage n) 0 off) 0 off

/-- A word of a page's body as master `m` reads it, effects apart. -/
def Chip.bodyWord (c : Chip) (m : Master) (p off : Nat) : Nat :=
  if 4 ≤ p ∧ p ≤ 7 then
    let n := 64 * (p - 4) + (off - 0x40) / 4
    c.storedWord p 0 off + (if 0x40 ≤ off ∧ off < 0x140 ∧ off % 4 = 0 then 256 * b2n (sevAlways n) + 512 * b2n (sevReserved n) else 0)
  else if 0x80 ≤ p ∧ p ≤ 0xBF then c.cmpWord (p - 0x80) off
  else match p, off with
  | 0x0, 0x40 => 0x9200B100
  | 0x0, 0x44 => b2n c.straps.scale + 2 * b2n c.straps.compat + 4 * b2n c.straps.side + 8 * b2n c.straps.bootHost
  | 0x0, 0x50 => c.storedWord p 0 off + 64 * b2n c.otp.debugEn
  | 0x0, 0x58 => Config.unitId.toNat % 2 ^ 32
  | 0x0, 0x5C => Config.unitId.toNat / 2 ^ 32
  | 0x3, 0x58 => c.worstWord 0
  | 0x3, 0x5C => c.worstWord 8
  | 0x8, 0x44 => match c.host.owner with
    | some o => 2 + 4 * o
    | none => 0
  | 0x8, 0xA0 => b2n c.otp.active1 + 2 * b2n c.otp.revoked0 + 4 * b2n c.otp.revoked1 + 8 * b2n c.otp.prog1
  | 0x8, 0xA4 => min 31 c.recentFails.length + 32 * c.rd Cmd.locked
  | 0xA, 0x50 => c.cond % 2 ^ 32
  | 0xA, 0x54 => c.cond / 2 ^ 32
  | 0xA, 0xC00 => c.pba % 2 ^ 32
  | 0xA, 0xC04 => c.pba / 2 ^ 32
  | 0xB, 0x44 => 0x58 + b2n c.straps.side + 128 * c.rd Mgmt.mspiBusy
  | 0x14, 0x44 => c.stc.ns
  | 0x14, 0x48 => (Store.get {} c.mer.latch (masterNum m) : Stc).sec % 2 ^ 32
  | 0x14, 0x4C => (Store.get {} c.mer.latch (masterNum m) : Stc).sec / 2 ^ 32 + 65536 * (Store.get {} c.mer.latch (masterNum m) : Stc).frac
  | 0x120, 0x40 => if bit (c.rd Dev.compat) 3 then c.rd Sched.fs + 4 else c.storedWord p 0 off
  | 0x128, 0x44 => (c.storedWord p 0 off - 4 * c.rd Twin.state) + 4 * c.pairState + b2n c.straps.scale + 2 * b2n c.straps.side
  | _, _ => c.storedWord p 0 off

/-- Where a word of a page or of BAR2 stands: the gain table and the image buffer are reached through a table window and through
BAR2 (R213, R277). -/
def wordPlace (sp p off : Nat) : Nat × Nat × Nat :=
  if sp = 2 ∧ off < 0x02000000 then (1, mixPage, 1048576 + off / 4)
  else if sp = 2 ∧ off < 0x02400000 then (1, schedPage, (off - 0x02000000) / 4)
  else (sp, if sp = 2 then p else homePage p sp off, off)

/-- The bits of a word that byte enables let through: of the gain table, whole entries (R214). -/
def placeMask (w : Nat × Nat × Nat) (be : Nat) : Nat :=
  if w.1 = 1 ∧ w.2.1 = mixPage ∧ 1048576 ≤ w.2.2 then (if be % 4 = 3 then 65535 else 0) + (if be / 4 % 4 = 3 then 4294901760 else 0)
  else beMask be

/-- The bits of a word that a mirrored write which waits for its epoch gives to reads (R380): its mirrored RW fields, `PAGE_CTRL.ENABLE`,
and `DEV_COMPAT`, which a command writes. -/
def newestMask (sp p off : Nat) : Nat :=
  if sp = 2 ∨ (sp = 1 ∧ mirroredWhole p off) then allBits
  else if sp = 0 ∧ off < 0x40 then (if off = 8 ∧ enableMirrored p then 1 else 0)
  else if sp = 0 ∧ p = devPage ∧ off = 0x48 then 15
  else fldMask ((wordFields (homePage p sp off) sp off).filter (fun f => f.acc = .rw && mirroredFld p f))

/-- The newest accepted writes to a word that wait for their epoch or their boundary (R380): reads on the active
device return them. -/
def Chip.newest (c : Chip) (sp p off v : Nat) : Nat :=
  let w := wordPlace sp p off
  if c.isStandby then v else (c.twin.due ++ c.mirrorQ).foldl (fun v i =>
    if wordPlace i.space i.page i.off = w then mergeBits v i.data (placeMask w i.be &&& newestMask sp p off) else v) v

/-- The reads that restart fields (R489). -/
def Chip.sinceRead (c : Chip) (p off : Nat) : Chip :=
  if 0x20 ≤ p ∧ p ≤ 0x40 ∧ off = 0x50 then
    let g := p - 0x20
    (c.wr (Lgrp.ebufMin.on g) (c.rd (Lgrp.ebufFill.on g))).wr (Lgrp.ebufMax.on g) (c.rd (Lgrp.ebufFill.on g))
  else if p = mixPage ∧ off = 0x4C then
    let most := fun (f : MixTile → Nat) => c.mix.tiles.foldl (fun a t => max a (f t.2)) 0
    (c.wr Mix.activeMax (most (fun t => t.ramps.length))).wr Mix.pendMax (most (fun t => t.queue.length))
  else if 0xE0 ≤ p ∧ p ≤ 0x11F ∧ off = 0x64 then
    c.wr (Nova.stepsMax.on (p - 0xE0)) (c.rd (Nova.stepsLast.on (p - 0xE0)))
  else if p = schedPage ∧ off = 0x58 then
    (c.wr Sched.rateLow c.presentLow.1).wr Sched.rateLowCluster c.presentLow.2
  else if p = schedPage ∧ 0x70 ≤ off ∧ off < 0x80 then c.wr (Sched.slackMin.nth ((off - 0x70) / 4)) 1023
  else if p = cfabPage ∧ 0x80 ≤ off ∧ off < 0x98 then
    let k := (off - 0x80) / 4
    c.wr (Cfab.outPeak.nth k) (c.rd (Cfab.outCount.nth k))
  else c

/-! ## Table words -/

/-- Words of a window without field records: gain words, Nova cores, image, log, clusters, working RAM. -/
def wholeWindow (p i : Nat) : Bool :=
  (p = mixPage && 1048576 ≤ i) || (0xE0 ≤ p && p ≤ 0x11F) || p = schedPage || p = fcuPage || p = pwrPage || (p = hostPage && 4096 ≤ i)

/-- Whether index `i` lies in the window of a page (R435, R491). -/
def Chip.inWindow (c : Chip) (p i : Nat) : Bool :=
  (windowRanges p).any (fun r => r.1 ≤ i && i ≤ r.2) && !(p = hostPage && 4096 ≤ i && !c.on Hst.wramEn)

/-- Whether an index of a window holds a word: the others are reserved (R491), the banks of a monitor composer among them (R161). -/
def namedIndex (p i : Nat) : Bool := !(0x90 ≤ p && p ≤ 0xBF && i < 2048) && (wholeWindow p i || !(wordFields (homePage p 1 i) 1 i).isEmpty)

/-- Word `w` of the status of composer bank `d` (R72, R84): its state, its format, ε = 0, and the payload ID of its lines. -/
def Chip.composerStatus (c : Chip) (d w : Nat) : Nat :=
  if w = 4 then c.srcSt d + 8 * c.srcFmt d
  else if w = 7 ∧ c.srcSt d = InSt.timed then payloadId (c.srcFmt d) (c.srcClr d)
  else 0

/-- The word at index `i` of a page's table. -/
def Chip.tableWord (c : Chip) (m : Mem) (p i : Nat) : Nat :=
  if p = mixPage ∧ 1048576 ≤ i then c.gainRead (2 * (i - 1048576)) + 65536 * c.gainRead (2 * (i - 1048576) + 1)
  else if 0xE0 ≤ p ∧ p ≤ 0x11F then c.novaWinRead (p - 0xE0) i
  else if p = schedPage then (if c.isPoisoned 7 p i then 0 else Mem.word m 4 (4 * i))
  else if p = fcuPage then c.logWord i
  else if p = pwrPage then c.clusterWord i
  else if p = hostPage ∧ 4096 ≤ i then Mem.word m 0 (4 * (i - 4096))
  else if p = vinPage ∧ 9216 ≤ i ∧ i < 9728 then c.composerStatus (i / 8) (i % 8)
  else if p = amapPage ∧ 26624 ≤ i ∧ i < 27136 ∧ i % 2 = 0 then
    c.storedWord (homePage p 1 i) 1 i + 32 * c.dembState ((i - 26624) / 2)
  else c.storedWord (homePage p 1 i) 1 i

end Sys2Proof.Machine
end

