-- ==== Sys2Proof/Machine/FabricOps.lean ====
section
/-! DEFINITION. Accesses by the masters of the control fabric (R5, R6, R26, R429 to R435, R471, R487 to R493): words of page bodies,
table windows, table space, working RAM, and whole transactions. -/

namespace Sys2Proof.Machine

/-! ## Words of page bodies and tables -/

/-- Words of status counts that a write of 0 clears (R93, R95, R96, R198, R322, R324, R401). -/
def clearsOnZero (p sp off : Nat) : Bool :=
  if sp = 0 then p = twinPage && off = 0x60
  else if p = vinPage then off < 9728 && off % 8 = 6
  else if p = vpktPage || p = fsyncPage then 2 ≤ off % 4
  else if p = amapPage then
    (26624 ≤ off && off < 27648 && off % 2 = 1) || (28672 ≤ off && off < 30720 && 2 ≤ off % 4) || (30720 ≤ off && off % 4 = 2)
  else if p = flowqPage then (off < 131072 && (off % 8 = 4 || off % 8 = 5)) || (131072 ≤ off && off < 196608 && 2 ≤ off % 4)
  else p = crcuPage && off < 512 && off % 8 = 7

/-- The counts of such a word that a write of 0 under the enabled bits clears; `FILL` of a queue shows what the queue holds. -/
def clearedFields (p sp off en : Nat) : List Fld :=
  if clearsOnZero p sp off then
    (wordFields p sp off).filter (fun f => en / 2 ^ f.lo % 2 ^ f.w = 2 ^ f.w - 1 && !(p = flowqPage && 131072 ≤ off && f.w = 9))
  else []

/-- The fields of a word that a write with enabled bits `en` reaches. -/
def reached (p sp off en : Nat) (acc : Acc → Bool) : List Fld :=
  (wordFields (homePage p sp off) sp off).filter (fun f => acc f.acc && en / 2 ^ f.lo % 2 ^ f.w ≠ 0)

/-- Access codes that a write acts on. -/
def writable (a : Acc) : Bool := a = .rw || a = .wo || a = .w1c || a = .w1s

/-- A write to a word of a page's body (space 0) or table (space 1), judged field by field (R6, R380, R435). -/
def Chip.bodyWrite (c : Chip) (mem : Mem) (m : Master) (p sp off data be : Nat) : Chip × Mem :=
  let en := beMask be
  let allowed := fun (f : Fld) => c.mayWrite m p sp off f.lo
  let hit := reached p sp off en writable
  let yes := hit.filter allowed
  let mir := !(yes.filter (mirroredFld p)).isEmpty
  let held := mir && (c.ignoresMirrored || c.mirrors)
  let ignored := mir && c.ignoresMirrored
  let sent := mir && !c.ignoresMirrored && c.mirrors
  let counts := if data &&& en = 0 then clearedFields p sp off en else []
  let zero := if c.mayWrite m p sp off 0 then counts else []
  let c := if (reached p sp off en (· = .rwl)).isEmpty then c else c.raise 0xF7 p (masterNum m) 0
  let c := if hit.any (fun f => !allowed f && c.touches f data en) || counts.any (fun f => !allowed f && c.rdAny f ≠ 0) then c.denied m
    else c
  let c := if ignored then c.stick twinPage 10 else c
  let c := if sent then c.mirrorWrite m sp p off data be else c
  let c := zero.foldl (fun c f => c.wr f 0) c
  c.applyWord mem m p sp off data (fldMask (if held then yes.filter (fun f => !mirroredFld p f) else yes) &&& en)

/-- A write to a table without field records takes effect. -/
def Chip.wholeWrite (c : Chip) (mem : Mem) (p i data be : Nat) : Chip × Mem :=
  if p = mixPage then (c.gainWrite (4 * (i - 1048576)) [(data, be)], mem)
  else if p = schedPage then
    (if c.on Sched.loadGo then (c.stick schedPage 12, mem)
     else (c.unpoison 7 p i, Mem.puts mem 4 (4 * i) (leBytes 4 (mergeBits (Mem.word mem 4 (4 * i)) data (beMask be)))))
  else if p = hostPage then
    (c.unpoison 6 0 (i - 4096), Mem.puts mem 0 (4 * (i - 4096)) (leBytes 4 (mergeBits (Mem.word mem 0 (4 * (i - 4096))) data (beMask be))))
  else if 0xE0 ≤ p ∧ p ≤ 0x11F then
    (c.novaWinWrite (p - 0xE0) i (mergeBits (c.novaWinRead (p - 0xE0) i) data (beMask be)), mem)
  else (c, mem)

/-- A write to word `i` of a page's table, an index that holds a word (R380, R435, R471, R491). -/
def Chip.tableWrite (c : Chip) (mem : Mem) (m : Master) (p i data be : Nat) : Chip × Mem :=
  if c.memoryOff p i then (c.stick pwrPage 8, mem)
  else
  let c := c.memoryExit p i
  if !wholeWindow p i then
    let r := c.bodyWrite mem m p 1 i data be
    (r.1.unpoison 7 p i, r.2)
  else if p = fcuPage ∨ p = pwrPage then (c, mem)
  else if !c.mayWrite m p 1 i 0 then
    (if mergeBits (c.tableWord mem p i) data (placeMask (1, p, i) be) = c.tableWord mem p i then c else c.denied m, mem)
  else if mirroredWhole p i && c.ignoresMirrored then (c.stick twinPage 10, mem)
  else if mirroredWhole p i && c.mirrors then (c.mirrorWrite m 1 p i data be, mem)
  else c.wholeWrite mem p i data be

/-- Whether a master reaches working RAM through the HOST window (R435). -/
def Chip.reachesRam (c : Chip) (m : Master) (p i : Nat) : Bool :=
  !(p = hostPage && 4096 ≤ i && c.on Hst.wramEn && (m = .mspi || m = .bi2c))

/-- The checker of a table word's memory, its instance and the word's address there (R419). -/
def tableChecker (p i : Nat) : Nat × Nat × Nat :=
  if p = hostPage ∧ 4096 ≤ i then (6, 0, i - 4096)
  else if 0xE0 ≤ p ∧ p ≤ 0x11F ∧ i < 8192 then (2, p - 0xE0, i / 4)
  else if 0xE0 ≤ p ∧ p ≤ 0x11F ∧ i < 40960 then (3, p - 0xE0, i - 8192)
  else if p = mixPage ∧ 1048576 ≤ i then (4, 2 * (i - 1048576) / 262144, 2 * (i - 1048576) % 262144)
  else (7, p, i)

/-- A checked read of the memory behind a table word, with syndromes `syn` and `again` (R419 to R423). The gain table is injected at the
mix's own reads. The first-fault record and the always-on copy stand in the always-on store, whose error is source `0x0E` (R414, R422). -/
def Chip.tableCheck (c : Chip) (p i syn again : Nat) : Chip :=
  let k := tableChecker p i
  let w := 2 ^ checkWidth k.1
  if p = fcuPage ∧ 2048 ≤ i ∧ syn % w ≠ 0 then c.raise 0x0E fcuPage 0 i
  else c.memRead k.1 k.2.1 k.2.2 (syn % w) (again % w) [] (k.1 ≠ 4)

/-- A read of word `i` of a page's table: the machine and the word. -/
def Chip.tableRead (c : Chip) (mem : Mem) (p i syn again : Nat) : Chip × Nat :=
  if c.memoryOff p i then (c.stick pwrPage 8, 0)
  else
    let c := (c.memoryExit p i).tableCheck p i syn again
    (c, c.newest 1 p i (c.tableWord mem p i))

/-! ## Per-master registers (R491, R493) -/

/-- Whether a register is held once per master. -/
def perMaster (p off : Nat) : Bool :=
  (hasWindow p && (off = 0xF0 || off = 0xF8)) || (p = devPage && (off = 0x60 || off = 0x64))

/-- The fields of a per-master register. -/
def perMasterFields (m p off : Nat) : List Fld :=
  if off = 0xF0 then [twIndex m p, twInc m p] else if off = 0xF8 then [twErr m p]
  else if off = 0x60 then [tabWin m] else [surfStack m, surfSlice m]

/-- A write to a per-master register. -/
def Chip.perMasterWrite (c : Chip) (m : Master) (p off data be : Nat) : Chip :=
  let en := beMask be
  (perMasterFields (masterNum m) p off).foldl (fun c f =>
    let e := en / 2 ^ f.lo % 2 ^ f.w
    let d := data / 2 ^ f.lo &&& e
    if !c.mayWrite m p 0 off f.lo then (if c.touches f data en then c.denied m else c)
    else if f.acc = .w1c then c.wr f (c.rd f &&& (2 ^ f.w - 1 - d))
    else c.wr f (d ||| (c.rd f &&& (2 ^ f.w - 1 - e)))) c

/-- The value of a per-master register. -/
def Chip.perMasterWord (c : Chip) (m : Master) (p off : Nat) : Nat :=
  (perMasterFields (masterNum m) p off).foldl (fun a f => a + c.rd f * 2 ^ f.lo) 0

/-- `INDEX` moves on after a `TW_DATA` access when `INC` is 1 (R491). -/
def Chip.indexNext (c : Chip) (m p : Nat) : Chip :=
  if c.on (twInc m p) then c.wr (twIndex m p) (c.rd (twIndex m p) + 1) else c

/-- An access to `TW_DATA` sets `ERR` when its index names no word, and clears nothing (R491). -/
def Chip.indexError (c : Chip) (m p i : Nat) : Chip :=
  if c.inWindow p i && namedIndex p i then c else c.wr (twErr m p) 1

/-- A write of `TW_DATA` by a master (R491). -/
def Chip.twWrite (c : Chip) (mem : Mem) (m : Master) (p data be : Nat) : Chip × Mem :=
  let k := masterNum m
  let i := c.rd (twIndex k p)
  let c := c.indexError k p i
  let r := if !(c.inWindow p i && namedIndex p i) then (c, mem)
    else if !c.reachesRam m p i then (c.decErr m 0x4000A0F4 0 true, mem)
    else c.tableWrite mem m p i data be
  (if c.mix.withheld.length < r.1.mix.withheld.length then r.1.withheldBy k else r.1.indexNext k p, r.2)

/-- A read of `TW_DATA` by a master (R491). -/
def Chip.twRead (c : Chip) (mem : Mem) (m : Master) (p syn again : Nat) : Chip × Nat :=
  let k := masterNum m
  let i := c.rd (twIndex k p)
  let c := c.indexError k p i
  let r := if c.inWindow p i && namedIndex p i then c.tableRead mem p i syn again else (c, 0)
  (r.1.indexNext k p, r.2)

/-! ## Register space -/

/-- A write of one word of register space, page `p` being implemented. -/
def Chip.regWordWrite (c : Chip) (mem : Mem) (m : Master) (p off data be : Nat) : Chip × Mem :=
  if off < 0x40 then (c.headerWrite m p off data be, mem)
  else if perMaster p off then (c.perMasterWrite m p off data be, mem)
  else if hasWindow p ∧ off = 0xF4 then c.twWrite mem m p data be
  else c.bodyWrite mem m p 0 off data be

/-- Whether a master may read a word of register space (R435). -/
def Chip.mayRead (c : Chip) (m : Master) (p off : Nat) : Bool :=
  match m with
  | .bi2c => off < 0x40 || [0x0, 0x1, 0x2, 0x3, 0x120, 0x128].contains p || (p = cmdPage && c.on Mgmt.bi2cCmd)
  | .twin => false
  | _ => true

/-- A read of one word of register space, page `p` being implemented. -/
def Chip.regWordRead (c : Chip) (mem : Mem) (m : Master) (p off syn again : Nat) : Chip × Nat :=
  if off < 0x40 then (c, c.newest 0 p off (c.headerWord p off))
  else if perMaster p off then (c, c.perMasterWord m p off)
  else if hasWindow p ∧ off = 0xF4 then c.twRead mem m p syn again
  else if p = cmdPage ∧ off = 0x44 then c.cmdClaim m
  else
    let v := c.newest 0 p off (c.bodyWord m p off)
    let c := if p = timePage ∧ off = 0x44 then c.updMer (fun x => { x with latch := Store.set {} x.latch (masterNum m) c.stc }) else c
    (c.sinceRead p off, v)

/-! ## Table space (R492, R493) -/

/-- Words at rising byte offsets with their byte enables go to a region of byte memory. -/
def Mem.putWords (m : Mem) (region off : Nat) : List (Nat × Nat) → Mem
  | [] => m
  | (w, be) :: r =>
    Mem.putWords (Mem.puts m region off (leBytes 4 (mergeBits (Mem.word m region off) w (beMask be)))) region (off + 4) r

/-- The byte of its stack's surface region that a surface-aperture offset names for a master (R492, R493): the stack and the byte. -/
def Chip.surfaceAt (c : Chip) (m off : Nat) : Nat × Nat :=
  (c.rd (surfStack m), c.rd (surfSlice m) * 268435456 + (off - 0x10000000))

/-- Words of a surface are written: they are poisoned no longer (R423). -/
def Chip.surfaceWritten (c : Chip) (stack byte n : Nat) : Chip :=
  (List.range n).foldl (fun c j => c.unpoison stack 0 (byte / 4 + j)) c

/-- Send a BAR2 write to the standby, one cell a word (R377, R380): the page field of the cell carries the stack and, above it, the slice
of a surface write (log entry 22). -/
def Chip.mirrorBar2 (c : Chip) (m : Master) (page off : Nat) : List (Nat × Nat) → Chip
  | [] => c
  | (w, be) :: r => (c.mirrorWrite m 2 page off w be).mirrorBar2 m page (off + 4) r

/-- A BAR2 write outside the table aperture takes effect; `page` holds the stack and slice of a surface write. -/
def Chip.bar2Apply (c : Chip) (mem : Mem) (page off : Nat) (ws : List (Nat × Nat)) : Chip × Mem :=
  if off < 0x02000000 then (c.gainWrite off ws, mem)
  else if off < 0x02400000 then
    (if c.on Sched.loadGo then (c.stick schedPage 12, mem)
     else ((List.range ws.length).foldl (fun c j => c.unpoison 7 schedPage ((off - 0x02000000) / 4 + j)) c,
           Mem.putWords mem 4 (off - 0x02000000) ws))
  else
    let byte := page / 2 * 268435456 + (off - 0x10000000)
    (c.surfaceWritten (page % 2) byte ws.length, Mem.putWords mem (1 + page % 2) byte ws)

/-- Where a table-space access of `n` words lies (R492, R493). -/
inductive TsPlace
  | bar2 (page rights : Nat)
  | aperture (page index : Nat)
  | bad
  deriving DecidableEq, Repr

/-- Decode a table-space offset for a master. -/
def Chip.tsPlace (c : Chip) (m off n : Nat) : TsPlace :=
  if off + 4 * n ≤ 0x02000000 then .bar2 0 mixPage
  else if 0x02000000 ≤ off ∧ off + 4 * n ≤ 0x02400000 then .bar2 0 schedPage
  else if 0x08000000 ≤ off ∧ off + 4 * n ≤ 0x0C000000 then
    let p := c.rd (tabWin m)
    let i := (off - 0x08000000) / 4
    if pageExists p && (List.range n).all (fun j => c.inWindow p (i + j)) then .aperture p i else .bad
  else if 0x10000000 ≤ off ∧ off + 4 * n ≤ 0x20000000 then .bar2 (c.rd (surfStack m) + 2 * c.rd (surfSlice m)) hbmPage
  else .bad

/-- The clusters of the memory of a BAR2 access exit for it (R471). -/
def Chip.bar2Exit (c : Chip) (off : Nat) : Chip := if off < 0x02000000 then c.memoryExit mixPage (1048576 + off / 4) else c

/-- Whether the memory of a BAR2 access lies in a cluster in OFF (R471). -/
def Chip.bar2Off (c : Chip) (off : Nat) : Bool := off < 0x02000000 && c.memoryOff mixPage (1048576 + off / 4)

/-- The word of table space at a BAR2 offset outside the aperture. -/
def Chip.bar2Word (c : Chip) (mem : Mem) (page off : Nat) : Nat :=
  c.newest 2 page off
    (if off < 0x02000000 then c.gainRead (off / 2) + 65536 * c.gainRead (off / 2 + 1)
     else if off < 0x02400000 then (if c.isPoisoned 7 schedPage ((off - 0x02000000) / 4) then 0 else Mem.word mem 4 (off - 0x02000000))
     else Mem.word mem (1 + page % 2) (page / 2 * 268435456 + (off - 0x10000000)))

/-- A BAR2 write by a master without the right to it is denied if it would change a word (R435). -/
def Chip.bar2Denied (c : Chip) (mem : Mem) (m : Master) (page off : Nat) (ws : List (Nat × Nat)) : Chip :=
  if ws.zipIdx.any (fun w =>
      let at_ := off + 4 * w.2
      let old := c.bar2Word mem page at_
      mergeBits old w.1.1 (placeMask (wordPlace 2 page at_) w.1.2) ≠ old) then c.denied m else c

/-- Words of the gain table are written through the aperture in one transaction, whose entries are accepted together (R214). -/
def Chip.gainAperture (c : Chip) (mem : Mem) (m : Master) (i : Nat) (ws : List (Nat × Nat)) : Chip :=
  if c.memoryOff mixPage i then c.stick pwrPage 8
  else
    let c := c.memoryExit mixPage i
    if !c.mayWrite m mixPage 1 i 0 then c.bar2Denied mem m 0 (4 * (i - 1048576)) ws
    else if c.ignoresMirrored then c.stick twinPage 10
    else if c.mirrors then (ws.zipIdx).foldl (fun c w => c.mirrorWrite m 1 mixPage (i + w.2) w.1.1 w.1.2) c
    else c.gainWrite (4 * (i - 1048576)) ws

/-- Words of a page's table from index `i` on are written through the aperture; indices that hold no word ignore theirs. -/
def Chip.apertureWrite (c : Chip) (mem : Mem) (m : Master) (p i : Nat) : List (Nat × Nat) → Chip × Mem
  | [] => (c, mem)
  | (w, be) :: r =>
    let x := if namedIndex p i then c.tableWrite mem m p i w be else (c, mem)
    x.1.apertureWrite x.2 m p (i + 1) r

/-- A write of words to table space (R214, R380, R435, R471, R493). -/
def Chip.tsWrite (c : Chip) (mem : Mem) (m : Master) (off : Nat) (ws : List (Nat × Nat)) : Chip × Mem :=
  match c.tsPlace (masterNum m) off ws.length with
  | .bad => (c.decErr m (0x60000000 + off) 0 true, mem)
  | .aperture p i =>
    if !c.reachesRam m p i then (c.decErr m (0x60000000 + off) 0 true, mem)
    else if p = mixPage ∧ 1048576 ≤ i then (c.gainAperture mem m i ws, mem)
    else c.apertureWrite mem m p i ws
  | .bar2 page rights =>
    if c.bar2Off off then (c.stick pwrPage 8, mem)
    else if !c.mayWrite m rights 1 0 0 then (c.bar2Denied mem m page off ws, mem)
    else if c.ignoresMirrored then (c.stick twinPage 10, mem)
    else if c.mirrors then (c.mirrorBar2 m page off ws, mem)
    else (c.bar2Exit off).bar2Apply mem page off ws

/-- Words of a page's table read through the aperture, each from index `i` on; syndromes belong to the first. -/
def Chip.apertureRead (c : Chip) (mem : Mem) (p i syn again : Nat) : Nat → Chip × List Nat
  | 0 => (c, [])
  | n + 1 =>
    let x := if namedIndex p i then c.tableRead mem p i syn again else (c, 0)
    let r := x.1.apertureRead mem p (i + 1) 0 0 n
    (r.1, x.2 :: r.2)

/-- A read that has been answered with data. -/
def Chip.answered (c : Chip) (ws : List Nat) : Chip := { c with resp := .okay, rdata := ws }

/-- A read of `n` words of table space (R420, R471, R493), with the syndromes of its first word. -/
def Chip.tsRead (c : Chip) (mem : Mem) (m : Master) (off n syn again : Nat) : Chip :=
  match c.tsPlace (masterNum m) off n with
  | .bad => c.decErr m (0x60000000 + off) 0 false
  | .aperture p i =>
    if !c.reachesRam m p i then c.decErr m (0x60000000 + off) 0 false
    else
      let r := c.apertureRead mem p i syn again n
      if p = hostPage ∧ 4096 ≤ i ∧ (List.range n).any (fun j => r.1.isPoisoned 6 0 (i - 4096 + j)) then
        r.1.slvErr m (0x60000000 + off) 0 false
      else r.1.answered r.2
  | .bar2 page _ =>
    if c.bar2Off off then (c.stick pwrPage 8).answered (List.replicate n 0)
    else
      let w := 65536
      let c := c.bar2Exit off
      let c := if off < 0x02000000 then c.tableCheck mixPage (1048576 + off / 4) syn again
        else if off < 0x02400000 then c.tableCheck schedPage ((off - 0x02000000) / 4) syn again
        else c.memRead (page % 2) 0 ((page / 2 * 268435456 + (off - 0x10000000)) / 4) (syn % w) (again % w) [] true
      c.answered ((List.range n).map (fun j => c.bar2Word mem page (off + 4 * j)))

/-! ## Transactions -/

/-- Regions of the fabric's address map (R430): register space, table space, working RAM with its byte offset, the boot ROM. -/
inductive Region
  | reg (off : Nat)
  | tab (off : Nat)
  | ram (off : Nat)
  | rom (off : Nat)
  | none
  deriving DecidableEq, Repr

/-- Decode a fabric address (R430). -/
def Chip.region (c : Chip) (a : Nat) : Region :=
  if 0x40000000 ≤ a ∧ a < 0x44000000 then .reg (a - 0x40000000)
  else if 0x60000000 ≤ a ∧ a < 0x80000000 then .tab (a - 0x60000000)
  else
    let remap := c.on Cfab.remap
    if a < 0x400000 then (if remap then .ram a else if a < 0x40000 then .rom a else .none)
    else if 0x10000000 ≤ a ∧ a < 0x10400000 then
      (if !remap then .ram (a - 0x10000000) else if a < 0x10040000 then .rom (a - 0x10000000) else .none)
    else .none

/-- Whether a master reaches the boot ROM and working RAM (R435). -/
def hkRights (m : Master) : Bool := m = .hk || m = .jtag

/-- Whether a register-space access of `n` words at an offset keeps the rules of R487: one of 64 bits is aligned to 8 bytes. -/
def regShape (off n : Nat) : Bool := off % 4 = 0 && 0 < n && n ≤ 64 && off % 4096 + 4 * n ≤ 4096 && (n ≠ 2 || off % 8 = 0)

/-- Whether a table-space access keeps the rules of R493. -/
def tabShape (off n : Nat) : Bool := 0 < n && n ≤ 64 && off % (4 * n) = 0

/-- Register words are written one after the other (R487). -/
def Chip.regRun (c : Chip) (mem : Mem) (m : Master) (p off : Nat) : List (Nat × Nat) → Chip × Mem
  | [] => (c, mem)
  | (w, be) :: r =>
    let x := c.regWordWrite mem m p off w be
    x.1.regRun x.2 m p (off + 4) r

/-- A write transaction of words with their byte enables (R431, R435, R487, R493). -/
def Chip.fabricWrite (c : Chip) (mem : Mem) (m : Master) (addr id : Nat) (ws : List (Nat × Nat)) : Chip × Mem :=
  let c := { (c.debugOpen m) with resp := .okay, rdata := [] }
  let n := ws.length
  if !c.masterRuns m then (c, mem)
  else
    match c.region addr with
    | .reg off =>
      if !regShape off n then (c.slvErr m addr id true, mem)
      else if !pageExists (off / 4096) then (c.decErr m addr id true, mem)
      else c.regRun mem m (off / 4096) (off % 4096) ws
    | .tab off => if !tabShape off n then (c.slvErr m addr id true, mem) else c.tsWrite mem m off ws
    | .ram off =>
      if !hkRights m ∨ 4194304 < off + 4 * n then (c.decErr m addr id true, mem)
      else ((List.range n).foldl (fun c j => c.unpoison 6 0 (off / 4 + j)) c, Mem.putWords mem 0 off ws)
    | .rom _ => (if hkRights m then c else c.decErr m addr id true, mem)
    | .none => (c.decErr m addr id true, mem)

/-- Register words are read one after the other (R487). -/
def Chip.regReads (c : Chip) (mem : Mem) (m : Master) (p off : Nat) : Nat → Chip × List Nat
  | 0 => (c, [])
  | n + 1 =>
    let x := c.regWordRead mem m p off 0 0
    let r := x.1.regReads mem m p (off + 4) n
    (r.1, x.2 :: r.2)

/-- Whether a read of `n` words from `off` on reaches, by `TW_DATA`, a poisoned word of working RAM, or working RAM that its master may
not read (R423, R435). -/
def Chip.twBlocked (c : Chip) (m : Master) (p off n : Nat) : Option Bool :=
  let i := c.rd (twIndex (masterNum m) p)
  if p = hostPage ∧ off ≤ 0xF4 ∧ 0xF4 < off + 4 * n ∧ 4096 ≤ i ∧ c.inWindow p i then
    (if !c.reachesRam m p i then some true else if c.isPoisoned 6 0 (i - 4096) then some false else none)
  else none

/-- What a read transaction of `n` words reaches (R423, R431, R435, R487, R493). -/
def Chip.fabricReach (c : Chip) (mem : Mem) (m : Master) (addr id n : Nat) : Chip :=
  let c := { (c.debugOpen m) with resp := .okay, rdata := [] }
  if !c.masterRuns m then c
  else
    match c.region addr with
    | .reg off =>
      let p := off / 4096
      let o := off % 4096
      if !regShape off n then c.slvErr m addr id false
      else if !pageExists p then c.decErr m addr id false
      else if (List.range n).any (fun j => !c.mayRead m p (o + 4 * j)) then c.decErr m addr id false
      else
        match c.twBlocked m p o n with
        | some true => c.decErr m addr id false
        | some false => c.slvErr m addr id false
        | none =>
          let r := c.regReads mem m p o n
          r.1.answered r.2
    | .tab off =>
      if !tabShape off n then c.slvErr m addr id false
      else if m = .bi2c ∨ m = .twin then c.decErr m addr id false
      else c.tsRead mem m off n 0 0
    | .ram off =>
      if !hkRights m ∨ 4194304 < off + 4 * n then c.decErr m addr id false
      else if (List.range n).any (fun j => c.isPoisoned 6 0 (off / 4 + j)) then c.slvErr m addr id false
      else (c.cleanRead 6 0 (off / 4) []).answered ((List.range n).map (fun j => Mem.word mem 0 (off + 4 * j)))
    | .rom off =>
      if !hkRights m then c.decErr m addr id false
      else c.answered ((List.range n).map (fun j => leNat ((List.range 4).map (fun b => (Config.bootRom (off + 4 * j + b)).toNat))))
    | .none => c.decErr m addr id false

/-- A read transaction of `n` words: all zeros where it is answered with DECERR (R431). -/
def Chip.fabricRead (c : Chip) (mem : Mem) (m : Master) (addr id n : Nat) : Chip :=
  let r := c.fabricReach mem m addr id n
  if r.resp = .decerr then { r with rdata := List.replicate n 0 } else r

/-! ## The ports of the masters -/

/-- How many distinct IDs a master may have in flight (R429). -/
def idLimit (m : Nat) : Nat := [64, 64, 1, 1, 16, 1].getD m 1

/-- Whether a request of master number `m` is held at its port: the master has as many transactions in flight as `CFAB_LIMIT` lets it, or
the fabric has 512 (R432); the host's reads wait for its posted writes (R438), and the management SPI and the board I2C for their
write (R441, R442). -/
def Chip.portHeld (c : Chip) (m : Nat) (write : Bool) : Bool :=
  let own := (c.inFlight.filter (fun p => p.1 = m)).length
  max 1 (c.rd (fixFld (Cfab.limit.nth m))) ≤ own || 512 ≤ c.inFlight.length || (own ≠ 0 && (m = 2 || m = 3 || (m = 1 && !write)))

/-- A transaction of master `k` whose response is withheld: it stays in flight, and the write of it that waits knows it. -/
def Chip.staysInFlight (before after : Chip) (k id : Nat) : Chip :=
  (if before.mix.withheld.length < after.mix.withheld.length then after.withheldFlight (k, id) else after.waitFlight id).setFlight
    (after.inFlight ++ [(k, id)])

/-- A transaction of master `k` that has been served: its response returns, or waits where earlier ones with its ID are still in flight
(R433). -/
def inOrder (after : Chip) (k id ahead : Nat) : Chip :=
  if ahead = 0 then after
  else { after with served := after.served ++ [(⟨k, id, ahead, after.resp, after.rdata⟩ : Served)], resp := .withheld, rdata := [] }.setFlight
    (after.inFlight ++ [(k, id)])

/-- One transaction `f` of a master with its fabric ID (R431, R432): held at the port, answered with SLVERR where its ID would be one too
many, or served. It is in flight while it is served, and goes on being so where its response is withheld: the last write of it that
waits brings the response; or where earlier ones with its ID still wait for theirs (R433). -/
def Chip.transact (c : Chip) (mem : Mem) (m : Master) (addr id : Nat) (write : Bool) (f : Chip → Chip × Mem) : Chip × Mem :=
  let k := masterNum m
  let own := (c.inFlight.filter (fun p => p.1 = k)).map Prod.snd
  if c.masterRuns m ∧ c.portHeld k write then ({ c with resp := .held, rdata := [] }, mem)
  else if c.masterRuns m ∧ idLimit k < (id :: own).eraseDups.length then
    (((c.slvErr m addr id write).raise 0xD2 cfabPage k 0).stick cfabPage 2, mem)
  else
    let peak := Cfab.outPeak.nth k
    let r := f (if c.masterRuns m then c.wr peak (max (c.rd peak) (own.length + 1)) else c)
    (if r.1.resp = .withheld then c.staysInFlight r.1 k id else inOrder r.1 k id (own.filter (· = id)).length, r.2)

/-! ## The order of waiting requests (R434)

A command of this model is one whole access, so its sender has put the requests in the order that the fabric serves them; this is
that order (log entry 27). -/

/-- A request that waits at a target group: its master's number and how long it has waited, in ns. -/
structure Waiting where
  master : Nat
  waited : Nat
  deriving DecidableEq, Repr

/-- The target group of a region of the address map (R434): pages below 16, other pages, table windows and table space, working
RAM, and the boot ROM. -/
def targetGroup : Region → Nat
  | .reg off => if 0xF0 ≤ off % 4096 ∧ off % 4096 < 0xFC then 2 else if off / 4096 < 16 then 0 else 1
  | .tab _ => 2
  | .ram _ => 3
  | .rom _ => 4
  | .none => 1

/-- The request that group `g` serves next, `last` being the master it served last (R434). -/
def Chip.servesNext (c : Chip) (g last : Nat) (rs : List Waiting) : Option Waiting :=
  let pick (better : Waiting → Waiting → Bool) (l : List Waiting) : Option Waiting :=
    l.foldl (fun best r => match best with
      | none => some r
      | some b => if better r b then some r else some b) none
  let old := rs.filter (fun r => 2000 ≤ r.waited)
  if old.isEmpty then
    let pri (r : Waiting) : Nat := c.rd (Cfab.pri.nth g) / 8 ^ r.master % 8
    let turn (r : Waiting) : Nat := (r.master + 5 - last) % 6
    pick (fun a b => pri b < pri a || (pri a = pri b && turn a < turn b)) rs
  else pick (fun a b => b.waited < a.waited) old

/-! ## Mirrored items (R379, R380) -/

/-- A word of the Keeper's settings as a resync copies it (R383), with the image's place in the carve-out (log entry 22). -/
def Chip.adoptKeeper (c : Chip) (n off data : Nat) : Chip :=
  let c := (wordFields (cmpPage n) 0 off).foldl (fun c f => c.wr f (data / 2 ^ f.lo % 2 ^ f.w)) c
  if off = 0x74 then c.updComp n (fun x => { x with kBase := data / 2 ^ 20 }) else c

/-- A WRITE item takes effect, on both devices of a pair: its mirrored fields alone; of a write to the gain table, with the words
`more` that follow it. Its write response has returned before (R380). -/
def Chip.applyItem (c : Chip) (mem : Mem) (i : MirrorItem) (more : List MirrorItem) : Chip × Mem :=
  if i.space = 2 then
    let r := c.bar2Apply mem i.page i.off ((i :: more).map (fun j => (j.data, j.be)))
    ({ r.1 with resp := c.resp }, r.2)
  else if i.space = 0 ∧ i.off < 0x40 then (if i.off = 8 then c.ctrlNow i.page i.data (beMask i.be) false true else c, mem)
  else if keeperWord i.page i.space i.off then (c.adoptKeeper (i.page - 0x80) i.off i.data, mem)
  else if i.space = 0 ∧ i.page = devPage ∧ i.off = 0x48 then (c.setCompat (i.data % 16), mem)
  else if i.space = 1 ∧ i.page = mixPage ∧ 1048576 ≤ i.off then
    let r := c.gainWrite (4 * (i.off - 1048576)) ((i :: more).map (fun j => (j.data, j.be)))
    ({ r with resp := c.resp }, mem)
  else if i.space = 1 ∧ mirroredWhole i.page i.off then
    let r := c.wholeWrite mem i.page i.off i.data i.be
    ({ r.1 with resp := c.resp }, r.2)
  else
    let fs := (reached i.page i.space i.off (beMask i.be) writable).filter (mirroredFld i.page)
    let r := c.applyWord mem (masterOf i.master) i.page i.space i.off i.data (fldMask fs &&& beMask i.be)
    (if i.space = 1 then r.1.unpoison 7 i.page i.off else r.1, r.2)

end Sys2Proof.Machine
end

