-- ==== Sys2Proof/Machine/Host.lean ====
section
/-! DEFINITION. Register accesses, the host attachment, the board controller's paths, the boot and the mailbox (R26, R429 to R456, R487
to R493): one meaning per row. -/

namespace Sys2Proof.Machine

/-- The words of a transaction with their byte enables: the first and the last may be partial (R487). -/
def withEnables (first last : BitVec 4) (ws : List (BitVec 32)) : List (Nat × Nat) :=
  ws.mapIdx (fun k w => (w.toNat, if k = 0 then first.toNat else if k + 1 = ws.length then last.toNat else 15))

/-- R26, R431, R435, R487: a write transaction. -/
def execRegisterWrite (m : Master) (addr : BitVec 32) (id : BitVec 6) (first last : BitVec 4) (ws : List (BitVec 32)) (s : State) :
    Host.Outcome State Fault Refusal :=
  actMem s (fun c mem => c.transact mem m addr.toNat id.toNat true (fun c =>
    c.fabricWrite mem m addr.toNat id.toNat (withEnables first last ws)))

/-- R491: an access to `TW_DATA` of a page, a write where `data` holds a word and its byte enables; `syn` and `again` are the syndromes of
the memory word read and of its re-read (R420, R423). -/
def execTableWindowAccess (m : Master) (p : BitVec 16) (data : Option (BitVec 32 × BitVec 4)) (syn again : BitVec 32) (s : State) :
    Host.Outcome State Fault Refusal :=
  actMem s (fun c mem => c.transact mem m (0x400000F4 + 4096 * p.toNat) 0 data.isSome fun c =>
    let addr := 0x400000F4 + 4096 * p.toNat
    let c := { (c.debugOpen m) with resp := .okay, rdata := [] }
    if !c.masterRuns m then (c, mem)
    else if !pageExists p.toNat then (c.decErr m addr 0 data.isSome, mem)
    else
      match data with
      | some d => c.regWordWrite mem m p.toNat 0xF4 d.1.toNat d.2.toNat
      | none =>
        if !c.mayRead m p.toNat 0xF4 then (c.decErr m addr 0 false, mem)
        else
          match c.twBlocked m p.toNat 0xF4 1 with
          | some true => (c.decErr m addr 0 false, mem)
          | some false => (c.slvErr m addr 0 false, mem)
          | none =>
            let r := c.regWordRead mem m p.toNat 0xF4 syn.toNat again.toNat
            (r.1.answered [r.2], mem))

/-- R492, R493: an access to table space at an offset: a write of words with their byte enables, or a read of `n` words. -/
def execTableSpaceAccess (m : Master) (off : BitVec 29) (data : Option (List (BitVec 32 × BitVec 4))) (n : BitVec 7)
    (syn again : BitVec 32) (s : State) : Host.Outcome State Fault Refusal :=
  actMem s (fun c mem => c.transact mem m (0x60000000 + off.toNat) 0 data.isSome fun c =>
    let addr := 0x60000000 + off.toNat
    let c := { (c.debugOpen m) with resp := .okay, rdata := [] }
    if !c.masterRuns m then (c, mem)
    else
      match data with
      | some ws =>
        if !tabShape off.toNat ws.length then (c.slvErr m addr 0 true, mem)
        else c.tsWrite mem m off.toNat (ws.map (fun w => (w.1.toNat, w.2.toNat)))
      | none =>
        if !tabShape off.toNat n.toNat then (c.slvErr m addr 0 false, mem)
        else if m = .bi2c ∨ m = .twin then (c.decErr m addr 0 false, mem)
        else
          let r := c.tsRead mem m off.toNat n.toNat syn.toNat again.toNat
          (if r.resp = .decerr then { r with rdata := List.replicate n.toNat 0 } else r, mem))

/-- R489: a read of a register of a page; those that keep a value since the last read restart. -/
def execSinceLastReadRestart (m : Master) (p : BitVec 16) (off : BitVec 12) (s : State) : Host.Outcome State Fault Refusal :=
  actMem s (fun c mem =>
    let addr := 0x40000000 + 4096 * p.toNat + off.toNat / 4 * 4
    c.transact mem m addr 0 false (fun c => (c.fabricRead mem m addr 0 1, mem)))

/-- R431: a target has not answered for 1 ms; the fabric answers for it. -/
def execFabricTimeout (m : Master) (addr : BitVec 32) (id : BitVec 6) (write : Bool) (s : State) : Host.Outcome State Fault Refusal :=
  act s (fun c =>
    let f := (masterNum m, id.toNat)
    let c := if c.waiting.contains f then { c with silent := c.silent ++ [f] }.returnFlight f .slverr else c
    ((c.slvErr m addr.toNat id.toNat write).raise 0xD1 cfabPage (masterNum m) 0).stick cfabPage 1)

/-- R431, R435: a read of `n` words that is answered by the map and the rights; `over` tells that it would pass its master's ID limit. -/
def execDecerrRead (m : Master) (addr : BitVec 32) (id : BitVec 6) (n : BitVec 7) (over_ : Bool) (s : State) :
    Host.Outcome State Fault Refusal :=
  actMem s (fun c mem =>
    if over_ then
      (((c.slvErr m addr.toNat id.toNat false).raise 0xD2 cfabPage (masterNum m) 0).stick cfabPage 2, mem)
    else c.transact mem m addr.toNat id.toNat false (fun c => (c.fabricRead mem m addr.toNat id.toNat n.toNat, mem)))

/-- R436: the link comes up at generation `gen`; the host configures its function. -/
def execUsb4LinkUp (gen : BitVec 3) (tunnel busMaster msix : Bool) (s : State) : Host.Outcome State Fault Refusal :=
  act s (fun c =>
    if gen.toNat < 2 ∨ 4 < gen.toNat then c
    else
      let c := ((c.wr Hst.gen gen.toNat).wr Hst.linkUp 1).wr Hst.tunnelUp (b2n tunnel)
      ((c.wr Hst.busMaster (b2n busMaster)).wr Hst.msixEn (b2n msix)).stick hostPage 2)

/-- R436: the link is lost. -/
def execUsb4LinkDown (s : State) : Host.Outcome State Fault Refusal :=
  act s (fun c =>
    if !c.on Hst.linkUp then c
    else
      let c := (((c.dropHost.wr Hst.gen 0).wr Hst.linkUp 0).wr Hst.tunnelUp 0).wr Hst.busMaster 0
      ((c.wr Hst.msixEn 0).raise 0xD3 hostPage 0 0).stick hostPage 0)

/-- R438, R472: the upstream router resets the device router. -/
def execUsb4RouterReset (s : State) : Host.Outcome State Fault Refusal := actMem s (fun c mem => c.warmRequest mem 4)

/-- R438: an error of the link or of the tunnelled path, recovered by the link layer or not. -/
def execUsb4LinkError (recovered : Bool) (s : State) : Host.Outcome State Fault Refusal :=
  act s (fun c =>
    let c := (c.inc Hst.errCnt).stick hostPage 1
    if recovered then c.raiseT 0xD4 hostPage 0 0 else c.raise 0xD4 hostPage 0 0)

/-- R438: a function-level reset. -/
def execFunctionLevelReset (s : State) : Host.Outcome State Fault Refusal := act s Chip.functionReset

/-- R439: a write of 1 to bit `v` of `HOST_EOI`. -/
def execHostEoi (m : Master) (v : Fin 64) (s : State) : Host.Outcome State Fault Refusal :=
  act s (fun c => c.guarded m 0 hostPage (0x48 + 4 * (v.val / 32)) (2 ^ (v.val % 32)) false (fun c => c.hostEoi v))

/-- R439: the mask bit of vector `v` is written 0. -/
def execMsixUnmask (m : Master) (v : Fin 64) (s : State) : Host.Outcome State Fault Refusal :=
  act s (fun c => c.guarded m 0 hostPage (0x80C + 16 * v.val) 0 false (fun c => if c.on (msixMask v) then c.msixUnmask v else c))

/-! ## The board controller's paths -/

/-- Whether the last transaction ended with an error response. -/
def Chip.failed (c : Chip) : Bool := c.resp = .slverr || c.resp = .decerr

/-- Words read one after the other by a serial path: the bytes it sends, an error as `bad` and one word of zeros. A read that is held
has sent nothing yet. -/
def Chip.serialReads (c : Chip) (mem : Mem) (m : Master) (addr : Nat) (mark : Bool) : Nat → Chip × List Nat
  | 0 => (c, [])
  | n + 1 =>
    let c := (c.transact mem m addr 0 false (fun c => (c.fabricRead mem m addr 0 1, mem))).1
    if c.resp = .held ∨ c.resp = .withheld then (c, []) else
    let bytes := if c.resp = .okay then (if mark then [0xA5] else []) ++ shaBytes 4 (c.rdata.getD 0 0)
      else (if mark then [0x5A] else []) ++ [0, 0, 0, 0]
    let bad := c.resp ≠ .okay
    let r := c.serialReads mem m ((addr + 4) % 2 ^ 32) mark n
    (if bad then { r.1 with resp := .slverr } else r.1, bytes ++ r.2)

/-- Words written one after the other by a serial path, each a transaction of its own; `resp` ends as an error if any did. While a
write is pending no further one is accepted (R441). -/
def Chip.serialWrites (c : Chip) (mem : Mem) (m : Master) (addr : Nat) : List Nat → Chip × Mem
  | [] => ({ c with resp := .okay }, mem)
  | w :: r =>
    let x := c.transact mem m addr 0 true (fun c => c.fabricWrite mem m addr 0 [(w, 15)])
    if x.1.resp = .held ∨ x.1.resp = .withheld then x else
    let bad := x.1.resp ≠ .okay
    let y := x.1.serialWrites x.2 m ((addr + 4) % 2 ^ 32) r
    (if bad then { y.1 with resp := .slverr } else y.1, y.2)

/-- A good frame on the management SPI is the second attempt of a bad one (R406, R424). -/
def Chip.spiGood (c : Chip) : Chip := c.judge 0xD5 mgmtPage 0 0 false

/-- R441: a read frame of `n` words. -/
def execMspiRead (addr : BitVec 32) (n : BitVec 8) (s : State) : Host.Outcome State Fault Refusal :=
  actMem s (fun c mem =>
    let r := c.spiGood.serialReads mem .mspi addr.toNat true n.toNat
    (r.1.updHost (fun h => { h with spiErr := r.1.failed }) |>.emit (.serial r.2), mem))

/-- R441: a write frame. -/
def execMspiWrite (addr : BitVec 32) (ws : List (BitVec 32)) (s : State) : Host.Outcome State Fault Refusal :=
  actMem s (fun c mem =>
    let c := c.spiGood.updHost (fun h => { h with spiDenied := false })
    let r := c.serialWrites mem .mspi addr.toNat (ws.map (fun w => w.toNat))
    (r.1.updHost (fun h => { h with spiErr := r.1.failed }), r.2))

/-- R441: a status frame. -/
def execMspiStatus (s : State) : Host.Outcome State Fault Refusal :=
  act s (fun c =>
    let c := c.spiGood
    let b := c.rd Mgmt.mspiBusy + 2 * b2n c.host.spiErr + 4 * b2n c.host.spiDenied
    (c.emit (.serial [b])).updHost (fun h => { h with spiErr := false, spiDenied := false }))

/-- R441: an unknown command byte or a short frame. -/
def execMspiBadFrame (s : State) : Host.Outcome State Fault Refusal :=
  act s (fun c => ((c.inc Mgmt.errMspi).stick mgmtPage 0).judge 0xD5 mgmtPage 0 0 true)

/-- How a transfer on the board I2C ended: without a protocol error, or with one (R442). -/
def Chip.i2cEnd (c : Chip) (ok : Bool) : Chip :=
  (if ok then c else (c.inc Mgmt.errBi2c).stick mgmtPage 1).judge 0xD6 mgmtPage 0 0 !ok

/-- R442: a write transfer: an address and data words. -/
def execBi2cWrite (addr : BitVec 32) (ws : List (BitVec 32)) (ok : Bool) (s : State) : Host.Outcome State Fault Refusal :=
  actMem s (fun c mem =>
    let r := c.serialWrites mem .bi2c addr.toNat (ws.map (fun w => w.toNat))
    ((r.1.updHost (fun h => { h with i2cAddr := (addr.toNat + 4 * ws.length) % 2 ^ 32 })).i2cEnd ok, r.2))

/-- R442: a read transfer of `n` words from the address that stands. -/
def execBi2cRead (n : BitVec 8) (ok : Bool) (s : State) : Host.Outcome State Fault Refusal :=
  actMem s (fun c mem =>
    let r := c.serialReads mem .bi2c c.host.i2cAddr false n.toNat
    let c := r.1.emit (.serial r.2)
    ((c.updHost (fun h => { h with i2cAddr := (h.i2cAddr + 4 * n.toNat) % 2 ^ 32 })).i2cEnd ok, mem))

/-! ## Boot and mailbox -/

/-- R444: a write of 1 to `HOST_CTRL.BOOT_GO`. -/
def execBootGo (m : Master) (s : State) : Host.Outcome State Fault Refusal :=
  actMem s (fun c mem => (c.trigger m hostPage 0x40 1 false (fun c => c.bootGo mem), mem))

/-- R447: the session nonce is drawn. -/
def execNonceDrawn (n : BitVec 64) (s : State) : Host.Outcome State Fault Refusal :=
  act s (fun c =>
    if c.host.nonce then c
    else
      let c := (c.wr Cmd.nonceLo (n.toNat % 2 ^ 32)).wr Cmd.nonceHi (n.toNat / 2 ^ 32)
      c.updHost (fun h => { h with nonce := true }))

/-- R445: a read of `CMD_CLAIM`. -/
def execCmdClaim (m : Master) (s : State) : Host.Outcome State Fault Refusal :=
  actMem s (fun c mem => c.transact mem m 0x40008044 0 false (fun c => (c.fabricRead mem m 0x40008044 0 1, mem)))

/-- R445: a write of 1 to `CMD_CTRL.RELEASE`. -/
def execCmdRelease (m : Master) (s : State) : Host.Outcome State Fault Refusal :=
  act s (fun c => c.trigger m cmdPage 0x40 1 false (fun c => c.cmdRelease m))

/-- R445: 100 ms without a write from the owner. -/
def execCmdOwnerTimeout (s : State) : Host.Outcome State Fault Refusal :=
  act s (fun c => if c.rd Cmd.state = 1 ∨ c.rd Cmd.state = 2 then c else c.updHost (fun h => { h with owner := none }))

/-- R446: a write of 1 to `CMD_CTRL.GO`. -/
def execCmdGo (m : Master) (s : State) : Host.Outcome State Fault Refusal :=
  act s (fun c => c.trigger m cmdPage 0x40 0 false (fun c => c.cmdGo m))

/-- R446 to R451: verification ends. -/
def execCmdVerifyDone (s : State) : Host.Outcome State Fault Refusal := act s Chip.cmdVerify

/-- R450: the lock of 1 s ends. -/
def execMailboxLockExpire (s : State) : Host.Outcome State Fault Refusal := act s (fun c => c.wr Cmd.locked 0)

/-- R453: the command `FW_INSTALL`. -/
def execFwInstall (target : BitVec 16) (a0 a1 : BitVec 32) (s : State) : Host.Outcome State Fault Refusal :=
  actMem s (fun c mem => c.fwInstall mem target.toNat a0.toNat a1.toNat)

/-- R453: the flash write ends, well or with a program or erase error. -/
def execFwInstallDone (ok : Bool) (s : State) : Host.Outcome State Fault Refusal := actMem s (fun c mem => c.fwInstallDone mem ok)

/-- R454: the command `KEY_ROTATE`. -/
def execKeyRotate (target : BitVec 16) (a0 : BitVec 32) (s : State) : Host.Outcome State Fault Refusal :=
  act s (fun c => c.keyRotate target.toNat a0.toNat)

/-- R454: the fuses are programmed, or their programming fails. -/
def execKeyRotateDone (ok : Bool) (s : State) : Host.Outcome State Fault Refusal := actMem s (fun c mem => c.keyRotateDone mem ok)

/-- R455: the command `COMPAT_SET`. -/
def execCompatSet (target : BitVec 16) (a0 : BitVec 32) (s : State) : Host.Outcome State Fault Refusal :=
  act s (fun c => c.compatSet target.toNat a0.toNat)

end Sys2Proof.Machine
end

