-- ==== Sys2Proof/Machine/Mix.lean ====
section
/-! DEFINITION. The mix engine (R204 to R224): one meaning per row. Slots, batches, start and delivery at a boundary stand in
Period.lean and MixOps.lean. -/

namespace Sys2Proof.Machine

/-- Whole entries, from entry `e` on, as the aligned words of a BAR2 write with their byte enables (R213). -/
def gainWords (e : Nat) : List Nat → List (Nat × Nat)
  | [] => []
  | a :: r =>
    if e % 2 = 1 then (65536 * a, 12) :: gainWords (e + 1) r
    else match r with
      | [] => [(a, 3)]
      | b :: r => (a + 65536 * b, 15) :: gainWords (e + 2) r

/-- R213, R214, R217, R218: a write of `data` at byte offset `off` of the gain table. -/
def execGainWrite (m : Master) (off : BitVec 25) (data : List (BitVec 8)) (s : State) : Host.Outcome State Fault Refusal :=
  act s (fun c =>
    (c.transact [] m (0x60000000 + off.toNat) 0 true (fun c =>
    let c := { (c.debugOpen m) with resp := .okay, rdata := [] }
    (if !c.masterRuns m then c
    else if c.bar2Off off.toNat then c.stick pwrPage 8
    else if !c.mayWrite m mixPage 1 1048576 0 then c.denied m
    else if c.ignoresMirrored then c.stick twinPage 10
    else if off.toNat % 2 = 1 ∨ data.length % 2 = 1 ∨ data.length = 0 then c.stick mixPage 6
    else
      let es := gainEntries off.toNat (data.map BitVec.toNat)
      if c.mirrors then c.mirrorBar2 m 0 (off.toNat / 4 * 4) (gainWords (off.toNat / 2) (es.map Prod.snd))
      else (c.bar2Exit off.toNat).gainTake es, []))).1)

/-- R217: the write that has been withheld longest is accepted once there is room for all of its entries, and the response of its
transaction returns. -/
def execGainWriteAccept (s : State) : Host.Outcome State Fault Refusal :=
  act s (fun c =>
    match c.mix.withheld with
    | [] => c
    | w :: rest =>
      if c.on Mix.batch ∨ !c.on Mix.run ∨ c.hasRoom (w.es.filter (fun p => Store.get 0 c.mix.gain p.1 ≠ p.2)) then
        let c := (c.updMix (fun x => { x with withheld := rest })).gainTake w.es
        let c := match w.tw with
          | some k => c.indexNext k mixPage
          | none => c
        match w.flight with
        | some f => c.answerFlight f
        | none => c
      else c)

/-- R218: a write of `MIX_CTRL.BATCH` = 1. -/
def execBatchOpen (m : Master) (s : State) : Host.Outcome State Fault Refusal :=
  act s (fun c => c.guarded m 0 mixPage 0x40 1 true Chip.batchOpen)

/-- R218, R219: a write of 1 to `COMMIT`. -/
def execBatchCommit (m : Master) (s : State) : Host.Outcome State Fault Refusal :=
  act s (fun c => c.trigger m mixPage 0x40 1 true Chip.batchCommit)

/-- R218: a write of 1 to `DISCARD`. -/
def execBatchDiscard (m : Master) (s : State) : Host.Outcome State Fault Refusal :=
  act s (fun c => c.trigger m mixPage 0x40 2 true Chip.batchDiscard)

/-- A checked read of an entry by the tile: an uncorrectable error poisons it (R419, R423). -/
def Chip.gainEcc (c : Chip) (t e syn again : Nat) : Chip :=
  let c := c.eccRead 4 t 0x06 0x07 mixPage t e syn again [(2, e / 4096)]
  if syn ≠ 0 ∧ !oneBit syn ∧ !c.mix.poison.contains e then c.updMix (fun x => { x with poison := e :: x.poison }) else c

/-- R14, R207 to R209: tile `t` mixes the period and fills its retimer block. `e` is the crosspoint of the tile whose read shows the syndromes `ecc` (0: every read is
clean). The first entry that a period program reads is that of the tile's first output and input. -/
def execMixTilePeriod (t : Fin 64) (e : Fin 262144) (ecc : MemRead) (s : State) : Host.Outcome State Fault Refusal :=
  act s (fun c =>
    let t := t.val
    if !c.on Mix.run ∨ !c.aud.isOpen ∨ (c.tile t).ran then c
    else
      let syn := ecc.syn.toNat % 256
      let again := ecc.again.toNat % 256
      let c := c.gainEcc t (262144 * t) (if e.val = 0 then syn else 0) again
      let c := if e.val = 0 then c else c.gainEcc t (262144 * t + e) syn again
      let rs := (c.tile t).ramps
      let c := (List.range 64).foldl (fun c j =>
        let o := 64 * t + j
        let b := c.mixBlock o rs
        let c := (c.wr (Mix.sat.nth o) (b2n b.2)).judge 0x70 mixPage o 0 b.2
        let c := if b.2 then (c.inc Mix.satCnt).stick mixPage 0 else c
        if b.1.all (fun y => y = 0) then c else c.updTile t (fun x => { x with mixed := Store.set [] x.mixed o b.1 })) c
      let out := (List.range 64).flatMap (fun j =>
        let b := Store.get [] (c.tile t).mixed (64 * t + j)
        if b = [] then List.replicate c.periodLen 0 else b.map (ofSigned 32))
      (c.updTile t (fun x => { x with ran := true })).fillBlock (.tile (Fin.ofNat 64 t)) out)

end Sys2Proof.Machine
end

