-- ==== Sys2Proof/Machine/Period.lean ====
section
/-! DEFINITION. The period boundary (R25): what each block does there, in order. -/

namespace Sys2Proof.Machine

/-- The loop of a tracker after one more period (R183): in `LOCKED` it narrows by one step while the phase error stays within 1/16
sample, down to `BW`. DESIGN CHOICE (log entry 17): a step is the next bandwidth of the list 20, 10, 5, 2, 1, 0.5 Hz. -/
def loopStep (loop bw : Nat) (locked : Bool) (pherr : Int) : Nat :=
  let bw := if 5 ≤ bw then 2 else bw
  if locked && pherr.natAbs ≤ 256 then (if bw < loop then loop - 1 else bw) else loop

/-- A tracker's output and loop move on by one period (R183), and a device that is not paired takes its own ratio and phase. -/
def Chip.trackerPeriod (c : Chip) (t : Nat) : Chip :=
  let locked : Bool := c.rd (Asrc.tState.nth t) = 2
  let own := !c.mirrors && !c.isStandby
  c.updTrk t (fun x => { x with
    out := x.next locked, fall := false,
    loop := loopStep x.loop (c.rd (Asrc.tBw.nth t).live) locked x.pherr,
    useRatio := if own then x.ratio else x.useRatio,
    usePhase := if own then x.phase else x.usePhase })

/-- Trackers at a boundary: the channel table and written configurations go into use, outputs and loops move on, and a tracker in
`HOLD` or resynchronised in the block is judged (R183, R184). -/
def Chip.trackersAt (c : Chip) : Chip :=
  let c := c.asrcApply
  let c := c.aud.trkDirty.foldl (fun c t => c.trkApply t) c
  let c := c.updAud (fun a => { a with trkDirty := [] })
  let c := (List.range 64).foldl (fun c t => c.trackerPeriod t) c
  let bad := (List.range 64).filter (fun t => (c.trkx t).block || c.rd (Asrc.tState.nth t) = 3)
  let c := c.judgeAll 0x67 (bad.map (fun t => (asrcPage, t, 3)))
  bad.foldl (fun c t => c.updTrk t (fun x => { x with block := false })) c

/-- The active device of a pair tells the ratio and phase of each tracker that runs for a coming period (R185, R381). -/
def Chip.tellTrackers (c : Chip) : Chip :=
  if !c.mirrors then c
  else ((List.range 64).filter (fun t => 1 ≤ c.rd (Asrc.tState.nth t) && c.rd (Asrc.tState.nth t) ≤ 4)).foldl (fun c t =>
    c.decision 4 asrcPage c.periodBidx [t, (c.trkx t).ratio, ofSigned 32 (c.trkx t).phase, 0] id) c

/-- The standby takes a tracker's values and compares its own (R185): more than 1/4 input sample apart is source `0x6E`. -/
def Chip.followTracker (c : Chip) (t ratio phase : Nat) : Chip :=
  let d := toSigned 32 (ofSigned 32 ((c.trkx t).phase - (phase : Int)))
  let c := c.wr (Asrc.tRatio.nth t) ratio
  if 16384 < d.natAbs then (c.raise 0x6E asrcPage t 3).stick asrcPage 2 else c.passHolds 0x6E asrcPage t

/-- Mirrored tracker values whose boundary has come (R185, R379): both devices interpolate with them, and the standby holds its own
against them. -/
def Chip.takeTrackers (c : Chip) (m : Nat) : Chip :=
  let due := c.twin.due.filter (fun i => i.space = 3 && i.off = 4 && i.bidx = m)
  let c := { c with twin := { c.twin with due := c.twin.due.filter (fun i => !due.contains i) } }
  due.foldl (fun c i =>
    let t := i.payload.headD 0 % 64
    let c := c.updTrk t (fun x => { x with useRatio := i.payload.getD 1 0, usePhase := toSigned 32 (i.payload.getD 2 0) })
    if c.isStandby then c.followTracker t (i.payload.getD 1 0) (i.payload.getD 2 0) else c) c

/-- Mirrored image verdicts whose boundary has come (R284, R381). -/
def Chip.takeImages (c : Chip) (mem : Mem) (m : Nat) : Chip :=
  let due := c.twin.due.filter (fun i => i.space = 3 && i.off = 5 && decide (frameDiff i.bidx m ≤ 0))
  let c := { c with twin := { c.twin with due := c.twin.due.filter (fun i => !due.contains i) } }
  due.foldl (fun c i => c.takeImage mem (i.payload.headD 0)) c

/-- Mix results are handed to egress from stamp `m` on (R25, R195). -/
def Chip.mixToEgress (c : Chip) (m : Nat) : Chip := c.egressOn.foldl (fun c p => c.egressPut p.1 m (c.mixGiven p.2)) c

/-- The mix engine at a boundary: ramps end, the engine stops or starts, and slots are given out (R211, R217). -/
def Chip.mixAt (c : Chip) (opens : Bool) : Chip :=
  let c := if c.on Mix.run && c.aud.isOpen then c.advanceRamps else c
  if c.on Mix.run then
    (if !c.enabled mixPage then c.mixStop else if opens then c.slots else c.showSlots)
  else if c.enabled mixPage ∧ opens ∧ !c.power.starts.contains mixPage then
    (let c := c.mixStart
     if c.on Mix.run then c.slots else c)
  else c

/-- What happens at boundary `m`. No period opens at it when `PLEN` has been rewritten while the last one was in flight: boundaries begin
again at the next multiple of the new P (R279). -/
def Chip.boundary (c : Chip) (mem : Mem) (m : Nat) : Chip :=
  let opens := c.enabled schedPage && c.periodCode = c.plenCode
  let c := ((c.asrcFill m).takeTrackers m).stepHolds.trackersAt
  let c := if c.power.amapDue then c.amapBlank else if c.rd Amap.code = 2 then c.amapApply else c
  let c := ((c.mixDeliver.mixToEgress m).takeImages mem m).applyImage mem
  let c := (List.range 64).foldl (fun c k => c.novaBoundary k m opens) c
  let c := c.mixAt opens
  let c := (c.wr Sched.periods (b2n opens)).wr Amap.amc m
  let c := c.updAud (fun a => { a with m := m, isOpen := opens, plen := some c.plenCode })
  let c := c.updSch (fun x => { x with last := false, perSeen := (x.condBad, x.rateBad) })
  (c.txStart m).tellTrackers.updAmcOfs

/-- R25, R164, R279: the sample instant whose AMC value is a multiple of P: a period ends and, unless it was the last, one opens.
Asynchronous ports send the instant's frame with the samples handed to egress here (R169, R170, R195). -/
def execPeriodBoundary (s : State) : Host.Outcome State Fault Refusal :=
  actMem s (fun c mem =>
    if c.boundaryDue then ((c.boundary mem c.amc).sendAsync, mem) else (c, mem))

end Sys2Proof.Machine
end

