-- ==== Sys2Proof/Machine/Power.lean ====
section
/-! DEFINITION. Power and reset (R461 to R481): one meaning per row. -/

namespace Sys2Proof.Machine

/-- R463, R472: POR is asserted. Everything is cleared but fuses and the boot flash, the always-on store too. -/
def execPor (s : State) : Host.Outcome State Fault Refusal :=
  actAlways s (fun c mem => (c.coldReset 1, Mem.coldReset mem))

/-- R463, R472: `RESET_N` is low. POR, and the hold after a brown-out, stand over it (R473, R476). -/
def execColdReset (s : State) : Host.Outcome State Fault Refusal :=
  actAlways s (fun c mem =>
    if c.power.asserted = 1 ∨ c.power.asserted = 3 then (c, mem)
    else ({ c.coldReset 2 with pins := { resetN := false } }, Mem.coldReset mem))

/-- The end of POR or COLD (R444, R463, R477, R494): the straps are sampled, the clusters wake to IDLE, the ROM runs. -/
def Chip.release (c : Chip) (mem : Mem) (st : Straps) (cause : Nat) : Chip × Mem :=
  let c := { c with straps := st, power := {}, pins := {} }
  let c := (((c.wr Dev.compat (if st.compat then 15 else 0)).wr Rst.cause cause).wr Hbm.ready 3).wr Hbm.sref 0
  let c := if st.scale then c else c.wr Twin.active 1
  let c := (List.range 10).foldl (fun c n => c.wr (Pwr.railInWin.nth n) 1) (c.wr Pwr.railsOk 1)
  let c := (List.range 64).foldl (fun c k => c.wr (Pwr.clState.nth k) 1) c
  c.showStatic.boot mem

/-- R463: POR ends, or `RESET_N` returns high. Right after power-up, before any start-up has run, it is the end of POR. -/
def execResetRelease (scale compat side bootHost : Bool) (s : State) : Host.Outcome State Fault Refusal :=
  actAlways s (fun c mem =>
    if c.power.asserted = 2 then c.release mem ⟨scale, compat, side, bootHost⟩ 1
    else if c.power.asserted = 1 ∨ (c.power.asserted = 0 ∧ c.rd Dev.boot = 0 ∧ c.power.warm.isNone) then
      c.release mem ⟨scale, compat, side, bootHost⟩ 0
    else (c, mem))

/-- R475: rail `n` stays below its brown-out threshold for 2 us. VDD_AON falling is a POR, VDD_FUSE has no threshold. The report
goes to the always-on copy before the COLD state that follows is held (R476), and the HBM stacks enter self-refresh if their own rail is not
the one. -/
def execBrownOut (n : Fin 10) (s : State) : Host.Outcome State Fault Refusal :=
  actAlways s (fun c mem =>
    if n.val = 1 ∨ n.val = 9 ∨ c.power.asserted = 1 then (c, mem)
    else
      let c := ((c.raise 0xE7 pwrPage n 0).collectTwice).coldReset 3
      (if n.val = 5 then c else c.wr Hbm.sref 3, Mem.coldReset mem))

/-- R476: every rail has been in window for 1 ms after a brown-out. -/
def execBrownOutRecovery (scale compat side bootHost : Bool) (s : State) : Host.Outcome State Fault Refusal :=
  actAlways s (fun c mem =>
    if c.power.asserted = 3 then c.release mem ⟨scale, compat, side, bootHost⟩ 2 else (c, mem))

/-- R472, R494: a write of 1 to `DEV_CTRL.WARM_RST`. -/
def execWarmRst (m : Master) (s : State) : Host.Outcome State Fault Refusal :=
  actMem s (fun c mem =>
    let c := c.debugOpen m
    if !c.masterRuns m then (c, mem)
    else if !c.mayWrite m devPage 0 0x4C 0 then (c.denied m, mem)
    else c.warmRequest mem 3)

/-- R472: the control plane has been reset, and the ROM runs. -/
def execWarmResetDone (s : State) : Host.Outcome State Fault Refusal := actMem s (fun c mem => c.warmDone mem)

/-- R472, R484: a write of 1 to `PAGE_CTRL.BRST`, the other bits of the word as they stand. -/
def execBlockReset (m : Master) (p : BitVec 16) (s : State) : Host.Outcome State Fault Refusal :=
  act s (fun c =>
    if !pageExists p.toNat then (if c.masterRuns m then c.decErr m (0x40000008 + 4096 * p.toNat) 0 true else c)
    else c.headerWrite m p.toNat 0x08 (c.ctrlWord p.toNat + 2) 15)

/-- R472: a BLOCK reset completes. -/
def execBlockResetDone (p : BitVec 16) (s : State) : Host.Outcome State Fault Refusal := act s (fun c => c.blockDone p.toNat)

/-- R483: a write to `PAGE_CTRL`. -/
def execPageCtrlWrite (m : Master) (p : BitVec 16) (data : BitVec 32) (be : BitVec 4) (s : State) :
    Host.Outcome State Fault Refusal :=
  act s (fun c =>
    if !pageExists p.toNat then (if c.masterRuns m then c.decErr m (0x40000008 + 4096 * p.toNat) 0 true else c)
    else c.headerWrite m p.toNat 0x08 data.toNat be.toNat)

/-- R424, R461: monitor `n` has read `mv` for 10 us, in its window or not. -/
def execRailMonitor (n : Fin 10) (mv : BitVec 12) (inWin : Bool) (s : State) : Host.Outcome State Fault Refusal :=
  act s (fun c =>
    let c := (c.wr (Pwr.railMv.nth n) mv.toNat).wr (Pwr.railInWin.nth n) (b2n inWin)
    let c := c.wr Pwr.railsOk (b2n ((List.range 10).all (fun k => c.rd (Pwr.railInWin.nth k) = 1)))
    if n.val = 0 then
      (if mv.toNat < 680 then (c.raise 0xE2 pwrPage 0 0).stick pwrPage 1
       else if 880 < mv.toNat then (c.raise 0xE3 pwrPage 0 0).stick pwrPage 2
       else c)
    else if inWin then c
    else (c.raise 0xE4 pwrPage n 0).stick pwrPage 0)

/-- R424: the thermal sensors read Tj = `tj` (signed, degrees); `warm` tells that `FCU_TJ.WARN` has been exceeded for 1 s, and `spread`
by how much the sensors disagree. -/
def execTjMonitor (tj : BitVec 10) (warm : Bool) (spread : BitVec 8) (s : State) : Host.Outcome State Fault Refusal :=
  act s (fun c =>
    let c := if warm ∧ (min 110 (c.frd Fcu.tjWarn) : Int) < tj.toInt then (c.raise 0xE0 pwrPage 0 0).stick pwrPage 6 else c
    let c := if 115 < tj.toInt then (c.raise 0xE1 pwrPage 0 0).stick pwrPage 7 else c
    if 8 < spread.toNat then (c.raise 0xE8 pwrPage 0 0).stick pwrPage 5 else c)

/-- R466, R469: cluster `k` has no work; `icore` and `ballast` are the core rail's currents after it. -/
def execClusterSleep (k : Fin 64) (icore ballast : BitVec 10) (s : State) : Host.Outcome State Fault Refusal :=
  act s (fun c =>
    let c := c.showCore icore.toNat ballast.toNat
    if c.cluster k < c.allowedState k ∧ c.cluster k < 4 then c.placeCluster k (c.allowedState k) else c)

/-- R466, R467, R470: cluster `k` is to exit for work or a demand, with `iwake` its expected current. `wait` tells that the ramps in
progress do not allow it yet. -/
def execClusterWake (k : Fin 64) (wait : Bool) (iwake : BitVec 8) (icore ballast : BitVec 10) (s : State) :
    Host.Outcome State Fault Refusal :=
  act s (fun c =>
    let c := (c.showCore icore.toNat ballast.toNat).wr (Pwr.clIwake.nth k) iwake.toNat
    if c.cluster k = 1 then c.wr (Pwr.clState.nth k) 0
    else if 2 ≤ c.cluster k ∧ c.cluster k ≤ 4 ∧ !c.power.waits.contains k.val then
      (if wait then
        (((c.inc Pwr.deferCnt).wr Pwr.deferring 1).raise 0xE5 pwrPage k 0).stick pwrPage 3 |>.updPower
          (fun x => { x with waits := x.waits ++ [k.val] })
       else c.beginExit k)
    else c)

/-- R467: the ramps allow the wake of cluster `k` that waited. -/
def execWakeDeferEnd (k : Fin 64) (s : State) : Host.Outcome State Fault Refusal :=
  act s (fun c =>
    if c.power.waits.contains k.val then
      let c := c.updPower (fun x => { x with waits := x.waits.filter (· ≠ k.val) })
      let c := c.wr Pwr.deferring (b2n (!c.power.waits.isEmpty))
      if 2 ≤ c.cluster k ∧ c.cluster k ≤ 4 then c.beginExit k else c
    else c)

/-- R467, R468, R471: the exit of cluster `k`, with its reload, is complete after `us` microseconds from the demand. -/
def execWakeComplete (k : Fin 64) (us : BitVec 24) (s : State) : Host.Outcome State Fault Refusal :=
  act s (fun c =>
    if c.cluster k ≠ 5 then c
    else
      let c := c.wr (Pwr.clState.nth k) 0
      let c := if c.effTol k < us.toNat then ((c.inc Pwr.lateCnt).raise 0xE6 pwrPage k 0).stick pwrPage 4 else c
      c.startWaiting)

/-- R465: a write of 1 to `PWR_CTRL.SERVICE`. -/
def execServiceMode (m : Master) (s : State) : Host.Outcome State Fault Refusal :=
  act s (fun c => c.guarded m 0 pwrPage 0x40 1 false (fun c => c.wr Pwr.service 1))

/-- R424: the housekeeping pair disagrees with itself. -/
def execHkLockstep (s : State) : Host.Outcome State Fault Refusal := act s (fun c => c.raise 0xD7 devPage 0 0)

/-- R424: the firmware takes an exception. -/
def execHkExcept (s : State) : Host.Outcome State Fault Refusal := act s (fun c => c.raise 0xD8 devPage 0 0)

end Sys2Proof.Machine
end

