-- ==== Sys2Proof/Machine/MateOps.lean ====
section
/-! DEFINITION. What a device does with its mate's cells (R377 to R383): sequenced reception, mirrored items at their epochs, resync. -/

namespace Sys2Proof.Machine

/-! ## States -/

/-- The device enters `STBY_SYNC` (R375, R376, R382): what it had still to send or apply is dropped, and the first sequenced cell of
the resync gives the sequence number to go on from (log entry 22). -/
def Chip.enterSync (c : Chip) (cause : Nat) : Chip :=
  let c := { c.mirrorDrop with mirrorQ := [], replay := [], yieldDue := 0 }.updTwin (fun t =>
    { t with rxAny := true, tail := none, due := [], counters := [], imgNext := [], imgBase := [], imgLeft := 0 })
  ((c.wr Twin.queued 0).wr Twin.resyncPhase 1).setPair 5 cause

/-- The device reaches `ALONE` from `START`; after a resync that was broken off it is `PARTIAL` (R375). -/
def Chip.startAlone (c : Chip) : Chip :=
  let c := c.setPair 2 0
  if c.twin.broken then c.wr Twin.partialUp 1 else c

/-! ## Items at their epochs -/

/-- The count of the boundaries that an item waits for (R379, R385), none where the AMC counts them. -/
def Chip.itemCount (c : Chip) (i : MirrorItem) : Option Nat :=
  if i.space = 3 then
    (match i.off with
     | 1 => some (Store.get 0 c.mer.genCnt (c.verdictGen i))
     | 2 => some (c.rd Xpt.frame)
     | 3 | 8 => some (c.rd (Cmp.picture.on (i.page - 0x80)))
     | _ => none)
  else c.wordCount i.space i.page i.off

/-- The number of the last of an item's boundaries that has come. -/
def Chip.boundaryCount (c : Chip) (i : MirrorItem) : Nat := (c.itemCount i).getD c.aud.m

/-- Whether an item's `BIDX` names a boundary that has passed (R382). -/
def Chip.passedBy (c : Chip) (i : MirrorItem) : Bool :=
  i.bidx ≠ 0xFFFFFFFF && decide (frameDiff i.bidx (c.boundaryCount i) ≤ 0)

/-- Whether a boundary is still to come before that of an item's `BIDX` (R379): what the item does then takes effect at a later one than
the next. -/
def Chip.tooEarly (c : Chip) (i : MirrorItem) : Bool :=
  i.bidx ≠ 0xFFFFFFFF && (match c.itemCount i with
    | some n => decide (1 < frameDiff i.bidx n)
    | none => c.ticking && decide ((c.periodLen : Int) < frameDiff i.bidx c.aud.m))

/-- An item waits, its epoch past, until the boundary of its `BIDX` is the next one or has come. -/
def Chip.holdItem (c : Chip) (i : MirrorItem) : Chip := c.updTwin (fun t => { t with due := t.due ++ [i] })

/-- A decision takes effect (R381): the standby follows it and judges it, the active device applies it. Verdicts of alignment and of
images, and tracker values, wait for the boundary of their `BIDX`. -/
def Chip.applyDecision (c : Chip) (mem : Mem) (i : MirrorItem) : Chip :=
  let w := fun (k : Nat) => i.payload.getD k 0
  let by_ := c.isStandby
  match i.off with
  | 1 => if c.passedBy i then c.takeVerdict (w 0) (w 1) else c.holdItem i
  | 2 =>
    let v : Verdict := ⟨w 0 % 2, w 0 / 2 % 16, w 0 / 32 % 4096, w 1⟩
    if by_ then c.followSalvo v else c.applySalvo v
  | 3 =>
    let n := w 0 % 64
    let g := w 0 / 64 % 16
    (match w 0 / 1024 % 8 with
     | 0 => if by_ then c.followCmpDec n g .flip i.bidx else c.applyCmpDec n g .flip i.bidx
     | 1 => if by_ then c.followCmpDec n g .held i.bidx else c.applyCmpDec n g .held i.bidx
     | 2 => if by_ then c.followCmpDec n g .discard i.bidx else c.applyCmpDec n g .discard i.bidx
     | 3 => if by_ then c.followCmpDec n g .force i.bidx else c.applyCmpDec n g .force i.bidx
     | 4 => if by_ then c.followFreeze n (w 0 / 8192 % 8) true else c.applyFreeze n (w 0 / 8192 % 8) true
     | 5 => if by_ then c.followFreeze n (w 0 / 8192 % 8) false else c.applyFreeze n (w 0 / 8192 % 8) false
     | _ => c)
  | 4 => if c.passedBy i then c else c.holdItem i
  | 5 => if i.bidx = 0xFFFFFFFF ∨ !c.ticking ∨ c.passedBy i then c.takeImage mem (w 0) else c.holdItem i
  | 6 => c.takeManual (w 0 % 16)
  | 7 => c.armRestep (w 0 % 2) true
  | 8 => c.applyKeeperDec (w 0 % 64) (w 0 / 64 % 4) (w 1) (w 2) (w 3) i.bidx
  | _ => c

/-- One item is applied (R379, R382): on the standby, an item whose epoch has passed is source `0xC2`, and one whose boundary has
passed makes the standby resynchronise. -/
def Chip.applyOne (c : Chip) (mem : Mem) (late : Bool) (i : MirrorItem) (more : List MirrorItem) : Chip × Mem :=
  let by_ := c.isStandby
  let c := if by_ ∧ late then (c.raise 0xC2 twinPage i.seq 0).stick twinPage 1 else c
  let passed := by_ && (i :: more).any c.passedBy
  let r := if i.space = 3 then (c.applyDecision mem i, mem) else c.applyItem mem i more
  (if passed ∧ r.1.pairState = 6 then r.1.enterSync 0 else r.1, r.2)

/-- Whether `j` goes on with the write transaction of `i`: one master's words of the gain table at rising places (R214, log entry 19). -/
def MirrorItem.goesOn (i j : MirrorItem) : Bool :=
  i.master = j.master &&
    ((i.space = 2 && j.space = 2 && j.off = i.off + 4 && j.off < 0x02000000) ||
     (i.space = 1 && j.space = 1 && i.page = mixPage && j.page = mixPage && 1048576 ≤ i.off && j.off = i.off + 1))

/-- Items with the later words of their transactions beside their first. -/
def groupItems : List (Bool × MirrorItem) → List (Bool × MirrorItem × List MirrorItem)
  | [] => []
  | (late, i) :: r =>
    match groupItems r with
    | (lj, j, more) :: t => if !late && !lj && i.goesOn j then (late, i, j :: more) :: t else (late, i, []) :: (lj, j, more) :: t
    | [] => [(late, i, [])]

/-- Items are applied in the order of their sequence numbers (R379). -/
def Chip.applyItems (c : Chip) (mem : Mem) : List (Bool × MirrorItem × List MirrorItem) → Chip × Mem
  | [] => (c, mem)
  | i :: r =>
    let x := c.applyOne mem i.1 i.2.1 i.2.2
    x.1.applyItems x.2 r

/-- Of word writes whose epoch has come, those that go back to wait for their boundary: one is too early, or comes after such a one of its
page; `held` are the pages of those so far. The flag tells of an item that comes after its epoch. -/
def Chip.splitEarly (c : Chip) (held : List (Nat × Nat)) : List (Bool × MirrorItem) → List (Bool × MirrorItem) × List MirrorItem
  | [] => ([], [])
  | x :: r =>
    if x.2.space ≠ 3 ∧ (held.contains (x.2.space, x.2.page) ∨ c.tooEarly x.2) then
      let q := c.splitEarly ((x.2.space, x.2.page) :: held) r
      (q.1, x.2 :: q.2)
    else
      let q := c.splitEarly held r
      (x :: q.1, q.2)

/-- Image verdicts that wait for a boundary when none is to come any more take effect now (R278). -/
def Chip.idleImages (c : Chip) (mem : Mem) : Chip :=
  if c.ticking then c
  else
    let now := fun (i : MirrorItem) => i.space = 3 && i.off = 5
    (c.twin.due.filter now).foldl (fun c i => c.takeImage mem (i.payload.headD 0))
      (c.updTwin (fun t => { t with due := t.due.filter (fun i => !now i) }))

/-- The mirror step boundary of the present epoch (R379). -/
def Chip.mirrorStep (c : Chip) (mem : Mem) : Chip × Mem :=
  let e := c.rd Twin.epoch
  let due := c.mirrorQ.filter (fun i => frameDiff i.epoch e ≤ 0)
  let held := c.twin.due.filter (fun i => i.space ≠ 3)
  let q := c.splitEarly [] (held.map (fun i => (false, i)) ++ due.map (fun i => (decide (frameDiff i.epoch e < 0), i)))
  let c := { c with mirrorQ := c.mirrorQ.filter (fun i => 0 < frameDiff i.epoch e) }.updTwin (fun t =>
    { t with applied := e, due := t.due.filter (fun (i : MirrorItem) => i.space = 3) ++ q.2 })
  (c.idleImages mem).applyItems mem (groupItems q.1)

/-! ## Sequenced cells -/

/-- Whether this device takes sequenced cells: a standby, and after a take-over up to the number that the YIELD cell named (R391). -/
def Chip.takesCells (c : Chip) (seq : Nat) : Bool :=
  c.isStandby || (match c.twin.tail with
    | some t => decide ((t + 65536 - seq) % 65536 < 32768)
    | none => false)

/-- Reception of a sequenced cell (R378): the one expected is acknowledged and acted on, a gap is answered with a NAK, a cell received
before is acknowledged again. -/
def Chip.sequenced (c : Chip) (mem : Mem) (seq : Nat) (f : Chip → Mem → Chip × Mem) : Chip × Mem :=
  if c.grpState 32 ≠ 6 ∨ !c.takesCells seq then (c, mem)
  else
    let want := if c.twin.rxAny then seq else c.twin.rxSeq
    if seq = want then
      let c := c.updTwin (fun t => { t with rxSeq := (seq + 1) % 65536, rxAny := false, tail := if t.tail = some seq then none else t.tail })
      f (c.cellOut 6 0 [1, seq]) mem
    else if (seq + 65536 - want) % 65536 < 32768 then (c.cellOut 6 0 [2, want], mem)
    else (c.cellOut 6 0 [1, (want + 65535) % 65536], mem)

/-- A Keeper load is announced by its decision (R381): its image follows in BULK cells. -/
def Chip.expectImage (c : Chip) (i : MirrorItem) : Chip :=
  let w := fun (k : Nat) => i.payload.getD k 0
  if i.space = 3 ∧ i.off = 8 ∧ w 0 / 64 % 4 = 0 ∧ bit (w 1) 0 then
    c.updTwin (fun t => { t with imgNext := t.imgNext ++ [(w 0 % 64, w 3 % 8192 * (w 3 / 65536 % 8192) * 4)] })
  else c

/-- The first BULK cell of an announced image names its place in the carve-out (R377). -/
def Chip.imageCell (c : Chip) (addr len : Nat) : Chip :=
  if 0 < c.twin.imgLeft then c.updTwin (fun t => { t with imgLeft := t.imgLeft - len })
  else match c.twin.imgNext with
    | [] => c
    | (n, bytes) :: r =>
      let b := addr / 65536 % 4096
      let waits := (c.comp n).kDue.any (fun d => d.new.any KeeperNew.wait)
      let c := c.updTwin (fun t => { t with imgNext := r, imgLeft := bytes - len,
                                            imgBase := if waits then t.imgBase else t.imgBase ++ [(n, b)] })
      c.updComp n (fun x => { x with kDue := x.kDue.map (fun d => { d with new := d.new.map (fun k =>
        if k.wait then { k with base := b, wait := false } else k) }) })

/-- A received item waits for its epoch; one whose mirror step boundary has passed is applied at once (R382). After a take-over, a
decision whose boundary has passed is discarded (R391). -/
def Chip.receiveItem (c : Chip) (mem : Mem) (i : MirrorItem) : Chip × Mem :=
  let c := c.expectImage i
  if !c.isStandby ∧ i.space = 3 ∧ c.passedBy i then (c, mem)
  else if frameDiff i.epoch c.twin.applied ≤ 0 then c.applyOne mem true i []
  else ({ c with mirrorQ := c.mirrorQ ++ [i] }, mem)

/-- Bytes of a BULK cell go to their place (R377): space 2 BAR2 with the stack and slice of a surface, 3 the Keeper carve-out, 4 the
resync image, region 5. -/
def Chip.bulkAt (c : Chip) (mem : Mem) (place addr : Nat) (bs : List Nat) : Chip × Mem :=
  match place % 8 with
  | 2 => c.bar2Apply mem (place / 8) addr ((List.range (bs.length / 4)).map (fun j => (leNat ((bs.drop (4 * j)).take 4), 15)))
  | 3 => (c.imageCell addr bs.length, Mem.puts mem 3 (addr % 268435456) bs)
  | 4 => (c, Mem.puts mem 5 addr bs)
  | _ => (c, mem)

/-! ## Resync: the standby -/

/-- Whether a stored field is one that a resync copies, and COLD changes it; the spaces of its live and pending copies count as its own. -/
def mirroredKey (k : Nat) : Bool :=
  let sp := keySpace k % 8
  sp < 2 && (wordFields (keyPage k) sp (keyOff k)).any (fun f => f.lo = k % 32 && copiedFld (keyPage k) f && f.cold ≠ .kept)

/-- The mirrored words of bodies and tables that are stored: page, space and offset, each once. -/
def Chip.mirroredWords (c : Chip) : List (Nat × Nat × Nat) :=
  (((c.flds ++ c.fcu.regs).map Prod.fst).filter (fun k => keySpace k < 2 && mirroredKey k)).map (fun k => (keyPage k, keySpace k, keyOff k))
    |>.eraseDups

/-- The mirrored RW fields of a word. -/
def mirroredRw (p sp off : Nat) : List Fld := (wordFields p sp off).filter (fun f => f.acc = .rw && mirroredFld p f)

/-- The COLD values of a word's fields. -/
def coldOf (fs : List Fld) : Nat := fs.foldl (fun a f => a + coldValue f * 2 ^ f.lo) 0

/-- Words are written to their COLD values, by the rules of their blocks. -/
def Chip.coldWords (c : Chip) (mem : Mem) : List (Nat × Nat × Nat) → Chip × Mem
  | [] => (c, mem)
  | w :: r =>
    let fs := mirroredRw w.1 w.2.1 w.2.2
    let x := c.applyWord mem .twin w.1 w.2.1 w.2.2 (coldOf fs) (fldMask fs)
    x.1.coldWords x.2 r

/-- The mirrored tables of the mix engine take their COLD values, with whatever waits to enter them (R220). -/
def Chip.coldGains (c : Chip) : Chip :=
  let k := c.rd Mix.bCode
  let c := if 1 ≤ k ∧ k ≤ 3 then (c.wr Mix.commit 0).wr Mix.bCode 0 else c
  c.updMix (fun x => { x with gain := [], applied := [], accepted := [], staged := [], count := 0, batch := [], poison := [], withheld := [],
                              tiles := x.tiles.map (fun t => (t.1, { t.2 with ramps := [], queue := [] })) })

/-- No composer has a Keeper image, or one on its way (R158). -/
def Chip.coldKeepers (c : Chip) : Chip :=
  (c.cmps.map Prod.fst).foldl (fun c n => c.updComp n (fun x => { x with kBase := 0, kCrc := 0, kLoad := none, kDue := [] })) c

/-- Schedules take what COLD leaves: none is loaded (R285). -/
def Chip.coldScheds (c : Chip) : Chip :=
  let c := c.updSch (fun x => { x with plans := [], maps := [], mapWaits := [], calWaits := [], inForce := [] })
  let c := (List.range 8).foldl (fun c n => c.updPort n (fun p => { p with cal := [] })) c
  c.updMix (fun x => { x with prog := none })

/-- Phase 1 of a resync on the standby (R383): every mirrored field and table takes its COLD value, pages first, and `DEV_COMPAT` that
of the active device. -/
def Chip.coldMirrored (c : Chip) (mem : Mem) (compat : Nat) : Chip × Mem :=
  let c := ((c.enable.map Prod.fst).filter enableMirrored).foldl (fun c p => c.setEnable p (enableCold c.straps.scale p = 1)) c
  let r := c.coldWords mem c.mirroredWords
  let c := { r.1 with flds := r.1.flds.filter (fun e => !mirroredKey e.1) }.updFcu (fun f => { f with regs := f.regs.filter (fun e => !mirroredKey e.1) })
  let c := c.coldGains.coldScheds.coldKeepers
  let c := (c.novas.map Prod.fst).foldl (fun c k => c.updNova k (fun x => { x with im := [], dm := [] })) c
  (c.setCompat compat, [1, 2, 3, 4, 5].foldl (fun m r => Mem.clear m r) r.2)

/-- One schedule of the resync image goes into force; a core's instruction memory has come by its own words. -/
def Chip.adoptSection (c : Chip) (m : Mem) (i : Nat) : Chip :=
  let s := imgSection m i
  let im := (c.nova s.target).im
  let c := c.applySection m i
  if s.kind = 1 then c.updNova s.target (fun x => { x with im := im }) else c

/-- The end of phase 2 on the standby (R383): the schedules of the resync image go into force. -/
def Chip.adoptScheds (c : Chip) (mem : Mem) : Chip :=
  let m : Mem := (mem.filter (fun e => e.1 / 8589934592 = 5)).map (fun e => (e.1 - 8589934592, e.2))
  if imgWord m 0 ≠ 0x4D495844 then c
  else
    let c := (List.range (imgCount m)).foldl (fun c i => c.adoptSection m i) c
    (c.keepSections m).wr Sched.imgId (imgWord m 12)

/-- Phase 3 on the standby (R383): the counters are adopted, and all four items realign to the active device's phase: that of its TREF cells,
less half the LGTW round trip measured at training, against which GENERATOR_FRAME_START brings the phase of each start (log entry 22). Without
a TREF cell they have no basis (R352). -/
def Chip.adoptCounters (c : Chip) (frame amc epoch : Nat) (gens pics : List Nat) : Chip :=
  let c := ((c.wr Xpt.frame frame).wr Twin.epoch epoch).updTwin (fun t => { t with applied := epoch })
  let c := (List.range 64).foldl (fun c n => c.wr (Cmp.picture.on n) (pics.getD n 0)) (c.loadAmc amc)
  let c := c.updMer (fun m => { m with genCnt := (List.range 8).foldl (fun s r => Store.set 0 s r (gens.getD r 0)) m.genCnt })
  if c.twin.tref.isNone then c.wr MerLoop.raResult 2
  else
    let fp := ((List.range 4).filter (fun n => c.on (MerLoop.fpEn.nth n))).map (8 + ·)
    let wc := ((List.range 2).filter (fun n => c.on (MerLoop.wcEn.nth n))).map (12 + ·)
    ((c.updMer (fun m => { m with realign := List.range 8 ++ fp ++ wc, raStage := 4, raRes := 1 })).wr MerLoop.raResult 0).wr MerLoop.raGo 1

/-- Phase 4 on the standby (R383): a Nova core goes on from the boundary at which it was captured. -/
def Chip.adoptCore (c : Chip) (n : NovaCapture) : Chip :=
  let k := n.core.val
  let put := fun (l : List Nat) => (l.zipIdx).foldl (fun s p => Store.set 0 s p.2 p.1) []
  let puti := fun (l : List Int) => (l.zipIdx).foldl (fun s p => Store.set 0 s p.2 p.1) []
  let acc := puti (n.acc.map BitVec.toInt)
  let c := c.updNova k (fun x =>
    { x with g := put (n.g.map BitVec.toNat), p := put (n.p.map BitVec.toNat), a := acc, am := acc, pc := n.pc.toNat,
             cr := Store.set 0 (put (n.cr.map BitVec.toNat)) 18 k, res := [], br := none,
             dm := n.dm.foldl (fun s w => Store.set 0 s w.1.toNat w.2.toNat) [] })
  (c.wr (Nova.state.on k) n.state.toNat).showNova k

/-- Where a core's capture stands in the resync image, in bytes. The manual lays it out nowhere (log entry 22): word 0 holds 1, the state
from bit 1 and the pc from bit 8; then 16 G, 8 P, four accumulators of three words each and 32 control registers; from word 128 on data
memory. -/
def captureAt (k : Nat) : Nat := 0x10000000 + 0x40000 * k

/-- The words of an accumulator, low first. -/
def accWords (a : Int) : List Nat := let v := ofSigned 96 a; [v % 2 ^ 32, v / 2 ^ 32 % 2 ^ 32, v / 2 ^ 64]

/-- The capture of a core (R383), as words with their numbers; words of data memory that read 0 are left out. -/
def Chip.captureWords (c : Chip) (k : Nat) : List (Nat × Nat) :=
  let x := c.nova k
  let regs := [1 + 2 * c.novaSt k + 256 * x.pc] ++ (List.range 16).map (fun i => Store.get 0 x.g i) ++
    (List.range 8).map (fun i => Store.get 0 x.p i) ++ (List.range 4).flatMap (fun i => accWords (Store.get 0 x.a i)) ++
    (List.range 32).map (fun i => Store.get 0 x.cr i)
  (regs.zipIdx.map (fun r => (r.2, r.1))) ++ x.dm.map (fun w => (128 + w.1, w.2))

/-- A core goes on from its capture in the resync image, where that holds one (R383). -/
def Chip.adoptCapture (c : Chip) (m : Mem) (k : Nat) : Chip :=
  let w := fun (i : Nat) => Mem.word m 5 (captureAt k + 4 * i)
  if w 0 % 2 = 0 then c
  else
    let put := fun (at_ n : Nat) => (List.range n).foldl (fun s i => Store.set 0 s i (w (at_ + i))) []
    let acc := (List.range 4).foldl (fun s i =>
      Store.set 0 s i (toSigned 96 (w (25 + 3 * i) + w (26 + 3 * i) * 2 ^ 32 + w (27 + 3 * i) * 2 ^ 64))) []
    let dm := (m.filter (fun e => 8589934592 * 5 + captureAt k + 512 ≤ e.1 && e.1 < 8589934592 * 5 + captureAt k + 512 + 131072)).map
      (fun e => (e.1 - (8589934592 * 5 + captureAt k + 512)) / 4)
    let c := c.updNova k (fun x =>
      { x with g := put 1 16, p := put 17 8, a := acc, am := acc, pc := w 0 / 256 % 2048, cr := Store.set 0 (put 37 32) 18 k, res := [], br := none,
               dm := dm.eraseDups.foldl (fun s i => Store.set 0 s i (w (128 + i))) [] })
    (c.wr (Nova.state.on k) (w 0 / 2 % 8)).showNova k

/-- The check values of Keeper images are formed from the copied carve-out (R383). -/
def Chip.adoptKeepers (c : Chip) (m : Mem) : Chip :=
  ((List.range 64).filter (fun n => c.keeperOn n)).foldl (fun c n =>
    c.updComp n (fun x => { x with kCrc := imageCrc m x.kBase (c.rd (Cmp.kW.on n)) (c.rd (Cmp.kH.on n)) })) c

/-! ## Resync: the active device -/

/-- The word of a page that a resync copies: its RW fields, or the Keeper's word with the image's place in the carve-out beside the units
(log entry 22). -/
def Chip.copiedWord (c : Chip) (p sp off : Nat) : Nat :=
  if keeperWord p sp off then c.storedWord p sp off + (if off = 0x74 then 2 ^ 20 * (c.comp (p - 0x80)).kBase else 0)
  else c.rwWord p sp off

/-- Send one word of a page in a WRITE cell. -/
def Chip.sendWord (c : Chip) (sp p off data be : Nat) : Chip :=
  c.sendCell 1 [c.nextEpoch, sp + 16 * be + 256 * p, off, data, 0xFFFFFFFF, 4]

/-- The places of listed words of a region of byte memory. -/
def listedWords (mem : Mem) (region : Nat) : List Nat :=
  ((mem.filter (fun e => e.1 / 8589934592 = region)).map (fun e => e.1 % 8589934592 / 4)).eraseDups

/-- The staging list and a batch that waits are copied in the order of their writes, after the gain table (R220); a list that has
overflowed is made to overflow there too. -/
def Chip.copyBatch (c : Chip) : Chip :=
  let es := if c.on Mix.batch then c.mix.staged.reverse else c.mix.batch
  let extra := if c.on Mix.batch ∧ 65536 < c.mix.count then es.take 1 else []
  if !c.on Mix.batch ∧ !c.on Mix.commit then c
  else
    let c := c.sendWord 0 mixPage 0x40 1 15
    let c := (es ++ extra).foldl (fun c e => if e.1 % 2 = 0 then c.sendWord 1 mixPage (1048576 + e.1 / 2) e.2 3
      else c.sendWord 1 mixPage (1048576 + e.1 / 2) (65536 * e.2) 12) c
    if c.on Mix.commit then c.sendWord 0 mixPage 0x40 2 15 else c

/-- Send 24 bytes of copied content in a BULK cell (R377). -/
def Chip.sendBulk (c : Chip) (space addr : Nat) (ws : List Nat) : Chip := c.sendCell 2 ([space, addr] ++ ws)

/-- The schedules in force as an image (R270, R271): header, section table and bodies. The manual names the resync image and lays it out
nowhere; this is the form of the images that software loads (log entry 22). -/
def Chip.resyncImage (c : Chip) : List Nat :=
  let secs := c.sch.inForce
  let tab := secs.foldl (fun (a : List Nat × Nat) s =>
    (a.1 ++ [s.kind + 65536 * s.target, a.2, 4 * s.body.length, s.budget], a.2 + 4 * s.body.length)) ([], 64 + 16 * secs.length)
  [0x4D495844, 1 + 65536 * secs.length, tab.2, c.rd Sched.imgId] ++ List.replicate 12 0 ++ tab.1 ++ secs.flatMap Loaded.body

/-- The schedules in force go to the standby as the resync image (R377, R383). -/
def Chip.copyScheds (c : Chip) : Chip :=
  if c.sch.inForce.isEmpty then c
  else
    let ws := c.resyncImage
    (List.range ((ws.length + 5) / 6)).foldl (fun c k => c.sendBulk 4 (24 * k) ((ws.drop (6 * k)).take 6)) c

/-- Requests that stand (a `GO` that reads 1) are copied after the words and tables they act on, with the verdicts they have had (R383). -/
def Chip.copyActions (c : Chip) (ws : List (Nat × Nat × Nat)) : Chip :=
  let asked := ws.filter (fun w => (wordFields w.1 w.2.1 w.2.2).any (fun f => f.acc = .w1s && c.rdAny f ≠ 0))
  let c := asked.foldl (fun c w => c.sendWord w.2.1 w.1 w.2.2 (c.storedWord w.1 w.2.1 w.2.2) 15) c
  let c := c.xpt.armed.foldl (fun c a => c.sendCell 3 [c.nextEpoch, 2 + 256 * xptPage, 0xFFFFFFFF, a.table, a.frame, 0, 0]) c
  if c.rd Sched.code = 2 then c.sendCell 3 [c.nextEpoch, 5 + 256 * schedPage, 0xFFFFFFFF, 0, 0, 0, 0] else c

/-- Phase 2 on the active device (R383): every mirrored field and table but the `ENABLE` bits is copied. Words at their COLD values need no
cell, since phase 1 has set them. -/
def Chip.copyMirrored (c : Chip) (mem : Mem) : Chip :=
  let ws := c.mirroredWords.filter (fun w => w ≠ (mixPage, 0, 0x40))
  let c := ws.foldl (fun c w => c.sendWord w.2.1 w.1 w.2.2 (c.copiedWord w.1 w.2.1 w.2.2) 15) c
  let gs := (c.mix.gain.map (fun e => e.1 / 2)).eraseDups
  let gain := fun (e : Nat) => Store.get 0 c.mix.gain e
  let c := gs.foldl (fun c e => c.sendWord 1 mixPage (1048576 + e) (gain (2 * e) + 65536 * gain (2 * e + 1)) 15) c
  let c := (c.mix.withheld.flatMap Withheld.es).foldl (fun c e => if e.1 % 2 = 0 then c.sendWord 1 mixPage (1048576 + e.1 / 2) e.2 3
    else c.sendWord 1 mixPage (1048576 + e.1 / 2) (65536 * e.2) 12) c
  let c := c.copyBatch
  let c := c.novas.foldl (fun c n => n.2.im.foldl (fun c w => c.sendWord 1 (novaPage n.1) w.1 w.2 15) c) c
  let c := (listedWords mem 4).foldl (fun c i => c.sendWord 1 schedPage i (Mem.word mem 4 (4 * i)) 15) c
  let c := ((listedWords mem 3).map (· / 6)).eraseDups.foldl
    (fun c k => c.sendBulk 3 (24 * k) ((List.range 6).map (fun j => Mem.word mem 3 (24 * k + 4 * j)))) c
  let c := [0, 1].foldl (fun c k => (listedWords mem (1 + k)).foldl (fun c i =>
    c.sendWord 2 (k + 2 * (i / 67108864)) (0x10000000 + 4 * (i % 67108864)) (Mem.word mem (1 + k) (4 * i)) 15) c) c
  (c.copyScheds).copyActions ws

/-- Phase 3 on the active device (R383): the COUNTERS cell. Its words are not laid out in the manual: `XPT_FRAME`, the AMC, the epoch, the
eight generator counts and the 64 picture counts in this order, seven to a cell (log entry 22). -/
def Chip.sendCounters (c : Chip) : Chip :=
  let ws := [c.rd Xpt.frame, c.amc, c.rd Twin.epoch] ++ (List.range 8).map (fun r => Store.get 0 c.mer.genCnt r) ++
    (List.range 64).map (fun n => c.rd (Cmp.picture.on n))
  (List.range 11).foldl (fun c k => c.cellOut 6 0 (7 :: (ws.drop (7 * k)).take 7)) c

/-- A core's registers and data memory go to the standby in BULK cells of the resync image (R377, R383). -/
def Chip.copyCore (c : Chip) (k : Nat) : Chip :=
  let ws := c.captureWords k
  let word := fun (i : Nat) => Store.get 0 ws i
  ((ws.map (fun w => w.1 / 6)).eraseDups).foldl (fun c j =>
    c.sendBulk 4 (captureAt k + 24 * j) ((List.range 6).map (fun i => word (6 * j + i)))) c

/-- Phase 4 on the active device (R383): the Nova cores and the `ENABLE` bits. -/
def Chip.copyEnables (c : Chip) : Chip :=
  let c := ((c.novas.filter (fun n => n.2.loaded)).map Prod.fst).foldl Chip.copyCore c
  ((c.enable.map Prod.fst).filter enableMirrored).foldl (fun c p => c.sendWord 0 p 0x08 (b2n (c.enabled p)) 1) c

/-- A phase of a resync is complete (R383), on the device that copies: its copying takes place, and phase 5 ends the resync. -/
def Chip.resyncSent (c : Chip) (mem : Mem) : Chip :=
  let p := c.rd Twin.resyncPhase
  match p with
  | 0 => c
  | 5 =>
    let c := ((c.wr Twin.resyncPhase 0).wr Twin.resyncGo 0).stick twinPage 11
    c.setPair 3 0
  | _ =>
    let c := match p with
      | 2 => c.copyMirrored mem
      | 3 => c.sendCounters
      | 4 => c.copyEnables
      | _ => c
    c.wr Twin.resyncPhase (p + 1)

/-- The same on the device that is resynchronised. A device in `STANDBY` learns of a resync with the end of its phase 1. -/
def Chip.resyncReceived (c : Chip) (mem : Mem) (compat : Nat) (cores : List NovaCapture) : Chip × Mem :=
  let c := if c.pairState = 6 then c.enterSync 0 else c
  let p := c.rd Twin.resyncPhase
  match p with
  | 0 => (c, mem)
  | 1 =>
    let r := c.coldMirrored mem compat
    (r.1.wr Twin.resyncPhase 2, r.2)
  | 5 =>
    let c := ((c.wr Twin.resyncPhase 0).wr Twin.partialUp 0).stick twinPage 11
    ((c.updTwin (fun t => { t with broken := false })).setPair 6 0, mem)
  | _ =>
    let c := if p = 2 then (c.adoptScheds mem).adoptKeepers mem
      else if p = 4 then cores.foldl Chip.adoptCore ((List.range 64).foldl (fun c k => c.adoptCapture mem k) c) else c
    (c.wr Twin.resyncPhase (p + 1), mem)

end Sys2Proof.Machine
end

