-- ==== Sys2Proof/Machine/Cells.lean ====
section
/-! DEFINITION. The cells of LGTW as the device takes them (R377): what each type does, the cells of a received group frame, and the group
frame itself (R48). A cell comes in the payload of a group frame, or alone with a row of its own (log entry 22). -/

namespace Sys2Proof.Machine

/-! ## Sequenced cells -/

/-- A WRITE cell (R377 to R380). -/
def Chip.writeCell (c : Chip) (mem : Mem) (seq epoch space be page off data bidx master : Nat) : Chip × Mem :=
  c.sequenced mem seq (fun c mem => c.receiveItem mem ⟨epoch, seq, space, page, off, data, be, bidx, master, []⟩)

/-- A BULK cell (R377, R383) of `sub` 2, 3 or 4 with its byte address, or of `sub` 0xFF with the bytes that go on. `stack` and
`slice` place a surface (log entry 22). -/
def Chip.bulkCell (c : Chip) (mem : Mem) (seq sub addr stack slice : Nat) (bs : List Nat) : Chip × Mem :=
  c.sequenced mem seq (fun c mem =>
    let at_ := if sub = 0xFF then c.twin.bulkAt else (sub % 8 + 8 * (stack + 2 * slice), addr)
    let bs := bs.take (if sub = 0xFF then 28 else 24)
    (c.updTwin (fun t => { t with bulkAt := (at_.1, at_.2 + bs.length) })).bulkAt mem at_.1 at_.2 bs)

/-- A DECISION cell (R377, R381). -/
def Chip.decisionCell (c : Chip) (mem : Mem) (seq epoch kind page bidx : Nat) (ws : List Nat) : Chip × Mem :=
  c.sequenced mem seq (fun c mem => c.receiveItem mem ⟨epoch, seq, 3, page, kind, 0, 0, bidx, 0, ws⟩)

/-- An acknowledgement frees the cells up to its `SEQ`, and what waited for room is queued (R378). -/
def Chip.ackCell (c : Chip) (seq : Nat) : Chip :=
  let c := { c with replay := c.replay.filter (fun e => !decide ((seq + 65536 - e.1) % 65536 < 32768)) }
  (c.wr Twin.queued c.replay.length).mirrorRoom

/-- A NAK makes the sender send again from the missing `SEQ` (R378). -/
def Chip.nakCell (c : Chip) (seq : Nat) : Chip :=
  let again := c.replay.filter (fun e => decide ((e.1 + 65536 - seq) % 65536 < 32768))
  (again.foldl (fun c e => c.cellOut e.2.1 e.1 e.2.2) c).addSat Twin.replays again.length

/-- A device that takes sequenced cells acknowledges once in each superframe what it has received in order (R378). -/
def Chip.ackSuperframe (c : Chip) : Chip :=
  if c.isStandby && !c.twin.rxAny then c.cellOut 6 0 [1, (c.twin.rxSeq + 65535) % 65536] else c

/-! ## Health, roles and verdicts -/

/-- What the mate's HEALTH cell says is taken (R395): its grade, and the seconds of 100 good cells. -/
def Chip.mateGrade (c : Chip) (h : Nat) : Chip :=
  let was := c.rd Twin.mateHealth
  let c := (c.wr Twin.mateHealth h).wr Twin.matePresent 1
  let c := if h = 2 then c.stick twinPage 4 else c
  let c := if h = 2 ∧ was ≠ 2 then c.raise 0xC7 twinPage 0 0 else c
  if h ≠ 0 then (c.wr Twin.mateGood 0).updTwin (fun t => { t with goodRun := 0 })
  else if c.twin.goodRun < 99 then c.updTwin (fun t => { t with goodRun := t.goodRun + 1 })
  else (c.inc Twin.mateGood).updTwin (fun t => { t with goodRun := 0 })

/-- What the mate's state moves this device to (R375, R383); `was` is the state that it told before. -/
def Chip.mateMoves (c : Chip) (was st : Nat) : Chip :=
  let own := c.pairState
  if own = 1 then
    (if 2 ≤ st ∧ st ≤ 4 then c.enterSync 0
     else if st = 1 then (if c.straps.side then c.enterSync 0 else c.startAlone)
     else c)
  else if (own = 2 ∨ own = 3) ∧ st = 5 ∧ was ≠ 5 then c.beginResync
  else c

/-- R339: the mate is on candidate `sel`: a pair that ends up on different candidates reports it once. Holdover, which `SEL` shows as 15,
is no candidate. -/
def Chip.mateCandidate (c : Chip) (sel : Nat) : Chip :=
  let own := c.rd MerSel.sel
  let diff := decide (own ≠ sel ∧ own ≤ 8 ∧ sel ≤ 8)
  let c := if diff then c.stick merSelPage 8 else c
  let c := if diff && !c.twin.refDiff then c.raise 0xAD merSelPage own 0 else c
  c.updTwin (fun t => { t with refDiff := diff })

/-- A HEALTH cell (R339, R375, R376, R383, R395): grade, state, `PARTIAL`, `LSIDE` count, whether the mate's straps do not fit this
device's, and the candidate that the mate has selected, none where the cell does not tell (log entry 28). -/
def Chip.healthCell (c : Chip) (h st : Nat) (part : Bool) (lside : Nat) (badStraps : Bool) (sel : Option Nat) : Chip :=
  let was := c.twin.mateState
  let wasBad := c.twin.cfgBad
  let c := (c.mateGrade h).updTwin (fun t => { t with mateState := st, matePartial := part, mateLside := lside, cfgBad := badStraps })
  let c := if badStraps then c.stick twinPage 8 else c
  let c := if badStraps ∧ !wasBad then c.raise 0xCB twinPage 0 0 else c
  (match sel with
   | some n => c.mateCandidate n
   | none => c).mateMoves was st

/-- A YIELD cell with the last `SEQ` sent (R375, R390, R391): a device in `STANDBY` takes over and answers TAKE. -/
def Chip.yieldReceived (c : Chip) (last : Nat) : Chip :=
  if c.pairState ≠ 6 then c
  else
    let missing := c.twin.rxSeq ≠ (last + 1) % 65536
    let c := c.takeOver 3 8
    let c := { c with mirrorSeq := (last + 1) % 65536 }.updTwin (fun t => { t with tail := if missing then some last else none })
    c.cellOut 6 0 [4]

/-- A TAKE cell ends the yield (R375, R388). -/
def Chip.takeReceived (c : Chip) : Chip :=
  if c.pairState ≠ 4 then c
  else ((c.setPair 6 c.twin.yieldCause).updTwin (fun t => { t with rxSeq := c.mirrorSeq, yieldCause := 0 })).endDispute

/-- The mate's verdict on a unit (R387). -/
def Chip.verdictReceived (c : Chip) (u : Nat) (fault : Bool) (src : Nat) : Chip :=
  if c.on Ump.dispute ∧ c.twin.win.isSome ∧ c.rd Ump.dunit = u then
    (c.updTwin (fun t => { t with mate := some (fault, src) })).decideDispute
  else c

/-- A TREF cell (R341, R383): the mate's frame and the position of its T(F) in the group frame, with the phase that this device measures
from it in 1/16 ns. Its rate is that of the crosspoint, which both devices share. -/
def Chip.trefCell (c : Chip) (frame pos : Nat) (phase : Int) : Chip :=
  let c := (c.updTwin (fun t => { t with tref := some (frame, pos) })).updMer (fun m => { m with mateTrate := some c.xpt.rate })
  (if c.mer.drive = 7 then c.refreshBw else c).phaseEvent 7 phase

/-- The COUNTERS of phase 3 (R383). -/
def Chip.countersCell (c : Chip) (frame amc epoch : Nat) (gens pics : List Nat) : Chip :=
  if c.pairState ≠ 5 then c else c.adoptCounters frame amc epoch gens pics

/-- Seven words more of the COUNTERS; the eleventh cell completes them (log entry 22). -/
def Chip.countersMore (c : Chip) (ws : List Nat) : Chip :=
  let all := c.twin.counters ++ ws
  if all.length < 77 then c.updTwin (fun t => { t with counters := all })
  else (c.updTwin (fun t => { t with counters := [] })).countersCell (all.getD 0 0) (all.getD 1 0) (all.getD 2 0)
    ((all.drop 3).take 8) ((all.drop 11).take 64)

/-- A DIGEST cell: one label and the digests of units from `first` on (R377, R385). -/
def Chip.digestCell (c : Chip) (label first : Nat) (ds : List Nat) : Chip :=
  ((ds.take 5).zipIdx).foldl (fun c d => c.mateDigest (first + d.2) label d.1) c

/-! ## The cells of a group frame -/

/-- Cell `i` of an LGTW payload of 7,424 bits, as its eight words (R377). -/
def cellWords (pay i : Nat) : List Nat :=
  let v := pay / 2 ^ (7424 - 256 * (i + 1)) % 2 ^ 256
  (List.range 8).map (fun k => v / 2 ^ (32 * (7 - k)) % 2 ^ 32)

/-- Whether every lane frame that carries a part of cell `i` is good (R61, R377). -/
def cellWhole (lanes : List Nat) (i : Nat) : Bool :=
  lanes.contains (256 * i / 928) && lanes.contains ((256 * i + 255) / 928)

/-- A CONTROL cell (R377). The phase that a TREF cell shows is measured from the instant of its frame, which the model does not hold: it is
free (log entry 22). -/
def Chip.controlCell (c : Chip) (sub : Nat) (w : List Nat) : Chip :=
  let v := fun (k : Nat) => w.getD k 0
  match sub with
  | 1 => c.ackCell (v 1 % 65536)
  | 2 => c.nakCell (v 1 % 65536)
  | 3 => c.yieldReceived (v 2 % 65536)
  | 4 => c.takeReceived
  | 5 => c.verdictReceived (v 1 % 8192) (bit (v 3) 0) (v 3 / 2 % 256)
  | 6 => c.fresh.2.trefCell (v 1) (v 2 % 64) (toSigned 32 (c.fresh.1 % 2 ^ 32))
  | 7 => c.countersMore (w.drop 1)
  | _ => c

/-- A cell acts by its type (R377); IDLE and the types not listed do nothing. -/
def Chip.takeCell (c : Chip) (mem : Mem) (w : List Nat) : Chip × Mem :=
  let v := fun (k : Nat) => w.getD k 0
  let sub := v 0 / 256 % 256
  let seq := v 0 / 65536
  match v 0 % 256 with
  | 1 => c.writeCell mem seq (v 1) (v 2 % 4) (v 2 / 16 % 16) (v 2 / 256 % 65536) (v 3) (v 4) (v 5) (v 6 % 256)
  | 2 => c.bulkCell mem seq sub (v 1) 0 0 ((w.drop (if sub = 0xFF then 1 else 2)).flatMap (leBytes 4))
  | 3 => c.decisionCell mem seq (v 1) (v 2 % 256) (v 2 / 256 % 65536) (v 3) (w.drop 4)
  | 4 => (c.digestCell (v 1) (v 2 % 8192) ((w.drop 3).take (v 2 / 8192 % 8)), mem)
  | 5 => (c.healthCell (v 1 % 4) (v 1 / 8 % 8) (bit (v 1) 6) (v 3 % 64) c.twin.cfgBad none, mem)
  | 6 => (c.controlCell sub w, mem)
  | _ => (c, mem)

/-- The cells of a group frame act in their order (R377). -/
def Chip.takeCells (c : Chip) (mem : Mem) : List (List Nat) → Chip × Mem
  | [] => (c, mem)
  | w :: r =>
    let x := c.takeCell mem w
    x.1.takeCells x.2 r

/-- The 29 cells of a received LGTW group frame, without those that a bad lane frame has lost (R377). -/
def Chip.receivedCells (c : Chip) (lanes : List Nat) : List (List Nat) :=
  let pay := (List.range 8).foldl (fun a l => a * 2 ^ 928 + (c.lane 32 l).rxPay % 2 ^ 928) 0
  ((List.range 29).filter (cellWhole lanes)).map (cellWords pay)

/-- R48, R377: the deskewed group frame; `fill` is the elastic buffer's fill with it. Good lanes that differ in `FSEQ` are of different
group frames: DESIGN CHOICE (log entry 11), their slots are delivered to no sub-stream and their byte of a quality message is
lost. -/
def execGroupFrameReceive (g : Fin 33) (fill : Fin 33) (s : State) : Host.Outcome State Fault Refusal :=
  actMem s (fun c mem =>
    if c.grpState g < 5 then (c, mem)
    else
      let lanes := c.goodLanes g
      let together := c.lanesAgree g lanes 55 48
      let c := c.updGrp g (fun x => { x with skewRun := if together then 0 else x.skewRun + 1 })
      let hdr := (c.lane g (lanes.getD 0 0)).rxHdr
      let fseq := bits hdr 55 48
      let agree := c.controlAgrees g lanes
      let c := c.judge (laneSrc g 0x16) (lgrpPage g) 8 0 (!agree)
      let c := if agree then c else c.stick (lgrpPage g) 6
      let ok := agree && !lanes.isEmpty
      let c := if ok then (c.applyControl g hdr).lsideEase else c
      let c := if lanes.isEmpty then c.qbyte g ((c.lane g 0).rxFseq) none
        else c.qbyte g fseq (if ok && together then some (bits hdr 31 24) else none)
      let c := if g.val = 32 ∧ ok ∧ together ∧ fseq = 0 ∧ c.isStandby then c.incWrap Twin.epoch else c
      if c.grpState g ≠ 6 then (c, mem)
      else
        let c := c.setFill g fill
        let carries := c.rd (Lgrp.rxTrn.on g) = 0 ∧ together
        let c := if g.val < 32 ∧ carries then c.deliverSlots g lanes else c
        let r := if g.val = 32 ∧ carries ∧ c.paired then c.takeCells mem (c.receivedCells lanes) else (c, mem)
        let c := if g.val = 32 ∧ (if lanes.isEmpty then (c.lane g 0).rxFseq else fseq) = 0 then r.1.ackSuperframe else r.1
        if fill.val = 0 ∨ fill.val = 32 then ((c.laneRaise g 0x13 8 3).wholeRetrain g, r.2)
        else if 2 ≤ (c.grp g).skewRun then ((c.laneRaise g 0x15 8 5).wholeRetrain g, r.2)
        else (c, r.2))

end Sys2Proof.Machine
end

