-- ==== Sys2Proof/Machine/Twin.lean ====
section
/-! DEFINITION. The twin pair and the Umpire (R374 to R403): one meaning per row. Everything is inert with SCALE = SINGLE. A cell arrives
over LGTW only while that group is UP. -/

namespace Sys2Proof.Machine

/-- An event of the pair: nothing takes place with SCALE = SINGLE (R374). -/
def actPair (s : State) (f : Chip → Chip) : Host.Outcome State Fault Refusal := act s (fun c => if c.paired then f c else c)

/-- The arrival of a cell from the mate. -/
def actCell (s : State) (f : Chip → Chip) : Host.Outcome State Fault Refusal :=
  actPair s (fun c => if c.grpState 32 = 6 then f c else c)

/-! ## Sequenced cells -/

/-- R377 to R380: a WRITE cell. -/
def execWriteCell (seq : BitVec 16) (epoch : BitVec 32) (space : Fin 3) (be : BitVec 4) (page : BitVec 16) (off data bidx : BitVec 32)
    (master : BitVec 8) (s : State) : Host.Outcome State Fault Refusal :=
  actMem s (fun c mem =>
    c.writeCell mem seq.toNat epoch.toNat space.val be.toNat page.toNat off.toNat data.toNat bidx.toNat master.toNat)

/-- R377, R383: a BULK cell of `sub` 2, 3 or 4 with its byte address and 24 bytes, or of `sub` 0xFF with the next 28 bytes. `stack` and
`slice` place a surface (log entry 22). -/
def execBulkCell (seq : BitVec 16) (sub : BitVec 8) (addr : BitVec 32) (stack : Fin 2) (slice : Fin 8) (bytes : List (BitVec 8)) (s : State) :
    Host.Outcome State Fault Refusal :=
  actMem s (fun c mem => c.bulkCell mem seq.toNat sub.toNat addr.toNat stack.val slice.val (bytes.map BitVec.toNat))

/-- R377, R381: a DECISION cell. -/
def execDecisionCell (seq : BitVec 16) (epoch : BitVec 32) (kind : BitVec 8) (page : BitVec 16) (bidx w4 w5 w6 w7 : BitVec 32) (s : State) :
    Host.Outcome State Fault Refusal :=
  actMem s (fun c mem =>
    c.decisionCell mem seq.toNat epoch.toNat kind.toNat page.toNat bidx.toNat [w4.toNat, w5.toNat, w6.toNat, w7.toNat])

/-- R378: an acknowledgement frees the cells up to its `SEQ`, and writes that waited for room are queued. -/
def execAckCell (seq : BitVec 16) (s : State) : Host.Outcome State Fault Refusal :=
  actCell s (fun c => c.ackCell seq.toNat)

/-- R378: a NAK makes the sender send again from the missing `SEQ`. -/
def execNakCell (seq : BitVec 16) (s : State) : Host.Outcome State Fault Refusal :=
  actCell s (fun c => c.nakCell seq.toNat)

/-- R378: no acknowledgement for 1 ms while the mate is not lost: source `0xC3`, and the mate is resynchronised. -/
def execAckTimeout (s : State) : Host.Outcome State Fault Refusal :=
  actPair s (fun c =>
    if !activeRole c.pairState ∨ c.mateLost ∨ c.replay.isEmpty then c
    else
      let c := (({ c with replay := [] }.wr Twin.queued 0).raise 0xC3 twinPage ((c.replay.map Prod.fst).headD 0) 0).stick twinPage 2
      if c.pairState = 4 then c else c.mirrorRoom.beginResync)

/-- R379, R382: the mirror step boundary of the present epoch. -/
def execMirrorApply (s : State) : Host.Outcome State Fault Refusal :=
  actMem s (fun c mem => if c.paired then c.mirrorStep mem else (c, mem))

/-! ## The mate's health and the pair's states -/

/-- R339, R375, R376, R383, R395: a HEALTH cell: grade, state, `PARTIAL`, `LSIDE` count, whether the mate's straps do not fit this
device's, and the candidate that the mate has selected (log entry 28). The mate's causes and epoch change nothing here. -/
def execHealthCell (h : BitVec 2) (st : BitVec 3) (part : Bool) (lside : BitVec 6) (badStraps : Bool) (sel : BitVec 4) (s : State) :
    Host.Outcome State Fault Refusal :=
  actCell s (fun c => c.healthCell h.toNat st.toNat part lside.toNat badStraps (some sel.toNat))

/-- R375, R395: no LGTW, or no HEALTH cell, for `LOSS_US`. -/
def execMateLost (s : State) : Host.Outcome State Fault Refusal :=
  actPair s (fun c =>
    if c.mateLost then c
    else
      let st := c.pairState
      let c := (((c.wr Twin.matePresent 0).wr Twin.mateHealth 3).wr Twin.mateGood 0).updTwin (fun t => { t with goodRun := 0, mateState := 1 })
      let c := (c.raise 0xC6 twinPage 0 0).stick twinPage 3
      match st with
      | 2 | 3 => ({ (c.wr Twin.resyncPhase 0).wr Twin.resyncGo 0 with yieldDue := 0 }).mirrorAlone.setPair 2 0
      | 5 => ((c.wr Twin.resyncPhase 0).updTwin (fun t => { t with broken := true })).setPair 1 0
      | 6 => if c.on Twin.lossTake then c.takeOver 2 6 else c
      | _ => c)

/-- R375: `PAIR_WAIT` passes in `START` without LGTW UP. -/
def execPairWaitExpire (s : State) : Host.Outcome State Fault Refusal :=
  actPair s (fun c => if c.pairState = 1 ∧ c.grpState 32 ≠ 6 then c.startAlone else c)

/-- R376: both devices send `ACTIVE` = 1 for four superframes. -/
def execArbitration (s : State) : Host.Outcome State Fault Refusal :=
  actPair s (fun c =>
    if !(c.pairState = 2 ∨ c.pairState = 3) ∨ !c.on (Lgrp.rxActive.on 32) then c
    else
      let own := c.lsideCount
      let c := (c.raise 0xC9 twinPage 0 0).stick twinPage 6
      if own < c.twin.mateLside ∨ (own = c.twin.mateLside ∧ c.straps.side) then c.enterSync 7 else c)

/-! ## Switch-over -/

/-- R389, R390: a yield that is due takes place in `ACTIVE`; in any other state nothing does. Every LGTW frame carries a YIELD cell from
then on (`Chip.yieldCell`). -/
def execYieldDecision (s : State) : Host.Outcome State Fault Refusal :=
  actPair s (fun c =>
    let cause := c.yieldDue
    let c := { c with yieldDue := 0 }
    if cause = 0 ∨ c.pairState ≠ 3 then c
    else
      let c := ((c.updTwin (fun t => { t with yieldCause := cause })).setPair 4 0).mirrorDrop
      (c.raise 0xC4 twinPage 0 cause).cellOut 6 0 (c.yieldWords cause))

/-- R375, R390, R391: a YIELD cell with its cause and the last `SEQ` sent: a device in `STANDBY` takes over and answers TAKE. -/
def execYieldCell (_cause : BitVec 32) (last : BitVec 16) (s : State) : Host.Outcome State Fault Refusal :=
  actCell s (fun c => c.yieldReceived last.toNat)

/-- R375, R388: a TAKE cell ends the yield. -/
def execTakeCell (s : State) : Host.Outcome State Fault Refusal :=
  actCell s Chip.takeReceived

/-- R375: no TAKE cell within 1 ms: the device is `ACTIVE` again, and with the mate lost meanwhile `ALONE`. -/
def execTakeTimeout (s : State) : Host.Outcome State Fault Refusal :=
  actPair s (fun c =>
    if c.pairState ≠ 4 then c
    else ((((if c.mateLost then c.setPair 2 0 else c.setPair 3 0)).updTwin (fun t => { t with yieldCause := 0 })).raise 0xCD twinPage 0 0).stick twinPage 9)

/-- R392: an accepted `TWIN_SWITCHOVER`. -/
def execTwinSwitchover (target : BitVec 16) (a0 : BitVec 32) (s : State) : Host.Outcome State Fault Refusal :=
  act s (fun c =>
    let r := if target ≠ 0 ∧ c.paired then (15, c) else cmdSwitchover c (a0.toNat % 2 = 1)
    r.2.cmdEnd 0x01 r.1)

/-- R393: an accepted `TWIN_SWITCHBACK`. -/
def execTwinSwitchback (target : BitVec 16) (s : State) : Host.Outcome State Fault Refusal :=
  act s (fun c =>
    let r := if target ≠ 0 ∧ c.paired then (15, c) else cmdSwitchback c
    r.2.cmdEnd 0x02 r.1)

/-! ## Resync -/

/-- R341, R383: a TREF cell: the mate's frame and the position of its T(F) in the group frame, with the phase that this device measures
from it in 1/16 ns. Its rate is that of the crosspoint, which both devices share. -/
def execTrefCell (frame : BitVec 32) (pos : BitVec 6) (phase : BitVec 32) (s : State) : Host.Outcome State Fault Refusal :=
  actCell s (fun c => c.trefCell frame.toNat pos.toNat phase.toInt)

/-- R383: the COUNTERS cell of phase 3. -/
def execCountersCell (frame amc epoch : BitVec 32) (gens pics : List (BitVec 32)) (s : State) : Host.Outcome State Fault Refusal :=
  actCell s (fun c =>
    c.countersCell frame.toNat amc.toNat epoch.toNat (gens.map BitVec.toNat) (pics.map BitVec.toNat))

/-- R383: a write of 1 to `TWIN_RESYNC.GO`. -/
def execResyncGo (m : Master) (s : State) : Host.Outcome State Fault Refusal :=
  act s (fun c => c.trigger m twinPage 0x58 0 false Chip.resyncGo)

/-- R383: a phase of a resync is complete. `compat` is the active device's `DEV_COMPAT` (phase 1), `cores` the Nova cores as they stood at
one of its period boundaries (phase 4). -/
def execResyncPhaseDone (compat : BitVec 4) (cores : List NovaCapture) (s : State) : Host.Outcome State Fault Refusal :=
  actMem s (fun c mem =>
    if c.pairState = 2 ∨ c.pairState = 3 then (c.resyncSent mem, mem)
    else if c.isStandby then c.resyncReceived mem compat.toNat cores
    else (c, mem))

/-! ## The Umpire -/

/-- R377, R385: a DIGEST cell: one label and the digests of units from `first` on. -/
def execDigestCell (label : BitVec 32) (first : BitVec 13) (digests : List (BitVec 32)) (s : State) : Host.Outcome State Fault Refusal :=
  actCell s (fun c => c.digestCell label.toNat first.toNat (digests.map BitVec.toNat))

/-- R384, R385: unit `u` has completed a comparison period: its own digest is sent, and compared with the mate's for the same label where
that has come, else it waits for it. The row again for a period whose digest waits says that `CMP_WAIT` is over: a gap (log entry 28). A digest
whose bytes the model does not hold is free. -/
def execUmpireCompare (u : BitVec 13) (s : State) : Host.Outcome State Fault Refusal :=
  actPair s (fun c =>
    let k := u.toNat
    if !c.on Ump.en ∨ !c.on Ump.comparing ∨ !c.unitCompared k then c
    else match c.unitPeriod k with
    | none => c
    | some p =>
      if c.awaits k p.1 then (c.updUmp k (fun x => { x with mine := x.mine.filter (fun d => d.1 ≠ p.1) })).umpireGap k
      else
        let own := match p.2 with
          | some bs => (digestOf bs, c)
          | none => (c.fresh.1 % 2 ^ 32, c.fresh.2)
        (own.2.cellOut 4 0 [p.1, k + 8192, own.1]).ownDigest k p.1 own.1)

/-- R386: the window of a dispute closes: this device sends its verdict. -/
def execVerdictSend (s : State) : Host.Outcome State Fault Refusal :=
  actPair s (fun c =>
    match c.twin.win with
    | none => c
    | some w =>
      if !c.on Ump.dispute ∨ c.twin.own.isSome then c
      else
        let worst := c.worstInWindow w
        let src := (worst.map LogEntry.src).getD 0
        let c := c.updTwin (fun t => { t with own := some (worst.isSome, src) })
        (c.cellOut 6 0 [5, c.rd Ump.dunit, c.rd Ump.lastLabel, b2n worst.isSome + 2 * src]).decideDispute)

/-- R387: the mate's verdict on a unit. -/
def execVerdictCell (u : BitVec 13) (_label : BitVec 32) (fault : Bool) (src : BitVec 8) (s : State) : Host.Outcome State Fault Refusal :=
  actCell s (fun c => c.verdictReceived u.toNat fault src.toNat)

/-- R387: the mate's verdict has not come within 1 ms of the window's close. -/
def execVerdictTimeout (s : State) : Host.Outcome State Fault Refusal :=
  actPair s (fun c =>
    if c.on Ump.dispute ∧ c.twin.win.isSome ∧ c.twin.own.isSome ∧ c.twin.mate.isNone then c.attribute 3 else c)

/-! ## Own health -/

/-- R394: the grade of every 10 ms. -/
def execHealthGrade (s : State) : Host.Outcome State Fault Refusal := actPair s Chip.gradeHealth

/-- R394: a write of 1 to `TWIN_HEALTH.CLR`. -/
def execHealthClr (m : Master) (s : State) : Host.Outcome State Fault Refusal :=
  act s (fun c => c.trigger m twinPage 0x48 0 false Chip.clearHealth)

/-- R396: a segment of logic BIST in the idle window of a tile, in `STANDBY` with `BIST_EN` = 1. An abandoned one has no effect. -/
def execBistSegment (tile : BitVec 10) (r : BistEnd) (s : State) : Host.Outcome State Fault Refusal :=
  actPair s (fun c =>
    if c.pairState = 6 ∧ c.on Twin.bistEn ∧ r = .failed then
      ((c.updTwin (fun t => { t with latched := setBit t.latched 2 true })).raise 0xCA twinPage tile.toNat 0).stick twinPage 7
    else c)

/-- R397: the received `LSIDE` of I/O group `g` has differed from what is expected for longer than two line periods. -/
def execLsideMismatch (g : Fin 32) (s : State) : Host.Outcome State Fault Refusal :=
  actPair s (fun c =>
    if !c.lsideDiffers g ∨ c.twin.lsideBad.contains g.val then c
    else
      let c := c.updTwin (fun t => { t with lsideBad := t.lsideBad ++ [g.val] })
      ((c.wr Twin.lsideBad c.twin.lsideBad.length).raise 0xC8 twinPage g 0).stick twinPage 5)

end Sys2Proof.Machine
end

