-- ==== Sys2Proof/Machine/Dispatch.lean ====
section
/-! DEFINITION. One arm per command: a direct call of its meaning. -/

namespace Sys2Proof.Machine

/-- What a command does to the machine, the queue apart. -/
def exec (i : Instr) (s : State) : Host.Outcome State Fault Refusal :=
  match i with
  | .retimerRelease u inTime => Sys2Proof.Machine.execRetimerRelease u inTime s
  | .edgeDataIntake d data => Sys2Proof.Machine.execEdgeDataIntake d data s
  | .linkFrameSend g l => Sys2Proof.Machine.execLinkFrameSend g l s
  | .laneFrameReceive g l frame => Sys2Proof.Machine.execLaneFrameReceive g l frame s
  | .groupFrameReceive g fill => Sys2Proof.Machine.execGroupFrameReceive g fill s
  | .slotCommit m g => Sys2Proof.Machine.execSlotCommit m g s
  | .slotCommitApply g => Sys2Proof.Machine.execSlotCommitApply g s
  | .laneClockPresent g => Sys2Proof.Machine.execLaneClockPresent g s
  | .eyeEdgesFound g => Sys2Proof.Machine.execEyeEdgesFound g s
  | .samplerTrimSet g trims inverted => Sys2Proof.Machine.execSamplerTrimSet g trims inverted s
  | .frameAligned g => Sys2Proof.Machine.execFrameAligned g s
  | .deskewDone g skews => Sys2Proof.Machine.execDeskewDone g skews s
  | .handshakeDone g => Sys2Proof.Machine.execHandshakeDone g s
  | .laneClockLost g => Sys2Proof.Machine.execLaneClockLost g s
  | .trainTimeout g => Sys2Proof.Machine.execTrainTimeout g s
  | .retrainDelayExpire g => Sys2Proof.Machine.execRetrainDelayExpire g s
  | .laneLossLimit g l => Sys2Proof.Machine.execLaneLossLimit g l s
  | .laneRejoin g l => Sys2Proof.Machine.execLaneRejoin g l s
  | .laneRejoinTimeout g l => Sys2Proof.Machine.execLaneRejoinTimeout g l s
  | .laneRetrain m g l => Sys2Proof.Machine.execLaneRetrain m g l s
  | .groupTrain m g => Sys2Proof.Machine.execGroupTrain m g s
  | .eyeScanStart m g => Sys2Proof.Machine.execEyeScanStart m g s
  | .eyeScanAbort m g => Sys2Proof.Machine.execEyeScanAbort m g s
  | .eyePointDone g count => Sys2Proof.Machine.execEyePointDone g count s
  | .eyeMonitorTick g => Sys2Proof.Machine.execEyeMonitorTick g s
  | .eyeMonitorDone g point count => Sys2Proof.Machine.execEyeMonitorDone g point count s
  | .qualityMessageReceive idx m => Sys2Proof.Machine.execQualityMessageReceive idx m s
  | .qmsgTimeout idx => Sys2Proof.Machine.execQmsgTimeout idx s
  | .inputDescriptorWrite m idx w0 w1 => Sys2Proof.Machine.execInputDescriptorWrite m idx w0 w1 s
  | .inputConfigApply idx => Sys2Proof.Machine.execInputConfigApply idx s
  | .inputLineReceive idx v => Sys2Proof.Machine.execInputLineReceive idx v s
  | .formatDecide idx pidAgrees clr => Sys2Proof.Machine.execFormatDecide idx pidAgrees clr s
  | .inputLoss idx => Sys2Proof.Machine.execInputLoss idx s
  | .alignEntry idx => Sys2Proof.Machine.execAlignEntry idx s
  | .alignExit idx => Sys2Proof.Machine.execAlignExit idx s
  | .fsAutoRelease idx => Sys2Proof.Machine.execFsAutoRelease idx s
  | .bankReadFrameStart idx => Sys2Proof.Machine.execBankReadFrameStart idx s
  | .videoPacketReceive idx flow seq line off words => Sys2Proof.Machine.execVideoPacketReceive idx flow seq line off words s
  | .mergeLineRelease idx eps meas anc audio => Sys2Proof.Machine.execMergeLineRelease idx eps meas anc audio s
  | .fsReadFrameStart n => Sys2Proof.Machine.execFsReadFrameStart n s
  | .fsLockedLineRead n line hbmLate word ecc => Sys2Proof.Machine.execFsLockedLineRead n line hbmLate word ecc s
  | .fsFreezeExpire n => Sys2Proof.Machine.execFsFreezeExpire n s
  | .vinRebind => Sys2Proof.Machine.execVinRebind s
  | .outputDescriptorWrite m o w0 w1 => Sys2Proof.Machine.execOutputDescriptorWrite m o w0 w1 s
  | .outputConfigApply o => Sys2Proof.Machine.execOutputConfigApply o s
  | .salvoGo m k => Sys2Proof.Machine.execSalvoGo m k s
  | .salvoValidationDone k near => Sys2Proof.Machine.execSalvoValidationDone k near s
  | .salvoCancel m k => Sys2Proof.Machine.execSalvoCancel m k s
  | .salvoCut => Sys2Proof.Machine.execSalvoCut s
  | .referenceFrameStart => Sys2Proof.Machine.execReferenceFrameStart s
  | .switchPoint d line => Sys2Proof.Machine.execSwitchPoint d line s
  | .stateCheck d => Sys2Proof.Machine.execStateCheck d s
  | .outputFrameStart o => Sys2Proof.Machine.execOutputFrameStart o s
  | .outputLineGather o line f2 late room word ecc => Sys2Proof.Machine.execOutputLineGather o line f2 late room word ecc s
  | .cmpCommitGo m n => Sys2Proof.Machine.execCmpCommitGo m n s
  | .commitValidationDone n => Sys2Proof.Machine.execCommitValidationDone n s
  | .decisionPoint n => Sys2Proof.Machine.execDecisionPoint n s
  | .fenceTimeout n => Sys2Proof.Machine.execFenceTimeout n s
  | .groupSeal m n g => Sys2Proof.Machine.execGroupSeal m n g s
  | .commitCancel m n => Sys2Proof.Machine.execCommitCancel m n s
  | .groupCancel m n g => Sys2Proof.Machine.execGroupCancel m n g s
  | .pictureStart n => Sys2Proof.Machine.execPictureStart n s
  | .composerLine n late => Sys2Proof.Machine.execComposerLine n late s
  | .keeperLoad target a0 a1 a2 a3 => Sys2Proof.Machine.execKeeperLoad target a0 a1 a2 a3 s
  | .keeperLoadComplete n => Sys2Proof.Machine.execKeeperLoadComplete n s
  | .keeperShow target => Sys2Proof.Machine.execKeeperShow target s
  | .keeperHide target => Sys2Proof.Machine.execKeeperHide target s
  | .keeperCrcCheck => Sys2Proof.Machine.execKeeperCrcCheck s
  | .sampleInstant => Sys2Proof.Machine.execSampleInstant s
  | .periodBoundary => Sys2Proof.Machine.execPeriodBoundary s
  | .intakeClose => Sys2Proof.Machine.execIntakeClose s
  | .sapClockDetect p => Sys2Proof.Machine.execSapClockDetect p s
  | .sapFrameFound p edge frac rate => Sys2Proof.Machine.execSapFrameFound p edge frac rate s
  | .sapFrameReceive p f => Sys2Proof.Machine.execSapFrameReceive p f s
  | .sapClockLoss p => Sys2Proof.Machine.execSapClockLoss p s
  | .sapMaskCommit m p => Sys2Proof.Machine.execSapMaskCommit m p s
  | .sapMaskApply p => Sys2Proof.Machine.execSapMaskApply p s
  | .trackerInput t ratio phase pherr => Sys2Proof.Machine.execTrackerInput t ratio phase pherr s
  | .trackerLock t => Sys2Proof.Machine.execTrackerLock t s
  | .trackerHold t => Sys2Proof.Machine.execTrackerHold t s
  | .trackerRange t => Sys2Proof.Machine.execTrackerRange t s
  | .trackerRangeClear t => Sys2Proof.Machine.execTrackerRangeClear t s
  | .asrcCommit m => Sys2Proof.Machine.execAsrcCommit m s
  | .audioPacketReceive d pathB k => Sys2Proof.Machine.execAudioPacketReceive d pathB k s
  | .audioPacketQueue d => Sys2Proof.Machine.execAudioPacketQueue d s
  | .amapCommit m => Sys2Proof.Machine.execAmapCommit m s
  | .amapValidationDone => Sys2Proof.Machine.execAmapValidationDone s
  | .gainWrite m off data => Sys2Proof.Machine.execGainWrite m off data s
  | .gainWriteAccept => Sys2Proof.Machine.execGainWriteAccept s
  | .batchOpen m => Sys2Proof.Machine.execBatchOpen m s
  | .batchCommit m => Sys2Proof.Machine.execBatchCommit m s
  | .batchDiscard m => Sys2Proof.Machine.execBatchDiscard m s
  | .mixTilePeriod t e ecc => Sys2Proof.Machine.execMixTilePeriod t e ecc s
  | .novaBundleIssue k im dm dm2 => Sys2Proof.Machine.execNovaBundleIssue k im dm dm2 s
  | .novaExchangeEnd k => Sys2Proof.Machine.execNovaExchangeEnd k s
  | .novaHandlerWindow k => Sys2Proof.Machine.execNovaHandlerWindow k s
  | .novaRun m k => Sys2Proof.Machine.execNovaRun m k s
  | .novaStop m k => Sys2Proof.Machine.execNovaStop m k s
  | .novaClrFault m k => Sys2Proof.Machine.execNovaClrFault m k s
  | .novaDoorbell m k v => Sys2Proof.Machine.execNovaDoorbell m k v s
  | .novaParamGo m k len => Sys2Proof.Machine.execNovaParamGo m k len s
  | .schedLoad m => Sys2Proof.Machine.execSchedLoad m s
  | .imageValidationDone => Sys2Proof.Machine.execImageValidationDone s
  | .stepMonitorWindow k steps mv tj => Sys2Proof.Machine.execStepMonitorWindow k steps mv tj s
  | .governorInterval => Sys2Proof.Machine.execGovernorInterval s
  | .avsFrameDone frame ok value => Sys2Proof.Machine.execAvsFrameDone frame ok value s
  | .unitDeadline cls unit steps slack => Sys2Proof.Machine.execUnitDeadline cls unit steps slack s
  | .ethFrameReceive k frame pcsErr fecErr => Sys2Proof.Machine.execEthFrameReceive k frame pcsErr fecErr s
  | .ethLinkUp k fault => Sys2Proof.Machine.execEthLinkUp k fault s
  | .ethLinkDown k aligned => Sys2Proof.Machine.execEthLinkDown k aligned s
  | .flowEntryWrite m e w0 => Sys2Proof.Machine.execFlowEntryWrite m e w0 s
  | .queueEnable m q w0 => Sys2Proof.Machine.execQueueEnable m q w0 s
  | .queueDisable m q w0 => Sys2Proof.Machine.execQueueDisable m q w0 s
  | .descriptorEnqueue q stamp marker kind payload => Sys2Proof.Machine.execDescriptorEnqueue q stamp marker kind payload s
  | .descriptorExpire q => Sys2Proof.Machine.execDescriptorExpire q s
  | .calendarCycleStart n event => Sys2Proof.Machine.execCalendarCycleStart n event s
  | .calendarEntry n j cut late => Sys2Proof.Machine.execCalendarEntry n j cut late s
  | .slotForfeit k => Sys2Proof.Machine.execSlotForfeit k s
  | .pauseEnd k cls => Sys2Proof.Machine.execPauseEnd k cls s
  | .pauseLimit k cls => Sys2Proof.Machine.execPauseLimit k cls s
  | .cpuFrameGo m n w => Sys2Proof.Machine.execCpuFrameGo m n w s
  | .cpuDescriptorAccept n => Sys2Proof.Machine.execCpuDescriptorAccept n s
  | .cpuFrameSend k => Sys2Proof.Machine.execCpuFrameSend k s
  | .crcMemoryJob m w => Sys2Proof.Machine.execCrcMemoryJob m w s
  | .crcMemoryJobDone => Sys2Proof.Machine.execCrcMemoryJobDone s
  | .refPhaseEvent idx fall phase => Sys2Proof.Machine.execRefPhaseEvent idx fall phase s
  | .candidatePresent idx => Sys2Proof.Machine.execCandidatePresent idx s
  | .candidateLost idx => Sys2Proof.Machine.execCandidateLost idx s
  | .candidateMeasure freqs mean => Sys2Proof.Machine.execCandidateMeasure freqs mean s
  | .qualificationDone idx => Sys2Proof.Machine.execQualificationDone idx s
  | .disqualification idx hard => Sys2Proof.Machine.execDisqualification idx hard s
  | .disqHoldExpire idx => Sys2Proof.Machine.execDisqHoldExpire idx s
  | .disagreement idx j cleared => Sys2Proof.Machine.execDisagreement idx j cleared s
  | .refManualSelect target => Sys2Proof.Machine.execRefManualSelect target s
  | .loopAcquired => Sys2Proof.Machine.execLoopAcquired s
  | .loopNarrowStep => Sys2Proof.Machine.execLoopNarrowStep s
  | .loopPhaseLoss => Sys2Proof.Machine.execLoopPhaseLoss s
  | .recoveryEnd => Sys2Proof.Machine.execRecoveryEnd s
  | .holdoverAgeLimit => Sys2Proof.Machine.execHoldoverAgeLimit s
  | .generatorFrameStart r phase => Sys2Proof.Machine.execGeneratorFrameStart r phase s
  | .realign m => Sys2Proof.Machine.execRealign m s
  | .realignApply item => Sys2Proof.Machine.execRealignApply item s
  | .fpoutPulseEnd n => Sys2Proof.Machine.execFpoutPulseEnd n s
  | .ptpServoUpdate x ofs => Sys2Proof.Machine.execPtpServoUpdate x ofs s
  | .ptpRestep target => Sys2Proof.Machine.execPtpRestep target s
  | .ptpAnnounceTimeout x => Sys2Proof.Machine.execPtpAnnounceTimeout x s
  | .ptpSyncTimeout x => Sys2Proof.Machine.execPtpSyncTimeout x s
  | .stcAdvance => Sys2Proof.Machine.execStcAdvance s
  | .stcReadLatch m => Sys2Proof.Machine.execStcReadLatch m s
  | .compareArm m u => Sys2Proof.Machine.execCompareArm m u s
  | .compareDisarm m u => Sys2Proof.Machine.execCompareDisarm m u s
  | .eventCapture source fall ns => Sys2Proof.Machine.execEventCapture source fall ns s
  | .writeCell seq epoch space be page off data bidx master => Sys2Proof.Machine.execWriteCell seq epoch space be page off data bidx master s
  | .bulkCell seq sub addr stack slice bytes => Sys2Proof.Machine.execBulkCell seq sub addr stack slice bytes s
  | .decisionCell seq epoch kind page bidx w4 w5 w6 w7 => Sys2Proof.Machine.execDecisionCell seq epoch kind page bidx w4 w5 w6 w7 s
  | .digestCell label first digests => Sys2Proof.Machine.execDigestCell label first digests s
  | .healthCell h st part lside badStraps sel => Sys2Proof.Machine.execHealthCell h st part lside badStraps sel s
  | .ackCell seq => Sys2Proof.Machine.execAckCell seq s
  | .nakCell seq => Sys2Proof.Machine.execNakCell seq s
  | .yieldCell cause last => Sys2Proof.Machine.execYieldCell cause last s
  | .takeCell => Sys2Proof.Machine.execTakeCell s
  | .verdictCell u label fault src => Sys2Proof.Machine.execVerdictCell u label fault src s
  | .trefCell frame pos phase => Sys2Proof.Machine.execTrefCell frame pos phase s
  | .countersCell frame amc epoch gens pics => Sys2Proof.Machine.execCountersCell frame amc epoch gens pics s
  | .mirrorApply => Sys2Proof.Machine.execMirrorApply s
  | .mateLost => Sys2Proof.Machine.execMateLost s
  | .pairWaitExpire => Sys2Proof.Machine.execPairWaitExpire s
  | .arbitration => Sys2Proof.Machine.execArbitration s
  | .yieldDecision => Sys2Proof.Machine.execYieldDecision s
  | .takeTimeout => Sys2Proof.Machine.execTakeTimeout s
  | .ackTimeout => Sys2Proof.Machine.execAckTimeout s
  | .resyncGo m => Sys2Proof.Machine.execResyncGo m s
  | .resyncPhaseDone compat cores => Sys2Proof.Machine.execResyncPhaseDone compat cores s
  | .umpireCompare u => Sys2Proof.Machine.execUmpireCompare u s
  | .verdictSend => Sys2Proof.Machine.execVerdictSend s
  | .verdictTimeout => Sys2Proof.Machine.execVerdictTimeout s
  | .healthGrade => Sys2Proof.Machine.execHealthGrade s
  | .healthClr m => Sys2Proof.Machine.execHealthClr m s
  | .bistSegment tile r => Sys2Proof.Machine.execBistSegment tile r s
  | .lsideMismatch g => Sys2Proof.Machine.execLsideMismatch g s
  | .twinSwitchover target a0 => Sys2Proof.Machine.execTwinSwitchover target a0 s
  | .twinSwitchback target => Sys2Proof.Machine.execTwinSwitchback target s
  | .secondAttemptTimeout src page inst => Sys2Proof.Machine.execSecondAttemptTimeout src page inst s
  | .holdLimit d => Sys2Proof.Machine.execHoldLimit d s
  | .fcuAck m classes => Sys2Proof.Machine.execFcuAck m classes s
  | .ffClr m => Sys2Proof.Machine.execFfClr m s
  | .aliveClr m => Sys2Proof.Machine.execAliveClr m s
  | .heartbeat m v => Sys2Proof.Machine.execHeartbeat m v s
  | .heartbeatTimeout => Sys2Proof.Machine.execHeartbeatTimeout s
  | .hbGraceExpire => Sys2Proof.Machine.execHbGraceExpire s
  | .aliveToggle => Sys2Proof.Machine.execAliveToggle s
  | .injectArm target a0 a1 => Sys2Proof.Machine.execInjectArm target a0 a1 s
  | .injectExpire => Sys2Proof.Machine.execInjectExpire s
  | .scrubStep k idx a syn again pos => Sys2Proof.Machine.execScrubStep k idx a syn again pos s
  | .registerWrite m addr id first last ws => Sys2Proof.Machine.execRegisterWrite m addr id first last ws s
  | .tableWindowAccess m p data syn again => Sys2Proof.Machine.execTableWindowAccess m p data syn again s
  | .tableSpaceAccess m off data n syn again => Sys2Proof.Machine.execTableSpaceAccess m off data n syn again s
  | .sinceLastReadRestart m p off => Sys2Proof.Machine.execSinceLastReadRestart m p off s
  | .fabricTimeout m addr id write => Sys2Proof.Machine.execFabricTimeout m addr id write s
  | .usb4LinkUp gen tunnel busMaster msix => Sys2Proof.Machine.execUsb4LinkUp gen tunnel busMaster msix s
  | .usb4LinkDown => Sys2Proof.Machine.execUsb4LinkDown s
  | .usb4RouterReset => Sys2Proof.Machine.execUsb4RouterReset s
  | .functionLevelReset => Sys2Proof.Machine.execFunctionLevelReset s
  | .hostEoi m v => Sys2Proof.Machine.execHostEoi m v s
  | .msixUnmask m v => Sys2Proof.Machine.execMsixUnmask m v s
  | .mspiRead addr n => Sys2Proof.Machine.execMspiRead addr n s
  | .mspiWrite addr ws => Sys2Proof.Machine.execMspiWrite addr ws s
  | .mspiStatus => Sys2Proof.Machine.execMspiStatus s
  | .mspiBadFrame => Sys2Proof.Machine.execMspiBadFrame s
  | .bi2cWrite addr ws ok => Sys2Proof.Machine.execBi2cWrite addr ws ok s
  | .bi2cRead n ok => Sys2Proof.Machine.execBi2cRead n ok s
  | .bootGo m => Sys2Proof.Machine.execBootGo m s
  | .nonceDrawn n => Sys2Proof.Machine.execNonceDrawn n s
  | .cmdClaim m => Sys2Proof.Machine.execCmdClaim m s
  | .cmdRelease m => Sys2Proof.Machine.execCmdRelease m s
  | .cmdOwnerTimeout => Sys2Proof.Machine.execCmdOwnerTimeout s
  | .cmdGo m => Sys2Proof.Machine.execCmdGo m s
  | .cmdVerifyDone => Sys2Proof.Machine.execCmdVerifyDone s
  | .mailboxLockExpire => Sys2Proof.Machine.execMailboxLockExpire s
  | .fwInstall target a0 a1 => Sys2Proof.Machine.execFwInstall target a0 a1 s
  | .fwInstallDone ok => Sys2Proof.Machine.execFwInstallDone ok s
  | .keyRotate target a0 => Sys2Proof.Machine.execKeyRotate target a0 s
  | .keyRotateDone ok => Sys2Proof.Machine.execKeyRotateDone ok s
  | .compatSet target a0 => Sys2Proof.Machine.execCompatSet target a0 s
  | .por => Sys2Proof.Machine.execPor s
  | .coldReset => Sys2Proof.Machine.execColdReset s
  | .warmRst m => Sys2Proof.Machine.execWarmRst m s
  | .warmResetDone => Sys2Proof.Machine.execWarmResetDone s
  | .blockReset m p => Sys2Proof.Machine.execBlockReset m p s
  | .blockResetDone p => Sys2Proof.Machine.execBlockResetDone p s
  | .pageCtrlWrite m p data be => Sys2Proof.Machine.execPageCtrlWrite m p data be s
  | .brownOut n => Sys2Proof.Machine.execBrownOut n s
  | .brownOutRecovery scale compat side bootHost => Sys2Proof.Machine.execBrownOutRecovery scale compat side bootHost s
  | .railMonitor n mv inWin => Sys2Proof.Machine.execRailMonitor n mv inWin s
  | .tjMonitor tj warm spread => Sys2Proof.Machine.execTjMonitor tj warm spread s
  | .clusterSleep k icore ballast => Sys2Proof.Machine.execClusterSleep k icore ballast s
  | .clusterWake k wait iwake icore ballast => Sys2Proof.Machine.execClusterWake k wait iwake icore ballast s
  | .wakeDeferEnd k => Sys2Proof.Machine.execWakeDeferEnd k s
  | .wakeComplete k us => Sys2Proof.Machine.execWakeComplete k us s
  | .serviceMode m => Sys2Proof.Machine.execServiceMode m s
  | .resetRelease scale compat side bootHost => Sys2Proof.Machine.execResetRelease scale compat side bootHost s
  | .announceReceive x dom gm p1 p2 cls acc variance utc utcValid traceable => Sys2Proof.Machine.execAnnounceReceive x dom gm p1 p2 cls acc variance utc utcValid traceable s
  | .delayExchange x delay => Sys2Proof.Machine.execDelayExchange x delay s
  | .hkLockstep => Sys2Proof.Machine.execHkLockstep s
  | .hkExcept => Sys2Proof.Machine.execHkExcept s
  | .usb4LinkError recovered => Sys2Proof.Machine.execUsb4LinkError recovered s
  | .decerrRead m addr id n over_ => Sys2Proof.Machine.execDecerrRead m addr id n over_ s
  | .sapLock p => Sys2Proof.Machine.execSapLock p s

end Sys2Proof.Machine
end

