-- ==== Sys2Proof/Safety.lean ====
section
/-! DEFINITION. What a safe run of this block is, and the terms that the statements use. -/

namespace Sys2Proof.Machine

/-- Byte memory stands in its canonical form, so equal memories are equal lists. -/
def State.Inv (s : State) : Prop := Mem.wf s.mem = true

/-- A command completes: it answers a next state, not a fault and not a refusal. -/
def Completes (i : Instr) (s : State) : Prop := ∃ t, exec i s = .next t

/-- A command answers a next state, and `P` holds of that state. -/
def Gives (i : Instr) (s : State) (P : State → Prop) : Prop := ∃ t, exec i s = .next t ∧ P t

/-- Neither a power-on reset nor a COLD reset is asserted (R463, R472). -/
abbrev State.Runs (s : State) : Prop := s.c.power.asserted = 0

/-- A write by master `m` whose action bit is bit `lo` of the word at `off` of page `p` (space 0 registers, space 1 the table window)
takes effect here and at once: no reset is asserted, the master can issue transactions, its access rights allow the write (R435), and, for
a mirrored write, the device neither ignores it as a standby nor sends it to one for an epoch (R380). The first transaction of an open
debug port, which is also reported (R456), is left out. -/
abbrev State.Allows (s : State) (m : Master) (sp p off lo : Nat) (mirrored : Bool) : Prop :=
  s.Runs ∧ s.c.masterRuns m = true ∧ s.c.mayWrite m p sp off lo = true ∧ (m = .jtag → s.c.debugSeen = true) ∧
  (mirrored = true → s.c.ignoresMirrored = false ∧ s.c.mirrors = false)

/-- The port of master `m` takes a request with ID `id` and answers it at once: it is neither held (R432, R438, R441, R442) nor given one
ID too many (R431), and no earlier transaction with that ID waits for its response (R433). -/
abbrev State.PortTakes (s : State) (m : Master) (id : Nat) (write : Bool) : Prop :=
  s.c.portHeld (masterNum m) write = false ∧
  (id :: (s.c.inFlight.filter (fun p => p.1 = masterNum m)).map Prod.snd).eraseDups.length ≤ idLimit (masterNum m) ∧
  ((s.c.inFlight.filter (fun p => p.1 = masterNum m)).map Prod.snd).filter (· = id) = []

/-- What lies between two states is confined: byte memory and the queue are as before, every register or table field that stands
at none of the places `gs` and on no page that a fault reaction may write (R410) reads as before, and so does the sticky word of
every page but those in `ps` and those whose bits a reaction may set. -/
structure Confined (gs : List Fld) (ps : List Nat) (s t : State) : Prop where
  mem : t.mem = s.mem
  pending : t.pending = s.pending
  regs : ∀ f : Fld, f.ok = true → reacts f.page = false → (∀ g ∈ gs, f.key ≠ g.key) → t.c.rd f = s.c.rd f
  sticky : ∀ p, reactsSticky p = false → p ∉ ps → t.c.stickyWord p = s.c.stickyWord p

/-- What lies between two states is confined to the pages `ps`: byte memory and the queue are as before, every register and table field
of any other page reads as before, and so does every other page's sticky word, but for the pages that a fault reaction may write (R410). -/
structure Within (ps : List Nat) (s t : State) : Prop where
  mem : t.mem = s.mem
  pending : t.pending = s.pending
  regs : ∀ f : Fld, f.ok = true → reacts f.page = false → f.page ∉ ps → t.c.rd f = s.c.rd f
  sticky : ∀ p, reactsSticky p = false → p ∉ ps → t.c.stickyWord p = s.c.stickyWord p

/-- The pages that the loss of inputs, synchronisers and candidates may write beside those of `reacts`. -/
def lossPages : List Nat := [vinPage, vpktPage, fsyncPage, amapPage, timePage, ptpPage, twinPage]

/-- The pages whose registers a period boundary may write (R25, R278), beside those of `reacts`. -/
def periodPages : List Nat :=
  [schedPage, amapPage, asrcPage, mixPage, timePage, twinPage] ++ (List.range 16).map sapPage ++ (List.range 64).map novaPage ++
    (List.range 64).map cmpPage

/-- The pages that a change of the pair's state writes (R375, R388, R403). -/
def pairPages : List Nat := [twinPage, umpPage]

/-- The pages that the end of POR, COLD or a brown-out writes (R444, R463, R477). -/
def releasePages : List Nat := [devPage, pwrPage, rstPage, hostPage, hbmPage, twinPage]

/-- The pages that a block's start, stop or BLOCK reset may write beside its own (R472, R483 and the reset rules of the chapters). -/
def blockPages : List Nat := [pwrPage, flowqPage, crcuPage, mixPage, cmpPage 0] ++ lossPages ++ pairPages

/-- The frames that the last command sent on lane `l` of group `g`, as bits. -/
def Chip.framesSent (c : Chip) (g l : Nat) : List (List Bool) :=
  c.out.filterMap (fun o => match o with
    | .linkFrame a b f => if a = g ∧ b = l then some f else none
    | _ => none)

/-- The fields of a layer's configuration (R134). -/
def layerFields : List Fld :=
  [Cmp.lEn, Cmp.lKind, Cmp.lLossAct, Cmp.lPalpha, Cmp.lPredec, Cmp.lHbank, Cmp.lVbank, Cmp.lSurf, Cmp.lSx, Cmp.lSy, Cmp.lSw, Cmp.lSh,
   Cmp.lX, Cmp.lY, Cmp.lDw, Cmp.lDh, Cmp.lGa]

/-- The configuration fields of a flow entry (R296). -/
def flowConfig (e : Nat) : List Fld :=
  [Flowq.fEn, Flowq.fLink, Flowq.fVlanEn, Flowq.fVid, Flowq.fSrcEn, Flowq.fUse, Flowq.fSamp, Flowq.fCsum, Flowq.fDstIp, Flowq.fSrcIp,
   Flowq.fDstPort, Flowq.fPt, Flowq.fPtEn].map (fun f => f.nth e)

/-- The fields of word 0 of a media queue (R299). -/
def queueConfig (q : Nat) : List Fld :=
  [Flowq.qEn, Flowq.qLink, Flowq.qKind, Flowq.qMissAct, Flowq.qTsEn, Flowq.qDepth, Flowq.qPri, Flowq.qHdrLen, Flowq.qSrcSubst].map
    (fun f => f.nth q)

/-- The states of the clusters, which an access to a memory may bring to RUN (R471). -/
def clusterStates : List Fld := (List.range 64).map Pwr.clState.nth

/-- The registers of all eight lanes of a group in one array. -/
def eachLane (f : Fld) : List Fld := (List.range 8).map f.nth

/-- What a change of a group's training state writes: the state, the retraining lanes and the lanes' requests (R58, R59). -/
def trainFields (g : Nat) : List Fld := Lgrp.state.on g :: Lgrp.laneRetrain.on g :: eachLane (Lgrp.laneRetrainReq.on g)

end Sys2Proof.Machine
end

