-- ==== Sys2Proof/Certificates/Slice0/Obligations.lean ====
section
/-! DEFINITION. The statements for the provers, one `Prop` each, from the numbered rules of the spec. -/

open Sys2Proof Sys2Proof.Machine

/-! ## Lane groups (R35 to R70) -/

/-- R58: each training event moves a group from the state it belongs to into the next one, and writes nothing else but what the rule
names: trims and inversions with the samplers, skews with the deskew, a fill of 16 words (R38) and sticky bit 10 with UP. -/
def Obligations.LaneTrainingForward : Prop :=
  ∀ (s : State) (g : Fin 33),
    (s.Runs → s.c.grpState g = 0 → s.c.enabled (lgrpPage g) = true → (s.c.grp g).wait = 0 →
      (g.val < 32 ∨ s.c.paired = true) →
      Gives (.laneClockPresent g) s (fun t => t.c.grpState g = 1 ∧ Confined (trainFields g) [] s t)) ∧
    (s.Runs → s.c.grpState g = 1 → Gives (.eyeEdgesFound g) s (fun t => t.c.grpState g = 2 ∧ Confined (trainFields g) [] s t)) ∧
    (∀ (trims : List (BitVec 7)) (inverted : BitVec 8), s.Runs → s.c.grpState g = 2 →
      Gives (.samplerTrimSet g trims inverted) s (fun t =>
      t.c.grpState g = 3 ∧
      (∀ l : Fin 8, t.c.rd ((Lgrp.phase.on g).nth l) = (trims.getD l 0).toNat ∧
        t.c.rd ((Lgrp.inv.on g).nth l) = (if bit inverted.toNat l then 1 else 0)) ∧
      Confined (trainFields g ++ eachLane (Lgrp.phase.on g) ++ eachLane (Lgrp.inv.on g)) [] s t)) ∧
    (s.Runs → s.c.grpState g = 3 → (∀ l : Fin 8, s.c.laneAligned g l = true) →
      Gives (.frameAligned g) s (fun t => t.c.grpState g = 4 ∧ Confined (trainFields g) [] s t)) ∧
    (∀ (skews : List (BitVec 12)), s.Runs → s.c.grpState g = 4 →
      (∀ a b : Fin 8, (skews.getD a 0).toNat ≤ (skews.getD b 0).toNat + 2048) → Gives (.deskewDone g skews) s (fun t =>
      t.c.grpState g = 5 ∧ (∀ l : Fin 8, t.c.rd ((Lgrp.skew.on g).nth l) = (skews.getD l 0).toNat) ∧
      Confined (trainFields g ++ eachLane (Lgrp.skew.on g)) [] s t)) ∧
    (s.Runs → s.c.grpState g = 5 → Gives (.handshakeDone g) s (fun t =>
      t.c.grpState g = 6 ∧ t.c.rd (Lgrp.ebufFill.on g) = 16 ∧ bit (t.c.stickyWord (lgrpPage g)) 10 = true ∧
      Confined (trainFields g ++ [Lgrp.train.on g, Lgrp.ebufFill.on g, Lgrp.ebufMin.on g, Lgrp.ebufMax.on g]) [lgrpPage g] s t))

/-- R58 to R60: losing the clock lane, or not reaching UP in time, takes a group to DOWN from any state that the rule names, with the
sticky bit of its source; without `AUTO_RETRAIN` the group waits until `TRAIN` is written, else 100 ms, and the end of the 100 ms ends the
wait. -/
def Obligations.LaneGroupDown : Prop :=
  ∀ (s : State) (g : Fin 33),
    (s.Runs → s.c.grpState g ≠ 0 → Gives (.laneClockLost g) s (fun t =>
      t.c.grpState g = 0 ∧ (t.c.grp g).wait = 0 ∧ bit (t.c.stickyWord (lgrpPage g)) 4 = true ∧
      Within (lgrpPage g :: lossPages) s t)) ∧
    (s.Runs → s.c.grpState g ≠ 0 → s.c.grpState g ≠ 6 → Gives (.trainTimeout g) s (fun t =>
      t.c.grpState g = 0 ∧ (t.c.grp g).wait = (if s.c.on (Lgrp.autoRetrain.on g) then 1 else 2) ∧
      bit (t.c.stickyWord (lgrpPage g)) 7 = true ∧ Confined (Lgrp.train.on g :: trainFields g) [lgrpPage g] s t)) ∧
    (s.Runs → (s.c.grp g).wait = 1 → Gives (.retrainDelayExpire g) s (fun t => (t.c.grp g).wait = 0 ∧ Confined [] [] s t))

/-- R59: a lane of a group that is UP which has been lasting-failed for `LOSS_FRAMES` frames, 0 as 1, begins a retrain of its own, or,
while another lane retrains and `AUTO_RETRAIN` = 1, takes the whole group to CLOCK; a lane that has shown four frames in a row re-joins,
with a fill of 16 words (R38); one that does not re-join in time takes the whole group to CLOCK. A write of 1 to a lane's `RETRAIN` begins
its retrain in a group that is UP; one to `TRAIN` takes an enabled group that is not DOWN to CLOCK (R58, R59). -/
def Obligations.LaneRetraining : Prop :=
  ∀ (s : State) (g : Fin 33) (l : Fin 8),
    (s.Runs → s.c.grpState g = 6 → s.c.rd (Lgrp.laneRetrain.on g) = 0 → s.c.on ((Lgrp.lasting.on g).nth l) = true →
      orElse0 (s.c.rd (Lgrp.lossFrames.on g)) 1 < (s.c.lane g l).badRun → Gives (.laneLossLimit g l) s (fun t =>
      t.c.laneBusy g l = true ∧ t.c.grpState g = 6 ∧ Confined [Lgrp.laneRetrain.on g] [] s t)) ∧
    (s.Runs → s.c.grpState g = 6 → s.c.rd (Lgrp.laneRetrain.on g) ≠ 0 → s.c.laneBusy g l = false →
      s.c.on (Lgrp.autoRetrain.on g) = true → s.c.on ((Lgrp.lasting.on g).nth l) = true →
      orElse0 (s.c.rd (Lgrp.lossFrames.on g)) 1 < (s.c.lane g l).badRun →
      Gives (.laneLossLimit g l) s (fun t => t.c.grpState g = 1 ∧ Within (lgrpPage g :: lossPages) s t)) ∧
    (s.Runs → s.c.grpState g = 6 → s.c.laneBusy g l = true → s.c.laneAligned g l = true → Gives (.laneRejoin g l) s (fun t =>
      t.c.laneBusy g l = false ∧ t.c.grpState g = 6 ∧ t.c.rd (Lgrp.ebufFill.on g) = 16 ∧
      Confined [Lgrp.laneRetrain.on g, (Lgrp.laneRetrainReq.on g).nth l, Lgrp.ebufFill.on g, Lgrp.ebufMin.on g, Lgrp.ebufMax.on g]
        [] s t)) ∧
    (s.Runs → s.c.grpState g = 6 → s.c.laneBusy g l = true → s.c.on (Lgrp.autoRetrain.on g) = true →
      Gives (.laneRejoinTimeout g l) s (fun t => t.c.grpState g = 1 ∧ Within (lgrpPage g :: lossPages) s t)) ∧
    (∀ (m : Master), s.Allows m 0 (lgrpPage g) (0x60 + 4 * l) 21 false → s.c.grpState g = 6 → s.c.laneBusy g l = false →
      Gives (.laneRetrain m g l) s (fun t =>
      t.c.laneBusy g l = true ∧ t.c.rd ((Lgrp.laneRetrainReq.on g).nth l) = 1 ∧
      Confined [Lgrp.laneRetrain.on g, (Lgrp.laneRetrainReq.on g).nth l] [] s t)) ∧
    (∀ (m : Master), s.Allows m 0 (lgrpPage g) 0x40 0 false → s.c.enabled (lgrpPage g) = true → s.c.grpState g ≠ 0 →
      Gives (.groupTrain m g) s (fun t => t.c.grpState g = 1 ∧ t.c.rd (Lgrp.train.on g) = 1 ∧ Within (lgrpPage g :: lossPages) s t))

/-- R66, R67: a scan begins at point 0 of the lane that `LANE` names, an abort ends it marked as partial with sticky bit 12, each dwell
stores its count and moves on, and the eye monitor takes the lanes in turn and reports a count other than 0 (sticky bit 8). -/
def Obligations.LaneEyeScan : Prop :=
  ∀ (s : State) (g : Fin 33),
    (∀ (m : Master), s.Allows m 0 (lgrpPage g) 0x90 3 false → s.c.on (Lgrp.eyeStart.on g) = false →
      Gives (.eyeScanStart m g) s (fun t =>
      t.c.rd (Lgrp.eyeStart.on g) = 1 ∧ (t.c.grp g).eyePos = 0 ∧ (t.c.grp g).scanLane = s.c.rd (Lgrp.eyeLane.on g) ∧
      Confined [Lgrp.eyeStart.on g] [] s t)) ∧
    (∀ (m : Master), s.Allows m 0 (lgrpPage g) 0x90 4 false → s.c.on (Lgrp.eyeStart.on g) = true →
      Gives (.eyeScanAbort m g) s (fun t =>
      t.c.rd (Lgrp.eyeStart.on g) = 0 ∧ t.c.rd (Lgrp.eyePartial.on g) = 1 ∧
      t.c.rd (Lgrp.eyeResLane.on g) = (s.c.grp g).scanLane % 8 ∧ bit (t.c.stickyWord (lgrpPage g)) 12 = true ∧
      Confined [Lgrp.eyeStart.on g, Lgrp.eyeResLane.on g, Lgrp.eyePartial.on g] [lgrpPage g] s t)) ∧
    (∀ (count : BitVec 32), s.Runs → s.c.on (Lgrp.eyeStart.on g) = true → (s.c.grp g).eyePos < 4159 →
      Gives (.eyePointDone g count) s (fun t =>
      t.c.rd ((Lgrp.eyeCount.on g).nth (s.c.grp g).eyePos) = count.toNat ∧ (t.c.grp g).eyePos = (s.c.grp g).eyePos + 1 ∧
      Confined [(Lgrp.eyeCount.on g).nth (s.c.grp g).eyePos] [] s t)) ∧
    (s.Runs → s.c.on (Lgrp.monEn.on g) = true → s.c.on (Lgrp.eyeStart.on g) = false → s.c.grpState g = 6 →
      Gives (.eyeMonitorTick g) s (fun t =>
      (t.c.grp g).monLane = ((s.c.grp g).monLane + 1) % 8 ∧ (t.c.grp g).monBusy = true ∧ Confined [] [] s t)) ∧
    (∀ (point : Fin 4) (count : BitVec 32), s.Runs → (s.c.grp g).monBusy = true →
      Gives (.eyeMonitorDone g point count) s (fun t =>
      (t.c.grp g).monBusy = (if point = 3 then false else true) ∧ (count ≠ 0 → bit (t.c.stickyWord (lgrpPage g)) 8 = true) ∧
      Confined [] (if count = 0 then [] else [lgrpPage g]) s t))

/-- R41: a lane of an enabled group sends one frame of 1,072 bits, and its frame sequence number advances modulo 256. R61: a frame
received on an aligned lane is good where `readFrame` finds no fault in it; a bad one is counted by its kind, sets its sticky bit and
lengthens the run of bad frames that a good one ends. R48: a group frame of a group that is UP notes the fill of the elastic buffer, and
the group stays UP where the good lanes are of one frame and the fill is neither 0 nor 32; of LGTW this is stated of a frame whose cells,
if it takes any, are IDLE, since each other cell has the effect of a row of its own. R55: a write of 1 to `COMMIT` stands until the
superframe start, where both slot tables become the ones in use and sticky bit 14 is set. Each command leaves every page but the group's
own as it was, and the pair's, whose epoch count and quality messages LGTW carries. -/
def Obligations.LaneFrames : Prop :=
  ∀ (s : State) (g : Fin 33),
    (∀ (l : Fin 8), s.Runs → s.c.enabled (lgrpPage g) = true → Gives (.linkFrameSend g l) s (fun t =>
      (t.c.framesSent g l).map List.length = [1072] ∧ (t.c.lane g l).txFseq = ((s.c.lane g l).txFseq + 1) % 256 ∧
      Within [lgrpPage g, twinPage] s t)) ∧
    (∀ (l : Fin 8) (frame : List Bool), s.Runs → 4 ≤ s.c.grpState g → s.c.laneBusy g l = false →
      Gives (.laneFrameReceive g l frame) s (fun t =>
      let f := readFrame (s.c.lane g l) l (s.c.on ((Lgrp.inv.on g).nth l)) frame
      (t.c.lane g l).rxGood = decide (f.src = 0) ∧ (t.c.lane g l).rxFseq = f.fseq ∧
      (t.c.lane g l).badRun = (if f.src = 0 then 0 else (s.c.lane g l).badRun + 1) ∧
      (f.src ≠ 0 → t.c.rd (laneCounter g f.src) = satInc 32 (s.c.rd (laneCounter g f.src)) ∧
        bit (t.c.stickyWord (lgrpPage g)) (laneSticky f.src) = true) ∧
      Within [lgrpPage g] s t)) ∧
    (∀ (fill : Fin 33), s.Runs → s.c.grpState g = 6 → s.c.lanesAgree g (s.c.goodLanes g) 55 48 = true → fill ≠ 0 →
      fill ≠ 32 → (g.val < 32 ∨ s.c.paired = false ∨ (∀ w ∈ s.c.receivedCells (s.c.goodLanes g), w.headD 0 % 256 = 0)) →
      Gives (.groupFrameReceive g fill) s (fun t =>
      t.c.grpState g = 6 ∧ t.c.rd (Lgrp.ebufFill.on g) = fill.val ∧ (t.c.grp g).skewRun = 0 ∧
      Within [lgrpPage g, twinPage] s t)) ∧
    (∀ (m : Master), s.Allows m 0 (lgrpPage g) 0x54 0 false → Gives (.slotCommit m g) s (fun t =>
      t.c.rd (Lgrp.slotCommit.on g) = 1 ∧ Confined [Lgrp.slotCommit.on g] [] s t)) ∧
    (s.Runs → s.c.on (Lgrp.slotCommit.on g) = true → Gives (.slotCommitApply g) s (fun t =>
      t.c.rd (Lgrp.slotCommit.on g) = 0 ∧ bit (t.c.stickyWord (lgrpPage g)) 14 = true ∧
      (∀ k : Fin 128, t.c.rd ((Lgrp.rxSsid.on g).nth k).live = s.c.rd ((Lgrp.rxSsid.on g).nth k) ∧
        t.c.rd ((Lgrp.rxUsed.on g).nth k).live = s.c.rd ((Lgrp.rxUsed.on g).nth k) ∧
        t.c.rd ((Lgrp.txSsid.on g).nth k).live = s.c.rd ((Lgrp.txSsid.on g).nth k) ∧
        t.c.rd ((Lgrp.txUsed.on g).nth k).live = s.c.rd ((Lgrp.txUsed.on g).nth k)) ∧
      Within [lgrpPage g] s t))

/-! ## Video inputs, banks and synchronisers (R71 to R96) -/

/-- R72: configuration words that pass every check are stored and wait; words that fail a check leave the descriptor as it was, and the
first failure's code, the input and `VALID` show in `VIN_BIND_ERR`, sticky bit 9 is set and `STATE` reads `BIND_ERR`. A stored
configuration that waits, and passes the checks still, comes into use, and an input bound to another transport starts in `LOST`, an
unbound one in `UNBOUND`. R73: one frame after a BLOCK reset no input waits to be bound again. -/
def Obligations.InputBinding : Prop :=
  ∀ (s : State) (i : Fin 1152),
    (∀ (m : Master) (w0 w1 : BitVec 32), s.Allows m 1 vinPage (8 * i) 0 true →
      ((s.c.putRw vinPage 1 (8 * i) w0.toNat allBits).putRw vinPage 1 (8 * i + 1) w1.toNat allBits).bindCode i = 0 →
      Gives (.inputDescriptorWrite m i w0 w1) s (fun t =>
      t.c.rd (Vin.transport.nth i) = w0.toNat % 4 ∧ t.c.rd (Vin.group.nth i) = w0.toNat / 4 % 32 ∧
      t.c.rd (Vin.fmt.nth i) = w0.toNat / 2 ^ 14 % 256 ∧ t.c.rd (Vin.fsIdx.nth i) = w1.toNat % 256 ∧
      (t.c.input i).waiting = true ∧ (t.c.input i).bindErr = false ∧ Within [vinPage] s t)) ∧
    (∀ (m : Master) (w0 w1 : BitVec 32), s.Allows m 1 vinPage (8 * i) 0 true →
      ((s.c.putRw vinPage 1 (8 * i) w0.toNat allBits).putRw vinPage 1 (8 * i + 1) w1.toNat allBits).bindCode i ≠ 0 →
      Gives (.inputDescriptorWrite m i w0 w1) s (fun t =>
      t.c.rd Vin.errCode =
        ((s.c.putRw vinPage 1 (8 * i) w0.toNat allBits).putRw vinPage 1 (8 * i + 1) w1.toNat allBits).bindCode i ∧
      t.c.rd Vin.errInput = i ∧ t.c.rd Vin.errValid = 1 ∧ t.c.rd (Vin.state.nth i) = 7 ∧ (t.c.input i).bindErr = true ∧
      bit (t.c.stickyWord vinPage) 9 = true ∧
      Confined [Vin.errInput, Vin.errCode, Vin.errValid, Vin.state.nth i, Vin.nTimed, Vin.nLost, Vin.nSynced] [vinPage, vpktPage] s t)) ∧
    (s.Runs → (s.c.input i).waiting = true → s.c.bindCode i = 0 → Gives (.inputConfigApply i) s (fun t =>
      t.c.rd (Vin.transport.nth i).live = s.c.rd (Vin.transport.nth i) ∧ t.c.rd (Vin.group.nth i).live = s.c.rd (Vin.group.nth i) ∧
      t.c.rd (Vin.ssid.nth i).live = s.c.rd (Vin.ssid.nth i) ∧ t.c.rd (Vin.fmt.nth i).live = s.c.rd (Vin.fmt.nth i) ∧
      t.c.rd (Vin.fsMode.nth i).live = s.c.rd (Vin.fsMode.nth i) ∧ t.c.rd (Vin.fsIdx.nth i).live = s.c.rd (Vin.fsIdx.nth i) ∧
      (t.c.input i).waiting = false ∧ (s.c.rd (Vin.transport.nth i) = 0 → t.c.inputSt i = InSt.unbound) ∧
      (s.c.rd (Vin.transport.nth i) ≠ 0 → s.c.rd (Vin.transport.nth i).live ≠ s.c.rd (Vin.transport.nth i) →
        t.c.inputSt i = InSt.lost) ∧ Within (asrcPage :: lossPages) s t)) ∧
    (s.Runs → Gives .vinRebind s (fun t => (∀ j : Fin 1216, (t.c.input j).rebind = false) ∧ Within (asrcPage :: lossPages) s t))

/-- R73, R75, R81, R85: a lane input whose measured format has held for `ACQ_FRAMES` frames, 0 as 1, and is not the one that the
descriptor names goes to `FMT_ERR` (sticky bit 3), and `PID_MISMATCH` tells whether its payload ID disagrees; a loss gives `LOST` with no
measured format, and sticky bit 2 where the input had been acquired; enough frames inside the window give an input whose `FS_MODE` is
`OFF` or `AUTO` `TIMED` without a synchroniser; enough frames outside it give `UNTIMED` (sticky bit 7) when the mode is not `AUTO`, else
`SYNCED` with the lowest free synchroniser of the pool; the re-entry condition of 50 frames gives `TIMED` again. The decisions here are
those of a device that mirrors to no standby. -/
def Obligations.InputStates : Prop :=
  ∀ (s : State) (i : Fin 1152),
    (∀ (agrees : Bool) (clr : BitVec 3), s.Runs → s.c.inputSt i = InSt.acquiring →
      orElse0 (s.c.rd Vin.acqFrames) 1 ≤ (s.c.input i).acqRun → (s.c.input i).acqFmt < 256 →
      s.c.rd (Vin.transport.nth i).live = 1 → s.c.rd (Vin.fmt.nth i).live ≠ 0xFF →
      s.c.rd (Vin.fmt.nth i).live ≠ (s.c.input i).acqFmt → Gives (.formatDecide i agrees clr) s (fun t =>
      t.c.inputSt i = InSt.fmtErr ∧ t.c.rd (Vin.mfmt.nth i) = (s.c.input i).acqFmt ∧ bit (t.c.stickyWord vinPage) 3 = true ∧
      t.c.rd (Vin.pidMismatch.nth i) = (if !agrees && s.c.on Vin.pidEn then 1 else 0) ∧ Within lossPages s t)) ∧
    (s.Runs → 2 ≤ s.c.inputSt i → s.c.inputSt i ≤ 6 → Gives (.inputLoss i) s (fun t =>
      t.c.inputSt i = InSt.lost ∧ t.c.rd (Vin.mfmt.nth i) = 0xFF ∧
      (3 ≤ s.c.inputSt i → bit (t.c.stickyWord vinPage) 2 = true) ∧ Within lossPages s t)) ∧
    (s.Runs → s.c.isStandby = false → s.c.mirrors = false → s.c.inputSt i = InSt.untimed →
      (s.c.rd (Vin.fsMode.nth i).live = 0 ∨ s.c.rd (Vin.fsMode.nth i).live = 2) → (s.c.input i).sync = none →
      orElse0 (s.c.rd Vin.entryFrames) 1 ≤ (s.c.input i).inRun →
      Gives (.alignEntry i) s (fun t => t.c.inputSt i = InSt.timed ∧ (t.c.input i).sync = none ∧ Within lossPages s t)) ∧
    (s.Runs → s.c.isStandby = false → s.c.mirrors = false → s.c.inputSt i = InSt.timed →
      orElse0 (s.c.rd Vin.oowFrames) 1 ≤ (s.c.input i).outRun → s.c.promised.any (fun p => p.2 = i.val) = false →
      s.c.rd (Vin.fsMode.nth i).live ≠ 2 → Gives (.alignExit i) s (fun t =>
      t.c.inputSt i = InSt.untimed ∧ bit (t.c.stickyWord vinPage) 7 = true ∧ Within lossPages s t)) ∧
    (∀ (n : Nat), s.Runs → s.c.isStandby = false → s.c.mirrors = false → s.c.inputSt i = InSt.timed →
      orElse0 (s.c.rd Vin.oowFrames) 1 ≤ (s.c.input i).outRun → s.c.promised.any (fun p => p.2 = i.val) = false →
      s.c.rd (Vin.fsMode.nth i).live = 2 → s.c.freePoolSync = some n → (s.c.input i).sync = none →
      Gives (.alignExit i) s (fun t =>
      t.c.inputSt i = InSt.synced ∧ (t.c.input i).sync = some n ∧ t.c.rd (Fsync.input.nth n) = i ∧
      Within lossPages s t)) ∧
    (s.Runs → s.c.isStandby = false → s.c.mirrors = false → s.c.inputSt i = InSt.synced →
      s.c.rd (Vin.fsMode.nth i).live = 2 → 50 ≤ (s.c.input i).reRun →
      Gives (.fsAutoRelease i) s (fun t => t.c.inputSt i = InSt.timed ∧ (t.c.input i).sync = none ∧ Within lossPages s t))

/-- R75: a line of a lane input without a valid EAV counts towards the loss; a line with one ends that count, wakes a lost input and
becomes the newest of the five lines of its bank (R82), where its format is not of level B, which makes two lines of one. R78: the first
copy of a packet of an input's flow is kept in the merge buffer with the path that brought it, a packet of a released line is counted as
late, and the release of a line takes its packets out and moves on by one line; an ST 2110-20 line enters the bank there, one of ST 2022-6
with the next received line. R83: a read frame of a timed input's bank takes the measured ε, and a step of more than 64 words sets sticky
bit 8. -/
def Obligations.InputLines : Prop :=
  ∀ (s : State) (i : Fin 1152),
    (∀ (v : VideoLine), s.Runs → s.c.inputSt i ≠ InSt.unbound → s.c.rd (Vin.transport.nth i).live = 1 → v.eav = false →
      (s.c.input i).noEav + 1 < orElse0 (s.c.rd Vin.lossLines) 1 →
      Gives (.inputLineReceive i v) s (fun t => (t.c.input i).noEav = (s.c.input i).noEav + 1 ∧ Confined [] [] s t)) ∧
    (∀ (v : VideoLine), s.Runs → s.c.inputSt i ≠ InSt.unbound → s.c.rd (Vin.transport.nth i).live = 1 → v.eav = true →
      rasterOf (s.c.rd (Vin.fmt.nth i).live) ≠ 6 → rasterOf (s.c.rd (Vin.mfmt.nth i)) ≠ 6 →
      Gives (.inputLineReceive i v) s (fun t =>
      (t.c.input i).noEav = 0 ∧ t.c.inputSt i = (if s.c.inputSt i = InSt.lost then InSt.acquiring else s.c.inputSt i) ∧
      (t.c.bank i).lines.length = min 5 ((s.c.bank i).lines.length + 1) ∧
      (t.c.bank i).lines.head?.map (fun l => (l.line, l.f2)) = some (v.line.toNat, v.f2) ∧ Within (asrcPage :: lossPages) s t)) ∧
    (∀ (flow : BitVec 14) (seq line off : BitVec 32) (words : List (BitVec 10)), s.Runs →
      s.c.rd (Vin.transport.nth i).live = 2 →
      (flow.toNat = s.c.rd (Vpkt.flowA.nth i) ∨ (s.c.on (Vpkt.bEn.nth i) = true ∧ flow.toNat = s.c.rd (Vpkt.flowB.nth i))) →
      s.c.on (Flowq.fEn.nth flow.toNat).live = true → s.c.rd (Flowq.fUse.nth flow.toNat).live = s.c.rd (Vpkt.pkind.nth i) →
      (s.c.merge i).released ≤ line.toNat → (s.c.merge i).pkts.all (fun p => p.seq ≠ s.c.packetSeq i seq.toNat) = true →
      Gives (.videoPacketReceive i flow seq line off words) s (fun t =>
      (t.c.merge i).pkts = (s.c.merge i).pkts ++
        [⟨s.c.packetSeq i seq.toNat, line.toNat, off.toNat, words.map BitVec.toNat,
          decide (flow.toNat = s.c.rd (Vpkt.flowA.nth i)), !decide (flow.toNat = s.c.rd (Vpkt.flowA.nth i))⟩] ∧
      (t.c.merge i).released = (s.c.merge i).released ∧ Within lossPages s t)) ∧
    (∀ (flow : BitVec 14) (seq line off : BitVec 32) (words : List (BitVec 10)), s.Runs →
      s.c.rd (Vin.transport.nth i).live = 2 →
      (flow.toNat = s.c.rd (Vpkt.flowA.nth i) ∨ (s.c.on (Vpkt.bEn.nth i) = true ∧ flow.toNat = s.c.rd (Vpkt.flowB.nth i))) →
      s.c.on (Flowq.fEn.nth flow.toNat).live = true → s.c.rd (Flowq.fUse.nth flow.toNat).live = s.c.rd (Vpkt.pkind.nth i) →
      line.toNat < (s.c.merge i).released → Gives (.videoPacketReceive i flow seq line off words) s (fun t =>
      t.c.rd (Vpkt.late.nth i) = satInc 16 (s.c.rd (Vpkt.late.nth i)) ∧ bit (t.c.stickyWord vpktPage) 2 = true ∧
      (t.c.merge i).pkts = (s.c.merge i).pkts ∧ Within lossPages s t)) ∧
    (∀ (eps : BitVec 26) (meas : BitVec 8) (anc : List AncPacket) (audio : List EmbSample), s.Runs →
      s.c.rd (Vin.transport.nth i).live = 2 → Gives (.mergeLineRelease i eps meas anc audio) s (fun t =>
      (t.c.merge i).released = (s.c.merge i).released + 1 ∧
      (t.c.merge i).pkts = (s.c.merge i).pkts.filter (fun p => p.line ≠ (s.c.merge i).released) ∧
      (t.c.bank i).lines.length =
        (if s.c.on (Vpkt.pkind.nth i) then (s.c.bank i).lines.length else min 5 ((s.c.bank i).lines.length + 1)) ∧
      Within (asrcPage :: lossPages) s t)) ∧
    (s.Runs → s.c.inputSt i = InSt.timed → Gives (.bankReadFrameStart i) s (fun t =>
      (t.c.bank i).eps = s.c.rdS (Vin.eps.nth i) ∧ (t.c.bank i).lines = (s.c.bank i).lines ∧
      (64 < (s.c.rdS (Vin.eps.nth i) - (s.c.bank i).eps).natAbs → bit (t.c.stickyWord vinPage) 8 = true) ∧
      Confined [] [vinPage] s t))

/-- R86: at a read-frame start a `FREE` synchroniser whose newest complete frame has stood for `GUARD` lines takes it, at most two frames
on (R89), or repeats and counts when it is the frame already read (sticky bit 0). R88: after loss it counts the frozen frames, and is
black by `LOSS_ACT` or once `FREEZE_FR` of them have passed; the end of the freeze is black. R87: a `LOCKED` synchroniser reads the line
that stands next if it has arrived, and moves on by one line whether it has or not; a read that HBM delays sets sticky bit 2, whatever the
synchroniser's kind. The word that is read is one whose ECC can be right: good, or corrected. -/
def Obligations.Synchronisers : Prop :=
  ∀ (s : State) (n : Fin 256),
    (s.Runs → s.c.isStandby = false → s.c.mirrors = false → s.c.rd (Fsync.input.nth n) ≠ 0x7FF →
      s.c.on (Fsync.locked.nth n) = false →
      s.c.on (Vin.bond.nth (s.c.rd (Fsync.input.nth n) - s.c.rd (Fsync.input.nth n) % 4)).live = false →
      s.c.on (Vin.bond.nth (s.c.rd (Fsync.input.nth n))).live = false →
      (s.c.input (s.c.rd (Fsync.input.nth n))).sync = some n.val → (s.c.sync n).lost = false →
      s.c.rd Fsync.guard ≤ (s.c.sync n).since → (s.c.sync n).readFrame < (s.c.sync n).newest →
      ((s.c.sync n).readFrame = 0 ∨ (s.c.sync n).newest ≤ (s.c.sync n).readFrame + 2) → Gives (.fsReadFrameStart n) s (fun t =>
      (t.c.sync n).readFrame = (s.c.sync n).newest ∧ (t.c.sync n).reading = (s.c.sync n).complete ∧
      t.c.rd (Fsync.state.nth n) = 2 ∧ t.c.rd (Fsync.repeatCnt.nth n) = s.c.rd (Fsync.repeatCnt.nth n) ∧
      Within [fsyncPage] s t)) ∧
    (s.Runs → s.c.isStandby = false → s.c.mirrors = false → s.c.rd (Fsync.input.nth n) ≠ 0x7FF →
      s.c.on (Fsync.locked.nth n) = false →
      s.c.on (Vin.bond.nth (s.c.rd (Fsync.input.nth n) - s.c.rd (Fsync.input.nth n) % 4)).live = false →
      s.c.on (Vin.bond.nth (s.c.rd (Fsync.input.nth n))).live = false →
      (s.c.input (s.c.rd (Fsync.input.nth n))).sync = some n.val → (s.c.sync n).lost = false →
      s.c.rd Fsync.guard ≤ (s.c.sync n).since → (s.c.sync n).readFrame = (s.c.sync n).newest → 0 < (s.c.sync n).newest →
      Gives (.fsReadFrameStart n) s (fun t =>
      (t.c.sync n).readFrame = (s.c.sync n).readFrame ∧
      t.c.rd (Fsync.repeatCnt.nth n) = satInc 32 (s.c.rd (Fsync.repeatCnt.nth n)) ∧ bit (t.c.stickyWord fsyncPage) 0 = true ∧
      Confined [Fsync.repeatCnt.nth n] [fsyncPage] s t)) ∧
    (s.Runs → s.c.rd (Fsync.input.nth n) ≠ 0x7FF → s.c.on (Fsync.locked.nth n) = false →
      s.c.on (Vin.bond.nth (s.c.rd (Fsync.input.nth n) - s.c.rd (Fsync.input.nth n) % 4)).live = false →
      (s.c.sync n).lost = true → Gives (.fsReadFrameStart n) s (fun t =>
      (t.c.sync n).frozen = (s.c.sync n).frozen + 1 ∧
      (t.c.sync n).black = (s.c.rd (Fsync.lossAct.nth n) = 1 ||
        (s.c.rd (Fsync.freezeFr.nth n) ≠ 0 && s.c.rd (Fsync.freezeFr.nth n) < (s.c.sync n).frozen + 1)) ∧ Confined [] [] s t)) ∧
    (∀ (line : BitVec 12) (word : BitVec 32) (ecc : MemRead) (pos : Nat) (l : BankLine), s.Runs →
      (ecc.syn = 0 ∨ oneBit ecc.syn.toNat = true) → s.c.isPoisoned (n.val / 128) 0 word.toNat = false →
      s.c.rd (Fsync.input.nth n) ≠ 0x7FF → s.c.on (Fsync.locked.nth n) = true → (s.c.sync n).lost = false →
      s.c.lockedPos n (s.c.rd (Fsync.input.nth n)) = some pos →
      ((s.c.sync n).ring.find? (fun l => l.1 = pos)).map Prod.snd = some l →
      Gives (.fsLockedLineRead n line false word ecc) s (fun t =>
      (t.c.sync n).lastRead.head? = some l ∧ (t.c.sync n).readPos = some (pos + 1) ∧ Within [fsyncPage, hbmPage] s t)) ∧
    (∀ (line : BitVec 12) (word : BitVec 32) (ecc : MemRead) (pos : Nat), s.Runs → s.c.rd (Fsync.input.nth n) ≠ 0x7FF →
      s.c.on (Fsync.locked.nth n) = true → (s.c.sync n).lost = false →
      s.c.lockedPos n (s.c.rd (Fsync.input.nth n)) = some pos → Gives (.fsLockedLineRead n line true word ecc) s (fun t =>
      (t.c.sync n).readPos = some (pos + 1) ∧ bit (t.c.stickyWord fsyncPage) 2 = true ∧ Within [fsyncPage, vpktPage, hbmPage] s t)) ∧
    (∀ (line : BitVec 12) (word : BitVec 32) (ecc : MemRead), s.Runs → s.c.rd (Fsync.input.nth n) ≠ 0x7FF →
      s.c.on (Fsync.locked.nth n) = false → Gives (.fsLockedLineRead n line true word ecc) s (fun t =>
      (t.c.sync n).readFrame = (s.c.sync n).readFrame ∧ (t.c.sync n).reading.length = (s.c.sync n).reading.length ∧
      bit (t.c.stickyWord fsyncPage) 2 = true ∧ Within [fsyncPage, hbmPage] s t)) ∧
    (s.Runs → (s.c.sync n).lost = true → s.c.rd (Fsync.lossAct.nth n) = 0 → s.c.rd (Fsync.freezeFr.nth n) ≠ 0 →
      Gives (.fsFreezeExpire n) s (fun t => (t.c.sync n).black = true ∧ Confined [] [] s t))

/-! ## The crosspoint (R97 to R124) -/

/-- R98: configuration words of an output that pass the checks are stored and wait, those that fail leave the words as they were, show
`BIND_ERR` and set sticky bit 9; a configuration that waits comes into use, and the output is bound exactly if it names a transport. -/
def Obligations.OutputBinding : Prop :=
  ∀ (s : State) (o : Fin 1152),
    (∀ (m : Master) (w0 w1 : BitVec 32), s.Allows m 1 xptPage (4 * o) 0 true →
      ((s.c.putRw xptPage 1 (4 * o) w0.toNat allBits).putRw xptPage 1 (4 * o + 1) w1.toNat allBits).outRejected o = false →
      Gives (.outputDescriptorWrite m o w0 w1) s (fun t =>
      t.c.rd (Xpt.transport.nth o) = w0.toNat % 4 ∧ t.c.rd (Xpt.group.nth o) = w0.toNat / 4 % 32 ∧
      t.c.rd (Xpt.ssid.nth o) = w0.toNat / 2 ^ 7 % 128 ∧ t.c.rd (Xpt.fmt.nth o) = w0.toNat / 2 ^ 14 % 256 ∧
      t.c.on (Xpt.autofmt.nth o) = bit w0.toNat 22 ∧ t.c.on (Xpt.bond.nth o) = bit w0.toNat 23 ∧
      t.c.on (Xpt.sqd.nth o) = bit w0.toNat 24 ∧ t.c.rd (Xpt.queue.nth o) = w1.toNat % 2 ^ 14 ∧
      t.c.rd (Xpt.emb.nth o) = w1.toNat / 2 ^ 14 % 256 ∧ t.c.xpt.waiting.contains o.val = true ∧
      t.c.xpt.bindErr.contains o.val = false ∧
      Confined [Xpt.transport.nth o, Xpt.group.nth o, Xpt.ssid.nth o, Xpt.fmt.nth o, Xpt.autofmt.nth o, Xpt.bond.nth o, Xpt.sqd.nth o,
        Xpt.queue.nth o, Xpt.emb.nth o, Xpt.ostate.nth o, Xpt.carryFmt.nth o] [] s t)) ∧
    (∀ (m : Master) (w0 w1 : BitVec 32), s.Allows m 1 xptPage (4 * o) 0 true →
      ((s.c.putRw xptPage 1 (4 * o) w0.toNat allBits).putRw xptPage 1 (4 * o + 1) w1.toNat allBits).outRejected o = true →
      Gives (.outputDescriptorWrite m o w0 w1) s (fun t =>
      t.c.rd (Xpt.ostate.nth o) = 2 ∧ t.c.xpt.bindErr.contains o.val = true ∧ bit (t.c.stickyWord xptPage) 9 = true ∧
      Confined [Xpt.ostate.nth o, Xpt.carryFmt.nth o] [xptPage] s t)) ∧
    (s.Runs → s.c.xpt.waiting.contains o.val = true → Gives (.outputConfigApply o) s (fun t =>
      t.c.rd (Xpt.transport.nth o).live = s.c.rd (Xpt.transport.nth o) ∧ t.c.rd (Xpt.group.nth o).live = s.c.rd (Xpt.group.nth o) ∧
      t.c.rd (Xpt.ssid.nth o).live = s.c.rd (Xpt.ssid.nth o) ∧ t.c.rd (Xpt.fmt.nth o).live = s.c.rd (Xpt.fmt.nth o) ∧
      t.c.rd (Xpt.queue.nth o).live = s.c.rd (Xpt.queue.nth o) ∧ t.c.xpt.waiting.contains o.val = false ∧
      t.c.xpt.bound.contains o.val = decide (s.c.rd (Xpt.transport.nth o) ≠ 0) ∧
      Within [xptPage] s t))

/-- R107: a write of 1 to `GO` of a table that is not in a take puts it behind the tables in validation, with code 1 and its bit of
`PEND`. R108, R109: at the end of validation a salvo without a fault is armed for its take frame with code 2, one with reason 8 ends with
code 7 and sticky bit 3, one with another reason ends with code 5 and sticky bit 2. R113: a cancel during validation ends the take with
code 6. Both decide here for a device that mirrors to no standby. -/
def Obligations.SalvoTakes : Prop :=
  ∀ (s : State) (k : Fin 2),
    (∀ (m : Master), s.Allows m 0 xptPage (0x50 + 4 * k) 13 true → s.c.on (Xpt.takeGo.nth k) = false →
      Gives (.salvoGo m k) s (fun t =>
      t.c.rd (Xpt.takeGo.nth k) = 1 ∧ t.c.rd (Xpt.takeCode.nth k) = 1 ∧ t.c.rd (Xpt.takeReason.nth k) = 0 ∧
      t.c.rd (Xpt.takeIndex.nth k) = 0 ∧ t.c.rd (Xpt.takeSkipped.nth k) = 0 ∧ bit (t.c.rd Xpt.pend) k = true ∧
      t.c.xpt.validating = s.c.xpt.validating ++ [k.val] ∧
      Confined [Xpt.takeGo.nth k, Xpt.takeCode.nth k, Xpt.takeReason.nth k, Xpt.takeIndex.nth k, Xpt.takeSkipped.nth k, Xpt.pend]
        [] s t)) ∧
    (∀ (near : Bool), s.Runs → s.c.isStandby = false → s.c.mirrors = false → s.c.xpt.validating.head? = some k.val →
      s.c.xpt.own.any (fun v => v.table = k.val) = false → (s.c.salvoVerdict k near).reason = 0 →
      Gives (.salvoValidationDone k near) s (fun t =>
      t.c.rd (Xpt.takeCode.nth k) = 2 ∧ t.c.rd (Xpt.takeFrm.nth k) = (s.c.salvoVerdict k near).frame % 2 ^ 32 ∧
      t.c.xpt.armed = s.c.xpt.armed ++ [⟨k, (s.c.salvoVerdict k near).frame, s.c.tableChanges k⟩] ∧
      t.c.xpt.validating = s.c.xpt.validating.filter (· ≠ k.val) ∧
      Confined [Xpt.takeSkipped.nth k, Xpt.takeReason.nth k, Xpt.takeIndex.nth k, Xpt.takeCode.nth k, Xpt.takeFrm.nth k] [] s t)) ∧
    (∀ (near : Bool), s.Runs → s.c.isStandby = false → s.c.mirrors = false → s.c.xpt.validating.head? = some k.val →
      s.c.xpt.own.any (fun v => v.table = k.val) = false → (s.c.salvoVerdict k near).reason ≠ 0 →
      Gives (.salvoValidationDone k near) s (fun t =>
      t.c.rd (Xpt.takeCode.nth k) = (if (s.c.salvoVerdict k near).reason = 8 then 7 else 5) ∧ t.c.rd (Xpt.takeGo.nth k) = 0 ∧
      t.c.rd (Xpt.takeReason.nth k) = (s.c.salvoVerdict k near).reason % 16 ∧
      t.c.rd (Xpt.takeIndex.nth k) = (s.c.salvoVerdict k near).index % 4096 ∧ bit (t.c.rd Xpt.pend) k = false ∧
      bit (t.c.stickyWord xptPage) (if (s.c.salvoVerdict k near).reason = 8 then 3 else 2) = true ∧
      t.c.xpt.armed = s.c.xpt.armed ∧
      Confined [Xpt.takeSkipped.nth k, Xpt.takeReason.nth k, Xpt.takeIndex.nth k, Xpt.takeCode.nth k, Xpt.takeGo.nth k, Xpt.pend]
        [xptPage] s t)) ∧
    (∀ (m : Master), s.Allows m 0 xptPage (0x50 + 4 * k) 14 true → s.c.rd (Xpt.takeCode.nth k) = 1 →
      Gives (.salvoCancel m k) s (fun t =>
      t.c.rd (Xpt.takeCode.nth k) = 6 ∧ t.c.rd (Xpt.takeGo.nth k) = 0 ∧ bit (t.c.rd Xpt.pend) k = false ∧
      t.c.xpt.validating = s.c.xpt.validating.filter (· ≠ k.val) ∧
      Confined [Xpt.takeCode.nth k, Xpt.takeGo.nth k, Xpt.pend] [] s t))

/-- R110: at the cut of the next reference frame a salvo of one change armed for it leaves the armed list, `REQ` of its destination, which
is neither protected nor in a bonded set and adopts no format, takes the new source, and the take shows code 3. R103: T(F) adds 1 to
`XPT_FRAME` modulo 2^32. R105: a rate adopted at the cut of an earlier frame comes into force. R33, R101, R111: on the switch line of the
destination's format `AIR` takes a due change, and the last change of a salvo to land ends its take with code 4 and its sticky bit. R120:
an `AIR` that differs from `REQ` with nothing left to land sets sticky bit 7. -/
def Obligations.SalvoLanding : Prop :=
  ∀ (s : State),
    (∀ (k : Fin 2) (e : SalvoEntry), s.Runs → s.c.xpt.cutDone = false →
      s.c.xpt.armed = [⟨k, (s.c.rd Xpt.frame + 1) % 2 ^ 32, [e]⟩] → e.dest < 1664 → s.c.skipped e = false →
      s.c.outBonded e.dest = false → s.c.adopts e.dest e.src = false → Gives .salvoCut s (fun t =>
      t.c.rd (Xpt.reqSrc.nth e.dest) = e.src % 2048 ∧ t.c.rd (Xpt.takeCode.nth k) = 3 ∧ t.c.xpt.armed = [] ∧
      t.c.xpt.cutDone = true ∧ t.c.xpt.landing.length = s.c.xpt.landing.length + 1 ∧
      Confined [Xpt.reqSrc.nth e.dest, Xpt.reqAmode.nth e.dest, Xpt.takeCode.nth k] [] s t)) ∧
    (s.Runs → Gives .referenceFrameStart s (fun t =>
      t.c.rd Xpt.frame = (s.c.rd Xpt.frame + 1) % 2 ^ 32 ∧ t.c.xpt.cutDone = false ∧
      t.c.xpt.rate = ((s.c.xpt.newRate.filter (fun p => decide (frameDiff p.2 (t.c.rd Xpt.frame) < 0))).getLast?.map Prod.fst).getD
        s.c.xpt.rate ∧ t.c.xpt.swline1 = bit (s.c.rd Dev.compat) 0 ∧
      Confined [Xpt.frame, Xpt.tratePend, Xpt.nOfftake] [] s t)) ∧
    (∀ (d : Fin 1664) (k : Fin 2) (l : Landing) (line : BitVec 12), s.Runs → s.c.xpt.landing = [l] → l.dest = d.val →
      l.table = k.val → frameDiff l.frame (s.c.rd Xpt.frame) ≤ 0 → s.c.rd (Xpt.takeCode.nth k) = 3 → s.c.xpt.gap = [] →
      (s.c.destFmt d = 0xFF ∨ line.toNat = switchLine s.c.xpt.swline1 (s.c.destFmt d)) → Gives (.switchPoint d line) s (fun t =>
      t.c.rd (Xpt.airSrc.nth d) = l.src % 2048 ∧ t.c.rd (Xpt.airAmode.nth d) = l.amode % 4 ∧ t.c.xpt.landing = [] ∧
      t.c.rd (Xpt.takeCode.nth k) = 4 ∧ t.c.rd (Xpt.takeGo.nth k) = 0 ∧ bit (t.c.stickyWord xptPage) k = true ∧
      Confined [Xpt.airSrc.nth d, Xpt.airAmode.nth d, Xpt.airFmt.nth d, Xpt.offtake.nth d, Xpt.mismatch.nth d, Xpt.nMismatch,
        Xpt.ostate.nth d, Xpt.carryFmt.nth d, Xpt.takeCode.nth k, Xpt.takeGo.nth k, Xpt.pend] [xptPage] s t)) ∧
    (∀ (d : Fin 1664), s.Runs → s.c.rd (Xpt.airSrc.nth d) ≠ s.c.rd (Xpt.reqSrc.nth d) → s.c.xpt.landing = [] →
      s.c.xpt.gap = [] → Gives (.stateCheck d) s (fun t => bit (t.c.stickyWord xptPage) 7 = true ∧ Confined [] [xptPage] s t))

/-- R100, R411: at a frame start of an output the lines sent so far are its complete frame, unless it is held. R116: at one at or after
T(F) of a format change the old format stops and no format is carried; at one at or after T(F + 1) the new source starts, in its own
format where that is in the format set, else in the one last carried. R411, R263, R112, R115: a line of a running output outside such a
gap is what a hold shows, the words of the line before where the gather is late or the line's memory cannot be corrected, black where the
source is not on air, and else the source's words, with its audio packets only in `PASS` from a `TIMED` input; whichever it is, it becomes
the line last sent. A late line fills no retimer block (R14), any other fills it. `EMBED` counts drops on the AMAP page and touches no
other (R188). -/
def Obligations.OutputFrames : Prop :=
  ∀ (s : State) (o : Fin 1152),
    (s.Runs → s.c.xpt.gap.any (fun a => a.out = o.val) = false → Gives (.outputFrameStart o) s (fun t =>
      (Store.get {} t.c.outs o).lines = [] ∧
      (Store.get {} t.c.outs o).complete = (if s.c.isHeld (0, o.val) then (Store.get {} s.c.outs o).complete else (Store.get {}
        s.c.outs o).lines) ∧
      t.c.rd (Xpt.airSrc.nth o) = s.c.rd (Xpt.airSrc.nth o) ∧ Within [xptPage] s t)) ∧
    (s.Runs → s.c.inGap o = false →
      s.c.xpt.gap.any (fun a => a.out = o.val && decide (0 ≤ frameDiff (s.c.rd Xpt.frame) a.frame)) = true →
      Gives (.outputFrameStart o) s (fun t =>
      t.c.inGap o = true ∧ t.c.rd (Xpt.carryFmt.nth o) = 0xFF ∧ (Store.get {} t.c.outs o).lines = [] ∧
      t.c.rd (Xpt.airSrc.nth o) = s.c.rd (Xpt.airSrc.nth o) ∧ Within [xptPage] s t)) ∧
    (∀ (a : Adoption), s.Runs → Store.get none s.c.sch.mapWaits o = none →
      s.c.xpt.gap.filter (fun b => b.out = o.val) = [a] → a.stopped = true →
      0 ≤ frameDiff (s.c.rd Xpt.frame) ((a.frame + 1) % 2 ^ 32) → Gives (.outputFrameStart o) s (fun t =>
      let src := if a.table.isSome then a.src else s.c.rd (Xpt.airSrc.nth o)
      t.c.inGap o = false ∧ t.c.rd (Xpt.airSrc.nth o) = src % 2048 ∧
      t.c.rd (Xpt.airAmode.nth o) = (if a.table.isSome then a.amode else s.c.rd (Xpt.airAmode.nth o)) % 4 ∧
      t.c.rd (Xpt.airFmt.nth o) = (if s.c.inSet o (s.c.srcFmt src) then s.c.srcFmt src else s.c.rd (Xpt.airFmt.nth o)) % 256 ∧
      (Store.get {} t.c.outs o).lines = [] ∧ Within [xptPage] s t)) ∧
    (∀ (line : BitVec 12) (f2 late : Bool) (room : BitVec 8) (word : BitVec 32) (ecc : MemRead), s.Runs → s.c.outSt o = 1 →
      s.c.inGap o = false → s.c.isHeld (0, o.val) = true → Gives (.outputLineGather o line f2 late room word ecc) s (fun t =>
      (Store.get {} t.c.outs o).last = some (s.c.heldLine o line.toNat f2) ∧ Within [] s t)) ∧
    (∀ (line : BitVec 12) (f2 : Bool) (room : BitVec 8) (word : BitVec 32) (ecc : MemRead), s.Runs → s.c.outSt o = 1 →
      s.c.inGap o = false → s.c.isHeld (0, o.val) = false → Gives (.outputLineGather o line f2 true room word ecc) s (fun t =>
      (Store.get {} t.c.outs o).last = some ⟨line.toNat, f2, (((Store.get {} s.c.outs o).last).map BankLine.words).getD []⟩ ∧
      (t.c.retimer (.video o)).filling = (s.c.retimer (.video o)).filling ∧
      Within (if s.c.rd (Xpt.airAmode.nth o) = 1 then [amapPage] else []) s t)) ∧
    (∀ (line : BitVec 12) (f2 : Bool) (room : BitVec 8) (word : BitVec 32) (ecc : MemRead), s.Runs → s.c.outSt o = 1 →
      s.c.inGap o = false → s.c.isHeld (0, o.val) = false → s.c.onAir o (s.c.rd (Xpt.airSrc.nth o)) = false →
      Gives (.outputLineGather o line f2 false room word ecc) s (fun t =>
      (Store.get {} t.c.outs o).last = some ⟨line.toNat, f2, []⟩ ∧
      t.c.out.contains (.blackLine o line.toNat (s.c.rd (Xpt.airFmt.nth o))) = true ∧
      (t.c.retimer (.video o)).filling = some (buildLine (s.c.rd (Xpt.airFmt.nth o)) line.toNat f2 [] [] []) ∧
      Within (if s.c.rd (Xpt.airAmode.nth o) = 1 then [amapPage] else []) s t)) ∧
    (∀ (line : BitVec 12) (f2 : Bool) (room : BitVec 8) (word : BitVec 32) (ecc : MemRead) (ws : List Nat), s.Runs →
      s.c.outSt o = 1 → s.c.inGap o = false → s.c.isHeld (0, o.val) = false →
      s.c.onAir o (s.c.rd (Xpt.airSrc.nth o)) = true → s.c.sourceLine (s.c.rd (Xpt.airSrc.nth o)) line.toNat f2 = some ws →
      (ecc.syn.toNat % 256 = 0 ∨ oneBit (ecc.syn.toNat % 256) = true) →
      s.c.isPoisoned 5 (s.c.rd (Xpt.airSrc.nth o)) word.toNat = false →
      Gives (.outputLineGather o line f2 false room word ecc) s (fun t =>
      let src := s.c.rd (Xpt.airSrc.nth o)
      let passes := s.c.rd (Xpt.airAmode.nth o) = 0 ∧ src < 1152 ∧ s.c.srcSt src = InSt.timed
      (Store.get {} t.c.outs o).last =
        some ⟨line.toNat, f2, if passes then ws else stripAudio (s.c.rd (Xpt.airFmt.nth o)) ws⟩ ∧
      (Store.get {} t.c.outs o).lines.length = (Store.get {} s.c.outs o).lines.length + 1 ∧
      (t.c.retimer (.video o)).filling.isSome = true ∧
      Within (if s.c.rd (Xpt.airAmode.nth o) = 1 then [amapPage] else []) s t)) ∧
    (∀ (line : BitVec 12) (f2 : Bool) (room : BitVec 8) (word : BitVec 32) (ecc : MemRead), s.Runs → s.c.outSt o = 1 →
      s.c.inGap o = false → s.c.isHeld (0, o.val) = false → s.c.onAir o (s.c.rd (Xpt.airSrc.nth o)) = true →
      ecc.syn.toNat % 256 ≠ 0 → oneBit (ecc.syn.toNat % 256) = false →
      Gives (.outputLineGather o line f2 false room word ecc) s (fun t =>
      let src := s.c.rd (Xpt.airSrc.nth o)
      let passes := s.c.rd (Xpt.airAmode.nth o) = 0 ∧ src < 1152 ∧ s.c.srcSt src = InSt.timed
      let before := (((Store.get {} s.c.outs o).last).map BankLine.words).getD []
      (Store.get {} t.c.outs o).last =
        some ⟨line.toNat, f2, if passes then before else stripAudio (s.c.rd (Xpt.airFmt.nth o)) before⟩ ∧
      t.c.isPoisoned 5 src word.toNat = true ∧
      Within (if s.c.rd (Xpt.airAmode.nth o) = 1 then [amapPage] else []) s t))

/-! ## Layer composers and the Keeper (R125 to R162) -/

/-- R142: a write of 1 to `GO` copies the shadow to the pending configuration and shows code 1; layer 7 keeps what is live while the
Keeper is enabled (R149); a commit that passes validation shows code 2 with its stores allocated, one that does not shows code 5 with its
reason and its sticky bit. R146: a seal closes a group, code 2. R147: a cancel ends a commit outside a sealed group with code 7, and a
sealed group with code 7 when nothing has been decided. -/
def Obligations.CommitValidation : Prop :=
  ∀ (s : State) (n : Fin 64),
    (∀ (m : Master), s.Allows m 0 (cmpPage n) 0x58 0 true → s.c.on (Cmp.go.on n) = false → Gives (.cmpCommitGo m n) s (fun t =>
      t.c.rd (Cmp.go.on n) = 1 ∧ t.c.rd (Cmp.code.on n) = 1 ∧ t.c.rd (Cmp.reason.on n) = 0 ∧ t.c.rd (Cmp.waited.on n) = 0 ∧
      (∀ f ∈ [Cmp.outFmt, Cmp.outClr, Cmp.bgY, Cmp.bgCb, Cmp.bgCr], t.c.rd (f.on n).pend = s.c.rd (f.on n)) ∧
      (∀ f ∈ layerFields, ∀ l : Fin 8, t.c.rd (lyr f n l).pend =
        s.c.rd (if l = 7 ∧ s.c.keeperOn n = true then (lyr f n l).live else lyr f n l)) ∧
      Within [cmpPage n, cmpPage 0] s t)) ∧
    (s.Runs → s.c.rd (Cmp.code.on n) = 1 → (s.c.validateCommit n).1 = 0 → Gives (.commitValidationDone n) s (fun t =>
      t.c.rd (Cmp.code.on n) = 2 ∧ (t.c.comp n).unitsPend = s.c.pendUnits n ∧ (t.c.comp n).group = (s.c.comp n).group ∧
      Confined [Cmp.code.on n, Cmp.poolUsed.on n] [] s t)) ∧
    (s.Runs → s.c.rd (Cmp.code.on n) = 1 → (s.c.validateCommit n).1 ≠ 0 → Gives (.commitValidationDone n) s (fun t =>
      t.c.rd (Cmp.code.on n) = 5 ∧ t.c.rd (Cmp.go.on n) = 0 ∧ t.c.rd (Cmp.reason.on n) = (s.c.validateCommit n).1 % 16 ∧
      bit (t.c.stickyWord (cmpPage n)) (rejectSource (s.c.validateCommit n).1).2 = true ∧ (t.c.comp n).unitsPend = 0 ∧
        (t.c.comp n).group = 0 ∧
      Confined [Cmp.code.on n, Cmp.go.on n, Cmp.reason.on n, Cmp.offLayer.on n, Cmp.poolUsed.on n, Cmp.members.nth (s.c.comp
        n).group] [cmpPage n] s t)) ∧
    (∀ (m : Master) (g : Fin 16), s.Allows m 0 (cmpPage n) (0x200 + 4 * g) 0 true → g ≠ 0 → Gives (.groupSeal m n g) s (fun t =>
      t.c.rd (Cmp.gSeal.nth g) = 1 ∧ t.c.rd (Cmp.gCode.nth g) = 2 ∧
      Confined [Cmp.gSeal.nth g, Cmp.gCode.nth g, Cmp.members.nth g] [] s t)) ∧
    (∀ (m : Master), s.Allows m 0 (cmpPage n) 0x58 1 true → s.c.rd (Cmp.code.on n) = 2 → (s.c.comp n).group = 0 →
      (s.c.comp n).flip = none → Gives (.commitCancel m n) s (fun t =>
      t.c.rd (Cmp.code.on n) = 7 ∧ t.c.rd (Cmp.go.on n) = 0 ∧ (t.c.comp n).unitsPend = 0 ∧
      Confined [Cmp.code.on n, Cmp.go.on n, Cmp.poolUsed.on n] [] s t)) ∧
    (∀ (m : Master) (g : Fin 16), s.Allows m 0 (cmpPage n) (0x200 + 4 * g) 1 true → g ≠ 0 → s.c.rd (Cmp.gCode.nth g) ≠ 4 →
      s.c.on (Cmp.gSeal.nth g) = true → (s.c.cgrp g).decided = false → Gives (.groupCancel m n g) s (fun t =>
      t.c.rd (Cmp.gCode.nth g) = 7 ∧ t.c.rd (Cmp.gSeal.nth g) = 0 ∧
      (∀ k : Fin 64, (s.c.cgrp g).members.contains k.val = true → t.c.rd (Cmp.code.on k) = 7 ∧ t.c.rd (Cmp.go.on k) = 0) ∧
      (∀ k : Fin 64, (s.c.cgrp g).members.contains k.val = false → t.c.rd (Cmp.code.on k) = s.c.rd (Cmp.code.on k)) ∧
      Confined (Cmp.gCode.nth g :: Cmp.gSeal.nth g :: (List.range 64).flatMap (fun k => [Cmp.code.on k, Cmp.go.on k, Cmp.poolUsed.on k]))
        [] s t))

/-- R143: at the decision point of a pending commit outside a group, a satisfied fence decides the flip for the picture that the point
names and an unsatisfied one is counted; R145: a count that has reached `TIMEOUT` sets sticky bit 3 and holds, discards (code 6) or forces
the flip by `TO_ACT`; R152: the point also gives each waiting Keeper change its picture; R128, R143: a picture start counts the picture,
and a flip decided for it gives code 4, clears `GO` and makes the pending configuration live; R141, R159: the next line of the picture is
composed, or repeats the line before of its field where it is late. The decisions here are those of a device that mirrors to no standby.
-/
def Obligations.CommitFlips : Prop :=
  ∀ (s : State) (n : Fin 64),
    (s.Runs → s.c.isStandby = false → s.c.mirrors = false → s.c.enabled (cmpPage n) = true → s.c.decisionDue n = true →
      (s.c.comp n).group = 0 → s.c.rd (Cmp.code.on n) = 2 → s.c.cmpDecided n = false → s.c.fenceOk n = true →
      Gives (.decisionPoint n) s (fun t =>
      (t.c.comp n).flip = some (s.c.decisionPicture n) ∧
      (t.c.comp n).kDue = (s.c.comp n).kDue.map (fun k => { k with at_ := some (k.at_.getD (s.c.decisionPicture n)) }) ∧
      Confined [] [] s t)) ∧
    (s.Runs → s.c.enabled (cmpPage n) = true → s.c.decisionDue n = true → (s.c.comp n).group = 0 →
      s.c.rd (Cmp.code.on n) = 2 → s.c.cmpDecided n = false → s.c.fenceOk n = false → Gives (.decisionPoint n) s (fun t =>
      t.c.rd (Cmp.waited.on n) = satInc 16 (s.c.rd (Cmp.waited.on n)) ∧ (t.c.comp n).flip = none ∧ Confined [Cmp.waited.on n] [] s t)) ∧
    (s.Runs → s.c.isStandby = false → s.c.mirrors = false → s.c.rd (Cmp.code.on n) = 2 → (s.c.comp n).group = 0 →
      s.c.rd (Cmp.timeout.on n) ≠ 0 → s.c.rd (Cmp.waited.on n) = s.c.rd (Cmp.timeout.on n) → s.c.cmpDecided n = false →
      s.c.fenceOk n = false → Gives (.fenceTimeout n) s (fun t =>
      bit (t.c.stickyWord (cmpPage n)) 3 = true ∧
      t.c.rd (Cmp.code.on n) = (if s.c.rd (Cmp.toAct.on n) = 1 then 6 else if s.c.rd (Cmp.toAct.on n) = 2 then 2 else 3) ∧
      (t.c.comp n).flip = (if s.c.rd (Cmp.toAct.on n) = 2 then some (s.c.decisionPicture n) else none) ∧
      Confined [Cmp.code.on n, Cmp.go.on n, Cmp.poolUsed.on n] [cmpPage n] s t)) ∧
    (∀ (k : Nat), s.Runs → s.c.enabled (cmpPage n) = true → s.c.rd (Cmp.carryFmt.on n) ≠ 0xFF → s.c.mirrors = false →
      (s.c.comp n).flip = some k → frameDiff k ((s.c.rd (Cmp.picture.on n) + 1) % 2 ^ 32) ≤ 0 →
      Gives (.pictureStart n) s (fun t =>
      t.c.rd (Cmp.code.on n) = 4 ∧ t.c.rd (Cmp.go.on n) = 0 ∧ (t.c.comp n).flip = none ∧ bit (t.c.stickyWord (cmpPage n)) 0 = true ∧
      t.c.rd (Cmp.outFmt.on n).live = s.c.rd (Cmp.outFmt.on n).pend ∧
      (∀ f ∈ layerFields, ∀ l : Fin 8, t.c.rd (lyr f n l).live = s.c.rd (lyr f n l).pend) ∧
      Within [cmpPage n, cmpPage 0] s t)) ∧
    (s.Runs → s.c.enabled (cmpPage n) = true → s.c.rd (Cmp.carryFmt.on n) ≠ 0xFF → s.c.mirrors = false →
      (s.c.comp n).flip = none → (s.c.comp n).newFmt = none → Gives (.pictureStart n) s (fun t =>
      t.c.rd (Cmp.picture.on n) = (s.c.rd (Cmp.picture.on n) + 1) % 2 ^ 32 ∧ t.c.rd (Cmp.carryFmt.on n) = s.c.rd (Cmp.carryFmt.on n) ∧
      t.c.rd (Cmp.outFmt.on n).live = s.c.rd (Cmp.outFmt.on n).live ∧ (t.c.comp n).flip = none ∧
      Within [cmpPage n] s t)) ∧
    (s.Runs → s.c.rd (Cmp.carryFmt.on n) ≠ 0xFF → (s.c.comp n).line ≤ totalLines (s.c.rd (Cmp.carryFmt.on n)) →
      s.c.readsPoison n (s.c.rd (Cmp.carryFmt.on n)) (s.c.comp n).line = false → Gives (.composerLine n false) s (fun t =>
      (t.c.comp n).line = (s.c.comp n).line + 1 ∧
      (t.c.bank (1152 + n)).lines.head? =
        some ⟨(s.c.comp n).line, (s.c.comp n).f2, s.c.composeLine s.mem n (s.c.rd (Cmp.carryFmt.on n)) (s.c.comp n).line
          ((((s.c.bank (1152 + n)).lines.find? (fun l => l.line % totalLines (s.c.rd (Cmp.carryFmt.on n)) + 1 = (s.c.comp n).line)).map
            BankLine.words).getD [])⟩ ∧
      Confined [] [hbmPage] s t)) ∧
    (∀ (l : BankLine), s.Runs → s.c.rd (Cmp.carryFmt.on n) ≠ 0xFF →
      (s.c.comp n).line ≤ totalLines (s.c.rd (Cmp.carryFmt.on n)) →
      (s.c.bank (1152 + n)).lines.find? (fun l => l.f2 = (s.c.comp n).f2) = some l → Gives (.composerLine n true) s (fun t =>
      (t.c.comp n).line = (s.c.comp n).line + 1 ∧
      (t.c.bank (1152 + n)).lines.head? = some ⟨(s.c.comp n).line, (s.c.comp n).f2, l.words⟩ ∧
      bit (t.c.stickyWord (cmpPage n)) 6 = true ∧ Confined [] [cmpPage n, hbmPage] s t))

/-- R152: an accepted `KEEPER_LOAD` runs with its settings taken and units of the carve-out found; at its end with the right check value
the image waits for its picture, sticky bit 14 is set and the command is done; `KEEPER_SHOW` and `KEEPER_HIDE` of an enabled Keeper set
and clear the visibility that waits. R153: a target beyond the composers is refused with code 15. R156: the check of each enabled Keeper
shows in `CRC_ERR`, and a mismatch sets sticky bit 7. The decisions here are those of a device that mirrors to no standby. -/
def Obligations.KeeperCommands : Prop :=
  ∀ (s : State),
    (∀ (n : BitVec 16) (a0 a1 a2 a3 : BitVec 32), s.Runs → n.toNat < 64 →
      s.c.keeperRefusal n.toNat (s.c.keeperArgs a0.toNat a1.toNat a2.toNat a3.toNat) = 0 → bit a2.toNat 11 = false →
      Gives (.keeperLoad n a0 a1 a2 a3) s (fun t =>
      ((t.c.comp n.toNat).kLoad.map (fun k => (k.x, k.y, k.alpha, k.surf, k.vis))) =
        some (a1.toNat % 8192, a1.toNat / 65536 % 8192, a2.toNat % 1024, a0.toNat % 1024, bit a2.toNat 10) ∧
      t.c.rd Cmd.state = 2 ∧ t.c.rd Cmd.lastOp = 4 ∧ t.c.rd Cmd.refuse = 0 ∧ Confined [] [] s t)) ∧
    (∀ (n : Fin 64) (k : KeeperNew), s.Runs → s.c.isStandby = false → s.c.mirrors = false → (s.c.comp n).kLoad = some k →
      some (imageCrc (copySurface s.mem (1 + s.c.rd (Cmp.sStack.nth k.surf)) (s.c.rd (Cmp.sBase.nth k.surf) * 65536) (s.c.rd
        (Cmp.sStride.nth k.surf)) (k.base * 65536) k.w k.h) k.base k.w k.h) = k.crc →
      Gives (.keeperLoadComplete n) s (fun t =>
      (t.c.comp n).kDue = (s.c.comp n).kDue ++ [{ new := some k }] ∧ (t.c.comp n).kLoad = none ∧
      bit (t.c.stickyWord (cmpPage n)) 14 = true ∧ t.c.rd Cmd.state = 3 ∧
      t.mem = copySurface s.mem (1 + s.c.rd (Cmp.sStack.nth k.surf)) (s.c.rd (Cmp.sBase.nth k.surf) * 65536)
        (s.c.rd (Cmp.sStride.nth k.surf)) (k.base * 65536) k.w k.h ∧
      Confined [] [cmdPage, cmpPage n] { s with mem := t.mem } t)) ∧
    (∀ (n : BitVec 16), s.Runs → s.c.isStandby = false → s.c.mirrors = false → n.toNat < 64 →
      s.c.rd (Cmp.nLayers.on n.toNat) ≠ 0 → s.c.rd (Cmp.outFmt.on n.toNat).live ≠ 0xFF → s.c.keeperOn n.toNat = true →
      Gives (.keeperShow n) s (fun t =>
      (t.c.comp n.toNat).kDue = (s.c.comp n.toNat).kDue ++ [{ vis := true }] ∧ t.c.rd Cmd.state = 3 ∧
        bit (t.c.stickyWord (cmpPage n.toNat)) 14 = true ∧
      Confined [] [cmdPage, cmpPage n.toNat] s t)) ∧
    (∀ (n : BitVec 16), s.Runs → s.c.isStandby = false → s.c.mirrors = false → n.toNat < 64 →
      s.c.rd (Cmp.nLayers.on n.toNat) ≠ 0 → s.c.rd (Cmp.outFmt.on n.toNat).live ≠ 0xFF → s.c.keeperOn n.toNat = true →
      Gives (.keeperHide n) s (fun t =>
      (t.c.comp n.toNat).kDue = (s.c.comp n.toNat).kDue ++ [{ vis := false }] ∧ t.c.rd Cmd.state = 3 ∧
        bit (t.c.stickyWord (cmpPage n.toNat)) 14 = true ∧
      Confined [] [cmdPage, cmpPage n.toNat] s t)) ∧
    (∀ (n : BitVec 16), s.Runs → 64 ≤ n.toNat → Gives (.keeperShow n) s (fun t =>
      t.c.rd Cmd.state = 4 ∧ t.c.rd Cmd.refuse = 15 ∧ t.c.rd Cmd.lastOp = 5 ∧ bit (t.c.stickyWord cmdPage) 1 = true ∧
      Confined [] [cmdPage] s t)) ∧
    (s.Runs → Gives .keeperCrcCheck s (fun t =>
      (∀ n : Fin 64, s.c.keeperOn n = true →
        t.c.rd (Cmp.kCrcErr.on n) = (if imageCrc s.mem (s.c.comp n).kBase (s.c.rd (Cmp.kW.on n)) (s.c.rd (Cmp.kH.on n)) ≠ (s.c.comp n).kCrc
          then 1 else 0) ∧
        (imageCrc s.mem (s.c.comp n).kBase (s.c.rd (Cmp.kW.on n)) (s.c.rd (Cmp.kH.on n)) ≠ (s.c.comp n).kCrc →
          bit (t.c.stickyWord (cmpPage n)) 7 = true)) ∧
      Confined ((List.range 64).map Cmp.kCrcErr.on) (hbmPage :: (List.range 64).map cmpPage) s t))

/-! ## Audio (R163 to R203) -/

/-- R163: a sample instant adds 1 to the AMC modulo 2^32. R25: at the sample instant whose AMC value is a multiple of P a period opens (or
the last one ends, when the schedule is disabled or `PLEN` has been rewritten since it opened) with that value as its stamp. R165: the
close of intake fixes the period's samples once. -/
def Obligations.AudioPeriods : Prop :=
  ∀ (s : State),
    (s.Runs → Gives .sampleInstant s (fun t => t.c.amc = (s.c.amc + 1) % 2 ^ 32 ∧ Within [timePage] s t)) ∧
    (s.Runs → s.c.ticking = true → s.c.amc % s.c.periodLen = 0 → (s.c.aud.isOpen = true → s.c.aud.m ≠ s.c.amc) →
      (s.c.aud.isOpen = true ∨ s.c.enabled schedPage = true) → Gives .periodBoundary s (fun t =>
      t.c.aud.m = s.c.amc ∧ t.c.aud.isOpen = (s.c.enabled schedPage && decide (s.c.periodCode = s.c.plenCode)) ∧ t.c.amc = s.c.amc ∧
      Within periodPages s t)) ∧
    (s.Runs → s.c.aud.isOpen = true → s.c.aud.closed ≠ some s.c.aud.m → Gives .intakeClose s (fun t =>
      t.c.aud.closed = some s.c.aud.m ∧ t.c.aud.late = [] ∧ t.c.aud.m = s.c.aud.m ∧
      Within (amapPage :: (List.range 16).map sapPage) s t))

/-- R172: a port goes from `NOCLK` to `SEEK` with its clock, from `SEEK` to `RUN` after four frames (sticky bit 6) with the stamp of R173
and the measured rate, and from `RUN` to `NOCLK` with the loss of the clock (sticky bit 0). R201: a receiver of AES3 or MADI that loses
lock sets sticky bit 3. R176: a commit takes both masks as they stand, and they come into use when the port runs no frames or four frames
have passed at a block boundary (sticky bit 7). -/
def Obligations.SerialPortStates : Prop :=
  ∀ (s : State) (p : Fin 16),
    (s.Runs → s.c.rd (Sap.state.on p) = 1 →
      Gives (.sapClockDetect p) s (fun t => t.c.rd (Sap.state.on p) = 2 ∧ Confined [Sap.state.on p] [] s t)) ∧
    (∀ (edge : BitVec 32) (frac : BitVec 11) (rate : BitVec 14), s.Runs → s.c.rd (Sap.state.on p) = 2 →
      s.c.sapRateOk p rate.toNat = true → Gives (.sapFrameFound p edge frac rate) s (fun t =>
      t.c.rd (Sap.state.on p) = 3 ∧ t.c.rd (Sap.rate.on p) = rate.toNat ∧
      (t.c.sapx p).next =
        (if (s.c.rd (Sap.mode.on p) = 1 ∨ s.c.rd (Sap.mode.on p) = 2) ∧ s.c.on (Sap.master.on p) = true then edge.toNat
         else if frac.toNat < 64 then edge.toNat else (edge.toNat + 1) % 2 ^ 32) ∧
      bit (t.c.stickyWord (sapPage p)) 6 = true ∧
      Confined [Sap.state.on p, Sap.rate.on p, Sap.rxCh.on p, Sap.txCh.on p] [sapPage p] s t)) ∧
    (s.Runs → s.c.rd (Sap.state.on p) = 3 → Gives (.sapClockLoss p) s (fun t =>
      t.c.rd (Sap.state.on p) = 1 ∧ (t.c.sapx p).frames = 0 ∧ bit (t.c.stickyWord (sapPage p)) 0 = true ∧
      Confined [Sap.state.on p] [sapPage p] s t)) ∧
    (s.Runs → (s.c.rd (Sap.mode.on p) = 3 ∨ s.c.rd (Sap.mode.on p) = 4) →
      (s.c.rd (Sap.state.on p) = 2 ∨ s.c.rd (Sap.state.on p) = 3) →
      Gives (.sapLock p) s (fun t => bit (t.c.stickyWord (sapPage p)) 3 = true ∧ Confined [] [sapPage p] s t)) ∧
    (∀ (m : Master), s.Allows m 0 (sapPage p) 0x4C 0 true → Gives (.sapMaskCommit m p) s (fun t =>
      t.c.rd (Sap.maskGo.on p) = 1 ∧ (t.c.sapx p).maskRun = some 0 ∧
      (∀ i : Fin 2, t.c.rd ((Sap.rxMask.nth i).on p).pend = s.c.rd ((Sap.rxMask.nth i).on p) ∧
        t.c.rd ((Sap.txMask.nth i).on p).pend = s.c.rd ((Sap.txMask.nth i).on p)) ∧
      Within [sapPage p] s t)) ∧
    (s.Runs → s.c.on (Sap.maskGo.on p) = true → s.c.rd (Sap.state.on p) ≠ 3 → Gives (.sapMaskApply p) s (fun t =>
      t.c.rd (Sap.maskGo.on p) = 0 ∧ bit (t.c.stickyWord (sapPage p)) 7 = true ∧
      (∀ i : Fin 2, t.c.rd ((Sap.rxMask.nth i).on p).live = s.c.rd ((Sap.rxMask.nth i).on p).pend ∧
        t.c.rd ((Sap.txMask.nth i).on p).live = s.c.rd ((Sap.txMask.nth i).on p).pend) ∧ Within [sapPage p] s t)) ∧
    (s.Runs → s.c.on (Sap.maskGo.on p) = true → s.c.rd (Sap.state.on p) = 3 → 4 ≤ (s.c.sapx p).maskRun.getD 0 →
      (if s.c.on (Sap.async.on p) then (s.c.sapx p).frames else (s.c.sapx p).next) % s.c.periodLen = 0 →
      Gives (.sapMaskApply p) s (fun t =>
      (∀ i : Fin 2, t.c.rd ((Sap.rxMask.nth i).on p).live = s.c.rd ((Sap.rxMask.nth i).on p).pend) ∧
      (if s.c.on (Sap.async.on p) = true ∨
          ((s.c.rd (Sap.mode.on p) = 1 ∨ s.c.rd (Sap.mode.on p) = 2) ∧ s.c.on (Sap.master.on p) = true) then
        t.c.rd (Sap.maskGo.on p) = 0 ∧ bit (t.c.stickyWord (sapPage p)) 7 = true ∧
        (∀ i : Fin 2, t.c.rd ((Sap.txMask.nth i).on p).live = s.c.rd ((Sap.txMask.nth i).on p).pend)
       else t.c.rd (Sap.maskGo.on p) = 1 ∧ (t.c.sapx p).txDue = true ∧
        (∀ i : Fin 2, t.c.rd ((Sap.txMask.nth i).on p).live = s.c.rd ((Sap.txMask.nth i).on p).live)) ∧ Within [sapPage p] s t))

/-- R173: a frame of a synchronous port in `RUN` that is no clock master takes the next stamp and shows its phase while that stays within
-1/16 to 1 sample, and counts a line error; one beyond is a slip, which is counted (sticky bit 1) and takes the stamp of entry. A master's
frame has the stamp of the instant at which it starts. R176: a transmit mask that waits goes into use at the frame whose transmit stamp is
a multiple of P. -/
def Obligations.SerialPortFrames : Prop :=
  ∀ (s : State) (p : Fin 16) (f : SapFrame),
    (s.Runs → s.c.rd (Sap.state.on p) = 3 → f.spacing = true → s.c.on (Sap.async.on p) = false →
      (¬ ((s.c.rd (Sap.mode.on p) = 1 ∨ s.c.rd (Sap.mode.on p) = 2) ∧ s.c.on (Sap.master.on p) = true)) →
      -128 ≤ framePhi (s.c.sapx p).next f.edge.toNat f.frac.toNat →
      framePhi (s.c.sapx p).next f.edge.toNat f.frac.toNat ≤ 2048 → Gives (.sapFrameReceive p f) s (fun t =>
      (t.c.sapx p).next = ((s.c.sapx p).next + 1) % 2 ^ 32 ∧ (t.c.sapx p).frames = (s.c.sapx p).frames + 1 ∧
      t.c.rd (Sap.phi.on p) = ofSigned 16 (framePhi (s.c.sapx p).next f.edge.toNat f.frac.toNat) ∧
      t.c.rd (Sap.slipCnt.on p) = s.c.rd (Sap.slipCnt.on p) ∧ t.c.rd (Sap.state.on p) = 3 ∧
      t.c.rd (Sap.lineCnt.on p) = (if f.lineErr then satInc 32 (s.c.rd (Sap.lineCnt.on p)) else s.c.rd (Sap.lineCnt.on p)) ∧
      Within [sapPage p] s t)) ∧
    (s.Runs → s.c.rd (Sap.state.on p) = 3 → f.spacing = true → s.c.on (Sap.async.on p) = false →
      ((s.c.rd (Sap.mode.on p) = 1 ∨ s.c.rd (Sap.mode.on p) = 2) ∧ s.c.on (Sap.master.on p) = true) →
      Gives (.sapFrameReceive p f) s (fun t =>
      (t.c.sapx p).next = (f.edge.toNat + 1) % 2 ^ 32 ∧ t.c.rd (Sap.slipCnt.on p) = s.c.rd (Sap.slipCnt.on p) ∧
      t.c.rd (Sap.phi.on p) = ofSigned 16 (framePhi f.edge.toNat f.edge.toNat f.frac.toNat) ∧ Within [sapPage p] s t)) ∧
    (s.Runs → s.c.rd (Sap.state.on p) = 3 → f.spacing = true → s.c.on (Sap.async.on p) = false →
      (¬ ((s.c.rd (Sap.mode.on p) = 1 ∨ s.c.rd (Sap.mode.on p) = 2) ∧ s.c.on (Sap.master.on p) = true)) →
      (framePhi (s.c.sapx p).next f.edge.toNat f.frac.toNat < -128 ∨ 2048 < framePhi (s.c.sapx p).next f.edge.toNat f.frac.toNat) →
      Gives (.sapFrameReceive p f) s (fun t =>
      (t.c.sapx p).next = (entryStamp f.edge.toNat f.frac.toNat + 1) % 2 ^ 32 ∧
      t.c.rd (Sap.slipCnt.on p) = satInc 32 (s.c.rd (Sap.slipCnt.on p)) ∧ bit (t.c.stickyWord (sapPage p)) 1 = true ∧
      Within [sapPage p] s t)) ∧
    (s.Runs → s.c.rd (Sap.state.on p) = 3 → f.spacing = true → s.c.on (Sap.async.on p) = false →
      (¬ ((s.c.rd (Sap.mode.on p) = 1 ∨ s.c.rd (Sap.mode.on p) = 2) ∧ s.c.on (Sap.master.on p) = true)) →
      framePhi (s.c.sapx p).next f.edge.toNat f.frac.toNat = 0 → (s.c.sapx p).txDue = true →
      stampAdd (s.c.sapx p).next (-1) % s.c.periodLen = 0 → Gives (.sapFrameReceive p f) s (fun t =>
      t.c.rd (Sap.maskGo.on p) = 0 ∧ bit (t.c.stickyWord (sapPage p)) 7 = true ∧
      (∀ i : Fin 2, t.c.rd ((Sap.txMask.nth i).on p).live = s.c.rd ((Sap.txMask.nth i).on p).pend) ∧ Within [sapPage p] s t))

/-- R181: an input sample of an asynchronous source gives an acquiring tracker its ratio and phase error. R183: a phase error within 1/16
sample locks it and counts it, no input holds it and lets its output ramp out (sticky bit 0), a rate out of tolerance sends it to `RANGE`
(sticky bit 1), and back in tolerance to `ACQUIRE`. R184: a commit of the channel table stands until the boundary. -/
def Obligations.Trackers : Prop :=
  ∀ (s : State) (k : Fin 64),
    (∀ (ratio phase pherr : BitVec 32), s.Runs → s.c.rd (Asrc.tState.nth k) = 1 → s.c.isStandby = false →
      s.c.trkSource k = true → Gives (.trackerInput k ratio phase pherr) s (fun t =>
      t.c.rd (Asrc.tRatio.nth k) = ratio.toNat ∧ t.c.rd (Asrc.tPherr.nth k) = ofSigned 16 (clampI (-32768) 32767 pherr.toInt) ∧
      (t.c.trkx k).phase = phase.toInt ∧ (t.c.trkx k).ratio = ratio.toNat ∧ t.c.rd (Asrc.tState.nth k) = 1 ∧
      Confined [Asrc.tRatio.nth k, Asrc.tPherr.nth k] [] s t)) ∧
    (s.Runs → s.c.rd (Asrc.tState.nth k) = 1 → (s.c.trkx k).pherr.natAbs ≤ 256 → Gives (.trackerLock k) s (fun t =>
      t.c.rd (Asrc.tState.nth k) = 2 ∧ t.c.rd Asrc.nLocked = satInc 7 (s.c.rd Asrc.nLocked) ∧
      Confined [Asrc.tState.nth k, Asrc.nLocked] [] s t)) ∧
    (s.Runs → s.c.rd (Asrc.tState.nth k) = 2 → Gives (.trackerHold k) s (fun t =>
      t.c.rd (Asrc.tState.nth k) = 3 ∧ t.c.rd Asrc.nLocked = s.c.rd Asrc.nLocked - 1 ∧ (t.c.trkx k).fall = true ∧
      bit (t.c.stickyWord asrcPage) 0 = true ∧ Confined [Asrc.tState.nth k, Asrc.nLocked] [asrcPage] s t)) ∧
    (s.Runs → 1 ≤ s.c.rd (Asrc.tState.nth k) → s.c.rd (Asrc.tState.nth k) ≤ 3 → s.c.trkInRange k = false →
      Gives (.trackerRange k) s (fun t =>
      t.c.rd (Asrc.tState.nth k) = 4 ∧ bit (t.c.stickyWord asrcPage) 1 = true ∧
      t.c.rd Asrc.nLocked = (if s.c.rd (Asrc.tState.nth k) = 2 then s.c.rd Asrc.nLocked - 1 else s.c.rd Asrc.nLocked) ∧
      Confined [Asrc.tState.nth k, Asrc.nLocked] [asrcPage] s t)) ∧
    (s.Runs → s.c.rd (Asrc.tState.nth k) = 4 → s.c.trkInRange k = true →
      Gives (.trackerRangeClear k) s (fun t => t.c.rd (Asrc.tState.nth k) = 1 ∧ Confined [Asrc.tState.nth k] [] s t)) ∧
    (∀ (m : Master), s.Allows m 0 asrcPage 0x40 0 true →
      Gives (.asrcCommit m) s (fun t => t.c.rd Asrc.go = 1 ∧ Confined [Asrc.go] [] s t))

/-- R191: a sample of a good packet of a synchronous flow is stored in its ring under its stamp; R190: a malformed packet stores nothing
and sets sticky bit 7. R192: a transmit descriptor with an RTP queue whose samples are complete sends a packet and moves on by its
samples. R196: a commit shows code 1; a rejected one code 4 with reason and index (sticky bit 1), an accepted one waits with code 2 while
periods run, else the shadows go live together with code 3 (sticky bit 0). -/
def Obligations.AudioFlowsAndMaps : Prop :=
  ∀ (s : State),
    (∀ (d : Fin 512) (seq frac : BitVec 16) (stamp x edge : BitVec 32) (nonPcm : Bool), s.Runs →
      s.c.on (Amap.rEn.nth d).live = true → s.c.on (Amap.rBEn.nth d).live = false →
      s.c.on (Flowq.fEn.nth (s.c.rd (Amap.rFlowA.nth d).live)).live = true →
      s.c.rd (Flowq.fUse.nth (s.c.rd (Amap.rFlowA.nth d).live)).live = 3 → s.c.on (Amap.rAsync.nth d).live = false →
      s.c.rd (Amap.rRate.nth d).live ≠ 2 → s.c.rd (Amap.rNch.nth d).live = 1 → s.c.aud.closed = none →
      stampDiff stamp.toNat s.c.aud.m + 1 + s.c.groupDelay 4 d < 8192 - s.c.periodLen - s.c.groupDelay 4 d →
      Gives (.audioPacketReceive d false ⟨seq, stamp, [[x]], false, nonPcm, edge, frac⟩) s (fun t =>
      ringGet (t.c.ring 4 (64 * d)) stamp.toNat = some ⟨stamp.toNat, flowSample (s.c.rd (Amap.rFmt.nth d).live) x.toNat, nonPcm⟩ ∧
      Confined [] [] s t)) ∧
    (∀ (d : Fin 512) (pathB : Bool) (k : AudioPacket), s.Runs → s.c.on (Amap.rEn.nth d).live = true →
      (pathB = true → s.c.on (Amap.rBEn.nth d).live = true) →
      s.c.on (Flowq.fEn.nth (s.c.rd (if pathB then Amap.rFlowB.nth d else Amap.rFlowA.nth d).live)).live = true →
      s.c.rd (Flowq.fUse.nth (s.c.rd (if pathB then Amap.rFlowB.nth d else Amap.rFlowA.nth d).live)).live = 3 →
      k.left = true → Gives (.audioPacketReceive d pathB k) s (fun t =>
      t.c.aud.rings = s.c.aud.rings ∧ bit (t.c.stickyWord amapPage) 7 = true ∧ Confined [] [amapPage] s t)) ∧
    (∀ (d : Fin 512) (first : Nat), s.Runs → s.c.on (Amap.tEn.nth d).live = true →
      s.c.rd (Flowq.qKind.nth (s.c.rd (Amap.tQueue.nth d).live)) = 1 → Store.get none s.c.aud.txNext d = some first →
      0 ≤ stampDiff s.c.amc ((first + s.c.rd (Amap.tSpp.nth d).live) % 2 ^ 32) → Gives (.audioPacketQueue d) s (fun t =>
      t.c.rd (Amap.tSent.nth d) = (s.c.rd (Amap.tSent.nth d) + 1) % 2 ^ 32 ∧
      Store.get none t.c.aud.txNext d = some ((first + s.c.rd (Amap.tSpp.nth d).live) % 2 ^ 32) ∧
      (∀ k : Fin 512, k ≠ d → t.c.rd (Amap.tSent.nth k) = s.c.rd (Amap.tSent.nth k)) ∧ Within [amapPage, flowqPage] s t)) ∧
    (∀ (m : Master), s.Allows m 0 amapPage 0x40 0 true → s.c.on Amap.go = false → Gives (.amapCommit m) s (fun t =>
      t.c.rd Amap.go = 1 ∧ t.c.rd Amap.code = 1 ∧ t.c.rd Amap.reason = 0 ∧ t.c.rd Amap.index = 0 ∧
      Confined [Amap.go, Amap.code, Amap.reason, Amap.index] [] s t)) ∧
    (s.Runs → s.c.rd Amap.code = 1 → s.c.validateAmap = none → s.c.ticking = true →
      Gives .amapValidationDone s (fun t => t.c.rd Amap.code = 2 ∧ Confined [Amap.code] [] s t)) ∧
    (s.Runs → s.c.rd Amap.code = 1 → s.c.validateAmap = none → s.c.ticking = false → Gives .amapValidationDone s (fun t =>
      t.c.rd Amap.code = 3 ∧ t.c.rd Amap.go = 0 ∧ bit (t.c.stickyWord amapPage) 0 = true ∧
      (∀ i : Fin 4096, t.c.rd (Amap.intake.nth i).live = s.c.rd (Amap.intake.nth i)) ∧
      (∀ i : Fin 31, t.c.rd (Amap.gdelay.nth i).live = s.c.rd (Amap.gdelay.nth i)) ∧ Within [amapPage] s t)) ∧
    (∀ (reason index : Nat), s.Runs → s.c.rd Amap.code = 1 → s.c.validateAmap = some (reason, index) →
      Gives .amapValidationDone s (fun t =>
      t.c.rd Amap.code = 4 ∧ t.c.rd Amap.reason = reason % 16 ∧ t.c.rd Amap.index = index % 2 ^ 16 ∧ t.c.rd Amap.go = 0 ∧
      bit (t.c.stickyWord amapPage) 1 = true ∧ Confined [Amap.code, Amap.reason, Amap.index, Amap.go] [amapPage] s t))

/-! ## The mix engine (R204 to R224) -/

/-- R211, R214: on a stopped engine a gain write takes effect at once at its crosspoint and at no other; R218: with a batch open it is
staged and counted and the gain in force stays; R217: on a running engine a change that finds room is accepted for the boundary; R213: a
write that is not aligned to entries changes nothing but sticky bit 6. A withheld write is accepted when the engine has stopped. -/
def Obligations.GainWrites : Prop :=
  ∀ (s : State),
    (∀ (m : Master) (off : BitVec 25) (a b : BitVec 8), s.Allows m 1 mixPage 1048576 0 true → s.PortTakes m 0 true →
      s.c.bar2Off off.toNat = false → off.toNat % 2 = 0 → s.c.on Mix.batch = false → s.c.on Mix.run = false →
      Gives (.gainWrite m off [a, b]) s (fun t =>
      Store.get 0 t.c.mix.gain (off.toNat / 2) = a.toNat + 256 * b.toNat ∧
      Store.get 0 t.c.mix.applied (off.toNat / 2) = a.toNat + 256 * b.toNat ∧
      (∀ e : Nat, e ≠ off.toNat / 2 → Store.get 0 t.c.mix.gain e = Store.get 0 s.c.mix.gain e) ∧
      t.c.resp = .okay ∧ Confined clusterStates [] s t)) ∧
    (∀ (m : Master) (off : BitVec 25) (a b : BitVec 8), s.Allows m 1 mixPage 1048576 0 true → s.PortTakes m 0 true →
      s.c.bar2Off off.toNat = false → off.toNat % 2 = 0 → s.c.on Mix.batch = true → s.c.mix.count < 65536 →
      Gives (.gainWrite m off [a, b]) s (fun t =>
      t.c.mix.staged = (off.toNat / 2, a.toNat + 256 * b.toNat) :: s.c.mix.staged ∧ t.c.mix.gain = s.c.mix.gain ∧
      t.c.rd Mix.bCount = s.c.mix.count + 1 ∧ t.c.resp = .okay ∧ Confined (Mix.bCount :: clusterStates) [] s t)) ∧
    (∀ (m : Master) (off : BitVec 25) (a b : BitVec 8), s.Allows m 1 mixPage 1048576 0 true → s.PortTakes m 0 true →
      s.c.bar2Off off.toNat = false → off.toNat % 2 = 0 → s.c.on Mix.batch = false → s.c.on Mix.run = true →
      s.c.hasRoom [(off.toNat / 2, a.toNat + 256 * b.toNat)] = true →
      Store.get 0 s.c.mix.gain (off.toNat / 2) ≠ a.toNat + 256 * b.toNat → Gives (.gainWrite m off [a, b]) s (fun t =>
      Store.get 0 t.c.mix.gain (off.toNat / 2) = a.toNat + 256 * b.toNat ∧
      t.c.mix.accepted = s.c.mix.accepted ++ [(off.toNat / 2, a.toNat + 256 * b.toNat)] ∧ t.c.mix.applied = s.c.mix.applied ∧
      t.c.resp = .okay ∧ Confined clusterStates [] s t)) ∧
    (∀ (m : Master) (off : BitVec 25) (data : List (BitVec 8)), s.Allows m 1 mixPage 1048576 0 true → s.PortTakes m 0 true →
      s.c.bar2Off off.toNat = false → (off.toNat % 2 = 1 ∨ data.length % 2 = 1) → Gives (.gainWrite m off data) s (fun t =>
      t.c.mix = s.c.mix ∧ bit (t.c.stickyWord mixPage) 6 = true ∧ Confined [] [mixPage] s t)) ∧
    (∀ (m : Master) (off : BitVec 25) (a b : BitVec 8), s.Allows m 1 mixPage 1048576 0 true → s.PortTakes m 0 true →
      s.c.bar2Off off.toNat = false → off.toNat % 2 = 0 → s.c.on Mix.batch = false → s.c.on Mix.run = true →
      off.toNat / 2 < 16777216 → s.c.hasRoom [(off.toNat / 2, a.toNat + 256 * b.toNat)] = false →
      Store.get 0 s.c.mix.gain (off.toNat / 2) ≠ a.toNat + 256 * b.toNat → Gives (.gainWrite m off [a, b]) s (fun t =>
      t.c.mix.withheld = s.c.mix.withheld ++ [{ es := [(off.toNat / 2, a.toNat + 256 * b.toNat)], flight := some (masterNum m, 0)
        }] ∧ t.c.mix.gain = s.c.mix.gain ∧
      t.c.resp = .withheld ∧ t.c.inFlight = s.c.inFlight ++ [(masterNum m, 0)] ∧ Confined clusterStates [] s t)) ∧
    (∀ (w : Withheld) (rest : List Withheld), s.Runs → s.c.mix.withheld = w :: rest → s.c.on Mix.batch = false →
      s.c.on Mix.run = false → Gives .gainWriteAccept s (fun t =>
      t.c.mix.withheld = rest ∧
      t.c.mix.gain = (w.es.filter (fun p => p.1 < 16777216)).foldl (fun g p => Store.set 0 g p.1 p.2) s.c.mix.gain ∧
      Within [mixPage] s t))

/-- R218: a batch opens empty with code 1; a discard empties it with code 6; a commit on a running engine stands for the boundary with
code 2, one on a stopped engine takes effect at once with code 4 (sticky bit 2). R207, R208: a tile mixes once in a period, and the block
and the saturation of each of its outputs are those of the sum. -/
def Obligations.GainBatches : Prop :=
  ∀ (s : State),
    (∀ (m : Master), s.Allows m 0 mixPage 0x40 1 true → s.c.on Mix.commit = false → s.c.on Mix.batch = false →
      Gives (.batchOpen m) s (fun t =>
      t.c.rd Mix.batch = 1 ∧ t.c.rd Mix.bCode = 1 ∧ t.c.rd Mix.bReason = 0 ∧ t.c.rd Mix.bCount = 0 ∧ t.c.mix.staged = [] ∧
      Confined [Mix.batch, Mix.bCode, Mix.bReason, Mix.bCount] [] s t)) ∧
    (∀ (m : Master), s.Allows m 0 mixPage 0x40 1 true → s.c.on Mix.batch = true → s.c.mix.count ≤ 65536 →
      s.c.on Mix.run = true → Gives (.batchCommit m) s (fun t =>
      t.c.rd Mix.batch = 0 ∧ t.c.rd Mix.commit = 1 ∧ t.c.rd Mix.bCode = 2 ∧ t.c.mix.batch = batchEntries s.c.mix.staged ∧
      t.c.mix.gain = s.c.mix.gain ∧ Confined [Mix.batch, Mix.commit, Mix.bCode] [] s t)) ∧
    (∀ (m : Master), s.Allows m 0 mixPage 0x40 1 true → s.c.on Mix.batch = true → s.c.mix.count ≤ 65536 →
      s.c.on Mix.run = false → Gives (.batchCommit m) s (fun t =>
      t.c.rd Mix.batch = 0 ∧ t.c.rd Mix.bCode = 4 ∧ bit (t.c.stickyWord mixPage) 2 = true ∧
      t.c.mix.gain = (batchEntries s.c.mix.staged).foldl (fun g p => Store.set 0 g p.1 p.2) s.c.mix.gain ∧
      Confined [Mix.batch, Mix.commit, Mix.bCode] [mixPage] s t)) ∧
    (∀ (m : Master), s.Allows m 0 mixPage 0x40 2 true → s.c.on Mix.batch = true → Gives (.batchDiscard m) s (fun t =>
      t.c.rd Mix.batch = 0 ∧ t.c.rd Mix.bCode = 6 ∧ t.c.mix.staged = [] ∧ t.c.mix.gain = s.c.mix.gain ∧
      Confined [Mix.batch, Mix.bCode] [] s t)) ∧
    (∀ (i : Fin 64) (e : Fin 262144) (ecc : MemRead), s.Runs → s.c.on Mix.run = true → s.c.aud.isOpen = true →
      (s.c.tile i).ran = false → (ecc.syn.toNat % 256 = 0 ∨ oneBit (ecc.syn.toNat % 256) = true) →
      Gives (.mixTilePeriod i e ecc) s (fun t =>
      (t.c.tile i).ran = true ∧
      (∀ j : Fin 64, t.c.rd (Mix.sat.nth (64 * i + j)) = (if (s.c.mixBlock (64 * i + j) (s.c.tile i).ramps).2 then 1 else 0) ∧
        ((s.c.mixBlock (64 * i + j) (s.c.tile i).ramps).1.all (fun y => y = 0) = false →
          Store.get [] (t.c.tile i).mixed (64 * i + j) = (s.c.mixBlock (64 * i + j) (s.c.tile i).ramps).1)) ∧
      Confined (Mix.satCnt :: (List.range 64).map (fun j => Mix.sat.nth (64 * i + j))) [mixPage] s t))

/-! ## Nova cores (R225 to R260) -/

/-- R227: a core in `RUN` issues the bundle at PC, one in each step; a bundle of four zero words does nothing but pass on to the next
address; R229: a reserved encoding takes the core to `FAULT` with its code, its slot and PC, `RUN` reads 0 and sticky bit 7 is set; R250:
the bundle of `HALT` ends the period's work, the core waits for the next boundary and its step counts are those of the exchange section
and of the steps since. R419: an instruction word that cannot be corrected is fault code 7. -/
def Obligations.NovaBundles : Prop :=
  ∀ (s : State) (k : Fin 64),
    (∀ (im dm dm2 : MemRead), s.Runs → (im.syn.toNat % 256 = 0 ∨ oneBit (im.syn.toNat % 256) = true) → s.c.novaSt k = 4 →
      (s.c.nova k).poison = [] → (∀ j : Fin 4, (s.c.nova k).bundle (s.c.nova k).pc j = 0) → (s.c.nova k).br = none →
      (s.c.nova k).res = [] → (s.c.nova k).cv 4 = 0 → (s.c.nova k).cv 7 = 0 → (s.c.nova k).pc < 2047 →
      Gives (.novaBundleIssue k im dm dm2) s (fun t =>
      t.c.nova k = { s.c.nova k with pc := (s.c.nova k).pc + 1, t := (s.c.nova k).t + 1 } ∧ t.c.novaSt k = 4 ∧
      Confined [Nova.isr.on k, Nova.pc.on k, Nova.mbox.on k] [] s t)) ∧
    (∀ (code slot : Nat) (im dm dm2 : MemRead), s.Runs → (im.syn.toNat % 256 = 0 ∨ oneBit (im.syn.toNat % 256) = true) →
      s.c.novaSt k = 4 → (s.c.nova k).poison = [] → (s.c.nova k).pc < 2048 →
      reservedOf ((s.c.nova k).bundle (s.c.nova k).pc 0) ((s.c.nova k).bundle (s.c.nova k).pc 1) ((s.c.nova k).bundle (s.c.nova
        k).pc 2) ((s.c.nova k).bundle (s.c.nova k).pc 3) = some (code, slot) →
      Gives (.novaBundleIssue k im dm dm2) s (fun t =>
      t.c.novaSt k = 5 ∧ t.c.rd (Nova.run.on k) = 0 ∧ t.c.rd (Nova.fcode.on k) = code ∧ t.c.rd (Nova.fslot.on k) = slot ∧
      t.c.rd (Nova.fpc.on k) = (s.c.nova k).pc ∧ bit (t.c.stickyWord (novaPage k)) 7 = true ∧
      Within [novaPage k] s t)) ∧
    (∀ (im dm dm2 : MemRead), s.Runs → (im.syn.toNat % 256 = 0 ∨ oneBit (im.syn.toNat % 256) = true) → s.c.novaSt k = 4 →
      (s.c.nova k).poison = [] → (s.c.nova k).bundle (s.c.nova k).pc 0 = 0x40000000 →
      (∀ j : Fin 3, (s.c.nova k).bundle (s.c.nova k).pc (j + 1) = 0) → (s.c.nova k).br = none →
      bit ((s.c.nova k).cv 14) 1 = false → Gives (.novaBundleIssue k im dm dm2) s (fun t =>
      t.c.novaSt k = 2 ∧ t.c.rd (Nova.run.on k) = s.c.rd (Nova.run.on k) ∧ (t.c.nova k).res = [] ∧
      t.c.rd (Nova.stepsLast.on k) = (s.c.rd (Nova.exch.on k) + (s.c.nova k).t + 1) % 2 ^ 32 ∧
      Confined [Nova.state.on k, Nova.stepsLast.on k, Nova.stepsMax.on k, Nova.isr.on k, Nova.pc.on k, Nova.mbox.on k] [] s t)) ∧
    (∀ (im dm dm2 : MemRead), s.Runs → s.c.novaSt k = 4 → (s.c.nova k).pc < 2048 → im.syn.toNat % 256 ≠ 0 →
      oneBit (im.syn.toNat % 256) = false → Gives (.novaBundleIssue k im dm dm2) s (fun t =>
      t.c.novaSt k = 5 ∧ t.c.rd (Nova.fcode.on k) = 7 ∧ t.c.rd (Nova.fpc.on k) = (s.c.nova k).pc ∧
      bit (t.c.stickyWord (novaPage k)) 7 = true ∧ Within [novaPage k] s t))

/-- R252: writing `RUN` = 1 starts a halted core that passes the exchange check and is not named by an image, and leaves it halted with
sticky bit 6 where it does not pass; R247: writing 0 clears `RUN` and nothing else; R243: `CLR_FAULT` takes a core from `FAULT` to
`HALTED`; R253: a doorbell is stored and pending; R254: a parameter block is committed; R245: the exchange section ends in `RUN`; R249: a
handler that runs `IWIN` steps after its entry is counted once with sticky bit 4. -/
def Obligations.NovaCommands : Prop :=
  ∀ (s : State) (k : Fin 64),
    (∀ (m : Master), s.Allows m 0 (novaPage k) 0x40 1 true → s.c.novaSt k = 1 → s.c.novaBusy k = false →
      s.c.novaFits k = true → Gives (.novaRun m k) s (fun t =>
      t.c.rd (Nova.run.on k) = 1 ∧ t.c.novaSt k = 2 ∧ t.c.nova k = { s.c.nova k with first := true, lvl := {} } ∧
      Confined [Nova.run.on k, Nova.state.on k] [] s t)) ∧
    (∀ (m : Master), s.Allows m 0 (novaPage k) 0x40 1 true → s.c.novaSt k = 1 → s.c.novaBusy k = false →
      s.c.novaFits k = false → Gives (.novaRun m k) s (fun t =>
      t.c.rd (Nova.run.on k) = 0 ∧ t.c.novaSt k = 1 ∧ t.c.nova k = s.c.nova k ∧ bit (t.c.stickyWord (novaPage k)) 6 = true ∧
      Confined [Nova.run.on k] [novaPage k] s t)) ∧
    (∀ (m : Master), s.Allows m 0 (novaPage k) 0x40 1 true → Gives (.novaStop m k) s (fun t =>
      t.c.rd (Nova.run.on k) = 0 ∧ t.c.novaSt k = s.c.novaSt k ∧ t.c.nova k = s.c.nova k ∧ Confined [Nova.run.on k] [] s t)) ∧
    (∀ (m : Master), s.Allows m 0 (novaPage k) 0x40 1 true → s.c.novaSt k = 5 →
      Gives (.novaClrFault m k) s (fun t => t.c.novaSt k = 1 ∧ t.c.nova k = s.c.nova k ∧ Confined [Nova.state.on k] [] s t)) ∧
    (∀ (m : Master) (v : BitVec 32), s.Allows m 0 (novaPage k) 0x68 1 true → Gives (.novaDoorbell m k v) s (fun t =>
      t.c.rd (Nova.dbell.on k) = v.toNat ∧ t.c.rd (Nova.dbPend.on k) = 1 ∧ Confined [Nova.dbell.on k, Nova.dbPend.on k] [] s t)) ∧
    (∀ (m : Master) (len : BitVec 7), s.Allows m 0 (novaPage k) 0x70 1 true → s.c.on (Nova.paramGo.on k) = false →
      Gives (.novaParamGo m k len) s (fun t =>
      t.c.rd (Nova.paramLen.on k) = len.toNat ∧ t.c.rd (Nova.paramGo.on k) = 1 ∧
      Confined [Nova.paramLen.on k, Nova.paramGo.on k] [] s t)) ∧
    (∀ (m : Master) (len : BitVec 7), s.Allows m 0 (novaPage k) 0x70 1 true → s.c.on (Nova.paramGo.on k) = true →
      Gives (.novaParamGo m k len) s (fun t => bit (t.c.stickyWord (novaPage k)) 8 = true ∧ Confined [] [novaPage k] s t)) ∧
    (s.Runs → s.c.novaSt k = 3 → Gives (.novaExchangeEnd k) s (fun t =>
      t.c.novaSt k = 4 ∧ (t.c.nova k).first = false ∧ (t.c.nova k).pc = (s.c.nova k).pc ∧
      ((s.c.nova k).first = true → bit (t.c.stickyWord (novaPage k)) 10 = true) ∧ Confined [Nova.state.on k] [novaPage k] s t)) ∧
    (∀ (t0 : Nat), s.Runs → s.c.novaSt k = 4 → (s.c.nova k).irqAt = some t0 → (s.c.nova k).irqHit = false →
      t0 + s.c.rd (Nova.iwin.on k) ≤ (s.c.nova k).t → Gives (.novaHandlerWindow k) s (fun t =>
      (t.c.nova k).irqHit = true ∧ t.c.rd (Nova.iwinCnt.on k) = satInc 32 (s.c.rd (Nova.iwinCnt.on k)) ∧
      bit (t.c.stickyWord (novaPage k)) 4 = true ∧ Confined [Nova.iwinCnt.on k] [novaPage k] s t))

/-- Of the core alone, for every state of its registers. R233, R237: a MAC of slot X reaches the accumulator that multiplies see one step
later and A two steps later; R230, R231: a load with post-modify brings the word at the pointer three steps later and moves the pointer
after one; R235: a comparison sends Z, N, C and V; R241: the last bundle of a loop with more than one pass left goes back to its start. -/
def Obligations.NovaSlots : Prop :=
  ∀ (x : NCore) (t : Nat),
    (∀ (a s1 s2 : Fin 16), a.val < 4 → x.xSlot t (0x84000000 + 4194304 * a + 262144 * s1 + 16384 * s2) =
      ([⟨t + 1, 1, 28 + a, acc80 (Store.get 0 x.am a + x.gs s1 * x.gs s2)⟩,
        ⟨t + 2, 1, 24 + a, acc80 (Store.get 0 x.am a + x.gs s1 * x.gs s2)⟩], false)) ∧
    (∀ (r p : Fin 16) (d : Fin 65536), p.val < 6 → (x.mSlot t (0x40000000 + 16777216 * r + 2097152 * p + d)).res =
        [⟨t + 3, 0, r, x.mv (x.pv p)⟩, ⟨t + 1, 2, 16 + p, ofSigned 15 ((x.pv p : Int) + toSigned 16 d)⟩] ∧
      (x.mSlot t (0x40000000 + 16777216 * r + 2097152 * p + d)).x = x) ∧
    (∀ (s1 s2 : Fin 16),
      x.xSlot t (0x54000000 + 262144 * s1 + 16384 * s2) = ([⟨t + 1, 2, 64, cmpFlags (x.gv s1) (x.gv s2)⟩], false)) ∧
    (x.cv 7 = 0 → 2 ≤ x.cv 4 → x.pc = x.cv 6 → x.loopEnd x.pc = (x.setCr 4 (x.cv 4 - 1), x.cv 5))

/-! ## Schedules and the governor (R261 to R288) -/

/-- R277: `GO` begins a validation with code 1; an image that breaks no rule is pending with code 2 while the period clock runs, and is
applied at once with code 3 where no boundary is to come; one that breaks a rule is refused with code 4, its first reason and its section,
sticky bit 8, and nothing of it takes effect. -/
def Obligations.Schedules : Prop :=
  ∀ (s : State),
    (∀ (m : Master), s.Allows m 0 schedPage 0x48 0 true → s.c.on Sched.loadGo = false → Gives (.schedLoad m) s (fun t =>
      t.c.rd Sched.loadGo = 1 ∧ t.c.rd Sched.code = 1 ∧ t.c.rd Sched.reason = 0 ∧ t.c.rd Sched.section_ = 0 ∧ Confined [] [] s t)) ∧
    (s.Runs → s.c.rd Sched.code = 1 → s.c.imageJudged = false → s.c.isStandby = false → s.c.mirrors = false →
      s.c.validateImage s.mem = (0, 0) → s.c.ticking = true →
      Gives .imageValidationDone s (fun t => t.c.rd Sched.code = 2 ∧ t.c.sch = s.c.sch ∧ Confined [] [] s t)) ∧
    (s.Runs → s.c.rd Sched.code = 1 → s.c.imageJudged = false → s.c.isStandby = false → s.c.mirrors = false →
      s.c.validateImage s.mem = (0, 0) → s.c.ticking = false → Gives .imageValidationDone s (fun t =>
      t.c.rd Sched.code = 3 ∧ t.c.rd Sched.imgId = imgWord (s.c.imageMem s.mem) 12 ∧ t.c.rd Sched.loadGo = 0 ∧
      bit (t.c.stickyWord schedPage) 9 = true ∧ Within periodPages s t)) ∧
    (s.Runs → s.c.rd Sched.code = 1 → s.c.imageJudged = false → s.c.isStandby = false → s.c.mirrors = false →
      (s.c.validateImage s.mem).1 ≠ 0 → Gives .imageValidationDone s (fun t =>
      t.c.rd Sched.code = 4 ∧ t.c.rd Sched.reason = (s.c.validateImage s.mem).1 % 16 ∧
      t.c.rd Sched.section_ = (s.c.validateImage s.mem).2 % 512 ∧ t.c.rd Sched.loadGo = 0 ∧
      bit (t.c.stickyWord schedPage) 8 = true ∧ Confined [] [schedPage] s t))

/-- R262, R267: a monitor's window is kept; one below 14,000 steps clears `FLOOR_OK` and stops ALIVE, one out of the conditions clears
`COND_OK`; R266: below the target the governor raises the voltage by 5 mV up to its limit; R265: a voltage read is shown, a failed frame
is repeated once and a second failure ends the bus; R280: a unit's slack is kept where it is the lowest; R281, R282: a missed deadline
counts with its class, its unit, its cause and the level entered. A core's and a mix tile's steps are those of R227 and R207, an output's
or a composer's those of the command. -/
def Obligations.Governor : Prop :=
  ∀ (s : State),
    (∀ (k : Fin 64) (steps : BitVec 16) (mv tj : BitVec 10), s.Runs → s.c.mer.stopped = false → 14000 ≤ steps.toNat →
      720 ≤ mv.toNat → tj.toInt ≤ 110 → Gives (.stepMonitorWindow k steps mv tj) s (fun t =>
      Store.get 0 t.c.sch.wins k = steps.toNat ∧ t.c.rd Sched.condOk = 1 ∧ t.c.rd Sched.vsense = mv.toNat ∧ t.c.rdS Sched.tj = tj.toInt ∧
      Confined [] [] s t)) ∧
    (∀ (k : Fin 64) (steps : BitVec 16) (mv tj : BitVec 10), s.Runs → s.c.mer.stopped = false →
      (mv.toNat < 720 ∨ 110 < tj.toInt) → Gives (.stepMonitorWindow k steps mv tj) s (fun t =>
      t.c.rd Sched.condOk = 0 ∧ bit (t.c.stickyWord schedPage) 5 = true ∧ Confined [] [schedPage] s t)) ∧
    (∀ (k : Fin 64) (steps : BitVec 16) (mv tj : BitVec 10), s.Runs → s.c.mer.stopped = false → steps.toNat < 14000 →
      Gives (.stepMonitorWindow k steps mv tj) s (fun t =>
      Store.get 0 t.c.sch.wins k = steps.toNat ∧ t.c.rd Sched.floorOk = 0 ∧ bit (t.c.stickyWord schedPage) 2 = true ∧
      bit (t.c.frd Fcu.stop) 2 = true ∧ Confined [] [schedPage] s t)) ∧
    (s.Runs → s.c.on Sched.govEn = true → s.c.rd Sched.avs ≠ 3 → s.c.sch.busy = false → s.c.sch.low = none →
      s.c.presentLow.1 + s.c.rd Sched.govHyst < max (s.c.rd Sched.govTarget) 1450 → 720 ≤ s.c.rd Sched.vset →
      s.c.vmin ≤ s.c.rd Sched.vset → s.c.rd Sched.vset < s.c.vmax → Gives .governorInterval s (fun t =>
      t.c.rd Sched.vset = min s.c.vmax (s.c.rd Sched.vset + 5) ∧ t.c.rd Sched.rateMin = s.c.presentLow.1 ∧
      t.c.sch.busy = true ∧ Out.avs (s.c.rd Sched.avsRail) (min s.c.vmax (s.c.rd Sched.vset + 5)) ∈ t.c.out ∧ Confined [] [] s t)) ∧
    (∀ (value : BitVec 10), s.Runs → Gives (.avsFrameDone 1 true value) s (fun t =>
      t.c.rd Sched.vread = value.toNat ∧ t.c.rd Sched.avs = 1 ∧ t.c.sch.repeating = false ∧ Confined [] [] s t)) ∧
    (∀ (frame : Fin 3) (value : BitVec 10), s.Runs → s.c.sch.repeating = true →
      Gives (.avsFrameDone frame false value) s (fun t =>
      t.c.rd Sched.avs = 3 ∧ t.c.sch.repeating = false ∧ bit (t.c.stickyWord schedPage) 4 = true ∧ Confined [] [schedPage] s t)) ∧
    (∀ (cls : Fin 4) (unit : Fin 1152) (steps : BitVec 32) (slack : BitVec 10), s.Runs → (cls.val < 3 → unit.val < 64) →
      s.c.unitWorks cls unit = true → (cls.val = 0 → s.c.novaSt unit = 2) → (cls.val = 1 → (s.c.tile unit).ran = true) →
      s.c.unitSteps cls unit steps.toNat ≤ s.c.unitBudget cls unit → slack.toNat < s.c.rd (Sched.slackMin.nth cls) →
      Gives (.unitDeadline cls unit steps (some slack)) s (fun t =>
      t.c.rd (Sched.slackMin.nth cls) = slack.toNat ∧ t.c.rd (Sched.slackUnit.nth cls) = unit.val ∧
      t.c.rd Sched.ovrCnt = s.c.rd Sched.ovrCnt ∧ Confined [] [schedPage] s t)) ∧
    (∀ (cls : Fin 4) (unit : Fin 1152) (steps : BitVec 32) (slack : Option (BitVec 10)), s.Runs →
      (cls.val < 3 → unit.val < 64) → s.c.unitWorks cls unit = true → (cls.val = 0 → s.c.novaSt unit ≠ 2) →
      (cls.val ≠ 0 → slack = none) → Gives (.unitDeadline cls unit steps slack) s (fun t =>
      t.c.rd Sched.ovrCnt = satInc 32 (s.c.rd Sched.ovrCnt) ∧ t.c.rd Sched.ovrClass = cls.val ∧ t.c.rd Sched.ovrUnit = unit.val ∧
      t.c.rd Sched.ovrCause = s.c.overrunCause cls unit (s.c.unitSteps cls unit steps.toNat) ∧
      t.c.rd Sched.ovrLevel = s.c.overrunLevel cls unit ∧ bit (t.c.stickyWord schedPage) 0 = true ∧ Confined [] [schedPage] s t))

/-! ## The packet blocks (R289 to R316) -/

/-- R293: a frame with a decoding error is counted as bad with sticky bit 2; R294: a good frame that no flow entry takes and whose class
is not enabled in the exception ring is counted as unmatched; R295: a packet that a flow entry matches is counted at that entry and goes
to the entry's consumers with its UDP payload. -/
def Obligations.FrameReception : Prop :=
  ∀ (s : State) (k : Fin 32),
    (∀ (frame : List (BitVec 8)), s.Runs → s.c.linkUp k = true → s.c.on (Eth.badMode.on (k.val / 4)) = false →
      Gives (.ethFrameReceive k frame true false) s (fun t =>
      t.c.rd (onLink Eth.badCnt k) = satInc 32 (s.c.rd (onLink Eth.badCnt k)) ∧ bit (t.c.stickyWord (ethPage (k.val / 4))) 2 = true ∧
      Confined [onLink Eth.badCnt k] [ethPage (k.val / 4)] s t)) ∧
    (∀ (body : List (BitVec 8)), s.Runs → s.c.linkUp k = true → 60 ≤ body.length →
      body.length + 4 ≤ clampN 64 9216 (s.c.rd (Eth.maxLen.on (k.val / 4))) →
      (etherHeader (body.map BitVec.toNat)).1 ≠ 0x8808 → (etherHeader (body.map BitVec.toNat)).1 ≠ 0x88F7 →
      (etherHeader (body.map BitVec.toNat)).1 ≠ 0x0806 → (etherHeader (body.map BitVec.toNat)).1 ≠ 0x0800 →
      bit (s.c.rd (Eth.excClass.on (k.val / 4))) 4 = false →
      Gives (.ethFrameReceive k ((withFcs (body.map BitVec.toNat)).map (BitVec.ofNat 8)) false false) s (fun t =>
      t.c.rd (Eth.unmatched.on (k.val / 4)) = satInc 32 (s.c.rd (Eth.unmatched.on (k.val / 4))) ∧
      Confined [Eth.unmatched.on (k.val / 4)] [ethPage (k.val / 4)] s t)) ∧
    (∀ (body : List (BitVec 8)) (e : Fin 16384), s.Runs → s.c.linkUp k = true → 60 ≤ body.length →
      body.length + 4 ≤ clampN 64 9216 (s.c.rd (Eth.maxLen.on (k.val / 4))) →
      (etherHeader (body.map BitVec.toNat)).1 = 0x0800 → (etherHeader (body.map BitVec.toNat)).2.2 = 14 →
      isPtp 0x0800 ((body.map BitVec.toNat).drop 14) = false → isFlowUdp 0x0800 ((body.map BitVec.toNat).drop 14) = true →
      (s.c.listed Flowq.fEn.live).find? (fun e => s.c.flowMatches k e none ((body.map BitVec.toNat).drop 14)) = some e.val →
      s.c.flowDiscards e ((body.map BitVec.toNat).drop 14) (((body.map BitVec.toNat).drop 34).take (beNat (((body.map
        BitVec.toNat).drop 38).take 2))) = false →
      s.c.rd (Flowq.fUse.nth e).live ≠ 4 →
      Gives (.ethFrameReceive k ((withFcs (body.map BitVec.toNat)).map (BitVec.ofNat 8)) false false) s (fun t =>
      t.c.rd (Flowq.fPkts.nth e) = (s.c.rd (Flowq.fPkts.nth e) + 1) % 2 ^ 32 ∧
      Out.flow e (Stc.ofTotal (s.c.stc.total - s.c.rdS (onLink Eth.rxLat k))) ((((body.map BitVec.toNat).drop 34).take (beNat
        (((body.map BitVec.toNat).drop 38).take 2))).drop 8) ∈ t.c.out ∧
      Within [ethPage (k.val / 4), flowqPage, crcuPage] s t))

/-- R292: a link that comes up reads `UP` with sticky bit 8, one that goes down reads down with sticky bit 0 and its queues discard all
they hold; R320: one that is aligned and held down by a fault reads `LOCK` = 1; R296: a write to word 0 of a flow entry applies words 0 to
3, or is refused with its code and nothing changes; R299: a queue with a valid template and link is enabled, and a disabled one loses its
descriptors. -/
def Obligations.LinksAndFlows : Prop :=
  ∀ (s : State),
    (∀ (k : Fin 32), s.Runs → s.c.enabled (ethPage (k.val / 4)) = true → s.c.linkExists k = true → s.c.linkUp k = false →
      Gives (.ethLinkUp k false) s (fun t =>
      t.c.linkUp k = true ∧ t.c.rd (onLink Eth.lLock k) = 1 ∧ bit (t.c.rd (Eth.up.on (k.val / 4))) (k.val % 4) = true ∧
      bit (t.c.stickyWord (ethPage (k.val / 4))) 8 = true ∧
      Within (ethPage (k.val / 4) :: lossPages) s t)) ∧
    (∀ (k : Fin 32), s.Runs → s.c.enabled (ethPage (k.val / 4)) = true → s.c.linkExists k = true → s.c.linkUp k = false →
      Gives (.ethLinkUp k true) s (fun t =>
      t.c.linkUp k = false ∧ t.c.rd (onLink Eth.lLock k) = 1 ∧ Confined [onLink Eth.lLock k] [] s t)) ∧
    (∀ (k : Fin 32) (aligned : Bool), s.Runs → s.c.linkUp k = true → Gives (.ethLinkDown k aligned) s (fun t =>
      t.c.rd (onLink Eth.lLock k) = (if aligned && s.c.enabled (ethPage (k.val / 4)) && s.c.linkExists k then 1 else 0) ∧
      t.c.linkUp k = false ∧ t.c.ethLink k = {} ∧ bit (t.c.stickyWord (ethPage (k.val / 4))) 0 = true ∧
      (∀ q ∈ s.c.listed Flowq.qEn, s.c.rd (Flowq.qLink.nth q) = k → (t.c.mediaQ q).descs = []) ∧
      Within (ethPage (k.val / 4) :: flowqPage :: lossPages) s t)) ∧
    (∀ (m : Master) (e : Fin 16384) (w0 : BitVec 32), s.Allows m 1 flowqPage (8 * e) 1 true → bits w0.toNat 22 20 < 5 →
      (bits w0.toNat 22 20 = 0 → bits w0.toNat 25 23 = 0) → s.c.linkExists (bits w0.toNat 5 1) = true →
      Gives (.flowEntryWrite m e w0) s (fun t =>
      t.c.rd (Flowq.fEn.nth e).live = w0.toNat % 2 ∧ t.c.rd (Flowq.fLink.nth e).live = bits w0.toNat 5 1 ∧
      t.c.rd (Flowq.fUse.nth e).live = bits w0.toNat 22 20 ∧ t.c.rd (Flowq.fVid.nth e).live = bits w0.toNat 18 7 ∧
      t.c.rd (Flowq.fDstIp.nth e).live = s.c.rd (Flowq.fDstIp.nth e) ∧
      t.c.rd (Flowq.fDstPort.nth e).live = s.c.rd (Flowq.fDstPort.nth e) ∧
      Confined (Flowq.nFlows :: Flowq.nQueues :: flowConfig e ++ (flowConfig e).map Fld.live) [] s t)) ∧
    (∀ (m : Master) (e : Fin 16384) (w0 : BitVec 32), s.Allows m 1 flowqPage (8 * e) 1 true → 5 ≤ bits w0.toNat 22 20 →
      Gives (.flowEntryWrite m e w0) s (fun t =>
      t.c.rd Flowq.refIndex = e.val ∧ t.c.rd Flowq.refCode = 1 ∧ t.c.rd Flowq.refValid = 1 ∧
      bit (t.c.stickyWord flowqPage) 0 = true ∧ Confined [Flowq.refIndex, Flowq.refCode, Flowq.refValid] [flowqPage] s t)) ∧
    (∀ (m : Master) (q : Fin 16376) (w0 : BitVec 32), s.Allows m 1 flowqPage (131072 + 4 * q) 1 true →
      s.c.on (Flowq.qEn.nth q) = false → bits w0.toNat 7 6 < 2 → (bits w0.toNat 22 16 = 54 ∨ bits w0.toNat 22 16 = 58) →
      templateOk ((s.c.wr (Flowq.qHdrLen.nth q) (bits w0.toNat 22 16)).templateBytes q) = true →
      s.c.linkExists (bits w0.toNat 5 1) = true → Gives (.queueEnable m q w0) s (fun t =>
      t.c.rd (Flowq.qEn.nth q) = 1 ∧ t.c.rd (Flowq.qLink.nth q) = bits w0.toNat 5 1 ∧ t.c.rd (Flowq.qKind.nth q) = bits w0.toNat 7 6 ∧
      t.c.rd (Flowq.qDepth.nth q) = bits w0.toNat 12 10 ∧ t.c.rd (Flowq.qHdrLen.nth q) = bits w0.toNat 22 16 ∧
      t.c.pkt = s.c.pkt ∧ Confined (Flowq.nFlows :: Flowq.nQueues :: queueConfig q) [] s t)) ∧
    (∀ (m : Master) (q : Fin 16376) (w0 : BitVec 32), s.Allows m 1 flowqPage (131072 + 4 * q) 1 true →
      Gives (.queueDisable m q w0) s (fun t =>
      t.c.rd (Flowq.qEn.nth q) = 0 ∧ (t.c.mediaQ q).descs = [] ∧ t.c.rd (Flowq.qFill.nth q) = 0 ∧
      (∀ p : Nat, p ≠ q.val → (t.c.mediaQ p) = s.c.mediaQ p) ∧
      Confined (Flowq.nFlows :: Flowq.nQueues :: Flowq.qFill.nth q :: queueConfig q) [] s t))

/-- R299, R301: a descriptor of the output that feeds the queue takes the next sequence number and joins a queue of a link that is up and
has room, and is dropped with sticky bit 2 where it has none; a queue that no gathered line feeds gets none (R99, R116). An expired head
is dropped and counted with sticky bit 3; R303: a calendar that waits takes over at an alignment event; R304: an entry sends the head
frame of its queue, R14: or the frame before again where the block is late, and discards one that is longer than its slot with sticky bit
4; R307: an entry that waits too long forfeits its slot. -/
def Obligations.Queues : Prop :=
  ∀ (s : State),
    (∀ (o : Nat) (q : Fin 16376) (stamp : BitVec 32) (marker : Bool) (kind : PayloadKind) (payload : List (BitVec 8)),
      s.Runs → s.c.producer q = some o → s.c.on (Flowq.qEn.nth q) = true → (s.c.mediaQ q).descs.length < s.c.queueSize q →
      s.c.linkUp (s.c.rd (Flowq.qLink.nth q)) = true → Gives (.descriptorEnqueue q stamp marker kind payload) s (fun t =>
      t.c.outs = (s.c.packetTaken o (payload.map BitVec.toNat)).outs ∧
      (t.c.mediaQ q).descs = (s.c.mediaQ q).descs ++ [⟨s.c.rd (Flowq.qSeq.nth q), stamp.toNat, marker,
        payloadHeader kind (s.c.rd (Xpt.airFmt.nth o)) (s.c.mediaQ q).frames (s.c.rd (Flowq.qSeq.nth q)) ++ payload.map BitVec.toNat⟩] ∧
      t.c.rd (Flowq.qSeq.nth q) = (s.c.rd (Flowq.qSeq.nth q) + 1) % 2 ^ 32 ∧
      Confined [Flowq.qSeq.nth q, Flowq.qFill.nth q] [] s t)) ∧
    (∀ (o : Nat) (q : Fin 16376) (stamp : BitVec 32) (marker : Bool) (kind : PayloadKind) (payload : List (BitVec 8)),
      s.Runs → s.c.producer q = some o → s.c.on (Flowq.qEn.nth q) = true → s.c.queueSize q ≤ (s.c.mediaQ q).descs.length →
      Gives (.descriptorEnqueue q stamp marker kind payload) s (fun t =>
      (t.c.mediaQ q).descs = (s.c.mediaQ q).descs ∧ t.c.rd (Flowq.qSeq.nth q) = (s.c.rd (Flowq.qSeq.nth q) + 1) % 2 ^ 32 ∧
      t.c.rd (Flowq.qDrops.nth q) = satInc 16 (s.c.rd (Flowq.qDrops.nth q)) ∧ bit (t.c.stickyWord flowqPage) 2 = true ∧
      Confined [Flowq.qSeq.nth q, Flowq.qDrops.nth q] [flowqPage] s t)) ∧
    (∀ (q : Fin 16376) (stamp : BitVec 32) (marker : Bool) (kind : PayloadKind) (payload : List (BitVec 8)), s.Runs →
      s.c.producer q = none →
      Gives (.descriptorEnqueue q stamp marker kind payload) s (fun t => t.c.pkt = s.c.pkt ∧ t.c.outs = s.c.outs ∧ Confined [] [] s t)) ∧
    (∀ (q : Fin 16376) (d : Desc) (r : List Desc), s.Runs → (s.c.mediaQ q).descs = d :: r →
      Gives (.descriptorExpire q) s (fun t =>
      (t.c.mediaQ q).descs = r ∧ t.c.rd (Flowq.qDrops.nth q) = satInc 16 (s.c.rd (Flowq.qDrops.nth q)) ∧
      bit (t.c.stickyWord flowqPage) 3 = true ∧ Confined [Flowq.qDrops.nth q, Flowq.qFill.nth q] [flowqPage] s t)) ∧
    (∀ (n : Fin 8), s.Runs → Store.get [] s.c.sch.calWaits n ≠ [] → Gives (.calendarCycleStart n true) s (fun t =>
      (t.c.ethPort n).cal = (Store.get [] s.c.sch.calWaits n).drop 1 ∧ Store.get [] t.c.sch.calWaits n = [] ∧ t.c.rd (Eth.calRun.on n) = 1 ∧
      t.c.rd (Eth.calStop.on n) = 0 ∧ Confined [Eth.calRun.on n, Eth.calStop.on n] [] s t)) ∧
    (∀ (n : Fin 8) (j : Fin 16384) (q : Fin 16376) (d : Desc) (r : List Desc), s.Runs → s.c.on (Eth.calRun.on n) = true →
      j.val < (s.c.ethPort n).cal.headD 0 % 65536 → (s.c.ethPort n).cal.getD (3 + 2 * j) 0 % 16384 = q →
      s.c.on (Flowq.qEn.nth q) = true → s.c.rd (Flowq.qLink.nth q) / 4 = n →
      s.c.linkUp (s.c.rd (Flowq.qLink.nth q)) = true → (s.c.mediaQ q).descs = d :: r →
      s.c.frameLen q d ≤ (s.c.ethPort n).cal.getD (3 + 2 * j) 0 / 65536 →
      s.c.pausedFor (s.c.rd (Flowq.qLink.nth q)) (s.c.rd (Flowq.qPri.nth q)) = false → s.c.sendsActive = true →
      Gives (.calendarEntry n j false false) s (fun t =>
      (t.c.mediaQ q).descs = r ∧ t.c.rd (Flowq.qSent.nth q) = (s.c.rd (Flowq.qSent.nth q) + 1) % 2 ^ 32 ∧
      Out.ethFrame (s.c.rd (Flowq.qLink.nth q)) (withFcs (s.c.buildFrame q d)) ∈ t.c.out ∧
      Within [ethPage n, flowqPage, crcuPage] s t)) ∧
    (∀ (n : Fin 8) (j : Fin 16384) (q : Fin 16376) (d : Desc) (r : List Desc) (late : Bool), s.Runs →
      s.c.on (Eth.calRun.on n) = true → j.val < (s.c.ethPort n).cal.headD 0 % 65536 →
      (s.c.ethPort n).cal.getD (3 + 2 * j) 0 % 16384 = q → s.c.on (Flowq.qEn.nth q) = true →
      s.c.rd (Flowq.qLink.nth q) / 4 = n → s.c.linkUp (s.c.rd (Flowq.qLink.nth q)) = true → (s.c.mediaQ q).descs = d :: r →
      (s.c.ethPort n).cal.getD (3 + 2 * j) 0 / 65536 < s.c.frameLen q d → Gives (.calendarEntry n j false late) s (fun t =>
      (t.c.mediaQ q).descs = r ∧ t.c.rd (Flowq.qDrops.nth q) = satInc 16 (s.c.rd (Flowq.qDrops.nth q)) ∧
      bit (t.c.stickyWord flowqPage) 4 = true ∧ Confined [Flowq.qDrops.nth q, Flowq.qFill.nth q] [flowqPage] s t)) ∧
    (∀ (n : Fin 8) (j : Fin 16384) (q : Fin 16376) (d : Desc) (r : List Desc), s.Runs → s.c.on (Eth.calRun.on n) = true →
      j.val < (s.c.ethPort n).cal.headD 0 % 65536 → (s.c.ethPort n).cal.getD (3 + 2 * j) 0 % 16384 = q →
      s.c.on (Flowq.qEn.nth q) = true → s.c.rd (Flowq.qLink.nth q) / 4 = n →
      s.c.linkUp (s.c.rd (Flowq.qLink.nth q)) = true → (s.c.mediaQ q).descs = d :: r →
      s.c.frameLen q d ≤ (s.c.ethPort n).cal.getD (3 + 2 * j) 0 / 65536 →
      s.c.pausedFor (s.c.rd (Flowq.qLink.nth q)) (s.c.rd (Flowq.qPri.nth q)) = false → s.c.sendsActive = true →
      (s.c.ethLink (s.c.rd (Flowq.qLink.nth q))).block.isEmpty = false → Gives (.calendarEntry n j false true) s (fun t =>
      (t.c.mediaQ q).descs = d :: r ∧
      Out.ethFrame (s.c.rd (Flowq.qLink.nth q)) (s.c.ethLink (s.c.rd (Flowq.qLink.nth q))).block ∈ t.c.out ∧ Confined [] [] s t)) ∧
    (∀ (k : Fin 32) (q : Nat) (sends : Bool) (r : List (Nat × Bool)), s.Runs → (s.c.ethLink k).wait = (q, sends) :: r →
      s.c.on (Flowq.qMissAct.nth q) = false → Gives (.slotForfeit k) s (fun t =>
      (t.c.ethLink k).wait = r ∧ t.c.rd (onLink Eth.missCnt k) = satInc 32 (s.c.rd (onLink Eth.missCnt k)) ∧
      bit (t.c.stickyWord (ethPage (k.val / 4))) 3 = true ∧ (∀ p : Nat, t.c.mediaQ p = s.c.mediaQ p) ∧
      Confined [onLink Eth.missCnt k] [ethPage (k.val / 4)] s t))

/-- R308: a pause ends for its class; a class paused for longer than the limit is reported once, with sticky bit 6. R298: a CPU frame is
taken while a slot is free and held while none is; R305, R310: a CPU frame is read from working RAM, padded, and sent with its FCS, and
one with a lost word is not sent (the model's choice, log entry 21). R315: a memory job that fits its region begins, and its end gives its
channel a result whose tag is the byte count, for words that are not lost; a lost word of the image buffer counts as 0 (R423). -/
def Obligations.PausesAndCpu : Prop :=
  ∀ (s : State),
    (∀ (k : Fin 32) (cls : Fin 9), s.Runs → (s.c.ethLink k).wait = [] → Gives (.pauseEnd k cls) s (fun t =>
      bit (t.c.ethLink k).paused cls = false ∧
      (∀ j : Fin 9, j ≠ cls → bit (t.c.ethLink k).paused j = bit (s.c.ethLink k).paused j) ∧
      Confined [onLink Eth.lPri k, Eth.paused.on (k.val / 4)] [] s t)) ∧
    (∀ (k : Fin 32) (cls : Fin 9), s.Runs → s.c.rd (Eth.maxPause.on (k.val / 4)) ≠ 0 →
      bit (s.c.ethLink k).paused cls = true → bit (s.c.ethLink k).long cls = false → Gives (.pauseLimit k cls) s (fun t =>
      bit (t.c.ethLink k).long cls = true ∧ (t.c.ethLink k).paused = (s.c.ethLink k).paused ∧
      bit (t.c.stickyWord (ethPage (k.val / 4))) 6 = true ∧ Confined [] [ethPage (k.val / 4)] s t)) ∧
    (∀ (m : Master) (n : Fin 8) (w : BitVec 32), s.Allows m 0 flowqPage (0x104 + 16 * n) 1 false →
      s.c.on (Flowq.cpuGo.nth n) = false → s.c.rd (Flowq.cpuFree.nth n) ≠ 0 → Gives (.cpuFrameGo m n w) s (fun t =>
      t.c.rd (Flowq.cpuFree.nth n) = s.c.rd (Flowq.cpuFree.nth n) - 1 ∧ t.c.rd (Flowq.cpuGo.nth n) = 0 ∧
      (t.c.ethPort n).cpu = (s.c.ethPort n).cpu ++ [⟨s.c.rd (Flowq.cpuAddr.nth n), bits w.toNat 13 0, bits w.toNat 15 14,
        bit w.toNat 16, s.c.rd (Flowq.cpuTag.nth n)⟩] ∧
      Confined [Flowq.cpuFree.nth n, Flowq.cpuGo.nth n, Flowq.cpuLen.nth n, Flowq.cpuSub.nth n, Flowq.cpuTs.nth n] [] s t)) ∧
    (∀ (m : Master) (n : Fin 8) (w : BitVec 32), s.Allows m 0 flowqPage (0x104 + 16 * n) 1 false →
      s.c.on (Flowq.cpuGo.nth n) = false → s.c.rd (Flowq.cpuFree.nth n) = 0 → Gives (.cpuFrameGo m n w) s (fun t =>
      t.c.rd (Flowq.cpuFree.nth n) = 0 ∧ t.c.rd (Flowq.cpuGo.nth n) = 1 ∧ (t.c.ethPort n).cpu = (s.c.ethPort n).cpu ∧
      (t.c.ethPort n).held = some ⟨s.c.rd (Flowq.cpuAddr.nth n), bits w.toNat 13 0, bits w.toNat 15 14, bit w.toNat 16,
        s.c.rd (Flowq.cpuTag.nth n)⟩ ∧
      Confined [Flowq.cpuGo.nth n, Flowq.cpuLen.nth n, Flowq.cpuSub.nth n, Flowq.cpuTs.nth n] [] s t)) ∧
    (∀ (n : Fin 8) (d : CpuDesc), s.Runs → (s.c.ethPort n).held = some d → s.c.rd (Flowq.cpuFree.nth n) ≠ 0 →
      Gives (.cpuDescriptorAccept n) s (fun t =>
      (t.c.ethPort n).held = none ∧ (t.c.ethPort n).cpu = (s.c.ethPort n).cpu ++ [d] ∧
      t.c.rd (Flowq.cpuFree.nth n) = s.c.rd (Flowq.cpuFree.nth n) - 1 ∧ t.c.rd (Flowq.cpuGo.nth n) = 0 ∧
      Confined [Flowq.cpuFree.nth n, Flowq.cpuGo.nth n] [] s t)) ∧
    (∀ (k : Fin 32) (d : CpuDesc), s.Runs → (s.c.ethPort (k.val / 4)).cpu.find? (fun d => d.sub = k.val % 4) = some d →
      s.c.linkUp k = true → s.c.pausedFor k 0 = false → d.ts = false →
      (List.range ((d.len + 3) / 4)).any (fun i => s.c.isPoisoned 6 0 ((d.addr / 4 + i) % 1048576)) = false →
      Gives (.cpuFrameSend k) s (fun t =>
      (t.c.ethPort (k.val / 4)).cpu = (s.c.ethPort (k.val / 4)).cpu.erase d ∧
      t.c.rd (Flowq.cpuFree.nth (k.val / 4)) = (s.c.rd (Flowq.cpuFree.nth (k.val / 4)) + 1) % 32 ∧
      Out.ethFrame k (withFcs ((List.range d.len).map (fun i => Mem.byte s.mem 0 ((d.addr + i) % 4194304)) ++
        List.replicate (60 - d.len) 0)) ∈ t.c.out ∧ Confined [Flowq.cpuFree.nth (k.val / 4)] [] s t)) ∧
    (∀ (k : Fin 32) (d : CpuDesc), s.Runs → (s.c.ethPort (k.val / 4)).cpu.find? (fun d => d.sub = k.val % 4) = some d →
      s.c.linkUp k = true → s.c.pausedFor k 0 = false →
      (List.range ((d.len + 3) / 4)).any (fun i => s.c.isPoisoned 6 0 ((d.addr / 4 + i) % 1048576)) = true →
      Gives (.cpuFrameSend k) s (fun t =>
      (t.c.ethPort (k.val / 4)).cpu = (s.c.ethPort (k.val / 4)).cpu.erase d ∧
      t.c.rd (Flowq.cpuFree.nth (k.val / 4)) = (s.c.rd (Flowq.cpuFree.nth (k.val / 4)) + 1) % 32 ∧
      t.c.out.all (fun x => match x with | .ethFrame .. => false | _ => true) = true ∧
      Confined [Flowq.cpuFree.nth (k.val / 4)] [] s t)) ∧
    (∀ (m : Master) (w : BitVec 32), s.Allows m 0 crcuPage 0x4C 1 true → s.c.on Crcu.memGo = false →
      bits w.toNat 23 22 ≠ 3 → bits w.toNat 15 0 ≠ 0 →
      s.c.rd Crcu.memBase + 4 * ((bits w.toNat 15 0 - 1) * s.c.rd Crcu.stride + s.c.rd Crcu.rowLen) ≤ jobRegionSize (bits w.toNat 23 22) →
      s.c.rd (Crcu.cSrc.nth (bits w.toNat 21 16)) = 2 → Gives (.crcMemoryJob m w) s (fun t =>
      t.c.rd Crcu.memGo = 1 ∧ t.c.rd Crcu.memBusy = 1 ∧
      t.c.pkt.job = some ⟨s.c.rd Crcu.memBase, s.c.rd Crcu.rowLen, s.c.rd Crcu.stride, bits w.toNat 15 0, bits w.toNat 23 22,
        bits w.toNat 21 16⟩ ∧ Confined [Crcu.rows, Crcu.channel, Crcu.region, Crcu.memGo, Crcu.memBusy] [] s t)) ∧
    (∀ (j : MemJob), s.Runs → s.c.pkt.job = some j → j.channel < 64 → j.lost s.c = false → Gives .crcMemoryJobDone s (fun t =>
      t.c.pkt.job = none ∧ t.c.rd Crcu.memGo = 0 ∧ t.c.rd Crcu.memBusy = 0 ∧ bit (t.c.stickyWord crcuPage) 2 = true ∧
      (t.c.chan j.channel).given = ((jobBytes (s.c.imageMem s.mem) j).length % 2 ^ 32, (s.c.crcParams j.channel).over (jobBytes
        (s.c.imageMem s.mem) j)) ::
        (s.c.chan j.channel).given ∧ Within [crcuPage, hbmPage] s t))

/-! ## Meridian (R326 to R353) -/

/-- R328, R334: a candidate that becomes present begins to qualify, LOCAL is qualified at once; a lost one is `ABSENT` with its drift
cleared; `QUAL_S` seconds within the limits qualify it; out of tolerance it is disqualified with sticky bit 4, and after `DISQ_HOLD` it
qualifies again. R331: a good message is the candidate's last one, and takes effect when two with consecutive `SEQ` carry the same; one
with a wrong CRC is discarded with sticky bit 6, and bytes that do not begin with `SYNC` are none; a timeout ends its effect. R336: a pair
of equal rank that disagrees is noted with sticky bit 5, one that has cleared is noted no more, and only the pairs that stand still demote
one. R335, R346: each second every candidate's frequency is taken and the history gains one sample. -/
def Obligations.Candidates : Prop :=
  ∀ (s : State) (i : Fin 9),
    (s.Runs → s.c.canPresent i = true → (s.c.cand i).present = false → Gives (.candidatePresent i) s (fun t =>
      (t.c.cand i).present = true ∧ (t.c.cand i).st = (if i = 8 then 2 else 1) ∧ (t.c.cand i).eff = [] ∧
      Within [] s t)) ∧
    (s.Runs → (s.c.cand i).present = true → Gives (.candidateLost i) s (fun t =>
      (t.c.cand i).present = false ∧ (t.c.cand i).st = 0 ∧ t.c.rd (MerSel.drift.nth i) = 0 ∧ t.c.rd (MerSel.freq.nth i) = 0 ∧
      bit (t.c.stickyWord merSelPage) (if s.c.rd MerSel.sel = i then 1 else 2) = true ∧ Within [] s t)) ∧
    (s.Runs → (s.c.cand i).present = true → s.c.candState i = 1 → (s.c.cand i).hardRun = 0 →
      Gives (.qualificationDone i) s (fun t =>
      (t.c.cand i).st = 2 ∧ (∀ j : Fin 9, j ≠ i → t.c.cand j = s.c.cand j) ∧ Within [] s t)) ∧
    (s.Runs → s.c.candState i = 2 → i ≠ 8 → Gives (.disqualification i false) s (fun t =>
      (t.c.cand i).st = 3 ∧ bit (t.c.stickyWord merSelPage) 4 = true ∧ Within [] s t)) ∧
    (s.Runs → (s.c.cand i).present = true → s.c.candState i = 3 → (s.c.cand i).hardRun = 0 →
      Gives (.disqHoldExpire i) s (fun t => (t.c.cand i).st = 1 ∧ Within [] s t)) ∧
    (∀ (m : List (BitVec 8)), s.Runs → i ≠ 4 → i ≠ 5 → i ≠ 8 → m.length = 8 → (m.getD 0 0).toNat = 0x5A →
      qmsgSyndrome (m.map BitVec.toNat) = 0 → (m.getD 2 0).toNat / 16 = 1 → Gives (.qualityMessageReceive i m) s (fun t =>
      (t.c.cand i).last = m.map BitVec.toNat ∧ t.c.rd (MerSel.srcId.nth i) = (m.getD 1 0).toNat ∧
      (t.c.cand i).eff = (if (s.c.cand i).chain = true ∧ ((s.c.cand i).last.getD 4 0 + 1) % 256 = (m.getD 4 0).toNat ∧
        qmsgContent (s.c.cand i).last = qmsgContent (m.map BitVec.toNat) then m.map BitVec.toNat else (s.c.cand i).eff) ∧
      Within [] s t)) ∧
    (∀ (m : List (BitVec 8)), s.Runs → i ≠ 4 → i ≠ 5 → i ≠ 8 → m.length = 8 → (m.getD 0 0).toNat = 0x5A →
      qmsgSyndrome (m.map BitVec.toNat) ≠ 0 → Gives (.qualityMessageReceive i m) s (fun t =>
      t.c.cand i = s.c.cand i ∧ bit (t.c.stickyWord merSelPage) 6 = true ∧ Confined [] [] s t)) ∧
    (∀ (m : List (BitVec 8)), s.Runs → (m.getD 0 0).toNat ≠ 0x5A →
      Gives (.qualityMessageReceive i m) s (fun t => t.c.mer = s.c.mer ∧ Confined [] [] s t)) ∧
    (s.Runs → i ≠ 4 → i ≠ 5 → i ≠ 8 → (s.c.cand i).present = true →
      ((s.c.cand i).timedOut = false ∨ (s.c.cand i).chain = true) → Gives (.qmsgTimeout i) s (fun t =>
      (t.c.cand i).timedOut = true ∧ (t.c.cand i).eff = [] ∧ (t.c.cand i).chain = false ∧ bit (t.c.stickyWord merSelPage) 6 = true ∧
      Within [] s t)) ∧
    (∀ (freqs : List (BitVec 32)) (mean : BitVec 24), s.Runs → (s.c.cand i).present = true → s.c.mer.stopped = false →
      Gives (.candidateMeasure freqs mean) s (fun t =>
      (t.c.cand i).freq = (freqs.getD i 0).toInt ∧ (t.c.cand i).st = (s.c.cand i).st ∧
      t.c.rd MerHold.newest = (s.c.rd MerHold.newest + 1) % 1024 ∧
      t.c.rd (MerHold.smpCw.nth ((s.c.rd MerHold.newest + 1) % 1024)) = mean.toNat ∧
      Confined [Ptp.following, Time.rate] [merHoldPage] s t)) ∧
    (∀ (j : Fin 9), s.Runs → i ≠ j → s.c.equalRank i j = true → s.c.agree i j = false →
      Gives (.disagreement i j false) s (fun t =>
      t.c.rd MerSel.disagree = 1 ∧ t.c.mer.apart.any (fun p => p.1 = min i.val j.val && p.2.1 = max i.val j.val) = true ∧
      bit (t.c.stickyWord merSelPage) 5 = true ∧ Within [] s t)) ∧
    (∀ (j : Fin 9), s.Runs → s.c.mer.apart.any (fun p => p.1 = min i.val j.val && p.2.1 = max i.val j.val) = true →
      (s.c.equalRank i j = false ∨ s.c.agree i j = true) → Gives (.disagreement i j true) s (fun t =>
      t.c.mer.apart = s.c.mer.apart.filter (fun p => !(p.1 = min i.val j.val && p.2.1 = max i.val j.val)) ∧
      t.c.rd MerSel.disagree = (if t.c.mer.apart = [] then 0 else 1) ∧
      t.c.demoted i = t.c.mer.apart.any (fun p => p.2.2 = i.val) ∧ Within [] s t))

/-- R340: an accepted manual selection of an eligible candidate is the selection, marked manual; in SINGLE it is refused with code 1.
R341: at the first event after a selection the build-out is taken and the loop enters `ACQUIRE`, FABRIC's phase being moved by its mark's
position (R50), and a REFIN that is off or an edge that `EDGE` does not select has no event (R327); R342: `ACQUIRE` ends in `NARROW` at a
halved bandwidth under SERVICE, in `TRACK` in another regime; `NARROW` halves down to `TRACK_BW`; a phase loss goes back to `ACQUIRE` with
sticky bit 2 while its report is no MAJOR one (R410); R343: when RECOVERY ends the loop halves from the type bandwidth; R348: at its age
limit the holdover's QL becomes 14 and sticky bit 1 is set; unless LOCAL is the better candidate then and ends the holdover (R338), `AGE`
stands at `HOLD_MAX` or above. -/
def Obligations.LoopStates : Prop :=
  ∀ (s : State),
    (∀ (i : BitVec 16), s.Runs → s.c.paired = true → i.toNat < 8 → s.c.eligible i.toNat = true →
      s.c.rd MerSel.sel ≠ i.toNat → s.c.isStandby = false → s.c.mirrors = false → Gives (.refManualSelect i) s (fun t =>
      t.c.rd MerSel.sel = i.toNat ∧ t.c.rd MerSel.manual = 1 ∧ t.c.mer.pend = some i.toNat ∧ t.c.rd Cmd.state = 3 ∧
      t.c.rd Cmd.refuse = 0 ∧ Confined [] [cmdPage] s t)) ∧
    (∀ (i : BitVec 16), s.Runs → s.c.paired = false → Gives (.refManualSelect i) s (fun t =>
      t.c.rd Cmd.state = 4 ∧ t.c.rd Cmd.refuse = 1 ∧ bit (t.c.stickyWord cmdPage) 1 = true ∧ t.c.mer = s.c.mer ∧
        Confined [] [cmdPage] s t)) ∧
    (∀ (i : Fin 9) (fall : Bool) (phase : BitVec 32), s.Runs → i ≠ 8 → (s.c.cand i).present = true →
      (i.val < 4 → s.c.refType i ≠ 0 ∧ fall = s.c.on (MerSel.edge.nth i)) → s.c.rd MerSel.sel = i →
      s.c.mer.pend = some i.val → (i = 6 → s.c.mer.fabMark ≠ none) → Gives (.refPhaseEvent i fall phase) s (fun t =>
      t.c.rd MerLoop.state = 1 ∧ t.c.mer.pend = none ∧ t.c.mer.drive = i.val ∧
      t.c.mer.build16 = phase.toInt + (if i = 6 then ((335 * s.c.mer.fabMark.getD 0 / 64 : Nat) : Int) else 0) ∧
      t.c.rd MerLoop.pherr = 0 ∧ Confined [] [] s t)) ∧
    (∀ (i : Fin 4) (fall : Bool) (phase : BitVec 32), s.Runs → (s.c.refType i = 0 ∨ fall ≠ s.c.on (MerSel.edge.nth i)) →
      Gives (.refPhaseEvent ⟨i.val, Nat.lt_trans i.isLt (by decide)⟩ fall phase) s (fun t => t.c.mer = s.c.mer ∧ Confined [] [] s t)) ∧
    (s.Runs → s.c.rd MerLoop.state = 1 → s.c.rd MerLoop.regimeNow = 0 →
      Gives .loopAcquired s (fun t => t.c.rd MerLoop.state = 2 ∧ t.c.mer.bw = 20000 * 65536 ∧ Confined [] [] s t)) ∧
    (s.Runs → s.c.rd MerLoop.state = 1 → s.c.rd MerLoop.regimeNow ≠ 0 → Gives .loopAcquired s (fun t =>
      t.c.rd MerLoop.state = 3 ∧ t.c.mer.bw = s.c.typeBw s.c.mer.drive * 65536 ∧ bit (t.c.stickyWord merLoopPage) 3 = true ∧
      Confined [] [] s t)) ∧
    (s.Runs → s.c.rd MerLoop.state = 2 → (s.c.rdS MerLoop.pherr).natAbs < 16 * orElse0 (s.c.rd MerLoop.thresh) 1 →
      Gives .loopNarrowStep s (fun t =>
      (if s.c.mer.bw / 2 < s.c.trackBw * 65536 then t.c.rd MerLoop.state = 3 ∧ t.c.mer.bw = s.c.trackBw * 65536
       else t.c.rd MerLoop.state = 2 ∧ t.c.mer.bw = s.c.mer.bw / 2) ∧ Confined [] [] s t)) ∧
    (s.Runs → 1 ≤ s.c.rd MerLoop.state → s.c.rd MerLoop.state ≤ 3 →
      s.c.effSev ⟨0xA7, merLoopPage, s.c.mer.drive, 0, true, false, false, [], false⟩ < 3 → Gives .loopPhaseLoss s (fun t =>
      t.c.rd MerLoop.state = 1 ∧ t.c.rd MerSel.sel = s.c.rd MerSel.sel ∧ bit (t.c.stickyWord merLoopPage) 2 = true ∧ Confined [] [] s t)) ∧
    (s.Runs → s.c.rd MerLoop.regimeNow = 3 → s.c.rd MerLoop.state = 3 → Gives .recoveryEnd s (fun t =>
      t.c.rd MerLoop.regimeNow = 0 ∧
      (if s.c.typeBw s.c.mer.drive ≤ s.c.trackBw ∨ s.c.typeBw s.c.mer.drive * 65536 / 2 < s.c.trackBw * 65536
       then t.c.rd MerLoop.state = 3 ∧ t.c.mer.bw = s.c.trackBw * 65536
       else t.c.rd MerLoop.state = 2 ∧ t.c.mer.bw = s.c.typeBw s.c.mer.drive * 65536 / 2) ∧ Confined [] [] s t)) ∧
    (s.Runs → s.c.rd MerLoop.state = 4 → s.c.mer.aged = false → Gives .holdoverAgeLimit s (fun t =>
      (t.c.rd MerLoop.state = 4 →
        t.c.holdoverQl = 14 ∧ t.c.mer.aged = true ∧ t.c.rd MerHold.age = max (s.c.rd MerHold.age) (s.c.rd MerHold.holdMax)) ∧
      (t.c.rd MerLoop.state = 4 ∨ t.c.rd MerLoop.state = 0) ∧ bit (t.c.stickyWord merHoldPage) 1 = true ∧
      bit (t.c.stickyWord merLoopPage) 1 = true ∧ Within [merHoldPage] s t))

/-- R349, R351: a generator's frame start is counted and shows whether its offset has a basis; R353: a pulse ends at its inactive level;
R352: a realignment sets its items to wait for their next starts, and one that waits is set at its start; when none waits any more
`RESULT` tells whether each had a basis. `AUDIO` is refused at once while SCHED is enabled, else it loads the AMC. -/
def Obligations.OutputTiming : Prop :=
  ∀ (s : State),
    (∀ (r : Fin 8) (phase : BitVec 32), s.Runs → Gives (.generatorFrameStart r phase) s (fun t =>
      Store.get 0 t.c.mer.genCnt r = (Store.get 0 s.c.mer.genCnt r + 1) % 2 ^ 32 ∧
      t.c.rd (MerLoop.genValid.nth r) = (if s.c.genBasis r then 1 else 0) ∧ Within lossPages s t)) ∧
    (∀ (n : Fin 4), s.Runs → bit s.c.mer.pulse n = true → Gives (.fpoutPulseEnd n) s (fun t =>
      bit t.c.mer.pulse n = false ∧ Out.pulse n (s.c.on (MerLoop.fpPol.nth n)) ∈ t.c.out ∧ Confined [] [] s t)) ∧
    (∀ (m : Master), s.Allows m 0 merLoopPage 0x68 4 true → s.c.on MerLoop.raAudio = false → Gives (.realign m) s (fun t =>
      t.c.mer.realign = (s.c.realignItems.filter (fun p => p.2)).map Prod.fst ∧
      t.c.rd MerLoop.raResult = (if t.c.mer.realign ≠ [] then 0 else if s.c.realignItems.any (fun p => !p.2) then 2 else 1) ∧
      t.c.mer.raRes = (if s.c.realignItems.any (fun p => !p.2) then 2 else 1) ∧
      t.c.rd MerLoop.raGo = (if t.c.mer.realign = [] then 0 else 1) ∧ Confined [] [] s t)) ∧
    (∀ (m : Master), s.Allows m 0 merLoopPage 0x68 4 true → s.c.on MerLoop.raAudio = true → s.c.enabled schedPage = true →
      Gives (.realign m) s (fun t => t.c.rd MerLoop.raResult = 3 ∧ t.c.amc = s.c.amc ∧ Confined [] [] s t)) ∧
    (∀ (m : Master), s.Allows m 0 merLoopPage 0x68 4 true → s.c.on MerLoop.raAudio = true → s.c.enabled schedPage = false →
      s.c.gridBasis = true →
      Gives (.realign m) s (fun t => t.c.amc = s.c.mediaClock ∧ t.c.rd MerLoop.audOfs = 0 ∧ Confined [] [] s t)) ∧
    (∀ (item : Fin 14), s.Runs → s.c.mer.realign.contains item.val = true → (item.val < 8 → s.c.mer.raStage = 4) →
      Gives (.realignApply item) s (fun t =>
      t.c.mer.realign = s.c.mer.realign.filter (fun k => k ≠ item.val) ∧
      (t.c.mer.realign = [] → t.c.rd MerLoop.raGo = 0 ∧ t.c.rd MerLoop.raResult = s.c.mer.raRes ∧
        bit (t.c.stickyWord merLoopPage) 4 = true) ∧ Confined [] [] s t))

/-! ## Network time (R354 to R364) -/

/-- R354, R355: an announce of its own domain takes a listening instance to `UNCALIBRATED` and shows its grandmaster, with the QL of its
clock class (R333); a lost announce or sync takes a slave back to `LISTENING` with its sticky bit; R357: an accepted re-step is armed and
the next offset steps the STC whole; R356: an offset beyond the jump limit is refused and counted and the rate stays. -/
def Obligations.PtpInstances : Prop :=
  ∀ (s : State) (x : Fin 2),
    (∀ (dom p1 p2 cls acc : BitVec 8) (gm : BitVec 64) (variance utc : BitVec 16) (utcValid traceable : Bool), s.Runs →
      s.c.rd (Ptp.iState.nth x) = 1 → dom.toNat = s.c.rd (Ptp.iDomain.nth x) →
      Gives (.announceReceive x dom gm p1 p2 cls acc variance utc utcValid traceable) s (fun t =>
      t.c.rd (Ptp.iState.nth x) = 2 ∧ t.c.rd (Ptp.gmIdLo.nth x) = gm.toNat % 2 ^ 32 ∧ t.c.rd (Ptp.gmIdHi.nth x) = gm.toNat / 2 ^ 32 ∧
      t.c.rd (Ptp.gmClass.nth x) = cls.toNat ∧ t.c.rd (Ptp.iQl.nth x) = classQl cls.toNat ∧ (t.c.ptpInst x).traceable = traceable ∧
      Within [ptpPage] s t)) ∧
    (∀ (dom p1 p2 cls acc : BitVec 8) (gm : BitVec 64) (variance utc : BitVec 16) (utcValid traceable : Bool), s.Runs →
      s.c.rd (Ptp.iState.nth x) ≠ 4 → dom.toNat ≠ s.c.rd (Ptp.iDomain.nth x) →
      Gives (.announceReceive x dom gm p1 p2 cls acc variance utc utcValid traceable) s (fun t => t.c.mer = s.c.mer ∧ Confined [] [] s t)) ∧
    (s.Runs → s.c.rd (Ptp.iState.nth x) = 3 → Gives (.ptpAnnounceTimeout x) s (fun t =>
      t.c.rd (Ptp.iState.nth x) = 1 ∧ bit (t.c.stickyWord ptpPage) 3 = true ∧ Within [ptpPage] s t)) ∧
    (s.Runs → s.c.on (Ptp.iEn.nth x) = true → s.c.rd (Ptp.iState.nth x) = 3 → Gives (.ptpSyncTimeout x) s (fun t =>
      t.c.rd (Ptp.iState.nth x) = 1 ∧ bit (t.c.stickyWord ptpPage) 2 = true ∧ Within [ptpPage] s t)) ∧
    (∀ (delay : BitVec 32), s.Runs → 1 ≤ s.c.rd (Ptp.iState.nth x) → s.c.rd (Ptp.iState.nth x) ≤ 3 →
      Gives (.delayExchange x delay) s (fun t =>
      t.c.rd (Ptp.iDelay.nth x) = delay.toNat ∧
      ((delay.toInt < 0 ∨ 256000000 < delay.toInt) → bit (t.c.stickyWord ptpPage) 7 = true) ∧ Confined [Ptp.iDelay.nth x] [ptpPage] s t)) ∧
    (∀ (target : BitVec 16), s.Runs → target.toNat = x → s.c.rd Ptp.steer = x → s.c.rd (Ptp.iState.nth x) = 3 →
      s.c.isStandby = false → s.c.mirrors = false → Gives (.ptpRestep target) s (fun t =>
      (t.c.ptpInst x).armed = true ∧ t.c.rd Ptp.restepArmed = 1 ∧ t.c.rd Cmd.state = 3 ∧ t.c.rd Cmd.refuse = 0 ∧
        Confined [Ptp.restepArmed] [cmdPage] s t)) ∧
    (∀ (ofs : BitVec 96), s.Runs → s.c.rd (Ptp.iState.nth x) = 3 → (s.c.ptpInst x).armed = true →
      Gives (.ptpServoUpdate x ofs) s (fun t =>
      t.c.stc = Stc.ofTotal (s.c.stc.total + 256 * ofs.toInt) ∧ t.c.rd Ptp.stepped = 1 ∧ (t.c.ptpInst x).armed = false ∧
      bit (t.c.stickyWord ptpPage) 5 = true ∧ Within [ptpPage, timePage] s t)) ∧
    (∀ (ofs : BitVec 96), s.Runs → s.c.rd (Ptp.iState.nth x) = 3 → s.c.rd Ptp.steer = x → (s.c.ptpInst x).armed = false →
      s.c.on Ptp.stepped = true → s.c.jumpLimit < ofs.toInt.natAbs → Gives (.ptpServoUpdate x ofs) s (fun t =>
      t.c.rd (Ptp.iRefusing.nth x) = 1 ∧ t.c.rd (Ptp.refused.nth x) = satInc 32 (s.c.rd (Ptp.refused.nth x)) ∧
      bit (t.c.stickyWord ptpPage) 0 = true ∧ t.c.stc = s.c.stc ∧ t.c.rd Time.rate = s.c.rd Time.rate ∧
      Within [ptpPage] s t))

/-- R359: one cycle advances the STC by 40 ns corrected by `TIME_RATE`, and carries on what is below the fraction; a read latches it for
its master. R362: arming a unit whose target is still to come arms it, one whose target is past fires at once and is marked late with its
sticky bit; disarming clears it. R363, R364: a selected edge is stamped into the FIFO where there is room, and lost with sticky bit 8
where there is none. -/
def Obligations.TimeCounter : Prop :=
  ∀ (s : State),
    (s.Runs → s.c.mer.stopped = false → Gives .stcAdvance s (fun t =>
      t.c.stc = Stc.ofTotal (s.c.stc.total + (s.c.mer.stcRes + 2621440 * (256000000000 + s.c.rdS Time.rate)) / 256000000000) ∧
      t.c.mer.stcRes = (s.c.mer.stcRes + 2621440 * (256000000000 + s.c.rdS Time.rate)) % 256000000000 ∧
      Within [timePage] s t)) ∧
    (∀ (m : Master), s.Runs → Gives (.stcReadLatch m) s (fun t =>
      t.c.rdata = [s.c.stc.ns] ∧ Store.get {} t.c.mer.latch (masterNum m) = s.c.stc ∧ t.c.stc = s.c.stc ∧ Confined [] [] s t)) ∧
    (∀ (m : Master) (u : Fin 8), s.Allows m 0 timePage (0x100 + 16 * u) 0 true → s.c.cmpDiff u < 0 →
      Gives (.compareArm m u) s (fun t =>
      t.c.rd (Time.cArm.nth u) = 1 ∧ t.c.rd (Time.cLate.nth u) = 0 ∧ Confined [Time.cArm.nth u, Time.cLate.nth u] [] s t)) ∧
    (∀ (m : Master) (u : Fin 8), s.Allows m 0 timePage (0x100 + 16 * u) 0 true → 0 ≤ s.c.cmpDiff u →
      Gives (.compareArm m u) s (fun t =>
      t.c.rd (Time.cArm.nth u) = 0 ∧ t.c.rd (Time.cLate.nth u) = 1 ∧ bit (t.c.stickyWord timePage) u = true ∧
      bit (t.c.stickyWord timePage) 9 = true ∧ Confined [Time.cArm.nth u, Time.cLate.nth u] [timePage] s t)) ∧
    (∀ (m : Master) (u : Fin 8), s.Allows m 0 timePage (0x100 + 16 * u) 2 true →
      Gives (.compareDisarm m u) s (fun t => t.c.rd (Time.cArm.nth u) = 0 ∧ Confined [Time.cArm.nth u] [] s t)) ∧
    (∀ (source : Fin 12) (fall : Bool) (ns : Fin 40), s.Runs → s.c.edgeSelected source fall = true →
      (8 ≤ source.val → (s.c.captureCount (source - 8)).1 = true) → (s.c.rd Time.evtWptr + 1) % 256 ≠ s.c.rd Time.evtRptr →
      Gives (.eventCapture source fall ns) s (fun t =>
      t.c.rd Time.evtWptr = (s.c.rd Time.evtWptr + 1) % 256 ∧
      t.c.rd (Time.evt.nth (4 * s.c.rd Time.evtWptr)) =
        ((Stc.ofTotal (s.c.stc.total + 65536 * ns.val)).ns + 2 ^ 30 * b2n s.c.mer.evtGap) % 2 ^ 32 ∧
      t.c.rd (Time.evt.nth (4 * s.c.rd Time.evtWptr + 3)) = source.val + (if fall then 32 else 0) ∧
      bit (t.c.stickyWord timePage) 11 = true ∧
      Confined (Time.evtWptr :: (List.range 4).map (fun j => Time.evt.nth (4 * s.c.rd Time.evtWptr + j))) [timePage] s t)) ∧
    (∀ (source : Fin 12) (fall : Bool) (ns : Fin 40), s.Runs → s.c.edgeSelected source fall = true →
      (8 ≤ source.val → (s.c.captureCount (source - 8)).1 = true) → (s.c.rd Time.evtWptr + 1) % 256 = s.c.rd Time.evtRptr →
      Gives (.eventCapture source fall ns) s (fun t =>
      t.c.rd Time.evtLost = satInc 32 (s.c.rd Time.evtLost) ∧ bit (t.c.stickyWord timePage) 8 = true ∧
      Confined [Time.evtLost] [timePage] s t)) ∧
    (∀ (source : Fin 12) (fall : Bool) (ns : Fin 40), s.Runs →
      (s.c.edgeSelected source fall = false ∨ (8 ≤ source.val ∧ (s.c.captureCount (source - 8)).1 = false)) →
      Gives (.eventCapture source fall ns) s (fun t => Confined [] [] s t))

/-! ## The twin pair and the Umpire (R374 to R403) -/

/-- R378: a standby takes the sequenced cell that it expects and acknowledges it, answers a gap with a NAK of the number it misses, and an
acknowledgement frees the cells up to its number; a NAK makes the sender send again from the missing number. R379: an item waits for its
epoch. R377: a BULK cell's bytes go to their place and to no other. R381: a re-step decision arms the re-step on both devices at its
epoch. -/
def Obligations.TwinCells : Prop :=
  ∀ (s : State),
    (∀ (seq : BitVec 16) (epoch : BitVec 32) (space : Fin 3) (be : BitVec 4) (page : BitVec 16) (off data bidx : BitVec 32) (master
      : BitVec 8),
      s.Runs → s.c.paired = true → s.c.grpState 32 = 6 → s.c.isStandby = true → s.c.twin.rxAny = false →
      s.c.twin.rxSeq = seq.toNat → 0 < frameDiff epoch.toNat s.c.twin.applied →
      Gives (.writeCell seq epoch space be page off data bidx master) s (fun t =>
      t.c.mirrorQ = s.c.mirrorQ ++ [⟨epoch.toNat, seq.toNat, space, page.toNat, off.toNat, data.toNat, be.toNat, bidx.toNat,
        master.toNat, []⟩] ∧
      t.c.twin.rxSeq = (seq.toNat + 1) % 65536 ∧ Out.cell 6 0 [1, seq.toNat] ∈ t.c.out ∧ Confined [] [] s t)) ∧
    (∀ (seq : BitVec 16) (epoch : BitVec 32) (space : Fin 3) (be : BitVec 4) (page : BitVec 16) (off data bidx : BitVec 32) (master
      : BitVec 8),
      s.Runs → s.c.paired = true → s.c.grpState 32 = 6 → s.c.isStandby = true → s.c.twin.rxAny = false →
      s.c.twin.rxSeq ≠ seq.toNat → s.c.twin.rxSeq < 65536 → (seq.toNat + 65536 - s.c.twin.rxSeq) % 65536 < 32768 →
      Gives (.writeCell seq epoch space be page off data bidx master) s (fun t =>
      t.c.mirrorQ = s.c.mirrorQ ∧ t.c.twin = { s.c.twin with tx := t.c.twin.tx } ∧ Out.cell 6 0 [2, s.c.twin.rxSeq] ∈ t.c.out ∧
        Confined [] [] s t)) ∧
    (∀ (seq : BitVec 16) (epoch : BitVec 32) (kind : BitVec 8) (page : BitVec 16) (bidx w4 w5 w6 w7 : BitVec 32), s.Runs →
      s.c.paired = true → s.c.grpState 32 = 6 → s.c.isStandby = true → s.c.twin.rxAny = false → s.c.twin.rxSeq = seq.toNat →
      0 < frameDiff epoch.toNat s.c.twin.applied → Gives (.decisionCell seq epoch kind page bidx w4 w5 w6 w7) s (fun t =>
      t.c.mirrorQ = s.c.mirrorQ ++ [⟨epoch.toNat, seq.toNat, 3, page.toNat, kind.toNat, 0, 0, bidx.toNat, 0,
        [w4.toNat, w5.toNat, w6.toNat, w7.toNat]⟩] ∧
      t.c.twin.rxSeq = (seq.toNat + 1) % 65536 ∧ Out.cell 6 0 [1, seq.toNat] ∈ t.c.out ∧ Confined [] [] s t)) ∧
    (∀ (seq : BitVec 16) (addr : BitVec 32) (stack : Fin 2) (slice : Fin 8) (bytes : List (BitVec 8)), s.Runs →
      s.c.paired = true → s.c.grpState 32 = 6 → s.c.isStandby = true → s.c.twin.rxAny = false → s.c.twin.rxSeq = seq.toNat →
      bytes.length ≤ 24 → Gives (.bulkCell seq 4 addr stack slice bytes) s (fun t =>
      (∀ j : Fin 24, j.val < bytes.length → Mem.byte t.mem 5 (addr.toNat + j) = (bytes.getD j 0).toNat) ∧
      (∀ r : Nat, ∀ o : Nat, o < 8589934592 → ¬(r = 5 ∧ addr.toNat ≤ o ∧ o < addr.toNat + bytes.length) →
        Mem.byte t.mem r o = Mem.byte s.mem r o) ∧
      t.c.twin.rxSeq = (seq.toNat + 1) % 65536 ∧ t.c.flds = s.c.flds ∧ t.pending = s.pending)) ∧
    (∀ (seq : BitVec 16), s.Runs → s.c.paired = true → s.c.grpState 32 = 6 → s.c.mirrorWait ≠ [] →
      Gives (.ackCell seq) s (fun t =>
      t.c.mirrorWait = s.c.mirrorWait.drop (8192 - (s.c.replay.filter (fun e => !decide ((seq.toNat + 65536 - e.1) % 65536 <
        32768))).length) ∧
      Within [twinPage] s t)) ∧
    (∀ (seq : BitVec 16), s.Runs → s.c.paired = true → s.c.grpState 32 = 6 → s.c.mirrorWait = [] →
      Gives (.ackCell seq) s (fun t =>
      t.c.replay = s.c.replay.filter (fun e => !decide ((seq.toNat + 65536 - e.1) % 65536 < 32768)) ∧
      t.c.rd Twin.queued = t.c.replay.length % 16384 ∧ Confined [Twin.queued] [] s t)) ∧
    (∀ (seq : BitVec 16), s.Runs → s.c.paired = true → s.c.grpState 32 = 6 → Gives (.nakCell seq) s (fun t =>
      (∀ e ∈ s.c.replay, (e.1 + 65536 - seq.toNat) % 65536 < 32768 → Out.cell e.2.1 e.1 e.2.2 ∈ t.c.out) ∧
      t.c.replay = s.c.replay ∧
      t.c.rd Twin.replays = satAdd 16 (s.c.rd Twin.replays)
        (s.c.replay.filter (fun e => decide ((e.1 + 65536 - seq.toNat) % 65536 < 32768))).length ∧ Confined [Twin.replays] [] s t)) ∧
    (s.Runs → s.c.pairState = 3 → s.c.mateLost = false → s.c.replay ≠ [] → Gives .ackTimeout s (fun t =>
      (s.c.mirrorWait = [] → t.c.replay = [] ∧ t.c.rd Twin.queued = 0) ∧ t.c.mirrorWait = s.c.mirrorWait.drop 8192 ∧
      t.c.rd Twin.resyncPhase = 1 ∧ bit (t.c.stickyWord twinPage) 2 = true ∧ Within pairPages s t)) ∧
    (s.Runs → s.c.paired = true → s.c.twin.due = [] → (∀ i ∈ s.c.mirrorQ, 0 < frameDiff i.epoch (s.c.rd Twin.epoch)) →
      Gives .mirrorApply s (fun t =>
      t.c.mirrorQ = s.c.mirrorQ ∧ t.c.twin.applied = s.c.rd Twin.epoch ∧ Confined [] [] s t)) ∧
    (∀ (i : MirrorItem), s.Runs → s.c.paired = true → s.c.twin.due = [] → s.c.mirrorQ = [i] → i.epoch = s.c.rd Twin.epoch →
      i.space = 3 → i.off = 7 → i.bidx = 0xFFFFFFFF → Gives .mirrorApply s (fun t =>
      t.c.mirrorQ = [] ∧ t.c.twin.applied = s.c.rd Twin.epoch ∧ t.c.rd Ptp.restepArmed = 1 ∧
      (t.c.ptpInst (i.payload.getD 0 0 % 2)).armed = true ∧ Confined [Ptp.restepArmed] [] s t))

/-- R375: a device in `START` that hears an active mate becomes its standby, and one without LGTW becomes `ALONE`; an active device that
loses its mate is `ALONE`; a standby takes over only where `LOSS_TAKE` says so. R376: of two active devices the one with fewer `LSIDE`
votes becomes the standby with cause 7. R389 to R391: an active device that is due yields, its standby takes over and answers TAKE, and
the TAKE makes it the standby; without one it is active again, and `ALONE` where the mate is lost, with sticky bit 9. R339: a pair on
different candidates shows sticky bit 8 of MER_SEL (the mate's selection is an operand, log entry 28). -/
def Obligations.PairStates : Prop :=
  ∀ (s : State),
    (∀ (h : BitVec 2) (st : BitVec 3) (part : Bool) (lside : BitVec 6) (sel : BitVec 4), s.Runs → s.c.paired = true →
      s.c.grpState 32 = 6 → s.c.pairState = 6 → sel.toNat = s.c.rd MerSel.sel →
      Gives (.healthCell h st part lside false sel) s (fun t =>
      t.c.rd Twin.mateHealth = h.toNat ∧ t.c.rd Twin.matePresent = 1 ∧ t.c.twin.mateState = st.toNat ∧
      t.c.twin.matePartial = part ∧ t.c.twin.mateLside = lside.toNat ∧ t.c.pairState = 6 ∧
      Confined [Twin.mateHealth, Twin.matePresent, Twin.mateGood] [twinPage] s t)) ∧
    (∀ (h : BitVec 2) (st : BitVec 3) (part : Bool) (lside : BitVec 6) (sel : BitVec 4), s.Runs → s.c.paired = true →
      s.c.grpState 32 = 6 → s.c.pairState = 6 → sel.toNat ≤ 8 → s.c.rd MerSel.sel ≤ 8 → sel.toNat ≠ s.c.rd MerSel.sel →
      Gives (.healthCell h st part lside false sel) s (fun t =>
      t.c.twin.refDiff = true ∧ bit (t.c.stickyWord merSelPage) 8 = true ∧ Within pairPages s t)) ∧
    (∀ (st : BitVec 3) (part : Bool) (lside : BitVec 6) (sel : BitVec 4), s.Runs → s.c.paired = true → s.c.grpState 32 = 6 →
      s.c.pairState = 1 → 2 ≤ st.toNat → st.toNat ≤ 4 → Gives (.healthCell 0 st part lside false sel) s (fun t =>
      t.c.pairState = 5 ∧ t.c.rd Twin.resyncPhase = 1 ∧ t.c.mirrorQ = [] ∧ t.c.replay = [] ∧ Within pairPages s t)) ∧
    (s.Runs → s.c.mateLost = false → s.c.pairState = 3 → Gives .mateLost s (fun t =>
      t.c.pairState = 2 ∧ t.c.rd Twin.mateHealth = 3 ∧ t.c.mateLost = true ∧ bit (t.c.stickyWord twinPage) 3 = true ∧
      Within pairPages s t)) ∧
    (s.Runs → s.c.mateLost = false → s.c.pairState = 6 → Gives .mateLost s (fun t =>
      t.c.pairState = (if s.c.on Twin.lossTake then 2 else 6) ∧ t.c.mateLost = true ∧ bit (t.c.stickyWord twinPage) 3 = true ∧
      (s.c.on Twin.lossTake = true → t.c.rd Twin.lastCause = 6 ∧ bit (t.c.stickyWord twinPage) 0 = true) ∧
      Within pairPages s t)) ∧
    (s.Runs → s.c.pairState = 1 → s.c.grpState 32 ≠ 6 →
      Gives .pairWaitExpire s (fun t => t.c.pairState = 2 ∧ t.c.rd Twin.active = 1 ∧ Within pairPages s t)) ∧
    (s.Runs → s.c.pairState = 3 → s.c.on (Lgrp.rxActive.on 32) = true → s.c.lsideCount ≠ s.c.twin.mateLside →
      Gives .arbitration s (fun t =>
      t.c.pairState = (if s.c.lsideCount < s.c.twin.mateLside then 5 else 3) ∧ bit (t.c.stickyWord twinPage) 6 = true ∧
      (s.c.lsideCount < s.c.twin.mateLside → t.c.rd Twin.lastCause = 7) ∧ Within pairPages s t)) ∧
    (s.Runs → s.c.pairState = 3 → s.c.yieldDue ≠ 0 → Gives .yieldDecision s (fun t =>
      t.c.pairState = 4 ∧ t.c.yieldDue = 0 ∧ t.c.twin.yieldCause = s.c.yieldDue ∧
      Out.cell 6 0 [3, s.c.yieldDue, (s.c.mirrorSeq + 65535) % 65536] ∈ t.c.out ∧ Within pairPages s t)) ∧
    (∀ (cause : BitVec 32) (last : BitVec 16), s.Runs → s.c.paired = true → s.c.grpState 32 = 6 → s.c.pairState = 6 →
      Gives (.yieldCell cause last) s (fun t =>
      t.c.pairState = 3 ∧ t.c.rd Twin.active = 1 ∧ t.c.rd Twin.lastCause = 8 ∧ Out.cell 6 0 [4] ∈ t.c.out ∧
      t.c.mirrorSeq = (last.toNat + 1) % 65536 ∧ bit (t.c.stickyWord twinPage) 0 = true ∧ Within pairPages s t)) ∧
    (s.Runs → s.c.paired = true → s.c.grpState 32 = 6 → s.c.pairState = 4 → s.c.twin.yieldCause ≠ 0 →
      s.c.twin.yieldCause < 16 → Gives .takeCell s (fun t =>
      t.c.pairState = 6 ∧ t.c.rd Twin.active = 0 ∧ t.c.rd Twin.lastCause = s.c.twin.yieldCause ∧ t.c.rd Twin.lastDir = 1 ∧
      t.c.twin.rxSeq = s.c.mirrorSeq ∧ Within pairPages s t)) ∧
    (s.Runs → s.c.pairState = 4 → Gives .takeTimeout s (fun t =>
      t.c.pairState = (if s.c.mateLost then 2 else 3) ∧ bit (t.c.stickyWord twinPage) 9 = true ∧ Within pairPages s t))

/-- R392: in SINGLE a switch-over is refused with code 1; an active device with a good standby becomes due to yield with cause 4; R393: a
switch-back becomes due with cause 5 when the home device is ready. R383: `GO` begins a resync on an active device with a mate; the
standby's last phase takes it to `STANDBY`, the active device's to `ACTIVE`; the mate's counters are adopted. R341: a TREF cell is kept.
-/
def Obligations.SwitchOver : Prop :=
  ∀ (s : State),
    (∀ (target : BitVec 16) (a0 : BitVec 32), s.Runs → s.c.paired = false → Gives (.twinSwitchover target a0) s (fun t =>
      t.c.rd Cmd.state = 4 ∧ t.c.rd Cmd.refuse = 1 ∧ t.c.twin = s.c.twin ∧ t.c.yieldDue = s.c.yieldDue ∧ Confined [] [cmdPage] s t)) ∧
    (∀ (target : BitVec 16) (a0 : BitVec 32), s.Runs → s.c.paired = true → target ≠ 0 →
      Gives (.twinSwitchover target a0) s (fun t =>
      t.c.rd Cmd.state = 4 ∧ t.c.rd Cmd.refuse = 15 ∧ t.c.twin = s.c.twin ∧ t.c.yieldDue = s.c.yieldDue ∧ Confined [] [cmdPage] s t)) ∧
    (∀ (a0 : BitVec 32), s.Runs → s.c.pairState = 3 → s.c.twin.mateState = 6 →
      (s.c.rd Twin.mateHealth = 0 ∨ a0.toNat % 2 = 1) → s.c.yieldDue = 0 → Gives (.twinSwitchover 0 a0) s (fun t =>
      t.c.yieldDue = 4 ∧ t.c.pairState = 3 ∧ t.c.rd Cmd.state = 3 ∧ t.c.rd Cmd.refuse = 0 ∧ Confined [] [cmdPage] s t)) ∧
    (s.Runs → s.c.pairState = 3 → s.c.rd Twin.home ≠ b2n s.c.straps.side → s.c.twin.mateState = 6 →
      s.c.rd Twin.healthDwell ≤ s.c.rd Twin.mateGood → s.c.yieldDue = 0 → Gives (.twinSwitchback 0) s (fun t =>
      t.c.yieldDue = 5 ∧ t.c.pairState = 3 ∧ t.c.rd Cmd.state = 3 ∧ t.c.rd Cmd.refuse = 0 ∧ Confined [] [cmdPage] s t)) ∧
    (∀ (frame : BitVec 32) (pos : BitVec 6) (phase : BitVec 32), s.Runs → s.c.paired = true → s.c.grpState 32 = 6 →
      Gives (.trefCell frame pos phase) s (fun t =>
      t.c.twin.tref = some (frame.toNat, pos.toNat) ∧ t.c.mer.mateTrate = some s.c.xpt.rate ∧ Confined [] [] s t)) ∧
    (∀ (frame amc epoch : BitVec 32) (gens pics : List (BitVec 32)), s.Runs → s.c.paired = true → s.c.grpState 32 = 6 →
      s.c.pairState = 5 → Gives (.countersCell frame amc epoch gens pics) s (fun t =>
      t.c.rd Xpt.frame = frame.toNat ∧ t.c.amc = amc.toNat ∧ t.c.rd Twin.epoch = epoch.toNat ∧
      (∀ r : Fin 8, Store.get 0 t.c.mer.genCnt r = (gens.getD r 0).toNat) ∧
      (∀ n : Fin 64, t.c.rd (Cmp.picture.on n) = (pics.getD n 0).toNat) ∧
      (s.c.twin.tref = none → t.c.rd MerLoop.raResult = 2) ∧ Within ([xptPage, twinPage] ++ (List.range 64).map cmpPage) s t)) ∧
    (∀ (m : Master), s.Allows m 0 twinPage 0x58 0 false → s.c.pairState = 3 → s.c.mateLost = false →
      s.c.on Twin.resyncGo = false → Gives (.resyncGo m) s (fun t =>
      t.c.rd Twin.resyncGo = 1 ∧ t.c.rd Twin.resyncPhase = 1 ∧ t.c.pairState = 3 ∧ Within pairPages s t)) ∧
    (∀ (compat : BitVec 4) (cores : List NovaCapture), s.Runs → (s.c.pairState = 2 ∨ s.c.pairState = 3) →
      s.c.rd Twin.resyncPhase = 5 → Gives (.resyncPhaseDone compat cores) s (fun t =>
      t.c.pairState = 3 ∧ t.c.rd Twin.resyncPhase = 0 ∧ t.c.rd Twin.resyncGo = 0 ∧ bit (t.c.stickyWord twinPage) 11 = true ∧
        Within pairPages s t)) ∧
    (∀ (compat : BitVec 4) (cores : List NovaCapture), s.Runs → s.c.pairState = 5 → s.c.rd Twin.resyncPhase = 5 →
      Gives (.resyncPhaseDone compat cores) s (fun t =>
      t.c.pairState = 6 ∧ t.c.rd Twin.resyncPhase = 0 ∧ t.c.rd Twin.partialUp = 0 ∧ bit (t.c.stickyWord twinPage) 11 = true ∧
        Within pairPages s t)) ∧
    (∀ (compat : BitVec 4) (cores : List NovaCapture), s.Runs → s.c.pairState = 3 → s.c.rd Twin.resyncPhase = 1 →
      Gives (.resyncPhaseDone compat cores) s (fun t =>
      t.c.rd Twin.resyncPhase = 2 ∧ t.c.pairState = 3 ∧ Confined [Twin.resyncPhase] [] s t)) ∧
    (∀ (compat : BitVec 4) (cores : List NovaCapture), s.Runs → s.c.pairState = 3 → s.c.rd Twin.resyncPhase = 3 →
      Gives (.resyncPhaseDone compat cores) s (fun t =>
      (∀ k : Fin 11, Out.cell 6 0 (7 :: ((([s.c.rd Xpt.frame, s.c.amc, s.c.rd Twin.epoch] ++
        (List.range 8).map (fun r => Store.get 0 s.c.mer.genCnt r) ++
        (List.range 64).map (fun n => s.c.rd (Cmp.picture.on n))).drop (7 * k.val)).take 7)) ∈ t.c.out) ∧
      t.c.rd Twin.resyncPhase = 4 ∧ t.c.pairState = 3 ∧ Confined [Twin.resyncPhase] [] s t))

/-- R385: a digest of the mate waits for its comparison, and an own one for the mate's; equal digests end a run of mismatches and unequal
ones count with sticky bit 0 and show both; an own digest for which the mate's does not come in time is counted as a gap (log entry 28
says when). R386, R387: at the close of its window each device sends its verdict; the mate's is kept; a fault on the active device alone
makes it yield with cause 2; without the mate's verdict in time neither is attributed and the dispute stays. -/
def Obligations.UmpireRules : Prop :=
  ∀ (s : State) (u : BitVec 13),
    (∀ (label d : BitVec 32), s.Runs → s.c.paired = true → s.c.grpState 32 = 6 →
      ((Store.get {} s.c.twin.umps u.toNat : UmpUnit)).mine = [] → Gives (.digestCell label u [d]) s (fun t =>
      ((Store.get {} t.c.twin.umps u.toNat : UmpUnit)).mates = (label.toNat, d.toNat) :: ((Store.get {} s.c.twin.umps u.toNat :
        UmpUnit)).mates ∧
      Confined [] [] s t)) ∧
    (∀ (label : Nat) (bs : List Nat), s.Runs → s.c.paired = true → s.c.on Ump.en = true → s.c.on Ump.comparing = true →
      s.c.unitCompared u.toNat = true → s.c.unitPeriod u.toNat = some (label, some bs) →
      ((Store.get {} s.c.twin.umps u.toNat : UmpUnit)).mine = [] →
      ((Store.get {} s.c.twin.umps u.toNat : UmpUnit)).mates.find? (fun d => d.1 = label) = none →
      Gives (.umpireCompare u) s (fun t =>
      ((Store.get {} t.c.twin.umps u.toNat : UmpUnit)).mine = [(label, digestOf bs, s.c.stc.plus (10000 * orElse0 (s.c.rd
        Ump.cmpWait) 1 : Nat))] ∧
      t.c.rd Ump.gapCnt = s.c.rd Ump.gapCnt ∧ t.c.rd Ump.mismatchCnt = s.c.rd Ump.mismatchCnt ∧
      Out.cell 4 0 [label, u.toNat + 8192, digestOf bs] ∈ t.c.out ∧ Confined [] [] s t)) ∧
    (∀ (label own : Nat) (bs : Option (List Nat)) (at_ : Stc), s.Runs → s.c.paired = true → s.c.on Ump.en = true →
      s.c.on Ump.comparing = true → s.c.unitCompared u.toNat = true → s.c.unitPeriod u.toNat = some (label, bs) →
      ((Store.get {} s.c.twin.umps u.toNat : UmpUnit)).mine = [(label, own, at_)] → Gives (.umpireCompare u) s (fun t =>
      ((Store.get {} t.c.twin.umps u.toNat : UmpUnit)).mine = [] ∧ t.c.rd Ump.gapCnt = satInc 32 (s.c.rd Ump.gapCnt) ∧
      ((Store.get {} t.c.twin.umps u.toNat : UmpUnit)).gaps = ((Store.get {} s.c.twin.umps u.toNat : UmpUnit)).gaps + 1 ∧
        Confined [Ump.gapCnt] [umpPage] s t)) ∧
    (∀ (label own d : Nat) (at_ : Stc), s.Runs → s.c.paired = true → s.c.grpState 32 = 6 → label < 4294967296 →
      d < 4294967296 → ((Store.get {} s.c.twin.umps u.toNat : UmpUnit)).mine = [(label, own, at_)] →
      s.c.stc.total < at_.total → own ≠ d → Gives (.digestCell (BitVec.ofNat 32 label) u [BitVec.ofNat 32 d]) s (fun t =>
      ((Store.get {} t.c.twin.umps u.toNat : UmpUnit)).mine = [] ∧
        ((Store.get {} t.c.twin.umps u.toNat : UmpUnit)).run = ((Store.get {} s.c.twin.umps u.toNat : UmpUnit)).run + 1 ∧
      t.c.rd Ump.mismatchCnt = satInc 32 (s.c.rd Ump.mismatchCnt) ∧ t.c.rd Ump.lastUnit = u.toNat ∧ t.c.rd Ump.lastMate = d ∧
      t.c.rd Ump.lastLabel = label ∧ bit (t.c.stickyWord umpPage) 0 = true ∧ Within pairPages s t)) ∧
    (∀ (label : Nat) (bs : List Nat), s.Runs → s.c.paired = true → s.c.on Ump.en = true → s.c.on Ump.comparing = true →
      s.c.unitCompared u.toNat = true → s.c.unitPeriod u.toNat = some (label, some bs) →
      ((Store.get {} s.c.twin.umps u.toNat : UmpUnit)).mine = [] →
      ((Store.get {} s.c.twin.umps u.toNat : UmpUnit)).mates.find? (fun d => d.1 = label) = some (label, digestOf bs) →
      Gives (.umpireCompare u) s (fun t =>
      ((Store.get {} t.c.twin.umps u.toNat : UmpUnit)).run = 0 ∧ t.c.rd Ump.mismatchCnt = s.c.rd Ump.mismatchCnt ∧
      Out.cell 4 0 [label, u.toNat + 8192, digestOf bs] ∈ t.c.out ∧ Within [umpPage] s t)) ∧
    (∀ (label d : Nat) (bs : List Nat), s.Runs → s.c.paired = true → s.c.on Ump.en = true → s.c.on Ump.comparing = true →
      s.c.unitCompared u.toNat = true → s.c.unitPeriod u.toNat = some (label, some bs) →
      ((Store.get {} s.c.twin.umps u.toNat : UmpUnit)).mine = [] →
      ((Store.get {} s.c.twin.umps u.toNat : UmpUnit)).mates.find? (fun e => e.1 = label) = some (label, d) →
      d ≠ digestOf bs → Gives (.umpireCompare u) s (fun t =>
      ((Store.get {} t.c.twin.umps u.toNat : UmpUnit)).run = ((Store.get {} s.c.twin.umps u.toNat : UmpUnit)).run + 1 ∧
      t.c.rd Ump.mismatchCnt = satInc 32 (s.c.rd Ump.mismatchCnt) ∧ t.c.rd Ump.lastUnit = u.toNat ∧
      t.c.rd Ump.lastMate = d % 2 ^ 32 ∧ t.c.rd Ump.lastLabel = label % 2 ^ 32 ∧ bit (t.c.stickyWord umpPage) 0 = true ∧
      ((2 ≤ ((Store.get {} s.c.twin.umps u.toNat : UmpUnit)).run ∧ s.c.on Ump.dispute = false ∧ s.c.rd Twin.health ≠ 2 ∧
        s.c.rd Twin.mateHealth ≠ 2) →
        t.c.rd Ump.dispute = 1 ∧ t.c.rd Ump.dunit = u.toNat ∧ bit (t.c.stickyWord umpPage) 1 = true) ∧
      Within pairPages s t)) ∧
    (∀ (w : Stc × Stc), s.Runs → s.c.paired = true → s.c.twin.win = some w → s.c.on Ump.dispute = true →
      s.c.twin.own = none → s.c.twin.mate = none → Gives .verdictSend s (fun t =>
      t.c.twin.own = some ((s.c.worstInWindow w).isSome, ((s.c.worstInWindow w).map LogEntry.src).getD 0) ∧
      Out.cell 6 0 [5, s.c.rd Ump.dunit, s.c.rd Ump.lastLabel,
        b2n (s.c.worstInWindow w).isSome + 2 * ((s.c.worstInWindow w).map LogEntry.src).getD 0] ∈ t.c.out ∧ Confined [] [] s t)) ∧
    (∀ (label : BitVec 32) (fault : Bool) (src : BitVec 8), s.Runs → s.c.paired = true → s.c.grpState 32 = 6 →
      s.c.on Ump.dispute = true → s.c.twin.win ≠ none → s.c.rd Ump.dunit = u.toNat → s.c.twin.own = none →
      Gives (.verdictCell u label fault src) s (fun t => t.c.twin.mate = some (fault, src.toNat) ∧ Confined [] [] s t)) ∧
    (∀ (label : BitVec 32) (src : BitVec 8) (n : Nat), s.Runs → s.c.paired = true → s.c.grpState 32 = 6 →
      s.c.pairState = 3 → s.c.yieldDue = 0 → s.c.on Ump.dispute = true → s.c.twin.win ≠ none → s.c.rd Ump.dunit = u.toNat →
      s.c.twin.own = some (true, n) → Gives (.verdictCell u label false src) s (fun t =>
      t.c.rd Ump.attrib = 1 ∧ t.c.yieldDue = 2 ∧ t.c.rd Ump.dispute = 0 ∧ t.c.rd Twin.health = 2 ∧
      bit (t.c.stickyWord umpPage) 3 = true ∧ Confined [Ump.attrib, Ump.dispute, Twin.health] [umpPage, twinPage] s t)) ∧
    (s.Runs → s.c.paired = true → s.c.on Ump.dispute = true → s.c.twin.win ≠ none → s.c.twin.own ≠ none →
      s.c.twin.mate = none → Gives .verdictTimeout s (fun t =>
      t.c.rd Ump.attrib = 3 ∧ t.c.rd Ump.dispute = 1 ∧ t.c.yieldDue = s.c.yieldDue ∧ Confined [Ump.attrib] [] s t))

/-- R394: every 10 ms the causes and the grade they give are shown and told to the mate; `CLR` clears the latched causes. R396: a failed
BIST segment in `STANDBY` latches its cause with sticky bit 7, and a good or abandoned one does nothing. R397: a group whose `LSIDE`
differs is listed once with sticky bit 5. -/
def Obligations.PairHealth : Prop :=
  ∀ (s : State),
    (s.Runs → s.c.paired = true → Gives .healthGrade s (fun t =>
      t.c.rd Twin.health = gradeOf s.c.healthCauses ∧ t.c.rd Twin.cause = s.c.healthCauses % 256 ∧
      (gradeOf s.c.healthCauses ≠ s.c.rd Twin.health → bit (t.c.stickyWord twinPage) 12 = true) ∧
      Confined [Twin.health, Twin.cause] [twinPage] s t)) ∧
    (∀ (m : Master), s.Allows m 0 twinPage 0x48 0 false →
      Gives (.healthClr m) s (fun t => t.c.twin.latched = 0 ∧ Confined [Twin.hClr] [] s t)) ∧
    (∀ (tile : BitVec 10), s.Runs → s.c.pairState = 6 → s.c.on Twin.bistEn = true →
      Gives (.bistSegment tile .failed) s (fun t =>
      bit t.c.twin.latched 2 = true ∧ bit (t.c.stickyWord twinPage) 7 = true ∧ Confined [] [twinPage] s t)) ∧
    (∀ (tile : BitVec 10) (r : BistEnd), s.Runs → r ≠ .failed →
      Gives (.bistSegment tile r) s (fun t => t.c.twin = s.c.twin ∧ Confined [] [] s t)) ∧
    (∀ (g : Fin 32), s.Runs → s.c.paired = true → s.c.lsideDiffers g = true → s.c.twin.lsideBad.contains g.val = false →
      Gives (.lsideMismatch g) s (fun t =>
      t.c.twin.lsideBad = s.c.twin.lsideBad ++ [g.val] ∧ t.c.rd Twin.lsideBad = (s.c.twin.lsideBad.length + 1) % 64 ∧
      bit (t.c.stickyWord twinPage) 5 = true ∧ Confined [Twin.lsideBad] [twinPage] s t))

/-! ## The fault collector (R404 to R428) -/

/-- R406: an attempt without its second one within 100 ms is reported as lasting and stands; R407: a report of a class that holds an
unacknowledged entry is one severity higher, no higher than CRITICAL; R413, R414: a report that is not OFF is an entry of the log ring at
the write pointer and, where none stands, the first-fault record. R412: acknowledged classes hold nothing unacknowledged; R414: `FF_CLR`
clears the first-fault record. -/
def Obligations.FaultLog : Prop :=
  ∀ (s : State),
    (∀ (src : BitVec 8) (page : BitVec 16) (inst : BitVec 32) (a : Attempt), s.Runs →
      s.c.attempt src.toNat page.toNat inst.toNat = some a → a.standing = false → a.real = true →
      s.c.effSev ⟨a.src, a.page, a.inst, a.detail, true, a.inj, true, [], false⟩ ≠ 0 →
      Gives (.secondAttemptTimeout src page inst) s (fun t =>
      (t.c.attempt src.toNat page.toNat inst.toNat).map Attempt.standing = some true ∧
      (Store.get {} t.c.fcu.log (s.c.frd Fcu.logWptr) : LogEntry).src = src.toNat ∧
      (Store.get {} t.c.fcu.log (s.c.frd Fcu.logWptr) : LogEntry).lasting = true ∧
      (Store.get {} t.c.fcu.log (s.c.frd Fcu.logWptr) : LogEntry).seq = s.c.frd Fcu.seq ∧
      t.c.fcu.first.isSome = true ∧ t.c.frd Fcu.ffValid = 1 ∧ Within [] s t)) ∧
    (∀ (r : Report), s.c.baseSev r ≠ 0 → bit (s.c.frd Fcu.unackReal) (r.src / 16) = true →
      s.c.effSev r = min 4 (s.c.baseSev r + 1)) ∧
    (∀ (m : Master) (classes : BitVec 16), s.Allows m 0 fcuPage 0x54 1 false → Gives (.fcuAck m classes) s (fun t =>
      (∀ k : Fin 16, bit classes.toNat k = true →
        bit (t.c.frd Fcu.unackReal) k = false ∧ bit (t.c.frd Fcu.unackInj) k = false ∧ t.c.frd (Fcu.worstOf k) = 0) ∧
      (∀ k : Fin 16, bit classes.toNat k = false →
        bit (t.c.frd Fcu.unackReal) k = bit (s.c.frd Fcu.unackReal) k ∧ t.c.frd (Fcu.worstOf k) = s.c.frd (Fcu.worstOf k)) ∧
      t.c.fcu.log = s.c.fcu.log.map (fun p => (p.1, ackEntry classes.toNat p.2)) ∧ t.c.fcu.first = s.c.fcu.first ∧ Confined [] [] s t)) ∧
    (∀ (m : Master), s.Allows m 0 fcuPage 0x40 1 false → Gives (.ffClr m) s (fun t =>
      t.c.fcu.first = none ∧ t.c.frd Fcu.ffValid = 0 ∧ t.c.fcu.log = s.c.fcu.log ∧ t.c.frd Fcu.unackReal = s.c.frd Fcu.unackReal ∧
      Confined [] [] s t)) ∧
    (∀ (d : Fin 1664), s.Runs → s.c.frd Fcu.maxFrames ≠ 0 → Gives (.holdLimit d) s (fun t =>
      t.c.fcu.holds = s.c.fcu.holds.map (fun h =>
        if h.kind = 0 ∧ h.item = d.val ∧ s.c.frd Fcu.maxFrames < h.frames then { h with black := true } else h) ∧ Confined [] [] s t))

/-- R415: the first heartbeat starts ALIVE and ends the wait for one; R416: 2 ms without one stop it with `STOP` bit 1; `ALIVE_CLR` starts
it again where no stop condition is present and no class holds an unacknowledged real CRITICAL entry, and is refused with sticky bit 6
where one is; R417: the grace period of a WARM reset ends in the stop condition where no heartbeat has come. R415: while it runs the pin
toggles. -/
def Obligations.Alive : Prop :=
  ∀ (s : State),
    (∀ (m : Master) (v : BitVec 32), s.Allows m 0 fcuPage 0x4C 1 false → s.c.fcu.beaten = false → s.c.frd Fcu.stop = 0 →
      Gives (.heartbeat m v) s (fun t =>
      t.c.fcu.beaten = true ∧ t.c.fcu.hbStop = false ∧ t.c.frd Fcu.waitHb = 0 ∧ t.c.frd Fcu.aliveRun = 1 ∧ t.c.fcu.alive = true ∧
      Confined [] [] s t)) ∧
    (∀ (m : Master) (v : BitVec 32), s.Allows m 0 fcuPage 0x4C 1 false → s.c.fcu.beaten = true →
      Gives (.heartbeat m v) s (fun t =>
      t.c.fcu.hbStop = false ∧ t.c.fcu.grace = false ∧ t.c.frd Fcu.aliveRun = s.c.frd Fcu.aliveRun ∧ t.c.fcu.alive = s.c.fcu.alive ∧
      Confined [] [] s t)) ∧
    (s.Runs → s.c.fcu.beaten = true → s.c.fcu.grace = false → s.c.fcu.hbStop = false → Gives .heartbeatTimeout s (fun t =>
      t.c.fcu.hbStop = true ∧ t.c.frd Fcu.aliveRun = 0 ∧ bit (t.c.frd Fcu.stop) 1 = true ∧ bit (t.c.stickyWord fcuPage) 5 = true ∧
      Confined [] [] s t)) ∧
    (s.Runs → s.c.fcu.beaten = true → s.c.fcu.grace = true → s.c.fcu.hbStop = false → Gives .hbGraceExpire s (fun t =>
      t.c.fcu.hbStop = true ∧ t.c.fcu.grace = false ∧ t.c.frd Fcu.aliveRun = 0 ∧ bit (t.c.frd Fcu.stop) 1 = true ∧ Confined [] [] s t)) ∧
    (∀ (m : Master), s.Allows m 0 fcuPage 0x40 0 false → s.c.aliveBarred = false → s.c.fcu.beaten = true →
      s.c.frd Fcu.aliveRun = 0 → Gives (.aliveClr m) s (fun t =>
      t.c.frd Fcu.stop = 0 ∧ t.c.frd Fcu.aliveRun = 1 ∧ t.c.fcu.alive = true ∧ Confined [] [] s t)) ∧
    (∀ (m : Master), s.Allows m 0 fcuPage 0x40 0 false → s.c.aliveBarred = true → Gives (.aliveClr m) s (fun t =>
      t.c.frd Fcu.stop = s.c.frd Fcu.stop ∧ t.c.frd Fcu.aliveRun = s.c.frd Fcu.aliveRun ∧ bit (t.c.stickyWord fcuPage) 6 = true ∧
      Confined [] [] s t)) ∧
    (s.Runs → s.c.frd Fcu.aliveRun = 1 → bit (s.c.rd Dev.compat) 2 = false →
      Gives .aliveToggle s (fun t => t.c.fcu = { s.c.fcu with alive := !s.c.fcu.alive } ∧ Confined [] [] s t))

/-- R418: an arming of an existing checker with a pattern that fits is shown, a second one is refused with code 3; it ends without an
access after 1 s with sticky bit 8. R423: the scrubber's position is kept, a wrap counts a pass with sticky bit 4, and an uncorrectable
word of a stack is counted and poisoned. -/
def Obligations.Injection : Prop :=
  ∀ (s : State),
    (∀ (target : BitVec 16) (a0 a1 : BitVec 32), s.Runs → target.toNat < 13 →
      checkerInstance target.toNat (a1.toNat % 65536) = true → s.c.fcu.arm = none → a0.toNat ≠ 0 →
      a0.toNat < 2 ^ checkWidth target.toNat → Gives (.injectArm target a0 a1) s (fun t =>
      t.c.fcu.arm = some ⟨target.toNat, a1.toNat % 65536, a0.toNat, bit a1.toNat 16⟩ ∧ t.c.frd Fcu.injArmed = 1 ∧
      t.c.frd Fcu.injPattern = a0.toNat ∧ t.c.frd Fcu.injFired = 0 ∧ t.c.rd Cmd.state = 3 ∧ t.c.rd Cmd.refuse = 0 ∧
        Confined [] [cmdPage] s t)) ∧
    (∀ (target : BitVec 16) (a0 a1 : BitVec 32), s.Runs → target.toNat < 13 →
      checkerInstance target.toNat (a1.toNat % 65536) = true → s.c.fcu.arm ≠ none → Gives (.injectArm target a0 a1) s (fun t =>
      t.c.fcu.arm = s.c.fcu.arm ∧ t.c.rd Cmd.state = 4 ∧ t.c.rd Cmd.refuse = 3 ∧ bit (t.c.stickyWord cmdPage) 1 = true ∧
      Confined [] [cmdPage] s t)) ∧
    (s.Runs → s.c.fcu.arm ≠ none → Gives .injectExpire s (fun t =>
      t.c.fcu.arm = none ∧ t.c.frd Fcu.injArmed = 0 ∧ bit (t.c.stickyWord fcuPage) 8 = true ∧ Confined [] [] s t)) ∧
    (∀ (k : Fin 8) (a : BitVec 32) (again : BitVec 16) (pos : BitVec 12), s.Runs → k.val < 2 → s.c.fcu.arm = none →
      Gives (.scrubStep k 0 a 0 again pos) s (fun t =>
      t.c.rd (Hbm.pos.nth k) = pos.toNat ∧
      (pos.toNat < s.c.rd (Hbm.pos.nth k) → t.c.rd (Hbm.passes.nth k) = satInc 16 (s.c.rd (Hbm.passes.nth k)) ∧
        bit (t.c.stickyWord hbmPage) 4 = true) ∧ Confined [Hbm.pos.nth k, Hbm.passes.nth k] [hbmPage] s t)) ∧
    (∀ (k : Fin 8) (a : BitVec 32) (syn again : BitVec 16) (pos : BitVec 12), s.Runs → k.val < 2 → s.c.fcu.arm = none →
      syn ≠ 0 → oneBit syn.toNat = false → Gives (.scrubStep k 0 a syn again pos) s (fun t =>
      t.c.rd (Hbm.ueCnt.nth k) = satInc 32 (s.c.rd (Hbm.ueCnt.nth k)) ∧ t.c.isPoisoned k 0 a.toNat = true ∧
      bit (t.c.stickyWord hbmPage) (2 * k + 1) = true ∧
      Confined [Hbm.pos.nth k, Hbm.passes.nth k, Hbm.ueCnt.nth k, Hbm.poison.nth k] [hbmPage] s t))

/-! ## The control plane, the host and the mailbox (R26, R429 to R460, R487 to R493) -/

/-- R430, R435: the housekeeping processor's write of a word of working RAM writes that word and no other byte. R432: a request at a full
port is held and changes nothing. R433: a write whose ID an earlier transaction in flight has is done, and its response waits for that of
the earlier one. R431: an access to an address that no target holds answers DECERR, records master and address and sets sticky bit 0; a
target that does not answer for 1 ms gives SLVERR and sticky bit 1; a transaction beyond its master's IDs gives SLVERR and sticky bit 2.
R435: a write without the right changes nothing but the count and the sticky bit of denials. R491: an access to `TW_DATA` reaches the
indexed word and moves the index on; R493: a word of table space is written and read in place; R489: the longest period restarts when it
is read. -/
def Obligations.FabricAccesses : Prop :=
  ∀ (s : State) (m : Master),
    (∀ (addr : BitVec 32) (id : BitVec 6) (w : BitVec 32) (off : Nat), s.Runs → s.PortTakes m id.toNat true →
      s.c.masterRuns m = true → (m = .jtag → s.c.debugSeen = true) → hkRights m = true → s.c.region addr.toNat = .ram off →
      off + 4 ≤ 4194304 → Gives (.registerWrite m addr id 15 15 [w]) s (fun t =>
      Mem.word t.mem 0 off = w.toNat ∧
      (∀ r : Nat, ∀ o : Nat, o < 8589934592 → ¬(r = 0 ∧ off ≤ o ∧ o < off + 4) → Mem.byte t.mem r o = Mem.byte s.mem r o) ∧
      t.c.resp = .okay ∧ Within [] s { t with mem := s.mem })) ∧
    (∀ (addr : BitVec 32) (id : BitVec 6) (w : BitVec 32) (off : Nat), s.Runs → m = .hk → s.c.masterRuns m = true →
      s.c.portHeld (masterNum m) true = false →
      (id.toNat :: (s.c.inFlight.filter (fun p => p.1 = masterNum m)).map Prod.snd).eraseDups.length ≤ idLimit (masterNum m) →
      ((s.c.inFlight.filter (fun p => p.1 = masterNum m)).map Prod.snd).filter (· = id.toNat) ≠ [] →
      s.c.region addr.toNat = .ram off → off + 4 ≤ 4194304 → Gives (.registerWrite m addr id 15 15 [w]) s (fun t =>
      Mem.word t.mem 0 off = w.toNat ∧ t.c.resp = .withheld ∧ t.c.inFlight = s.c.inFlight ++ [(masterNum m, id.toNat)] ∧
      Within [] s { t with mem := s.mem })) ∧
    (∀ (addr : BitVec 32) (id : BitVec 6) (w : BitVec 32), s.Runs → s.PortTakes m id.toNat true → s.c.masterRuns m = true →
      (m = .jtag → s.c.debugSeen = true) → s.c.region addr.toNat = .none →
      Gives (.registerWrite m addr id 15 15 [w]) s (fun t =>
      t.c.resp = .decerr ∧ t.c.rd Cfab.errAddr = addr.toNat ∧ t.c.rd Cfab.errMaster = masterNum m ∧ t.c.rd Cfab.errResp = 2 ∧
      t.c.rd Cfab.errWrite = 1 ∧ t.c.rd Cfab.errId = id.toNat ∧ t.c.rd Cfab.errValid = 1 ∧
      bit (t.c.stickyWord cfabPage) 0 = true ∧ Confined [] [cfabPage] s t)) ∧
    (∀ (addr : BitVec 32) (id : BitVec 6) (p : BitVec 9) (off : BitVec 12) (w : BitVec 32), s.Runs →
      s.PortTakes .bi2c id.toNat true → s.c.masterRuns .bi2c = true → m = .bi2c →
      addr.toNat = 0x40000000 + 4096 * p.toNat + off.toNat → pageExists p.toNat = true → p.toNat ≠ cmdPage →
      0x40 ≤ off.toNat → off.toNat % 4 = 0 → perMaster p.toNat off.toNat = false →
      (hasWindow p.toNat = false ∨ off.toNat ≠ 0xF4) →
      (reached p.toNat 0 off.toNat allBits writable).any (fun f => s.c.touches f w.toNat allBits) = true →
      (reached p.toNat 0 off.toNat allBits (fun a => decide (a = .rwl))).isEmpty = true →
      Gives (.registerWrite m addr id 15 15 [w]) s (fun t =>
      t.c.rd Mgmt.denyBi2c = satInc 16 (s.c.rd Mgmt.denyBi2c) ∧ bit (t.c.stickyWord mgmtPage) 2 = true ∧
      t.c.resp = .okay ∧ Confined [Mgmt.denyBi2c] [mgmtPage] s t)) ∧
    (∀ (id : BitVec 6) (w : BitVec 32), s.Runs → s.PortTakes .hk id.toNat true → s.c.masterRuns .hk = true → m = .hk →
      Gives (.registerWrite m 0x4000B040 id 15 15 [w]) s (fun t =>
      t.c.rd Mgmt.mspiWr = w.toNat % 2 ∧ t.c.rd Mgmt.mspiCmd = w.toNat / 2 % 2 ∧ t.c.rd Mgmt.bi2cCmd = w.toNat / 4 % 2 ∧
      t.c.resp = .okay ∧ Confined [Mgmt.mspiWr, Mgmt.mspiCmd, Mgmt.bi2cCmd] [] s t)) ∧
    (∀ (i : Fin 256) (w : BitVec 32) (syn again : BitVec 32), s.Allows m 1 umpPage i 0 true → s.PortTakes m 0 true →
      s.c.rd (twIndex (masterNum m) umpPage) = i → s.c.memoryOff umpPage i = false →
      Gives (.tableWindowAccess m 0x129 (some (w, 15)) syn again) s (fun t =>
      t.c.rd (Ump.excl.nth i) = w.toNat ∧
      t.c.rd (twIndex (masterNum m) umpPage) = i.val + (if s.c.on (twInc (masterNum m) umpPage) then 1 else 0) ∧
      Confined (Ump.excl.nth i :: twIndex (masterNum m) umpPage :: clusterStates) [] s t)) ∧
    (∀ (i : Fin 256), s.Runs → s.PortTakes m 0 false → s.c.masterRuns m = true → (m = .jtag → s.c.debugSeen = true) →
      s.c.mayRead m umpPage 0xF4 = true → s.c.rd (twIndex (masterNum m) umpPage) = i → s.c.memoryOff umpPage i = false →
      s.c.fcu.arm = none → s.c.isPoisoned 7 umpPage i = false → s.c.mirrorQ = [] →
      Gives (.tableWindowAccess m 0x129 none 0 0) s (fun t =>
      t.c.rdata = [s.c.rd (Ump.excl.nth i)] ∧ t.c.resp = .okay ∧
      t.c.rd (twIndex (masterNum m) umpPage) = i.val + (if s.c.on (twInc (masterNum m) umpPage) then 1 else 0) ∧
      Confined (twIndex (masterNum m) umpPage :: clusterStates) [] s t)) ∧
    (∀ (off : BitVec 29) (w : BitVec 32) (syn again : BitVec 32), s.Allows m 1 schedPage 0 0 true → s.PortTakes m 0 true →
      0x02000000 ≤ off.toNat → off.toNat + 4 ≤ 0x02400000 → off.toNat % 4 = 0 → s.c.on Sched.loadGo = false →
      Gives (.tableSpaceAccess m off (some [(w, 15)]) 1 syn again) s (fun t =>
      Mem.word t.mem 4 (off.toNat - 0x02000000) = w.toNat ∧
      (∀ r : Nat, ∀ o : Nat, o < 8589934592 → ¬(r = 4 ∧ off.toNat - 0x02000000 ≤ o ∧ o < off.toNat - 0x02000000 + 4) →
        Mem.byte t.mem r o = Mem.byte s.mem r o) ∧
      t.c.resp = .okay ∧ Within [] s { t with mem := s.mem })) ∧
    (∀ (off : BitVec 29), s.Runs → s.PortTakes m 0 false → s.c.masterRuns m = true → (m = .jtag → s.c.debugSeen = true) →
      m ≠ .bi2c → m ≠ .twin → 0x02000000 ≤ off.toNat → off.toNat + 4 ≤ 0x02400000 → off.toNat % 4 = 0 → s.c.fcu.arm = none →
      s.c.mirrorQ = [] → Gives (.tableSpaceAccess m off none 1 0 0) s (fun t =>
      t.c.rdata = [Mem.word s.mem 4 (off.toNat - 0x02000000)] ∧ t.c.resp = .okay ∧ Confined [] [] s t)) ∧
    (∀ (k : Fin 64), s.Runs → s.PortTakes m 0 false → s.c.masterRuns m = true → (m = .jtag → s.c.debugSeen = true) →
      s.c.mayRead m (novaPage k) 0x64 = true → s.c.mirrorQ = [] →
      Gives (.sinceLastReadRestart m (BitVec.ofNat 16 (novaPage k)) 0x64) s (fun t =>
      t.c.rdata = [s.c.rd (Nova.stepsMax.on k)] ∧ t.c.rd (Nova.stepsMax.on k) = s.c.rd (Nova.stepsLast.on k) % 2 ^ 32 ∧
        Confined [Nova.stepsMax.on k] [] s t)) ∧
    (∀ (addr : BitVec 32) (id : BitVec 6) (first last : BitVec 4) (ws : List (BitVec 32)), s.Runs →
      s.c.masterRuns m = true → s.c.portHeld (masterNum m) true = true →
      Gives (.registerWrite m addr id first last ws) s (fun t => t.c.resp = .held ∧ Confined [] [] s t)) ∧
    (∀ (addr : BitVec 32) (id : BitVec 6) (first last : BitVec 4) (ws : List (BitVec 32)), s.Runs →
      s.c.masterRuns m = true → s.c.portHeld (masterNum m) true = false →
      idLimit (masterNum m) < (id.toNat :: (s.c.inFlight.filter (fun p => p.1 = masterNum m)).map Prod.snd).eraseDups.length →
      Gives (.registerWrite m addr id first last ws) s (fun t =>
      t.c.resp = .slverr ∧ t.c.rd Cfab.errAddr = addr.toNat ∧ t.c.rd Cfab.errId = id.toNat ∧ t.c.rd Cfab.errResp = 1 ∧
      bit (t.c.stickyWord cfabPage) 2 = true ∧ Confined [] [cfabPage] s t)) ∧
    (∀ (addr : BitVec 32) (id : BitVec 6) (write : Bool), s.Runs → Gives (.fabricTimeout m addr id write) s (fun t =>
      t.c.resp = .slverr ∧ t.c.rd Cfab.errAddr = addr.toNat ∧ t.c.rd Cfab.errResp = 1 ∧ t.c.rd Cfab.errValid = 1 ∧
      bit (t.c.stickyWord cfabPage) 1 = true ∧ Confined [] [cfabPage] s t)) ∧
    (∀ (addr : BitVec 32) (id : BitVec 6) (n : BitVec 7), s.Runs → Gives (.decerrRead m addr id n true) s (fun t =>
      t.c.resp = .slverr ∧ t.c.rd Cfab.errAddr = addr.toNat ∧ t.c.rd Cfab.errResp = 1 ∧ bit (t.c.stickyWord cfabPage) 2 = true ∧
      Confined [] [cfabPage] s t)) ∧
    (∀ (addr : BitVec 32) (id : BitVec 6) (n : BitVec 7), s.Runs → s.PortTakes m id.toNat false → s.c.masterRuns m = true →
      (m = .jtag → s.c.debugSeen = true) → s.c.region addr.toNat = .none → Gives (.decerrRead m addr id n false) s (fun t =>
      t.c.resp = .decerr ∧ t.c.rd Cfab.errAddr = addr.toNat ∧ t.c.rd Cfab.errResp = 2 ∧ bit (t.c.stickyWord cfabPage) 0 = true ∧
      Confined [] [cfabPage] s t))

/-- R436: a link that comes up shows its generation with sticky bit 2, one that is lost reads down with sticky bit 0 and stops messages;
R438: an error is counted with sticky bit 1; a function-level reset keeps what the link shows, clears pending messages and sets sticky bit
3; a router reset is a WARM reset with cause 4, which clears working RAM alone (R472). R439: a vector whose condition holds sends its
message again at EOI and at its unmasking, and ends its pending bit where none holds. R444: a host image is started if it is valid, and
refused with sticky bit 4 if it is not. -/
def Obligations.HostAttachment : Prop :=
  ∀ (s : State),
    (∀ (gen : BitVec 3) (tunnel bm msix : Bool), s.Runs → 2 ≤ gen.toNat → gen.toNat ≤ 4 →
      Gives (.usb4LinkUp gen tunnel bm msix) s (fun t =>
      t.c.rd Hst.gen = gen.toNat ∧ t.c.rd Hst.linkUp = 1 ∧ t.c.rd Hst.tunnelUp = b2n tunnel ∧ t.c.rd Hst.busMaster = b2n bm ∧
      t.c.rd Hst.msixEn = b2n msix ∧ bit (t.c.stickyWord hostPage) 2 = true ∧
      Confined [Hst.gen, Hst.linkUp, Hst.tunnelUp, Hst.busMaster, Hst.msixEn] [hostPage] s t)) ∧
    (s.Runs → s.c.on Hst.linkUp = true → Gives .usb4LinkDown s (fun t =>
      t.c.rd Hst.linkUp = 0 ∧ t.c.rd Hst.gen = 0 ∧ t.c.rd Hst.tunnelUp = 0 ∧ t.c.rd Hst.busMaster = 0 ∧ t.c.rd Hst.msixEn = 0 ∧
      bit (t.c.stickyWord hostPage) 0 = true ∧
      Confined [Hst.gen, Hst.linkUp, Hst.tunnelUp, Hst.busMaster, Hst.msixEn] [hostPage] s t)) ∧
    (s.Runs → s.c.power.warm = none → s.c.host.rotate = none → Gives .usb4RouterReset s (fun t =>
      t.c.power.warm = some 4 ∧ t.c.rd Cmd.state = 10 ∧ (∀ o : Nat, o < 8589934592 → Mem.byte t.mem 0 o = 0) ∧
      (∀ r : Nat, ∀ o : Nat, o < 8589934592 → r ≠ 0 → Mem.byte t.mem r o = Mem.byte s.mem r o) ∧ t.pending = s.pending)) ∧
    (∀ (recovered : Bool), s.Runs → Gives (.usb4LinkError recovered) s (fun t =>
      t.c.rd Hst.errCnt = satInc 32 (s.c.rd Hst.errCnt) ∧ bit (t.c.stickyWord hostPage) 1 = true ∧ Confined [Hst.errCnt] [hostPage] s t)) ∧
    (s.Runs → Gives .functionLevelReset s (fun t =>
      t.c.pba = 0 ∧ t.c.rd Hst.linkUp = s.c.rd Hst.linkUp % 2 ∧ t.c.rd Hst.gen = s.c.rd Hst.gen % 8 ∧ t.c.rd Hst.busMaster = 0 ∧
      t.c.rd Hst.msixEn = 0 ∧ bit (t.c.stickyWord hostPage) 3 = true ∧ Within [hostPage] s t)) ∧
    (∀ (m : Master) (v : Fin 64), s.Allows m 0 hostPage (0x48 + 4 * (v.val / 32)) 1 false → bit s.c.cond v = true →
      s.c.on Hst.msixEn = true → s.c.on (msixMask v) = false →
      Gives (.hostEoi m v) s (fun t => Out.msix v ∈ t.c.out ∧ Confined [] [] s t)) ∧
    (∀ (m : Master) (v : Fin 64), s.Allows m 0 hostPage (0x80C + 16 * v) 1 false → s.c.on (msixMask v) = true →
      Gives (.msixUnmask m v) s (fun t =>
      t.c.on (msixMask v) = false ∧ (bit s.c.cond v = true → s.c.on Hst.msixEn = true → Out.msix v ∈ t.c.out) ∧
      (bit s.c.cond v = false → bit t.c.pba v = false) ∧ Confined [msixMask v] [] s t)) ∧
    (∀ (m : Master), s.Allows m 0 hostPage 0x40 1 false → s.c.rd Dev.boot = 3 → Gives (.bootGo m) s (fun t =>
      t.c.rd Hst.bootGo = 0 ∧
      (if s.c.imageValid s.mem 0 0 then t.c.rd Dev.boot = 4 ∧ t.c.rd Dev.hostImg = 1 ∧ t.c.rd Cfab.remap = 1 ∧
          t.c.rd Dev.fwVer = Mem.word s.mem 0 4
       else t.c.rd Dev.boot = 3 ∧ bit (t.c.stickyWord hostPage) 4 = true) ∧ Within [hostPage, devPage] s t))

/-- R441: a read frame answers each word marked `0xA5`, an error marked `0x5A` with zeros; a write frame writes where `MSPI_WR` allows it,
and is counted as denied and changes nothing where it does not; a status frame tells both and clears them; a bad frame is counted with
sticky bit 0. R442: a board transfer reads and writes the mailbox where `BI2C_CMD` allows it and moves its address on; a protocol error is
counted with sticky bit 1. -/
def Obligations.BoardController : Prop :=
  ∀ (s : State),
    (s.Runs → s.PortTakes .mspi 0 false → s.c.masterRuns .mspi = true → s.c.mirrorQ = [] →
      Gives (.mspiRead 0x4000B040 1) s (fun t =>
      Out.serial [0xA5, 0, 0, 0, s.c.rd Mgmt.mspiWr + 2 * s.c.rd Mgmt.mspiCmd + 4 * s.c.rd Mgmt.bi2cCmd] ∈ t.c.out ∧
      t.c.host.spiErr = false ∧ Confined [] [] s t)) ∧
    (∀ (addr : BitVec 32), s.Runs → s.PortTakes .mspi 0 false → s.c.masterRuns .mspi = true →
      s.c.region addr.toNat = .none → Gives (.mspiRead addr 1) s (fun t =>
      Out.serial [0x5A, 0, 0, 0, 0] ∈ t.c.out ∧ t.c.host.spiErr = true ∧ bit (t.c.stickyWord cfabPage) 0 = true ∧
        Confined [] [cfabPage] s t)) ∧
    (∀ (w : BitVec 32), s.Allows .mspi 0 (ethPage 0) 0x4C 0 true → s.PortTakes .mspi 0 true →
      Gives (.mspiWrite 0x4004804C [w]) s (fun t =>
      t.c.rd (Eth.excClass.on 0) = w.toNat % 32 ∧ t.c.host.spiErr = false ∧ t.c.host.spiDenied = false ∧
      Confined [Eth.excClass.on 0] [] s t)) ∧
    (∀ (w : BitVec 32), s.Runs → s.PortTakes .mspi 0 true → s.c.masterRuns .mspi = true → s.c.on Mgmt.mspiWr = false →
      s.c.rd (Eth.excClass.on 0) < 32 → w.toNat % 32 ≠ s.c.rd (Eth.excClass.on 0) →
      Gives (.mspiWrite 0x4004804C [w]) s (fun t =>
      t.c.rd Mgmt.denyMspi = satInc 16 (s.c.rd Mgmt.denyMspi) ∧ t.c.host.spiDenied = true ∧ bit (t.c.stickyWord mgmtPage) 2 = true ∧
      Confined [Mgmt.denyMspi] [mgmtPage] s t)) ∧
    (s.Runs → Gives .mspiStatus s (fun t =>
      Out.serial [s.c.rd Mgmt.mspiBusy + 2 * b2n s.c.host.spiErr + 4 * b2n s.c.host.spiDenied] ∈ t.c.out ∧
      t.c.host.spiErr = false ∧ t.c.host.spiDenied = false ∧ Confined [] [] s t)) ∧
    (s.Runs → Gives .mspiBadFrame s (fun t =>
      t.c.rd Mgmt.errMspi = satInc 16 (s.c.rd Mgmt.errMspi) ∧ bit (t.c.stickyWord mgmtPage) 0 = true ∧
        Confined [Mgmt.errMspi] [mgmtPage] s t)) ∧
    (∀ (w : BitVec 32), s.Runs → s.PortTakes .bi2c 0 true → s.c.masterRuns .bi2c = true → s.c.on Mgmt.bi2cCmd = true →
      s.c.on Cmd.go = false → s.c.host.owner = none → Gives (.bi2cWrite 0x40008060 [w] true) s (fun t =>
      t.c.rd Cmd.cntLo = w.toNat ∧ t.c.host.i2cAddr = 0x40008064 ∧ Confined [] [] s t)) ∧
    (∀ (addr : BitVec 32), s.Runs → Gives (.bi2cWrite addr [] false) s (fun t =>
      t.c.rd Mgmt.errBi2c = satInc 16 (s.c.rd Mgmt.errBi2c) ∧ bit (t.c.stickyWord mgmtPage) 1 = true ∧ t.c.host.i2cAddr = addr.toNat ∧
      Confined [Mgmt.errBi2c] [mgmtPage] s t)) ∧
    (s.Runs → s.PortTakes .bi2c 0 false → s.c.masterRuns .bi2c = true → s.c.on Mgmt.bi2cCmd = true → s.c.mirrorQ = [] →
      s.c.host.i2cAddr = 0x40008060 → Gives (.bi2cRead 1 true) s (fun t =>
      Out.serial (shaBytes 4 (s.c.rd Cmd.cntLo)) ∈ t.c.out ∧ t.c.host.i2cAddr = 0x40008064 ∧ Confined [] [] s t))

/-- R447: the nonce is drawn once. R445: a claim of a free mailbox makes its reader the owner, a claim of an owned one tells the owner; a
release and 100 ms without a write end ownership. R446: `GO` of the owner begins a command; R450: while the mailbox is locked a command
ends as `LOCKED`; R448: a command outside the table ends as `BAD_OP`, one whose tag is wrong as `TAG_FAIL`, one whose counter is not above
the last as `COUNTER_FAIL`, and any other runs. R455: `COMPAT_SET` changes the word, or waits for its epoch on both devices of a pair, or
is refused by its code. -/
def Obligations.Mailbox : Prop :=
  ∀ (s : State),
    (∀ (n : BitVec 64), s.Runs → s.c.host.nonce = false → Gives (.nonceDrawn n) s (fun t =>
      t.c.rd Cmd.nonceLo = n.toNat % 2 ^ 32 ∧ t.c.rd Cmd.nonceHi = n.toNat / 2 ^ 32 ∧ t.c.host.nonce = true ∧ Confined [] [] s t)) ∧
    (∀ (m : Master), s.Runs → s.PortTakes m 0 false → s.c.masterRuns m = true → (m = .jtag → s.c.debugSeen = true) →
      s.c.mayRead m cmdPage 0x44 = true → Gives (.cmdClaim m) s (fun t =>
      t.c.host.owner = some (s.c.host.owner.getD (masterNum m)) ∧
      t.c.rdata = [(if s.c.host.owner.isNone then 3 else 2) + 4 * s.c.host.owner.getD (masterNum m)] ∧ Confined [] [] s t)) ∧
    (∀ (m : Master), s.Allows m 0 cmdPage 0x40 1 false → s.c.host.owner = some (masterNum m) →
      Gives (.cmdRelease m) s (fun t => t.c.host.owner = none ∧ Confined [] [] s t)) ∧
    (s.Runs → s.c.rd Cmd.state ≠ 1 → s.c.rd Cmd.state ≠ 2 →
      Gives .cmdOwnerTimeout s (fun t => t.c.host.owner = none ∧ Confined [] [] s t)) ∧
    (∀ (m : Master), s.Allows m 0 cmdPage 0x40 0 false → s.c.host.owner = some (masterNum m) → s.c.on Cmd.go = false →
      Gives (.cmdGo m) s (fun t =>
      t.c.rd Cmd.state = (if s.c.host.nonce then 1 else 9) ∧ t.c.rd Cmd.lastOp = s.c.rd Cmd.opcode % 256 ∧
      t.c.host.issuer = masterNum m ∧ (s.c.host.nonce = true → t.c.rd Cmd.go = 1) ∧ Confined [] [] s t)) ∧
    (s.Runs → s.c.rd Cmd.state = 1 → s.c.on Cmd.locked = true →
      Gives .cmdVerifyDone s (fun t => t.c.rd Cmd.state = 7 ∧ t.c.rd Cmd.go = 0 ∧ Confined [] [] s t)) ∧
    (s.Runs → s.c.rd Cmd.state = 1 → s.c.on Cmd.locked = false → (s.c.rd Cmd.opcode = 0 ∨ 0x0B < s.c.rd Cmd.opcode) →
      Gives .cmdVerifyDone s (fun t =>
      t.c.rd Cmd.state = 8 ∧ t.c.rd Cmd.go = 0 ∧ bit (t.c.stickyWord cmdPage) 1 = true ∧ Confined [] [cmdPage] s t)) ∧
    (s.Runs → s.c.rd Cmd.state = 1 → s.c.on Cmd.locked = false → 1 ≤ s.c.rd Cmd.opcode → s.c.rd Cmd.opcode ≤ 7 →
      s.c.slotServes (b2n s.c.otp.active1) = true → Gives .cmdVerifyDone s (fun t =>
      (if s.c.tagRight (b2n s.c.otp.active1) then
        (if s.c.rd Cmd.cntLo + 2 ^ 32 * s.c.rd Cmd.cntHi ≤ s.c.rd Cmd.lastLo + 2 ^ 32 * s.c.rd Cmd.lastHi then
          t.c.rd Cmd.state = 6 ∧ bit (t.c.stickyWord cmdPage) 3 = true
         else t.c.rd Cmd.state = 2 ∧ t.c.rd Cmd.lastOp = s.c.rd Cmd.opcode)
       else t.c.rd Cmd.state = 5 ∧ bit (t.c.stickyWord cmdPage) 2 = true) ∧ Confined [] [cmdPage] s t)) ∧
    (s.Runs → Gives .mailboxLockExpire s (fun t => t.c.rd Cmd.locked = 0 ∧ Confined [] [] s t)) ∧
    (∀ (target : BitVec 16) (a0 : BitVec 32), s.Runs → s.c.mirrors = false → Gives (.compatSet target a0) s (fun t =>
      (if s.c.compatCode target.toNat a0.toNat = 0 then t.c.rd Dev.compat = a0.toNat ∧ t.c.rd Cmd.state = 3 ∧ t.c.rd Cmd.refuse = 0
       else t.c.rd Dev.compat = s.c.rd Dev.compat ∧ t.c.rd Cmd.state = 4 ∧ t.c.rd Cmd.refuse = s.c.compatCode target.toNat a0.toNat) ∧
      Within [cmdPage, devPage, mixPage] s t)) ∧
    (∀ (target : BitVec 16) (a0 : BitVec 32), s.Runs → s.c.mirrors = true → s.c.compatCode target.toNat a0.toNat = 0 →
      s.c.replayFull = false → Gives (.compatSet target a0) s (fun t =>
      t.c.rd Dev.compat = s.c.rd Dev.compat ∧ t.c.rd Cmd.state = 3 ∧ t.c.rd Cmd.refuse = 0 ∧
      t.c.mirrorQ = s.c.mirrorQ ++ [⟨s.c.nextEpoch, s.c.mirrorSeq, 0, devPage, 0x48, a0.toNat, 15, 0xFFFFFFFF,
        masterNum (masterOf s.c.host.issuer), []⟩] ∧ Confined [Twin.queued] [cmdPage] s t))

/-- R453: an install is accepted or refused with the first code that applies (whether its signature verifies is an opaque constant of
Config). An accepted one erases the whole bank and nothing else, and keeps what it will write: the image's place and length, and one more
than the higher `SEQ` of the two banks. At its end the bank holds the image with that `SEQ`, and no other byte has changed; an error of
the flash, like every other reason, refuses it. R454: a rotation needs the other key programmed and not revoked, and the fuse supply; at
its end slot 1 is active, and slot 0 revoked where asked; an error leaves the fuses as they were. A WARM reset that waited for the
rotation begins then (R473). -/
def Obligations.FirmwareAndKeys : Prop :=
  ∀ (s : State),
    (∀ (target : BitVec 16) (a0 a1 : BitVec 32), s.Runs → Gives (.fwInstall target a0 a1) s (fun t =>
      (if s.c.installCode s.mem target.toNat a0.toNat a1.toNat = 0 then
        t.c.rd Cmd.state = 2 ∧ t.c.rd Cmd.refuse = 0 ∧
        t.c.host.install = some (a1.toNat % 2, a0.toNat, 256 + Mem.word s.mem 0 (a0.toNat + 8),
          (max (Mem.bankSeq s.mem 0) (Mem.bankSeq s.mem 1) + 1) % 2 ^ 32) ∧
        (∀ o : Nat, bankOff (a1.toNat % 2) ≤ o → o < bankOff (a1.toNat % 2 + 1) → Mem.byte t.mem 6 o = 0) ∧
        (∀ r : Nat, ∀ o : Nat, o < 8589934592 → ¬(r = 6 ∧ bankOff (a1.toNat % 2) ≤ o ∧ o < bankOff (a1.toNat % 2 + 1)) →
          Mem.byte t.mem r o = Mem.byte s.mem r o)
       else t.c.rd Cmd.state = 4 ∧ t.c.rd Cmd.refuse = s.c.installCode s.mem target.toNat a0.toNat a1.toNat ∧
        t.c.host.install = s.c.host.install ∧ bit (t.c.stickyWord cmdPage) 1 = true ∧ t.mem = s.mem) ∧
      Confined [] [cmdPage] s { t with mem := s.mem })) ∧
    (∀ (b off n seq : Nat), s.Runs → s.c.host.install = some (b, off, n, seq) → b < 2 → 256 ≤ n → off + n ≤ 4194304 →
      seq < 4294967296 → Gives (.fwInstallDone true) s (fun t =>
      t.c.host.install = none ∧ t.c.rd Cmd.state = 3 ∧ t.c.rd Cmd.refuse = 0 ∧ bit (t.c.stickyWord cmdPage) 0 = true ∧
      Out.flash b n ∈ t.c.out ∧ Mem.word t.mem 6 (bankOff b + 16) = seq ∧
      (∀ j : Nat, j < n → (j < 16 ∨ 20 ≤ j) → Mem.byte t.mem 6 (bankOff b + j) = Mem.byte s.mem 0 (off + j)) ∧
      (∀ r : Nat, ∀ o : Nat, o < 8589934592 → ¬(r = 6 ∧ bankOff b ≤ o ∧ o < bankOff b + n) → Mem.byte t.mem r o = Mem.byte s.mem r o) ∧
      Confined [] [cmdPage] s { t with mem := s.mem })) ∧
    (∀ (b off n seq : Nat), s.Runs → s.c.host.install = some (b, off, n, seq) → Gives (.fwInstallDone false) s (fun t =>
      t.c.host.install = none ∧ t.c.rd Cmd.state = 4 ∧ t.c.rd Cmd.refuse = 4 ∧ bit (t.c.stickyWord cmdPage) 1 = true ∧
      Confined [] [cmdPage] s t)) ∧
    (∀ (ok : Bool), s.Runs → s.c.host.install = none →
      Gives (.fwInstallDone ok) s (fun t => t.c.host = s.c.host ∧ Confined [] [] s t)) ∧
    (∀ (target : BitVec 16) (a0 : BitVec 32), s.Runs → target.toNat = 1 → s.c.otp.active1 = false → s.c.otp.prog1 = true →
      s.c.slotServes 1 = true → s.c.rd (Pwr.railInWin.nth 9) ≠ 0 → Gives (.keyRotate target a0) s (fun t =>
      t.c.rd Cmd.state = 2 ∧ t.c.rd Cmd.refuse = 0 ∧ t.c.host.rotate = some (bit a0.toNat 0) ∧ t.c.otp = s.c.otp ∧
        Confined [] [cmdPage] s t)) ∧
    (∀ (target : BitVec 16) (a0 : BitVec 32), s.Runs →
      (target.toNat ≠ 1 ∨ s.c.otp.active1 = true ∨ s.c.otp.prog1 = false ∨ s.c.slotServes 1 = false ∨ s.c.rd (Pwr.railInWin.nth 9) = 0) →
      Gives (.keyRotate target a0) s (fun t =>
      t.c.rd Cmd.state = 4 ∧
      t.c.rd Cmd.refuse = (if target.toNat ≠ 1 ∨ s.c.otp.active1 = true then 1
        else if s.c.otp.prog1 = false ∨ s.c.slotServes 1 = false then 2 else 3) ∧
      bit (t.c.stickyWord cmdPage) 1 = true ∧ t.c.host.rotate = s.c.host.rotate ∧ t.c.otp = s.c.otp ∧ Confined [] [cmdPage] s t)) ∧
    (∀ (rv ok : Bool), s.Runs → s.c.host.rotate = some rv → s.c.power.deferred = none → Gives (.keyRotateDone ok) s (fun t =>
      t.c.host.rotate = none ∧ t.c.rd Cmd.state = (if ok then 3 else 4) ∧ t.c.rd Cmd.refuse = (if ok then 0 else 3) ∧
      bit (t.c.stickyWord cmdPage) (if ok then 0 else 1) = true ∧
      t.c.otp = (if ok then { s.c.otp with active1 := true, revoked0 := s.c.otp.revoked0 || rv } else s.c.otp) ∧
      Confined [] [cmdPage] s t)) ∧
    (∀ (rv ok : Bool) (k : Nat), s.Runs → s.c.host.rotate = some rv → s.c.power.deferred = some k → s.c.power.warm = none →
      Gives (.keyRotateDone ok) s (fun t =>
      t.c.host.rotate = none ∧ t.c.power.warm = some k ∧ t.c.power.deferred = none ∧
      t.c.otp = (if ok then { s.c.otp with active1 := true, revoked0 := s.c.otp.revoked0 || rv } else s.c.otp) ∧ t.pending = s.pending)) ∧
    (∀ (ok : Bool), s.Runs → s.c.host.rotate = none →
      Gives (.keyRotateDone ok) s (fun t => t.c.otp = s.c.otp ∧ t.c.host = s.c.host ∧ Confined [] [] s t))

/-! ## Power and reset (R461 to R484) -/

/-- R472, R474: POR gives every field its COLD value, clears every memory but the boot flash and the always-on store, and keeps the fuses;
a COLD reset and a brown-out of a rail other than VDD_AON (R475) keep the always-on store too; a brown-out of another rail than theirs
puts the HBM stacks into self-refresh (fields and registers that a fault reaction may write are left out). R473, R476: `RESET_N` changes
nothing while POR or the hold after a brown-out stands, and POR is stronger than a brown-out. R463, R480: what ends a reset samples the
straps and shows the cause, 0 after POR (and after power-up, before anything has run), 1 after `RESET_N`, 2 after a brown-out; that the
clusters come to IDLE at once and that every rail is then in window is the model's reading (log entry 23). -/
def Obligations.ColdAndPor : Prop :=
  ∀ (s : State),
    (Gives .por s (fun t =>
      t.c.power.asserted = 1 ∧ (∀ e ∈ t.c.flds, reacts (keyPage e.1) = true) ∧ t.c.fcu.first = none ∧ t.c.fcu.aon = [] ∧
      t.c.pwrReq = [] ∧ t.c.latTol = [] ∧ t.c.otp = s.c.otp ∧ t.c.lanes = [] ∧
      (∀ r : Fin 6, ∀ o : Nat, o < 8589934592 → Mem.byte t.mem r o = 0) ∧
      (∀ o : Nat, o < 8589934592 → Mem.byte t.mem 6 o = Mem.byte s.mem 6 o) ∧ t.pending = s.pending)) ∧
    ((s.c.power.asserted = 0 ∨ s.c.power.asserted = 2) → Gives .coldReset s (fun t =>
      t.c.power.asserted = 2 ∧ t.c.pins.resetN = false ∧
      (∀ e ∈ t.c.flds, reacts (keyPage e.1) = true ∨ coldKept e.1 = true) ∧ t.c.fcu.first = s.c.fcu.first ∧
      t.c.fcu.aon = s.c.fcu.aon ∧ t.c.pwrReq = s.c.pwrReq ∧ t.c.latTol = s.c.latTol ∧ t.c.otp = s.c.otp ∧
      (∀ r : Fin 6, ∀ o : Nat, o < 8589934592 → Mem.byte t.mem r o = 0) ∧
      (∀ o : Nat, o < 8589934592 → Mem.byte t.mem 6 o = Mem.byte s.mem 6 o) ∧ t.pending = s.pending)) ∧
    ((s.c.power.asserted = 1 ∨ s.c.power.asserted = 3) →
      Gives .coldReset s (fun t => t.c.power = s.c.power ∧ Confined [] [] s t)) ∧
    (∀ (n : Fin 10), n ≠ 1 → n ≠ 9 → s.c.power.asserted ≠ 1 → Gives (.brownOut n) s (fun t =>
      t.c.power.asserted = 3 ∧
      (∀ e ∈ t.c.flds, reacts (keyPage e.1) = true ∨ coldKept e.1 = true ∨ e.1 = Hbm.sref.key) ∧
      (n ≠ 5 → t.c.rd Hbm.sref = 3) ∧ t.c.pwrReq = s.c.pwrReq ∧ t.c.latTol = s.c.latTol ∧ t.c.otp = s.c.otp ∧
      (∀ r : Fin 6, ∀ o : Nat, o < 8589934592 → Mem.byte t.mem r o = 0) ∧
      (∀ o : Nat, o < 8589934592 → Mem.byte t.mem 6 o = Mem.byte s.mem 6 o) ∧ t.pending = s.pending)) ∧
    (∀ (n : Fin 10), (n = 1 ∨ n = 9 ∨ s.c.power.asserted = 1) →
      Gives (.brownOut n) s (fun t => t.c.power = s.c.power ∧ Confined [] [] s t)) ∧
    (∀ (scale compat side bootHost : Bool),
      (s.c.power.asserted = 1 ∨ s.c.power.asserted = 2 ∨ (s.c.power.asserted = 0 ∧ s.c.rd Dev.boot = 0 ∧ s.c.power.warm = none)) →
      Gives (.resetRelease scale compat side bootHost) s (fun t =>
      t.c.power.asserted = 0 ∧ t.c.straps = ⟨scale, compat, side, bootHost⟩ ∧ t.c.pins.resetN = true ∧
      t.c.rd Rst.cause = (if s.c.power.asserted = 2 then 1 else 0) ∧ t.c.rd Dev.compat = (if compat then 15 else 0) ∧
      (∀ k : Fin 64, t.c.rd (Pwr.clState.nth k) = 1) ∧ (∀ n : Fin 10, t.c.rd (Pwr.railInWin.nth n) = 1) ∧
      t.c.rd Pwr.railsOk = 1 ∧ (bootHost = true → t.c.rd Dev.boot = 3 ∧ t.mem = s.mem) ∧
      Within releasePages s { t with mem := s.mem })) ∧
    (∀ (scale compat side bootHost : Bool), s.c.power.asserted = 3 →
      Gives (.brownOutRecovery scale compat side bootHost) s (fun t =>
      t.c.power.asserted = 0 ∧ t.c.straps = ⟨scale, compat, side, bootHost⟩ ∧ t.c.rd Rst.cause = 2 ∧
      (∀ k : Fin 64, t.c.rd (Pwr.clState.nth k) = 1) ∧ (bootHost = true → t.c.rd Dev.boot = 3 ∧ t.mem = s.mem) ∧
      Within releasePages s { t with mem := s.mem }))

/-- R472, R474: a permitted request for a WARM reset clears working RAM, leaves the other memories and waits for its end; R473: a request
during a WARM changes nothing, and one during a fuse is deferred with `WARM_DEFERRED` and sticky bit 2. R481: its end counts, sets sticky
bit 0 and shows the cause. R472, R484: `BRST` starts a BLOCK reset of its page, which takes `ENABLE` to its COLD value and clears the
sticky word; `PAGE_IRQ_EN`, `PAGE_LAT_TOL` and `PWR_REQ` stay; its end counts and sets sticky bit 1. R483: a write of `PAGE_CTRL` without
`BRST` sets `PWR_REQ` and, where the page has one, `ENABLE`. -/
def Obligations.WarmAndBlock : Prop :=
  ∀ (s : State),
    (∀ (m : Master), s.Allows m 0 devPage 0x4C 0 false → s.c.power.warm = none → s.c.host.rotate = none →
      Gives (.warmRst m) s (fun t =>
      t.c.power.warm = some 3 ∧ (∀ o : Nat, o < 8589934592 → Mem.byte t.mem 0 o = 0) ∧
      (∀ r : Fin 7, r ≠ 0 → ∀ o : Nat, o < 8589934592 → Mem.byte t.mem r o = Mem.byte s.mem r o) ∧
      t.c.stickyWord hostPage = 0 ∧ t.c.irqEnWord hostPage = 0 ∧ t.c.enable = s.c.enable ∧ t.c.otp = s.c.otp ∧
      t.pending = s.pending)) ∧
    (s.Runs → s.c.power.warm ≠ none → Gives .usb4RouterReset s (fun t => t.c.power = s.c.power ∧ Confined [] [] s t)) ∧
    (∀ (m : Master), s.Allows m 0 devPage 0x4C 0 false → s.c.power.warm = none → s.c.host.rotate ≠ none →
      Gives (.warmRst m) s (fun t =>
      t.c.power.warm = none ∧ t.c.power.deferred = some 3 ∧ t.c.rd Rst.warmDeferred = 1 ∧ t.c.rd Dev.warmRst = 1 ∧
      bit (t.c.stickyWord rstPage) 2 = true ∧ Confined [Rst.warmDeferred, Dev.warmRst] [rstPage] s t)) ∧
    (∀ (k : Nat), s.Runs → s.c.power.warm = some k → k < 8 → Gives .warmResetDone s (fun t =>
      t.c.power.warm = none ∧ t.c.rd Rst.cause = k ∧ t.c.rd Rst.nWarm = satInc 16 (s.c.rd Rst.nWarm) ∧
      bit (t.c.stickyWord rstPage) 0 = true ∧ Within [rstPage, devPage, hostPage] s { t with mem := s.mem })) ∧
    (∀ (m : Master) (p : BitVec 16), pageExists p.toNat = true → blockResets p.toNat = true →
      s.Allows m 0 p.toNat 0x08 0 (brstMirrored p.toNat) →
      s.c.keeperGuards p.toNat (s.c.ctrlWord p.toNat + 2) allBits = false → s.c.isResetting p.toNat = false →
      Gives (.blockReset m p) s (fun t =>
      t.c.isResetting p.toNat = true ∧
      (reactsSticky p.toNat = false → t.c.enabled p.toNat = (enableCold s.c.straps.scale p.toNat = 1) ∧ t.c.stickyWord p.toNat = 0) ∧
      t.c.irqEnWord p.toNat = s.c.irqEnWord p.toNat ∧ t.c.latTol = s.c.latTol ∧
      t.c.pwrReq = Store.set 0 s.c.pwrReq p.toNat (Store.get 0 s.c.pwrReq p.toNat % 2) ∧
      Within (p.toNat :: blockPages) s t)) ∧
    (∀ (p : BitVec 16), s.Runs → s.c.isResetting p.toNat = true → Gives (.blockResetDone p) s (fun t =>
      t.c.isResetting p.toNat = false ∧ t.c.rd Rst.nBlock = satInc 16 (s.c.rd Rst.nBlock) ∧
      bit (t.c.stickyWord rstPage) 1 = true ∧ Confined [Rst.nBlock] [rstPage] s t)) ∧
    (∀ (m : Master) (p : BitVec 16) (w : BitVec 32), pageExists p.toNat = true →
      s.Allows m 0 p.toNat 0x08 0 (enableMirrored p.toNat) → s.c.keeperGuards p.toNat w.toNat allBits = false →
      bit w.toNat 1 = false → enableWritable p.toNat = true → Gives (.pageCtrlWrite m p w 15) s (fun t =>
      (t.c.enabled p.toNat = true ↔ bit w.toNat 0 = true) ∧ Store.get 0 t.c.pwrReq p.toNat = w.toNat / 8 % 2 ∧
      t.c.latTol = s.c.latTol ∧ Within (p.toNat :: blockPages) s t))

/-- R469: a cluster without work is placed in the deepest state its tolerance allows; R467: a wake that the ramps do not allow waits,
counts in `DEFER` and sets sticky bit 3, and begins when they allow it; R468: a wake runs through WAKING, or from IDLE at once; one longer
than the tolerance counts in `LATE` and sets sticky bit 4. R465: a permitted write sets `SERVICE`. R461, R424, R479: a rail's reading is
shown, out of its window it sets sticky bit 0, the core rail's 1 or 2; a temperature sets bits 5, 6 and 7; the housekeeping pair's faults
are reported under 0xD7 and 0xD8. -/
def Obligations.PowerStates : Prop :=
  ∀ (s : State),
    (∀ (k : Fin 64) (icore ballast : BitVec 10), s.Runs → s.c.cluster k < s.c.allowedState k → s.c.allowedState k < 4 →
      Gives (.clusterSleep k icore ballast) s (fun t =>
      t.c.rd (Pwr.clState.nth k) = s.c.allowedState k ∧ t.c.rd Pwr.icore = icore.toNat ∧ t.c.rd Pwr.ballast = ballast.toNat ∧
      Confined [Pwr.clState.nth k, Pwr.icore, Pwr.ballast] [] s t)) ∧
    (∀ (k : Fin 64) (wait : Bool) (iw : BitVec 8) (icore ballast : BitVec 10), s.Runs → s.c.cluster k = 1 →
      Gives (.clusterWake k wait iw icore ballast) s (fun t =>
      t.c.rd (Pwr.clState.nth k) = 0 ∧ t.c.rd (Pwr.clIwake.nth k) = iw.toNat ∧
      Confined [Pwr.clState.nth k, Pwr.clIwake.nth k, Pwr.icore, Pwr.ballast] [] s t)) ∧
    (∀ (k : Fin 64) (iw : BitVec 8) (icore ballast : BitVec 10), s.Runs → 2 ≤ s.c.cluster k → s.c.cluster k ≤ 4 →
      s.c.power.waits.contains k.val = false → Gives (.clusterWake k false iw icore ballast) s (fun t =>
      t.c.rd (Pwr.clState.nth k) = 5 ∧ t.c.rd (Pwr.clIwake.nth k) = iw.toNat ∧
      Confined [Pwr.clState.nth k, Pwr.clIwake.nth k, Pwr.icore, Pwr.ballast] [] s t)) ∧
    (∀ (k : Fin 64) (iw : BitVec 8) (icore ballast : BitVec 10), s.Runs → 2 ≤ s.c.cluster k → s.c.cluster k ≤ 4 →
      s.c.power.waits.contains k.val = false → Gives (.clusterWake k true iw icore ballast) s (fun t =>
      t.c.rd (Pwr.clState.nth k) = s.c.cluster k ∧ t.c.rd Pwr.deferCnt = satInc 16 (s.c.rd Pwr.deferCnt) ∧
      t.c.rd Pwr.deferring = 1 ∧ t.c.power.waits = s.c.power.waits ++ [k.val] ∧ bit (t.c.stickyWord pwrPage) 3 = true ∧
      Confined [Pwr.clIwake.nth k, Pwr.icore, Pwr.ballast, Pwr.deferCnt, Pwr.deferring] [pwrPage] s t)) ∧
    (∀ (k : Fin 64), s.Runs → s.c.power.waits.contains k.val = true → 2 ≤ s.c.cluster k → s.c.cluster k ≤ 4 →
      Gives (.wakeDeferEnd k) s (fun t =>
      t.c.rd (Pwr.clState.nth k) = 5 ∧ t.c.power.waits = s.c.power.waits.filter (· ≠ k.val) ∧
      (t.c.rd Pwr.deferring = 1 ↔ t.c.power.waits ≠ []) ∧ Confined [Pwr.clState.nth k, Pwr.deferring] [] s t)) ∧
    (∀ (k : Fin 64) (us : BitVec 24), s.Runs → s.c.cluster k = 5 → s.c.power.starts = [] →
      Gives (.wakeComplete k us) s (fun t =>
      t.c.rd (Pwr.clState.nth k) = 0 ∧
      t.c.rd Pwr.lateCnt = (if s.c.effTol k < us.toNat then satInc 16 (s.c.rd Pwr.lateCnt) else s.c.rd Pwr.lateCnt) ∧
      (s.c.effTol k < us.toNat → bit (t.c.stickyWord pwrPage) 4 = true) ∧
      Confined [Pwr.clState.nth k, Pwr.lateCnt] [pwrPage] s t)) ∧
    (∀ (m : Master), s.Allows m 0 pwrPage 0x40 0 false →
      Gives (.serviceMode m) s (fun t => t.c.rd Pwr.service = 1 ∧ Confined [Pwr.service] [] s t)) ∧
    (∀ (n : Fin 10) (mv : BitVec 12) (w : Bool), s.Runs → Gives (.railMonitor n mv w) s (fun t =>
      t.c.rd (Pwr.railMv.nth n) = mv.toNat ∧ (t.c.rd (Pwr.railInWin.nth n) = 1 ↔ w = true) ∧
      (t.c.rd Pwr.railsOk = 1 ↔ ∀ k : Fin 10, t.c.rd (Pwr.railInWin.nth k) = 1) ∧
      (n ≠ 0 → w = false → bit (t.c.stickyWord pwrPage) 0 = true) ∧
      (n = 0 → mv.toNat < 680 → bit (t.c.stickyWord pwrPage) 1 = true) ∧
      (n = 0 → 880 < mv.toNat → bit (t.c.stickyWord pwrPage) 2 = true) ∧
      Confined [Pwr.railMv.nth n, Pwr.railInWin.nth n, Pwr.railsOk] [pwrPage] s t)) ∧
    (∀ (tj : BitVec 10) (warm : Bool) (sp : BitVec 8), s.Runs → Gives (.tjMonitor tj warm sp) s (fun t =>
      (115 < tj.toInt → bit (t.c.stickyWord pwrPage) 7 = true) ∧
      (warm = true → 110 < tj.toInt → bit (t.c.stickyWord pwrPage) 6 = true) ∧
      (8 < sp.toNat → bit (t.c.stickyWord pwrPage) 5 = true) ∧
      (tj.toInt ≤ 115 → warm = false → sp.toNat ≤ 8 → t.c.stickyWord pwrPage = s.c.stickyWord pwrPage) ∧
      Confined [] [pwrPage] s t)) ∧
    (∀ (r : Report), s.Runs → r = ⟨0xD7, devPage, 0, 0, true, false, true, [], false⟩ → Gives .hkLockstep s (fun t =>
      (if s.c.effSev r = 0 then t.c.fcu.log = s.c.fcu.log
       else (Store.get {} t.c.fcu.log (s.c.frd Fcu.logWptr) : LogEntry).src = 0xD7 ∧
        (Store.get {} t.c.fcu.log (s.c.frd Fcu.logWptr) : LogEntry).esev = s.c.effSev r ∧
        bit (t.c.frd Fcu.unackReal) 13 = true ∧ t.c.fcu.first.isSome = true) ∧ Confined [] [] s t)) ∧
    (∀ (r : Report), s.Runs → r = ⟨0xD8, devPage, 0, 0, true, false, true, [], false⟩ → Gives .hkExcept s (fun t =>
      (if s.c.effSev r = 0 then t.c.fcu.log = s.c.fcu.log
       else (Store.get {} t.c.fcu.log (s.c.frd Fcu.logWptr) : LogEntry).src = 0xD8 ∧
        (Store.get {} t.c.fcu.log (s.c.frd Fcu.logWptr) : LogEntry).esev = s.c.effSev r ∧
        bit (t.c.frd Fcu.unackReal) 13 = true ∧ t.c.fcu.first.isSome = true) ∧ Confined [] [] s t))

/-! ## Retimers and intake synchronisers (R13 to R16) -/

/-- R14: at its release event a retimer swaps to the filling block that was complete in time, which leaves; without one it releases the
previous block again, flagged, and a late block of a mix tile or of a Nova core marks an overrun of the period in flight. The line that a
video retimer releases goes to its lane output whole. R15: an intake synchroniser delivers the data registered at the edge into the core.
-/
def Obligations.EdgeCrossings : Prop :=
  ∀ (s : State),
    (∀ (u v : RetimerUse) (b : List Nat), s.Runs → (s.c.retimer u).filling = some b → Gives (.retimerRelease u true) s (fun t =>
      t.c.retimer u = ⟨u, none, b, false⟩ ∧ Out.block u b false ∈ t.c.out ∧ (v ≠ u → t.c.retimer v = s.c.retimer v) ∧ Confined [] [] s t)) ∧
    (∀ (u v : RetimerUse) (inTime : Bool), s.Runs → (inTime = false ∨ (s.c.retimer u).filling = none) →
      Gives (.retimerRelease u inTime) s (fun t =>
      t.c.retimer u = { s.c.retimer u with again := true } ∧ Out.block u (s.c.retimer u).block true ∈ t.c.out ∧
      (v ≠ u → t.c.retimer v = s.c.retimer v) ∧
      (∀ k : Fin 64, u = .tile k → s.c.on Mix.run = true → s.c.aud.isOpen = true → (t.c.tile k).lvl.ovr = true) ∧
      (∀ k : Fin 64, u = .nova k → s.c.novaSt k = Nst.wait → (s.c.nova k).first = false → (t.c.nova k).lvl.ovr = true) ∧
        Confined [] [] s t)) ∧
    (∀ (o : Fin 1152) (b : List Nat), s.Runs → s.c.rd (Xpt.transport.nth o).live = 1 → s.c.outSt o = 1 →
      s.c.inGap o = false → (s.c.retimer (.video o)).filling = some b → Gives (.retimerRelease (.video o) true) s (fun t =>
      (Store.get {} t.c.outs o : OutFrame).tx = (Store.get {} s.c.outs o : OutFrame).tx ++ [⟨true, b⟩] ∧ Confined [] [] s t)) ∧
    (∀ (d : Fin 40) (data : List (BitVec 32)), s.Runs →
      Gives (.edgeDataIntake d data) s (fun t => Store.get [] t.c.intakes d = data.map BitVec.toNat ∧ Confined [] [] s t))

/-! ## Rules of the whole block -/

/-- For every command `i` and state, a step with `i` at the front of the queue is `exec i` on the state with the rest of the queue. That
the block idles on an empty queue is the model's choice (log entry 7): whatever time does is a row of the table. -/
def Obligations.FrontCommandRuns : Prop :=
  (∀ (i : Instr) (s : State), step { s with pending := i :: s.pending } = exec i s) ∧
  (∀ s : State, s.pending = [] → step s = .next s)

/-- Byte memory in its canonical form holds of the machine after reset, whose queue is empty and in which no reset is asserted. Every
stored field reads the value of its Reset column, no sticky bit is set, and a page's interrupt enables are 0 but for the FCU's bits 1 to
3. -/
def Obligations.InvariantAtReset : Prop :=
  State.reset.Inv ∧ State.reset.pending = [] ∧ State.reset.Runs ∧
  (∀ f : Fld, 0 < f.w → f.por < 2 ^ f.w → State.reset.c.rd f = f.por) ∧
  (∀ p : Nat, State.reset.c.stickyWord p = 0 ∧ State.reset.c.irqEnWord p = (if p = fcuPage then 14 else 0))

/-- From every state whose byte memory is in its canonical form, whatever command waits at the front of the queue, a step leaves byte
memory in its canonical form: addresses strictly rising, and nothing listed that an unlisted address reads as. So equal memories are equal
lists after every run. -/
def Obligations.InvariantKept : Prop :=
  ∀ s t : State, s.Inv → step s = .next t → t.Inv

/-- Every command, in every state, answers a next state whose queue of waiting commands is as before: none ends in a fault or a refusal.
While POR or COLD is asserted, or held after a brown-out, every command but the five that assert or end them leaves the machine as it was
with nothing driven outward and nothing reported; that such commands do nothing is the model's reading (log entry 23). -/
def Obligations.QueueAndHeldReset : Prop :=
  (∀ (i : Instr) (s : State), ∃ t, exec i s = .next t ∧ t.pending = s.pending) ∧
  (∀ (i : Instr) (s t : State), exec i s = .next t → s.c.power.asserted ≠ 0 →
    i ≠ .por → i ≠ .coldReset → (∀ n, i ≠ .brownOut n) → (∀ a b c d, i ≠ .resetRelease a b c d) →
    (∀ a b c d, i ≠ .brownOutRecovery a b c d) →
    t = { s with c := { s.c with out := [], reports := [] } })

/-- R440: after every command, `IRQ_N` is driven low exactly when some page whose map entry has `IRQN` = 1 requests an interrupt, that is,
has an enabled sticky bit set (R439). After POR and COLD, only the FCU, PWR and TWIN pages have `IRQN` = 1. -/
def Obligations.InterruptLine : Prop :=
  (∀ (i : Instr) (s t : State), s.Runs → exec i s = .next t →
    (t.c.pins.irqLow = true ↔ ∃ p : Nat, t.c.rd (irqnFld p) = 1 ∧ t.c.requests p = true)) ∧
  (∀ (s t : State) (p : Nat), pageExists p = true → exec .por s = .next t →
    (t.c.rd (irqnFld p) = 1 ↔ p = 0x3 ∨ p = 0x1 ∨ p = 0x128)) ∧
  (∀ (s t : State) (p : Nat), pageExists p = true → s.c.power.asserted = 0 ∨ s.c.power.asserted = 2 →
    exec .coldReset s = .next t → (t.c.rd (irqnFld p) = 1 ↔ p = 0x3 ∨ p = 0x1 ∨ p = 0x128))

/-- R4: no field of any register or table word of any page ends above bit 31. A word of table space stored at an address stands there with
its byte at the lowest address holding bits 7 to 0, and is read back as it was stored. In register space the byte enable of byte `k`,
counted from the lowest address, lets through bits 8k to 8k + 7. -/
def Obligations.ByteOrder : Prop :=
  (∀ (p sp off : Nat) (f : Fld), f ∈ wordFields p sp off → f.lo + f.w ≤ 32) ∧
  (∀ (m : Mem) (r o : Nat) (w : BitVec 32), o + 4 ≤ 8589934592 →
    (∀ k : Nat, k < 4 → Mem.byte (Mem.putWords m r o [(w.toNat, 15)]) r (o + k) = w.toNat / 256 ^ k % 256) ∧
    Mem.word (Mem.putWords m r o [(w.toNat, 15)]) r o = w.toNat) ∧
  (∀ (old data be k : Nat), old < 4294967296 → data < 4294967296 → be < 16 → k < 4 →
    mergeBits old data (beMask be) / 256 ^ k % 256 = if bit be k then data / 256 ^ k % 256 else old / 256 ^ k % 256)
end

