-- ==== Sys2Proof/Laws/Store.lean ====
section
/-! SUPPORT. What a sparse table's operations do: a read after a write, and the canonical form. -/

namespace Sys2Proof.Machine

variable {α : Type}

/-- A read after listing a value. -/
theorem Store.get_ins (d v : α) (k i : Nat) (m : Store α) : Store.get d (Store.ins k v m) i = if i = k then v else Store.get d m i := by
  induction m with
  | nil => simp [Store.ins, Store.get]
  | cons e r ih =>
    obtain ⟨j, w⟩ := e
    simp only [Store.ins]
    split
    · simp [Store.get]
    · split
      · subst_vars
        simp only [Store.get]
        split <;> simp_all
      · simp only [Store.get, ih]
        split <;> split <;> simp_all

/-- A read after unlisting a key. -/
theorem Store.get_del (d : α) (k i : Nat) (m : Store α) : Store.get d (Store.del k m) i = if i = k then d else Store.get d m i := by
  induction m with
  | nil => simp [Store.del, Store.get]
  | cons e r ih =>
    obtain ⟨j, w⟩ := e
    by_cases h : j = k
    · subst h
      simp only [Store.del, List.filter, bne_self_eq_false, Store.get] at ih ⊢
      rw [ih]
      split <;> simp_all
    · have hb : (j != k) = true := by simp [h]
      simp only [Store.del, List.filter, hb, Store.get] at ih ⊢
      rw [ih]
      split <;> split <;> simp_all

/-- A read after a write: the value written at its own key, what stood there before at any other. -/
theorem Store.get_set [DecidableEq α] (d v : α) (k i : Nat) (m : Store α) :
    Store.get d (Store.set d m k v) i = if i = k then v else Store.get d m i := by
  unfold Store.set
  split
  · subst_vars
    exact Store.get_del _ k i m
  · exact Store.get_ins d v k i m

@[simp] theorem Store.get_set_self [DecidableEq α] (d v : α) (k : Nat) (m : Store α) : Store.get d (Store.set d m k v) k = v := by
  simp [Store.get_set]

theorem Store.get_set_ne [DecidableEq α] (d v : α) {k i : Nat} (m : Store α) (h : i ≠ k) :
    Store.get d (Store.set d m k v) i = Store.get d m i := by simp [Store.get_set, h]

/-- A write under one default leaves every other key as it reads, whatever default the read uses. -/
theorem Store.get_set_other [DecidableEq α] (d e v : α) {k i : Nat} (m : Store α) (h : i ≠ k) :
    Store.get e (Store.set d m k v) i = Store.get e m i := by
  unfold Store.set
  split
  · simp [Store.get_del, h]
  · simp [Store.get_ins, h]

/-- A read after a range is cleared. -/
theorem Store.get_clear (d : α) (lo hi i : Nat) (m : Store α) :
    Store.get d (Store.clear lo hi m) i = if lo ≤ i ∧ i < hi then d else Store.get d m i := by
  induction m with
  | nil => simp [Store.clear, Store.get]
  | cons e r ih =>
    simp only [Store.clear] at ih
    simp only [Store.clear, List.filter]
    by_cases h : lo ≤ e.1 ∧ e.1 < hi
    · have hb : (!(decide (lo ≤ e.1) && decide (e.1 < hi))) = false := by simp [h]
      rw [hb]
      dsimp only
      rw [ih]
      simp only [Store.get]
      split
      · rfl
      · rw [if_neg]
        intro he
        subst he
        exact absurd h ‹_›
    · have hb : (!(decide (lo ≤ e.1) && decide (e.1 < hi))) = true := by
        simp only [Bool.not_eq_true', Bool.and_eq_false_iff, decide_eq_false_iff_not]
        omega
      rw [hb]
      dsimp only
      simp only [Store.get]
      rw [ih]
      split
      · rename_i he
        subst he
        rw [if_neg h]
      · rfl

/-! ## The canonical form -/

theorem Store.wf_tail [DecidableEq α] {d : α} {e : Nat × α} {m : Store α} (h : Store.wf d (e :: m) = true) : Store.wf d m = true := by
  cases m with
  | nil => rfl
  | cons f r => simp only [Store.wf, Bool.and_eq_true] at h; exact h.2

theorem Store.wf_head [DecidableEq α] {d : α} {e : Nat × α} {m : Store α} (h : Store.wf d (e :: m) = true) : e.2 ≠ d := by
  cases m with
  | nil => simpa [Store.wf] using h
  | cons f r => simp only [Store.wf, Bool.and_eq_true, decide_eq_true_eq] at h; exact h.1.2

/-- Every key of the tail stands above the head's. -/
theorem Store.wf_lt [DecidableEq α] {d : α} {e : Nat × α} {m : Store α} (h : Store.wf d (e :: m) = true) : ∀ f ∈ m, e.1 < f.1 := by
  induction m generalizing e with
  | nil => simp
  | cons f r ih =>
    intro g hg
    have hf : e.1 < f.1 := by simp only [Store.wf, Bool.and_eq_true, decide_eq_true_eq] at h; exact h.1.1
    rcases List.mem_cons.mp hg with rfl | hg
    · exact hf
    · exact Nat.lt_trans hf (ih (Store.wf_tail h) g hg)

theorem Store.wf_cons [DecidableEq α] {d : α} {e : Nat × α} {m : Store α} (hd : e.2 ≠ d) (hl : ∀ f ∈ m, e.1 < f.1)
    (hm : Store.wf d m = true) : Store.wf d (e :: m) = true := by
  cases m with
  | nil => simpa [Store.wf] using hd
  | cons f r => simp [Store.wf, hd, hl f (List.mem_cons_self ..), hm]

/-- Taking entries away keeps the canonical form. -/
theorem Store.wf_filter [DecidableEq α] (d : α) (p : Nat × α → Bool) (m : Store α) (h : Store.wf d m = true) :
    Store.wf d (m.filter p) = true := by
  induction m with
  | nil => rfl
  | cons e r ih =>
    simp only [List.filter]
    split
    · exact Store.wf_cons (Store.wf_head h) (fun f hf => Store.wf_lt h f (List.mem_filter.mp hf).1) (ih (Store.wf_tail h))
    · exact ih (Store.wf_tail h)

theorem Store.mem_ins {k : Nat} {v : α} {m : Store α} {e : Nat × α} (h : e ∈ Store.ins k v m) : e.1 = k ∨ e ∈ m := by
  induction m with
  | nil => simp only [Store.ins, List.mem_singleton] at h; exact .inl (by rw [h])
  | cons f r ih =>
    obtain ⟨j, w⟩ := f
    simp only [Store.ins] at h
    split at h
    · rcases List.mem_cons.mp h with rfl | h
      · exact .inl rfl
      · exact .inr h
    · split at h
      · rcases List.mem_cons.mp h with rfl | h
        · exact .inl rfl
        · exact .inr (List.mem_cons_of_mem _ h)
      · rcases List.mem_cons.mp h with rfl | h
        · exact .inr (List.mem_cons_self ..)
        · rcases ih h with h | h
          · exact .inl h
          · exact .inr (List.mem_cons_of_mem _ h)

theorem Store.wf_ins [DecidableEq α] (d v : α) (k : Nat) (m : Store α) (hv : v ≠ d) (h : Store.wf d m = true) :
    Store.wf d (Store.ins k v m) = true := by
  induction m with
  | nil => simpa [Store.ins, Store.wf] using hv
  | cons e r ih =>
    obtain ⟨j, w⟩ := e
    simp only [Store.ins]
    split
    · exact Store.wf_cons hv (fun f hf => by
        rcases List.mem_cons.mp hf with rfl | hf
        · assumption
        · exact Nat.lt_trans ‹k < j› (Store.wf_lt h f hf)) h
    · split
      · exact Store.wf_cons hv (fun f hf => by have := Store.wf_lt h f hf; simp_all) (Store.wf_tail h)
      · refine Store.wf_cons (Store.wf_head h) (fun f hf => ?_) (ih (Store.wf_tail h))
        rcases Store.mem_ins hf with he | hf
        · simp only [he]; omega
        · exact Store.wf_lt h f hf

/-- A write keeps the canonical form. -/
theorem Store.wf_set [DecidableEq α] (d v : α) (k : Nat) (m : Store α) (h : Store.wf d m = true) :
    Store.wf d (Store.set d m k v) = true := by
  unfold Store.set
  split
  · exact Store.wf_filter d _ m h
  · exact Store.wf_ins d v k m ‹_› h

/-- Equal readings are equal lists: two tables in canonical form that read alike everywhere are the same. -/
theorem Store.ext [DecidableEq α] {d : α} : ∀ {m n : Store α}, Store.wf d m = true → Store.wf d n = true →
    (∀ i, Store.get d m i = Store.get d n i) → m = n := by
  have low : ∀ {m : Store α} {k : Nat}, (∀ f ∈ m, k < f.1) → Store.get d m k = d := by
    intro m k h
    induction m with
    | nil => rfl
    | cons e r ih =>
      have := h e (List.mem_cons_self ..)
      simp only [Store.get]
      rw [if_neg (by omega)]
      exact ih (fun f hf => h f (List.mem_cons_of_mem _ hf))
  intro m
  induction m with
  | nil =>
    intro n _ hn h
    cases n with
    | nil => rfl
    | cons e r => exact absurd (by simpa [Store.get] using (h e.1).symm) (Store.wf_head hn)
  | cons e r ih =>
    intro n hm hn h
    cases n with
    | nil => exact absurd (by simpa [Store.get] using h e.1) (Store.wf_head hm)
    | cons f s =>
      have hk : e.1 = f.1 := by
        rcases Nat.lt_trichotomy e.1 f.1 with hlt | he | hlt
        · have h1 := h e.1
          have h2 : Store.get d (f :: s) e.1 = d := low (fun g hg => by
            rcases List.mem_cons.mp hg with rfl | hg
            · exact hlt
            · exact Nat.lt_trans hlt (Store.wf_lt hn g hg))
          rw [h2] at h1
          exact absurd (by simpa [Store.get] using h1) (Store.wf_head hm)
        · exact he
        · have h1 := h f.1
          have h2 : Store.get d (e :: r) f.1 = d := low (fun g hg => by
            rcases List.mem_cons.mp hg with rfl | hg
            · exact hlt
            · exact Nat.lt_trans hlt (Store.wf_lt hm g hg))
          rw [h2] at h1
          exact absurd (by simpa [Store.get] using h1.symm) (Store.wf_head hn)
      have hv : e.2 = f.2 := by have := h e.1; simpa [Store.get, hk] using this
      have he : e = f := Prod.ext hk hv
      subst he
      congr 1
      refine ih (Store.wf_tail hm) (Store.wf_tail hn) (fun i => ?_)
      by_cases hi : i = e.1
      · subst hi
        rw [low (Store.wf_lt hm), low (Store.wf_lt hn)]
      · have := h i
        simpa [Store.get, hi] using this

end Sys2Proof.Machine
end

