-- ==== Sys2Proof/Laws/Memory.lean ====
section
/-! SUPPORT. Byte memory: reads after writes, and every memory operation keeps the canonical form. -/

namespace Sys2Proof.Machine

/-- Two bytes at different places have different keys; an offset fits its region. -/
theorem memKey_ne {r s o p : Nat} (ho : o < 8589934592) (hp : p < 8589934592) (h : r ≠ s ∨ o ≠ p) : memKey r o ≠ memKey s p := by
  simp only [memKey]
  omega

/-- A byte reads as it was written. -/
@[simp] theorem Mem.byte_put_self (m : Mem) (r o v : Nat) : Mem.byte (Mem.put m r o v) r o = v % 256 := by
  simp [Mem.byte, Mem.put]

/-- A write of one byte leaves every other byte. -/
theorem Mem.byte_put_ne (m : Mem) {r s o p : Nat} (v : Nat) (ho : o < 8589934592) (hp : p < 8589934592) (h : s ≠ r ∨ p ≠ o) :
    Mem.byte (Mem.put m r o v) s p = Mem.byte m s p := by
  simp only [Mem.byte, Mem.put]
  rw [Store.get_set_ne]
  exact memKey_ne hp ho h

theorem Mem.wf_put (m : Mem) (r o v : Nat) (h : Mem.wf m = true) : Mem.wf (Mem.put m r o v) = true := Store.wf_set _ _ _ _ h

theorem Mem.wf_puts (m : Mem) (r o : Nat) (l : List Nat) (h : Mem.wf m = true) : Mem.wf (Mem.puts m r o l) = true := by
  induction l generalizing m o with
  | nil => exact h
  | cons v t ih => exact ih _ _ (Mem.wf_put m r o v h)

theorem Mem.wf_clear (m : Mem) (r : Nat) (h : Mem.wf m = true) : Mem.wf (Mem.clear m r) = true := Store.wf_filter _ _ _ h

theorem Mem.wf_eraseBank (m : Mem) (b : Nat) (h : Mem.wf m = true) : Mem.wf (Mem.eraseBank m b) = true := Store.wf_filter _ _ _ h

theorem Mem.wf_clears (l : List Nat) (m : Mem) (h : Mem.wf m = true) : Mem.wf (l.foldl (fun m r => Mem.clear m r) m) = true := by
  induction l generalizing m with
  | nil => exact h
  | cons r t ih => exact ih _ (Mem.wf_clear m r h)

theorem Mem.wf_coldReset (m : Mem) (h : Mem.wf m = true) : Mem.wf (Mem.coldReset m) = true := Mem.wf_clears _ m h

theorem Mem.wf_putWords (m : Mem) (r o : Nat) (l : List (Nat × Nat)) (h : Mem.wf m = true) : Mem.wf (Mem.putWords m r o l) = true := by
  induction l generalizing m o with
  | nil => exact h
  | cons w t ih => exact ih _ _ (Mem.wf_puts _ _ _ _ h)

theorem wf_copySurface (m : Mem) (region src stride dst w n : Nat) (h : Mem.wf m = true) :
    Mem.wf (copySurface m region src stride dst w n) = true := by
  induction n with
  | zero => exact h
  | succ k ih => exact Mem.wf_puts _ _ _ _ ih

/-- A cleared region reads as unwritten. -/
theorem Mem.byte_clear_self (m : Mem) (r o : Nat) (ho : o < 8589934592) : Mem.byte (Mem.clear m r) r o = 0 := by
  have hlo : memKey r 0 ≤ memKey r o := by unfold memKey; omega
  have hhi : memKey r o < memKey (r + 1) 0 := by unfold memKey; omega
  unfold Mem.byte Mem.clear
  rw [Store.get_clear, if_pos ⟨hlo, hhi⟩]
  rfl

/-- A write of bytes leaves every byte of its region before them. -/
theorem Mem.byte_puts_below (m : Mem) (r o p : Nat) (l : List Nat) (hp : p < o) (hb : o + l.length ≤ 8589934592) :
    Mem.byte (Mem.puts m r o l) r p = Mem.byte m r p := by
  induction l generalizing m o with
  | nil => rfl
  | cons v t ih =>
    simp only [List.length_cons] at hb
    simp only [Mem.puts]
    rw [ih _ _ (by omega) (by omega), Mem.byte_put_ne _ _ (by omega) (by omega) (.inr (by omega))]

/-- A write of bytes leaves every other region. -/
theorem Mem.byte_puts_region (m : Mem) (r s o p : Nat) (l : List Nat) (h : s ≠ r) (hp : p < 8589934592) (hb : o + l.length ≤ 8589934592) :
    Mem.byte (Mem.puts m r o l) s p = Mem.byte m s p := by
  induction l generalizing m o with
  | nil => rfl
  | cons v t ih =>
    simp only [List.length_cons] at hb
    simp only [Mem.puts]
    rw [ih _ _ (by omega), Mem.byte_put_ne _ _ (by omega) hp (.inl h)]

/-- A write of bytes leaves every byte of its region behind them. -/
theorem Mem.byte_puts_above (m : Mem) (r o p : Nat) (l : List Nat) (h : o + l.length ≤ p) (hp : p < 8589934592) :
    Mem.byte (Mem.puts m r o l) r p = Mem.byte m r p := by
  induction l generalizing m o with
  | nil => rfl
  | cons v t ih =>
    simp only [List.length_cons] at h
    simp only [Mem.puts]
    rw [ih _ _ (by omega), Mem.byte_put_ne _ _ (by omega) hp (.inr (by omega))]

end Sys2Proof.Machine
end

