-- ==== Sys2Proof/Laws/State.lean ====
section
/-! SUPPORT. One lemma per field per update of the machine, true by unfolding, and what a field reads after a write of a field. -/

namespace Sys2Proof.Machine

/-! ## `start` -/

@[simp] theorem Chip.start_flds (c : Chip) : (c.start).flds = c.flds := rfl
@[simp] theorem Chip.start_sticky (c : Chip) : (c.start).sticky = c.sticky := rfl
@[simp] theorem Chip.start_irqEn (c : Chip) : (c.start).irqEn = c.irqEn := rfl
@[simp] theorem Chip.start_enable (c : Chip) : (c.start).enable = c.enable := rfl
@[simp] theorem Chip.start_pwrReq (c : Chip) : (c.start).pwrReq = c.pwrReq := rfl
@[simp] theorem Chip.start_latTol (c : Chip) : (c.start).latTol = c.latTol := rfl
@[simp] theorem Chip.start_resetting (c : Chip) : (c.start).resetting = c.resetting := rfl
@[simp] theorem Chip.start_fcu (c : Chip) : (c.start).fcu = c.fcu := rfl
@[simp] theorem Chip.start_stc (c : Chip) : (c.start).stc = c.stc := rfl
@[simp] theorem Chip.start_straps (c : Chip) : (c.start).straps = c.straps := rfl
@[simp] theorem Chip.start_pins (c : Chip) : (c.start).pins = c.pins := rfl
@[simp] theorem Chip.start_otp (c : Chip) : (c.start).otp = c.otp := rfl
@[simp] theorem Chip.start_free (c : Chip) : (c.start).free = c.free := rfl
@[simp] theorem Chip.start_cond (c : Chip) : (c.start).cond = c.cond := rfl
@[simp] theorem Chip.start_pba (c : Chip) : (c.start).pba = c.pba := rfl
@[simp] theorem Chip.start_yieldDue (c : Chip) : (c.start).yieldDue = c.yieldDue := rfl
@[simp] theorem Chip.start_rateHeld (c : Chip) : (c.start).rateHeld = c.rateHeld := rfl
@[simp] theorem Chip.start_containDegraded (c : Chip) : (c.start).containDegraded = c.containDegraded := rfl
@[simp] theorem Chip.start_debugSeen (c : Chip) : (c.start).debugSeen = c.debugSeen := rfl
@[simp] theorem Chip.start_inFlight (c : Chip) : (c.start).inFlight = c.inFlight := rfl
@[simp] theorem Chip.start_served (c : Chip) : (c.start).served = c.served := rfl
@[simp] theorem Chip.start_silent (c : Chip) : (c.start).silent = c.silent := rfl
@[simp] theorem Chip.start_resp (c : Chip) : (c.start).resp = c.resp := rfl
@[simp] theorem Chip.start_rdata (c : Chip) : (c.start).rdata = c.rdata := rfl
@[simp] theorem Chip.start_lanes (c : Chip) : (c.start).lanes = c.lanes := rfl
@[simp] theorem Chip.start_grps (c : Chip) : (c.start).grps = c.grps := rfl
@[simp] theorem Chip.start_vin (c : Chip) : (c.start).vin = c.vin := rfl
@[simp] theorem Chip.start_banks (c : Chip) : (c.start).banks = c.banks := rfl
@[simp] theorem Chip.start_syncs (c : Chip) : (c.start).syncs = c.syncs := rfl
@[simp] theorem Chip.start_merges (c : Chip) : (c.start).merges = c.merges := rfl
@[simp] theorem Chip.start_xpt (c : Chip) : (c.start).xpt = c.xpt := rfl
@[simp] theorem Chip.start_cmps (c : Chip) : (c.start).cmps = c.cmps := rfl
@[simp] theorem Chip.start_cgrps (c : Chip) : (c.start).cgrps = c.cgrps := rfl
@[simp] theorem Chip.start_outs (c : Chip) : (c.start).outs = c.outs := rfl
@[simp] theorem Chip.start_mirrorQ (c : Chip) : (c.start).mirrorQ = c.mirrorQ := rfl
@[simp] theorem Chip.start_mirrorSeq (c : Chip) : (c.start).mirrorSeq = c.mirrorSeq := rfl
@[simp] theorem Chip.start_replay (c : Chip) : (c.start).replay = c.replay := rfl
@[simp] theorem Chip.start_mer (c : Chip) : (c.start).mer = c.mer := rfl
@[simp] theorem Chip.start_amc (c : Chip) : (c.start).amc = c.amc := rfl
@[simp] theorem Chip.start_aud (c : Chip) : (c.start).aud = c.aud := rfl
@[simp] theorem Chip.start_mix (c : Chip) : (c.start).mix = c.mix := rfl
@[simp] theorem Chip.start_novas (c : Chip) : (c.start).novas = c.novas := rfl
@[simp] theorem Chip.start_sch (c : Chip) : (c.start).sch = c.sch := rfl
@[simp] theorem Chip.start_pkt (c : Chip) : (c.start).pkt = c.pkt := rfl
@[simp] theorem Chip.start_twin (c : Chip) : (c.start).twin = c.twin := rfl
@[simp] theorem Chip.start_mirrorWait (c : Chip) : (c.start).mirrorWait = c.mirrorWait := rfl
@[simp] theorem Chip.start_retimers (c : Chip) : (c.start).retimers = c.retimers := rfl
@[simp] theorem Chip.start_intakes (c : Chip) : (c.start).intakes = c.intakes := rfl
@[simp] theorem Chip.start_host (c : Chip) : (c.start).host = c.host := rfl
@[simp] theorem Chip.start_power (c : Chip) : (c.start).power = c.power := rfl
@[simp] theorem Chip.start_poisoned (c : Chip) : (c.start).poisoned = c.poisoned := rfl

/-! ## `wr` -/

@[simp] theorem Chip.wr_sticky (c : Chip) (f : Fld) (v : Nat) : (c.wr f v).sticky = c.sticky := rfl
@[simp] theorem Chip.wr_irqEn (c : Chip) (f : Fld) (v : Nat) : (c.wr f v).irqEn = c.irqEn := rfl
@[simp] theorem Chip.wr_enable (c : Chip) (f : Fld) (v : Nat) : (c.wr f v).enable = c.enable := rfl
@[simp] theorem Chip.wr_pwrReq (c : Chip) (f : Fld) (v : Nat) : (c.wr f v).pwrReq = c.pwrReq := rfl
@[simp] theorem Chip.wr_latTol (c : Chip) (f : Fld) (v : Nat) : (c.wr f v).latTol = c.latTol := rfl
@[simp] theorem Chip.wr_resetting (c : Chip) (f : Fld) (v : Nat) : (c.wr f v).resetting = c.resetting := rfl
@[simp] theorem Chip.wr_fcu (c : Chip) (f : Fld) (v : Nat) : (c.wr f v).fcu = c.fcu := rfl
@[simp] theorem Chip.wr_reports (c : Chip) (f : Fld) (v : Nat) : (c.wr f v).reports = c.reports := rfl
@[simp] theorem Chip.wr_stc (c : Chip) (f : Fld) (v : Nat) : (c.wr f v).stc = c.stc := rfl
@[simp] theorem Chip.wr_straps (c : Chip) (f : Fld) (v : Nat) : (c.wr f v).straps = c.straps := rfl
@[simp] theorem Chip.wr_pins (c : Chip) (f : Fld) (v : Nat) : (c.wr f v).pins = c.pins := rfl
@[simp] theorem Chip.wr_otp (c : Chip) (f : Fld) (v : Nat) : (c.wr f v).otp = c.otp := rfl
@[simp] theorem Chip.wr_free (c : Chip) (f : Fld) (v : Nat) : (c.wr f v).free = c.free := rfl
@[simp] theorem Chip.wr_out (c : Chip) (f : Fld) (v : Nat) : (c.wr f v).out = c.out := rfl
@[simp] theorem Chip.wr_cond (c : Chip) (f : Fld) (v : Nat) : (c.wr f v).cond = c.cond := rfl
@[simp] theorem Chip.wr_pba (c : Chip) (f : Fld) (v : Nat) : (c.wr f v).pba = c.pba := rfl
@[simp] theorem Chip.wr_yieldDue (c : Chip) (f : Fld) (v : Nat) : (c.wr f v).yieldDue = c.yieldDue := rfl
@[simp] theorem Chip.wr_rateHeld (c : Chip) (f : Fld) (v : Nat) : (c.wr f v).rateHeld = c.rateHeld := rfl
@[simp] theorem Chip.wr_containDegraded (c : Chip) (f : Fld) (v : Nat) : (c.wr f v).containDegraded = c.containDegraded := rfl
@[simp] theorem Chip.wr_debugSeen (c : Chip) (f : Fld) (v : Nat) : (c.wr f v).debugSeen = c.debugSeen := rfl
@[simp] theorem Chip.wr_inFlight (c : Chip) (f : Fld) (v : Nat) : (c.wr f v).inFlight = c.inFlight := rfl
@[simp] theorem Chip.wr_served (c : Chip) (f : Fld) (v : Nat) : (c.wr f v).served = c.served := rfl
@[simp] theorem Chip.wr_silent (c : Chip) (f : Fld) (v : Nat) : (c.wr f v).silent = c.silent := rfl
@[simp] theorem Chip.wr_resp (c : Chip) (f : Fld) (v : Nat) : (c.wr f v).resp = c.resp := rfl
@[simp] theorem Chip.wr_rdata (c : Chip) (f : Fld) (v : Nat) : (c.wr f v).rdata = c.rdata := rfl
@[simp] theorem Chip.wr_lanes (c : Chip) (f : Fld) (v : Nat) : (c.wr f v).lanes = c.lanes := rfl
@[simp] theorem Chip.wr_grps (c : Chip) (f : Fld) (v : Nat) : (c.wr f v).grps = c.grps := rfl
@[simp] theorem Chip.wr_vin (c : Chip) (f : Fld) (v : Nat) : (c.wr f v).vin = c.vin := rfl
@[simp] theorem Chip.wr_banks (c : Chip) (f : Fld) (v : Nat) : (c.wr f v).banks = c.banks := rfl
@[simp] theorem Chip.wr_syncs (c : Chip) (f : Fld) (v : Nat) : (c.wr f v).syncs = c.syncs := rfl
@[simp] theorem Chip.wr_merges (c : Chip) (f : Fld) (v : Nat) : (c.wr f v).merges = c.merges := rfl
@[simp] theorem Chip.wr_xpt (c : Chip) (f : Fld) (v : Nat) : (c.wr f v).xpt = c.xpt := rfl
@[simp] theorem Chip.wr_cmps (c : Chip) (f : Fld) (v : Nat) : (c.wr f v).cmps = c.cmps := rfl
@[simp] theorem Chip.wr_cgrps (c : Chip) (f : Fld) (v : Nat) : (c.wr f v).cgrps = c.cgrps := rfl
@[simp] theorem Chip.wr_outs (c : Chip) (f : Fld) (v : Nat) : (c.wr f v).outs = c.outs := rfl
@[simp] theorem Chip.wr_mirrorQ (c : Chip) (f : Fld) (v : Nat) : (c.wr f v).mirrorQ = c.mirrorQ := rfl
@[simp] theorem Chip.wr_mirrorSeq (c : Chip) (f : Fld) (v : Nat) : (c.wr f v).mirrorSeq = c.mirrorSeq := rfl
@[simp] theorem Chip.wr_replay (c : Chip) (f : Fld) (v : Nat) : (c.wr f v).replay = c.replay := rfl
@[simp] theorem Chip.wr_mer (c : Chip) (f : Fld) (v : Nat) : (c.wr f v).mer = c.mer := rfl
@[simp] theorem Chip.wr_amc (c : Chip) (f : Fld) (v : Nat) : (c.wr f v).amc = c.amc := rfl
@[simp] theorem Chip.wr_aud (c : Chip) (f : Fld) (v : Nat) : (c.wr f v).aud = c.aud := rfl
@[simp] theorem Chip.wr_mix (c : Chip) (f : Fld) (v : Nat) : (c.wr f v).mix = c.mix := rfl
@[simp] theorem Chip.wr_novas (c : Chip) (f : Fld) (v : Nat) : (c.wr f v).novas = c.novas := rfl
@[simp] theorem Chip.wr_sch (c : Chip) (f : Fld) (v : Nat) : (c.wr f v).sch = c.sch := rfl
@[simp] theorem Chip.wr_pkt (c : Chip) (f : Fld) (v : Nat) : (c.wr f v).pkt = c.pkt := rfl
@[simp] theorem Chip.wr_twin (c : Chip) (f : Fld) (v : Nat) : (c.wr f v).twin = c.twin := rfl
@[simp] theorem Chip.wr_mirrorWait (c : Chip) (f : Fld) (v : Nat) : (c.wr f v).mirrorWait = c.mirrorWait := rfl
@[simp] theorem Chip.wr_retimers (c : Chip) (f : Fld) (v : Nat) : (c.wr f v).retimers = c.retimers := rfl
@[simp] theorem Chip.wr_intakes (c : Chip) (f : Fld) (v : Nat) : (c.wr f v).intakes = c.intakes := rfl
@[simp] theorem Chip.wr_host (c : Chip) (f : Fld) (v : Nat) : (c.wr f v).host = c.host := rfl
@[simp] theorem Chip.wr_power (c : Chip) (f : Fld) (v : Nat) : (c.wr f v).power = c.power := rfl
@[simp] theorem Chip.wr_poisoned (c : Chip) (f : Fld) (v : Nat) : (c.wr f v).poisoned = c.poisoned := rfl

/-! ## `fwr` -/

@[simp] theorem Chip.fwr_flds (c : Chip) (f : Fld) (v : Nat) : (c.fwr f v).flds = c.flds := rfl
@[simp] theorem Chip.fwr_sticky (c : Chip) (f : Fld) (v : Nat) : (c.fwr f v).sticky = c.sticky := rfl
@[simp] theorem Chip.fwr_irqEn (c : Chip) (f : Fld) (v : Nat) : (c.fwr f v).irqEn = c.irqEn := rfl
@[simp] theorem Chip.fwr_enable (c : Chip) (f : Fld) (v : Nat) : (c.fwr f v).enable = c.enable := rfl
@[simp] theorem Chip.fwr_pwrReq (c : Chip) (f : Fld) (v : Nat) : (c.fwr f v).pwrReq = c.pwrReq := rfl
@[simp] theorem Chip.fwr_latTol (c : Chip) (f : Fld) (v : Nat) : (c.fwr f v).latTol = c.latTol := rfl
@[simp] theorem Chip.fwr_resetting (c : Chip) (f : Fld) (v : Nat) : (c.fwr f v).resetting = c.resetting := rfl
@[simp] theorem Chip.fwr_reports (c : Chip) (f : Fld) (v : Nat) : (c.fwr f v).reports = c.reports := rfl
@[simp] theorem Chip.fwr_stc (c : Chip) (f : Fld) (v : Nat) : (c.fwr f v).stc = c.stc := rfl
@[simp] theorem Chip.fwr_straps (c : Chip) (f : Fld) (v : Nat) : (c.fwr f v).straps = c.straps := rfl
@[simp] theorem Chip.fwr_pins (c : Chip) (f : Fld) (v : Nat) : (c.fwr f v).pins = c.pins := rfl
@[simp] theorem Chip.fwr_otp (c : Chip) (f : Fld) (v : Nat) : (c.fwr f v).otp = c.otp := rfl
@[simp] theorem Chip.fwr_free (c : Chip) (f : Fld) (v : Nat) : (c.fwr f v).free = c.free := rfl
@[simp] theorem Chip.fwr_out (c : Chip) (f : Fld) (v : Nat) : (c.fwr f v).out = c.out := rfl
@[simp] theorem Chip.fwr_cond (c : Chip) (f : Fld) (v : Nat) : (c.fwr f v).cond = c.cond := rfl
@[simp] theorem Chip.fwr_pba (c : Chip) (f : Fld) (v : Nat) : (c.fwr f v).pba = c.pba := rfl
@[simp] theorem Chip.fwr_yieldDue (c : Chip) (f : Fld) (v : Nat) : (c.fwr f v).yieldDue = c.yieldDue := rfl
@[simp] theorem Chip.fwr_rateHeld (c : Chip) (f : Fld) (v : Nat) : (c.fwr f v).rateHeld = c.rateHeld := rfl
@[simp] theorem Chip.fwr_containDegraded (c : Chip) (f : Fld) (v : Nat) : (c.fwr f v).containDegraded = c.containDegraded := rfl
@[simp] theorem Chip.fwr_debugSeen (c : Chip) (f : Fld) (v : Nat) : (c.fwr f v).debugSeen = c.debugSeen := rfl
@[simp] theorem Chip.fwr_inFlight (c : Chip) (f : Fld) (v : Nat) : (c.fwr f v).inFlight = c.inFlight := rfl
@[simp] theorem Chip.fwr_served (c : Chip) (f : Fld) (v : Nat) : (c.fwr f v).served = c.served := rfl
@[simp] theorem Chip.fwr_silent (c : Chip) (f : Fld) (v : Nat) : (c.fwr f v).silent = c.silent := rfl
@[simp] theorem Chip.fwr_resp (c : Chip) (f : Fld) (v : Nat) : (c.fwr f v).resp = c.resp := rfl
@[simp] theorem Chip.fwr_rdata (c : Chip) (f : Fld) (v : Nat) : (c.fwr f v).rdata = c.rdata := rfl
@[simp] theorem Chip.fwr_lanes (c : Chip) (f : Fld) (v : Nat) : (c.fwr f v).lanes = c.lanes := rfl
@[simp] theorem Chip.fwr_grps (c : Chip) (f : Fld) (v : Nat) : (c.fwr f v).grps = c.grps := rfl
@[simp] theorem Chip.fwr_vin (c : Chip) (f : Fld) (v : Nat) : (c.fwr f v).vin = c.vin := rfl
@[simp] theorem Chip.fwr_banks (c : Chip) (f : Fld) (v : Nat) : (c.fwr f v).banks = c.banks := rfl
@[simp] theorem Chip.fwr_syncs (c : Chip) (f : Fld) (v : Nat) : (c.fwr f v).syncs = c.syncs := rfl
@[simp] theorem Chip.fwr_merges (c : Chip) (f : Fld) (v : Nat) : (c.fwr f v).merges = c.merges := rfl
@[simp] theorem Chip.fwr_xpt (c : Chip) (f : Fld) (v : Nat) : (c.fwr f v).xpt = c.xpt := rfl
@[simp] theorem Chip.fwr_cmps (c : Chip) (f : Fld) (v : Nat) : (c.fwr f v).cmps = c.cmps := rfl
@[simp] theorem Chip.fwr_cgrps (c : Chip) (f : Fld) (v : Nat) : (c.fwr f v).cgrps = c.cgrps := rfl
@[simp] theorem Chip.fwr_outs (c : Chip) (f : Fld) (v : Nat) : (c.fwr f v).outs = c.outs := rfl
@[simp] theorem Chip.fwr_mirrorQ (c : Chip) (f : Fld) (v : Nat) : (c.fwr f v).mirrorQ = c.mirrorQ := rfl
@[simp] theorem Chip.fwr_mirrorSeq (c : Chip) (f : Fld) (v : Nat) : (c.fwr f v).mirrorSeq = c.mirrorSeq := rfl
@[simp] theorem Chip.fwr_replay (c : Chip) (f : Fld) (v : Nat) : (c.fwr f v).replay = c.replay := rfl
@[simp] theorem Chip.fwr_mer (c : Chip) (f : Fld) (v : Nat) : (c.fwr f v).mer = c.mer := rfl
@[simp] theorem Chip.fwr_amc (c : Chip) (f : Fld) (v : Nat) : (c.fwr f v).amc = c.amc := rfl
@[simp] theorem Chip.fwr_aud (c : Chip) (f : Fld) (v : Nat) : (c.fwr f v).aud = c.aud := rfl
@[simp] theorem Chip.fwr_mix (c : Chip) (f : Fld) (v : Nat) : (c.fwr f v).mix = c.mix := rfl
@[simp] theorem Chip.fwr_novas (c : Chip) (f : Fld) (v : Nat) : (c.fwr f v).novas = c.novas := rfl
@[simp] theorem Chip.fwr_sch (c : Chip) (f : Fld) (v : Nat) : (c.fwr f v).sch = c.sch := rfl
@[simp] theorem Chip.fwr_pkt (c : Chip) (f : Fld) (v : Nat) : (c.fwr f v).pkt = c.pkt := rfl
@[simp] theorem Chip.fwr_twin (c : Chip) (f : Fld) (v : Nat) : (c.fwr f v).twin = c.twin := rfl
@[simp] theorem Chip.fwr_mirrorWait (c : Chip) (f : Fld) (v : Nat) : (c.fwr f v).mirrorWait = c.mirrorWait := rfl
@[simp] theorem Chip.fwr_retimers (c : Chip) (f : Fld) (v : Nat) : (c.fwr f v).retimers = c.retimers := rfl
@[simp] theorem Chip.fwr_intakes (c : Chip) (f : Fld) (v : Nat) : (c.fwr f v).intakes = c.intakes := rfl
@[simp] theorem Chip.fwr_host (c : Chip) (f : Fld) (v : Nat) : (c.fwr f v).host = c.host := rfl
@[simp] theorem Chip.fwr_power (c : Chip) (f : Fld) (v : Nat) : (c.fwr f v).power = c.power := rfl
@[simp] theorem Chip.fwr_poisoned (c : Chip) (f : Fld) (v : Nat) : (c.fwr f v).poisoned = c.poisoned := rfl

/-! ## `stick` -/

@[simp] theorem Chip.stick_flds (c : Chip) (p b : Nat) : (c.stick p b).flds = c.flds := rfl
@[simp] theorem Chip.stick_irqEn (c : Chip) (p b : Nat) : (c.stick p b).irqEn = c.irqEn := rfl
@[simp] theorem Chip.stick_enable (c : Chip) (p b : Nat) : (c.stick p b).enable = c.enable := rfl
@[simp] theorem Chip.stick_pwrReq (c : Chip) (p b : Nat) : (c.stick p b).pwrReq = c.pwrReq := rfl
@[simp] theorem Chip.stick_latTol (c : Chip) (p b : Nat) : (c.stick p b).latTol = c.latTol := rfl
@[simp] theorem Chip.stick_resetting (c : Chip) (p b : Nat) : (c.stick p b).resetting = c.resetting := rfl
@[simp] theorem Chip.stick_fcu (c : Chip) (p b : Nat) : (c.stick p b).fcu = c.fcu := rfl
@[simp] theorem Chip.stick_reports (c : Chip) (p b : Nat) : (c.stick p b).reports = c.reports := rfl
@[simp] theorem Chip.stick_stc (c : Chip) (p b : Nat) : (c.stick p b).stc = c.stc := rfl
@[simp] theorem Chip.stick_straps (c : Chip) (p b : Nat) : (c.stick p b).straps = c.straps := rfl
@[simp] theorem Chip.stick_pins (c : Chip) (p b : Nat) : (c.stick p b).pins = c.pins := rfl
@[simp] theorem Chip.stick_otp (c : Chip) (p b : Nat) : (c.stick p b).otp = c.otp := rfl
@[simp] theorem Chip.stick_free (c : Chip) (p b : Nat) : (c.stick p b).free = c.free := rfl
@[simp] theorem Chip.stick_out (c : Chip) (p b : Nat) : (c.stick p b).out = c.out := rfl
@[simp] theorem Chip.stick_cond (c : Chip) (p b : Nat) : (c.stick p b).cond = c.cond := rfl
@[simp] theorem Chip.stick_pba (c : Chip) (p b : Nat) : (c.stick p b).pba = c.pba := rfl
@[simp] theorem Chip.stick_yieldDue (c : Chip) (p b : Nat) : (c.stick p b).yieldDue = c.yieldDue := rfl
@[simp] theorem Chip.stick_rateHeld (c : Chip) (p b : Nat) : (c.stick p b).rateHeld = c.rateHeld := rfl
@[simp] theorem Chip.stick_containDegraded (c : Chip) (p b : Nat) : (c.stick p b).containDegraded = c.containDegraded := rfl
@[simp] theorem Chip.stick_debugSeen (c : Chip) (p b : Nat) : (c.stick p b).debugSeen = c.debugSeen := rfl
@[simp] theorem Chip.stick_inFlight (c : Chip) (p b : Nat) : (c.stick p b).inFlight = c.inFlight := rfl
@[simp] theorem Chip.stick_served (c : Chip) (p b : Nat) : (c.stick p b).served = c.served := rfl
@[simp] theorem Chip.stick_silent (c : Chip) (p b : Nat) : (c.stick p b).silent = c.silent := rfl
@[simp] theorem Chip.stick_resp (c : Chip) (p b : Nat) : (c.stick p b).resp = c.resp := rfl
@[simp] theorem Chip.stick_rdata (c : Chip) (p b : Nat) : (c.stick p b).rdata = c.rdata := rfl
@[simp] theorem Chip.stick_lanes (c : Chip) (p b : Nat) : (c.stick p b).lanes = c.lanes := rfl
@[simp] theorem Chip.stick_grps (c : Chip) (p b : Nat) : (c.stick p b).grps = c.grps := rfl
@[simp] theorem Chip.stick_vin (c : Chip) (p b : Nat) : (c.stick p b).vin = c.vin := rfl
@[simp] theorem Chip.stick_banks (c : Chip) (p b : Nat) : (c.stick p b).banks = c.banks := rfl
@[simp] theorem Chip.stick_syncs (c : Chip) (p b : Nat) : (c.stick p b).syncs = c.syncs := rfl
@[simp] theorem Chip.stick_merges (c : Chip) (p b : Nat) : (c.stick p b).merges = c.merges := rfl
@[simp] theorem Chip.stick_xpt (c : Chip) (p b : Nat) : (c.stick p b).xpt = c.xpt := rfl
@[simp] theorem Chip.stick_cmps (c : Chip) (p b : Nat) : (c.stick p b).cmps = c.cmps := rfl
@[simp] theorem Chip.stick_cgrps (c : Chip) (p b : Nat) : (c.stick p b).cgrps = c.cgrps := rfl
@[simp] theorem Chip.stick_outs (c : Chip) (p b : Nat) : (c.stick p b).outs = c.outs := rfl
@[simp] theorem Chip.stick_mirrorQ (c : Chip) (p b : Nat) : (c.stick p b).mirrorQ = c.mirrorQ := rfl
@[simp] theorem Chip.stick_mirrorSeq (c : Chip) (p b : Nat) : (c.stick p b).mirrorSeq = c.mirrorSeq := rfl
@[simp] theorem Chip.stick_replay (c : Chip) (p b : Nat) : (c.stick p b).replay = c.replay := rfl
@[simp] theorem Chip.stick_mer (c : Chip) (p b : Nat) : (c.stick p b).mer = c.mer := rfl
@[simp] theorem Chip.stick_amc (c : Chip) (p b : Nat) : (c.stick p b).amc = c.amc := rfl
@[simp] theorem Chip.stick_aud (c : Chip) (p b : Nat) : (c.stick p b).aud = c.aud := rfl
@[simp] theorem Chip.stick_mix (c : Chip) (p b : Nat) : (c.stick p b).mix = c.mix := rfl
@[simp] theorem Chip.stick_novas (c : Chip) (p b : Nat) : (c.stick p b).novas = c.novas := rfl
@[simp] theorem Chip.stick_sch (c : Chip) (p b : Nat) : (c.stick p b).sch = c.sch := rfl
@[simp] theorem Chip.stick_pkt (c : Chip) (p b : Nat) : (c.stick p b).pkt = c.pkt := rfl
@[simp] theorem Chip.stick_twin (c : Chip) (p b : Nat) : (c.stick p b).twin = c.twin := rfl
@[simp] theorem Chip.stick_mirrorWait (c : Chip) (p b : Nat) : (c.stick p b).mirrorWait = c.mirrorWait := rfl
@[simp] theorem Chip.stick_retimers (c : Chip) (p b : Nat) : (c.stick p b).retimers = c.retimers := rfl
@[simp] theorem Chip.stick_intakes (c : Chip) (p b : Nat) : (c.stick p b).intakes = c.intakes := rfl
@[simp] theorem Chip.stick_host (c : Chip) (p b : Nat) : (c.stick p b).host = c.host := rfl
@[simp] theorem Chip.stick_power (c : Chip) (p b : Nat) : (c.stick p b).power = c.power := rfl
@[simp] theorem Chip.stick_poisoned (c : Chip) (p b : Nat) : (c.stick p b).poisoned = c.poisoned := rfl

/-! ## `emit` -/

@[simp] theorem Chip.emit_flds (c : Chip) (o : Out) : (c.emit o).flds = c.flds := rfl
@[simp] theorem Chip.emit_sticky (c : Chip) (o : Out) : (c.emit o).sticky = c.sticky := rfl
@[simp] theorem Chip.emit_irqEn (c : Chip) (o : Out) : (c.emit o).irqEn = c.irqEn := rfl
@[simp] theorem Chip.emit_enable (c : Chip) (o : Out) : (c.emit o).enable = c.enable := rfl
@[simp] theorem Chip.emit_pwrReq (c : Chip) (o : Out) : (c.emit o).pwrReq = c.pwrReq := rfl
@[simp] theorem Chip.emit_latTol (c : Chip) (o : Out) : (c.emit o).latTol = c.latTol := rfl
@[simp] theorem Chip.emit_resetting (c : Chip) (o : Out) : (c.emit o).resetting = c.resetting := rfl
@[simp] theorem Chip.emit_fcu (c : Chip) (o : Out) : (c.emit o).fcu = c.fcu := rfl
@[simp] theorem Chip.emit_reports (c : Chip) (o : Out) : (c.emit o).reports = c.reports := rfl
@[simp] theorem Chip.emit_stc (c : Chip) (o : Out) : (c.emit o).stc = c.stc := rfl
@[simp] theorem Chip.emit_straps (c : Chip) (o : Out) : (c.emit o).straps = c.straps := rfl
@[simp] theorem Chip.emit_pins (c : Chip) (o : Out) : (c.emit o).pins = c.pins := rfl
@[simp] theorem Chip.emit_otp (c : Chip) (o : Out) : (c.emit o).otp = c.otp := rfl
@[simp] theorem Chip.emit_free (c : Chip) (o : Out) : (c.emit o).free = c.free := rfl
@[simp] theorem Chip.emit_cond (c : Chip) (o : Out) : (c.emit o).cond = c.cond := rfl
@[simp] theorem Chip.emit_pba (c : Chip) (o : Out) : (c.emit o).pba = c.pba := rfl
@[simp] theorem Chip.emit_yieldDue (c : Chip) (o : Out) : (c.emit o).yieldDue = c.yieldDue := rfl
@[simp] theorem Chip.emit_rateHeld (c : Chip) (o : Out) : (c.emit o).rateHeld = c.rateHeld := rfl
@[simp] theorem Chip.emit_containDegraded (c : Chip) (o : Out) : (c.emit o).containDegraded = c.containDegraded := rfl
@[simp] theorem Chip.emit_debugSeen (c : Chip) (o : Out) : (c.emit o).debugSeen = c.debugSeen := rfl
@[simp] theorem Chip.emit_inFlight (c : Chip) (o : Out) : (c.emit o).inFlight = c.inFlight := rfl
@[simp] theorem Chip.emit_served (c : Chip) (o : Out) : (c.emit o).served = c.served := rfl
@[simp] theorem Chip.emit_silent (c : Chip) (o : Out) : (c.emit o).silent = c.silent := rfl
@[simp] theorem Chip.emit_resp (c : Chip) (o : Out) : (c.emit o).resp = c.resp := rfl
@[simp] theorem Chip.emit_rdata (c : Chip) (o : Out) : (c.emit o).rdata = c.rdata := rfl
@[simp] theorem Chip.emit_lanes (c : Chip) (o : Out) : (c.emit o).lanes = c.lanes := rfl
@[simp] theorem Chip.emit_grps (c : Chip) (o : Out) : (c.emit o).grps = c.grps := rfl
@[simp] theorem Chip.emit_vin (c : Chip) (o : Out) : (c.emit o).vin = c.vin := rfl
@[simp] theorem Chip.emit_banks (c : Chip) (o : Out) : (c.emit o).banks = c.banks := rfl
@[simp] theorem Chip.emit_syncs (c : Chip) (o : Out) : (c.emit o).syncs = c.syncs := rfl
@[simp] theorem Chip.emit_merges (c : Chip) (o : Out) : (c.emit o).merges = c.merges := rfl
@[simp] theorem Chip.emit_xpt (c : Chip) (o : Out) : (c.emit o).xpt = c.xpt := rfl
@[simp] theorem Chip.emit_cmps (c : Chip) (o : Out) : (c.emit o).cmps = c.cmps := rfl
@[simp] theorem Chip.emit_cgrps (c : Chip) (o : Out) : (c.emit o).cgrps = c.cgrps := rfl
@[simp] theorem Chip.emit_outs (c : Chip) (o : Out) : (c.emit o).outs = c.outs := rfl
@[simp] theorem Chip.emit_mirrorQ (c : Chip) (o : Out) : (c.emit o).mirrorQ = c.mirrorQ := rfl
@[simp] theorem Chip.emit_mirrorSeq (c : Chip) (o : Out) : (c.emit o).mirrorSeq = c.mirrorSeq := rfl
@[simp] theorem Chip.emit_replay (c : Chip) (o : Out) : (c.emit o).replay = c.replay := rfl
@[simp] theorem Chip.emit_mer (c : Chip) (o : Out) : (c.emit o).mer = c.mer := rfl
@[simp] theorem Chip.emit_amc (c : Chip) (o : Out) : (c.emit o).amc = c.amc := rfl
@[simp] theorem Chip.emit_aud (c : Chip) (o : Out) : (c.emit o).aud = c.aud := rfl
@[simp] theorem Chip.emit_mix (c : Chip) (o : Out) : (c.emit o).mix = c.mix := rfl
@[simp] theorem Chip.emit_novas (c : Chip) (o : Out) : (c.emit o).novas = c.novas := rfl
@[simp] theorem Chip.emit_sch (c : Chip) (o : Out) : (c.emit o).sch = c.sch := rfl
@[simp] theorem Chip.emit_pkt (c : Chip) (o : Out) : (c.emit o).pkt = c.pkt := rfl
@[simp] theorem Chip.emit_twin (c : Chip) (o : Out) : (c.emit o).twin = c.twin := rfl
@[simp] theorem Chip.emit_mirrorWait (c : Chip) (o : Out) : (c.emit o).mirrorWait = c.mirrorWait := rfl
@[simp] theorem Chip.emit_retimers (c : Chip) (o : Out) : (c.emit o).retimers = c.retimers := rfl
@[simp] theorem Chip.emit_intakes (c : Chip) (o : Out) : (c.emit o).intakes = c.intakes := rfl
@[simp] theorem Chip.emit_host (c : Chip) (o : Out) : (c.emit o).host = c.host := rfl
@[simp] theorem Chip.emit_power (c : Chip) (o : Out) : (c.emit o).power = c.power := rfl
@[simp] theorem Chip.emit_poisoned (c : Chip) (o : Out) : (c.emit o).poisoned = c.poisoned := rfl

/-! ## `report` -/

@[simp] theorem Chip.report_flds (c : Chip) (r : Report) : (c.report r).flds = c.flds := rfl
@[simp] theorem Chip.report_sticky (c : Chip) (r : Report) : (c.report r).sticky = c.sticky := rfl
@[simp] theorem Chip.report_irqEn (c : Chip) (r : Report) : (c.report r).irqEn = c.irqEn := rfl
@[simp] theorem Chip.report_enable (c : Chip) (r : Report) : (c.report r).enable = c.enable := rfl
@[simp] theorem Chip.report_pwrReq (c : Chip) (r : Report) : (c.report r).pwrReq = c.pwrReq := rfl
@[simp] theorem Chip.report_latTol (c : Chip) (r : Report) : (c.report r).latTol = c.latTol := rfl
@[simp] theorem Chip.report_resetting (c : Chip) (r : Report) : (c.report r).resetting = c.resetting := rfl
@[simp] theorem Chip.report_fcu (c : Chip) (r : Report) : (c.report r).fcu = c.fcu := rfl
@[simp] theorem Chip.report_stc (c : Chip) (r : Report) : (c.report r).stc = c.stc := rfl
@[simp] theorem Chip.report_straps (c : Chip) (r : Report) : (c.report r).straps = c.straps := rfl
@[simp] theorem Chip.report_pins (c : Chip) (r : Report) : (c.report r).pins = c.pins := rfl
@[simp] theorem Chip.report_otp (c : Chip) (r : Report) : (c.report r).otp = c.otp := rfl
@[simp] theorem Chip.report_free (c : Chip) (r : Report) : (c.report r).free = c.free := rfl
@[simp] theorem Chip.report_out (c : Chip) (r : Report) : (c.report r).out = c.out := rfl
@[simp] theorem Chip.report_cond (c : Chip) (r : Report) : (c.report r).cond = c.cond := rfl
@[simp] theorem Chip.report_pba (c : Chip) (r : Report) : (c.report r).pba = c.pba := rfl
@[simp] theorem Chip.report_yieldDue (c : Chip) (r : Report) : (c.report r).yieldDue = c.yieldDue := rfl
@[simp] theorem Chip.report_rateHeld (c : Chip) (r : Report) : (c.report r).rateHeld = c.rateHeld := rfl
@[simp] theorem Chip.report_containDegraded (c : Chip) (r : Report) : (c.report r).containDegraded = c.containDegraded := rfl
@[simp] theorem Chip.report_debugSeen (c : Chip) (r : Report) : (c.report r).debugSeen = c.debugSeen := rfl
@[simp] theorem Chip.report_inFlight (c : Chip) (r : Report) : (c.report r).inFlight = c.inFlight := rfl
@[simp] theorem Chip.report_served (c : Chip) (r : Report) : (c.report r).served = c.served := rfl
@[simp] theorem Chip.report_silent (c : Chip) (r : Report) : (c.report r).silent = c.silent := rfl
@[simp] theorem Chip.report_resp (c : Chip) (r : Report) : (c.report r).resp = c.resp := rfl
@[simp] theorem Chip.report_rdata (c : Chip) (r : Report) : (c.report r).rdata = c.rdata := rfl
@[simp] theorem Chip.report_lanes (c : Chip) (r : Report) : (c.report r).lanes = c.lanes := rfl
@[simp] theorem Chip.report_grps (c : Chip) (r : Report) : (c.report r).grps = c.grps := rfl
@[simp] theorem Chip.report_vin (c : Chip) (r : Report) : (c.report r).vin = c.vin := rfl
@[simp] theorem Chip.report_banks (c : Chip) (r : Report) : (c.report r).banks = c.banks := rfl
@[simp] theorem Chip.report_syncs (c : Chip) (r : Report) : (c.report r).syncs = c.syncs := rfl
@[simp] theorem Chip.report_merges (c : Chip) (r : Report) : (c.report r).merges = c.merges := rfl
@[simp] theorem Chip.report_xpt (c : Chip) (r : Report) : (c.report r).xpt = c.xpt := rfl
@[simp] theorem Chip.report_cmps (c : Chip) (r : Report) : (c.report r).cmps = c.cmps := rfl
@[simp] theorem Chip.report_cgrps (c : Chip) (r : Report) : (c.report r).cgrps = c.cgrps := rfl
@[simp] theorem Chip.report_outs (c : Chip) (r : Report) : (c.report r).outs = c.outs := rfl
@[simp] theorem Chip.report_mirrorQ (c : Chip) (r : Report) : (c.report r).mirrorQ = c.mirrorQ := rfl
@[simp] theorem Chip.report_mirrorSeq (c : Chip) (r : Report) : (c.report r).mirrorSeq = c.mirrorSeq := rfl
@[simp] theorem Chip.report_replay (c : Chip) (r : Report) : (c.report r).replay = c.replay := rfl
@[simp] theorem Chip.report_mer (c : Chip) (r : Report) : (c.report r).mer = c.mer := rfl
@[simp] theorem Chip.report_amc (c : Chip) (r : Report) : (c.report r).amc = c.amc := rfl
@[simp] theorem Chip.report_aud (c : Chip) (r : Report) : (c.report r).aud = c.aud := rfl
@[simp] theorem Chip.report_mix (c : Chip) (r : Report) : (c.report r).mix = c.mix := rfl
@[simp] theorem Chip.report_novas (c : Chip) (r : Report) : (c.report r).novas = c.novas := rfl
@[simp] theorem Chip.report_sch (c : Chip) (r : Report) : (c.report r).sch = c.sch := rfl
@[simp] theorem Chip.report_pkt (c : Chip) (r : Report) : (c.report r).pkt = c.pkt := rfl
@[simp] theorem Chip.report_twin (c : Chip) (r : Report) : (c.report r).twin = c.twin := rfl
@[simp] theorem Chip.report_mirrorWait (c : Chip) (r : Report) : (c.report r).mirrorWait = c.mirrorWait := rfl
@[simp] theorem Chip.report_retimers (c : Chip) (r : Report) : (c.report r).retimers = c.retimers := rfl
@[simp] theorem Chip.report_intakes (c : Chip) (r : Report) : (c.report r).intakes = c.intakes := rfl
@[simp] theorem Chip.report_host (c : Chip) (r : Report) : (c.report r).host = c.host := rfl
@[simp] theorem Chip.report_power (c : Chip) (r : Report) : (c.report r).power = c.power := rfl
@[simp] theorem Chip.report_poisoned (c : Chip) (r : Report) : (c.report r).poisoned = c.poisoned := rfl

@[simp] theorem Chip.start_out (c : Chip) : c.start.out = [] := rfl
@[simp] theorem Chip.start_reports (c : Chip) : c.start.reports = [] := rfl
@[simp] theorem Chip.report_reports (c : Chip) (r : Report) : (c.report r).reports = c.reports ++ [r] := rfl
@[simp] theorem Chip.emit_out (c : Chip) (o : Out) : (c.emit o).out = c.out ++ [o] := rfl

/-! ## Fields -/

/-- Two fields at different places have different keys. -/
theorem Fld.key_ne {f g : Fld} (hf : f.ok = true) (hg : g.ok = true)
    (h : f.space ≠ g.space ∨ f.page ≠ g.page ∨ f.off ≠ g.off ∨ f.lo ≠ g.lo) : f.key ≠ g.key := by
  simp only [Fld.ok, Bool.and_eq_true, decide_eq_true_eq] at hf hg
  simp only [Fld.key, placeKey]
  omega

/-- A written field reads as what was written, cut to its width. -/
@[simp] theorem Chip.rd_wr_self (c : Chip) (f : Fld) (v : Nat) : (c.wr f v).rd f = v % 2 ^ f.w := by
  simp [Chip.rd, Chip.wr, getFld, setFld]

/-- A write leaves every other field as it reads. -/
theorem Chip.rd_wr_ne (c : Chip) {f g : Fld} (v : Nat) (h : g.key ≠ f.key) : (c.wr f v).rd g = c.rd g := by
  simp only [Chip.rd, Chip.wr, getFld, setFld]
  rw [Store.get_set_other _ _ _ _ h]

/-- A field reads within its width, in every state. -/
theorem Chip.rd_lt (c : Chip) (f : Fld) : c.rd f < 2 ^ f.w := Nat.mod_lt _ (Nat.two_pow_pos _)

/-- The same of two fields at different places. -/
theorem Chip.rd_wr_other (c : Chip) {f g : Fld} (v : Nat) (hf : f.ok = true) (hg : g.ok = true)
    (h : g.space ≠ f.space ∨ g.page ≠ f.page ∨ g.off ≠ f.off ∨ g.lo ≠ f.lo) : (c.wr f v).rd g = c.rd g :=
  c.rd_wr_ne v (Fld.key_ne hg hf h)

@[simp] theorem Chip.rd_start (c : Chip) (f : Fld) : c.start.rd f = c.rd f := rfl
@[simp] theorem Chip.rd_fwr (c : Chip) (f g : Fld) (v : Nat) : (c.fwr f v).rd g = c.rd g := rfl
@[simp] theorem Chip.rd_stick (c : Chip) (p b : Nat) (f : Fld) : (c.stick p b).rd f = c.rd f := rfl
@[simp] theorem Chip.rd_emit (c : Chip) (o : Out) (f : Fld) : (c.emit o).rd f = c.rd f := rfl
@[simp] theorem Chip.rd_report (c : Chip) (r : Report) (f : Fld) : (c.report r).rd f = c.rd f := rfl

/-- Setting a sticky bit: it reads 1 afterwards, on its page alone. -/
@[simp] theorem Chip.stick_self (c : Chip) (p b : Nat) : (c.stick p b).stickyWord p = setBit (c.stickyWord p) b true := by
  simp [Chip.stick, Chip.stickyWord]

theorem Chip.stick_other (c : Chip) (p b : Nat) {q : Nat} (h : q ≠ p) : (c.stick p b).stickyWord q = c.stickyWord q := by
  simp [Chip.stick, Chip.stickyWord, Store.get_set, h]

/-- A set sticky bit is set. -/
theorem bit_setBit_true (v i : Nat) : bit (setBit v i true) i = true := by
  unfold bit setBit
  split
  · simp_all
  · have h : v.testBit i = false := by simp_all
    simp only [if_true]
    rw [Nat.testBit_eq_decide_div_mod_eq] at h ⊢
    simp only [decide_eq_true_eq, decide_eq_false_iff_not] at h ⊢
    rw [Nat.add_div_right _ (Nat.two_pow_pos i)]
    omega

end Sys2Proof.Machine
end

