-- ==== Sys2Proof/Laws/Settle.lean ====
section
/-! SUPPORT. What the end of a command (fault collection, reactions, interrupts) can change, said once: `Settled c d` holds of the
machine before it and after it. The forms of a command (`act`, `actMem`) follow. -/

namespace Sys2Proof.Machine

/-- What the collection of faults and the interrupt logic leave alone. -/
structure Settled (c d : Chip) : Prop where
  rd : ∀ f : Fld, f.ok = true → reacts f.page = false → d.rd f = c.rd f
  stickyWord : ∀ p, reactsSticky p = false → d.stickyWord p = c.stickyWord p
  irqEn : d.irqEn = c.irqEn
  enable : d.enable = c.enable
  pwrReq : d.pwrReq = c.pwrReq
  latTol : d.latTol = c.latTol
  resetting : d.resetting = c.resetting
  stc : d.stc = c.stc
  straps : d.straps = c.straps
  otp : d.otp = c.otp
  free : d.free = c.free
  debugSeen : d.debugSeen = c.debugSeen
  resp : d.resp = c.resp
  rdata : d.rdata = c.rdata
  lanes : d.lanes = c.lanes
  grps : d.grps = c.grps
  vin : d.vin = c.vin
  banks : d.banks = c.banks
  syncs : d.syncs = c.syncs
  merges : d.merges = c.merges
  xpt : d.xpt = c.xpt
  cmps : d.cmps = c.cmps
  cgrps : d.cgrps = c.cgrps
  outs : d.outs = c.outs
  mirrorQ : d.mirrorQ = c.mirrorQ
  mirrorSeq : d.mirrorSeq = c.mirrorSeq
  replay : d.replay = c.replay
  mirrorWait : d.mirrorWait = c.mirrorWait
  amc : d.amc = c.amc
  aud : d.aud = c.aud
  mix : d.mix = c.mix
  novas : d.novas = c.novas
  pkt : d.pkt = c.pkt
  retimers : d.retimers = c.retimers
  intakes : d.intakes = c.intakes
  host : d.host = c.host
  power : d.power = c.power
  poisoned : d.poisoned = c.poisoned
  twin : { d.twin with eyeAt := none } = { c.twin with eyeAt := none }
  mer : { d.mer with pend := none, aged := false, clean := false, target := 0 } =
    { c.mer with pend := none, aged := false, clean := false, target := 0 }
  sch : { d.sch with volt := none, sent := 0, busy := false } = { c.sch with volt := none, sent := 0, busy := false }

theorem Settled.refl (c : Chip) : Settled c c := by constructor <;> intros <;> rfl

theorem Settled.trans {a b c : Chip} (h : Settled a b) (k : Settled b c) : Settled a c := by
  constructor
  · intro f hf hp; rw [k.rd f hf hp, h.rd f hf hp]
  · intro p hp; rw [k.stickyWord p hp, h.stickyWord p hp]
  all_goals first
    | exact k.irqEn.trans h.irqEn
    | exact k.enable.trans h.enable
    | exact k.pwrReq.trans h.pwrReq
    | exact k.latTol.trans h.latTol
    | exact k.resetting.trans h.resetting
    | exact k.stc.trans h.stc
    | exact k.straps.trans h.straps
    | exact k.otp.trans h.otp
    | exact k.free.trans h.free
    | exact k.debugSeen.trans h.debugSeen
    | exact k.resp.trans h.resp
    | exact k.rdata.trans h.rdata
    | exact k.lanes.trans h.lanes
    | exact k.grps.trans h.grps
    | exact k.vin.trans h.vin
    | exact k.banks.trans h.banks
    | exact k.syncs.trans h.syncs
    | exact k.merges.trans h.merges
    | exact k.xpt.trans h.xpt
    | exact k.cmps.trans h.cmps
    | exact k.cgrps.trans h.cgrps
    | exact k.outs.trans h.outs
    | exact k.mirrorQ.trans h.mirrorQ
    | exact k.mirrorSeq.trans h.mirrorSeq
    | exact k.replay.trans h.replay
    | exact k.mirrorWait.trans h.mirrorWait
    | exact k.amc.trans h.amc
    | exact k.aud.trans h.aud
    | exact k.mix.trans h.mix
    | exact k.novas.trans h.novas
    | exact k.pkt.trans h.pkt
    | exact k.retimers.trans h.retimers
    | exact k.intakes.trans h.intakes
    | exact k.host.trans h.host
    | exact k.power.trans h.power
    | exact k.poisoned.trans h.poisoned
    | exact k.twin.trans h.twin
    | exact k.mer.trans h.mer
    | exact k.sch.trans h.sch

/-- A fold of steps that each leave this much alone leaves it alone. -/
theorem Settled.foldl {β : Type} (f : Chip → β → Chip) (h : ∀ c b, Settled c (f c b)) (l : List β) (c : Chip) :
    Settled c (l.foldl f c) := by
  induction l generalizing c with
  | nil => exact Settled.refl c
  | cons b r ih => exact (h c b).trans (ih (f c b))

/-- A write to a field of a page that reactions may write. -/
theorem Settled.wr (c : Chip) (f : Fld) (v : Nat) (hf : f.ok = true) (hp : reacts f.page = true) : Settled c (c.wr f v) := by
  constructor
  · intro g hg hr
    exact c.rd_wr_other v hf hg (.inr (.inl (fun e => by rw [e, hp] at hr; exact absurd hr (by decide))))
  all_goals intros; rfl

theorem Settled.fwr (c : Chip) (f : Fld) (v : Nat) : Settled c (c.fwr f v) := by constructor <;> intros <;> rfl

theorem Settled.stick (c : Chip) (p b : Nat) (hp : reactsSticky p = true) : Settled c (c.stick p b) := by
  constructor
  · intros; rfl
  · intro q hq
    exact c.stick_other p b (fun e => by rw [e, hp] at hq; exact absurd hq (by decide))
  all_goals rfl

theorem Settled.report (c : Chip) (r : Report) : Settled c (c.report r) := by constructor <;> intros <;> rfl
theorem Settled.raise (c : Chip) (a b d e : Nat) : Settled c (c.raise a b d e) := Settled.report c _

/-- A change of the collector alone. -/
theorem Settled.ofFcu (c : Chip) (f : Fcu) : Settled c { c with fcu := f } := by constructor <;> intros <;> rfl

/-- One change after another. -/
theorem Settled.then {a b c : Chip} (k : Settled b c) (h : Settled a b) : Settled a c := h.trans k

theorem settled_stopAlive (c : Chip) (n : Nat) : Settled c (c.stopAlive n) := by
  unfold Chip.stopAlive
  have h : Settled c (((c.fwr Fcu.stop (setBit (c.frd Fcu.stop) n true)).stick fcuPage 5).fwr Fcu.aliveRun 0) :=
    ((Settled.fwr c _ _).trans (Settled.stick _ _ _ rfl)).trans (Settled.fwr _ _ _)
  dsimp only
  split
  · exact h.trans (Settled.ofFcu _ _)
  · exact h

theorem settled_startHolds (c : Chip) (r : Report) : Settled c (c.startHolds r) := Settled.ofFcu _ _

theorem settled_loopToHoldover (c : Chip) : Settled c c.loopToHoldover := by
  unfold Chip.loopToHoldover
  dsimp only
  refine Settled.then (Settled.stick _ _ _ rfl) (Settled.then (Settled.stick _ _ _ rfl) (Settled.then (Settled.raise _ _ _ _ _)
    (Settled.then (Settled.wr _ _ _ rfl rfl) ?_)))
  refine Settled.trans (b := ((((c.wr MerLoop.state 4).wr MerSel.sel 15).wr MerHold.age 0).wr MerSel.manual 0).wr MerSel.fallback 0) ?_ ?_
  · exact Settled.then (Settled.wr _ _ _ rfl rfl) (Settled.then (Settled.wr _ _ _ rfl rfl) (Settled.then (Settled.wr _ _ _ rfl rfl)
      (Settled.then (Settled.wr _ _ _ rfl rfl) (Settled.wr _ _ _ rfl rfl))))
  · constructor <;> intros <;> rfl

/-- A member of an array of fields, near enough to its first, has a place that fits its key. -/
theorem Fld.nth_ok {f : Fld} {i : Nat} (h : f.page < 512) (hl : f.lo < 32) (ho : f.off + i * f.stride < 67108864) : (f.nth i).ok = true := by
  simp [Fld.ok, Fld.nth, h, hl, ho]

theorem settled_showFlightOf (c : Chip) (m : Nat) (h : m < 6) : Settled c (c.showFlightOf m) := by
  unfold Chip.showFlightOf
  have h1 : (Cfab.outCount.nth m).ok = true := Fld.nth_ok (by decide) (by decide) (by show 0x80 + m * 4 < _; omega)
  have h2 : (Cfab.outIds.nth m).ok = true := Fld.nth_ok (by decide) (by decide) (by show 0x80 + m * 4 < _; omega)
  have h3 : (Cfab.outPeak.nth m).ok = true := Fld.nth_ok (by decide) (by decide) (by show 0x80 + m * 4 < _; omega)
  exact Settled.then (Settled.wr _ _ _ h3 rfl) (Settled.then (Settled.wr _ _ _ h2 rfl) (Settled.wr _ _ _ h1 rfl))

/-- The transactions in flight change nothing but what CFAB and MGMT show of them. -/
theorem settled_setFlight (c : Chip) (l : List (Nat × Nat)) : Settled c (c.setFlight l) := by
  unfold Chip.setFlight
  refine Settled.then (settled_showFlightOf _ 5 (by decide)) (Settled.then (settled_showFlightOf _ 4 (by decide))
    (Settled.then (settled_showFlightOf _ 3 (by decide)) (Settled.then (settled_showFlightOf _ 2 (by decide))
    (Settled.then (settled_showFlightOf _ 1 (by decide)) (Settled.then (settled_showFlightOf _ 0 (by decide))
    (Settled.then (Settled.wr _ _ _ rfl rfl) (Settled.then (Settled.wr _ _ _ rfl rfl) (Settled.then (Settled.wr _ _ _ rfl rfl) ?_))))))))
  constructor <;> intros <;> rfl

theorem settled_endOutstanding (c : Chip) (m : Nat) : Settled c (c.endOutstanding m) :=
  Settled.trans (b := { c with served := c.served.filter (fun x => x.master ≠ m), silent := c.silent ++ c.waiting.filter (fun (f : Nat × Nat) => f.1 = m) })
    (by constructor <;> intros <;> rfl) (settled_setFlight _ _)

theorem settled_setVolt (c : Chip) (v : Nat) : Settled c (c.setVolt v) := by
  unfold Chip.setVolt
  split
  · exact Settled.refl c
  · have h := Settled.wr c Sched.vset v rfl rfl
    dsimp only
    split
    · exact h.trans (by constructor <;> intros <;> rfl)
    · exact h.trans (by constructor <;> intros <;> rfl)

theorem settled_contain (c : Chip) (r : Report) : Settled c (c.contain r) := by
  unfold Chip.contain
  split
  · split
    · exact settled_loopToHoldover c
    · exact Settled.refl c
  · constructor <;> intros <;> rfl
  · constructor <;> intros <;> rfl
  · split
    · exact settled_endOutstanding c _
    · exact Settled.refl c
  · split
    · exact settled_setVolt c _
    · exact Settled.refl c
  · exact Settled.wr c _ _ rfl rfl
  · exact Settled.refl c

theorem settled_react (c : Chip) (n : Nat) (r : Report) : Settled c (c.react n r) := by
  unfold Chip.react
  dsimp only
  have h1 : Settled c (if 2 ≤ n then c.stick fcuPage (n - 1) else c) := by
    split
    · exact Settled.stick c _ _ rfl
    · exact Settled.refl c
  generalize (if 2 ≤ n then c.stick fcuPage (n - 1) else c) = c1 at h1 ⊢
  have h2 : Settled c (if 3 ≤ n then c1.contain r else c1) := by
    split
    · exact h1.trans (settled_contain _ _)
    · exact h1
  generalize (if 3 ≤ n then c1.contain r else c1) = c2 at h2 ⊢
  have h3 : Settled c (if 3 ≤ n ∧ !c2.masked r then c2.startHolds r else c2) := by
    split
    · exact h2.trans (settled_startHolds _ _)
    · exact h2
  generalize (if 3 ≤ n ∧ !c2.masked r then c2.startHolds r else c2) = c3 at h3 ⊢
  split
  · have h4 := h3.trans (settled_stopAlive c3 0)
    split
    · exact h4.trans (by constructor <;> intros <;> rfl)
    · exact h4
  · exact h3

theorem settled_logEntry (c : Chip) (e : LogEntry) : Settled c (c.logEntry e) := by
  unfold Chip.logEntry
  dsimp only
  refine Settled.then (Settled.fwr _ _ _) (Settled.then (Settled.fwr _ _ _) (Settled.then (Settled.fwr _ _ _) ?_))
  refine Settled.trans (b := if c.fcu.unread = 256 then _ else _) ?_ (Settled.ofFcu _ _)
  split
  · exact Settled.then (Settled.stick _ _ _ rfl) (Settled.then (Settled.fwr _ _ _) (Settled.fwr _ _ _))
  · exact Settled.ofFcu _ _

theorem settled_markUnack (c : Chip) (e : LogEntry) : Settled c (c.markUnack e) := by
  unfold Chip.markUnack
  dsimp only
  refine Settled.then (Settled.fwr _ _ _) ?_
  have h1 : Settled c (if (e.inj && !e.real) = true then c.fwr Fcu.unackInj (setBit (c.frd Fcu.unackInj) (e.src / 16) true)
      else c.fwr Fcu.unackReal (setBit (c.frd Fcu.unackReal) (e.src / 16) true)) := by
    split <;> exact Settled.fwr c _ _
  split
  · exact h1.trans (Settled.ofFcu _ _)
  · exact h1

theorem settled_collect (c : Chip) (p : Nat × Report) : Settled c (c.collect p) := by
  unfold Chip.collect
  dsimp only
  have h1 : Settled c (if p.2.src = 0x18 then { c with twin := { c.twin with eyeAt := some c.stc } } else c) := by
    split
    · constructor <;> intros <;> rfl
    · exact Settled.refl c
  generalize (if p.2.src = 0x18 then { c with twin := { c.twin with eyeAt := some c.stc } } else c) = c1 at h1 ⊢
  split
  · exact h1
  · exact h1.trans ((settled_logEntry _ _).trans ((settled_markUnack _ _).trans (settled_react _ _ _)))

theorem settled_collectAll (c : Chip) : Settled c c.collectAll := by
  unfold Chip.collectAll
  exact Settled.trans (b := { c with reports := [] }) (by constructor <;> intros <;> rfl) (Settled.foldl _ settled_collect _ _)

theorem settled_collectTwice (c : Chip) : Settled c c.collectTwice := by
  unfold Chip.collectTwice
  split
  · exact settled_collectAll c
  · exact (settled_collectAll c).trans (settled_collectAll _)

theorem settled_sendVector (c : Chip) (v : Nat) : Settled c (c.sendVector v) := by
  unfold Chip.sendVector
  split
  · exact Settled.refl c
  · split
    · constructor <;> intros <;> rfl
    · constructor <;> intros <;> rfl

theorem settled_interrupts (c : Chip) : Settled c c.interrupts := by
  unfold Chip.interrupts
  dsimp only
  have h : Settled c { c with cond := c.vectorConds, pins := { c.pins with irqLow := c.irqLevel } } := by
    constructor <;> intros <;> rfl
  split
  · exact h
  · refine h.trans (Settled.foldl _ (fun c v => ?_) _ _)
    split
    · exact settled_sendVector c v
    · exact Settled.refl c

/-- The end of a command leaves everything alone but what reactions and interrupts change. -/
theorem settled (c : Chip) : Settled c c.settle := by
  unfold Chip.settle
  split
  · exact settled_interrupts c
  · exact (settled_collectTwice c).trans (settled_interrupts _)

/-- A register field of a page that no reaction writes reads after the end of a command as before it. -/
theorem Chip.rd_settle (c : Chip) {f : Fld} (hf : f.ok = true) (hp : reacts f.page = false) : c.settle.rd f = c.rd f :=
  (settled c).rd f hf hp

/-! ## With nothing to report -/

/-- What the interrupt logic alone leaves alone: every register, sticky bit and record. -/
structure Idle (c d : Chip) : Prop where
  flds : d.flds = c.flds
  sticky : d.sticky = c.sticky
  fcu : d.fcu = c.fcu
  mer : d.mer = c.mer
  sch : d.sch = c.sch
  twin : d.twin = c.twin
  inFlight : d.inFlight = c.inFlight
  yieldDue : d.yieldDue = c.yieldDue
  rateHeld : d.rateHeld = c.rateHeld
  containDegraded : d.containDegraded = c.containDegraded

theorem Idle.refl (c : Chip) : Idle c c := ⟨rfl, rfl, rfl, rfl, rfl, rfl, rfl, rfl, rfl, rfl⟩

theorem Idle.trans {a b c : Chip} (h : Idle a b) (k : Idle b c) : Idle a c :=
  ⟨k.1.trans h.1, k.2.trans h.2, k.3.trans h.3, k.4.trans h.4, k.5.trans h.5, k.6.trans h.6, k.7.trans h.7, k.8.trans h.8, k.9.trans h.9,
    k.10.trans h.10⟩

theorem idle_sendVector (c : Chip) (v : Nat) : Idle c (c.sendVector v) := by
  unfold Chip.sendVector
  split
  · exact Idle.refl c
  · split <;> exact ⟨rfl, rfl, rfl, rfl, rfl, rfl, rfl, rfl, rfl, rfl⟩

theorem idle_interrupts (c : Chip) : Idle c c.interrupts := by
  unfold Chip.interrupts
  dsimp only
  have h : Idle c { c with cond := c.vectorConds, pins := { c.pins with irqLow := c.irqLevel } } :=
    ⟨rfl, rfl, rfl, rfl, rfl, rfl, rfl, rfl, rfl, rfl⟩
  split
  · exact h
  · have : ∀ (l : List Nat) (c : Chip) (g : Chip → Nat → Bool), Idle c (l.foldl (fun c v => if g c v = true then c.sendVector v else c) c) := by
      intro l
      induction l with
      | nil => exact fun c _ => Idle.refl c
      | cons a r ih =>
        intro c g
        refine Idle.trans ?_ (ih _ g)
        dsimp only
        split
        · exact idle_sendVector c a
        · exact Idle.refl c
    exact h.trans (this _ _ (fun _ v => bit c.vectorConds v && !bit c.cond v))

/-- A command that reports nothing leaves every register as its own effect left it. -/
theorem idle_settle (c : Chip) (h : c.reports = []) : Idle c c.settle := by
  unfold Chip.settle
  simp only [h, List.isEmpty_nil, if_true]
  exact idle_interrupts c

theorem Chip.rd_settle_idle (c : Chip) (h : c.reports = []) (f : Fld) : c.settle.rd f = c.rd f := by
  unfold Chip.rd
  rw [(idle_settle c h).flds]

/-! ## The forms of a command -/

/-- A command of the plain form completes while neither POR nor COLD is asserted; it keeps byte memory and the queue. -/
theorem act_runs (s : State) (f : Chip → Chip) (h : s.c.power.asserted = 0) :
    act s f = .next { s with c := (f s.c.start).settle } := by simp [act, h]

theorem actMem_runs (s : State) (f : Chip → Mem → Chip × Mem) (h : s.c.power.asserted = 0) :
    actMem s f = .next { s with c := (f s.c.start s.mem).1.settle, mem := (f s.c.start s.mem).2 } := by simp [actMem, h]

/-- Whatever it does, a command of the plain form keeps byte memory and the queue. -/
theorem act_keeps (s t : State) (f : Chip → Chip) (h : act s f = .next t) : t.mem = s.mem ∧ t.pending = s.pending := by
  unfold act at h
  injection h with h
  subst h
  exact ⟨rfl, rfl⟩

/-- A command that writes byte memory keeps the canonical form if its own effect does, and keeps the queue. -/
theorem actMem_keeps (s t : State) (f : Chip → Mem → Chip × Mem) (hf : ∀ c m, Mem.wf m = true → Mem.wf (f c m).2 = true)
    (hs : Mem.wf s.mem = true) (h : actMem s f = .next t) : Mem.wf t.mem = true ∧ t.pending = s.pending := by
  unfold actMem at h
  injection h with h
  subst h
  split
  · exact ⟨hf _ _ hs, rfl⟩
  · exact ⟨hs, rfl⟩

theorem actAlways_keeps (s t : State) (f : Chip → Mem → Chip × Mem) (hf : ∀ c m, Mem.wf m = true → Mem.wf (f c m).2 = true)
    (hs : Mem.wf s.mem = true) (h : actAlways s f = .next t) : Mem.wf t.mem = true ∧ t.pending = s.pending := by
  unfold actAlways at h
  injection h with h
  subst h
  exact ⟨hf _ _ hs, rfl⟩

end Sys2Proof.Machine
end

