-- ==== Sys2Proof/Laws/Access.lean ====
section
/-! SUPPORT. What a guarded write does, in each of its outcomes, and how a command's answer follows from its meaning's body. -/

namespace Sys2Proof.Machine

/-! ## From a body to an answer -/

/-- A command whose meaning is `act` answers the settled body. -/
theorem Gives.act {i : Instr} {s : State} {P : State → Prop} {f : Chip → Chip} (hs : s.Runs) (e : exec i s = act s f)
    (h : P { s with c := (f s.c.start).settle }) : Gives i s P := ⟨_, e.trans (act_runs s f hs), h⟩

/-- The same for a command that writes byte memory. -/
theorem Gives.actMem {i : Instr} {s : State} {P : State → Prop} {f : Chip → Mem → Chip × Mem} (hs : s.Runs) (e : exec i s = actMem s f)
    (h : P { s with c := (f s.c.start s.mem).1.settle, mem := (f s.c.start s.mem).2 }) : Gives i s P :=
  ⟨_, e.trans (actMem_runs s f hs), h⟩

/-- The same for an event of the supplies and pins, whatever reset is asserted. -/
theorem Gives.actAlways {i : Instr} {s : State} {P : State → Prop} {f : Chip → Mem → Chip × Mem} (e : exec i s = actAlways s f)
    (h : P { s with c := (f s.c.start s.mem).1.settle, mem := (f s.c.start s.mem).2 }) : Gives i s P := ⟨_, e, h⟩

/-- What answers a state completes. -/
theorem Gives.completes {i : Instr} {s : State} {P : State → Prop} (h : Gives i s P) : Completes i s := by
  obtain ⟨t, ht, -⟩ := h
  exact ⟨t, ht⟩

/-- A weaker property of the state answered. -/
theorem Gives.mono {i : Instr} {s : State} {P Q : State → Prop} (h : Gives i s P) (k : ∀ t, P t → Q t) : Gives i s Q := by
  obtain ⟨t, ht, hp⟩ := h
  exact ⟨t, ht, k t hp⟩

/-! ## Confinement -/

theorem Confined.refl (gs : List Fld) (ps : List Nat) (s : State) : Confined gs ps s s :=
  ⟨rfl, rfl, fun _ _ _ _ => rfl, fun _ _ _ => rfl⟩

/-- What a settled body confines, its body confines: settling touches only what a reaction may write. -/
theorem Confined.of_body {gs : List Fld} {ps : List Nat} {s : State} {c : Chip}
    (hr : ∀ f : Fld, f.ok = true → reacts f.page = false → (∀ g ∈ gs, f.key ≠ g.key) → c.rd f = s.c.rd f)
    (hs : ∀ p, reactsSticky p = false → p ∉ ps → c.stickyWord p = s.c.stickyWord p) :
    Confined gs ps s { s with c := c.settle } := by
  refine ⟨rfl, rfl, fun f hf hp hg => ?_, fun p hp hn => ?_⟩
  · exact (c.rd_settle hf hp).trans (hr f hf hp hg)
  · exact ((settled c).stickyWord p hp).trans (hs p hp hn)

theorem Within.refl (ps : List Nat) (s : State) : Within ps s s := ⟨rfl, rfl, fun _ _ _ _ => rfl, fun _ _ _ => rfl⟩

/-- What lies within fewer pages lies within more. -/
theorem Within.mono {ps qs : List Nat} {s t : State} (h : Within ps s t) (k : ∀ p ∈ ps, p ∈ qs) : Within qs s t :=
  ⟨h.mem, h.pending, fun f hf hp hn => h.regs f hf hp (fun m => hn (k _ m)), fun p hp hn => h.sticky p hp (fun m => hn (k p m))⟩

/-- What is confined to fields of some pages lies within those pages. -/
theorem Confined.within {gs : List Fld} {ps qs : List Nat} {s t : State} (h : Confined gs ps s t)
    (hg : ∀ f : Fld, f.ok = true → ∀ g ∈ gs, f.key = g.key → f.page ∈ qs) (hp : ∀ p ∈ ps, p ∈ qs) : Within qs s t :=
  ⟨h.mem, h.pending, fun f hf hr hn => h.regs f hf hr (fun g m e => hn (hg f hf g m e)), fun p hr hn => h.sticky p hr (fun m => hn (hp p m))⟩

/-- What a settled body keeps within pages, its body keeps within them. -/
theorem Within.of_body {ps : List Nat} {s : State} {c : Chip}
    (hr : ∀ f : Fld, f.ok = true → reacts f.page = false → f.page ∉ ps → c.rd f = s.c.rd f)
    (hs : ∀ p, reactsSticky p = false → p ∉ ps → c.stickyWord p = s.c.stickyWord p) :
    Within ps s { s with c := c.settle } := by
  refine ⟨rfl, rfl, fun f hf hp hg => ?_, fun p hp hn => ?_⟩
  · exact (c.rd_settle hf hp).trans (hr f hf hp hg)
  · exact ((settled c).stickyWord p hp).trans (hs p hp hn)

/-! ## Transactions (R431, R432) -/

/-- What one transaction can do: it is held and changes nothing but its answer, it is answered with SLVERR, or it is served, and stays
in flight where its response is withheld or waits for those before it. -/
theorem transact_cases (c : Chip) (mem : Mem) (m : Master) (addr id : Nat) (write : Bool) (f : Chip → Chip × Mem) :
    c.transact mem m addr id write f = ({ c with resp := .held, rdata := [] }, mem) ∨
    c.transact mem m addr id write f =
      (((c.slvErr m addr id write).raise 0xD2 cfabPage (masterNum m) 0).stick cfabPage 2, mem) ∨
    ∃ d : Chip, (d = c ∨ ∃ v, d = c.wr (Cfab.outPeak.nth (masterNum m)) v) ∧
      c.transact mem m addr id write f =
        (if (f d).1.resp = .withheld then c.staysInFlight (f d).1 (masterNum m) id
         else inOrder (f d).1 (masterNum m) id
          (((c.inFlight.filter (fun p => p.1 = masterNum m)).map Prod.snd).filter (· = id)).length, (f d).2) := by
  unfold Chip.transact
  dsimp only
  split
  · exact .inl rfl
  · split
    · exact .inr (.inl rfl)
    · refine .inr (.inr ⟨_, ?_, rfl⟩)
      split
      · exact .inr ⟨_, rfl⟩
      · exact .inl rfl

/-- With no earlier transaction of its ID in flight, a served transaction is answered at once (R433). -/
@[simp] theorem inOrder_first (c : Chip) (k id : Nat) : inOrder c k id 0 = c := rfl

/-- A response to a transaction that is not in flight changes nothing. -/
theorem Chip.returnFlight_of_gone (c : Chip) (f : Nat × Nat) (r : Resp) (h : c.inFlight.contains f = false) : c.returnFlight f r = c := by
  unfold Chip.returnFlight
  rw [h]
  rfl

/-- Every served transaction waits on or is answered: none is lost (R433). -/
theorem servedAfter_length (f : Nat × Nat) (l : List Served) : ∀ n, (servedAfter f n l).1.length + (servedAfter f n l).2.length = l.length := by
  induction l with
  | nil => intro n; rfl
  | cons x r ih =>
    intro n
    have h := ih n
    have k := ih (n + 1)
    simp only [servedAfter]
    split
    · simp only [List.length_cons]; omega
    · split <;> simp only [List.length_cons] <;> omega

/-- A request at a full port is held (R432). -/
theorem transact_held (c : Chip) (mem : Mem) (m : Master) (addr id : Nat) (write : Bool) (f : Chip → Chip × Mem)
    (h1 : c.masterRuns m = true) (h2 : c.portHeld (masterNum m) write = true) :
    c.transact mem m addr id write f = ({ c with resp := .held, rdata := [] }, mem) := by
  simp [Chip.transact, h1, h2]

/-! ## Guarded writes (R380, R435) -/

/-- A debug port that has been seen, and every other master, opens nothing. -/
theorem Chip.debugOpen_seen (c : Chip) (m : Master) (h : m = .jtag → c.debugSeen = true) : c.debugOpen m = c := by
  unfold Chip.debugOpen
  split
  · next k => rw [h k.1] at k; simp at k
  · rfl

/-- A permitted write takes effect. -/
theorem guardedWords_allows (c : Chip) (m : Master) (sp p lo : Nat) (ws : List (Nat × Nat)) (mir : Bool) (f : Chip → Chip)
    (h1 : c.masterRuns m = true) (h2 : ∀ w ∈ ws, c.mayWrite m p sp w.1 lo = true) (h3 : m = .jtag → c.debugSeen = true)
    (h4 : mir = true → c.ignoresMirrored = false ∧ c.mirrors = false) : c.guardedWords m sp p lo ws mir f = f c := by
  have hall : ws.all (fun w => c.mayWrite m p sp w.1 lo) = true := by simpa using fun a b hw => h2 (a, b) hw
  simp only [Chip.guardedWords, c.debugOpen_seen m h3, h1, hall]
  cases mir
  · simp
  · simp [h4 rfl]

/-- A permitted mirrored write on a standby sets `STBY_WR` and nothing else (R380). -/
theorem guardedWords_ignored (c : Chip) (m : Master) (sp p lo : Nat) (ws : List (Nat × Nat)) (f : Chip → Chip)
    (h1 : c.masterRuns m = true) (h2 : ∀ w ∈ ws, c.mayWrite m p sp w.1 lo = true) (h3 : m = .jtag → c.debugSeen = true)
    (h4 : c.ignoresMirrored = true) : c.guardedWords m sp p lo ws true f = c.stick twinPage 10 := by
  have hall : ws.all (fun w => c.mayWrite m p sp w.1 lo) = true := by simpa using fun a b hw => h2 (a, b) hw
  simp [Chip.guardedWords, c.debugOpen_seen m h3, h1, hall, h4]

/-- A master that cannot issue changes nothing. -/
theorem guardedWords_stopped (c : Chip) (m : Master) (sp p lo : Nat) (ws : List (Nat × Nat)) (mir : Bool) (f : Chip → Chip)
    (h1 : c.masterRuns m = false) (h3 : m = .jtag → c.debugSeen = true) : c.guardedWords m sp p lo ws mir f = c := by
  simp [Chip.guardedWords, c.debugOpen_seen m h3, h1]

/-- A permitted write of an action bit takes effect. -/
theorem trigger_allows (s : State) (m : Master) (p off lo : Nat) (mir : Bool) (f : Chip → Chip) (h : s.Allows m 0 p off lo mir) :
    s.c.start.trigger m p off lo mir f = f s.c.start :=
  guardedWords_allows _ _ _ _ _ _ _ _ h.2.1 (fun w hw => by cases List.mem_singleton.mp hw; exact h.2.2.1) h.2.2.2.1 h.2.2.2.2

/-- A permitted write of one word takes effect. -/
theorem guarded_allows (s : State) (m : Master) (sp p off data : Nat) (mir : Bool) (f : Chip → Chip) (h : s.Allows m sp p off 1 mir) :
    s.c.start.guarded m sp p off data mir f = f s.c.start :=
  guardedWords_allows _ _ _ _ _ _ _ _ h.2.1 (fun w hw => by cases List.mem_singleton.mp hw; exact h.2.2.1) h.2.2.2.1 h.2.2.2.2

/-! ## Keys -/

theorem Fld.on_key (f : Fld) (g : Nat) : (f.on g).key = placeKey f.space (f.page + g) f.off f.lo := rfl
theorem Fld.nth_key (f : Fld) (i : Nat) : (f.nth i).key = placeKey f.space f.page (f.off + i * f.stride) f.lo := rfl

end Sys2Proof.Machine
end

