-- ==== Sys2Proof/Laws/Fabric.lean ====
section
/-! SUPPORT. What the shared operations of the fabric, the mirror, the boot and the resets do to byte memory: each keeps its canonical
form. -/

namespace Sys2Proof.Machine

/-- An operation that answers a chip and a memory keeps the canonical form of the memory. -/
def KeepsWf (m : Mem) (r : Chip × Mem) : Prop := Mem.wf m = true → Mem.wf r.2 = true

theorem KeepsWf.same (m : Mem) (c : Chip) : KeepsWf m (c, m) := id

theorem KeepsWf.trans {m : Mem} {r q : Chip × Mem} (h : KeepsWf m r) (k : KeepsWf r.2 q) : KeepsWf m q := fun w => k (h w)

theorem sysWrite_wf (c : Chip) (m : Mem) (p off data msk : Nat) : KeepsWf m (c.sysWrite m p off data msk) := by
  unfold Chip.sysWrite
  split
  · split
    · unfold Chip.warmRequest
      split
      · exact id
      · split
        · exact id
        · exact Mem.wf_clear m 0
    · exact id
  · exact id
  · exact id
  · exact id

theorem applyWord_wf (c : Chip) (m : Mem) (ma : Master) (p sp off data msk : Nat) : KeepsWf m (c.applyWord m ma p sp off data msk) := by
  unfold Chip.applyWord
  by_cases h0 : msk = 0
  · rw [if_pos h0]; exact id
  rw [if_neg h0]
  by_cases h1 : p < 3
  · rw [if_pos h1]
    by_cases h2 : sp = 0
    · rw [if_pos h2]; exact sysWrite_wf c m p off data msk
    · rw [if_neg h2]; exact id
  rw [if_neg h1]
  by_cases h3 : p = schedPage ∧ sp = 0
  · rw [if_pos h3]; exact id
  rw [if_neg h3]
  by_cases h4 : p = hostPage ∧ sp = 0
  · rw [if_pos h4]; exact id
  rw [if_neg h4]
  exact id

theorem bodyWrite_wf (c : Chip) (m : Mem) (ma : Master) (p sp off data be : Nat) : KeepsWf m (c.bodyWrite m ma p sp off data be) :=
  applyWord_wf _ m ma p sp off data _

theorem wholeWrite_wf (c : Chip) (m : Mem) (p i data be : Nat) : KeepsWf m (c.wholeWrite m p i data be) := by
  unfold Chip.wholeWrite
  split
  · exact id
  · split
    · split
      · exact id
      · exact Mem.wf_puts _ _ _ _
    · split
      · exact Mem.wf_puts _ _ _ _
      · split <;> exact id

theorem tableWrite_wf (c : Chip) (m : Mem) (ma : Master) (p i data be : Nat) : KeepsWf m (c.tableWrite m ma p i data be) := by
  unfold Chip.tableWrite
  split
  · exact id
  · dsimp only
    split
    · exact bodyWrite_wf _ m ma p 1 i data be
    · split
      · exact id
      · split
        · exact id
        · split
          · exact id
          · split
            · exact id
            · exact wholeWrite_wf _ m p i data be

theorem twWrite_wf (c : Chip) (m : Mem) (ma : Master) (p data be : Nat) : KeepsWf m (c.twWrite m ma p data be) := by
  unfold Chip.twWrite
  dsimp only
  split
  · exact id
  · split
    · exact id
    · exact tableWrite_wf _ m ma p _ data be

theorem regWordWrite_wf (c : Chip) (m : Mem) (ma : Master) (p off data be : Nat) : KeepsWf m (c.regWordWrite m ma p off data be) := by
  unfold Chip.regWordWrite
  split
  · exact id
  · split
    · exact id
    · split
      · exact twWrite_wf c m ma p data be
      · exact bodyWrite_wf c m ma p 0 off data be

theorem regRun_wf (ws : List (Nat × Nat)) : ∀ (c : Chip) (m : Mem) (ma : Master) (p off : Nat), KeepsWf m (c.regRun m ma p off ws) := by
  induction ws with
  | nil => intro c m ma p off; exact id
  | cons w r ih =>
    intro c m ma p off
    exact (regWordWrite_wf c m ma p off w.1 w.2).trans (ih _ _ ma p (off + 4))

theorem bar2Apply_wf (c : Chip) (m : Mem) (page off : Nat) (ws : List (Nat × Nat)) : KeepsWf m (c.bar2Apply m page off ws) := by
  unfold Chip.bar2Apply
  split
  · exact id
  · split
    · split
      · exact id
      · exact Mem.wf_putWords _ _ _ _
    · exact Mem.wf_putWords _ _ _ _

theorem apertureWrite_wf (ws : List (Nat × Nat)) : ∀ (c : Chip) (m : Mem) (ma : Master) (p i : Nat), KeepsWf m (c.apertureWrite m ma p i ws) := by
  induction ws with
  | nil => intro c m ma p i; exact id
  | cons w r ih =>
    intro c m ma p i
    refine KeepsWf.trans (r := if namedIndex p i then c.tableWrite m ma p i w.1 w.2 else (c, m)) ?_ (ih _ _ ma p (i + 1))
    split
    · exact tableWrite_wf c m ma p i w.1 w.2
    · exact id

theorem tsWrite_wf (c : Chip) (m : Mem) (ma : Master) (off : Nat) (ws : List (Nat × Nat)) : KeepsWf m (c.tsWrite m ma off ws) := by
  unfold Chip.tsWrite
  split
  · exact id
  · split
    · exact id
    · split
      · exact id
      · exact apertureWrite_wf ws c m ma _ _
  · split
    · exact id
    · split
      · exact id
      · split
        · exact id
        · split
          · exact id
          · exact bar2Apply_wf _ m _ off ws

theorem fabricWrite_wf (c : Chip) (m : Mem) (ma : Master) (addr id' : Nat) (ws : List (Nat × Nat)) : KeepsWf m (c.fabricWrite m ma addr id' ws) := by
  unfold Chip.fabricWrite
  dsimp only
  split
  · exact id
  · split
    · split
      · exact id
      · split
        · exact id
        · exact regRun_wf ws _ m ma _ _
    · split
      · exact id
      · exact tsWrite_wf _ m ma _ ws
    · split
      · exact id
      · exact Mem.wf_putWords _ _ _ _
    · exact id
    · exact id

/-- A transaction keeps the canonical form if what it serves does. -/
theorem transact_wf (c : Chip) (m : Mem) (ma : Master) (addr id' : Nat) (write : Bool) (f : Chip → Chip × Mem)
    (hf : ∀ d, KeepsWf m (f d)) : KeepsWf m (c.transact m ma addr id' write f) := by
  rcases transact_cases c m ma addr id' write f with h | h | ⟨d, -, h⟩
  · rw [h]; exact id
  · rw [h]; exact id
  · rw [h]; exact hf d

theorem serialWrites_wf (ws : List Nat) : ∀ (c : Chip) (m : Mem) (ma : Master) (addr : Nat), KeepsWf m (c.serialWrites m ma addr ws) := by
  induction ws with
  | nil => intro c m ma addr; exact id
  | cons w r ih =>
    intro c m ma addr
    have k := transact_wf c m ma addr 0 true (fun c => c.fabricWrite m ma addr 0 [(w, 15)]) (fun d => fabricWrite_wf d m ma addr 0 _)
    unfold Chip.serialWrites
    dsimp only
    split
    · exact k
    · exact k.trans (ih _ _ ma _)

theorem applyItem_wf (c : Chip) (m : Mem) (i : MirrorItem) (more : List MirrorItem) : KeepsWf m (c.applyItem m i more) := by
  unfold Chip.applyItem
  by_cases h0 : i.space = 2
  · rw [if_pos h0]; exact bar2Apply_wf c m i.page i.off _
  rw [if_neg h0]
  by_cases h1 : i.space = 0 ∧ i.off < 0x40
  · rw [if_pos h1]; exact id
  rw [if_neg h1]
  by_cases h2 : keeperWord i.page i.space i.off = true
  · rw [if_pos h2]; exact id
  rw [if_neg h2]
  by_cases h3 : i.space = 0 ∧ i.page = devPage ∧ i.off = 0x48
  · rw [if_pos h3]; exact id
  rw [if_neg h3]
  by_cases h4 : i.space = 1 ∧ i.page = mixPage ∧ 1048576 ≤ i.off
  · rw [if_pos h4]; exact id
  rw [if_neg h4]
  by_cases h5 : i.space = 1 ∧ mirroredWhole i.page i.off = true
  · rw [if_pos h5]; exact wholeWrite_wf c m i.page i.off i.data i.be
  rw [if_neg h5]
  exact applyWord_wf c m _ i.page i.space i.off i.data _

theorem applyOne_wf (c : Chip) (m : Mem) (late : Bool) (i : MirrorItem) (more : List MirrorItem) :
    KeepsWf m (c.applyOne m late i more) := by
  unfold Chip.applyOne
  dsimp only
  by_cases h : i.space = 3
  · rw [if_pos h]; exact id
  · rw [if_neg h]; exact applyItem_wf _ m i more

theorem applyItems_wf (l : List (Bool × MirrorItem × List MirrorItem)) : ∀ (c : Chip) (m : Mem), KeepsWf m (c.applyItems m l) := by
  induction l with
  | nil => intro c m; exact id
  | cons i r ih =>
    intro c m
    exact (applyOne_wf c m i.1 i.2.1 i.2.2).trans (ih _ _)

theorem mirrorStep_wf (c : Chip) (m : Mem) : KeepsWf m (c.mirrorStep m) := applyItems_wf _ _ m

theorem sequenced_wf (c : Chip) (m : Mem) (seq : Nat) (f : Chip → Mem → Chip × Mem) (hf : ∀ d, KeepsWf m (f d m)) :
    KeepsWf m (c.sequenced m seq f) := by
  unfold Chip.sequenced
  split
  · exact id
  · dsimp only
    generalize (if c.twin.rxAny = true then seq else c.twin.rxSeq) = want
    by_cases h : seq = want
    · rw [if_pos h]; exact hf _
    · rw [if_neg h]; split <;> exact id

theorem receiveItem_wf (c : Chip) (m : Mem) (i : MirrorItem) : KeepsWf m (c.receiveItem m i) := by
  unfold Chip.receiveItem
  dsimp only
  split
  · exact id
  · split
    · exact applyOne_wf _ m true i []
    · exact id

theorem bulkAt_wf (c : Chip) (m : Mem) (place addr : Nat) (bs : List Nat) : KeepsWf m (c.bulkAt m place addr bs) := by
  unfold Chip.bulkAt
  split
  · exact bar2Apply_wf c m _ addr _
  · exact Mem.wf_puts _ _ _ _
  · exact Mem.wf_puts _ _ _ _
  · exact id

/-! ## Cells of LGTW (R377) -/

theorem writeCell_wf (c : Chip) (m : Mem) (seq epoch space be page off data bidx master : Nat) :
    KeepsWf m (c.writeCell m seq epoch space be page off data bidx master) := sequenced_wf c m seq _ (fun d => receiveItem_wf d m _)

theorem bulkCell_wf (c : Chip) (m : Mem) (seq sub addr stack slice : Nat) (bs : List Nat) :
    KeepsWf m (c.bulkCell m seq sub addr stack slice bs) := sequenced_wf c m seq _ (fun _ => bulkAt_wf _ m _ _ _)

theorem decisionCell_wf (c : Chip) (m : Mem) (seq epoch kind page bidx : Nat) (ws : List Nat) :
    KeepsWf m (c.decisionCell m seq epoch kind page bidx ws) := sequenced_wf c m seq _ (fun d => receiveItem_wf d m _)

/-- Any cell keeps the canonical form. -/
theorem takeCell_wf (c : Chip) (m : Mem) (w : List Nat) : KeepsWf m (c.takeCell m w) := by
  unfold Chip.takeCell
  dsimp only
  split
  · exact writeCell_wf c m _ _ _ _ _ _ _ _ _
  · exact bulkCell_wf c m _ _ _ _ _ _
  · exact decisionCell_wf c m _ _ _ _ _ _
  · exact id
  · exact id
  · exact id
  · exact id

theorem takeCells_wf (l : List (List Nat)) : ∀ (c : Chip) (m : Mem), KeepsWf m (c.takeCells m l) := by
  induction l with
  | nil => intro c m; exact id
  | cons w r ih => intro c m; exact (takeCell_wf c m w).trans (ih _ _)

/-! ## Resync, boot and resets -/

theorem coldWords_wf (l : List (Nat × Nat × Nat)) : ∀ (c : Chip) (m : Mem), KeepsWf m (c.coldWords m l) := by
  induction l with
  | nil => intro c m; exact id
  | cons w r ih =>
    intro c m
    exact (applyWord_wf c m .twin w.1 w.2.1 w.2.2 _ _).trans (ih _ _)

theorem coldMirrored_wf (c : Chip) (m : Mem) (compat : Nat) : KeepsWf m (c.coldMirrored m compat) :=
  fun h => Mem.wf_clears [1, 2, 3, 4, 5] _ (coldWords_wf _ _ m h)

theorem resyncReceived_wf (c : Chip) (m : Mem) (compat : Nat) (cores : List NovaCapture) : KeepsWf m (c.resyncReceived m compat cores) := by
  have k := coldMirrored_wf (if c.pairState = 6 then c.enterSync 0 else c) m compat
  unfold Chip.resyncReceived
  generalize (if c.pairState = 6 then c.enterSync 0 else c) = d at k
  dsimp only
  generalize Chip.coldMirrored d m compat = r at k
  split
  · exact id
  · exact k
  · exact KeepsWf.same m _
  · exact KeepsWf.same m _

theorem boot_wf (c : Chip) (m : Mem) : KeepsWf m (c.boot m) := by
  unfold Chip.boot
  dsimp only
  split
  · exact id
  · split
    · exact Mem.wf_puts _ _ _ _
    · split
      · exact Mem.wf_puts _ _ _ _
      · exact id

theorem release_wf (c : Chip) (m : Mem) (st : Straps) (cause : Nat) : KeepsWf m (c.release m st cause) := boot_wf _ m

theorem warmRequest_wf (c : Chip) (m : Mem) (cause : Nat) : KeepsWf m (c.warmRequest m cause) := by
  unfold Chip.warmRequest
  split
  · exact id
  · split
    · exact id
    · exact Mem.wf_clear m 0

theorem warmDone_wf (c : Chip) (m : Mem) : KeepsWf m (c.warmDone m) := by
  unfold Chip.warmDone
  split
  · exact id
  · exact boot_wf _ m

theorem fwInstall_wf (c : Chip) (m : Mem) (target a0 a1 : Nat) : KeepsWf m (c.fwInstall m target a0 a1) := by
  unfold Chip.fwInstall
  dsimp only
  split
  · exact id
  · exact Mem.wf_eraseBank m _

theorem fwInstallDone_wf (c : Chip) (m : Mem) (ok : Bool) : KeepsWf m (c.fwInstallDone m ok) := by
  unfold Chip.fwInstallDone
  split
  · exact id
  · dsimp only
    split
    · exact id
    · exact Mem.wf_puts _ _ _ _

theorem keyRotateDone_wf (c : Chip) (m : Mem) (ok : Bool) : KeepsWf m (c.keyRotateDone m ok) := by
  unfold Chip.keyRotateDone
  split
  · exact id
  · dsimp only
    split
    · exact id
    · exact warmRequest_wf _ m _

theorem keeperLoaded_wf (c : Chip) (m : Mem) (n : Nat) : KeepsWf m (c.keeperLoaded m n) := by
  unfold Chip.keeperLoaded
  split
  · exact id
  · dsimp only
    split
    · exact wf_copySurface m _ _ _ _ _ _
    · exact wf_copySurface m _ _ _ _ _ _

end Sys2Proof.Machine
end

