-- ==== Sys2Proof/Machine/Package.lean ====
section
/-! DEFINITION. The ball map of the package (R498 to R504). No command acts on it; it says which ball carries which pin. -/

namespace Sys2Proof.Machine

/-- What a ball carries. `pos` marks the P ball of a pair; `tw` as a group number is 32. -/
inductive Signal
  | gnd
  /-- A supply rail. -/
  | rail (name : String)
  /-- A data lane of a lane group. -/
  | lane (group : Nat) (tx : Bool) (lane : Nat) (pos : Bool)
  /-- A forwarded clock of a lane group. -/
  | laneClock (group : Nat) (tx : Bool) (pos : Bool)
  /-- A data lane of an Ethernet port. -/
  | eth (port : Nat) (tx : Bool) (lane : Nat) (pos : Bool)
  /-- A single pin by its name. -/
  | pin (name : String)
  /-- A position past the end of a corner's list: not connected. -/
  | reserved
  deriving DecidableEq, Repr

/-- The 19 letters of R498, `L[1]` first. -/
def rowAlphabet : List Char := "ABCDEFGHJKLMNPTUVWY".toList

/-- The letters of row `r`, 1 to 84 (R498). -/
def rowLetters (r : Nat) : String :=
  let l := rowAlphabet.getD ((r - 1) % 19) 'A'
  if r ≤ 19 then String.ofList [l] else String.ofList [rowAlphabet.getD ((r - 20) / 19) 'A', l]

/-- The depth of a ball (R499). -/
def ballDepth (row col : Nat) : Nat := min (min (row - 1) (col - 1)) (min (84 - row) (84 - col))

/-- The pair that a lane-group slot carries at depth `d` on its first (offsets 1, 2) or second (4, 5) place (R501). -/
def lanePlace (g d : Nat) (second pos : Bool) : Signal :=
  let k := if second then 1 else 0
  if d ≤ 3 then .lane g true (2 * d + k) pos
  else if d = 4 ∧ second = false then .laneClock g true pos
  else if d = 6 ∧ second = false then .laneClock g false pos
  else if 7 ≤ d ∧ d ≤ 10 then .lane g false (2 * (d - 7) + k) pos
  else .gnd

/-- The pair that an Ethernet slot carries (R501). -/
def ethPlace (n d : Nat) (second pos : Bool) : Signal :=
  let k := if second then 1 else 0
  if d ≤ 1 then .eth n true (2 * d + k) pos
  else if d = 3 ∨ d = 4 then .eth n false (2 * (d - 3) + k) pos
  else .gnd

/-- A place of a slot: offsets 0 and 3 are ground, 1 and 4 the P balls, 2 and 5 the N balls (R501). -/
def slotPlace (f : Bool → Bool → Signal) (j : Nat) : Signal :=
  if j % 3 = 0 then .gnd else f (decide (3 < j)) (j % 3 = 1)

/-- Slot `s` of edge `e` at depth `d` and offset `j` (R500, R501). -/
def edgeBall (e s d j : Nat) : Signal :=
  if s ≤ 3 then slotPlace (lanePlace (8 * e + s) d) j
  else if s ≤ 5 then slotPlace (ethPlace (2 * e + s - 4) d) j
  else slotPlace (lanePlace (8 * e + s - 2) d) j

/-- The signals of corner TR (R503). -/
def cornerTR : List String :=
  ["USB_TX1P", "USB_TX1N", "USB_TX2P", "USB_TX2N", "USB_RX1P", "USB_RX1N", "USB_RX2P", "USB_RX2N", "USB_SBTX", "USB_SBRX",
   "ETH_REFCLK_P", "ETH_REFCLK_N", "AVS_CLK", "AVS_MDATA", "AVS_SDATA", "MSPI_SCK", "MSPI_CS_N", "MSPI_MOSI", "MSPI_MISO"] ++
  ["BI2C_SCL", "BI2C_SDA", "BF_SCK", "BF_CS_N", "BF_IO0", "BF_IO1", "BF_IO2", "BF_IO3", "TCK", "TMS", "TDI", "TDO", "TRST_N",
   "TD_P", "TD_N", "VCORE_SNS_P", "VCORE_SNS_N", "POR_N", "RESET_N", "IRQ_N", "ALIVE", "SCALE", "COMPAT", "TWIN_SIDE",
   "BOOT_SRC", "LOSC_IN"]

/-- The five pins of serial audio port `n` in the order of R503. -/
def sapPins (n : Nat) : List String :=
  ["_BCLK", "_FS", "_DIN", "_DOUT", "_MCLK"].map (fun x => "SAP" ++ toString n ++ x)

/-- The signals of corner BR (R503). -/
def cornerBR : List String :=
  (List.range 8).flatMap sapPins ++ (List.range 8).map (fun n => "EVT" ++ toString n) ++
    (List.range 4).map (fun n => "QMSG" ++ toString n)

/-- The signals of corner BL (R503). -/
def cornerBL : List String :=
  ((List.range 8).map (· + 8)).flatMap sapPins ++
    (List.range 4).flatMap (fun n => ["REFIN" ++ toString n ++ "_P", "REFIN" ++ toString n ++ "_N"]) ++
    (List.range 4).map (fun n => "FPOUT" ++ toString n) ++ ["WCOUT0", "WCOUT1"]

/-- A ball of corner TR, BR or BL; `r` and `c` count from 0 within the corner's 12 by 12 square (R503). -/
def cornerBall (names : List String) (r c : Nat) : Signal :=
  if (r + c) % 2 = 0 then .gnd
  else match names[(12 * r + c) / 2]? with
    | some n => .pin n
    | none => .reserved

/-- An interior ball (R504): row U is 16 and row CM 69. -/
def interiorBall (row col : Nat) : Signal :=
  let d := ballDepth row col
  if (row + col) % 2 = 0 then .gnd
  else if (row = 16 ∧ (col = 41 ∨ col = 43)) ∨ (row = 69 ∧ (col = 42 ∨ col = 44)) then .rail "VDD_AON"
  else if (row = 16 ∧ col = 45) ∨ (row = 69 ∧ col = 40) then .rail "VDD_FUSE"
  else if d = 12 ∨ d = 14 then .rail "VDD_SRD"
  else if d = 13 then .rail "VDDH_SRD"
  else if d = 15 then .rail (if row = 16 ∨ row = 69 then "VDD_PLL" else "VDD_IO")
  else if col = 17 ∨ col = 68 then .rail "VPP_HBM"
  else if col ≤ 24 ∨ 61 ≤ col then .rail (if row % 2 = 0 then "VDD_HBM" else "VDDQ_HBM")
  else .rail "VDD_CORE"

/-- What the ball at a row and column, each 1 to 84, carries (R499 to R504). -/
def ballSignal (row col : Nat) : Signal :=
  if 12 ≤ ballDepth row col then interiorBall row col
  else if row ≤ 12 then
    if col ≤ 12 then
      if col ≤ 3 ∨ 10 ≤ col then .gnd else slotPlace (lanePlace 32 (row - 1)) (col - 4)
    else if 73 ≤ col then cornerBall cornerTR (row - 1) (col - 73)
    else edgeBall 0 ((col - 13) / 6) (row - 1) ((col - 13) % 6)
  else if 73 ≤ row then
    if col ≤ 12 then cornerBall cornerBL (row - 73) (col - 1)
    else if 73 ≤ col then cornerBall cornerBR (row - 73) (col - 73)
    else edgeBall 2 ((72 - col) / 6) (84 - row) ((72 - col) % 6)
  else if 73 ≤ col then edgeBall 1 ((row - 13) / 6) (84 - col) ((row - 13) % 6)
  else edgeBall 3 ((72 - row) / 6) (col - 1) ((72 - row) % 6)

/-- The option part of an ordering code (R518): evaluation, production and development, the last two with a key reference. -/
inductive OrderOption | s | k (ref : String) | d (ref : String)
  deriving DecidableEq, Repr

/-- Whether the `DEBUG_EN` fuse of a part is set (R456, R518). -/
def OrderOption.debugEn : OrderOption → Bool
  | .d _ => true
  | _ => false

end Sys2Proof.Machine
end

