-- ==== Sys2Proof/Machine/Pins.lean ====
section
/-! DEFINITION. What the state drives on the pins (R166 to R170, R353, R440, R472, R475, R509): the view of the pins that a state
gives while no data moves. What one command sends is in `Chip.out`. -/

namespace Sys2Proof.Machine

/-- What a pin is driven with. -/
inductive Drive
  /-- High impedance. -/
  | hiZ
  /-- A transmitter without clock or data (R475). -/
  | idle
  | low
  | high
  /-- A square wave of a frequency in Hz. -/
  | clock (hz : Nat)
  /-- Data, or a clock recovered from the line. -/
  | data
  deriving DecidableEq, Repr

/-- A level. -/
def Drive.level (b : Bool) : Drive := if b then .high else .low

/-- An output under the reset kinds: high-impedance under POR, `RESET_N` and at the end of a brown-out's release (R472, R475). -/
def Chip.output (c : Chip) (d : Drive) : Drive := if c.power.asserted = 0 then d else .hiZ

/-- ALIVE: low while COLD is asserted and until the first heartbeat, high-impedance under POR and brown-out (R415, R472, R475). -/
def Chip.alivePin (c : Chip) : Drive :=
  match c.power.asserted with
  | 0 => .level (c.fcu.beaten && c.fcu.alive)
  | 2 => .low
  | _ => .hiZ

/-- `IRQ_N`: open drain, driven low while a mapped page requests (R440, R508). -/
def Chip.irqPin (c : Chip) : Drive := c.output (if c.pins.irqLow then .low else .hiZ)

/-- The transmitters of a lane group, a link or the USB4 port after a brown-out's release (R472, R475). -/
def Chip.transmitter (c : Chip) : Drive :=
  if c.power.released then .idle else c.output .data

/-- The lanes of link `s` of a port in a mode (R289). -/
def linkLanes (mode s : Nat) : List Nat :=
  match mode with
  | 1 => if s = 0 then [0, 1, 2, 3] else []
  | 2 => if s < 2 then [2 * s, 2 * s + 1] else []
  | 3 | 4 | 5 => if s < 4 then [s] else []
  | _ => []

/-- Transmit lane `l` of Ethernet port `n` (R289): data where a link of the port's mode has it, else a static level. -/
def Chip.ethLanePin (c : Chip) (n l : Nat) : Drive :=
  if c.enabled (ethPage n) ∧ (List.range 4).any (fun s => (linkLanes (c.rd (Eth.mode.on n)) s).contains l) then c.transmitter
  else c.output .idle

/-- `MCLK` of port `p` (R168). -/
def Chip.mclkPin (c : Chip) (p : Nat) : Drive :=
  c.output (
    if c.rd (Sap.state.on p) = 4 then .hiZ
    else match c.rd (Sap.mode.on p) with
      | 1 | 2 | 3 =>
        if c.on (Sap.mclkEn.on p) then
          .clock (match c.rd (Sap.mclkSel.on p) with | 0 => 12288000 | 2 => 49152000 | _ => 24576000)
        else .hiZ
      | 4 => .clock 98304000
      | _ => .hiZ)

/-- Whether the pins of port `p` are driven by its mode (R166, R172, R509). -/
def Chip.sapDrives (c : Chip) (p : Nat) : Bool :=
  let st := c.rd (Sap.state.on p)
  st ≠ 0 && st ≠ 4 && c.rd (Sap.mode.on p) ≠ 0

/-- `BCLK` of port `p`: driven by a master from domain 39, and with the recovered bit clock in `AES3` mode (R167, R169, R170). -/
def Chip.bclkPin (c : Chip) (p : Nat) : Drive :=
  c.output (
    if !c.sapDrives p then .hiZ
    else match c.rd (Sap.mode.on p) with
      | 1 | 2 => if c.on (Sap.master.on p) then .clock (c.sapSlots p * 32 * c.rateKHz * 1000) else .hiZ
      | 3 => .data
      | _ => .hiZ)

/-- `FS` of port `p` (R167, R169, R170). -/
def Chip.fsPin (c : Chip) (p : Nat) : Drive :=
  c.output (
    if !c.sapDrives p then .hiZ
    else match c.rd (Sap.mode.on p) with
      | 1 | 2 => if c.on (Sap.master.on p) then .clock (c.rateKHz * 1000) else .hiZ
      | 3 => .data
      | _ => .hiZ)

/-- `DOUT` of port `p`; a masked slot with `TRI` is high-impedance in `Out.sapFrame` (R167). -/
def Chip.doutPin (c : Chip) (p : Nat) : Drive := c.output (if c.sapDrives p then .data else .hiZ)

/-- `FPOUTn`: its active level during a pulse, else its inactive level (R353, R509). -/
def Chip.fpoutPin (c : Chip) (n : Nat) : Drive :=
  let pol := c.on (MerLoop.fpPol.nth n)
  c.output (.level (if c.on (MerLoop.fpEn.nth n) && bit c.mer.pulse n then !pol else pol))

/-- `WCOUTn`: a square wave of its rate while enabled, else its inactive level (R353, R509). -/
def Chip.wcoutPin (c : Chip) (n : Nat) : Drive :=
  c.output (
    if c.on (MerLoop.wcEn.nth n) then .clock (if c.on (MerLoop.wcRate.nth n) then 96000 else 48000)
    else .level (c.on (MerLoop.wcPol.nth n)))

end Sys2Proof.Machine
end

