-- ==== Sys2Proof/WellFormed.lean ====
section
/-! DEFINITION. The checks that the operands of a command meet when they are what the boundary can deliver. The meanings are total and
do not rest on them. -/

namespace Sys2Proof

/-- An ANC packet has at most 255 user data words (R91). -/
def AncPacket.wellFormed (a : AncPacket) : Bool := a.data.length ≤ 255

/-- A received line: its data streams are equally long, and its arrival is measured on line 1 alone (R74, R81). -/
def VideoLine.wellFormed (v : VideoLine) : Bool :=
  v.anc.all AncPacket.wellFormed && v.streams.all (fun s => s.1.length = (v.streams.map (fun s => s.1.length)).headD 0) &&
  (v.eps.isNone || v.line = 1)

/-- A port frame has at most 64 slots (R166). -/
def SapFrame.wellFormed (f : SapFrame) : Bool := f.slots.length ≤ 64

/-- The sample groups of an audio packet hold one value per channel, of at most 64 (R190). -/
def AudioPacket.wellFormed (k : AudioPacket) : Bool :=
  k.groups.all (fun g => g.length = (k.groups.map List.length).headD 0 && g.length ≤ 64)

/-- A Nova core's registers, each file whole, and data memory at rising addresses (R225, R226, R383). -/
def NovaCapture.wellFormed (n : NovaCapture) : Bool :=
  n.g.length = 16 && n.p.length = 8 && n.acc.length = 4 && n.cr.length ≤ 32 &&
  ((n.dm.map Prod.fst).zip ((n.dm.map Prod.fst).drop 1)).all (fun p => p.1.toNat < p.2.toNat)

/-- The words of one transaction: at least one and at most 64, which are the 256 bytes of R493. -/
def wordsOk (n : Nat) : Bool := decide (1 ≤ n ∧ n ≤ 64)

/-- A command as the boundary can deliver it. -/
def Instr.wellFormed : Instr → Bool
  | .laneFrameReceive _ _ frame => frame.length = 1072
  | .samplerTrimSet _ trims _ => trims.length = 8
  | .deskewDone _ skews => skews.length = 8 && skews.all (fun k => k.toNat ≤ 2048)
  | .qualityMessageReceive _ m => m.length = 8
  | .inputLineReceive _ v => v.wellFormed
  | .sapFrameReceive _ f => f.wellFormed
  | .audioPacketReceive _ _ k => k.wellFormed
  | .gainWrite _ off data => 1 ≤ data.length && data.length ≤ 256 && off.toNat + data.length ≤ 33554432
  | .candidateMeasure freqs _ => freqs.length = 9
  | .bulkCell _ sub _ _ _ bytes => bytes.length = if sub = 0xFF then 28 else 24
  | .digestCell _ first digests => digests.length ≤ 5 && first.toNat + digests.length ≤ 8192
  | .countersCell _ _ _ gens pics => gens.length = 8 && pics.length = 64
  | .resyncPhaseDone _ cores => cores.all NovaCapture.wellFormed && (cores.map (·.core)).Nodup
  | .registerWrite _ _ _ _ _ ws => wordsOk ws.length
  | .tableSpaceAccess _ _ (some ws) _ _ _ => wordsOk ws.length
  | .tableSpaceAccess _ _ none n _ _ => wordsOk n.toNat
  | .mspiWrite _ ws => 1 ≤ ws.length
  | _ => true

end Sys2Proof
end

