-- ==== Sys2Proof/Tests/Slice0.lean ====
section
/-! SUPPORT. Small tests of the model against values the spec states, ill-formed operands that the checks refuse, and for each statement
states and operands that meet its hypotheses. -/

open Sys2Proof Sys2Proof.Machine

namespace Sys2Proof.Tests
/-- The machine after reset with some fields at other values. -/
def st (ws : List (Fld × Nat)) : State :=
  { State.reset with c := ws.foldl (fun c w => c.wr w.1 w.2) State.reset.c }

/-- The same with a change of the machine's own state. -/
def stx (ws : List (Fld × Nat)) (f : Chip → Chip) : State := { st ws with c := f (st ws).c }

/-- With a page enabled. -/
def en (p : Nat) (c : Chip) : Chip := { c with enable := Store.set 0 c.enable p 1 }

/-- With every lane of a group aligned. -/
def aligned (g : Nat) (c : Chip) : Chip := (List.range 8).foldl (fun c l => c.updLane g l (fun x => { x with alignRun := 4 })) c

/-- A schedule image of one section (R270, R271, R273), as its bytes stand in the image buffer; its check word follows R46. -/
def smallImage : Mem :=
  [(34359738368, 68), (34359738369, 88), (34359738370, 73), (34359738371, 77), (34359738372, 1), (34359738374, 1),
   (34359738376, 84), (34359738380, 52), (34359738381, 18), (34359738384, 2), (34359738428, 23), (34359738429, 170),
   (34359738430, 42), (34359738431, 86), (34359738432, 2), (34359738436, 80), (34359738440, 4), (34359738445, 4),
   (34359738446, 4), (34359738448, 2), (34359738449, 2)]
/-! ## Ill-formed operands (Sys2Proof/WellFormed.lean) -/

theorem test_wf_frame_bits : Instr.wellFormed (.laneFrameReceive 0 0 [true]) = false := by decide
theorem test_wf_trims : Instr.wellFormed (.samplerTrimSet 0 [1] 0) = false := by decide
theorem test_wf_skews : Instr.wellFormed (.deskewDone 0 [0, 0, 0, 0, 0, 0, 0]) = false := by decide
theorem test_wf_skew_large : Instr.wellFormed (.deskewDone 0 [0, 0, 0, 0, 0, 0, 0, 2049]) = false := by decide
theorem test_wf_quality : Instr.wellFormed (.qualityMessageReceive 0 [0x5A]) = false := by decide
theorem test_wf_anc : AncPacket.wellFormed ⟨0, 0, List.replicate 256 0, true⟩ = false := by decide +kernel
theorem test_wf_line_anc :
    Instr.wellFormed (.inputLineReceive 0 ⟨1, false, true, [], [], none, none, [⟨0, 0, List.replicate 256 0, true⟩], [], none, none⟩) = false := by decide +kernel
theorem test_wf_line_streams :
    Instr.wellFormed (.inputLineReceive 0 ⟨1, false, true, [], [([1], 0), ([], 0)], none, none, [], [], none, none⟩) = false := by decide
theorem test_wf_line_eps : Instr.wellFormed (.inputLineReceive 0 ⟨2, false, true, [], [], none, none, [], [], some 0, none⟩) = false := by decide
theorem test_wf_sap : Instr.wellFormed (.sapFrameReceive 0 ⟨0, 0, true, List.replicate 65 ⟨0, false, false, true⟩, false, false⟩) = false := by
  decide
theorem test_wf_audio : Instr.wellFormed (.audioPacketReceive 0 false ⟨0, 0, [[1, 2], [1]], false, false, 0, 0⟩) = false := by decide
theorem test_wf_audio_channels : Instr.wellFormed (.audioPacketReceive 0 false ⟨0, 0, [List.replicate 65 0], false, false, 0, 0⟩) = false := by decide
theorem test_wf_gain_empty : Instr.wellFormed (.gainWrite .host 0 []) = false := by decide
theorem test_wf_gain_end : Instr.wellFormed (.gainWrite .host 33554431 [0, 0]) = false := by decide
theorem test_wf_gain_long : Instr.wellFormed (.gainWrite .host 0 (List.replicate 257 0)) = false := by decide +kernel
theorem test_wf_measures : Instr.wellFormed (.candidateMeasure [0] 0) = false := by decide
theorem test_wf_bulk : Instr.wellFormed (.bulkCell 0 0xFF 0 0 0 (List.replicate 24 0)) = false := by decide
theorem test_wf_bulk_first : Instr.wellFormed (.bulkCell 0 2 0 0 0 (List.replicate 28 0)) = false := by decide
theorem test_wf_digests : Instr.wellFormed (.digestCell 0 0 [1, 2, 3, 4, 5, 6]) = false := by decide
theorem test_wf_digest_units : Instr.wellFormed (.digestCell 0 8190 [1, 2, 3]) = false := by decide
theorem test_wf_counters : Instr.wellFormed (.countersCell 0 0 0 [] []) = false := by decide
theorem test_wf_capture : Instr.wellFormed (.resyncPhaseDone 0 [⟨0, 0, 0, [], [], [], [], []⟩]) = false := by decide
theorem test_wf_capture_data : NovaCapture.wellFormed
    ⟨0, 0, 0, List.replicate 16 0, List.replicate 8 0, List.replicate 4 0, [], [(5, 1), (5, 2)]⟩ = false := by decide
theorem test_wf_capture_twice : Instr.wellFormed (.resyncPhaseDone 0
    (List.replicate 2 ⟨0, 0, 0, List.replicate 16 0, List.replicate 8 0, List.replicate 4 0, [], []⟩)) = false := by decide
theorem test_wf_register_words : Instr.wellFormed (.registerWrite .host 0x40000000 0 15 15 []) = false := by decide
theorem test_wf_table_words : Instr.wellFormed (.tableSpaceAccess .host 0 (some (List.replicate 65 (0, 15))) 1 0 0) = false := by decide
theorem test_wf_table_length : Instr.wellFormed (.tableSpaceAccess .host 0 none 65 0 0) = false := by decide
theorem test_wf_mspi_words : Instr.wellFormed (.mspiWrite 0 []) = false := by decide

/-! ## The spec's worked examples -/

/-- The state a command answers. -/
def after (o : Host.Outcome State Fault Refusal) : State := match o with | .next t => t | .fault _ => State.reset | .refused _ => State.reset

/-- spec/00, "Finding a register": core 17's sticky bit 2 is cleared by a write of 4 at BAR0 offset `0x000F_1010`. -/
theorem test_finding_a_register :
    (after (Sys2Proof.Machine.execRegisterWrite .host 0x400F1010 0 15 15 [4] (stx [] (fun c => (c.stick 0xF1 2).stick 0xF1 3)))).c.stickyWord 0xF1 =
      8 := by decide +kernel

/-- spec/04, "A salvo in an OB truck": the words of table 0 at indices 8,192 to 8,195. -/
def salvo : Chip := [(8192, 0x000160C9), (8193, 0x014960CA), (8194, 0x00016499), (8195, 0x003FFA80)].foldl
  (fun c w => (c.applyWord [] .host xptPage 1 w.1 w.2 allBits).1) State.reset.c
theorem test_salvo_0 : salvo.salvoEntry 0 0 = ⟨201, 44, 0, false⟩ := by decide +kernel
theorem test_salvo_1 : salvo.salvoEntry 0 1 = ⟨202, 300, 1, true⟩ := by decide +kernel
theorem test_salvo_2 : salvo.salvoEntry 0 2 = ⟨1177, 44, 0, false⟩ := by decide +kernel
theorem test_salvo_3 : salvo.salvoEntry 0 3 = ⟨640, 0x7FF, 0, false⟩ := by decide +kernel

/-- spec/05, "Worked pixels": a monitor composer's filter at phase 32. -/
theorem test_worked_pixel_monitor :
    filterAt .y monitorTaps 4 98304 (fun i => [64, 64, 940, 940].getD i.toNat 0) = 502 := by decide +kernel

/-- spec/05, "Worked pixels": a programme bank at phase 32; 947 is clamped to 940. -/
theorem test_worked_pixel_programme :
    filterAt .y (fun _ => [-32, 96, 544, 1440, 1440, 544, 96, -32]) 8 229376 (fun i => if i = 0 then 64 else 940) = 940 := by decide +kernel

/-- spec/07, "Presenter mix-minus": unity and the band's gain. -/
theorem test_gain_unity : linear false 0x7000 = 137438953472 := by decide
theorem test_gain_band : linear false 0x6805 = 34527510528 := by decide
theorem test_gain_zero : linear false 0x0000 = 0 := by decide

/-- spec/07: the steps of a tile at P = 16, `W(16)`. -/
theorem test_mix_steps : mixSteps 0 1 = 263168 := by decide

/-- spec/08, "The stage 2 tower filter": E with `NIN` = `NOUT` = 2 at P = 16. -/
theorem test_exchange_steps : exchSteps 2 2 1 = 72 := by decide

/-- spec/09, "The festival image": capacities of a period and of three lines. -/
theorem test_capacity_period : capacity (16 * 1000000) 48 = 466667 := by decide
theorem test_capacity_line_1080p50 : capacity (5280 * 1000000) 297000 = 24889 := by decide
theorem test_capacity_line_720p50 : capacity (3960 * 1000000) 148500 = 37333 := by decide

/-- spec/11: the first message of a plant sync generator. -/
theorem test_quality_message : qmsgSyndrome [0x5A, 0x11, 0x12, 1, 0, 0, 0, 0x92] = 0 := by decide +kernel

/-- spec/10, R312: the check values of the presets over "123456789". -/
def digits : List Nat := [0x31, 0x32, 0x33, 0x34, 0x35, 0x36, 0x37, 0x38, 0x39]
theorem test_preset_1 : (crcPreset 1 crcEthernet).over digits = 0xCBF43926 := by decide +kernel
theorem test_preset_2 : (crcPreset 2 crcEthernet).over digits = 0xE3069283 := by decide +kernel
theorem test_preset_5 : (crcPreset 5 crcEthernet).over digits = 0x29B1 := by decide +kernel

/-- spec/06, R197: 24-bit slots round half to even. -/
theorem test_round_down : roundTop 24 0x00123480 = 0x001234 := by decide
theorem test_round_up : roundTop 24 0x00123580 = 0x001236 := by decide

/-- The worked example of chapter 17: TX lane 5 of lane group 13 is on balls CB82 and CC82, between two ground balls. -/
theorem test_ball_example :
    rowLetters 59 = "CB" ∧ rowLetters 60 = "CC" ∧ ballSignal 59 82 = .lane 13 true 5 true ∧
      ballSignal 60 82 = .lane 13 true 5 false ∧ ballSignal 58 82 = .gnd ∧ ballSignal 55 82 = .gnd := by decide +kernel

/-- R168: `MADI` drives `MCLK` whatever `MCLK_EN` is; code 3 of `MCLK_SEL` is treated as 1. -/
theorem test_mclk :
    (st [(Sap.mode.on 12, 4)]).c.mclkPin 12 = .clock 98304000 ∧
      (st [(Sap.mode.on 0, 1), (Sap.mclkEn.on 0, 1), (Sap.mclkSel.on 0, 3)]).c.mclkPin 0 = .clock 24576000 := by decide +kernel

/-- R433: when the first of four transactions with one ID is answered, the second, served before, follows; the fourth waits for the third. -/
theorem test_response_order : servedAfter (1, 0) 1 [⟨1, 0, 1, .okay, [7]⟩, ⟨1, 0, 3, .okay, [9]⟩] =
    ([⟨1, 0, 1, .okay, [9]⟩], [⟨1, 0, 1, .okay, [7]⟩]) := by decide

/-- R448: SHA-256 of "abc", the example of FIPS 180. -/
theorem test_sha_abc : sha256 [97, 98, 99] = [0xBA, 0x78, 0x16, 0xBF, 0x8F, 0x01, 0xCF, 0xEA, 0x41, 0x41, 0x40, 0xDE, 0x5D, 0xAE, 0x22,
    0x23, 0xB0, 0x03, 0x61, 0xA3, 0x96, 0x17, 0x7A, 0x9C, 0xB4, 0x10, 0xFF, 0x61, 0xF2, 0x00, 0x15, 0xAD] := by decide +kernel

/-! ## A valid image -/

/-- Byte `i` of the image as it enters its check value. -/
def imageByte (i : Nat) : List Bool := bitsMsb 8 (if 60 ≤ i ∧ i < 64 then 0 else Mem.byte smallImage 4 i)

/-- Twelve bytes of the image. -/
def imagePart (k : Nat) : List Bool := (List.range 12).flatMap (fun i => imageByte (12 * k + i))

/-- One check register run over 84 items is seven runs over 12 each. -/
theorem crc_parts (f : Nat → List Bool) (a0 a1 a2 a3 a4 a5 a6 : Nat)
    (h0 : crcBits 32 0x1EDC6F41 0xFFFFFFFF ((List.range 12).flatMap (fun i => f (12 * 0 + i))) = a0)
    (h1 : crcBits 32 0x1EDC6F41 a0 ((List.range 12).flatMap (fun i => f (12 * 1 + i))) = a1)
    (h2 : crcBits 32 0x1EDC6F41 a1 ((List.range 12).flatMap (fun i => f (12 * 2 + i))) = a2)
    (h3 : crcBits 32 0x1EDC6F41 a2 ((List.range 12).flatMap (fun i => f (12 * 3 + i))) = a3)
    (h4 : crcBits 32 0x1EDC6F41 a3 ((List.range 12).flatMap (fun i => f (12 * 4 + i))) = a4)
    (h5 : crcBits 32 0x1EDC6F41 a4 ((List.range 12).flatMap (fun i => f (12 * 5 + i))) = a5)
    (h6 : crcBits 32 0x1EDC6F41 a5 ((List.range 12).flatMap (fun i => f (12 * 6 + i))) = a6) :
    crc32c ((List.range 84).flatMap f) = a6 ^^^ 0xFFFFFFFF := by
  have h : List.range 84 = ((((((List.range 12).map (12 * 0 + ·) ++ (List.range 12).map (12 * 1 + ·)) ++ (List.range 12).map (12 * 2 + ·)) ++
      (List.range 12).map (12 * 3 + ·)) ++ (List.range 12).map (12 * 4 + ·)) ++ (List.range 12).map (12 * 5 + ·)) ++
      (List.range 12).map (12 * 6 + ·) := by decide +kernel
  have happ : ∀ (r : Nat) (a b : List Bool),
      crcBits 32 0x1EDC6F41 r (a ++ b) = crcBits 32 0x1EDC6F41 (crcBits 32 0x1EDC6F41 r a) b := fun _ _ _ => List.foldl_append
  rw [h, crc32c]
  simp only [List.flatMap_append, List.flatMap_map, happ, h0, h1, h2, h3, h4, h5, h6]

theorem imagePart_0 : crcBits 32 0x1EDC6F41 0xFFFFFFFF (imagePart 0) = 546074906 := by decide +kernel
theorem imagePart_1 : crcBits 32 0x1EDC6F41 546074906 (imagePart 1) = 2859125785 := by decide +kernel
theorem imagePart_2 : crcBits 32 0x1EDC6F41 2859125785 (imagePart 2) = 1994146910 := by decide +kernel
theorem imagePart_3 : crcBits 32 0x1EDC6F41 1994146910 (imagePart 3) = 1756569080 := by decide +kernel
theorem imagePart_4 : crcBits 32 0x1EDC6F41 1756569080 (imagePart 4) = 1348764231 := by decide +kernel
theorem imagePart_5 : crcBits 32 0x1EDC6F41 1348764231 (imagePart 5) = 2975098879 := by decide +kernel
theorem imagePart_6 : crcBits 32 0x1EDC6F41 2975098879 (imagePart 6) = 2849330664 := by decide +kernel

/-- The check word of the image is right. -/
theorem smallImage_crc : imgCrc smallImage 84 = 1445636631 := by
  have h : imgCrc smallImage 84 = crc32c ((List.range 84).flatMap imageByte) := by with_unfolding_all rfl
  have k := crc_parts imageByte _ _ _ _ _ _ _ imagePart_0 imagePart_1 imagePart_2 imagePart_3 imagePart_4 imagePart_5 imagePart_6
  exact h.trans (k.trans (by decide))

/-- The image is valid on a machine whose periods are of its kind. -/
theorem smallImage_valid (c : Chip) (h : imgWord smallImage 16 % 2 = c.rd Sched.fs ∧ imgWord smallImage 16 / 2 % 4 = c.plenCode)
    (hp : c.imageMem smallImage = smallImage)
    (hs : (List.range (imgCount smallImage)).find? (fun i => c.sectionReason smallImage i ≠ 0) = none) :
    c.validateImage smallImage = (0, 0) := by
  have h8 : imgWord smallImage 8 = 84 := by decide +kernel
  have h60 : imgWord smallImage 60 = 1445636631 := by decide +kernel
  have h3 : c.headerReason smallImage = 0 := by
    unfold Chip.headerReason
    simp only [h8, h60, smallImage_crc, h, ne_eq, not_true, or_self, if_false]
    decide +kernel
  simp only [Chip.validateImage, hp, h3, hs, ne_eq, not_true, if_false]

/-! ## What meets the statements' hypotheses -/

/-- States and operands that meet the hypotheses of each clause of `LaneTrainingForward`. -/
theorem witness_LaneTrainingForward :
    (∃ (s : State) (g : Fin 33), s.Runs ∧ s.c.grpState g = 0 ∧ s.c.enabled (lgrpPage g) = true ∧ (s.c.grp g).wait = 0 ∧ (g.val < 32 ∨ s.c.paired = true)) ∧
    (∃ (s : State) (g : Fin 33), s.Runs ∧ s.c.grpState g = 1) ∧
    (∃ (s : State) (g : Fin 33), s.Runs ∧ s.c.grpState g = 2) ∧
    (∃ (s : State) (g : Fin 33), s.Runs ∧ s.c.grpState g = 3 ∧ (∀ l : Fin 8, s.c.laneAligned g l = true)) ∧
    (∃ (s : State) (g : Fin 33) (skews : List (BitVec 12)), s.Runs ∧ s.c.grpState g = 4 ∧ (∀ a b : Fin 8, (skews.getD a 0).toNat ≤ (skews.getD b 0).toNat + 2048)) ∧
    (∃ (s : State) (g : Fin 33), s.Runs ∧ s.c.grpState g = 5) :=
  ⟨⟨(stx [] (en 0x23)), (3), by decide⟩,
   ⟨(st [(Lgrp.state.on 3, 1)]), (3), by decide⟩,
   ⟨(st [(Lgrp.state.on 3, 2)]), (3), by decide⟩,
   ⟨(stx [(Lgrp.state.on 3, 3)] (aligned 3)), (3), by decide⟩,
   ⟨(st [(Lgrp.state.on 3, 4)]), (3), ([0, 2048, 5]), by decide⟩,
   ⟨(st [(Lgrp.state.on 3, 5)]), (3), by decide⟩⟩

/-- States and operands that meet the hypotheses of each clause of `LaneGroupDown`. -/
theorem witness_LaneGroupDown :
    (∃ (s : State) (g : Fin 33), s.Runs ∧ s.c.grpState g ≠ 0) ∧
    (∃ (s : State) (g : Fin 33), s.Runs ∧ s.c.grpState g ≠ 0 ∧ s.c.grpState g ≠ 6) ∧
    (∃ (s : State) (g : Fin 33), s.Runs ∧ (s.c.grp g).wait = 1) :=
  ⟨⟨(st [(Lgrp.state.on 3, 6)]), (3), by decide⟩,
   ⟨(st [(Lgrp.state.on 3, 5)]), (3), by decide⟩,
   ⟨(stx [] (fun c => c.updGrp 3 (fun x => { x with wait := 1 }))), (3), by decide⟩⟩

/-- States and operands that meet the hypotheses of each clause of `LaneRetraining`. -/
theorem witness_LaneRetraining :
    (∃ (s : State) (g : Fin 33) (l : Fin 8), s.Runs ∧ s.c.grpState g = 6 ∧ s.c.rd (Lgrp.laneRetrain.on g) = 0 ∧ s.c.on ((Lgrp.lasting.on g).nth l) = true ∧ orElse0 (s.c.rd (Lgrp.lossFrames.on g)) 1 < (s.c.lane g l).badRun) ∧
    (∃ (s : State) (g : Fin 33) (l : Fin 8), s.Runs ∧ s.c.grpState g = 6 ∧ s.c.rd (Lgrp.laneRetrain.on g) ≠ 0 ∧ s.c.laneBusy g l = false ∧ s.c.on (Lgrp.autoRetrain.on g) = true ∧ s.c.on ((Lgrp.lasting.on g).nth l) = true ∧ orElse0 (s.c.rd (Lgrp.lossFrames.on g)) 1 < (s.c.lane g l).badRun) ∧
    (∃ (s : State) (g : Fin 33) (l : Fin 8), s.Runs ∧ s.c.grpState g = 6 ∧ s.c.laneBusy g l = true ∧ s.c.laneAligned g l = true) ∧
    (∃ (s : State) (g : Fin 33) (l : Fin 8), s.Runs ∧ s.c.grpState g = 6 ∧ s.c.laneBusy g l = true ∧ s.c.on (Lgrp.autoRetrain.on g) = true) ∧
    (∃ (s : State) (g : Fin 33) (l : Fin 8) (m : Master), s.Allows m 0 (lgrpPage g) (0x60 + 4 * l) 21 false ∧ s.c.grpState g = 6 ∧ s.c.laneBusy g l = false) ∧
    (∃ (s : State) (g : Fin 33) (m : Master), s.Allows m 0 (lgrpPage g) 0x40 0 false ∧ s.c.enabled (lgrpPage g) = true ∧ s.c.grpState g ≠ 0) :=
  ⟨⟨(stx [(Lgrp.state.on 3, 6), ((Lgrp.lasting.on 3).nth 7, 1)] (fun c => c.updLane 3 7 (fun x => { x with badRun := 100000 }))), (3), (7), by decide⟩,
   ⟨(stx [(Lgrp.state.on 3, 6), (Lgrp.laneRetrain.on 3, 1), ((Lgrp.lasting.on 3).nth 7, 1)] (fun c => c.updLane 3 7 (fun x => { x with badRun := 100000 }))), (3), (7), by decide⟩,
   ⟨(stx [(Lgrp.state.on 3, 6), (Lgrp.laneRetrain.on 3, 0x84)] (aligned 3)), (3), (7), by decide⟩,
   ⟨(st [(Lgrp.state.on 3, 6), (Lgrp.laneRetrain.on 3, 0x84)]), (3), (7), by decide⟩,
   ⟨(st [(Lgrp.state.on 3, 6), (Lgrp.laneRetrain.on 3, 0x84)]), (3), (6), (.host), by decide⟩,
   ⟨(stx [(Lgrp.state.on 3, 6), (Lgrp.laneRetrain.on 3, 0x84)] (en 0x23)), (3), (.hk), by decide⟩⟩

/-- States and operands that meet the hypotheses of each clause of `LaneEyeScan`. -/
theorem witness_LaneEyeScan :
    (∃ (s : State) (g : Fin 33) (m : Master), s.Allows m 0 (lgrpPage g) 0x90 3 false ∧ s.c.on (Lgrp.eyeStart.on g) = false) ∧
    (∃ (s : State) (g : Fin 33) (m : Master), s.Allows m 0 (lgrpPage g) 0x90 4 false ∧ s.c.on (Lgrp.eyeStart.on g) = true) ∧
    (∃ (s : State) (g : Fin 33), s.Runs ∧ s.c.on (Lgrp.eyeStart.on g) = true ∧ (s.c.grp g).eyePos < 4159) ∧
    (∃ (s : State) (g : Fin 33), s.Runs ∧ s.c.on (Lgrp.monEn.on g) = true ∧ s.c.on (Lgrp.eyeStart.on g) = false ∧ s.c.grpState g = 6) ∧
    (∃ (s : State) (g : Fin 33), s.Runs ∧ (s.c.grp g).monBusy = true) :=
  ⟨⟨(st [(Lgrp.eyeLane.on 3, 5)]), (3), (.host), by decide⟩,
   ⟨(st [(Lgrp.eyeStart.on 3, 1)]), (3), (.host), by decide⟩,
   ⟨(stx [(Lgrp.eyeStart.on 3, 1)] (fun c => c.updGrp 3 (fun x => { x with eyePos := 4158 }))), (3), by decide⟩,
   ⟨(st [(Lgrp.state.on 3, 6)]), (3), by decide⟩,
   ⟨(stx [] (fun c => c.updGrp 3 (fun x => { x with monBusy := true }))), (3), by decide⟩⟩

/-- States and operands that meet the hypotheses of each clause of `LaneFrames`. -/
theorem witness_LaneFrames :
    (∃ (s : State) (g : Fin 33), s.Runs ∧ s.c.enabled (lgrpPage g) = true) ∧
    (∃ (s : State) (g : Fin 33) (l : Fin 8), s.Runs ∧ 4 ≤ s.c.grpState g ∧ s.c.laneBusy g l = false) ∧
    (∃ (s : State) (g : Fin 33) (fill : Fin 33), s.Runs ∧ s.c.grpState g = 6 ∧ s.c.lanesAgree g (s.c.goodLanes g) 55 48 = true ∧ fill ≠ 0 ∧ fill ≠ 32 ∧ (g.val < 32 ∨ s.c.paired = false ∨ (∀ w ∈ s.c.receivedCells (s.c.goodLanes g), w.headD 0 % 256 = 0))) ∧
    (∃ (s : State) (g : Fin 33) (m : Master), s.Allows m 0 (lgrpPage g) 0x54 0 false) ∧
    (∃ (s : State) (g : Fin 33), s.Runs ∧ s.c.on (Lgrp.slotCommit.on g) = true) :=
  ⟨⟨(stx [] (en 0x23)), (3), by decide⟩,
   ⟨(st [(Lgrp.state.on 3, 6)]), (3), (2), by decide⟩,
   ⟨(st [(Lgrp.state.on 3, 6)]), (3), (20), by decide⟩,
   ⟨(st []), (3), (.host), by decide⟩,
   ⟨(st [(Lgrp.slotCommit.on 3, 1), ((Lgrp.rxUsed.on 3).nth 127, 1), ((Lgrp.txSsid.on 3).nth 4, 9)]), (3), by decide⟩⟩

/-- States and operands that meet the hypotheses of each clause of `InputBinding`. -/
theorem witness_InputBinding :
    (∃ (s : State) (i : Fin 1152) (m : Master) (w0 : BitVec 32) (w1 : BitVec 32), s.Allows m 1 vinPage (8 * i) 0 true ∧ ((s.c.putRw vinPage 1 (8 * i) w0.toNat allBits).putRw vinPage 1 (8 * i + 1) w1.toNat allBits).bindCode i = 0) ∧
    (∃ (s : State) (i : Fin 1152) (m : Master) (w0 : BitVec 32) (w1 : BitVec 32), s.Allows m 1 vinPage (8 * i) 0 true ∧ ((s.c.putRw vinPage 1 (8 * i) w0.toNat allBits).putRw vinPage 1 (8 * i + 1) w1.toNat allBits).bindCode i ≠ 0) ∧
    (∃ (s : State) (i : Fin 1152), s.Runs ∧ (s.c.input i).waiting = true ∧ s.c.bindCode i = 0) ∧
    (∃ (s : State), s.Runs) :=
  ⟨⟨(st []), (7), (.host), (0x1108009), (0x305), by decide⟩,
   ⟨(st []), (7), (.host), (3), (0), by decide⟩,
   ⟨(stx [(Vin.transport.nth 7, 1), (Vin.fsMode.nth 7, 2)] (fun c => c.updInput 7 (fun x => { x with waiting := true }))), (7), by decide⟩,
   ⟨(st []), by decide⟩⟩

/-- States and operands that meet the hypotheses of each clause of `InputStates`. -/
theorem witness_InputStates :
    (∃ (s : State) (i : Fin 1152), s.Runs ∧ s.c.inputSt i = InSt.acquiring ∧ orElse0 (s.c.rd Vin.acqFrames) 1 ≤ (s.c.input i).acqRun ∧ (s.c.input i).acqFmt < 256 ∧ s.c.rd (Vin.transport.nth i).live = 1 ∧ s.c.rd (Vin.fmt.nth i).live ≠ 0xFF ∧ s.c.rd (Vin.fmt.nth i).live ≠ (s.c.input i).acqFmt) ∧
    (∃ (s : State) (i : Fin 1152), s.Runs ∧ 2 ≤ s.c.inputSt i ∧ s.c.inputSt i ≤ 6) ∧
    (∃ (s : State) (i : Fin 1152), s.Runs ∧ s.c.isStandby = false ∧ s.c.mirrors = false ∧ s.c.inputSt i = InSt.untimed ∧ (s.c.rd (Vin.fsMode.nth i).live = 0 ∨ s.c.rd (Vin.fsMode.nth i).live = 2) ∧ (s.c.input i).sync = none ∧ orElse0 (s.c.rd Vin.entryFrames) 1 ≤ (s.c.input i).inRun) ∧
    (∃ (s : State) (i : Fin 1152), s.Runs ∧ s.c.isStandby = false ∧ s.c.mirrors = false ∧ s.c.inputSt i = InSt.timed ∧ orElse0 (s.c.rd Vin.oowFrames) 1 ≤ (s.c.input i).outRun ∧ s.c.promised.any (fun p => p.2 = i.val) = false ∧ s.c.rd (Vin.fsMode.nth i).live ≠ 2) ∧
    (∃ (s : State) (i : Fin 1152) (n : Nat), s.Runs ∧ s.c.isStandby = false ∧ s.c.mirrors = false ∧ s.c.inputSt i = InSt.timed ∧ orElse0 (s.c.rd Vin.oowFrames) 1 ≤ (s.c.input i).outRun ∧ s.c.promised.any (fun p => p.2 = i.val) = false ∧ s.c.rd (Vin.fsMode.nth i).live = 2 ∧ s.c.freePoolSync = some n ∧ (s.c.input i).sync = none) ∧
    (∃ (s : State) (i : Fin 1152), s.Runs ∧ s.c.isStandby = false ∧ s.c.mirrors = false ∧ s.c.inputSt i = InSt.synced ∧ s.c.rd (Vin.fsMode.nth i).live = 2 ∧ 50 ≤ (s.c.input i).reRun) :=
  ⟨⟨(stx [((Vin.fmt.nth 7).live, 0x27), ((Vin.transport.nth 7).live, 1)] (fun c => c.updInput 7 (fun x => { x with st := 2, acqFmt := 0x45, acqRun := 9 }))), (7), by decide⟩,
   ⟨(stx [] (fun c => c.updInput 7 (fun x => { x with st := 5, sync := some 3 }))), (7), by decide⟩,
   ⟨(stx [] (fun c => c.updInput 7 (fun x => { x with st := 4, inRun := 3 }))), (7), by decide⟩,
   ⟨(stx [] (fun c => c.updInput 7 (fun x => { x with st := 3, outRun := 3 }))), (7), by decide⟩,
   ⟨(stx [(Fsync.pool.nth 2, 1), ((Vin.fsMode.nth 7).live, 2)] (fun c => c.updInput 7 (fun x => { x with st := 3, outRun := 3 }))), (7), (2), by decide⟩,
   ⟨(stx [((Vin.fsMode.nth 7).live, 2)] (fun c => c.updInput 7 (fun x => { x with st := 5, reRun := 50, sync := some 0 }))), (7), by decide⟩⟩

/-- States and operands that meet the hypotheses of each clause of `InputLines`. -/
theorem witness_InputLines :
    (∃ (s : State) (i : Fin 1152) (v : VideoLine), s.Runs ∧ s.c.inputSt i ≠ InSt.unbound ∧ s.c.rd (Vin.transport.nth i).live = 1 ∧ v.eav = false ∧ (s.c.input i).noEav + 1 < orElse0 (s.c.rd Vin.lossLines) 1) ∧
    (∃ (s : State) (i : Fin 1152) (v : VideoLine), s.Runs ∧ s.c.inputSt i ≠ InSt.unbound ∧ s.c.rd (Vin.transport.nth i).live = 1 ∧ v.eav = true ∧ rasterOf (s.c.rd (Vin.fmt.nth i).live) ≠ 6 ∧ rasterOf (s.c.rd (Vin.mfmt.nth i)) ≠ 6) ∧
    (∃ (s : State) (i : Fin 1152) (flow : BitVec 14) (seq : BitVec 32) (line : BitVec 32), s.Runs ∧ s.c.rd (Vin.transport.nth i).live = 2 ∧ (flow.toNat = s.c.rd (Vpkt.flowA.nth i) ∨ (s.c.on (Vpkt.bEn.nth i) = true ∧ flow.toNat = s.c.rd (Vpkt.flowB.nth i))) ∧ s.c.on (Flowq.fEn.nth flow.toNat).live = true ∧ s.c.rd (Flowq.fUse.nth flow.toNat).live = s.c.rd (Vpkt.pkind.nth i) ∧ (s.c.merge i).released ≤ line.toNat ∧ (s.c.merge i).pkts.all (fun p => p.seq ≠ s.c.packetSeq i seq.toNat) = true) ∧
    (∃ (s : State) (i : Fin 1152) (flow : BitVec 14) (line : BitVec 32), s.Runs ∧ s.c.rd (Vin.transport.nth i).live = 2 ∧ (flow.toNat = s.c.rd (Vpkt.flowA.nth i) ∨ (s.c.on (Vpkt.bEn.nth i) = true ∧ flow.toNat = s.c.rd (Vpkt.flowB.nth i))) ∧ s.c.on (Flowq.fEn.nth flow.toNat).live = true ∧ s.c.rd (Flowq.fUse.nth flow.toNat).live = s.c.rd (Vpkt.pkind.nth i) ∧ line.toNat < (s.c.merge i).released) ∧
    (∃ (s : State) (i : Fin 1152), s.Runs ∧ s.c.rd (Vin.transport.nth i).live = 2) ∧
    (∃ (s : State) (i : Fin 1152), s.Runs ∧ s.c.inputSt i = InSt.timed) :=
  ⟨⟨(stx [] (fun c => (c.wr (Vin.transport.nth 7).live 1).updInput 7 (fun x => { x with st := 3, noEav := 2 }))), (7), ({ line := 5, f2 := false, eav := false, words := [], streams := [], edh := none, pid := none, anc := [], audio := [], eps := none, meas := none }), by decide⟩,
   ⟨(stx [((Vin.transport.nth 7).live, 1)] (fun c => c.updInput 7 (fun x => { x with st := 1, noEav := 2 }))), (7), ({ line := 5, f2 := false, eav := true, words := [some 1, some 2], streams := [], edh := none, pid := none, anc := [], audio := [], eps := none, meas := none }), by decide⟩,
   ⟨(st [((Vin.transport.nth 7).live, 2), (Vpkt.flowA.nth 7, 9), ((Flowq.fEn.nth 9).live, 1)]), (7), (9), (3), (4), by decide⟩,
   ⟨(stx [((Vin.transport.nth 7).live, 2), (Vpkt.bEn.nth 7, 1), (Vpkt.flowB.nth 7, 9), ((Flowq.fEn.nth 9).live, 1)] (fun c => c.updMerge 7 (fun m => { m with released := 5 }))), (7), (9), (4), by decide⟩,
   ⟨(stx [((Vin.transport.nth 7).live, 2), ((Vin.fmt.nth 7).live, 0x45)] (fun c => c.updMerge 7 (fun m => { m with released := 5, pkts := [⟨1,5,0,[1,2],true,false⟩, ⟨2,6,0,[1,2],true,false⟩] }))), (7), by decide⟩,
   ⟨(stx [(Vin.eps.nth 7, 0x3FFFF00)] (fun c => c.updInput 7 (fun x => { x with st := 3 }))), (7), by decide⟩⟩

/-- States and operands that meet the hypotheses of each clause of `Synchronisers`. -/
theorem witness_Synchronisers :
    (∃ (s : State) (n : Fin 256), s.Runs ∧ s.c.isStandby = false ∧ s.c.mirrors = false ∧ s.c.rd (Fsync.input.nth n) ≠ 0x7FF ∧ s.c.on (Fsync.locked.nth n) = false ∧ s.c.on (Vin.bond.nth (s.c.rd (Fsync.input.nth n) - s.c.rd (Fsync.input.nth n) % 4)).live = false ∧ s.c.on (Vin.bond.nth (s.c.rd (Fsync.input.nth n))).live = false ∧ (s.c.input (s.c.rd (Fsync.input.nth n))).sync = some n.val ∧ (s.c.sync n).lost = false ∧ s.c.rd Fsync.guard ≤ (s.c.sync n).since ∧ (s.c.sync n).readFrame < (s.c.sync n).newest ∧ ((s.c.sync n).readFrame = 0 ∨ (s.c.sync n).newest ≤ (s.c.sync n).readFrame + 2)) ∧
    (∃ (s : State) (n : Fin 256), s.Runs ∧ s.c.isStandby = false ∧ s.c.mirrors = false ∧ s.c.rd (Fsync.input.nth n) ≠ 0x7FF ∧ s.c.on (Fsync.locked.nth n) = false ∧ s.c.on (Vin.bond.nth (s.c.rd (Fsync.input.nth n) - s.c.rd (Fsync.input.nth n) % 4)).live = false ∧ s.c.on (Vin.bond.nth (s.c.rd (Fsync.input.nth n))).live = false ∧ (s.c.input (s.c.rd (Fsync.input.nth n))).sync = some n.val ∧ (s.c.sync n).lost = false ∧ s.c.rd Fsync.guard ≤ (s.c.sync n).since ∧ (s.c.sync n).readFrame = (s.c.sync n).newest ∧ 0 < (s.c.sync n).newest) ∧
    (∃ (s : State) (n : Fin 256), s.Runs ∧ s.c.rd (Fsync.input.nth n) ≠ 0x7FF ∧ s.c.on (Fsync.locked.nth n) = false ∧ s.c.on (Vin.bond.nth (s.c.rd (Fsync.input.nth n) - s.c.rd (Fsync.input.nth n) % 4)).live = false ∧ (s.c.sync n).lost = true) ∧
    (∃ (s : State) (n : Fin 256) (word : BitVec 32) (ecc : MemRead) (pos : Nat) (l : BankLine), s.Runs ∧ (ecc.syn = 0 ∨ oneBit ecc.syn.toNat = true) ∧ s.c.isPoisoned (n.val / 128) 0 word.toNat = false ∧ s.c.rd (Fsync.input.nth n) ≠ 0x7FF ∧ s.c.on (Fsync.locked.nth n) = true ∧ (s.c.sync n).lost = false ∧ s.c.lockedPos n (s.c.rd (Fsync.input.nth n)) = some pos ∧ ((s.c.sync n).ring.find? (fun l => l.1 = pos)).map Prod.snd = some l) ∧
    (∃ (s : State) (n : Fin 256) (pos : Nat), s.Runs ∧ s.c.rd (Fsync.input.nth n) ≠ 0x7FF ∧ s.c.on (Fsync.locked.nth n) = true ∧ (s.c.sync n).lost = false ∧ s.c.lockedPos n (s.c.rd (Fsync.input.nth n)) = some pos) ∧
    (∃ (s : State) (n : Fin 256), s.Runs ∧ s.c.rd (Fsync.input.nth n) ≠ 0x7FF ∧ s.c.on (Fsync.locked.nth n) = false) ∧
    (∃ (s : State) (n : Fin 256), s.Runs ∧ (s.c.sync n).lost = true ∧ s.c.rd (Fsync.lossAct.nth n) = 0 ∧ s.c.rd (Fsync.freezeFr.nth n) ≠ 0) :=
  ⟨⟨(stx [(Fsync.input.nth 2, 7)] (fun c => (c.updInput 7 (fun x => { x with st := 5, sync := some 2 })).updSync 2 (fun y => { y with newest := 9, since := 4, readFrame := 7 }))), (2), by decide⟩,
   ⟨(stx [(Fsync.input.nth 2, 7)] (fun c => (c.updInput 7 (fun x => { x with st := 5, sync := some 2 })).updSync 2 (fun y => { y with newest := 9, since := 4, readFrame := 9 }))), (2), by decide⟩,
   ⟨(stx [(Fsync.input.nth 2, 7), (Fsync.freezeFr.nth 2, 3)] (fun c => c.updSync 2 (fun y => { y with lost := true, frozen := 3 }))), (2), by decide⟩,
   ⟨(stx [(Fsync.input.nth 2, 7), (Fsync.locked.nth 2, 1)] (fun c => c.updSync 2 (fun y => { y with readPos := some 3, ring := [(3, ⟨4, false, [1]⟩)] }))), (2), (9), (⟨0, 0⟩), (3), (⟨4, false, [1]⟩), by decide⟩,
   ⟨(stx [(Fsync.input.nth 2, 7), (Fsync.locked.nth 2, 1)] (fun c => c.updSync 2 (fun y => { y with readPos := some 3, ring := [(3, ⟨4, false, [1]⟩)] }))), (2), (3), by decide⟩,
   ⟨(stx [(Fsync.input.nth 2, 7)] (fun c => c.updSync 2 (fun y => { y with readFrame := 3, reading := [⟨4, false, [1]⟩, ⟨5, false, [2]⟩] }))), (2), by decide⟩,
   ⟨(stx [(Fsync.freezeFr.nth 2, 3)] (fun c => c.updSync 2 (fun y => { y with lost := true }))), (2), by decide⟩⟩

/-- States and operands that meet the hypotheses of each clause of `OutputBinding`. -/
theorem witness_OutputBinding :
    (∃ (s : State) (o : Fin 1152) (m : Master) (w0 : BitVec 32) (w1 : BitVec 32), s.Allows m 1 xptPage (4 * o) 0 true ∧ ((s.c.putRw xptPage 1 (4 * o) w0.toNat allBits).putRw xptPage 1 (4 * o + 1) w1.toNat allBits).outRejected o = false) ∧
    (∃ (s : State) (o : Fin 1152) (m : Master) (w0 : BitVec 32) (w1 : BitVec 32), s.Allows m 1 xptPage (4 * o) 0 true ∧ ((s.c.putRw xptPage 1 (4 * o) w0.toNat allBits).putRw xptPage 1 (4 * o + 1) w1.toNat allBits).outRejected o = true) ∧
    (∃ (s : State) (o : Fin 1152), s.Runs ∧ s.c.xpt.waiting.contains o.val = true) :=
  ⟨⟨(st []), (7), (.host), (0x108009), (0x305), by decide⟩,
   ⟨(st []), (7), (.host), (3), (0x305), by decide⟩,
   ⟨(stx [(Xpt.transport.nth 7, 1), (Xpt.ssid.nth 7, 2)] (fun c => c.updXpt (fun x => { x with waiting := [3, 7], bound := [7, 8] }))), (7), by decide⟩⟩

/-- States and operands that meet the hypotheses of each clause of `SalvoTakes`. -/
theorem witness_SalvoTakes :
    (∃ (s : State) (k : Fin 2) (m : Master), s.Allows m 0 xptPage (0x50 + 4 * k) 13 true ∧ s.c.on (Xpt.takeGo.nth k) = false) ∧
    (∃ (s : State) (k : Fin 2) (near : Bool), s.Runs ∧ s.c.isStandby = false ∧ s.c.mirrors = false ∧ s.c.xpt.validating.head? = some k.val ∧ s.c.xpt.own.any (fun v => v.table = k.val) = false ∧ (s.c.salvoVerdict k near).reason = 0) ∧
    (∃ (s : State) (k : Fin 2) (near : Bool), s.Runs ∧ s.c.isStandby = false ∧ s.c.mirrors = false ∧ s.c.xpt.validating.head? = some k.val ∧ s.c.xpt.own.any (fun v => v.table = k.val) = false ∧ (s.c.salvoVerdict k near).reason ≠ 0) ∧
    (∃ (s : State) (k : Fin 2) (m : Master), s.Allows m 0 xptPage (0x50 + 4 * k) 14 true ∧ s.c.rd (Xpt.takeCode.nth k) = 1) :=
  ⟨⟨(st [(Xpt.takeCode.nth 1, 4)]), (1), (.host), by decide⟩,
   ⟨(stx [(Xpt.takeLen.nth 1, 1), (Xpt.takeCode.nth 1, 1), (Xpt.salvoDest.nth 4096, 5), (Xpt.salvoSrc.nth 4096, 9)] (fun c => c.updXpt (fun x => { x with validating := [1, 0] }))), (1), (true), by decide⟩,
   ⟨(stx [(Xpt.takeLen.nth 1, 0), (Xpt.takeCode.nth 1, 1)] (fun c => c.updXpt (fun x => { x with validating := [1, 0] }))), (1), (true), by decide⟩,
   ⟨(stx [(Xpt.takeCode.nth 1, 1), (Xpt.pend, 3), (Xpt.takeGo.nth 1, 1)] (fun c => c.updXpt (fun x => { x with validating := [1, 0] }))), (1), (.host), by decide⟩⟩

/-- States and operands that meet the hypotheses of each clause of `SalvoLanding`. -/
theorem witness_SalvoLanding :
    (∃ (s : State) (k : Fin 2) (e : SalvoEntry), s.Runs ∧ s.c.xpt.cutDone = false ∧ s.c.xpt.armed = [⟨k, (s.c.rd Xpt.frame + 1) % 2 ^ 32, [e]⟩] ∧ e.dest < 1664 ∧ s.c.skipped e = false ∧ s.c.outBonded e.dest = false ∧ s.c.adopts e.dest e.src = false) ∧
    (∃ (s : State), s.Runs) ∧
    (∃ (s : State) (d : Fin 1664) (k : Fin 2) (l : Landing) (line : BitVec 12), s.Runs ∧ s.c.xpt.landing = [l] ∧ l.dest = d.val ∧ l.table = k.val ∧ frameDiff l.frame (s.c.rd Xpt.frame) ≤ 0 ∧ s.c.rd (Xpt.takeCode.nth k) = 3 ∧ s.c.xpt.gap = [] ∧ (s.c.destFmt d = 0xFF ∨ line.toNat = switchLine s.c.xpt.swline1 (s.c.destFmt d))) ∧
    (∃ (s : State) (d : Fin 1664), s.Runs ∧ s.c.rd (Xpt.airSrc.nth d) ≠ s.c.rd (Xpt.reqSrc.nth d) ∧ s.c.xpt.landing = [] ∧ s.c.xpt.gap = []) :=
  ⟨⟨(stx [(Xpt.frame, 0xFFFFFFFF), (Xpt.takeCode.nth 1, 2)] (fun c => c.updXpt (fun x => { x with armed := [⟨1, 0, [⟨5, 9, 1, true⟩]⟩] }))), (1), (⟨5, 9, 1, true⟩), by decide⟩,
   ⟨(stx [(Xpt.frame, 0xFFFFFFFF)] (fun c => c.updXpt (fun x => { x with newRate := [(5, 0xFFFFFFFF), (3, 0)] }))), by decide⟩,
   ⟨(stx [(Xpt.frame, 3), (Xpt.takeCode.nth 1, 3)] (fun c => c.updXpt (fun x => { x with landing := [⟨1, 5, 9, 2, 3⟩] }))), (5), (1), (⟨1, 5, 9, 2, 3⟩), (9), by decide⟩,
   ⟨(st [(Xpt.reqSrc.nth 5, 3)]), (5), by decide⟩⟩

/-- States and operands that meet the hypotheses of each clause of `OutputFrames`. -/
theorem witness_OutputFrames :
    (∃ (s : State) (o : Fin 1152), s.Runs ∧ s.c.xpt.gap.any (fun a => a.out = o.val) = false) ∧
    (∃ (s : State) (o : Fin 1152), s.Runs ∧ s.c.inGap o = false ∧ s.c.xpt.gap.any (fun a => a.out = o.val && decide (0 ≤ frameDiff (s.c.rd Xpt.frame) a.frame)) = true) ∧
    (∃ (s : State) (o : Fin 1152) (a : Adoption), s.Runs ∧ Store.get none s.c.sch.mapWaits o = none ∧ s.c.xpt.gap.filter (fun b => b.out = o.val) = [a] ∧ a.stopped = true ∧ 0 ≤ frameDiff (s.c.rd Xpt.frame) ((a.frame + 1) % 2 ^ 32)) ∧
    (∃ (s : State) (o : Fin 1152), s.Runs ∧ s.c.outSt o = 1 ∧ s.c.inGap o = false ∧ s.c.isHeld (0, o.val) = true) ∧
    (∃ (s : State) (o : Fin 1152), s.Runs ∧ s.c.outSt o = 1 ∧ s.c.inGap o = false ∧ s.c.isHeld (0, o.val) = false) ∧
    (∃ (s : State) (o : Fin 1152), s.Runs ∧ s.c.outSt o = 1 ∧ s.c.inGap o = false ∧ s.c.isHeld (0, o.val) = false ∧ s.c.onAir o (s.c.rd (Xpt.airSrc.nth o)) = false) ∧
    (∃ (s : State) (o : Fin 1152) (line : BitVec 12) (f2 : Bool) (word : BitVec 32) (ecc : MemRead) (ws : List Nat), s.Runs ∧ s.c.outSt o = 1 ∧ s.c.inGap o = false ∧ s.c.isHeld (0, o.val) = false ∧ s.c.onAir o (s.c.rd (Xpt.airSrc.nth o)) = true ∧ s.c.sourceLine (s.c.rd (Xpt.airSrc.nth o)) line.toNat f2 = some ws ∧ (ecc.syn.toNat % 256 = 0 ∨ oneBit (ecc.syn.toNat % 256) = true) ∧ s.c.isPoisoned 5 (s.c.rd (Xpt.airSrc.nth o)) word.toNat = false) ∧
    (∃ (s : State) (o : Fin 1152) (ecc : MemRead), s.Runs ∧ s.c.outSt o = 1 ∧ s.c.inGap o = false ∧ s.c.isHeld (0, o.val) = false ∧ s.c.onAir o (s.c.rd (Xpt.airSrc.nth o)) = true ∧ ecc.syn.toNat % 256 ≠ 0 ∧ oneBit (ecc.syn.toNat % 256) = false) :=
  ⟨⟨(stx [] (fun c => { c with outs := [(7, { lines := [⟨1, false, [4]⟩] })] })), (7), by decide⟩,
   ⟨(stx [((Xpt.transport.nth 7).live, 1), (Xpt.airFmt.nth 7, 0x42), (Xpt.fset.nth 7, 0xFFFF4542), (Xpt.frame, 0)] (fun c => c.updXpt (fun x => { x with gap := [⟨7, some 1, 9, 1, 0x45, 0xFFFFFFFF, false⟩, ⟨8, none, 9, 1, 0x45, 0, false⟩] }))), (7), by decide⟩,
   ⟨(stx [((Xpt.transport.nth 7).live, 1), (Xpt.airFmt.nth 7, 0x42), (Xpt.fset.nth 7, 0xFFFF4542), (Xpt.frame, 0), (Vin.mfmt.nth 9, 0x45)] (fun c => (c.updInput 9 (fun x => { x with st := 3 })).updXpt (fun x => { x with gap := [⟨7, some 1, 9, 1, 0x45, 0xFFFFFFFF, true⟩, ⟨8, none, 9, 1, 0x45, 0, false⟩] }))), (7), (⟨7, some 1, 9, 1, 0x45, 0xFFFFFFFF, true⟩), by decide⟩,
   ⟨(stx [((Xpt.transport.nth 7).live, 1), ((Xpt.fmt.nth 7).live, 0x42), (Xpt.airFmt.nth 7, 0x42), (Xpt.fset.nth 7, 0xFFFFFF42), (Xpt.airAmode.nth 7, 1)] (fun c => { c with outs := [(7, { complete := [⟨5, false, [4, 5]⟩] })], fcu := { c.fcu with holds := [{ kind := 0, item := 7, src := 0, page := 0, inst := 0, frames := 1 }] } })), (7), by decide⟩,
   ⟨(stx [((Xpt.transport.nth 7).live, 1), ((Xpt.fmt.nth 7).live, 0x42), (Xpt.airFmt.nth 7, 0x42), (Xpt.fset.nth 7, 0xFFFFFF42)] (fun c => { c with outs := [(7, { last := some ⟨4, false, [4, 5]⟩ })] })), (7), by decide⟩,
   ⟨(stx [((Xpt.transport.nth 7).live, 1), ((Xpt.fmt.nth 7).live, 0x42), (Xpt.airFmt.nth 7, 0x42), (Xpt.fset.nth 7, 0xFFFFFF42)] (fun c => { c with outs := [(7, { last := some ⟨4, false, [4, 5]⟩ })] })), (7), by decide⟩,
   ⟨(stx [((Xpt.transport.nth 7).live, 1), ((Xpt.fmt.nth 7).live, 0x42), (Xpt.airFmt.nth 7, 0x42), (Xpt.fset.nth 7, 0xFFFFFF42), (Xpt.airSrc.nth 7, 9), (Vin.mfmt.nth 9, 0x42)] (fun c => { c.updInput 9 (fun x => { x with st := 3 }) with banks := [(9, { lines := [⟨5, false, [4, 5]⟩] })] })), (7), (5), (false), (3), (⟨0, 0⟩), ([4, 5]), by decide⟩,
   ⟨(stx [((Xpt.transport.nth 7).live, 1), ((Xpt.fmt.nth 7).live, 0x42), (Xpt.airFmt.nth 7, 0x42), (Xpt.fset.nth 7, 0xFFFFFF42), (Xpt.airSrc.nth 7, 9), (Vin.mfmt.nth 9, 0x42)] (fun c => { c.updInput 9 (fun x => { x with st := 3 }) with banks := [(9, { lines := [⟨5, false, [4, 5]⟩] })], outs := [(7, { last := some ⟨4, false, [4, 6]⟩ })] })), (7), (⟨3, 0⟩), by decide⟩⟩

/-- States and operands that meet the hypotheses of each clause of `CommitValidation`. -/
theorem witness_CommitValidation :
    (∃ (s : State) (n : Fin 64) (m : Master), s.Allows m 0 (cmpPage n) 0x58 0 true ∧ s.c.on (Cmp.go.on n) = false) ∧
    (∃ (s : State) (n : Fin 64), s.Runs ∧ s.c.rd (Cmp.code.on n) = 1 ∧ (s.c.validateCommit n).1 = 0) ∧
    (∃ (s : State) (n : Fin 64), s.Runs ∧ s.c.rd (Cmp.code.on n) = 1 ∧ (s.c.validateCommit n).1 ≠ 0) ∧
    (∃ (s : State) (n : Fin 64) (m : Master) (g : Fin 16), s.Allows m 0 (cmpPage n) (0x200 + 4 * g) 0 true ∧ g ≠ 0) ∧
    (∃ (s : State) (n : Fin 64) (m : Master), s.Allows m 0 (cmpPage n) 0x58 1 true ∧ s.c.rd (Cmp.code.on n) = 2 ∧ (s.c.comp n).group = 0 ∧ (s.c.comp n).flip = none) ∧
    (∃ (s : State) (n : Fin 64) (m : Master) (g : Fin 16), s.Allows m 0 (cmpPage n) (0x200 + 4 * g) 1 true ∧ g ≠ 0 ∧ s.c.rd (Cmp.gCode.nth g) ≠ 4 ∧ s.c.on (Cmp.gSeal.nth g) = true ∧ (s.c.cgrp g).decided = false) :=
  ⟨⟨(st [(Cmp.outFmt.on 5, 0x42), (lyr Cmp.lX 5 7, 9), (Cmp.code.on 5, 7)]), (5), (.host), by decide⟩,
   ⟨(st [(Cmp.code.on 5, 1), (Cmp.nLayers.on 5, 2), (Cmp.fset.on 5, 0xFFFF42), ((Cmp.outFmt.on 5).pend, 0x42)]), (5), by decide⟩,
   ⟨(st [(Cmp.code.on 5, 1), (Cmp.nLayers.on 5, 0), (Cmp.fset.on 5, 0xFFFF42), ((Cmp.outFmt.on 5).pend, 0x42)]), (5), by decide⟩,
   ⟨(st [(Cmp.gCode.nth 3, 4)]), (5), (.host), (3), by decide⟩,
   ⟨(stx [(Cmp.code.on 5, 2)] (fun c => c.updComp 5 (fun x => { x with unitsPend := 5 }))), (5), (.host), by decide⟩,
   ⟨(stx [(Cmp.gSeal.nth 3, 1), (Cmp.code.on 5, 2), (Cmp.code.on 15, 2)] (fun c => c.updCgrp 3 (fun x => { x with members := [5, 15] }))), (5), (.host), (3), by decide⟩⟩

/-- States and operands that meet the hypotheses of each clause of `CommitFlips`. -/
theorem witness_CommitFlips :
    (∃ (s : State) (n : Fin 64), s.Runs ∧ s.c.isStandby = false ∧ s.c.mirrors = false ∧ s.c.enabled (cmpPage n) = true ∧ s.c.decisionDue n = true ∧ (s.c.comp n).group = 0 ∧ s.c.rd (Cmp.code.on n) = 2 ∧ s.c.cmpDecided n = false ∧ s.c.fenceOk n = true) ∧
    (∃ (s : State) (n : Fin 64), s.Runs ∧ s.c.enabled (cmpPage n) = true ∧ s.c.decisionDue n = true ∧ (s.c.comp n).group = 0 ∧ s.c.rd (Cmp.code.on n) = 2 ∧ s.c.cmpDecided n = false ∧ s.c.fenceOk n = false) ∧
    (∃ (s : State) (n : Fin 64), s.Runs ∧ s.c.isStandby = false ∧ s.c.mirrors = false ∧ s.c.rd (Cmp.code.on n) = 2 ∧ (s.c.comp n).group = 0 ∧ s.c.rd (Cmp.timeout.on n) ≠ 0 ∧ s.c.rd (Cmp.waited.on n) = s.c.rd (Cmp.timeout.on n) ∧ s.c.cmpDecided n = false ∧ s.c.fenceOk n = false) ∧
    (∃ (s : State) (n : Fin 64) (k : Nat), s.Runs ∧ s.c.enabled (cmpPage n) = true ∧ s.c.rd (Cmp.carryFmt.on n) ≠ 0xFF ∧ s.c.mirrors = false ∧ (s.c.comp n).flip = some k ∧ frameDiff k ((s.c.rd (Cmp.picture.on n) + 1) % 2 ^ 32) ≤ 0) ∧
    (∃ (s : State) (n : Fin 64), s.Runs ∧ s.c.enabled (cmpPage n) = true ∧ s.c.rd (Cmp.carryFmt.on n) ≠ 0xFF ∧ s.c.mirrors = false ∧ (s.c.comp n).flip = none ∧ (s.c.comp n).newFmt = none) ∧
    (∃ (s : State) (n : Fin 64), s.Runs ∧ s.c.rd (Cmp.carryFmt.on n) ≠ 0xFF ∧ (s.c.comp n).line ≤ totalLines (s.c.rd (Cmp.carryFmt.on n)) ∧ s.c.readsPoison n (s.c.rd (Cmp.carryFmt.on n)) (s.c.comp n).line = false) ∧
    (∃ (s : State) (n : Fin 64) (l : BankLine), s.Runs ∧ s.c.rd (Cmp.carryFmt.on n) ≠ 0xFF ∧ (s.c.comp n).line ≤ totalLines (s.c.rd (Cmp.carryFmt.on n)) ∧ (s.c.bank (1152 + n)).lines.find? (fun l => l.f2 = (s.c.comp n).f2) = some l) :=
  ⟨⟨(stx [(Cmp.code.on 5, 2), (Cmp.picture.on 5, 7), (Cmp.carryFmt.on 5, 0x42)] (fun c => (en 0x85 c).updComp 5 (fun x => { x with kDue := [{ at_ := some 6 }, { vis := true }] }))), (5), by decide⟩,
   ⟨(stx [(Cmp.code.on 5, 2), (Cmp.picture.on 5, 7), (Cmp.fenceEn.on 5, 1), (Cmp.target.on 5, 3)] (en 0x85)), (5), by decide⟩,
   ⟨(st [(Cmp.code.on 5, 2), (Cmp.fenceEn.on 5, 1), (Cmp.target.on 5, 3), (Cmp.timeout.on 5, 3), (Cmp.waited.on 5, 3), (Cmp.toAct.on 5, 2)]), (5), by decide⟩,
   ⟨(stx [(Cmp.code.on 5, 2), (Cmp.picture.on 5, 7), (Cmp.carryFmt.on 5, 0x42), (Cmp.nLayers.on 5, 2), ((Cmp.outFmt.on 5).pend, 0x42), ((lyr Cmp.lX 5 3).pend, 7)] (fun c => (en 0x85 c).updComp 5 (fun x => { x with flip := some 8 }))), (5), (8), by decide⟩,
   ⟨(stx [(Cmp.picture.on 5, 0xFFFFFFFF), (Cmp.carryFmt.on 5, 0x42), ((Cmp.outFmt.on 5).live, 0x42)] (en 0x85)), (5), by decide⟩,
   ⟨(st [(Cmp.carryFmt.on 5, 0x06)]), (5), by decide⟩,
   ⟨(stx [(Cmp.carryFmt.on 5, 0x06)] (fun c => { c with banks := [(1157, { lines := [⟨1, false, [5]⟩] })] })), (5), (⟨1, false, [5]⟩), by decide⟩⟩

/-- States and operands that meet the hypotheses of each clause of `KeeperCommands`. -/
theorem witness_KeeperCommands :
    (∃ (s : State) (n : BitVec 16) (a0 : BitVec 32) (a1 : BitVec 32) (a2 : BitVec 32) (a3 : BitVec 32), s.Runs ∧ n.toNat < 64 ∧ s.c.keeperRefusal n.toNat (s.c.keeperArgs a0.toNat a1.toNat a2.toNat a3.toNat) = 0 ∧ bit a2.toNat 11 = false) ∧
    (∃ (s : State) (n : Fin 64) (k : KeeperNew), s.Runs ∧ s.c.isStandby = false ∧ s.c.mirrors = false ∧ (s.c.comp n).kLoad = some k ∧ some (imageCrc (copySurface s.mem (1 + s.c.rd (Cmp.sStack.nth k.surf)) (s.c.rd (Cmp.sBase.nth k.surf) * 65536) (s.c.rd (Cmp.sStride.nth k.surf)) (k.base * 65536) k.w k.h) k.base k.w k.h) = k.crc) ∧
    (∃ (s : State) (n : BitVec 16), s.Runs ∧ s.c.isStandby = false ∧ s.c.mirrors = false ∧ n.toNat < 64 ∧ s.c.rd (Cmp.nLayers.on n.toNat) ≠ 0 ∧ s.c.rd (Cmp.outFmt.on n.toNat).live ≠ 0xFF ∧ s.c.keeperOn n.toNat = true) ∧
    (∃ (s : State) (n : BitVec 16), s.Runs ∧ s.c.isStandby = false ∧ s.c.mirrors = false ∧ n.toNat < 64 ∧ s.c.rd (Cmp.nLayers.on n.toNat) ≠ 0 ∧ s.c.rd (Cmp.outFmt.on n.toNat).live ≠ 0xFF ∧ s.c.keeperOn n.toNat = true) ∧
    (∃ (s : State) (n : BitVec 16), s.Runs ∧ 64 ≤ n.toNat) ∧
    (∃ (s : State), s.Runs) :=
  ⟨⟨(st [(Cmp.nLayers.on 5, 2), ((Cmp.outFmt.on 5).live, 0x42), (Cmp.sValid.nth 9, 1), (Cmp.sWidth.nth 9, 2), (Cmp.sHeight.nth 9, 1), (Cmp.sStride.nth 9, 64)]), (5), (9), (0x20004), (0x4FF), (7), by decide⟩,
   ⟨(stx [(Cmp.sStride.nth 9, 64)] (fun c => c.updComp 5 (fun x => { x with kLoad := some { w := 2, h := 1, units := 1, surf := 9, crc := some 1364005937 } }))), (5), ({ w := 2, h := 1, units := 1, surf := 9, crc := some 1364005937 }), by decide +kernel⟩,
   ⟨(st [(Cmp.nLayers.on 5, 2), ((Cmp.outFmt.on 5).live, 0x42), (Cmp.kEn.on 5, 1)]), (5), by decide⟩,
   ⟨(st [(Cmp.nLayers.on 5, 2), ((Cmp.outFmt.on 5).live, 0x42), (Cmp.kEn.on 5, 1)]), (5), by decide⟩,
   ⟨(st []), (64), by decide⟩,
   ⟨(st [(Cmp.kEn.on 5, 1), (Cmp.kW.on 5, 2), (Cmp.kH.on 5, 1)]), by decide⟩⟩

/-- States and operands that meet the hypotheses of each clause of `AudioPeriods`. -/
theorem witness_AudioPeriods :
    (∃ (s : State), s.Runs) ∧
    (∃ (s : State), s.Runs ∧ s.c.ticking = true ∧ s.c.amc % s.c.periodLen = 0 ∧ (s.c.aud.isOpen = true → s.c.aud.m ≠ s.c.amc) ∧ (s.c.aud.isOpen = true ∨ s.c.enabled schedPage = true)) ∧
    (∃ (s : State), s.Runs ∧ s.c.aud.isOpen = true ∧ s.c.aud.closed ≠ some s.c.aud.m) :=
  ⟨⟨(stx [] (fun c => { c with amc := 0xFFFFFFFF })), by decide⟩,
   ⟨(stx [] (fun c => { (en 0x120 c) with amc := 32 })), by decide⟩,
   ⟨(stx [((Amap.intake.nth 5).live, 1)] (fun c => c.updAud (fun a => { a with isOpen := true, m := 32, late := [(0xD4, 5, 3)] }))), by decide⟩⟩

/-- States and operands that meet the hypotheses of each clause of `SerialPortStates`. -/
theorem witness_SerialPortStates :
    (∃ (s : State) (p : Fin 16), s.Runs ∧ s.c.rd (Sap.state.on p) = 1) ∧
    (∃ (s : State) (p : Fin 16) (rate : BitVec 14), s.Runs ∧ s.c.rd (Sap.state.on p) = 2 ∧ s.c.sapRateOk p rate.toNat = true) ∧
    (∃ (s : State) (p : Fin 16), s.Runs ∧ s.c.rd (Sap.state.on p) = 3) ∧
    (∃ (s : State) (p : Fin 16), s.Runs ∧ (s.c.rd (Sap.mode.on p) = 3 ∨ s.c.rd (Sap.mode.on p) = 4) ∧ (s.c.rd (Sap.state.on p) = 2 ∨ s.c.rd (Sap.state.on p) = 3)) ∧
    (∃ (s : State) (p : Fin 16) (m : Master), s.Allows m 0 (sapPage p) 0x4C 0 true) ∧
    (∃ (s : State) (p : Fin 16), s.Runs ∧ s.c.on (Sap.maskGo.on p) = true ∧ s.c.rd (Sap.state.on p) ≠ 3) ∧
    (∃ (s : State) (p : Fin 16), s.Runs ∧ s.c.on (Sap.maskGo.on p) = true ∧ s.c.rd (Sap.state.on p) = 3 ∧ 4 ≤ (s.c.sapx p).maskRun.getD 0 ∧ (if s.c.on (Sap.async.on p) then (s.c.sapx p).frames else (s.c.sapx p).next) % s.c.periodLen = 0) :=
  ⟨⟨(st [(Sap.state.on 3, 1)]), (3), by decide⟩,
   ⟨(st [(Sap.state.on 3, 2), (Sap.master.on 3, 0), (Sap.mode.on 3, 1)]), (3), (480), by decide⟩,
   ⟨(st [(Sap.state.on 3, 3)]), (3), by decide⟩,
   ⟨(st [(Sap.state.on 3, 3), (Sap.mode.on 3, 4)]), (3), by decide⟩,
   ⟨(st [((Sap.rxMask.nth 1).on 3, 9)]), (3), (.host), by decide⟩,
   ⟨(st [(((Sap.rxMask.nth 1).on 3).pend, 9), (Sap.maskGo.on 3, 1)]), (3), by decide⟩,
   ⟨(stx [(((Sap.rxMask.nth 1).on 3).pend, 9), (((Sap.txMask.nth 1).on 3).pend, 9), (Sap.maskGo.on 3, 1), (Sap.state.on 3, 3)] (fun c => c.updSap 3 (fun x => { x with maskRun := some 4, next := 16 }))), (3), by decide⟩⟩

/-- States and operands that meet the hypotheses of each clause of `SerialPortFrames`. -/
theorem witness_SerialPortFrames :
    (∃ (s : State) (p : Fin 16) (f : SapFrame), s.Runs ∧ s.c.rd (Sap.state.on p) = 3 ∧ f.spacing = true ∧ s.c.on (Sap.async.on p) = false ∧ (¬ ((s.c.rd (Sap.mode.on p) = 1 ∨ s.c.rd (Sap.mode.on p) = 2) ∧ s.c.on (Sap.master.on p) = true)) ∧ -128 ≤ framePhi (s.c.sapx p).next f.edge.toNat f.frac.toNat ∧ framePhi (s.c.sapx p).next f.edge.toNat f.frac.toNat ≤ 2048) ∧
    (∃ (s : State) (p : Fin 16) (f : SapFrame), s.Runs ∧ s.c.rd (Sap.state.on p) = 3 ∧ f.spacing = true ∧ s.c.on (Sap.async.on p) = false ∧ ((s.c.rd (Sap.mode.on p) = 1 ∨ s.c.rd (Sap.mode.on p) = 2) ∧ s.c.on (Sap.master.on p) = true)) ∧
    (∃ (s : State) (p : Fin 16) (f : SapFrame), s.Runs ∧ s.c.rd (Sap.state.on p) = 3 ∧ f.spacing = true ∧ s.c.on (Sap.async.on p) = false ∧ (¬ ((s.c.rd (Sap.mode.on p) = 1 ∨ s.c.rd (Sap.mode.on p) = 2) ∧ s.c.on (Sap.master.on p) = true)) ∧ (framePhi (s.c.sapx p).next f.edge.toNat f.frac.toNat < -128 ∨ 2048 < framePhi (s.c.sapx p).next f.edge.toNat f.frac.toNat)) ∧
    (∃ (s : State) (p : Fin 16) (f : SapFrame), s.Runs ∧ s.c.rd (Sap.state.on p) = 3 ∧ f.spacing = true ∧ s.c.on (Sap.async.on p) = false ∧ (¬ ((s.c.rd (Sap.mode.on p) = 1 ∨ s.c.rd (Sap.mode.on p) = 2) ∧ s.c.on (Sap.master.on p) = true)) ∧ framePhi (s.c.sapx p).next f.edge.toNat f.frac.toNat = 0 ∧ (s.c.sapx p).txDue = true ∧ stampAdd (s.c.sapx p).next (-1) % s.c.periodLen = 0) :=
  ⟨⟨(stx [(Sap.state.on 3, 3), (Sap.mode.on 3, 2), (Sap.master.on 3, 0)] (fun c => c.updSap 3 (fun x => { x with next := 16 }))), (3), (⟨16, 30, true, [⟨0x100, false, false, true⟩, ⟨0x200, false, false, true⟩], true, false⟩), by decide⟩,
   ⟨(stx [(Sap.state.on 3, 3), (Sap.mode.on 3, 2), (Sap.master.on 3, 1)] (fun c => c.updSap 3 (fun x => { x with next := 16 }))), (3), (⟨19, 30, true, [⟨0x100, false, false, true⟩, ⟨0x200, false, false, true⟩], true, false⟩), by decide⟩,
   ⟨(stx [(Sap.state.on 3, 3), (Sap.mode.on 3, 2), (Sap.master.on 3, 0)] (fun c => c.updSap 3 (fun x => { x with next := 16 }))), (3), (⟨18, 30, true, [⟨0x100, false, false, true⟩], true, false⟩), by decide⟩,
   ⟨(stx [(Sap.state.on 3, 3), (Sap.mode.on 3, 2), (Sap.master.on 3, 0), (((Sap.txMask.nth 1).on 3).pend, 9), (Sap.maskGo.on 3, 1)] (fun c => c.updSap 3 (fun x => { x with next := 17, txDue := true }))), (3), (⟨17, 0, true, [⟨0x100, false, false, true⟩], true, false⟩), by decide⟩⟩

/-- States and operands that meet the hypotheses of each clause of `Trackers`. -/
theorem witness_Trackers :
    (∃ (s : State) (k : Fin 64), s.Runs ∧ s.c.rd (Asrc.tState.nth k) = 1 ∧ s.c.isStandby = false ∧ s.c.trkSource k = true) ∧
    (∃ (s : State) (k : Fin 64), s.Runs ∧ s.c.rd (Asrc.tState.nth k) = 1 ∧ (s.c.trkx k).pherr.natAbs ≤ 256) ∧
    (∃ (s : State) (k : Fin 64), s.Runs ∧ s.c.rd (Asrc.tState.nth k) = 2) ∧
    (∃ (s : State) (k : Fin 64), s.Runs ∧ 1 ≤ s.c.rd (Asrc.tState.nth k) ∧ s.c.rd (Asrc.tState.nth k) ≤ 3 ∧ s.c.trkInRange k = false) ∧
    (∃ (s : State) (k : Fin 64), s.Runs ∧ s.c.rd (Asrc.tState.nth k) = 4 ∧ s.c.trkInRange k = true) ∧
    (∃ (s : State) (m : Master), s.Allows m 0 asrcPage 0x40 0 true) :=
  ⟨⟨(st [(Asrc.tState.nth 3, 1), ((Asrc.tKind.nth 3).live, 1), ((Asrc.tInst.nth 3).live, 2), (Sap.async.on 2, 1)]), (3), by decide⟩,
   ⟨(stx [(Asrc.tState.nth 3, 1)] (fun c => c.updTrk 3 (fun x => { x with pherr := -256 }))), (3), by decide⟩,
   ⟨(st [(Asrc.tState.nth 3, 2), (Asrc.nLocked, 1)]), (3), by decide⟩,
   ⟨(st [(Asrc.tState.nth 3, 1)]), (3), by decide⟩,
   ⟨(stx [(Asrc.tState.nth 3, 4), ((Asrc.tRate.nth 3).live, 2)] (fun c => c.updTrk 3 (fun x => { x with ratio := 0x10000000 }))), (3), by decide⟩,
   ⟨(st []), (.host), by decide⟩⟩

/-- States and operands that meet the hypotheses of each clause of `AudioFlowsAndMaps`. -/
theorem witness_AudioFlowsAndMaps :
    (∃ (s : State) (d : Fin 512) (stamp : BitVec 32), s.Runs ∧ s.c.on (Amap.rEn.nth d).live = true ∧ s.c.on (Amap.rBEn.nth d).live = false ∧ s.c.on (Flowq.fEn.nth (s.c.rd (Amap.rFlowA.nth d).live)).live = true ∧ s.c.rd (Flowq.fUse.nth (s.c.rd (Amap.rFlowA.nth d).live)).live = 3 ∧ s.c.on (Amap.rAsync.nth d).live = false ∧ s.c.rd (Amap.rRate.nth d).live ≠ 2 ∧ s.c.rd (Amap.rNch.nth d).live = 1 ∧ s.c.aud.closed = none ∧ stampDiff stamp.toNat s.c.aud.m + 1 + s.c.groupDelay 4 d < 8192 - s.c.periodLen - s.c.groupDelay 4 d) ∧
    (∃ (s : State) (d : Fin 512) (pathB : Bool) (k : AudioPacket), s.Runs ∧ s.c.on (Amap.rEn.nth d).live = true ∧ (pathB = true → s.c.on (Amap.rBEn.nth d).live = true) ∧ s.c.on (Flowq.fEn.nth (s.c.rd (if pathB then Amap.rFlowB.nth d else Amap.rFlowA.nth d).live)).live = true ∧ s.c.rd (Flowq.fUse.nth (s.c.rd (if pathB then Amap.rFlowB.nth d else Amap.rFlowA.nth d).live)).live = 3 ∧ k.left = true) ∧
    (∃ (s : State) (d : Fin 512) (first : Nat), s.Runs ∧ s.c.on (Amap.tEn.nth d).live = true ∧ s.c.rd (Flowq.qKind.nth (s.c.rd (Amap.tQueue.nth d).live)) = 1 ∧ Store.get none s.c.aud.txNext d = some first ∧ 0 ≤ stampDiff s.c.amc ((first + s.c.rd (Amap.tSpp.nth d).live) % 2 ^ 32)) ∧
    (∃ (s : State) (m : Master), s.Allows m 0 amapPage 0x40 0 true ∧ s.c.on Amap.go = false) ∧
    (∃ (s : State), s.Runs ∧ s.c.rd Amap.code = 1 ∧ s.c.validateAmap = none ∧ s.c.ticking = true) ∧
    (∃ (s : State), s.Runs ∧ s.c.rd Amap.code = 1 ∧ s.c.validateAmap = none ∧ s.c.ticking = false) ∧
    (∃ (s : State) (reason : Nat) (index : Nat), s.Runs ∧ s.c.rd Amap.code = 1 ∧ s.c.validateAmap = some (reason, index)) :=
  ⟨⟨(st [((Flowq.fEn.nth 0).live, 1), ((Flowq.fUse.nth 0).live, 3), ((Amap.rEn.nth 3).live, 1), ((Amap.rNch.nth 3).live, 1)]), (3), (20), by decide⟩,
   ⟨(st [((Flowq.fEn.nth 0).live, 1), ((Flowq.fUse.nth 0).live, 3), ((Amap.rEn.nth 3).live, 1), ((Amap.rNch.nth 3).live, 1)]), (3), (false), (⟨1, 2, [], true, false, 0, 0⟩), by decide⟩,
   ⟨(stx [((Amap.tEn.nth 3).live, 1), ((Amap.tNch.nth 3).live, 1), ((Amap.tSpp.nth 3).live, 2), (Flowq.qKind.nth 0, 1)] (fun c => { c with amc := 50, aud := { c.aud with txNext := [(3, some 48)] } })), (3), (48), by decide⟩,
   ⟨(st [(Amap.reason, 3)]), (.hk), by decide⟩,
   ⟨(stx [(Amap.code, 1)] (en 0x120)), by decide +kernel⟩,
   ⟨(st [(Amap.code, 1), (Amap.intake.nth 4095, 9)]), by decide +kernel⟩,
   ⟨(st [(Amap.code, 1), (Amap.intake.nth 4095, 7)]), (1), (4095), by decide +kernel⟩⟩

/-- States and operands that meet the hypotheses of each clause of `GainWrites`. -/
theorem witness_GainWrites :
    (∃ (s : State) (m : Master) (off : BitVec 25), s.Allows m 1 mixPage 1048576 0 true ∧ s.PortTakes m 0 true ∧ s.c.bar2Off off.toNat = false ∧ off.toNat % 2 = 0 ∧ s.c.on Mix.batch = false ∧ s.c.on Mix.run = false) ∧
    (∃ (s : State) (m : Master) (off : BitVec 25), s.Allows m 1 mixPage 1048576 0 true ∧ s.PortTakes m 0 true ∧ s.c.bar2Off off.toNat = false ∧ off.toNat % 2 = 0 ∧ s.c.on Mix.batch = true ∧ s.c.mix.count < 65536) ∧
    (∃ (s : State) (m : Master) (off : BitVec 25) (a : BitVec 8) (b : BitVec 8), s.Allows m 1 mixPage 1048576 0 true ∧ s.PortTakes m 0 true ∧ s.c.bar2Off off.toNat = false ∧ off.toNat % 2 = 0 ∧ s.c.on Mix.batch = false ∧ s.c.on Mix.run = true ∧ s.c.hasRoom [(off.toNat / 2, a.toNat + 256 * b.toNat)] = true ∧ Store.get 0 s.c.mix.gain (off.toNat / 2) ≠ a.toNat + 256 * b.toNat) ∧
    (∃ (s : State) (m : Master) (off : BitVec 25) (data : List (BitVec 8)), s.Allows m 1 mixPage 1048576 0 true ∧ s.PortTakes m 0 true ∧ s.c.bar2Off off.toNat = false ∧ (off.toNat % 2 = 1 ∨ data.length % 2 = 1)) ∧
    (∃ (s : State) (m : Master) (off : BitVec 25) (a : BitVec 8) (b : BitVec 8), s.Allows m 1 mixPage 1048576 0 true ∧ s.PortTakes m 0 true ∧ s.c.bar2Off off.toNat = false ∧ off.toNat % 2 = 0 ∧ s.c.on Mix.batch = false ∧ s.c.on Mix.run = true ∧ off.toNat / 2 < 16777216 ∧ s.c.hasRoom [(off.toNat / 2, a.toNat + 256 * b.toNat)] = false ∧ Store.get 0 s.c.mix.gain (off.toNat / 2) ≠ a.toNat + 256 * b.toNat) ∧
    (∃ (s : State) (w : Withheld) (rest : List Withheld), s.Runs ∧ s.c.mix.withheld = w :: rest ∧ s.c.on Mix.batch = false ∧ s.c.on Mix.run = false) :=
  ⟨⟨(stx [(Pwr.clState.nth 8, 2)] (fun c => c.updMix (fun x => { x with gain := [(5, 7)] }))), (.host), (6), by decide⟩,
   ⟨(st [(Mix.batch, 1), (Pwr.clState.nth 8, 0)]), (.host), (6), by decide⟩,
   ⟨(st [(Mix.run, 1), (Pwr.clState.nth 8, 3)]), (.host), (6), (5), (0x70), by decide⟩,
   ⟨(st [(Mix.run, 1), (Pwr.clState.nth 8, 3)]), (.host), (6), ([1, 2, 3]), by decide⟩,
   ⟨(stx [(Mix.run, 1), (Pwr.clState.nth 8, 2)] (fun c => c.updTile 0 (fun x => { x with queue := List.replicate 4096 (0, 0) }))), (.host), (6), (5), (0x70), by decide +kernel⟩,
   ⟨(stx [] (fun c => c.updMix (fun x => { x with withheld := [{ es := [(3, 4), (5, 6)] }, { es := [(7, 8)], tw := some 1 }] }))), ({ es := [(3, 4), (5, 6)] }), ([{ es := [(7, 8)], tw := some 1 }]), by decide⟩⟩

/-- States and operands that meet the hypotheses of each clause of `GainBatches`. -/
theorem witness_GainBatches :
    (∃ (s : State) (m : Master), s.Allows m 0 mixPage 0x40 1 true ∧ s.c.on Mix.commit = false ∧ s.c.on Mix.batch = false) ∧
    (∃ (s : State) (m : Master), s.Allows m 0 mixPage 0x40 1 true ∧ s.c.on Mix.batch = true ∧ s.c.mix.count ≤ 65536 ∧ s.c.on Mix.run = true) ∧
    (∃ (s : State) (m : Master), s.Allows m 0 mixPage 0x40 1 true ∧ s.c.on Mix.batch = true ∧ s.c.mix.count ≤ 65536 ∧ s.c.on Mix.run = false) ∧
    (∃ (s : State) (m : Master), s.Allows m 0 mixPage 0x40 2 true ∧ s.c.on Mix.batch = true) ∧
    (∃ (s : State) (i : Fin 64) (ecc : MemRead), s.Runs ∧ s.c.on Mix.run = true ∧ s.c.aud.isOpen = true ∧ (s.c.tile i).ran = false ∧ (ecc.syn.toNat % 256 = 0 ∨ oneBit (ecc.syn.toNat % 256) = true)) :=
  ⟨⟨(st [(Mix.bCount, 5)]), (.host), by decide⟩,
   ⟨(stx [(Mix.batch, 1), (Mix.run, 1)] (fun c => c.updMix (fun x => { x with staged := [(3, 4), (3, 5)], count := 2 }))), (.host), by decide⟩,
   ⟨(stx [(Mix.batch, 1)] (fun c => c.updMix (fun x => { x with staged := [(3, 4), (3, 5)], count := 2 }))), (.host), by decide⟩,
   ⟨(stx [(Mix.batch, 1)] (fun c => c.updMix (fun x => { x with staged := [(3, 4), (3, 5)], count := 2 }))), (.host), by decide⟩,
   ⟨(stx [(Mix.run, 1)] (fun c => (c.updAud (fun a => { a with isOpen := true, intake := [(2, [8,7,6,5,4,3,2,1,8,7,6,5,4,3,2,1])] })).updMix (fun x => { x with applied := [(4096*70+2, 0x7000)] }))), (1), (⟨0, 0⟩), by decide⟩⟩

/-- States and operands that meet the hypotheses of each clause of `NovaBundles`. -/
theorem witness_NovaBundles :
    (∃ (s : State) (k : Fin 64) (im : MemRead), s.Runs ∧ (im.syn.toNat % 256 = 0 ∨ oneBit (im.syn.toNat % 256) = true) ∧ s.c.novaSt k = 4 ∧ (s.c.nova k).poison = [] ∧ (∀ j : Fin 4, (s.c.nova k).bundle (s.c.nova k).pc j = 0) ∧ (s.c.nova k).br = none ∧ (s.c.nova k).res = [] ∧ (s.c.nova k).cv 4 = 0 ∧ (s.c.nova k).cv 7 = 0 ∧ (s.c.nova k).pc < 2047) ∧
    (∃ (s : State) (k : Fin 64) (code : Nat) (slot : Nat) (im : MemRead), s.Runs ∧ (im.syn.toNat % 256 = 0 ∨ oneBit (im.syn.toNat % 256) = true) ∧ s.c.novaSt k = 4 ∧ (s.c.nova k).poison = [] ∧ (s.c.nova k).pc < 2048 ∧ reservedOf ((s.c.nova k).bundle (s.c.nova k).pc 0) ((s.c.nova k).bundle (s.c.nova k).pc 1) ((s.c.nova k).bundle (s.c.nova k).pc 2) ((s.c.nova k).bundle (s.c.nova k).pc 3) = some (code, slot)) ∧
    (∃ (s : State) (k : Fin 64) (im : MemRead), s.Runs ∧ (im.syn.toNat % 256 = 0 ∨ oneBit (im.syn.toNat % 256) = true) ∧ s.c.novaSt k = 4 ∧ (s.c.nova k).poison = [] ∧ (s.c.nova k).bundle (s.c.nova k).pc 0 = 0x40000000 ∧ (∀ j : Fin 3, (s.c.nova k).bundle (s.c.nova k).pc (j + 1) = 0) ∧ (s.c.nova k).br = none ∧ bit ((s.c.nova k).cv 14) 1 = false) ∧
    (∃ (s : State) (k : Fin 64) (im : MemRead), s.Runs ∧ s.c.novaSt k = 4 ∧ (s.c.nova k).pc < 2048 ∧ im.syn.toNat % 256 ≠ 0 ∧ oneBit (im.syn.toNat % 256) = false) :=
  ⟨⟨(stx [(Nova.state.on 5, 4)] (fun c => c.updNova 5 (fun x => { x with pc := 7, t := 3, cr := [(20, 9)], g := [(1, 5)] }))), (5), (⟨4, 0⟩), by decide⟩,
   ⟨(stx [(Nova.state.on 5, 4), (Nova.run.on 5, 1)] (fun c => c.updNova 5 (fun x => { x with pc := 7, im := [(29, 0xFC000000)] }))), (5), (1), (1), (⟨4, 0⟩), by decide⟩,
   ⟨(stx [(Nova.state.on 5, 4), (Nova.run.on 5, 1), (Nova.exch.on 5, 72)] (fun c => c.updNova 5 (fun x => { x with pc := 7, t := 30, im := [(28, 0x40000000)], res := [⟨32, 0, 3, 99⟩] }))), (5), (⟨4, 0⟩), by decide⟩,
   ⟨(stx [(Nova.state.on 5, 4), (Nova.run.on 5, 1)] (fun c => c.updNova 5 (fun x => { x with pc := 2047 }))), (5), (⟨0x81, 0⟩), by decide⟩⟩

/-- States and operands that meet the hypotheses of each clause of `NovaCommands`. -/
theorem witness_NovaCommands :
    (∃ (s : State) (k : Fin 64) (m : Master), s.Allows m 0 (novaPage k) 0x40 1 true ∧ s.c.novaSt k = 1 ∧ s.c.novaBusy k = false ∧ s.c.novaFits k = true) ∧
    (∃ (s : State) (k : Fin 64) (m : Master), s.Allows m 0 (novaPage k) 0x40 1 true ∧ s.c.novaSt k = 1 ∧ s.c.novaBusy k = false ∧ s.c.novaFits k = false) ∧
    (∃ (s : State) (k : Fin 64) (m : Master), s.Allows m 0 (novaPage k) 0x40 1 true) ∧
    (∃ (s : State) (k : Fin 64) (m : Master), s.Allows m 0 (novaPage k) 0x40 1 true ∧ s.c.novaSt k = 5) ∧
    (∃ (s : State) (k : Fin 64) (m : Master), s.Allows m 0 (novaPage k) 0x68 1 true) ∧
    (∃ (s : State) (k : Fin 64) (m : Master), s.Allows m 0 (novaPage k) 0x70 1 true ∧ s.c.on (Nova.paramGo.on k) = false) ∧
    (∃ (s : State) (k : Fin 64) (m : Master), s.Allows m 0 (novaPage k) 0x70 1 true ∧ s.c.on (Nova.paramGo.on k) = true) ∧
    (∃ (s : State) (k : Fin 64), s.Runs ∧ s.c.novaSt k = 3) ∧
    (∃ (s : State) (k : Fin 64) (t0 : Nat), s.Runs ∧ s.c.novaSt k = 4 ∧ (s.c.nova k).irqAt = some t0 ∧ (s.c.nova k).irqHit = false ∧ t0 + s.c.rd (Nova.iwin.on k) ≤ (s.c.nova k).t) :=
  ⟨⟨(st [(Nova.state.on 5, 1), (Nova.xoutBase.on 5, 4096), (Nova.paramBase.on 5, 8192), (Nova.plen.on 5, 1)]), (5), (.host), by decide⟩,
   ⟨(st [(Nova.state.on 5, 1), (Nova.plen.on 5, 2)]), (5), (.host), by decide⟩,
   ⟨(st [(Nova.state.on 5, 4), (Nova.run.on 5, 1)]), (5), (.hk), by decide⟩,
   ⟨(st [(Nova.state.on 5, 5)]), (5), (.host), by decide⟩,
   ⟨(st [(Nova.state.on 5, 5)]), (5), (.host), by decide⟩,
   ⟨(st [(Nova.state.on 5, 5)]), (5), (.host), by decide⟩,
   ⟨(st [(Nova.paramGo.on 5, 1)]), (5), (.host), by decide⟩,
   ⟨(st [(Nova.state.on 5, 3)]), (5), by decide⟩,
   ⟨(stx [(Nova.state.on 5, 4), (Nova.iwin.on 5, 20)] (fun c => c.updNova 5 (fun x => { x with irqAt := some 10, t := 30 }))), (5), (10), by decide⟩⟩

/-- States and operands that meet the hypotheses of each clause of `NovaSlots`. -/
theorem witness_NovaSlots :
    (∃ (a : Fin 16), a.val < 4) ∧
    (∃ (p : Fin 16), p.val < 6) ∧
    (∃ (x : NCore), x.cv 7 = 0 ∧ 2 ≤ x.cv 4 ∧ x.pc = x.cv 6) :=
  ⟨⟨(2), by decide⟩,
   ⟨(5), by decide⟩,
   ⟨({ pc := 9, cr := [(4, 3), (5, 6), (6, 9)] }), by decide⟩⟩

/-- States and operands that meet the hypotheses of each clause of `Schedules`. -/
theorem witness_Schedules :
    (∃ (s : State) (m : Master), s.Allows m 0 schedPage 0x48 0 true ∧ s.c.on Sched.loadGo = false) ∧
    (∃ (s : State), s.Runs ∧ s.c.rd Sched.code = 1 ∧ s.c.imageJudged = false ∧ s.c.isStandby = false ∧ s.c.mirrors = false ∧ s.c.validateImage s.mem = (0, 0) ∧ s.c.ticking = true) ∧
    (∃ (s : State), s.Runs ∧ s.c.rd Sched.code = 1 ∧ s.c.imageJudged = false ∧ s.c.isStandby = false ∧ s.c.mirrors = false ∧ s.c.validateImage s.mem = (0, 0) ∧ s.c.ticking = false) ∧
    (∃ (s : State), s.Runs ∧ s.c.rd Sched.code = 1 ∧ s.c.imageJudged = false ∧ s.c.isStandby = false ∧ s.c.mirrors = false ∧ (s.c.validateImage s.mem).1 ≠ 0) :=
  ⟨⟨({ st [(Sched.reason, 5)] with mem := smallImage }), (.host), by decide⟩,
   ⟨({ stx [(Sched.code, 1), (Sched.periods, 1)] (en schedPage) with mem := smallImage }), ⟨by decide, by decide, by decide, by decide, by decide, smallImage_valid _ (by decide) (by with_unfolding_all rfl) (by decide), by decide⟩⟩,
   ⟨({ st [(Sched.code, 1), (Sched.loadGo, 1)] with mem := smallImage }), ⟨by decide, by decide, by decide, by decide, by decide, smallImage_valid _ (by decide) (by with_unfolding_all rfl) (by decide), by decide⟩⟩,
   ⟨({ st [(Sched.code, 1), (Sched.loadGo, 1)] with mem := (4 * 8589934592 + 83, 4) :: [] }), by decide⟩⟩

/-- States and operands that meet the hypotheses of each clause of `Governor`. -/
theorem witness_Governor :
    (∃ (s : State) (steps : BitVec 16) (mv : BitVec 10) (tj : BitVec 10), s.Runs ∧ s.c.mer.stopped = false ∧ 14000 ≤ steps.toNat ∧ 720 ≤ mv.toNat ∧ tj.toInt ≤ 110) ∧
    (∃ (s : State) (mv : BitVec 10) (tj : BitVec 10), s.Runs ∧ s.c.mer.stopped = false ∧ (mv.toNat < 720 ∨ 110 < tj.toInt)) ∧
    (∃ (s : State) (steps : BitVec 16), s.Runs ∧ s.c.mer.stopped = false ∧ steps.toNat < 14000) ∧
    (∃ (s : State), s.Runs ∧ s.c.on Sched.govEn = true ∧ s.c.rd Sched.avs ≠ 3 ∧ s.c.sch.busy = false ∧ s.c.sch.low = none ∧ s.c.presentLow.1 + s.c.rd Sched.govHyst < max (s.c.rd Sched.govTarget) 1450 ∧ 720 ≤ s.c.rd Sched.vset ∧ s.c.vmin ≤ s.c.rd Sched.vset ∧ s.c.rd Sched.vset < s.c.vmax) ∧
    (∃ (s : State), s.Runs) ∧
    (∃ (s : State), s.Runs ∧ s.c.sch.repeating = true) ∧
    (∃ (s : State) (cls : Fin 4) (unit : Fin 1152) (steps : BitVec 32) (slack : BitVec 10), s.Runs ∧ (cls.val < 3 → unit.val < 64) ∧ s.c.unitWorks cls unit = true ∧ (cls.val = 0 → s.c.novaSt unit = 2) ∧ (cls.val = 1 → (s.c.tile unit).ran = true) ∧ s.c.unitSteps cls unit steps.toNat ≤ s.c.unitBudget cls unit ∧ slack.toNat < s.c.rd (Sched.slackMin.nth cls)) ∧
    (∃ (s : State) (cls : Fin 4) (unit : Fin 1152) (slack : Option (BitVec 10)), s.Runs ∧ (cls.val < 3 → unit.val < 64) ∧ s.c.unitWorks cls unit = true ∧ (cls.val = 0 → s.c.novaSt unit ≠ 2) ∧ (cls.val ≠ 0 → slack = none)) :=
  ⟨⟨(st []), (14000), (720), (110), by decide⟩,
   ⟨(st []), (719), (110), by decide⟩,
   ⟨(st [(Sched.floorOk, 1)]), (13999), by decide⟩,
   ⟨(stx [(Sched.govEn, 1), (Sched.vset, 800)] (fun c => c.updSch (fun x => { x with wins := [(3, 14400)] }))), by decide⟩,
   ⟨(st []), by decide⟩,
   ⟨(stx [(Sched.avs, 2)] (fun c => c.updSch (fun x => { x with repeating := true }))), by decide⟩,
   ⟨(stx [(Cmp.state.on 7, 2)] (fun c => c.updSch (fun x => { x with plans := [(7, [(0, 500, 2)])] }))), (2), (7), (500), (3), by decide⟩,
   ⟨(stx [(Cmp.state.on 7, 2)] (fun c => c.updSch (fun x => { x with plans := [(7, [(0, 500, 2)])] }))), (2), (7), (none), by decide⟩⟩

/-- States and operands that meet the hypotheses of each clause of `FrameReception`. -/
theorem witness_FrameReception :
    (∃ (s : State) (k : Fin 32), s.Runs ∧ s.c.linkUp k = true ∧ s.c.on (Eth.badMode.on (k.val / 4)) = false) ∧
    (∃ (s : State) (k : Fin 32) (body : List (BitVec 8)), s.Runs ∧ s.c.linkUp k = true ∧ 60 ≤ body.length ∧ body.length + 4 ≤ clampN 64 9216 (s.c.rd (Eth.maxLen.on (k.val / 4))) ∧ (etherHeader (body.map BitVec.toNat)).1 ≠ 0x8808 ∧ (etherHeader (body.map BitVec.toNat)).1 ≠ 0x88F7 ∧ (etherHeader (body.map BitVec.toNat)).1 ≠ 0x0806 ∧ (etherHeader (body.map BitVec.toNat)).1 ≠ 0x0800 ∧ bit (s.c.rd (Eth.excClass.on (k.val / 4))) 4 = false) ∧
    (∃ (s : State) (k : Fin 32) (body : List (BitVec 8)) (e : Fin 16384), s.Runs ∧ s.c.linkUp k = true ∧ 60 ≤ body.length ∧ body.length + 4 ≤ clampN 64 9216 (s.c.rd (Eth.maxLen.on (k.val / 4))) ∧ (etherHeader (body.map BitVec.toNat)).1 = 0x0800 ∧ (etherHeader (body.map BitVec.toNat)).2.2 = 14 ∧ isPtp 0x0800 ((body.map BitVec.toNat).drop 14) = false ∧ isFlowUdp 0x0800 ((body.map BitVec.toNat).drop 14) = true ∧ (s.c.listed Flowq.fEn.live).find? (fun e => s.c.flowMatches k e none ((body.map BitVec.toNat).drop 14)) = some e.val ∧ s.c.flowDiscards e ((body.map BitVec.toNat).drop 14) (((body.map BitVec.toNat).drop 34).take (beNat (((body.map BitVec.toNat).drop 38).take 2))) = false ∧ s.c.rd (Flowq.fUse.nth e).live ≠ 4) :=
  ⟨⟨(st [(onLink Eth.lUp 6, 1)]), (6), by decide⟩,
   ⟨(st [(onLink Eth.lUp 6, 1)]), (6), (List.replicate 60 (0x5A : BitVec 8)), by decide⟩,
   ⟨(st [(onLink Eth.lUp 6, 1), ((Flowq.fEn.nth 9).live, 1), ((Flowq.fLink.nth 9).live, 6), ((Flowq.fDstIp.nth 9).live, 0xEF010203), ((Flowq.fDstPort.nth 9).live, 5004)]), (6), ([1,0,0x5E,1,2,3,2,0,0,0,0,1,8,0, 0x45,0,0,46,0,0,0,0,64,17,0x7F,0xBA,10,0,0,1,0xEF,1,2,3, 0x13,0x88,0x13,0x8C,0,26,0,0, 1,2,3,4,5,6,7,8,9,10,11,12,13,14,15,16,17,18]), (9), by decide⟩⟩

/-- States and operands that meet the hypotheses of each clause of `LinksAndFlows`. -/
theorem witness_LinksAndFlows :
    (∃ (s : State) (k : Fin 32), s.Runs ∧ s.c.enabled (ethPage (k.val / 4)) = true ∧ s.c.linkExists k = true ∧ s.c.linkUp k = false) ∧
    (∃ (s : State) (k : Fin 32), s.Runs ∧ s.c.enabled (ethPage (k.val / 4)) = true ∧ s.c.linkExists k = true ∧ s.c.linkUp k = false) ∧
    (∃ (s : State) (k : Fin 32), s.Runs ∧ s.c.linkUp k = true) ∧
    (∃ (s : State) (m : Master) (e : Fin 16384) (w0 : BitVec 32), s.Allows m 1 flowqPage (8 * e) 1 true ∧ bits w0.toNat 22 20 < 5 ∧ (bits w0.toNat 22 20 = 0 → bits w0.toNat 25 23 = 0) ∧ s.c.linkExists (bits w0.toNat 5 1) = true) ∧
    (∃ (s : State) (m : Master) (e : Fin 16384) (w0 : BitVec 32), s.Allows m 1 flowqPage (8 * e) 1 true ∧ 5 ≤ bits w0.toNat 22 20) ∧
    (∃ (s : State) (m : Master) (q : Fin 16376) (w0 : BitVec 32), s.Allows m 1 flowqPage (131072 + 4 * q) 1 true ∧ s.c.on (Flowq.qEn.nth q) = false ∧ bits w0.toNat 7 6 < 2 ∧ (bits w0.toNat 22 16 = 54 ∨ bits w0.toNat 22 16 = 58) ∧ templateOk ((s.c.wr (Flowq.qHdrLen.nth q) (bits w0.toNat 22 16)).templateBytes q) = true ∧ s.c.linkExists (bits w0.toNat 5 1) = true) ∧
    (∃ (s : State) (m : Master) (q : Fin 16376), s.Allows m 1 flowqPage (131072 + 4 * q) 1 true) :=
  ⟨⟨(stx [(Eth.mode.on 1, 3)] (en 0x49)), (6), by decide +kernel⟩,
   ⟨(stx [(Eth.mode.on 1, 3)] (en 0x49)), (6), by decide⟩,
   ⟨(stx [(onLink Eth.lUp 6, 1), (Flowq.qEn.nth 77, 1), (Flowq.qLink.nth 77, 6)] (fun c => c.updQueue 77 (fun x => { x with descs := [⟨1, 2, false, []⟩, ⟨2, 2, true, [4]⟩] }))), (6), by decide⟩,
   ⟨(st [(Eth.mode.on 1, 3), (Flowq.fDstIp.nth 16383, 0xEF010203)]), (.host), (16383), (0x0030010D), by decide +kernel⟩,
   ⟨(st [(Eth.mode.on 1, 3)]), (.host), (16383), (0x0050010D), by decide⟩,
   ⟨(st [(Eth.mode.on 1, 3), (Flowq.template.nth (32*16375+3), 0x00450008), (Flowq.template.nth (32*16375+5), 0x11000000), (Flowq.template.nth (32*16375+10), 0x800000)]), (.host), (16375), (0x0036080C), by decide +kernel⟩,
   ⟨(stx [(Flowq.qEn.nth 7, 1)] (fun c => c.updQueue 7 (fun x => { x with descs := [⟨1, 2, false, []⟩, ⟨2, 2, true, [4]⟩] }))), (.host), (7), by decide⟩⟩

/-- States and operands that meet the hypotheses of each clause of `Queues`. -/
theorem witness_Queues :
    (∃ (s : State) (o : Nat) (q : Fin 16376), s.Runs ∧ s.c.producer q = some o ∧ s.c.on (Flowq.qEn.nth q) = true ∧ (s.c.mediaQ q).descs.length < s.c.queueSize q ∧ s.c.linkUp (s.c.rd (Flowq.qLink.nth q)) = true) ∧
    (∃ (s : State) (o : Nat) (q : Fin 16376), s.Runs ∧ s.c.producer q = some o ∧ s.c.on (Flowq.qEn.nth q) = true ∧ s.c.queueSize q ≤ (s.c.mediaQ q).descs.length) ∧
    (∃ (s : State) (q : Fin 16376), s.Runs ∧ s.c.producer q = none) ∧
    (∃ (s : State) (q : Fin 16376) (d : Desc) (r : List Desc), s.Runs ∧ (s.c.mediaQ q).descs = d :: r) ∧
    (∃ (s : State) (n : Fin 8), s.Runs ∧ Store.get [] s.c.sch.calWaits n ≠ []) ∧
    (∃ (s : State) (n : Fin 8) (j : Fin 16384) (q : Fin 16376) (d : Desc) (r : List Desc), s.Runs ∧ s.c.on (Eth.calRun.on n) = true ∧ j.val < (s.c.ethPort n).cal.headD 0 % 65536 ∧ (s.c.ethPort n).cal.getD (3 + 2 * j) 0 % 16384 = q ∧ s.c.on (Flowq.qEn.nth q) = true ∧ s.c.rd (Flowq.qLink.nth q) / 4 = n ∧ s.c.linkUp (s.c.rd (Flowq.qLink.nth q)) = true ∧ (s.c.mediaQ q).descs = d :: r ∧ s.c.frameLen q d ≤ (s.c.ethPort n).cal.getD (3 + 2 * j) 0 / 65536 ∧ s.c.pausedFor (s.c.rd (Flowq.qLink.nth q)) (s.c.rd (Flowq.qPri.nth q)) = false ∧ s.c.sendsActive = true) ∧
    (∃ (s : State) (n : Fin 8) (j : Fin 16384) (q : Fin 16376) (d : Desc) (r : List Desc), s.Runs ∧ s.c.on (Eth.calRun.on n) = true ∧ j.val < (s.c.ethPort n).cal.headD 0 % 65536 ∧ (s.c.ethPort n).cal.getD (3 + 2 * j) 0 % 16384 = q ∧ s.c.on (Flowq.qEn.nth q) = true ∧ s.c.rd (Flowq.qLink.nth q) / 4 = n ∧ s.c.linkUp (s.c.rd (Flowq.qLink.nth q)) = true ∧ (s.c.mediaQ q).descs = d :: r ∧ (s.c.ethPort n).cal.getD (3 + 2 * j) 0 / 65536 < s.c.frameLen q d) ∧
    (∃ (s : State) (n : Fin 8) (j : Fin 16384) (q : Fin 16376) (d : Desc) (r : List Desc), s.Runs ∧ s.c.on (Eth.calRun.on n) = true ∧ j.val < (s.c.ethPort n).cal.headD 0 % 65536 ∧ (s.c.ethPort n).cal.getD (3 + 2 * j) 0 % 16384 = q ∧ s.c.on (Flowq.qEn.nth q) = true ∧ s.c.rd (Flowq.qLink.nth q) / 4 = n ∧ s.c.linkUp (s.c.rd (Flowq.qLink.nth q)) = true ∧ (s.c.mediaQ q).descs = d :: r ∧ s.c.frameLen q d ≤ (s.c.ethPort n).cal.getD (3 + 2 * j) 0 / 65536 ∧ s.c.pausedFor (s.c.rd (Flowq.qLink.nth q)) (s.c.rd (Flowq.qPri.nth q)) = false ∧ s.c.sendsActive = true ∧ (s.c.ethLink (s.c.rd (Flowq.qLink.nth q))).block.isEmpty = false) ∧
    (∃ (s : State) (k : Fin 32) (q : Nat) (sends : Bool) (r : List (Nat × Bool)), s.Runs ∧ (s.c.ethLink k).wait = (q, sends) :: r ∧ s.c.on (Flowq.qMissAct.nth q) = false) :=
  ⟨⟨(stx [((Xpt.transport.nth 9).live, 2), ((Xpt.queue.nth 9).live, 77), ((Xpt.fmt.nth 9).live, 0x42), (Xpt.fset.nth 9, 0xFFFFFF42), (onLink Eth.lUp 6, 1), (Flowq.qEn.nth 77, 1), (Flowq.qLink.nth 77, 6), (Flowq.qSeq.nth 77, 0xFFFFFFFF)] (fun c => { c.updXpt (fun x => { x with bound := [9] }) with outs := [(9, { tx := [{}] })] })), (9), (77), by decide⟩,
   ⟨(stx [((Xpt.transport.nth 9).live, 2), ((Xpt.queue.nth 9).live, 7), ((Xpt.fmt.nth 9).live, 0x42), (Xpt.fset.nth 9, 0xFFFFFF42), (Flowq.qEn.nth 7, 1), (Flowq.qDepth.nth 7, 0)] (fun c => ({ c.updXpt (fun x => { x with bound := [9] }) with outs := [(9, { tx := [{}] })] } : Chip).updQueue 7 (fun x => { x with descs := List.replicate 4 ⟨1, 2, false, []⟩ }))), (9), (7), by decide⟩,
   ⟨(st [(Flowq.qEn.nth 7, 1)]), (7), by decide⟩,
   ⟨(stx [(Flowq.qEn.nth 7, 1), (Flowq.qDepth.nth 7, 0)] (fun c => c.updQueue 7 (fun x => { x with descs := List.replicate 4 ⟨1, 2, false, []⟩ }))), (7), (⟨1, 2, false, []⟩), (List.replicate 3 ⟨1, 2, false, []⟩), by decide⟩,
   ⟨(stx [] (fun c => c.updSch (fun x => { x with calWaits := [(3, [2, 1, 1000, 0, 0])] }))), (3), by decide⟩,
   ⟨(stx [(Eth.calRun.on 1, 1), (onLink Eth.lUp 6, 1), (Flowq.qEn.nth 77, 1), (Flowq.qLink.nth 77, 6), (Twin.state, 3)] (fun c => ((c.updPort 1 (fun p => { p with cal := [1, 1000, 0, 77 + 65536 * 80] })).updQueue 77 (fun x => { x with descs := [⟨1, 2, true, [1, 2, 3]⟩] })))), (1), (0), (77), (⟨1, 2, true, [1, 2, 3]⟩), ([]), by decide⟩,
   ⟨(stx [(Eth.calRun.on 1, 1), (onLink Eth.lUp 6, 1), (Flowq.qEn.nth 77, 1), (Flowq.qLink.nth 77, 6)] (fun c => ((c.updPort 1 (fun p => { p with cal := [1, 1000, 0, 77 + 65536 * 60] })).updQueue 77 (fun x => { x with descs := [⟨1, 2, true, [1, 2, 3]⟩] })))), (1), (0), (77), (⟨1, 2, true, [1, 2, 3]⟩), ([]), by decide⟩,
   ⟨(stx [(Eth.calRun.on 1, 1), (onLink Eth.lUp 6, 1), (Flowq.qEn.nth 77, 1), (Flowq.qLink.nth 77, 6), (Twin.state, 3)] (fun c => (((c.updPort 1 (fun p => { p with cal := [1, 1000, 0, 77 + 65536 * 80] })).updQueue 77 (fun x => { x with descs := [⟨1, 2, true, [1, 2, 3]⟩] })).updLink 6 (fun x => { x with block := [7, 8] })))), (1), (0), (77), (⟨1, 2, true, [1, 2, 3]⟩), ([]), by decide⟩,
   ⟨(stx [] (fun c => c.updLink 6 (fun x => { x with wait := [(77, true), (78, true)] }))), (6), (77), (true), ([(78, true)]), by decide⟩⟩

/-- States and operands that meet the hypotheses of each clause of `PausesAndCpu`. -/
theorem witness_PausesAndCpu :
    (∃ (s : State) (k : Fin 32), s.Runs ∧ (s.c.ethLink k).wait = []) ∧
    (∃ (s : State) (k : Fin 32) (cls : Fin 9), s.Runs ∧ s.c.rd (Eth.maxPause.on (k.val / 4)) ≠ 0 ∧ bit (s.c.ethLink k).paused cls = true ∧ bit (s.c.ethLink k).long cls = false) ∧
    (∃ (s : State) (m : Master) (n : Fin 8), s.Allows m 0 flowqPage (0x104 + 16 * n) 1 false ∧ s.c.on (Flowq.cpuGo.nth n) = false ∧ s.c.rd (Flowq.cpuFree.nth n) ≠ 0) ∧
    (∃ (s : State) (m : Master) (n : Fin 8), s.Allows m 0 flowqPage (0x104 + 16 * n) 1 false ∧ s.c.on (Flowq.cpuGo.nth n) = false ∧ s.c.rd (Flowq.cpuFree.nth n) = 0) ∧
    (∃ (s : State) (n : Fin 8) (d : CpuDesc), s.Runs ∧ (s.c.ethPort n).held = some d ∧ s.c.rd (Flowq.cpuFree.nth n) ≠ 0) ∧
    (∃ (s : State) (k : Fin 32) (d : CpuDesc), s.Runs ∧ (s.c.ethPort (k.val / 4)).cpu.find? (fun d => d.sub = k.val % 4) = some d ∧ s.c.linkUp k = true ∧ s.c.pausedFor k 0 = false ∧ d.ts = false ∧ (List.range ((d.len + 3) / 4)).any (fun i => s.c.isPoisoned 6 0 ((d.addr / 4 + i) % 1048576)) = false) ∧
    (∃ (s : State) (k : Fin 32) (d : CpuDesc), s.Runs ∧ (s.c.ethPort (k.val / 4)).cpu.find? (fun d => d.sub = k.val % 4) = some d ∧ s.c.linkUp k = true ∧ s.c.pausedFor k 0 = false ∧ (List.range ((d.len + 3) / 4)).any (fun i => s.c.isPoisoned 6 0 ((d.addr / 4 + i) % 1048576)) = true) ∧
    (∃ (s : State) (m : Master) (w : BitVec 32), s.Allows m 0 crcuPage 0x4C 1 true ∧ s.c.on Crcu.memGo = false ∧ bits w.toNat 23 22 ≠ 3 ∧ bits w.toNat 15 0 ≠ 0 ∧ s.c.rd Crcu.memBase + 4 * ((bits w.toNat 15 0 - 1) * s.c.rd Crcu.stride + s.c.rd Crcu.rowLen) ≤ jobRegionSize (bits w.toNat 23 22) ∧ s.c.rd (Crcu.cSrc.nth (bits w.toNat 21 16)) = 2) ∧
    (∃ (s : State) (j : MemJob), s.Runs ∧ s.c.pkt.job = some j ∧ j.channel < 64 ∧ j.lost s.c = false) :=
  ⟨⟨(stx [] (fun c => c.updLink 6 (fun x => { x with paused := 0x91 }))), (6), by decide⟩,
   ⟨(stx [] (fun c => c.updLink 6 (fun x => { x with paused := 0x91 }))), (6), (4), by decide⟩,
   ⟨(st [(Flowq.cpuAddr.nth 3, 0x1000), (Flowq.cpuTag.nth 3, 0xFFFF)]), (.host), (3), by decide⟩,
   ⟨(st [(Flowq.cpuAddr.nth 3, 0x1000), (Flowq.cpuTag.nth 3, 0xFFFF), (Flowq.cpuFree.nth 3, 0)]), (.host), (3), by decide⟩,
   ⟨(stx [(Flowq.cpuGo.nth 3, 1)] (fun c => c.updPort 3 (fun p => { p with held := some ⟨1, 64, 2, true, 9⟩ }))), (3), (⟨1, 64, 2, true, 9⟩), by decide⟩,
   ⟨({ stx [(onLink Eth.lUp 6, 1), (Flowq.cpuFree.nth 1, 15)] (fun c => c.updPort 1 (fun p => { p with cpu := [⟨4194303, 3, 2, false, 9⟩] })) with mem := [(0, 7), (1, 8), (4194303, 9)] }), (6), (⟨4194303, 3, 2, false, 9⟩), by decide⟩,
   ⟨(stx [(onLink Eth.lUp 6, 1), (Flowq.cpuFree.nth 1, 15)] (fun c => { c.updPort 1 (fun p => { p with cpu := [⟨8, 64, 2, true, 9⟩] }) with poisoned := [(6, 0, 17)] })), (6), (⟨8, 64, 2, true, 9⟩), by decide⟩,
   ⟨(st [(Crcu.cSrc.nth 63, 2), (Crcu.memBase, 4194300), (Crcu.rowLen, 1)]), (.host), (0x01BF0001), by decide⟩,
   ⟨({ stx [(Crcu.memGo, 1), (Crcu.memBusy, 1)] (fun c => c.updPkt (fun x => { x with job := some ⟨8, 1, 2, 2, 2, 63⟩ })) with mem := [(4*8589934592+8, 1), (4*8589934592+16, 5)] }), (⟨8, 1, 2, 2, 2, 63⟩), by decide⟩⟩

/-- States and operands that meet the hypotheses of each clause of `Candidates`. -/
theorem witness_Candidates :
    (∃ (s : State) (i : Fin 9), s.Runs ∧ s.c.canPresent i = true ∧ (s.c.cand i).present = false) ∧
    (∃ (s : State) (i : Fin 9), s.Runs ∧ (s.c.cand i).present = true) ∧
    (∃ (s : State) (i : Fin 9), s.Runs ∧ (s.c.cand i).present = true ∧ s.c.candState i = 1 ∧ (s.c.cand i).hardRun = 0) ∧
    (∃ (s : State) (i : Fin 9), s.Runs ∧ s.c.candState i = 2 ∧ i ≠ 8) ∧
    (∃ (s : State) (i : Fin 9), s.Runs ∧ (s.c.cand i).present = true ∧ s.c.candState i = 3 ∧ (s.c.cand i).hardRun = 0) ∧
    (∃ (s : State) (i : Fin 9) (m : List (BitVec 8)), s.Runs ∧ i ≠ 4 ∧ i ≠ 5 ∧ i ≠ 8 ∧ m.length = 8 ∧ (m.getD 0 0).toNat = 0x5A ∧ qmsgSyndrome (m.map BitVec.toNat) = 0 ∧ (m.getD 2 0).toNat / 16 = 1) ∧
    (∃ (s : State) (i : Fin 9) (m : List (BitVec 8)), s.Runs ∧ i ≠ 4 ∧ i ≠ 5 ∧ i ≠ 8 ∧ m.length = 8 ∧ (m.getD 0 0).toNat = 0x5A ∧ qmsgSyndrome (m.map BitVec.toNat) ≠ 0) ∧
    (∃ (s : State) (m : List (BitVec 8)), s.Runs ∧ (m.getD 0 0).toNat ≠ 0x5A) ∧
    (∃ (s : State) (i : Fin 9), s.Runs ∧ i ≠ 4 ∧ i ≠ 5 ∧ i ≠ 8 ∧ (s.c.cand i).present = true ∧ ((s.c.cand i).timedOut = false ∨ (s.c.cand i).chain = true)) ∧
    (∃ (s : State) (i : Fin 9), s.Runs ∧ (s.c.cand i).present = true ∧ s.c.mer.stopped = false) ∧
    (∃ (s : State) (i : Fin 9) (j : Fin 9), s.Runs ∧ i ≠ j ∧ s.c.equalRank i j = true ∧ s.c.agree i j = false) ∧
    (∃ (s : State) (i : Fin 9) (j : Fin 9), s.Runs ∧ s.c.mer.apart.any (fun p => p.1 = min i.val j.val && p.2.1 = max i.val j.val) = true ∧ (s.c.equalRank i j = false ∨ s.c.agree i j = true)) :=
  ⟨⟨(st [(MerSel.ctype.nth 2, 3)]), (2), by decide⟩,
   ⟨(stx [(MerSel.ctype.nth 2, 3), (MerSel.sel, 2), (MerLoop.state, 3)] (fun c => c.updCand 2 (fun x => { x with present := true, st := 2 }))), (2), by decide⟩,
   ⟨(stx [(MerSel.qlSrc.nth 2, 1), (MerSel.qlFix.nth 2, 2), (MerSel.ctype.nth 2, 3)] (fun c => c.updCand 2 (fun x => { x with present := true, st := 1 }))), (2), by decide⟩,
   ⟨(stx [(MerSel.qlSrc.nth 2, 1), (MerSel.qlFix.nth 2, 2), (MerSel.ctype.nth 2, 3)] (fun c => c.updCand 2 (fun x => { x with present := true, st := 2 }))), (2), by decide⟩,
   ⟨(stx [(MerSel.qlSrc.nth 2, 1), (MerSel.qlFix.nth 2, 2), (MerSel.ctype.nth 2, 3)] (fun c => c.updCand 2 (fun x => { x with present := true, st := 3 }))), (2), by decide⟩,
   ⟨(st []), (2), ([0x5A, 0x11, 0x12, 1, 0, 0, 0, 0x92]), by decide +kernel⟩,
   ⟨(st []), (2), ([0x5A, 0x11, 0x12, 1, 0, 0, 0, 0x93]), by decide +kernel⟩,
   ⟨(st []), ([0x5B, 0x11, 0x12, 1, 0, 0, 0, 0x93]), by decide⟩,
   ⟨(stx [] (fun c => c.updCand 2 (fun x => { x with present := true, st := 3 }))), (2), by decide⟩,
   ⟨(stx [(MerHold.newest, 1023)] (fun c => c.updCand 2 (fun x => { x with present := true, st := 3 }))), (2), by decide⟩,
   ⟨(stx [(MerSel.qlSrc.nth 2, 1), (MerSel.qlSrc.nth 3, 1), (MerSel.qlFix.nth 2, 2), (MerSel.qlFix.nth 3, 2), (MerSel.prio.nth 2, 1), (MerSel.prio.nth 3, 1)] (fun c => (c.updCand 2 (fun x => { x with present := true, st := 2, freq := 500000 })).updCand 3 (fun x => { x with present := true, st := 2 }))), (2), (3), by decide⟩,
   ⟨(stx [(MerSel.disagree, 1)] (fun c => c.updMer (fun m => { m with apart := [(2, 3, 3)] }))), (3), (2), by decide⟩⟩

/-- States and operands that meet the hypotheses of each clause of `LoopStates`. -/
theorem witness_LoopStates :
    (∃ (s : State) (i : BitVec 16), s.Runs ∧ s.c.paired = true ∧ i.toNat < 8 ∧ s.c.eligible i.toNat = true ∧ s.c.rd MerSel.sel ≠ i.toNat ∧ s.c.isStandby = false ∧ s.c.mirrors = false) ∧
    (∃ (s : State), s.Runs ∧ s.c.paired = false) ∧
    (∃ (s : State) (i : Fin 9) (fall : Bool), s.Runs ∧ i ≠ 8 ∧ (s.c.cand i).present = true ∧ (i.val < 4 → s.c.refType i ≠ 0 ∧ fall = s.c.on (MerSel.edge.nth i)) ∧ s.c.rd MerSel.sel = i ∧ s.c.mer.pend = some i.val ∧ (i = 6 → s.c.mer.fabMark ≠ none)) ∧
    (∃ (s : State) (i : Fin 4) (fall : Bool), s.Runs ∧ (s.c.refType i = 0 ∨ fall ≠ s.c.on (MerSel.edge.nth i))) ∧
    (∃ (s : State), s.Runs ∧ s.c.rd MerLoop.state = 1 ∧ s.c.rd MerLoop.regimeNow = 0) ∧
    (∃ (s : State), s.Runs ∧ s.c.rd MerLoop.state = 1 ∧ s.c.rd MerLoop.regimeNow ≠ 0) ∧
    (∃ (s : State), s.Runs ∧ s.c.rd MerLoop.state = 2 ∧ (s.c.rdS MerLoop.pherr).natAbs < 16 * orElse0 (s.c.rd MerLoop.thresh) 1) ∧
    (∃ (s : State), s.Runs ∧ 1 ≤ s.c.rd MerLoop.state ∧ s.c.rd MerLoop.state ≤ 3 ∧ s.c.effSev ⟨0xA7, merLoopPage, s.c.mer.drive, 0, true, false, false, [], false⟩ < 3) ∧
    (∃ (s : State), s.Runs ∧ s.c.rd MerLoop.regimeNow = 3 ∧ s.c.rd MerLoop.state = 3) ∧
    (∃ (s : State), s.Runs ∧ s.c.rd MerLoop.state = 4 ∧ s.c.mer.aged = false) :=
  ⟨⟨(stx [(MerSel.qlSrc.nth 2, 1), (MerSel.qlFix.nth 2, 2), (MerSel.prio.nth 2, 1)] (fun c => { (c.updCand 2 (fun x => { x with present := true, st := 2 })) with straps := { c.straps with scale := true } })), (2), by decide⟩,
   ⟨(st []), by decide⟩,
   ⟨(stx [(MerSel.sel, 6)] (fun c => (c.updCand 6 (fun x => { x with present := true })).updMer (fun x => { x with pend := some 6, fabMark := some 63 }))), (6), (false), by decide⟩,
   ⟨(st [(MerSel.ctype.nth 2, 3), (MerSel.edge.nth 2, 1)]), (2), (false), by decide⟩,
   ⟨(st [(MerLoop.state, 1), (MerLoop.regimeNow, 0)]), by decide⟩,
   ⟨(st [(MerLoop.state, 1), (MerLoop.regimeNow, 2), (MerSel.sel, 2)]), by decide⟩,
   ⟨(stx [(MerLoop.state, 2), (MerSel.sel, 2)] (fun c => c.updMer (fun x => { x with bw := 20000 * 65536 }))), by decide⟩,
   ⟨(st [(MerLoop.state, 3), (MerSel.sel, 2)]), by decide⟩,
   ⟨(st [(MerLoop.state, 3), (MerLoop.regimeNow, 3), (MerSel.sel, 2)]), by decide⟩,
   ⟨(st [(MerLoop.state, 4), (MerSel.sel, 15), (MerHold.age, 5), (MerHold.holdMax, 9), (MerHold.holdQl, 2)]), by decide⟩⟩

/-- States and operands that meet the hypotheses of each clause of `OutputTiming`. -/
theorem witness_OutputTiming :
    (∃ (s : State), s.Runs) ∧
    (∃ (s : State) (n : Fin 4), s.Runs ∧ bit s.c.mer.pulse n = true) ∧
    (∃ (s : State) (m : Master), s.Allows m 0 merLoopPage 0x68 4 true ∧ s.c.on MerLoop.raAudio = false) ∧
    (∃ (s : State) (m : Master), s.Allows m 0 merLoopPage 0x68 4 true ∧ s.c.on MerLoop.raAudio = true ∧ s.c.enabled schedPage = true) ∧
    (∃ (s : State) (m : Master), s.Allows m 0 merLoopPage 0x68 4 true ∧ s.c.on MerLoop.raAudio = true ∧ s.c.enabled schedPage = false ∧ s.c.gridBasis = true) ∧
    (∃ (s : State) (item : Fin 14), s.Runs ∧ s.c.mer.realign.contains item.val = true ∧ (item.val < 8 → s.c.mer.raStage = 4)) :=
  ⟨⟨(st [(Ptp.iState.nth 1, 3)]), by decide⟩,
   ⟨(stx [] (fun c => c.updMer (fun x => { x with pulse := 9 }))), (3), by decide⟩,
   ⟨(st [(MerLoop.raVideo, 1), (Ptp.iState.nth 1, 3)]), (.host), by decide⟩,
   ⟨(stx [(MerLoop.raAudio, 1)] (en schedPage)), (.host), by decide⟩,
   ⟨(stx [(MerLoop.raAudio, 1), (Ptp.iState.nth 1, 3)] (fun c => { c with stc := ⟨5, 999999989, 65535⟩ })), (.host), by decide⟩,
   ⟨(stx [(MerLoop.raGo, 1)] (fun c => c.updMer (fun x => { x with realign := [13], raRes := 2 }))), (13), by decide⟩⟩

/-- States and operands that meet the hypotheses of each clause of `PtpInstances`. -/
theorem witness_PtpInstances :
    (∃ (s : State) (x : Fin 2) (dom : BitVec 8), s.Runs ∧ s.c.rd (Ptp.iState.nth x) = 1 ∧ dom.toNat = s.c.rd (Ptp.iDomain.nth x)) ∧
    (∃ (s : State) (x : Fin 2) (dom : BitVec 8), s.Runs ∧ s.c.rd (Ptp.iState.nth x) ≠ 4 ∧ dom.toNat ≠ s.c.rd (Ptp.iDomain.nth x)) ∧
    (∃ (s : State) (x : Fin 2), s.Runs ∧ s.c.rd (Ptp.iState.nth x) = 3) ∧
    (∃ (s : State) (x : Fin 2), s.Runs ∧ s.c.on (Ptp.iEn.nth x) = true ∧ s.c.rd (Ptp.iState.nth x) = 3) ∧
    (∃ (s : State) (x : Fin 2), s.Runs ∧ 1 ≤ s.c.rd (Ptp.iState.nth x) ∧ s.c.rd (Ptp.iState.nth x) ≤ 3) ∧
    (∃ (s : State) (x : Fin 2) (target : BitVec 16), s.Runs ∧ target.toNat = x ∧ s.c.rd Ptp.steer = x ∧ s.c.rd (Ptp.iState.nth x) = 3 ∧ s.c.isStandby = false ∧ s.c.mirrors = false) ∧
    (∃ (s : State) (x : Fin 2), s.Runs ∧ s.c.rd (Ptp.iState.nth x) = 3 ∧ (s.c.ptpInst x).armed = true) ∧
    (∃ (s : State) (x : Fin 2) (ofs : BitVec 96), s.Runs ∧ s.c.rd (Ptp.iState.nth x) = 3 ∧ s.c.rd Ptp.steer = x ∧ (s.c.ptpInst x).armed = false ∧ s.c.on Ptp.stepped = true ∧ s.c.jumpLimit < ofs.toInt.natAbs) :=
  ⟨⟨(st [(Ptp.iState.nth 1, 1), (Ptp.iDomain.nth 1, 127)]), (1), (127), by decide⟩,
   ⟨(st [(Ptp.iState.nth 1, 1), (Ptp.iDomain.nth 1, 127)]), (1), (126), by decide⟩,
   ⟨(st [(Ptp.iState.nth 1, 3)]), (1), by decide⟩,
   ⟨(st [(Ptp.iState.nth 1, 3), (Ptp.iEn.nth 1, 1)]), (1), by decide⟩,
   ⟨(st [(Ptp.iState.nth 1, 3)]), (1), by decide⟩,
   ⟨(st [(Ptp.iState.nth 1, 3), (Ptp.steer, 1)]), (1), (1), by decide⟩,
   ⟨(stx [(Ptp.iState.nth 1, 3), (Ptp.steer, 1), (Ptp.restepArmed, 1)] (fun c => { c with stc := ⟨5, 999999999, 65535⟩ }.updPtp 1 (fun p => { p with armed := true }))), (1), by decide⟩,
   ⟨(st [(Ptp.iState.nth 1, 3), (Ptp.steer, 1), (Ptp.stepped, 1)]), (1), (0x80000000), by decide⟩⟩

/-- States and operands that meet the hypotheses of each clause of `TimeCounter`. -/
theorem witness_TimeCounter :
    (∃ (s : State), s.Runs ∧ s.c.mer.stopped = false) ∧
    (∃ (s : State), s.Runs) ∧
    (∃ (s : State) (m : Master) (u : Fin 8), s.Allows m 0 timePage (0x100 + 16 * u) 0 true ∧ s.c.cmpDiff u < 0) ∧
    (∃ (s : State) (m : Master) (u : Fin 8), s.Allows m 0 timePage (0x100 + 16 * u) 0 true ∧ 0 ≤ s.c.cmpDiff u) ∧
    (∃ (s : State) (m : Master) (u : Fin 8), s.Allows m 0 timePage (0x100 + 16 * u) 2 true) ∧
    (∃ (s : State) (source : Fin 12) (fall : Bool), s.Runs ∧ s.c.edgeSelected source fall = true ∧ (8 ≤ source.val → (s.c.captureCount (source - 8)).1 = true) ∧ (s.c.rd Time.evtWptr + 1) % 256 ≠ s.c.rd Time.evtRptr) ∧
    (∃ (s : State) (source : Fin 12) (fall : Bool), s.Runs ∧ s.c.edgeSelected source fall = true ∧ (8 ≤ source.val → (s.c.captureCount (source - 8)).1 = true) ∧ (s.c.rd Time.evtWptr + 1) % 256 = s.c.rd Time.evtRptr) ∧
    (∃ (s : State) (source : Fin 12) (fall : Bool), s.Runs ∧ (s.c.edgeSelected source fall = false ∨ (8 ≤ source.val ∧ (s.c.captureCount (source - 8)).1 = false))) :=
  ⟨⟨(stx [(Time.rate, 0xFFFFFF00)] (fun c => { c with stc := ⟨5, 999999999, 65535⟩ })), by decide⟩,
   ⟨(stx [] (fun c => { c with stc := ⟨5, 999999999, 65535⟩ })), by decide⟩,
   ⟨(st [(Time.cNs.nth 7, 5)]), (.host), (7), by decide⟩,
   ⟨(st []), (.host), (7), by decide⟩,
   ⟨(st [(Time.cArm.nth 7, 1)]), (.host), (7), by decide⟩,
   ⟨(stx [(Time.evtEdges, 8), (Time.evtWptr, 255), (Time.evtRptr, 5)] (fun c => { c with stc := ⟨5, 999999989, 65535⟩ })), (1), (true), by decide⟩,
   ⟨(st [(Time.evtEdges, 8), (Time.evtWptr, 255)]), (1), (true), by decide⟩,
   ⟨(st [(Time.evtEdges, 8)]), (1), (false), by decide⟩⟩

/-- States and operands that meet the hypotheses of each clause of `TwinCells`. -/
theorem witness_TwinCells :
    (∃ (s : State) (seq : BitVec 16) (epoch : BitVec 32), s.Runs ∧ s.c.paired = true ∧ s.c.grpState 32 = 6 ∧ s.c.isStandby = true ∧ s.c.twin.rxAny = false ∧ s.c.twin.rxSeq = seq.toNat ∧ 0 < frameDiff epoch.toNat s.c.twin.applied) ∧
    (∃ (s : State) (seq : BitVec 16), s.Runs ∧ s.c.paired = true ∧ s.c.grpState 32 = 6 ∧ s.c.isStandby = true ∧ s.c.twin.rxAny = false ∧ s.c.twin.rxSeq ≠ seq.toNat ∧ s.c.twin.rxSeq < 65536 ∧ (seq.toNat + 65536 - s.c.twin.rxSeq) % 65536 < 32768) ∧
    (∃ (s : State) (seq : BitVec 16) (epoch : BitVec 32), s.Runs ∧ s.c.paired = true ∧ s.c.grpState 32 = 6 ∧ s.c.isStandby = true ∧ s.c.twin.rxAny = false ∧ s.c.twin.rxSeq = seq.toNat ∧ 0 < frameDiff epoch.toNat s.c.twin.applied) ∧
    (∃ (s : State) (seq : BitVec 16) (bytes : List (BitVec 8)), s.Runs ∧ s.c.paired = true ∧ s.c.grpState 32 = 6 ∧ s.c.isStandby = true ∧ s.c.twin.rxAny = false ∧ s.c.twin.rxSeq = seq.toNat ∧ bytes.length ≤ 24) ∧
    (∃ (s : State), s.Runs ∧ s.c.paired = true ∧ s.c.grpState 32 = 6 ∧ s.c.mirrorWait ≠ []) ∧
    (∃ (s : State), s.Runs ∧ s.c.paired = true ∧ s.c.grpState 32 = 6 ∧ s.c.mirrorWait = []) ∧
    (∃ (s : State), s.Runs ∧ s.c.paired = true ∧ s.c.grpState 32 = 6) ∧
    (∃ (s : State), s.Runs ∧ s.c.pairState = 3 ∧ s.c.mateLost = false ∧ s.c.replay ≠ []) ∧
    (∃ (s : State), s.Runs ∧ s.c.paired = true ∧ s.c.twin.due = [] ∧ (∀ i ∈ s.c.mirrorQ, 0 < frameDiff i.epoch (s.c.rd Twin.epoch))) ∧
    (∃ (s : State) (i : MirrorItem), s.Runs ∧ s.c.paired = true ∧ s.c.twin.due = [] ∧ s.c.mirrorQ = [i] ∧ i.epoch = s.c.rd Twin.epoch ∧ i.space = 3 ∧ i.off = 7 ∧ i.bidx = 0xFFFFFFFF) :=
  ⟨⟨(stx [(Twin.state, 6), (Lgrp.state.on 32, 6)] (fun c => { (c.updTwin (fun x => { x with rxSeq := 65535, applied := 7 })) with straps := { c.straps with scale := true } })), (65535), (12), by decide⟩,
   ⟨(stx [(Twin.state, 6), (Lgrp.state.on 32, 6)] (fun c => { (c.updTwin (fun x => { x with rxSeq := 65530, applied := 7 })) with straps := { c.straps with scale := true } })), (2), by decide⟩,
   ⟨(stx [(Twin.state, 5), (Lgrp.state.on 32, 6)] (fun c => { (c.updTwin (fun x => { x with rxSeq := 5, applied := 7 })) with straps := { c.straps with scale := true } })), (5), (12), by decide⟩,
   ⟨(stx [(Twin.state, 5), (Lgrp.state.on 32, 6)] (fun c => { (c.updTwin (fun x => { x with rxSeq := 5, applied := 7 })) with straps := { c.straps with scale := true } })), (5), ([1, 2, 3, 0, 5]), by decide⟩,
   ⟨(stx [(Twin.state, 3), (Lgrp.state.on 32, 6)] (fun c => { { c with replay := [(65534, 1, [7]), (0, 1, [])], mirrorWait := [⟨0, 0, 0, 0x70, 0x50, 3, 15, 0, 1, []⟩] } with straps := { c.straps with scale := true } })), by decide⟩,
   ⟨(stx [(Twin.state, 3), (Lgrp.state.on 32, 6)] (fun c => { { c with replay := [(65534, 1, [7]), (65535, 1, [7]), (0, 1, []), (1, 1, [])] } with straps := { c.straps with scale := true } })), by decide⟩,
   ⟨(stx [(Twin.state, 3), (Lgrp.state.on 32, 6)] (fun c => { { c with replay := [(65534, 1, [7]), (65535, 1, [7]), (0, 1, []), (1, 1, [])] } with straps := { c.straps with scale := true } })), by decide⟩,
   ⟨(stx [(Twin.state, 3), (Lgrp.state.on 32, 6), (Twin.matePresent, 1)] (fun c => { { c with replay := [(65534, 1, [7]), (65535, 1, [7])] } with straps := { c.straps with scale := true } })), by decide⟩,
   ⟨(stx [(Twin.state, 6), (Lgrp.state.on 32, 6), (Twin.epoch, 7)] (fun c => { { c with mirrorQ := [⟨8, 1, 3, 0, 7, 0, 0, 0xFFFFFFFF, 0, [0]⟩] } with straps := { c.straps with scale := true } })), by decide⟩,
   ⟨(stx [(Twin.state, 6), (Lgrp.state.on 32, 6), (Twin.epoch, 8)] (fun c => { { c with mirrorQ := [⟨8, 1, 3, 0, 7, 0, 0, 0xFFFFFFFF, 0, [0]⟩] } with straps := { c.straps with scale := true } })), (⟨8, 1, 3, 0, 7, 0, 0, 0xFFFFFFFF, 0, [0]⟩), by decide⟩⟩

/-- States and operands that meet the hypotheses of each clause of `PairStates`. -/
theorem witness_PairStates :
    (∃ (s : State) (sel : BitVec 4), s.Runs ∧ s.c.paired = true ∧ s.c.grpState 32 = 6 ∧ s.c.pairState = 6 ∧ sel.toNat = s.c.rd MerSel.sel) ∧
    (∃ (s : State) (sel : BitVec 4), s.Runs ∧ s.c.paired = true ∧ s.c.grpState 32 = 6 ∧ s.c.pairState = 6 ∧ sel.toNat ≤ 8 ∧ s.c.rd MerSel.sel ≤ 8 ∧ sel.toNat ≠ s.c.rd MerSel.sel) ∧
    (∃ (s : State) (st : BitVec 3), s.Runs ∧ s.c.paired = true ∧ s.c.grpState 32 = 6 ∧ s.c.pairState = 1 ∧ 2 ≤ st.toNat ∧ st.toNat ≤ 4) ∧
    (∃ (s : State), s.Runs ∧ s.c.mateLost = false ∧ s.c.pairState = 3) ∧
    (∃ (s : State), s.Runs ∧ s.c.mateLost = false ∧ s.c.pairState = 6) ∧
    (∃ (s : State), s.Runs ∧ s.c.pairState = 1 ∧ s.c.grpState 32 ≠ 6) ∧
    (∃ (s : State), s.Runs ∧ s.c.pairState = 3 ∧ s.c.on (Lgrp.rxActive.on 32) = true ∧ s.c.lsideCount ≠ s.c.twin.mateLside) ∧
    (∃ (s : State), s.Runs ∧ s.c.pairState = 3 ∧ s.c.yieldDue ≠ 0) ∧
    (∃ (s : State), s.Runs ∧ s.c.paired = true ∧ s.c.grpState 32 = 6 ∧ s.c.pairState = 6) ∧
    (∃ (s : State), s.Runs ∧ s.c.paired = true ∧ s.c.grpState 32 = 6 ∧ s.c.pairState = 4 ∧ s.c.twin.yieldCause ≠ 0 ∧ s.c.twin.yieldCause < 16) ∧
    (∃ (s : State), s.Runs ∧ s.c.pairState = 4) :=
  ⟨⟨(stx [(Twin.state, 6), (Lgrp.state.on 32, 6)] (fun c => { c with straps := { c.straps with scale := true } })), (8), by decide⟩,
   ⟨(stx [(Twin.state, 6), (Lgrp.state.on 32, 6)] (fun c => { c with straps := { c.straps with scale := true } })), (2), by decide⟩,
   ⟨(stx [(Twin.state, 1), (Lgrp.state.on 32, 6)] (fun c => { c with straps := { c.straps with scale := true } })), (4), by decide⟩,
   ⟨(stx [(Twin.state, 3), (Twin.matePresent, 1)] (fun c => { c with straps := { c.straps with scale := true } })), by decide⟩,
   ⟨(stx [(Twin.state, 6), (Twin.matePresent, 1), (Twin.lossTake, 1)] (fun c => { c with straps := { c.straps with scale := true } })), by decide⟩,
   ⟨(stx [(Twin.state, 1)] (fun c => { c with straps := { c.straps with scale := true } })), by decide⟩,
   ⟨(stx [(Twin.state, 3), (Lgrp.rxActive.on 32, 1)] (fun c => { (c.updTwin (fun x => { x with mateLside := 3 })) with straps := { c.straps with scale := true } })), by decide⟩,
   ⟨(stx [(Twin.state, 3)] (fun c => { { c with yieldDue := 2 } with straps := { c.straps with scale := true } })), by decide⟩,
   ⟨(stx [(Twin.state, 6), (Lgrp.state.on 32, 6)] (fun c => { c with straps := { c.straps with scale := true } })), by decide⟩,
   ⟨(stx [(Twin.state, 4), (Lgrp.state.on 32, 6)] (fun c => { (c.updTwin (fun x => { x with yieldCause := 3 })) with straps := { c.straps with scale := true } })), by decide⟩,
   ⟨(stx [(Twin.state, 4), (Lgrp.state.on 32, 6)] (fun c => { (c.updTwin (fun x => { x with yieldCause := 3 })) with straps := { c.straps with scale := true } })), by decide⟩⟩

/-- States and operands that meet the hypotheses of each clause of `SwitchOver`. -/
theorem witness_SwitchOver :
    (∃ (s : State), s.Runs ∧ s.c.paired = false) ∧
    (∃ (s : State) (target : BitVec 16), s.Runs ∧ s.c.paired = true ∧ target ≠ 0) ∧
    (∃ (s : State) (a0 : BitVec 32), s.Runs ∧ s.c.pairState = 3 ∧ s.c.twin.mateState = 6 ∧ (s.c.rd Twin.mateHealth = 0 ∨ a0.toNat % 2 = 1) ∧ s.c.yieldDue = 0) ∧
    (∃ (s : State), s.Runs ∧ s.c.pairState = 3 ∧ s.c.rd Twin.home ≠ b2n s.c.straps.side ∧ s.c.twin.mateState = 6 ∧ s.c.rd Twin.healthDwell ≤ s.c.rd Twin.mateGood ∧ s.c.yieldDue = 0) ∧
    (∃ (s : State), s.Runs ∧ s.c.paired = true ∧ s.c.grpState 32 = 6) ∧
    (∃ (s : State), s.Runs ∧ s.c.paired = true ∧ s.c.grpState 32 = 6 ∧ s.c.pairState = 5) ∧
    (∃ (s : State) (m : Master), s.Allows m 0 twinPage 0x58 0 false ∧ s.c.pairState = 3 ∧ s.c.mateLost = false ∧ s.c.on Twin.resyncGo = false) ∧
    (∃ (s : State), s.Runs ∧ (s.c.pairState = 2 ∨ s.c.pairState = 3) ∧ s.c.rd Twin.resyncPhase = 5) ∧
    (∃ (s : State), s.Runs ∧ s.c.pairState = 5 ∧ s.c.rd Twin.resyncPhase = 5) ∧
    (∃ (s : State), s.Runs ∧ s.c.pairState = 3 ∧ s.c.rd Twin.resyncPhase = 1) ∧
    (∃ (s : State), s.Runs ∧ s.c.pairState = 3 ∧ s.c.rd Twin.resyncPhase = 3) :=
  ⟨⟨(st []), by decide⟩,
   ⟨(stx [(Twin.state, 3)] (fun c => { c with straps := { c.straps with scale := true } })), (1), by decide⟩,
   ⟨(stx [(Twin.state, 3), (Twin.mateHealth, 1)] (fun c => { (c.updTwin (fun x => { x with mateState := 6 })) with straps := { c.straps with scale := true } })), (1), by decide⟩,
   ⟨(stx [(Twin.state, 3), (Twin.home, 1), (Twin.mateGood, 65535)] (fun c => { (c.updTwin (fun x => { x with mateState := 6 })) with straps := { c.straps with scale := true } })), by decide⟩,
   ⟨(stx [(Twin.state, 5), (Lgrp.state.on 32, 6)] (fun c => { c with straps := { c.straps with scale := true } })), by decide⟩,
   ⟨(stx [(Twin.state, 5), (Lgrp.state.on 32, 6)] (fun c => { c with straps := { c.straps with scale := true } })), by decide⟩,
   ⟨(stx [(Twin.state, 3), (Twin.matePresent, 1)] (fun c => { c with straps := { c.straps with scale := true } })), (.host), by decide⟩,
   ⟨(stx [(Twin.state, 2), (Twin.matePresent, 1), (Twin.resyncPhase, 5)] (fun c => { c with straps := { c.straps with scale := true } })), by decide⟩,
   ⟨(stx [(Twin.state, 5), (Twin.matePresent, 1), (Twin.resyncPhase, 5)] (fun c => { c with straps := { c.straps with scale := true } })), by decide⟩,
   ⟨(stx [(Twin.state, 3), (Twin.matePresent, 1), (Twin.resyncPhase, 1)] (fun c => { c with straps := { c.straps with scale := true } })), by decide⟩,
   ⟨(stx [(Twin.state, 3), (Twin.matePresent, 1), (Twin.resyncPhase, 3), (Xpt.frame, 8)] (fun c => { c with straps := { c.straps with scale := true } })), by decide⟩⟩

/-- States and operands that meet the hypotheses of each clause of `UmpireRules`. -/
theorem witness_UmpireRules :
    (∃ (s : State) (u : BitVec 13), s.Runs ∧ s.c.paired = true ∧ s.c.grpState 32 = 6 ∧ ((Store.get {} s.c.twin.umps u.toNat : UmpUnit)).mine = []) ∧
    (∃ (s : State) (u : BitVec 13) (label : Nat) (bs : List Nat), s.Runs ∧ s.c.paired = true ∧ s.c.on Ump.en = true ∧ s.c.on Ump.comparing = true ∧ s.c.unitCompared u.toNat = true ∧ s.c.unitPeriod u.toNat = some (label, some bs) ∧ ((Store.get {} s.c.twin.umps u.toNat : UmpUnit)).mine = [] ∧ ((Store.get {} s.c.twin.umps u.toNat : UmpUnit)).mates.find? (fun d => d.1 = label) = none) ∧
    (∃ (s : State) (u : BitVec 13) (label : Nat) (own : Nat) (bs : Option (List Nat)) (at_ : Stc), s.Runs ∧ s.c.paired = true ∧ s.c.on Ump.en = true ∧ s.c.on Ump.comparing = true ∧ s.c.unitCompared u.toNat = true ∧ s.c.unitPeriod u.toNat = some (label, bs) ∧ ((Store.get {} s.c.twin.umps u.toNat : UmpUnit)).mine = [(label, own, at_)]) ∧
    (∃ (s : State) (u : BitVec 13) (label : Nat) (own : Nat) (d : Nat) (at_ : Stc), s.Runs ∧ s.c.paired = true ∧ s.c.grpState 32 = 6 ∧ label < 4294967296 ∧ d < 4294967296 ∧ ((Store.get {} s.c.twin.umps u.toNat : UmpUnit)).mine = [(label, own, at_)] ∧ s.c.stc.total < at_.total ∧ own ≠ d) ∧
    (∃ (s : State) (u : BitVec 13) (label : Nat) (bs : List Nat), s.Runs ∧ s.c.paired = true ∧ s.c.on Ump.en = true ∧ s.c.on Ump.comparing = true ∧ s.c.unitCompared u.toNat = true ∧ s.c.unitPeriod u.toNat = some (label, some bs) ∧ ((Store.get {} s.c.twin.umps u.toNat : UmpUnit)).mine = [] ∧ ((Store.get {} s.c.twin.umps u.toNat : UmpUnit)).mates.find? (fun d => d.1 = label) = some (label, digestOf bs)) ∧
    (∃ (s : State) (u : BitVec 13) (label : Nat) (d : Nat) (bs : List Nat), s.Runs ∧ s.c.paired = true ∧ s.c.on Ump.en = true ∧ s.c.on Ump.comparing = true ∧ s.c.unitCompared u.toNat = true ∧ s.c.unitPeriod u.toNat = some (label, some bs) ∧ ((Store.get {} s.c.twin.umps u.toNat : UmpUnit)).mine = [] ∧ ((Store.get {} s.c.twin.umps u.toNat : UmpUnit)).mates.find? (fun e => e.1 = label) = some (label, d) ∧ d ≠ digestOf bs) ∧
    (∃ (s : State) (w : Stc × Stc), s.Runs ∧ s.c.paired = true ∧ s.c.twin.win = some w ∧ s.c.on Ump.dispute = true ∧ s.c.twin.own = none ∧ s.c.twin.mate = none) ∧
    (∃ (s : State) (u : BitVec 13), s.Runs ∧ s.c.paired = true ∧ s.c.grpState 32 = 6 ∧ s.c.on Ump.dispute = true ∧ s.c.twin.win ≠ none ∧ s.c.rd Ump.dunit = u.toNat ∧ s.c.twin.own = none) ∧
    (∃ (s : State) (u : BitVec 13) (n : Nat), s.Runs ∧ s.c.paired = true ∧ s.c.grpState 32 = 6 ∧ s.c.pairState = 3 ∧ s.c.yieldDue = 0 ∧ s.c.on Ump.dispute = true ∧ s.c.twin.win ≠ none ∧ s.c.rd Ump.dunit = u.toNat ∧ s.c.twin.own = some (true, n)) ∧
    (∃ (s : State), s.Runs ∧ s.c.paired = true ∧ s.c.on Ump.dispute = true ∧ s.c.twin.win ≠ none ∧ s.c.twin.own ≠ none ∧ s.c.twin.mate = none) :=
  ⟨⟨(stx [(Twin.state, 3), (Lgrp.state.on 32, 6)] (fun c => { c with straps := { c.straps with scale := true } })), (6150), by decide⟩,
   ⟨(stx [(Twin.state, 3), (Lgrp.state.on 32, 6), (Ump.en, 1), (Ump.comparing, 1), (Nova.nout.on 6, 1)] (fun c => { (c.updAud (fun x => { x with m := 8, novaOut := [(64*6, [1, 2])] })) with straps := { c.straps with scale := true } })), (6150), (8), ([1, 0, 0, 0, 2, 0, 0, 0]), by decide⟩,
   ⟨(stx [(Twin.state, 3), (Lgrp.state.on 32, 6), (Ump.en, 1), (Ump.comparing, 1), (Nova.nout.on 6, 1)] (fun c => { ((c.updAud (fun x => { x with m := 8, novaOut := [(64*6, [1, 2])] })).updUmp 6150 (fun x => { x with mine := [(8, 77, ⟨5, 0, 0⟩)], gaps := 15 })) with straps := { c.straps with scale := true } })), (6150), (8), (77), (some [1, 0, 0, 0, 2, 0, 0, 0]), (⟨5, 0, 0⟩), by decide⟩,
   ⟨(stx [(Twin.state, 3), (Lgrp.state.on 32, 6)] (fun c => { (c.updUmp 6150 (fun x => { x with mine := [(8, 76, ⟨5, 0, 0⟩)] })) with straps := { c.straps with scale := true } })), (6150), (8), (76), (77), (⟨5, 0, 0⟩), by decide⟩,
   ⟨(stx [(Twin.state, 3), (Lgrp.state.on 32, 6), (Ump.en, 1), (Ump.comparing, 1), (Nova.nout.on 6, 1)] (fun c => { ((c.updAud (fun x => { x with m := 8, novaOut := [(64*6, [1, 2])] })).updUmp 6150 (fun x => { x with mates := [(8, digestOf [1, 0, 0, 0, 2, 0, 0, 0])], run := 2 })) with straps := { c.straps with scale := true } })), (6150), (8), ([1, 0, 0, 0, 2, 0, 0, 0]), by decide +kernel⟩,
   ⟨(stx [(Twin.state, 3), (Lgrp.state.on 32, 6), (Ump.en, 1), (Ump.comparing, 1), (Nova.nout.on 6, 1)] (fun c => { ((c.updAud (fun x => { x with m := 8, novaOut := [(64*6, [1, 2])] })).updUmp 6150 (fun x => { x with mates := [(8, 77)], run := 2 })) with straps := { c.straps with scale := true } })), (6150), (8), (77), ([1, 0, 0, 0, 2, 0, 0, 0]), by decide +kernel⟩,
   ⟨(stx [(Twin.state, 3), (Ump.dispute, 1)] (fun c => { { (c.updTwin (fun x => { x with win := some (⟨0,0,0⟩, ⟨9,0,0⟩) })) with fcu := { c.fcu with log := [(3, { src := 0x60, esev := 3, time := ⟨1, 0, 0⟩ })] } } with straps := { c.straps with scale := true } })), ((⟨0,0,0⟩, ⟨9,0,0⟩)), by decide⟩,
   ⟨(stx [(Twin.state, 3), (Lgrp.state.on 32, 6), (Ump.dispute, 1), (Ump.dunit, 6150)] (fun c => { (c.updTwin (fun x => { x with win := some (⟨0,0,0⟩, ⟨9,0,0⟩) })) with straps := { c.straps with scale := true } })), (6150), by decide⟩,
   ⟨(stx [(Twin.state, 3), (Lgrp.state.on 32, 6), (Ump.dispute, 1), (Ump.dunit, 6150)] (fun c => { (c.updTwin (fun x => { x with win := some (⟨0,0,0⟩, ⟨9,0,0⟩), own := some (true, 7) })) with straps := { c.straps with scale := true } })), (6150), (7), by decide⟩,
   ⟨(stx [(Twin.state, 3), (Lgrp.state.on 32, 6), (Ump.dispute, 1), (Ump.dunit, 6150)] (fun c => { (c.updTwin (fun x => { x with win := some (⟨0,0,0⟩, ⟨9,0,0⟩), own := some (true, 7) })) with straps := { c.straps with scale := true } })), by decide⟩⟩

/-- States and operands that meet the hypotheses of each clause of `PairHealth`. -/
theorem witness_PairHealth :
    (∃ (s : State), s.Runs ∧ s.c.paired = true) ∧
    (∃ (s : State) (m : Master), s.Allows m 0 twinPage 0x48 0 false) ∧
    (∃ (s : State), s.Runs ∧ s.c.pairState = 6 ∧ s.c.on Twin.bistEn = true) ∧
    (∃ (s : State) (r : BistEnd), s.Runs ∧ r ≠ .failed) ∧
    (∃ (s : State) (g : Fin 32), s.Runs ∧ s.c.paired = true ∧ s.c.lsideDiffers g = true ∧ s.c.twin.lsideBad.contains g.val = false) :=
  ⟨⟨(stx [(Twin.state, 3), (Lgrp.state.on 32, 6)] (fun c => { (c.updTwin (fun x => { x with latched := 4 })) with straps := { c.straps with scale := true } })), by decide⟩,
   ⟨(stx [(Twin.state, 3), (Lgrp.state.on 32, 6)] (fun c => { (c.updTwin (fun x => { x with latched := 4 })) with straps := { c.straps with scale := true } })), (.host), by decide⟩,
   ⟨(stx [(Twin.state, 6), (Lgrp.state.on 32, 6), (Twin.bistEn, 1)] (fun c => { c with straps := { c.straps with scale := true } })), by decide⟩,
   ⟨(stx [(Twin.state, 6), (Lgrp.state.on 32, 6), (Twin.bistEn, 1)] (fun c => { c with straps := { c.straps with scale := true } })), (.abandoned), by decide⟩,
   ⟨(stx [(Twin.state, 3), (Lgrp.state.on 5, 6), (Lgrp.lside.on 5, 2), ((Xpt.transport.nth 9).live, 1), ((Xpt.group.nth 9).live, 5)] (fun c => { { c with xpt := { c.xpt with bound := [9] } } with straps := { c.straps with scale := true } })), (5), by decide⟩⟩

/-- States and operands that meet the hypotheses of each clause of `FaultLog`. -/
theorem witness_FaultLog :
    (∃ (s : State) (src : BitVec 8) (page : BitVec 16) (inst : BitVec 32) (a : Attempt), s.Runs ∧ s.c.attempt src.toNat page.toNat inst.toNat = some a ∧ a.standing = false ∧ a.real = true ∧ s.c.effSev ⟨a.src, a.page, a.inst, a.detail, true, a.inj, true, [], false⟩ ≠ 0) ∧
    (∃ (s : State) (r : Report), s.c.baseSev r ≠ 0 ∧ bit (s.c.frd Fcu.unackReal) (r.src / 16) = true) ∧
    (∃ (s : State) (m : Master), s.Allows m 0 fcuPage 0x54 1 false) ∧
    (∃ (s : State) (m : Master), s.Allows m 0 fcuPage 0x40 1 false) ∧
    (∃ (s : State), s.Runs ∧ s.c.frd Fcu.maxFrames ≠ 0) :=
  ⟨⟨(stx [] (fun c => c.updFcu (fun f => { f with attempts := [⟨0x21, 0x48, 3, 7, false, true, false⟩] }))), (0x21), (0x48), (3), (⟨0x21, 0x48, 3, 7, false, true, false⟩), by decide⟩,
   ⟨(stx [] (fun c => c.fwr Fcu.unackReal 4)), (⟨0x21, 0x48, 3, 7, true, false, false, [], false⟩), by decide⟩,
   ⟨(stx [] (fun c => ((c.fwr Fcu.unackReal 0x8005).fwr (Fcu.worstOf 15) 4).fwr (Fcu.worstOf 2) 3)), (.host), by decide⟩,
   ⟨(stx [] (fun c => (c.fwr Fcu.ffValid 1).updFcu (fun f => { f with first := some { src := 3 } }))), (.host), by decide⟩,
   ⟨(stx [] (fun c => (c.fwr Fcu.maxFrames 5).updFcu (fun f => { f with holds := [⟨0, 7, 0x30, 0, 0, 6, 0, false, false⟩, ⟨0, 8, 0x30, 0, 0, 6, 0, false, false⟩] }))), by decide⟩⟩

/-- States and operands that meet the hypotheses of each clause of `Alive`. -/
theorem witness_Alive :
    (∃ (s : State) (m : Master), s.Allows m 0 fcuPage 0x4C 1 false ∧ s.c.fcu.beaten = false ∧ s.c.frd Fcu.stop = 0) ∧
    (∃ (s : State) (m : Master), s.Allows m 0 fcuPage 0x4C 1 false ∧ s.c.fcu.beaten = true) ∧
    (∃ (s : State), s.Runs ∧ s.c.fcu.beaten = true ∧ s.c.fcu.grace = false ∧ s.c.fcu.hbStop = false) ∧
    (∃ (s : State), s.Runs ∧ s.c.fcu.beaten = true ∧ s.c.fcu.grace = true ∧ s.c.fcu.hbStop = false) ∧
    (∃ (s : State) (m : Master), s.Allows m 0 fcuPage 0x40 0 false ∧ s.c.aliveBarred = false ∧ s.c.fcu.beaten = true ∧ s.c.frd Fcu.aliveRun = 0) ∧
    (∃ (s : State) (m : Master), s.Allows m 0 fcuPage 0x40 0 false ∧ s.c.aliveBarred = true) ∧
    (∃ (s : State), s.Runs ∧ s.c.frd Fcu.aliveRun = 1 ∧ bit (s.c.rd Dev.compat) 2 = false) :=
  ⟨⟨(st []), (.host), by decide⟩,
   ⟨(stx [] (fun c => c.updFcu (fun f => { f with beaten := true, hbStop := true, grace := true }))), (.host), by decide⟩,
   ⟨(stx [] (fun c => (c.updFcu (fun f => { f with beaten := true })).fwr Fcu.aliveRun 1)), by decide⟩,
   ⟨(stx [] (fun c => (c.updFcu (fun f => { f with beaten := true, grace := true })).fwr Fcu.aliveRun 1)), by decide⟩,
   ⟨(stx [] (fun c => (c.updFcu (fun f => { f with beaten := true })).fwr Fcu.stop 2)), (.host), by decide⟩,
   ⟨(stx [] (fun c => (c.updFcu (fun f => { f with beaten := true, crit := 8 })).fwr Fcu.stop 1)), (.host), by decide⟩,
   ⟨(stx [] (fun c => c.fwr Fcu.aliveRun 1)), by decide⟩⟩

/-- States and operands that meet the hypotheses of each clause of `Injection`. -/
theorem witness_Injection :
    (∃ (s : State) (target : BitVec 16) (a0 : BitVec 32) (a1 : BitVec 32), s.Runs ∧ target.toNat < 13 ∧ checkerInstance target.toNat (a1.toNat % 65536) = true ∧ s.c.fcu.arm = none ∧ a0.toNat ≠ 0 ∧ a0.toNat < 2 ^ checkWidth target.toNat) ∧
    (∃ (s : State) (target : BitVec 16) (a1 : BitVec 32), s.Runs ∧ target.toNat < 13 ∧ checkerInstance target.toNat (a1.toNat % 65536) = true ∧ s.c.fcu.arm ≠ none) ∧
    (∃ (s : State), s.Runs ∧ s.c.fcu.arm ≠ none) ∧
    (∃ (s : State) (k : Fin 8), s.Runs ∧ k.val < 2 ∧ s.c.fcu.arm = none) ∧
    (∃ (s : State) (k : Fin 8) (syn : BitVec 16), s.Runs ∧ k.val < 2 ∧ s.c.fcu.arm = none ∧ syn ≠ 0 ∧ oneBit syn.toNat = false) :=
  ⟨⟨(st []), (2), (0x81), (0x1003F), by decide⟩,
   ⟨(stx [] (fun c => c.updFcu (fun f => { f with arm := some ⟨2, 63, 0x81, true⟩ }))), (2), (0x1003F), by decide⟩,
   ⟨(stx [] (fun c => c.updFcu (fun f => { f with arm := some ⟨2, 63, 0x81, true⟩ }))), by decide⟩,
   ⟨(st [(Hbm.pos.nth 1, 9)]), (1), by decide⟩,
   ⟨(st [(Hbm.pos.nth 1, 9)]), (1), (0x8001), by decide⟩⟩

/-- States and operands that meet the hypotheses of each clause of `FabricAccesses`. -/
theorem witness_FabricAccesses :
    (∃ (s : State) (m : Master) (addr : BitVec 32) (id : BitVec 6) (off : Nat), s.Runs ∧ s.PortTakes m id.toNat true ∧ s.c.masterRuns m = true ∧ (m = .jtag → s.c.debugSeen = true) ∧ hkRights m = true ∧ s.c.region addr.toNat = .ram off ∧ off + 4 ≤ 4194304) ∧
    (∃ (s : State) (m : Master) (addr : BitVec 32) (id : BitVec 6) (off : Nat), s.Runs ∧ m = .hk ∧ s.c.masterRuns m = true ∧ s.c.portHeld (masterNum m) true = false ∧ (id.toNat :: (s.c.inFlight.filter (fun p => p.1 = masterNum m)).map Prod.snd).eraseDups.length ≤ idLimit (masterNum m) ∧ ((s.c.inFlight.filter (fun p => p.1 = masterNum m)).map Prod.snd).filter (· = id.toNat) ≠ [] ∧ s.c.region addr.toNat = .ram off ∧ off + 4 ≤ 4194304) ∧
    (∃ (s : State) (m : Master) (addr : BitVec 32) (id : BitVec 6), s.Runs ∧ s.PortTakes m id.toNat true ∧ s.c.masterRuns m = true ∧ (m = .jtag → s.c.debugSeen = true) ∧ s.c.region addr.toNat = .none) ∧
    (∃ (s : State) (m : Master) (addr : BitVec 32) (id : BitVec 6) (p : BitVec 9) (off : BitVec 12) (w : BitVec 32), s.Runs ∧ s.PortTakes .bi2c id.toNat true ∧ s.c.masterRuns .bi2c = true ∧ m = .bi2c ∧ addr.toNat = 0x40000000 + 4096 * p.toNat + off.toNat ∧ pageExists p.toNat = true ∧ p.toNat ≠ cmdPage ∧ 0x40 ≤ off.toNat ∧ off.toNat % 4 = 0 ∧ perMaster p.toNat off.toNat = false ∧ (hasWindow p.toNat = false ∨ off.toNat ≠ 0xF4) ∧ (reached p.toNat 0 off.toNat allBits writable).any (fun f => s.c.touches f w.toNat allBits) = true ∧ (reached p.toNat 0 off.toNat allBits (fun a => decide (a = .rwl))).isEmpty = true) ∧
    (∃ (s : State) (m : Master) (id : BitVec 6), s.Runs ∧ s.PortTakes .hk id.toNat true ∧ s.c.masterRuns .hk = true ∧ m = .hk) ∧
    (∃ (s : State) (m : Master) (i : Fin 256), s.Allows m 1 umpPage i 0 true ∧ s.PortTakes m 0 true ∧ s.c.rd (twIndex (masterNum m) umpPage) = i ∧ s.c.memoryOff umpPage i = false) ∧
    (∃ (s : State) (m : Master) (i : Fin 256), s.Runs ∧ s.PortTakes m 0 false ∧ s.c.masterRuns m = true ∧ (m = .jtag → s.c.debugSeen = true) ∧ s.c.mayRead m umpPage 0xF4 = true ∧ s.c.rd (twIndex (masterNum m) umpPage) = i ∧ s.c.memoryOff umpPage i = false ∧ s.c.fcu.arm = none ∧ s.c.isPoisoned 7 umpPage i = false ∧ s.c.mirrorQ = []) ∧
    (∃ (s : State) (m : Master) (off : BitVec 29), s.Allows m 1 schedPage 0 0 true ∧ s.PortTakes m 0 true ∧ 0x02000000 ≤ off.toNat ∧ off.toNat + 4 ≤ 0x02400000 ∧ off.toNat % 4 = 0 ∧ s.c.on Sched.loadGo = false) ∧
    (∃ (s : State) (m : Master) (off : BitVec 29), s.Runs ∧ s.PortTakes m 0 false ∧ s.c.masterRuns m = true ∧ (m = .jtag → s.c.debugSeen = true) ∧ m ≠ .bi2c ∧ m ≠ .twin ∧ 0x02000000 ≤ off.toNat ∧ off.toNat + 4 ≤ 0x02400000 ∧ off.toNat % 4 = 0 ∧ s.c.fcu.arm = none ∧ s.c.mirrorQ = []) ∧
    (∃ (s : State) (m : Master) (k : Fin 64), s.Runs ∧ s.PortTakes m 0 false ∧ s.c.masterRuns m = true ∧ (m = .jtag → s.c.debugSeen = true) ∧ s.c.mayRead m (novaPage k) 0x64 = true ∧ s.c.mirrorQ = []) ∧
    (∃ (s : State) (m : Master), s.Runs ∧ s.c.masterRuns m = true ∧ s.c.portHeld (masterNum m) true = true) ∧
    (∃ (s : State) (m : Master) (id : BitVec 6), s.Runs ∧ s.c.masterRuns m = true ∧ s.c.portHeld (masterNum m) true = false ∧ idLimit (masterNum m) < (id.toNat :: (s.c.inFlight.filter (fun p => p.1 = masterNum m)).map Prod.snd).eraseDups.length) ∧
    (∃ (s : State), s.Runs) ∧
    (∃ (s : State), s.Runs) ∧
    (∃ (s : State) (m : Master) (addr : BitVec 32) (id : BitVec 6), s.Runs ∧ s.PortTakes m id.toNat false ∧ s.c.masterRuns m = true ∧ (m = .jtag → s.c.debugSeen = true) ∧ s.c.region addr.toNat = .none) :=
  ⟨⟨({ st [] with mem := [(3, 7), (8, 9)] }), (.hk), (0x10000004), (0), (4), by decide⟩,
   ⟨({ stx [] (fun c => { c with inFlight := [(0, 5), (1, 5)] }) with mem := [(3, 7), (8, 9)] }), (.hk), (0x10000004), (5), (4), by decide⟩,
   ⟨(st []), (.host), (0x20000000), (63), by decide⟩,
   ⟨(st []), (.bi2c), (0x4004804C), (0), (0x48), (0x4C), (1), by decide⟩,
   ⟨(st []), (.hk), (0), by decide⟩,
   ⟨(st [(twIndex 1 0x129, 255), (twInc 1 0x129, 1), (Pwr.clState.nth 56, 1), (Pwr.clState.nth 57, 1), (Pwr.clState.nth 58, 1), (Pwr.clState.nth 59, 1), (Pwr.clState.nth 60, 1), (Pwr.clState.nth 61, 1), (Pwr.clState.nth 62, 1), (Pwr.clState.nth 63, 1)]), (.host), (255), by decide⟩,
   ⟨(st [(twIndex 1 0x129, 255), (twInc 1 0x129, 1), (Ump.excl.nth 255, 77), (Pwr.clState.nth 56, 1), (Pwr.clState.nth 57, 1), (Pwr.clState.nth 58, 1), (Pwr.clState.nth 59, 1), (Pwr.clState.nth 60, 1), (Pwr.clState.nth 61, 1), (Pwr.clState.nth 62, 1), (Pwr.clState.nth 63, 1)]), (.host), (255), by decide⟩,
   ⟨(st []), (.host), (0x023FFFFC), by decide⟩,
   ⟨({ st [] with mem := smallImage }), (.mspi), (0x02000000), by decide⟩,
   ⟨(st [(Nova.stepsMax.on 63, 9), (Nova.stepsLast.on 63, 7)]), (.host), (63), by decide⟩,
   ⟨(stx [(Cfab.limit.nth 1, 2)] (fun c => { c with inFlight := [(1, 0), (2, 0), (1, 9)] })), (.host), by decide⟩,
   ⟨(stx [] (fun c => { c with inFlight := [(5, 0)], otp := { c.otp with debugEn := true } })), (.jtag), (3), by decide⟩,
   ⟨(st []), by decide⟩,
   ⟨(st []), by decide⟩,
   ⟨(st []), (.host), (0x20000000), (63), by decide⟩⟩

/-- States and operands that meet the hypotheses of each clause of `HostAttachment`. -/
theorem witness_HostAttachment :
    (∃ (s : State) (gen : BitVec 3), s.Runs ∧ 2 ≤ gen.toNat ∧ gen.toNat ≤ 4) ∧
    (∃ (s : State), s.Runs ∧ s.c.on Hst.linkUp = true) ∧
    (∃ (s : State), s.Runs ∧ s.c.power.warm = none ∧ s.c.host.rotate = none) ∧
    (∃ (s : State), s.Runs) ∧
    (∃ (s : State), s.Runs) ∧
    (∃ (s : State) (m : Master) (v : Fin 64), s.Allows m 0 hostPage (0x48 + 4 * (v.val / 32)) 1 false ∧ bit s.c.cond v = true ∧ s.c.on Hst.msixEn = true ∧ s.c.on (msixMask v) = false) ∧
    (∃ (s : State) (m : Master) (v : Fin 64), s.Allows m 0 hostPage (0x80C + 16 * v) 1 false ∧ s.c.on (msixMask v) = true) ∧
    (∃ (s : State) (m : Master), s.Allows m 0 hostPage 0x40 1 false ∧ s.c.rd Dev.boot = 3) :=
  ⟨⟨(st []), (4), by decide⟩,
   ⟨(st [(Hst.linkUp, 1), (Hst.gen, 3), (Hst.msixEn, 1)]), by decide⟩,
   ⟨({ st [(Hst.linkUp, 1)] with mem := (5, 3) :: smallImage }), by decide⟩,
   ⟨(st [(Hst.errCnt, 0xFFFFFFFF)]), by decide⟩,
   ⟨(stx [(Hst.linkUp, 1), (Hst.gen, 3), (Hst.msixEn, 1)] (fun c => { c with pba := 7 })), by decide⟩,
   ⟨(stx [(Hst.msixEn, 1), (msixMask 63, 0)] (fun c => { c with cond := 2^63 })), (.host), (63), by decide⟩,
   ⟨(stx [(Hst.msixEn, 1)] (fun c => { c with cond := 2^63 })), (.host), (63), by decide⟩,
   ⟨(st [(Dev.boot, 3)]), (.host), by decide⟩⟩

/-- States and operands that meet the hypotheses of each clause of `BoardController`. -/
theorem witness_BoardController :
    (∃ (s : State), s.Runs ∧ s.PortTakes .mspi 0 false ∧ s.c.masterRuns .mspi = true ∧ s.c.mirrorQ = []) ∧
    (∃ (s : State) (addr : BitVec 32), s.Runs ∧ s.PortTakes .mspi 0 false ∧ s.c.masterRuns .mspi = true ∧ s.c.region addr.toNat = .none) ∧
    (∃ (s : State), s.Allows .mspi 0 (ethPage 0) 0x4C 0 true ∧ s.PortTakes .mspi 0 true) ∧
    (∃ (s : State) (w : BitVec 32), s.Runs ∧ s.PortTakes .mspi 0 true ∧ s.c.masterRuns .mspi = true ∧ s.c.on Mgmt.mspiWr = false ∧ s.c.rd (Eth.excClass.on 0) < 32 ∧ w.toNat % 32 ≠ s.c.rd (Eth.excClass.on 0)) ∧
    (∃ (s : State), s.Runs) ∧
    (∃ (s : State), s.Runs) ∧
    (∃ (s : State), s.Runs ∧ s.PortTakes .bi2c 0 true ∧ s.c.masterRuns .bi2c = true ∧ s.c.on Mgmt.bi2cCmd = true ∧ s.c.on Cmd.go = false ∧ s.c.host.owner = none) ∧
    (∃ (s : State), s.Runs) ∧
    (∃ (s : State), s.Runs ∧ s.PortTakes .bi2c 0 false ∧ s.c.masterRuns .bi2c = true ∧ s.c.on Mgmt.bi2cCmd = true ∧ s.c.mirrorQ = [] ∧ s.c.host.i2cAddr = 0x40008060) :=
  ⟨⟨(st [(Mgmt.mspiWr, 1), (Mgmt.bi2cCmd, 1)]), by decide⟩,
   ⟨(st []), (0xFFFFFFFC), by decide⟩,
   ⟨(st [(Mgmt.mspiWr, 1)]), by decide⟩,
   ⟨(st []), (0xFFFFFFF1), by decide⟩,
   ⟨(stx [] (fun c => c.updHost (fun h => { h with spiErr := true, spiDenied := true }))), by decide⟩,
   ⟨(st []), by decide⟩,
   ⟨(st [(Mgmt.bi2cCmd, 1)]), by decide⟩,
   ⟨(st [(Mgmt.bi2cCmd, 1)]), by decide⟩,
   ⟨(stx [(Mgmt.bi2cCmd, 1), (Cmd.cntLo, 0x12345678)] (fun c => c.updHost (fun h => { h with i2cAddr := 0x40008060 }))), by decide⟩⟩

/-- States and operands that meet the hypotheses of each clause of `Mailbox`. -/
theorem witness_Mailbox :
    (∃ (s : State), s.Runs ∧ s.c.host.nonce = false) ∧
    (∃ (s : State) (m : Master), s.Runs ∧ s.PortTakes m 0 false ∧ s.c.masterRuns m = true ∧ (m = .jtag → s.c.debugSeen = true) ∧ s.c.mayRead m cmdPage 0x44 = true) ∧
    (∃ (s : State) (m : Master), s.Allows m 0 cmdPage 0x40 1 false ∧ s.c.host.owner = some (masterNum m)) ∧
    (∃ (s : State), s.Runs ∧ s.c.rd Cmd.state ≠ 1 ∧ s.c.rd Cmd.state ≠ 2) ∧
    (∃ (s : State) (m : Master), s.Allows m 0 cmdPage 0x40 0 false ∧ s.c.host.owner = some (masterNum m) ∧ s.c.on Cmd.go = false) ∧
    (∃ (s : State), s.Runs ∧ s.c.rd Cmd.state = 1 ∧ s.c.on Cmd.locked = true) ∧
    (∃ (s : State), s.Runs ∧ s.c.rd Cmd.state = 1 ∧ s.c.on Cmd.locked = false ∧ (s.c.rd Cmd.opcode = 0 ∨ 0x0B < s.c.rd Cmd.opcode)) ∧
    (∃ (s : State), s.Runs ∧ s.c.rd Cmd.state = 1 ∧ s.c.on Cmd.locked = false ∧ 1 ≤ s.c.rd Cmd.opcode ∧ s.c.rd Cmd.opcode ≤ 7 ∧ s.c.slotServes (b2n s.c.otp.active1) = true) ∧
    (∃ (s : State), s.Runs) ∧
    (∃ (s : State), s.Runs ∧ s.c.mirrors = false) ∧
    (∃ (s : State) (target : BitVec 16) (a0 : BitVec 32), s.Runs ∧ s.c.mirrors = true ∧ s.c.compatCode target.toNat a0.toNat = 0 ∧ s.c.replayFull = false) :=
  ⟨⟨(st []), by decide⟩,
   ⟨(st []), (.mspi), by decide⟩,
   ⟨(stx [] (fun c => c.updHost (fun h => { h with owner := some 1 }))), (.host), by decide⟩,
   ⟨(stx [] (fun c => c.updHost (fun h => { h with owner := some 1 }))), by decide⟩,
   ⟨(stx [(Cmd.opcode, 3)] (fun c => c.updHost (fun h => { h with owner := some 1, nonce := true }))), (.host), by decide⟩,
   ⟨(st [(Cmd.state, 1), (Cmd.locked, 1), (Cmd.go, 1)]), by decide⟩,
   ⟨(st [(Cmd.state, 1), (Cmd.opcode, 0x0C), (Cmd.go, 1)]), by decide⟩,
   ⟨(st [(Cmd.state, 1), (Cmd.opcode, 7), (Cmd.go, 1), (Cmd.cntLo, 5)]), by decide⟩,
   ⟨(st [(Cmd.locked, 1)]), by decide⟩,
   ⟨(st []), by decide⟩,
   ⟨(stx [(Twin.state, 3)] (fun c => { c with straps := { c.straps with scale := true } })), (0), (5), by decide⟩⟩

/-- States and operands that meet the hypotheses of each clause of `FirmwareAndKeys`. -/
theorem witness_FirmwareAndKeys :
    (∃ (s : State), s.Runs) ∧
    (∃ (s : State) (b : Nat) (off : Nat) (n : Nat) (seq : Nat), s.Runs ∧ s.c.host.install = some (b, off, n, seq) ∧ b < 2 ∧ 256 ≤ n ∧ off + n ≤ 4194304 ∧ seq < 4294967296) ∧
    (∃ (s : State) (b : Nat) (off : Nat) (n : Nat) (seq : Nat), s.Runs ∧ s.c.host.install = some (b, off, n, seq)) ∧
    (∃ (s : State), s.Runs ∧ s.c.host.install = none) ∧
    (∃ (s : State) (target : BitVec 16), s.Runs ∧ target.toNat = 1 ∧ s.c.otp.active1 = false ∧ s.c.otp.prog1 = true ∧ s.c.slotServes 1 = true ∧ s.c.rd (Pwr.railInWin.nth 9) ≠ 0) ∧
    (∃ (s : State) (target : BitVec 16), s.Runs ∧ (target.toNat ≠ 1 ∨ s.c.otp.active1 = true ∨ s.c.otp.prog1 = false ∨ s.c.slotServes 1 = false ∨ s.c.rd (Pwr.railInWin.nth 9) = 0)) ∧
    (∃ (s : State) (rv : Bool), s.Runs ∧ s.c.host.rotate = some rv ∧ s.c.power.deferred = none) ∧
    (∃ (s : State) (rv : Bool) (k : Nat), s.Runs ∧ s.c.host.rotate = some rv ∧ s.c.power.deferred = some k ∧ s.c.power.warm = none) ∧
    (∃ (s : State), s.Runs ∧ s.c.host.rotate = none) :=
  ⟨⟨({ st [] with mem := smallImage }), by decide⟩,
   ⟨({ stx [] (fun c => c.updHost (fun h => { h with install := some (1, 4, 260, 9) })) with mem := [(4, 7), (20, 8), (30, 5)] }), (1), (4), (260), (9), by decide⟩,
   ⟨(stx [] (fun c => c.updHost (fun h => { h with install := some (1, 0, 260, 9) }))), (1), (0), (260), (9), by decide⟩,
   ⟨(st []), by decide⟩,
   ⟨(stx [(Pwr.railInWin.nth 9, 1)] (fun c => { c with otp := { c.otp with prog1 := true } })), (1), by decide⟩,
   ⟨(stx [(Pwr.railInWin.nth 9, 0)] (fun c => { c with otp := { c.otp with prog1 := true } })), (1), by decide⟩,
   ⟨(stx [] (fun c => c.updHost (fun h => { h with rotate := some true }))), (true), by decide⟩,
   ⟨(stx [] (fun c => (c.updHost (fun h => { h with rotate := some true })).updPower (fun x => { x with deferred := some 3 }))), (true), (3), by decide⟩,
   ⟨(st []), by decide⟩⟩

/-- States and operands that meet the hypotheses of each clause of `ColdAndPor`. -/
theorem witness_ColdAndPor :
    (∃ (s : State), (s.c.power.asserted = 0 ∨ s.c.power.asserted = 2)) ∧
    (∃ (s : State), (s.c.power.asserted = 1 ∨ s.c.power.asserted = 3)) ∧
    (∃ (s : State) (n : Fin 10), n ≠ 1 ∧ n ≠ 9 ∧ s.c.power.asserted ≠ 1) ∧
    (∃ (s : State) (n : Fin 10), (n = 1 ∨ n = 9 ∨ s.c.power.asserted = 1)) ∧
    (∃ (s : State), (s.c.power.asserted = 1 ∨ s.c.power.asserted = 2 ∨ (s.c.power.asserted = 0 ∧ s.c.rd Dev.boot = 0 ∧ s.c.power.warm = none))) ∧
    (∃ (s : State), s.c.power.asserted = 3) :=
  ⟨⟨({ stx [(Rst.nWarm, 3), (Pwr.service, 1), (MerHold.value, 5)] (fun c => { c with latTol := [(3, 7)] }) with mem := [(4, 9), (51539607557, 7)] }), by decide⟩,
   ⟨(stx [] (fun c => c.updPower (fun x => { x with asserted := 3 }))), by decide⟩,
   ⟨(stx [(Rst.nWarm, 3)] (fun c => { c with latTol := [(3, 7)] })), (0), by decide⟩,
   ⟨(st []), (9), by decide⟩,
   ⟨(State.reset), by decide⟩,
   ⟨(stx [] (fun c => c.coldReset 3)), by decide⟩⟩

/-- States and operands that meet the hypotheses of each clause of `WarmAndBlock`. -/
theorem witness_WarmAndBlock :
    (∃ (s : State) (m : Master), s.Allows m 0 devPage 0x4C 0 false ∧ s.c.power.warm = none ∧ s.c.host.rotate = none) ∧
    (∃ (s : State), s.Runs ∧ s.c.power.warm ≠ none) ∧
    (∃ (s : State) (m : Master), s.Allows m 0 devPage 0x4C 0 false ∧ s.c.power.warm = none ∧ s.c.host.rotate ≠ none) ∧
    (∃ (s : State) (k : Nat), s.Runs ∧ s.c.power.warm = some k ∧ k < 8) ∧
    (∃ (s : State) (m : Master) (p : BitVec 16), pageExists p.toNat = true ∧ blockResets p.toNat = true ∧ s.Allows m 0 p.toNat 0x08 0 (brstMirrored p.toNat) ∧ s.c.keeperGuards p.toNat (s.c.ctrlWord p.toNat + 2) allBits = false ∧ s.c.isResetting p.toNat = false) ∧
    (∃ (s : State) (p : BitVec 16), s.Runs ∧ s.c.isResetting p.toNat = true) ∧
    (∃ (s : State) (m : Master) (p : BitVec 16) (w : BitVec 32), pageExists p.toNat = true ∧ s.Allows m 0 p.toNat 0x08 0 (enableMirrored p.toNat) ∧ s.c.keeperGuards p.toNat w.toNat allBits = false ∧ bit w.toNat 1 = false ∧ enableWritable p.toNat = true) :=
  ⟨⟨({ st [(Pwr.service, 1)] with mem := [(4, 9), (51539607557, 7)] }), (.host), by decide⟩,
   ⟨(stx [] (fun c => c.updPower (fun x => { x with warm := some 3 }))), by decide⟩,
   ⟨(stx [] (fun c => c.updHost (fun h => { h with rotate := some true }))), (.host), by decide⟩,
   ⟨(stx [(Rst.nWarm, 65535)] (fun c => c.updPower (fun x => { x with warm := some 4 }))), (4), by decide⟩,
   ⟨(stx [] (fun c => en 0x48 (c.stick 0x48 3))), (.host), (0x48), by decide⟩,
   ⟨(stx [] (fun c => { c with resetting := [(0x48, 1)] })), (0x48), by decide⟩,
   ⟨(st []), (.host), (0x48), (9), by decide⟩⟩

/-- States and operands that meet the hypotheses of each clause of `PowerStates`. -/
theorem witness_PowerStates :
    (∃ (s : State) (k : Fin 64), s.Runs ∧ s.c.cluster k < s.c.allowedState k ∧ s.c.allowedState k < 4) ∧
    (∃ (s : State) (k : Fin 64), s.Runs ∧ s.c.cluster k = 1) ∧
    (∃ (s : State) (k : Fin 64), s.Runs ∧ 2 ≤ s.c.cluster k ∧ s.c.cluster k ≤ 4 ∧ s.c.power.waits.contains k.val = false) ∧
    (∃ (s : State) (k : Fin 64), s.Runs ∧ 2 ≤ s.c.cluster k ∧ s.c.cluster k ≤ 4 ∧ s.c.power.waits.contains k.val = false) ∧
    (∃ (s : State) (k : Fin 64), s.Runs ∧ s.c.power.waits.contains k.val = true ∧ 2 ≤ s.c.cluster k ∧ s.c.cluster k ≤ 4) ∧
    (∃ (s : State) (k : Fin 64), s.Runs ∧ s.c.cluster k = 5 ∧ s.c.power.starts = []) ∧
    (∃ (s : State) (m : Master), s.Allows m 0 pwrPage 0x40 0 false) ∧
    (∃ (s : State), s.Runs) ∧
    (∃ (s : State), s.Runs) ∧
    (∃ (s : State) (r : Report), s.Runs ∧ r = ⟨0xD7, devPage, 0, 0, true, false, true, [], false⟩) ∧
    (∃ (s : State) (r : Report), s.Runs ∧ r = ⟨0xD8, devPage, 0, 0, true, false, true, [], false⟩) :=
  ⟨⟨(st [(Pwr.clState.nth 60, 0)]), (60), by decide⟩,
   ⟨(st [(Pwr.clState.nth 63, 1)]), (63), by decide⟩,
   ⟨(st []), (0), by decide⟩,
   ⟨(st [(Pwr.deferCnt, 65535)]), (63), by decide⟩,
   ⟨(stx [(Pwr.deferring, 1)] (fun c => c.updPower (fun x => { x with waits := [5, 9] }))), (9), by decide⟩,
   ⟨(st [(Pwr.clState.nth 12, 5)]), (12), by decide⟩,
   ⟨(st []), (.host), by decide⟩,
   ⟨(st []), by decide⟩,
   ⟨(st []), by decide⟩,
   ⟨(st []), (⟨0xD7, devPage, 0, 0, true, false, true, [], false⟩), by decide⟩,
   ⟨(st []), (⟨0xD8, devPage, 0, 0, true, false, true, [], false⟩), by decide⟩⟩

/-- States and operands that meet the hypotheses of each clause of `EdgeCrossings`. -/
theorem witness_EdgeCrossings :
    (∃ (s : State) (u : RetimerUse) (b : List Nat), s.Runs ∧ (s.c.retimer u).filling = some b) ∧
    (∃ (s : State) (u : RetimerUse) (inTime : Bool), s.Runs ∧ (inTime = false ∨ (s.c.retimer u).filling = none)) ∧
    (∃ (s : State) (o : Fin 1152) (b : List Nat), s.Runs ∧ s.c.rd (Xpt.transport.nth o).live = 1 ∧ s.c.outSt o = 1 ∧ s.c.inGap o = false ∧ (s.c.retimer (.video o)).filling = some b) ∧
    (∃ (s : State), s.Runs) :=
  ⟨⟨(stx [] (fun c => { c with retimers := [⟨.video 1151, some [1, 0xFFFFFFFF], [7], true⟩] })), (.video 1151), ([1, 0xFFFFFFFF]), by decide⟩,
   ⟨(stx [(Mix.run, 1)] (fun c => { (c.updAud (fun a => { a with isOpen := true })) with retimers := [⟨.tile 63, none, [7, 8], false⟩] })), (.tile 63), (true), by decide⟩,
   ⟨(stx [((Xpt.transport.nth 9).live, 1), ((Xpt.fmt.nth 9).live, 0x42), (Xpt.fset.nth 9, 0xFFFFFF42)] (fun c => { c with retimers := [⟨.video 9, some [1, 2], [7], true⟩], xpt := { c.xpt with bound := [9] } })), (9), ([1, 2]), by decide⟩,
   ⟨(st []), by decide⟩⟩

/-- A step with a command waiting, from a state whose memory is in canonical form. -/
theorem witness_InvariantKept : ∃ s t : State, s.Inv ∧ s.pending ≠ [] ∧ step s = .next t :=
  ⟨{ State.reset with pending := [.sampleInstant], mem := [(5, 3)] }, _, (by show Mem.wf [(5, 3)] = true; decide), by decide, rfl⟩

/-- An empty queue. -/
theorem witness_FrontCommandRuns : ∃ s : State, s.pending = [] := ⟨State.reset, rfl⟩

/-- A field whose reset value fits it. -/
theorem witness_InvariantAtReset : ∃ f : Fld, 0 < f.w ∧ f.por < 2 ^ f.w ∧ f.por ≠ 0 := ⟨Pwr.clState, by decide⟩

/-- A command in a running machine, and one while POR is asserted. -/
theorem witness_QueueAndHeldReset :
    (∃ (i : Instr) (s t : State), exec i s = .next t) ∧
    (∃ (i : Instr) (s t : State), exec i s = .next t ∧ s.c.power.asserted ≠ 0 ∧ i ≠ .por ∧ i ≠ .coldReset ∧ (∀ n, i ≠ .brownOut n) ∧
      (∀ a b c d, i ≠ .resetRelease a b c d) ∧ (∀ a b c d, i ≠ .brownOutRecovery a b c d)) :=
  ⟨⟨.sampleInstant, State.reset, _, rfl⟩,
   ⟨.sampleInstant, stx [] (fun c => c.updPower (fun x => { x with asserted := 1 })), _, rfl, by decide, (by intro h; cases h), (by intro h; cases h),
    (by intro n h; cases h), (by intro a b c d h; cases h), (by intro a b c d h; cases h)⟩⟩

/-- A command in a running machine, and the two resets, for a page that exists. -/
theorem witness_InterruptLine :
    (∃ (i : Instr) (s t : State), s.Runs ∧ exec i s = .next t) ∧
    (∃ (s t : State) (p : Nat), pageExists p = true ∧ exec .por s = .next t) ∧
    (∃ (s t : State) (p : Nat), pageExists p = true ∧ (s.c.power.asserted = 0 ∨ s.c.power.asserted = 2) ∧ exec .coldReset s = .next t) :=
  ⟨⟨.sampleInstant, State.reset, _, by decide, rfl⟩, ⟨State.reset, _, 0x128, by decide, rfl⟩,
   ⟨State.reset, _, 0x48, by decide, by decide, rfl⟩⟩

/-- A field of a word, a place at the end of a region, and a byte lane. -/
theorem witness_ByteOrder :
    (∃ (p sp off : Nat) (f : Fld), f ∈ wordFields p sp off) ∧ (∃ o : Nat, o + 4 ≤ 8589934592) ∧
    (∃ old data be k : Nat, old < 4294967296 ∧ data < 4294967296 ∧ be < 16 ∧ k < 4) :=
  ⟨⟨0x2, 0, 0x44, Rst.nBlock, by decide⟩, ⟨8589934588, by decide⟩, ⟨4294967295, 1, 15, 3, by decide⟩⟩

end Sys2Proof.Tests
end

section
/-! SUPPORT. The forms that the meanings of the commands take, and what each form keeps (O57). -/

namespace Sys2Proof.Machine

/-- Either branch of a test keeps the canonical form. -/
theorem KeepsWf.ite {m : Mem} {p : Prop} [Decidable p] {q r : Chip × Mem} (h : KeepsWf m q) (k : KeepsWf m r) :
    KeepsWf m (if p then q else r) := by
  split
  · exact h
  · exact k

/-- What is done to the chip afterwards does not matter to memory. -/
theorem KeepsWf.withChip {m : Mem} {r : Chip × Mem} (h : KeepsWf m r) (c : Chip) : KeepsWf m (c, r.2) := h

/-- The reset of memory that comes with POR and COLD keeps the canonical form. -/
theorem coldReset_wf (c : Chip) (m : Mem) : KeepsWf m (c, Mem.coldReset m) := Mem.wf_coldReset m

/-! ## The three forms of a meaning -/

/-- The events of the supplies and the reset pins, which take place while a reset is asserted too (R463, R472). -/
def actsInReset : Instr → Bool
  | .por | .coldReset | .brownOut _ | .resetRelease .. | .brownOutRecovery .. => true
  | _ => false

/-- What the meaning of a command can be: it leaves byte memory alone, it writes byte memory and keeps the canonical form, or it does so
in a reset too. -/
inductive ExecForm (s : State) : Bool → Host.Outcome State Fault Refusal → Prop
  | plain (f : Chip → Chip) : ExecForm s false (act s f)
  | writing (f : Chip → Mem → Chip × Mem) (h : ∀ c m, KeepsWf m (f c m)) : ExecForm s false (actMem s f)
  | always (f : Chip → Mem → Chip × Mem) (h : ∀ c m, KeepsWf m (f c m)) : ExecForm s true (actAlways s f)

/-- A command that only reads byte memory. -/
theorem ExecForm.reading (s : State) (f : Chip → Mem → Chip) : ExecForm s false (actMem s (fun c m => (f c m, m))) :=
  .writing _ fun c m => .same m (f c m)

/-! ## Meanings that take several steps to read -/

theorem execGroupFrameReceive_form (g fill : Fin 33) (s : State) : ExecForm s false (execGroupFrameReceive g fill s) := by
  refine .writing _ fun c m => .ite (.same m c) (.ite (.same m _) ?_)
  have cells {p : Prop} [Decidable p] (d : Chip) (l : List (List Nat)) : KeepsWf m (if p then d.takeCells m l else (d, m)) :=
    .ite (takeCells_wf l d m) (.same m d)
  exact .ite (.withChip (cells _ _) _) (.ite (.withChip (cells _ _) _) (.withChip (cells _ _) _))

theorem execPictureStart_form (n : Fin 64) (s : State) : ExecForm s false (execPictureStart n s) := by
  refine .writing _ fun c m => .ite (.same m c) ?_
  dsimp only
  split
  · exact .same m _
  · exact .ite (.same m _) (.ite (.same m _) (.same m _))

theorem execCpuFrameSend_form (k : Fin 32) (s : State) : ExecForm s false (execCpuFrameSend k s) := by
  refine .writing _ fun c m => ?_
  dsimp only
  split
  · exact .same m c
  · exact .ite (.same m c) (.ite (.same m _) (.same m _))

theorem execCrcMemoryJobDone_form (s : State) : ExecForm s false (execCrcMemoryJobDone s) := by
  refine .writing _ fun c m => ?_
  dsimp only
  split
  · exact .same m c
  · exact .same m _

theorem execQueueDisable_form (ma : Master) (q : Fin 16376) (w0 : BitVec 32) (s : State) :
    ExecForm s false (execQueueDisable ma q w0 s) := by
  unfold execQueueDisable
  exact .plain _

theorem execTableWindowAccess_form (ma : Master) (p : BitVec 16) (data : Option (BitVec 32 × BitVec 4)) (syn again : BitVec 32)
    (s : State) : ExecForm s false (execTableWindowAccess ma p data syn again s) := by
  refine .writing _ fun c m => transact_wf c m ma _ 0 _ _ fun d => .ite (.same m _) (.ite (.same m _) ?_)
  cases data with
  | some w => exact regWordWrite_wf _ m ma _ 0xF4 _ _
  | none =>
    refine .ite (.same m _) ?_
    dsimp only
    split
    · exact .same m _
    · exact .same m _
    · exact .same m _

theorem execTableSpaceAccess_form (ma : Master) (off : BitVec 29) (data : Option (List (BitVec 32 × BitVec 4))) (n : BitVec 7)
    (syn again : BitVec 32) (s : State) : ExecForm s false (execTableSpaceAccess ma off data n syn again s) := by
  refine .writing _ fun c m => transact_wf c m ma _ 0 _ _ fun d => .ite (.same m _) ?_
  cases data with
  | some ws => exact .ite (.same m _) (tsWrite_wf _ m ma _ _)
  | none => exact .ite (.same m _) (.ite (.same m _) (.same m _))

theorem execDecerrRead_form (ma : Master) (addr : BitVec 32) (id' : BitVec 6) (n : BitVec 7) (over_ : Bool) (s : State) :
    ExecForm s false (execDecerrRead ma addr id' n over_ s) :=
  .writing _ fun c m => .ite (.same m _) (transact_wf c m ma _ _ false _ fun _ => .same m _)

/-! ## Every command -/

/-- The meaning of every command has one of the three forms. -/
theorem exec_form (i : Instr) (s : State) : ExecForm s (actsInReset i) (exec i s) := by
  unfold exec
  cases i with
  | por => exact .always _ fun _ m => coldReset_wf _ m
  | coldReset => exact .always _ fun c m => .ite (.same m c) (coldReset_wf _ m)
  | brownOut n => exact .always _ fun c m => .ite (.same m c) (coldReset_wf _ m)
  | brownOutRecovery => exact .always _ fun c m => .ite (release_wf c m _ 2) (.same m c)
  | resetRelease => exact .always _ fun c m => .ite (release_wf c m _ 1) (.ite (release_wf c m _ 0) (.same m c))
  | groupFrameReceive g fill => exact execGroupFrameReceive_form g fill s
  | pictureStart n => exact execPictureStart_form n s
  | cpuFrameSend k => exact execCpuFrameSend_form k s
  | crcMemoryJobDone => exact execCrcMemoryJobDone_form s
  | queueDisable m q w0 => exact execQueueDisable_form m q w0 s
  | tableWindowAccess m p data syn again => exact execTableWindowAccess_form m p data syn again s
  | tableSpaceAccess m off data n syn again => exact execTableSpaceAccess_form m off data n syn again s
  | decerrRead m addr id n over_ => exact execDecerrRead_form m addr id n over_ s
  | composerLine => exact .writing _ fun c m => .ite (.same m c) (.same m _)
  | periodBoundary => exact .writing _ fun c m => .ite (.same m _) (.same m c)
  | imageValidationDone => exact .writing _ fun c m => .ite (.same m c) (.same m _)
  | keeperCrcCheck => exact .reading s _
  | schedLoad => exact .reading s _
  | mspiRead => exact .reading s _
  | bi2cRead => exact .reading s _
  | bootGo => exact .reading s _
  | keeperLoadComplete n => exact .writing _ fun c m => keeperLoaded_wf c m n
  | writeCell => exact .writing _ fun c m => writeCell_wf c m _ _ _ _ _ _ _ _ _
  | bulkCell => exact .writing _ fun c m => bulkCell_wf c m _ _ _ _ _ _
  | decisionCell => exact .writing _ fun c m => decisionCell_wf c m _ _ _ _ _ _
  | mirrorApply => exact .writing _ fun c m => .ite (mirrorStep_wf c m) (.same m c)
  | resyncPhaseDone compat cores =>
    exact .writing _ fun c m => .ite (.same m _) (.ite (resyncReceived_wf c m _ cores) (.same m c))
  | registerWrite m => exact .writing _ fun c mem => transact_wf c mem m _ _ true _ fun d => fabricWrite_wf d mem m _ _ _
  | sinceLastReadRestart m => exact .writing _ fun c mem => transact_wf c mem m _ 0 false _ fun _ => .same mem _
  | cmdClaim m => exact .writing _ fun c mem => transact_wf c mem m _ 0 false _ fun _ => .same mem _
  | mspiWrite => exact .writing _ fun c m => .withChip (serialWrites_wf _ _ m .mspi _) _
  | bi2cWrite => exact .writing _ fun c m => .withChip (serialWrites_wf _ c m .bi2c _) _
  | fwInstall => exact .writing _ fun c m => fwInstall_wf c m _ _ _
  | fwInstallDone ok => exact .writing _ fun c m => fwInstallDone_wf c m ok
  | keyRotateDone ok => exact .writing _ fun c m => keyRotateDone_wf c m ok
  | usb4RouterReset => exact .writing _ fun c m => warmRequest_wf c m 4
  | warmRst m => exact .writing _ fun c mem => .ite (.same mem _) (.ite (.same mem _) (warmRequest_wf _ mem 3))
  | warmResetDone => exact .writing _ fun c m => warmDone_wf c m
  | _ => exact .plain _

/-- Whatever form a meaning has, it keeps the canonical form of byte memory. -/
theorem ExecForm.keeps_inv {s t : State} {b : Bool} {o : Host.Outcome State Fault Refusal} (h : ExecForm s b o) (hs : s.Inv)
    (e : o = .next t) : t.Inv := by
  cases h with
  | plain f =>
    obtain ⟨hm, -⟩ := act_keeps s t f e
    rw [State.Inv, hm]
    exact hs
  | writing f hf => exact (actMem_keeps s t f hf hs e).1
  | always f hf => exact (actAlways_keeps s t f hf hs e).1

/-- Settles O57: an empty queue idles, and every command's meaning has a form that keeps the canonical form. -/
theorem invariantKept : Obligations.InvariantKept := by
  intro s t hs e
  unfold step at e
  split at e
  · injection e with e
    exact e ▸ hs
  · next i rest _ => exact (exec_form i { s with pending := rest }).keeps_inv hs e

end Sys2Proof.Machine
end

section
/-! SUPPORT. Fields within their words, little-endian bytes of memory, and byte enables (O60). -/

namespace Sys2Proof.Machine

/-! ## Fields stand in one word -/

/-- The field maps that `fieldsOf` gives out. -/
def pageMaps : List (List Fld) :=
  [[], Lgrp.fields, Eth.fields, Cmp.fields, Sap.fields, Nova.fields, Dev.fields, Pwr.fields, Rst.fields, Fcu.fields, Cmd.fields,
   Cfab.fields, Hst.fields, Mgmt.fields, MerSel.fields, MerLoop.fields, MerHold.fields, Ptp.fields, Time.fields, Flowq.fields,
   Crcu.fields, Vin.fields, Vpkt.fields, Xpt.fields, Fsync.fields, Asrc.fields, Amap.fields, Mix.fields, Sched.fields, Twin.fields,
   Ump.fields, Hbm.fields]

/-- Whether a field ends within its 32-bit word. -/
def Fld.fits (f : Fld) : Bool := f.lo + f.w ≤ 32

theorem pageMaps_fit : ∀ l ∈ pageMaps, ∀ f ∈ l, f.fits = true := by decide

@[simp] theorem Fld.fits_on (f : Fld) (i : Nat) : (f.on i).fits = f.fits := rfl
@[simp] theorem Fld.fits_nth (f : Fld) (i : Nat) : (f.nth i).fits = f.fits := rfl

/-- A page's map is one of the field maps, as it stands or moved to one of the pages of its block. -/
theorem fieldsOf_cases (p : Nat) : fieldsOf p ∈ pageMaps ∨ ∃ l ∈ pageMaps, ∃ i, fieldsOf p = onPage i l := by
  unfold fieldsOf
  split
  · exact .inr ⟨Lgrp.fields, by simp [pageMaps], _, rfl⟩
  split
  · exact .inr ⟨Eth.fields, by simp [pageMaps], _, rfl⟩
  split
  · exact .inr ⟨Cmp.fields, by simp [pageMaps], _, rfl⟩
  split
  · exact .inr ⟨Sap.fields, by simp [pageMaps], _, rfl⟩
  split
  · exact .inr ⟨Nova.fields, by simp [pageMaps], _, rfl⟩
  · left
    split <;> simp [pageMaps]

theorem fieldsOf_fit (p : Nat) : ∀ f ∈ fieldsOf p, f.fits = true := by
  intro f hf
  rcases fieldsOf_cases p with h | ⟨l, hl, i, h⟩
  · exact pageMaps_fit _ h f hf
  · rw [h] at hf
    obtain ⟨g, hg, rfl⟩ := List.mem_map.mp hf
    exact pageMaps_fit l hl g hg

theorem fsevFields_fit (p off : Nat) : ∀ f ∈ fsevFields p off, f.fits = true := by
  intro f hf
  unfold fsevFields at hf
  dsimp only at hf
  split at hf
  · cases hf
  · rcases List.mem_append.mp hf with h | h
    · split at h
      · cases h
      · cases List.mem_singleton.mp h; rfl
    · cases List.mem_singleton.mp h; rfl

/-- A member's own reset value leaves its field within its word. -/
theorem fixFld_fits (f : Fld) (h : f.fits = true) : (fixFld f).fits = true := by
  unfold fixFld
  split
  · exact h
  split
  · rfl
  split
  · rfl
  · exact h

theorem wordFields_fit (p sp off : Nat) : ∀ f ∈ wordFields p sp off, f.fits = true := by
  intro f hf
  unfold wordFields at hf
  split at hf
  · split at hf
    · exact fsevFields_fit p off f hf
    · cases hf
  · obtain ⟨g, hg, hgf⟩ := List.mem_filterMap.mp hf
    obtain ⟨i, -, rfl⟩ := Option.map_eq_some_iff.mp hgf
    exact fixFld_fits _ (fieldsOf_fit p g hg)

/-! ## Little-endian bytes -/

@[simp] theorem length_leBytes (n v : Nat) : (leBytes n v).length = n := by
  induction n generalizing v with
  | zero => rfl
  | succ n ih => simp [leBytes, ih]

/-- Byte `k` of a number, counted from the lowest. -/
theorem getD_leBytes (n v k : Nat) (h : k < n) : (leBytes n v).getD k 0 = v / 256 ^ k % 256 := by
  induction n generalizing v k with
  | zero => omega
  | succ n ih =>
    cases k with
    | zero => simp [leBytes]
    | succ k =>
      simp only [leBytes, List.getD_cons_succ]
      rw [ih _ _ (by omega), Nat.div_div_eq_div_mul, Nat.pow_succ']

theorem leNat_leBytes (n v : Nat) : leNat (leBytes n v) = v % 256 ^ n := by
  induction n generalizing v with
  | zero => simp [leBytes, leNat, Nat.mod_one]
  | succ n ih => rw [leBytes, leNat, ih, Nat.mod_mod, Nat.pow_succ', Nat.mod_mul]

/-- Bytes written at rising offsets read as they were written. -/
theorem Mem.byte_puts_at (m : Mem) (r o k : Nat) (l : List Nat) (hk : k < l.length) (hb : o + l.length ≤ 8589934592) :
    Mem.byte (Mem.puts m r o l) r (o + k) = l.getD k 0 % 256 := by
  induction l generalizing m o k with
  | nil => simp at hk
  | cons v t ih =>
    simp only [List.length_cons] at hk hb
    simp only [Mem.puts]
    cases k with
    | zero => exact (Mem.byte_puts_below _ r (o + 1) o t (by omega) (by omega)).trans (by simp)
    | succ k => rw [show o + (k + 1) = o + 1 + k by omega, ih _ _ _ (by omega) (by omega), List.getD_cons_succ]

/-- Bytes written at rising offsets are read back, each cut to eight bits. -/
theorem Mem.bytes_puts (m : Mem) (r o : Nat) (l : List Nat) (hb : o + l.length ≤ 8589934592) :
    Mem.bytes (Mem.puts m r o l) r o l.length = l.map (· % 256) := by
  induction l generalizing m o with
  | nil => rfl
  | cons v t ih =>
    simp only [List.length_cons] at hb
    have head : Mem.byte (Mem.puts m r o (v :: t)) r o = v % 256 := Mem.byte_puts_at m r o 0 (v :: t) (by simp) (by simpa using hb)
    have rest : Mem.bytes (Mem.puts m r o (v :: t)) r (o + 1) t.length = t.map (· % 256) := ih _ _ (by omega)
    rw [List.length_cons, Mem.bytes, head, rest, List.map_cons]

theorem leNat_map_mod (l : List Nat) : leNat (l.map (· % 256)) = leNat l := by
  induction l with
  | nil => rfl
  | cons v t ih => rw [List.map_cons, leNat, leNat, ih, Nat.mod_mod]

/-- A word written as its little-endian bytes is read back. -/
theorem Mem.word_puts_leBytes (m : Mem) (r o v : Nat) (hv : v < 4294967296) (hb : o + 4 ≤ 8589934592) :
    Mem.word (Mem.puts m r o (leBytes 4 v)) r o = v := by
  have h := Mem.bytes_puts m r o (leBytes 4 v) (by simpa using hb)
  rw [length_leBytes] at h
  rw [Mem.word, h, leNat_map_mod, leNat_leBytes]
  omega

/-! ## Byte enables -/

/-- Each bit of a merged word comes from the data where the mask holds 1 and from the old word elsewhere. -/
theorem testBit_mergeBits (old data mask i : Nat) (hm : mask < 2 ^ 32) (hi : i < 32) :
    (mergeBits old data mask).testBit i = if mask.testBit i then data.testBit i else old.testBit i := by
  have comp : (allBits - mask).testBit i = !mask.testBit i := by
    rw [allBits, Nat.sub_sub, Nat.add_comm 1, Nat.testBit_two_pow_sub_succ hm]
    simp [hi]
  rw [mergeBits, Nat.testBit_or, Nat.testBit_and, Nat.testBit_and, comp]
  cases mask.testBit i <;> simp

theorem beMask_lt (be : Nat) : beMask be < 2 ^ 32 := by
  unfold beMask
  omega

/-- The eight bits of a byte in the mask are its byte enable. -/
theorem testBit_beMask : ∀ be < 16, ∀ k < 4, ∀ j < 8, (beMask be).testBit (8 * k + j) = bit be k := by decide

/-- Bit `j` of byte `k` of a number. -/
theorem testBit_byte (v k j : Nat) : (v / 256 ^ k % 256).testBit j = (decide (j < 8) && v.testBit (8 * k + j)) := by
  rw [show (256 : Nat) ^ k = 2 ^ (8 * k) by rw [Nat.pow_mul], show (256 : Nat) = 2 ^ 8 from rfl, Nat.testBit_mod_two_pow,
    Nat.testBit_div_two_pow, Nat.add_comm]

/-- Byte `k` of a merged word is the data's where its enable is set, and stays as it was elsewhere. -/
theorem byte_mergeBits (old data be k : Nat) (hbe : be < 16) (hk : k < 4) :
    mergeBits old data (beMask be) / 256 ^ k % 256 = if bit be k then data / 256 ^ k % 256 else old / 256 ^ k % 256 := by
  refine Nat.eq_of_testBit_eq fun j => ?_
  by_cases hj : j < 8
  · rw [testBit_byte, testBit_mergeBits old data _ _ (beMask_lt be) (by omega), testBit_beMask be hbe k hk j hj]
    split <;> simp only [testBit_byte]
  · split <;> simp only [testBit_byte, hj, decide_false, Bool.false_and]

/-- With all four byte enables set the whole word is the data. -/
theorem mergeBits_all (old data : Nat) (h : data < 4294967296) : mergeBits old data (beMask 15) = data := by
  have full : data &&& 4294967295 = data := Nat.and_two_pow_sub_one_of_lt_two_pow (n := 32) h
  simp [mergeBits, beMask, allBits, full]

/-- A whole word stored is its four little-endian bytes. -/
theorem Mem.putWords_whole (m : Mem) (r o w : Nat) (h : w < 4294967296) :
    Mem.putWords m r o [(w, 15)] = Mem.puts m r o (leBytes 4 w) := by
  rw [Mem.putWords, Mem.putWords, mergeBits_all _ _ h]

/-- Settles O60: the field maps fit their words, a stored word is its little-endian bytes, and a byte enable opens its own byte. -/
theorem byteOrder : Obligations.ByteOrder := by
  refine ⟨fun p sp off f hf => ?_, fun m r o w ho => ?_, fun old data be k _ _ hbe hk => byte_mergeBits old data be k hbe hk⟩
  · simpa [Fld.fits] using wordFields_fit p sp off f hf
  · rw [Mem.putWords_whole m r o _ w.isLt]
    refine ⟨fun k hk => ?_, Mem.word_puts_leBytes m r o _ w.isLt ho⟩
    rw [Mem.byte_puts_at _ _ _ _ _ (by simpa using hk) (by simpa using ho), getD_leBytes _ _ _ hk, Nat.mod_mod]

end Sys2Proof.Machine
end

section
/-! SUPPORT. Retimers and intake synchronisers: what a release event does to the retimer, the unit that it belongs to and what leaves
(O54). -/

namespace Sys2Proof.Machine

/-! ## What has left stays when a command with nothing to report ends -/

theorem out_prefix_sendVector (c : Chip) (v : Nat) : c.out <+: (c.sendVector v).out := by
  unfold Chip.sendVector
  split
  · exact List.prefix_refl _
  · split
    · exact List.prefix_refl _
    · exact List.prefix_append _ _

theorem out_prefix_interrupts (c : Chip) : c.out <+: c.interrupts.out := by
  unfold Chip.interrupts
  dsimp only
  split
  · exact List.prefix_refl _
  · refine List.foldlRecOn (motive := fun d : Chip => c.out <+: d.out) _ _ (List.prefix_refl _) fun d hd v _ => ?_
    split
    · exact hd.trans (out_prefix_sendVector d v)
    · exact hd

/-- The messages of interrupts come after what the command's own effect has driven outward. -/
theorem out_prefix_settle (c : Chip) (h : c.reports = []) : c.out <+: c.settle.out := by
  unfold Chip.settle
  simp only [h, List.isEmpty_nil, if_true]
  exact out_prefix_interrupts c

theorem mem_out_settle {c : Chip} {x : Out} (h : c.reports = []) (hx : x ∈ c.out) : x ∈ c.settle.out :=
  (out_prefix_settle c h).subset hx

/-! ## Reading and changing a retimer -/

@[simp] theorem Chip.retimer_use (c : Chip) (u : RetimerUse) : (c.retimer u).use = u := by
  unfold Chip.retimer
  cases h : c.retimers.find? (fun r => r.use = u) with
  | none => rfl
  | some r => simpa using List.find?_some h

theorem Chip.retimer_congr {c d : Chip} (h : d.retimers = c.retimers) (u : RetimerUse) : d.retimer u = c.retimer u := by
  rw [Chip.retimer, Chip.retimer, h]

@[simp] theorem Chip.retimer_settle (c : Chip) (u : RetimerUse) : c.settle.retimer u = c.retimer u :=
  Chip.retimer_congr (settled c).retimers u

@[simp] theorem Chip.retimer_emit (c : Chip) (o : Out) (u : RetimerUse) : (c.emit o).retimer u = c.retimer u := rfl

theorem Chip.retimer_setRetimer_self (c : Chip) {r : Retimer} {u : RetimerUse} (h : r.use = u) : (c.setRetimer r).retimer u = r := by
  simp [Chip.retimer, Chip.setRetimer, h]

theorem Chip.retimer_setRetimer_ne (c : Chip) {r : Retimer} {v : RetimerUse} (h : v ≠ r.use) :
    (c.setRetimer r).retimer v = c.retimer v := by
  have keep : ∀ q : Retimer, (q.use ≠ r.use ∧ q.use = v) ↔ q.use = v := fun q => ⟨And.right, fun e => ⟨e ▸ h, e⟩⟩
  simp [Chip.retimer, Chip.setRetimer, List.find?_filter, h.symm, keep]

/-! ## Release of a block -/

/-- A release changes one retimer and drives one block outward. -/
theorem Chip.releaseBlock_some (c : Chip) (u : RetimerUse) (b : List Nat) :
    c.releaseBlock u (some b) = (c.setRetimer ⟨u, none, b, false⟩).emit (.block u b false) := by
  simp [Chip.releaseBlock]

theorem Chip.releaseBlock_none (c : Chip) (u : RetimerUse) :
    c.releaseBlock u none = (c.setRetimer { c.retimer u with again := true }).emit (.block u (c.retimer u).block true) := rfl

theorem Chip.retimer_releaseBlock_some (c : Chip) (u : RetimerUse) (b : List Nat) :
    (c.releaseBlock u (some b)).retimer u = ⟨u, none, b, false⟩ := by
  rw [Chip.releaseBlock_some, Chip.retimer_emit, Chip.retimer_setRetimer_self _ rfl]

theorem Chip.retimer_releaseBlock_none (c : Chip) (u : RetimerUse) :
    (c.releaseBlock u none).retimer u = { c.retimer u with again := true } := by
  rw [Chip.releaseBlock_none, Chip.retimer_emit]
  exact Chip.retimer_setRetimer_self _ (c.retimer_use u)

theorem Chip.retimer_releaseBlock_ne (c : Chip) {u v : RetimerUse} (h : v ≠ u) (fresh : Option (List Nat)) :
    (c.releaseBlock u fresh).retimer v = c.retimer v := by
  cases fresh with
  | some b => rw [Chip.releaseBlock_some, Chip.retimer_emit, Chip.retimer_setRetimer_ne _ h]
  | none => rw [Chip.releaseBlock_none, Chip.retimer_emit, Chip.retimer_setRetimer_ne _ (by simpa using h)]

/-! ## The late unit and the output's transport -/

/-- A late block touches at most the mix tiles and the Nova cores. -/
theorem Chip.lateUnit_frame (c : Chip) (u : RetimerUse) : ∃ m n, c.lateUnit u = { c with mix := m, novas := n } := by
  unfold Chip.lateUnit
  cases u with
  | video o => exact ⟨_, _, rfl⟩
  | tile k =>
    dsimp only
    split
    · exact ⟨_, _, rfl⟩
    · exact ⟨_, _, rfl⟩
  | nova k =>
    dsimp only
    split
    · exact ⟨_, _, rfl⟩
    · exact ⟨_, _, rfl⟩

@[simp] theorem Chip.retimer_lateUnit (c : Chip) (u v : RetimerUse) : (c.lateUnit u).retimer v = c.retimer v := by
  obtain ⟨m, n, h⟩ := c.lateUnit_frame u
  rw [h]
  rfl

theorem Chip.lateUnit_tile_ovr (c : Chip) (k : Fin 64) (hr : c.on Mix.run = true) (ho : c.aud.isOpen = true) :
    ((c.lateUnit (.tile k)).tile k).lvl.ovr = true := by
  simp [Chip.lateUnit, hr, ho, Chip.updTile, Chip.updMix, Chip.tile, Store.upd]

theorem Chip.lateUnit_nova_ovr (c : Chip) (k : Fin 64) (hw : c.novaSt k = Nst.wait) (hf : (c.nova k).first = false) :
    ((c.lateUnit (.nova k)).nova k).lvl.ovr = true := by
  simp only [Chip.lateUnit, hw, hf]
  simp [Chip.updNova, Chip.nova, Store.upd]

/-- Words sent to a transport touch the outputs alone. -/
theorem Chip.sendWords_frame (c : Chip) (u : RetimerUse) : ∃ o, c.sendWords u = { c with outs := o } := by
  unfold Chip.sendWords
  cases u with
  | video o =>
    dsimp only
    split
    · exact ⟨_, rfl⟩
    split
    · exact ⟨_, rfl⟩
    split
    · exact ⟨_, rfl⟩
    · exact ⟨_, rfl⟩
  | tile k => exact ⟨_, rfl⟩
  | nova k => exact ⟨_, rfl⟩

@[simp] theorem Chip.retimer_sendWords (c : Chip) (u v : RetimerUse) : (c.sendWords u).retimer v = c.retimer v := by
  obtain ⟨o, h⟩ := c.sendWords_frame u
  rw [h]
  rfl

@[simp] theorem Chip.sendWords_out (c : Chip) (u : RetimerUse) : (c.sendWords u).out = c.out := by
  obtain ⟨o, h⟩ := c.sendWords_frame u
  rw [h]

@[simp] theorem Chip.sendWords_mix (c : Chip) (u : RetimerUse) : (c.sendWords u).mix = c.mix := by
  obtain ⟨o, h⟩ := c.sendWords_frame u
  rw [h]

@[simp] theorem Chip.sendWords_novas (c : Chip) (u : RetimerUse) : (c.sendWords u).novas = c.novas := by
  obtain ⟨o, h⟩ := c.sendWords_frame u
  rw [h]

/-- The block of a running output on a lane goes to its sub-stream whole, its first word marked. -/
theorem Chip.sendWords_lane (c : Chip) (o : Fin 1152) (hl : c.rd (Xpt.transport.nth o).live = 1) (hs : c.outSt o = 1)
    (hg : c.inGap o = false) : (Store.get {} (c.sendWords (.video o)).outs o : OutFrame).tx =
      (Store.get {} c.outs o : OutFrame).tx ++ [⟨true, (c.retimer (.video o)).block⟩] := by
  simp [Chip.sendWords, hl, hs, hg, Store.upd]

/-! ## A release event as a whole -/

/-- The effect of a release event with the block that was complete in time, if any. -/
def Chip.releaseStep (c : Chip) (u : RetimerUse) (fresh : Option (List Nat)) : Chip :=
  ((if fresh.isNone then c.lateUnit u else c).releaseBlock u fresh).sendWords u

theorem exec_retimerRelease (u : RetimerUse) (inTime : Bool) (s : State) :
    exec (.retimerRelease u inTime) s = act s (fun c => c.releaseStep u (if inTime then (c.retimer u).filling else none)) := rfl

/-- With the block that was complete in time known, a release event answers its effect, settled. -/
theorem gives_retimerRelease {s : State} {u : RetimerUse} {inTime : Bool} {P : State → Prop} (fresh : Option (List Nat)) (hs : s.Runs)
    (hf : (if inTime then (s.c.retimer u).filling else none) = fresh)
    (h : P { s with c := (s.c.start.releaseStep u fresh).settle }) : Gives (.retimerRelease u inTime) s P := by
  subst hf
  exact Gives.act hs (exec_retimerRelease u inTime s) h

theorem Chip.releaseStep_some (c : Chip) (u : RetimerUse) (b : List Nat) :
    c.releaseStep u (some b) = (c.releaseBlock u (some b)).sendWords u := rfl

theorem Chip.releaseStep_none (c : Chip) (u : RetimerUse) :
    c.releaseStep u none = ((c.lateUnit u).releaseBlock u none).sendWords u := rfl

/-- A release event writes no register and no sticky bit and reports nothing. -/
theorem Chip.releaseStep_frame (c : Chip) (u : RetimerUse) (fresh : Option (List Nat)) :
    ∃ m n r x o, c.releaseStep u fresh = { c with mix := m, novas := n, retimers := r, out := x, outs := o } := by
  obtain ⟨o, ho⟩ := Chip.sendWords_frame ((if fresh.isNone then c.lateUnit u else c).releaseBlock u fresh) u
  rw [Chip.releaseStep, ho]
  cases fresh with
  | some b => exact ⟨_, _, _, _, _, rfl⟩
  | none =>
    obtain ⟨m, n, h⟩ := c.lateUnit_frame u
    simp only [Option.isNone_none, if_true, h]
    exact ⟨_, _, _, _, _, rfl⟩

@[simp] theorem Chip.releaseStep_reports (c : Chip) (u : RetimerUse) (fresh : Option (List Nat)) :
    (c.releaseStep u fresh).reports = c.reports := by
  obtain ⟨m, n, r, x, o, h⟩ := c.releaseStep_frame u fresh
  rw [h]

theorem confined_releaseStep (s : State) (u : RetimerUse) (fresh : Option (List Nat)) :
    Confined [] [] s { s with c := (s.c.start.releaseStep u fresh).settle } := by
  obtain ⟨m, n, r, x, o, h⟩ := s.c.start.releaseStep_frame u fresh
  rw [h]
  exact Confined.of_body (fun _ _ _ _ => rfl) (fun _ _ _ => rfl)

theorem Chip.retimer_releaseStep_some (c : Chip) (u : RetimerUse) (b : List Nat) :
    (c.releaseStep u (some b)).retimer u = ⟨u, none, b, false⟩ := by
  rw [Chip.releaseStep_some, Chip.retimer_sendWords, Chip.retimer_releaseBlock_some]

theorem Chip.retimer_releaseStep_none (c : Chip) (u : RetimerUse) :
    (c.releaseStep u none).retimer u = { c.retimer u with again := true } := by
  rw [Chip.releaseStep_none, Chip.retimer_sendWords, Chip.retimer_releaseBlock_none, Chip.retimer_lateUnit]

theorem Chip.retimer_releaseStep_ne (c : Chip) {u v : RetimerUse} (h : v ≠ u) (fresh : Option (List Nat)) :
    (c.releaseStep u fresh).retimer v = c.retimer v := by
  rw [Chip.releaseStep, Chip.retimer_sendWords, Chip.retimer_releaseBlock_ne _ h]
  split
  · exact c.retimer_lateUnit u v
  · rfl

theorem Chip.block_mem_releaseStep_some (c : Chip) (u : RetimerUse) (b : List Nat) :
    Out.block u b false ∈ (c.releaseStep u (some b)).out := by
  simp [Chip.releaseStep_some, Chip.releaseBlock_some]

theorem Chip.block_mem_releaseStep_none (c : Chip) (u : RetimerUse) :
    Out.block u (c.retimer u).block true ∈ (c.releaseStep u none).out := by
  simp [Chip.releaseStep_none, Chip.releaseBlock_none]

/-- A late block leaves the tiles and the cores as its own unit's overrun has marked them. -/
theorem Chip.tile_releaseStep_none (c : Chip) (u : RetimerUse) (k : Nat) : (c.releaseStep u none).tile k = (c.lateUnit u).tile k := by
  rw [Chip.releaseStep_none, Chip.tile, Chip.sendWords_mix]
  rfl

theorem Chip.nova_releaseStep_none (c : Chip) (u : RetimerUse) (k : Nat) : (c.releaseStep u none).nova k = (c.lateUnit u).nova k := by
  rw [Chip.releaseStep_none, Chip.nova, Chip.sendWords_novas]
  rfl

theorem Chip.tile_settle (c : Chip) (k : Nat) : c.settle.tile k = c.tile k := by
  rw [Chip.tile, Chip.tile, (settled c).mix]

theorem Chip.nova_settle (c : Chip) (k : Nat) : c.settle.nova k = c.nova k := by
  rw [Chip.nova, Chip.nova, (settled c).novas]

/-- The fresh block of a running output on a lane joins its sub-stream whole. -/
theorem Chip.releaseStep_lane (c : Chip) (o : Fin 1152) (b : List Nat) (hl : c.rd (Xpt.transport.nth o).live = 1) (hs : c.outSt o = 1)
    (hg : c.inGap o = false) : (Store.get {} (c.releaseStep (.video o) (some b)).outs o : OutFrame).tx =
      (Store.get {} c.outs o : OutFrame).tx ++ [⟨true, b⟩] := by
  have sent := Chip.sendWords_lane (c.releaseBlock (.video o) (some b)) o hl hs hg
  rw [Chip.retimer_releaseBlock_some] at sent
  exact sent

/-! ## Intake synchronisers -/

/-- The data delivered from edge clock domain `d` stands in the core. -/
def Chip.takeIn (c : Chip) (d : Fin 40) (data : List (BitVec 32)) : Chip :=
  { c with intakes := Store.set [] c.intakes d (data.map BitVec.toNat) }

theorem exec_edgeDataIntake (d : Fin 40) (data : List (BitVec 32)) (s : State) :
    exec (.edgeDataIntake d data) s = act s (fun c => c.takeIn d data) := rfl

theorem Chip.takeIn_intakes (c : Chip) (d : Fin 40) (data : List (BitVec 32)) :
    Store.get [] (c.takeIn d data).intakes d = data.map BitVec.toNat := Store.get_set_self _ _ _ _

theorem confined_takeIn (s : State) (d : Fin 40) (data : List (BitVec 32)) :
    Confined [] [] s { s with c := (s.c.start.takeIn d data).settle } :=
  Confined.of_body (fun _ _ _ _ => rfl) (fun _ _ _ => rfl)

/-! ## The statement -/

/-- Settles O54: the retimer and what leaves follow from the block that was complete in time, a late tile or core is marked before its
block repeats, and neither the release nor the end of the command writes a register. -/
theorem edgeCrossings : Obligations.EdgeCrossings := by
  intro s
  refine ⟨fun u v b hs hb => ?_, fun u v inTime hs late => ?_, fun o b hs hl ho hg hb => ?_, fun d data hs => ?_⟩
  · refine gives_retimerRelease (some b) hs hb ⟨?_, ?_, fun hv => ?_, confined_releaseStep s u _⟩
    · exact (Chip.retimer_settle _ u).trans (Chip.retimer_releaseStep_some _ u b)
    · exact mem_out_settle (Chip.releaseStep_reports _ u _) (Chip.block_mem_releaseStep_some _ u b)
    · exact (Chip.retimer_settle _ v).trans (Chip.retimer_releaseStep_ne _ hv _)
  · have noFresh : (if inTime then (s.c.retimer u).filling else none) = none := by
      rcases late with h | h <;> simp [h]
    refine gives_retimerRelease none hs noFresh
      ⟨?_, ?_, fun hv => ?_, fun k hu hr ho => ?_, fun k hu hw hf => ?_, confined_releaseStep s u _⟩
    · exact (Chip.retimer_settle _ u).trans (Chip.retimer_releaseStep_none _ u)
    · exact mem_out_settle (Chip.releaseStep_reports _ u _) (Chip.block_mem_releaseStep_none _ u)
    · exact (Chip.retimer_settle _ v).trans (Chip.retimer_releaseStep_ne _ hv _)
    · subst hu
      rw [Chip.tile_settle, Chip.tile_releaseStep_none]
      exact Chip.lateUnit_tile_ovr _ k hr ho
    · subst hu
      rw [Chip.nova_settle, Chip.nova_releaseStep_none]
      exact Chip.lateUnit_nova_ovr _ k hw hf
  · refine gives_retimerRelease (some b) hs hb ⟨?_, confined_releaseStep s _ _⟩
    rw [(settled _).outs]
    exact Chip.releaseStep_lane _ o b hl ho hg
  · refine Gives.act hs (exec_edgeDataIntake d data s) ⟨?_, confined_takeIn s d data⟩
    rw [(settled _).intakes]
    exact Chip.takeIn_intakes _ d data

end Sys2Proof.Machine
end

section
/-! SUPPORT. The step runs the command at the front of the queue (O55). -/

namespace Sys2Proof.Machine

theorem step_cons {s : State} {i : Instr} {rest : List Instr} (h : s.pending = i :: rest) :
    step s = exec i { s with pending := rest } := by
  rw [step, h]

theorem step_nil {s : State} (h : s.pending = []) : step s = .next s := by
  rw [step, h]

/-- Settles O55, by the two cases of the queue. -/
theorem frontCommandRuns : Obligations.FrontCommandRuns := ⟨fun _ _ => step_cons rfl, fun _ => step_nil⟩

end Sys2Proof.Machine
end

section
/-! SUPPORT. Lane groups: what the shared operations of a group write, the training events of a group that is not UP, eye scans, and
the statements of the family that fail outside the states a run can reach (O1 to O5). -/

namespace Sys2Proof.Machine

/-! ## Keys of a group's fields -/

/-- The pages of a block follow one another: the key of a field on the `g`-th page is the first page's, moved by whole pages. -/
theorem Fld.key_on (f : Fld) (g : Nat) : (f.on g).key = f.key + g * 2147483648 := by
  simp only [Fld.key, Fld.on, placeKey]
  omega

theorem Fld.key_nth (f : Fld) (i : Nat) : (f.nth i).key = f.key + i * f.stride * 32 := by
  simp only [Fld.key, Fld.nth, placeKey]
  omega

/-- On one page fields keep apart as they do on the first page of the block. -/
theorem Fld.key_on_ne {f h : Fld} (g : Nat) (k : f.key ≠ h.key) : (f.on g).key ≠ (h.on g).key := by
  rw [Fld.key_on, Fld.key_on]
  omega

/-- Members of one array keep apart. -/
theorem Fld.key_nth_ne {f : Fld} {i j : Nat} (hs : 0 < f.stride) (h : i ≠ j) : (f.nth i).key ≠ (f.nth j).key := by
  have : i * f.stride ≠ j * f.stride := fun e => h (Nat.eq_of_mul_eq_mul_right hs e)
  rw [Fld.key_nth, Fld.key_nth]
  omega

/-- Fields that begin at different bits keep apart, whatever their words. -/
theorem Fld.key_ne_of_lo {f h : Fld} (apart : (decide (f.lo < 32) && decide (h.lo < 32) && decide (f.lo ≠ h.lo)) = true) :
    f.key ≠ h.key := by
  simp only [Bool.and_eq_true, decide_eq_true_eq] at apart
  simp only [Fld.key, placeKey]
  omega

/-- A write of one field of a group leaves the group's other fields. -/
theorem Chip.rd_wr_on_ne (c : Chip) (g v : Nat) {f h : Fld} (k : f.key ≠ h.key) : (c.wr (h.on g) v).rd (f.on g) = c.rd (f.on g) :=
  c.rd_wr_ne v (Fld.key_on_ne g k)

/-! ## A group's registers at the end of a command -/

theorem reacts_lgrpPage : ∀ g : Fin 33, reacts (lgrpPage g) = false := by decide
theorem reactsSticky_lgrpPage : ∀ g : Fin 33, reactsSticky (lgrpPage g) = false := by decide

/-- No reaction to a fault writes a field of a group. -/
theorem Chip.rd_settle_lgrp (c : Chip) (g : Fin 33) {f : Fld} (hp : f.page = lgrpPage 0) (ho : f.off < 67108864) (hl : f.lo < 32) :
    c.settle.rd (f.on g) = c.rd (f.on g) := by
  have page : (f.on g).page = lgrpPage g := by simp [Fld.on, hp, lgrpPage]
  refine c.rd_settle ?_ (page ▸ reacts_lgrpPage g)
  simp only [Fld.ok, page, lgrpPage, Bool.and_eq_true, decide_eq_true_eq]
  exact ⟨⟨by omega, ho⟩, hl⟩

/-- The same of a register of one of the group's lanes. -/
theorem Chip.rd_settle_lane (c : Chip) (g : Fin 33) (l : Fin 8) {f : Fld} (hp : f.page = lgrpPage 0) (ho : f.off + 8 * f.stride < 67108864)
    (hl : f.lo < 32) : c.settle.rd ((f.on g).nth l) = c.rd ((f.on g).nth l) := by
  have off : l * f.stride ≤ 8 * f.stride := Nat.mul_le_mul_right _ l.isLt.le
  exact c.rd_settle_lgrp g (f := f.nth l) hp (by simp only [Fld.nth]; omega) hl

theorem Chip.grpState_settle (c : Chip) (g : Fin 33) : c.settle.grpState g = c.grpState g := c.rd_settle_lgrp g rfl (by decide) (by decide)

theorem Chip.grp_settle (c : Chip) (g : Nat) : c.settle.grp g = c.grp g := by rw [Chip.grp, (settled c).grps, Chip.grp]

theorem Chip.stickyWord_settle_lgrp (c : Chip) (g : Fin 33) : c.settle.stickyWord (lgrpPage g) = c.stickyWord (lgrpPage g) :=
  (settled c).stickyWord _ (reactsSticky_lgrpPage g)

/-- A sticky bit of a group that was set last is set when the command ends. -/
theorem Chip.bit_stick_settle (c : Chip) (g : Fin 33) (b : Nat) :
    bit ((c.stick (lgrpPage g) b).settle.stickyWord (lgrpPage g)) b = true := by
  rw [Chip.stickyWord_settle_lgrp, Chip.stick_self, bit_setBit_true]

@[simp] theorem Chip.grp_updGrp_self (c : Chip) (g : Nat) (f : Group → Group) : (c.updGrp g f).grp g = f (c.grp g) := by
  simp [Chip.grp, Chip.updGrp, Store.upd]

@[simp] theorem Chip.rd_updGrp (c : Chip) (g : Nat) (f : Group → Group) (x : Fld) : (c.updGrp g f).rd x = c.rd x := rfl
@[simp] theorem Chip.rd_updLane (c : Chip) (g l : Nat) (f : Lane → Lane) (x : Fld) : (c.updLane g l f).rd x = c.rd x := rfl

/-! ## What an effect writes -/

/-- Between two machines only fields at the places `gs` and the sticky words of the pages `ps` differ. -/
structure Chip.Writes (gs : List Fld) (ps : List Nat) (c d : Chip) : Prop where
  rd : ∀ f : Fld, (∀ g ∈ gs, f.key ≠ g.key) → d.rd f = c.rd f
  sticky : ∀ p, p ∉ ps → d.stickyWord p = c.stickyWord p

section
variable {gs : List Fld} {ps : List Nat} {a b : Chip}

theorem Chip.Writes.refl (c : Chip) : Chip.Writes gs ps c c := ⟨fun _ _ => rfl, fun _ _ => rfl⟩

theorem Chip.Writes.wr (h : Chip.Writes gs ps a b) {f : Fld} (hf : f ∈ gs) (v : Nat) : Chip.Writes gs ps a (b.wr f v) :=
  ⟨fun x hx => (b.rd_wr_ne v (hx f hf)).trans (h.rd x hx), h.sticky⟩

theorem Chip.Writes.stick (h : Chip.Writes gs ps a b) {p : Nat} (hp : p ∈ ps) (n : Nat) : Chip.Writes gs ps a (b.stick p n) :=
  ⟨h.rd, fun _ hq => (b.stick_other p n (ne_of_mem_of_not_mem hp hq).symm).trans (h.sticky _ hq)⟩

theorem Chip.Writes.raise (h : Chip.Writes gs ps a b) (src page inst detail : Nat) : Chip.Writes gs ps a (b.raise src page inst detail) :=
  ⟨h.rd, h.sticky⟩

theorem Chip.Writes.updGrp (h : Chip.Writes gs ps a b) (g : Nat) (f : Group → Group) : Chip.Writes gs ps a (b.updGrp g f) :=
  ⟨h.rd, h.sticky⟩

theorem Chip.Writes.updLane (h : Chip.Writes gs ps a b) (g l : Nat) (f : Lane → Lane) : Chip.Writes gs ps a (b.updLane g l f) :=
  ⟨h.rd, h.sticky⟩

theorem Chip.Writes.foldl {β : Type} {l : List β} {step : Chip → β → Chip}
    (hstep : ∀ x ∈ l, ∀ b, Chip.Writes gs ps a b → Chip.Writes gs ps a (step b x)) (h : Chip.Writes gs ps a b) :
    Chip.Writes gs ps a (l.foldl step b) := by
  induction l generalizing b with
  | nil => exact h
  | cons x r ih =>
    exact ih (fun y hy => hstep y (List.mem_cons_of_mem x hy)) (hstep x List.mem_cons_self b h)

end

/-- What an effect writes confines the command, whose end touches only what a reaction may write. -/
theorem Chip.Writes.confined {gs : List Fld} {ps : List Nat} {s : State} {d : Chip} (h : Chip.Writes gs ps s.c.start d) :
    Confined gs ps s { s with c := d.settle } :=
  Confined.of_body (fun f _ _ hf => h.rd f hf) (fun p _ hp => h.sticky p hp)

theorem mem_eachLane (f : Fld) {l : Nat} (h : l < 8) : f.nth l ∈ eachLane f := List.mem_map_of_mem (List.mem_range.mpr h)

/-- After a fold whose step at `x` alone writes a field, the field holds what that step writes. -/
theorem Chip.rd_foldl_of_mem {β : Type} {step : Chip → β → Chip} {f : Fld} {v : Nat} {x : β} (self : ∀ c, (step c x).rd f = v)
    (other : ∀ c y, y ≠ x → (step c y).rd f = c.rd f) {l : List β} (hx : x ∈ l) (c : Chip) : (l.foldl step c).rd f = v := by
  induction l using List.reverseRecOn with
  | nil => exact absurd hx List.not_mem_nil
  | append_singleton r y ih =>
    rw [List.foldl_append, List.foldl_cons, List.foldl_nil]
    by_cases hy : y = x
    · rw [hy, self]
    · rw [other _ y hy]
      exact ih ((List.mem_append.mp hx).resolve_right (fun k => hy (List.mem_singleton.mp k).symm))

theorem Chip.rd_foldl_of_kept {β : Type} {step : Chip → β → Chip} {f : Fld} (kept : ∀ c y, (step c y).rd f = c.rd f) (l : List β)
    (c : Chip) : (l.foldl step c).rd f = c.rd f := by
  induction l generalizing c with
  | nil => rfl
  | cons y r ih => exact (ih (step c y)).trans (kept c y)

/-! ## From a body that is known to an answer -/

/-- A command answers what its body, whose outcome is known, leaves. -/
theorem gives_of_body {i : Instr} {s : State} {P : State → Prop} {f : Chip → Chip} {d : Chip} (hs : s.Runs) (e : exec i s = act s f)
    (hd : f s.c.start = d) (h : P { s with c := d.settle }) : Gives i s P := Gives.act hs e (hd ▸ h)

/-- What a command is said to give holds of the settled body. -/
theorem holds_of_gives {i : Instr} {s : State} {P : State → Prop} {f : Chip → Chip} (h : Gives i s P) (hs : s.Runs)
    (e : exec i s = act s f) : P { s with c := (f s.c.start).settle } := by
  obtain ⟨t, ht, hp⟩ := h
  rw [e, act_runs s f hs] at ht
  injection ht with ht
  exact ht ▸ hp

/-! ## The commands' own meanings -/

theorem exec_laneClockPresent (g : Fin 33) (s : State) : exec (.laneClockPresent g) s = execLaneClockPresent g s := rfl
theorem exec_eyeEdgesFound (g : Fin 33) (s : State) : exec (.eyeEdgesFound g) s = execEyeEdgesFound g s := rfl
theorem exec_samplerTrimSet (g : Fin 33) (trims : List (BitVec 7)) (inverted : BitVec 8) (s : State) :
    exec (.samplerTrimSet g trims inverted) s = execSamplerTrimSet g trims inverted s := rfl
theorem exec_frameAligned (g : Fin 33) (s : State) : exec (.frameAligned g) s = execFrameAligned g s := rfl
theorem exec_deskewDone (g : Fin 33) (skews : List (BitVec 12)) (s : State) :
    exec (.deskewDone g skews) s = execDeskewDone g skews s := rfl
theorem exec_handshakeDone (g : Fin 33) (s : State) : exec (.handshakeDone g) s = execHandshakeDone g s := rfl
theorem exec_laneClockLost (g : Fin 33) (s : State) : exec (.laneClockLost g) s = execLaneClockLost g s := rfl
theorem exec_laneRejoinTimeout (g : Fin 33) (l : Fin 8) (s : State) :
    exec (.laneRejoinTimeout g l) s = execLaneRejoinTimeout g l s := rfl
theorem exec_eyeScanStart (m : Master) (g : Fin 33) (s : State) : exec (.eyeScanStart m g) s = execEyeScanStart m g s := rfl
theorem exec_eyeScanAbort (m : Master) (g : Fin 33) (s : State) : exec (.eyeScanAbort m g) s = execEyeScanAbort m g s := rfl
theorem exec_eyePointDone (g : Fin 33) (count : BitVec 32) (s : State) :
    exec (.eyePointDone g count) s = execEyePointDone g count s := rfl
theorem exec_eyeMonitorTick (g : Fin 33) (s : State) : exec (.eyeMonitorTick g) s = execEyeMonitorTick g s := rfl
theorem exec_eyeMonitorDone (g : Fin 33) (point : Fin 4) (count : BitVec 32) (s : State) :
    exec (.eyeMonitorDone g point count) s = execEyeMonitorDone g point count s := rfl
theorem exec_slotCommitApply (g : Fin 33) (s : State) : exec (.slotCommitApply g) s = execSlotCommitApply g s := rfl

/-! ## A group that was not UP changes its state (R58, R60) -/

/-- What every change of a group's state does: the new state, no lane retraining and no request standing. -/
def Chip.enterGrp (c : Chip) (g st wait : Nat) : Chip :=
  (List.range 8).foldl (fun c l => c.wr ((Lgrp.laneRetrainReq.on g).nth l) 0)
    (((c.wr (Lgrp.state.on g) st).wr (Lgrp.laneRetrain.on g) 0).updGrp g (fun x => { x with skewRun := 0, wait := wait }))

/-- No input or candidate depends on a group that was not UP: its state changes, and in DOWN and UP the request `TRAIN` ends. -/
theorem Chip.setGrp_of_notUp {c : Chip} {g : Nat} (h : c.grpState g ≠ 6) (st wait : Nat) :
    c.setGrp g st wait =
      if st = 0 ∨ st = 6 then (c.enterGrp g st wait).wr (Lgrp.train.on g) 0 else c.enterGrp g st wait := by
  simp only [Chip.setGrp, h, false_and, if_false]
  rfl

theorem Chip.grpState_enterGrp (c : Chip) (g st wait : Nat) : (c.enterGrp g st wait).grpState g = st % 8 := by
  have request (c : Chip) (l : Nat) : (c.wr ((Lgrp.laneRetrainReq.on g).nth l) 0).rd (Lgrp.state.on g) = c.rd (Lgrp.state.on g) :=
    c.rd_wr_ne 0 (Fld.key_ne_of_lo rfl)
  rw [Chip.grpState, Chip.enterGrp, Chip.rd_foldl_of_kept request, Chip.rd_updGrp, Chip.rd_wr_on_ne _ _ _ (by decide), Chip.rd_wr_self]
  rfl

theorem Chip.grpState_setGrp {c : Chip} {g : Nat} (h : c.grpState g ≠ 6) (st wait : Nat) :
    (c.setGrp g st wait).grpState g = st % 8 := by
  rw [Chip.setGrp_of_notUp h]
  split
  · rw [Chip.grpState, Chip.rd_wr_on_ne _ _ _ (by decide)]
    exact c.grpState_enterGrp g st wait
  · exact c.grpState_enterGrp g st wait

theorem Chip.writes_enterGrp {gs : List Fld} {g : Nat} (hgs : trainFields g ⊆ gs) (ps : List Nat) (c : Chip) (st wait : Nat) :
    Chip.Writes gs ps c (c.enterGrp g st wait) := by
  have hstate : Lgrp.state.on g ∈ gs := hgs (by simp [trainFields])
  have hlanes : Lgrp.laneRetrain.on g ∈ gs := hgs (by simp [trainFields])
  have hreq (l : Nat) (hl : l < 8) : (Lgrp.laneRetrainReq.on g).nth l ∈ gs := hgs (by simp [trainFields, mem_eachLane _ hl])
  exact Chip.Writes.foldl (fun l hl b h => h.wr (hreq l (List.mem_range.mp hl)) 0)
    ((((Chip.Writes.refl c).wr hstate st).wr hlanes 0).updGrp g _)

theorem Chip.writes_setGrp {gs : List Fld} {c : Chip} {g st : Nat} (h : c.grpState g ≠ 6) (hgs : trainFields g ⊆ gs)
    (ht : st = 0 ∨ st = 6 → Lgrp.train.on g ∈ gs) (ps : List Nat) (wait : Nat) : Chip.Writes gs ps c (c.setGrp g st wait) := by
  have hw := Chip.writes_enterGrp hgs ps c st wait
  rw [Chip.setGrp_of_notUp h]
  split
  · exact hw.wr (ht ‹_›) 0
  · exact hw

/-! ## Samplers, skews and the fill -/

/-- The main sampler of one lane is set and its search for frames begins anew (R58). -/
def Chip.setSampler (c : Chip) (g : Nat) (trims : List (BitVec 7)) (inverted : BitVec 8) (l : Nat) : Chip :=
  ((c.wr ((Lgrp.phase.on g).nth l) (trims.getD l 0).toNat).wr ((Lgrp.inv.on g).nth l) (b2n (bit inverted.toNat l))).updLane g l
    (fun x => { x with alignRun := 0 })

/-- All eight samplers of a group. -/
def Chip.setSamplers (c : Chip) (g : Nat) (trims : List (BitVec 7)) (inverted : BitVec 8) : Chip :=
  (List.range 8).foldl (fun c l => c.setSampler g trims inverted l) c

/-- The delays of all eight lanes of a group. -/
def Chip.setSkews (c : Chip) (g : Nat) (skews : List (BitVec 12)) : Chip :=
  (List.range 8).foldl (fun c l => c.wr ((Lgrp.skew.on g).nth l) (skews.getD l 0).toNat) c

theorem Chip.rd_phase_setSamplers (c : Chip) (g : Nat) (trims : List (BitVec 7)) (inverted : BitVec 8) (l : Fin 8) :
    (c.setSamplers g trims inverted).rd ((Lgrp.phase.on g).nth l) = (trims.getD l 0).toNat := by
  have inv_ne (l k : Nat) : ((Lgrp.phase.on g).nth l).key ≠ ((Lgrp.inv.on g).nth k).key :=
    Fld.key_ne_of_lo rfl
  refine Chip.rd_foldl_of_mem (fun c => ?_) (fun c k hk => ?_) (List.mem_range.mpr l.isLt) c
  · rw [Chip.setSampler, Chip.rd_updLane, Chip.rd_wr_ne _ _ (inv_ne l l), Chip.rd_wr_self]
    exact Nat.mod_eq_of_lt (trims.getD l 0).isLt
  · rw [Chip.setSampler, Chip.rd_updLane, Chip.rd_wr_ne _ _ (inv_ne l k), Chip.rd_wr_ne _ _ (Fld.key_nth_ne (Nat.zero_lt_succ 3) hk.symm)]

theorem Chip.rd_inv_setSamplers (c : Chip) (g : Nat) (trims : List (BitVec 7)) (inverted : BitVec 8) (l : Fin 8) :
    (c.setSamplers g trims inverted).rd ((Lgrp.inv.on g).nth l) = if bit inverted.toNat l then 1 else 0 := by
  refine Chip.rd_foldl_of_mem (fun c => ?_) (fun c k hk => ?_) (List.mem_range.mpr l.isLt) c
  · rw [Chip.setSampler, Chip.rd_updLane, Chip.rd_wr_self, b2n]
    split <;> rfl
  · rw [Chip.setSampler, Chip.rd_updLane, Chip.rd_wr_ne _ _ (Fld.key_nth_ne (Nat.zero_lt_succ 3) hk.symm),
      Chip.rd_wr_ne _ _ (Fld.key_ne_of_lo rfl)]

/-- The state stands in the group's own word, below those of its lanes. -/
theorem lgrpState_key_ne_phase (g l : Nat) : (Lgrp.state.on g).key ≠ ((Lgrp.phase.on g).nth l).key := by
  rw [Fld.key_nth]
  simp only [Fld.key, Fld.on, placeKey, Lgrp.state, Lgrp.phase]
  omega

theorem Chip.grpState_setSamplers (c : Chip) (g : Nat) (trims : List (BitVec 7)) (inverted : BitVec 8) :
    (c.setSamplers g trims inverted).grpState g = c.grpState g := by
  refine Chip.rd_foldl_of_kept (fun c l => ?_) _ c
  rw [Chip.setSampler, Chip.rd_updLane, Chip.rd_wr_ne _ _ (Fld.key_ne_of_lo rfl),
    Chip.rd_wr_ne _ _ (lgrpState_key_ne_phase g l)]

theorem Chip.Writes.setSamplers {gs : List Fld} {ps : List Nat} {a b : Chip} (h : Chip.Writes gs ps a b) {g : Nat}
    (hp : eachLane (Lgrp.phase.on g) ⊆ gs) (hi : eachLane (Lgrp.inv.on g) ⊆ gs) (trims : List (BitVec 7)) (inverted : BitVec 8) :
    Chip.Writes gs ps a (b.setSamplers g trims inverted) := by
  refine Chip.Writes.foldl (fun l hl b hb => ?_) h
  have hl8 := List.mem_range.mp hl
  exact ((hb.wr (hp (mem_eachLane _ hl8)) _).wr (hi (mem_eachLane _ hl8)) _).updLane g l _

theorem Chip.rd_skew_setSkews (c : Chip) (g : Nat) (skews : List (BitVec 12)) (l : Fin 8) :
    (c.setSkews g skews).rd ((Lgrp.skew.on g).nth l) = (skews.getD l 0).toNat := by
  refine Chip.rd_foldl_of_mem (fun c => ?_) (fun c k hk => ?_) (List.mem_range.mpr l.isLt) c
  · rw [Chip.rd_wr_self]
    exact Nat.mod_eq_of_lt (skews.getD l 0).isLt
  · exact Chip.rd_wr_ne _ _ (Fld.key_nth_ne (Nat.zero_lt_succ 3) hk.symm)

theorem Chip.grpState_setSkews (c : Chip) (g : Nat) (skews : List (BitVec 12)) : (c.setSkews g skews).grpState g = c.grpState g :=
  Chip.rd_foldl_of_kept (fun c _ => c.rd_wr_ne _ (Fld.key_ne_of_lo rfl)) _ c

theorem Chip.Writes.setSkews {gs : List Fld} {ps : List Nat} {a b : Chip} (h : Chip.Writes gs ps a b) {g : Nat}
    (hs : eachLane (Lgrp.skew.on g) ⊆ gs) (skews : List (BitVec 12)) : Chip.Writes gs ps a (b.setSkews g skews) :=
  Chip.Writes.foldl (fun _ hl _ hb => hb.wr (hs (mem_eachLane _ (List.mem_range.mp hl))) _) h

theorem Chip.rd_fill_setFill (c : Chip) (g f : Nat) : (c.setFill g f).rd (Lgrp.ebufFill.on g) = f % 64 := by
  rw [Chip.setFill, Chip.rd_wr_on_ne _ _ _ (by decide), Chip.rd_wr_on_ne _ _ _ (by decide), Chip.rd_wr_self]
  rfl

theorem Chip.grpState_setFill (c : Chip) (g f : Nat) : (c.setFill g f).grpState g = c.grpState g := by
  rw [Chip.grpState, Chip.setFill, Chip.rd_wr_on_ne _ _ _ (by decide), Chip.rd_wr_on_ne _ _ _ (by decide),
    Chip.rd_wr_on_ne _ _ _ (by decide)]
  rfl

theorem Chip.Writes.setFill {gs : List Fld} {ps : List Nat} {a b : Chip} (h : Chip.Writes gs ps a b) {g : Nat}
    (hf : [Lgrp.ebufFill.on g, Lgrp.ebufMin.on g, Lgrp.ebufMax.on g] ⊆ gs) (f : Nat) : Chip.Writes gs ps a (b.setFill g f) := by
  obtain ⟨fill, low, high⟩ : Lgrp.ebufFill.on g ∈ gs ∧ Lgrp.ebufMin.on g ∈ gs ∧ Lgrp.ebufMax.on g ∈ gs := by simpa using hf
  exact ((h.wr fill f).wr low _).wr high _

/-! ## The training events (R58) -/

/-- An event that only moves a group which was not UP on, to a state other than DOWN and UP. -/
theorem gives_setGrp {s : State} {g : Fin 33} {i : Instr} {f : Chip → Chip} {st : Nat} (hs : s.Runs) (e : exec i s = act s f)
    (notUp : s.c.start.grpState g ≠ 6) (hf : f s.c.start = s.c.start.setGrp g st 0) (mid : 0 < st ∧ st < 6) :
    Gives i s (fun t => t.c.grpState g = st ∧ Confined (trainFields g) [] s t) := by
  have noRequest : ¬(st = 0 ∨ st = 6) := by omega
  have writes := Chip.writes_setGrp notUp (List.Subset.refl _) (fun k => absurd k noRequest) [] 0
  refine gives_of_body hs e hf ⟨?_, writes.confined⟩
  exact (Chip.grpState_settle _ g).trans ((Chip.grpState_setGrp notUp st 0).trans (Nat.mod_eq_of_lt (by omega)))

theorem gives_samplerTrimSet {s : State} {g : Fin 33} {trims : List (BitVec 7)} {inverted : BitVec 8} {P : State → Prop} (hs : s.Runs)
    (h : s.c.start.grpState g = 2) (hP : P { s with c := ((s.c.start.setGrp g 3 0).setSamplers g trims inverted).settle }) :
    Gives (.samplerTrimSet g trims inverted) s P := by
  refine gives_of_body hs (exec_samplerTrimSet g trims inverted s) ?_ hP
  simp only [h, if_true]
  rfl

theorem gives_deskewDone {s : State} {g : Fin 33} {skews : List (BitVec 12)} {P : State → Prop} (hs : s.Runs)
    (h : s.c.start.grpState g = 4) (near : ∀ a b : Fin 8, (skews.getD a 0).toNat ≤ (skews.getD b 0).toNat + 2048)
    (hP : P { s with c := ((s.c.start.setGrp g 5 0).setSkews g skews).settle }) : Gives (.deskewDone g skews) s P := by
  have fits : ∀ a < 8, ∀ b < 8, (skews.getD a 0).toNat ≤ (skews.getD b 0).toNat + 2048 := fun a ha b hb => near ⟨a, ha⟩ ⟨b, hb⟩
  refine gives_of_body hs (exec_deskewDone g skews s) (if_neg ?_) hP
  simpa only [h, ne_eq, not_true_eq_false, false_or, Bool.not_eq_true', Bool.not_eq_false, List.all_map, List.all_eq_true,
    Function.comp_apply, List.mem_range, decide_eq_true_eq] using fits

theorem gives_handshakeDone {s : State} {g : Fin 33} {P : State → Prop} (hs : s.Runs) (h : s.c.start.grpState g = 5)
    (hP : P { s with c := (((s.c.start.setGrp g 6 0).setFill g 16).stick (lgrpPage g) 10).settle }) : Gives (.handshakeDone g) s P :=
  gives_of_body hs (exec_handshakeDone g s) (if_pos h) hP

/-- Settles O1: each event is a change of the state of a group that was not UP, with the lane registers that it names. -/
theorem laneTrainingForward : Obligations.LaneTrainingForward := by
  intro s g
  have notUp {n : Nat} (h : s.c.grpState g = n) (hn : n ≠ 6) : s.c.start.grpState g ≠ 6 := fun k => hn (h.symm.trans k)
  refine ⟨fun hs h en hw hg => ?_, fun hs h => ?_, fun trims inverted hs h => ?_, fun hs h al => ?_, fun skews hs h near => ?_,
    fun hs h => ?_⟩
  · exact gives_setGrp hs (exec_laneClockPresent g s) (notUp h (by decide)) (if_pos ⟨h, en, hw, hg⟩) (by decide)
  · exact gives_setGrp hs (exec_eyeEdgesFound g s) (notUp h (by decide)) (if_pos h) (by decide)
  · refine gives_samplerTrimSet hs h ⟨?_, fun l => ⟨?_, ?_⟩, Chip.Writes.confined ?_⟩
    · rw [Chip.grpState_settle, Chip.grpState_setSamplers]
      exact Chip.grpState_setGrp (notUp h (by decide)) 3 0
    · exact (Chip.rd_settle_lane _ g l rfl (by decide) (by decide)).trans (Chip.rd_phase_setSamplers _ g trims inverted l)
    · exact (Chip.rd_settle_lane _ g l rfl (by decide) (by decide)).trans (Chip.rd_inv_setSamplers _ g trims inverted l)
    · exact (Chip.writes_setGrp (notUp h (by decide)) (by simp) (by simp) [] 0).setSamplers (by simp) (by simp) trims inverted
  · have aligned := List.all_eq_true.mpr fun l hl => al ⟨l, List.mem_range.mp hl⟩
    exact gives_setGrp hs (exec_frameAligned g s) (notUp h (by decide)) (if_pos ⟨h, aligned⟩) (by decide)
  · refine gives_deskewDone hs h near ⟨?_, fun l => ?_, Chip.Writes.confined ?_⟩
    · rw [Chip.grpState_settle, Chip.grpState_setSkews]
      exact Chip.grpState_setGrp (notUp h (by decide)) 5 0
    · exact (Chip.rd_settle_lane _ g l rfl (by decide) (by decide)).trans (Chip.rd_skew_setSkews _ g skews l)
    · exact (Chip.writes_setGrp (notUp h (by decide)) (by simp) (by simp) [] 0).setSkews (by simp) skews
  · refine gives_handshakeDone hs h ⟨?_, ?_, Chip.bit_stick_settle _ g 10, Chip.Writes.confined ?_⟩
    · rw [Chip.grpState_settle]
      exact (Chip.grpState_setFill _ g 16).trans (Chip.grpState_setGrp (notUp h (by decide)) 6 0)
    · rw [Chip.rd_settle_lgrp _ g rfl (by decide) (by decide)]
      exact Chip.rd_fill_setFill _ g 16
    · exact ((Chip.writes_setGrp (notUp h (by decide)) (by simp) (by simp) _ 0).setFill (by simp) 16).stick (by simp) 10

/-! ## Eye scans and the eye monitor (R66, R67) -/

/-- A scan of a group that runs none: `START` stands, and the scan is at point 0 of lane `LANE`. -/
theorem Chip.eyeStartGo_of_idle {c : Chip} {g : Nat} (h : c.on (Lgrp.eyeStart.on g) = false) :
    c.eyeStartGo g = (c.wr (Lgrp.eyeStart.on g) 1).updGrp g (fun x => { x with eyePos := 0, scanLane := c.rd (Lgrp.eyeLane.on g) }) :=
  if_neg (by simp [h])

theorem gives_eyeScanStart {s : State} {m : Master} {g : Fin 33} {P : State → Prop} (hs : s.Allows m 0 (lgrpPage g) 0x90 3 false)
    (hP : P { s with c := (s.c.start.eyeStartGo g).settle }) : Gives (.eyeScanStart m g) s P :=
  gives_of_body hs.1 (exec_eyeScanStart m g s) (trigger_allows s m _ _ _ false _ hs) hP

theorem gives_eyeScanAbort {s : State} {m : Master} {g : Fin 33} {P : State → Prop} (hs : s.Allows m 0 (lgrpPage g) 0x90 4 false)
    (hP : P { s with c := (s.c.start.eyeAbortGo g).settle }) : Gives (.eyeScanAbort m g) s P :=
  gives_of_body hs.1 (exec_eyeScanAbort m g s) (trigger_allows s m _ _ _ false _ hs) hP

theorem Chip.rd_eyeStart_eyeEnd (c : Chip) (g : Nat) (aborted : Bool) : (c.eyeEnd g aborted).rd (Lgrp.eyeStart.on g) = 0 := by
  rw [Chip.eyeEnd, Chip.rd_stick, Chip.rd_wr_on_ne _ _ _ (by decide), Chip.rd_wr_on_ne _ _ _ (by decide), Chip.rd_wr_self]
  rfl

theorem Chip.rd_eyePartial_eyeEnd (c : Chip) (g : Nat) (aborted : Bool) :
    (c.eyeEnd g aborted).rd (Lgrp.eyePartial.on g) = b2n aborted := by
  rw [Chip.eyeEnd, Chip.rd_stick, Chip.rd_wr_self]
  cases aborted <;> rfl

theorem Chip.rd_eyeResLane_eyeEnd (c : Chip) (g : Nat) (aborted : Bool) :
    (c.eyeEnd g aborted).rd (Lgrp.eyeResLane.on g) = (c.grp g).scanLane % 8 := by
  rw [Chip.eyeEnd, Chip.rd_stick, Chip.rd_wr_on_ne _ _ _ (by decide), Chip.rd_wr_self]
  rfl

theorem Chip.writes_eyeEnd (c : Chip) (g : Nat) (aborted : Bool) :
    Chip.Writes [Lgrp.eyeStart.on g, Lgrp.eyeResLane.on g, Lgrp.eyePartial.on g] [lgrpPage g] c (c.eyeEnd g aborted) :=
  ((((Chip.Writes.refl c).wr (by simp) 0).wr (by simp) _).wr (by simp) _).stick (by simp) 12

/-- The count of a scan point stands at its place, and the scan is at the next one. -/
def Chip.countEyePoint (c : Chip) (g : Nat) (count : BitVec 32) : Chip :=
  (c.wr ((Lgrp.eyeCount.on g).nth (c.grp g).eyePos) count.toNat).updGrp g (fun x => { x with eyePos := (c.grp g).eyePos + 1 })

/-- Before the last of the 4,160 points a dwell only stores its count. -/
theorem gives_eyePointDone {s : State} {g : Fin 33} {count : BitVec 32} {P : State → Prop} (hs : s.Runs)
    (on : s.c.start.on (Lgrp.eyeStart.on g) = true) (notLast : (s.c.start.grp g).eyePos < 4159)
    (hP : P { s with c := (s.c.start.countEyePoint g count).settle }) : Gives (.eyePointDone g count) s P := by
  refine gives_of_body hs (exec_eyePointDone g count s) ?_ hP
  have more : ¬(s.c.start.grp g).eyePos + 1 = 4160 := by omega
  simp only [on, Bool.not_true, Bool.false_eq_true, if_false, more]
  rfl

/-- A monitor point that ends: a count other than 0 is reported, and the last of the four points ends the check of the lane. -/
def Chip.endMonitorPoint (c : Chip) (g : Nat) (point : Fin 4) (count : BitVec 32) : Chip :=
  let c := if count = 0 then c else c.laneRaise g 0x18 (c.grp g).monLane 8
  if point.val = 3 then c.updGrp g (fun x => { x with monBusy := false }) else c

theorem gives_eyeMonitorDone {s : State} {g : Fin 33} {point : Fin 4} {count : BitVec 32} {P : State → Prop} (hs : s.Runs)
    (busy : (s.c.start.grp g).monBusy = true) (hP : P { s with c := (s.c.start.endMonitorPoint g point count).settle }) :
    Gives (.eyeMonitorDone g point count) s P :=
  gives_of_body hs (exec_eyeMonitorDone g point count s) (if_neg (by simp [busy])) hP

theorem Chip.monBusy_endMonitorPoint (c : Chip) (g : Nat) (point : Fin 4) (count : BitVec 32) (busy : (c.grp g).monBusy = true) :
    ((c.endMonitorPoint g point count).grp g).monBusy = (if point = 3 then false else true) := by
  have reported : (if count = 0 then c else c.laneRaise g 0x18 (c.grp g).monLane 8).grp g = c.grp g := by split <;> rfl
  by_cases last : point = 3
  · subst last
    simp [Chip.endMonitorPoint]
  · have point_ne : ¬point.val = 3 := fun e => last (Fin.ext e)
    simp only [Chip.endMonitorPoint, point_ne, if_false, last, reported, busy]

theorem Chip.stickyWord_endMonitorPoint (c : Chip) (g : Nat) (point : Fin 4) {count : BitVec 32} (h : count ≠ 0) :
    (c.endMonitorPoint g point count).stickyWord (lgrpPage g) = setBit (c.stickyWord (lgrpPage g)) 8 true := by
  simp only [Chip.endMonitorPoint, h, if_false]
  split <;> exact Chip.stick_self _ _ _

theorem Chip.writes_endMonitorPoint (c : Chip) (g : Nat) (point : Fin 4) (count : BitVec 32) :
    Chip.Writes [] (if count = 0 then [] else [lgrpPage g]) c (c.endMonitorPoint g point count) := by
  have reported : Chip.Writes [] (if count = 0 then [] else [lgrpPage g]) c
      (if count = 0 then c else c.laneRaise g 0x18 (c.grp g).monLane 8) := by
    split
    · exact Chip.Writes.refl c
    · exact ((Chip.Writes.refl c).raise _ _ _ _).stick (by simp) 8
  by_cases last : point.val = 3
  · simpa only [Chip.endMonitorPoint, last, if_true] using reported.updGrp g _
  · simpa only [Chip.endMonitorPoint, last, if_false] using reported

/-- Settles O4: a scan is its start, its dwells and its end; the monitor is its lane and the end of each point. -/
theorem laneEyeScan : Obligations.LaneEyeScan := by
  intro s g
  refine ⟨fun m hs idle => ?_, fun m hs on => ?_, fun count hs on notLast => ?_, fun hs en idle up => ?_, fun point count hs busy => ?_⟩
  · refine gives_eyeScanStart hs ?_
    rw [Chip.eyeStartGo_of_idle (c := s.c.start) idle]
    refine ⟨?_, ?_, ?_, Chip.Writes.confined (((Chip.Writes.refl _).wr (by simp) 1).updGrp g _)⟩
    · rw [Chip.rd_settle_lgrp _ g rfl (by decide) (by decide), Chip.rd_updGrp, Chip.rd_wr_self]
      rfl
    · simp only [Chip.grp_settle, Chip.grp_updGrp_self]
    · simp only [Chip.grp_settle, Chip.grp_updGrp_self, Chip.rd_start]
  · refine gives_eyeScanAbort hs ?_
    rw [Chip.eyeAbortGo, if_pos (show s.c.start.on (Lgrp.eyeStart.on g) = true from on)]
    refine ⟨?_, ?_, ?_, Chip.bit_stick_settle _ g 12, (Chip.writes_eyeEnd _ g true).confined⟩
    · exact (Chip.rd_settle_lgrp _ g rfl (by decide) (by decide)).trans (Chip.rd_eyeStart_eyeEnd _ g true)
    · exact (Chip.rd_settle_lgrp _ g rfl (by decide) (by decide)).trans (Chip.rd_eyePartial_eyeEnd _ g true)
    · exact (Chip.rd_settle_lgrp _ g rfl (by decide) (by decide)).trans (Chip.rd_eyeResLane_eyeEnd _ g true)
  · refine gives_eyePointDone hs on notLast
      ⟨?_, ?_, Chip.Writes.confined (((Chip.Writes.refl _).wr (List.mem_singleton.mpr rfl) _).updGrp g _)⟩
    · refine (Chip.rd_settle_lgrp _ g (f := Lgrp.eyeCount.nth (s.c.grp g).eyePos) rfl ?_ (by decide : Lgrp.eyeCount.lo < 32)).trans ?_
      · simp only [Fld.nth, Lgrp.eyeCount]
        omega
      · exact (Chip.rd_wr_self _ _ _).trans (Nat.mod_eq_of_lt count.isLt)
    · rw [Chip.grp_settle, Chip.countEyePoint, Chip.grp_updGrp_self]
      rfl
  · refine gives_of_body hs (exec_eyeMonitorTick g s) (if_pos ⟨en, by rw [Bool.not_eq_true']; exact idle, up⟩)
      ⟨?_, ?_, ((Chip.Writes.refl _).updGrp g _).confined⟩
    · rw [Chip.grp_settle, Chip.grp_updGrp_self]
      rfl
    · rw [Chip.grp_settle, Chip.grp_updGrp_self]
  · refine gives_eyeMonitorDone hs busy ⟨?_, fun h => ?_, (Chip.writes_endMonitorPoint _ g point count).confined⟩
    · rw [Chip.grp_settle]
      exact Chip.monBusy_endMonitorPoint _ g point count busy
    · rw [Chip.stickyWord_settle_lgrp, Chip.stickyWord_endMonitorPoint _ g point h, bit_setBit_true]

/-! ## States in which O2, O3 and O5 fail

The statements speak of every `State`, and `State` is plain data. Two of its parts no hypothesis of theirs restricts: the number of the
synchroniser that an input carries, of which a device has 256, and the field table, which may list a key twice although its own
operations never do. -/

/-- A field of composer 0's table window with the key that `Fsync.state.nth (2 ^ 27)` would have: the key of an array's member runs over
into the pages behind its own when the member's number is beyond the array. -/
def beyondSyncs : Fld := { Fsync.state with page := cmpPage 0 }

/-- Group 3 is UP with lane 0 retraining, and input 0, on group 3, is `SYNCED` and carries the synchroniser number 2^27. -/
def syncBeyond : State :=
  { State.reset with c := ((((State.reset.c.wr (Lgrp.state.on 3) 6).wr (Lgrp.laneRetrain.on 3) 1).wr (Vin.transport.nth 0).live 1).wr
      (Vin.group.nth 0).live 3).updInput 0 (fun x => { x with st := InSt.synced, sync := some (2 ^ 27) }) }

/-- A command whose effect leaves composer 0's word at 3, the state of a synchroniser after a loss, is not within the pages named. -/
theorem not_within_syncBeyond {d : Chip} (written : d.rd beyondSyncs = 3) :
    ¬Within (lgrpPage (3 : Fin 33) :: lossPages) syncBeyond { syncBeyond with c := d.settle } := by
  intro within
  have kept := within.regs beyondSyncs (by decide) (by decide) (by decide)
  rw [Chip.rd_settle _ (by decide) (by decide), written] at kept
  exact absurd kept (by decide)

/-- Refutes O2: where an input of the group carries a synchroniser number beyond the 256 that there are, which the statement does not
exclude, the loss of the clock lane writes a field of composer 0, whose page is none of those named. -/
theorem not_laneGroupDown : ¬Obligations.LaneGroupDown := by
  intro h
  obtain ⟨clockLost, -, -⟩ := h syncBeyond 3
  have given := clockLost (by decide) (by decide)
  obtain ⟨-, -, -, within⟩ := holds_of_gives given (by decide) (exec_laneClockLost 3 syncBeyond)
  exact not_within_syncBeyond (by decide +kernel) within

/-- Refutes O3: in the same state a lane that does not re-join in time takes the whole group out of UP, with the same write. -/
theorem not_laneRetraining : ¬Obligations.LaneRetraining := by
  intro h
  obtain ⟨-, -, -, rejoinTimeout, -, -⟩ := h syncBeyond 3 0
  have given := rejoinTimeout (by decide) (by decide) (by decide) (by decide)
  obtain ⟨-, within⟩ := holds_of_gives given (by decide) (exec_laneRejoinTimeout 3 0 syncBeyond)
  exact not_within_syncBeyond (by decide +kernel) within

/-- A slot commit stands for group 0, and the field table lists the shadow of receive slot 0's `USED` twice: 1, which reads, then 0. -/
def slotListedTwice : State :=
  { State.reset with
    c := { State.reset.c with flds := [((Lgrp.slotCommit.on 0).key, 1), ((Lgrp.rxUsed.on 0).key, 1), ((Lgrp.rxUsed.on 0).key, 0)] } }

/-- Refutes O5: of a field that the table lists twice, which the statement does not exclude, a read takes the first value and the copy
into the table in use the last, so a slot whose shadow reads 1 comes into use as 0. -/
theorem not_laneFrames : ¬Obligations.LaneFrames := by
  intro h
  obtain ⟨-, -, -, -, commitApply⟩ := h slotListedTwice 0
  have given := commitApply (by decide) (by decide)
  obtain ⟨-, -, slots, -⟩ := holds_of_gives given (by decide) (exec_slotCommitApply 0 slotListedTwice)
  obtain ⟨-, used, -, -⟩ := slots 0
  rw [Chip.rd_settle _ (by decide) (by decide)] at used
  exact absurd used (by decide +kernel)

end Sys2Proof.Machine
end

section
/-! SUPPORT. What the operations on received video write and what they leave alone (O8, O9). -/

namespace Sys2Proof.Machine

/-! ## The pages that an effect writes -/

/-- Between two machines only fields of the pages `ps` and their sticky words differ, but for sticky words that a reaction may set. -/
structure Chip.WritesOn (ps : List Nat) (c d : Chip) : Prop where
  rd : ∀ f : Fld, f.ok = true → f.page ∉ ps → d.rd f = c.rd f
  sticky : ∀ p, reactsSticky p = false → p ∉ ps → d.stickyWord p = c.stickyWord p

/-- What an effect writes keeps the command, whose end touches only what a reaction may write, within the pages. -/
theorem Chip.WritesOn.within {ps : List Nat} {s : State} {d : Chip} (h : Chip.WritesOn ps s.c.start d) :
    Within ps s { s with c := d.settle } :=
  Within.of_body (fun f hf _ hp => h.rd f hf hp) h.sticky

section
variable {ps qs : List Nat} {a b c : Chip}

theorem Chip.WritesOn.refl (c : Chip) : Chip.WritesOn ps c c := ⟨fun _ _ _ => rfl, fun _ _ _ => rfl⟩

theorem Chip.WritesOn.trans (h : Chip.WritesOn ps a b) (k : Chip.WritesOn ps b c) : Chip.WritesOn ps a c :=
  ⟨fun f hf hp => (k.rd f hf hp).trans (h.rd f hf hp), fun p hr hp => (k.sticky p hr hp).trans (h.sticky p hr hp)⟩

theorem Chip.WritesOn.mono (h : Chip.WritesOn ps a b) (k : ps ⊆ qs) : Chip.WritesOn qs a b :=
  ⟨fun f hf hp => h.rd f hf (fun m => hp (k m)), fun p hr hp => h.sticky p hr (fun m => hp (k m))⟩

/-- A change of neither a register nor a sticky word. -/
theorem Chip.WritesOn.keep (h : Chip.WritesOn ps a b) (hf : c.flds = b.flds) (hs : c.sticky = b.sticky) : Chip.WritesOn ps a c := by
  refine h.trans ⟨fun f _ _ => ?_, fun p _ _ => ?_⟩
  · rw [Chip.rd, hf, Chip.rd]
  · rw [Chip.stickyWord, hs, Chip.stickyWord]

theorem Chip.WritesOn.wr (h : Chip.WritesOn ps a b) {f : Fld} (hok : f.ok = true) (hp : f.page ∈ ps) (v : Nat) :
    Chip.WritesOn ps a (b.wr f v) :=
  h.trans ⟨fun _ hx hn => b.rd_wr_other v hok hx (.inr (.inl (ne_of_mem_of_not_mem hp hn).symm)), fun _ _ _ => rfl⟩

theorem Chip.WritesOn.stick (h : Chip.WritesOn ps a b) {p : Nat} (hp : p ∈ ps ∨ reactsSticky p = true) (n : Nat) :
    Chip.WritesOn ps a (b.stick p n) := by
  refine h.trans ⟨fun _ _ _ => rfl, fun q hr hn => b.stick_other p n ?_⟩
  rintro rfl
  rcases hp with hp | hp
  · exact hn hp
  · exact absurd (hr.symm.trans hp) (by decide)

end

/-- A saturating count stays within its width. -/
theorem satInc_lt {w v : Nat} (hw : v < 2 ^ w) : satInc w v < 2 ^ w := by
  unfold satInc
  split <;> omega

/-! ## What the reception of lines leaves alone -/

/-- Between two machines only the pages `ps` differ, and neither the fields that begin at the bits of an input's format codes nor what
banks, synchronisers and merge buffers hold. -/
structure Chip.Held (ps : List Nat) (c d : Chip) : Prop extends Chip.WritesOn ps c d where
  formats : ∀ f : Fld, f.lo = 3 ∨ f.lo = 14 → d.rd f = c.rd f
  banks : d.banks = c.banks
  syncs : d.syncs = c.syncs
  merges : d.merges = c.merges

/-- The state of every input, with its count of lines without a valid EAV, is held as well. -/
structure Chip.Quiet (ps : List Nat) (c d : Chip) : Prop extends Chip.Held ps c d where
  state : ∀ i, d.inputSt i = c.inputSt i
  noEav : ∀ i, (d.input i).noEav = (c.input i).noEav

/-- An attempt is kept, resolved or reported by the fault collector alone. -/
theorem Chip.judge_frame (c : Chip) (src page inst detail : Nat) (bad inj : Bool) :
    ∃ u r, c.judge src page inst detail bad inj = { c with fcu := u, reports := r } := by
  have resolved : ∃ u r, c.resolve src page inst detail bad inj = { c with fcu := u, reports := r } := by
    unfold Chip.resolve
    dsimp only
    split
    · split <;> exact ⟨_, _, rfl⟩
    · split
      · split <;> exact ⟨_, _, rfl⟩
      · split
        · split <;> exact ⟨_, _, rfl⟩
        · exact ⟨_, _, rfl⟩
  obtain ⟨u, r, e⟩ := resolved
  rw [Chip.judge, e]
  dsimp only
  split <;> exact ⟨_, _, rfl⟩

theorem Chip.WritesOn.judge {ps : List Nat} {a b : Chip} (h : Chip.WritesOn ps a b) (src page inst detail : Nat) (bad inj : Bool) :
    Chip.WritesOn ps a (b.judge src page inst detail bad inj) := by
  obtain ⟨u, r, e⟩ := b.judge_frame src page inst detail bad inj
  rw [e]
  exact h.keep rfl rfl

section
variable {ps : List Nat} {a b c : Chip}

theorem Chip.Held.refl (c : Chip) : Chip.Held ps c c := ⟨Chip.WritesOn.refl c, fun _ _ => rfl, rfl, rfl, rfl⟩

/-- A change of neither a register nor a sticky word nor what is held. -/
theorem Chip.Held.keep (h : Chip.Held ps a b) (hf : c.flds = b.flds) (hs : c.sticky = b.sticky) (hb : c.banks = b.banks)
    (hy : c.syncs = b.syncs) (hm : c.merges = b.merges) : Chip.Held ps a c :=
  ⟨h.toWritesOn.keep hf hs, fun f k => by rw [← h.formats f k, Chip.rd, hf, Chip.rd], hb.trans h.banks,
    hy.trans h.syncs, hm.trans h.merges⟩

theorem Chip.Held.ite {p : Prop} [Decidable p] (h : p → Chip.Held ps a b) (k : ¬p → Chip.Held ps a c) :
    Chip.Held ps a (if p then b else c) := by
  split
  · exact h ‹_›
  · exact k ‹_›

/-- A field that begins at no bit where a format code begins. -/
theorem Chip.Held.wr (h : Chip.Held ps a b) {f : Fld} (hf : f.ok = true ∧ f.lo ≠ 3 ∧ f.lo ≠ 14) (hp : f.page ∈ ps) (v : Nat) :
    Chip.Held ps a (b.wr f v) := by
  obtain ⟨hok, h3, h14⟩ := hf
  refine ⟨h.toWritesOn.wr hok hp v, fun g hg => (b.rd_wr_ne v ?_).trans (h.formats g hg), h.banks, h.syncs, h.merges⟩
  have flo : f.lo < 32 := by simp only [Fld.ok, Bool.and_eq_true, decide_eq_true_eq] at hok; exact hok.2
  refine Fld.key_ne_of_lo ?_
  simp only [Bool.and_eq_true, decide_eq_true_eq]
  omega

/-- The format that an input is received in stands in fields that are held. -/
theorem Chip.Held.inputFmt (h : Chip.Held ps a b) (i : Nat) : b.inputFmt i = a.inputFmt i := by
  rw [Chip.inputFmt, Chip.inputFmt, h.formats _ (.inl rfl), h.formats _ (.inr rfl)]

theorem Chip.Held.updInput (h : Chip.Held ps a b) (i : Nat) (f : Input → Input) : Chip.Held ps a (b.updInput i f) :=
  h.keep rfl rfl rfl rfl rfl

theorem Chip.Quiet.refl (c : Chip) : Chip.Quiet ps c c := ⟨Chip.Held.refl c, fun _ => rfl, fun _ => rfl⟩

theorem Chip.Quiet.trans (h : Chip.Quiet ps a b) (k : Chip.Quiet ps b c) : Chip.Quiet ps a c :=
  ⟨⟨h.toWritesOn.trans k.toWritesOn, fun f hf => (k.formats f hf).trans (h.formats f hf), k.banks.trans h.banks, k.syncs.trans h.syncs,
    k.merges.trans h.merges⟩, fun i => (k.state i).trans (h.state i), fun i => (k.noEav i).trans (h.noEav i)⟩

theorem Chip.Quiet.ite {p : Prop} [Decidable p] (h : p → Chip.Quiet ps a b) (k : ¬p → Chip.Quiet ps a c) :
    Chip.Quiet ps a (if p then b else c) := by
  split
  · exact h ‹_›
  · exact k ‹_›

theorem Chip.Quiet.foldl {β : Type} {l : List β} {step : Chip → β → Chip}
    (hstep : ∀ b, Chip.Quiet ps a b → ∀ x ∈ l, Chip.Quiet ps a (step b x)) (h : Chip.Quiet ps a b) :
    Chip.Quiet ps a (l.foldl step b) :=
  List.foldlRecOn (motive := Chip.Quiet ps a) l step h hstep

/-- A change of the fault collector and the reports. -/
theorem Chip.Quiet.fault (h : Chip.Quiet ps a b) (u : Fcu) (r : List Report) : Chip.Quiet ps a { b with fcu := u, reports := r } :=
  ⟨h.toHeld.keep rfl rfl rfl rfl rfl, h.state, h.noEav⟩

theorem Chip.Quiet.report (h : Chip.Quiet ps a b) (r : Report) : Chip.Quiet ps a (b.report r) := h.fault b.fcu _

theorem Chip.Quiet.raise (h : Chip.Quiet ps a b) (src page inst detail : Nat) : Chip.Quiet ps a (b.raise src page inst detail) :=
  h.report _

theorem Chip.Quiet.judge (h : Chip.Quiet ps a b) (src page inst detail : Nat) (bad inj : Bool) :
    Chip.Quiet ps a (b.judge src page inst detail bad inj) := by
  obtain ⟨u, r, e⟩ := b.judge_frame src page inst detail bad inj
  rw [e]
  exact h.fault u r

theorem Chip.Quiet.fwr (h : Chip.Quiet ps a b) (f : Fld) (v : Nat) : Chip.Quiet ps a (b.fwr f v) := h.fault _ b.reports

theorem Chip.Quiet.stick (h : Chip.Quiet ps a b) {p : Nat} (hp : p ∈ ps ∨ reactsSticky p = true) (n : Nat) :
    Chip.Quiet ps a (b.stick p n) :=
  ⟨⟨h.toWritesOn.stick hp n, h.formats, h.banks, h.syncs, h.merges⟩, h.state, h.noEav⟩

theorem Chip.Quiet.wr (h : Chip.Quiet ps a b) {f : Fld} (hf : f.ok = true ∧ f.lo ≠ 3 ∧ f.lo ≠ 14) (hp : f.page ∈ ps) (v : Nat) :
    Chip.Quiet ps a (b.wr f v) := ⟨h.toHeld.wr hf hp v, h.state, h.noEav⟩

/-- A change of what an input carries on that leaves its state and its count of lines without a valid EAV. -/
theorem Chip.Quiet.updInput (h : Chip.Quiet ps a b) (i : Nat) {f : Input → Input} (hst : ∀ x, (f x).st = x.st)
    (hn : ∀ x, (f x).noEav = x.noEav) : Chip.Quiet ps a (b.updInput i f) := by
  have kept {γ : Type} {g : Input → γ} (hg : ∀ x, g (f x) = g x) (j : Nat) : g ((b.updInput i f).input j) = g (b.input j) := by
    simp only [Chip.input, Chip.updInput, Store.upd, Store.get_set]
    split
    · rw [hg, ‹j = i›]
    · rfl
  exact ⟨h.toHeld.updInput i f, fun j => (kept hst j).trans (h.state j), fun j => (kept hn j).trans (h.noEav j)⟩

theorem Chip.Quiet.updAud (h : Chip.Quiet ps a b) (f : Aud → Aud) : Chip.Quiet ps a (b.updAud f) :=
  ⟨h.toHeld.keep rfl rfl rfl rfl rfl, h.state, h.noEav⟩

/-- A free value is drawn. -/
theorem Chip.Quiet.fresh (h : Chip.Quiet ps a b) : Chip.Quiet ps a b.fresh.2 :=
  ⟨h.toHeld.keep rfl rfl rfl rfl rfl, h.state, h.noEav⟩

/-- An access to a checker: where an armed injection fires, the fault collector alone changes, its sticky word with it (R420). -/
theorem Chip.Quiet.check (h : Chip.Quiet ps a b) (k i real : Nat) : Chip.Quiet ps a (b.check k i real).c := by
  unfold Chip.check
  split
  · split
    · have fired := (((h.fault { b.fcu with arm := none } b.reports).fwr Fcu.injArmed 0).fwr Fcu.injFired 1).stick
        (p := fcuPage) (.inr rfl) 7
      exact Chip.Quiet.ite (fun _ => fired) (fun _ => fired.stick (.inr rfl) 9)
    · exact h
  · exact h

end

/-- Members of an array of `n` entries have places that fit, and begin at no bit where a format code begins. -/
theorem Fld.nth_apart {f : Fld} {i : Nat} (n : Nat) (hi : i < n)
    (hf : (decide (f.page < 512) && decide (f.off + n * f.stride < 67108864) && decide (f.lo < 32) && decide (f.lo ≠ 3) &&
      decide (f.lo ≠ 14)) = true) : (f.nth i).ok = true ∧ (f.nth i).lo ≠ 3 ∧ (f.nth i).lo ≠ 14 := by
  simp only [Bool.and_eq_true, decide_eq_true_eq] at hf
  obtain ⟨⟨⟨⟨hp, ho⟩, hl⟩, h3⟩, h14⟩ := hf
  have hm : i * f.stride ≤ n * f.stride := Nat.mul_le_mul_right _ hi.le
  exact ⟨Fld.nth_ok hp hl (by omega), h3, h14⟩

/-! ## Reads of the stacks -/

/-- An error of a stack is counted and shown on the page of the stacks (R496). -/
theorem Chip.Quiet.hbmError {a b : Chip} (h : Chip.Quiet [hbmPage] a b) {k : Nat} (hk : k < 2) (one real : Bool) :
    Chip.Quiet [hbmPage] a (b.hbmError k one real) := by
  unfold Chip.hbmError
  dsimp only
  have shown := h.stick (.inl List.mem_cons_self) (2 * k + b2n (!one))
  refine Chip.Quiet.ite (fun _ => ?_) (fun _ => shown)
  cases one
  · exact shown.wr (f := Hbm.ueCnt.nth k) (Fld.nth_apart 2 hk rfl) List.mem_cons_self _
  · exact shown.wr (f := Hbm.ceCnt.nth k) (Fld.nth_apart 2 hk rfl) List.mem_cons_self _

/-- A word of a stack is poisoned: the list of such words and the stack's count change (R423). -/
theorem Chip.Quiet.poisonWord {a b : Chip} (h : Chip.Quiet [hbmPage] a b) {k : Nat} (hk : k < 2) (i w : Nat) :
    Chip.Quiet [hbmPage] a (b.poisonWord k i w) := by
  have listed : Chip.Quiet [hbmPage] a { b with poisoned := (k, i, w) :: b.poisoned } :=
    ⟨h.toHeld.keep rfl rfl rfl rfl rfl, h.state, h.noEav⟩
  have counted := listed.wr (f := Hbm.poison.nth k) (Fld.nth_apart 2 hk rfl) List.mem_cons_self
  have stack : b.poisonWord k i w =
      if b.isPoisoned k i w then b
      else Chip.inc { b with poisoned := (k, i, w) :: b.poisoned } (Hbm.poison.nth k) := by
    rcases (by omega : k = 0 ∨ k = 1) with rfl | rfl <;> rfl
  rw [stack]
  exact Chip.Quiet.ite (fun _ => h) (fun _ => counted _)

/-- A checked read of a stack writes the page of the stacks alone (R420 to R423). -/
theorem Chip.quiet_memRead (c : Chip) {k : Nat} (hk : k < 2) (i w syn again : Nat) (held : List (Nat × Nat)) (injectable : Bool) :
    Chip.Quiet [hbmPage] c (c.memRead k i w syn again held injectable) := by
  unfold Chip.memRead
  simp only [hk, if_true]
  have checked : Chip.Quiet [hbmPage] c (if injectable then c.check k 0 syn else ⟨c, syn, syn, false⟩ : Checked).c := by
    split
    · exact (Chip.Quiet.refl c).check k 0 syn
    · exact Chip.Quiet.refl c
  generalize (if injectable then c.check k 0 syn else ⟨c, syn, syn, false⟩ : Checked) = r at checked ⊢
  refine Chip.Quiet.ite (fun _ => checked) (fun _ => Chip.Quiet.ite (fun _ => ?_) (fun _ => ?_))
  · exact ((checked.report _).hbmError hk _ _).poisonWord hk i w
  · exact (checked.report _).hbmError hk _ _

end Sys2Proof.Machine
end

section
/-! SUPPORT. Lines and packets of inputs: what the reception of a line, the merge buffer and a bank's read frame write (O8). -/

namespace Sys2Proof.Machine

/-! ## Inputs, banks and merge buffers at the end of a command -/

@[simp] theorem Chip.input_updInput_self (c : Chip) (i : Nat) (f : Input → Input) : (c.updInput i f).input i = f (c.input i) := by
  simp [Chip.input, Chip.updInput, Store.upd]

@[simp] theorem Chip.merge_updMerge_self (c : Chip) (i : Nat) (f : Merge → Merge) : (c.updMerge i f).merge i = f (c.merge i) := by
  simp [Chip.merge, Chip.updMerge, Store.upd]

theorem Chip.input_congr {c d : Chip} (h : d.vin = c.vin) (i : Nat) : d.input i = c.input i := by rw [Chip.input, h, Chip.input]
theorem Chip.bank_congr {c d : Chip} (h : d.banks = c.banks) (i : Nat) : d.bank i = c.bank i := by rw [Chip.bank, h, Chip.bank]
theorem Chip.merge_congr {c d : Chip} (h : d.merges = c.merges) (i : Nat) : d.merge i = c.merge i := by rw [Chip.merge, h, Chip.merge]

@[simp] theorem Chip.input_settle (c : Chip) (i : Nat) : c.settle.input i = c.input i := Chip.input_congr (settled c).vin i
@[simp] theorem Chip.inputSt_settle (c : Chip) (i : Nat) : c.settle.inputSt i = c.inputSt i := by
  rw [Chip.inputSt, Chip.input_settle, Chip.inputSt]
@[simp] theorem Chip.bank_settle (c : Chip) (i : Nat) : c.settle.bank i = c.bank i := Chip.bank_congr (settled c).banks i
@[simp] theorem Chip.merge_settle (c : Chip) (i : Nat) : c.settle.merge i = c.merge i := Chip.merge_congr (settled c).merges i

theorem Chip.Writes.updInput {gs : List Fld} {ps : List Nat} {a b : Chip} (h : Chip.Writes gs ps a b) (i : Nat) (f : Input → Input) :
    Chip.Writes gs ps a (b.updInput i f) := ⟨h.rd, h.sticky⟩

/-! ## The commands' own meanings -/

theorem exec_inputLineReceive (i : Fin 1152) (v : VideoLine) (s : State) :
    exec (.inputLineReceive i v) s = execInputLineReceive i v s := rfl
theorem exec_videoPacketReceive (i : Fin 1152) (flow : BitVec 14) (seq line off : BitVec 32) (words : List (BitVec 10)) (s : State) :
    exec (.videoPacketReceive i flow seq line off words) s = execVideoPacketReceive i flow seq line off words s := rfl
theorem exec_mergeLineRelease (i : Fin 1152) (eps : BitVec 26) (meas : BitVec 8) (anc : List AncPacket) (audio : List EmbSample)
    (s : State) : exec (.mergeLineRelease i eps meas anc audio) s = execMergeLineRelease i eps meas anc audio s := rfl
theorem exec_bankReadFrameStart (i : Fin 1152) (s : State) : exec (.bankReadFrameStart i) s = execBankReadFrameStart i s := rfl

/-! ## A lost input wakes (R73, R75) -/

theorem Chip.Held.countInput {ps : List Nat} {a b : Chip} (h : Chip.Held ps a b) (hp : vinPage ∈ ps) (st : Nat) (up : Bool) :
    Chip.Held ps a (b.countInput st up) := by
  have counts : ∀ f, inputCount st = some f → (f.ok = true ∧ f.lo ≠ 3 ∧ f.lo ≠ 14) ∧ f.page = vinPage := by
    intro f hf
    unfold inputCount at hf
    split at hf
    · cases hf; decide
    split at hf
    · cases hf; decide
    split at hf
    · cases hf; decide
    · cases hf
  unfold Chip.countInput
  split
  next f hf =>
    obtain ⟨place, page⟩ := counts f hf
    exact h.wr place (page ▸ hp) _
  · exact h

@[simp] theorem Chip.vin_countInput (c : Chip) (st : Nat) (up : Bool) : (c.countInput st up).vin = c.vin := by
  unfold Chip.countInput
  split <;> rfl

theorem Chip.Held.restate {ps : List Nat} {a b : Chip} (h : Chip.Held ps a b) (hp : vinPage ∈ ps) {i : Nat} (hi : i < 1152)
    (f : Input → Input) : Chip.Held ps a (b.restate i f) := by
  have counted := Chip.Held.ite (p := i < 1152 ∧ b.shownSt i ≠ (b.updInput i f).shownSt i)
    (fun _ => ((h.updInput i f).countInput hp (b.shownSt i) false).countInput hp ((b.updInput i f).shownSt i) true)
    (fun _ => h.updInput i f)
  exact counted.wr (f := Vin.state.nth i) (Fld.nth_apart 1216 (by omega) rfl) hp _

theorem Chip.input_restate_self (c : Chip) (i : Nat) (f : Input → Input) : (c.restate i f).input i = f (c.input i) := by
  have vin : (c.restate i f).vin = (c.updInput i f).vin := by
    unfold Chip.restate
    dsimp only
    split
    · exact ((c.updInput i f).countInput _ false).vin_countInput _ true |>.trans ((c.updInput i f).vin_countInput _ false)
    · rfl
  rw [Chip.input_congr vin, Chip.input_updInput_self]

/-- An input in `LOST` that is received again is acquired; any other keeps its state. -/
def Chip.wake (c : Chip) (i : Nat) : Chip := if c.inputSt i = InSt.lost then c.setInput i InSt.acquiring else c

/-- A lost input has no synchroniser to act on and no format to forget: waking it restates it. -/
theorem Chip.wake_of_lost {c : Chip} {i : Nat} (h : c.inputSt i = InSt.lost) :
    c.wake i = c.restate i (fun x => { x with
      st := InSt.acquiring, noEav := 0, inRun := 0, outRun := 0, reRun := 0, acqRun := 0,
      measured := x.measured && decide (InSt.lost < InSt.acquiring), edhOk := x.edhOk && decide (InSt.acquiring < InSt.acquiring) }) := by
  rw [Chip.wake, if_pos h, Chip.setInput, h]
  rfl

theorem Chip.Held.wake {ps : List Nat} {a b : Chip} (h : Chip.Held ps a b) (hp : vinPage ∈ ps) {i : Nat} (hi : i < 1152) :
    Chip.Held ps a (b.wake i) := by
  by_cases lost : b.inputSt i = InSt.lost
  · rw [Chip.wake_of_lost lost]
    exact h.restate hp hi _
  · rw [Chip.wake, if_neg lost]
    exact h

theorem Chip.inputSt_wake (c : Chip) (i : Nat) :
    (c.wake i).inputSt i = if c.inputSt i = InSt.lost then InSt.acquiring else c.inputSt i := by
  by_cases lost : c.inputSt i = InSt.lost
  · rw [Chip.wake_of_lost lost, if_pos lost, Chip.inputSt, Chip.input_restate_self]
  · rw [Chip.wake, if_neg lost, if_neg lost]

theorem Chip.noEav_wake {c : Chip} {i : Nat} (h : (c.input i).noEav = 0) : ((c.wake i).input i).noEav = 0 := by
  by_cases lost : c.inputSt i = InSt.lost
  · rw [Chip.wake_of_lost lost, Chip.input_restate_self]
  · rw [Chip.wake, if_neg lost, h]

/-! ## Packets of a line (R91) -/

section
variable {ps : List Nat} {a b : Chip} {i : Nat}

theorem Chip.Quiet.ancFilter (h : Chip.Quiet ps a b) (hp : vinPage ∈ ps) (line : Nat) (p : AncPacket) {f : Nat} (hf : f < 32) :
    Chip.Quiet ps a (b.ancFilter i line p f) := by
  have ring (ws : List Nat) (w : Nat) : Chip.Quiet ps a
      (ws.foldl (fun (q : Chip × Nat) x => (q.1.wr (Vin.ancRing.nth (256 * f + q.2 % 256)) x, q.2 + 1)) (b, w)).1 :=
    List.foldlRecOn (motive := fun q : Chip × Nat => Chip.Quiet ps a q.1) ws _ h
      fun q hq x _ => hq.wr (f := Vin.ancRing.nth (256 * f + q.2 % 256)) (Fld.nth_apart 8192 (by omega) rfl) hp x
  unfold Chip.ancFilter
  refine Chip.Quiet.ite (fun _ => Chip.Quiet.ite (fun _ => h.stick (.inl hp) 10) (fun _ => ?_)) (fun _ => h)
  exact (ring _ _).wr (f := Vin.ancWptr.nth f) (Fld.nth_apart 32 hf rfl) hp _

theorem Chip.Quiet.ancPackets (h : Chip.Quiet ps a b) (hp : vinPage ∈ ps) (line : Nat) (l : List AncPacket) :
    Chip.Quiet ps a (b.ancPackets i line l) := by
  have judged := h.judge 0x36 vinPage i 0 (l.any (fun p => !p.good)) false
  have marked := Chip.Quiet.ite (p := (l.any (fun p => !p.good)) = true) (fun _ => judged.stick (.inl hp) 6) (fun _ => judged)
  exact Chip.Quiet.foldl (fun _ hb p _ => Chip.Quiet.foldl (fun _ hd f hf => hd.ancFilter hp line p (List.mem_range.mp hf)) hb) marked

/-! ## The checks of a line (R74, R75) -/

theorem Chip.Quiet.edhLine (h : Chip.Quiet ps a b) (fmt line : Nat) (got : List (Option (BitVec 10)))
    (edh : Option (BitVec 16 × BitVec 16)) :
    Chip.Quiet ps a (b.edhLine i fmt line got edh).2 := by
  cases edh with
  | some g => exact h.updInput i (fun _ => rfl) (fun _ => rfl)
  | none => exact h.updInput i (fun _ => rfl) (fun _ => rfl)

theorem Chip.Quiet.countCrc (h : Chip.Quiet ps a b) (hp : vinPage ∈ ps) (hi : i < 1152) : Chip.Quiet ps a (b.inc (Vin.crcErr.nth i)) :=
  h.wr (f := Vin.crcErr.nth i) (Fld.nth_apart 1216 (by omega) rfl) hp _

/-- The EDH of a line of raster 0 or 1 is compared, and an error is counted (R74). -/
def Chip.judgeEdh (c : Chip) (i fmt line : Nat) (got : List (Option (BitVec 10))) (edh : Option (BitVec 16 × BitVec 16)) : Chip :=
  let q := c.edhLine i fmt line got edh
  let c := q.2.judge 0x31 vinPage i 0 q.1
  if q.1 then (c.inc (Vin.crcErr.nth i)).stick vinPage 1 else c

theorem Chip.Quiet.judgeEdh (h : Chip.Quiet ps a b) (hp : vinPage ∈ ps) (hi : i < 1152) (fmt line : Nat)
    (got : List (Option (BitVec 10))) (edh : Option (BitVec 16 × BitVec 16)) : Chip.Quiet ps a (b.judgeEdh i fmt line got edh) := by
  have judged := (h.edhLine (i := i) fmt line got edh).judge 0x31 vinPage i 0 (b.edhLine i fmt line got edh).1 false
  exact Chip.Quiet.ite (fun _ => (judged.countCrc hp hi).stick (.inl hp) 1) (fun _ => judged)

theorem Chip.Quiet.checkLine (h : Chip.Quiet ps a b) (hp : vinPage ∈ ps) (hi : i < 1152) (v : VideoLine)
    (ws : List (Option (BitVec 10))) : Chip.Quiet ps a (b.checkLine i v ws) := by
  unfold Chip.checkLine
  dsimp only
  generalize (crcRaster (b.inputFmt i) && b.on Vin.crcEn && !ws.any Option.isNone) = crc
  have checked : Chip.Quiet ps a (if crc then b.check 9 i (lineSyndrome v.streams) else ⟨b, 0, 0, false⟩ : Checked).c := by
    split
    · exact h.check 9 i _
    · exact h
  generalize (if crc then b.check 9 i (lineSyndrome v.streams) else ⟨b, 0, 0, false⟩ : Checked) = k at checked ⊢
  generalize (crc && decide (k.real ≠ 0)) = bad
  have judged := Chip.Quiet.ite (p := crc = true) (fun _ => checked.judge 0x30 vinPage i 0 bad k.inj) (fun _ => checked)
  have marked := Chip.Quiet.ite (p := (bad || k.inj) = true) (fun _ => judged.stick (.inl hp) 0) (fun _ => judged)
  have counted := Chip.Quiet.ite (p := bad = true) (fun _ => marked.countCrc hp hi) (fun _ => marked)
  refine Chip.Quiet.ancPackets (Chip.Quiet.ite (fun _ => ?_) (fun _ => ?_)) hp _ _
  · exact counted.judgeEdh hp hi _ v.line.toNat ws v.edh
  · exact counted.updInput i (fun _ => rfl) (fun _ => rfl)

/-! ## Words that are lost -/

theorem Chip.Quiet.fillWords (h : Chip.Quiet ps a b) (prev : Option (List Nat)) (k : Nat) (ws : List (Option (BitVec 10))) :
    Chip.Quiet ps a (b.fillWords prev k ws).2 := by
  induction ws generalizing b k with
  | nil => exact h
  | cons w r ih =>
    cases w with
    | some w => exact ih h (k + 1)
    | none =>
      cases prev with
      | some p => exact ih h (k + 1)
      | none => exact ih h.fresh (k + 1)

/-! ## Measurements (R75, R81) -/

theorem Chip.Quiet.noteFormat (h : Chip.Quiet ps a b) (fmt : Nat) : Chip.Quiet ps a (b.noteFormat i fmt) :=
  h.updInput i (fun _ => rfl) (fun _ => rfl)

theorem Chip.Quiet.measureEps (h : Chip.Quiet ps a b) (hp : vinPage ∈ ps) (hi : i < 1152) (e : Int) :
    Chip.Quiet ps a (b.measureEps i e) := by
  have shown := h.wr (f := Vin.eps.nth i) (Fld.nth_apart 1216 (by omega) rfl) hp (ofSigned 26 e)
  unfold Chip.measureEps
  dsimp only
  refine Chip.Quiet.ite (fun _ => ?_) (fun _ => ?_)
  · refine ((shown.updInput i ?_ ?_).raise 0x35 vinPage (i - i % 4) 0).stick (.inl hp) 5
    · exact fun _ => rfl
    · exact fun _ => rfl
  · exact shown.updInput i (fun _ => rfl) (fun _ => rfl)

/-! ## Embedded audio (R186, R187) -/

theorem Chip.Quiet.ringPut_demb (h : Chip.Quiet ps a b) (hp : amapPage ∈ ps) (sel stamp : Nat) (v : Int) (nonPcm : Bool) :
    Chip.Quiet ps a (b.ringPut 2 sel stamp v nonPcm) := by
  unfold Chip.ringPut
  exact Chip.Quiet.ite (fun _ => (h.stick (.inl hp) 3).updAud _) (fun _ => h.updAud _)

theorem Chip.Quiet.asrcPut (h : Chip.Quiet ps a b) (kind sel instant : Nat) (v : Int) (nonPcm : Bool) :
    Chip.Quiet ps a (b.asrcPut kind sel instant v nonPcm) := by
  unfold Chip.asrcPut
  exact h.updAud _

theorem Chip.Quiet.updDemb (h : Chip.Quiet ps a b) (d : Nat) (f : DembX → DembX) : Chip.Quiet ps a (b.updDemb d f) := h.updAud _

theorem Chip.Quiet.deembed (h : Chip.Quiet ps a b) (hp : amapPage ∈ ps) (line : Nat) (ss : List EmbSample) :
    Chip.Quiet ps a (b.deembed i line ss) := by
  have unit : b.rd (Vin.demb.nth i).live < 256 := b.rd_lt _
  unfold Chip.deembed
  dsimp only
  generalize b.rd (Vin.demb.nth i).live = d at unit ⊢
  refine Chip.Quiet.ite (fun _ => h) (fun _ => ?_)
  have count {e : Chip} (he : Chip.Quiet ps a e) : Chip.Quiet ps a (e.inc (Amap.dErr.nth d)) :=
    he.wr (f := Amap.dErr.nth d) (Fld.nth_apart 256 unit rfl) hp _
  have shown := h.wr (f := Amap.dPresent.nth d) (Fld.nth_apart 256 unit rfl) hp (b.dembx d).cur
  have begun := Chip.Quiet.ite (p := line = 1) (fun _ => shown.updDemb d (fun x => { x with cur := 0 })) (fun _ => h)
  refine Chip.Quiet.ite (fun _ => begun) (fun _ => Chip.Quiet.foldl (fun e he s _ => ?_) (Chip.Quiet.ite (fun _ => ?_) (fun _ => ?_)))
  · refine Chip.Quiet.ite (fun _ => he) (fun _ => Chip.Quiet.ite (fun _ => ?_) (fun _ => ?_))
    · exact he.ringPut_demb hp _ _ _ _
    · exact he.asrcPut _ _ _ _ _
  · exact (count (begun.updDemb d _)).stick (.inl hp) 5
  · exact begun.updDemb d _

/-! ## Lost packets (R78) -/

/-- Packets that one path did not bring are counted on the page of the packet inputs. -/
theorem Chip.Quiet.pathMisses (h : Chip.Quiet ps a b) (hp : vpktPage ∈ ps) (hi : i < 1152) (l : List MergePkt) :
    Chip.Quiet ps a (b.pathMisses i l) := by
  unfold Chip.pathMisses
  refine Chip.Quiet.ite (fun _ => h) (fun _ => Chip.Quiet.foldl (fun c hc p _ => Chip.Quiet.ite (fun _ => hc) (fun _ => ?_)) h)
  refine (Chip.Quiet.judge ?_ 0x38 vpktPage (pathInst i p.gotA) 0 true false).stick (.inl hp) 1
  cases p.gotA with
  | true => exact hc.wr (f := Vpkt.missB.nth i) (Fld.nth_apart 1152 hi rfl) hp _
  | false => exact hc.wr (f := Vpkt.missA.nth i) (Fld.nth_apart 1152 hi rfl) hp _

/-! ## A line enters its bank (R82) -/

theorem Chip.bank_keepLine (c : Chip) (i : Nat) (l : BankLine) (half : Nat) :
    ((c.keepLine i l half).bank i).lines = (l :: (c.bank i).lines).take 5 := by
  have stored : ((c.bankLine i l).bank i).lines = (l :: (c.bank i).lines).take 5 := by
    simp [Chip.bank, Chip.bankLine, Store.upd]
  unfold Chip.keepLine
  dsimp only
  split
  · exact stored
  · exact stored

@[simp] theorem Chip.vin_keepLine (c : Chip) (i : Nat) (l : BankLine) (half : Nat) : (c.keepLine i l half).vin = c.vin := by
  unfold Chip.keepLine
  dsimp only
  split <;> rfl

@[simp] theorem Chip.merges_keepLine (c : Chip) (i : Nat) (l : BankLine) (half : Nat) : (c.keepLine i l half).merges = c.merges := by
  unfold Chip.keepLine
  dsimp only
  split <;> rfl

theorem Chip.WritesOn.keepLine (h : Chip.WritesOn ps a b) (l : BankLine) (half : Nat) : Chip.WritesOn ps a (b.keepLine i l half) := by
  unfold Chip.keepLine
  dsimp only
  split
  · exact h.keep rfl rfl
  · exact h.keep rfl rfl

/-- A line has come into the bank of input `i`, as its newest; the inputs' states and the merge buffers are as they were. -/
structure Chip.Stored (ps : List Nat) (c d : Chip) (i line : Nat) (f2 : Bool) : Prop where
  writes : Chip.WritesOn ps c d
  lines : ∃ ws, (d.bank i).lines = (⟨line, f2, ws⟩ :: (c.bank i).lines).take 5
  state : ∀ j, d.inputSt j = c.inputSt j
  noEav : ∀ j, (d.input j).noEav = (c.input j).noEav
  merges : d.merges = c.merges

/-- What comes before and after a line's entry into its bank is quiet. -/
theorem Chip.stored_of_quiet {d : Chip} {l : BankLine} {half : Nat} (h : Chip.Quiet ps a b) (k : Chip.Quiet ps (b.keepLine i l half) d) :
    Chip.Stored ps a d i l.line l.f2 := by
  have input (j : Nat) : (b.keepLine i l half).input j = b.input j := Chip.input_congr (b.vin_keepLine i l half) j
  refine ⟨(h.toWritesOn.keepLine l half).trans k.toWritesOn, ⟨l.words, ?_⟩, fun j => ?_, fun j => ?_, ?_⟩
  · rw [Chip.bank_congr k.banks, Chip.bank_keepLine, Chip.bank_congr h.banks]
  · rw [k.state, Chip.inputSt, input, ← h.state, Chip.inputSt]
  · rw [k.noEav, input, h.noEav]
  · rw [k.merges, Chip.merges_keepLine, h.merges]

/-! ## A received line (R75) -/

/-- A line with a valid EAV begins: the count of lines without one ends, a lost input wakes, and the payload ID is shown. -/
def Chip.lineBegins (c : Chip) (i : Nat) (v : VideoLine) : Chip :=
  let c := (c.updInput i (fun x => { x with noEav := 0 })).wake i
  match v.pid with
  | some p => c.wr (Vin.pid.nth i) p.toNat
  | none => c

/-- The checks of a line and what is made of lost words of it. -/
def Chip.lineJudged (c : Chip) (i : Nat) (v : VideoLine) (ws : List (Option (BitVec 10))) : Chip :=
  let serial := c.rd (Vin.transport.nth i).live = 1
  let damaged := ws.any Option.isNone && serial
  let c := c.checkLine i v ws
  let c := if serial then c.judge 0x34 vinPage i 0 damaged else c
  if damaged then (c.inc (Vin.lostLines.nth i)).stick vinPage 4 else c

/-- The measurements that come with a line. -/
def Chip.lineMeasured (c : Chip) (i : Nat) (v : VideoLine) : Chip :=
  let c := match v.meas with
    | some m => c.noteFormat i m.toNat
    | none => c
  match v.eps with
  | some e => c.measureEps i e.toInt
  | none => c

/-- A line with a valid EAV is received whole. -/
def Chip.lineReceived (c : Chip) (i : Nat) (v : VideoLine) : Chip :=
  let c := c.lineBegins i v
  let ws := c.lineWords i v
  (((c.lineJudged i v ws).storeLine i v.line.toNat v.f2 ws).deembed i v.line.toNat v.audio).lineMeasured i v

theorem Chip.Held.lineBegins (h : Chip.Held ps a b) (hp : vinPage ∈ ps) (hi : i < 1152) (v : VideoLine) :
    Chip.Held ps a (b.lineBegins i v) := by
  have woken := (h.updInput i (fun x => { x with noEav := 0 })).wake hp hi
  unfold Chip.lineBegins
  dsimp only
  split
  · exact woken.wr (f := Vin.pid.nth i) (Fld.nth_apart 1216 (by omega) rfl) hp _
  · exact woken

theorem Chip.Quiet.lineJudged (h : Chip.Quiet ps a b) (hp : vinPage ∈ ps) (hi : i < 1152) (v : VideoLine)
    (ws : List (Option (BitVec 10))) : Chip.Quiet ps a (b.lineJudged i v ws) := by
  have checked := h.checkLine hp hi v ws
  have judged (damaged : Bool) := Chip.Quiet.ite (p := b.rd (Vin.transport.nth i).live = 1)
    (fun _ => checked.judge 0x34 vinPage i 0 damaged false) (fun _ => checked)
  refine Chip.Quiet.ite (fun _ => Chip.Quiet.stick ?_ (.inl hp) 4) (fun _ => judged _)
  exact (judged _).wr (f := Vin.lostLines.nth i) (Fld.nth_apart 1216 (by omega) rfl) hp _

theorem Chip.Quiet.lineMeasured (h : Chip.Quiet ps a b) (hp : vinPage ∈ ps) (hi : i < 1152) (v : VideoLine) :
    Chip.Quiet ps a (b.lineMeasured i v) := by
  have noted : Chip.Quiet ps a (match v.meas with | some m => b.noteFormat i m.toNat | none => b) := by
    split
    · exact h.noteFormat _
    · exact h
  unfold Chip.lineMeasured
  dsimp only
  split
  · exact noted.measureEps hp hi _
  · exact noted

theorem Chip.inputSt_lineBegins (c : Chip) (i : Nat) (v : VideoLine) :
    (c.lineBegins i v).inputSt i = if c.inputSt i = InSt.lost then InSt.acquiring else c.inputSt i := by
  have begun : (c.updInput i (fun x => { x with noEav := 0 })).inputSt i = c.inputSt i := by
    rw [Chip.inputSt, Chip.input_updInput_self, Chip.inputSt]
  unfold Chip.lineBegins
  dsimp only
  split <;> exact (Chip.inputSt_wake _ i).trans (by rw [begun])

theorem Chip.noEav_lineBegins (c : Chip) (i : Nat) (v : VideoLine) : ((c.lineBegins i v).input i).noEav = 0 := by
  have begun : ((c.updInput i (fun x => { x with noEav := 0 })).input i).noEav = 0 := by rw [Chip.input_updInput_self]
  unfold Chip.lineBegins
  dsimp only
  split <;> exact Chip.noEav_wake begun

/-- A line whose format is not of level B is stored whole. -/
theorem Chip.storeLine_whole {c : Chip} (h : rasterOf (c.inputFmt i) ≠ 6) (line : Nat) (f2 : Bool) (ws : List (Option (BitVec 10))) :
    c.storeLine i line f2 ws = (c.repairLine i f2 ws).2.keepLine i ⟨line, f2, (c.repairLine i f2 ws).1⟩ := if_neg h

/-- Once it has begun, a line is stored in its bank, and all that comes before and after is quiet. -/
theorem Chip.stored_lineReceived (c : Chip) (hv : vinPage ∈ ps) (ha : amapPage ∈ ps) (hi : i < 1152) (v : VideoLine)
    (single : rasterOf (c.inputFmt i) ≠ 6) : Chip.Stored ps (c.lineBegins i v) (c.lineReceived i v) i v.line.toNat v.f2 := by
  have held : Chip.Held ps c (c.lineBegins i v) := (Chip.Held.refl c).lineBegins hv hi v
  have judged := (Chip.Quiet.refl (ps := ps) (c.lineBegins i v)).lineJudged hv hi v ((c.lineBegins i v).lineWords i v)
  have whole : rasterOf (((c.lineBegins i v).lineJudged i v ((c.lineBegins i v).lineWords i v)).inputFmt i) ≠ 6 := by
    rwa [judged.inputFmt, held.inputFmt]
  unfold Chip.lineReceived
  dsimp only
  rw [Chip.storeLine_whole whole]
  exact Chip.stored_of_quiet (l := ⟨v.line.toNat, v.f2, _⟩) (judged.fillWords _ 0 _)
    (((Chip.Quiet.refl _).deembed ha _ _).lineMeasured hv hi v)

/-- A bound lane input takes a line. -/
theorem not_refused_of_lane {c : Chip} (bound : c.inputSt i ≠ InSt.unbound) (serial : c.rd (Vin.transport.nth i).live = 1) :
    ¬(c.inputSt i = InSt.unbound ∨ (c.rd (Vin.transport.nth i).live = 2 ∧ (!c.on (Vpkt.pkind.nth i)) = true)) := by
  rw [serial]
  simp [bound]

theorem gives_inputLineReceive {s : State} {i : Fin 1152} {v : VideoLine} {P : State → Prop} (hs : s.Runs)
    (bound : s.c.start.inputSt i ≠ InSt.unbound) (serial : s.c.start.rd (Vin.transport.nth i).live = 1) (eav : v.eav = true)
    (hP : P { s with c := (s.c.start.lineReceived i v).settle }) : Gives (.inputLineReceive i v) s P :=
  gives_of_body hs (exec_inputLineReceive i v s) ((if_neg (not_refused_of_lane bound serial)).trans ((if_neg (by simp [eav])).trans rfl)) hP

/-! ## A packet of a flow (R78) -/

theorem Chip.WritesOn.updMerge (h : Chip.WritesOn ps a b) (i : Nat) (f : Merge → Merge) : Chip.WritesOn ps a (b.updMerge i f) :=
  h.keep rfl rfl

/-- A path of input `i` brings a packet: a lost input wakes, and the path is not silent. -/
def Chip.hearPath (c : Chip) (i : Nat) (pathB : Bool) : Chip := (c.wake i).judge 0x38 vpktPage (pathInst i pathB) 0 false

theorem Chip.held_hearPath (c : Chip) (hi : i < 1152) (pathB : Bool) : Chip.Held [vinPage] c (c.hearPath i pathB) := by
  have woken : Chip.Held [vinPage] c (c.wake i) := (Chip.Held.refl c).wake List.mem_cons_self hi
  obtain ⟨u, r, e⟩ := (c.wake i).judge_frame 0x38 vpktPage (pathInst i pathB) 0 false false
  rw [Chip.hearPath, e]
  exact woken.keep rfl rfl rfl rfl rfl

theorem Chip.merge_hearPath (c : Chip) (hi : i < 1152) (pathB : Bool) : (c.hearPath i pathB).merge i = c.merge i :=
  Chip.merge_congr (c.held_hearPath hi pathB).merges i

theorem Chip.packetSeq_hearPath (c : Chip) (hi : i < 1152) (seq : Nat) (pathB : Bool) :
    (c.hearPath i pathB).packetSeq i seq = c.packetSeq i seq := by
  have kind := (c.held_hearPath hi pathB).rd (Vpkt.pkind.nth i) (Fld.nth_apart 1152 hi rfl).1 (by simp [Fld.nth, Vpkt.pkind, vinPage])
  rw [Chip.packetSeq, Chip.packetSeq, Chip.on, Chip.on, kind, c.merge_hearPath hi]

/-- The packet is judged by its line, and the highest sequence number follows it. -/
def Chip.packetArrives (c : Chip) (i seq line : Nat) (pathB : Bool) : Chip :=
  let c := c.hearPath i pathB
  let m := c.merge i
  let ext := c.packetSeq i seq
  (c.updMerge i (fun m => { m with high := some (max ext (m.high.getD 0)) })).judge 0x39 vpktPage i 0 (decide (line < m.released))

theorem Chip.writesOn_packetArrives (c : Chip) (hi : i < 1152) (seq line : Nat) (pathB : Bool) :
    Chip.WritesOn [vinPage] c (c.packetArrives i seq line pathB) := by
  unfold Chip.packetArrives
  exact ((c.held_hearPath hi pathB).toWritesOn.updMerge i _).judge _ _ _ _ _ _

theorem Chip.merge_packetArrives (c : Chip) (hi : i < 1152) (seq line : Nat) (pathB : Bool) :
    (c.packetArrives i seq line pathB).merge i =
      { c.merge i with high := some (max (c.packetSeq i seq) ((c.merge i).high.getD 0)) } := by
  have judged (d : Chip) (bad : Bool) : (d.judge 0x39 vpktPage i 0 bad).merges = d.merges :=
    ((Chip.Quiet.refl (ps := []) d).judge _ _ _ _ _ _).merges
  unfold Chip.packetArrives
  dsimp only
  rw [Chip.merge_congr (judged _ _), Chip.merge_updMerge_self, c.merge_hearPath hi, c.packetSeq_hearPath hi]

/-- A flow is on one of the paths of a packet input, in use and of the input's kind of packets (R77). -/
def Chip.TakesFlow (c : Chip) (i flow : Nat) : Prop :=
  c.rd (Vin.transport.nth i).live = 2 ∧
  (flow = c.rd (Vpkt.flowA.nth i) ∨ (c.on (Vpkt.bEn.nth i) = true ∧ flow = c.rd (Vpkt.flowB.nth i))) ∧
  c.on (Flowq.fEn.nth flow).live = true ∧ c.rd (Flowq.fUse.nth flow).live = c.rd (Vpkt.pkind.nth i)

/-- Whether a flow comes on the first path. -/
def Chip.onPathA (c : Chip) (i flow : Nat) : Bool := decide (flow = c.rd (Vpkt.flowA.nth i))

theorem Chip.TakesFlow.not_refused {c : Chip} {flow : Nat} (h : c.TakesFlow i flow) :
    ¬(c.rd (Vin.transport.nth i).live ≠ 2 ∨
      ((!c.onPathA i flow) = true ∧ (!(c.on (Vpkt.bEn.nth i) && decide (flow = c.rd (Vpkt.flowB.nth i)))) = true) ∨
      (!c.on (Flowq.fEn.nth flow).live) = true ∨ c.rd (Flowq.fUse.nth flow).live ≠ c.rd (Vpkt.pkind.nth i)) := by
  obtain ⟨packet, path, used, kind⟩ := h
  have onPath : c.onPathA i flow = true ∨ (c.on (Vpkt.bEn.nth i) && decide (flow = c.rd (Vpkt.flowB.nth i))) = true := by
    simpa [Chip.onPathA] using path
  simp only [packet, used, kind, ne_eq, not_true_eq_false, Bool.not_true, Bool.false_eq_true, or_false, false_or, Bool.not_eq_true',
    not_and, Bool.not_eq_false]
  exact fun k => onPath.resolve_left (by simp [k])

theorem gives_videoPacketReceive_late {s : State} {i : Fin 1152} {flow : BitVec 14} {seq line off : BitVec 32} {words : List (BitVec 10)}
    {P : State → Prop} (hs : s.Runs) (takes : s.c.start.TakesFlow i flow.toNat) (late : line.toNat < (s.c.start.merge i).released)
    (hP : P { s with c := (((s.c.start.packetArrives i seq.toNat line.toNat (!s.c.start.onPathA i flow.toNat)).inc
      (Vpkt.late.nth i)).stick vpktPage 2).settle }) : Gives (.videoPacketReceive i flow seq line off words) s P := by
  refine gives_of_body hs (exec_videoPacketReceive i flow seq line off words s)
    ((if_neg takes.not_refused).trans ((if_pos ?_).trans rfl)) hP
  show decide (line.toNat < ((s.c.start.hearPath i (!s.c.start.onPathA i flow.toNat)).merge i).released) = true
  rw [Chip.merge_hearPath _ i.isLt]
  exact decide_eq_true late

/-- The first copy of a packet is kept with its path. -/
def Chip.keepPacket (c : Chip) (i ext line off : Nat) (words : List (BitVec 10)) (pathB : Bool) : Chip :=
  c.updMerge i (fun m => { m with pkts := m.pkts ++ [⟨ext, line, off, words.map BitVec.toNat, !pathB, pathB⟩] })

theorem gives_videoPacketReceive_first {s : State} {i : Fin 1152} {flow : BitVec 14} {seq line off : BitVec 32} {words : List (BitVec 10)}
    {P : State → Prop} (hs : s.Runs) (takes : s.c.start.TakesFlow i flow.toNat) (inTime : (s.c.start.merge i).released ≤ line.toNat)
    (first : (s.c.start.merge i).pkts.all (fun p => p.seq ≠ s.c.start.packetSeq i seq.toNat) = true)
    (hP : P { s with c := ((s.c.start.packetArrives i seq.toNat line.toNat (!s.c.start.onPathA i flow.toNat)).keepPacket i
      (s.c.start.packetSeq i seq.toNat) line.toNat off.toNat words (!s.c.start.onPathA i flow.toNat)).settle }) :
    Gives (.videoPacketReceive i flow seq line off words) s P := by
  have ext := s.c.start.packetSeq_hearPath i.isLt seq.toNat (!s.c.start.onPathA i flow.toNat)
  rw [← ext] at hP first
  rw [← Chip.merge_hearPath _ i.isLt (!s.c.start.onPathA i flow.toNat)] at inTime first
  refine gives_of_body hs (exec_videoPacketReceive i flow seq line off words s)
    ((if_neg takes.not_refused).trans ((if_neg ?_).trans ((if_neg ?_).trans rfl))) hP
  · exact fun late => absurd (of_decide_eq_true late) (Nat.not_lt.mpr inTime)
  · intro copy
    obtain ⟨p, hp, same⟩ := List.any_eq_true.mp copy
    exact absurd (of_decide_eq_true same) (of_decide_eq_true (List.all_eq_true.mp first p hp))

/-! ## The release of a line (R78, R79) -/

/-- The number, in its frame, of the line that the merge buffer of an input releases next. -/
def Chip.nextLine (c : Chip) (i : Nat) : Nat := (c.merge i).released % max 1 (totalLines (c.inputFmt i)) + 1

/-- The packets that have come for it. -/
def Chip.nextPackets (c : Chip) (i : Nat) : List MergePkt := (c.merge i).pkts.filter (fun p => p.line = (c.merge i).released)

/-- Its words, as many as a line of its kind holds; what no packet brought is missing. -/
def Chip.nextWords (c : Chip) (i : Nat) : List (Option (BitVec 10)) :=
  let fmt := c.inputFmt i
  mergeLine (if c.on (Vpkt.pkind.nth i) then
      (if fmt = 0xFF then ((c.nextPackets i).map (fun p => p.off + p.words.length)).foldl max 0
       else (if rasterOf fmt = 6 then 2 else 1) * wordsPerLine fmt)
    else if (activeRow fmt (c.nextLine i)).isSome then 2 * activeWidth fmt else 0) (c.nextPackets i)

/-- The packets of the next line leave the merge buffer, which moves on by one line. -/
def Chip.dropLine (c : Chip) (i : Nat) : Chip :=
  let n := (c.merge i).released
  c.updMerge i (fun m => { m with pkts := m.pkts.filter (fun p => p.line ≠ n), released := n + 1 })

/-- What the packets `l` of a line lack is counted, path by path, and data that are `missing` on all paths. -/
def Chip.countLosses (c : Chip) (i : Nat) (l : List MergePkt) (missing : Bool) : Chip :=
  let c := (c.pathMisses i l).judge 0x37 vpktPage i 0 missing
  if missing then ((c.inc (Vpkt.loss.nth i)).inc (Vin.lostLines.nth i)).stick vpktPage 0 else c

/-- The merge buffer releases the next line. -/
def Chip.takeOut (c : Chip) (i : Nat) : Chip :=
  (c.dropLine i).countLosses i (c.nextPackets i) ((c.nextWords i).any Option.isNone)

/-- A line of ST 2110-20 is formed and stored, with the ANC and the audio that the input takes. -/
def Chip.formLine (c : Chip) (i fmt line : Nat) (ws : List (Option (BitVec 10))) (anc : List AncPacket) (audio : List EmbSample) : Chip :=
  let takes := c.takesAnc i
  let l := if takes then anc else []
  let q := (c.ancPackets i line l).rasterLine i fmt line (secondField fmt line) ws l
  (q.2.keepLine i q.1).deembed i line (if takes then audio else [])

/-- A line of ST 2110-20 is released whole; with line 1 come the measurements of the frame before. -/
def Chip.rasterReleased (c : Chip) (i : Nat) (eps : BitVec 26) (meas : BitVec 8) (anc : List AncPacket) (audio : List EmbSample) : Chip :=
  let d := (c.takeOut i).formLine i (c.inputFmt i) (c.nextLine i) (c.nextWords i) anc audio
  if (c.merge i).released % max 1 (totalLines (c.inputFmt i)) = 0 then (d.noteFormat i meas.toNat).measureEps i eps.toInt else d

/-- A line of ST 2022-6 is released whole: its words wait for the checks of a received line. -/
def Chip.serialReleased (c : Chip) (i : Nat) : Chip :=
  (c.takeOut i).updMerge i (fun m => { m with line := (c.nextWords i).map (fun w => w.map BitVec.toNat) })

theorem Chip.Quiet.countLosses (h : Chip.Quiet ps a b) (hv : vinPage ∈ ps) (hp : vpktPage ∈ ps) (hi : i < 1152) (l : List MergePkt)
    (missing : Bool) : Chip.Quiet ps a (b.countLosses i l missing) := by
  have judged := (h.pathMisses hp hi l).judge 0x37 vpktPage i 0 missing false
  refine Chip.Quiet.ite (fun _ => Chip.Quiet.stick ?_ (.inl hp) 0) (fun _ => judged)
  exact (judged.wr (f := Vpkt.loss.nth i) (Fld.nth_apart 1152 hi rfl) hp _).wr (f := Vin.lostLines.nth i)
    (Fld.nth_apart 1216 (by omega) rfl) hv _

/-- After the merge buffer's own change the release of a line is quiet. -/
theorem Chip.quiet_takeOut (c : Chip) (hv : vinPage ∈ ps) (hp : vpktPage ∈ ps) (hi : i < 1152) :
    Chip.Quiet ps (c.dropLine i) (c.takeOut i) := (Chip.Quiet.refl _).countLosses hv hp hi _ _

theorem Chip.merge_takeOut (c : Chip) (hi : i < 1152) : (c.takeOut i).merge i = { c.merge i with
    pkts := (c.merge i).pkts.filter (fun p => p.line ≠ (c.merge i).released), released := (c.merge i).released + 1 } := by
  rw [Chip.merge_congr (c.quiet_takeOut (ps := [vinPage, vpktPage]) (by simp) (by simp) hi).merges, Chip.dropLine,
    Chip.merge_updMerge_self]

theorem Chip.writesOn_takeOut (c : Chip) (hv : vinPage ∈ ps) (hp : vpktPage ∈ ps) (hi : i < 1152) : Chip.WritesOn ps c (c.takeOut i) :=
  ((Chip.WritesOn.refl c).updMerge i _).trans (c.quiet_takeOut hv hp hi).toWritesOn

theorem Chip.banks_takeOut (c : Chip) (hi : i < 1152) : (c.takeOut i).banks = c.banks :=
  (c.quiet_takeOut (ps := [vinPage, vpktPage]) (by simp) (by simp) hi).banks

theorem Chip.stored_formLine {d : Chip} (c : Chip) (hv : vinPage ∈ ps) (ha : amapPage ∈ ps) {fmt line : Nat}
    {ws : List (Option (BitVec 10))} {anc : List AncPacket} {audio : List EmbSample}
    (k : Chip.Quiet ps (c.formLine i fmt line ws anc audio) d) : Chip.Stored ps c d i line (secondField fmt line) := by
  have captured := (Chip.Quiet.refl (ps := ps) c).ancPackets (i := i) hv line (if c.takesAnc i then anc else [])
  exact Chip.stored_of_quiet (l := ⟨line, secondField fmt line, _⟩) (captured.fillWords _ 0 ws)
    (((Chip.Quiet.refl _).deembed ha _ _).trans k)

theorem Chip.stored_rasterReleased (c : Chip) (hv : vinPage ∈ ps) (ha : amapPage ∈ ps) (hi : i < 1152) (eps : BitVec 26)
    (meas : BitVec 8) (anc : List AncPacket) (audio : List EmbSample) :
    Chip.Stored ps (c.takeOut i) (c.rasterReleased i eps meas anc audio) i (c.nextLine i) (secondField (c.inputFmt i) (c.nextLine i)) :=
  Chip.stored_formLine _ hv ha
    (Chip.Quiet.ite (fun _ => ((Chip.Quiet.refl _).noteFormat _).measureEps hv hi _) (fun _ => Chip.Quiet.refl _))

theorem gives_mergeLineRelease {s : State} {i : Fin 1152} {eps : BitVec 26} {meas : BitVec 8} {anc : List AncPacket}
    {audio : List EmbSample} {P : State → Prop} (hs : s.Runs) (packet : s.c.start.rd (Vin.transport.nth i).live = 2)
    (hP : P { s with c := (if s.c.start.on (Vpkt.pkind.nth i) then s.c.start.serialReleased i
      else s.c.start.rasterReleased i eps meas anc audio).settle }) : Gives (.mergeLineRelease i eps meas anc audio) s P :=
  gives_of_body hs (exec_mergeLineRelease i eps meas anc audio s) ((if_neg (not_not.mpr packet)).trans rfl) hP

/-! ## A bank's read frame (R83) -/

/-- A step of ε that is too large is judged, and shows as sticky bit 8. -/
def Chip.judgeStep (c : Chip) (i : Nat) (jump : Bool) : Chip :=
  let c := c.judge 0x41 vinPage i 0 jump
  if jump then c.stick vinPage 8 else c

/-- A bank's read frame starts with the measured ε. -/
def Chip.bankFrame (c : Chip) (i : Nat) : Chip :=
  let e := c.rdS (Vin.eps.nth i)
  let d := c.judgeStep i (decide (64 < (e - (c.bank i).eps).natAbs))
  { d with banks := Store.upd {} d.banks i (fun b => { b with eps := e, pos := 0 }) }

theorem Chip.Writes.judge {gs : List Fld} {ps : List Nat} {a b : Chip} (h : Chip.Writes gs ps a b) (src page inst detail : Nat)
    (bad inj : Bool) : Chip.Writes gs ps a (b.judge src page inst detail bad inj) := by
  obtain ⟨u, r, e⟩ := b.judge_frame src page inst detail bad inj
  rw [e]
  exact ⟨h.rd, h.sticky⟩

theorem Chip.writes_judgeStep (c : Chip) (i : Nat) (jump : Bool) : Chip.Writes [] [vinPage] c (c.judgeStep i jump) := by
  have judged := (Chip.Writes.refl (gs := []) (ps := [vinPage]) c).judge 0x41 vinPage i 0 jump false
  unfold Chip.judgeStep
  split
  · exact judged.stick List.mem_cons_self 8
  · exact judged

theorem Chip.banks_judgeStep (c : Chip) (i : Nat) (jump : Bool) : (c.judgeStep i jump).banks = c.banks := by
  have judged := ((Chip.Quiet.refl (ps := []) c).judge 0x41 vinPage i 0 jump false).banks
  unfold Chip.judgeStep
  split <;> exact judged

theorem Chip.writes_bankFrame (c : Chip) (i : Nat) : Chip.Writes [] [vinPage] c (c.bankFrame i) :=
  ⟨(c.writes_judgeStep i _).rd, (c.writes_judgeStep i _).sticky⟩

theorem Chip.bank_bankFrame (c : Chip) (i : Nat) :
    (c.bankFrame i).bank i = { c.bank i with eps := c.rdS (Vin.eps.nth i), pos := 0 } := by
  simp only [Chip.bankFrame, Chip.bank, Store.upd, Store.get_set_self, Chip.banks_judgeStep]

theorem Chip.stickyWord_bankFrame {c : Chip} {i : Nat} (h : 64 < (c.rdS (Vin.eps.nth i) - (c.bank i).eps).natAbs) :
    bit ((c.bankFrame i).stickyWord vinPage) 8 = true := by
  have marked := congrArg (bit · 8) ((c.judge 0x41 vinPage i 0 true).stick_self vinPage 8)
  simp only [Chip.bankFrame, h, decide_true]
  exact marked.trans (bit_setBit_true _ 8)

theorem gives_bankReadFrameStart {s : State} {i : Fin 1152} {P : State → Prop} (hs : s.Runs) (timed : s.c.start.inputSt i = InSt.timed)
    (hP : P { s with c := (s.c.start.bankFrame i).settle }) : Gives (.bankReadFrameStart i) s P :=
  gives_of_body hs (exec_bankReadFrameStart i s) ((if_neg (not_not.mpr timed)).trans rfl) hP

/-! ## The statement -/

/-- A line without a valid EAV is counted, and its input is not lost before `LOSS_LINES` of them. -/
theorem gives_inputLineReceive_noEav {s : State} {i : Fin 1152} {v : VideoLine} {P : State → Prop} (hs : s.Runs)
    (bound : s.c.start.inputSt i ≠ InSt.unbound) (serial : s.c.start.rd (Vin.transport.nth i).live = 1) (noEav : v.eav = false)
    (few : (s.c.start.input i).noEav + 1 < orElse0 (s.c.start.rd Vin.lossLines) 1)
    (hP : P { s with c := (s.c.start.updInput i (fun x => { x with noEav := (s.c.start.input i).noEav + 1 })).settle }) :
    Gives (.inputLineReceive i v) s P := by
  refine gives_of_body hs (exec_inputLineReceive i v s)
    ((if_neg (not_refused_of_lane bound serial)).trans ((if_pos (by simp [noEav])).trans (if_neg ?_))) hP
  rintro ⟨-, many⟩
  exact absurd few (Nat.not_lt.mpr many)

end

/-- The lines of a bank after a new one has entered: five at most. -/
theorem Chip.Stored.length_lines {ps : List Nat} {c d : Chip} {i line : Nat} {f2 : Bool} (h : Chip.Stored ps c d i line f2) :
    (d.bank i).lines.length = min 5 ((c.bank i).lines.length + 1) := by
  obtain ⟨ws, e⟩ := h.lines
  rw [e, List.length_take, List.length_cons]

theorem Chip.Stored.newest {ps : List Nat} {c d : Chip} {i line : Nat} {f2 : Bool} (h : Chip.Stored ps c d i line f2) :
    (d.bank i).lines.head?.map (fun l => (l.line, l.f2)) = some (line, f2) := by
  obtain ⟨ws, e⟩ := h.lines
  rw [e]
  rfl

/-- Settles O8: a line or a packet is received in steps of which one alone enters the bank or the merge buffer, and the others leave both
as they are; each step writes its own pages. -/
theorem inputLines : Obligations.InputLines := by
  intro s i
  refine ⟨fun v hs bound serial noEav few => ?_, fun v hs bound serial eav single measured => ?_,
    fun flow seq line off words hs packet path used kind inTime first => ?_,
    fun flow seq line off words hs packet path used kind late => ?_, fun eps meas anc audio hs packet => ?_, fun hs timed => ?_⟩
  · refine gives_inputLineReceive_noEav hs bound serial noEav few ⟨?_, ((Chip.Writes.refl _).updInput i _).confined⟩
    rw [Chip.input_settle, Chip.input_updInput_self]
    rfl
  · have held : Chip.Held (asrcPage :: lossPages) s.c.start (s.c.start.lineBegins i v) :=
      (Chip.Held.refl _).lineBegins (by decide) i.isLt v
    have whole : rasterOf (s.c.start.inputFmt i) ≠ 6 := by
      unfold Chip.inputFmt
      dsimp only
      split
      · exact measured
      · exact single
    have stored := s.c.start.stored_lineReceived (ps := asrcPage :: lossPages) (by decide) (by decide) i.isLt v whole
    refine gives_inputLineReceive hs bound serial eav ⟨?_, ?_, ?_, ?_, (held.toWritesOn.trans stored.writes).within⟩
    · rw [Chip.input_settle, stored.noEav, Chip.noEav_lineBegins]
    · rw [Chip.inputSt_settle, stored.state, Chip.inputSt_lineBegins]
      rfl
    · rw [Chip.bank_settle, stored.length_lines, Chip.bank_congr held.banks]
      rfl
    · rw [Chip.bank_settle, stored.newest]
  · have writes := s.c.start.writesOn_packetArrives i.isLt seq.toNat line.toNat (!s.c.start.onPathA i flow.toNat)
    refine gives_videoPacketReceive_first hs ⟨packet, path, used, kind⟩ inTime first
      ⟨?_, ?_, ((writes.mono (by decide)).updMerge i _).within⟩
    · rw [Chip.merge_settle, Chip.keepPacket, Chip.merge_updMerge_self, Chip.merge_packetArrives _ i.isLt, Bool.not_not]
      rfl
    · rw [Chip.merge_settle, Chip.keepPacket, Chip.merge_updMerge_self, Chip.merge_packetArrives _ i.isLt]
      rfl
  · have writes := s.c.start.writesOn_packetArrives i.isLt seq.toNat line.toNat (!s.c.start.onPathA i flow.toNat)
    have place : (Vpkt.late.nth i).ok = true := (Fld.nth_apart 1152 i.isLt rfl).1
    have kept := writes.rd (Vpkt.late.nth i) place (by simp [Fld.nth, Vpkt.late, vinPage])
    refine gives_videoPacketReceive_late hs ⟨packet, path, used, kind⟩ late ⟨?_, ?_, ?_, Chip.WritesOn.within ?_⟩
    · rw [Chip.rd_settle _ place rfl, Chip.rd_stick, Chip.inc, Chip.rd_wr_self, kept]
      exact Nat.mod_eq_of_lt (satInc_lt (Chip.rd_lt _ _))
    · rw [(settled _).stickyWord _ rfl, Chip.stick_self, bit_setBit_true]
    · rw [Chip.merge_settle]
      exact (congrArg Merge.pkts (Chip.merge_packetArrives _ i.isLt _ _ _)).trans rfl
    · exact ((writes.mono (by decide)).wr place (show vpktPage ∈ lossPages by decide) _).stick (.inl (by decide)) 2
  · have takenOut := s.c.start.writesOn_takeOut (ps := asrcPage :: lossPages) (by decide) (by decide) i.isLt
    have merged := s.c.start.merge_takeOut i.isLt
    have banks := Chip.bank_congr (s.c.start.banks_takeOut i.isLt) i
    refine gives_mergeLineRelease hs packet ?_
    cases kind : s.c.on (Vpkt.pkind.nth i) with
    | true =>
      rw [if_pos (show s.c.start.on (Vpkt.pkind.nth i) = true from kind), if_pos rfl]
      refine ⟨?_, ?_, ?_, (takenOut.updMerge i _).within⟩
      · rw [Chip.merge_settle, Chip.serialReleased, Chip.merge_updMerge_self, merged]
        rfl
      · rw [Chip.merge_settle, Chip.serialReleased, Chip.merge_updMerge_self, merged]
        rfl
      · rw [Chip.bank_settle]
        exact congrArg (List.length ∘ Bank.lines) banks
    | false =>
      have stored := s.c.start.stored_rasterReleased (ps := asrcPage :: lossPages) (by decide) (by decide) i.isLt eps meas anc audio
      rw [if_neg (by rw [show s.c.start.on (Vpkt.pkind.nth i) = false from kind]; decide), if_neg (by decide)]
      refine ⟨?_, ?_, ?_, (takenOut.trans stored.writes).within⟩
      · rw [Chip.merge_settle, Chip.merge_congr stored.merges, merged]
        rfl
      · rw [Chip.merge_settle, Chip.merge_congr stored.merges, merged]
        rfl
      · rw [Chip.bank_settle, stored.length_lines, banks]
        rfl
  · refine gives_bankReadFrameStart hs timed ⟨?_, ?_, fun jump => ?_, (s.c.start.writes_bankFrame i).confined⟩
    · rw [Chip.bank_settle, Chip.bank_bankFrame]
      rfl
    · rw [Chip.bank_settle, Chip.bank_bankFrame]
      rfl
    · rw [(settled _).stickyWord _ rfl]
      exact Chip.stickyWord_bankFrame jump

end Sys2Proof.Machine
end

section
/-! SUPPORT. Frame synchronisers: their read-frame starts, the lines they read and the end of a freeze (O9). -/

namespace Sys2Proof.Machine

/-! ## Reading and changing a synchroniser -/

@[simp] theorem Chip.sync_updSync_self (c : Chip) (n : Nat) (f : Sync → Sync) : (c.updSync n f).sync n = f (c.sync n) := by
  simp [Chip.sync, Chip.updSync, Store.upd]

/-- Two changes of a synchroniser that agree on it as it stands are one change. -/
theorem Chip.updSync_congr (c : Chip) (n : Nat) {f g : Sync → Sync} (h : f (c.sync n) = g (c.sync n)) : c.updSync n f = c.updSync n g :=
  congrArg (fun y => { c with syncs := Store.set {} c.syncs n y }) h

@[simp] theorem Chip.sync_settle (c : Chip) (n : Nat) : c.settle.sync n = c.sync n := by rw [Chip.sync, (settled c).syncs, Chip.sync]
@[simp] theorem Chip.sync_wr (c : Chip) (f : Fld) (v n : Nat) : (c.wr f v).sync n = c.sync n := rfl

theorem Chip.sync_congr {c d : Chip} (h : d.syncs = c.syncs) (n : Nat) : d.sync n = c.sync n := by rw [Chip.sync, h, Chip.sync]

/-- No reaction to a fault writes a field of the table of synchronisers. -/
theorem Chip.rd_settle_fsync (c : Chip) (n : Fin 256) {f : Fld}
    (hf : (decide (f.page = fsyncPage) && decide (f.off + 256 * f.stride < 67108864) && decide (f.lo < 32)) = true) :
    c.settle.rd (f.nth n) = c.rd (f.nth n) := by
  simp only [Bool.and_eq_true, decide_eq_true_eq] at hf
  obtain ⟨⟨hp, ho⟩, hl⟩ := hf
  have hm : n * f.stride ≤ 256 * f.stride := Nat.mul_le_mul_right _ n.isLt.le
  have page : (f.nth n).page = fsyncPage := hp
  exact c.rd_settle (Fld.nth_ok (by rw [hp]; decide) hl (by omega)) (by rw [page]; rfl)

/-- A sticky bit of the synchronisers' page that is set when the effect ends is set when the command ends. -/
theorem Chip.stickyWord_settle_fsync (c : Chip) : c.settle.stickyWord fsyncPage = c.stickyWord fsyncPage :=
  (settled c).stickyWord _ rfl

theorem Chip.Writes.report {gs : List Fld} {ps : List Nat} {a b : Chip} (h : Chip.Writes gs ps a b) (r : Report) :
    Chip.Writes gs ps a (b.report r) := ⟨h.rd, h.sticky⟩

theorem Chip.Writes.updSync {gs : List Fld} {ps : List Nat} {a b : Chip} (h : Chip.Writes gs ps a b) (n : Nat) (f : Sync → Sync) :
    Chip.Writes gs ps a (b.updSync n f) := ⟨h.rd, h.sticky⟩

theorem Chip.WritesOn.report {ps : List Nat} {a b : Chip} (h : Chip.WritesOn ps a b) (r : Report) : Chip.WritesOn ps a (b.report r) :=
  h.keep rfl rfl

theorem Chip.WritesOn.updSync {ps : List Nat} {a b : Chip} (h : Chip.WritesOn ps a b) (n : Nat) (f : Sync → Sync) :
    Chip.WritesOn ps a (b.updSync n f) := h.keep rfl rfl

/-- A write of a field of one synchroniser's entry. -/
theorem Chip.WritesOn.wrSync {ps : List Nat} {a b : Chip} (h : Chip.WritesOn ps a b) (hp : fsyncPage ∈ ps) (n : Fin 256) {f : Fld}
    (hf : (decide (f.page = fsyncPage) && decide (f.off + 256 * f.stride < 67108864) && decide (f.lo < 32)) = true) (v : Nat) :
    Chip.WritesOn ps a (b.wr (f.nth n) v) := by
  simp only [Bool.and_eq_true, decide_eq_true_eq] at hf
  obtain ⟨⟨hpage, ho⟩, hl⟩ := hf
  have hm : n * f.stride ≤ 256 * f.stride := Nat.mul_le_mul_right _ n.isLt.le
  have page : (f.nth n).page = fsyncPage := hpage
  exact h.wr (Fld.nth_ok (by rw [hpage]; decide) hl (by omega)) (by rw [page]; exact hp) v

/-! ## The commands' own meanings -/

theorem exec_fsReadFrameStart (n : Fin 256) (s : State) : exec (.fsReadFrameStart n) s = execFsReadFrameStart n s := rfl
theorem exec_fsLockedLineRead (n : Fin 256) (line : BitVec 12) (late : Bool) (word : BitVec 32) (ecc : MemRead) (s : State) :
    exec (.fsLockedLineRead n line late word ecc) s = execFsLockedLineRead n line late word ecc s := rfl
theorem exec_fsFreezeExpire (n : Fin 256) (s : State) : exec (.fsFreezeExpire n) s = execFsFreezeExpire n s := rfl

/-! ## The reader of a `FREE` synchroniser (R86, R89) -/

/-- A device with no standby to tell applies its verdicts at once. -/
theorem Chip.verdict_alone {c : Chip} (standby : c.isStandby = false) (mirrors : c.mirrors = false) (i v n adv : Nat) :
    c.verdict i v n adv = c.applyVerdict i v n adv := by
  simp [Chip.verdict, Chip.decision, standby, mirrors]

/-- An advance by no frame repeats the one being read. -/
theorem Chip.syncAdvance_zero {c : Chip} {n : Nat} (h : (c.sync n).readFrame ≠ 0) :
    c.syncAdvance n 0 =
      ((c.inc (Fsync.repeatCnt.nth n)).raiseNote 0x42 fsyncPage n (c.rd (Fsync.input.nth n))).stick fsyncPage 0 := by
  simp [Chip.syncAdvance, h]

/-- The newest complete frame becomes the one being read. -/
def Chip.takeNewest (c : Chip) (n : Nat) : Chip :=
  (c.updSync n (fun y => { y with readFrame := y.newest, reading := y.complete })).wr (Fsync.state.nth n) 2

/-- An advance that reaches the newest frame takes it; frames that it passes over are counted and noted. -/
theorem Chip.syncAdvance_newest {c : Chip} {n adv : Nat} (old : c.rd Fsync.guard ≤ (c.sync n).since) (some : adv ≠ 0)
    (first : (c.sync n).readFrame = 0 → adv = 1) (next : (c.sync n).readFrame ≠ 0 → (c.sync n).readFrame + adv = (c.sync n).newest) :
    c.syncAdvance n adv = c.takeNewest n ∨
      ∃ k r, c.syncAdvance n adv = (((c.takeNewest n).addSat (Fsync.dropCnt.nth n) k).report r).stick fsyncPage 0 := by
  have target : (if (c.sync n).readFrame = 0 then (c.sync n).newest + 1 - adv
      else if adv = 1 then (c.sync n).readFrame + 1 else max ((c.sync n).readFrame + adv) (c.sync n).newest) = (c.sync n).newest := by
    split
    · rw [first ‹_›, Nat.add_sub_cancel]
    · have reached := next ‹_›
      split
      · omega
      · omega
  have taken : c.updSync n (fun y => { y with
        readFrame := (c.sync n).newest, reading := if (c.sync n).newest + 1 = y.newest then y.prior else y.complete }) =
      c.updSync n (fun y => { y with readFrame := y.newest, reading := y.complete }) :=
    c.updSync_congr n (by simp)
  simp only [Chip.syncAdvance, some, if_false, old, if_true, target, taken]
  split
  · exact .inl rfl
  · exact .inr ⟨_, _, rfl⟩

theorem Chip.sync_takeNewest (c : Chip) (n : Nat) :
    (c.takeNewest n).sync n = { c.sync n with readFrame := (c.sync n).newest, reading := (c.sync n).complete } := by
  rw [Chip.takeNewest, Chip.sync_wr, Chip.sync_updSync_self]

theorem Chip.rd_state_takeNewest (c : Chip) (n : Nat) : (c.takeNewest n).rd (Fsync.state.nth n) = 2 := by
  rw [Chip.takeNewest, Chip.rd_wr_self]
  rfl

theorem Chip.rd_repeatCnt_takeNewest (c : Chip) (n : Nat) :
    (c.takeNewest n).rd (Fsync.repeatCnt.nth n) = c.rd (Fsync.repeatCnt.nth n) :=
  Chip.rd_wr_ne _ _ (Fld.key_ne_of_lo rfl)

theorem Chip.writesOn_takeNewest (c : Chip) (n : Fin 256) : Chip.WritesOn [fsyncPage] c (c.takeNewest n) :=
  ((Chip.WritesOn.refl c).updSync n _).wrSync List.mem_cons_self n rfl 2

/-- The reader has taken the newest complete frame: nothing else of the synchroniser but its count of frames passed over has changed. -/
structure Chip.TookNewest (c d : Chip) (n : Fin 256) : Prop where
  sync : d.sync n = { c.sync n with readFrame := (c.sync n).newest, reading := (c.sync n).complete }
  state : d.rd (Fsync.state.nth n) = 2
  repeatCnt : d.rd (Fsync.repeatCnt.nth n) = c.rd (Fsync.repeatCnt.nth n)
  writes : Chip.WritesOn [fsyncPage] c d

theorem Chip.tookNewest_syncAdvance {c : Chip} {n : Fin 256} {adv : Nat} (old : c.rd Fsync.guard ≤ (c.sync n).since) (some : adv ≠ 0)
    (first : (c.sync n).readFrame = 0 → adv = 1) (next : (c.sync n).readFrame ≠ 0 → (c.sync n).readFrame + adv = (c.sync n).newest) :
    Chip.TookNewest c (c.syncAdvance n adv) n := by
  have taken := c.writesOn_takeNewest n
  rcases Chip.syncAdvance_newest old some first next with e | ⟨k, r, e⟩
  · rw [e]
    exact ⟨c.sync_takeNewest n, c.rd_state_takeNewest n, c.rd_repeatCnt_takeNewest n, taken⟩
  · have dropped := taken.wrSync List.mem_cons_self n (f := Fsync.dropCnt) rfl
      (satAdd 32 ((c.takeNewest n).rd (Fsync.dropCnt.nth n)) k)
    have apart {f : Fld} (h : f.key ≠ (Fsync.dropCnt.nth n).key) :
        (c.syncAdvance n adv).rd f = (c.takeNewest n).rd f := by
      rw [e]
      exact Chip.rd_wr_ne _ _ h
    refine ⟨?_, (apart (Fld.key_ne_of_lo rfl)).trans (c.rd_state_takeNewest n), (apart ?_).trans (c.rd_repeatCnt_takeNewest n), ?_⟩
    · rw [e]
      exact c.sync_takeNewest n
    · simp only [Fld.nth_key, placeKey, Fsync.repeatCnt, Fsync.dropCnt]
      omega
    · rw [e]
      exact (dropped.report r).stick (.inl List.mem_cons_self) 0

/-- A `FREE` synchroniser whose newest complete frame has stood for `GUARD` lines advances to it, by two frames at most; a device with no
standby applies the verdict at once. -/
theorem gives_fsReadFrameStart_free {s : State} {n : Fin 256} {P : State → Prop} (hs : s.Runs) (standby : s.c.start.isStandby = false)
    (mirrors : s.c.start.mirrors = false) (used : s.c.start.rd (Fsync.input.nth n) ≠ 0x7FF)
    (free : s.c.start.on (Fsync.locked.nth n) = false)
    (single : s.c.start.on (Vin.bond.nth (s.c.start.rd (Fsync.input.nth n) - s.c.start.rd (Fsync.input.nth n) % 4)).live = false)
    (own : (s.c.start.input (s.c.start.rd (Fsync.input.nth n))).sync = some n.val) (alive : (s.c.start.sync n).lost = false)
    (old : s.c.start.rd Fsync.guard ≤ (s.c.start.sync n).since) (frame : (s.c.start.sync n).newest ≠ 0)
    (hP : P { s with c := (s.c.start.syncAdvance n
      (if (s.c.sync n).readFrame = 0 then 1 else min 2 ((s.c.sync n).newest - (s.c.sync n).readFrame))).settle }) :
    Gives (.fsReadFrameStart n) s P := by
  refine gives_of_body hs (exec_fsReadFrameStart n s) ?_ hP
  simp only [used, free, single, alive, old, frame, if_true, if_false, Bool.false_eq_true, and_false, List.head?_cons, ne_eq,
    not_true_eq_false, or_self, List.foldl_cons, List.foldl_nil, own, Chip.verdict_alone standby mirrors, Chip.applyVerdict,
    Nat.add_sub_cancel_left]
  rfl

/-- After loss the frames of the freeze are counted, and the synchroniser is black by `LOSS_ACT` or past `FREEZE_FR` of them (R88). -/
theorem gives_fsReadFrameStart_lost {s : State} {n : Fin 256} {P : State → Prop} (hs : s.Runs)
    (used : s.c.start.rd (Fsync.input.nth n) ≠ 0x7FF) (lost : (s.c.start.sync n).lost = true)
    (hP : P { s with c := (s.c.start.updSync n (fun y => { y with
      frozen := (s.c.sync n).frozen + 1,
      black := s.c.rd (Fsync.lossAct.nth n) = 1 ||
        (s.c.rd (Fsync.freezeFr.nth n) ≠ 0 && s.c.rd (Fsync.freezeFr.nth n) < (s.c.sync n).frozen + 1),
      reading := y.complete, readFrame := y.newest })).settle }) :
    Gives (.fsReadFrameStart n) s P := by
  refine gives_of_body hs (exec_fsReadFrameStart n s) ?_ hP
  simp only [used, lost, if_true, if_false]
  rfl

/-! ## Lines that are read (R87, R88) -/

/-- What a `LOCKED` synchroniser makes of a line that is late, or has not come: its attempt, its sticky bit and its count. -/
def Chip.markLate (c : Chip) (n i : Nat) (late missing : Bool) : Chip :=
  let c := c.judge 0x44 fsyncPage n 0 late
  let c := if late then c.stick fsyncPage 2 else c
  if missing ∧ i < 1152 then c.inc (Vpkt.late.nth i) else c

/-- A `LOCKED` synchroniser moves on past line `pos` of its flow, of field `f2`; `now` is the line that it gives, where it has one. -/
def Chip.passLine (c : Chip) (n pos : Nat) (f2 : Bool) (now : Option BankLine) : Chip :=
  c.updSync n (fun y =>
    { y with readPos := some (pos + 1), lastRead := now.toList ++ y.lastRead.filter (fun l => now.isNone || l.f2 ≠ f2),
             pics := match now with
               | some l => addPicLine l y.pics
               | none => y.pics })

/-- Line 1 of a frame begins the read of the next frame. -/
def Chip.beginRead (c : Chip) (n line : Nat) : Chip :=
  if line = 1 then (c.wr (Fsync.state.nth n) 2).updSync n (fun y => { y with readFrame := y.readFrame + 1 }) else c

/-- A `LOCKED` synchroniser, which stands as `y`, reads line `pos` of its flow; `hbmLate` tells that the read is delayed. -/
def Chip.lockedLine (c : Chip) (n i pos : Nat) (y : Sync) (hbmLate : Bool) : Chip :=
  let fmt := c.inputFmt i
  let line := pos % max 1 (totalLines fmt) + 1
  let f2 := secondField fmt line
  let found := (y.ring.find? (fun l => l.1 = pos)).map Prod.snd
  let late := hbmLate || found.isNone
  let old := (y.lastRead.find? (fun l => l.f2 = f2)).map (fun l => (⟨line, f2, l.words⟩ : BankLine))
  ((c.markLate n i late found.isNone).passLine n pos f2 (if late then old else found)).beginRead n line

/-- Whether the word that a synchroniser reads is lost: its ECC finds more than one wrong bit, or it is poisoned (R423). -/
def Chip.lostWord (c : Chip) (n : Nat) (word : BitVec 32) (ecc : MemRead) : Bool :=
  (ecc.syn ≠ 0 && !oneBit ecc.syn.toNat) || c.isPoisoned (n / 128) 0 word.toNat

/-- The read of the word leaves the next line of a `LOCKED` synchroniser what it was. -/
theorem Chip.Quiet.lockedPos {c d : Chip} (h : Chip.Quiet [hbmPage] c d) (n : Fin 256) {i : Nat} (hi : i < 2048) :
    d.lockedPos n i = c.lockedPos n i := by
  have win : d.winOf i = c.winOf i := by
    rw [Chip.winOf, Chip.winOf, h.rd _ (Fld.nth_apart 2048 hi rfl).1 (by simp [Fld.nth, Vpkt.win, hbmPage])]
  have delay : d.fsDelay n = c.fsDelay n := by
    rw [Chip.fsDelay, Chip.fsDelay, h.rd _ (Fld.nth_apart 256 n.isLt rfl).1 (by simp [Fld.nth, Fsync.fsK, hbmPage])]
  rw [Chip.lockedPos, Chip.lockedPos, Chip.sync_congr h.syncs, Chip.merge, Chip.merge, h.merges, h.inputFmt, win, delay]

/-- The read of the word leaves a field of a synchroniser's entry. -/
theorem Chip.Quiet.on_locked {c d : Chip} (h : Chip.Quiet [hbmPage] c d) (n : Fin 256) :
    d.on (Fsync.locked.nth n) = c.on (Fsync.locked.nth n) := by
  rw [Chip.on, Chip.on, h.rd _ (Fld.nth_apart 256 n.isLt rfl).1 (by simp [Fld.nth, Fsync.locked, hbmPage])]

theorem gives_fsLockedLineRead {s : State} {n : Fin 256} {line : BitVec 12} {hbmLate : Bool} {word : BitVec 32} {ecc : MemRead} {pos : Nat}
    {P : State → Prop} (hs : s.Runs) (used : s.c.start.rd (Fsync.input.nth n) ≠ 0x7FF)
    (locked : s.c.start.on (Fsync.locked.nth n) = true)
    (alive : (s.c.start.sync n).lost = false) (hpos : s.c.start.lockedPos n (s.c.start.rd (Fsync.input.nth n)) = some pos)
    (hP : ∀ d : Chip, Chip.Quiet [hbmPage] s.c.start d →
      P { s with c := (d.lockedLine n (s.c.start.rd (Fsync.input.nth n)) pos (s.c.start.sync n)
        (hbmLate || s.c.start.lostWord n word ecc)).settle }) :
    Gives (.fsLockedLineRead n line hbmLate word ecc) s P := by
  have quiet := s.c.start.quiet_memRead (k := n.val / 128) (by omega) 0 word.toNat ecc.syn.toNat ecc.again.toNat
    ((s.c.start.destsOf (s.c.start.rd (Fsync.input.nth n))).map (fun d => (0, d))) true
  refine gives_of_body hs (exec_fsLockedLineRead n line hbmLate word ecc s) ((if_neg used).trans ((if_neg ?_).trans ?_)) (hP _ quiet)
  · rw [quiet.on_locked, locked, alive]
    decide
  · rw [quiet.lockedPos n (s.c.start.rd_lt (Fsync.input.nth n)), hpos]
    rfl

theorem gives_fsLockedLineRead_frame {s : State} {n : Fin 256} {line : BitVec 12} {hbmLate : Bool} {word : BitVec 32} {ecc : MemRead}
    {P : State → Prop} (hs : s.Runs) (used : s.c.start.rd (Fsync.input.nth n) ≠ 0x7FF)
    (free : s.c.start.on (Fsync.locked.nth n) = false)
    (hP : ∀ d : Chip, Chip.Quiet [hbmPage] s.c.start d →
      P { s with c := (d.syncLate n line.toNat (hbmLate || s.c.start.lostWord n word ecc)).settle }) :
    Gives (.fsLockedLineRead n line hbmLate word ecc) s P := by
  have quiet := s.c.start.quiet_memRead (k := n.val / 128) (by omega) 0 word.toNat ecc.syn.toNat ecc.again.toNat
    ((s.c.start.destsOf (s.c.start.rd (Fsync.input.nth n))).map (fun d => (0, d))) true
  refine gives_of_body hs (exec_fsLockedLineRead n line hbmLate word ecc s) ((if_neg used).trans (if_pos (.inl ?_))) (hP _ quiet)
  rw [quiet.on_locked, free]
  rfl

/-! ## What a read leaves -/

@[simp] theorem Chip.sync_judge (c : Chip) (src page inst detail : Nat) (bad inj : Bool) (n : Nat) :
    (c.judge src page inst detail bad inj).sync n = c.sync n := by
  obtain ⟨u, r, e⟩ := c.judge_frame src page inst detail bad inj
  rw [e]
  rfl

theorem Chip.stickyWord_markLate (c : Chip) (n i : Nat) (missing : Bool) :
    bit ((c.markLate n i true missing).stickyWord fsyncPage) 2 = true := by
  have marked := congrArg (bit · 2) ((c.judge 0x44 fsyncPage n 0 true).stick_self fsyncPage 2)
  unfold Chip.markLate
  dsimp only
  split
  · exact marked.trans (bit_setBit_true _ 2)
  · exact marked.trans (bit_setBit_true _ 2)

theorem Chip.WritesOn.markLate {ps : List Nat} {a b : Chip} (h : Chip.WritesOn ps a b) (hp : fsyncPage ∈ ps) (n i : Nat) (late : Bool)
    {missing : Bool} (hm : missing = true → vpktPage ∈ ps) : Chip.WritesOn ps a (b.markLate n i late missing) := by
  have marked : Chip.WritesOn ps a
      (if late then (b.judge 0x44 fsyncPage n 0 late).stick fsyncPage 2 else b.judge 0x44 fsyncPage n 0 late) := by
    split
    · exact (h.judge 0x44 fsyncPage n 0 late false).stick (.inl hp) 2
    · exact h.judge 0x44 fsyncPage n 0 late false
  unfold Chip.markLate
  dsimp only
  split
  next counted =>
    obtain ⟨gone, hi⟩ := counted
    exact marked.wr (f := Vpkt.late.nth i) (Fld.nth_apart 1152 hi rfl).1 (hm gone) _
  · exact marked

theorem Chip.stickyWord_beginRead (c : Chip) (n line p : Nat) : (c.beginRead n line).stickyWord p = c.stickyWord p := by
  unfold Chip.beginRead
  split <;> rfl

theorem Chip.readPos_beginRead (c : Chip) (n line : Nat) : ((c.beginRead n line).sync n).readPos = (c.sync n).readPos := by
  unfold Chip.beginRead
  split
  · rw [Chip.sync_updSync_self, Chip.sync_wr]
  · rfl

theorem Chip.lastRead_beginRead (c : Chip) (n line : Nat) : ((c.beginRead n line).sync n).lastRead = (c.sync n).lastRead := by
  unfold Chip.beginRead
  split
  · rw [Chip.sync_updSync_self, Chip.sync_wr]
  · rfl

theorem Chip.WritesOn.beginRead {ps : List Nat} {a b : Chip} (h : Chip.WritesOn ps a b) (hp : fsyncPage ∈ ps) (n : Fin 256) (line : Nat) :
    Chip.WritesOn ps a (b.beginRead n line) := by
  unfold Chip.beginRead
  split
  · exact (h.wrSync hp n rfl 2).updSync n _
  · exact h

/-- A `LOCKED` synchroniser moves on by one line, whether that has arrived or not. -/
theorem Chip.readPos_lockedLine (c : Chip) (n i pos : Nat) (y : Sync) (hbmLate : Bool) :
    ((c.lockedLine n i pos y hbmLate).sync n).readPos = some (pos + 1) := by
  rw [Chip.lockedLine, Chip.readPos_beginRead, Chip.passLine, Chip.sync_updSync_self]

/-- A line that has arrived in time is the newest of those read. -/
theorem Chip.lastRead_lockedLine (c : Chip) (n i pos : Nat) {y : Sync} {l : BankLine}
    (found : (y.ring.find? (fun l => l.1 = pos)).map Prod.snd = some l) :
    ((c.lockedLine n i pos y false).sync n).lastRead.head? = some l := by
  rw [Chip.lockedLine, Chip.lastRead_beginRead, Chip.passLine, Chip.sync_updSync_self, found]
  rfl

theorem Chip.stickyWord_lockedLine (c : Chip) (n i pos : Nat) (y : Sync) :
    bit ((c.lockedLine n i pos y true).stickyWord fsyncPage) 2 = true := by
  rw [Chip.lockedLine, Chip.stickyWord_beginRead]
  exact Chip.stickyWord_markLate _ n i _

theorem Chip.WritesOn.lockedLine {ps : List Nat} {a b : Chip} (h : Chip.WritesOn ps a b) (hp : fsyncPage ∈ ps) (n : Fin 256) (i pos : Nat)
    (y : Sync) (hbmLate : Bool) (hm : (y.ring.find? (fun l => l.1 = pos)).map Prod.snd = none → vpktPage ∈ ps) :
    Chip.WritesOn ps a (b.lockedLine n i pos y hbmLate) :=
  ((h.markLate hp n i _ (fun gone => hm (Option.isNone_iff_eq_none.mp gone))).updSync n _).beginRead hp n _

theorem Chip.sync_syncLate (c : Chip) (n line : Nat) : ((c.syncLate n line true).sync n).readFrame = (c.sync n).readFrame ∧
    ((c.syncLate n line true).sync n).reading.length = (c.sync n).reading.length := by
  have kept : ((c.judge 0x44 fsyncPage n 0 true).stick fsyncPage 2).sync n = c.sync n := c.sync_judge 0x44 fsyncPage n 0 true false n
  constructor
  · simp only [Chip.syncLate, Bool.not_true, Bool.false_eq_true, if_false, Chip.sync_updSync_self, kept]
  · simp only [Chip.syncLate, Bool.not_true, Bool.false_eq_true, if_false, Chip.sync_updSync_self, kept, List.length_map]

theorem Chip.stickyWord_syncLate (c : Chip) (n line : Nat) : bit ((c.syncLate n line true).stickyWord fsyncPage) 2 = true :=
  (congrArg (bit · 2) ((c.judge 0x44 fsyncPage n 0 true).stick_self fsyncPage 2)).trans (bit_setBit_true _ 2)

theorem Chip.WritesOn.syncLate {ps : List Nat} {a b : Chip} (h : Chip.WritesOn ps a b) (hp : fsyncPage ∈ ps) (n line : Nat) :
    Chip.WritesOn ps a (b.syncLate n line true) :=
  ((h.judge 0x44 fsyncPage n 0 true false).stick (.inl hp) 2).updSync n _

/-! ## The statement -/

/-- Settles O9: a read-frame start is an advance of the reader or a frame of the freeze, and a line read is the read of its word, which
touches the page of the stacks alone, and then the line. -/
theorem synchronisers : Obligations.Synchronisers := by
  intro s n
  refine ⟨fun hs standby mirrors used free single _ own alive old newer near => ?_,
    fun hs standby mirrors used free single _ own alive old same frame => ?_, fun hs used _ _ lost => ?_,
    fun line word ecc pos l hs good clean used locked alive hpos found => ?_, fun line word ecc pos hs used locked alive hpos => ?_,
    fun line word ecc hs used free => ?_, fun hs lost act limit => ?_⟩
  · refine gives_fsReadFrameStart_free hs standby mirrors used free single own alive old (Nat.ne_zero_of_lt newer) ?_
    obtain ⟨sync, state, repeats, writes⟩ := Chip.tookNewest_syncAdvance (c := s.c.start) old
      (adv := if (s.c.sync n).readFrame = 0 then 1 else min 2 ((s.c.sync n).newest - (s.c.sync n).readFrame))
      (by split <;> omega) (fun first => if_pos first)
      (fun later => by
        rw [if_neg (show ¬(s.c.sync n).readFrame = 0 from later)]
        show (s.c.sync n).readFrame + _ = (s.c.sync n).newest
        have two := near.resolve_left later
        omega)
    refine ⟨?_, ?_, ?_, ?_, writes.within⟩
    · rw [Chip.sync_settle, sync]
      rfl
    · rw [Chip.sync_settle, sync]
      rfl
    · exact (Chip.rd_settle_fsync _ n rfl).trans state
    · exact (Chip.rd_settle_fsync _ n rfl).trans repeats
  · have later : (s.c.start.sync n).readFrame ≠ 0 := fun e => absurd (same.symm.trans e) frame.ne'
    have noAdvance : (if (s.c.sync n).readFrame = 0 then 1 else min 2 ((s.c.sync n).newest - (s.c.sync n).readFrame)) = 0 := by
      rw [if_neg (show ¬(s.c.sync n).readFrame = 0 from later), same, Nat.sub_self]
      rfl
    refine gives_fsReadFrameStart_free hs standby mirrors used free single own alive old frame.ne' ?_
    rw [noAdvance, Chip.syncAdvance_zero later]
    refine ⟨?_, ?_, ?_, Chip.Writes.confined ?_⟩
    · rw [Chip.sync_settle]
      rfl
    · exact (Chip.rd_settle_fsync _ n rfl).trans ((Chip.rd_wr_self _ _ _).trans (Nat.mod_eq_of_lt (satInc_lt (Chip.rd_lt _ _))))
    · rw [Chip.stickyWord_settle_fsync, Chip.stick_self, bit_setBit_true]
    · exact (((Chip.Writes.refl _).wr List.mem_cons_self _).report _).stick List.mem_cons_self 0
  · refine gives_fsReadFrameStart_lost hs used lost ⟨?_, ?_, (Chip.Writes.updSync (Chip.Writes.refl _) n _).confined⟩
    · rw [Chip.sync_settle, Chip.sync_updSync_self]
    · rw [Chip.sync_settle, Chip.sync_updSync_self]
  · have whole : s.c.start.lostWord n word ecc = false := by
      rw [Chip.lostWord, Bool.or_eq_false_iff]
      refine ⟨?_, clean⟩
      rcases good with h | h <;> simp [h]
    refine gives_fsLockedLineRead hs used locked alive hpos fun d quiet => ?_
    rw [whole]
    refine ⟨?_, ?_, Chip.WritesOn.within ?_⟩
    · rw [Chip.sync_settle]
      exact d.lastRead_lockedLine n _ pos found
    · rw [Chip.sync_settle]
      exact d.readPos_lockedLine n _ pos _ _
    · exact (quiet.toWritesOn.mono (by simp)).lockedLine (by simp) n _ pos _ _ (fun gone => absurd (found.symm.trans gone) (by simp))
  · refine gives_fsLockedLineRead hs used locked alive hpos fun d quiet => ⟨?_, ?_, Chip.WritesOn.within ?_⟩
    · rw [Chip.sync_settle]
      exact d.readPos_lockedLine n _ pos _ _
    · rw [Chip.stickyWord_settle_fsync, Bool.true_or]
      exact d.stickyWord_lockedLine n _ pos _
    · exact (quiet.toWritesOn.mono (by simp)).lockedLine (by simp) n _ pos _ _ (fun _ => by simp)
  · refine gives_fsLockedLineRead_frame hs used free fun d quiet => ?_
    rw [Bool.true_or]
    obtain ⟨readFrame, length⟩ := d.sync_syncLate n line.toNat
    have kept : d.sync n = s.c.sync n := Chip.sync_congr quiet.syncs n
    refine ⟨?_, ?_, ?_, ((quiet.toWritesOn.mono (by simp)).syncLate (by simp) n _).within⟩
    · rw [Chip.sync_settle, readFrame, kept]
    · rw [Chip.sync_settle, length, kept]
    · rw [Chip.stickyWord_settle_fsync]
      exact d.stickyWord_syncLate n _
  · refine gives_of_body hs (exec_fsFreezeExpire n s) (if_pos ⟨lost, act, limit⟩)
      ⟨?_, (Chip.Writes.updSync (Chip.Writes.refl _) n _).confined⟩
    rw [Chip.sync_settle, Chip.sync_updSync_self]

end Sys2Proof.Machine
end

section
/-! SUPPORT. The statements of the video inputs that fail outside the states a run can reach (O6, O7). -/

namespace Sys2Proof.Machine

theorem exec_inputConfigApply (i : Fin 1152) (s : State) : exec (.inputConfigApply i) s = execInputConfigApply i s := rfl
theorem exec_inputLoss (i : Fin 1152) (s : State) : exec (.inputLoss i) s = execInputLoss i s := rfl

/-- A stored configuration of input 0 waits, and the field table lists its sub-stream ID twice: 1, which reads, then 0. -/
def descriptorListedTwice : State :=
  { State.reset with
    c := { State.reset.c with
      flds := [((Vin.ssid.nth 0).key, 1), ((Vin.ssid.nth 0).key, 0)], vin := [(0, { waiting := true })] } }

/-- Refutes O6: of a field that the table lists twice, which the statement does not exclude, a read takes the first value and the copy
into the configuration in force the last, so the sub-stream ID 1 of a stored configuration comes into use as 0. -/
theorem not_inputBinding : ¬Obligations.InputBinding := by
  intro h
  obtain ⟨-, -, configApply, -⟩ := h descriptorListedTwice 0
  have given := configApply (by decide) (by decide) (by decide)
  obtain ⟨-, -, ssid, -⟩ := holds_of_gives given (by decide) (exec_inputConfigApply 0 descriptorListedTwice)
  rw [Chip.rd_settle _ (by decide) (by decide)] at ssid
  exact absurd ssid (by decide +kernel)

/-- Refutes O7: in the state that refutes O2 the loss of the input itself has the same write, into a field of composer 0, because the
input carries a synchroniser number beyond the 256 that there are. -/
theorem not_inputStates : ¬Obligations.InputStates := by
  intro h
  obtain ⟨-, loss, -⟩ := h syncBeyond 0
  have given := loss (by decide) (by decide) (by decide)
  obtain ⟨-, -, -, within⟩ := holds_of_gives given (by decide) (exec_inputLoss 0 syncBeyond)
  exact not_within_syncBeyond (by decide +kernel) (within.mono fun _ => List.mem_cons_of_mem _)

end Sys2Proof.Machine
end

section
/-! SUPPORT. Salvo takes: their start, their verdicts and their cancelling during validation (O11). -/

namespace Sys2Proof.Machine

/-! ## The fields of a take -/

theorem takeCode_key_ne_pend : ∀ k : Fin 2, (Xpt.takeCode.nth k).key ≠ Xpt.pend.key := by decide
theorem takeCode_key_ne_takeFrm : ∀ k : Fin 2, (Xpt.takeCode.nth k).key ≠ (Xpt.takeFrm.nth k).key := by decide

/-- A write leaves every field that begins at another bit of its word. -/
theorem Chip.rd_wr_ne_lo (c : Chip) {f g : Fld} (v : Nat)
    (apart : (decide (g.lo < 32) && decide (f.lo < 32) && decide (g.lo ≠ f.lo)) = true) : (c.wr f v).rd g = c.rd g :=
  c.rd_wr_ne v (Fld.key_ne_of_lo apart)

@[simp] theorem Chip.rd_updXpt (c : Chip) (f : XptX → XptX) (g : Fld) : (c.updXpt f).rd g = c.rd g := rfl
@[simp] theorem Chip.rd_raise (c : Chip) (src page inst detail : Nat) (g : Fld) : (c.raise src page inst detail).rd g = c.rd g := rfl

/-- No reaction to a fault writes a register of a take. -/
theorem Chip.rd_settle_take (c : Chip) (k : Fin 2) {f : Fld}
    (hf : (decide (f.page < 512) && decide (f.off + 2 * f.stride < 67108864) && decide (f.lo < 32) && decide (f.lo ≠ 3) &&
      decide (f.lo ≠ 14)) = true) (hp : reacts f.page = false) : c.settle.rd (f.nth k) = c.rd (f.nth k) :=
  c.rd_settle (Fld.nth_apart 2 k.isLt hf).1 hp

theorem Chip.rd_settle_pend (c : Chip) : c.settle.rd Xpt.pend = c.rd Xpt.pend := c.rd_settle rfl rfl

theorem Chip.Writes.updXpt {gs : List Fld} {ps : List Nat} {a b : Chip} (h : Chip.Writes gs ps a b) (f : XptX → XptX) :
    Chip.Writes gs ps a (b.updXpt f) := ⟨h.rd, h.sticky⟩

theorem bit_setBit_false (v i : Nat) : bit (setBit v i false) i = false := by
  unfold bit setBit
  split
  · simp_all
  · next h =>
    have set : v.testBit i = true := by simpa using h
    rw [if_neg Bool.false_ne_true, Nat.testBit_eq_decide_div_mod_eq, decide_eq_false_iff_not]
    rw [Nat.testBit_eq_decide_div_mod_eq, decide_eq_true_eq] at set
    have := Nat.sub_mul_div v (2 ^ i) 1
    rw [Nat.mul_one] at this
    omega

/-- The bit of a table in `PEND` reads as it was written, whatever the other bits are. -/
theorem bit_rd_pend (c : Chip) (v : Nat) (k : Fin 2) (b : Bool) : bit ((c.wr Xpt.pend (setBit v k b)).rd Xpt.pend) k = b := by
  have within : bit (setBit v k b % 2 ^ 2) k = bit (setBit v k b) k := by
    rw [bit, Nat.testBit_mod_two_pow, decide_eq_true k.isLt, Bool.true_and, bit]
  rw [Chip.rd_wr_self]
  refine within.trans ?_
  cases b
  · exact bit_setBit_false v k
  · exact bit_setBit_true v k

/-! ## The commands' own meanings -/

theorem exec_salvoGo (m : Master) (k : Fin 2) (s : State) : exec (.salvoGo m k) s = execSalvoGo m k s := rfl
theorem exec_salvoValidationDone (k : Fin 2) (near : Bool) (s : State) :
    exec (.salvoValidationDone k near) s = execSalvoValidationDone k near s := rfl
theorem exec_salvoCancel (m : Master) (k : Fin 2) (s : State) : exec (.salvoCancel m k) s = execSalvoCancel m k s := rfl

/-! ## A take ends (R111) -/

theorem Chip.rd_takeCode_salvoFinal (c : Chip) (k : Fin 2) (code : Nat) :
    (c.salvoFinal k code).rd (Xpt.takeCode.nth k) = code % 16 := by
  rw [Chip.salvoFinal, Chip.rd_wr_ne _ _ (takeCode_key_ne_pend k), Chip.rd_wr_ne_lo _ _ rfl, Chip.rd_wr_self]
  rfl

theorem Chip.rd_takeGo_salvoFinal (c : Chip) (k code : Nat) : (c.salvoFinal k code).rd (Xpt.takeGo.nth k) = 0 := by
  rw [Chip.salvoFinal, Chip.rd_wr_ne_lo _ _ rfl, Chip.rd_wr_self]
  rfl

theorem Chip.bit_pend_salvoFinal (c : Chip) (k : Fin 2) (code : Nat) : bit ((c.salvoFinal k code).rd Xpt.pend) k = false :=
  bit_rd_pend _ _ k false

/-- A register of a take whose bits are not those of `CODE`, `GO` and `PEND` stands. -/
theorem Chip.rd_salvoFinal_ne (c : Chip) (k code : Nat) {f : Fld}
    (hf : (decide (f.lo < 32) && decide (f.lo ≠ 0) && decide (f.lo ≠ 13)) = true) : (c.salvoFinal k code).rd f = c.rd f := by
  simp only [Bool.and_eq_true, decide_eq_true_eq] at hf
  obtain ⟨⟨low, notZero⟩, notGo⟩ := hf
  rw [Chip.salvoFinal, Chip.rd_wr_ne_lo, Chip.rd_wr_ne_lo, Chip.rd_wr_ne_lo]
  · simp [low, notZero, Xpt.takeCode, Fld.nth]
  · simp [low, notGo, Xpt.takeGo, Fld.nth]
  · simp [low, notZero, Xpt.pend]

theorem Chip.Writes.salvoFinal {gs : List Fld} {ps : List Nat} {a b : Chip} (h : Chip.Writes gs ps a b) {k : Nat}
    (hgs : [Xpt.takeCode.nth k, Xpt.takeGo.nth k, Xpt.pend] ⊆ gs) (code : Nat) : Chip.Writes gs ps a (b.salvoFinal k code) :=
  ((h.wr (hgs (by simp)) code).wr (hgs (by simp)) 0).wr (hgs (by simp)) _

/-! ## A take starts (R107) -/

/-- What `GO` does to a table that is not in a take. -/
def Chip.beginTake (c : Chip) (k : Nat) : Chip :=
  let c := (((c.wr (Xpt.takeGo.nth k) 1).wr (Xpt.takeCode.nth k) 1).wr (Xpt.takeReason.nth k) 0).wr (Xpt.takeIndex.nth k) 0
  ((c.wr (Xpt.takeSkipped.nth k) 0).wr Xpt.pend (setBit (c.rd Xpt.pend) k true)).updXpt
    (fun x => { x with validating := x.validating ++ [k] })

theorem Chip.salvoGo_of_idle {c : Chip} {k : Nat} (h : c.on (Xpt.takeGo.nth k) = false) : c.salvoGo k = c.beginTake k :=
  if_neg (by simp [h])

theorem Chip.rd_takeGo_beginTake (c : Chip) (k : Nat) : (c.beginTake k).rd (Xpt.takeGo.nth k) = 1 := by
  rw [Chip.beginTake, Chip.rd_updXpt, Chip.rd_wr_ne_lo _ _ rfl, Chip.rd_wr_ne_lo _ _ rfl, Chip.rd_wr_ne_lo _ _ rfl,
    Chip.rd_wr_ne_lo _ _ rfl, Chip.rd_wr_ne_lo _ _ rfl, Chip.rd_wr_self]
  rfl

theorem Chip.rd_takeCode_beginTake (c : Chip) (k : Fin 2) : (c.beginTake k).rd (Xpt.takeCode.nth k) = 1 := by
  rw [Chip.beginTake, Chip.rd_updXpt, Chip.rd_wr_ne _ _ (takeCode_key_ne_pend k), Chip.rd_wr_ne_lo _ _ rfl,
    Chip.rd_wr_ne_lo _ _ rfl, Chip.rd_wr_ne_lo _ _ rfl, Chip.rd_wr_self]
  rfl

/-- The result of the take before is cleared. -/
theorem Chip.rd_result_beginTake (c : Chip) (k : Nat) : (c.beginTake k).rd (Xpt.takeReason.nth k) = 0 ∧
    (c.beginTake k).rd (Xpt.takeIndex.nth k) = 0 ∧ (c.beginTake k).rd (Xpt.takeSkipped.nth k) = 0 := by
  refine ⟨?_, ?_, ?_⟩
  · rw [Chip.beginTake, Chip.rd_updXpt, Chip.rd_wr_ne_lo _ _ rfl, Chip.rd_wr_ne_lo _ _ rfl, Chip.rd_wr_ne_lo _ _ rfl,
      Chip.rd_wr_self, Nat.zero_mod]
  · rw [Chip.beginTake, Chip.rd_updXpt, Chip.rd_wr_ne_lo _ _ rfl, Chip.rd_wr_ne_lo _ _ rfl, Chip.rd_wr_self, Nat.zero_mod]
  · rw [Chip.beginTake, Chip.rd_updXpt, Chip.rd_wr_ne_lo _ _ rfl, Chip.rd_wr_self, Nat.zero_mod]

theorem Chip.bit_pend_beginTake (c : Chip) (k : Fin 2) : bit ((c.beginTake k).rd Xpt.pend) k = true := by
  rw [Chip.beginTake, Chip.rd_updXpt, bit_rd_pend]

theorem Chip.writes_beginTake (c : Chip) (k : Nat) : Chip.Writes [Xpt.takeGo.nth k, Xpt.takeCode.nth k, Xpt.takeReason.nth k,
    Xpt.takeIndex.nth k, Xpt.takeSkipped.nth k, Xpt.pend] [] c (c.beginTake k) := by
  unfold Chip.beginTake
  exact (((((((Chip.Writes.refl c).wr (by simp) 1).wr (by simp) 1).wr (by simp) 0).wr (by simp) 0).wr (by simp) 0).wr (by simp) _).updXpt _

/-! ## A verdict takes effect (R108, R109) -/

/-- What a verdict does to the salvo of table `k`, whichever way it falls: the salvo leaves validation and its result is shown. -/
def Chip.showVerdict (c : Chip) (k reason index : Nat) : Chip :=
  (((c.updXpt (fun x => { x with validating := x.validating.filter (· ≠ k), own := x.own.filter (fun o => o.table ≠ k) })).wr
    (Xpt.takeSkipped.nth k) (min 4095 (c.countSkipped k))).wr (Xpt.takeReason.nth k) reason).wr (Xpt.takeIndex.nth k) index

/-- A salvo without a fault is armed. -/
theorem Chip.applySalvo_armed {c : Chip} {v : Verdict} {k : Nat} (table : v.table = k) (listed : c.xpt.validating.contains k = true)
    (good : v.reason = 0) :
    c.applySalvo v = (((c.showVerdict k v.reason v.index).wr (Xpt.takeCode.nth k) 2).wr (Xpt.takeFrm.nth k) v.frame).updXpt
      (fun x => { x with armed := x.armed ++ [⟨k, v.frame, c.tableChanges k⟩] }) := by
  subst table
  simp only [Chip.applySalvo, listed, good, Bool.not_true, Bool.false_eq_true, if_false]
  rfl

/-- A salvo with a fault ends, as too late under reason 8 and as rejected under any other. -/
theorem Chip.applySalvo_refused {c : Chip} {v : Verdict} {k : Nat} (table : v.table = k) (listed : c.xpt.validating.contains k = true)
    (bad : v.reason ≠ 0) :
    c.applySalvo v = (((c.showVerdict k v.reason v.index).salvoFinal k (if v.reason = 8 then 7 else 5)).raise
      (if v.reason = 8 then 0x48 else 0x47) xptPage k 0).stick xptPage (if v.reason = 8 then 3 else 2) := by
  subst table
  by_cases late : v.reason = 8
  · simp only [Chip.applySalvo, listed, late, Bool.not_true, Bool.false_eq_true, if_false, if_true]
    rfl
  · simp only [Chip.applySalvo, listed, late, bad, Bool.not_true, Bool.false_eq_true, if_false, if_true, ne_eq, not_false_eq_true]
    rfl

theorem Chip.rd_takeReason_showVerdict (c : Chip) (k reason index : Nat) :
    (c.showVerdict k reason index).rd (Xpt.takeReason.nth k) = reason % 16 := by
  rw [Chip.showVerdict, Chip.rd_wr_ne_lo _ _ rfl, Chip.rd_wr_self]
  rfl

theorem Chip.rd_takeIndex_showVerdict (c : Chip) (k reason index : Nat) :
    (c.showVerdict k reason index).rd (Xpt.takeIndex.nth k) = index % 4096 := by
  rw [Chip.showVerdict, Chip.rd_wr_self]
  rfl

theorem Chip.writes_showVerdict {gs : List Fld} (ps : List Nat) (c : Chip) {k : Nat}
    (hgs : [Xpt.takeSkipped.nth k, Xpt.takeReason.nth k, Xpt.takeIndex.nth k] ⊆ gs) (reason index : Nat) :
    Chip.Writes gs ps c (c.showVerdict k reason index) := by
  unfold Chip.showVerdict
  exact ((((Chip.Writes.refl c).updXpt _).wr (hgs (by simp)) _).wr (hgs (by simp)) _).wr (hgs (by simp)) _

/-! ## The verdict on a salvo -/

/-- The start of a command leaves what validation examines. -/
theorem Chip.scanEntries_start (c : Chip) (k : Nat) (l seen : List Nat) (acc : List (Nat × SalvoEntry)) :
    c.start.scanEntries k l seen acc = c.scanEntries k l seen acc := by
  induction l generalizing seen acc with
  | nil => rfl
  | cons i r ih =>
    simp only [Chip.scanEntries, ih]
    rfl

theorem Chip.salvoVerdict_start (c : Chip) (k : Nat) (near : Bool) : c.start.salvoVerdict k near = c.salvoVerdict k near := by
  have judged : c.start.validateSalvo k = c.validateSalvo k := by
    rw [Chip.validateSalvo, Chip.scanEntries_start]
    rfl
  rw [Chip.salvoVerdict, judged]
  rfl

/-- A verdict is on the table that was validated. -/
theorem Chip.table_salvoVerdict (c : Chip) (k : Nat) (near : Bool) : (c.salvoVerdict k near).table = k := by
  unfold Chip.salvoVerdict
  dsimp only
  split
  · rfl
  · split <;> rfl

/-- A device with no standby to tell applies its verdict at once. -/
theorem gives_salvoValidationDone {s : State} {k : Fin 2} {near : Bool} {P : State → Prop} (hs : s.Runs) (standby : s.c.isStandby = false)
    (mirrors : s.c.mirrors = false) (first : s.c.xpt.validating.head? = some k.val)
    (own : s.c.xpt.own.any (fun v => v.table = k.val) = false)
    (hP : P { s with c := (s.c.start.applySalvo (s.c.salvoVerdict k near)).settle }) : Gives (.salvoValidationDone k near) s P := by
  have due : ¬(s.c.start.xpt.validating.head? ≠ some k.val ∨ s.c.start.xpt.own.any (fun v => v.table = k.val) = true) := by
    rw [Chip.start_xpt, first, own]
    exact fun h => h.elim (fun h => h rfl) Bool.false_ne_true
  have alone : ¬s.c.start.isStandby = true := Bool.eq_false_iff.mp standby
  have untold : ¬s.c.start.mirrors = true := Bool.eq_false_iff.mp mirrors
  exact gives_of_body hs (exec_salvoValidationDone k near s) ((if_neg due).trans ((if_neg alone).trans (if_neg untold)))
    (s.c.salvoVerdict_start k near ▸ hP)

/-- A table at the head of the queue is in validation. -/
theorem contains_of_head? {l : List Nat} {k : Nat} (h : l.head? = some k) : l.contains k = true :=
  List.contains_iff_mem.mpr (List.mem_of_head? h)

/-! ## A take is cancelled (R113) -/

/-- During validation a cancel ends the take. -/
theorem Chip.salvoCancel_validating {c : Chip} {k : Nat} (h : c.rd (Xpt.takeCode.nth k) = 1) :
    c.salvoCancel k = (c.salvoFinal k 6).updXpt
      (fun x => { x with validating := x.validating.filter (· ≠ k), own := x.own.filter (fun o => o.table ≠ k) }) := if_pos h

/-! ## The statement -/

/-- Settles O11: a take is its start, the verdict that arms or ends it, or a cancel before the verdict. -/
theorem salvoTakes : Obligations.SalvoTakes := by
  intro s k
  refine ⟨fun m hs idle => ?_, fun near hs standby mirrors first own good => ?_, fun near hs standby mirrors first own bad => ?_,
    fun m hs validating => ?_⟩
  · refine gives_of_body hs.1 (exec_salvoGo m k s) ((trigger_allows s m _ _ _ true _ hs).trans (Chip.salvoGo_of_idle idle)) ?_
    obtain ⟨reason, index, skipped⟩ := s.c.start.rd_result_beginTake k
    refine ⟨?_, ?_, ?_, ?_, ?_, ?_, ?_, (Chip.writes_beginTake _ k).confined⟩
    · exact (Chip.rd_settle_take _ k rfl rfl).trans (Chip.rd_takeGo_beginTake _ k)
    · exact (Chip.rd_settle_take _ k rfl rfl).trans (Chip.rd_takeCode_beginTake _ k)
    · exact (Chip.rd_settle_take _ k rfl rfl).trans reason
    · exact (Chip.rd_settle_take _ k rfl rfl).trans index
    · exact (Chip.rd_settle_take _ k rfl rfl).trans skipped
    · rw [Chip.rd_settle_pend, Chip.bit_pend_beginTake]
    · rw [(settled _).xpt]
      rfl
  · refine gives_salvoValidationDone hs standby mirrors first own ?_
    rw [Chip.applySalvo_armed (c := s.c.start) (s.c.table_salvoVerdict k near) (contains_of_head? first) good]
    refine ⟨?_, ?_, ?_, ?_, Chip.Writes.confined ?_⟩
    · refine (Chip.rd_settle_take _ k rfl rfl).trans ?_
      rw [Chip.rd_updXpt, Chip.rd_wr_ne _ _ (takeCode_key_ne_takeFrm k), Chip.rd_wr_self]
      rfl
    · refine (Chip.rd_settle_take _ k rfl rfl).trans ?_
      rw [Chip.rd_updXpt, Chip.rd_wr_self]
      rfl
    · rw [(settled _).xpt]
      rfl
    · rw [(settled _).xpt]
      rfl
    · exact (((Chip.writes_showVerdict [] _ (by simp) _ _).wr (by simp) 2).wr (by simp) _).updXpt _
  · refine gives_salvoValidationDone hs standby mirrors first own ?_
    rw [Chip.applySalvo_refused (c := s.c.start) (s.c.table_salvoVerdict k near) (contains_of_head? first) bad]
    refine ⟨?_, ?_, ?_, ?_, ?_, ?_, ?_, Chip.Writes.confined ?_⟩
    · refine (Chip.rd_settle_take _ k rfl rfl).trans ((Chip.rd_takeCode_salvoFinal _ k _).trans ?_)
      split <;> rfl
    · exact (Chip.rd_settle_take _ k rfl rfl).trans (Chip.rd_takeGo_salvoFinal _ k _)
    · exact (Chip.rd_settle_take _ k rfl rfl).trans
        ((Chip.rd_salvoFinal_ne _ k _ rfl).trans (Chip.rd_takeReason_showVerdict _ k _ _))
    · exact (Chip.rd_settle_take _ k rfl rfl).trans
        ((Chip.rd_salvoFinal_ne _ k _ rfl).trans (Chip.rd_takeIndex_showVerdict _ k _ _))
    · rw [Chip.rd_settle_pend, Chip.rd_stick, Chip.rd_raise, Chip.bit_pend_salvoFinal]
    · rw [(settled _).stickyWord _ rfl, Chip.stick_self, bit_setBit_true]
    · rw [(settled _).xpt]
      rfl
    · exact (((Chip.writes_showVerdict _ _ (by simp) _ _).salvoFinal (by simp) _).raise _ _ _ _).stick (by simp) _
  · refine gives_of_body hs.1 (exec_salvoCancel m k s)
      ((trigger_allows s m _ _ _ true _ hs).trans (Chip.salvoCancel_validating validating)) ⟨?_, ?_, ?_, ?_, Chip.Writes.confined ?_⟩
    · exact (Chip.rd_settle_take _ k rfl rfl).trans (Chip.rd_takeCode_salvoFinal _ k 6)
    · exact (Chip.rd_settle_take _ k rfl rfl).trans (Chip.rd_takeGo_salvoFinal _ k 6)
    · rw [Chip.rd_settle_pend, Chip.rd_updXpt, Chip.bit_pend_salvoFinal]
    · rw [(settled _).xpt]
      rfl
    · exact ((Chip.Writes.refl _).salvoFinal (List.Subset.refl _) 6).updXpt _

end Sys2Proof.Machine
end

section
/-! SUPPORT. The statements of the crosspoint and of the media queues that fail (O10, O12, O31). -/

namespace Sys2Proof.Machine

theorem exec_outputConfigApply (o : Fin 1152) (s : State) : exec (.outputConfigApply o) s = execOutputConfigApply o s := rfl
theorem exec_salvoCut (s : State) : exec .salvoCut s = execSalvoCut s := rfl
theorem exec_descriptorEnqueue (q : Fin 16376) (stamp : BitVec 32) (marker : Bool) (kind : PayloadKind) (payload : List (BitVec 8))
    (s : State) : exec (.descriptorEnqueue q stamp marker kind payload) s = execDescriptorEnqueue q stamp marker kind payload s := rfl

/-- A stored configuration of output 0 waits, and the field table lists its sub-stream ID twice: 1, which reads, then 0. -/
def outputListedTwice : State :=
  { State.reset with
    c := { State.reset.c with
      flds := [((Xpt.ssid.nth 0).key, 1), ((Xpt.ssid.nth 0).key, 0)], xpt := { State.reset.c.xpt with waiting := [0] } } }

/-- Refutes O10: of a field that the table lists twice, which the statement does not exclude, a read takes the first value and the copy
into the configuration in force the last, so the sub-stream ID 1 of a stored configuration comes into use as 0. -/
theorem not_outputBinding : ¬Obligations.OutputBinding := by
  intro h
  obtain ⟨-, -, configApply⟩ := h outputListedTwice 0
  have given := configApply (by decide) (by decide)
  obtain ⟨-, -, ssid, -⟩ := holds_of_gives given (by decide) (exec_outputConfigApply 0 outputListedTwice)
  rw [Chip.rd_settle _ (by decide) (by decide)] at ssid
  exact absurd ssid (by decide +kernel)

/-- Take 1 has been cut, and its change of output 5 to format 0x43 has begun, but the old format has not stopped (R116). Take 0, which
takes the source off output 5, is armed for the next reference frame. Takes of the two tables in frames that follow one another, with no
frame start of the output between them, lead here. -/
def formatChangeBegun : State :=
  { State.reset with
    c := ((State.reset.c.wr (Xpt.takeCode.nth 0) 2).wr (Xpt.takeCode.nth 1) 3).updXpt (fun x =>
      { x with armed := [⟨0, 1, [⟨5, noSource, 0, false⟩]⟩], gap := [⟨5, some 1, 9, 0, 0x43, 0, false⟩] }) }

/-- Refutes O12: where the destination has a format change that has begun and not stopped the old format, which the statement does not
exclude, the cut gives that change up, and it joins the changes that land beside the new one: two more than before, not one. -/
theorem not_salvoLanding : ¬Obligations.SalvoLanding := by
  intro h
  obtain ⟨cut, -, -, -⟩ := h formatChangeBegun
  have given := cut 0 ⟨5, noSource, 0, false⟩ (by decide) (by decide) (by decide) (by decide) (by decide) (by decide) (by decide)
  obtain ⟨-, -, -, -, landing, -⟩ := holds_of_gives given (by decide) (exec_salvoCut formatChangeBegun)
  rw [(settled _).xpt] at landing
  exact absurd landing (by decide +kernel)

/-- Media queue 7, of four places, is full, and output 9 feeds it; its `FILL` shows 0. -/
def fillBehind : State :=
  { State.reset with
    c := { (((((State.reset.c.wr (Xpt.transport.nth 9).live 2).wr (Xpt.queue.nth 9).live 7).wr (Xpt.fmt.nth 9).live 0x42).wr
        (Xpt.fset.nth 9) 0xFFFFFF42).wr (Flowq.qEn.nth 7) 1).wr (Flowq.qDepth.nth 7) 0 with
      xpt := { State.reset.c.xpt with bound := [9] }
      outs := [(9, { tx := [{}] })]
      pkt := { State.reset.c.pkt with queues := [(7, { descs := List.replicate 4 ⟨1, 2, false, []⟩ })] } } }

/-- Refutes O31: the last packet of a frame, dropped from a full queue, is counted into the frames of the queue, and `FILL` follows the
queue then. Where it stood behind, which the statement does not exclude, it changes, and is not among the fields named. -/
theorem not_queues : ¬Obligations.Queues := by
  intro h
  obtain ⟨-, full, -⟩ := h fillBehind
  have given := full 9 7 0 true .st2022 [] (by decide) (by decide) (by decide) (by decide)
  obtain ⟨-, -, -, -, confined⟩ := holds_of_gives given (by decide) (exec_descriptorEnqueue 7 0 true .st2022 [] fillBehind)
  have kept := confined.regs (Flowq.qFill.nth 7) (by decide) (by decide) (by decide)
  rw [Chip.rd_settle _ (by decide) (by decide)] at kept
  exact absurd kept (by decide +kernel)

end Sys2Proof.Machine
end

section
/-! SUPPORT. The statements of the composers that fail (O14, O15). Both speak of every `State`, and a state's field table may list a key
twice although the model's own operations never do: a read takes the first value, the copies of R142 and R143 the last. -/

namespace Sys2Proof.Machine

theorem exec_cmpCommitGo (m : Master) (n : Fin 64) (s : State) : exec (.cmpCommitGo m n) s = execCmpCommitGo m n s := rfl
theorem exec_pictureStart (n : Fin 64) (s : State) : exec (.pictureStart n) s = execPictureStart n s := rfl

/-- What a command that reads byte memory is said to give holds of its settled body. -/
theorem holds_of_gives_mem {i : Instr} {s : State} {P : State → Prop} {f : Chip → Mem → Chip × Mem} (h : Gives i s P) (hs : s.Runs)
    (e : exec i s = actMem s f) : P { s with c := (f s.c.start s.mem).1.settle, mem := (f s.c.start s.mem).2 } := by
  obtain ⟨t, ht, hp⟩ := h
  rw [e, actMem_runs s f hs] at ht
  injection ht with ht
  exact ht ▸ hp

/-- Composer 5 is in no commit, and the field table lists its shadow output format twice: 0x42, which reads, then 0x43. -/
def shadowListedTwice : State :=
  { State.reset with
    c := { State.reset.c with flds := [((Cmp.outFmt.on 5).key, 0x42), ((Cmp.outFmt.on 5).key, 0x43)] } }

/-- Refutes O14: of a field that the table lists twice, which the statement does not exclude, a read takes the first value and the copy
into the pending configuration the last, so a commit of the output format 0x42 has 0x43 pending. -/
theorem not_commitValidation : ¬Obligations.CommitValidation := by
  intro h
  obtain ⟨go, -⟩ := h shadowListedTwice 5
  have given := go .host (by decide) (by decide)
  obtain ⟨-, -, -, -, shadow, -, -⟩ := holds_of_gives given (by decide) (exec_cmpCommitGo .host 5 shadowListedTwice)
  have outFmt := shadow Cmp.outFmt (by simp)
  rw [Chip.rd_settle _ (by decide) (by decide)] at outFmt
  exact absurd outFmt (by decide +kernel)

/-- Composer 5 carries format 0x41 and flips at picture 1, which starts next, and the field table lists its pending output format twice:
0x42, which reads, then 0x43. -/
def pendingListedTwice : State :=
  { State.reset with
    c := { State.reset.c with
      enable := [(cmpPage 5, 1)]
      flds := [((Cmp.carryFmt.on 5).key, 0x41), ((Cmp.outFmt.on 5).pend.key, 0x42), ((Cmp.outFmt.on 5).pend.key, 0x43)]
      cmps := [(5, { flip := some 1 })] } }

/-- Refutes O15: in the same way a flip to the pending output format 0x42 makes 0x43 live. -/
theorem not_commitFlips : ¬Obligations.CommitFlips := by
  intro h
  obtain ⟨-, -, -, flips, -⟩ := h pendingListedTwice 5
  have given := flips 1 (by decide) (by decide) (by decide) (by decide) (by decide) (by decide)
  obtain ⟨-, -, -, -, outFmt, -, -⟩ := holds_of_gives_mem given (by decide) (exec_pictureStart 5 pendingListedTwice)
  rw [Chip.rd_settle _ (by decide) (by decide)] at outFmt
  exact absurd outFmt (by decide +kernel)

end Sys2Proof.Machine
end

section
/-! SUPPORT. The Keeper: its commands as they load, show, hide and are refused, and the check of its images (O16). -/

namespace Sys2Proof.Machine

/-! ## Composers at the end of a command -/

@[simp] theorem Chip.comp_updComp_self (c : Chip) (n : Nat) (f : Comp → Comp) : (c.updComp n f).comp n = f (c.comp n) := by
  simp [Chip.comp, Chip.updComp, Store.upd]

theorem Chip.comp_congr {c d : Chip} (h : d.cmps = c.cmps) (n : Nat) : d.comp n = c.comp n := by rw [Chip.comp, h, Chip.comp]

@[simp] theorem Chip.comp_settle (c : Chip) (n : Nat) : c.settle.comp n = c.comp n := Chip.comp_congr (settled c).cmps n

theorem Chip.Writes.updComp {gs : List Fld} {ps : List Nat} {a b : Chip} (h : Chip.Writes gs ps a b) (n : Nat) (f : Comp → Comp) :
    Chip.Writes gs ps a (b.updComp n f) := ⟨h.rd, h.sticky⟩

theorem reacts_cmpPage {n : Nat} (h : n < 64) : reacts (cmpPage n) = false :=
  (show ∀ k : Fin 64, reacts (cmpPage k) = false by decide) ⟨n, h⟩
theorem reactsSticky_cmpPage {n : Nat} (h : n < 64) : reactsSticky (cmpPage n) = false :=
  (show ∀ k : Fin 64, reactsSticky (cmpPage k) = false by decide) ⟨n, h⟩

/-- No reaction to a fault writes a field of a composer. -/
theorem Chip.rd_settle_cmp (c : Chip) {n : Nat} (hn : n < 64) {f : Fld}
    (hf : (decide (f.page = cmpPage 0) && decide (f.off < 67108864) && decide (f.lo < 32)) = true) : c.settle.rd (f.on n) = c.rd (f.on n) := by
  simp only [Bool.and_eq_true, decide_eq_true_eq] at hf
  obtain ⟨⟨hp, ho⟩, hl⟩ := hf
  have page : (f.on n).page = cmpPage n := by simp [Fld.on, hp, cmpPage]
  refine c.rd_settle ?_ (page ▸ reacts_cmpPage hn)
  simp only [Fld.ok, page, cmpPage, Bool.and_eq_true, decide_eq_true_eq]
  exact ⟨⟨by omega, ho⟩, hl⟩

theorem Chip.stickyWord_settle_cmp (c : Chip) {n : Nat} (hn : n < 64) : c.settle.stickyWord (cmpPage n) = c.stickyWord (cmpPage n) :=
  (settled c).stickyWord _ (reactsSticky_cmpPage hn)

/-! ## The commands' own meanings -/

theorem exec_keeperLoad (n : BitVec 16) (a0 a1 a2 a3 : BitVec 32) (s : State) :
    exec (.keeperLoad n a0 a1 a2 a3) s = execKeeperLoad n a0 a1 a2 a3 s := rfl
theorem exec_keeperLoadComplete (n : Fin 64) (s : State) : exec (.keeperLoadComplete n) s = execKeeperLoadComplete n s := rfl
theorem exec_keeperShow (n : BitVec 16) (s : State) : exec (.keeperShow n) s = execKeeperShow n s := rfl
theorem exec_keeperHide (n : BitVec 16) (s : State) : exec (.keeperHide n) s = execKeeperHide n s := rfl

/-- A command that may write byte memory answers what its body, whose outcome is known, leaves. -/
theorem gives_of_body_mem {i : Instr} {s : State} {P : State → Prop} {f : Chip → Mem → Chip × Mem} {d : Chip} {m : Mem} (hs : s.Runs)
    (e : exec i s = actMem s f) (hd : f s.c.start s.mem = (d, m)) (h : P { s with c := d.settle, mem := m }) : Gives i s P :=
  Gives.actMem hs e (by rw [hd]; exact h)

/-! ## How a command ends (R446) -/

/-- The registers of the mailbox that the result of a command writes. -/
def cmdResult : List Fld := [Cmd.lastOp, Cmd.go, Cmd.state, Cmd.refuse]

/-- The mailbox stands on a page that a reaction may write, so its result is no part of what a command is confined to. -/
theorem Chip.Writes.confined_cmd {ps : List Nat} {s : State} {d : Chip} (h : Chip.Writes cmdResult ps s.c.start d) :
    Confined [] ps s { s with c := d.settle } := by
  refine Confined.of_body (fun f hf hr _ => h.rd f fun g hg => ?_) (fun p _ hp => h.sticky p hp)
  have mailbox : ∀ g ∈ cmdResult, g.ok = true ∧ reacts g.page = true := by decide
  obtain ⟨hok, hpage⟩ := mailbox g hg
  exact Fld.key_ne hf hok (.inr (.inl fun e => by rw [e, hpage] at hr; exact absurd hr (by decide)))

theorem Chip.cmdEnd_done (c : Chip) (op : Nat) :
    c.cmdEnd op 0 = ((((c.wr Cmd.lastOp op).wr Cmd.go 0).wr Cmd.state 3).wr Cmd.refuse 0).stick cmdPage 0 := rfl

theorem Chip.cmdEnd_refused (c : Chip) (op : Nat) {code : Nat} (h : code ≠ 0) :
    c.cmdEnd op code = (((((c.wr Cmd.lastOp op).wr Cmd.go 0).wr Cmd.state 4).wr Cmd.refuse code).raise 0xF2 cmdPage c.host.issuer 0).stick
      cmdPage 1 := if_neg h

theorem Chip.Writes.cmdEnd {ps : List Nat} {a b : Chip} (h : Chip.Writes cmdResult ps a b) (hp : cmdPage ∈ ps) (op code : Nat) :
    Chip.Writes cmdResult ps a (b.cmdEnd op code) := by
  have begun := (h.wr (f := Cmd.lastOp) (by decide) op).wr (f := Cmd.go) (by decide) 0
  by_cases hc : code = 0
  · subst hc
    rw [Chip.cmdEnd_done]
    exact ((begun.wr (f := Cmd.state) (by decide) 3).wr (f := Cmd.refuse) (by decide) 0).stick hp 0
  · rw [Chip.cmdEnd_refused _ _ hc]
    exact (((begun.wr (f := Cmd.state) (by decide) 4).wr (f := Cmd.refuse) (by decide) code).raise _ _ _ _).stick hp 1

theorem Chip.rd_state_cmdEnd_done (c : Chip) (op : Nat) : (c.cmdEnd op 0).rd Cmd.state = 3 := by
  rw [Chip.cmdEnd_done, Chip.rd_stick, Chip.rd_wr_ne _ _ (by decide), Chip.rd_wr_self]
  rfl

/-- What a refused command shows of itself. -/
theorem Chip.rd_cmdEnd_refused (c : Chip) (op : Nat) {code : Nat} (h : code ≠ 0) : (c.cmdEnd op code).rd Cmd.state = 4 ∧
    (c.cmdEnd op code).rd Cmd.refuse = code % 16 ∧ (c.cmdEnd op code).rd Cmd.lastOp = op % 256 := by
  rw [Chip.cmdEnd_refused _ _ h]
  refine ⟨?_, ?_, ?_⟩
  · rw [Chip.rd_stick, Chip.rd_raise, Chip.rd_wr_ne _ _ (by decide), Chip.rd_wr_self]
    rfl
  · rw [Chip.rd_stick, Chip.rd_raise, Chip.rd_wr_self]
    rfl
  · rw [Chip.rd_stick, Chip.rd_raise, Chip.rd_wr_ne _ _ (by decide), Chip.rd_wr_ne _ _ (by decide), Chip.rd_wr_ne _ _ (by decide),
      Chip.rd_wr_self]
    rfl

/-- An accepted command whose action goes on says so. -/
theorem Chip.rd_cmdRunning (c : Chip) (op : Nat) : (c.cmdRunning op).rd Cmd.state = 2 ∧ (c.cmdRunning op).rd Cmd.lastOp = op % 256 ∧
    (c.cmdRunning op).rd Cmd.refuse = 0 := by
  refine ⟨?_, ?_, ?_⟩
  · rw [Chip.cmdRunning, Chip.rd_wr_ne _ _ (by decide), Chip.rd_wr_self]
    rfl
  · rw [Chip.cmdRunning, Chip.rd_wr_ne _ _ (by decide), Chip.rd_wr_ne _ _ (by decide), Chip.rd_wr_self]
    rfl
  · rw [Chip.cmdRunning, Chip.rd_wr_self, Nat.zero_mod]

theorem Chip.Writes.cmdRunning {ps : List Nat} {a b : Chip} (h : Chip.Writes cmdResult ps a b) (op : Nat) :
    Chip.Writes cmdResult ps a (b.cmdRunning op) :=
  ((h.wr (by decide) op).wr (by decide) 2).wr (by decide) 0

/-! ## A report of class 15 leaves the mailbox's result (R409, R410) -/

/-- Between two machines neither a register but `CMD.LOCKED` nor the reports that wait differ. -/
structure Chip.OnlyLocks (c d : Chip) : Prop where
  rd : ∀ f : Fld, f.key ≠ Cmd.locked.key → d.rd f = c.rd f
  reports : d.reports = c.reports

section
variable {a b c : Chip}

theorem Chip.OnlyLocks.refl (c : Chip) : Chip.OnlyLocks c c := ⟨fun _ _ => rfl, rfl⟩

theorem Chip.OnlyLocks.keep (h : Chip.OnlyLocks a b) (hf : c.flds = b.flds) (hr : c.reports = b.reports) : Chip.OnlyLocks a c :=
  ⟨fun f k => by rw [← h.rd f k, Chip.rd, hf, Chip.rd], hr.trans h.reports⟩

theorem Chip.OnlyLocks.lock (h : Chip.OnlyLocks a b) : Chip.OnlyLocks a (b.wr Cmd.locked 1) :=
  ⟨fun f k => (b.rd_wr_ne 1 k).trans (h.rd f k), h.reports⟩

theorem Chip.OnlyLocks.ite {p : Prop} [Decidable p] (h : p → Chip.OnlyLocks a b) (k : ¬p → Chip.OnlyLocks a c) :
    Chip.OnlyLocks a (if p then b else c) := by
  split
  · exact h ‹_›
  · exact k ‹_›

theorem Chip.OnlyLocks.logEntry (h : Chip.OnlyLocks a b) (e : LogEntry) : Chip.OnlyLocks a (b.logEntry e) := by
  unfold Chip.logEntry
  dsimp only
  split <;> exact h.keep rfl rfl

theorem Chip.OnlyLocks.markUnack (h : Chip.OnlyLocks a b) (e : LogEntry) : Chip.OnlyLocks a (b.markUnack e) := by
  unfold Chip.markUnack
  dsimp only
  split <;> split <;> exact h.keep rfl rfl

theorem Chip.OnlyLocks.stopAlive (h : Chip.OnlyLocks a b) (cause : Nat) : Chip.OnlyLocks a (b.stopAlive cause) := by
  unfold Chip.stopAlive
  exact Chip.OnlyLocks.ite (fun _ => h.keep rfl rfl) (fun _ => h.keep rfl rfl)

theorem Chip.OnlyLocks.contain (h : Chip.OnlyLocks a b) {r : Report} (hr : r.src / 16 = 15) : Chip.OnlyLocks a (b.contain r) := by
  have lock : b.contain r = b.wr Cmd.locked 1 := by simp [Chip.contain, hr]
  rw [lock]
  exact h.lock

theorem Chip.OnlyLocks.react (h : Chip.OnlyLocks a b) (esev : Nat) {r : Report} (hr : r.src / 16 = 15) :
    Chip.OnlyLocks a (b.react esev r) := by
  have shown := Chip.OnlyLocks.ite (p := 2 ≤ esev) (fun _ => h.keep (c := b.stick fcuPage (esev - 1)) rfl rfl) (fun _ => h)
  have contained := Chip.OnlyLocks.ite (p := 3 ≤ esev) (fun _ => shown.contain hr) (fun _ => shown)
  unfold Chip.react
  dsimp only
  generalize (if 3 ≤ esev then Chip.contain _ r else _) = d at contained ⊢
  have held := Chip.OnlyLocks.ite (p := 3 ≤ esev ∧ !d.masked r) (fun _ => contained.keep (c := d.startHolds r) rfl rfl) (fun _ => contained)
  exact Chip.OnlyLocks.ite (fun _ => Chip.OnlyLocks.ite (fun _ => (held.stopAlive 0).keep rfl rfl) (fun _ => held.stopAlive 0)) (fun _ => held)

theorem Chip.OnlyLocks.collect (h : Chip.OnlyLocks a b) (esev : Nat) {r : Report} (hr : r.src / 16 = 15) :
    Chip.OnlyLocks a (b.collect (esev, r)) := by
  have noEye : ¬r.src = 0x18 := by omega
  unfold Chip.collect
  simp only [noEye, if_false]
  exact Chip.OnlyLocks.ite (fun _ => h) (fun _ => ((h.logEntry _).markUnack _).react esev hr)

end

/-- A command that reports one fault of class 15 alone leaves every register but `CMD.LOCKED` as its own effect left it. -/
theorem Chip.rd_settle_class15 (c : Chip) {r : Report} (alone : c.reports = [r]) (hr : r.src / 16 = 15) {f : Fld}
    (hf : f.key ≠ Cmd.locked.key) : c.settle.rd f = c.rd f := by
  have ranked : c.ranked = [(c.effSev r, r)] := by simp [Chip.ranked, alone, insertReport]
  have collected : Chip.OnlyLocks { c with reports := [] } c.collectAll := by
    rw [Chip.collectAll, ranked]
    exact (Chip.OnlyLocks.refl _).collect _ hr
  have once : c.collectTwice = c.collectAll := if_pos (by rw [collected.reports]; rfl)
  have settles : c.settle = c.collectAll.interrupts := by rw [Chip.settle, alone, once]; rfl
  rw [settles, Chip.rd, (idle_interrupts _).flds]
  exact collected.rd f hf

/-! ## A load begins (R151 to R153) -/

/-- The device that mirrors to no standby takes its decisions at once. -/
theorem Chip.decision_alone {c : Chip} (h : c.mirrors = false) (kind page bidx : Nat) (ws : List Nat) (now : Chip → Chip) :
    c.decision kind page bidx ws now = now c := by simp [Chip.decision, h]

/-- A load of image `k` runs. -/
def Comp.loads (k : KeeperNew) (x : Comp) : Comp := { x with kLoad := some k }

/-- A load that is accepted runs with the settings that its arguments ask for, at a place of its own in the carve-out. -/
theorem Chip.keeperLoad_accepted {c : Chip} {n a0 a1 a2 a3 : Nat} (accepted : c.keeperRefusal n (c.keeperArgs a0 a1 a2 a3) = 0)
    (load : bit a2 11 = false) : ∃ k : KeeperNew, c.keeperLoad n a0 a1 a2 a3 = (c.updComp n (Comp.loads k)).cmdRunning 4 ∧
      (k.x, k.y, k.alpha, k.surf, k.vis) = (a1 % 8192, a1 / 65536 % 8192, a2 % 1024, a0 % 1024, bit a2 10) := by
  have image : (c.keeperArgs a0 a1 a2 a3).release = false := by simp [Chip.keeperArgs, load]
  refine ⟨{ c.keeperArgs a0 a1 a2 a3 with base := (firstFit c.carveUsed (c.keeperArgs a0 a1 a2 a3).units).getD 0 }, ?_, ?_⟩
  · simp only [Chip.keeperLoad, accepted, image, ne_eq, not_true_eq_false, Bool.false_eq_true, if_false]
    rfl
  · simp [Chip.keeperArgs, load]

/-! ## A change of the Keeper waits for its picture (R152) -/

/-- One more change waits for its picture. -/
def Comp.awaits (d : KeeperDue) (x : Comp) : Comp := { x with kDue := x.kDue ++ [d] }

/-- A load has ended, and its image waits for its picture. -/
def Comp.loaded (k : KeeperNew) (x : Comp) : Comp := { x with kDue := x.kDue ++ [{ new := some k }], kLoad := none }

/-- What every Keeper command that is done leaves: composer `n` changed by `f`, sticky bit 14, and the command's result. -/
def Chip.keeperDone (c : Chip) (n op : Nat) (f : Comp → Comp) : Chip := ((c.updComp n f).stick (cmpPage n) 14).cmdEnd op 0

theorem Chip.keeperLoaded_good {c : Chip} {m : Mem} {n : Nat} {k : KeeperNew} (alone : c.mirrors = false) (load : (c.comp n).kLoad = some k)
    (good : some (imageCrc (copySurface m (1 + c.rd (Cmp.sStack.nth k.surf)) (c.rd (Cmp.sBase.nth k.surf) * 65536)
      (c.rd (Cmp.sStride.nth k.surf)) (k.base * 65536) k.w k.h) k.base k.w k.h) = k.crc) :
    c.keeperLoaded m n = (c.keeperDone n 4 (Comp.loaded k),
      copySurface m (1 + c.rd (Cmp.sStack.nth k.surf)) (c.rd (Cmp.sBase.nth k.surf) * 65536) (c.rd (Cmp.sStride.nth k.surf))
        (k.base * 65536) k.w k.h) := by
  have unsent (d : Chip) (m : Mem) (h : d.mirrors = false) : d.sendImage m k = d := if_pos (by simp [h])
  simp only [Chip.keeperLoaded, load, good, ne_eq, not_true_eq_false, if_false, c.decision_alone alone]
  rw [unsent (c.keeperNew n k) _ alone]
  rfl

theorem Chip.keeperShowHide_accepted {c : Chip} {n : Nat} (standby : c.isStandby = false) (alone : c.mirrors = false)
    (layers : c.rd (Cmp.nLayers.on n) ≠ 0) (live : c.rd (Cmp.outFmt.on n).live ≠ 0xFF) (keeper : c.keeperOn n = true) (b : Bool) :
    c.keeperShowHide n b = c.keeperDone n (if b then 5 else 6) (Comp.awaits { vis := b }) := by
  have taken : c.ignoresMirrored = false := by
    have notYielding : c.pairState ≠ 4 := fun h => by simp [Chip.mirrors, h] at alone
    simp [Chip.ignoresMirrored, standby, notYielding]
  simp only [Chip.keeperShowHide, taken, layers, live, keeper, Bool.false_eq_true, Bool.not_true, false_or, if_false,
    c.decision_alone alone]
  rfl

theorem Chip.comp_keeperDone (c : Chip) (n op : Nat) (f : Comp → Comp) : (c.keeperDone n op f).comp n = f (c.comp n) :=
  c.comp_updComp_self n f

theorem Chip.stickyWord_keeperDone (c : Chip) {n : Nat} (hn : n < 64) (op : Nat) (f : Comp → Comp) :
    bit ((c.keeperDone n op f).stickyWord (cmpPage n)) 14 = true := by
  have other : cmpPage n ≠ cmdPage := by simp only [cmpPage, cmdPage]; omega
  rw [Chip.keeperDone, Chip.cmdEnd_done, Chip.stick_other _ _ _ other]
  simp only [Chip.stickyWord, Chip.wr_sticky]
  exact (congrArg (bit · 14) ((c.updComp n f).stick_self (cmpPage n) 14)).trans (bit_setBit_true _ 14)

theorem Chip.writes_keeperDone (c : Chip) (n op : Nat) (f : Comp → Comp) :
    Chip.Writes cmdResult [cmdPage, cmpPage n] c (c.keeperDone n op f) :=
  (((Chip.Writes.refl c).updComp n f).stick (by simp) 14).cmdEnd (by simp) op 0

/-- What such a command gives, whatever it made of byte memory. -/
theorem keeperDone_settles (s : State) {n : Nat} (hn : n < 64) (op : Nat) (f : Comp → Comp) :
    (s.c.start.keeperDone n op f).settle.comp n = f (s.c.comp n) ∧
    bit ((s.c.start.keeperDone n op f).settle.stickyWord (cmpPage n)) 14 = true ∧
    (s.c.start.keeperDone n op f).settle.rd Cmd.state = 3 ∧
    Confined [] [cmdPage, cmpPage n] s { s with c := (s.c.start.keeperDone n op f).settle } := by
  refine ⟨?_, ?_, ?_, (Chip.writes_keeperDone _ n op f).confined_cmd⟩
  · rw [Chip.comp_settle, Chip.comp_keeperDone]
    rfl
  · rw [Chip.stickyWord_settle_cmp _ hn]
    exact Chip.stickyWord_keeperDone _ hn op f
  · rw [Chip.rd_settle_idle _ rfl]
    exact Chip.rd_state_cmdEnd_done _ op

/-- `KEEPER_SHOW` and `KEEPER_HIDE` of an enabled Keeper. -/
theorem gives_keeperVis {s : State} {i : Instr} {n : BitVec 16} {b : Bool} (hs : s.Runs)
    (e : exec i s = act s (fun c => if 64 ≤ n.toNat then c.cmdEnd (if b then 5 else 6) 15 else c.keeperShowHide n.toNat b))
    (standby : s.c.isStandby = false) (alone : s.c.mirrors = false) (hn : n.toNat < 64) (layers : s.c.rd (Cmp.nLayers.on n.toNat) ≠ 0)
    (live : s.c.rd (Cmp.outFmt.on n.toNat).live ≠ 0xFF) (keeper : s.c.keeperOn n.toNat = true) :
    Gives i s (fun t =>
      (t.c.comp n.toNat).kDue = (s.c.comp n.toNat).kDue ++ [{ vis := b }] ∧ t.c.rd Cmd.state = 3 ∧
        bit (t.c.stickyWord (cmpPage n.toNat)) 14 = true ∧
      Confined [] [cmdPage, cmpPage n.toNat] s t) := by
  obtain ⟨comp, waits, done, confined⟩ := keeperDone_settles s hn (if b then 5 else 6) (Comp.awaits { vis := b })
  have accepted := Chip.keeperShowHide_accepted (c := s.c.start) standby alone layers live keeper b
  exact gives_of_body hs e ((if_neg (Nat.not_le.mpr hn)).trans accepted) ⟨congrArg Comp.kDue comp, done, waits, confined⟩

/-! ## The check of the images (R156) -/

/-- Between two machines only fields at the places `gs` and the sticky words of the pages `ps`, and of those that a reaction may set,
differ; the composers' own state stands. -/
structure Chip.Checks (gs : List Fld) (ps : List Nat) (c d : Chip) : Prop where
  rd : ∀ f : Fld, (∀ g ∈ gs, f.key ≠ g.key) → d.rd f = c.rd f
  sticky : ∀ p, reactsSticky p = false → p ∉ ps → d.stickyWord p = c.stickyWord p
  cmps : d.cmps = c.cmps

theorem Chip.Checks.trans {gs hs : List Fld} {ps qs : List Nat} {a b c : Chip} (h : Chip.Checks gs ps a b) (k : Chip.Checks hs qs b c) :
    Chip.Checks (gs ++ hs) (ps ++ qs) a c where
  rd f hf := (k.rd f fun g m => hf g (List.mem_append_right gs m)).trans (h.rd f fun g m => hf g (List.mem_append_left hs m))
  sticky p hr hp := (k.sticky p hr fun m => hp (List.mem_append_right ps m)).trans (h.sticky p hr fun m => hp (List.mem_append_left qs m))
  cmps := k.cmps.trans h.cmps

theorem Chip.Checks.mono {gs hs : List Fld} {ps qs : List Nat} {a b : Chip} (h : Chip.Checks gs ps a b) (hg : gs ⊆ hs) (hp : ps ⊆ qs) :
    Chip.Checks hs qs a b :=
  ⟨fun f hf => h.rd f fun g m => hf g (hg m), fun p hr hn => h.sticky p hr fun m => hn (hp m), h.cmps⟩

theorem Chip.Checks.confined {gs : List Fld} {ps : List Nat} {s : State} {d : Chip} (h : Chip.Checks gs ps s.c.start d) :
    Confined gs ps s { s with c := d.settle } :=
  Confined.of_body (fun f _ _ hf => h.rd f hf) h.sticky

/-- A checked access keeps the syndrome that really was, and writes no register and no composer. -/
theorem Chip.check_frame (c : Chip) (k i real : Nat) :
    (c.check k i real).real = real ∧ (c.check k i real).c.flds = c.flds ∧ (c.check k i real).c.cmps = c.cmps := by
  unfold Chip.check
  split
  · split
    · dsimp only
      split <;> exact ⟨rfl, rfl, rfl⟩
    · exact ⟨rfl, rfl, rfl⟩
  · exact ⟨rfl, rfl, rfl⟩

/-- A read of a good word of a stack counts no error: an injection that fires on it is reported and shown alone (R420). -/
theorem Chip.checks_cleanRead (c : Chip) {k : Nat} (hk : k < 2) (i a : Nat) (held : List (Nat × Nat)) :
    Chip.Checks [] [hbmPage] c (c.cleanRead k i a held) := by
  have unchanged : (c.cleanRead k i a held).flds = c.flds ∧ (c.cleanRead k i a held).cmps = c.cmps := by
    obtain ⟨real, flds, cmps⟩ := c.check_frame k 0 0
    simp only [Chip.cleanRead, Chip.memRead, hk, if_true, real, Chip.hbmError]
    split
    · exact ⟨flds, cmps⟩
    · simp only [ne_eq, not_true_eq_false, decide_false, and_false, Bool.false_eq_true, if_false]
      exact ⟨flds, cmps⟩
  exact ⟨fun f _ => by rw [Chip.rd, unchanged.1, Chip.rd], (c.quiet_memRead hk i a 0 0 held true).sticky, unchanged.2⟩

/-- The image of a Keeper has not the check value that it was loaded with. -/
abbrev Chip.ImageBad (c : Chip) (m : Mem) (n : Nat) : Prop :=
  imageCrc m (c.comp n).kBase (c.rd (Cmp.kW.on n)) (c.rd (Cmp.kH.on n)) ≠ (c.comp n).kCrc

/-- One step of the check: where the Keeper of composer `n` is enabled its image is read and compared. -/
def Chip.checkImage (m : Mem) (c : Chip) (n : Nat) : Chip := (if c.keeperOn n then c.cleanRead 0 0 0 [] else c).keeperCheck m n

/-- The check of the first `k` composers in turn. -/
def Chip.checkImages (c : Chip) (m : Mem) (k : Nat) : Chip := (List.range k).foldl (Chip.checkImage m) c

theorem exec_keeperCrcCheck (s : State) : exec .keeperCrcCheck s = actMem s (fun c m => (c.checkImages m 64, m)) := rfl

theorem Chip.checkImages_succ (c : Chip) (m : Mem) (k : Nat) : c.checkImages m (k + 1) = Chip.checkImage m (c.checkImages m k) k := by
  rw [Chip.checkImages, List.range_succ, List.foldl_append]
  rfl

/-- What a check leaves alone is no part of what the next one examines. -/
theorem Chip.Checks.examined {l : List Nat} {ps : List Nat} {c d : Chip} (h : Chip.Checks (l.map Cmp.kCrcErr.on) ps c d) (m : Mem) (n : Nat) :
    d.keeperOn n = c.keeperOn n ∧ (d.ImageBad m n ↔ c.ImageBad m n) := by
  have stands {f : Fld} (apart : (decide (f.lo < 32) && decide (f.lo ≠ 17)) = true) : d.rd f = c.rd f := by
    refine h.rd f fun g hg => ?_
    obtain ⟨k, -, rfl⟩ := List.mem_map.mp hg
    simp only [Bool.and_eq_true, decide_eq_true_eq] at apart
    exact Fld.key_ne_of_lo (by simp [Fld.on, Cmp.kCrcErr, apart])
  refine ⟨?_, ?_⟩
  · rw [Chip.keeperOn, Chip.on, stands rfl, Chip.keeperOn, Chip.on]
  · rw [Chip.ImageBad, Chip.comp_congr h.cmps, stands rfl, stands rfl]

theorem Chip.checkImage_off {c : Chip} {n : Nat} (h : c.keeperOn n = false) (m : Mem) : Chip.checkImage m c n = c := by
  simp [Chip.checkImage, Chip.keeperCheck, h]

theorem Chip.keeperCheck_bad {c : Chip} {m : Mem} {n : Nat} (on_ : c.keeperOn n = true) (bad : c.ImageBad m n) :
    c.keeperCheck m n = ((c.wr (Cmp.kCrcErr.on n) 1).raise 0x56 (cmpPage n) n 0).stick (cmpPage n) 7 := by
  simp only [Chip.keeperCheck, on_, Bool.not_true, Bool.false_eq_true, if_false, if_pos bad, decide_eq_true bad]
  rfl

theorem Chip.keeperCheck_good {c : Chip} {m : Mem} {n : Nat} (on_ : c.keeperOn n = true) (good : ¬c.ImageBad m n) :
    c.keeperCheck m n = (c.wr (Cmp.kCrcErr.on n) 0).passHolds 0x56 (cmpPage n) n := by
  simp only [Chip.keeperCheck, on_, Bool.not_true, Bool.false_eq_true, if_false, if_neg good, decide_eq_false good]
  rfl

/-- A check of an enabled Keeper shows in `CRC_ERR`, a mismatch in sticky bit 7 as well; nothing else of the page is written. -/
theorem Chip.keeperCheck_shows {c : Chip} {m : Mem} {n : Nat} (on_ : c.keeperOn n = true) :
    Chip.Checks [Cmp.kCrcErr.on n] [cmpPage n] c (c.keeperCheck m n) ∧
    (c.keeperCheck m n).rd (Cmp.kCrcErr.on n) = (if c.ImageBad m n then 1 else 0) ∧
    (c.ImageBad m n → bit ((c.keeperCheck m n).stickyWord (cmpPage n)) 7 = true) := by
  have written (v : Nat) : Chip.Writes [Cmp.kCrcErr.on n] [cmpPage n] c (c.wr (Cmp.kCrcErr.on n) v) :=
    (Chip.Writes.refl c).wr List.mem_cons_self v
  by_cases bad : c.ImageBad m n
  · rw [c.keeperCheck_bad on_ bad, if_pos bad]
    have shown := ((written 1).raise 0x56 (cmpPage n) n 0).stick List.mem_cons_self 7
    refine ⟨⟨shown.rd, fun p _ => shown.sticky p, rfl⟩, ?_, fun _ => ?_⟩
    · rw [Chip.rd_stick, Chip.rd_raise, Chip.rd_wr_self]
      rfl
    · rw [Chip.stick_self, bit_setBit_true]
  · rw [c.keeperCheck_good on_ bad, if_neg bad]
    refine ⟨⟨(written 0).rd, fun p _ => (written 0).sticky p, rfl⟩, ?_, fun h => absurd h bad⟩
    exact (c.rd_wr_self _ 0).trans (Nat.zero_mod _)

/-- The same with the read of the image before it. -/
theorem Chip.checkImage_shows {c : Chip} {m : Mem} {n : Nat} (on_ : c.keeperOn n = true) :
    Chip.Checks [Cmp.kCrcErr.on n] [hbmPage, cmpPage n] c (Chip.checkImage m c n) ∧
    (Chip.checkImage m c n).rd (Cmp.kCrcErr.on n) = (if c.ImageBad m n then 1 else 0) ∧
    (c.ImageBad m n → bit ((Chip.checkImage m c n).stickyWord (cmpPage n)) 7 = true) := by
  have read := c.checks_cleanRead (show 0 < 2 by decide) 0 0 []
  obtain ⟨sameOn, sameBad⟩ := Chip.Checks.examined (l := []) read m n
  rw [Chip.checkImage, if_pos on_]
  obtain ⟨checks, shown, stuck⟩ := Chip.keeperCheck_shows (m := m) (sameOn.trans on_)
  refine ⟨read.trans checks, ?_, fun bad => stuck (sameBad.mpr bad)⟩
  rw [shown]
  simp only [sameBad]

theorem Chip.checks_checkImage (m : Mem) (c : Chip) (n : Nat) :
    Chip.Checks [Cmp.kCrcErr.on n] [hbmPage, cmpPage n] c (Chip.checkImage m c n) := by
  cases on_ : c.keeperOn n with
  | false => rw [Chip.checkImage_off on_]; exact ⟨fun _ _ => rfl, fun _ _ _ => rfl, rfl⟩
  | true => exact (Chip.checkImage_shows on_).1

/-- What the check of the first `k` composers leaves. -/
theorem Chip.checkImages_show (c : Chip) (m : Mem) (k : Nat) (hk : k ≤ 64) :
    Chip.Checks ((List.range k).map Cmp.kCrcErr.on) (hbmPage :: (List.range k).map cmpPage) c (c.checkImages m k) ∧
    ∀ n, n < k → c.keeperOn n = true →
      (c.checkImages m k).rd (Cmp.kCrcErr.on n) = (if c.ImageBad m n then 1 else 0) ∧
      (c.ImageBad m n → bit ((c.checkImages m k).stickyWord (cmpPage n)) 7 = true) := by
  induction k with
  | zero => exact ⟨⟨fun _ _ => rfl, fun _ _ _ => rfl, rfl⟩, fun n hn => absurd hn n.not_lt_zero⟩
  | succ k ih =>
    obtain ⟨before, shown⟩ := ih (by omega)
    rw [List.range_succ, Chip.checkImages_succ]
    generalize c.checkImages m k = d at before shown ⊢
    refine ⟨(before.trans (Chip.checks_checkImage m d k)).mono (by simp) (by simp), fun n hn on_ => ?_⟩
    rcases Nat.lt_succ_iff_lt_or_eq.mp hn with earlier | rfl
    · obtain ⟨crcErr, stuck⟩ := shown n earlier on_
      have step := Chip.checks_checkImage m d k
      have page : cmpPage n ∉ [hbmPage, cmpPage k] := by simp [cmpPage, hbmPage]; omega
      have key : ∀ g ∈ [Cmp.kCrcErr.on k], (Cmp.kCrcErr.on n).key ≠ g.key := by
        simp only [List.mem_singleton, forall_eq, Fld.key_on]
        omega
      rw [step.rd _ key, step.sticky _ (reactsSticky_cmpPage (by omega)) page]
      exact ⟨crcErr, stuck⟩
    · obtain ⟨sameOn, sameBad⟩ := before.examined m n
      obtain ⟨-, crcErr, stuck⟩ := Chip.checkImage_shows (m := m) (sameOn.trans on_)
      simp only [sameBad] at crcErr stuck
      exact ⟨crcErr, stuck⟩

/-! ## The statement -/

/-- Settles O16, clause by clause: a load that is accepted, one that ends, the two changes of visibility, the refusal of a target beyond the
composers, whose own report leaves the mailbox's result alone, and the check of the images, composer by composer. -/
theorem keeperCommands : Obligations.KeeperCommands := by
  unfold Obligations.KeeperCommands
  intro s
  refine ⟨?_, ?_, ?_, ?_, ?_, ?_⟩
  · intro n a0 a1 a2 a3 hs hn accepted load
    obtain ⟨k, loads, settings⟩ := Chip.keeperLoad_accepted (c := s.c.start) accepted load
    refine gives_of_body hs (exec_keeperLoad n a0 a1 a2 a3 s) ((if_neg (Nat.not_le.mpr hn)).trans loads) ?_
    obtain ⟨state, lastOp, refuse⟩ := (s.c.start.updComp n.toNat (Comp.loads k)).rd_cmdRunning 4
    have comp : ((s.c.start.updComp n.toNat (Comp.loads k)).cmdRunning 4).settle.comp n.toNat = Comp.loads k (s.c.comp n.toNat) :=
      (Chip.comp_settle _ _).trans (s.c.start.comp_updComp_self n.toNat (Comp.loads k))
    refine ⟨?_, (Chip.rd_settle_idle _ rfl _).trans state, (Chip.rd_settle_idle _ rfl _).trans lastOp,
      (Chip.rd_settle_idle _ rfl _).trans refuse, (((Chip.Writes.refl _).updComp n.toNat _).cmdRunning 4).confined_cmd⟩
    rw [comp]
    exact congrArg some settings
  · intro n k hs standby alone load good
    have loaded := Chip.keeperLoaded_good (c := s.c.start) (m := s.mem) alone load good
    obtain ⟨comp, waits, done, confined⟩ := keeperDone_settles { s with mem := (s.c.start.keeperLoaded s.mem n).2 } n.isLt 4 (Comp.loaded k)
    rw [loaded] at confined
    exact gives_of_body_mem hs (exec_keeperLoadComplete n s) loaded ⟨congrArg Comp.kDue comp, congrArg Comp.kLoad comp, waits, done, rfl, confined⟩
  · intro n hs standby alone hn layers live keeper
    exact gives_keeperVis (b := true) hs (exec_keeperShow n s) standby alone hn layers live keeper
  · intro n hs standby alone hn layers live keeper
    exact gives_keeperVis (b := false) hs (exec_keeperHide n s) standby alone hn layers live keeper
  · intro n hs beyond
    refine gives_of_body hs (exec_keeperShow n s) (if_pos beyond) ?_
    have kept {f : Fld} (hf : f.key ≠ Cmd.locked.key) : (s.c.start.cmdEnd 5 15).settle.rd f = (s.c.start.cmdEnd 5 15).rd f :=
      Chip.rd_settle_class15 _ rfl (show 0xF2 / 16 = 15 from rfl) hf
    obtain ⟨state, refuse, lastOp⟩ := Chip.rd_cmdEnd_refused s.c.start 5 (code := 15) (by decide)
    refine ⟨(kept (by decide)).trans state, (kept (by decide)).trans refuse, (kept (by decide)).trans lastOp, ?_,
      ((Chip.Writes.refl _).cmdEnd List.mem_cons_self 5 15).confined_cmd⟩
    rw [(settled _).stickyWord _ rfl, Chip.cmdEnd_refused _ _ (by decide), Chip.stick_self, bit_setBit_true]
  · intro hs
    obtain ⟨checks, shown⟩ := Chip.checkImages_show s.c.start s.mem 64 le_rfl
    refine gives_of_body_mem hs (exec_keeperCrcCheck s) rfl ⟨fun n on_ => ?_, checks.confined⟩
    rw [Chip.rd_settle_cmp _ n.isLt rfl, Chip.stickyWord_settle_cmp _ n.isLt]
    exact shown n n.isLt on_

end Sys2Proof.Machine
end

section
/-! SUPPORT. Trackers of the sample-rate converter: their measurements, their changes of state and the commit of the channel table
(O20). -/

namespace Sys2Proof.Machine

/-! ## Trackers at the end of a command -/

@[simp] theorem Chip.rd_updTrk (c : Chip) (t : Nat) (f : TrkX → TrkX) (x : Fld) : (c.updTrk t f).rd x = c.rd x := rfl

@[simp] theorem Chip.isStandby_updTrk (c : Chip) (t : Nat) (f : TrkX → TrkX) : (c.updTrk t f).isStandby = c.isStandby := rfl

@[simp] theorem Chip.rd_passHolds (c : Chip) (src page inst : Nat) (x : Fld) : (c.passHolds src page inst).rd x = c.rd x := rfl

@[simp] theorem Chip.trkx_updTrk_self (c : Chip) (t : Nat) (f : TrkX → TrkX) : (c.updTrk t f).trkx t = f (c.trkx t) := by
  simp [Chip.trkx, Chip.updTrk, Chip.updAud, Store.upd]

theorem Chip.trkx_settle (c : Chip) (t : Nat) : c.settle.trkx t = c.trkx t := by rw [Chip.trkx, (settled c).aud, Chip.trkx]

/-- No reaction to a fault writes a field of a tracker. -/
theorem Chip.rd_settle_trk (c : Chip) (k : Fin 64) {f : Fld}
    (place : (decide (f.page = asrcPage) && decide (f.stride = 16) && decide (f.off < 512) && decide (f.lo < 32)) = true) :
    c.settle.rd (f.nth k) = c.rd (f.nth k) := by
  simp only [Bool.and_eq_true, decide_eq_true_eq] at place
  obtain ⟨⟨⟨page, stride⟩, off⟩, lo⟩ := place
  refine c.rd_settle (Fld.nth_ok ?_ lo ?_) ?_
  · rw [page]
    decide
  · rw [stride]
    omega
  · rw [show (f.nth k).page = asrcPage from page]
    rfl

theorem Chip.rd_settle_nLocked (c : Chip) : c.settle.rd Asrc.nLocked = c.rd Asrc.nLocked := c.rd_settle rfl rfl

theorem Chip.bit_settle_asrc (c : Chip) (b : Nat) : bit ((c.stick asrcPage b).settle.stickyWord asrcPage) b = true := by
  rw [(settled _).stickyWord _ rfl, Chip.stick_self, bit_setBit_true]

theorem Chip.Writes.updTrk {gs : List Fld} {ps : List Nat} {a b : Chip} (h : Chip.Writes gs ps a b) (t : Nat) (f : TrkX → TrkX) :
    Chip.Writes gs ps a (b.updTrk t f) := ⟨h.rd, h.sticky⟩

theorem Chip.Writes.passHolds {gs : List Fld} {ps : List Nat} {a b : Chip} (h : Chip.Writes gs ps a b) (src page inst : Nat) :
    Chip.Writes gs ps a (b.passHolds src page inst) := ⟨h.rd, h.sticky⟩

theorem ofSigned_lt (w : Nat) (v : Int) : ofSigned w v < 2 ^ w := by
  have pos : ((2 ^ w : Nat) : Int) > 0 := by exact_mod_cast Nat.two_pow_pos w
  have below := Int.emod_lt_of_pos v pos
  have above := Int.emod_nonneg v pos.ne'
  rw [ofSigned]
  omega

/-! ## The commands' own meanings -/

theorem exec_trackerInput (k : Fin 64) (ratio phase pherr : BitVec 32) (s : State) :
    exec (.trackerInput k ratio phase pherr) s = execTrackerInput k ratio phase pherr s := rfl
theorem exec_trackerLock (k : Fin 64) (s : State) : exec (.trackerLock k) s = execTrackerLock k s := rfl
theorem exec_trackerHold (k : Fin 64) (s : State) : exec (.trackerHold k) s = execTrackerHold k s := rfl
theorem exec_trackerRange (k : Fin 64) (s : State) : exec (.trackerRange k) s = execTrackerRange k s := rfl
theorem exec_trackerRangeClear (k : Fin 64) (s : State) : exec (.trackerRangeClear k) s = execTrackerRangeClear k s := rfl
theorem exec_asrcCommit (m : Master) (s : State) : exec (.asrcCommit m) s = execAsrcCommit m s := rfl

/-! ## A tracker changes its state (R183) -/

/-- `NLOCKED` begins at another bit of its word than the trackers' states. -/
theorem nLocked_key_ne_tState (k : Nat) : Asrc.nLocked.key ≠ (Asrc.tState.nth k).key := Fld.key_ne_of_lo rfl

/-- The loop of a tracker that leaves `LOCKED` starts again at 20 Hz, and its output ramps out. -/
def TrkX.leavesLock (x : TrkX) : TrkX := { x with fall := true, loop := 5 }

/-- Locking, counted. -/
theorem Chip.setTrk_locks {c : Chip} {k : Nat} (h : c.rd (Asrc.tState.nth k) ≠ 2) :
    c.setTrk k 2 = (c.wr (Asrc.tState.nth k) 2).inc Asrc.nLocked := by
  simp [Chip.setTrk, h]

/-- Leaving `LOCKED`, counted, with the ramp. -/
theorem Chip.setTrk_leaves {c : Chip} {k st : Nat} (h : c.rd (Asrc.tState.nth k) = 2) (hst : st ≠ 2) :
    c.setTrk k st true = ((c.wr (Asrc.tState.nth k) st).decr Asrc.nLocked).updTrk k TrkX.leavesLock := by
  simp only [Chip.setTrk, h, hst, ne_eq, not_true_eq_false, not_false_eq_true, and_self, true_or, if_true, if_false]
  rfl

/-- A change between two states that run and are not `LOCKED` writes nothing but the state. -/
theorem Chip.setTrk_unlocked {c : Chip} {k st : Nat} (h : c.rd (Asrc.tState.nth k) ≠ 2) (hst : st ≠ 2) (runs : 1 ≤ st ∧ st ≤ 4)
    (fall : Bool) : c.setTrk k st fall = c.wr (Asrc.tState.nth k) st := by
  simp [Chip.setTrk, h, hst, runs]

theorem Chip.rd_nLocked_inc (c : Chip) (k st : Nat) :
    ((c.wr (Asrc.tState.nth k) st).inc Asrc.nLocked).rd Asrc.nLocked = satInc 7 (c.rd Asrc.nLocked) := by
  rw [Chip.inc, Chip.rd_wr_self, Chip.rd_wr_ne _ _ (nLocked_key_ne_tState k)]
  exact Nat.mod_eq_of_lt (satInc_lt (c.rd_lt Asrc.nLocked))

theorem Chip.rd_nLocked_decr (c : Chip) (k st : Nat) :
    ((c.wr (Asrc.tState.nth k) st).decr Asrc.nLocked).rd Asrc.nLocked = c.rd Asrc.nLocked - 1 := by
  rw [Chip.decr, Chip.rd_wr_self, Chip.rd_wr_ne _ _ (nLocked_key_ne_tState k)]
  exact Nat.mod_eq_of_lt ((Nat.sub_le _ 1).trans_lt (c.rd_lt Asrc.nLocked))

/-- A write of the count leaves the new state. -/
theorem Chip.rd_tState_counted (c : Chip) (k st v : Nat) :
    ((c.wr (Asrc.tState.nth k) st).wr Asrc.nLocked v).rd (Asrc.tState.nth k) = st % 8 := by
  rw [Chip.rd_wr_ne _ _ (nLocked_key_ne_tState k).symm, Chip.rd_wr_self]
  rfl

/-- What a tracker's change of state to `st` with a ramp shows: the state, and one less in `LOCKED` where it was. -/
theorem Chip.rd_setTrk_falling (c : Chip) (k : Nat) {st : Nat} (hst : st = 3 ∨ st = 4) :
    (c.setTrk k st true).rd (Asrc.tState.nth k) = st ∧
    (c.setTrk k st true).rd Asrc.nLocked =
      (if c.rd (Asrc.tState.nth k) = 2 then c.rd Asrc.nLocked - 1 else c.rd Asrc.nLocked) ∧
    Chip.Writes [Asrc.tState.nth k, Asrc.nLocked] [asrcPage] c (c.setTrk k st true) := by
  have small : st % 8 = st := by omega
  by_cases locked : c.rd (Asrc.tState.nth k) = 2
  · rw [Chip.setTrk_leaves locked (by omega), if_pos locked]
    exact ⟨(c.rd_tState_counted k st _).trans small, c.rd_nLocked_decr k st,
      ((((Chip.Writes.refl c).wr (by simp) st).wr (by simp) _).updTrk k _)⟩
  · rw [Chip.setTrk_unlocked locked (by omega) (by omega), if_neg locked]
    exact ⟨(c.rd_wr_self _ st).trans small, c.rd_wr_ne st (nLocked_key_ne_tState k), (Chip.Writes.refl c).wr (by simp) st⟩

/-! ## A measurement (R181) -/

/-- What a measurement leaves in a tracker's own state. -/
def TrkX.measured (ratio phase pherr : BitVec 32) (x : TrkX) : TrkX :=
  { x with pherr := pherr.toInt, phase := phase.toInt, ratio := ratio.toNat }

/-- A measurement shown: the phase error as far as its register holds it, and the ratio. -/
def Chip.showMeasured (c : Chip) (k : Nat) (ratio phase pherr : BitVec 32) : Chip :=
  ((c.wrS (Asrc.tPherr.nth k) (clampI (-32768) 32767 pherr.toInt)).updTrk k (TrkX.measured ratio phase pherr)).wr
    (Asrc.tRatio.nth k) ratio.toNat

/-- Whether the device is a standby is read on other pages than the converter's. -/
theorem Chip.isStandby_wrS_tPherr (c : Chip) (k : Nat) (v : Int) : (c.wrS (Asrc.tPherr.nth k) v).isStandby = c.isStandby := by
  have state : (c.wrS (Asrc.tPherr.nth k) v).rd Twin.state = c.rd Twin.state := c.rd_wr_ne _ (Fld.key_ne_of_lo rfl)
  simp only [Chip.isStandby, Chip.pairState, state]
  rfl

/-- An acquiring tracker of an active device that has a source takes every measurement and keeps its state. -/
theorem gives_trackerInput_acquiring {s : State} {k : Fin 64} {ratio phase pherr : BitVec 32} {P : State → Prop} (hs : s.Runs)
    (acquires : s.c.rd (Asrc.tState.nth k) = 1) (active : s.c.isStandby = false) (source : s.c.trkSource k = true)
    (hP : P { s with c := (s.c.start.showMeasured k ratio phase pherr).settle }) : Gives (.trackerInput k ratio phase pherr) s P := by
  refine gives_of_body hs (exec_trackerInput k ratio phase pherr s) ?_ hP
  have state : s.c.start.rd (Asrc.tState.nth k) = 1 := acquires
  have has : s.c.start.trkSource k = true := source
  have alone : s.c.start.isStandby = false := active
  simp only [state, has, Chip.isStandby_updTrk, Chip.isStandby_wrS_tPherr, alone]
  rfl

theorem tPherr_key_ne_tRatio (k : Nat) : (Asrc.tPherr.nth k).key ≠ (Asrc.tRatio.nth k).key := Fld.key_ne_of_lo rfl
theorem tState_key_ne_tPherr (k : Nat) : (Asrc.tState.nth k).key ≠ (Asrc.tPherr.nth k).key := Fld.key_ne_of_lo rfl
theorem tState_key_ne_tRatio (k : Nat) : (Asrc.tState.nth k).key ≠ (Asrc.tRatio.nth k).key := by
  rw [Fld.key_nth, Fld.key_nth]
  simp [Asrc.tState, Asrc.tRatio, Fld.key, placeKey]

theorem Chip.rd_showMeasured (c : Chip) (k : Nat) (ratio phase pherr : BitVec 32) :
    (c.showMeasured k ratio phase pherr).rd (Asrc.tRatio.nth k) = ratio.toNat ∧
    (c.showMeasured k ratio phase pherr).rd (Asrc.tPherr.nth k) = ofSigned 16 (clampI (-32768) 32767 pherr.toInt) ∧
    (c.showMeasured k ratio phase pherr).rd (Asrc.tState.nth k) = c.rd (Asrc.tState.nth k) := by
  simp only [Chip.showMeasured]
  refine ⟨(Chip.rd_wr_self _ _ _).trans (Nat.mod_eq_of_lt ratio.isLt), ?_, ?_⟩
  · rw [Chip.rd_wr_ne _ _ (tPherr_key_ne_tRatio k), Chip.rd_updTrk, Chip.wrS, Chip.rd_wr_self]
    exact Nat.mod_eq_of_lt (ofSigned_lt 16 _)
  · rw [Chip.rd_wr_ne _ _ (tState_key_ne_tRatio k), Chip.rd_updTrk, Chip.wrS, Chip.rd_wr_ne _ _ (tState_key_ne_tPherr k)]

/-! ## The statement -/

/-- Settles O20: a measurement, the four changes of state between `ACQUIRE`, `LOCKED`, `HOLD` and `RANGE`, and the commit. -/
theorem trackers : Obligations.Trackers := by
  unfold Obligations.Trackers
  intro s k
  refine ⟨?_, ?_, ?_, ?_, ?_, ?_⟩
  · intro ratio phase pherr hs acquires active source
    refine gives_trackerInput_acquiring hs acquires active source ?_
    obtain ⟨shownRatio, shownPherr, state⟩ := s.c.start.rd_showMeasured k ratio phase pherr
    have own : (s.c.start.showMeasured k ratio phase pherr).settle.trkx k = TrkX.measured ratio phase pherr (s.c.trkx k) :=
      (Chip.trkx_settle _ _).trans (Chip.trkx_updTrk_self _ _ _)
    refine ⟨(Chip.rd_settle_trk _ k rfl).trans shownRatio, (Chip.rd_settle_trk _ k rfl).trans shownPherr,
      congrArg TrkX.phase own, congrArg TrkX.ratio own, ((Chip.rd_settle_trk _ k rfl).trans state).trans acquires, ?_⟩
    exact ((((Chip.Writes.refl _).wr (by simp) _).updTrk k _).wr (by simp) _).confined
  · intro hs acquires within
    have unlocked : s.c.start.rd (Asrc.tState.nth k) ≠ 2 := by
      rw [Chip.rd_start, acquires]
      decide
    refine gives_of_body hs (exec_trackerLock k s) ((if_pos ⟨acquires, within⟩).trans (Chip.setTrk_locks unlocked)) ?_
    exact ⟨(Chip.rd_settle_trk _ k rfl).trans (Chip.rd_tState_counted _ k 2 _),
      (Chip.rd_settle_nLocked _).trans (Chip.rd_nLocked_inc _ k 2),
      (((Chip.Writes.refl _).wr (by simp) _).wr (by simp) _).confined⟩
  · intro hs locked
    obtain ⟨state, count, writes⟩ := s.c.start.rd_setTrk_falling k (.inl rfl)
    refine gives_of_body hs (exec_trackerHold k s) (if_pos locked) ?_
    refine ⟨(Chip.rd_settle_trk _ k rfl).trans state, (Chip.rd_settle_nLocked _).trans (count.trans (if_pos locked)), ?_,
      Chip.bit_settle_asrc _ 0, ((writes.updTrk k _).stick (by simp) 0).confined⟩
    rw [Chip.trkx_settle, Chip.setTrk_leaves (c := s.c.start) locked (by decide)]
    exact congrArg TrkX.fall ((Chip.trkx_updTrk_self _ _ _).trans (congrArg _ (Chip.trkx_updTrk_self _ _ _)))
  · intro hs above below outside
    obtain ⟨state, count, writes⟩ := s.c.start.rd_setTrk_falling k (.inr rfl)
    have beyond : (!s.c.start.trkInRange k) = true := by
      rw [Bool.not_eq_true']
      exact outside
    refine gives_of_body hs (exec_trackerRange k s) (if_pos ⟨above, below, beyond⟩) ?_
    exact ⟨(Chip.rd_settle_trk _ k rfl).trans state, Chip.bit_settle_asrc _ 1, (Chip.rd_settle_nLocked _).trans count,
      ((writes.raise _ _ _ _).stick (by simp) 1).confined⟩
  · intro hs ranges inside
    have unlocked : s.c.start.rd (Asrc.tState.nth k) ≠ 2 := by
      rw [Chip.rd_start, ranges]
      decide
    have body : (s.c.start.setTrk k 1).passHolds 0x68 asrcPage k = (s.c.start.wr (Asrc.tState.nth k) 1).passHolds 0x68 asrcPage k := by
      rw [Chip.setTrk_unlocked unlocked (by decide) (by decide)]
    refine gives_of_body hs (exec_trackerRangeClear k s) ((if_pos ⟨ranges, inside⟩).trans body) ?_
    exact ⟨(Chip.rd_settle_trk _ k rfl).trans ((Chip.rd_passHolds _ _ _ _ _).trans (Chip.rd_wr_self _ _ _)),
      (((Chip.Writes.refl _).wr (by simp) 1).passHolds _ _ _).confined⟩
  · intro m hs
    refine gives_of_body hs.1 (exec_asrcCommit m s) (trigger_allows s m _ _ _ true _ hs) ?_
    exact ⟨(Chip.rd_settle _ rfl rfl).trans (Chip.rd_wr_self _ _ _), ((Chip.Writes.refl _).wr (by simp) 1).confined⟩

end Sys2Proof.Machine
end

section
/-! SUPPORT. The statements of the audio family that fail outside the states a run can reach (O17 to O19, O21). They speak of every
`State`: what an intake word in use names is not checked again, and a state's field table may list a key twice although the model's own
operations never do, of which a read takes the first value and the copies of R176 and R196 the last. -/

namespace Sys2Proof.Machine

theorem exec_intakeClose (s : State) : exec .intakeClose s = execIntakeClose s := rfl
theorem exec_sapMaskCommit (m : Master) (p : Fin 16) (s : State) : exec (.sapMaskCommit m p) s = execSapMaskCommit m p s := rfl
theorem exec_sapFrameReceive (p : Fin 16) (f : SapFrame) (s : State) : exec (.sapFrameReceive p f) s = execSapFrameReceive p f s := rfl
theorem exec_amapValidationDone (s : State) : exec .amapValidationDone s = execAmapValidationDone s := rfl

/-- A period is open, and intake entry 0 in use selects channel 1,024 of the serial ports, which would be port 16's; there are 16 ports,
and R196 rejects such a word with reason 1. -/
def intakeBeyondPorts : State :=
  { State.reset with
    c := (State.reset.c.wr (Amap.intake.nth 0).live (1 + 8 * 1024)).updAud (fun a => { a with isOpen := true }) }

/-- Refutes O17: where an intake word in use names a port beyond the 16 that there are, which the statement does not exclude, the close of
intake counts its missing samples on the page behind the last port's, the converter's, which is none of those named. -/
theorem not_audioPeriods : ¬Obligations.AudioPeriods := by
  intro h
  obtain ⟨-, -, intakeClose⟩ := h intakeBeyondPorts
  have given := intakeClose (by decide) (by decide) (by decide)
  obtain ⟨-, -, -, within⟩ := holds_of_gives given (by decide) (exec_intakeClose intakeBeyondPorts)
  have kept := within.regs (Sap.underCnt.on 16) (by decide) (by decide) (by decide)
  rw [Chip.rd_settle _ (by decide) (by decide)] at kept
  exact absurd kept (by decide +kernel)

/-- The field table lists word 0 of port 3's receive mask twice: 9, which reads, then 10. -/
def maskListedTwice : State :=
  { State.reset with c := { State.reset.c with flds := [((Sap.rxMask.on 3).key, 9), ((Sap.rxMask.on 3).key, 10)] } }

/-- Refutes O18: of a field that the table lists twice, which the statement does not exclude, a read takes the first value and the copy
into the waiting mask the last, so a commit of the receive mask 9 has 10 waiting. -/
theorem not_serialPortStates : ¬Obligations.SerialPortStates := by
  intro h
  obtain ⟨-, -, -, -, commit, -, -⟩ := h maskListedTwice 3
  have given := commit .host (by decide)
  obtain ⟨-, -, masks, -⟩ := holds_of_gives given (by decide) (exec_sapMaskCommit .host 3 maskListedTwice)
  obtain ⟨rxMask, -⟩ := masks 0
  rw [Chip.rd_settle _ (by decide) (by decide)] at rxMask
  exact absurd rxMask (by decide +kernel)

/-- Port 3 runs, its transmit mask waits for the boundary at stamp 16, and the field table lists word 0 of the waiting mask twice: 9, which
reads, then 10. -/
def waitingMaskListedTwice : State :=
  { State.reset with
    c := ({ State.reset.c with
      flds := [((Sap.state.on 3).key, 3), ((Sap.txMask.on 3).pend.key, 9), ((Sap.txMask.on 3).pend.key, 10)] }).updSap 3
      (fun x => { x with next := 17, txDue := true }) }

/-- Refutes O19: in the same way the frame whose transmit stamp is 16 brings the waiting transmit mask 9 into use as 10. -/
theorem not_serialPortFrames : ¬Obligations.SerialPortFrames := by
  intro h
  obtain ⟨-, -, -, maskDue⟩ := h waitingMaskListedTwice 3 ⟨17, 0, true, [], false, false⟩
  have given := maskDue (by decide) (by decide) (by decide) (by decide) (by decide) (by decide) (by decide) (by decide)
  obtain ⟨-, -, masks, -⟩ := holds_of_gives given (by decide) (exec_sapFrameReceive 3 _ waitingMaskListedTwice)
  have txMask := masks 0
  rw [Chip.rd_settle _ (by decide) (by decide)] at txMask
  exact absurd txMask (by decide +kernel)

/-- A commit of the maps that passes while no periods run goes live at once. -/
theorem exec_amapValidationDone_live {s : State} (hs : s.Runs) (validating : s.c.rd Amap.code = 1) (valid : s.c.validateAmap = none)
    (idle : s.c.ticking = false) : exec .amapValidationDone s = .next { s with c := s.c.start.amapApply.settle } := by
  have code : s.c.start.rd Amap.code = 1 := validating
  have passes : s.c.start.validateAmap = none := valid
  have stands : s.c.start.ticking = false := idle
  rw [exec_amapValidationDone, execAmapValidationDone, act_runs s _ hs]
  simp [code, passes, stands]

/-- A commit of the maps is being validated, and the field table lists the shadow of intake entry 0 twice: channel 0 of port 0, which
reads, then channel 1. -/
def intakeListedTwice : State :=
  { State.reset with
    c := { State.reset.c with flds := [(Amap.code.key, 1), ((Amap.intake.nth 0).key, 1), ((Amap.intake.nth 0).key, 9)] } }

/-- Refutes O21: in the same way the commit, which passes every check, brings the selection of channel 0 into use as channel 1. -/
theorem not_audioFlowsAndMaps : ¬Obligations.AudioFlowsAndMaps := by
  intro h
  obtain ⟨-, -, -, -, -, goLive, -⟩ := h intakeListedTwice
  have valid : intakeListedTwice.c.validateAmap = none := by decide +kernel
  obtain ⟨t, answer, -, -, -, intake, -⟩ := goLive (by decide) (by decide) valid (by decide)
  rw [exec_amapValidationDone_live (by decide) (by decide) valid (by decide)] at answer
  injection answer with answer
  have word := intake 0
  rw [← answer, Chip.rd_settle _ (by decide) (by decide)] at word
  exact absurd word (by decide +kernel)

end Sys2Proof.Machine
end

section
/-! SUPPORT. Batches of the mix engine and the period of a mix tile (O23). -/

namespace Sys2Proof.Machine

/-! ## The mix engine at the end of a command -/

@[simp] theorem Chip.rd_updMix (c : Chip) (f : MixX → MixX) (g : Fld) : (c.updMix f).rd g = c.rd g := rfl
@[simp] theorem Chip.rd_gainNow (c : Chip) (es : List (Nat × Nat)) (g : Fld) : (c.gainNow es).rd g = c.rd g := rfl

@[simp] theorem Chip.mix_settle (c : Chip) : c.settle.mix = c.mix := (settled c).mix

/-- No reaction to a fault writes the registers of the mix engine. -/
theorem Chip.rd_settle_mix (c : Chip) {f : Fld}
    (hf : (decide (f.page = mixPage) && decide (f.off < 67108864) && decide (f.lo < 32)) = true) : c.settle.rd f = c.rd f := by
  simp only [Bool.and_eq_true, decide_eq_true_eq] at hf
  obtain ⟨⟨page, off⟩, lo⟩ := hf
  refine c.rd_settle ?_ (page ▸ rfl)
  simp only [Fld.ok, page, off, lo, decide_true, Bool.and_true]
  rfl

theorem Chip.bit_settle_mix (c : Chip) (b : Nat) : bit ((c.stick mixPage b).settle.stickyWord mixPage) b = true := by
  rw [(settled _).stickyWord _ rfl, Chip.stick_self, bit_setBit_true]

@[simp] theorem Chip.tile_updTile_self (c : Chip) (t : Nat) (f : MixTile → MixTile) : (c.updTile t f).tile t = f (c.tile t) := by
  simp [Chip.tile, Chip.updTile, Chip.updMix, Store.upd]

theorem Chip.tile_congr {c d : Chip} (h : d.mix = c.mix) (t : Nat) : d.tile t = c.tile t := by rw [Chip.tile, h, Chip.tile]

theorem Chip.Writes.updMix {gs : List Fld} {ps : List Nat} {a b : Chip} (h : Chip.Writes gs ps a b) (f : MixX → MixX) :
    Chip.Writes gs ps a (b.updMix f) := ⟨h.rd, h.sticky⟩

theorem Chip.Writes.gainNow {gs : List Fld} {ps : List Nat} {a b : Chip} (h : Chip.Writes gs ps a b) (es : List (Nat × Nat)) :
    Chip.Writes gs ps a (b.gainNow es) := ⟨h.rd, h.sticky⟩

theorem Chip.Writes.trans {gs : List Fld} {ps : List Nat} {a b c : Chip} (h : Chip.Writes gs ps a b) (k : Chip.Writes gs ps b c) :
    Chip.Writes gs ps a c :=
  ⟨fun f hf => (k.rd f hf).trans (h.rd f hf), fun p hp => (k.sticky p hp).trans (h.sticky p hp)⟩

theorem Chip.Writes.mono {gs hs : List Fld} {ps : List Nat} {a b : Chip} (h : Chip.Writes gs ps a b) (k : gs ⊆ hs) :
    Chip.Writes hs ps a b := ⟨fun f hf => h.rd f fun g hg => hf g (k hg), h.sticky⟩

/-! ## The commands' own meanings -/

theorem exec_batchOpen (m : Master) (s : State) : exec (.batchOpen m) s = execBatchOpen m s := rfl
theorem exec_batchCommit (m : Master) (s : State) : exec (.batchCommit m) s = execBatchCommit m s := rfl
theorem exec_batchDiscard (m : Master) (s : State) : exec (.batchDiscard m) s = execBatchDiscard m s := rfl
theorem exec_mixTilePeriod (i : Fin 64) (e : Fin 262144) (ecc : MemRead) (s : State) :
    exec (.mixTilePeriod i e ecc) s = execMixTilePeriod i e ecc s := rfl

/-! ## Batches (R218, R219) -/

/-- With no batch open or committed, a batch opens empty. -/
theorem Chip.batchOpen_idle {c : Chip} (commit : c.on Mix.commit = false) (batch : c.on Mix.batch = false) :
    c.batchOpen = ((((c.wr Mix.batch 1).wr Mix.bCode 1).wr Mix.bReason 0).wr Mix.bCount 0).updMix
      (fun x => { x with staged := [], count := 0 }) := by
  simp [Chip.batchOpen, commit, batch]

/-- The commit of a batch writes `BATCH` alone before it looks whether the engine runs. -/
theorem Chip.on_run_wr_batch (c : Chip) (v : Nat) : (c.wr Mix.batch v).on Mix.run = c.on Mix.run := by
  rw [Chip.on, Chip.rd_wr_ne _ _ (by decide), Chip.on]

/-- A batch that fits the list is committed on a running engine: it waits for its boundary. -/
theorem Chip.batchCommit_running {c : Chip} (batch : c.on Mix.batch = true) (fits : c.mix.count ≤ 65536) (run : c.on Mix.run = true) :
    c.batchCommit = (((c.wr Mix.batch 0).wr Mix.commit 1).wr Mix.bCode 2).updMix
      (fun x => { x with batch := batchEntries c.mix.staged, staged := [] }) := by
  simp only [Chip.batchCommit, batch, Chip.on_run_wr_batch, run, Bool.not_true, Bool.false_eq_true, if_false]
  exact if_neg (Nat.not_lt.mpr fits)

/-- On a stopped engine it takes effect at once. -/
theorem Chip.batchCommit_stopped {c : Chip} (batch : c.on Mix.batch = true) (fits : c.mix.count ≤ 65536) (run : c.on Mix.run = false) :
    c.batchCommit = ((c.wr Mix.batch 0).gainNow (batchEntries c.mix.staged)).batchStarted := by
  simp only [Chip.batchCommit, batch, Chip.on_run_wr_batch, run, Bool.not_true, Bool.not_false, Bool.false_eq_true, if_true, if_false]
  exact if_neg (Nat.not_lt.mpr fits)

theorem Chip.batchDiscard_open {c : Chip} (batch : c.on Mix.batch = true) :
    c.batchDiscard = ((c.wr Mix.batch 0).wr Mix.bCode 6).updMix (fun x => { x with staged := [], count := 0 }) := by
  simp [Chip.batchDiscard, batch]

/-- What a batch that has taken effect shows. -/
theorem Chip.rd_bCode_batchStarted (c : Chip) : c.batchStarted.rd Mix.bCode = 4 := by
  rw [Chip.batchStarted, Chip.rd_stick, Chip.batchEnd, Chip.rd_updMix, Chip.rd_wr_ne _ _ (by decide), Chip.rd_wr_self]
  rfl

theorem Chip.rd_batch_batchStarted (c : Chip) : c.batchStarted.rd Mix.batch = c.rd Mix.batch := by
  rw [Chip.batchStarted, Chip.rd_stick, Chip.batchEnd, Chip.rd_updMix, Chip.rd_wr_ne _ _ (by decide), Chip.rd_wr_ne _ _ (by decide)]

theorem Chip.Writes.batchStarted {gs : List Fld} {ps : List Nat} {a b : Chip} (h : Chip.Writes gs ps a b)
    (code : Mix.bCode ∈ gs) (commit : Mix.commit ∈ gs) (page : mixPage ∈ ps) : Chip.Writes gs ps a b.batchStarted :=
  (((h.wr code 4).wr commit 0).updMix _).stick page 2

/-! ## Checked reads of the gain table (R419) -/

/-- Between two machines only the fault collector, its reports and the sticky words that a reaction may set differ. -/
structure Chip.OnlyCollects (c d : Chip) : Prop where
  flds : d.flds = c.flds
  sticky : ∀ p, reactsSticky p = false → d.stickyWord p = c.stickyWord p
  mix : d.mix = c.mix
  aud : d.aud = c.aud

theorem Chip.OnlyCollects.refl (c : Chip) : Chip.OnlyCollects c c := ⟨rfl, fun _ _ => rfl, rfl, rfl⟩

theorem Chip.OnlyCollects.trans {a b c : Chip} (h : Chip.OnlyCollects a b) (k : Chip.OnlyCollects b c) : Chip.OnlyCollects a c :=
  ⟨k.flds.trans h.flds, fun p hp => (k.sticky p hp).trans (h.sticky p hp), k.mix.trans h.mix, k.aud.trans h.aud⟩

theorem Chip.OnlyCollects.ite {a b c : Chip} {p : Prop} [Decidable p] (h : p → Chip.OnlyCollects a b) (k : ¬p → Chip.OnlyCollects a c) :
    Chip.OnlyCollects a (if p then b else c) := by
  split
  · exact h ‹_›
  · exact k ‹_›

theorem Chip.onlyCollects_check (c : Chip) (k i real : Nat) : Chip.OnlyCollects c (c.check k i real).c := by
  refine ⟨(c.check_frame k i real).2.1, fun p hp => ?_, ?_, ?_⟩
  · exact ((Chip.Quiet.refl (ps := []) c).check k i real).sticky p hp List.not_mem_nil
  all_goals
    unfold Chip.check
    split
    · split
      · dsimp only
        split <;> rfl
      · rfl
    · rfl

theorem Chip.onlyCollects_eccRead (c : Chip) (k i ce ue page inst addr real again : Nat) (held : List (Nat × Nat)) :
    Chip.OnlyCollects c (c.eccRead k i ce ue page inst addr real again held) := by
  obtain ⟨flds, sticky, mix, aud⟩ := c.onlyCollects_check k i real
  exact Chip.OnlyCollects.ite (fun _ => ⟨flds, sticky, mix, aud⟩) (fun _ => ⟨flds, sticky, mix, aud⟩)

/-- A read of an entry that shows no error, or one that ECC corrects, poisons nothing. -/
theorem Chip.onlyCollects_gainEcc (c : Chip) (t e again : Nat) {syn : Nat} (good : syn = 0 ∨ oneBit syn = true) :
    Chip.OnlyCollects c (c.gainEcc t e syn again) := by
  have corrected : ¬(syn ≠ 0 ∧ !oneBit syn ∧ !(c.eccRead 4 t 0x06 0x07 mixPage t e syn again [(2, e / 4096)]).mix.poison.contains e) := by
    rintro ⟨bad, uncorrected, -⟩
    rcases good with rfl | one
    · exact bad rfl
    · rw [one] at uncorrected
      exact absurd uncorrected (by decide)
  rw [Chip.gainEcc, if_neg corrected]
  exact c.onlyCollects_eccRead _ _ _ _ _ _ _ _ _ _

/-- The checked reads of a tile's period: its first entry, and entry `e` of the tile where that is another one. -/
def Chip.tileReads (c : Chip) (t e : Nat) (ecc : MemRead) : Chip :=
  let syn := ecc.syn.toNat % 256
  let again := ecc.again.toNat % 256
  let c := c.gainEcc t (262144 * t) (if e = 0 then syn else 0) again
  if e = 0 then c else c.gainEcc t (262144 * t + e) syn again

theorem Chip.onlyCollects_tileReads (c : Chip) (t e : Nat) {ecc : MemRead}
    (good : ecc.syn.toNat % 256 = 0 ∨ oneBit (ecc.syn.toNat % 256) = true) : Chip.OnlyCollects c (c.tileReads t e ecc) := by
  have first : (if e = 0 then ecc.syn.toNat % 256 else 0) = 0 ∨ oneBit (if e = 0 then ecc.syn.toNat % 256 else 0) = true := by
    split
    · exact good
    · exact .inl rfl
  have read := c.onlyCollects_gainEcc t (262144 * t) (ecc.again.toNat % 256) first
  exact Chip.OnlyCollects.ite (fun _ => read) (fun _ => read.trans (Chip.onlyCollects_gainEcc _ t _ _ good))

/-! ## The block of an output (R207, R208) -/

/-- The registers that the sum of a tile depends on: the table's format, and the device rate and period length. -/
def sumFields : List Fld := [Dev.compat, Sched.fs, Sched.plen]

/-- Between two machines nothing differs that the sum of a tile depends on. -/
structure Chip.SumsAlike (c d : Chip) : Prop where
  rd : ∀ f ∈ sumFields, d.rd f = c.rd f
  applied : d.mix.applied = c.mix.applied
  poison : d.mix.poison = c.mix.poison
  aud : d.aud = c.aud

theorem Chip.OnlyCollects.sumsAlike {c d : Chip} (h : Chip.OnlyCollects c d) : Chip.SumsAlike c d :=
  ⟨fun f _ => by rw [Chip.rd, h.flds, Chip.rd], by rw [h.mix], by rw [h.mix], h.aud⟩

theorem Chip.SumsAlike.trans {a b c : Chip} (h : Chip.SumsAlike a b) (k : Chip.SumsAlike b c) : Chip.SumsAlike a c :=
  ⟨fun f hf => (k.rd f hf).trans (h.rd f hf), k.applied.trans h.applied, k.poison.trans h.poison, k.aud.trans h.aud⟩

theorem Chip.SumsAlike.mixBlock {c d : Chip} (h : Chip.SumsAlike c d) (o : Nat) (rs : List Ramp) : d.mixBlock o rs = c.mixBlock o rs := by
  have compat : d.rd Dev.compat = c.rd Dev.compat := h.rd _ (by decide)
  have fs : d.rd Sched.fs = c.rd Sched.fs := h.rd _ (by decide)
  have plen : d.rd Sched.plen = c.rd Sched.plen := h.rd _ (by decide)
  have format : d.gainQ15 = c.gainQ15 := by rw [Chip.gainQ15, compat, Chip.gainQ15]
  have inputs : d.xpIn = c.xpIn := funext fun e => by rw [Chip.xpIn, Chip.nIn, Chip.on, fs, Chip.xpIn, Chip.nIn, Chip.on]
  have length : d.periodLen = c.periodLen := by
    simp only [Chip.periodLen, Chip.periodCode, Chip.plenCode, compat, plen, h.aud]
  simp only [Chip.mixBlock, Chip.rowOf, format, inputs, length, h.applied, h.poison, h.aud]

/-! ## A tile's outputs, one after another -/

/-- The saturation of an output is shown, judged, and counted where it occurred (R208). -/
def Chip.showSat (c : Chip) (o : Nat) (b : Bool) : Chip :=
  let c := (c.wr (Mix.sat.nth o) (b2n b)).judge 0x70 mixPage o 0 b
  if b then (c.inc Mix.satCnt).stick mixPage 0 else c

/-- The block of an output is kept; one of zeros is not listed. -/
def Chip.keepBlock (c : Chip) (t o : Nat) (ys : List Int) : Chip :=
  if ys.all (fun y => y = 0) then c else c.updTile t (fun x => { x with mixed := Store.set [] x.mixed o ys })

/-- Tile `t`, with the ramps `rs`, mixes its output `j`. -/
def Chip.mixOutput (t : Nat) (rs : List Ramp) (c : Chip) (j : Nat) : Chip :=
  (c.showSat (64 * t + j) (c.mixBlock (64 * t + j) rs).2).keepBlock t (64 * t + j) (c.mixBlock (64 * t + j) rs).1

/-- The first `k` outputs in turn. -/
def Chip.mixOutputs (c : Chip) (t : Nat) (rs : List Ramp) (k : Nat) : Chip := (List.range k).foldl (Chip.mixOutput t rs) c

theorem Chip.mixOutputs_succ (c : Chip) (t : Nat) (rs : List Ramp) (k : Nat) :
    c.mixOutputs t rs (k + 1) = Chip.mixOutput t rs (c.mixOutputs t rs k) k := by
  rw [Chip.mixOutputs, List.range_succ, List.foldl_append]
  rfl

theorem satCnt_key_ne_sat (o : Nat) : Mix.satCnt.key ≠ (Mix.sat.nth o).key := Fld.key_ne_of_lo rfl

theorem sat_key_ne {o p : Nat} (h : o ≠ p) : (Mix.sat.nth o).key ≠ (Mix.sat.nth p).key := Fld.key_nth_ne (by decide) h

/-- The flags of the outputs and the count of saturated ones are no part of what a sum depends on. -/
theorem sumFields_key_ne : ∀ f ∈ sumFields, f.key ≠ Mix.satCnt.key ∧ ∀ o, f.key ≠ (Mix.sat.nth o).key := by
  intro f hf
  obtain ⟨before, apart⟩ := (show ∀ f ∈ sumFields, f.key < Mix.sat.key ∧ f.key ≠ Mix.satCnt.key by decide) f hf
  refine ⟨apart, fun o => ?_⟩
  rw [Fld.key_nth]
  omega

theorem Chip.writes_showSat (c : Chip) (o : Nat) (b : Bool) : Chip.Writes [Mix.satCnt, Mix.sat.nth o] [mixPage] c (c.showSat o b) := by
  have judged := ((Chip.Writes.refl (gs := [Mix.satCnt, Mix.sat.nth o]) (ps := [mixPage]) c).wr (f := Mix.sat.nth o) (by simp)
    (b2n b)).judge 0x70 mixPage o 0 b false
  unfold Chip.showSat
  cases b
  · exact judged
  · exact (judged.wr List.mem_cons_self _).stick List.mem_cons_self 0

theorem Chip.showSat_frame (c : Chip) (o : Nat) (b : Bool) : (c.showSat o b).mix = c.mix ∧ (c.showSat o b).aud = c.aud := by
  obtain ⟨u, r, e⟩ := (c.wr (Mix.sat.nth o) (b2n b)).judge_frame 0x70 mixPage o 0 b false
  simp only [Chip.showSat, e]
  cases b <;> exact ⟨rfl, rfl⟩

theorem Chip.rd_sat_showSat (c : Chip) (o : Nat) (b : Bool) : (c.showSat o b).rd (Mix.sat.nth o) = b2n b := by
  have judged : ((c.wr (Mix.sat.nth o) (b2n b)).judge 0x70 mixPage o 0 b).rd (Mix.sat.nth o) = b2n b := by
    obtain ⟨u, r, e⟩ := (c.wr (Mix.sat.nth o) (b2n b)).judge_frame 0x70 mixPage o 0 b false
    rw [e]
    refine (Chip.rd_wr_self c (Mix.sat.nth o) (b2n b)).trans ?_
    cases b <;> rfl
  unfold Chip.showSat
  cases b
  · exact judged
  · exact (Chip.rd_wr_ne _ _ (satCnt_key_ne_sat o).symm).trans judged

/-- Keeping a block changes the tile's list of blocks alone. -/
theorem Chip.keepBlock_frame (c : Chip) (t o : Nat) (ys : List Int) : ∃ tiles : Store MixTile,
    c.keepBlock t o ys = c.updMix (fun x => { x with tiles := tiles }) := by
  unfold Chip.keepBlock
  split
  · exact ⟨c.mix.tiles, rfl⟩
  · exact ⟨_, rfl⟩

theorem Chip.mixed_keepBlock_self (c : Chip) (t o : Nat) {ys : List Int} (h : ys.all (fun y => y = 0) = false) :
    Store.get [] ((c.keepBlock t o ys).tile t).mixed o = ys := by
  rw [Chip.keepBlock, if_neg (by rw [h]; decide), Chip.tile_updTile_self]
  exact Store.get_set_self _ _ _ _

theorem Chip.mixed_keepBlock_ne (c : Chip) (t : Nat) {o p : Nat} (h : p ≠ o) (ys : List Int) :
    Store.get [] ((c.keepBlock t o ys).tile t).mixed p = Store.get [] (c.tile t).mixed p := by
  unfold Chip.keepBlock
  split
  · rfl
  · rw [Chip.tile_updTile_self]
    exact Store.get_set_ne _ _ _ h

/-- The flags that the first `k` outputs of a tile write, and the count. -/
def satFields (t k : Nat) : List Fld := Mix.satCnt :: (List.range k).map (fun j => Mix.sat.nth (64 * t + j))

theorem mem_satFields {t k j : Nat} (h : j < k) : Mix.sat.nth (64 * t + j) ∈ satFields t k :=
  List.mem_cons_of_mem _ (List.mem_map_of_mem (List.mem_range.mpr h))

theorem satFields_subset {t k n : Nat} (h : k ≤ n) : satFields t k ⊆ satFields t n :=
  List.cons_subset_cons _ (List.map_subset _ (List.range_subset.mpr h))

/-- What the first `k` outputs of a tile leave when they have been mixed from `c`. -/
structure Chip.Mixed (t : Nat) (rs : List Ramp) (k : Nat) (c d : Chip) : Prop where
  writes : Chip.Writes (satFields t k) [mixPage] c d
  alike : Chip.SumsAlike c d
  sat : ∀ j, j < k → d.rd (Mix.sat.nth (64 * t + j)) = b2n (c.mixBlock (64 * t + j) rs).2
  mixed : ∀ j, j < k → (c.mixBlock (64 * t + j) rs).1.all (fun y => y = 0) = false →
    Store.get [] (d.tile t).mixed (64 * t + j) = (c.mixBlock (64 * t + j) rs).1

/-- One output writes its own flag and the count, and keeps what the sums of the others depend on. -/
theorem Chip.mixOutput_frame (c : Chip) (t : Nat) (rs : List Ramp) (j : Nat) :
    Chip.Writes [Mix.satCnt, Mix.sat.nth (64 * t + j)] [mixPage] c (Chip.mixOutput t rs c j) ∧
    Chip.SumsAlike c (Chip.mixOutput t rs c j) := by
  obtain ⟨mix, aud⟩ := c.showSat_frame (64 * t + j) (c.mixBlock (64 * t + j) rs).2
  have shown := c.writes_showSat (64 * t + j) (c.mixBlock (64 * t + j) rs).2
  obtain ⟨tiles, kept⟩ := (c.showSat (64 * t + j) (c.mixBlock (64 * t + j) rs).2).keepBlock_frame t (64 * t + j)
    (c.mixBlock (64 * t + j) rs).1
  have output : Chip.mixOutput t rs c j = _ := kept
  rw [output]
  refine ⟨shown.updMix _, fun f hf => (shown.updMix _).rd f ?_, ?_, ?_, aud⟩
  · simpa using ⟨(sumFields_key_ne f hf).1, (sumFields_key_ne f hf).2 _⟩
  · exact (congrArg MixX.applied mix :)
  · exact (congrArg MixX.poison mix :)

/-- What one output shows and keeps of its own, and of every other output. -/
theorem Chip.mixOutput_shows (c : Chip) (t : Nat) (rs : List Ramp) (j : Nat) :
    (Chip.mixOutput t rs c j).rd (Mix.sat.nth (64 * t + j)) = b2n (c.mixBlock (64 * t + j) rs).2 ∧
    ((c.mixBlock (64 * t + j) rs).1.all (fun y => y = 0) = false →
      Store.get [] ((Chip.mixOutput t rs c j).tile t).mixed (64 * t + j) = (c.mixBlock (64 * t + j) rs).1) ∧
    ∀ p, p ≠ 64 * t + j → Store.get [] ((Chip.mixOutput t rs c j).tile t).mixed p = Store.get [] (c.tile t).mixed p := by
  refine ⟨?_, Chip.mixed_keepBlock_self _ t _, fun p hp => ?_⟩
  · obtain ⟨tiles, kept⟩ := (c.showSat (64 * t + j) (c.mixBlock (64 * t + j) rs).2).keepBlock_frame t (64 * t + j)
      (c.mixBlock (64 * t + j) rs).1
    rw [Chip.mixOutput, kept, Chip.rd_updMix]
    exact c.rd_sat_showSat (64 * t + j) _
  · rw [Chip.mixOutput, Chip.mixed_keepBlock_ne _ t hp, Chip.tile_congr (c.showSat_frame _ _).1]

theorem Chip.mixed_mixOutputs (c : Chip) (t : Nat) (rs : List Ramp) (k : Nat) : Chip.Mixed t rs k c (c.mixOutputs t rs k) := by
  induction k with
  | zero =>
    exact ⟨Chip.Writes.refl c, ⟨fun _ _ => rfl, rfl, rfl, rfl⟩, fun j hj => absurd hj j.not_lt_zero,
      fun j hj => absurd hj j.not_lt_zero⟩
  | succ k ih =>
    rw [Chip.mixOutputs_succ]
    generalize c.mixOutputs t rs k = d at ih ⊢
    obtain ⟨before, alike, sat, mixed⟩ := ih
    obtain ⟨writes, same⟩ := d.mixOutput_frame t rs k
    obtain ⟨ownSat, ownBlock, others⟩ := d.mixOutput_shows t rs k
    rw [alike.mixBlock] at ownSat ownBlock
    have own : [Mix.satCnt, Mix.sat.nth (64 * t + k)] ⊆ satFields t (k + 1) := by
      simpa using ⟨List.mem_cons_self, mem_satFields k.lt_succ_self⟩
    refine ⟨(before.mono (satFields_subset k.le_succ)).trans (writes.mono own), alike.trans same, fun j hj => ?_,
      fun j hj nonzero => ?_⟩
    all_goals rcases Nat.lt_succ_iff_lt_or_eq.mp hj with earlier | rfl
    · rw [writes.rd _ ?_, sat j earlier]
      simpa using ⟨(satCnt_key_ne_sat _).symm, sat_key_ne (by omega)⟩
    · exact ownSat
    · rw [others _ (by omega)]
      exact mixed j earlier nonzero
    · exact ownBlock nonzero

/-! ## A tile's period (R14, R209) -/

/-- The words that a tile hands to its retimer: the block of each output, zeros where none is listed. -/
def Chip.tileWords (c : Chip) (t : Nat) : List Nat :=
  (List.range 64).flatMap (fun j =>
    let b := Store.get [] (c.tile t).mixed (64 * t + j)
    if b = [] then List.replicate c.periodLen 0 else b.map (ofSigned 32))

/-- A tile has mixed its period and fills its retimer block. -/
def Chip.tileDone (c : Chip) (t : Nat) : Chip :=
  (c.updTile t (fun x => { x with ran := true })).fillBlock (.tile (Fin.ofNat 64 t)) (c.tileWords t)

theorem Chip.tile_tileDone (c : Chip) (t : Nat) : (c.tileDone t).tile t = { c.tile t with ran := true } := c.tile_updTile_self t _

/-- A tile that has not run yet mixes its outputs while the engine runs. -/
theorem gives_mixTilePeriod {s : State} {i : Fin 64} {e : Fin 262144} {ecc : MemRead} {P : State → Prop} (hs : s.Runs)
    (run : s.c.on Mix.run = true) (isOpen : s.c.aud.isOpen = true) (ran : (s.c.tile i).ran = false)
    (good : ecc.syn.toNat % 256 = 0 ∨ oneBit (ecc.syn.toNat % 256) = true)
    (hP : P { s with c := (((s.c.start.tileReads i e ecc).mixOutputs i (s.c.tile i).ramps 64).tileDone i).settle }) :
    Gives (.mixTilePeriod i e ecc) s P := by
  have runs : s.c.start.on Mix.run = true := run
  have unmixed : (s.c.start.tile i).ran = false := ran
  have mixes : ¬((!s.c.start.on Mix.run) = true ∨ (!s.c.start.aud.isOpen) = true ∨ (s.c.start.tile i).ran = true) := by
    simp [runs, isOpen, unmixed]
  have ramps : ((s.c.start.tileReads i e ecc).tile i).ramps = (s.c.tile i).ramps :=
    congrArg MixTile.ramps (Chip.tile_congr (s.c.start.onlyCollects_tileReads i e good).mix i)
  refine gives_of_body hs (exec_mixTilePeriod i e ecc s) ((if_neg mixes).trans ?_) hP
  rw [← ramps]
  rfl

/-! ## The statement -/

/-- Settles O23: a batch opens, is committed on a running and on a stopped engine, and is discarded; a tile mixes its outputs one after
another, none of which changes what the sums of the next ones depend on. -/
theorem gainBatches : Obligations.GainBatches := by
  unfold Obligations.GainBatches
  intro s
  refine ⟨?_, ?_, ?_, ?_, ?_⟩
  · intro m hs commit batch
    refine gives_of_body hs.1 (exec_batchOpen m s) ((guarded_allows s m _ _ _ _ true _ hs).trans (Chip.batchOpen_idle commit batch)) ?_
    refine ⟨?_, ?_, ?_, ?_, congrArg MixX.staged (Chip.mix_settle _),
      (((((Chip.Writes.refl _).wr (by simp) 1).wr (by simp) 1).wr (by simp) 0).wr (by simp) 0).updMix _ |>.confined⟩
    all_goals rw [Chip.rd_settle_mix _ rfl, Chip.rd_updMix]
    · rw [Chip.rd_wr_ne _ _ (by decide), Chip.rd_wr_ne _ _ (by decide), Chip.rd_wr_ne _ _ (by decide), Chip.rd_wr_self]
      rfl
    · rw [Chip.rd_wr_ne _ _ (by decide), Chip.rd_wr_ne _ _ (by decide), Chip.rd_wr_self]
      rfl
    · rw [Chip.rd_wr_ne _ _ (by decide), Chip.rd_wr_self]
      rfl
    · rw [Chip.rd_wr_self]
      rfl
  · intro m hs batch fits run
    refine gives_of_body hs.1 (exec_batchCommit m s)
      ((trigger_allows s m _ _ _ true _ hs).trans (Chip.batchCommit_running batch fits run)) ?_
    refine ⟨?_, ?_, ?_, congrArg MixX.batch (Chip.mix_settle _), (congrArg MixX.gain (Chip.mix_settle _)).trans rfl,
      ((((Chip.Writes.refl _).wr (by simp) 0).wr (by simp) 1).wr (by simp) 2).updMix _ |>.confined⟩
    all_goals rw [Chip.rd_settle_mix _ rfl, Chip.rd_updMix]
    · rw [Chip.rd_wr_ne _ _ (by decide), Chip.rd_wr_ne _ _ (by decide), Chip.rd_wr_self]
      rfl
    · rw [Chip.rd_wr_ne _ _ (by decide), Chip.rd_wr_self]
      rfl
    · rw [Chip.rd_wr_self]
      rfl
  · intro m hs batch fits run
    refine gives_of_body hs.1 (exec_batchCommit m s)
      ((trigger_allows s m _ _ _ true _ hs).trans (Chip.batchCommit_stopped batch fits run)) ?_
    refine ⟨?_, (Chip.rd_settle_mix _ rfl).trans (Chip.rd_bCode_batchStarted _), Chip.bit_settle_mix _ 2,
      congrArg MixX.gain (Chip.mix_settle _), ?_⟩
    · rw [Chip.rd_settle_mix _ rfl, Chip.rd_batch_batchStarted, Chip.rd_gainNow, Chip.rd_wr_self]
      rfl
    · exact ((((Chip.Writes.refl _).wr (by simp) 0).gainNow _).batchStarted (by simp) (by simp) List.mem_cons_self).confined
  · intro m hs batch
    refine gives_of_body hs.1 (exec_batchDiscard m s) ((trigger_allows s m _ _ _ true _ hs).trans (Chip.batchDiscard_open batch)) ?_
    refine ⟨?_, ?_, congrArg MixX.staged (Chip.mix_settle _), (congrArg MixX.gain (Chip.mix_settle _)).trans rfl,
      (((Chip.Writes.refl _).wr (by simp) 0).wr (by simp) 6).updMix _ |>.confined⟩
    all_goals rw [Chip.rd_settle_mix _ rfl, Chip.rd_updMix]
    · rw [Chip.rd_wr_ne _ _ (by decide), Chip.rd_wr_self]
      rfl
    · rw [Chip.rd_wr_self]
      rfl
  · intro i e ecc hs run isOpen ran good
    refine gives_mixTilePeriod hs run isOpen ran good ?_
    have reads := s.c.start.onlyCollects_tileReads i e good
    have mixed := (s.c.start.tileReads i e ecc).mixed_mixOutputs i (s.c.tile i).ramps 64
    generalize s.c.start.tileReads i e ecc = c at reads mixed ⊢
    generalize c.mixOutputs i (s.c.tile i).ramps 64 = d at mixed ⊢
    have tile : (d.tileDone i).settle.tile i = { d.tile i with ran := true } :=
      (Chip.tile_settle _ _).trans (d.tile_tileDone i)
    have block (o : Nat) : c.mixBlock o (s.c.tile i).ramps = s.c.mixBlock o (s.c.tile i).ramps := reads.sumsAlike.mixBlock o _
    refine ⟨congrArg MixTile.ran tile, fun j => ⟨?_, fun nonzero => ?_⟩, ?_⟩
    · rw [Chip.rd_settle _ (Fld.nth_ok (by decide) (by decide) (by simp only [Mix.sat]; omega)) rfl, ← block]
      exact mixed.sat j j.isLt
    · rw [tile, ← block]
      exact mixed.mixed j j.isLt (by rw [block]; exact nonzero)
    · refine Confined.of_body (fun f _ _ hf => (mixed.writes.rd f hf).trans ?_)
        (fun p hr hp => (mixed.writes.sticky p hp).trans (reads.sticky p hr))
      rw [Chip.rd, reads.flds, Chip.rd]
      rfl

end Sys2Proof.Machine
end

section
/-! SUPPORT. Gain writes: their turn at the port, the outcomes of a write of one entry, and the write that has been withheld longest
(O22). -/

namespace Sys2Proof.Machine

/-! ## The commands' own meanings -/

theorem exec_gainWrite (m : Master) (off : BitVec 25) (data : List (BitVec 8)) (s : State) :
    exec (.gainWrite m off data) s = execGainWrite m off data s := rfl
theorem exec_gainWriteAccept (s : State) : exec .gainWriteAccept s = execGainWriteAccept s := rfl

/-! ## What the fabric shows of an answer -/

/-- Between two machines only what waits for answers differs, and fields and sticky words that a reaction may write too. -/
structure Chip.OnlyAnswers (c d : Chip) : Prop where
  rd : ∀ f : Fld, f.ok = true → reacts f.page = false → d.rd f = c.rd f
  sticky : ∀ p, reactsSticky p = false → d.stickyWord p = c.stickyWord p
  mix : d.mix = c.mix

theorem Chip.OnlyAnswers.refl (c : Chip) : Chip.OnlyAnswers c c := ⟨fun _ _ _ => rfl, fun _ _ => rfl, rfl⟩

theorem Chip.OnlyAnswers.trans {a b c : Chip} (h : Chip.OnlyAnswers a b) (k : Chip.OnlyAnswers b c) : Chip.OnlyAnswers a c :=
  ⟨fun f hf hp => (k.rd f hf hp).trans (h.rd f hf hp), fun p hp => (k.sticky p hp).trans (h.sticky p hp), k.mix.trans h.mix⟩

theorem Chip.onlyAnswers_setFlight (c : Chip) (l : List (Nat × Nat)) : Chip.OnlyAnswers c (c.setFlight l) :=
  ⟨(settled_setFlight c l).rd, (settled_setFlight c l).stickyWord, (settled_setFlight c l).mix⟩

@[simp] theorem Chip.showFlightOf_reports (c : Chip) (m : Nat) : (c.showFlightOf m).reports = c.reports := rfl
@[simp] theorem Chip.showFlightOf_inFlight (c : Chip) (m : Nat) : (c.showFlightOf m).inFlight = c.inFlight := rfl

theorem Chip.setFlight_reports (c : Chip) (l : List (Nat × Nat)) : (c.setFlight l).reports = c.reports := by simp [Chip.setFlight]
theorem Chip.setFlight_inFlight (c : Chip) (l : List (Nat × Nat)) : (c.setFlight l).inFlight = l := by simp [Chip.setFlight]

theorem Chip.onlyAnswers_oneResponse (c : Chip) (f : Nat × Nat) (r : Resp) (data : List Nat) :
    Chip.OnlyAnswers c (c.oneResponse f r data) := by
  have sent : Chip.OnlyAnswers c ({ c with resp := r, rdata := data }.emit (.response f.1 f.2 r data)) :=
    ⟨fun _ _ _ => rfl, fun _ _ => rfl, rfl⟩
  rw [Chip.oneResponse]
  exact sent.trans (Chip.onlyAnswers_setFlight _ _)

theorem Chip.onlyAnswers_returnFlight (c : Chip) (f : Nat × Nat) (r : Resp) : Chip.OnlyAnswers c (c.returnFlight f r) := by
  unfold Chip.returnFlight
  split
  · have taken : Chip.OnlyAnswers c { c with served := (servedAfter f 1 c.served).1 } := ⟨fun _ _ _ => rfl, fun _ _ => rfl, rfl⟩
    exact List.foldlRecOn (motive := Chip.OnlyAnswers c) _ _ (taken.trans (Chip.onlyAnswers_oneResponse _ f r []))
      fun d hd x _ => hd.trans (d.onlyAnswers_oneResponse f x.resp x.data)
  · exact Chip.OnlyAnswers.refl c

theorem Chip.onlyAnswers_answerFlight (c : Chip) (f : Nat × Nat) : Chip.OnlyAnswers c (c.answerFlight f) := by
  unfold Chip.answerFlight
  split
  · exact ⟨fun _ _ _ => rfl, fun _ _ => rfl, rfl⟩
  · exact c.onlyAnswers_returnFlight f .okay

/-- What an effect writes beside registers that a reaction may write confines the command, whatever is answered. -/
theorem Chip.Writes.confined_answered {gs hs : List Fld} {ps : List Nat} {s : State} {b d : Chip} (h : Chip.Writes gs ps s.c.start b)
    (k : Chip.OnlyAnswers b d) (hg : ∀ g ∈ gs, g ∈ hs ∨ (g.ok = true ∧ reacts g.page = true)) :
    Confined hs ps s { s with c := d.settle } := by
  refine Confined.of_body (fun f hf hr hn => (k.rd f hf hr).trans (h.rd f fun g m => ?_))
    (fun p hr hp => (k.sticky p hr).trans (h.sticky p hp))
  rcases hg g m with named | ⟨hok, hpage⟩
  · exact hn g named
  · exact Fld.key_ne hf hok (.inr (.inl fun e => by rw [e, hpage] at hr; exact absurd hr (by decide)))

/-! ## A gain write at its port (R431, R432) -/

/-- The peaks of the masters' transactions in flight, which the ports show. -/
def portPeaks : List Fld := (List.range 6).map Cfab.outPeak.nth

theorem outPeak_mem_portPeaks (m : Master) : Cfab.outPeak.nth (masterNum m) ∈ portPeaks :=
  List.mem_map_of_mem (List.mem_range.mpr (by cases m <;> decide))

/-- A reaction to a fault may write the peaks as well. -/
theorem portPeaks_react : ∀ g ∈ portPeaks, g.ok = true ∧ reacts g.page = true := by decide

/-- The peak of a master's transactions in flight with one more of them. -/
def Chip.nextPeak (c : Chip) (m : Master) : Nat :=
  max (c.rd (Cfab.outPeak.nth (masterNum m))) (((c.inFlight.filter (fun p => p.1 = masterNum m)).map Prod.snd).length + 1)

/-- A request that its port takes is served, the peak of its master's transactions being shown; it is answered at once, or stays in
flight where its response is withheld. -/
theorem transact_taken {s : State} {m : Master} {id : Nat} {write : Bool} (h : s.PortTakes m id write) (runs : s.c.masterRuns m = true)
    (mem : Mem) (addr : Nat) (f : Chip → Chip × Mem) :
    s.c.start.transact mem m addr id write f =
      (let r := f (s.c.start.wr (Cfab.outPeak.nth (masterNum m)) (s.c.start.nextPeak m))
       (if r.1.resp = .withheld then s.c.start.staysInFlight r.1 (masterNum m) id else r.1, r.2)) := by
  obtain ⟨free, fewIds, first⟩ := h
  have started : s.c.start.masterRuns m = true := runs
  have open_ : s.c.start.portHeld (masterNum m) write = false := free
  simp only [Chip.transact, Chip.nextPeak, started, open_, Nat.not_lt.mpr fewIds, first, Chip.start_inFlight, Bool.false_eq_true, and_false,
    if_false, if_true, List.length_nil, inOrder_first]
  rfl

/-- The machine as a write of master `m` is served: the peak of the master's transactions is shown, and the answer so far is OKAY. -/
def Chip.portServes (c : Chip) (m : Master) : Chip :=
  { c.wr (Cfab.outPeak.nth (masterNum m)) (c.nextPeak m) with resp := .okay, rdata := [] }

theorem Chip.Writes.portServes {gs : List Fld} {ps : List Nat} {a b : Chip} (h : Chip.Writes gs ps a b) {m : Master}
    (hm : Cfab.outPeak.nth (masterNum m) ∈ gs) : Chip.Writes gs ps a (b.portServes m) :=
  ⟨(h.wr hm (b.nextPeak m)).rd, (h.wr hm (b.nextPeak m)).sticky⟩

theorem Chip.rd_portServes (c : Chip) (m : Master) {f : Fld} (apart : (decide (f.lo < 32) && decide (f.lo ≠ 17)) = true) :
    (c.portServes m).rd f = c.rd f := by
  simp only [Bool.and_eq_true, decide_eq_true_eq] at apart
  exact c.rd_wr_ne_lo _ (by simp [Cfab.outPeak, Fld.nth, apart])

/-- A peak that is shown changes nothing about whether a write of a table may be made here and now. -/
theorem Chip.portServes_rights (c : Chip) (m : Master) (off : Nat) :
    (c.portServes m).mayWrite m mixPage 1 1048576 0 = c.mayWrite m mixPage 1 1048576 0 ∧
    (c.portServes m).ignoresMirrored = c.ignoresMirrored ∧ (c.portServes m).mirrors = c.mirrors ∧
    (c.portServes m).bar2Off off = c.bar2Off off := by
  have state : (c.portServes m).pairState = c.pairState := by
    rw [Chip.pairState, c.rd_portServes m rfl, Chip.pairState]
    rfl
  refine ⟨?_, ?_, ?_, ?_⟩
  · cases m
    case mspi => simp only [Chip.mayWrite, Chip.on, Chip.rd_portServes _ _ (f := Mgmt.mspiWr) rfl,
      Chip.rd_portServes _ _ (f := Mgmt.mspiCmd) rfl]
    case bi2c => simp only [Chip.mayWrite, Chip.on, Chip.rd_portServes _ _ (f := Mgmt.bi2cCmd) rfl]
    all_goals rfl
  · simp only [Chip.ignoresMirrored, Chip.isStandby, state]
  · rw [Chip.mirrors, state, c.rd_portServes m rfl, Chip.mirrors]
  · have cluster (k : Nat) : (c.portServes m).cluster k = c.cluster k := c.rd_portServes m rfl
    simp only [Chip.bar2Off, Chip.memoryOff, cluster]

/-- A served gain write: one that is not of whole entries is ignored (R214), another one is taken when its clusters have left their
sleep (R471). -/
def Chip.takesGain (c : Chip) (off : BitVec 25) (data : List (BitVec 8)) : Chip :=
  if off.toNat % 2 = 1 ∨ data.length % 2 = 1 ∨ data.length = 0 then c.stick mixPage 6
  else (c.bar2Exit off.toNat).gainTake (gainEntries off.toNat (data.map BitVec.toNat))

/-- A permitted gain write that its port takes is served and answered, or stays in flight. -/
theorem gives_gainWrite {s : State} {m : Master} {off : BitVec 25} {data : List (BitVec 8)} {P : State → Prop}
    (hs : s.Allows m 1 mixPage 1048576 0 true) (port : s.PortTakes m 0 true) (awake : s.c.bar2Off off.toNat = false)
    (hP : P { s with c := (if ((s.c.start.portServes m).takesGain off data).resp = .withheld
      then s.c.start.staysInFlight ((s.c.start.portServes m).takesGain off data) (masterNum m) 0
      else (s.c.start.portServes m).takesGain off data).settle }) : Gives (.gainWrite m off data) s P := by
  obtain ⟨hr, runs, may, seen, mirrored⟩ := hs
  obtain ⟨active, alone⟩ := mirrored rfl
  obtain ⟨sameMay, sameActive, sameAlone, sameAwake⟩ := s.c.start.portServes_rights m off.toNat
  have closed : (s.c.start.wr (Cfab.outPeak.nth (masterNum m)) (s.c.start.nextPeak m)).debugOpen m =
      s.c.start.wr (Cfab.outPeak.nth (masterNum m)) (s.c.start.nextPeak m) := Chip.debugOpen_seen _ m seen
  have peak : { s.c.start.wr (Cfab.outPeak.nth (masterNum m)) (s.c.start.nextPeak m) with resp := .okay, rdata := [] } =
      s.c.start.portServes m := rfl
  have started : (s.c.start.portServes m).masterRuns m = true := runs
  refine gives_of_body hr (exec_gainWrite m off data s) ((congrArg Prod.fst (transact_taken port runs _ _ _)).trans ?_) hP
  simp only [closed, peak, started, sameAwake.trans awake, sameMay.trans may, sameActive.trans active, sameAlone.trans alone, Bool.not_true,
    Bool.false_eq_true, if_false]
  rfl

/-! ## The memory of the gain table (R471) -/

/-- The crosspoints of four tiles stand in one cluster of the mix engine. -/
theorem clustersOfWord_gain (n : Nat) : clustersOfWord mixPage (1048576 + n) = [8 + 2 * n / 262144 / 16] := by
  have beyond : ¬1048576 + n < 4096 := by omega
  simp [clustersOfWord, mixPage, vinPage, vpktPage, xptPage, amapPage, beyond]

/-- A gain write brings at most the cluster of its crosspoint to RUN. -/
theorem Chip.bar2Exit_cases (c : Chip) (off : BitVec 25) :
    c.bar2Exit off.toNat = c ∨ ∃ k < 64, c.bar2Exit off.toNat = c.wr (Pwr.clState.nth k) 0 := by
  have small : off.toNat < 0x02000000 := off.isLt
  rw [Chip.bar2Exit, if_pos small, Chip.memoryExit, clustersOfWord_gain, List.filter_cons, List.filter_nil]
  split
  · exact .inr ⟨_, by omega, rfl⟩
  · exact .inl rfl

/-- What serving a gain write may write before it is taken: peaks of the ports, and states of clusters. -/
def gainTurnFields : List Fld := portPeaks ++ clusterStates

/-- Between two machines only a gain write has been served as far as its memory: the mix engine stands, the answer so far is OKAY, and
nothing has been reported. -/
structure Chip.ReachesGain (c d : Chip) : Prop where
  writes : Chip.Writes gainTurnFields [] c d
  mix : d.mix = c.mix
  inFlight : d.inFlight = c.inFlight
  resp : d.resp = .okay
  reports : d.reports = c.reports

theorem Chip.reachesGain (c : Chip) (m : Master) (off : BitVec 25) :
    Chip.ReachesGain c ((c.portServes m).bar2Exit off.toNat) := by
  have served : Chip.Writes gainTurnFields [] c (c.portServes m) :=
    (Chip.Writes.refl c).portServes (List.mem_append_left _ (outPeak_mem_portPeaks m))
  rcases (c.portServes m).bar2Exit_cases off with e | ⟨k, hk, e⟩
  · rw [e]
    exact ⟨served, rfl, rfl, rfl, rfl⟩
  · rw [e]
    exact ⟨served.wr (List.mem_append_right _ (List.mem_map_of_mem (List.mem_range.mpr hk))) 0, rfl, rfl, rfl, rfl⟩

/-- The registers that decide about a gain write are no part of what its turn writes. -/
theorem mixFields_key_ne : ∀ f ∈ [Mix.batch, Mix.run, Sched.fs], ∀ g ∈ gainTurnFields, f.key ≠ g.key := by decide

/-- The output entries stand behind all of it in the order of keys. -/
theorem gainTurnFields_lt_ramp : ∀ g ∈ gainTurnFields, g.key < Mix.ramp.key := by decide

theorem Chip.ReachesGain.on {c d : Chip} (h : Chip.ReachesGain c d) {f : Fld} (hf : f ∈ [Mix.batch, Mix.run, Sched.fs]) :
    d.on f = c.on f := by
  rw [Chip.on, h.writes.rd f (mixFields_key_ne f hf), Chip.on]

/-- Whether there is room for a write is the same when its turn has come. -/
theorem Chip.ReachesGain.hasRoom {c d : Chip} (h : Chip.ReachesGain c d) (es : List (Nat × Nat)) : d.hasRoom es = c.hasRoom es := by
  have tile : d.tile = c.tile := funext (Chip.tile_congr h.mix)
  have inputs : d.xpIn = c.xpIn := funext fun e => by rw [Chip.xpIn, Chip.nIn, h.on (by simp), Chip.xpIn, Chip.nIn]
  have ramp : d.rampOf = c.rampOf := funext fun e => h.writes.rd _ fun g hg => by
    have := gainTurnFields_lt_ramp g hg
    rw [Fld.key_nth]
    omega
  simp only [Chip.hasRoom, Chip.needsRoom, Chip.newAccepted, tile, inputs, ramp, h.mix]
  rfl

/-! ## The outcomes of a write of one entry (R211, R214, R217, R218) -/

theorem gainEntries_pair (off : Nat) (a b : BitVec 8) :
    gainEntries off ([a, b].map BitVec.toNat) = [(off / 2, a.toNat + 256 * b.toNat)] := by
  simp only [List.map_cons, List.map_nil, gainEntries, Nat.mod_eq_of_lt a.isLt, Nat.mod_eq_of_lt b.isLt]

/-- An aligned write of two bytes is a write of one entry. -/
theorem Chip.takesGain_pair (c : Chip) {off : BitVec 25} (even : off.toNat % 2 = 0) (a b : BitVec 8) :
    c.takesGain off [a, b] = (c.bar2Exit off.toNat).gainTake [(off.toNat / 2, a.toNat + 256 * b.toNat)] := by
  rw [Chip.takesGain, if_neg (by simp [even]), gainEntries_pair]

theorem Chip.takesGain_partial (c : Chip) {off : BitVec 25} {data : List (BitVec 8)} (odd : off.toNat % 2 = 1 ∨ data.length % 2 = 1) :
    c.takesGain off data = c.stick mixPage 6 := if_pos (odd.imp_right .inl)

section
variable {c : Chip} {e w : Nat}

theorem Chip.gainTake_stopped {es : List (Nat × Nat)} (batch : c.on Mix.batch = false) (run : c.on Mix.run = false) :
    c.gainTake es = c.gainNow (es.filter (fun p => p.1 < 16777216)) := by
  simp [Chip.gainTake, batch, run]

theorem Chip.gainTake_stopped_entry (entry : e < 16777216) (batch : c.on Mix.batch = false) (run : c.on Mix.run = false) :
    c.gainTake [(e, w)] = c.gainNow [(e, w)] := by
  rw [Chip.gainTake_stopped batch run]
  simp [entry]

/-- A write into an open batch: it is listed and counted. -/
def Chip.stagesWrite (c : Chip) (e w : Nat) : Chip :=
  (c.updMix (fun x => { x with staged := (e, w) :: x.staged, count := x.count + 1 })).wr Mix.bCount (c.mix.count + 1)

theorem Chip.gainTake_staged (entry : e < 16777216) (batch : c.on Mix.batch = true) (room : c.mix.count < 65536) :
    c.gainTake [(e, w)] = c.stagesWrite e w := by
  have one : [(e, w)].take (65536 - c.mix.count) = [(e, w)] := List.take_of_length_le (by simp only [List.length_singleton]; omega)
  have within : min 65536 (c.mix.count + 1) = c.mix.count + 1 := by omega
  simp [Chip.gainTake, Chip.stagesWrite, Chip.updMix, entry, batch, one, within]

/-- A change accepted for the coming boundary: the target stands at once, and no read error stands in its entry any more. -/
def Chip.acceptsChange (c : Chip) (e w : Nat) : Chip :=
  c.updMix (fun x => { x with gain := Store.set 0 x.gain e w, accepted := x.accepted ++ [(e, w)],
                              poison := x.poison.filter (fun q => !decide (e = q)) })

theorem Chip.gainTake_accepted (entry : e < 16777216) (batch : c.on Mix.batch = false) (run : c.on Mix.run = true)
    (change : Store.get 0 c.mix.gain e ≠ w) (room : c.hasRoom [(e, w)] = true) : c.gainTake [(e, w)] = c.acceptsChange e w := by
  simp [Chip.gainTake, Chip.acceptsChange, Chip.updMix, entry, batch, run, change, room]

/-- A write that waits for room, with the transaction that waits for it. -/
def Chip.withholds (c : Chip) (es : List (Nat × Nat)) (flight : Option (Nat × Nat)) : Chip :=
  { c.updMix (fun x => { x with withheld := x.withheld ++ [{ es := es, flight := flight }] }) with resp := .withheld }

theorem Chip.Writes.withholds {gs : List Fld} {ps : List Nat} {a b : Chip} (h : Chip.Writes gs ps a b) (es : List (Nat × Nat))
    (flight : Option (Nat × Nat)) : Chip.Writes gs ps a (b.withholds es flight) := ⟨h.rd, h.sticky⟩

theorem Chip.resp_withholds (c : Chip) (es : List (Nat × Nat)) (flight : Option (Nat × Nat)) :
    (c.withholds es flight).resp = .withheld := rfl

theorem Chip.gainTake_withheld (entry : e < 16777216) (batch : c.on Mix.batch = false) (run : c.on Mix.run = true)
    (change : Store.get 0 c.mix.gain e ≠ w) (full : c.hasRoom [(e, w)] = false) : c.gainTake [(e, w)] = c.withholds [(e, w)] none := by
  simp [Chip.gainTake, Chip.withholds, entry, batch, run, change, full]

/-- The write that a transaction leaves waiting knows the transaction, which stays in flight. -/
theorem Chip.staysInFlight_withholds {d : Chip} (h : d.mix = c.mix) (es : List (Nat × Nat)) (k id : Nat) :
    c.staysInFlight (d.withholds es none) k id = (d.withholds es (some (k, id))).setFlight (d.inFlight ++ [(k, id)]) := by
  have more : c.mix.withheld.length < (d.withholds es none).mix.withheld.length := by
    simp [Chip.withholds, Chip.updMix, h]
  have known : (d.withholds es none).withheldFlight (k, id) = d.withholds es (some (k, id)) := by
    simp [Chip.withheldFlight, Chip.withholds, Chip.updMix]
  rw [Chip.staysInFlight, if_pos more, known]
  rfl

end

/-! ## The write that has been withheld longest (R217) -/

/-- The index of `TW_DATA` moves on where the write was made through it. -/
def Chip.moveIndex (c : Chip) (tw : Option Nat) : Chip :=
  match tw with
  | some k => c.indexNext k mixPage
  | none => c

/-- The response of the write's transaction returns. -/
def Chip.answerWrite (c : Chip) (flight : Option (Nat × Nat)) : Chip :=
  match flight with
  | some f => c.answerFlight f
  | none => c

theorem Chip.WritesOn.moveIndex {ps : List Nat} {a b : Chip} (h : Chip.WritesOn ps a b) (hp : mixPage ∈ ps) (tw : Option Nat) :
    Chip.WritesOn ps a (b.moveIndex tw) := by
  cases tw with
  | none => exact h
  | some k =>
    simp only [Chip.moveIndex, Chip.indexNext]
    split
    · exact h.wr (f := twIndex k mixPage) rfl hp _
    · exact h

theorem Chip.mix_moveIndex (c : Chip) (tw : Option Nat) : (c.moveIndex tw).mix = c.mix := by
  cases tw with
  | none => rfl
  | some k =>
    simp only [Chip.moveIndex, Chip.indexNext]
    split <;> rfl

theorem Chip.onlyAnswers_answerWrite (c : Chip) (flight : Option (Nat × Nat)) : Chip.OnlyAnswers c (c.answerWrite flight) := by
  cases flight with
  | none => exact Chip.OnlyAnswers.refl c
  | some f => exact c.onlyAnswers_answerFlight f

/-- On a stopped engine the write `w` waits no longer, `rest` does, and its entries take effect at once. -/
def Chip.acceptsNow (c : Chip) (w : Withheld) (rest : List Withheld) : Chip :=
  (c.updMix (fun x => { x with withheld := rest })).gainNow (w.es.filter (fun p => p.1 < 16777216))

/-- All that the acceptance of `w` on a stopped engine does. -/
def Chip.acceptsWithheld (c : Chip) (w : Withheld) (rest : List Withheld) : Chip :=
  ((c.acceptsNow w rest).moveIndex w.tw).answerWrite w.flight

theorem gives_gainWriteAccept {s : State} {w : Withheld} {rest : List Withheld} {P : State → Prop} (hs : s.Runs)
    (first : s.c.mix.withheld = w :: rest) (batch : s.c.on Mix.batch = false) (run : s.c.on Mix.run = false)
    (hP : P { s with c := (s.c.start.acceptsWithheld w rest).settle }) : Gives .gainWriteAccept s P := by
  have waits : s.c.start.mix.withheld = w :: rest := first
  have stopped : s.c.start.on Mix.run = false := run
  have now := Chip.gainTake_stopped (c := s.c.start.updMix (fun x => { x with withheld := rest })) (es := w.es) batch run
  refine gives_of_body hs (exec_gainWriteAccept s) ?_ hP
  simp only [waits, stopped, Bool.not_false, true_or, or_true, if_true, now]
  rfl

/-! ## The statement -/

/-- What a gain write's turn writes is confined to the states of clusters: a reaction may write the ports' peaks as well. -/
theorem gainTurnFields_cases : ∀ g ∈ gainTurnFields, g ∈ clusterStates ∨ (g.ok = true ∧ reacts g.page = true) := fun g hg =>
  (List.mem_append.mp hg).symm.imp_right (portPeaks_react g)

section
variable {s : State} {m : Master} {off : BitVec 25} {a b : BitVec 8} {P : State → Prop} (hs : s.Allows m 1 mixPage 1048576 0 true)
  (port : s.PortTakes m 0 true) (awake : s.c.bar2Off off.toNat = false) (even : off.toNat % 2 = 0)
include hs port awake even

/-- A write of one entry that is taken at once, wherever its turn reaches the memory of the gain table, is answered with OKAY. -/
theorem gives_gainWrite_answered {f : Chip → Chip}
    (taken : ∀ d, Chip.ReachesGain s.c.start d → d.gainTake [(off.toNat / 2, a.toNat + 256 * b.toNat)] = f d)
    (okay : ∀ d, (f d).resp = d.resp)
    (hP : ∀ d, Chip.ReachesGain s.c.start d → (f d).settle.resp = .okay → P { s with c := (f d).settle }) :
    Gives (.gainWrite m off [a, b]) s P := by
  refine gives_gainWrite hs port awake ?_
  have reached := s.c.start.reachesGain m off
  have answered := (okay _).trans reached.resp
  rw [Chip.takesGain_pair _ even, taken _ reached, if_neg (by rw [answered]; decide)]
  exact hP _ reached ((settled _).resp.trans answered)

/-- One that finds no room waits, and its transaction stays in flight. -/
theorem gives_gainWrite_withheld
    (taken : ∀ d, Chip.ReachesGain s.c.start d → d.gainTake [(off.toNat / 2, a.toNat + 256 * b.toNat)] =
      d.withholds [(off.toNat / 2, a.toNat + 256 * b.toNat)] none)
    (hP : ∀ d, Chip.ReachesGain s.c.start d →
      P { s with c := ((d.withholds [(off.toNat / 2, a.toNat + 256 * b.toNat)] (some (masterNum m, 0))).setFlight
        (d.inFlight ++ [(masterNum m, 0)])).settle }) : Gives (.gainWrite m off [a, b]) s P := by
  refine gives_gainWrite hs port awake ?_
  have reached := s.c.start.reachesGain m off
  rw [Chip.takesGain_pair _ even, taken _ reached, if_pos (Chip.resp_withholds _ _ _), Chip.staysInFlight_withholds reached.mix]
  exact hP _ reached

end

/-- Settles O22: a served gain write of one entry in each of its outcomes, one that is not of whole entries, and the acceptance of a
withheld write on a stopped engine. -/
theorem gainWrites : Obligations.GainWrites := by
  unfold Obligations.GainWrites
  intro s
  have entry (off : BitVec 25) : off.toNat / 2 < 16777216 := by have := off.isLt; omega
  refine ⟨?_, ?_, ?_, ?_, ?_, ?_⟩
  · intro m off a b hs port awake even batch run
    refine gives_gainWrite_answered hs port awake even (fun d reached => Chip.gainTake_stopped_entry (entry off)
      ((reached.on (by simp)).trans batch) ((reached.on (by simp)).trans run)) (fun _ => rfl) fun d reached okay => ?_
    generalize a.toNat + 256 * b.toNat = w at okay ⊢
    have mix : d.mix = s.c.mix := reached.mix
    refine ⟨?_, ?_, fun e he => ?_, okay,
      (reached.writes.gainNow _).confined_answered (Chip.OnlyAnswers.refl _) gainTurnFields_cases⟩
    all_goals rw [Chip.mix_settle]
    · exact Store.get_set_self 0 w (off.toNat / 2) d.mix.gain
    · exact Store.get_set_self 0 w (off.toNat / 2) d.mix.applied
    · rw [← mix]
      exact Store.get_set_ne 0 w d.mix.gain he
  · intro m off a b hs port awake even batch room
    refine gives_gainWrite_answered hs port awake even (fun d reached => Chip.gainTake_staged (entry off)
      ((reached.on (by simp)).trans batch) (by rw [reached.mix]; exact room)) (fun _ => rfl) fun d reached okay => ?_
    generalize a.toNat + 256 * b.toNat = w at okay ⊢
    have mix : d.mix = s.c.mix := reached.mix
    refine ⟨?_, ?_, ?_, okay, Chip.Writes.confined_answered
      (((reached.writes.mono (List.subset_cons_self Mix.bCount _)).updMix _).wr List.mem_cons_self _)
      (Chip.OnlyAnswers.refl (d.stagesWrite (off.toNat / 2) w)) ?_⟩
    · rw [Chip.mix_settle, ← mix]
      rfl
    · rw [Chip.mix_settle, ← mix]
      rfl
    · rw [Chip.rd_settle_mix _ rfl, Chip.stagesWrite, Chip.rd_wr_self, mix]
      exact Nat.mod_eq_of_lt (show s.c.mix.count + 1 < 2 ^ 17 by omega)
    · rintro g hg
      rcases List.mem_cons.mp hg with rfl | turn
      · exact .inl List.mem_cons_self
      · exact (gainTurnFields_cases g turn).imp_left (List.mem_cons_of_mem _)
  · intro m off a b hs port awake even batch run room change
    refine gives_gainWrite_answered hs port awake even (fun d reached => Chip.gainTake_accepted (entry off)
      ((reached.on (by simp)).trans batch) ((reached.on (by simp)).trans run) (by rw [reached.mix]; exact change)
      ((reached.hasRoom _).trans room)) (fun _ => rfl) fun d reached okay => ?_
    generalize a.toNat + 256 * b.toNat = w at okay ⊢
    have mix : d.mix = s.c.mix := reached.mix
    refine ⟨?_, ?_, ?_, okay,
      (reached.writes.updMix _).confined_answered (Chip.OnlyAnswers.refl (d.acceptsChange (off.toNat / 2) w)) gainTurnFields_cases⟩
    all_goals rw [Chip.mix_settle]
    · exact Store.get_set_self 0 w (off.toNat / 2) d.mix.gain
    · rw [← mix]
      rfl
    · rw [← mix]
      rfl
  · intro m off data hs port awake odd
    refine gives_gainWrite hs port awake ?_
    have answered : ((s.c.start.portServes m).stick mixPage 6).resp = .okay := rfl
    rw [Chip.takesGain_partial _ odd, if_neg (by rw [answered]; decide)]
    have marked : Chip.Writes portPeaks [mixPage] s.c.start ((s.c.start.portServes m).stick mixPage 6) :=
      ((Chip.Writes.refl _).portServes (outPeak_mem_portPeaks m)).stick List.mem_cons_self 6
    exact ⟨Chip.mix_settle _, Chip.bit_settle_mix _ 6,
      marked.confined_answered (Chip.OnlyAnswers.refl _) fun g hg => .inr (portPeaks_react g hg)⟩
  · intro m off a b hs port awake even batch run _ full change
    refine gives_gainWrite_withheld hs port awake even (fun d reached => Chip.gainTake_withheld (entry off)
      ((reached.on (by simp)).trans batch) ((reached.on (by simp)).trans run) (by rw [reached.mix]; exact change)
      ((reached.hasRoom _).trans full)) fun d reached => ?_
    generalize a.toNat + 256 * b.toNat = w
    have mix : d.mix = s.c.mix := reached.mix
    have flight := (d.withholds [(off.toNat / 2, w)] (some (masterNum m, 0))).onlyAnswers_setFlight (d.inFlight ++ [(masterNum m, 0)])
    have stands := (Chip.mix_settle _).trans flight.mix
    have quiet : ((d.withholds [(off.toNat / 2, w)] (some (masterNum m, 0))).setFlight (d.inFlight ++ [(masterNum m, 0)])).reports = [] :=
      (Chip.setFlight_reports _ _).trans reached.reports
    have waits : d.inFlight = s.c.inFlight := reached.inFlight
    refine ⟨?_, ?_, (settled _).resp, ?_, ?_⟩
    · rw [stands, ← mix]
      rfl
    · rw [stands, ← mix]
      rfl
    · rw [(idle_settle _ quiet).inFlight, Chip.setFlight_inFlight, waits]
    · exact (reached.writes.withholds _ _).confined_answered flight gainTurnFields_cases
  · intro w rest hs first batch run
    refine gives_gainWriteAccept hs first batch run ?_
    have moved := Chip.WritesOn.moveIndex (ps := [mixPage]) (b := s.c.start.acceptsNow w rest)
      ((Chip.WritesOn.refl s.c.start).keep rfl rfl) List.mem_cons_self w.tw
    have answered := ((s.c.start.acceptsNow w rest).moveIndex w.tw).onlyAnswers_answerWrite w.flight
    have mix : (s.c.start.acceptsWithheld w rest).settle.mix = (s.c.start.acceptsNow w rest).mix :=
      (Chip.mix_settle _).trans (answered.mix.trans (Chip.mix_moveIndex _ _))
    exact ⟨(congrArg MixX.withheld mix).trans rfl, (congrArg MixX.gain mix).trans rfl,
      Within.of_body (fun f hf hr hp => (answered.rd f hf hr).trans (moved.rd f hf hp))
        (fun p hr hp => (answered.sticky p hr).trans (moved.sticky p hr hp))⟩

end Sys2Proof.Machine
end

section
/-! SUPPORT. The slots of one Nova bundle: how their words are read, and what a multiply-accumulate, a load, a comparison and the end of a
loop do (O26). -/

namespace Sys2Proof.Machine

/-! ## The fields of a slot's word (R230, R233) -/

/-- The word of an X slot with an opcode, a destination or accumulator, and two sources. -/
def xWord (op d s1 s2 : Nat) : Nat := 67108864 * op + 4194304 * d + 262144 * s1 + 16384 * s2

theorem bits_xWord (op : Nat) {d s1 s2 : Nat} (hd : d < 16) (h1 : s1 < 16) (h2 : s2 < 16) :
    xWord op d s1 s2 / 2 ^ 26 = op ∧ bits (xWord op d s1 s2) 23 22 = d % 4 ∧ bits (xWord op d s1 s2) 21 18 = s1 ∧
    bits (xWord op d s1 s2) 17 14 = s2 := by
  simp only [xWord, bits, Nat.reducePow, Nat.reduceAdd, Nat.reduceSub]
  omega

/-- The word of a load of G register `r` through pointer `p`, which an immediate moves afterwards. -/
def loadWord (r p d : Nat) : Nat := 0x40000000 + 16777216 * r + 2097152 * p + d

theorem bits_loadWord {r p d : Nat} (hr : r < 16) (hp : p < 8) (hd : d < 65536) :
    loadWord r p d / 2 ^ 30 = 1 ∧ bits (loadWord r p d) 29 28 = 0 ∧ bits (loadWord r p d) 27 24 = r ∧ bits (loadWord r p d) 23 21 = p ∧
    bits (loadWord r p d) 20 19 = 0 ∧ bits (loadWord r p d) 15 0 = d := by
  simp only [loadWord, bits, Nat.reducePow, Nat.reduceAdd, Nat.reduceSub]
  omega

/-! ## What a slot does -/

/-- A MAC adds the product to an accumulator, for multiplies one step later and for reads two (R233, R237). -/
theorem NCore.xSlot_mac (x : NCore) (t : Nat) {w : Nat} (op : w / 2 ^ 26 = 0x21) :
    let sum := acc80 (Store.get 0 x.am (bits w 23 22) + x.gs (bits w 21 18) * x.gs (bits w 17 14))
    x.xSlot t w = ([⟨t + 1, 1, 28 + bits w 23 22, sum⟩, ⟨t + 2, 1, 24 + bits w 23 22, sum⟩], false) := by
  have opcode : w / 67108864 = 0x21 := op
  simp [NCore.xSlot, NCore.mul, NCore.gs, opcode]

/-- A comparison of two registers sends the flags of their difference (R235). -/
theorem NCore.xSlot_cmp (x : NCore) (t : Nat) {w : Nat} (op : w / 2 ^ 26 = 0x15) :
    x.xSlot t w = ([⟨t + 1, 2, 64, cmpFlags (x.gv (bits w 21 18)) (x.gv (bits w 17 14))⟩], false) := by
  have opcode : w / 67108864 = 0x15 := op
  simp [NCore.xSlot, opcode]

/-- The pointers that are never circular move by what is added to them (R231). -/
theorem NCore.post_linear (x : NCore) {i : Nat} (h : i < 6) (p : Nat) (mod : Int) : x.post i p mod = ofSigned 15 ((p : Int) + mod) := by
  simp [NCore.post, Nat.not_le.mpr h]

/-- A load with an immediate post-modify reads at the pointer and moves it, and changes nothing at once (R230, R231). -/
theorem NCore.mSlot_load (x : NCore) (t : Nat) {m : Nat} (form : m / 2 ^ 30 = 1) (load : bits m 29 28 = 0) (mode : bits m 20 19 = 0) :
    x.mSlot t m =
      { x := x
        res := [⟨t + 3, 0, bits m 27 24, x.mv (x.pv (bits m 23 21))⟩,
          ⟨t + 1, 2, 16 + bits m 23 21, x.post (bits m 23 21) (x.pv (bits m 23 21)) (toSigned 16 (bits m 15 0))⟩]
        loads := true
        addrs := [x.pv (bits m 23 21)] } := by
  have immediate : m / 1073741824 = 1 := form
  simp [NCore.mSlot, immediate, load, mode]

/-- With loop 1 idle, the last bundle of loop 0 counts a pass off and goes back to its start (R241). -/
theorem NCore.loopEnd_back {x : NCore} (idle : x.cv 7 = 0) (passes : 2 ≤ x.cv 4) (last : x.pc = x.cv 6) :
    x.loopEnd x.pc = (x.setCr 4 (x.cv 4 - 1), x.cv 5) := by
  have counts : 1 ≤ x.cv 4 := Nat.le_of_succ_le passes
  simp [NCore.loopEnd, idle, passes, counts, ← last]

/-- Settles O26: the words of the four clauses hold the fields that they were built of, and each slot does what its fields say. -/
theorem novaSlots : Obligations.NovaSlots := by
  unfold Obligations.NovaSlots
  intro x t
  refine ⟨fun a s1 s2 ha => ?_, fun r p d hp => ?_, fun s1 s2 => ?_, NCore.loopEnd_back⟩
  · obtain ⟨op, acc, src1, src2⟩ := bits_xWord 0x21 a.isLt s1.isLt s2.isLt
    rw [Nat.mod_eq_of_lt ha] at acc
    have sent := x.xSlot_mac t op
    rwa [acc, src1, src2] at sent
  · obtain ⟨form, load, reg, ptr, mode, imm⟩ := bits_loadWord r.isLt (Nat.lt_of_lt_of_le hp (by decide)) d.isLt
    have sent := x.mSlot_load t form load mode
    rw [reg, ptr, imm, x.post_linear hp] at sent
    exact ⟨congrArg SlotOut.res sent, congrArg SlotOut.x sent⟩
  · obtain ⟨op, -, src1, src2⟩ := bits_xWord 0x15 (d := 0) (by decide) s1.isLt s2.isLt
    have sent := x.xSlot_cmp t op
    rwa [src1, src2] at sent

end Sys2Proof.Machine
end

section
/-! SUPPORT. Nova cores on the chip: their registers at the end of a command, and the commands that start, stop and signal them (O25). -/

namespace Sys2Proof.Machine

/-! ## Nova cores at the end of a command -/

@[simp] theorem Chip.rd_updNova (c : Chip) (k : Nat) (f : NCore → NCore) (x : Fld) : (c.updNova k f).rd x = c.rd x := rfl

@[simp] theorem Chip.nova_updNova_self (c : Chip) (k : Nat) (f : NCore → NCore) : (c.updNova k f).nova k = f (c.nova k) := by
  simp [Chip.nova, Chip.updNova, Store.upd]

@[simp] theorem Chip.nova_wr (c : Chip) (f : Fld) (v k : Nat) : (c.wr f v).nova k = c.nova k := rfl
@[simp] theorem Chip.nova_stick (c : Chip) (p b k : Nat) : (c.stick p b).nova k = c.nova k := rfl
@[simp] theorem Chip.nova_raise (c : Chip) (src page inst detail k : Nat) : (c.raise src page inst detail).nova k = c.nova k := rfl

theorem Chip.Writes.updNova {gs : List Fld} {ps : List Nat} {a b : Chip} (h : Chip.Writes gs ps a b) (k : Nat) (f : NCore → NCore) :
    Chip.Writes gs ps a (b.updNova k f) := ⟨h.rd, h.sticky⟩

theorem reacts_novaPage : ∀ k : Fin 64, reacts (novaPage k) = false := by decide
theorem reactsSticky_novaPage : ∀ k : Fin 64, reactsSticky (novaPage k) = false := by decide

/-- A field of a Nova core stands on the core's page, at a place that fits its key. -/
theorem novaField_on (k : Fin 64) {f : Fld}
    (hf : (decide (f.page = novaPage 0) && decide (f.off < 67108864) && decide (f.lo < 32)) = true) :
    (f.on k).ok = true ∧ (f.on k).page = novaPage k := by
  simp only [Bool.and_eq_true, decide_eq_true_eq] at hf
  obtain ⟨⟨hp, ho⟩, hl⟩ := hf
  have page : (f.on k).page = novaPage k := by simp [Fld.on, hp, novaPage]
  refine ⟨?_, page⟩
  simp only [Fld.ok, page, novaPage, Bool.and_eq_true, decide_eq_true_eq]
  exact ⟨⟨by omega, ho⟩, hl⟩

/-- No reaction to a fault writes a field of a Nova core. -/
theorem Chip.rd_settle_nova (c : Chip) (k : Fin 64) {f : Fld}
    (hf : (decide (f.page = novaPage 0) && decide (f.off < 67108864) && decide (f.lo < 32)) = true) :
    c.settle.rd (f.on k) = c.rd (f.on k) := by
  obtain ⟨ok, page⟩ := novaField_on k hf
  exact c.rd_settle ok (page ▸ reacts_novaPage k)

theorem Chip.novaSt_settle (c : Chip) (k : Fin 64) : c.settle.novaSt k = c.novaSt k := c.rd_settle_nova k rfl

theorem Chip.stickyWord_settle_nova (c : Chip) (k : Fin 64) : c.settle.stickyWord (novaPage k) = c.stickyWord (novaPage k) :=
  (settled c).stickyWord _ (reactsSticky_novaPage k)

theorem Chip.bit_settle_nova (c : Chip) (k : Fin 64) (b : Nat) :
    bit ((c.stick (novaPage k) b).settle.stickyWord (novaPage k)) b = true := by
  rw [Chip.stickyWord_settle_nova, Chip.stick_self, bit_setBit_true]

/-! ## The commands' own meanings -/

theorem exec_novaRun (m : Master) (k : Fin 64) (s : State) : exec (.novaRun m k) s = execNovaRun m k s := rfl
theorem exec_novaStop (m : Master) (k : Fin 64) (s : State) : exec (.novaStop m k) s = execNovaStop m k s := rfl
theorem exec_novaClrFault (m : Master) (k : Fin 64) (s : State) : exec (.novaClrFault m k) s = execNovaClrFault m k s := rfl
theorem exec_novaDoorbell (m : Master) (k : Fin 64) (v : BitVec 32) (s : State) :
    exec (.novaDoorbell m k v) s = execNovaDoorbell m k v s := rfl
theorem exec_novaParamGo (m : Master) (k : Fin 64) (len : BitVec 7) (s : State) :
    exec (.novaParamGo m k len) s = execNovaParamGo m k len s := rfl
theorem exec_novaExchangeEnd (k : Fin 64) (s : State) : exec (.novaExchangeEnd k) s = execNovaExchangeEnd k s := rfl
theorem exec_novaHandlerWindow (k : Fin 64) (s : State) : exec (.novaHandlerWindow k) s = execNovaHandlerWindow k s := rfl

/-! ## `RUN` and `CLR_FAULT` (R243, R252) -/

/-- A halted core that passes the exchange check waits for its first period. -/
theorem Chip.novaRun_starts {c : Chip} {k : Nat} (halted : c.novaSt k = 1) (free : c.novaBusy k = false) (fits : c.novaFits k = true) :
    c.novaRun k = ((c.wr (Nova.run.on k) 1).wr (Nova.state.on k) 2).updNova k (fun x => { x with first := true, lvl := {} }) := by
  simp [Chip.novaRun, halted, free, fits, Nst.wait, Nst.xchg, Nst.run, Nst.halted]

/-- One that does not pass it stays halted, which is reported. -/
theorem Chip.novaRun_refused {c : Chip} {k : Nat} (halted : c.novaSt k = 1) (free : c.novaBusy k = false) (fits : c.novaFits k = false) :
    c.novaRun k = ((c.wr (Nova.run.on k) 0).raise 0x85 (novaPage k) k 0).stick (novaPage k) 6 := by
  simp [Chip.novaRun, halted, free, fits, Nst.wait, Nst.xchg, Nst.run, Nst.halted]

theorem Chip.novaClr_faulted {c : Chip} {k : Nat} (faulted : c.novaSt k = 5) :
    c.novaClr k = (c.wr (Nova.state.on k) 1).novaClear k := if_pos faulted

@[simp] theorem Chip.rd_novaClear (c : Chip) (k : Nat) (f : Fld) : (c.novaClear k).rd f = c.rd f := rfl
@[simp] theorem Chip.nova_novaClear (c : Chip) (k n : Nat) : (c.novaClear k).nova n = c.nova n := rfl

theorem Chip.Writes.novaClear {gs : List Fld} {ps : List Nat} {a b : Chip} (h : Chip.Writes gs ps a b) (k : Nat) :
    Chip.Writes gs ps a (b.novaClear k) := ((h.passHolds _ _ _).passHolds _ _ _).passHolds _ _ _

/-! ## Parameters (R254) -/

theorem Chip.novaParam_idle {c : Chip} {k : Nat} (idle : c.on (Nova.paramGo.on k) = false) (len : Nat) :
    c.novaParam k len true = (c.wr (Nova.paramLen.on k) len).wr (Nova.paramGo.on k) 1 := by
  simp [Chip.novaParam, idle, b2n]

theorem Chip.novaParam_pending {c : Chip} {k : Nat} (pending : c.on (Nova.paramGo.on k) = true) (len : Nat) (go : Bool) :
    c.novaParam k len go = c.stick (novaPage k) 8 := if_pos pending

/-! ## The end of the exchange section (R245) -/

/-- A core enters `RUN`; the first time after its start, with a sticky bit. -/
def Chip.entersRun (c : Chip) (k : Nat) : Chip :=
  if (c.nova k).first then ((c.wr (Nova.state.on k) 4).updNova k (fun x => { x with first := false })).stick (novaPage k) 10
  else c.wr (Nova.state.on k) 4

theorem gives_novaExchangeEnd {s : State} {k : Fin 64} {P : State → Prop} (hs : s.Runs) (exchanges : s.c.novaSt k = 3)
    (hP : P { s with c := (s.c.start.entersRun k).settle }) : Gives (.novaExchangeEnd k) s P :=
  gives_of_body hs (exec_novaExchangeEnd k s) (if_neg (not_not_intro exchanges)) hP

theorem Chip.rd_state_entersRun (c : Chip) (k : Nat) : (c.entersRun k).rd (Nova.state.on k) = 4 := by
  unfold Chip.entersRun
  split <;> exact Chip.rd_wr_self c (Nova.state.on k) 4

theorem Chip.nova_entersRun (c : Chip) (k : Nat) : (c.entersRun k).nova k = { c.nova k with first := false } := by
  unfold Chip.entersRun
  split
  · simp
  · next later =>
    rw [Bool.not_eq_true] at later
    simp [← later]

theorem Chip.writes_entersRun (c : Chip) (k : Nat) : Chip.Writes [Nova.state.on k] [novaPage k] c (c.entersRun k) := by
  have running := (Chip.Writes.refl (gs := [Nova.state.on k]) (ps := [novaPage k]) c).wr List.mem_cons_self 4
  unfold Chip.entersRun
  split
  · exact (running.updNova k _).stick List.mem_cons_self 10
  · exact running

theorem Chip.entersRun_first {c : Chip} {k : Nat} (first : (c.nova k).first = true) :
    c.entersRun k = ((c.wr (Nova.state.on k) 4).updNova k (fun x => { x with first := false })).stick (novaPage k) 10 := if_pos first

/-! ## The window of a handler (R249) -/

/-- A handler that has run through its window is counted and reported. -/
def Chip.passesWindow (c : Chip) (k : Nat) : Chip :=
  (((c.updNova k (fun x => { x with irqHit := true })).inc (Nova.iwinCnt.on k)).raise 0x83 (novaPage k) k 0).stick (novaPage k) 4

theorem gives_novaHandlerWindow {s : State} {k : Fin 64} {t0 : Nat} {P : State → Prop} (hs : s.Runs) (runs : s.c.novaSt k = 4)
    (entered : (s.c.nova k).irqAt = some t0) (uncounted : (s.c.nova k).irqHit = false)
    (passed : t0 + s.c.rd (Nova.iwin.on k) ≤ (s.c.nova k).t) (hP : P { s with c := (s.c.start.passesWindow k).settle }) :
    Gives (.novaHandlerWindow k) s P := by
  refine gives_of_body hs (exec_novaHandlerWindow k s) ?_ hP
  have entry : (s.c.start.nova k).irqAt = some t0 := entered
  have counts : s.c.start.novaSt k = Nst.run ∧ (!(s.c.start.nova k).irqHit) = true ∧
      t0 + s.c.start.rd (Nova.iwin.on k) ≤ (s.c.start.nova k).t := ⟨runs, congrArg not uncounted, passed⟩
  simp only [entry]
  exact if_pos counts

/-! ## The statement -/

/-- Settles O25: each command's body is the outcome that its hypotheses select, which writes the named fields alone. -/
theorem novaCommands : Obligations.NovaCommands := by
  unfold Obligations.NovaCommands
  intro s k
  refine ⟨?_, ?_, ?_, ?_, ?_, ?_, ?_, ?_, ?_⟩
  · intro m hs halted free fits
    refine gives_of_body hs.1 (exec_novaRun m k s) ((guarded_allows s m _ _ _ _ true _ hs).trans (Chip.novaRun_starts halted free fits)) ?_
    refine ⟨?_, ?_, ?_, (((Chip.Writes.refl _).wr (by simp) 1).wr (by simp) 2).updNova k _ |>.confined⟩
    · rw [Chip.rd_settle_nova _ k rfl, Chip.rd_updNova, Chip.rd_wr_on_ne _ _ _ (by decide), Chip.rd_wr_self]
      rfl
    · rw [Chip.novaSt_settle, Chip.novaSt, Chip.rd_updNova, Chip.rd_wr_self]
      rfl
    · rw [Chip.nova_settle, Chip.nova_updNova_self]
      rfl
  · intro m hs halted free fits
    refine gives_of_body hs.1 (exec_novaRun m k s) ((guarded_allows s m _ _ _ _ true _ hs).trans (Chip.novaRun_refused halted free fits)) ?_
    refine ⟨?_, ?_, Chip.nova_settle _ k, Chip.bit_settle_nova _ k 6,
      (((Chip.Writes.refl _).wr (by simp) 0).raise _ _ _ _).stick List.mem_cons_self 6 |>.confined⟩
    · rw [Chip.rd_settle_nova _ k rfl, Chip.rd_stick, Chip.rd_raise, Chip.rd_wr_self]
      rfl
    · rw [Chip.novaSt_settle, Chip.novaSt, Chip.rd_stick, Chip.rd_raise, Chip.rd_wr_on_ne _ _ _ (by decide)]
      exact halted
  · intro m hs
    refine gives_of_body hs.1 (exec_novaStop m k s) (guarded_allows s m _ _ _ _ true _ hs) ?_
    refine ⟨(Chip.rd_settle_nova _ k rfl).trans (Chip.rd_wr_self _ _ _), ?_, Chip.nova_settle _ k,
      ((Chip.Writes.refl _).wr (by simp) 0).confined⟩
    exact (Chip.novaSt_settle _ k).trans (Chip.rd_wr_on_ne _ _ _ (by decide))
  · intro m hs faulted
    refine gives_of_body hs.1 (exec_novaClrFault m k s)
      ((trigger_allows s m _ _ _ true _ hs).trans (Chip.novaClr_faulted faulted)) ?_
    exact ⟨(Chip.novaSt_settle _ k).trans (Chip.rd_wr_self _ (Nova.state.on k) 1), Chip.nova_settle _ k,
      (((Chip.Writes.refl _).wr (by simp) 1).novaClear k).confined⟩
  · intro m v hs
    refine gives_of_body hs.1 (exec_novaDoorbell m k v s) (guarded_allows s m _ _ _ _ true _ hs) ?_
    refine ⟨?_, (Chip.rd_settle_nova _ k rfl).trans (Chip.rd_wr_self _ _ _),
      (((Chip.Writes.refl _).wr (by simp) v.toNat).wr (by simp) 1).confined⟩
    rw [Chip.rd_settle_nova _ k rfl, Chip.novaBell, Chip.rd_wr_on_ne _ _ _ (by decide), Chip.rd_wr_self]
    exact Nat.mod_eq_of_lt v.isLt
  · intro m len hs idle
    refine gives_of_body hs.1 (exec_novaParamGo m k len s)
      ((guarded_allows s m _ _ _ _ true _ hs).trans (Chip.novaParam_idle (c := s.c.start) idle _)) ?_
    refine ⟨?_, (Chip.rd_settle_nova _ k rfl).trans (Chip.rd_wr_self _ _ _),
      (((Chip.Writes.refl _).wr (by simp) len.toNat).wr (by simp) 1).confined⟩
    rw [Chip.rd_settle_nova _ k rfl, Chip.rd_wr_on_ne _ _ _ (by decide), Chip.rd_wr_self]
    exact Nat.mod_eq_of_lt len.isLt
  · intro m len hs pending
    refine gives_of_body hs.1 (exec_novaParamGo m k len s)
      ((guarded_allows s m _ _ _ _ true _ hs).trans (Chip.novaParam_pending (c := s.c.start) pending _ _)) ?_
    exact ⟨Chip.bit_settle_nova _ k 8, ((Chip.Writes.refl _).stick List.mem_cons_self 8).confined⟩
  · intro hs exchanges
    have core : (s.c.start.entersRun k).settle.nova k = { s.c.nova k with first := false } :=
      (Chip.nova_settle _ k).trans (Chip.nova_entersRun _ k)
    refine gives_novaExchangeEnd hs exchanges ⟨(Chip.novaSt_settle _ k).trans (Chip.rd_state_entersRun _ k), congrArg NCore.first core,
      (congrArg NCore.pc core).trans rfl, fun first => ?_, (Chip.writes_entersRun _ k).confined⟩
    have started : (s.c.start.nova k).first = true := first
    rw [Chip.entersRun_first started]
    exact Chip.bit_settle_nova _ k 10
  · intro t0 hs runs entered uncounted passed
    refine gives_novaHandlerWindow hs runs entered uncounted passed ⟨?_, ?_, Chip.bit_settle_nova _ k 4, ?_⟩
    · rw [Chip.nova_settle, Chip.passesWindow, Chip.nova_stick, Chip.nova_raise, Chip.inc, Chip.nova_wr, Chip.nova_updNova_self]
    · rw [Chip.rd_settle_nova _ k rfl, Chip.passesWindow, Chip.rd_stick, Chip.rd_raise, Chip.inc, Chip.rd_wr_self]
      exact Nat.mod_eq_of_lt (satInc_lt (Chip.rd_lt _ _))
    · exact ((((Chip.Writes.refl _).updNova k _).wr (by simp) _).raise _ _ _ _).stick List.mem_cons_self 4 |>.confined

end Sys2Proof.Machine
end

section
/-! SUPPORT. One bundle of a Nova core: what it does where it is all zeros, reserved or `HALT`, the checked read that brings it, what a
fault of the core shows, and the end of the period's work (O24). -/

namespace Sys2Proof.Machine

/-! ## Results land (R237, R238) -/

theorem NCore.t_land1 (x : NCore) (r : NRes) : (x.land1 r).t = x.t := by
  unfold NCore.land1
  repeat' split
  all_goals rfl

theorem NCore.t_foldl_land1 (l : List NRes) (x : NCore) : (l.foldl NCore.land1 x).t = x.t := by
  induction l generalizing x with
  | nil => rfl
  | cons r l ih => exact (ih (x.land1 r)).trans (x.t_land1 r)

theorem NCore.t_land (x : NCore) (t : Nat) : (x.land t).t = x.t := NCore.t_foldl_land1 _ x
theorem NCore.t_flush (x : NCore) : x.flush.t = x.t := NCore.t_foldl_land1 _ x

/-- With nothing on its way nothing lands. -/
theorem NCore.land_empty {x : NCore} (empty : x.res = []) (t : Nat) : x.land t = x := by
  cases x
  simp only at empty
  simp [NCore.land, empty]

/-! ## Encodings (R229, R236) -/

/-- A reserved encoding has fault code 1 or 2 and stands in one of four slots. -/
theorem reservedOf_range {c x m w3 code slot : Nat} (h : reservedOf c x m w3 = some (code, slot)) : code < 3 ∧ slot < 4 := by
  unfold reservedOf at h
  dsimp only at h
  split_ifs at h
  all_goals
    injection h with h
    injection h with hc hs
    omega

/-- The zero bundle and `HALT` are no reserved encodings. -/
theorem reservedOf_plain {c : Nat} (plain : c = 0 ∨ c = 0x40000000) : reservedOf c 0 0 0 = none := by
  rcases plain with rfl | rfl <;> decide

/-- With no branch on its way a zero C slot breaks no rule, nor does `HALT` outside an interrupt handler. -/
theorem NCore.broken_plain {x : NCore} {c : Nat} (straight : x.br = none)
    (plain : c = 0 ∨ c = 0x40000000 ∧ bit (x.cv 14) 1 = false) : x.broken x.pc c = none := by
  rcases plain with rfl | ⟨rfl, outside⟩
  · simp [NCore.broken, straight]
  · simp [NCore.broken, straight, outside]

/-! ## Slots that do nothing -/

theorem NCore.mSlot_zero (x : NCore) (t : Nat) : x.mSlot t 0 = { x := x } := by simp [NCore.mSlot, NCore.access, bits]

theorem NCore.xSlot_zero (x : NCore) (t : Nat) : x.xSlot t 0 = ([], false) := rfl

theorem NCore.cSlot_plain (x : NCore) (t pc : Nat) {c : Nat} (plain : c = 0 ∨ c = 0x40000000) : x.cSlot t pc c = { x := x } := by
  rcases plain with rfl | rfl <;> rfl

theorem clash_nil (f : Nat) (old : List NRes) : clash f old [] = ([], false) := rfl

/-! ## Bundles without results -/

/-- The core one step on, at the address that its loops give, where a bundle sends no result and takes no branch. -/
def NCore.passesOn (x : NCore) : NCore :=
  ({ (x.loopEnd x.pc).1 with t := x.t + 1, pc := (x.loopEnd x.pc).2 } : NCore).land (x.t + 1)

theorem NCore.t_passesOn (x : NCore) : x.passesOn.t = x.t + 1 := NCore.t_land _ _

/-- Outside loops, and with nothing on its way, the core passes to the next address alone. -/
theorem NCore.passesOn_next {x : NCore} (outer : x.cv 4 = 0) (inner : x.cv 7 = 0) (empty : x.res = []) :
    x.passesOn = { x with pc := x.pc + 1, t := x.t + 1 } := by
  have next : x.loopEnd x.pc = (x, x.pc + 1) := by simp [NCore.loopEnd, outer, inner]
  rw [NCore.passesOn, next]
  exact NCore.land_empty (x := { x with pc := x.pc + 1, t := x.t + 1 }) empty _

theorem NCore.br_none_self {x : NCore} (straight : x.br = none) : { x with br := none } = x := by rw [← straight]

section
variable {x : NCore} (w1 : x.bundle x.pc 1 = 0) (w2 : x.bundle x.pc 2 = 0) (w3 : x.bundle x.pc 3 = 0) (straight : x.br = none)
include w1 w2 w3 straight

/-- A bundle of four zero words passes on (R227). -/
theorem NCore.issue_zero (zero : x.bundle x.pc 0 = 0) (below : x.passesOn.pc ≤ 2047) (f : Nat) : x.issue f = { x := x.passesOn } := by
  have inside : ¬2047 < x.passesOn.pc := Nat.not_lt.mpr below
  rw [NCore.passesOn] at inside ⊢
  simp [NCore.issue, zero, w1, w2, w3, reservedOf_plain (.inl rfl), NCore.broken_plain straight (.inl rfl), x.mSlot_zero, x.xSlot_zero,
    x.cSlot_plain _ _ (.inl rfl), clash_nil, straight, NCore.br_none_self straight, inside, bits, bit]

/-- The bundle of `HALT` ends the period's work, and what is on its way lands (R236; log entry 20). -/
theorem NCore.issue_halt (halt : x.bundle x.pc 0 = 0x40000000) (outside : bit (x.cv 14) 1 = false) (f : Nat) :
    x.issue f = { x := x.passesOn.flush, halted := true } := by
  have noQuiet : bit 0x40000000 26 = false := by decide
  rw [NCore.passesOn]
  simp [NCore.issue, halt, w1, w2, w3, reservedOf_plain (.inr rfl), NCore.broken_plain straight (.inr ⟨rfl, outside⟩), x.mSlot_zero,
    x.xSlot_zero, x.cSlot_plain _ _ (.inr rfl), clash_nil, straight, NCore.br_none_self straight, noQuiet]

end

/-- A reserved encoding stops the core as it stands (R229). -/
theorem NCore.issue_reserved {x : NCore} {code slot : Nat}
    (reserved : reservedOf (x.bundle x.pc 0) (x.bundle x.pc 1) (x.bundle x.pc 2) (x.bundle x.pc 3) = some (code, slot)) (f : Nat) :
    x.issue f = { x := x, fault := some (code, slot, x.pc) } := by
  unfold NCore.issue
  simp only [reserved]

/-! ## The checked reads of a bundle (R419) -/

theorem Chip.novas_check (c : Chip) (k i real : Nat) : (c.check k i real).c.novas = c.novas := by
  unfold Chip.check
  split
  · split
    · dsimp only
      split <;> rfl
    · rfl
  · rfl

/-- The read of the bundle at PC, as the checker reports it. -/
def Chip.readsBundle (c : Chip) (k : Nat) (im : MemRead) : Chip :=
  c.eccRead 2 k 0x04 0x05 (novaPage k) k (c.nova k).pc (im.syn.toNat % 256) (im.again.toNat % 256) [(3, k)]

theorem Chip.onlyCollects_readsBundle (c : Chip) (k : Nat) (im : MemRead) : Chip.OnlyCollects c (c.readsBundle k im) :=
  c.onlyCollects_eccRead _ _ _ _ _ _ _ _ _ _

theorem Chip.nova_readsBundle (c : Chip) (k : Nat) (im : MemRead) (n : Nat) : (c.readsBundle k im).nova n = c.nova n := by
  have kept : (c.readsBundle k im).novas = c.novas := by
    unfold Chip.readsBundle Chip.eccRead
    dsimp only
    split <;> exact c.novas_check _ _ _
  rw [Chip.nova, kept, Chip.nova]

/-- The word at `key` of a core's memories cannot be used any more. -/
def Chip.poisonsCore (c : Chip) (k key : Nat) : Chip :=
  c.updNova k (fun x => { x with poison := if x.poison.contains key then x.poison else key :: x.poison })

/-- A bundle that is not poisoned, and shows no error or one that ECC corrects, can be used. -/
theorem Chip.novaEcc_usable {c : Chip} {k : Nat} {im : MemRead} (clean : (c.nova k).poison = [])
    (good : im.syn.toNat % 256 = 0 ∨ oneBit (im.syn.toNat % 256) = true) (key : Nat) :
    c.novaEcc 2 k (c.nova k).pc key im = (c.readsBundle k im, false) := by
  have usable : ¬(im.syn.toNat % 256 ≠ 0 ∧ (!oneBit (im.syn.toNat % 256)) = true) := by
    rintro ⟨error, uncorrected⟩
    rcases good with none | one
    · exact error none
    · rw [one] at uncorrected
      exact absurd uncorrected (by decide)
  simp only [Chip.novaEcc, clean, List.contains_nil, Bool.false_eq_true, and_false, if_false]
  exact if_neg usable

/-- One that shows an error beyond correction is poisoned. -/
theorem Chip.novaEcc_lost (c : Chip) (k : Nat) {im : MemRead} (error : im.syn.toNat % 256 ≠ 0)
    (uncorrected : oneBit (im.syn.toNat % 256) = false) (key : Nat) :
    c.novaEcc 2 k (c.nova k).pc key im = ((c.readsBundle k im).poisonsCore k key, true) := by
  have lost : im.syn.toNat % 256 ≠ 0 ∧ (!oneBit (im.syn.toNat % 256)) = true := ⟨error, congrArg not uncorrected⟩
  simp only [Chip.novaEcc, error, false_and, if_false]
  exact if_pos lost

/-! ## What a core shows -/

@[simp] theorem Chip.nova_showNova (c : Chip) (k n : Nat) : (c.showNova k).nova n = c.nova n := rfl

/-- `NOVA_STATUS` and `NOVA_MBOX` show `ISR`, PC and CR20 alone. -/
theorem Chip.rd_showNova (c : Chip) (k : Nat) {f : Fld}
    (apart : (decide (f.key ≠ Nova.isr.key) && decide (f.key ≠ Nova.pc.key) && decide (f.key ≠ Nova.mbox.key)) = true) :
    (c.showNova k).rd (f.on k) = c.rd (f.on k) := by
  simp only [Bool.and_eq_true, decide_eq_true_eq] at apart
  obtain ⟨⟨isr, pc⟩, mbox⟩ := apart
  rw [Chip.showNova, Chip.rd_wr_on_ne _ _ _ mbox, Chip.rd_wr_on_ne _ _ _ pc, Chip.rd_wr_on_ne _ _ _ isr]

section
variable {gs : List Fld} {ps : List Nat} {a b : Chip}

theorem Chip.Writes.showNova (h : Chip.Writes gs ps a b) {k : Nat} (isr : Nova.isr.on k ∈ gs) (pc : Nova.pc.on k ∈ gs)
    (mbox : Nova.mbox.on k ∈ gs) : Chip.Writes gs ps a (b.showNova k) := ((h.wr isr _).wr pc _).wr mbox _

/-- What a bundle writes after its checked read confines the command. -/
theorem Chip.Writes.confined_read {s : State} {d : Chip} (h : Chip.Writes gs ps a d) (read : Chip.OnlyCollects s.c.start a) :
    Confined gs ps s { s with c := d.settle } :=
  Confined.of_body (fun f _ _ hf => (h.rd f hf).trans (by rw [Chip.rd, read.flds]; rfl))
    (fun p hr hp => (h.sticky p hp).trans (read.sticky p hr))

theorem Chip.OnlyCollects.writesOn (h : Chip.OnlyCollects a b) : Chip.WritesOn ps a b :=
  ⟨fun f _ _ => by rw [Chip.rd, h.flds, Chip.rd], fun p hr _ => h.sticky p hr⟩

theorem Chip.WritesOn.updNova (h : Chip.WritesOn ps a b) (k : Nat) (f : NCore → NCore) : Chip.WritesOn ps a (b.updNova k f) :=
  h.keep rfl rfl

section
variable {k : Fin 64} (hp : novaPage k ∈ ps)
include hp

/-- A write of a field of a Nova core. -/
theorem Chip.WritesOn.wrNova (h : Chip.WritesOn ps a b) {f : Fld}
    (hf : (decide (f.page = novaPage 0) && decide (f.off < 67108864) && decide (f.lo < 32)) = true) (v : Nat) :
    Chip.WritesOn ps a (b.wr (f.on k) v) := by
  obtain ⟨ok, page⟩ := novaField_on k hf
  exact h.wr ok (page ▸ hp) v

theorem Chip.WritesOn.showNova (h : Chip.WritesOn ps a b) : Chip.WritesOn ps a (b.showNova k) :=
  ((h.wrNova hp rfl _).wrNova hp rfl _).wrNova hp rfl _

theorem Chip.WritesOn.novaIdle (h : Chip.WritesOn ps a b) (st : Nat) : Chip.WritesOn ps a (b.novaIdle k st) :=
  (((h.wrNova hp rfl st).wrNova hp rfl 0).updNova k _).showNova hp

end
end

/-! ## A core enters `FAULT` (R229, R243) -/

/-- The core stops, and its fault's code, slot and address are shown. -/
def Chip.showsFault (c : Chip) (k code slot fpc : Nat) : Chip :=
  (((((c.updNova k (fun x => { x with pc := fpc })).novaIdle k Nst.fault).wr (Nova.fpc.on k) fpc).wr (Nova.fcode.on k) code).wr
    (Nova.fslot.on k) slot).stick (novaPage k) 7

/-- A fault of the program is reported by its class beside what it shows. -/
theorem Chip.novaFault_cases (c : Chip) (k code slot fpc : Nat) :
    c.novaFault k code slot fpc = c.showsFault k code slot fpc ∨
    ∃ src b, c.novaFault k code slot fpc = ((c.showsFault k code slot fpc).raise src (novaPage k) k fpc).stick (novaPage k) b := by
  unfold Chip.novaFault
  dsimp only
  split
  · exact .inr ⟨_, _, rfl⟩
  · split
    · exact .inr ⟨_, _, rfl⟩
    · exact .inl rfl

theorem Chip.rd_novaFault (c : Chip) (k code slot fpc : Nat) (f : Fld) :
    (c.novaFault k code slot fpc).rd f = (c.showsFault k code slot fpc).rd f := by
  rcases c.novaFault_cases k code slot fpc with e | ⟨src, b, e⟩ <;> rw [e]
  rfl

/-- Adding a power of two whose bit is clear leaves the other bits. -/
theorem testBit_add_two_pow_of_ne {v i j : Nat} (clear : v.testBit j = false) (h : i ≠ j) : (v + 2 ^ j).testBit i = v.testBit i := by
  induction j generalizing v i with
  | zero =>
    obtain ⟨i, rfl⟩ := Nat.exists_eq_succ_of_ne_zero h
    rw [Nat.testBit_zero, decide_eq_false_iff_not] at clear
    rw [Nat.testBit_add_one, Nat.testBit_add_one, show (v + 2 ^ 0) / 2 = v / 2 by omega]
  | succ j ih =>
    rw [Nat.testBit_add_one] at clear
    cases i with
    | zero =>
      rw [Nat.testBit_zero, Nat.testBit_zero, Nat.pow_succ, Nat.add_mul_mod_self_right]
    | succ i =>
      have half : (v + 2 ^ (j + 1)) / 2 = v / 2 + 2 ^ j := by omega
      rw [Nat.testBit_add_one, Nat.testBit_add_one, half]
      exact ih clear (fun e => h (congrArg Nat.succ e))

/-- A bit that is set stays set when a bit is set. -/
theorem bit_setBit_of_bit {v i : Nat} (h : bit v i = true) (j : Nat) : bit (setBit v j true) i = true := by
  unfold setBit
  split
  · exact h
  · next clear =>
    have clear : v.testBit j = false := by simpa using clear
    have other : i ≠ j := fun e => absurd (h.symm.trans (e ▸ clear)) (by decide)
    exact (testBit_add_two_pow_of_ne clear other).trans h

theorem Chip.bit_novaFault (c : Chip) (k code slot fpc : Nat) : bit ((c.novaFault k code slot fpc).stickyWord (novaPage k)) 7 = true := by
  have shown : bit ((c.showsFault k code slot fpc).stickyWord (novaPage k)) 7 = true := by
    rw [Chip.showsFault, Chip.stick_self, bit_setBit_true]
  rcases c.novaFault_cases k code slot fpc with e | ⟨src, b, e⟩ <;> rw [e]
  · exact shown
  · rw [Chip.stick_self]
    exact bit_setBit_of_bit shown b

theorem Chip.writesOn_novaFault (c : Chip) (k : Fin 64) (code slot fpc : Nat) :
    Chip.WritesOn [novaPage k] c (c.novaFault k code slot fpc) := by
  have page : novaPage k ∈ [novaPage k] := List.mem_cons_self
  have shown : Chip.WritesOn [novaPage k] c (c.showsFault k code slot fpc) :=
    ((((((Chip.WritesOn.refl c).updNova k _).novaIdle page _).wrNova page rfl fpc).wrNova page rfl code).wrNova page rfl slot).stick
      (.inl page) 7
  rcases c.novaFault_cases k code slot fpc with e | ⟨src, b, e⟩ <;> rw [e]
  · exact shown
  · exact (shown.report _).stick (.inl page) b

theorem Chip.novaSt_showsFault (c : Chip) (k code slot fpc : Nat) : (c.showsFault k code slot fpc).novaSt k = 5 := by
  rw [Chip.novaSt, Chip.showsFault, Chip.rd_stick, Chip.rd_wr_on_ne _ _ _ (by decide), Chip.rd_wr_on_ne _ _ _ (by decide),
    Chip.rd_wr_on_ne _ _ _ (by decide), Chip.novaIdle, Chip.rd_showNova _ _ (by decide), Chip.rd_updNova, Chip.rd_wr_on_ne _ _ _ (by decide),
    Chip.rd_wr_self]
  rfl

theorem Chip.rd_run_showsFault (c : Chip) (k code slot fpc : Nat) : (c.showsFault k code slot fpc).rd (Nova.run.on k) = 0 := by
  rw [Chip.showsFault, Chip.rd_stick, Chip.rd_wr_on_ne _ _ _ (by decide), Chip.rd_wr_on_ne _ _ _ (by decide),
    Chip.rd_wr_on_ne _ _ _ (by decide), Chip.novaIdle, Chip.rd_showNova _ _ (by decide), Chip.rd_updNova, Chip.rd_wr_self]
  rfl

/-- The code, the slot and the address of a fault, each of which fits its field. -/
theorem Chip.rd_showsFault (c : Chip) (k : Nat) {code slot fpc : Nat} (hcode : code < 8) (hslot : slot < 4) (hpc : fpc < 2048) :
    (c.showsFault k code slot fpc).rd (Nova.fcode.on k) = code ∧ (c.showsFault k code slot fpc).rd (Nova.fslot.on k) = slot ∧
    (c.showsFault k code slot fpc).rd (Nova.fpc.on k) = fpc := by
  refine ⟨?_, ?_, ?_⟩ <;> rw [Chip.showsFault, Chip.rd_stick]
  · rw [Chip.rd_wr_on_ne _ _ _ (by decide), Chip.rd_wr_self]
    exact Nat.mod_eq_of_lt hcode
  · rw [Chip.rd_wr_self]
    exact Nat.mod_eq_of_lt hslot
  · rw [Chip.rd_wr_on_ne _ _ _ (by decide), Chip.rd_wr_on_ne _ _ _ (by decide), Chip.rd_wr_self]
    exact Nat.mod_eq_of_lt hpc

/-- What a command that ends in a fault of the core leaves (R229, R243). -/
structure Faulted (s t : State) (k : Fin 64) (code slot fpc : Nat) : Prop where
  state : t.c.novaSt k = 5
  run : t.c.rd (Nova.run.on k) = 0
  fcode : t.c.rd (Nova.fcode.on k) = code
  fslot : t.c.rd (Nova.fslot.on k) = slot
  fpc : t.c.rd (Nova.fpc.on k) = fpc
  sticky : bit (t.c.stickyWord (novaPage k)) 7 = true
  within : Within [novaPage k] s t

theorem faulted_novaFault {s : State} {c : Chip} {k : Fin 64} (h : Chip.WritesOn [novaPage k] s.c.start c) {code slot fpc : Nat}
    (hcode : code < 8) (hslot : slot < 4) (hpc : fpc < 2048) :
    Faulted s { s with c := (c.novaFault k code slot fpc).settle } k code slot fpc := by
  obtain ⟨fcode, fslot, fpc⟩ := c.rd_showsFault k hcode hslot hpc
  refine ⟨?_, ?_, ?_, ?_, ?_, ?_, (h.trans (c.writesOn_novaFault k _ _ _)).within⟩
  · rw [Chip.novaSt_settle, Chip.novaSt, Chip.rd_novaFault]
    exact c.novaSt_showsFault k _ _ _
  · rw [Chip.rd_settle_nova _ k rfl, Chip.rd_novaFault]
    exact c.rd_run_showsFault k _ _ _
  · exact (Chip.rd_settle_nova _ k rfl).trans ((c.rd_novaFault k _ _ _ _).trans fcode)
  · exact (Chip.rd_settle_nova _ k rfl).trans ((c.rd_novaFault k _ _ _ _).trans fslot)
  · exact (Chip.rd_settle_nova _ k rfl).trans ((c.rd_novaFault k _ _ _ _).trans fpc)
  · rw [Chip.stickyWord_settle_nova]
    exact c.bit_novaFault k _ _ _

/-! ## A bundle on the chip (R227, R236) -/

/-- The core after its bundle stands on the chip, with the saturation and the `Q` of the period so far. -/
def Chip.takesBundle (c : Chip) (k : Nat) (r : Issued) : Chip :=
  (c.updNova k (fun _ => { r.x with sat := (c.nova k).sat || r.sat, unquiet := (c.nova k).unquiet || r.unquiet })).showNova k

/-- The period's work of a core has ended: its block is complete, and its steps are counted (R236, R244). -/
def Chip.endsWork (c : Chip) (k : Nat) : Chip :=
  (((c.fillBlock (.nova (Fin.ofNat 64 k)) (c.novaBlocks k)).wr (Nova.state.on k) Nst.wait).wr (Nova.stepsLast.on k) (c.novaSteps k)).wr
    (Nova.stepsMax.on k) (max (c.novaSteps k) (c.rd (Nova.stepsMax.on k)))

/-- What follows a bundle: a fault, the end of the work, or the next bundle. -/
def Chip.endsBundle (c : Chip) (k : Nat) (r : Issued) : Chip :=
  match r.fault with
  | some f => (c.takesBundle k r).novaFault k f.1 f.2.1 f.2.2
  | none => if r.halted then (c.takesBundle k r).endsWork k else c.takesBundle k r

/-! The three ends of a bundle that neither saturates nor writes CR20. -/

theorem Chip.endsBundle_next (c : Chip) (k : Nat) (x : NCore) : c.endsBundle k { x := x } = c.takesBundle k { x := x } := rfl
theorem Chip.endsBundle_halted (c : Chip) (k : Nat) (x : NCore) :
    c.endsBundle k { x := x, halted := true } = (c.takesBundle k { x := x, halted := true }).endsWork k := rfl
theorem Chip.endsBundle_fault (c : Chip) (k : Nat) (x : NCore) (code slot fpc : Nat) :
    c.endsBundle k { x := x, fault := some (code, slot, fpc) } =
      (c.takesBundle k { x := x, fault := some (code, slot, fpc) }).novaFault k code slot fpc := rfl

theorem exec_novaBundleIssue (k : Fin 64) (im dm dm2 : MemRead) (s : State) :
    exec (.novaBundleIssue k im dm dm2) s = execNovaBundleIssue k im dm dm2 s := rfl

/-- A core in `RUN` issues a bundle that can be used, loads no data, and neither saturates nor writes CR20 nor takes a free value. -/
theorem gives_novaBundleIssue {s : State} {k : Fin 64} {im dm dm2 : MemRead} {r : Issued} {P : State → Prop} (hs : s.Runs)
    (runs : s.c.novaSt k = 4) (clean : (s.c.nova k).poison = [])
    (good : im.syn.toNat % 256 = 0 ∨ oneBit (im.syn.toNat % 256) = true) (issued : ∀ f, (s.c.nova k).issue f = r)
    (loads : r.fault.isSome = true ∨ (s.c.nova k).loadsFrom = [])
    (plain : r.used = false ∧ r.sat = false ∧ r.unquiet = false ∧ r.mbox = false)
    (hP : P { s with c := ((s.c.start.readsBundle k im).endsBundle k r).settle }) : Gives (.novaBundleIssue k im dm dm2) s P := by
  refine gives_of_body hs (exec_novaBundleIssue k im dm dm2 s) ((if_neg (not_not_intro runs)).trans ?_) hP
  obtain ⟨used, sat, unquiet, mbox⟩ := plain
  have read := Chip.novaEcc_usable (c := s.c.start) clean good (65536 + (s.c.start.nova k).pc)
  have core : (s.c.start.readsBundle k im).nova k = s.c.nova k := s.c.start.nova_readsBundle k im k
  have noData : (if r.fault.isSome = true then [] else (s.c.nova k).loadsFrom.zip [dm, dm2]) = [] := by
    rcases loads with faulted | none
    · exact if_pos faulted
    · rw [none, List.zip_nil_left, ite_self]
  simp only [read, core, issued, noData, List.foldl_nil, used, sat, unquiet, mbox, Bool.false_eq_true, false_and, if_false,
    Chip.endsBundle, Chip.takesBundle]
  rfl

/-- A bundle that cannot be used stops the core in its place (R419). -/
theorem gives_novaBundleIssue_lost {s : State} {k : Fin 64} {im dm dm2 : MemRead} {P : State → Prop} (hs : s.Runs)
    (runs : s.c.novaSt k = 4) (error : im.syn.toNat % 256 ≠ 0) (uncorrected : oneBit (im.syn.toNat % 256) = false)
    (hP : P { s with c := (((s.c.start.readsBundle k im).poisonsCore k (65536 + (s.c.nova k).pc)).novaFault k 7 0
      (s.c.nova k).pc).settle }) : Gives (.novaBundleIssue k im dm dm2) s P := by
  refine gives_of_body hs (exec_novaBundleIssue k im dm dm2 s) ((if_neg (not_not_intro runs)).trans ?_) hP
  have read := s.c.start.novaEcc_lost k error uncorrected (65536 + (s.c.start.nova k).pc)
  simp only [read, if_true]
  rfl

/-- A bundle whose M slot is zero loads nothing. -/
theorem NCore.loadsFrom_zero {x : NCore} (w2 : x.bundle x.pc 2 = 0) : x.loadsFrom = [] := by rw [NCore.loadsFrom, w2, x.mSlot_zero]

theorem Chip.nova_takesBundle (c : Chip) (k : Nat) (r : Issued) :
    (c.takesBundle k r).nova k = { r.x with sat := (c.nova k).sat || r.sat, unquiet := (c.nova k).unquiet || r.unquiet } :=
  c.nova_updNova_self k (fun _ => _)

theorem Chip.rd_takesBundle (c : Chip) (k : Nat) (r : Issued) {f : Fld}
    (apart : (decide (f.key ≠ Nova.isr.key) && decide (f.key ≠ Nova.pc.key) && decide (f.key ≠ Nova.mbox.key)) = true) :
    (c.takesBundle k r).rd (f.on k) = c.rd (f.on k) := (Chip.rd_showNova _ k apart).trans rfl

theorem Chip.Writes.takesBundle {gs : List Fld} {ps : List Nat} {a b : Chip} (h : Chip.Writes gs ps a b) {k : Nat}
    (isr : Nova.isr.on k ∈ gs) (pc : Nova.pc.on k ∈ gs) (mbox : Nova.mbox.on k ∈ gs) (r : Issued) :
    Chip.Writes gs ps a (b.takesBundle k r) := (h.updNova k _).showNova isr pc mbox

theorem Chip.WritesOn.takesBundle {ps : List Nat} {a b : Chip} (h : Chip.WritesOn ps a b) {k : Fin 64} (hp : novaPage k ∈ ps) (r : Issued) :
    Chip.WritesOn ps a (b.takesBundle k r) := (h.updNova k _).showNova hp

theorem Chip.Writes.endsWork {gs : List Fld} {ps : List Nat} {a b : Chip} (h : Chip.Writes gs ps a b) {k : Nat}
    (state : Nova.state.on k ∈ gs) (last : Nova.stepsLast.on k ∈ gs) (most : Nova.stepsMax.on k ∈ gs) :
    Chip.Writes gs ps a (b.endsWork k) :=
  have filled : Chip.Writes gs ps a (b.fillBlock (.nova (Fin.ofNat 64 k)) (b.novaBlocks k)) := ⟨h.rd, h.sticky⟩
  ((filled.wr state _).wr last _).wr most _

theorem Chip.nova_endsWork (c : Chip) (k n : Nat) : (c.endsWork k).nova n = c.nova n := rfl

theorem Chip.novaSt_endsWork (c : Chip) (k : Nat) : (c.endsWork k).novaSt k = 2 := by
  rw [Chip.novaSt, Chip.endsWork, Chip.rd_wr_on_ne _ _ _ (by decide), Chip.rd_wr_on_ne _ _ _ (by decide), Chip.rd_wr_self]
  rfl

theorem Chip.rd_run_endsWork (c : Chip) (k : Nat) : (c.endsWork k).rd (Nova.run.on k) = c.rd (Nova.run.on k) := by
  rw [Chip.endsWork, Chip.rd_wr_on_ne _ _ _ (by decide), Chip.rd_wr_on_ne _ _ _ (by decide), Chip.rd_wr_on_ne _ _ _ (by decide)]
  rfl

theorem Chip.rd_stepsLast_endsWork (c : Chip) (k : Nat) : (c.endsWork k).rd (Nova.stepsLast.on k) = c.novaSteps k % 2 ^ 32 := by
  rw [Chip.endsWork, Chip.rd_wr_on_ne _ _ _ (by decide), Chip.rd_wr_self]
  rfl

/-! ## The statement -/

/-- Settles O24: the read of a bundle changes nothing of the core but what a word beyond correction poisons, and each kind of bundle has
one outcome. -/
theorem novaBundles : Obligations.NovaBundles := by
  unfold Obligations.NovaBundles
  intro s k
  refine ⟨?_, ?_, ?_, ?_⟩
  · intro im dm dm2 hs good runs clean zero straight empty outer inner below
    have passes := NCore.passesOn_next outer inner empty
    have inside : (s.c.nova k).passesOn.pc ≤ 2047 := by
      rw [passes]
      exact below
    have read := s.c.start.onlyCollects_readsBundle k im
    have core : (s.c.start.readsBundle k im).nova k = s.c.nova k := s.c.start.nova_readsBundle k im k
    have issued := NCore.issue_zero (zero 1) (zero 2) (zero 3) straight (zero 0) inside
    refine gives_novaBundleIssue hs runs clean good issued (.inr (NCore.loadsFrom_zero (zero 2))) ⟨rfl, rfl, rfl, rfl⟩ ?_
    rw [Chip.endsBundle_next]
    refine ⟨?_, ?_, ((Chip.Writes.refl _).takesBundle (by simp) (by simp) (by simp) _).confined_read read⟩
    · refine (Chip.nova_settle _ k).trans ((Chip.nova_takesBundle _ k _).trans ?_)
      simp [core, passes]
    · refine (Chip.novaSt_settle _ k).trans ((Chip.rd_takesBundle _ k _ (by decide)).trans ?_)
      rw [Chip.rd, read.flds]
      exact runs
  · intro code slot im dm dm2 hs good runs clean below reserved
    obtain ⟨hcode, hslot⟩ := reservedOf_range reserved
    have read := s.c.start.onlyCollects_readsBundle k im
    refine gives_novaBundleIssue hs runs clean good (NCore.issue_reserved reserved) (.inl rfl) ⟨rfl, rfl, rfl, rfl⟩ ?_
    rw [Chip.endsBundle_fault]
    obtain ⟨state, run, fcode, fslot, fpc, sticky, within⟩ :=
      faulted_novaFault (read.writesOn.takesBundle List.mem_cons_self _) (Nat.lt_trans hcode (by decide)) hslot below
    exact ⟨state, run, fcode, fslot, fpc, sticky, within⟩
  · intro im dm dm2 hs good runs clean halt empty straight outside
    have read := s.c.start.onlyCollects_readsBundle k im
    have issued := NCore.issue_halt (empty 0) (empty 1) (empty 2) straight halt outside
    refine gives_novaBundleIssue hs runs clean good issued (.inr (NCore.loadsFrom_zero (empty 1))) ⟨rfl, rfl, rfl, rfl⟩ ?_
    rw [Chip.endsBundle_halted]
    refine ⟨(Chip.novaSt_settle _ k).trans (Chip.novaSt_endsWork _ k), ?_, ?_, ?_,
      (((Chip.Writes.refl _).takesBundle (by simp) (by simp) (by simp) _).endsWork (by simp) (by simp) (by simp)).confined_read read⟩
    · refine (Chip.rd_settle_nova _ k rfl).trans ((Chip.rd_run_endsWork _ k).trans ((Chip.rd_takesBundle _ k _ (by decide)).trans ?_))
      rw [Chip.rd, read.flds]
      rfl
    · rw [Chip.nova_settle, Chip.nova_endsWork, Chip.nova_takesBundle]
      rfl
    · refine (Chip.rd_settle_nova _ k rfl).trans ((Chip.rd_stepsLast_endsWork _ k).trans ?_)
      rw [Chip.novaSteps, Chip.nova_takesBundle, Chip.rd_takesBundle _ _ _ (by decide), Chip.rd, read.flds, NCore.t_flush, NCore.t_passesOn]
      rfl
  · intro im dm dm2 hs runs below error uncorrected
    have read := s.c.start.onlyCollects_readsBundle k im
    refine gives_novaBundleIssue_lost hs runs error uncorrected ?_
    obtain ⟨state, -, fcode, -, fpc, sticky, within⟩ :=
      faulted_novaFault (read.writesOn.updNova k _) (code := 7) (slot := 0) (by decide) (by decide) below
    exact ⟨state, fcode, fpc, sticky, within⟩

end Sys2Proof.Machine
end

section
/-! SUPPORT. Reports of class 9, the schedules' own: the reaction to one leaves the fields of SCHED and what the guard and the governor
hold as the command's effect left them (O27, O28). -/

namespace Sys2Proof.Machine

/-! ## The collector's registers -/

theorem Chip.frd_fwr_self (c : Chip) (f : Fld) (v : Nat) : (c.fwr f v).frd f = v % 2 ^ f.w := by
  simp [Chip.frd, Chip.fwr, getFld, setFld]

theorem Chip.frd_fwr_ne (c : Chip) {f g : Fld} (v : Nat) (h : g.key ≠ f.key) : (c.fwr f v).frd g = c.frd g := by
  simp only [Chip.frd, Chip.fwr, getFld, setFld]
  rw [Store.get_set_other _ _ _ _ h]

theorem stop_key_ne_worstOf (cls : Nat) : Fcu.stop.key ≠ (Fcu.worstOf cls).key := by
  have inWord : 4 * (cls % 8) < 32 := by omega
  by_cases low : cls < 8
  · exact Fld.key_ne rfl (by simp [Fld.ok, Fcu.worstOf, low, inWord]) (by simp [Fcu.worstOf, Fcu.stop, low])
  · exact Fld.key_ne rfl (by simp [Fld.ok, Fcu.worstOf, low, inWord]) (by simp [Fcu.worstOf, Fcu.stop, low])

/-- A cause of a stop of ALIVE that is set, among the three that there are, is set. -/
theorem Chip.bit_stop_stopAlive (c : Chip) {cause i : Nat} (h : i = cause ∨ bit (c.frd Fcu.stop) i = true) (hi : i < 3) :
    bit ((c.stopAlive cause).frd Fcu.stop) i = true := by
  have set : bit (setBit (c.frd Fcu.stop) cause true) i = true := by
    rcases h with rfl | h
    · exact bit_setBit_true _ _
    · exact bit_setBit_of_bit h cause
  have frozen : (c.stopAlive cause).frd Fcu.stop = setBit (c.frd Fcu.stop) cause true % 2 ^ 3 := by
    have run : ((((c.fwr Fcu.stop (setBit (c.frd Fcu.stop) cause true)).stick fcuPage 5).fwr Fcu.aliveRun 0)).frd Fcu.stop =
        setBit (c.frd Fcu.stop) cause true % 2 ^ 3 := by
      rw [Chip.frd_fwr_ne _ _ (by decide)]
      exact Chip.frd_fwr_self _ _ _
    unfold Chip.stopAlive
    dsimp only
    split <;> exact run
  rw [frozen, bit, Nat.testBit_mod_two_pow]
  exact Bool.and_eq_true_iff.mpr ⟨decide_eq_true hi, set⟩

theorem Chip.stickyWord_stopAlive (c : Chip) (cause : Nat) {p : Nat} (h : p ≠ fcuPage) :
    (c.stopAlive cause).stickyWord p = c.stickyWord p := by
  unfold Chip.stopAlive
  dsimp only
  split <;> exact Chip.stick_other (c.fwr Fcu.stop _) fcuPage 5 h

theorem Chip.lt_of_bit_stop {c : Chip} {i : Nat} (h : bit (c.frd Fcu.stop) i = true) : i < 3 := by
  by_contra beyond
  have below : c.frd Fcu.stop < 2 ^ i := Nat.lt_of_lt_of_le (Nat.mod_lt _ (by decide)) (Nat.pow_le_pow_right (by decide) (Nat.not_lt.mp beyond))
  exact absurd (h.symm.trans (Nat.testBit_lt_two_pow below)) (by decide)

/-! ## The reaction to a report of class 9 (R409, R410) -/

/-- Between two machines no register outside the collector differs, nor anything that the schedules hold, and every cause of a stop of
ALIVE that was set is set. -/
structure Chip.KeepsSched (c d : Chip) : Prop where
  flds : d.flds = c.flds
  sch : d.sch = c.sch
  stop : ∀ i, bit (c.frd Fcu.stop) i = true → bit (d.frd Fcu.stop) i = true

/-- No report is added either. -/
structure Chip.OnlyRecords (c d : Chip) : Prop extends Chip.KeepsSched c d where
  reports : d.reports = c.reports

theorem Chip.KeepsSched.rd {c d : Chip} (h : Chip.KeepsSched c d) (f : Fld) : d.rd f = c.rd f := by rw [Chip.rd, h.flds, Chip.rd]

theorem Chip.KeepsSched.rdS {c d : Chip} (h : Chip.KeepsSched c d) (f : Fld) : d.rdS f = c.rdS f := by rw [Chip.rdS, h.rd, Chip.rdS]

section
variable {a b c : Chip}

theorem Chip.OnlyRecords.refl (c : Chip) : Chip.OnlyRecords c c := ⟨⟨rfl, rfl, fun _ h => h⟩, rfl⟩

theorem Chip.OnlyRecords.keep (h : Chip.OnlyRecords a b) (hf : c.flds = b.flds) (hs : c.sch = b.sch) (hr : c.reports = b.reports)
    (hc : c.fcu.regs = b.fcu.regs) : Chip.OnlyRecords a c :=
  ⟨⟨hf.trans h.flds, hs.trans h.sch, fun i k => by rw [Chip.frd, hc]; exact h.stop i k⟩, hr.trans h.reports⟩

theorem Chip.OnlyRecords.fwr (h : Chip.OnlyRecords a b) (f : Fld) (apart : Fcu.stop.key ≠ f.key) (v : Nat) :
    Chip.OnlyRecords a (b.fwr f v) :=
  ⟨⟨h.flds, h.sch, fun i k => by rw [b.frd_fwr_ne v apart]; exact h.stop i k⟩, h.reports⟩

theorem Chip.OnlyRecords.ite {p : Prop} [Decidable p] (h : p → Chip.OnlyRecords a b) (k : ¬p → Chip.OnlyRecords a c) :
    Chip.OnlyRecords a (if p then b else c) := by
  split
  · exact h ‹_›
  · exact k ‹_›

theorem Chip.OnlyRecords.stopAlive (h : Chip.OnlyRecords a b) (cause : Nat) : Chip.OnlyRecords a (b.stopAlive cause) := by
  have others : (b.stopAlive cause).flds = b.flds ∧ (b.stopAlive cause).sch = b.sch ∧ (b.stopAlive cause).reports = b.reports := by
    unfold Chip.stopAlive
    dsimp only
    split <;> exact ⟨rfl, rfl, rfl⟩
  obtain ⟨flds, sch, reports⟩ := others
  refine ⟨⟨flds.trans h.flds, sch.trans h.sch, fun i k => ?_⟩, reports.trans h.reports⟩
  exact b.bit_stop_stopAlive (.inr (h.stop i k)) (Chip.lt_of_bit_stop k)

theorem Chip.OnlyRecords.logEntry (h : Chip.OnlyRecords a b) (e : LogEntry) : Chip.OnlyRecords a (b.logEntry e) := by
  unfold Chip.logEntry
  dsimp only
  refine .fwr (.fwr (.fwr ?_ Fcu.logWptr (by decide) _) Fcu.seq (by decide) _) Fcu.ffValid (by decide) _
  split
  · exact ((h.fwr Fcu.logRptr (by decide) _).fwr Fcu.logOvw (by decide) _).keep rfl rfl rfl rfl
  · exact h.keep rfl rfl rfl rfl

theorem Chip.OnlyRecords.markUnack (h : Chip.OnlyRecords a b) (e : LogEntry) : Chip.OnlyRecords a (b.markUnack e) := by
  have marked := Chip.OnlyRecords.ite (p := (e.inj && !e.real) = true)
    (fun _ => h.fwr Fcu.unackInj (by decide) (setBit (b.frd Fcu.unackInj) (e.src / 16) true))
    (fun _ => h.fwr Fcu.unackReal (by decide) (setBit (b.frd Fcu.unackReal) (e.src / 16) true))
  unfold Chip.markUnack
  refine .fwr ?_ _ (stop_key_ne_worstOf _) _
  exact .ite (fun _ => marked.keep rfl rfl rfl rfl) (fun _ => marked)

/-- The collector contains nothing for class 9, and holds no item for it. -/
theorem Chip.OnlyRecords.react (h : Chip.OnlyRecords a b) (esev : Nat) {r : Report} (hr : r.src / 16 = 9) :
    Chip.OnlyRecords a (b.react esev r) := by
  have uncontained (d : Chip) : d.contain r = d := by simp [Chip.contain, hr]
  have shown := Chip.OnlyRecords.ite (p := 2 ≤ esev) (fun _ => h.keep (c := b.stick fcuPage (esev - 1)) rfl rfl rfl rfl) (fun _ => h)
  unfold Chip.react
  simp only [uncontained, ite_self]
  generalize (if 2 ≤ esev then b.stick fcuPage (esev - 1) else b) = d at shown ⊢
  have held := Chip.OnlyRecords.ite (p := 3 ≤ esev ∧ !d.masked r) (fun _ => shown.keep (c := d.startHolds r) rfl rfl rfl rfl) (fun _ => shown)
  exact .ite (fun _ => .ite (fun _ => (held.stopAlive 0).keep rfl rfl rfl rfl) (fun _ => held.stopAlive 0)) (fun _ => held)

theorem Chip.OnlyRecords.collect (h : Chip.OnlyRecords a b) {p : Nat × Report} (hr : p.2.src / 16 = 9) :
    Chip.OnlyRecords a (b.collect p) := by
  have noEye : ¬p.2.src = 0x18 := by omega
  unfold Chip.collect
  simp only [noEye, if_false]
  exact .ite (fun _ => h) (fun _ => ((h.logEntry _).markUnack _).react p.1 hr)

end

/-! ## The end of a command that reports class 9 alone -/

theorem mem_insertReport {p q : Nat × Report} {l : List (Nat × Report)} (h : p ∈ insertReport q l) : p = q ∨ p ∈ l := by
  induction l with
  | nil => exact .inl (List.mem_singleton.mp h)
  | cons r rest ih =>
    rw [insertReport] at h
    split at h
    · exact List.mem_cons.mp h
    · rcases List.mem_cons.mp h with rfl | later
      · exact .inr List.mem_cons_self
      · exact (ih later).imp_right (List.mem_cons_of_mem _)

/-- The order of R408 invents no report. -/
theorem Chip.mem_reports_of_ranked {c : Chip} {p : Nat × Report} (h : p ∈ c.ranked) : p.2 ∈ c.reports := by
  refine List.foldlRecOn (motive := fun l : List (Nat × Report) => ∀ p ∈ l, p.2 ∈ c.reports) c.reports _ (by simp)
    (fun l ranked r hr q hq => ?_) p h
  rcases mem_insertReport hq with rfl | hq
  · exact hr
  · exact ranked q hq

/-- What the schedules read and hold stands as the command's effect left it. -/
theorem Chip.keepsSched_settle (c : Chip) (class9 : ∀ r ∈ c.reports, r.src / 16 = 9) : Chip.KeepsSched c c.settle := by
  have collected : Chip.OnlyRecords { c with reports := [] } c.collectAll :=
    List.foldlRecOn (motive := Chip.OnlyRecords { c with reports := [] }) _ _ (.refl _)
      fun d hd p hp => hd.collect (class9 p.2 (Chip.mem_reports_of_ranked hp))
  have once : c.collectTwice = c.collectAll := if_pos (by rw [collected.reports]; rfl)
  have ended : Chip.KeepsSched c (if c.reports.isEmpty then c else c.collectTwice) := by
    split
    · exact ⟨rfl, rfl, fun _ h => h⟩
    · rw [once]
      exact ⟨collected.flds, collected.sch, collected.stop⟩
  have idle := idle_interrupts (if c.reports.isEmpty then c else c.collectTwice)
  exact ⟨idle.flds.trans ended.flds, idle.sch.trans ended.sch, fun i h => by rw [Chip.settle, Chip.frd, idle.fcu]; exact ended.stop i h⟩

end Sys2Proof.Machine
end

section
/-! SUPPORT. Rate windows, the governor, the voltage bus and the deadlines of units (O28): what each writes on the page of SCHED. -/

namespace Sys2Proof.Machine

/-! ## The commands' own meanings -/

theorem exec_stepMonitorWindow (k : Fin 64) (steps : BitVec 16) (mv tj : BitVec 10) (s : State) :
    exec (.stepMonitorWindow k steps mv tj) s = execStepMonitorWindow k steps mv tj s := rfl
theorem exec_governorInterval (s : State) : exec .governorInterval s = execGovernorInterval s := rfl
theorem exec_avsFrameDone (frame : Fin 3) (ok : Bool) (value : BitVec 10) (s : State) :
    exec (.avsFrameDone frame ok value) s = execAvsFrameDone frame ok value s := rfl
theorem exec_unitDeadline (cls : Fin 4) (unit : Fin 1152) (steps : BitVec 32) (slack : Option (BitVec 10)) (s : State) :
    exec (.unitDeadline cls unit steps slack) s = execUnitDeadline cls unit steps slack s := rfl

/-! ## What an effect writes, and what it reports -/

/-- Between two machines only fields at the places `gs` and the sticky words of the pages `ps` differ, and only reports of class 9 are
added. -/
structure Chip.Guards (gs : List Fld) (ps : List Nat) (c d : Chip) : Prop extends Chip.Writes gs ps c d where
  class9 : ∀ r ∈ d.reports, r ∈ c.reports ∨ r.src / 16 = 9

/-- The outcome of an attempt of a source is reported as that source, or not at all. -/
theorem Chip.mem_reports_judge {c : Chip} {src page inst detail : Nat} {bad inj : Bool} {r : Report}
    (h : r ∈ (c.judge src page inst detail bad inj).reports) : r ∈ c.reports ∨ r.src = src := by
  have resolved : (c.resolve src page inst detail bad inj).reports = c.reports ∨
      ∃ q : Report, q.src = src ∧ (c.resolve src page inst detail bad inj).reports = c.reports ++ [q] := by
    unfold Chip.resolve
    dsimp only
    split
    · split <;> exact .inl rfl
    · split
      · split <;> exact .inl rfl
      · split
        · split <;> exact .inr ⟨_, rfl, rfl⟩
        · exact .inr ⟨_, rfl, rfl⟩
  have judged : (c.judge src page inst detail bad inj).reports = (c.resolve src page inst detail bad inj).reports := by
    unfold Chip.judge
    dsimp only
    split <;> rfl
  rw [judged] at h
  rcases resolved with same | ⟨q, named, added⟩
  · exact .inl (same ▸ h)
  · rw [added, List.mem_append, List.mem_singleton] at h
    exact h.imp_right (fun e : r = q => e ▸ named)

section
variable {gs : List Fld} {ps qs : List Nat} {a b c : Chip}

theorem Chip.Guards.refl (c : Chip) : Chip.Guards gs ps c c := ⟨.refl c, fun _ => .inl⟩

/-- A change of neither a register nor a sticky word, that reports nothing. -/
theorem Chip.Guards.keep (h : Chip.Guards gs ps a b) (hf : c.flds = b.flds) (hs : c.sticky = b.sticky) (hr : c.reports = b.reports) :
    Chip.Guards gs ps a c :=
  ⟨⟨fun f k => by rw [← h.rd f k, Chip.rd, hf, Chip.rd], fun p k => by rw [← h.sticky p k, Chip.stickyWord, hs, Chip.stickyWord]⟩,
    hr ▸ h.class9⟩

theorem Chip.Guards.wr (h : Chip.Guards gs ps a b) {f : Fld} (hf : f ∈ gs) (v : Nat) : Chip.Guards gs ps a (b.wr f v) :=
  ⟨h.toWrites.wr hf v, h.class9⟩

theorem Chip.Guards.stick (h : Chip.Guards gs ps a b) {p : Nat} (hp : p ∈ ps) (n : Nat) : Chip.Guards gs ps a (b.stick p n) :=
  ⟨h.toWrites.stick hp n, h.class9⟩

theorem Chip.Guards.raise (h : Chip.Guards gs ps a b) {src : Nat} (class9 : src / 16 = 9) (page inst detail : Nat) :
    Chip.Guards gs ps a (b.raise src page inst detail) := by
  refine ⟨h.toWrites.raise _ _ _ _, fun r hr => ?_⟩
  rcases List.mem_append.mp hr with old | new
  · exact h.class9 r old
  · exact .inr (List.mem_singleton.mp new ▸ class9)

theorem Chip.Guards.judge (h : Chip.Guards gs ps a b) {src : Nat} (class9 : src / 16 = 9) (page inst detail : Nat) (bad inj : Bool) :
    Chip.Guards gs ps a (b.judge src page inst detail bad inj) := by
  refine ⟨h.toWrites.judge _ _ _ _ _ _, fun r hr => ?_⟩
  rcases Chip.mem_reports_judge hr with old | new
  · exact h.class9 r old
  · exact .inr (new ▸ class9)

theorem Chip.Guards.updSch (h : Chip.Guards gs ps a b) (f : SchX → SchX) : Chip.Guards gs ps a (b.updSch f) := h.keep rfl rfl rfl

theorem Chip.Guards.ite {p : Prop} [Decidable p] (h : p → Chip.Guards gs ps a b) (k : ¬p → Chip.Guards gs ps a c) :
    Chip.Guards gs ps a (if p then b else c) := by
  split
  · exact h ‹_›
  · exact k ‹_›

theorem Chip.Guards.trans (h : Chip.Guards gs ps a b) (k : Chip.Guards gs ps b c) : Chip.Guards gs ps a c :=
  ⟨⟨fun f hf => (k.rd f hf).trans (h.rd f hf), fun p hp => (k.sticky p hp).trans (h.sticky p hp)⟩,
    fun r hr => (k.class9 r hr).elim (h.class9 r) .inr⟩

theorem Chip.Guards.mono (h : Chip.Guards gs ps a b) (k : ps ⊆ qs) : Chip.Guards gs qs a b :=
  ⟨⟨h.rd, fun p hp => h.sticky p (fun m => hp (k m))⟩, h.class9⟩

theorem Chip.Guards.monoFields {hs : List Fld} (h : Chip.Guards gs ps a b) (k : gs ⊆ hs) : Chip.Guards hs ps a b :=
  ⟨⟨fun f hf => h.rd f (fun g m => hf g (k m)), h.sticky⟩, h.class9⟩

theorem Chip.Guards.stopAlive (h : Chip.Guards gs ps a b) (page : fcuPage ∈ ps) (cause : Nat) : Chip.Guards gs ps a (b.stopAlive cause) := by
  unfold Chip.stopAlive
  exact .ite (fun _ => (h.stick page 5).keep rfl rfl rfl) (fun _ => (h.stick page 5).keep rfl rfl rfl)

theorem Chip.Guards.setVolt (h : Chip.Guards gs ps a b) (vset : Sched.vset ∈ gs) (v : Nat) : Chip.Guards gs ps a (b.setVolt v) := by
  unfold Chip.setVolt
  exact .ite (fun _ => h) (fun _ => .ite (fun _ => (h.wr vset v).keep rfl rfl rfl) (fun _ => (h.wr vset v).keep rfl rfl rfl))

end

/-- What the schedules read and hold when a command ends is what its effect left. -/
theorem Chip.Guards.keepsSched {gs : List Fld} {ps : List Nat} {s : State} {d : Chip} (h : Chip.Guards gs ps s.c.start d) :
    Chip.KeepsSched d d.settle :=
  d.keepsSched_settle fun r hr => (h.class9 r hr).resolve_left List.not_mem_nil

/-- An effect on fields and sticky words that a reaction may write too confines the command to the other pages' sticky words. -/
theorem Chip.Writes.confined_reacting {gs : List Fld} {ps qs : List Nat} {s : State} {d : Chip} (h : Chip.Writes gs ps s.c.start d)
    (hg : ∀ g ∈ gs, g.ok = true ∧ reacts g.page = true) (hp : ∀ p ∈ ps, p ∈ qs ∨ reactsSticky p = true) :
    Confined [] qs s { s with c := d.settle } := by
  have confined := h.confined_answered (hs := []) (Chip.OnlyAnswers.refl d) (fun g m => .inr (hg g m))
  refine ⟨confined.mem, confined.pending, confined.regs, fun p hr hn => confined.sticky p hr fun m => ?_⟩
  exact (hp p m).elim hn (fun react => absurd (hr.symm.trans react) (by decide))

theorem Chip.stickyWord_settle_sched (c : Chip) : c.settle.stickyWord schedPage = c.stickyWord schedPage := (settled c).stickyWord _ rfl

/-! ## Voltages (R266) -/

@[simp] theorem Chip.rd_updSch (c : Chip) (f : SchX → SchX) (g : Fld) : (c.updSch f).rd g = c.rd g := rfl
@[simp] theorem Chip.updSch_sch (c : Chip) (f : SchX → SchX) : (c.updSch f).sch = f c.sch := rfl
@[simp] theorem Chip.stickyWord_updSch (c : Chip) (f : SchX → SchX) (p : Nat) : (c.updSch f).stickyWord p = c.stickyWord p := rfl
@[simp] theorem Chip.sch_passHolds (c : Chip) (src page inst : Nat) : (c.passHolds src page inst).sch = c.sch := rfl

/-- A voltage that is new is commanded at once while the bus works and no write is outstanding. -/
theorem Chip.setVolt_idle {c : Chip} {v : Nat} (new : c.rd Sched.vset ≠ v) (works : c.rd Sched.avs ≠ 3) (idle : c.sch.busy = false) :
    c.setVolt v = ((c.wr Sched.vset v).updSch (fun x => { x with busy := true, sent := v })).emit (.avs (c.rd Sched.avsRail) v) := by
  have apart : (c.wr Sched.vset v).rd Sched.avsRail = c.rd Sched.avsRail := c.rd_wr_ne v (by decide)
  simp only [Chip.setVolt, new, works, or_self, if_false, Chip.wr_sch, idle, Bool.false_eq_true]
  rw [← apart]
  rfl

theorem Chip.wins_setVolt (c : Chip) (v : Nat) : (c.setVolt v).sch.wins = c.sch.wins := by
  unfold Chip.setVolt
  dsimp only
  split
  · rfl
  · split <;> rfl

theorem Chip.sticky_setVolt (c : Chip) (v : Nat) : (c.setVolt v).sticky = c.sticky := by
  unfold Chip.setVolt
  dsimp only
  split
  · rfl
  · split <;> rfl

/-! ## Rate windows (R262, R267) -/

/-- The fields that a monitor's window may write, beside `RATE_MIN` and what the governor shows of its intervals. -/
def monitorFields : List Fld :=
  [Sched.rateLow, Sched.rateLowCluster, Sched.floorOk, Sched.vset, Sched.vsense, Sched.tj, Sched.condOk]

theorem monitorFields_react : ∀ g ∈ monitorFields, g.ok = true ∧ reacts g.page = true := by decide

/-- The lowest rate of the interval, with its cluster, once cluster `k` has shown `rate`. -/
def Chip.lowestWith (c : Chip) (rate k : Nat) : Option (Nat × Nat) :=
  match c.sch.low with
  | some q => if rate < q.1 then some (rate, k) else some q
  | none => some (rate, k)

/-- What a window records, whatever its rate. -/
def Chip.recordsWindow (c : Chip) (k n : Nat) : Chip :=
  let rate := min 4095 (n / 10)
  let c := c.updSch (fun x => { x with wins := Store.set 0 x.wins k n, low := c.lowestWith rate k })
  if rate < c.rd Sched.rateLow then (c.wr Sched.rateLow rate).wr Sched.rateLowCluster k else c

/-- The episode below the floor is counted and, at its first window, reported. -/
def Chip.countsBelow (c : Chip) (k : Nat) : Chip :=
  let first := c.sch.owed.isEmpty
  let owed := if first then List.range 64 else if c.sch.owed.contains k then c.sch.owed else k :: c.sch.owed
  let below := if c.sch.below.contains k then c.sch.below else k :: c.sch.below
  let c := c.updSch (fun x => { x with below := below, owed := owed, rateBad := x.rateBad + 1 })
  if first then (c.raise 0x92 schedPage k 0).stick schedPage 2 else c.stick schedPage 2

/-- Below the floor an enabled governor does not wait for its interval. -/
def Chip.commandsMore (c : Chip) : Chip := if c.on Sched.govEn then c.setVolt (min (c.commanded + 20) c.vmax) else c

/-- The rate floor is broken: the voltage rises, and ALIVE stops. -/
def Chip.missesFloor (c : Chip) (k : Nat) : Chip :=
  let c := c.countsBelow k
  (({ c with fcu := { c.fcu with floorStop := true } }.commandsMore).wr Sched.floorOk 0).stopAlive 2

/-- The window of a cluster that keeps the floor ends its share of an episode. -/
def Chip.keepsFloor (c : Chip) (k : Nat) : Chip :=
  let c := c.updSch (fun x => { x with below := x.below.filter (fun j => j ≠ k), owed := x.owed.filter (fun j => j ≠ k) })
  let c := if c.sch.owed.isEmpty then c.passHolds 0x92 schedPage k else c
  if c.sch.below.isEmpty then { c with fcu := { c.fcu with floorStop := false } }.wr Sched.floorOk 1 else c

theorem Chip.rateWindow_below (c : Chip) (k : Nat) {n : Nat} (h : n < 14000) : c.rateWindow k n = (c.recordsWindow k n).missesFloor k :=
  if_pos h

theorem Chip.rateWindow_above (c : Chip) (k : Nat) {n : Nat} (h : 14000 ≤ n) : c.rateWindow k n = (c.recordsWindow k n).keepsFloor k :=
  if_neg (Nat.not_lt.mpr h)

section
variable (c : Chip) (k n : Nat)

theorem Chip.guards_recordsWindow : Chip.Guards monitorFields [] c (c.recordsWindow k n) := by
  have recorded := (Chip.Guards.refl (gs := monitorFields) (ps := []) c).updSch
    (fun x => { x with wins := Store.set 0 x.wins k n, low := c.lowestWith (min 4095 (n / 10)) k })
  exact .ite (fun _ => (recorded.wr (by simp [monitorFields]) _).wr (by simp [monitorFields]) _) (fun _ => recorded)

theorem Chip.wins_recordsWindow : Store.get 0 (c.recordsWindow k n).sch.wins k = n := by
  unfold Chip.recordsWindow
  dsimp only
  split <;> exact Store.get_set_self 0 n k c.sch.wins

theorem Chip.guards_keepsFloor : Chip.Guards monitorFields [] c (c.keepsFloor k) := by
  have shared := (Chip.Guards.refl (gs := monitorFields) (ps := []) c).updSch
    (fun x => { x with below := x.below.filter (fun j => j ≠ k), owed := x.owed.filter (fun j => j ≠ k) })
  unfold Chip.keepsFloor
  dsimp only
  generalize c.updSch _ = d at shared ⊢
  have passed : Chip.Guards monitorFields [] c (if d.sch.owed.isEmpty then d.passHolds 0x92 schedPage k else d) :=
    .ite (fun _ => shared.keep rfl rfl rfl) (fun _ => shared)
  generalize (if d.sch.owed.isEmpty then d.passHolds 0x92 schedPage k else d) = e at passed ⊢
  exact .ite (fun _ => (passed.keep (c := { e with fcu := { e.fcu with floorStop := false } }) rfl rfl rfl).wr (by simp [monitorFields]) 1)
    (fun _ => passed)

theorem Chip.wins_keepsFloor : (c.keepsFloor k).sch.wins = c.sch.wins := by
  unfold Chip.keepsFloor
  dsimp only
  split <;> split <;> rfl

theorem Chip.guards_countsBelow : Chip.Guards monitorFields [schedPage, fcuPage] c (c.countsBelow k) := by
  have counted (f : SchX → SchX) := (Chip.Guards.refl (gs := monitorFields) (ps := [schedPage, fcuPage]) c).updSch f
  exact .ite (fun _ => ((counted _).raise (by decide) _ _ _).stick (by simp) 2) (fun _ => (counted _).stick (by simp) 2)

theorem Chip.countsBelow_leaves :
    (c.countsBelow k).sch.wins = c.sch.wins ∧ bit ((c.countsBelow k).stickyWord schedPage) 2 = true := by
  unfold Chip.countsBelow
  dsimp only
  split <;> exact ⟨rfl, (congrArg (bit · 2) (Chip.stick_self _ schedPage 2)).trans (bit_setBit_true _ 2)⟩

theorem Chip.commandsMore_leaves : c.commandsMore.sch.wins = c.sch.wins ∧ c.commandsMore.sticky = c.sticky := by
  unfold Chip.commandsMore
  split
  · exact ⟨c.wins_setVolt _, c.sticky_setVolt _⟩
  · exact ⟨rfl, rfl⟩

theorem Chip.guards_missesFloor : Chip.Guards monitorFields [schedPage, fcuPage] c (c.missesFloor k) := by
  have stopped := (c.guards_countsBelow k).keep
    (c := { c.countsBelow k with fcu := { (c.countsBelow k).fcu with floorStop := true } }) rfl rfl rfl
  have commanded : Chip.Guards monitorFields [schedPage, fcuPage] c
      ({ c.countsBelow k with fcu := { (c.countsBelow k).fcu with floorStop := true } }.commandsMore) :=
    .ite (fun _ => stopped.setVolt (by simp [monitorFields]) _) (fun _ => stopped)
  exact (commanded.wr (by simp [monitorFields]) 0).stopAlive (by simp) 2

/-- A window below the floor is kept, `FLOOR_OK` reads 0, sticky bit 2 is set and so is ALIVE's cause 2. -/
theorem Chip.missesFloor_leaves :
    (c.missesFloor k).sch.wins = c.sch.wins ∧ (c.missesFloor k).rd Sched.floorOk = 0 ∧
      bit ((c.missesFloor k).stickyWord schedPage) 2 = true ∧ bit ((c.missesFloor k).frd Fcu.stop) 2 = true := by
  obtain ⟨wins, shown⟩ := c.countsBelow_leaves k
  obtain ⟨winsKept, stickyKept⟩ :=
    Chip.commandsMore_leaves { c.countsBelow k with fcu := { (c.countsBelow k).fcu with floorStop := true } }
  unfold Chip.missesFloor
  dsimp only
  generalize Chip.commandsMore _ = d at winsKept stickyKept ⊢
  have stopped := (Chip.OnlyRecords.refl (d.wr Sched.floorOk 0)).stopAlive 2
  refine ⟨?_, ?_, ?_, Chip.bit_stop_stopAlive _ (.inl rfl) (by decide)⟩
  · rw [stopped.sch, Chip.wr_sch, winsKept]
    exact wins
  · rw [stopped.rd, Chip.rd_wr_self]
    rfl
  · rw [Chip.stickyWord_stopAlive _ 2 (by decide), Chip.stickyWord, Chip.wr_sticky, stickyKept]
    exact shown

/-- Whatever its rate, a window is kept. -/
theorem Chip.wins_rateWindow : Store.get 0 (c.rateWindow k n).sch.wins k = n := by
  rcases Nat.lt_or_ge n 14000 with below | above
  · obtain ⟨wins, -⟩ := (c.recordsWindow k n).missesFloor_leaves k
    rw [c.rateWindow_below k below, wins, c.wins_recordsWindow]
  · rw [c.rateWindow_above k above, Chip.wins_keepsFloor, c.wins_recordsWindow]

theorem Chip.guards_rateWindow_above (h : 14000 ≤ n) : Chip.Guards monitorFields [] c (c.rateWindow k n) := by
  rw [c.rateWindow_above k h]
  exact (c.guards_recordsWindow k n).trans (Chip.guards_keepsFloor _ k)

theorem Chip.guards_rateWindow : Chip.Guards monitorFields [schedPage, fcuPage] c (c.rateWindow k n) := by
  rcases Nat.lt_or_ge n 14000 with below | above
  · rw [c.rateWindow_below k below]
    exact ((c.guards_recordsWindow k n).mono (by simp)).trans (Chip.guards_missesFloor _ k)
  · exact (c.guards_rateWindow_above k n above).mono (by simp)

/-! ## The floor condition (R267) -/

variable (mv : Nat) (tj : Int)

theorem Chip.condWindow_in (h : ¬(mv < 720 ∨ 110 < tj)) :
    c.condWindow mv tj = (((c.wr Sched.vsense mv).wrS Sched.tj tj).wr Sched.condOk 1).passHolds 0x95 schedPage 0 := if_neg h

theorem Chip.condWindow_out (h : mv < 720 ∨ 110 < tj) :
    c.condWindow mv tj = ((((((c.wr Sched.vsense mv).wrS Sched.tj tj).wr Sched.condOk 0).updSch
      (fun x => { x with condBad := x.condBad + 1 })).raise 0x95 schedPage 0 0).stick schedPage 5) := if_pos h

theorem Chip.guards_showsCondition (ps : List Nat) (v : Nat) :
    Chip.Guards monitorFields ps c (((c.wr Sched.vsense mv).wrS Sched.tj tj).wr Sched.condOk v) :=
  (((Chip.Guards.refl c).wr (by simp [monitorFields]) _).wr (by simp [monitorFields]) _).wr (by simp [monitorFields]) _

theorem Chip.guards_condWindow_in (h : ¬(mv < 720 ∨ 110 < tj)) : Chip.Guards monitorFields [] c (c.condWindow mv tj) := by
  rw [c.condWindow_in mv tj h]
  exact (c.guards_showsCondition mv tj [] 1).keep rfl rfl rfl

theorem Chip.guards_condWindow : Chip.Guards monitorFields [schedPage, fcuPage] c (c.condWindow mv tj) := by
  by_cases out : mv < 720 ∨ 110 < tj
  · rw [c.condWindow_out mv tj out]
    exact (((c.guards_showsCondition mv tj _ 0).updSch _).raise (by decide) _ _ _).stick (by simp) _
  · exact (c.guards_condWindow_in mv tj out).mono (by simp)

/-- The check of the condition leaves the windows, `FLOOR_OK` and the causes of a stop, and takes no sticky bit back. -/
theorem Chip.condWindow_leaves :
    (c.condWindow mv tj).sch.wins = c.sch.wins ∧ (c.condWindow mv tj).rd Sched.floorOk = c.rd Sched.floorOk ∧
      (c.condWindow mv tj).frd Fcu.stop = c.frd Fcu.stop ∧
      (bit (c.stickyWord schedPage) 2 = true → bit ((c.condWindow mv tj).stickyWord schedPage) 2 = true) := by
  have floor (v : Nat) : (((c.wr Sched.vsense mv).wrS Sched.tj tj).wr Sched.condOk v).rd Sched.floorOk = c.rd Sched.floorOk := by
    rw [Chip.wrS, Chip.rd_wr_ne _ _ (by decide), Chip.rd_wr_ne _ _ (by decide), Chip.rd_wr_ne _ _ (by decide)]
  by_cases out : mv < 720 ∨ 110 < tj
  · rw [c.condWindow_out mv tj out]
    exact ⟨rfl, floor 0, rfl, fun set => (congrArg (bit · 2) (Chip.stick_self _ _ 5)).trans (bit_setBit_of_bit set 5)⟩
  · rw [c.condWindow_in mv tj out]
    exact ⟨rfl, floor 1, rfl, id⟩

end

theorem toSigned_ofSigned_toInt (v : BitVec 10) : toSigned 10 (ofSigned 10 v.toInt % 2 ^ 10) = v.toInt := by
  have bound := v.isLt
  have cases := v.toInt_eq_toNat_cond
  simp only [toSigned, ofSigned]
  omega

/-- Voltage and temperature are shown as they stood, and `COND_OK` reads 1, where both were within the condition. -/
theorem Chip.rd_condWindow_in (c : Chip) (mv tj : BitVec 10) (h : ¬(mv.toNat < 720 ∨ 110 < tj.toInt)) :
    (c.condWindow mv.toNat tj.toInt).rd Sched.condOk = 1 ∧ (c.condWindow mv.toNat tj.toInt).rd Sched.vsense = mv.toNat ∧
      (c.condWindow mv.toNat tj.toInt).rdS Sched.tj = tj.toInt := by
  rw [c.condWindow_in _ _ h, Chip.rdS]
  simp only [Chip.rd_passHolds, Chip.wrS]
  refine ⟨Chip.rd_wr_self _ _ 1, ?_, ?_⟩
  · rw [Chip.rd_wr_ne _ _ (by decide), Chip.rd_wr_ne _ _ (by decide), Chip.rd_wr_self]
    exact Nat.mod_eq_of_lt mv.isLt
  · rw [Chip.rd_wr_ne _ _ (by decide), Chip.rd_wr_self]
    exact toSigned_ofSigned_toInt tj

theorem Chip.rd_condWindow_out (c : Chip) {mv : Nat} {tj : Int} (h : mv < 720 ∨ 110 < tj) :
    (c.condWindow mv tj).rd Sched.condOk = 0 ∧ bit ((c.condWindow mv tj).stickyWord schedPage) 5 = true := by
  rw [c.condWindow_out mv tj h]
  exact ⟨Chip.rd_wr_self _ _ 0, (congrArg (bit · 5) (Chip.stick_self _ _ 5)).trans (bit_setBit_true _ 5)⟩

/-- A monitor's window while its timebase runs is its rate and then its condition. -/
theorem gives_stepMonitorWindow {s : State} {k : Fin 64} {steps : BitVec 16} {mv tj : BitVec 10} {P : State → Prop} (hs : s.Runs)
    (timed : s.c.mer.stopped = false) (hP : P { s with c := ((s.c.start.rateWindow k steps.toNat).condWindow mv.toNat tj.toInt).settle }) :
    Gives (.stepMonitorWindow k steps mv tj) s P := by
  have running : ¬s.c.start.mer.stopped = true := by simp [timed]
  exact gives_of_body hs (exec_stepMonitorWindow k steps mv tj s) (if_neg running) hP

/-! ## The governor (R266) -/

/-- The fields that an interval of the governor may write. -/
def governorFields : List Fld := [Sched.rateMin, Sched.rateCluster, Sched.govAtMax, Sched.vset]

theorem governorFields_react : ∀ g ∈ governorFields, g.ok = true ∧ reacts g.page = true := by decide

theorem Chip.presentLow_le (c : Chip) : c.presentLow.1 ≤ 4095 := by
  refine List.foldlRecOn (motive := fun a : Nat × Nat => a.1 ≤ 4095) c.sch.wins _ (Nat.le_refl 4095) fun a ha p _ => ?_
  split
  · exact Nat.min_le_left _ _
  · exact ha

/-- What the governor does at the end of an interval before its voltage: the interval's lowest rate is shown, and neither the count at
`VMAX` nor that of high intervals goes on. -/
def Chip.endsInterval (c : Chip) (r : Nat × Nat) : Chip :=
  ((((((c.wr Sched.rateMin r.1).wr Sched.rateCluster r.2).updSch (fun x => { x with low := none })).updSch
    (fun x => { x with atMax := 0 })).wr Sched.govAtMax 0).passHolds 0x93 schedPage 0).updSch (fun x => { x with high := 0 })

theorem Chip.rd_endsInterval (c : Chip) (r : Nat × Nat) {f : Fld}
    (apart : (decide (f.key ≠ Sched.rateMin.key) && decide (f.key ≠ Sched.rateCluster.key) && decide (f.key ≠ Sched.govAtMax.key)) = true) :
    (c.endsInterval r).rd f = c.rd f := by
  simp only [Bool.and_eq_true, decide_eq_true_eq] at apart
  obtain ⟨⟨rate, cluster⟩, atMax⟩ := apart
  simp only [Chip.endsInterval, Chip.rd_updSch, Chip.rd_passHolds]
  rw [Chip.rd_wr_ne _ _ atMax, Chip.rd_updSch, Chip.rd_updSch, Chip.rd_wr_ne _ _ cluster, Chip.rd_wr_ne _ _ rate]

theorem Chip.guards_endsInterval (c : Chip) (r : Nat × Nat) : Chip.Guards governorFields [] c (c.endsInterval r) := by
  have shown := ((((Chip.Guards.refl (ps := []) c).wr (f := Sched.rateMin) (gs := governorFields) (by simp [governorFields]) r.1).wr
    (f := Sched.rateCluster) (by simp [governorFields]) r.2).updSch (fun x => { x with low := none })).updSch (fun x => { x with atMax := 0 })
  exact (shown.wr (f := Sched.govAtMax) (by simp [governorFields]) 0).keep rfl rfl rfl

/-- Below its target, and below its limit, the governor commands 5 mV more. -/
theorem Chip.governor_raises {c : Chip} (enabled : c.on Sched.govEn = true) (none : c.sch.low = none)
    (low : c.presentLow.1 + c.rd Sched.govHyst < max (c.rd Sched.govTarget) 1450) (running : 720 ≤ c.rd Sched.vset)
    (room : c.rd Sched.vset < c.vmax) :
    c.governor = (c.endsInterval c.presentLow).setVolt (min (c.rd Sched.vset + 5) c.vmax) := by
  have started : ¬c.rd Sched.vset = 0 := by omega
  have lower : ¬c.rd Sched.vset = c.vmax := Nat.ne_of_lt room
  have within : ¬0 = 10 := by decide
  unfold Chip.governor
  simp only [none]
  generalize hd : ((c.wr Sched.rateMin c.presentLow.1).wr Sched.rateCluster c.presentLow.2).updSch _ = d
  have kept {f : Fld} (rate : f.key ≠ Sched.rateMin.key) (cluster : f.key ≠ Sched.rateCluster.key) : d.rd f = c.rd f := by
    rw [← hd, Chip.rd_updSch, Chip.rd_wr_ne _ _ cluster, Chip.rd_wr_ne _ _ rate]
  have on : d.on Sched.govEn = true := by rw [Chip.on, kept (by decide) (by decide)]; exact enabled
  have limit : d.vmax = c.vmax := by rw [Chip.vmax, kept (by decide) (by decide), Chip.vmax]
  have limitShown (g : SchX → SchX) : (((d.updSch g).wr Sched.govAtMax 0).passHolds 0x93 schedPage 0).vmax = c.vmax := by
    rw [Chip.vmax, Chip.rd_passHolds, Chip.rd_wr_ne _ _ (by decide), Chip.rd_updSch, ← limit, Chip.vmax]
  have voltage : d.commanded = c.rd Sched.vset := by rw [Chip.commanded, kept (by decide) (by decide), orElse0, if_neg started]
  have target : d.rd Sched.govTarget = c.rd Sched.govTarget := kept (by decide) (by decide)
  have hyst : d.rd Sched.govHyst = c.rd Sched.govHyst := kept (by decide) (by decide)
  simp only [on, Bool.not_true, Bool.false_eq_true, if_false, voltage, limit, lower, and_false, target, hyst, low, if_true, within, limitShown]
  rw [Chip.endsInterval, hd]

/-- An interval that ends with the command of the voltage `v`. -/
def Chip.commandsVoltage (c : Chip) (v : Nat) : Chip :=
  (((c.endsInterval c.presentLow).wr Sched.vset v).updSch (fun x => { x with busy := true, sent := v })).emit (.avs (c.rd Sched.avsRail) v)

theorem Chip.guards_commandsVoltage (c : Chip) (v : Nat) : Chip.Guards governorFields [] c (c.commandsVoltage v) := by
  have written := (c.guards_endsInterval c.presentLow).wr (f := Sched.vset) (by simp [governorFields]) v
  exact written.keep rfl rfl rfl

theorem Chip.rd_vset_commandsVoltage (c : Chip) {v : Nat} (hv : v < 1024) : (c.commandsVoltage v).rd Sched.vset = v := by
  rw [Chip.commandsVoltage, Chip.rd_emit, Chip.rd_updSch, Chip.rd_wr_self]
  exact Nat.mod_eq_of_lt hv

theorem Chip.rd_rateMin_commandsVoltage (c : Chip) (v : Nat) : (c.commandsVoltage v).rd Sched.rateMin = c.presentLow.1 := by
  rw [Chip.commandsVoltage, Chip.rd_emit, Chip.rd_updSch, Chip.rd_wr_ne _ _ (by decide)]
  simp (disch := decide) only [Chip.endsInterval, Chip.rd_updSch, Chip.rd_passHolds, Chip.rd_wr_ne, Chip.rd_wr_self]
  exact Nat.mod_eq_of_lt (Nat.lt_of_le_of_lt c.presentLow_le (by decide : 4095 < 2 ^ 12))

/-- The answer of an interval that raises the voltage. -/
theorem gives_governorInterval {s : State} {P : State → Prop} (hs : s.Runs) (enabled : s.c.on Sched.govEn = true)
    (works : s.c.rd Sched.avs ≠ 3) (idle : s.c.sch.busy = false) (none : s.c.sch.low = none)
    (low : s.c.presentLow.1 + s.c.rd Sched.govHyst < max (s.c.rd Sched.govTarget) 1450) (running : 720 ≤ s.c.rd Sched.vset)
    (room : s.c.rd Sched.vset < s.c.vmax)
    (hP : P { s with c := (s.c.start.commandsVoltage (min s.c.vmax (s.c.rd Sched.vset + 5))).settle }) : Gives .governorInterval s P := by
  have body := Chip.governor_raises (c := s.c.start) enabled none low running room
  have new : (s.c.start.endsInterval s.c.presentLow).rd Sched.vset ≠ min s.c.vmax (s.c.rd Sched.vset + 5) := by
    rw [Chip.rd_endsInterval _ _ (by decide), Chip.rd_start]
    omega
  have bus : (s.c.start.endsInterval s.c.presentLow).rd Sched.avs ≠ 3 := by
    rw [Chip.rd_endsInterval _ _ (by decide)]
    exact works
  have commanded := Chip.setVolt_idle new bus idle
  rw [Chip.rd_endsInterval _ _ (by decide)] at commanded
  exact gives_of_body hs (exec_governorInterval s) (body.trans ((congrArg _ (Nat.min_comm _ _)).trans commanded)) hP

/-! ## The voltage bus (R265) -/

/-- The fields that the end of a frame may write. -/
def busFields : List Fld := [Sched.avs, Sched.vread]

theorem busFields_react : ∀ g ∈ busFields, g.ok = true ∧ reacts g.page = true := by decide

theorem Chip.rd_judge (c : Chip) (src page inst detail : Nat) (bad inj : Bool) (f : Fld) :
    (c.judge src page inst detail bad inj).rd f = c.rd f := by
  obtain ⟨u, r, e⟩ := c.judge_frame src page inst detail bad inj
  rw [e]
  rfl

theorem Chip.sch_judge (c : Chip) (src page inst detail : Nat) (bad inj : Bool) : (c.judge src page inst detail bad inj).sch = c.sch := by
  obtain ⟨u, r, e⟩ := c.judge_frame src page inst detail bad inj
  rw [e]

/-- A good voltage read, once its frame is judged. -/
def Chip.takesVoltage (c : Chip) (value : Nat) : Chip :=
  ((c.wr Sched.avs 1).updSch (fun x => { x with repeating := false })).wr Sched.vread value

theorem Chip.guards_takesVoltage (c : Chip) (value : Nat) : Chip.Guards busFields [] c ((c.judge 0x94 schedPage 0 0 false).takesVoltage value) := by
  have judged := (Chip.Guards.refl (gs := busFields) (ps := []) c).judge (src := 0x94) (by decide) schedPage 0 0 false false
  exact ((judged.wr (by simp [busFields]) 1).updSch _).wr (by simp [busFields]) value

theorem Chip.takesVoltage_leaves (c : Chip) {value : Nat} (h : value < 1024) :
    (c.takesVoltage value).rd Sched.vread = value ∧ (c.takesVoltage value).rd Sched.avs = 1 := by
  refine ⟨?_, ?_⟩
  · rw [Chip.takesVoltage, Chip.rd_wr_self]
    exact Nat.mod_eq_of_lt h
  · rw [Chip.takesVoltage, Chip.rd_wr_ne _ _ (by decide), Chip.rd_updSch, Chip.rd_wr_self]
    rfl

/-- After a read that succeeds the bus asks for the status where a write was left outstanding, and does nothing else. -/
theorem gives_avsFrameDone_read {s : State} {value : BitVec 10} {P : State → Prop} (hs : s.Runs)
    (hP : ∀ d : Chip, d = (s.c.start.judge 0x94 schedPage 0 0 false).takesVoltage value.toNat ∨
      d = ((s.c.start.judge 0x94 schedPage 0 0 false).takesVoltage value.toNat).emit (.avsRead (s.c.rd Sched.avsRail) 2) →
      P { s with c := d.settle }) : Gives (.avsFrameDone 1 true value) s P := by
  refine gives_of_body hs (exec_avsFrameDone 1 true value s) rfl (hP _ ?_)
  dsimp only
  by_cases asks : s.c.start.rd Sched.avs = 3 ∧ (s.c.start.judge 0x94 schedPage 0 0 false).sch.busy = true
  · exact .inr (if_pos asks)
  · exact .inl (if_neg asks)

/-- A second failure, once the frame is judged: the bus has failed. -/
def Chip.endsBus (c : Chip) : Chip := ((c.stick schedPage 4).wr Sched.avs 3).updSch (fun x => { x with repeating := false })

theorem Chip.guards_endsBus (c : Chip) : Chip.Guards busFields [schedPage] c (c.judge 0x94 schedPage 0 0 true).endsBus := by
  have judged := (Chip.Guards.refl (gs := busFields) (ps := [schedPage]) c).judge (src := 0x94) (by decide) schedPage 0 0 true false
  exact ((judged.stick List.mem_cons_self 4).wr (by simp [busFields]) 3).updSch _

theorem Chip.endsBus_leaves (c : Chip) : c.endsBus.rd Sched.avs = 3 ∧ c.endsBus.sch.repeating = false ∧
    bit (c.endsBus.stickyWord schedPage) 4 = true := by
  refine ⟨?_, rfl, ?_⟩
  · rw [Chip.endsBus, Chip.rd_updSch, Chip.rd_wr_self]
    rfl
  · exact (congrArg (bit · 4) (c.stick_self schedPage 4)).trans (bit_setBit_true _ 4)

/-- The second failure of a frame in a row. -/
theorem gives_avsFrameDone_failed {s : State} {frame : Fin 3} {value : BitVec 10} {P : State → Prop} (hs : s.Runs)
    (again : s.c.sch.repeating = true) (hP : P { s with c := (s.c.start.judge 0x94 schedPage 0 0 true).endsBus.settle }) :
    Gives (.avsFrameDone frame false value) s P := by
  have repeats : ((s.c.start.judge 0x94 schedPage 0 0 true).stick schedPage 4).sch.repeating = true := by
    rw [Chip.stick_sch, Chip.sch_judge]
    exact again
  exact gives_of_body hs (exec_avsFrameDone frame false value s) ((if_pos rfl).trans (if_pos repeats)) hP

/-! ## Deadlines (R280 to R282) -/

/-- Whether a unit misses its deadline. -/
def Chip.late (c : Chip) (cls unit : Nat) (slack : Option Nat) : Bool :=
  match cls with
  | 0 => c.novaSt unit = Nst.run || c.novaSt unit = Nst.xchg
  | 1 => slack.isNone || !(c.tile unit).ran
  | _ => slack.isNone

/-- The slack of a deadline is kept where it is the lowest, and reported where it is short. -/
def Chip.judgesSlack (c : Chip) (late : Bool) (cls unit val : Nat) : Chip :=
  let c := if val < c.rd (Sched.slackMin.nth cls) then (c.wr (Sched.slackMin.nth cls) val).wr (Sched.slackUnit.nth cls) unit else c
  if !late ∧ val < c.rd Sched.slackWarn then (c.raise 0x91 schedPage (unit + 65536 * cls) cls).stick schedPage 1 else c

/-- Steps beyond the budget are counted. -/
def Chip.judgesBudget (c : Chip) (cls unit steps : Nat) : Chip :=
  if c.unitBudget cls unit < steps then ((c.inc Sched.budgetCnt).raise 0x96 schedPage (unit + 65536 * cls) cls).stick schedPage 6 else c

/-- A missed deadline is counted and shown. -/
def Chip.showsOverrun (c : Chip) (cls unit cause : Nat) : Chip :=
  let c := ((c.inc Sched.ovrCnt).wr Sched.ovrClass cls).wr Sched.ovrUnit unit
  ((c.wr Sched.ovrCause cause).wr Sched.ovrLevel (c.overrunLevel cls unit)).stick schedPage 0

/-- The unit takes note of a missed deadline, which is reported by its cause. -/
def Chip.judgesOverrun (c : Chip) (cls unit cause : Nat) : Chip :=
  let c := if cls = 1 then c.updTile unit (fun x => { x with lvl := { x.lvl with ovr := true } }) else c
  if cause = 4 then (c.dropAttempt 0x90 schedPage (unit + 65536 * cls)).raise 0x90 schedPage (unit + 65536 * cls) cls
  else c.judge 0x90 schedPage (unit + 65536 * cls) cls true

/-- A deadline judges the slack, the budget and then the overrun; an instance of the unit's work begins. -/
theorem Chip.deadline_parts (c : Chip) (cls unit steps : Nat) (slack : Option Nat) :
    c.deadline cls unit steps slack =
      (let d := (c.judgesSlack (c.late cls unit slack) cls unit (if c.late cls unit slack then 0 else slack.getD 0)).judgesBudget cls unit steps
       if c.late cls unit slack then
        (d.showsOverrun cls unit (d.overrunCause cls unit steps)).judgesOverrun cls unit (d.overrunCause cls unit steps)
       else d.judge 0x90 schedPage (unit + 65536 * cls) cls false).instanceBegins cls unit := rfl

theorem Level.step_late_level (l : Level) (n : Nat) : (l.step true n).1.level < 4 := by
  unfold Level.step
  split
  · exact (by decide : 1 < 4)
  · split
    · exact (by decide : 2 < 4)
    · exact (by decide : 3 < 4)

theorem Chip.overrunLevel_lt (c : Chip) (cls unit : Nat) : c.overrunLevel cls unit < 4 := by
  unfold Chip.overrunLevel
  split
  · exact Level.step_late_level _ _
  · exact Level.step_late_level _ _
  · decide

theorem Chip.overrunCause_le (c : Chip) (cls unit steps : Nat) : c.overrunCause cls unit steps ≤ 4 := by
  unfold Chip.overrunCause
  dsimp only
  split
  · decide
  · split
    · decide
    · split <;> decide

/-- What the judgement of slack and budget may write for a class. -/
def slackFields (cls : Nat) : List Fld := [Sched.slackMin.nth cls, Sched.slackUnit.nth cls, Sched.budgetCnt]

/-- What a missed deadline may write beside it. -/
def overrunFields : List Fld := [Sched.ovrCnt, Sched.ovrClass, Sched.ovrUnit, Sched.ovrCause, Sched.ovrLevel]

theorem slackFields_react : ∀ cls : Fin 4, ∀ g ∈ slackFields cls ++ overrunFields, g.ok = true ∧ reacts g.page = true := by decide

/-- The registers of the guard itself stand apart from what it writes of slack and budget. -/
theorem slackFields_apart : ∀ cls : Fin 4, ∀ g ∈ slackFields cls, ∀ f ∈ overrunFields ++ [Sched.fs, Sched.plen, Sched.recover],
    f.key ≠ g.key := by decide

theorem slackMin_key_ne_slackUnit : ∀ cls : Fin 4, (Sched.slackMin.nth cls).key ≠ (Sched.slackUnit.nth cls).key := by decide

section
variable (c : Chip) (late : Bool) (cls unit val steps cause : Nat)

theorem Chip.guards_judgesSlack : Chip.Guards (slackFields cls) [schedPage] c (c.judgesSlack late cls unit val) := by
  have shown : Chip.Guards (slackFields cls) [schedPage] c
      (if val < c.rd (Sched.slackMin.nth cls) then (c.wr (Sched.slackMin.nth cls) val).wr (Sched.slackUnit.nth cls) unit else c) :=
    .ite (fun _ => ((Chip.Guards.refl c).wr (by simp [slackFields]) val).wr (by simp [slackFields]) unit) (fun _ => .refl c)
  exact .ite (fun _ => (shown.raise (by decide) _ _ _).stick (by simp) 1) (fun _ => shown)

theorem Chip.guards_judgesBudget : Chip.Guards (slackFields cls) [schedPage] c (c.judgesBudget cls unit steps) := by
  have counted : Chip.Guards (slackFields cls) [schedPage] c (c.inc Sched.budgetCnt) := (Chip.Guards.refl c).wr (by simp [slackFields]) _
  exact .ite (fun _ => (counted.raise (by decide) _ _ _).stick (by simp) 6) (fun _ => .refl c)

theorem Chip.guards_showsOverrun : Chip.Guards overrunFields [schedPage] c (c.showsOverrun cls unit cause) :=
  ((((((Chip.Guards.refl c).wr (f := Sched.ovrCnt) (by simp [overrunFields]) _).wr (f := Sched.ovrClass) (by simp [overrunFields]) cls).wr
    (f := Sched.ovrUnit) (by simp [overrunFields]) unit).wr (f := Sched.ovrCause) (by simp [overrunFields]) cause).wr
    (f := Sched.ovrLevel) (by simp [overrunFields]) _).stick (by simp) 0

theorem Chip.guards_judgesOverrun (gs : List Fld) : Chip.Guards gs [schedPage] c (c.judgesOverrun cls unit cause) := by
  have noted : Chip.Guards gs [schedPage] c (if cls = 1 then c.updTile unit (fun x => { x with lvl := { x.lvl with ovr := true } }) else c) :=
    .ite (fun _ => (Chip.Guards.refl c).keep rfl rfl rfl) (fun _ => .refl c)
  unfold Chip.judgesOverrun
  dsimp only
  generalize (if cls = 1 then c.updTile unit _ else c) = d at noted ⊢
  refine .ite (fun _ => ?_) (fun _ => noted.judge (by decide) _ _ _ _ _)
  exact (noted.keep (c := d.dropAttempt 0x90 schedPage (unit + 65536 * cls)) rfl rfl rfl).raise (by decide) _ _ _

theorem Chip.guards_instanceBegins (gs : List Fld) (ps : List Nat) : Chip.Guards gs ps c (c.instanceBegins cls unit) :=
  .ite (fun _ => .refl c) (fun _ => (Chip.Guards.refl c).updSch _)

/-- The judgement of slack and budget leaves the schedules, the units and the periods. -/
theorem Chip.judgesSlack_leaves : (c.judgesSlack late cls unit val).sch = c.sch ∧ (c.judgesSlack late cls unit val).aud = c.aud ∧
    (c.judgesSlack late cls unit val).novas = c.novas ∧ (c.judgesSlack late cls unit val).mix = c.mix := by
  unfold Chip.judgesSlack
  dsimp only
  split <;> split <;> exact ⟨rfl, rfl, rfl, rfl⟩

theorem Chip.judgesBudget_leaves : (c.judgesBudget cls unit steps).sch = c.sch ∧ (c.judgesBudget cls unit steps).aud = c.aud ∧
    (c.judgesBudget cls unit steps).novas = c.novas ∧ (c.judgesBudget cls unit steps).mix = c.mix := by
  unfold Chip.judgesBudget
  split <;> exact ⟨rfl, rfl, rfl, rfl⟩

end

/-! ## What the judgement of an overrun reads -/

/-- A machine that differs at most in what the guard writes of slack and budget of class `cls`. -/
structure Chip.Alike (cls : Fin 4) (c d : Chip) : Prop extends Chip.Guards (slackFields cls) [schedPage] c d where
  sch : d.sch = c.sch
  aud : d.aud = c.aud
  novas : d.novas = c.novas
  mix : d.mix = c.mix

section
variable {cls : Fin 4} {c d : Chip} (h : Chip.Alike cls c d)
include h

theorem Chip.Alike.rd_other {f : Fld} (ok : f.ok = true) (page : reacts f.page = false) : d.rd f = c.rd f := by
  refine h.rd f fun g hg => ?_
  obtain ⟨place, react⟩ := slackFields_react cls g (List.mem_append_left _ hg)
  exact Fld.key_ne ok place (.inr (.inl fun e => absurd (page.symm.trans (e ▸ react)) (by decide)))

theorem Chip.Alike.rd_guard {f : Fld} (hf : f ∈ overrunFields ++ [Sched.fs, Sched.plen, Sched.recover]) : d.rd f = c.rd f :=
  h.rd f fun g hg => slackFields_apart cls g hg f hf

theorem Chip.Alike.periodCode : d.periodCode = c.periodCode := by
  have plen : d.plenCode = c.plenCode := by
    rw [Chip.plenCode, h.rd_other rfl rfl, h.rd_guard (by simp), Chip.plenCode]
  rw [Chip.periodCode, h.aud, plen, Chip.periodCode]

/-- The budgets of units are read of their own pages and of the schedules. -/
theorem Chip.Alike.unitBudget {unit : Nat} (core : cls.val < 3 → unit < 64) (bound : unit < 1152) :
    d.unitBudget cls unit = c.unitBudget cls unit := by
  rcases cls with ⟨_ | _ | _ | _ | n, hcls⟩
  · obtain ⟨ok, page⟩ := novaField_on ⟨unit, core (Nat.zero_lt_succ 2)⟩ (f := Nova.budget) rfl
    exact h.rd_other ok (page ▸ reacts_novaPage _)
  · change mixSteps (d.rd Sched.fs) d.periodCode = mixSteps (c.rd Sched.fs) c.periodCode
    rw [h.rd_guard (by simp), h.periodCode]
  · have below : unit < 64 := core (Nat.lt_succ_self 2)
    have page : (Cmp.carryFmt.on unit).page = cmpPage unit := rfl
    have ok : (Cmp.carryFmt.on unit).ok = true := by
      simp only [Fld.ok, page, cmpPage, Bool.and_eq_true, decide_eq_true_eq]
      exact ⟨⟨by omega, (by decide : 0x50 < 67108864)⟩, (by decide : 2 < 32)⟩
    have carried : d.rd (Cmp.carryFmt.on unit) = c.rd (Cmp.carryFmt.on unit) := h.rd_other ok (reacts_cmpPage below)
    simp only [Chip.unitBudget, carried, h.sch]
  · have carried : d.rd (Xpt.airFmt.nth unit) = c.rd (Xpt.airFmt.nth unit) :=
      h.rd_other (Fld.nth_ok (by decide) (by decide) (by simp only [Xpt.airFmt]; omega)) (show reacts xptPage = false by decide)
    simp only [Chip.unitBudget, carried, h.sch]
  · omega

theorem Chip.Alike.overrunLevel (unit : Nat) : d.overrunLevel cls unit = c.overrunLevel cls unit := by
  have recover : d.recoverN = c.recoverN := by rw [Chip.recoverN, h.rd_guard (by simp), Chip.recoverN]
  have core (k : Nat) : d.nova k = c.nova k := by rw [Chip.nova, h.novas, Chip.nova]
  have tile (k : Nat) : d.tile k = c.tile k := by rw [Chip.tile, h.mix, Chip.tile]
  simp only [Chip.overrunLevel, recover, core, tile]

end

theorem Chip.alike_judgesSlack (c : Chip) (cls : Fin 4) (late : Bool) (unit val : Nat) :
    Chip.Alike cls c (c.judgesSlack late cls unit val) := by
  obtain ⟨sch, aud, novas, mix⟩ := c.judgesSlack_leaves late cls unit val
  exact ⟨c.guards_judgesSlack late cls unit val, sch, aud, novas, mix⟩

theorem Chip.Alike.judgesBudget {cls : Fin 4} {c d : Chip} (h : Chip.Alike cls c d) (unit steps : Nat) :
    Chip.Alike cls c (d.judgesBudget cls unit steps) := by
  obtain ⟨sch, aud, novas, mix⟩ := d.judgesBudget_leaves cls unit steps
  exact ⟨h.toGuards.trans (d.guards_judgesBudget cls unit steps), sch.trans h.sch, aud.trans h.aud, novas.trans h.novas, mix.trans h.mix⟩

/-- The cause of an overrun is judged by the budget and by what the monitors have counted. -/
theorem Chip.Alike.overrunCause {cls : Fin 4} {c d : Chip} (h : Chip.Alike cls c d) {unit : Nat} (core : cls.val < 3 → unit < 64)
    (bound : unit < 1152) (steps : Nat) : d.overrunCause cls unit steps = c.overrunCause cls unit steps := by
  have seen : d.seenBy cls unit = c.seenBy cls unit := by rw [Chip.seenBy, h.sch, Chip.seenBy]
  unfold Chip.overrunCause
  dsimp only
  rw [seen, h.unitBudget core bound, h.sch]

/-! ## What a deadline leaves -/

/-- The lowest slack of a class is kept with its unit. -/
theorem Chip.rd_judgesSlack (c : Chip) (cls : Fin 4) {unit val : Nat} (bound : unit < 1152) (hval : val < 1024)
    (lower : val < c.rd (Sched.slackMin.nth cls)) (late : Bool) :
    (c.judgesSlack late cls unit val).rd (Sched.slackMin.nth cls) = val ∧
      (c.judgesSlack late cls unit val).rd (Sched.slackUnit.nth cls) = unit := by
  have kept (f : Fld) : (c.judgesSlack late cls unit val).rd f =
      ((c.wr (Sched.slackMin.nth cls) val).wr (Sched.slackUnit.nth cls) unit).rd f := by
    unfold Chip.judgesSlack
    simp only [lower, if_true]
    split <;> rfl
  refine ⟨?_, ?_⟩
  · rw [kept, Chip.rd_wr_ne _ _ (slackMin_key_ne_slackUnit cls), Chip.rd_wr_self]
    exact Nat.mod_eq_of_lt hval
  · rw [kept, Chip.rd_wr_self]
    exact Nat.mod_eq_of_lt (Nat.lt_trans bound (by decide : 1152 < 2 ^ 11))

/-- What is shown of a missed deadline. -/
theorem Chip.showsOverrun_leaves (c : Chip) {cls : Fin 4} {unit cause : Nat} (bound : unit < 1152) (hcause : cause ≤ 4) :
    (c.showsOverrun cls unit cause).rd Sched.ovrCnt = satInc 32 (c.rd Sched.ovrCnt) ∧
      (c.showsOverrun cls unit cause).rd Sched.ovrClass = cls.val ∧ (c.showsOverrun cls unit cause).rd Sched.ovrUnit = unit ∧
      (c.showsOverrun cls unit cause).rd Sched.ovrCause = cause ∧
      (c.showsOverrun cls unit cause).rd Sched.ovrLevel = c.overrunLevel cls unit ∧
      bit ((c.showsOverrun cls unit cause).stickyWord schedPage) 0 = true := by
  have level : (((c.inc Sched.ovrCnt).wr Sched.ovrClass cls).wr Sched.ovrUnit unit).overrunLevel cls unit = c.overrunLevel cls unit := by
    have recover : (((c.inc Sched.ovrCnt).wr Sched.ovrClass cls).wr Sched.ovrUnit unit).recoverN = c.recoverN := by
      rw [Chip.recoverN, Chip.inc, Chip.rd_wr_ne _ _ (by decide), Chip.rd_wr_ne _ _ (by decide), Chip.rd_wr_ne _ _ (by decide), Chip.recoverN]
    simp only [Chip.overrunLevel, recover]
    rfl
  unfold Chip.showsOverrun
  dsimp only
  rw [level]
  simp (disch := decide) only [Chip.rd_stick, Chip.rd_wr_ne, Chip.rd_wr_self, Chip.inc]
  refine ⟨Nat.mod_eq_of_lt (satInc_lt (c.rd_lt Sched.ovrCnt)), Nat.mod_eq_of_lt cls.isLt, Nat.mod_eq_of_lt (Nat.lt_trans bound (by decide)),
    Nat.mod_eq_of_lt (Nat.lt_of_le_of_lt hcause (by decide)), Nat.mod_eq_of_lt (c.overrunLevel_lt cls unit), ?_⟩
  exact (congrArg (bit · 0) (Chip.stick_self _ _ 0)).trans (bit_setBit_true _ 0)

theorem Chip.rd_instanceBegins (c : Chip) (cls unit : Nat) (f : Fld) : (c.instanceBegins cls unit).rd f = c.rd f := by
  unfold Chip.instanceBegins
  split <;> rfl

theorem Chip.stickyWord_instanceBegins (c : Chip) (cls unit p : Nat) : (c.instanceBegins cls unit).stickyWord p = c.stickyWord p := by
  unfold Chip.instanceBegins
  split <;> rfl

theorem Chip.rd_judgesOverrun (c : Chip) (cls unit cause : Nat) (f : Fld) : (c.judgesOverrun cls unit cause).rd f = c.rd f :=
  (c.guards_judgesOverrun cls unit cause []).rd f (by simp)

theorem Chip.stickyWord_judge (c : Chip) (src page inst detail : Nat) (bad inj : Bool) (p : Nat) :
    (c.judge src page inst detail bad inj).stickyWord p = c.stickyWord p := by
  obtain ⟨u, r, e⟩ := c.judge_frame src page inst detail bad inj
  rw [e]
  rfl

theorem Chip.stickyWord_judgesOverrun (c : Chip) (cls unit cause p : Nat) :
    (c.judgesOverrun cls unit cause).stickyWord p = c.stickyWord p := by
  have noted : (if cls = 1 then c.updTile unit (fun x => { x with lvl := { x.lvl with ovr := true } }) else c).stickyWord p = c.stickyWord p := by
    split <;> rfl
  unfold Chip.judgesOverrun
  dsimp only
  split
  · exact noted
  · rw [Chip.stickyWord_judge, noted]

/-- What a deadline may write. -/
def deadlineFields (cls : Nat) : List Fld := slackFields cls ++ overrunFields

/-- A deadline that is met, within the budget, with a slack below the lowest. -/
theorem Chip.deadline_met {c : Chip} {cls : Fin 4} {unit steps val : Nat} (core : cls.val < 3 → unit < 64) (bound : unit < 1152)
    (met : c.late cls unit (some val) = false) (budget : steps ≤ c.unitBudget cls unit) (lower : val < c.rd (Sched.slackMin.nth cls)) :
    (c.deadline cls unit steps (some val)).rd (Sched.slackMin.nth cls) = val ∧
      (c.deadline cls unit steps (some val)).rd (Sched.slackUnit.nth cls) = unit ∧
      (c.deadline cls unit steps (some val)).rd Sched.ovrCnt = c.rd Sched.ovrCnt ∧
      Chip.Guards (deadlineFields cls) [schedPage] c (c.deadline cls unit steps (some val)) := by
  have judged := c.alike_judgesSlack cls false unit val
  have withinBudget : (c.judgesSlack false cls unit val).judgesBudget cls unit steps = c.judgesSlack false cls unit val :=
    if_neg (by rw [judged.unitBudget core bound]; omega)
  have parts := c.deadline_parts cls unit steps (some val)
  simp only [met, Bool.false_eq_true, if_false, Option.getD_some, withinBudget] at parts
  obtain ⟨slackMin, slackUnit⟩ := c.rd_judgesSlack cls bound (Nat.lt_trans lower (c.rd_lt _)) lower false
  rw [parts]
  simp only [Chip.rd_instanceBegins, Chip.rd_judge]
  refine ⟨slackMin, slackUnit, judged.rd_guard (by simp [overrunFields]), ?_⟩
  exact ((judged.toGuards.monoFields (List.subset_append_left _ _)).judge (by decide) _ _ _ _ _).trans (Chip.guards_instanceBegins _ _ _ _ _)

/-- A deadline that is missed. -/
theorem Chip.deadline_missed {c : Chip} {cls : Fin 4} {unit : Nat} {slack : Option Nat} (core : cls.val < 3 → unit < 64)
    (bound : unit < 1152) (missed : c.late cls unit slack = true) (steps : Nat) :
    (c.deadline cls unit steps slack).rd Sched.ovrCnt = satInc 32 (c.rd Sched.ovrCnt) ∧
      (c.deadline cls unit steps slack).rd Sched.ovrClass = cls.val ∧ (c.deadline cls unit steps slack).rd Sched.ovrUnit = unit ∧
      (c.deadline cls unit steps slack).rd Sched.ovrCause = c.overrunCause cls unit steps ∧
      (c.deadline cls unit steps slack).rd Sched.ovrLevel = c.overrunLevel cls unit ∧
      bit ((c.deadline cls unit steps slack).stickyWord schedPage) 0 = true ∧
      Chip.Guards (deadlineFields cls) [schedPage] c (c.deadline cls unit steps slack) := by
  have judged := (c.alike_judgesSlack cls true unit 0).judgesBudget unit steps
  have parts := c.deadline_parts cls unit steps slack
  simp only [missed, if_true] at parts
  generalize (c.judgesSlack true cls unit 0).judgesBudget cls unit steps = d at judged parts
  rw [judged.overrunCause core bound] at parts
  obtain ⟨cnt, cls', unit', cause, level, sticky⟩ := d.showsOverrun_leaves (cls := cls) bound (c.overrunCause_le cls unit steps)
  rw [parts]
  simp only [Chip.rd_instanceBegins, Chip.rd_judgesOverrun, Chip.stickyWord_instanceBegins, Chip.stickyWord_judgesOverrun]
  refine ⟨cnt.trans (by rw [judged.rd_guard (by simp [overrunFields])]), cls', unit', cause, level.trans (judged.overrunLevel unit), sticky, ?_⟩
  have shown := ((judged.toGuards.monoFields (List.subset_append_left _ overrunFields)).trans
    ((d.guards_showsOverrun cls unit (c.overrunCause cls unit steps)).monoFields (List.subset_append_right _ _)))
  exact (shown.trans (Chip.guards_judgesOverrun _ _ _ _ _)).trans (Chip.guards_instanceBegins _ _ _ _ _)

/-- A unit that works has its deadline. -/
theorem gives_unitDeadline {s : State} {cls : Fin 4} {unit : Fin 1152} {steps : BitVec 32} {slack : Option (BitVec 10)} {P : State → Prop}
    (hs : s.Runs) (core : cls.val < 3 → unit.val < 64) (works : s.c.unitWorks cls unit = true)
    (hP : P { s with c := (s.c.start.deadline cls unit (s.c.unitSteps cls unit steps.toNat) (slack.map BitVec.toNat)).settle }) :
    Gives (.unitDeadline cls unit steps slack) s P := by
  have has : ¬((cls.val < 3 ∧ 64 ≤ unit.val) ∨ (!s.c.start.unitWorks cls unit) = true) := by
    rintro (⟨scarce, beyond⟩ | idle)
    · exact absurd (core scarce) (Nat.not_lt.mpr beyond)
    · rw [show s.c.start.unitWorks cls unit = true from works] at idle
      exact absurd idle (by decide)
  exact gives_of_body hs (exec_unitDeadline cls unit steps slack s) (if_neg has) hP

/-- A core that waits, and a tile that has run, have met their deadline; so has a line whose slack is known. -/
theorem Chip.late_met {c : Chip} {cls : Fin 4} {unit : Nat} (core : cls.val = 0 → c.novaSt unit = 2)
    (tile : cls.val = 1 → (c.tile unit).ran = true) (val : Nat) : c.late cls unit (some val) = false := by
  rcases cls with ⟨_ | _ | n, hcls⟩
  · simp [Chip.late, core rfl, Nst.run, Nst.xchg]
  · simp [Chip.late, tile rfl]
  · rfl

/-- A core at work that does not wait has missed its deadline, and so has another unit without slack. -/
theorem Chip.late_missed {c : Chip} {cls : Fin 4} {unit : Nat} {slack : Option Nat} (works : c.unitWorks cls unit = true)
    (core : cls.val = 0 → c.novaSt unit ≠ 2) (other : cls.val ≠ 0 → slack = none) : c.late cls unit slack = true := by
  rcases cls with ⟨_ | _ | n, hcls⟩
  · have busy : c.novaSt unit = Nst.wait ∨ c.novaSt unit = Nst.xchg ∨ c.novaSt unit = Nst.run := by simpa [Chip.unitWorks, or_assoc] using works
    have moved : c.novaSt unit = Nst.run ∨ c.novaSt unit = Nst.xchg := (busy.resolve_left (core rfl)).symm
    simpa [Chip.late] using moved
  · simp [Chip.late, other (Nat.succ_ne_zero 0)]
  · simp [Chip.late, other (Nat.succ_ne_zero _)]

/-! ## The statement -/

/-- Settles O28, clause by clause: a window within the floor condition, one out of it and one below the floor, an interval of the governor
that raises the voltage, a good voltage read and a second failure, a deadline that is met and one that is missed. -/
theorem governor : Obligations.Governor := by
  intro s
  refine ⟨?_, ?_, ?_, ?_, ?_, ?_, ?_, ?_⟩
  · intro k steps mv tj hs timed above volts cool
    have inside : ¬(mv.toNat < 720 ∨ 110 < tj.toInt) := by omega
    have writes := (s.c.start.guards_rateWindow_above k _ above).trans (Chip.guards_condWindow_in _ _ _ inside)
    have kept := writes.keepsSched
    obtain ⟨condOk, vsense, temp⟩ := (s.c.start.rateWindow k steps.toNat).rd_condWindow_in mv tj inside
    obtain ⟨wins, -⟩ := (s.c.start.rateWindow k steps.toNat).condWindow_leaves mv.toNat tj.toInt
    refine gives_stepMonitorWindow hs timed ⟨?_, ?_, ?_, ?_, writes.toWrites.confined_reacting monitorFields_react (by simp)⟩
    · exact (congrArg (Store.get 0 ·.wins k) kept.sch).trans ((congrArg (Store.get 0 · k) wins).trans (s.c.start.wins_rateWindow k _))
    · exact (kept.rd _).trans condOk
    · exact (kept.rd _).trans vsense
    · exact (kept.rdS _).trans temp
  · intro k steps mv tj hs timed out
    have writes := (s.c.start.guards_rateWindow k steps.toNat).trans (Chip.guards_condWindow _ mv.toNat tj.toInt)
    obtain ⟨condOk, sticky⟩ := (s.c.start.rateWindow k steps.toNat).rd_condWindow_out out
    refine gives_stepMonitorWindow hs timed ⟨(writes.keepsSched.rd _).trans condOk, ?_,
      writes.toWrites.confined_reacting monitorFields_react (by decide)⟩
    rw [Chip.stickyWord_settle_sched, sticky]
  · intro k steps mv tj hs timed below
    have writes := (s.c.start.guards_rateWindow k steps.toNat).trans (Chip.guards_condWindow _ mv.toNat tj.toInt)
    have kept := writes.keepsSched
    obtain ⟨-, floorOk, sticky, stop⟩ := (s.c.start.recordsWindow k steps.toNat).missesFloor_leaves k
    rw [← s.c.start.rateWindow_below k below] at floorOk sticky stop
    obtain ⟨wins, floorKept, stopKept, stickyKept⟩ := (s.c.start.rateWindow k steps.toNat).condWindow_leaves mv.toNat tj.toInt
    refine gives_stepMonitorWindow hs timed ⟨?_, ?_, ?_, ?_, writes.toWrites.confined_reacting monitorFields_react (by decide)⟩
    · exact (congrArg (Store.get 0 ·.wins k) kept.sch).trans ((congrArg (Store.get 0 · k) wins).trans (s.c.start.wins_rateWindow k _))
    · exact (kept.rd _).trans (floorKept.trans floorOk)
    · rw [Chip.stickyWord_settle_sched, stickyKept sticky]
    · exact kept.stop 2 (by rw [stopKept]; exact stop)
  · intro hs enabled works idle none low running floor room
    have writes := s.c.start.guards_commandsVoltage (min s.c.vmax (s.c.rd Sched.vset + 5))
    have kept := writes.keepsSched
    have limit : min s.c.vmax (s.c.rd Sched.vset + 5) ≤ 860 := Nat.le_trans (Nat.min_le_left _ _) (Nat.min_le_right _ _)
    refine gives_governorInterval hs enabled works idle none low running room ⟨?_, ?_, ?_, ?_,
      writes.toWrites.confined_reacting governorFields_react (by simp)⟩
    · exact (kept.rd _).trans (Chip.rd_vset_commandsVoltage _ (Nat.lt_of_le_of_lt limit (by decide)))
    · exact (kept.rd _).trans (Chip.rd_rateMin_commandsVoltage _ _)
    · rw [kept.sch]
      rfl
    · exact mem_out_settle rfl (List.mem_append_right _ (List.mem_singleton.mpr rfl))
  · intro value hs
    refine gives_avsFrameDone_read hs fun d hd => ?_
    have taken := s.c.start.guards_takesVoltage value.toNat
    have writes : Chip.Guards busFields [] s.c.start d := by
      rcases hd with rfl | rfl
      · exact taken
      · exact taken.keep rfl rfl rfl
    have same : d.flds = ((s.c.start.judge 0x94 schedPage 0 0 false).takesVoltage value.toNat).flds ∧ d.sch.repeating = false := by
      rcases hd with rfl | rfl <;> exact ⟨rfl, rfl⟩
    obtain ⟨flds, repeating⟩ := same
    obtain ⟨vread, avs⟩ := (s.c.start.judge 0x94 schedPage 0 0 false).takesVoltage_leaves value.isLt
    have kept := writes.keepsSched
    refine ⟨?_, ?_, ?_, writes.toWrites.confined_reacting busFields_react (by simp)⟩
    · rw [kept.rd, Chip.rd, flds]
      exact vread
    · rw [kept.rd, Chip.rd, flds]
      exact avs
    · rw [kept.sch]
      exact repeating
  · intro frame value hs again
    have writes := s.c.start.guards_endsBus
    have kept := writes.keepsSched
    obtain ⟨avs, repeating, sticky⟩ := (s.c.start.judge 0x94 schedPage 0 0 true).endsBus_leaves
    refine gives_avsFrameDone_failed hs again ⟨(kept.rd _).trans avs, ?_, ?_, writes.toWrites.confined_reacting busFields_react (by simp)⟩
    · rw [kept.sch]
      exact repeating
    · rw [Chip.stickyWord_settle_sched]
      exact sticky
  · intro cls unit steps slack hs core works waits ran budget lower
    have met := Chip.late_met (c := s.c.start) waits ran slack.toNat
    obtain ⟨slackMin, slackUnit, ovrCnt, writes⟩ := Chip.deadline_met core unit.isLt met budget lower
    have kept := writes.keepsSched
    exact gives_unitDeadline hs core works ⟨(kept.rd _).trans slackMin, (kept.rd _).trans slackUnit, (kept.rd _).trans ovrCnt,
      writes.toWrites.confined_reacting (slackFields_react cls) (by simp)⟩
  · intro cls unit steps slack hs core works busy noSlack
    have missed := Chip.late_missed (c := s.c.start) (slack := slack.map BitVec.toNat) works busy (fun h => by rw [noSlack h]; rfl)
    obtain ⟨ovrCnt, ovrClass, ovrUnit, cause, level, sticky, writes⟩ :=
      Chip.deadline_missed core unit.isLt missed (s.c.unitSteps cls unit steps.toNat)
    have kept := writes.keepsSched
    refine gives_unitDeadline hs core works ⟨(kept.rd _).trans ovrCnt, (kept.rd _).trans ovrClass, (kept.rd _).trans ovrUnit,
      (kept.rd _).trans cause, (kept.rd _).trans level, ?_, writes.toWrites.confined_reacting (slackFields_react cls) (by simp)⟩
    rw [Chip.stickyWord_settle_sched, sticky]

end Sys2Proof.Machine
end

section
/-! SUPPORT. Schedule images: their loading, their verdict and what an image that is applied writes (O27). -/

namespace Sys2Proof.Machine

/-! ## The commands' own meanings -/

theorem exec_schedLoad (m : Master) (s : State) : exec (.schedLoad m) s = execSchedLoad m s := rfl
theorem exec_imageValidationDone (s : State) : exec .imageValidationDone s = execImageValidationDone s := rfl

/-! ## What the sections of an image write (R278) -/

/-- Between two machines only the pages `ps` differ, and nothing is reported. -/
structure Chip.Loads (ps : List Nat) (c d : Chip) : Prop extends Chip.WritesOn ps c d where
  reports : d.reports = c.reports

section
variable {ps : List Nat} {a b c : Chip}

theorem Chip.Loads.refl (c : Chip) : Chip.Loads ps c c := ⟨.refl c, rfl⟩

theorem Chip.Loads.trans (h : Chip.Loads ps a b) (k : Chip.Loads ps b c) : Chip.Loads ps a c :=
  ⟨h.toWritesOn.trans k.toWritesOn, k.reports.trans h.reports⟩

theorem Chip.Loads.keep (h : Chip.Loads ps a b) (hf : c.flds = b.flds) (hs : c.sticky = b.sticky) (hr : c.reports = b.reports) :
    Chip.Loads ps a c := ⟨h.toWritesOn.keep hf hs, hr.trans h.reports⟩

theorem Chip.Loads.updSch (h : Chip.Loads ps a b) (f : SchX → SchX) : Chip.Loads ps a (b.updSch f) := h.keep rfl rfl rfl

theorem Chip.Loads.wr (h : Chip.Loads ps a b) {f : Fld} (ok : f.ok = true) (page : f.page ∈ ps) (v : Nat) : Chip.Loads ps a (b.wr f v) :=
  ⟨h.toWritesOn.wr ok page v, h.reports⟩

theorem Chip.Loads.stick (h : Chip.Loads ps a b) {p : Nat} (hp : p ∈ ps) (n : Nat) : Chip.Loads ps a (b.stick p n) :=
  ⟨h.toWritesOn.stick (.inl hp) n, h.reports⟩

theorem Chip.Loads.foldl {β : Type} {step : Chip → β → Chip} {l : List β} (hstep : ∀ x ∈ l, ∀ b, Chip.Loads ps b (step b x)) (c : Chip) :
    Chip.Loads ps c (l.foldl step c) :=
  List.foldlRecOn (motive := Chip.Loads ps c) l step (.refl c) fun b hb x hx => hb.trans (hstep x hx b)

end

theorem novaPage_mem_periodPages : ∀ k : Fin 64, novaPage k ∈ periodPages := by decide
theorem cmpPage_mem_periodPages : ∀ n : Fin 64, cmpPage n ∈ periodPages := by decide

theorem Chip.loads_novaLoad (c : Chip) (k : Fin 64) (b : List Nat) (budget : Nat) : Chip.Loads periodPages c (c.novaLoad k b budget) := by
  have page := novaPage_mem_periodPages k
  have settled {d : Chip} (h : Chip.WritesOn periodPages c d) : Chip.WritesOn periodPages c ((d.novaClear k).forgetUnit 0 k) := h.keep rfl rfl
  refine ⟨?_, rfl⟩
  unfold Chip.novaLoad
  dsimp only
  refine Chip.WritesOn.showNova page (settled ?_)
  iterate 13 refine Chip.WritesOn.wrNova page ?_ rfl _
  exact (Chip.WritesOn.refl c).updNova k _

theorem Chip.loads_unmute (c : Chip) : Chip.Loads periodPages c c.unmute := by
  unfold Chip.unmute
  split
  · refine ((Chip.Loads.refl c).wr (f := Mix.muted) rfl (by decide) 0).trans (Chip.Loads.foldl (fun o ho b => ?_) _)
    have bound := List.mem_range.mp ho
    exact (Chip.Loads.refl b).wr (f := Mix.oMuted.nth o) (Fld.nth_ok (by decide) (by decide) (by simp only [Mix.oMuted]; omega))
      (show mixPage ∈ periodPages by decide) 0
  · exact .refl c

theorem Chip.loads_takePlan (c : Chip) (n : Fin 64) : Chip.Loads periodPages c (c.takePlan n) := by
  have place (f : Fld) (hf : (decide (f.page = cmpPage 0) && decide (f.off < 67108864) && decide (f.lo < 32)) = true) :
      (f.on n).ok = true ∧ (f.on n).page ∈ periodPages := by
    simp only [Bool.and_eq_true, decide_eq_true_eq] at hf
    obtain ⟨⟨hp, ho⟩, hl⟩ := hf
    have page : (f.on n).page = cmpPage n := by simp [Fld.on, hp, cmpPage]
    refine ⟨?_, page ▸ cmpPage_mem_periodPages n⟩
    simp only [Fld.ok, page, cmpPage, Bool.and_eq_true, decide_eq_true_eq]
    exact ⟨⟨by omega, ho⟩, hl⟩
  obtain ⟨layersOk, layersPage⟩ := place Cmp.nLayers rfl
  obtain ⟨fsetOk, fsetPage⟩ := place Cmp.fset rfl
  unfold Chip.takePlan
  split
  · exact (((Chip.Loads.refl c).wr layersOk layersPage _).wr fsetOk fsetPage _).keep rfl rfl rfl
  · exact .refl c

/-- The check of targets (R277) leaves 64 cores and 64 composers. -/
theorem target_lt_of_valid {m : Mem} {i : Nat} (valid : sectionTargetBad m i = false)
    (unit : (imgSection m i).kind = 1 ∨ (imgSection m i).kind = 3) : (imgSection m i).target < 64 := by
  obtain ⟨named, -⟩ := Bool.or_eq_false_iff.mp valid
  rcases unit with kind | kind
  all_goals
    simp only [kind, Bool.not_eq_false', decide_eq_true_eq] at named
    exact Nat.lt_succ_of_le named

/-- A section whose target is valid writes pages of a period boundary alone, and reports nothing. -/
theorem Chip.loads_applySection (c : Chip) (m : Mem) (i : Nat) (valid : sectionTargetBad m i = false) :
    Chip.Loads periodPages c (c.applySection m i) := by
  have below := target_lt_of_valid valid
  unfold Chip.applySection
  generalize imgSection m i = sec at below ⊢
  dsimp only
  split
  · next kind => exact c.loads_novaLoad ⟨sec.target, below (.inl kind)⟩ _ _
  · have forgotten := Chip.Loads.foldl (ps := periodPages) (l := List.range 64)
      (step := fun c t => (c.forgetUnit 1 t).updTile t (fun x => { x with lvl := {} })) (fun t _ b => (Chip.Loads.refl b).keep rfl rfl rfl) c
    generalize List.foldl _ c (List.range 64) = d at forgotten ⊢
    exact (forgotten.trans d.loads_unmute).keep rfl rfl rfl
  · next kind =>
    have planned (f : Comp → Comp) : Chip.Loads periodPages c (c.updComp sec.target f) := (Chip.Loads.refl c).keep rfl rfl rfl
    split
    · exact planned _
    · exact (planned _).trans (Chip.loads_takePlan _ ⟨sec.target, below (.inr kind)⟩)
  · refine Chip.Loads.foldl (fun o _ b => ?_) c
    exact (Chip.Loads.refl b).keep rfl rfl rfl
  · exact (Chip.Loads.refl c).keep rfl rfl rfl

/-- Every section of an image without a reason for refusal has a valid target. -/
theorem Chip.targets_of_valid {c : Chip} {m : Mem} (valid : c.validateImage m = (0, 0)) :
    ∀ i ∈ List.range (imgCount (c.imageMem m)), sectionTargetBad (c.imageMem m) i = false := by
  intro i hi
  have sections : ∀ i ∈ List.range (imgCount (c.imageMem m)), c.sectionReason (c.imageMem m) i = 0 := by
    unfold Chip.validateImage at valid
    dsimp only at valid
    split at valid
    · next header => exact absurd (congrArg Prod.fst valid) header
    · split at valid
      · next j found => exact absurd (congrArg Prod.fst valid) (by simpa using List.find?_some found)
      · next none => simpa using List.find?_eq_none.mp none
  have reason := sections i hi
  unfold Chip.sectionReason at reason
  by_contra bad
  rw [if_pos (Bool.of_not_eq_false bad)] at reason
  split at reason <;> exact absurd reason (by decide)

/-! ## The verdict takes effect (R277, R278) -/

theorem Chip.imageMem_start (c : Chip) (m : Mem) : c.start.imageMem m = c.imageMem m := rfl
theorem Chip.validateImage_start (c : Chip) (m : Mem) : c.start.validateImage m = c.validateImage m := rfl

theorem imgWord_lt (m : Mem) (off : Nat) : imgWord m off < 2 ^ 32 := by
  simp only [imgWord, Mem.word, Mem.bytes, leNat]
  omega

/-- What is shown of an image that has been applied. -/
def Chip.showsApplied (c : Chip) (m : Mem) : Chip :=
  (((((c.wr Sched.imgId (imgWord m 12)).wr Sched.code 3).wr Sched.loadGo 0).updSch (fun x => { x with names := [] })).keepSections m).stick
    schedPage 9

theorem Chip.keepSections_frame (c : Chip) (m : Mem) : ∃ g, c.keepSections m = c.updSch g := by
  unfold Chip.keepSections
  exact ⟨_, rfl⟩

theorem Chip.showsApplied_frame (c : Chip) (m : Mem) : ∃ f g, c.showsApplied m =
    (((((c.wr Sched.imgId (imgWord m 12)).wr Sched.code 3).wr Sched.loadGo 0).updSch f).updSch g).stick schedPage 9 := by
  obtain ⟨g, kept⟩ := ((((c.wr Sched.imgId (imgWord m 12)).wr Sched.code 3).wr Sched.loadGo 0).updSch
    (fun x => { x with names := [] })).keepSections_frame m
  exact ⟨_, g, congrArg (Chip.stick · schedPage 9) kept⟩

theorem Chip.showsApplied_leaves (c : Chip) (m : Mem) :
    (c.showsApplied m).rd Sched.code = 3 ∧ (c.showsApplied m).rd Sched.imgId = imgWord m 12 ∧ (c.showsApplied m).rd Sched.loadGo = 0 ∧
      bit ((c.showsApplied m).stickyWord schedPage) 9 = true := by
  obtain ⟨f, g, frame⟩ := c.showsApplied_frame m
  rw [frame, Chip.stick_self, bit_setBit_true]
  simp (disch := decide) only [Chip.rd_stick, Chip.rd_updSch, Chip.rd_wr_ne, Chip.rd_wr_self, and_true]
  exact ⟨rfl, Nat.mod_eq_of_lt (imgWord_lt m 12), rfl⟩

theorem Chip.loads_showsApplied (c : Chip) (m : Mem) : Chip.Loads periodPages c (c.showsApplied m) := by
  obtain ⟨f, g, frame⟩ := c.showsApplied_frame m
  have page : schedPage ∈ periodPages := by decide
  have shown := (((Chip.Loads.refl (ps := periodPages) c).wr (f := Sched.imgId) rfl page (imgWord m 12)).wr (f := Sched.code) rfl
    page 3).wr (f := Sched.loadGo) rfl page 0
  have named := (shown.updSch f).updSch g
  rw [frame]
  exact named.stick page 9

/-- The sections of an image take effect one after another. -/
def Chip.applySections (c : Chip) (m : Mem) : Chip := (List.range (imgCount m)).foldl (fun c i => c.applySection m i) c

theorem Chip.applyImage_pending {c : Chip} (pending : c.rd Sched.code = 2) (m : Mem) :
    c.applyImage m = (c.applySections (c.imageMem m)).showsApplied (c.imageMem m) := if_neg (not_not_intro pending)

/-- An image that is refused: its first reason and its section are shown and reported, and `GO` ends. -/
def Chip.refusesImage (c : Chip) (reason section_ : Nat) : Chip :=
  ((((((c.wr Sched.reason reason).wr Sched.section_ section_).wr Sched.code 4).wr Sched.loadGo 0).updSch
    (fun x => { x with names := [] })).raise 0x98 schedPage 0 0).stick schedPage 8

theorem Chip.refusesImage_leaves (c : Chip) (reason section_ : Nat) :
    (c.refusesImage reason section_).rd Sched.code = 4 ∧ (c.refusesImage reason section_).rd Sched.reason = reason % 16 ∧
      (c.refusesImage reason section_).rd Sched.section_ = section_ % 512 ∧ (c.refusesImage reason section_).rd Sched.loadGo = 0 ∧
      bit ((c.refusesImage reason section_).stickyWord schedPage) 8 = true := by
  have shown (f : Fld) : (c.refusesImage reason section_).rd f =
      ((((c.wr Sched.reason reason).wr Sched.section_ section_).wr Sched.code 4).wr Sched.loadGo 0).rd f := rfl
  simp (disch := decide) only [shown, Chip.rd_wr_ne, Chip.rd_wr_self]
  exact ⟨rfl, rfl, rfl, rfl, (congrArg (bit · 8) (Chip.stick_self _ _ 8)).trans (bit_setBit_true _ 8)⟩

/-- The fields that the loading of an image shows. -/
def loadFields : List Fld := [Sched.loadGo, Sched.code, Sched.reason, Sched.section_]

theorem loadFields_react : ∀ g ∈ loadFields, g.ok = true ∧ reacts g.page = true := by decide

theorem Chip.guards_refusesImage (c : Chip) (reason section_ : Nat) :
    Chip.Guards loadFields [schedPage] c (c.refusesImage reason section_) := by
  have shown := ((((Chip.Guards.refl (gs := loadFields) (ps := [schedPage]) c).wr (f := Sched.reason) (by simp [loadFields]) reason).wr
    (f := Sched.section_) (by simp [loadFields]) section_).wr (f := Sched.code) (by simp [loadFields]) 4).wr (f := Sched.loadGo)
    (by simp [loadFields]) 0
  exact ((shown.updSch (fun x => { x with names := [] })).raise (by decide) _ _ _).stick List.mem_cons_self 8

section
variable {c : Chip} (validating : c.rd Sched.code = 1) (m : Mem)
include validating

theorem Chip.imageVerdict_refused {reason : Nat} (refused : reason ≠ 0) (section_ : Nat) :
    c.imageVerdict m reason section_ = c.refusesImage reason section_ := (if_neg (not_not_intro validating)).trans (if_pos refused)

theorem Chip.imageVerdict_pending (ticks : c.ticking = true) (section_ : Nat) : c.imageVerdict m 0 section_ = c.wr Sched.code 2 :=
  (if_neg (not_not_intro validating)).trans ((if_neg (not_not_intro rfl)).trans (if_pos ticks))

/-- Where no boundary is to come, an image takes effect with its verdict. -/
theorem Chip.imageVerdict_applied (idle : c.ticking = false) (section_ : Nat) :
    c.imageVerdict m 0 section_ = ((c.wr Sched.code 2).applySections (c.imageMem m)).showsApplied (c.imageMem m) := by
  have stands : ¬(c.wr Sched.code 2).ticking = true := fun ticks => absurd (idle.symm.trans ticks) (by decide)
  have now : c.imageVerdict m 0 section_ = (c.wr Sched.code 2).applyImage m :=
    (if_neg (not_not_intro validating)).trans ((if_neg (not_not_intro rfl)).trans (if_neg stands))
  exact now.trans (Chip.applyImage_pending (c.rd_wr_self Sched.code 2) m)

end

/-- A write of 1 to `GO` while none is under way begins a validation. -/
def Chip.beginsLoad (c : Chip) (f : SchX → SchX) : Chip :=
  ((((c.wr Sched.loadGo 1).wr Sched.code 1).wr Sched.reason 0).wr Sched.section_ 0).updSch f

theorem Chip.schedGo_idle {c : Chip} (idle : c.on Sched.loadGo = false) (m : Mem) : ∃ f, c.schedGo m = c.beginsLoad f :=
  ⟨_, if_neg (by rw [idle]; decide)⟩

theorem Chip.guards_beginsLoad (c : Chip) (f : SchX → SchX) : Chip.Guards loadFields [] c (c.beginsLoad f) :=
  (((((Chip.Guards.refl c).wr (f := Sched.loadGo) (by simp [loadFields]) 1).wr (f := Sched.code) (by simp [loadFields]) 1).wr
    (f := Sched.reason) (by simp [loadFields]) 0).wr (f := Sched.section_) (by simp [loadFields]) 0).updSch f

theorem Chip.beginsLoad_leaves (c : Chip) (f : SchX → SchX) :
    (c.beginsLoad f).rd Sched.loadGo = 1 ∧ (c.beginsLoad f).rd Sched.code = 1 ∧ (c.beginsLoad f).rd Sched.reason = 0 ∧
      (c.beginsLoad f).rd Sched.section_ = 0 := by
  simp (disch := decide) only [Chip.beginsLoad, Chip.rd_updSch, Chip.rd_wr_ne, Chip.rd_wr_self]
  exact ⟨rfl, rfl, rfl, rfl⟩

/-- A device that mirrors nothing takes its own verdict at once. -/
theorem gives_imageValidationDone {s : State} {P : State → Prop} (hs : s.Runs) (validating : s.c.rd Sched.code = 1)
    (unjudged : s.c.imageJudged = false) (active : s.c.isStandby = false) (alone : s.c.mirrors = false) {d : Chip}
    (hd : s.c.start.imageVerdict s.mem (s.c.validateImage s.mem).1 (s.c.validateImage s.mem).2 = d)
    (hP : P { s with c := d.settle }) : Gives .imageValidationDone s P := by
  have judges : ¬(s.c.start.rd Sched.code ≠ 1 ∨ s.c.start.isStandby = true ∨ s.c.start.imageJudged = true) := by
    rintro (idle | standby | judged)
    · exact idle validating
    · exact absurd (active.symm.trans standby) (by decide)
    · exact absurd (unjudged.symm.trans judged) (by decide)
  have silent : s.c.start.mirrors = false := alone
  refine gives_of_body_mem hs (exec_imageValidationDone s) ?_ hP
  dsimp only
  rw [if_neg judges, Chip.decision_alone silent, Chip.validateImage_start, hd]

/-! ## The statement -/

/-- Settles O27: `GO` begins a validation, and the verdict leaves the image pending, applies it or refuses it. -/
theorem schedules : Obligations.Schedules := by
  intro s
  refine ⟨?_, ?_, ?_, ?_⟩
  · intro m allowed idle
    obtain ⟨f, begins⟩ := Chip.schedGo_idle (c := s.c.start) idle s.mem
    have body := (trigger_allows s m schedPage 0x48 0 true (fun c => c.schedGo s.mem) allowed).trans begins
    have writes := s.c.start.guards_beginsLoad f
    have kept := writes.keepsSched
    obtain ⟨loadGo, code, reason, section_⟩ := s.c.start.beginsLoad_leaves f
    exact gives_of_body_mem allowed.1 (exec_schedLoad m s) (Prod.ext body rfl) ⟨(kept.rd _).trans loadGo, (kept.rd _).trans code,
      (kept.rd _).trans reason, (kept.rd _).trans section_, writes.toWrites.confined_reacting loadFields_react (by simp)⟩
  · intro hs validating unjudged active alone valid ticks
    have body := Chip.imageVerdict_pending (c := s.c.start) validating s.mem ticks 0
    have writes := (Chip.Guards.refl (gs := loadFields) (ps := []) s.c.start).wr (f := Sched.code) (by simp [loadFields]) 2
    refine gives_imageValidationDone hs validating unjudged active alone (by rw [valid]; exact body) ⟨?_, writes.keepsSched.sch,
      writes.toWrites.confined_reacting loadFields_react (by simp)⟩
    rw [writes.keepsSched.rd, Chip.rd_wr_self]
    rfl
  · intro hs validating unjudged active alone valid idle
    have body := Chip.imageVerdict_applied (c := s.c.start) validating s.mem idle 0
    have targets := Chip.targets_of_valid valid
    rw [Chip.imageMem_start] at body
    have pending := (Chip.Loads.refl (ps := periodPages) s.c.start).wr (f := Sched.code) rfl (by decide) 2
    have sections : Chip.Loads periodPages _ ((s.c.start.wr Sched.code 2).applySections (s.c.imageMem s.mem)) :=
      Chip.Loads.foldl (fun i hi b => b.loads_applySection _ i (targets i hi)) _
    have loads := (pending.trans sections).trans (Chip.loads_showsApplied _ (s.c.imageMem s.mem))
    have kept := Chip.keepsSched_settle _ (fun r hr => absurd (loads.reports ▸ hr) List.not_mem_nil)
    obtain ⟨code, imgId, loadGo, sticky⟩ :=
      ((s.c.start.wr Sched.code 2).applySections (s.c.imageMem s.mem)).showsApplied_leaves (s.c.imageMem s.mem)
    refine gives_imageValidationDone hs validating unjudged active alone (by rw [valid]; exact body)
      ⟨(kept.rd _).trans code, (kept.rd _).trans imgId, (kept.rd _).trans loadGo, ?_, loads.toWritesOn.within⟩
    rw [Chip.stickyWord_settle_sched, sticky]
  · intro hs validating unjudged active alone refused
    have writes := s.c.start.guards_refusesImage (s.c.validateImage s.mem).1 (s.c.validateImage s.mem).2
    have kept := writes.keepsSched
    obtain ⟨code, reason, section_, loadGo, sticky⟩ := s.c.start.refusesImage_leaves (s.c.validateImage s.mem).1 (s.c.validateImage s.mem).2
    refine gives_imageValidationDone hs validating unjudged active alone (Chip.imageVerdict_refused (c := s.c.start) validating s.mem refused _)
      ⟨(kept.rd _).trans code, (kept.rd _).trans reason, (kept.rd _).trans section_, (kept.rd _).trans loadGo, ?_,
        writes.toWrites.confined_reacting loadFields_react (by simp)⟩
    rw [Chip.stickyWord_settle_sched, sticky]

end Sys2Proof.Machine
end

section
/-! SUPPORT. The statement of links and flow entries that fails (O30). It speaks of every `State`, and a state's field table may list a
key twice although the model's own operations never do: a read takes the first value, the copy of R296 the last. -/

namespace Sys2Proof.Machine

theorem exec_flowEntryWrite (m : Master) (e : Fin 16384) (w0 : BitVec 32) (s : State) :
    exec (.flowEntryWrite m e w0) s = execFlowEntryWrite m e w0 s := rfl

/-- Port 0 has one link, and the field table lists the destination address of flow entry 0 twice: 1, which reads, then 0. -/
def addressListedTwice : State :=
  { State.reset with
    c := { State.reset.c with
      flds := [((Eth.mode.on 0).key, 1), ((Flowq.fDstIp.nth 0).key, 1), ((Flowq.fDstIp.nth 0).key, 0)] } }

/-- Refutes O30: of a field that the table lists twice, which the statement does not exclude, a read takes the first value and the copy
into the entry in use the last, so a flow entry whose destination address reads 1 comes into use with 0. -/
theorem not_linksAndFlows : ¬Obligations.LinksAndFlows := by
  intro h
  obtain ⟨-, -, -, applied, -, -, -⟩ := h addressListedTwice
  have given := applied .host 0 1 (by decide) (by decide) (by decide) (by decide)
  obtain ⟨-, -, -, -, address, -, -⟩ := holds_of_gives given (by decide) (exec_flowEntryWrite .host 0 1 addressListedTwice)
  rw [Chip.rd_settle _ (by decide) (by decide)] at address
  exact absurd address (by decide +kernel)

end Sys2Proof.Machine
end

section
/-! SUPPORT. What the packet blocks' statements rest on (O29, O32): what the end of a command drives outward, what checks and attempts
change, and where the fields of links, queues and channels stand. -/

namespace Sys2Proof.Machine

/-! ## What the end of a command drives outward -/

/-- What leaves at the end of a command: frames of the voltage bus (R410) and interrupt messages (R439). -/
def Out.fromEnd : Out → Bool
  | .avs .. => true
  | .msix .. => true
  | _ => false

/-- All that `c` has driven outward stands, and only what leaves at the end of a command comes after it. -/
def Chip.DrivesOn (c d : Chip) : Prop := ∃ l : List Out, d.out = c.out ++ l ∧ ∀ x ∈ l, x.fromEnd = true

section
variable {a b c : Chip}

theorem Chip.DrivesOn.of_eq (h : b.out = a.out) : Chip.DrivesOn a b := ⟨[], by rw [h, List.append_nil], by simp⟩

theorem Chip.DrivesOn.refl (c : Chip) : Chip.DrivesOn c c := .of_eq rfl

theorem Chip.DrivesOn.trans (h : Chip.DrivesOn a b) (k : Chip.DrivesOn b c) : Chip.DrivesOn a c := by
  obtain ⟨l, hl, first⟩ := h
  obtain ⟨m, hm, second⟩ := k
  refine ⟨l ++ m, by rw [hm, hl, List.append_assoc], fun x hx => ?_⟩
  exact (List.mem_append.mp hx).elim (first x) (second x)

theorem Chip.DrivesOn.ite {p : Prop} [Decidable p] (h : p → Chip.DrivesOn a b) (k : ¬p → Chip.DrivesOn a c) :
    Chip.DrivesOn a (if p then b else c) := by
  split
  · exact h ‹_›
  · exact k ‹_›

theorem Chip.DrivesOn.emit (c : Chip) {x : Out} (hx : x.fromEnd = true) : Chip.DrivesOn c (c.emit x) :=
  ⟨[x], rfl, by simp [hx]⟩

theorem Chip.DrivesOn.mem {x : Out} (h : Chip.DrivesOn a b) (hx : x ∈ a.out) : x ∈ b.out := by
  obtain ⟨l, hl, -⟩ := h
  exact hl ▸ List.mem_append_left l hx

end

theorem Chip.drivesOn_setVolt (c : Chip) (v : Nat) : Chip.DrivesOn c (c.setVolt v) := by
  unfold Chip.setVolt
  dsimp only
  refine .ite (fun _ => .refl c) (fun _ => .ite (fun _ => .of_eq rfl) (fun _ => ?_))
  exact ⟨[_], rfl, by simp [Out.fromEnd]⟩

@[simp] theorem Chip.out_showFlightOf (c : Chip) (m : Nat) : (c.showFlightOf m).out = c.out := rfl

theorem Chip.out_endOutstanding (c : Chip) (m : Nat) : (c.endOutstanding m).out = c.out := by
  simp [Chip.endOutstanding, Chip.setFlight]

theorem Chip.out_loopToHoldover (c : Chip) : c.loopToHoldover.out = c.out := rfl

theorem Chip.drivesOn_contain (c : Chip) (r : Report) : Chip.DrivesOn c (c.contain r) := by
  unfold Chip.contain
  split
  · exact .ite (fun _ => .of_eq c.out_loopToHoldover) (fun _ => .refl c)
  · exact .of_eq rfl
  · exact .of_eq rfl
  · exact .ite (fun _ => .of_eq (c.out_endOutstanding _)) (fun _ => .refl c)
  · exact .ite (fun _ => c.drivesOn_setVolt _) (fun _ => .refl c)
  · exact .of_eq rfl
  · exact .refl c

@[simp] theorem Chip.out_stopAlive (c : Chip) (cause : Nat) : (c.stopAlive cause).out = c.out := by
  unfold Chip.stopAlive
  dsimp only
  split <;> rfl

@[simp] theorem Chip.out_logEntry (c : Chip) (e : LogEntry) : (c.logEntry e).out = c.out := by
  unfold Chip.logEntry
  dsimp only [Chip.fwr_out]
  split <;> rfl

@[simp] theorem Chip.out_markUnack (c : Chip) (e : LogEntry) : (c.markUnack e).out = c.out := by
  have marked : (if (e.inj && !e.real) = true then c.fwr Fcu.unackInj (setBit (c.frd Fcu.unackInj) (e.src / 16) true)
      else c.fwr Fcu.unackReal (setBit (c.frd Fcu.unackReal) (e.src / 16) true)).out = c.out := by split <;> rfl
  unfold Chip.markUnack
  dsimp only [Chip.fwr_out]
  split
  · exact marked
  · exact marked

theorem Chip.drivesOn_react (c : Chip) (esev : Nat) (r : Report) : Chip.DrivesOn c (c.react esev r) := by
  have shown : Chip.DrivesOn c (if 2 ≤ esev then c.stick fcuPage (esev - 1) else c) := .ite (fun _ => .of_eq rfl) (fun _ => .refl c)
  unfold Chip.react
  dsimp only
  generalize (if 2 ≤ esev then c.stick fcuPage (esev - 1) else c) = d at shown ⊢
  have contained : Chip.DrivesOn c (if 3 ≤ esev then d.contain r else d) :=
    .ite (fun _ => shown.trans (d.drivesOn_contain r)) (fun _ => shown)
  generalize (if 3 ≤ esev then d.contain r else d) = d at contained ⊢
  have held : Chip.DrivesOn c (if 3 ≤ esev ∧ !d.masked r then d.startHolds r else d) :=
    .ite (fun _ => contained.trans (.of_eq rfl)) (fun _ => contained)
  generalize (if 3 ≤ esev ∧ !d.masked r then d.startHolds r else d) = d at held ⊢
  have stopped := held.trans (.of_eq (d.out_stopAlive 0))
  exact .ite (fun _ => .ite (fun _ => stopped.trans (.of_eq rfl)) (fun _ => stopped)) (fun _ => held)

theorem Chip.drivesOn_collect (c : Chip) (p : Nat × Report) : Chip.DrivesOn c (c.collect p) := by
  have seen : Chip.DrivesOn c (if p.2.src = 0x18 then { c with twin := { c.twin with eyeAt := some c.stc } } else c) :=
    .ite (fun _ => .of_eq rfl) (fun _ => .refl c)
  unfold Chip.collect
  dsimp only
  generalize (if p.2.src = 0x18 then { c with twin := { c.twin with eyeAt := some c.stc } } else c) = d at seen ⊢
  refine .ite (fun _ => seen) (fun _ => ?_)
  exact seen.trans (.trans (.of_eq (by simp)) (Chip.drivesOn_react _ p.1 p.2))

theorem Chip.drivesOn_collectAll (c : Chip) : Chip.DrivesOn c c.collectAll :=
  List.foldlRecOn (motive := Chip.DrivesOn c) _ _ (.of_eq rfl) fun d hd p _ => hd.trans (d.drivesOn_collect p)

theorem Chip.drivesOn_sendVector (c : Chip) (v : Nat) : Chip.DrivesOn c (c.sendVector v) := by
  unfold Chip.sendVector
  exact .ite (fun _ => .refl c) (fun _ => .ite (fun _ => .of_eq rfl) (fun _ => (Chip.DrivesOn.emit c rfl).trans (.of_eq rfl)))

theorem Chip.drivesOn_interrupts (c : Chip) : Chip.DrivesOn c c.interrupts := by
  unfold Chip.interrupts
  dsimp only
  refine .ite (fun _ => .of_eq rfl) (fun _ => ?_)
  exact List.foldlRecOn (motive := Chip.DrivesOn c) _ _ (.of_eq rfl)
    fun d hd v _ => .ite (fun _ => hd.trans (d.drivesOn_sendVector v)) (fun _ => hd)

/-- What a command has driven outward stands when it ends, whatever it reports. -/
theorem Chip.drivesOn_settle (c : Chip) : Chip.DrivesOn c c.settle := by
  have collected : Chip.DrivesOn c c.collectTwice := by
    unfold Chip.collectTwice
    exact .ite (fun _ => c.drivesOn_collectAll) (fun _ => c.drivesOn_collectAll.trans (Chip.drivesOn_collectAll _))
  unfold Chip.settle
  exact (Chip.DrivesOn.ite (fun _ => .refl c) (fun _ => collected)).trans (Chip.drivesOn_interrupts _)

/-! ## Attempts, checks and reads of good words -/

/-- Between two machines only the fault collector, its reports, and the sticky words of the pages `ps` and of those that a reaction may
set differ, as far as the packet blocks read them. -/
structure Chip.Gathers (ps : List Nat) (c d : Chip) : Prop where
  flds : d.flds = c.flds
  sticky : ∀ p, reactsSticky p = false → p ∉ ps → d.stickyWord p = c.stickyWord p
  pkt : d.pkt = c.pkt
  stc : d.stc = c.stc
  out : d.out = c.out
  poisoned : d.poisoned = c.poisoned

theorem Chip.Gathers.rd {ps : List Nat} {c d : Chip} (h : Chip.Gathers ps c d) (f : Fld) : d.rd f = c.rd f := by
  rw [Chip.rd, h.flds, Chip.rd]

theorem Chip.Gathers.on {ps : List Nat} {c d : Chip} (h : Chip.Gathers ps c d) (f : Fld) : d.on f = c.on f := by
  rw [Chip.on, h.rd, Chip.on]

section
variable {ps : List Nat} {a b c : Chip}

theorem Chip.Gathers.refl (c : Chip) : Chip.Gathers ps c c := ⟨rfl, fun _ _ _ => rfl, rfl, rfl, rfl, rfl⟩

theorem Chip.Gathers.trans (h : Chip.Gathers ps a b) (k : Chip.Gathers ps b c) : Chip.Gathers ps a c :=
  ⟨k.flds.trans h.flds, fun p hr hp => (k.sticky p hr hp).trans (h.sticky p hr hp), k.pkt.trans h.pkt, k.stc.trans h.stc,
    k.out.trans h.out, k.poisoned.trans h.poisoned⟩

theorem Chip.Gathers.ite {p : Prop} [Decidable p] (h : p → Chip.Gathers ps a b) (k : ¬p → Chip.Gathers ps a c) :
    Chip.Gathers ps a (if p then b else c) := by
  split
  · exact h ‹_›
  · exact k ‹_›

theorem Chip.Gathers.writesOn (h : Chip.Gathers ps a b) : Chip.WritesOn ps a b := ⟨fun f _ _ => h.rd f, h.sticky⟩

theorem Chip.Gathers.report (h : Chip.Gathers ps a b) (r : Report) : Chip.Gathers ps a (b.report r) :=
  h.trans ⟨rfl, fun _ _ _ => rfl, rfl, rfl, rfl, rfl⟩

theorem Chip.Gathers.stick (h : Chip.Gathers ps a b) {p : Nat} (hp : p ∈ ps) (n : Nat) : Chip.Gathers ps a (b.stick p n) :=
  h.trans ⟨rfl, ((Chip.WritesOn.refl b).stick (.inl hp) n).sticky, rfl, rfl, rfl, rfl⟩

theorem Chip.Gathers.judge (h : Chip.Gathers ps a b) (src page inst detail : Nat) (bad inj : Bool) :
    Chip.Gathers ps a (b.judge src page inst detail bad inj) := by
  obtain ⟨u, r, e⟩ := b.judge_frame src page inst detail bad inj
  rw [e]
  exact h.trans ⟨rfl, fun _ _ _ => rfl, rfl, rfl, rfl, rfl⟩

theorem Chip.Gathers.check (h : Chip.Gathers ps a b) (k i real : Nat) : Chip.Gathers ps a (b.check k i real).c := by
  have sticky := ((Chip.Quiet.refl (ps := ps) b).check k i real).sticky
  have collects : ∃ u w, (b.check k i real).c = { b with fcu := u, sticky := w } := by
    unfold Chip.check
    split
    · split
      · dsimp only
        split <;> exact ⟨_, _, rfl⟩
      · exact ⟨_, _, rfl⟩
    · exact ⟨_, _, rfl⟩
  obtain ⟨u, w, e⟩ := collects
  rw [e] at sticky ⊢
  exact h.trans ⟨rfl, sticky, rfl, rfl, rfl, rfl⟩

/-- A read of a good word changes nothing else; of a stack, an injection that fires on it shows on the page of the stacks (R420). -/
theorem Chip.Gathers.cleanRead (h : Chip.Gathers ps a b) {k : Nat} (hk : hbmPage ∈ ps ∨ 2 ≤ k) (i w : Nat) (held : List (Nat × Nat)) :
    Chip.Gathers ps a (b.cleanRead k i w held) := by
  have checked := h.check k (if k < 2 then 0 else i) 0
  obtain ⟨real, -, -⟩ := b.check_frame k (if k < 2 then 0 else i) 0
  simp only [Chip.cleanRead, Chip.memRead, if_true, real, ne_eq, not_true_eq_false, and_false, if_false]
  refine .ite (fun _ => checked) (fun _ => .ite (fun stack => ?_) (fun _ => checked.report _))
  exact (checked.report _).stick (hk.resolve_right (Nat.not_le.mpr stack)) _

end

/-- What an effect writes after its checks confines the command. -/
theorem Chip.Gathers.confined {gs : List Fld} {ps : List Nat} {s : State} {a d : Chip} (h : Chip.Gathers ps s.c.start a)
    (k : Chip.Writes gs ps a d) : Confined gs ps s { s with c := d.settle } :=
  Confined.of_body (fun f _ _ hf => (k.rd f hf).trans (h.rd f)) (fun p hr hp => (k.sticky p hp).trans (h.sticky p hr hp))

/-! ## The packet blocks' own state -/

@[simp] theorem Chip.ethLink_updLink_self (c : Chip) (k : Nat) (f : EthLink → EthLink) : (c.updLink k f).ethLink k = f (c.ethLink k) := by
  simp [Chip.ethLink, Chip.updLink, Chip.updPkt, Store.upd]

@[simp] theorem Chip.ethPort_updPort_self (c : Chip) (n : Nat) (f : EthPort → EthPort) : (c.updPort n f).ethPort n = f (c.ethPort n) := by
  simp [Chip.ethPort, Chip.updPort, Chip.updPkt, Store.upd]

theorem Chip.chan_updChan (c : Chip) (h i : Nat) (f : Chan → Chan) :
    (c.updChan h f).chan i = if i = h then f (c.chan h) else c.chan i := by
  simp [Chip.chan, Chip.updChan, Chip.updPkt, Store.upd, Store.get_set]

@[simp] theorem Chip.rd_updPkt (c : Chip) (f : PktX → PktX) (g : Fld) : (c.updPkt f).rd g = c.rd g := rfl
@[simp] theorem Chip.rd_updLink (c : Chip) (k : Nat) (f : EthLink → EthLink) (g : Fld) : (c.updLink k f).rd g = c.rd g := rfl
@[simp] theorem Chip.rd_updPort (c : Chip) (n : Nat) (f : EthPort → EthPort) (g : Fld) : (c.updPort n f).rd g = c.rd g := rfl
@[simp] theorem Chip.rd_updChan (c : Chip) (h : Nat) (f : Chan → Chan) (g : Fld) : (c.updChan h f).rd g = c.rd g := rfl

theorem Chip.ethLink_congr {c d : Chip} (h : d.pkt = c.pkt) (k : Nat) : d.ethLink k = c.ethLink k := by
  rw [Chip.ethLink, h, Chip.ethLink]
theorem Chip.ethPort_congr {c d : Chip} (h : d.pkt = c.pkt) (n : Nat) : d.ethPort n = c.ethPort n := by
  rw [Chip.ethPort, h, Chip.ethPort]
theorem Chip.chan_congr {c d : Chip} (h : d.pkt = c.pkt) (i : Nat) : d.chan i = c.chan i := by rw [Chip.chan, h, Chip.chan]

@[simp] theorem Chip.ethLink_settle (c : Chip) (k : Nat) : c.settle.ethLink k = c.ethLink k := Chip.ethLink_congr (settled c).pkt k
@[simp] theorem Chip.ethPort_settle (c : Chip) (n : Nat) : c.settle.ethPort n = c.ethPort n := Chip.ethPort_congr (settled c).pkt n
@[simp] theorem Chip.chan_settle (c : Chip) (i : Nat) : c.settle.chan i = c.chan i := Chip.chan_congr (settled c).pkt i

theorem Chip.Writes.updPkt {gs : List Fld} {ps : List Nat} {a b : Chip} (h : Chip.Writes gs ps a b) (f : PktX → PktX) :
    Chip.Writes gs ps a (b.updPkt f) := ⟨h.rd, h.sticky⟩
theorem Chip.Writes.updLink {gs : List Fld} {ps : List Nat} {a b : Chip} (h : Chip.Writes gs ps a b) (k : Nat) (f : EthLink → EthLink) :
    Chip.Writes gs ps a (b.updLink k f) := h.updPkt _
theorem Chip.Writes.updPort {gs : List Fld} {ps : List Nat} {a b : Chip} (h : Chip.Writes gs ps a b) (n : Nat) (f : EthPort → EthPort) :
    Chip.Writes gs ps a (b.updPort n f) := h.updPkt _

/-! ## Fields of links, ports and queues at the end of a command -/

theorem reacts_ethPage : ∀ n : Fin 8, reacts (ethPage n) = false ∧ reactsSticky (ethPage n) = false := by decide

theorem port_lt (k : Fin 32) : k.val / 4 < 8 := by omega

/-- A field of a port has a place that fits, on the port's page. -/
theorem Fld.on_eth {f : Fld} {n : Nat} (hn : n < 8)
    (hf : (decide (f.page = ethPage 0) && decide (f.off < 67108864) && decide (f.lo < 32)) = true) :
    (f.on n).ok = true ∧ (f.on n).page = ethPage n := by
  simp only [Bool.and_eq_true, decide_eq_true_eq] at hf
  obtain ⟨⟨page, off⟩, lo⟩ := hf
  have within : f.page + n < 512 := by
    rw [page, ethPage]
    omega
  have moved : f.page + n = ethPage n := by rw [page]; rfl
  exact ⟨by simp [Fld.ok, Fld.on, within, off, lo], moved⟩

/-- No reaction to a fault writes a field of a port. -/
theorem Chip.rd_settle_port (c : Chip) (k : Fin 32) {f : Fld}
    (hf : (decide (f.page = ethPage 0) && decide (f.off < 67108864) && decide (f.lo < 32)) = true) :
    c.settle.rd (f.on (k.val / 4)) = c.rd (f.on (k.val / 4)) := by
  obtain ⟨ok, page⟩ := Fld.on_eth (port_lt k) hf
  exact c.rd_settle ok (page ▸ (reacts_ethPage ⟨_, port_lt k⟩).1)

/-- The same of a field of a link. -/
theorem Chip.rd_settle_link (c : Chip) (k : Fin 32) {f : Fld}
    (hf : (decide (f.page = ethPage 0) && decide (f.off + 4 * f.stride < 67108864) && decide (f.lo < 32)) = true) :
    c.settle.rd (onLink f k) = c.rd (onLink f k) := by
  simp only [Bool.and_eq_true, decide_eq_true_eq] at hf
  obtain ⟨⟨page, off⟩, lo⟩ := hf
  have place : k.val % 4 * f.stride ≤ 4 * f.stride := Nat.mul_le_mul_right _ (by omega)
  refine c.rd_settle_port k (f := f.nth (k.val % 4)) ?_
  have fits : f.off + k.val % 4 * f.stride < 67108864 := by omega
  simp only [Fld.nth, page, fits, lo, decide_true, Bool.and_true]

theorem Chip.stickyWord_settle_port (c : Chip) (k : Fin 32) : c.settle.stickyWord (ethPage (k.val / 4)) = c.stickyWord (ethPage (k.val / 4)) :=
  (settled c).stickyWord _ (reacts_ethPage ⟨_, port_lt k⟩).2

/-- No reaction to a fault writes a field of FLOWQ or CRCU. -/
theorem Chip.rd_settle_flow (c : Chip) {f : Fld}
    (hf : (decide (f.page = flowqPage ∨ f.page = crcuPage) && decide (f.off < 67108864) && decide (f.lo < 32)) = true) :
    c.settle.rd f = c.rd f := by
  simp only [Bool.and_eq_true, decide_eq_true_eq] at hf
  obtain ⟨⟨page, off⟩, lo⟩ := hf
  have quiet : f.page < 512 ∧ reacts f.page = false := by
    rcases page with page | page
    all_goals exact page ▸ (by decide)
  refine c.rd_settle ?_ quiet.2
  simp only [Fld.ok, Bool.and_eq_true, decide_eq_true_eq]
  exact ⟨⟨quiet.1, off⟩, lo⟩

/-! ## A whole word written (R6) -/

theorem allBits_field {lo w : Nat} (fits : lo + w ≤ 32) : allBits / 2 ^ lo % 2 ^ w = 2 ^ w - 1 := by
  refine Nat.eq_of_testBit_eq fun i => ?_
  rw [allBits, Nat.testBit_mod_two_pow, Nat.testBit_div_two_pow, Nat.testBit_two_pow_sub_one, Nat.testBit_two_pow_sub_one]
  by_cases below : i < w
  · have inWord : i + lo < 32 := by omega
    simp [below, inWord]
  · simp [below]

/-- A write of all 32 bits of a word gives each of its RW fields its bits of the data. -/
theorem Chip.putRw_allBits (c : Chip) (p sp off data : Nat) : c.putRw p sp off data allBits =
    (wordFields p sp off).foldl (fun c f => if f.acc = .rw then c.wrAny f (data / 2 ^ f.lo % 2 ^ f.w) else c) c := by
  refine List.foldl_ext _ _ c fun d f hf => ?_
  have fits : f.lo + f.w ≤ 32 := by simpa [Fld.fits] using wordFields_fit p sp off f hf
  have cut := Nat.and_two_pow_sub_one_of_lt_two_pow (Nat.mod_lt (data / 2 ^ f.lo) (Nat.two_pow_pos f.w))
  simp only [allBits_field fits, cut, Nat.sub_self, Nat.and_zero, Nat.or_zero]

end Sys2Proof.Machine
end

section
/-! SUPPORT. Check-value channels (R312 to R316): what packets and results write, and what they leave. -/

namespace Sys2Proof.Machine

/-! ## What the channels' operations write -/

/-- Between two machines only fields of CRCU's table and its sticky word differ, and no memory job. -/
structure Chip.CrcWrites (c d : Chip) : Prop where
  rd : ∀ f : Fld, f.ok = true → f.page ≠ crcuPage ∨ f.space = 0 → d.rd f = c.rd f
  sticky : ∀ p, p ≠ crcuPage → d.stickyWord p = c.stickyWord p
  job : d.pkt.job = c.pkt.job

/-- The results that the channels have given stand as well. -/
structure Chip.CrcMeets (c d : Chip) : Prop extends Chip.CrcWrites c d where
  given : ∀ i, (d.chan i).given = (c.chan i).given

/-- A field of CRCU's table window whose place fits its key. -/
theorem Fld.crc_nth {f : Fld} {i : Nat} (n : Nat) (hi : i < n)
    (hf : (decide (f.page = crcuPage) && decide (f.space = 1) && decide (f.off + n * f.stride < 67108864) && decide (f.lo < 32)) = true) :
    (f.nth i).ok = true ∧ (f.nth i).page = crcuPage ∧ (f.nth i).space = 1 := by
  simp only [Bool.and_eq_true, decide_eq_true_eq] at hf
  obtain ⟨⟨⟨page, space⟩, off⟩, lo⟩ := hf
  have member : i * f.stride ≤ n * f.stride := Nat.mul_le_mul_right _ hi.le
  exact ⟨Fld.nth_ok (page ▸ by decide) lo (by omega), page, space⟩

section
variable {a b c : Chip}

theorem Chip.CrcWrites.trans (h : Chip.CrcWrites a b) (k : Chip.CrcWrites b c) : Chip.CrcWrites a c :=
  ⟨fun f hf hp => (k.rd f hf hp).trans (h.rd f hf hp), fun p hp => (k.sticky p hp).trans (h.sticky p hp), k.job.trans h.job⟩

theorem Chip.CrcWrites.writesOn (h : Chip.CrcWrites a b) : Chip.WritesOn [crcuPage] a b :=
  ⟨fun f hf hp => h.rd f hf (.inl (fun e => hp (List.mem_singleton.mpr e))), fun p _ hp => h.sticky p (fun e => hp (List.mem_singleton.mpr e))⟩

theorem Chip.CrcMeets.refl (c : Chip) : Chip.CrcMeets c c := ⟨⟨fun _ _ _ => rfl, fun _ _ => rfl, rfl⟩, fun _ => rfl⟩

theorem Chip.CrcMeets.trans (h : Chip.CrcMeets a b) (k : Chip.CrcMeets b c) : Chip.CrcMeets a c :=
  ⟨h.toCrcWrites.trans k.toCrcWrites, fun i => (k.given i).trans (h.given i)⟩

theorem Chip.CrcMeets.ite {p : Prop} [Decidable p] (h : p → Chip.CrcMeets a b) (k : ¬p → Chip.CrcMeets a c) :
    Chip.CrcMeets a (if p then b else c) := by
  split
  · exact h ‹_›
  · exact k ‹_›

theorem Chip.CrcMeets.foldl {β : Type} {step : Chip → β → Chip} {l : List β} (hstep : ∀ x ∈ l, ∀ b, Chip.CrcMeets b (step b x)) (c : Chip) :
    Chip.CrcMeets c (l.foldl step c) :=
  List.foldlRecOn (motive := Chip.CrcMeets c) l step (.refl c) fun b hb x hx => hb.trans (hstep x hx b)

theorem Chip.CrcMeets.wr (h : Chip.CrcMeets a b) {f : Fld} (hf : f.ok = true ∧ f.page = crcuPage ∧ f.space = 1) (v : Nat) :
    Chip.CrcMeets a (b.wr f v) := by
  obtain ⟨ok, page, space⟩ := hf
  refine h.trans ⟨⟨fun g hg apart => b.rd_wr_other v ok hg ?_, fun _ _ => rfl, rfl⟩, fun _ => rfl⟩
  exact apart.elim (fun other => .inr (.inl (fun e => other (e.trans page)))) (fun body => .inl (fun e => by omega))

theorem Chip.CrcMeets.stick (h : Chip.CrcMeets a b) (n : Nat) : Chip.CrcMeets a (b.stick crcuPage n) :=
  h.trans ⟨⟨fun _ _ _ => rfl, fun _ hp => b.stick_other crcuPage n hp, rfl⟩, fun _ => rfl⟩

theorem Chip.CrcMeets.raise (h : Chip.CrcMeets a b) (src page inst detail : Nat) : Chip.CrcMeets a (b.raise src page inst detail) :=
  h.trans ⟨⟨fun _ _ _ => rfl, fun _ _ => rfl, rfl⟩, fun _ => rfl⟩

/-- A channel's own state changes, but not what it has given. -/
theorem Chip.CrcMeets.updChan (h : Chip.CrcMeets a b) (i : Nat) {f : Chan → Chan} (hf : ∀ x, (f x).given = x.given) :
    Chip.CrcMeets a (b.updChan i f) := by
  refine h.trans ⟨⟨fun _ _ _ => rfl, fun _ _ => rfl, rfl⟩, fun j => ?_⟩
  rw [Chip.chan_updChan]
  split
  · next same => rw [hf, same]
  · rfl

end

/-! ## Comparisons (R316) -/

section
variable {a b : Chip} {h : Nat} (hh : h < 64)
include hh

theorem Chip.CrcMeets.crcCompare (k : Chip.CrcMeets a b) (own peer : Nat) : Chip.CrcMeets a (b.crcCompare h own peer) := by
  have counted := k.wr (f := Crcu.cMismatches.nth h) (Fld.crc_nth 64 hh rfl)
  exact .ite (fun _ => k) (fun _ => ((counted _).raise _ _ _ _).stick 0)

theorem Chip.CrcMeets.unpaired (k : Chip.CrcMeets a b) : Chip.CrcMeets a (b.inc (Crcu.cUnpaired.nth h)) :=
  k.wr (Fld.crc_nth 64 hh rfl) _

theorem Chip.CrcMeets.crcMeet (k : Chip.CrcMeets a b) (tag v : Nat) : Chip.CrcMeets a (b.crcMeet h tag v) := by
  unfold Chip.crcMeet
  have compared := k.trans (.foldl (l := (b.chan h).waits.filter (fun p => p.1 = tag)) (step := fun c p => c.crcCompare h p.2 v)
    (fun p _ c => (Chip.CrcMeets.refl c).crcCompare hh p.2 v) b)
  exact Chip.CrcMeets.updChan (.trans compared (.foldl (fun _ _ c => (Chip.CrcMeets.refl c).unpaired hh) _)) h fun _ => rfl

end

/-! ## Results (R314) -/

/-- A result enters the ring of its channel, or is lost where the ring is full. -/
def Chip.ringsResult (c : Chip) (h tag v : Nat) : Chip :=
  let w := c.rd (Crcu.cWptr.nth h)
  if (w + 1) % 64 = c.rd (Crcu.cRptr.nth h) then (c.inc (Crcu.cLost.nth h)).stick crcuPage 1
  else ((c.wr (Crcu.result.nth (128 * h + 2 * w)) v).wr (Crcu.result.nth (128 * h + 2 * w + 1)) tag).wr (Crcu.cWptr.nth h) (w + 1)

/-- A result is among those that its channel has given. -/
def Chip.givesResult (c : Chip) (h tag v : Nat) : Chip :=
  (c.ringsResult h tag v).updChan h (fun x => { x with given := (tag, v) :: x.given, reg := none, open_ := 0 })

theorem Chip.crcMeets_ringsResult (c : Chip) {h : Nat} (hh : h < 64) (tag v : Nat) : Chip.CrcMeets c (c.ringsResult h tag v) := by
  have below : c.rd (Crcu.cWptr.nth h) < 64 := c.rd_lt _
  have start := Chip.CrcMeets.refl c
  refine .ite (fun _ => ?_) (fun _ => ?_)
  · exact (start.wr (f := Crcu.cLost.nth h) (Fld.crc_nth 64 hh rfl) _).stick 1
  · have value := start.wr (f := Crcu.result.nth (128 * h + 2 * c.rd (Crcu.cWptr.nth h))) (Fld.crc_nth 8192 (by omega) rfl) v
    have tagged := value.wr (f := Crcu.result.nth (128 * h + 2 * c.rd (Crcu.cWptr.nth h) + 1)) (Fld.crc_nth 8192 (by omega) rfl) tag
    exact tagged.wr (f := Crcu.cWptr.nth h) (Fld.crc_nth 64 hh rfl) _

/-- Once a result is given, the comparisons with it leave what every channel has given. -/
theorem Chip.crcMeets_crcResult (c : Chip) {h : Nat} (hh : h < 64) (tag v : Nat) :
    Chip.CrcMeets (c.givesResult h tag v) (c.crcResult h tag v) := by
  have met := Chip.CrcMeets.foldl (step := fun c d => c.crcMeet d tag v) (l := (List.range 64).filter (fun d =>
      (c.givesResult h tag v).on (Crcu.cCmpEn.nth d) && (c.givesResult h tag v).rd (Crcu.cPeer.nth d) = h && d ≠ h))
    (fun d hd b => (Chip.CrcMeets.refl b).crcMeet (List.mem_range.mp (List.mem_filter.mp hd).1) tag v) (c.givesResult h tag v)
  change Chip.CrcMeets _ (ite _ _ _)
  refine .ite (fun _ => met) (fun _ => ?_)
  dsimp only
  split
  · exact met.crcCompare hh _ _
  · exact .ite (fun _ => met.unpaired hh) (fun _ => met.updChan h fun _ => rfl)

/-- A result is the newest that its channel has given. -/
theorem Chip.given_crcResult (c : Chip) {h : Nat} (hh : h < 64) (tag v : Nat) :
    ((c.crcResult h tag v).chan h).given = (tag, v) :: (c.chan h).given := by
  rw [(c.crcMeets_crcResult hh tag v).given, Chip.givesResult, Chip.chan_updChan, if_pos rfl, (c.crcMeets_ringsResult hh tag v).given]

theorem Chip.crcWrites_crcResult (c : Chip) {h : Nat} (hh : h < 64) (tag v : Nat) : Chip.CrcWrites c (c.crcResult h tag v) := by
  have ring := (c.crcMeets_ringsResult hh tag v).toCrcWrites
  have given : Chip.CrcWrites (c.ringsResult h tag v) (c.givesResult h tag v) := ⟨fun _ _ _ => rfl, fun _ _ => rfl, rfl⟩
  exact (ring.trans given).trans (c.crcMeets_crcResult hh tag v).toCrcWrites

/-! ## Packets (R313) -/

/-- A number listed of an array is that of a member. -/
theorem Chip.lt_of_mem_listed {c : Chip} {f : Fld} {i : Nat} (h : i ∈ c.listed f) : i < f.count := by
  obtain ⟨p, -, hp⟩ := List.mem_filterMap.mp h
  dsimp only at hp
  split at hp
  · next inside =>
    obtain ⟨-, -, below⟩ := inside
    exact Option.some.inj hp ▸ below
  · exact absurd hp (by simp)

theorem Chip.WritesOn.updChan {ps : List Nat} {a b : Chip} (h : Chip.WritesOn ps a b) (i : Nat) (f : Chan → Chan) :
    Chip.WritesOn ps a (b.updChan i f) := h.keep rfl rfl

theorem Chip.writesOn_crcPacket (c : Chip) {h : Nat} (hh : h < 64) (udp : List Nat) : Chip.WritesOn [crcuPage] c (c.crcPacket h udp) := by
  have result {d : Chip} (hd : Chip.WritesOn [crcuPage] c d) (tag v : Nat) : Chip.WritesOn [crcuPage] c (d.crcResult h tag v) :=
    hd.trans (d.crcWrites_crcResult hh tag v).writesOn
  have choose {p : Prop} [Decidable p] {d e : Chip} (hd : Chip.WritesOn [crcuPage] c d) (he : Chip.WritesOn [crcuPage] c e) :
      Chip.WritesOn [crcuPage] c (if p then d else e) := by
    split
    · exact hd
    · exact he
  have begun (p : Prop) [Decidable p] (tag v : Nat) := choose (p := p) (result (.refl c) tag v) (.refl c)
  unfold Chip.crcPacket
  dsimp only
  exact choose (result ((begun _ _ _).updChan _ _) _ _) ((begun _ _ _).updChan _ _)

/-- A packet writes the page of the channels alone. -/
theorem Chip.writesOn_crcPackets (c : Chip) (src inst : Nat) (udp : List Nat) : Chip.WritesOn [crcuPage] c (c.crcPackets src inst udp) :=
  List.foldlRecOn (motive := Chip.WritesOn [crcuPage] c) _ _ (.refl c)
    fun d hd _ hh => hd.trans (d.writesOn_crcPacket (Chip.lt_of_mem_listed (List.mem_filter.mp hh).1) udp)

end Sys2Proof.Machine
end

section
/-! SUPPORT. Frames received on a link: the checks of a frame, and good frames that are matched or not (O29). -/

namespace Sys2Proof.Machine

/-! ## The commands' own meanings -/

theorem exec_ethFrameReceive (k : Fin 32) (frame : List (BitVec 8)) (pcsErr fecErr : Bool) (s : State) :
    exec (.ethFrameReceive k frame pcsErr fecErr) s = execEthFrameReceive k frame pcsErr fecErr s := rfl

/-! ## The frame check sequence (R293, R312) -/

/-- A frame without its FCS. -/
def frameBody (f : List Nat) : List Nat := f.take (f.length - 4)

/-- What the FCS of a frame differs by from that of its body. -/
def frameSyndrome (f : List Nat) : Nat := leNat (f.drop (f.length - 4)) ^^^ crcEthernet.over (frameBody f)

theorem length_withFcs (l : List Nat) : (withFcs l).length = l.length + 4 := by rw [withFcs, List.length_append, length_leBytes]

theorem frameBody_withFcs (l : List Nat) : frameBody (withFcs l) = l := by
  rw [frameBody, length_withFcs, Nat.add_sub_cancel]
  exact List.take_left

theorem crcEthernet_over_lt (l : List Nat) : crcEthernet.over l < 256 ^ 4 := Nat.mod_lt _ (by decide)

/-- A frame that carries the FCS of its body is good. -/
theorem frameSyndrome_withFcs (l : List Nat) : frameSyndrome (withFcs l) = 0 := by
  have sent : (withFcs l).drop ((withFcs l).length - 4) = leBytes 4 (crcEthernet.over l) := by
    rw [length_withFcs, Nat.add_sub_cancel]
    exact List.drop_left
  rw [frameSyndrome, frameBody_withFcs, sent, leNat_leBytes, Nat.mod_eq_of_lt (crcEthernet_over_lt l), Nat.xor_self]

theorem lt_of_mem_leBytes {n v b : Nat} (h : b ∈ leBytes n v) : b < 256 := by
  induction n generalizing v with
  | zero => exact absurd h List.not_mem_nil
  | succ n ih =>
    rcases List.mem_cons.mp h with rfl | later
    · exact Nat.mod_lt _ (by decide)
    · exact ih later

/-- The bytes of a frame that is sent are the bytes that are received. -/
theorem received_withFcs (body : List (BitVec 8)) :
    ((withFcs (body.map BitVec.toNat)).map (BitVec.ofNat 8)).map BitVec.toNat = withFcs (body.map BitVec.toNat) := by
  have bytes : ∀ b ∈ withFcs (body.map BitVec.toNat), (BitVec.ofNat 8 b).toNat = b := by
    intro b hb
    rw [BitVec.toNat_ofNat]
    refine Nat.mod_eq_of_lt ?_
    rcases List.mem_append.mp hb with own | fcs
    · obtain ⟨x, -, rfl⟩ := List.mem_map.mp own
      exact x.isLt
    · exact lt_of_mem_leBytes fcs
  rw [List.map_map]
  exact (List.map_congr_left bytes).trans (List.map_id _)

/-! ## The checks of a frame (R293) -/

/-- The longest frame that a port takes: four bytes more with a VLAN tag (R293). -/
def Chip.longestFrame (c : Chip) (k : Nat) (f : List Nat) : Nat :=
  clampN 64 9216 (c.rd (Eth.maxLen.on (k / 4))) + (if (etherHeader f).2.1.isSome then 4 else 0)

/-- Whether a frame without a decoding error is bad. -/
def Chip.frameBad (c : Chip) (k : Nat) (f : List Nat) : Bool :=
  f.length < 64 || c.longestFrame k f < f.length || frameSyndrome f ≠ 0

/-- The attempts and the check of a frame whose codewords are right. -/
def Chip.judgesFrame (c : Chip) (k fcs : Nat) (bad : Bool) : Chip :=
  let i := (c.judge 0x21 (ethPage (k / 4)) k 0 false).check 10 k fcs
  let d := i.c.judge 0x22 (ethPage (k / 4)) k 0 bad i.inj
  if i.inj ∧ !bad then d.stick (ethPage (k / 4)) 2 else d

/-- A bad frame is counted. -/
def Chip.countsBad (c : Chip) (k : Nat) : Chip := (c.stick (ethPage (k / 4)) 2).inc (onLink Eth.badCnt k)

theorem Chip.gathers_judgesFrame (c : Chip) (k fcs : Nat) (bad : Bool) : Chip.Gathers [ethPage (k / 4)] c (c.judgesFrame k fcs bad) := by
  have judged := (((Chip.Gathers.refl (ps := [ethPage (k / 4)]) c).judge 0x21 (ethPage (k / 4)) k 0 false false).check 10 k fcs).judge 0x22
    (ethPage (k / 4)) k 0 bad ((c.judge 0x21 (ethPage (k / 4)) k 0 false).check 10 k fcs).inj
  exact .ite (fun _ => judged.stick List.mem_cons_self 2) (fun _ => judged)

/-- What the reception of a frame without FEC errors does while its link is up. -/
def Chip.receivesFrame (c : Chip) (k : Nat) (f : List Nat) (bad : Bool) : Chip :=
  let c := c.judgesFrame k (frameSyndrome f) bad
  if bad then
    let c := c.countsBad k
    if c.on (Eth.badMode.on (k / 4)) then c.exception k (excClass (etherHeader f).1 (f.drop (etherHeader f).2.2)) true (frameBody f) else c
  else c.goodFrame k (frameBody f)

theorem execEthFrameReceive_eq (k : Fin 32) (frame : List (BitVec 8)) (pcsErr : Bool) (s : State) :
    execEthFrameReceive k frame pcsErr false s = act s (fun c => if !c.linkUp k then c
      else c.receivesFrame k (frame.map BitVec.toNat) (pcsErr || c.frameBad k (frame.map BitVec.toNat))) := by
  simp only [Chip.frameBad, ← Bool.or_assoc]
  rfl

theorem gives_ethFrameReceive {s : State} {k : Fin 32} {frame : List (BitVec 8)} {pcsErr bad : Bool} {P : State → Prop} (hs : s.Runs)
    (up : s.c.linkUp k = true) (judged : (pcsErr || s.c.start.frameBad k (frame.map BitVec.toNat)) = bad)
    (hP : P { s with c := (s.c.start.receivesFrame k (frame.map BitVec.toNat) bad).settle }) :
    Gives (.ethFrameReceive k frame pcsErr false) s P := by
  have linked : ¬(!s.c.start.linkUp k) = true := by rw [show s.c.start.linkUp k = true from up]; decide
  subst judged
  exact gives_of_body hs ((exec_ethFrameReceive k frame pcsErr false s).trans (execEthFrameReceive_eq k frame pcsErr s)) (if_neg linked) hP

/-- A bad frame that the port does not deliver is counted. -/
theorem Chip.receivesFrame_bad {c : Chip} {k : Nat} (dropped : c.on (Eth.badMode.on (k / 4)) = false) (f : List Nat) :
    c.receivesFrame k f true = (c.judgesFrame k (frameSyndrome f) true).countsBad k := by
  have gathered := c.gathers_judgesFrame k (frameSyndrome f) true
  rw [Chip.receivesFrame, if_pos rfl]
  refine if_neg ?_
  rw [Bool.not_eq_true, Chip.on, Chip.countsBad, Chip.inc, Chip.rd_wr_ne_lo _ _ rfl, Chip.rd_stick, gathered.rd]
  exact dropped

/-- A frame whose FCS is right and whose length the port takes is a good one. -/
theorem gives_ethFrameReceive_good {s : State} {k : Fin 32} {body : List (BitVec 8)} {P : State → Prop} (hs : s.Runs)
    (up : s.c.linkUp k = true) (short : 60 ≤ body.length) (long : body.length + 4 ≤ clampN 64 9216 (s.c.rd (Eth.maxLen.on (k.val / 4))))
    (hP : P { s with c := ((s.c.start.judgesFrame k 0 false).goodFrame k (body.map BitVec.toNat)).settle }) :
    Gives (.ethFrameReceive k ((withFcs (body.map BitVec.toNat)).map (BitVec.ofNat 8)) false false) s P := by
  have length : (withFcs (body.map BitVec.toNat)).length = body.length + 4 := by rw [length_withFcs, List.length_map]
  have fits : body.length + 4 ≤ s.c.start.longestFrame k (withFcs (body.map BitVec.toNat)) := Nat.le_add_right_of_le long
  have good : s.c.start.frameBad k (withFcs (body.map BitVec.toNat)) = false := by
    have bounds : ¬body.length + 4 < 64 ∧ ¬s.c.start.longestFrame k (withFcs (body.map BitVec.toNat)) < body.length + 4 := by omega
    simp [Chip.frameBad, length, frameSyndrome_withFcs, bounds]
  refine gives_ethFrameReceive (bad := false) hs up (by rw [received_withFcs, good]; rfl) ?_
  rw [received_withFcs, Chip.receivesFrame, frameSyndrome_withFcs, frameBody_withFcs]
  exact hP

/-! ## Good frames (R294, R295) -/

/-- A frame of another protocol than those that a rule names is unmatched, and is not delivered where its class is not (R294). -/
theorem Chip.goodFrame_unmatched {c : Chip} {k : Nat} {f : List Nat} (noPause : (etherHeader f).1 ≠ 0x8808)
    (noPtp : (etherHeader f).1 ≠ 0x88F7) (noArp : (etherHeader f).1 ≠ 0x0806) (noIp : (etherHeader f).1 ≠ 0x0800)
    (off : bit (c.rd (Eth.excClass.on (k / 4))) 4 = false) : c.goodFrame k f = c.inc (Eth.unmatched.on (k / 4)) := by
  have other (ip : List Nat) : isPtp (etherHeader f).1 ip = false ∧ isFlowUdp (etherHeader f).1 ip = false ∧ excClass (etherHeader f).1 ip = 4 := by
    simp [excClass, isPtp, isFlowUdp, noPtp, noArp, noIp]
  obtain ⟨ptp, udp, cls⟩ := other (f.drop (etherHeader f).2.2)
  simp only [Chip.goodFrame, noPause, ptp, udp, cls, if_false, Bool.false_eq_true, Chip.unmatchedFrame, off]

/-- The UDP payload of a packet, as its UDP length gives it. -/
def udpOf (ip : List Nat) : List Nat := (ip.drop 20).take (beNat ((ip.drop 24).take 2))

/-- What a matched packet does before it goes to the consumers: it is counted, stamped and checked. -/
def Chip.takesPacket (c : Chip) (k e : Nat) (udp : List Nat) : Chip :=
  ((c.incWrap (Flowq.fPkts.nth e)).wr (Flowq.fLastNs.nth e) (Stc.ofTotal (c.stc.total - c.rdS (onLink Eth.rxLat k))).ns).crcPackets 0 e udp

/-- The place of flow entries' fields. -/
theorem Fld.flow_nth {f : Fld} (e : Fin 16384)
    (hf : (decide (f.page = flowqPage) && decide (f.off + 16384 * f.stride < 67108864) && decide (f.lo < 32)) = true) :
    (f.nth e).ok = true ∧ (f.nth e).page = flowqPage := by
  simp only [Bool.and_eq_true, decide_eq_true_eq] at hf
  obtain ⟨⟨page, off⟩, lo⟩ := hf
  have member : e.val * f.stride ≤ 16384 * f.stride := Nat.mul_le_mul_right _ e.isLt.le
  exact ⟨Fld.nth_ok (page ▸ by decide) lo (by omega), page⟩

theorem Chip.writesOn_takesPacket (c : Chip) (k : Nat) (e : Fin 16384) (udp : List Nat) :
    Chip.WritesOn [flowqPage, crcuPage] c (c.takesPacket k e udp) := by
  obtain ⟨pktsOk, pktsPage⟩ := Fld.flow_nth (f := Flowq.fPkts) e rfl
  obtain ⟨lastOk, lastPage⟩ := Fld.flow_nth (f := Flowq.fLastNs) e rfl
  have counted := (Chip.WritesOn.refl (ps := [flowqPage, crcuPage]) c).wr pktsOk (by rw [pktsPage]; decide) (c.rd (Flowq.fPkts.nth e) + 1)
  exact (counted.wr lastOk (by rw [lastPage]; decide) _).trans ((Chip.writesOn_crcPackets _ 0 e udp).mono (by decide))

theorem Chip.rd_fPkts_takesPacket (c : Chip) (k : Nat) (e : Fin 16384) (udp : List Nat) :
    (c.takesPacket k e udp).rd (Flowq.fPkts.nth e) = (c.rd (Flowq.fPkts.nth e) + 1) % 2 ^ 32 := by
  obtain ⟨ok, page⟩ := Fld.flow_nth (f := Flowq.fPkts) e rfl
  rw [Chip.takesPacket, (Chip.writesOn_crcPackets _ 0 e udp).rd _ ok (page ▸ by decide), Chip.rd_wr_ne, Chip.incWrap, Chip.rd_wr_self]
  · rfl
  · simp only [Fld.key, Fld.nth, placeKey, Flowq.fPkts, Flowq.fLastNs]
    omega

theorem Chip.rd_fUse_takesPacket (c : Chip) (k : Nat) (e : Fin 16384) (udp : List Nat) :
    (c.takesPacket k e udp).rd (Flowq.fUse.nth e).live = c.rd (Flowq.fUse.nth e).live := by
  obtain ⟨pktsOk, -⟩ := Fld.flow_nth (f := Flowq.fPkts) e rfl
  obtain ⟨lastOk, -⟩ := Fld.flow_nth (f := Flowq.fLastNs) e rfl
  obtain ⟨ok, page⟩ := Fld.flow_nth (f := Flowq.fUse.live) e rfl
  have window : Flowq.fUse.live.space ≠ 1 := by decide
  have crc := (Chip.writesOn_crcPackets ((c.incWrap (Flowq.fPkts.nth e)).wr (Flowq.fLastNs.nth e)
    (Stc.ofTotal (c.stc.total - c.rdS (onLink Eth.rxLat k))).ns) 0 e udp).rd _ ok (by rw [page]; decide)
  refine crc.trans ((Chip.rd_wr_other _ _ lastOk ok (.inl window)).trans (Chip.rd_wr_other _ _ pktsOk ok (.inl window)))

/-- A packet that entry `e` takes and that is not for the exception ring leaves to the entry's consumers (R295). -/
theorem Chip.goodFrame_matched {c : Chip} {k : Nat} {e : Fin 16384} {f : List Nat} (ip : (etherHeader f).1 = 0x0800)
    (untagged : (etherHeader f).2.2 = 14) (noPtp : isPtp 0x0800 (f.drop 14) = false) (flow : isFlowUdp 0x0800 (f.drop 14) = true)
    (matched : (c.listed Flowq.fEn.live).find? (fun e => c.flowMatches k e none (f.drop 14)) = some e.val)
    (kept : c.flowDiscards e (f.drop 14) (udpOf (f.drop 14)) = false) (consumed : c.rd (Flowq.fUse.nth e).live ≠ 4) :
    c.goodFrame k f = (c.takesPacket k e ((udpOf (f.drop 14)).drop 8)).emit
      (.flow e (Stc.ofTotal (c.stc.total - c.rdS (onLink Eth.rxLat k))) ((udpOf (f.drop 14)).drop 8)) := by
  have noTag : (etherHeader f).2.1 = none := by
    unfold etherHeader at untagged ⊢
    dsimp only at untagged ⊢
    split at untagged
    · exact absurd untagged (show ¬18 = 14 by decide)
    · next plain => rw [if_neg plain]
  have use : (c.takesPacket k e ((udpOf (f.drop 14)).drop 8)).rd (Flowq.fUse.nth e).live ≠ 4 := by
    rw [Chip.rd_fUse_takesPacket]
    exact consumed
  simp only [Chip.goodFrame, ip, untagged, noTag, noPtp, flow, matched, if_true]
  refine (if_neg (by decide)).trans ((if_neg (by decide)).trans ((if_neg ?_).trans (if_neg use)))
  rw [Bool.not_eq_true]
  exact kept

/-! ## The statement -/

/-- The checks of a frame leave what a packet is matched by. -/
theorem Chip.Gathers.flows {ps : List Nat} {c d : Chip} (h : Chip.Gathers ps c d) :
    d.listed = c.listed ∧ d.flowMatches = c.flowMatches ∧ d.flowDiscards = c.flowDiscards := by
  refine ⟨?_, ?_, ?_⟩
  · funext f
    rw [Chip.listed, h.flds, Chip.listed]
  · funext k e vid ip
    simp only [Chip.flowMatches, h.rd, h.on]
  · funext e ip udp
    simp only [Chip.flowDiscards, h.rd, h.on]

/-- Settles O29: the checks of a frame write its port's sticky word alone; a bad frame is then counted, a good one is counted as unmatched
or as a packet of the entry that takes it, to whose consumers it goes. -/
theorem frameReception : Obligations.FrameReception := by
  intro s k
  refine ⟨fun frame hs up dropped => ?_, fun body hs up short long noPause noPtp noArp noIp off => ?_,
    fun body e hs up short long ip untagged noPtp flow matched kept consumed => ?_⟩
  · have gathered := s.c.start.gathers_judgesFrame k (frameSyndrome (frame.map BitVec.toNat)) true
    refine gives_ethFrameReceive (bad := true) hs up rfl ?_
    rw [Chip.receivesFrame_bad (c := s.c.start) dropped]
    refine ⟨?_, ?_, gathered.confined (((Chip.Writes.refl _).stick ?_ 2).wr ?_ _)⟩
    · rw [Chip.rd_settle_link _ _ rfl, Chip.countsBad, Chip.inc, Chip.rd_wr_self, Chip.rd_stick, gathered.rd]
      exact Nat.mod_eq_of_lt (satInc_lt (Chip.rd_lt _ _))
    · rw [Chip.stickyWord_settle_port]
      exact (congrArg (bit · 2) (Chip.stick_self _ _ 2)).trans (bit_setBit_true _ 2)
    · simp
    · simp
  · have gathered := s.c.start.gathers_judgesFrame k 0 false
    refine gives_ethFrameReceive_good hs up short long ?_
    rw [Chip.goodFrame_unmatched noPause noPtp noArp noIp (by rw [gathered.rd]; exact off)]
    refine ⟨?_, ?_⟩
    · rw [Chip.rd_settle_port _ _ rfl, Chip.inc, Chip.rd_wr_self, gathered.rd]
      exact Nat.mod_eq_of_lt (satInc_lt (Chip.rd_lt _ _))
    · exact gathered.confined ((Chip.Writes.refl _).wr List.mem_cons_self _)
  · have gathered := s.c.start.gathers_judgesFrame k 0 false
    obtain ⟨listed, matches_, discards⟩ := gathered.flows
    refine gives_ethFrameReceive_good hs up short long ?_
    have payload : udpOf ((body.map BitVec.toNat).drop 14) = ((body.map BitVec.toNat).drop 34).take
        (beNat (((body.map BitVec.toNat).drop 38).take 2)) := by
      rw [udpOf, List.drop_drop, List.drop_drop]
    rw [Chip.goodFrame_matched ip untagged noPtp flow (by rw [listed, matches_]; exact matched)
      (by rw [discards, payload]; exact kept) (by rw [gathered.rd]; exact consumed), payload, gathered.stc, Chip.rdS, gathered.rd]
    refine ⟨?_, (Chip.drivesOn_settle _).mem (List.mem_append_right _ List.mem_cons_self), Chip.WritesOn.within ?_⟩
    · rw [Chip.rd_settle _ (Fld.flow_nth e rfl).1 rfl, Chip.rd_emit, Chip.rd_fPkts_takesPacket, gathered.rd]
      rfl
    · refine Chip.WritesOn.keep (.trans (gathered.writesOn.mono ?_) ((Chip.writesOn_takesPacket _ k e _).mono ?_)) rfl rfl
      · simp
      · simp

end Sys2Proof.Machine
end

section
/-! SUPPORT. Pauses and the CPU queues (O32). -/

namespace Sys2Proof.Machine

/-! ## The commands' own meanings -/

theorem exec_pauseEnd (k : Fin 32) (cls : Fin 9) (s : State) : exec (.pauseEnd k cls) s = execPauseEnd k cls s := rfl
theorem exec_pauseLimit (k : Fin 32) (cls : Fin 9) (s : State) : exec (.pauseLimit k cls) s = execPauseLimit k cls s := rfl
theorem exec_cpuFrameGo (m : Master) (n : Fin 8) (w : BitVec 32) (s : State) : exec (.cpuFrameGo m n w) s = execCpuFrameGo m n w s := rfl
theorem exec_cpuDescriptorAccept (n : Fin 8) (s : State) : exec (.cpuDescriptorAccept n) s = execCpuDescriptorAccept n s := rfl
theorem exec_cpuFrameSend (k : Fin 32) (s : State) : exec (.cpuFrameSend k) s = execCpuFrameSend k s := rfl

/-! ## Pauses (R308) -/

/-- To clear one bit leaves every other as it was. -/
theorem bit_setBit_false_ne (v : Nat) {i j : Nat} (h : j ≠ i) : bit (setBit v i false) j = bit v j := by
  unfold bit setBit
  split
  · rfl
  · next set =>
    have set : v.testBit i = true := by simpa using set
    rw [if_neg Bool.false_ne_true]
    have whole : v - 2 ^ i + 2 ^ i = v := Nat.sub_add_cancel (Nat.ge_two_pow_of_testBit set)
    have clear := bit_setBit_false v i
    simp only [bit, setBit, set] at clear
    conv_rhs => rw [← whole]
    exact (testBit_add_two_pow_of_ne (by simpa using clear) h).symm

/-- A class of a link on which nothing waits is released, and shows it. -/
def Chip.endsPause (c : Chip) (k cls : Nat) : Chip :=
  ((c.updLink k (fun x => { x with paused := setBit x.paused cls false, long := setBit x.long cls false })).showPause k).updLink k
    (fun x => { x with wait := [] })

theorem Chip.showPause_pkt (c : Chip) (k : Nat) : (c.showPause k).pkt = c.pkt := rfl

theorem Chip.serveWait_idle {c : Chip} {k : Nat} (idle : (c.ethLink k).wait = []) :
    c.serveWait k = c.updLink k (fun x => { x with wait := [] }) := by
  simp only [Chip.serveWait, idle, List.filter_nil, List.foldl_nil]

theorem Chip.setPause_ends {c : Chip} {k : Nat} (idle : (c.ethLink k).wait = []) (cls : Nat) : c.setPause k cls false = c.endsPause k cls := by
  have none : (((c.updLink k (fun x => { x with paused := setBit x.paused cls false, long := setBit x.long cls false })).showPause k).ethLink
      k).wait = [] := by
    rw [Chip.ethLink_congr (Chip.showPause_pkt _ _), Chip.ethLink_updLink_self]
    exact idle
  exact Chip.serveWait_idle none

theorem Chip.paused_endsPause (c : Chip) (k cls : Nat) : ((c.endsPause k cls).ethLink k).paused = setBit (c.ethLink k).paused cls false := by
  rw [Chip.endsPause, Chip.ethLink_updLink_self, Chip.ethLink_congr (Chip.showPause_pkt _ _), Chip.ethLink_updLink_self]

theorem Chip.writes_endsPause (c : Chip) (k cls : Nat) : Chip.Writes [onLink Eth.lPri k, Eth.paused.on (k / 4)] [] c (c.endsPause k cls) := by
  refine Chip.Writes.updLink ?_ _ _
  exact (((Chip.Writes.refl c).updLink k _).wr (by simp) _).wr (by simp) _

/-- A class that has been paused for too long. -/
def Chip.pausedLong (c : Chip) (k cls : Nat) : Chip :=
  ((c.updLink k (fun x => { x with long := setBit x.long cls true })).raise 0x2B (ethPage (k / 4)) k cls).stick (ethPage (k / 4)) 6

/-! ## CPU queues (R298) -/

/-- The descriptor that a write of `FLOWQ_CPU_CMD[n]` gives. -/
def Chip.cpuDesc (c : Chip) (n w : Nat) : CpuDesc :=
  ⟨c.rd (Flowq.cpuAddr.nth n), bits w 13 0, bits w 15 14, bit w 16, c.rd (Flowq.cpuTag.nth n)⟩

/-- The fields of `FLOWQ_CPU_CMD[n]`. -/
theorem wordFields_cpuCmd : ∀ n : Fin 8, wordFields flowqPage 0 (0x104 + 16 * n) =
    [Flowq.cpuLen.nth n, Flowq.cpuSub.nth n, Flowq.cpuTs.nth n, Flowq.cpuGo.nth n] := by decide

/-- The command word is written, with `GO` = 1. -/
def Chip.writesCpuCmd (c : Chip) (n w : Nat) : Chip :=
  (((c.wr (Flowq.cpuLen.nth n) (bits w 13 0)).wr (Flowq.cpuSub.nth n) (bits w 15 14)).wr (Flowq.cpuTs.nth n) (bits w 16 16)).wr
    (Flowq.cpuGo.nth n) 1

theorem Chip.putRw_cpuCmd (c : Chip) (n : Fin 8) (w : Nat) :
    (c.putRw flowqPage 0 (0x104 + 16 * n) w allBits).wr (Flowq.cpuGo.nth n) 1 = c.writesCpuCmd n w := by
  rw [Chip.putRw_allBits, wordFields_cpuCmd]
  rfl

theorem bits_mod (v hi lo : Nat) : bits v hi lo % 2 ^ (hi + 1 - lo) = bits v hi lo := Nat.mod_mod _ _

theorem Chip.rd_writesCpuCmd (c : Chip) (n w : Nat) : (c.writesCpuCmd n w).rd (Flowq.cpuLen.nth n) = bits w 13 0 ∧
    (c.writesCpuCmd n w).rd (Flowq.cpuSub.nth n) = bits w 15 14 ∧ (c.writesCpuCmd n w).rd (Flowq.cpuTs.nth n) = bits w 16 16 := by
  refine ⟨?_, ?_, ?_⟩
  · rw [Chip.writesCpuCmd, Chip.rd_wr_ne_lo _ _ rfl, Chip.rd_wr_ne_lo _ _ rfl, Chip.rd_wr_ne_lo _ _ rfl, Chip.rd_wr_self]
    exact bits_mod w 13 0
  · rw [Chip.writesCpuCmd, Chip.rd_wr_ne_lo _ _ rfl, Chip.rd_wr_ne_lo _ _ rfl, Chip.rd_wr_self]
    exact bits_mod w 15 14
  · rw [Chip.writesCpuCmd, Chip.rd_wr_ne_lo _ _ rfl, Chip.rd_wr_self]
    exact bits_mod w 16 16

/-- The other words of a CPU queue stand. -/
theorem Chip.rd_writesCpuCmd_ne (c : Chip) (n w : Nat) {f : Fld}
    (apart : (decide (f.lo = 0) && decide (f.stride = 16) && decide (f.key ≠ Flowq.cpuLen.key)) = true) :
    (c.writesCpuCmd n w).rd (f.nth n) = c.rd (f.nth n) := by
  simp only [Bool.and_eq_true, decide_eq_true_eq] at apart
  obtain ⟨⟨low, stride⟩, word⟩ := apart
  have length : (f.nth n).key ≠ (Flowq.cpuLen.nth n).key := by
    rw [Fld.key_nth, Fld.key_nth, stride]
    exact fun e => word (Nat.add_right_cancel e)
  have bit (g : Fld) (hg : (decide (g.lo < 32) && decide (g.lo ≠ 0)) = true) : (f.nth n).key ≠ (g.nth n).key := by
    refine Fld.key_ne_of_lo ?_
    simp only [Bool.and_eq_true, decide_eq_true_eq] at hg ⊢
    simp only [Fld.nth, low]
    omega
  rw [Chip.writesCpuCmd, Chip.rd_wr_ne _ _ (bit _ rfl), Chip.rd_wr_ne _ _ (bit _ rfl), Chip.rd_wr_ne _ _ (bit _ rfl), Chip.rd_wr_ne _ _ length]

/-- The command word, once it is written, is held as a descriptor. -/
def Chip.postsCpu (c : Chip) (n w : Nat) : Chip := (c.writesCpuCmd n w).updPort n (fun p => { p with held := some (c.cpuDesc n w) })

theorem Chip.cpuGo_posts {c : Chip} {n : Fin 8} (free : c.on (Flowq.cpuGo.nth n) = false) (w : Nat) :
    c.cpuGo n w = (c.postsCpu n w).cpuAccept n := by
  obtain ⟨len, sub, ts⟩ := c.rd_writesCpuCmd n w
  have flag : (c.writesCpuCmd n w).on (Flowq.cpuTs.nth n) = bit w 16 := by
    rw [Chip.on, ts, bit, Nat.testBit_eq_decide_div_mod_eq]
    rfl
  have addr : (c.writesCpuCmd n w).rd (Flowq.cpuAddr.nth n) = c.rd (Flowq.cpuAddr.nth n) := c.rd_writesCpuCmd_ne n w (by decide)
  have tag : (c.writesCpuCmd n w).rd (Flowq.cpuTag.nth n) = c.rd (Flowq.cpuTag.nth n) := c.rd_writesCpuCmd_ne n w (by decide)
  simp only [Chip.cpuGo, free, Bool.false_eq_true, if_false, Chip.putRw_cpuCmd, len, sub, flag, addr, tag]
  rfl

/-- A held descriptor takes a slot. -/
def Chip.takesSlot (c : Chip) (n : Nat) (d : CpuDesc) : Chip :=
  ((c.updPort n (fun p => { p with cpu := p.cpu ++ [d], held := none })).decr (Flowq.cpuFree.nth n)).wr (Flowq.cpuGo.nth n) 0

theorem Chip.cpuAccept_free {c : Chip} {n : Nat} {d : CpuDesc} (held : (c.ethPort n).held = some d)
    (free : c.rd (Flowq.cpuFree.nth n) ≠ 0) : c.cpuAccept n = c.takesSlot n d := by
  simp only [Chip.cpuAccept, held]
  exact if_neg free

theorem Chip.cpuAccept_full {c : Chip} {n : Nat} (full : c.rd (Flowq.cpuFree.nth n) = 0) : c.cpuAccept n = c := by
  unfold Chip.cpuAccept
  split
  · rfl
  · exact if_pos full

theorem Chip.rd_takesSlot (c : Chip) (n : Nat) (d : CpuDesc) :
    (c.takesSlot n d).rd (Flowq.cpuFree.nth n) = c.rd (Flowq.cpuFree.nth n) - 1 ∧ (c.takesSlot n d).rd (Flowq.cpuGo.nth n) = 0 := by
  have below := c.rd_lt (Flowq.cpuFree.nth n)
  refine ⟨?_, ?_⟩
  · rw [Chip.takesSlot, Chip.rd_wr_ne_lo _ _ rfl, Chip.decr, Chip.rd_wr_self, Chip.rd_updPort]
    exact Nat.mod_eq_of_lt (Nat.lt_of_le_of_lt (Nat.sub_le _ 1) below)
  · rw [Chip.takesSlot, Chip.rd_wr_self]
    exact Nat.zero_mod _

theorem Chip.ethPort_takesSlot (c : Chip) (n : Nat) (d : CpuDesc) :
    (c.takesSlot n d).ethPort n = { c.ethPort n with cpu := (c.ethPort n).cpu ++ [d], held := none } := c.ethPort_updPort_self n _

/-- The fields that a command word and the slot for it write. -/
def cpuCmdFields (n : Nat) : List Fld :=
  [Flowq.cpuGo.nth n, Flowq.cpuLen.nth n, Flowq.cpuSub.nth n, Flowq.cpuTs.nth n]

theorem Chip.writes_postsCpu (c : Chip) (n w : Nat) : Chip.Writes (cpuCmdFields n) [] c (c.postsCpu n w) := by
  refine Chip.Writes.updPort ?_ n _
  exact ((((Chip.Writes.refl c).wr (by simp [cpuCmdFields]) _).wr (by simp [cpuCmdFields]) _).wr (by simp [cpuCmdFields]) _).wr
    (by simp [cpuCmdFields]) 1

theorem Chip.Writes.takesSlot {gs : List Fld} {ps : List Nat} {a b : Chip} (h : Chip.Writes gs ps a b) {n : Nat}
    (hf : Flowq.cpuFree.nth n ∈ gs) (hg : Flowq.cpuGo.nth n ∈ gs) (d : CpuDesc) : Chip.Writes gs ps a (b.takesSlot n d) :=
  ((h.updPort n _).wr hf _).wr hg 0

/-! ## CPU frames (R305, R310) -/

/-- The frame of a CPU descriptor, read from working RAM and padded, without its FCS. -/
def cpuFrame (m : Mem) (d : CpuDesc) : List Nat :=
  (List.range d.len).map (fun i => Mem.byte m 0 ((d.addr + i) % 4194304)) ++ List.replicate (60 - d.len) 0

/-- Whether a word of a CPU frame is lost. -/
def Chip.cpuLost (c : Chip) (d : CpuDesc) : Bool :=
  (List.range ((d.len + 3) / 4)).any (fun i => c.isPoisoned 6 0 ((d.addr / 4 + i) % 1048576))

/-- The frame of a descriptor is read. -/
def Chip.readsCpu (c : Chip) (n : Nat) (d : CpuDesc) : Chip :=
  (c.updPort n (fun p => { p with cpu := p.cpu.erase d })).cleanRead 6 0 (d.addr / 4) []

/-- Its slot is free again. -/
def Chip.returnsSlot (c : Chip) (n : Nat) (d : CpuDesc) : Chip :=
  (c.readsCpu n d).wr (Flowq.cpuFree.nth n) ((c.readsCpu n d).rd (Flowq.cpuFree.nth n) + 1)

theorem Chip.gathers_readsCpu (c : Chip) (n : Nat) (d : CpuDesc) :
    Chip.Gathers [] (c.updPort n (fun p => { p with cpu := p.cpu.erase d })) (c.readsCpu n d) :=
  (Chip.Gathers.refl _).cleanRead (.inr (by decide)) 0 _ []

theorem Chip.cpu_returnsSlot (c : Chip) (n : Nat) (d : CpuDesc) : ((c.returnsSlot n d).ethPort n).cpu = (c.ethPort n).cpu.erase d := by
  have read : (c.returnsSlot n d).pkt = (c.updPort n (fun p => { p with cpu := p.cpu.erase d })).pkt := (c.gathers_readsCpu n d).pkt
  rw [Chip.ethPort_congr read, Chip.ethPort_updPort_self]

theorem Chip.rd_cpuFree_returnsSlot (c : Chip) (n : Nat) (d : CpuDesc) :
    (c.returnsSlot n d).rd (Flowq.cpuFree.nth n) = (c.rd (Flowq.cpuFree.nth n) + 1) % 32 := by
  rw [Chip.returnsSlot, Chip.rd_wr_self, (c.gathers_readsCpu n d).rd]
  rfl

theorem Chip.out_returnsSlot (c : Chip) (n : Nat) (d : CpuDesc) : (c.returnsSlot n d).out = c.out := (c.gathers_readsCpu n d).out

/-- A CPU frame that is taken from its queue changes the count of free slots alone, whatever then leaves. -/
theorem confined_returnsSlot {s : State} {n : Nat} {d : CpuDesc} {e : Chip} (flds : e.flds = (s.c.start.returnsSlot n d).flds)
    (sticky : e.sticky = (s.c.start.returnsSlot n d).sticky) : Confined [Flowq.cpuFree.nth n] [] s { s with c := e.settle } := by
  have read := s.c.start.gathers_readsCpu n d
  refine Confined.of_body (fun f _ _ hf => ?_) (fun p hr hp => ?_)
  · have same : e.rd f = (s.c.start.returnsSlot n d).rd f := by rw [Chip.rd, flds, Chip.rd]
    rw [same, Chip.returnsSlot, Chip.rd_wr_ne _ _ (hf _ List.mem_cons_self), read.rd]
    rfl
  · rw [Chip.stickyWord, sticky]
    exact read.sticky p hr hp

/-- The oldest CPU frame of a link that may send leaves its queue. -/
theorem gives_cpuFrameSend {s : State} {k : Fin 32} {d : CpuDesc} {e : Chip} {P : State → Prop} (hs : s.Runs)
    (oldest : (s.c.ethPort (k.val / 4)).cpu.find? (fun d => d.sub = k.val % 4) = some d) (up : s.c.linkUp k = true)
    (open_ : s.c.pausedFor k 0 = false) (sent : (if s.c.cpuLost d then s.c.start.returnsSlot (k.val / 4) d
      else if d.ts then ((s.c.start.returnsSlot (k.val / 4) d).emit (.ethFrame k (withFcs (cpuFrame s.mem d)))).txStamp (k.val / 4)
        (16376 + k.val / 4) d.sub d.tag
      else (s.c.start.returnsSlot (k.val / 4) d).emit (.ethFrame k (withFcs (cpuFrame s.mem d)))) = e)
    (hP : P { s with c := e.settle }) : Gives (.cpuFrameSend k) s P := by
  have found : (s.c.start.ethPort (k.val / 4)).cpu.find? (fun d => d.sub = k.val % 4) = some d := oldest
  have sends : ¬((!s.c.start.linkUp k) = true ∨ s.c.start.pausedFor k 0 = true) := by
    rw [show s.c.start.linkUp k = true from up, show s.c.start.pausedFor k 0 = false from open_]
    decide
  refine gives_of_body_mem hs (exec_cpuFrameSend k s) ?_ hP
  dsimp only
  rw [found]
  dsimp only
  rw [if_neg sends, ← sent]
  have padded : 60 - ((List.range d.len).map (fun i => Mem.byte s.mem 0 ((d.addr + i) % 4194304))).length = 60 - d.len := by
    rw [List.length_map, List.length_range]
  rw [padded]
  cases lost : s.c.cpuLost d with
  | true => exact if_pos lost
  | false =>
    refine (if_neg (ne_true_of_eq_false lost)).trans ?_
    rfl

end Sys2Proof.Machine
end

section
/-! SUPPORT. Memory jobs of the check-value channels, and the statement of pauses, CPU queues and memory jobs (O32). -/

namespace Sys2Proof.Machine

/-! ## The commands' own meanings -/

theorem exec_crcMemoryJob (m : Master) (w : BitVec 32) (s : State) : exec (.crcMemoryJob m w) s = execCrcMemoryJob m w s := rfl
theorem exec_crcMemoryJobDone (s : State) : exec .crcMemoryJobDone s = execCrcMemoryJobDone s := rfl

/-! ## A job begins (R315) -/

/-- The fields of `CRCU_MEM_CTRL`. -/
theorem wordFields_memCtrl : wordFields crcuPage 0 0x4C = [Crcu.rows, Crcu.channel, Crcu.region, Crcu.memGo] := by decide

/-- The fields of the control word are written. -/
def Chip.writesMemCtrl (c : Chip) (w : Nat) : Chip :=
  ((c.wr Crcu.rows (bits w 15 0)).wr Crcu.channel (bits w 21 16)).wr Crcu.region (bits w 23 22)

theorem Chip.putRw_memCtrl (c : Chip) (w : Nat) : c.putRw crcuPage 0 0x4C w allBits = c.writesMemCtrl w := by
  rw [Chip.putRw_allBits, wordFields_memCtrl]
  rfl

/-- The job that a write of the control word gives. -/
def Chip.memJob (c : Chip) (w : Nat) : MemJob :=
  ⟨c.rd Crcu.memBase, c.rd Crcu.rowLen, c.rd Crcu.stride, bits w 15 0, bits w 23 22, bits w 21 16⟩

theorem Chip.rd_writesMemCtrl (c : Chip) (w : Nat) : (c.writesMemCtrl w).rd Crcu.rows = bits w 15 0 ∧
    (c.writesMemCtrl w).rd Crcu.region = bits w 23 22 ∧ (c.writesMemCtrl w).rd Crcu.channel = bits w 21 16 := by
  simp (disch := decide) only [Chip.writesMemCtrl, Chip.rd_wr_ne, Chip.rd_wr_self]
  exact ⟨bits_mod w 15 0, bits_mod w 23 22, bits_mod w 21 16⟩

theorem Chip.rd_writesMemCtrl_ne (c : Chip) (w : Nat) {f : Fld} (rows : f.key ≠ Crcu.rows.key) (channel : f.key ≠ Crcu.channel.key)
    (region : f.key ≠ Crcu.region.key) : (c.writesMemCtrl w).rd f = c.rd f := by
  rw [Chip.writesMemCtrl, Chip.rd_wr_ne _ _ region, Chip.rd_wr_ne _ _ channel, Chip.rd_wr_ne _ _ rows]

/-- A job that fits its region begins. -/
def Chip.beginsJob (c : Chip) (w : Nat) : Chip :=
  (((c.writesMemCtrl w).wr Crcu.memGo 1).wr Crcu.memBusy 1).updPkt (fun x => { x with job := some (c.memJob w) })

theorem Chip.crcJob_begins {c : Chip} {w : Nat} (idle : c.on Crcu.memGo = false) (region : bits w 23 22 ≠ 3) (rows : bits w 15 0 ≠ 0)
    (fits : c.rd Crcu.memBase + 4 * ((bits w 15 0 - 1) * c.rd Crcu.stride + c.rd Crcu.rowLen) ≤ jobRegionSize (bits w 23 22))
    (source : c.rd (Crcu.cSrc.nth (bits w 21 16)) = 2) : c.crcJob w = c.beginsJob w := by
  obtain ⟨rows', region', channel⟩ := c.rd_writesMemCtrl w
  have base : (c.writesMemCtrl w).rd Crcu.memBase = c.rd Crcu.memBase := c.rd_writesMemCtrl_ne w (by decide) (by decide) (by decide)
  have rowLen : (c.writesMemCtrl w).rd Crcu.rowLen = c.rd Crcu.rowLen := c.rd_writesMemCtrl_ne w (by decide) (by decide) (by decide)
  have stride : (c.writesMemCtrl w).rd Crcu.stride = c.rd Crcu.stride := c.rd_writesMemCtrl_ne w (by decide) (by decide) (by decide)
  have src : (c.writesMemCtrl w).rd (Crcu.cSrc.nth (bits w 21 16)) = 2 :=
    (c.rd_writesMemCtrl_ne w (Fld.key_ne_of_lo rfl) (Fld.key_ne_of_lo rfl) (Fld.key_ne_of_lo rfl)).trans source
  simp only [Chip.crcJob, idle, Bool.false_eq_true, if_false, Chip.putRw_memCtrl, rows', region', channel, base, rowLen, stride, rows]
  refine if_neg ?_
  rintro (three | beyond | other)
  · exact region three
  · exact absurd fits (Nat.not_le.mpr beyond)
  · exact other src

theorem Chip.rd_beginsJob (c : Chip) (w : Nat) : (c.beginsJob w).rd Crcu.memGo = 1 ∧ (c.beginsJob w).rd Crcu.memBusy = 1 := by
  simp (disch := decide) only [Chip.beginsJob, Chip.rd_updPkt, Chip.rd_wr_ne, Chip.rd_wr_self]
  exact ⟨rfl, rfl⟩

theorem Chip.writes_beginsJob (c : Chip) (w : Nat) :
    Chip.Writes [Crcu.rows, Crcu.channel, Crcu.region, Crcu.memGo, Crcu.memBusy] [] c (c.beginsJob w) :=
  ((((((Chip.Writes.refl c).wr (by simp) _).wr (by simp) _).wr (by simp) _).wr (by simp) 1).wr (by simp) 1).updPkt _

/-! ## A job ends (R314, R315) -/

/-- The job is over, and its words have been read. -/
def Chip.readsJob (c : Chip) (j : MemJob) : Chip :=
  let c := ((c.wr Crcu.memGo 0).wr Crcu.memBusy 0).updPkt (fun x => { x with job := none })
  if j.region = 2 then c.cleanRead 7 schedPage (j.base / 4) [] else c.cleanRead j.region 0 (j.base / 4) []

theorem Chip.gathers_readsJob (c : Chip) (j : MemJob) :
    Chip.Gathers [hbmPage] (((c.wr Crcu.memGo 0).wr Crcu.memBusy 0).updPkt (fun x => { x with job := none })) (c.readsJob j) :=
  .ite (fun _ => (Chip.Gathers.refl _).cleanRead (.inl List.mem_cons_self) _ _ _)
    (fun _ => (Chip.Gathers.refl _).cleanRead (.inl List.mem_cons_self) _ _ _)

theorem Chip.writesOn_readsJob (c : Chip) (j : MemJob) : Chip.WritesOn [crcuPage, hbmPage] c (c.readsJob j) := by
  have ended := (((Chip.WritesOn.refl (ps := [crcuPage, hbmPage]) c).wr (f := Crcu.memGo) rfl (by decide) 0).wr (f := Crcu.memBusy) rfl
    (by decide) 0).keep (c := ((c.wr Crcu.memGo 0).wr Crcu.memBusy 0).updPkt (fun x => { x with job := none })) rfl rfl
  exact ended.trans ((c.gathers_readsJob j).writesOn.mono (by decide))

theorem Chip.rd_readsJob (c : Chip) (j : MemJob) : (c.readsJob j).rd Crcu.memGo = 0 ∧ (c.readsJob j).rd Crcu.memBusy = 0 := by
  simp (disch := decide) only [(c.gathers_readsJob j).rd, Chip.rd_updPkt, Chip.rd_wr_ne, Chip.rd_wr_self]
  exact ⟨rfl, rfl⟩

/-- The end of a job leaves the parameters of the channels. -/
theorem Chip.crcParams_readsJob (c : Chip) (j : MemJob) {h : Nat} (hh : h < 64) : (c.readsJob j).crcParams h = c.crcParams h := by
  have kept {f : Fld} (hf : (decide (f.page = crcuPage) && decide (f.space = 1) && decide (f.off + 64 * f.stride < 67108864) &&
      decide (f.lo < 32)) = true) : (c.readsJob j).rd (f.nth h) = c.rd (f.nth h) := by
    obtain ⟨ok, -, window⟩ := Fld.crc_nth 64 hh hf
    have body (g : Fld) (hg : g.space = 0) : (f.nth h).space ≠ g.space := by rw [window, hg]; decide
    rw [(c.gathers_readsJob j).rd, Chip.rd_updPkt, Chip.rd_wr_other _ _ rfl ok (.inl (body _ rfl)),
      Chip.rd_wr_other _ _ rfl ok (.inl (body _ rfl))]
  simp only [Chip.crcParams, Chip.on, kept (f := Crcu.cPreset) rfl, kept (f := Crcu.cWidth) rfl, kept (f := Crcu.cPoly) rfl,
    kept (f := Crcu.cInit) rfl, kept (f := Crcu.cRefin) rfl, kept (f := Crcu.cRefout) rfl, kept (f := Crcu.cXorout) rfl]

/-- The job's check value is a result of its channel, under the number of its bytes. -/
def Chip.endsJob (c : Chip) (j : MemJob) (bytes : List Nat) : Chip :=
  ((c.readsJob j).crcResult j.channel (bytes.length % 2 ^ 32) ((c.crcParams j.channel).over bytes)).stick crcuPage 2

theorem gives_crcMemoryJobDone {s : State} {j : MemJob} {P : State → Prop} (hs : s.Runs) (runs : s.c.pkt.job = some j)
    (channel : j.channel < 64) (whole : j.lost s.c = false)
    (hP : P { s with c := (s.c.start.endsJob j (jobBytes (s.c.imageMem s.mem) j)).settle }) : Gives .crcMemoryJobDone s P := by
  have kept : j.lost (s.c.start.readsJob j) = false := by
    have same : (s.c.start.readsJob j).poisoned = s.c.poisoned := (s.c.start.gathers_readsJob j).poisoned
    rw [MemJob.lost, same]
    exact whole
  refine gives_of_body_mem hs (exec_crcMemoryJobDone s) ?_ hP
  have found : s.c.start.pkt.job = some j := runs
  dsimp only
  rw [found]
  rw [Chip.endsJob, ← s.c.start.crcParams_readsJob j channel]
  unfold Chip.readsJob at kept ⊢
  simp only [kept, Chip.imageMem_start, Bool.false_eq_true, if_false]

theorem Chip.rd_endsJob (c : Chip) {j : MemJob} (channel : j.channel < 64) (bytes : List Nat) :
    (c.endsJob j bytes).rd Crcu.memGo = 0 ∧ (c.endsJob j bytes).rd Crcu.memBusy = 0 := by
  obtain ⟨go, busy⟩ := c.rd_readsJob j
  have result := (c.readsJob j).crcWrites_crcResult channel (bytes.length % 2 ^ 32) ((c.crcParams j.channel).over bytes)
  rw [Chip.endsJob, Chip.rd_stick, Chip.rd_stick, result.rd _ rfl (.inr rfl), result.rd _ rfl (.inr rfl)]
  exact ⟨go, busy⟩

theorem Chip.given_endsJob (c : Chip) {j : MemJob} (channel : j.channel < 64) (bytes : List Nat) :
    ((c.endsJob j bytes).chan j.channel).given =
      (bytes.length % 2 ^ 32, (c.crcParams j.channel).over bytes) :: (c.chan j.channel).given := by
  have read : (c.readsJob j).chan j.channel = c.chan j.channel := Chip.chan_congr (c.gathers_readsJob j).pkt _
  rw [Chip.endsJob, Chip.chan_congr (Chip.stick_pkt _ _ _), Chip.given_crcResult _ channel, read]

theorem Chip.job_endsJob (c : Chip) {j : MemJob} (channel : j.channel < 64) (bytes : List Nat) : (c.endsJob j bytes).pkt.job = none := by
  have ended : (c.readsJob j).pkt.job = none := congrArg PktX.job (c.gathers_readsJob j).pkt
  rw [Chip.endsJob, Chip.stick_pkt, ((c.readsJob j).crcWrites_crcResult channel _ _).job]
  exact ended

theorem Chip.writesOn_endsJob (c : Chip) {j : MemJob} (channel : j.channel < 64) (bytes : List Nat) :
    Chip.WritesOn [crcuPage, hbmPage] c (c.endsJob j bytes) :=
  ((c.writesOn_readsJob j).trans (((c.readsJob j).crcWrites_crcResult channel _ _).writesOn.mono (by decide))).stick (.inl (by decide)) 2

/-! ## The statement -/

/-- No reaction to a fault writes a register of a CPU queue. -/
theorem Chip.rd_settle_cpu (c : Chip) (n : Fin 8) {f : Fld}
    (hf : (decide (f.page = flowqPage) && decide (f.stride = 16) && decide (f.off < 0x200) && decide (f.lo < 32)) = true) :
    c.settle.rd (f.nth n) = c.rd (f.nth n) := by
  simp only [Bool.and_eq_true, decide_eq_true_eq] at hf
  obtain ⟨⟨⟨page, stride⟩, off⟩, lo⟩ := hf
  have fits : f.off + n.val * f.stride < 67108864 := by rw [stride]; omega
  exact c.rd_settle_flow (f := f.nth n) (by simp [Fld.nth, page, fits, lo])

theorem Chip.ethLink_pausedLong (c : Chip) (k cls : Nat) :
    (c.pausedLong k cls).ethLink k = { c.ethLink k with long := setBit (c.ethLink k).long cls true } := c.ethLink_updLink_self k _

/-- Settles O32: a pause that ends writes what the link shows of it, a CPU queue moves one descriptor at a time, and a memory job is its
beginning and the one result that ends it. -/
theorem pausesAndCpu : Obligations.PausesAndCpu := by
  intro s
  refine ⟨fun k cls hs idle => ?_, fun k cls hs limit paused reported => ?_, fun m n w allowed free slot => ?_,
    fun m n w allowed free full => ?_, fun n d hs held slot => ?_, fun k d hs oldest up open_ plain whole => ?_,
    fun k d hs oldest up open_ lost => ?_, fun m w allowed idle region rows fits source => ?_, fun j hs runs channel whole => ?_⟩
  · refine gives_of_body hs (exec_pauseEnd k cls s) (Chip.setPause_ends (c := s.c.start) idle cls)
      ⟨?_, fun j other => ?_, (s.c.start.writes_endsPause k cls).confined⟩
    · rw [Chip.ethLink_settle, Chip.paused_endsPause, bit_setBit_false]
    · rw [Chip.ethLink_settle, Chip.paused_endsPause, bit_setBit_false_ne _ (fun e => other (Fin.ext e))]
      rfl
  · have due : ¬(s.c.start.rd (Eth.maxPause.on (k.val / 4)) = 0 ∨ (!bit (s.c.start.ethLink k).paused cls) = true ∨
        bit (s.c.start.ethLink k).long cls = true) := by
      rw [show bit (s.c.start.ethLink k).paused cls = true from paused, show bit (s.c.start.ethLink k).long cls = false from reported]
      simpa using limit
    refine gives_of_body (d := s.c.start.pausedLong k cls) hs (exec_pauseLimit k cls s) (if_neg due)
      ⟨?_, ?_, ?_, ((((Chip.Writes.refl _).updLink k _).raise _ _ _ _).stick List.mem_cons_self 6).confined⟩
    · rw [Chip.ethLink_settle, Chip.ethLink_pausedLong]
      exact bit_setBit_true _ _
    · rw [Chip.ethLink_settle, Chip.ethLink_pausedLong]
      rfl
    · rw [Chip.stickyWord_settle_port]
      exact (congrArg (bit · 6) (Chip.stick_self _ _ 6)).trans (bit_setBit_true _ 6)
  · have posted := s.c.start.writes_postsCpu n w.toNat
    have held : ((s.c.start.postsCpu n w.toNat).ethPort n).held = some (s.c.cpuDesc n w.toNat) := by
      rw [Chip.postsCpu, Chip.ethPort_updPort_self]
      rfl
    have kept : (s.c.start.postsCpu n w.toNat).rd (Flowq.cpuFree.nth n) = s.c.rd (Flowq.cpuFree.nth n) :=
      s.c.start.rd_writesCpuCmd_ne n w.toNat (by decide)
    obtain ⟨free', go⟩ := (s.c.start.postsCpu n w.toNat).rd_takesSlot n (s.c.cpuDesc n w.toNat)
    refine gives_of_body allowed.1 (exec_cpuFrameGo m n w s) ((guarded_allows s m 0 flowqPage _ _ false _ allowed).trans
      ((Chip.cpuGo_posts (c := s.c.start) free _).trans (Chip.cpuAccept_free held (by rw [kept]; exact slot)))) ⟨?_, ?_, ?_, ?_⟩
    · rw [Chip.rd_settle_cpu _ n rfl, free', kept]
    · rw [Chip.rd_settle_cpu _ n rfl, go]
    · rw [Chip.ethPort_settle, Chip.ethPort_takesSlot, Chip.postsCpu, Chip.ethPort_updPort_self]
      rfl
    · exact ((posted.mono (by simp [cpuCmdFields])).takesSlot (by simp) (by simp) _).confined
  · have posted := s.c.start.writes_postsCpu n w.toNat
    have kept : (s.c.start.postsCpu n w.toNat).rd (Flowq.cpuFree.nth n) = 0 :=
      (s.c.start.rd_writesCpuCmd_ne n w.toNat (by decide)).trans full
    refine gives_of_body allowed.1 (exec_cpuFrameGo m n w s) ((guarded_allows s m 0 flowqPage _ _ false _ allowed).trans
      ((Chip.cpuGo_posts (c := s.c.start) free _).trans (Chip.cpuAccept_full kept))) ⟨?_, ?_, ?_, ?_, posted.confined⟩
    · rw [Chip.rd_settle_cpu _ n rfl, kept]
    · rw [Chip.rd_settle_cpu _ n rfl, Chip.postsCpu, Chip.rd_updPort, Chip.writesCpuCmd, Chip.rd_wr_self]
      rfl
    · rw [Chip.ethPort_settle, Chip.postsCpu, Chip.ethPort_updPort_self]
      rfl
    · rw [Chip.ethPort_settle, Chip.postsCpu, Chip.ethPort_updPort_self]
      rfl
  · obtain ⟨free, go⟩ := s.c.start.rd_takesSlot n d
    refine gives_of_body hs (exec_cpuDescriptorAccept n s) (Chip.cpuAccept_free (c := s.c.start) held slot)
      ⟨?_, ?_, ?_, ?_, ((Chip.Writes.refl _).takesSlot (by simp) (by simp) d).confined⟩
    · rw [Chip.ethPort_settle, Chip.ethPort_takesSlot]
    · rw [Chip.ethPort_settle, Chip.ethPort_takesSlot]
      rfl
    · rw [Chip.rd_settle_cpu _ n rfl, free]
      rfl
    · rw [Chip.rd_settle_cpu _ n rfl, go]
  · have sent : s.c.cpuLost d = false := whole
    refine gives_cpuFrameSend (e := (s.c.start.returnsSlot (k.val / 4) d).emit (.ethFrame k (withFcs (cpuFrame s.mem d)))) hs oldest up open_
      (by rw [sent, plain, if_neg (by decide), if_neg (by decide)])
      ⟨?_, ?_, (Chip.drivesOn_settle _).mem (List.mem_append_right _ List.mem_cons_self), confined_returnsSlot rfl rfl⟩
    · rw [Chip.ethPort_settle]
      exact Chip.cpu_returnsSlot _ _ d
    · rw [Chip.rd_settle_cpu _ ⟨_, port_lt k⟩ rfl, Chip.rd_emit, Chip.rd_cpuFree_returnsSlot]
      rfl
  · have lost' : s.c.cpuLost d = true := lost
    refine gives_cpuFrameSend hs oldest up open_ (by rw [lost', if_pos rfl]) ⟨?_, ?_, ?_, confined_returnsSlot rfl rfl⟩
    · rw [Chip.ethPort_settle]
      exact Chip.cpu_returnsSlot _ _ d
    · rw [Chip.rd_settle_cpu _ ⟨_, port_lt k⟩ rfl, Chip.rd_cpuFree_returnsSlot]
      rfl
    · obtain ⟨l, hl, ends⟩ := (s.c.start.returnsSlot (k.val / 4) d).drivesOn_settle
      rw [hl, Chip.out_returnsSlot]
      refine List.all_eq_true.mpr fun x hx => ?_
      have fromEnd := ends x hx
      cases x with
      | ethFrame => exact absurd fromEnd (by simp [Out.fromEnd])
      | _ => rfl
  · obtain ⟨go, busy⟩ := s.c.start.rd_beginsJob w.toNat
    refine gives_of_body allowed.1 (exec_crcMemoryJob m w s) ((guarded_allows s m 0 crcuPage _ _ true _ allowed).trans
      (Chip.crcJob_begins (c := s.c.start) idle region rows fits source)) ⟨?_, ?_, ?_, (s.c.start.writes_beginsJob w.toNat).confined⟩
    · rw [Chip.rd_settle_flow _ rfl, go]
    · rw [Chip.rd_settle_flow _ rfl, busy]
    · rw [(settled _).pkt]
      rfl
  · obtain ⟨go, busy⟩ := s.c.start.rd_endsJob channel (jobBytes (s.c.imageMem s.mem) j)
    refine gives_crcMemoryJobDone hs runs channel whole ⟨?_, ?_, ?_, ?_, ?_, (s.c.start.writesOn_endsJob channel _).within⟩
    · rw [(settled _).pkt, Chip.job_endsJob _ channel]
    · rw [Chip.rd_settle_flow _ rfl, go]
    · rw [Chip.rd_settle_flow _ rfl, busy]
    · rw [(settled _).stickyWord _ rfl]
      exact (congrArg (bit · 2) (Chip.stick_self _ _ 2)).trans (bit_setBit_true _ 2)
    · rw [Chip.chan_settle, Chip.given_endsJob _ channel]
      rfl

end Sys2Proof.Machine
end

section
/-! SUPPORT. The machine at reset, the queue of commands, and the interrupt line (O56, O58, O59). -/

namespace Sys2Proof.Machine

/-! ## The machine after reset -/

/-- Settles O56: nothing is stored, so every field reads its POR value, which fits its width. -/
theorem invariantAtReset : Obligations.InvariantAtReset :=
  ⟨rfl, rfl, rfl, fun _ _ fits => Nat.mod_eq_of_lt fits, fun _ => ⟨rfl, rfl⟩⟩

/-! ## The queue, and a reset that is held -/

/-- Whatever form a meaning has, it answers a next state with the queue as it was. -/
theorem ExecForm.answers {s : State} {b : Bool} {o : Host.Outcome State Fault Refusal} (h : ExecForm s b o) :
    ∃ t, o = .next t ∧ t.pending = s.pending := by
  cases h with
  | plain f => exact ⟨_, rfl, rfl⟩
  | writing f hf =>
    refine ⟨_, rfl, ?_⟩
    split <;> rfl
  | always f hf => exact ⟨_, rfl, rfl⟩

/-- What does not act in a reset leaves the machine as it was while one is asserted. -/
theorem ExecForm.held {s t : State} {b : Bool} {o : Host.Outcome State Fault Refusal} (h : ExecForm s b o) (waits : b = false)
    (asserted : s.c.power.asserted ≠ 0) (e : o = .next t) : t = { s with c := s.c.start } := by
  cases h with
  | plain f =>
    rw [act, if_neg asserted] at e
    injection e with e
    exact e.symm
  | writing f hf =>
    rw [actMem, if_neg asserted] at e
    injection e with e
    exact e.symm
  | always f hf => cases waits

/-- Settles O58: every meaning has one of the three forms, of which only the supplies' and the reset pins' act in a reset. -/
theorem queueAndHeldReset : Obligations.QueueAndHeldReset := by
  refine ⟨fun i s => (exec_form i s).answers, fun i s t e asserted por cold brown release recovery => ?_⟩
  have waits : actsInReset i = false := by
    cases i with
    | por => exact absurd rfl por
    | coldReset => exact absurd rfl cold
    | brownOut n => exact absurd rfl (brown n)
    | resetRelease a b c d => exact absurd rfl (release a b c d)
    | brownOutRecovery a b c d => exact absurd rfl (recovery a b c d)
    | _ => rfl
  exact (exec_form i s).held waits asserted e

/-! ## The interrupt line -/

theorem Chip.pins_sendVector (c : Chip) (v : Nat) : (c.sendVector v).pins = c.pins := by
  unfold Chip.sendVector
  split
  · rfl
  · split <;> rfl

theorem Chip.pins_interrupts (c : Chip) : c.interrupts.pins = { c.pins with irqLow := c.irqLevel } := by
  unfold Chip.interrupts
  dsimp only
  split
  · rfl
  · refine List.foldlRecOn (motive := fun d : Chip => d.pins = { c.pins with irqLow := c.irqLevel }) _ _ rfl fun d hd v _ => ?_
    split
    · exact (d.pins_sendVector v).trans hd
    · exact hd

theorem Store.get_of_not_listed {α : Type} (d : α) {m : Store α} {k : Nat} (h : k ∉ m.map Prod.fst) : Store.get d m k = d := by
  induction m with
  | nil => rfl
  | cons e r ih =>
    rw [List.map_cons, List.mem_cons, not_or] at h
    rw [Store.get, if_neg h.1]
    exact ih h.2

/-- A page that requests an interrupt has its sticky word listed. -/
theorem Chip.listed_of_requests {c : Chip} {p : Nat} (h : c.requests p = true) : p ∈ c.sticky.map Prod.fst := by
  refine Classical.byContradiction fun unlisted => ?_
  have word : c.stickyWord p = 0 := Store.get_of_not_listed 0 unlisted
  simp [Chip.requests, word] at h

theorem Chip.irqLevel_iff (c : Chip) : c.irqLevel = true ↔ ∃ p, c.rd (irqnFld p) = 1 ∧ c.requests p = true := by
  simp only [Chip.irqLevel, List.any_eq_true, Bool.and_eq_true, decide_eq_true_eq]
  exact ⟨fun ⟨p, _, req, low⟩ => ⟨p, low, req⟩, fun ⟨p, low, req⟩ => ⟨p, c.listed_of_requests req, req, low⟩⟩

theorem Chip.requests_congr {c d : Chip} (sticky : d.sticky = c.sticky) (irqEn : d.irqEn = c.irqEn) (p : Nat) :
    d.requests p = c.requests p := by
  rw [Chip.requests, Chip.stickyWord, Chip.irqEnWord, sticky, irqEn, Chip.requests, Chip.stickyWord, Chip.irqEnWord]

/-- At the end of the interrupt logic `IRQ_N` is low exactly where a page that is mapped to it requests an interrupt. -/
theorem Chip.irqLow_interrupts (c : Chip) :
    c.interrupts.pins.irqLow = true ↔ ∃ p, c.interrupts.rd (irqnFld p) = 1 ∧ c.interrupts.requests p = true := by
  have level : c.interrupts.pins.irqLow = c.irqLevel := by rw [c.pins_interrupts]
  have idle := idle_interrupts c
  have fields (f : Fld) : c.interrupts.rd f = c.rd f := by rw [Chip.rd, idle.flds, Chip.rd]
  simp only [level, c.irqLevel_iff, fields, Chip.requests_congr idle.sticky (settled_interrupts c).irqEn]

theorem ExecForm.irqLow {s t : State} {b : Bool} {o : Host.Outcome State Fault Refusal} (h : ExecForm s b o) (hs : s.Runs)
    (e : o = .next t) : t.c.pins.irqLow = true ↔ ∃ p, t.c.rd (irqnFld p) = 1 ∧ t.c.requests p = true := by
  have ends : ∃ c : Chip, t.c = c.interrupts := by
    cases h with
    | plain f =>
      rw [act_runs s f hs] at e
      injection e with e
      exact ⟨_, (congrArg State.c e).symm⟩
    | writing f hf =>
      rw [actMem_runs s f hs] at e
      injection e with e
      exact ⟨_, (congrArg State.c e).symm⟩
    | always f hf =>
      injection e with e
      exact ⟨_, (congrArg State.c e).symm⟩
  obtain ⟨c, hc⟩ := ends
  rw [hc]
  exact c.irqLow_interrupts

/-- The pages that drive `IRQ_N` at COLD. -/
theorem por_irqnFld (p : Nat) : (irqnFld p).por % 2 ^ (irqnFld p).w = 1 ↔ p = 0x3 ∨ p = 0x1 ∨ p = 0x128 := by
  show b2n (p = 0x1 || p = 0x3 || p = 0x128) % 2 = 1 ↔ _
  by_cases h : (p = 0x1 || p = 0x3 || p = 0x128) = true
  · rw [h]
    simp only [Bool.or_eq_true, decide_eq_true_eq] at h
    exact iff_of_true rfl (by omega)
  · rw [Bool.not_eq_true] at h
    rw [h]
    simp only [Bool.or_eq_false_iff, decide_eq_false_iff_not] at h
    exact iff_of_false (by decide) (by omega)

theorem lt_of_pageExists {p : Nat} (h : pageExists p = true) : p < 512 := by
  unfold pageExists at h
  simp only [Bool.or_eq_true, Bool.and_eq_true, decide_eq_true_eq] at h
  omega

/-- No COLD reset keeps an entry of the interrupt map. -/
theorem coldKept_irqnFld : ∀ p < 512, coldKept (irqnFld p).key = false := by decide +kernel

theorem Store.get_filter_out {α : Type} (d : α) {keep : Nat → Bool} {k : Nat} (h : keep k = false) (m : Store α) :
    Store.get d (m.filter fun e => keep e.1) k = d := by
  refine Store.get_of_not_listed d fun listed => ?_
  obtain ⟨e, he, rfl⟩ := List.mem_map.mp listed
  exact absurd (List.mem_filter.mp he).2 (by simp [h])

/-- What POR or COLD leaves of the machine, before the control word takes its target. -/
def Chip.coldState (c : Chip) (kind : Nat) : Chip :=
  let kept := fun (l : Store Nat) => l.filter (fun e => coldKept e.1)
  { otp := c.otp, free := c.free, straps := c.straps,
    fcu := if kind = 1 then {} else { regs := kept c.fcu.regs, first := c.fcu.first, aon := c.fcu.aon },
    flds := if kind = 1 then [] else kept c.flds,
    pwrReq := if kind = 1 then [] else c.pwrReq, latTol := if kind = 1 then [] else c.latTol,
    power := { asserted := kind, released := kind = 3 },
    reports := c.reports, out := c.out }

theorem Chip.coldReset_eq (c : Chip) (kind : Nat) : ∃ m, c.coldReset kind = { c.coldState kind with mer := m } := by
  have body : c.coldReset kind = if kind ≠ 1 ∧ (c.coldState kind).on MerHold.valid then
      (c.coldState kind).updMer (fun m => { m with target := (c.coldState kind).rdS MerHold.value }) else c.coldState kind := rfl
  rw [body]
  by_cases h : kind ≠ 1 ∧ (c.coldState kind).on MerHold.valid
  · rw [if_pos h]
    exact ⟨_, rfl⟩
  · rw [if_neg h]
    exact ⟨(c.coldState kind).mer, rfl⟩

theorem Chip.reports_coldReset (c : Chip) (kind : Nat) : (c.coldReset kind).reports = c.reports := by
  obtain ⟨m, h⟩ := c.coldReset_eq kind
  rw [h, Chip.coldState]

theorem Chip.flds_coldReset (c : Chip) (kind : Nat) :
    (c.coldReset kind).flds = if kind = 1 then [] else c.flds.filter fun e => coldKept e.1 := by
  obtain ⟨m, h⟩ := c.coldReset_eq kind
  rw [h, Chip.coldState]

theorem Chip.rd_irqnFld_coldReset (c : Chip) (kind : Nat) {p : Nat} (hp : pageExists p = true) :
    (c.coldReset kind).rd (irqnFld p) = 1 ↔ p = 0x3 ∨ p = 0x1 ∨ p = 0x128 := by
  have unlisted : Store.get (irqnFld p).por (c.coldReset kind).flds (irqnFld p).key = (irqnFld p).por := by
    rw [c.flds_coldReset]
    split
    · rfl
    · exact Store.get_filter_out _ (coldKept_irqnFld p (lt_of_pageExists hp)) _
  rw [Chip.rd, getFld, unlisted]
  exact por_irqnFld p

theorem exec_por (s : State) :
    exec .por s = .next { s with c := (s.c.start.coldReset 1).settle, mem := Mem.coldReset s.mem } := rfl

/-- What `RESET_N` does. -/
def Chip.coldPin (c : Chip) (m : Mem) : Chip × Mem :=
  if c.power.asserted = 1 ∨ c.power.asserted = 3 then (c, m)
  else ({ c.coldReset 2 with pins := { resetN := false } }, Mem.coldReset m)

theorem exec_coldReset (s : State) :
    exec .coldReset s = .next { s with c := (s.c.start.coldPin s.mem).1.settle, mem := (s.c.start.coldPin s.mem).2 } := rfl

/-- `RESET_N` while neither POR nor the hold after a brown-out stands. -/
theorem Chip.coldPin_free {c : Chip} (m : Mem) (h : c.power.asserted = 0 ∨ c.power.asserted = 2) :
    c.coldPin m = ({ c.coldReset 2 with pins := { resetN := false } }, Mem.coldReset m) := if_neg (by omega)

/-- Settles O59: the last act of every command sets `IRQ_N` by the pages' requests; POR and COLD keep no entry of the map. -/
theorem interruptLine : Obligations.InterruptLine := by
  refine ⟨fun i s t hs e => (exec_form i s).irqLow hs e, fun s t p hp e => ?_, fun s t p hp asserted e => ?_⟩
  · rw [exec_por] at e
    injection e with e
    subst e
    have quiet : (s.c.start.coldReset 1).reports = [] := Chip.reports_coldReset _ 1
    rw [Chip.rd_settle_idle _ quiet]
    exact Chip.rd_irqnFld_coldReset _ 1 hp
  · rw [exec_coldReset, Chip.coldPin_free (c := s.c.start) s.mem asserted] at e
    injection e with e
    subst e
    have quiet : (s.c.start.coldReset 2).reports = [] := Chip.reports_coldReset _ 2
    rw [Chip.rd_settle_idle { s.c.start.coldReset 2 with pins := { resetN := false } } quiet]
    exact Chip.rd_irqnFld_coldReset _ 2 hp

end Sys2Proof.Machine
end

section
/-! SUPPORT. States in which O35, O40, O46 and O52 fail. The statements speak of every `State`, and `State` is plain data: no hypothesis of
theirs restricts the number of the synchroniser that an input carries, of which a device has 256, the severity of a source, or the items
whose epoch has come and that wait for their boundary. -/

namespace Sys2Proof.Machine

theorem exec_generatorFrameStart (r : Fin 8) (phase : BitVec 32) (s : State) :
    exec (.generatorFrameStart r phase) s = execGeneratorFrameStart r phase s := rfl
theorem exec_twinSwitchover (target : BitVec 16) (a0 : BitVec 32) (s : State) :
    exec (.twinSwitchover target a0) s = execTwinSwitchover target a0 s := rfl
theorem exec_blockReset (m : Master) (p : BitVec 16) (s : State) : exec (.blockReset m p) s = execBlockReset m p s := rfl

/-- The verdict that input 0 is timed, due at the first frame start of its generator. -/
def timedVerdict : MirrorItem :=
  { epoch := 0, seq := 0, space := 3, page := 0, off := 1, data := 0, be := 0, bidx := 1, master := 0, payload := [0, 0] }

/-- Input 0 is in format 0, of generator 4, and carries the synchroniser number 2^27, whose state has the key of a field of composer 0; the verdict that
it is timed is due. -/
def verdictBeyond : State :=
  { State.reset with c := (((State.reset.c.wr beyondSyncs 3).wr (Vin.mfmt.nth 0) 0).updInput 0 (fun x =>
      { x with sync := some (2 ^ 27) })).updTwin (fun t => { t with due := [timedVerdict] }) }

/-- Refutes O35: a verdict that takes effect at a generator's frame start releases the input's synchroniser; where its number is beyond
the 256 that there are, which the statement does not exclude, that writes a field of composer 0, whose page is none of those named. -/
theorem not_outputTiming : ¬Obligations.OutputTiming := by
  intro h
  obtain ⟨frameStart, -⟩ := h verdictBeyond
  have given := frameStart 4 0 (by decide)
  obtain ⟨-, -, within⟩ := holds_of_gives given (by decide) (exec_generatorFrameStart 4 0 verdictBeyond)
  have kept := within.regs beyondSyncs (by decide) (by decide) (by decide)
  rw [Chip.rd_settle _ (by decide) (by decide)] at kept
  exact absurd kept (by decide +kernel)

/-- An active device of a pair on which the failure of a mailbox command, source `0xF2`, is CRITICAL. -/
def criticalRefusal : State :=
  { State.reset with
    c := { (State.reset.c.fwr (Fsev.lsev 0xF2) 4).wr Twin.state 3 with straps := { State.reset.c.straps with scale := true } } }

/-- Refutes O40: a switch-over of a target other than 0 is refused and reported, and where software has made that source CRITICAL the
reaction makes the active device due to yield (R390, R409). -/
theorem not_switchOver : ¬Obligations.SwitchOver := by
  intro h
  obtain ⟨-, otherTarget, -⟩ := h criticalRefusal
  have given := otherTarget 1 0 (by decide) (by decide) (by decide)
  obtain ⟨-, -, -, due, -⟩ := holds_of_gives given (by decide) (exec_twinSwitchover 1 0 criticalRefusal)
  exact absurd due (by decide +kernel)

/-- The key of this field of composer 1 is that of the state of synchroniser 9 * 2^24. -/
def farBeyondSyncs : Fld := { Fsync.state with page := cmpPage 1 }

/-- Input 0 carries the synchroniser number 9 * 2^24, and the field of composer 1 at that place holds 3. -/
def inputFarBeyond : State :=
  { State.reset with c := (State.reset.c.wr farBeyondSyncs 3).updInput 0 (fun x => { x with sync := some (9 * 2 ^ 24) }) }

/-- Refutes O52: a BLOCK reset of video ingest releases the synchronisers of its inputs; a number beyond the 256 that there are, which the
statement does not exclude, makes it write a field of composer 1, whose page is none of those named. -/
theorem not_warmAndBlock : ¬Obligations.WarmAndBlock := by
  intro h
  obtain ⟨-, -, -, -, blockResets, -⟩ := h inputFarBeyond
  have given := blockResets .hk 0x60 (by decide) (by decide) (by decide) (by decide) (by decide)
  obtain ⟨-, -, -, -, -, within⟩ := holds_of_gives given (by decide) (exec_blockReset .hk 0x60 inputFarBeyond)
  have kept := within.regs farBeyondSyncs (by decide) (by decide) (by decide)
  rw [Chip.rd_settle _ (by decide) (by decide)] at kept
  exact absurd kept (by decide +kernel)

theorem exec_tableSpaceAccess (m : Master) (off : BitVec 29) (data : Option (List (BitVec 32 × BitVec 4))) (n : BitVec 7)
    (syn again : BitVec 32) (s : State) :
    exec (.tableSpaceAccess m off data n syn again) s = execTableSpaceAccess m off data n syn again s := rfl

/-- A mirrored write of 5 to the first word of the image buffer, whose epoch has come, waits for its boundary. -/
def imageWordDue : State :=
  { State.reset with c := State.reset.c.updTwin (fun t => { t with due :=
      [{ epoch := 0, seq := 0, space := 2, page := 0, off := 0x02000000, data := 5, be := 15, bidx := 0, master := 0 }] }) }

/-- Refutes O46: a read of table space returns the newest accepted write to its word (R380), one whose epoch has come among them; the
statement excludes those that wait for their epoch alone, so the word read need not be the one that stands in memory. -/
theorem not_fabricAccesses : ¬Obligations.FabricAccesses := by
  intro h
  obtain ⟨-, -, -, -, -, -, -, -, imageRead, -⟩ := h imageWordDue .hk
  have given := imageRead 0x02000000 (by decide) (by decide) (by decide) (by decide) (by decide) (by decide) (by decide) (by decide)
    (by decide) (by decide) (by decide)
  obtain ⟨word, -⟩ := holds_of_gives_mem given (by decide) (exec_tableSpaceAccess .hk 0x02000000 none 1 0 0 imageWordDue)
  exact absurd word (by decide +kernel)

end Sys2Proof.Machine
end

section
/-! SUPPORT. What the end of a command leaves standing, by the classes of the faults that the command reports (R404 to R416): beside
`Settled`, which holds whatever is reported, a field that no reaction to those classes writes reads as before, no sticky bit and no stop
of ALIVE is lost, and the collector keeps what is not of its records. -/

namespace Sys2Proof.Machine

/-- The fields that the collector writes of its own (R407, R412 to R416). -/
def collectorFields : List Fld :=
  [Fcu.logRptr, Fcu.logOvw, Fcu.logWptr, Fcu.seq, Fcu.ffValid, Fcu.unackInj, Fcu.unackReal, Fcu.stop, Fcu.aliveRun] ++
    (List.range 16).map Fcu.worstOf

/-- What CFAB and MGMT show of the transactions in flight (R457, R459). -/
def flightFields : List Fld :=
  [Cfab.outstanding, Cfab.full, Mgmt.mspiBusy] ++
    (List.range 6).flatMap fun m => [Cfab.outCount.nth m, Cfab.outIds.nth m, Cfab.outPeak.nth m]

/-- What the loop's entry to `HOLDOVER` writes (R342). -/
def holdoverFields : List Fld := [MerLoop.state, MerSel.sel, MerHold.age, MerSel.manual, MerSel.fallback, MerSel.qlOut]

/-- The fields that the containment of a class writes (R410). -/
def containedBy (cls : Nat) : List Fld :=
  match cls with
  | 10 => holdoverFields
  | 13 => flightFields
  | 14 => [Sched.vset]
  | 15 => [Cmd.locked]
  | _ => []

/-- Between two machines lies no more than the collection of faults of the classes `cs`. -/
structure Chip.Reacts (cs : List Nat) (c d : Chip) : Prop where
  rd : ∀ f : Fld, (∀ k ∈ cs, ∀ g ∈ containedBy k, f.key ≠ g.key) → d.rd f = c.rd f
  sticky : ∀ p b, bit (c.stickyWord p) b = true → bit (d.stickyWord p) b = true
  frd : ∀ f : Fld, (∀ g ∈ collectorFields, f.key ≠ g.key) → d.frd f = c.frd f
  stop : ∀ i, bit (c.frd Fcu.stop) i = true → bit (d.frd Fcu.stop) i = true
  frozen : c.frd Fcu.aliveRun = 0 → d.frd Fcu.aliveRun = 0
  recorded : (c.fcu.first.isSome = true → d.fcu.first = c.fcu.first) ∧ (c.frd Fcu.ffValid = 1 → d.frd Fcu.ffValid = 1)
  unacked : ∀ i, bit (c.frd Fcu.unackReal) i = true → bit (d.frd Fcu.unackReal) i = true
  arm : d.fcu.arm = c.fcu.arm
  attempts : d.fcu.attempts = c.fcu.attempts
  beat : d.fcu.beaten = c.fcu.beaten ∧ d.fcu.hbStop = c.fcu.hbStop ∧ d.fcu.grace = c.fcu.grace
  straps : d.straps = c.straps
  yieldDue : c.yieldDue ≠ 0 ∨ ¬(c.straps.scale = true ∧ c.rd Twin.state = 3) → d.yieldDue = c.yieldDue
  mer : 10 ∉ cs → d.mer = c.mer
  inFlight : 13 ∉ cs → d.inFlight = c.inFlight
  reports : ∀ r ∈ d.reports, r ∈ c.reports ∨ r.src / 16 ∈ cs

theorem reacts_of_contained {g : Fld} {k : Nat} (h : g ∈ containedBy k) : g.ok = true ∧ reacts g.page = true := by
  have all : ∀ l ∈ [holdoverFields, flightFields, [Sched.vset], [Cmd.locked]], ∀ g ∈ l, g.ok = true ∧ reacts g.page = true := by decide
  unfold containedBy at h
  split at h
  · exact all _ (by simp) g h
  · exact all _ (by simp) g h
  · exact all _ (by simp) g h
  · exact all _ (by simp) g h
  · cases h

/-- A field of a page that no reaction writes keeps apart from those that a containment writes. -/
theorem key_ne_contained {f g : Fld} {k : Nat} (hf : f.ok = true) (hp : reacts f.page = false) (h : g ∈ containedBy k) :
    f.key ≠ g.key := by
  obtain ⟨ok, react⟩ := reacts_of_contained h
  exact Fld.key_ne hf ok (.inr (.inl fun e => by rw [e, react] at hp; exact absurd hp (by decide)))

section
variable {cs : List Nat} {a b c : Chip}

theorem Chip.Reacts.refl (c : Chip) : Chip.Reacts cs c c where
  rd _ _ := rfl
  sticky _ _ h := h
  frd _ _ := rfl
  stop _ h := h
  frozen h := h
  recorded := ⟨fun _ => rfl, id⟩
  unacked _ h := h
  arm := rfl
  attempts := rfl
  beat := ⟨rfl, rfl, rfl⟩
  straps := rfl
  yieldDue _ := rfl
  mer _ := rfl
  inFlight _ := rfl
  reports _ := .inl

/-- No reaction moves the pair. -/
theorem Chip.Reacts.pairState (h : Chip.Reacts cs a b) : b.rd Twin.state = a.rd Twin.state :=
  h.rd _ fun _ _ _ m => key_ne_contained rfl rfl m

theorem Chip.Reacts.trans (h : Chip.Reacts cs a b) (k : Chip.Reacts cs b c) : Chip.Reacts cs a c where
  rd f hf := (k.rd f hf).trans (h.rd f hf)
  sticky p i hb := k.sticky p i (h.sticky p i hb)
  frd f hf := (k.frd f hf).trans (h.frd f hf)
  stop i hi := k.stop i (h.stop i hi)
  frozen z := k.frozen (h.frozen z)
  recorded := ⟨fun some => by
      have first := h.recorded.1 some
      exact (k.recorded.1 (by rw [first]; exact some)).trans first,
    fun valid => k.recorded.2 (h.recorded.2 valid)⟩
  unacked i hi := k.unacked i (h.unacked i hi)
  arm := k.arm.trans h.arm
  attempts := k.attempts.trans h.attempts
  beat := ⟨k.beat.1.trans h.beat.1, k.beat.2.1.trans h.beat.2.1, k.beat.2.2.trans h.beat.2.2⟩
  straps := k.straps.trans h.straps
  yieldDue hy := by
    have same := h.yieldDue hy
    exact (k.yieldDue (by rw [same, h.straps, h.pairState]; exact hy)).trans same
  mer hm := (k.mer hm).trans (h.mer hm)
  inFlight hm := (k.inFlight hm).trans (h.inFlight hm)
  reports r hr := (k.reports r hr).elim (h.reports r) .inr

theorem Chip.Reacts.ite {p : Prop} [Decidable p] (h : p → Chip.Reacts cs a b) (k : ¬p → Chip.Reacts cs a c) :
    Chip.Reacts cs a (if p then b else c) := by
  split
  · exact h ‹_›
  · exact k ‹_›

theorem Chip.Reacts.foldl {β : Type} {step : Chip → β → Chip} {l : List β} (hstep : ∀ x ∈ l, ∀ d, Chip.Reacts cs d (step d x)) (c : Chip) :
    Chip.Reacts cs c (l.foldl step c) :=
  List.foldlRecOn (motive := Chip.Reacts cs c) l step (.refl c) fun d hd x hx => hd.trans (hstep x hx d)

end

/-! ## The collector's own steps -/

section
variable {cs : List Nat}

theorem Chip.reacts_stick (c : Chip) (p b : Nat) : Chip.Reacts cs c (c.stick p b) :=
  { Chip.Reacts.refl c with
    sticky := fun q i h => by
      by_cases hq : q = p
      · subst hq
        rw [Chip.stick_self]
        exact bit_setBit_of_bit h b
      · rw [Chip.stick_other _ _ _ hq]
        exact h }

/-- A record of the collector changes; a first-fault record that stands is frozen (R414). -/
theorem Chip.reacts_fcu (c : Chip) {u : Fcu} (regs : u.regs = c.fcu.regs) (first : c.fcu.first.isSome = true → u.first = c.fcu.first) (arm : u.arm = c.fcu.arm) (attempts : u.attempts = c.fcu.attempts)
    (beat : u.beaten = c.fcu.beaten ∧ u.hbStop = c.fcu.hbStop ∧ u.grace = c.fcu.grace) : Chip.Reacts cs c { c with fcu := u } :=
  have frd (f : Fld) : Chip.frd { c with fcu := u } f = c.frd f := by rw [Chip.frd, Chip.frd, regs]
  { Chip.Reacts.refl c with
    frd := fun f _ => frd f
    stop := fun i h => (frd Fcu.stop).symm ▸ h
    frozen := fun h => (frd Fcu.aliveRun).trans h
    recorded := ⟨first, fun h => (frd Fcu.ffValid).trans h⟩
    unacked := fun i h => (frd Fcu.unackReal).symm ▸ h
    arm := arm
    attempts := attempts
    beat := beat }

/-- The fields of the collector whose bits stand once they are set, or that stand at 0. -/
def standingFields : List Fld := [Fcu.stop, Fcu.aliveRun, Fcu.ffValid, Fcu.unackReal]

theorem Chip.reacts_fwr (c : Chip) {f : Fld} (hf : f ∈ collectorFields) (apart : ∀ g ∈ standingFields, g.key ≠ f.key) (v : Nat) :
    Chip.Reacts cs c (c.fwr f v) :=
  have kept {g : Fld} (hg : g ∈ standingFields) : (c.fwr f v).frd g = c.frd g := c.frd_fwr_ne v (apart g hg)
  { Chip.Reacts.refl c with
    frd := fun g hg => c.frd_fwr_ne v (hg f hf)
    stop := fun i h => by rw [kept (by decide)]; exact h
    frozen := fun h => (kept (by decide)).trans h
    recorded := ⟨fun _ => rfl, fun h => (kept (by decide)).trans h⟩
    unacked := fun i h => by rw [kept (by decide)]; exact h }

/-- The record is valid once an entry stands (R414). -/
theorem Chip.reacts_ffValid (c : Chip) : Chip.Reacts cs c (c.fwr Fcu.ffValid 1) :=
  { Chip.Reacts.refl c with
    frd := fun g hg => c.frd_fwr_ne 1 (hg Fcu.ffValid (by decide))
    stop := fun i h => by rw [c.frd_fwr_ne 1 (by decide)]; exact h
    frozen := fun h => (c.frd_fwr_ne 1 (by decide)).trans h
    recorded := ⟨fun _ => rfl, fun _ => c.frd_fwr_self _ 1⟩
    unacked := fun i h => by rw [c.frd_fwr_ne 1 (by decide)]; exact h }

/-- A bit of a field of 16 bits, below 16, once it is set. -/
theorem bit_setBit_mod {v i w : Nat} (h : i < w) (k : Nat) (hv : i = k ∨ bit v i = true) : bit (setBit v k true % 2 ^ w) i = true := by
  rw [bit, Nat.testBit_mod_two_pow]
  refine Bool.and_eq_true_iff.mpr ⟨decide_eq_true h, ?_⟩
  rcases hv with rfl | hv
  · exact bit_setBit_true v i
  · exact bit_setBit_of_bit hv k

theorem lt_of_bit_mod {v w i : Nat} (h : bit (v % 2 ^ w) i = true) : i < w := by
  rw [bit, Nat.testBit_mod_two_pow] at h
  exact of_decide_eq_true (Bool.and_eq_true_iff.mp h).1

/-- A class holds one more unacknowledged entry. -/
theorem Chip.reacts_unackReal (c : Chip) (k : Nat) : Chip.Reacts cs c (c.fwr Fcu.unackReal (setBit (c.frd Fcu.unackReal) k true)) :=
  { Chip.Reacts.refl c with
    frd := fun g hg => c.frd_fwr_ne _ (hg Fcu.unackReal (by decide))
    stop := fun i h => by rw [c.frd_fwr_ne _ (by decide)]; exact h
    frozen := fun h => (c.frd_fwr_ne _ (by decide)).trans h
    recorded := ⟨fun _ => rfl, fun h => (c.frd_fwr_ne _ (by decide)).trans h⟩
    unacked := fun i h => by
      rw [Chip.frd_fwr_self]
      exact bit_setBit_mod (lt_of_bit_mod (w := 16) h) k (.inr h) }

theorem Chip.reacts_reports (c : Chip) {rs : List Report} (h : ∀ r ∈ rs, r ∈ c.reports ∨ r.src / 16 ∈ cs) :
    Chip.Reacts cs c { c with reports := rs } := { Chip.Reacts.refl c with reports := h }

theorem Chip.reacts_logEntry (c : Chip) (e : LogEntry) : Chip.Reacts cs c (c.logEntry e) := by
  have room : Chip.Reacts cs c (if c.fcu.unread = 256 then
      ((c.fwr Fcu.logRptr (c.frd Fcu.logRptr + 1)).fwr Fcu.logOvw (satInc 32 (c.frd Fcu.logOvw))).stick fcuPage 4
      else { c with fcu := { c.fcu with unread := c.fcu.unread + 1 } }) :=
    .ite (fun _ => ((c.reacts_fwr (by decide) (by decide) _).trans
        (Chip.reacts_fwr _ (by decide) (by decide) _)).trans (Chip.reacts_stick _ _ _))
      (fun _ => c.reacts_fcu rfl (fun _ => rfl) rfl rfl ⟨rfl, rfl, rfl⟩)
  unfold Chip.logEntry
  refine .trans (.trans (.trans (room.trans ?_) (Chip.reacts_fwr _ (f := Fcu.logWptr) (by decide) (by decide) _))
    (Chip.reacts_fwr _ (f := Fcu.seq) (by decide) (by decide) _)) (Chip.reacts_ffValid _)
  refine Chip.reacts_fcu _ rfl (fun some => ?_) rfl rfl ⟨rfl, rfl, rfl⟩
  obtain ⟨first, stands⟩ := Option.isSome_iff_exists.mp some
  rw [stands]
  rfl

/-- A class beyond the sixteen has its nibble where another has. -/
theorem worstOf_mod (cls : Nat) : ∃ k < 16, Fcu.worstOf cls = Fcu.worstOf k := by
  by_cases h : cls < 8
  · exact ⟨cls, by omega, rfl⟩
  · refine ⟨8 + cls % 8, by omega, ?_⟩
    have other : ¬8 + cls % 8 < 8 := by omega
    simp [Fcu.worstOf, h]

theorem worstOf_mem (cls : Nat) : Fcu.worstOf cls ∈ collectorFields := by
  obtain ⟨k, hk, e⟩ := worstOf_mod cls
  rw [e]
  exact List.mem_append_right _ (List.mem_map_of_mem (List.mem_range.mpr hk))

theorem standing_key_ne_worstOf (cls : Nat) : ∀ g ∈ standingFields, g.key ≠ (Fcu.worstOf cls).key := by
  obtain ⟨k, hk, e⟩ := worstOf_mod cls
  rw [e]
  exact (by decide : ∀ k < 16, ∀ g ∈ standingFields, g.key ≠ (Fcu.worstOf k).key) k hk

theorem Chip.reacts_markUnack (c : Chip) (e : LogEntry) : Chip.Reacts cs c (c.markUnack e) := by
  have marked : Chip.Reacts cs c (if (e.inj && !e.real) = true then c.fwr Fcu.unackInj (setBit (c.frd Fcu.unackInj) (e.src / 16) true)
      else c.fwr Fcu.unackReal (setBit (c.frd Fcu.unackReal) (e.src / 16) true)) :=
    .ite (fun _ => c.reacts_fwr (by decide) (by decide) _) (fun _ => c.reacts_unackReal _)
  unfold Chip.markUnack
  refine .trans ?_ (Chip.reacts_fwr _ (worstOf_mem _) (standing_key_ne_worstOf _) _)
  exact .ite (fun _ => marked.trans (Chip.reacts_fcu _ rfl (fun _ => rfl) rfl rfl ⟨rfl, rfl, rfl⟩)) (fun _ => marked)

theorem Chip.reacts_stopAlive (c : Chip) (cause : Nat) : Chip.Reacts cs c (c.stopAlive cause) := by
  have halted : Chip.Reacts cs c (((c.fwr Fcu.stop (setBit (c.frd Fcu.stop) cause true)).stick fcuPage 5).fwr Fcu.aliveRun 0) :=
    { Chip.reacts_stick c fcuPage 5 with
      frd := fun f hf => (Chip.frd_fwr_ne _ _ (hf Fcu.aliveRun (by decide))).trans (c.frd_fwr_ne _ (hf Fcu.stop (by decide)))
      stop := fun i h => by
        rw [Chip.frd_fwr_ne _ _ (by decide)]
        show bit ((c.fwr Fcu.stop _).frd Fcu.stop) i = true
        rw [Chip.frd_fwr_self]
        exact bit_setBit_mod (lt_of_bit_mod (w := 3) h) cause (.inr h)
      frozen := fun _ => Chip.frd_fwr_self _ _ _
      recorded := ⟨fun _ => rfl, fun h => (Chip.frd_fwr_ne _ _ (by decide)).trans ((c.frd_fwr_ne _ (by decide)).trans h)⟩
      unacked := fun i h => by
        rw [Chip.frd_fwr_ne _ _ (by decide)]
        show bit ((c.fwr Fcu.stop _).frd Fcu.unackReal) i = true
        rw [Chip.frd_fwr_ne _ _ (by decide)]
        exact h }
  unfold Chip.stopAlive
  exact .ite (fun _ => halted.trans (Chip.reacts_fcu _ rfl (fun _ => rfl) rfl rfl ⟨rfl, rfl, rfl⟩)) (fun _ => halted)

/-! ## Containment -/

/-- A containment's write of one of its fields. -/
theorem Chip.reacts_wr (c : Chip) {k : Nat} (hk : k ∈ cs) {f : Fld} (hf : f ∈ containedBy k) (v : Nat) : Chip.Reacts cs c (c.wr f v) :=
  { Chip.Reacts.refl c with
    rd := fun g hg => c.rd_wr_ne v (hg k hk f hf)
    yieldDue := fun _ => rfl }

theorem Chip.reacts_loopToHoldover (c : Chip) (h : 10 ∈ cs) : Chip.Reacts cs c c.loopToHoldover := by
  have member (f : Fld) (hf : f ∈ holdoverFields) (d : Chip) (v : Nat) : Chip.Reacts cs d (d.wr f v) := d.reacts_wr h hf v
  have left : Chip.Reacts cs c (((((c.wr MerLoop.state 4).wr MerSel.sel 15).wr MerHold.age 0).wr MerSel.manual 0).wr MerSel.fallback 0) :=
    ((((member _ (by decide) c 4).trans (member _ (by decide) _ 15)).trans (member _ (by decide) _ 0)).trans
      (member _ (by decide) _ 0)).trans (member _ (by decide) _ 0)
  have taken (d : Chip) (m : Mer) : Chip.Reacts cs d { d with mer := m } := { Chip.Reacts.refl d with mer := fun out => absurd h out }
  have raised (d : Chip) (inst : Nat) : Chip.Reacts cs d (d.raise 0xA5 merLoopPage inst 0) :=
    d.reacts_reports fun r hr => (List.mem_append.mp hr).imp_right fun m => by
      obtain rfl := List.mem_singleton.mp m
      simpa using h
  unfold Chip.loopToHoldover
  exact ((((left.trans (taken _ _)).trans (member MerSel.qlOut (by decide) _ _)).trans (raised _ _)).trans (Chip.reacts_stick _ _ _)).trans
    (Chip.reacts_stick _ _ _)

theorem Chip.reacts_setFlight (c : Chip) (l : List (Nat × Nat)) (h : 13 ∈ cs) : Chip.Reacts cs c (c.setFlight l) := by
  have member (f : Fld) (hf : f ∈ flightFields) (d : Chip) (v : Nat) : Chip.Reacts cs d (d.wr f v) := d.reacts_wr h hf v
  have shown (m : Nat) (hm : m < 6) (d : Chip) : Chip.Reacts cs d (d.showFlightOf m) := by
    have own : ∀ m < 6, ∀ f ∈ [Cfab.outCount.nth m, Cfab.outIds.nth m, Cfab.outPeak.nth m], f ∈ flightFields := by decide
    unfold Chip.showFlightOf
    exact ((member _ (own m hm _ (by simp)) _ _).trans (member _ (own m hm _ (by simp)) _ _)).trans
      (member _ (own m hm _ (by simp)) _ _)
  have moved : Chip.Reacts cs c { c with inFlight := l } := { Chip.Reacts.refl c with inFlight := fun out => absurd h out }
  unfold Chip.setFlight
  refine .trans (.trans (.trans (.trans (.trans (.trans ?_ (shown 0 (by decide) _)) (shown 1 (by decide) _)) (shown 2 (by decide) _))
    (shown 3 (by decide) _)) (shown 4 (by decide) _)) (shown 5 (by decide) _)
  exact ((moved.trans (member _ (by decide) _ _)).trans (member _ (by decide) _ _)).trans (member _ (by decide) _ _)

theorem Chip.reacts_setVolt (c : Chip) (v : Nat) (h : 14 ∈ cs) : Chip.Reacts cs c (c.setVolt v) := by
  have set : Chip.Reacts cs c (c.wr Sched.vset v) := c.reacts_wr h List.mem_cons_self v
  have busy (d : Chip) (x : SchX) (o : List Out) : Chip.Reacts cs d { d with sch := x, out := o } := { Chip.Reacts.refl d with }
  unfold Chip.setVolt
  exact .ite (fun _ => .refl c) (fun _ => .ite (fun _ => set.trans (busy _ _ _)) (fun _ => set.trans (busy _ _ _)))

theorem Chip.reacts_contain (c : Chip) {r : Report} (h : r.src / 16 ∈ cs) : Chip.Reacts cs c (c.contain r) := by
  unfold Chip.contain
  split
  case h_1 e => exact .ite (fun _ => c.reacts_loopToHoldover (e ▸ h)) (fun _ => .refl c)
  case h_2 e => exact { Chip.Reacts.refl c with }
  case h_3 e => exact { Chip.Reacts.refl c with }
  case h_4 e =>
    have ended (d : Chip) (x : List Served) (y : List (Nat × Nat)) : Chip.Reacts cs d { d with served := x, silent := y } :=
      { Chip.Reacts.refl d with }
    exact .ite (fun _ => (ended c _ _).trans (Chip.reacts_setFlight _ _ (e ▸ h))) (fun _ => .refl c)
  case h_5 e => exact .ite (fun _ => c.reacts_setVolt _ (e ▸ h)) (fun _ => .refl c)
  case h_6 e => exact c.reacts_wr (e ▸ h) List.mem_cons_self 1
  case h_7 => exact .refl c

/-! ## Collection as a whole -/

theorem Chip.reacts_react (c : Chip) (esev : Nat) {r : Report} (h : r.src / 16 ∈ cs) : Chip.Reacts cs c (c.react esev r) := by
  have shown : Chip.Reacts cs c (if 2 ≤ esev then c.stick fcuPage (esev - 1) else c) :=
    .ite (fun _ => c.reacts_stick _ _) (fun _ => .refl c)
  unfold Chip.react
  dsimp only
  generalize (if 2 ≤ esev then c.stick fcuPage (esev - 1) else c) = d at shown ⊢
  have contained : Chip.Reacts cs c (if 3 ≤ esev then d.contain r else d) :=
    .ite (fun _ => shown.trans (d.reacts_contain h)) (fun _ => shown)
  generalize (if 3 ≤ esev then d.contain r else d) = d at contained ⊢
  have held : Chip.Reacts cs c (if 3 ≤ esev ∧ !d.masked r then d.startHolds r else d) :=
    .ite (fun _ => contained.trans (d.reacts_fcu rfl (fun _ => rfl) rfl rfl ⟨rfl, rfl, rfl⟩)) (fun _ => contained)
  generalize (if 3 ≤ esev ∧ !d.masked r then d.startHolds r else d) = d at held ⊢
  refine .ite (fun _ => ?_) (fun _ => held)
  refine held.trans ((d.reacts_stopAlive 0).trans (.ite (fun due => ?_) (fun _ => .refl _)))
  exact { Chip.Reacts.refl _ with
    yieldDue := fun hy => absurd hy (not_or.mpr ⟨not_not.mpr due.1, not_not.mpr due.2⟩) }

theorem Chip.reacts_collect (c : Chip) {p : Nat × Report} (h : p.2.src / 16 ∈ cs) : Chip.Reacts cs c (c.collect p) := by
  have seen : Chip.Reacts cs c (if p.2.src = 0x18 then { c with twin := { c.twin with eyeAt := some c.stc } } else c) :=
    .ite (fun _ => { Chip.Reacts.refl c with }) (fun _ => .refl c)
  unfold Chip.collect
  dsimp only
  generalize (if p.2.src = 0x18 then { c with twin := { c.twin with eyeAt := some c.stc } } else c) = d at seen ⊢
  refine .ite (fun _ => seen) (fun _ => ?_)
  exact seen.trans (((d.reacts_logEntry _).trans (Chip.reacts_markUnack _ _)).trans (Chip.reacts_react _ _ h))

theorem Chip.reacts_collectAll (c : Chip) (h : ∀ r ∈ c.reports, r.src / 16 ∈ cs) :
    Chip.Reacts cs { c with reports := [] } c.collectAll :=
  .foldl (fun p hp d => d.reacts_collect (h p.2 (Chip.mem_reports_of_ranked hp))) _

theorem Chip.reacts_interrupts (c : Chip) : Chip.Reacts cs c c.interrupts := by
  have sent (d : Chip) (v : Nat) : Chip.Reacts cs d (d.sendVector v) := by
    unfold Chip.sendVector
    exact .ite (fun _ => .refl d) (fun _ => .ite (fun _ => { Chip.Reacts.refl d with }) (fun _ => { Chip.Reacts.refl d with }))
  unfold Chip.interrupts
  dsimp only
  have shown : Chip.Reacts cs c { c with cond := c.vectorConds, pins := { c.pins with irqLow := c.irqLevel } } :=
    { Chip.Reacts.refl c with }
  exact .ite (fun _ => shown)
    (fun _ => shown.trans (.foldl (fun v _ d => .ite (fun _ => sent d v) (fun _ => .refl d)) _))

/-- What the end of a command that reports the classes `cs` alone leaves standing. -/
theorem Chip.reacts_settle (c : Chip) (h : ∀ r ∈ c.reports, r.src / 16 ∈ cs) : Chip.Reacts cs c c.settle := by
  have begun : Chip.Reacts cs c { c with reports := [] } := c.reacts_reports (by simp)
  have first := c.reacts_collectAll h
  have second := c.collectAll.reacts_collectAll fun r hr => (first.reports r hr).resolve_left (by simp)
  have collected : Chip.Reacts cs c c.collectTwice := by
    unfold Chip.collectTwice
    refine .ite (fun _ => begun.trans first) (fun _ => (begun.trans first).trans (.trans ?_ second))
    exact Chip.reacts_reports _ (by simp)
  unfold Chip.settle
  exact .trans (.ite (fun _ => .refl c) (fun _ => collected)) (Chip.reacts_interrupts _)

end

/-! ## Uses -/

/-- No sticky bit is lost at the end of a command. -/
theorem Chip.bit_stickyWord_settle {c : Chip} {p b : Nat} (h : bit (c.stickyWord p) b = true) : bit (c.settle.stickyWord p) b = true :=
  (c.reacts_settle (cs := c.reports.map fun r => r.src / 16) fun r hr => List.mem_map_of_mem hr).sticky p b h

/-- A field of the collector's pages that is none of its records reads at the end of a command as before it. -/
theorem Chip.frd_settle (c : Chip) {f : Fld} (hf : ∀ g ∈ collectorFields, f.key ≠ g.key) : c.settle.frd f = c.frd f :=
  (c.reacts_settle (cs := c.reports.map fun r => r.src / 16) fun r hr => List.mem_map_of_mem hr).frd f hf

/-! ## The log ring (R413, R414) -/

/-- Between two machines the log ring and its write pointer stand. -/
structure Chip.KeepsLog (c d : Chip) : Prop where
  log : d.fcu.log = c.fcu.log
  wptr : d.frd Fcu.logWptr = c.frd Fcu.logWptr

section
variable {a b c : Chip}

theorem Chip.KeepsLog.of_fcu (h : b.fcu = a.fcu) : Chip.KeepsLog a b := ⟨by rw [h], by rw [Chip.frd, h, Chip.frd]⟩

theorem Chip.KeepsLog.trans (h : Chip.KeepsLog a b) (k : Chip.KeepsLog b c) : Chip.KeepsLog a c :=
  ⟨k.log.trans h.log, k.wptr.trans h.wptr⟩

theorem Chip.KeepsLog.ite {p : Prop} [Decidable p] (h : p → Chip.KeepsLog a b) (k : ¬p → Chip.KeepsLog a c) :
    Chip.KeepsLog a (if p then b else c) := by
  split
  · exact h ‹_›
  · exact k ‹_›

theorem Chip.KeepsLog.fwr (h : Chip.KeepsLog a b) {f : Fld} (apart : Fcu.logWptr.key ≠ f.key) (v : Nat) : Chip.KeepsLog a (b.fwr f v) :=
  ⟨h.log, (b.frd_fwr_ne v apart).trans h.wptr⟩

theorem Chip.KeepsLog.keep (h : Chip.KeepsLog a b) (log : c.fcu.log = b.fcu.log) (regs : c.fcu.regs = b.fcu.regs) : Chip.KeepsLog a c :=
  h.trans ⟨log, by rw [Chip.frd, regs, Chip.frd]⟩

end

theorem Chip.fcu_setFlight (c : Chip) (l : List (Nat × Nat)) : (c.setFlight l).fcu = c.fcu ∧ (c.setFlight l).reports = c.reports := by
  simp [Chip.setFlight, Chip.showFlightOf]

theorem Chip.fcu_setVolt (c : Chip) (v : Nat) : (c.setVolt v).fcu = c.fcu ∧ (c.setVolt v).reports = c.reports := by
  unfold Chip.setVolt
  dsimp only
  split
  · exact ⟨rfl, rfl⟩
  · split <;> exact ⟨rfl, rfl⟩

theorem Chip.fcu_loopToHoldover (c : Chip) : c.loopToHoldover.fcu = c.fcu ∧
    c.loopToHoldover.reports = c.reports ++ [⟨0xA5, merLoopPage, c.rd MerSel.sel, 0, true, false, true, [], false⟩] := ⟨rfl, rfl⟩

/-- Containment leaves the collector, and reports at most holdover entered. -/
theorem Chip.fcu_contain (c : Chip) (r : Report) : (c.contain r).fcu = c.fcu ∧
    ((c.contain r).reports = c.reports ∨ ∃ q, (c.contain r).reports = c.reports ++ [q]) := by
  have kept {d : Chip} (h : d.fcu = c.fcu ∧ d.reports = c.reports) :
      d.fcu = c.fcu ∧ (d.reports = c.reports ∨ ∃ q, d.reports = c.reports ++ [q]) := ⟨h.1, .inl h.2⟩
  unfold Chip.contain
  split
  · split
    · exact ⟨c.fcu_loopToHoldover.1, .inr ⟨_, c.fcu_loopToHoldover.2⟩⟩
    · exact kept ⟨rfl, rfl⟩
  · exact kept ⟨rfl, rfl⟩
  · exact kept ⟨rfl, rfl⟩
  · split
    · exact kept (Chip.fcu_setFlight _ _)
    · exact kept ⟨rfl, rfl⟩
  · split
    · exact kept (c.fcu_setVolt _)
    · exact kept ⟨rfl, rfl⟩
  · exact kept ⟨rfl, rfl⟩
  · exact kept ⟨rfl, rfl⟩

theorem logWptr_key_ne_worstOf (cls : Nat) : Fcu.logWptr.key ≠ (Fcu.worstOf cls).key := by
  obtain ⟨k, hk, e⟩ := worstOf_mod cls
  rw [e]
  exact (by decide : ∀ k < 16, Fcu.logWptr.key ≠ (Fcu.worstOf k).key) k hk

theorem Chip.keepsLog_markUnack (c : Chip) (e : LogEntry) : Chip.KeepsLog c (c.markUnack e) := by
  have same : Chip.KeepsLog c c := .of_fcu rfl
  have marked : Chip.KeepsLog c (if (e.inj && !e.real) = true then c.fwr Fcu.unackInj (setBit (c.frd Fcu.unackInj) (e.src / 16) true)
      else c.fwr Fcu.unackReal (setBit (c.frd Fcu.unackReal) (e.src / 16) true)) :=
    .ite (fun _ => same.fwr (by decide) _) (fun _ => same.fwr (by decide) _)
  unfold Chip.markUnack
  refine .fwr ?_ (logWptr_key_ne_worstOf _) _
  exact .ite (fun _ => marked.keep rfl rfl) (fun _ => marked)

theorem Chip.keepsLog_react (c : Chip) (esev : Nat) (r : Report) : Chip.KeepsLog c (c.react esev r) := by
  have shown : Chip.KeepsLog c (if 2 ≤ esev then c.stick fcuPage (esev - 1) else c) := .ite (fun _ => .of_fcu rfl) (fun _ => .of_fcu rfl)
  unfold Chip.react
  dsimp only
  generalize (if 2 ≤ esev then c.stick fcuPage (esev - 1) else c) = d at shown ⊢
  have contained : Chip.KeepsLog c (if 3 ≤ esev then d.contain r else d) :=
    .ite (fun _ => shown.trans (.of_fcu (d.fcu_contain r).1)) (fun _ => shown)
  generalize (if 3 ≤ esev then d.contain r else d) = d at contained ⊢
  have held : Chip.KeepsLog c (if 3 ≤ esev ∧ !d.masked r then d.startHolds r else d) :=
    .ite (fun _ => contained.keep rfl rfl) (fun _ => contained)
  generalize (if 3 ≤ esev ∧ !d.masked r then d.startHolds r else d) = d at held ⊢
  have stopped : Chip.KeepsLog c (d.stopAlive 0) := by
    have halted := (held.fwr (f := Fcu.stop) (by decide) (setBit (d.frd Fcu.stop) 0 true)).fwr (f := Fcu.aliveRun) (by decide) 0
    unfold Chip.stopAlive
    exact .ite (fun _ => halted.keep rfl rfl) (fun _ => halted.keep rfl rfl)
  exact .ite (fun _ => .ite (fun _ => stopped.keep rfl rfl) (fun _ => stopped)) (fun _ => held)

/-- A fault that is not OFF is logged at the write pointer, which moves on; one that is OFF leaves the log (R407, R414). -/
theorem Chip.log_collect (c : Chip) (esev : Nat) (r : Report) :
    if esev = 0 then Chip.KeepsLog c (c.collect (esev, r))
    else (c.collect (esev, r)).fcu.log = Store.set {} c.fcu.log (c.frd Fcu.logWptr) (c.entryOf esev r) ∧
      (c.collect (esev, r)).frd Fcu.logWptr = (c.frd Fcu.logWptr + 1) % 256 := by
  have seen : ∃ x, (if r.src = 0x18 then { c with twin := { c.twin with eyeAt := some c.stc } } else c) = { c with twin := x } := by
    split <;> exact ⟨_, rfl⟩
  obtain ⟨x, hx⟩ := seen
  unfold Chip.collect
  simp only [hx]
  by_cases off : esev = 0
  · simp only [off, if_true]
    exact .of_fcu rfl
  · simp only [off, if_false]
    have reacted := (Chip.keepsLog_markUnack (Chip.logEntry { c with twin := x } (c.entryOf esev r)) (c.entryOf esev r)).trans
      (Chip.keepsLog_react _ esev r)
    have logged (d : Chip) (e : LogEntry) : (d.logEntry e).fcu.log = Store.set {} d.fcu.log (d.frd Fcu.logWptr) e ∧
        (d.logEntry e).frd Fcu.logWptr = (d.frd Fcu.logWptr + 1) % 256 := by
      refine ⟨?_, ?_⟩
      · unfold Chip.logEntry
        dsimp only
        split <;> rfl
      · unfold Chip.logEntry
        rw [Chip.frd_fwr_ne _ _ (by decide), Chip.frd_fwr_ne _ _ (by decide), Chip.frd_fwr_self]
        rfl
    exact ⟨reacted.log.trans (logged { c with twin := x } _).1, reacted.wptr.trans (logged { c with twin := x } _).2⟩

theorem Chip.reports_react (c : Chip) (esev : Nat) (r : Report) :
    (c.react esev r).reports = c.reports ∨ ∃ q, (c.react esev r).reports = c.reports ++ [q] := by
  have shown : (if 2 ≤ esev then c.stick fcuPage (esev - 1) else c).reports = c.reports := by split <;> rfl
  unfold Chip.react
  dsimp only
  generalize (if 2 ≤ esev then c.stick fcuPage (esev - 1) else c) = d at shown ⊢
  have contained : (if 3 ≤ esev then d.contain r else d).reports = c.reports ∨
      ∃ q, (if 3 ≤ esev then d.contain r else d).reports = c.reports ++ [q] := by
    rw [← shown]
    split
    · exact (d.fcu_contain r).2
    · exact .inl rfl
  generalize (if 3 ≤ esev then d.contain r else d) = d at contained ⊢
  have held : (if 3 ≤ esev ∧ !d.masked r then d.startHolds r else d).reports = d.reports := by split <;> rfl
  rw [← held] at contained
  generalize (if 3 ≤ esev ∧ !d.masked r then d.startHolds r else d) = d at contained ⊢
  have stopped : (d.stopAlive 0).reports = d.reports := by
    unfold Chip.stopAlive
    dsimp only
    split <;> rfl
  rw [← stopped] at contained
  split
  · split <;> exact contained
  · rw [stopped] at contained
    exact contained

/-- Collection of one fault leaves at most one report more, that of holdover entered. -/
theorem Chip.reports_collect (c : Chip) (p : Nat × Report) :
    (c.collect p).reports = c.reports ∨ ∃ q, (c.collect p).reports = c.reports ++ [q] := by
  have logged (d : Chip) (e : LogEntry) : (d.logEntry e).reports = d.reports := by
    unfold Chip.logEntry
    dsimp only [Chip.fwr_reports]
    split <;> rfl
  have marked (d : Chip) (e : LogEntry) : (d.markUnack e).reports = d.reports := by
    unfold Chip.markUnack
    dsimp only [Chip.fwr_reports]
    split <;> split <;> rfl
  have seen : (if p.2.src = 0x18 then { c with twin := { c.twin with eyeAt := some c.stc } } else c).reports = c.reports := by
    split <;> rfl
  unfold Chip.collect
  dsimp only
  generalize (if p.2.src = 0x18 then { c with twin := { c.twin with eyeAt := some c.stc } } else c) = d at seen ⊢
  rw [← seen]
  split
  · exact .inl rfl
  · have reacted := Chip.reports_react ((d.logEntry (d.entryOf p.1 p.2)).markUnack (d.entryOf p.1 p.2)) p.1 p.2
    rw [marked, logged] at reacted
    exact reacted

/-- A command that reports one fault alone logs it at the write pointer, unless it is OFF (R407, R414). -/
theorem Chip.log_settle (c : Chip) {r : Report} (alone : c.reports = [r]) (logged : c.effSev r ≠ 0) :
    Store.get {} c.settle.fcu.log (c.frd Fcu.logWptr) = c.entryOf (c.effSev r) r := by
  have ranked (d : Chip) (q : Report) (h : d.reports = [q]) : d.collectAll = Chip.collect { d with reports := [] } (d.effSev q, q) := by
    have one : d.ranked = [(d.effSev q, q)] := by simp [Chip.ranked, h, insertReport]
    rw [Chip.collectAll, one]
    rfl
  have first := Chip.log_collect { c with reports := [] } (c.effSev r) r
  rw [if_neg logged, ← ranked c r alone] at first
  obtain ⟨log, wptr⟩ := first
  have entry : Store.get {} c.collectAll.fcu.log (c.frd Fcu.logWptr) = c.entryOf (c.effSev r) r := by
    rw [log]
    exact Store.get_set_self _ _ _ _
  have collected : Store.get {} c.collectTwice.fcu.log (c.frd Fcu.logWptr) = c.entryOf (c.effSev r) r := by
    unfold Chip.collectTwice
    split
    · exact entry
    next more =>
      have one : ∃ q, c.collectAll.reports = [q] := by
        rw [ranked c r alone] at more ⊢
        rcases Chip.reports_collect { c with reports := [] } (c.effSev r, r) with none | some
        · exact absurd (by rw [none]; rfl) more
        · exact some
      obtain ⟨q, hq⟩ := one
      rw [ranked _ q hq]
      have second := Chip.log_collect { c.collectAll with reports := [] } (c.collectAll.effSev q) q
      split at second
      · rw [second.log]
        exact entry
      · rw [second.1]
        refine (Store.get_set_ne _ _ _ ?_).trans entry
        have moved : Chip.frd { c.collectAll with reports := [] } Fcu.logWptr = (c.frd Fcu.logWptr + 1) % 256 := wptr
        rw [moved]
        have small : c.frd Fcu.logWptr < 256 := Nat.mod_lt _ (by decide)
        omega
  have settles : c.settle = c.collectTwice.interrupts := by rw [Chip.settle, alone]; rfl
  rw [settles, (idle_interrupts _).fcu]
  exact collected

/-- A command that reports one fault alone: what follows the entry and its mark is a reaction to the fault's class. -/
theorem Chip.reacts_logged (c : Chip) {r : Report} (alone : c.reports = [r]) (logged : c.effSev r ≠ 0) :
    ∃ x, Chip.Reacts [r.src / 16] ((Chip.logEntry { c with reports := [], twin := x } (c.entryOf (c.effSev r) r)).markUnack
      (c.entryOf (c.effSev r) r)) c.settle := by
  have seen : ∃ x, (if r.src = 0x18 then { { c with reports := [] } with twin := { c.twin with eyeAt := some c.stc } }
      else { c with reports := [] }) = { c with reports := [], twin := x } := by
    split <;> exact ⟨_, rfl⟩
  obtain ⟨x, hx⟩ := seen
  have one : c.ranked = [(c.effSev r, r)] := by simp [Chip.ranked, alone, insertReport]
  have first : c.collectAll = Chip.react ((Chip.logEntry { c with reports := [], twin := x } (c.entryOf (c.effSev r) r)).markUnack
      (c.entryOf (c.effSev r) r)) (c.effSev r) r := by
    rw [Chip.collectAll, one, List.foldl_cons, List.foldl_nil, Chip.collect]
    simp only [hx, logged, if_false]
    rfl
  have class_ : r.src / 16 ∈ [r.src / 16] := List.mem_singleton.mpr rfl
  have reported : ∀ q ∈ c.collectAll.reports, q.src / 16 ∈ [r.src / 16] := fun q hq =>
    ((c.reacts_collectAll (cs := [r.src / 16]) (by rw [alone]; simp)).reports q hq).resolve_left (by simp)
  have reacted : Chip.Reacts [r.src / 16] ((Chip.logEntry { c with reports := [], twin := x } (c.entryOf (c.effSev r) r)).markUnack
      (c.entryOf (c.effSev r) r)) c.collectAll := by
    rw [first]
    exact Chip.reacts_react _ _ class_
  have collected : Chip.Reacts [r.src / 16] c.collectAll c.collectTwice := by
    unfold Chip.collectTwice
    refine .ite (fun _ => .refl _) (fun _ => .trans (Chip.reacts_reports _ (by simp)) (c.collectAll.reacts_collectAll reported))
  have settles : c.settle = c.collectTwice.interrupts := by rw [Chip.settle, alone]; rfl
  rw [settles]
  exact ⟨x, (reacted.trans collected).trans (Chip.reacts_interrupts _)⟩

/-- The first-fault record stands once an entry is logged (R414). -/
theorem Chip.first_logEntry (c : Chip) (e : LogEntry) : (c.logEntry e).fcu.first.isSome = true ∧ (c.logEntry e).frd Fcu.ffValid = 1 := by
  refine ⟨?_, Chip.frd_fwr_self _ _ 1⟩
  have record : (c.logEntry e).fcu.first = c.fcu.first.orElse (fun _ => some e) := by
    unfold Chip.logEntry
    dsimp only
    split <;> rfl
  rw [record]
  cases c.fcu.first <;> rfl

/-- A real entry marks its class (R412). -/
theorem Chip.bit_unackReal_markUnack (c : Chip) {e : LogEntry} (real : e.inj = false ∨ e.real = true) (h : e.src / 16 < 16) :
    bit ((c.markUnack e).frd Fcu.unackReal) (e.src / 16) = true := by
  have marks : (e.inj && !e.real) = false := by rcases real with h | h <;> simp [h]
  have marked : bit ((c.fwr Fcu.unackReal (setBit (c.frd Fcu.unackReal) (e.src / 16) true)).frd Fcu.unackReal) (e.src / 16) = true := by
    rw [Chip.frd_fwr_self]
    exact bit_setBit_mod h _ (.inl rfl)
  have apart : Fcu.unackReal.key ≠ (Fcu.worstOf (e.src / 16)).key := standing_key_ne_worstOf _ _ (by decide)
  unfold Chip.markUnack
  simp only [marks, Bool.false_eq_true, if_false]
  rw [Chip.frd_fwr_ne _ _ apart]
  split <;> exact marked

/-- What the record holds after a command that reports one fault alone. -/
theorem Chip.recorded_settle (c : Chip) {r : Report} (alone : c.reports = [r]) (logged : c.effSev r ≠ 0) :
    c.settle.fcu.first.isSome = true ∧ c.settle.frd Fcu.ffValid = 1 ∧
    (r.inj = false → r.src < 256 → bit (c.settle.frd Fcu.unackReal) (r.src / 16) = true) := by
  obtain ⟨x, reacted⟩ := c.reacts_logged alone logged
  obtain ⟨first, valid⟩ := Chip.first_logEntry { c with reports := [], twin := x } (c.entryOf (c.effSev r) r)
  have marked := Chip.reacts_markUnack (cs := [r.src / 16]) (Chip.logEntry { c with reports := [], twin := x } (c.entryOf (c.effSev r) r))
    (c.entryOf (c.effSev r) r)
  have whole := marked.trans reacted
  refine ⟨by rw [whole.recorded.1 first]; exact first, whole.recorded.2 valid, fun inj small => ?_⟩
  exact reacted.unacked _ (Chip.bit_unackReal_markUnack _ (e := c.entryOf (c.effSev r) r) (.inl inj)
    (by show r.src / 16 < 16; omega))

end Sys2Proof.Machine
end

section
/-! SUPPORT. The fault collector's commands (O43): the second attempt that does not come, acknowledgement, the first-fault record. -/

namespace Sys2Proof.Machine

theorem exec_secondAttemptTimeout (src : BitVec 8) (page : BitVec 16) (inst : BitVec 32) (s : State) :
    exec (.secondAttemptTimeout src page inst) s = execSecondAttemptTimeout src page inst s := rfl
theorem exec_holdLimit (d : Fin 1664) (s : State) : exec (.holdLimit d) s = execHoldLimit d s := rfl
theorem exec_fcuAck (m : Master) (classes : BitVec 16) (s : State) : exec (.fcuAck m classes) s = execFcuAck m classes s := rfl
theorem exec_ffClr (m : Master) (s : State) : exec (.ffClr m) s = execFfClr m s := rfl

/-- A command whose effect is the collector's alone changes no other register. -/
theorem confined_of_fcu {gs : List Fld} {ps : List Nat} {s : State} {d : Chip} (flds : d.flds = s.c.flds)
    (sticky : ∀ p, reactsSticky p = false → d.stickyWord p = s.c.stickyWord p) : Confined gs ps s { s with c := d.settle } :=
  Confined.of_body (fun f _ _ _ => by rw [Chip.rd, flds, Chip.rd]) (fun p hr _ => sticky p hr)

theorem Chip.effSev_congr {c d : Chip} (regs : d.fcu.regs = c.fcu.regs) (r : Report) : d.effSev r = c.effSev r := by
  have base : d.baseSev r = c.baseSev r := by simp only [Chip.baseSev, Chip.frd, regs]
  have esc : d.escalates r = c.escalates r := by simp only [Chip.escalates, Chip.frd, regs]
  rw [Chip.effSev, base, esc, Chip.effSev]

/-! ## The second attempt that does not come (R406) -/

/-- The report of an attempt without its second one. -/
def Attempt.lasts (a : Attempt) : Report := ⟨a.src, a.page, a.inst, a.detail, true, a.inj, a.real, [], false⟩

/-- What the collector makes of a real attempt without its second one: it is reported, and stands. -/
def Chip.attemptLasts (c : Chip) (a : Attempt) : Chip :=
  ((c.dropAttempt a.src a.page a.inst).report a.lasts).updFcu
    (fun f => { f with attempts := f.attempts ++ [{ a with standing := true }] })

theorem Chip.attempt_names {c : Chip} {src page inst : Nat} {a : Attempt} (h : c.attempt src page inst = some a) :
    a.src = src ∧ a.page = page ∧ a.inst = inst := by
  have named := List.find?_some h
  simp only [Bool.and_eq_true, decide_eq_true_eq] at named
  exact ⟨named.1.1, named.1.2, named.2⟩

theorem Chip.attempt_attemptLasts (c : Chip) (a : Attempt) :
    (c.attemptLasts a).attempt a.src a.page a.inst = some { a with standing := true } := by
  have dropped : (c.fcu.attempts.filter fun b => !(decide (b.src = a.src) && decide (b.page = a.page) && decide (b.inst = a.inst))).find?
      (fun b => decide (b.src = a.src) && decide (b.page = a.page) && decide (b.inst = a.inst)) = none := by
    rw [List.find?_eq_none]
    intro b hb
    have kept := (List.mem_filter.mp hb).2
    simp only [Bool.not_eq_true'] at kept
    simp [kept]
  show ((c.fcu.attempts.filter _) ++ [{ a with standing := true }]).find? _ = _
  rw [List.find?_append, dropped]
  simp

theorem execSecondAttemptTimeout_lasts {s : State} {src : BitVec 8} {page : BitVec 16} {inst : BitVec 32} {a : Attempt}
    (kept : s.c.attempt src.toNat page.toNat inst.toNat = some a) (stands : a.standing = false) (real : a.real = true) {P : State → Prop}
    (hs : s.Runs) (h : P { s with c := (s.c.start.attemptLasts a).settle }) : Gives (.secondAttemptTimeout src page inst) s P := by
  refine gives_of_body hs (exec_secondAttemptTimeout src page inst s) ?_ h
  have started : s.c.start.attempt src.toNat page.toNat inst.toNat = some a := kept
  simp only [started, stands, real, Bool.false_eq_true, if_false, if_true]
  simp only [Chip.attemptLasts, Attempt.lasts, real]

/-! ## Acknowledgement (R412) -/

/-- A bit of a word cut down to the classes that are not acknowledged. -/
theorem bit_and_unacked (v mask : Nat) {k : Nat} (hk : k < 16) :
    bit ((v &&& (65535 - mask % 65536)) % 2 ^ 16) k = (bit (v % 2 ^ 16) k && !bit mask k) := by
  have comp : (65535 - mask % 65536).testBit k = !mask.testBit k := by
    have small : mask % 65536 < 2 ^ 16 := Nat.mod_lt _ (by decide)
    rw [show 65535 - mask % 65536 = 2 ^ 16 - (mask % 65536 + 1) by omega, Nat.testBit_two_pow_sub_succ small,
      show (65536 : Nat) = 2 ^ 16 from rfl, Nat.testBit_mod_two_pow]
    simp [hk]
  simp only [bit, Nat.testBit_mod_two_pow, Nat.testBit_and, comp, hk, decide_true, Bool.true_and]

/-- The worst severities of the acknowledged classes are cleared. -/
def Chip.clearsWorst (c : Chip) (mask : Nat) : Chip :=
  (List.range 16).foldl (fun c k => if bit mask k then c.fwr (Fcu.worstOf k) 0 else c) c

theorem worstOf_key_ne : ∀ j < 16, ∀ k < 16, k ≠ j → (Fcu.worstOf k).key ≠ (Fcu.worstOf j).key := by decide

theorem Chip.frd_clearsWorst (c : Chip) (mask : Nat) {k : Nat} (hk : k < 16) :
    (c.clearsWorst mask).frd (Fcu.worstOf k) = if bit mask k then 0 else c.frd (Fcu.worstOf k) := by
  have part (l : List Nat) (hl : ∀ j ∈ l, j < 16) : (l.foldl (fun c j => if bit mask j then c.fwr (Fcu.worstOf j) 0 else c) c).frd
      (Fcu.worstOf k) = if bit mask k ∧ k ∈ l then 0 else c.frd (Fcu.worstOf k) := by
    induction l using List.reverseRecOn with
    | nil => simp
    | append_singleton r j ih =>
      have before := ih fun i hi => hl i (List.mem_append_left _ hi)
      rw [List.foldl_append, List.foldl_cons, List.foldl_nil]
      by_cases hj : k = j
      · subst hj
        by_cases acked : bit mask k = true
        · simp [acked, Chip.frd_fwr_self]
        · simp [acked, before]
      · have apart := worstOf_key_ne j (hl j (by simp)) k hk hj
        generalize r.foldl (fun c j => if bit mask j then c.fwr (Fcu.worstOf j) 0 else c) c = d at before ⊢
        have same : (if bit mask j then d.fwr (Fcu.worstOf j) 0 else d).frd (Fcu.worstOf k) = d.frd (Fcu.worstOf k) := by
          split
          · exact d.frd_fwr_ne _ apart
          · rfl
        rw [same, before]
        simp [hj]
  have whole := part (List.range 16) fun j hj => List.mem_range.mp hj
  simp only [List.mem_range, hk, and_true] at whole
  exact whole

theorem Chip.frd_clearsWorst_ne (c : Chip) (mask : Nat) {f : Fld} (hf : ∀ k < 16, f.key ≠ (Fcu.worstOf k).key) :
    (c.clearsWorst mask).frd f = c.frd f :=
  List.foldlRecOn (motive := fun d : Chip => d.frd f = c.frd f) _ _ rfl fun d hd k hk => by
    split
    · exact (d.frd_fwr_ne 0 (hf k (List.mem_range.mp hk))).trans hd
    · exact hd

/-- Clearing the worst severities changes registers of the collector alone. -/
theorem Chip.clearsWorst_frame (c : Chip) (mask : Nat) : ∃ regs, c.clearsWorst mask = { c with fcu := { c.fcu with regs := regs } } :=
  List.foldlRecOn (motive := fun d : Chip => ∃ regs, d = { c with fcu := { c.fcu with regs := regs } }) _ _ ⟨_, rfl⟩
    fun d hd k _ => by
      obtain ⟨regs, rfl⟩ := hd
      split <;> exact ⟨_, rfl⟩

/-- The classes of `mask` hold nothing unacknowledged. -/
def Chip.clearsUnack (c : Chip) (mask : Nat) : Chip :=
  (c.fwr Fcu.unackReal (c.frd Fcu.unackReal &&& (65535 - mask % 65536))).fwr Fcu.unackInj
    (c.frd Fcu.unackInj &&& (65535 - mask % 65536))

theorem Chip.frd_acknowledge (c : Chip) (mask : Nat) (f : Fld) :
    (c.acknowledge mask).frd f = ((c.clearsUnack mask).clearsWorst mask).frd f := rfl

/-- What an acknowledgement leaves in the collector's registers. -/
theorem Chip.acknowledge_shows (c : Chip) (mask : Nat) {k : Nat} (hk : k < 16) :
    bit ((c.acknowledge mask).frd Fcu.unackReal) k = (bit (c.frd Fcu.unackReal) k && !bit mask k) ∧
    bit ((c.acknowledge mask).frd Fcu.unackInj) k = (bit (c.frd Fcu.unackInj) k && !bit mask k) ∧
    (c.acknowledge mask).frd (Fcu.worstOf k) = if bit mask k then 0 else c.frd (Fcu.worstOf k) := by
  have whole (f : Fld) (hw : f.w = 16) : c.frd f % 2 ^ 16 = c.frd f := by
    rw [Chip.frd, getFld, hw, Nat.mod_mod]
  refine ⟨?_, ?_, ?_⟩
  · rw [Chip.frd_acknowledge, Chip.frd_clearsWorst_ne _ _ (by decide), Chip.clearsUnack, Chip.frd_fwr_ne _ _ (by decide),
      Chip.frd_fwr_self]
    exact (bit_and_unacked _ mask hk).trans (by rw [whole _ rfl])
  · rw [Chip.frd_acknowledge, Chip.frd_clearsWorst_ne _ _ (by decide), Chip.clearsUnack, Chip.frd_fwr_self]
    exact (bit_and_unacked _ mask hk).trans (by rw [whole _ rfl])
  · rw [Chip.frd_acknowledge, Chip.frd_clearsWorst _ _ hk, Chip.clearsUnack,
      Chip.frd_fwr_ne _ _ ((by decide : ∀ k < 16, (Fcu.worstOf k).key ≠ Fcu.unackInj.key) k hk),
      Chip.frd_fwr_ne _ _ ((by decide : ∀ k < 16, (Fcu.worstOf k).key ≠ Fcu.unackReal.key) k hk)]

/-- What an acknowledgement changes beside the collector's registers. -/
theorem Chip.acknowledge_frame (c : Chip) (mask : Nat) : ∃ regs crit aon held degraded, c.acknowledge mask =
    { c with rateHeld := held, containDegraded := degraded, fcu := { c.fcu with regs := regs, crit := crit, aon := aon, log := c.fcu.log.map (fun p => (p.1, ackEntry mask p.2)) } } := by
  obtain ⟨regs, h⟩ := (c.clearsUnack mask).clearsWorst_frame mask
  have body : c.acknowledge mask = Chip.updFcu { (c.clearsUnack mask).clearsWorst mask with
      rateHeld := ((c.clearsUnack mask).clearsWorst mask).rateHeld && !bit mask 11
      containDegraded := ((c.clearsUnack mask).clearsWorst mask).containDegraded && !bit mask 12 }
      (fun f => { f with crit := f.crit &&& (65535 - mask % 65536), log := f.log.map (fun p => (p.1, ackEntry mask p.2)),
                         aon := f.aon.map (ackEntry mask) }) := rfl
  rw [body, h]
  exact ⟨_, _, _, _, _, rfl⟩

/-! ## The statement -/

/-- Settles O43: one report is one entry at the write pointer, and acknowledgement and `FF_CLR` change the collector alone. -/
theorem faultLog : Obligations.FaultLog := by
  intro s
  refine ⟨fun src page inst a hs kept stands real logged => ?_, fun r base unacked => ?_, fun m classes allows => ?_,
    fun m allows => ?_, fun d hs most => ?_⟩
  · obtain ⟨hsrc, hpage, hinst⟩ := Chip.attempt_names kept
    refine execSecondAttemptTimeout_lasts kept stands real hs ?_
    have alone : (s.c.start.attemptLasts a).reports = [a.lasts] := rfl
    have regs : (s.c.start.attemptLasts a).fcu.regs = s.c.fcu.regs := rfl
    have wptr : (s.c.start.attemptLasts a).frd Fcu.logWptr = s.c.frd Fcu.logWptr := rfl
    have lasts : a.lasts = ⟨a.src, a.page, a.inst, a.detail, true, a.inj, true, [], false⟩ := by rw [Attempt.lasts, real]
    have severe : (s.c.start.attemptLasts a).effSev a.lasts ≠ 0 := by
      rw [Chip.effSev_congr regs, lasts]
      exact logged
    have entry := Chip.log_settle _ alone severe
    rw [wptr] at entry
    have reacted := Chip.reacts_settle (s.c.start.attemptLasts a) (cs := [a.src / 16]) (by rw [alone]; simp [Attempt.lasts])
    obtain ⟨first, valid, -⟩ := Chip.recorded_settle _ alone severe
    refine ⟨?_, ?_, ?_, ?_, first, valid, ?_⟩
    · rw [← hsrc, ← hpage, ← hinst, Chip.attempt, reacted.attempts]
      exact congrArg (Option.map Attempt.standing) (Chip.attempt_attemptLasts s.c.start a)
    · rw [entry, ← hsrc]
      rfl
    · rw [entry]
      rfl
    · rw [entry]
      rfl
    · exact Within.of_body (fun _ _ _ _ => rfl) (fun _ _ _ => rfl)
  · have escalates : s.c.escalates r = true := by simp [Chip.escalates, unacked]
    rw [Chip.effSev, if_neg base, if_pos escalates]
  · have acked (k : Fin 16) := Chip.acknowledge_shows s.c.start classes.toNat k.isLt
    obtain ⟨regs, crit, aon, held, degraded, frame⟩ := s.c.start.acknowledge_frame classes.toNat
    have idle := idle_settle (s.c.start.acknowledge classes.toNat) (by rw [frame]; rfl)
    have shown (f : Fld) : (s.c.start.acknowledge classes.toNat).settle.frd f = (s.c.start.acknowledge classes.toNat).frd f := by
      rw [Chip.frd, idle.fcu, Chip.frd]
    refine gives_of_body allows.1 (exec_fcuAck m classes s) (guarded_allows s m 0 fcuPage 0x54 _ false _ allows)
      ⟨fun k on => ?_, fun k off => ?_, ?_, ?_, ?_⟩
    · obtain ⟨real, inj, worst⟩ := acked k
      simp only [shown, real, inj, worst, on, Bool.not_true, Bool.and_false, if_true, and_self]
    · obtain ⟨real, -, worst⟩ := acked k
      simp only [shown, real, worst, off, Bool.not_false, Bool.and_true, Bool.false_eq_true, if_false]
      exact ⟨rfl, rfl⟩
    · rw [idle.fcu, frame]
      rfl
    · rw [idle.fcu, frame]
      rfl
    · exact confined_of_fcu (by rw [frame]; rfl) (fun p _ => by rw [frame]; rfl)
  · have idle := idle_settle s.c.start.clearFirst rfl
    refine gives_of_body allows.1 (exec_ffClr m s) (trigger_allows s m fcuPage 0x40 1 false _ allows)
      ⟨?_, ?_, ?_, ?_, confined_of_fcu rfl fun _ _ => rfl⟩
    · rw [idle.fcu]
      rfl
    · rw [Chip.frd, idle.fcu]
      exact Chip.frd_fwr_self _ Fcu.ffValid 0
    · rw [idle.fcu]
      rfl
    · rw [Chip.frd, idle.fcu]
      exact Chip.frd_fwr_ne _ 0 (by decide)
  · refine Gives.act hs (exec_holdLimit d s) ⟨?_, confined_of_fcu rfl fun _ _ => rfl⟩
    rw [(idle_settle _ rfl).fcu]
    have limit : s.c.start.frd Fcu.maxFrames ≠ 0 := most
    simp only [Chip.updFcu, limit, ne_eq, not_false_eq_true, true_and]
    rfl

end Sys2Proof.Machine
end

section
/-! SUPPORT. Heartbeats and the ALIVE pin (O44). -/

namespace Sys2Proof.Machine

theorem exec_heartbeat (m : Master) (v : BitVec 32) (s : State) : exec (.heartbeat m v) s = execHeartbeat m v s := rfl
theorem exec_heartbeatTimeout (s : State) : exec .heartbeatTimeout s = execHeartbeatTimeout s := rfl
theorem exec_hbGraceExpire (s : State) : exec .hbGraceExpire s = execHbGraceExpire s := rfl
theorem exec_aliveClr (m : Master) (s : State) : exec (.aliveClr m) s = execAliveClr m s := rfl
theorem exec_aliveToggle (s : State) : exec .aliveToggle s = execAliveToggle s := rfl

/-- A heartbeat ends the stop condition, the grace period and the wait for one. -/
def Chip.beats (c : Chip) : Chip :=
  ((c.updFcu (fun f => { f with hbStop := false, grace := false })).passHolds 0xDA fcuPage 0).fwr Fcu.waitHb 0

theorem Chip.frd_beats (c : Chip) {f : Fld} (h : f.key ≠ Fcu.waitHb.key) : c.beats.frd f = c.frd f := by
  rw [Chip.beats, Chip.frd_fwr_ne _ _ h]
  rfl

theorem Chip.heartbeat_eq (c : Chip) : c.heartbeat = if c.fcu.beaten then c.beats else
    if c.beats.frd Fcu.stop = 0 then (c.beats.updFcu (fun f => { f with beaten := true })).startAlive
    else c.beats.updFcu (fun f => { f with beaten := true }) := rfl

theorem Chip.heartbeat_later {c : Chip} (beaten : c.fcu.beaten = true) : c.heartbeat = c.beats := by
  rw [c.heartbeat_eq, if_pos beaten]

/-- The first heartbeat starts the pin. -/
def Chip.firstBeat (c : Chip) : Chip :=
  ((c.beats.updFcu (fun f => { f with beaten := true })).fwr Fcu.aliveRun 1).updFcu (fun f => { f with alive := true })

/-- The first heartbeat starts ALIVE where no cause of a stop stands (R415). -/
theorem Chip.heartbeat_first {c : Chip} (beaten : c.fcu.beaten = false) (stop : c.frd Fcu.stop = 0) : c.heartbeat = c.firstBeat := by
  have clear : c.beats.frd Fcu.stop = 0 := (c.frd_beats (by decide)).trans stop
  rw [c.heartbeat_eq, beaten, if_neg (by decide), if_pos clear, Chip.firstBeat]
  rfl

theorem Chip.frd_firstBeat (c : Chip) (f : Fld) : c.firstBeat.frd f = (c.beats.fwr Fcu.aliveRun 1).frd f := rfl

/-- `ALIVE_CLR` starts the pin again. -/
def Chip.resumesAlive (c : Chip) : Chip := ((c.fwr Fcu.stop 0).fwr Fcu.aliveRun 1).updFcu (fun f => { f with alive := true })

theorem Chip.frd_resumesAlive (c : Chip) (f : Fld) : c.resumesAlive.frd f = ((c.fwr Fcu.stop 0).fwr Fcu.aliveRun 1).frd f := rfl

theorem Chip.aliveClear_eq (c : Chip) : c.aliveClear = if c.aliveBarred then c.stick fcuPage 6 else
    if (c.fwr Fcu.stop 0).frd Fcu.aliveRun = 1 then c.fwr Fcu.stop 0 else (c.fwr Fcu.stop 0).startAlive := rfl

theorem Chip.aliveClear_resumes {c : Chip} (free : c.aliveBarred = false) (beaten : c.fcu.beaten = true) (run : c.frd Fcu.aliveRun = 0) :
    c.aliveClear = c.resumesAlive := by
  have halted : ¬(c.fwr Fcu.stop 0).frd Fcu.aliveRun = 1 := by
    rw [Chip.frd_fwr_ne _ _ (by decide), run]
    decide
  have began : (c.fwr Fcu.stop 0).fcu.beaten = true := beaten
  rw [c.aliveClear_eq, free, if_neg (by decide), if_neg halted, Chip.startAlive, if_pos began, Chip.resumesAlive]

/-- The collector's own records alone change. -/
theorem Chip.beats_fcu (c : Chip) : c.beats = { c with fcu := c.beats.fcu } := rfl

theorem Chip.firstBeat_fcu (c : Chip) : c.firstBeat = { c with fcu := c.firstBeat.fcu } := by
  have starts (d : Chip) : ((d.fwr Fcu.aliveRun 1).updFcu fun f => { f with alive := true }) =
      { d with fcu := ((d.fwr Fcu.aliveRun 1).updFcu fun f => { f with alive := true }).fcu } := rfl
  rw [Chip.firstBeat, c.beats_fcu]
  exact starts _

theorem Chip.resumesAlive_fcu (c : Chip) : c.resumesAlive = { c with fcu := c.resumesAlive.fcu } := rfl

/-- What a missing heartbeat leaves, whatever its report brings (R416, R417). -/
theorem heartbeatMissing_settles (s : State) : s.c.start.heartbeatMissing.settle.fcu.hbStop = true ∧
    s.c.start.heartbeatMissing.settle.fcu.grace = false ∧ s.c.start.heartbeatMissing.settle.frd Fcu.aliveRun = 0 ∧
    bit (s.c.start.heartbeatMissing.settle.frd Fcu.stop) 1 = true ∧
    bit (s.c.start.heartbeatMissing.settle.stickyWord fcuPage) 5 = true ∧
    Confined [] [] s { s with c := s.c.start.heartbeatMissing.settle } := by
  have body (d : Chip) : ∃ u w, d.stopAlive 1 = { d with fcu := u, sticky := w } ∧ u.hbStop = d.fcu.hbStop ∧ u.grace = d.fcu.grace := by
    unfold Chip.stopAlive
    dsimp only
    split <;> exact ⟨_, _, rfl, rfl, rfl⟩
  obtain ⟨u, w, stopped, hbStop, grace⟩ := body (s.c.start.updFcu (fun f => { f with hbStop := true, grace := false }))
  have reports : s.c.start.heartbeatMissing.reports = [⟨0xDA, fcuPage, 0, 0, true, false, true, [], false⟩] := by
    rw [Chip.heartbeatMissing, stopped]
    rfl
  have reacted := Chip.reacts_settle (cs := [13]) s.c.start.heartbeatMissing (by rw [reports]; simp)
  obtain ⟨-, stays, graceless⟩ := reacted.beat
  have frozen : s.c.start.heartbeatMissing.frd Fcu.aliveRun = 0 := by
    have run (d : Chip) : (d.stopAlive 1).frd Fcu.aliveRun = 0 := by
      unfold Chip.stopAlive
      dsimp only
      split <;> exact Chip.frd_fwr_self _ _ 0
    exact run _
  have caused : bit (s.c.start.heartbeatMissing.frd Fcu.stop) 1 = true := Chip.bit_stop_stopAlive _ (.inl rfl) (by decide)
  have shown : bit (s.c.start.heartbeatMissing.stickyWord fcuPage) 5 = true := by
    have stuck (d : Chip) : bit ((d.stopAlive 1).stickyWord fcuPage) 5 = true := by
      have now : bit ((((d.fwr Fcu.stop (setBit (d.frd Fcu.stop) 1 true)).stick fcuPage 5).fwr Fcu.aliveRun 0).stickyWord fcuPage) 5 =
          true := (congrArg (bit · 5) (Chip.stick_self _ _ _)).trans (bit_setBit_true _ 5)
      unfold Chip.stopAlive
      dsimp only
      split <;> exact now
    exact stuck _
  refine ⟨stays.trans ?_, graceless.trans ?_, reacted.frozen frozen, reacted.stop 1 caused, reacted.sticky _ _ shown, ?_⟩
  · rw [Chip.heartbeatMissing, stopped]
    exact hbStop
  · rw [Chip.heartbeatMissing, stopped]
    exact grace
  · refine Confined.of_body (fun f _ _ _ => ?_) (fun p hp _ => ?_)
    · rw [Chip.heartbeatMissing, stopped]
      rfl
    · have other : p ≠ fcuPage := fun e => by rw [e] at hp; exact absurd hp (by decide)
      exact Chip.stickyWord_stopAlive _ 1 other

/-- Settles O44: each command is one of the collector's own operations; only a missing heartbeat is reported, and its reaction undoes
nothing of the stop. -/
theorem alive : Obligations.Alive := by
  intro s
  have quiet {d : Chip} (regs : d.flds = s.c.flds) (sticky : d.sticky = s.c.sticky) : Confined [] [] s { s with c := d.settle } :=
    confined_of_fcu regs fun _ _ => by rw [Chip.stickyWord, sticky, Chip.stickyWord]
  refine ⟨fun m v allows beaten stop => ?_, fun m v allows beaten => ?_, fun hs beaten grace hb => ?_, fun hs beaten grace hb => ?_,
    fun m allows free beaten run => ?_, fun m allows barred => ?_, fun hs run static => ?_⟩
  · have idle := idle_settle s.c.start.firstBeat (by rw [Chip.firstBeat_fcu]; rfl)
    have body := Chip.heartbeat_first (c := s.c.start) beaten stop
    have kept : Confined [] [] s { s with c := s.c.start.firstBeat.settle } := quiet (by rw [Chip.firstBeat_fcu]; rfl) (by rw [Chip.firstBeat_fcu]; rfl)
    refine gives_of_body allows.1 (exec_heartbeat m v s) ((guarded_allows s m 0 fcuPage 0x4C v.toNat false Chip.heartbeat allows).trans body)
      ⟨?_, ?_, ?_, ?_, ?_, kept⟩
    · rw [idle.fcu]
      rfl
    · rw [idle.fcu]
      rfl
    · rw [Chip.frd, idle.fcu, ← Chip.frd, Chip.frd_firstBeat, Chip.frd_fwr_ne _ _ (by decide)]
      exact Chip.frd_fwr_self _ Fcu.waitHb 0
    · rw [Chip.frd, idle.fcu, ← Chip.frd, Chip.frd_firstBeat, Chip.frd_fwr_self]
      rfl
    · rw [idle.fcu]
      rfl
  · have idle := idle_settle s.c.start.beats rfl
    have body := Chip.heartbeat_later (c := s.c.start) beaten
    have kept : Confined [] [] s { s with c := s.c.start.beats.settle } := quiet (by rw [Chip.beats_fcu]; rfl) (by rw [Chip.beats_fcu]; rfl)
    refine gives_of_body allows.1 (exec_heartbeat m v s) ((guarded_allows s m 0 fcuPage 0x4C v.toNat false Chip.heartbeat allows).trans body)
      ⟨?_, ?_, ?_, ?_, kept⟩
    · rw [idle.fcu]
      rfl
    · rw [idle.fcu]
      rfl
    · rw [Chip.frd, idle.fcu, ← Chip.frd, Chip.frd_beats _ (by decide)]
      rfl
    · rw [idle.fcu]
      rfl
  · obtain ⟨stopped, -, run, caused, shown, confined⟩ := heartbeatMissing_settles s
    refine gives_of_body hs (exec_heartbeatTimeout s) (if_neg ?_) ⟨stopped, run, caused, shown, confined⟩
    simp [beaten, grace, hb]
  · obtain ⟨stopped, graceless, run, caused, -, confined⟩ := heartbeatMissing_settles s
    refine gives_of_body hs (exec_hbGraceExpire s) (if_pos ?_) ⟨stopped, graceless, run, caused, confined⟩
    simp [beaten, grace, hb]
  · have idle := idle_settle s.c.start.resumesAlive rfl
    have body := Chip.aliveClear_resumes (c := s.c.start) free beaten run
    have kept : Confined [] [] s { s with c := s.c.start.resumesAlive.settle } := quiet (by rw [Chip.resumesAlive_fcu]; rfl) (by rw [Chip.resumesAlive_fcu]; rfl)
    refine gives_of_body allows.1 (exec_aliveClr m s) ((trigger_allows s m fcuPage 0x40 0 false Chip.aliveClear allows).trans body)
      ⟨?_, ?_, ?_, kept⟩
    · rw [Chip.frd, idle.fcu, ← Chip.frd, Chip.frd_resumesAlive, Chip.frd_fwr_ne _ _ (by decide)]
      exact Chip.frd_fwr_self _ Fcu.stop 0
    · rw [Chip.frd, idle.fcu, ← Chip.frd, Chip.frd_resumesAlive, Chip.frd_fwr_self]
      rfl
    · rw [idle.fcu]
      rfl
  · have idle := idle_settle (s.c.start.stick fcuPage 6) rfl
    have body : s.c.start.aliveClear = s.c.start.stick fcuPage 6 := if_pos barred
    refine gives_of_body allows.1 (exec_aliveClr m s) ((trigger_allows s m fcuPage 0x40 0 false Chip.aliveClear allows).trans body)
      ⟨?_, ?_, ?_, ?_⟩
    · rw [Chip.frd, idle.fcu]
      rfl
    · rw [Chip.frd, idle.fcu]
      rfl
    · exact Chip.bit_stickyWord_settle (by rw [Chip.stick_self]; exact bit_setBit_true _ 6)
    · refine confined_of_fcu rfl fun p hp => ?_
      exact Chip.stick_other _ _ _ fun e => by rw [e] at hp; exact absurd hp (by decide)
  · have toggles : s.c.start.frd Fcu.aliveRun = 1 ∧ (!bit (s.c.start.rd Dev.compat) 2) = true :=
      ⟨run, by rw [Chip.rd_start, static]; rfl⟩
    have idle := idle_settle (s.c.start.updFcu (fun f => { f with alive := !f.alive })) rfl
    refine gives_of_body hs (exec_aliveToggle s) (if_pos toggles) ⟨?_, quiet rfl rfl⟩
    rw [idle.fcu]
    rfl

end Sys2Proof.Machine
end

section
/-! SUPPORT. Armed injections and the scrubber of the stacks (O45). -/

namespace Sys2Proof.Machine

theorem exec_injectArm (target : BitVec 16) (a0 a1 : BitVec 32) (s : State) :
    exec (.injectArm target a0 a1) s = execInjectArm target a0 a1 s := rfl
theorem exec_injectExpire (s : State) : exec .injectExpire s = execInjectExpire s := rfl
theorem exec_scrubStep (k : Fin 8) (i : BitVec 16) (a : BitVec 32) (syn again : BitVec 16) (pos : BitVec 12) (s : State) :
    exec (.scrubStep k i a syn again pos) s = execScrubStep k i a syn again pos s := rfl

/-- A command that is done shows no refusal. -/
theorem Chip.rd_refuse_cmdEnd_done (c : Chip) (op : Nat) : (c.cmdEnd op 0).rd Cmd.refuse = 0 := by
  rw [Chip.cmdEnd_done, Chip.rd_stick, Chip.rd_wr_self]
  rfl

/-! ## Arming (R418) -/

/-- What an accepted arming makes of the collector. -/
def Chip.armed (c : Chip) (k i pattern : Nat) (rehearsal : Bool) : Chip :=
  ((((((c.updFcu (fun f => { f with arm := some ⟨k, i, pattern, rehearsal⟩ })).fwr Fcu.injArmed 1).fwr Fcu.injRehearsal
    (b2n rehearsal)).fwr Fcu.injChecker k).fwr Fcu.injFired 0).fwr Fcu.injPattern pattern).fwr Fcu.injInst i

theorem Chip.armed_shows (c : Chip) {k i pattern : Nat} (fits : pattern < 2 ^ 32) (rehearsal : Bool) :
    (c.armed k i pattern rehearsal).fcu.arm = some ⟨k, i, pattern, rehearsal⟩ ∧ (c.armed k i pattern rehearsal).frd Fcu.injArmed = 1 ∧
    (c.armed k i pattern rehearsal).frd Fcu.injPattern = pattern ∧ (c.armed k i pattern rehearsal).frd Fcu.injFired = 0 ∧
    ∃ u, c.armed k i pattern rehearsal = { c with fcu := u } := by
  have arm (d : Chip) (f : Fld) (v : Nat) : (d.fwr f v).fcu.arm = d.fcu.arm := rfl
  have frame {d : Chip} (h : ∃ u, d = { c with fcu := u }) (f : Fld) (v : Nat) : ∃ u, d.fwr f v = { c with fcu := u } := by
    obtain ⟨u, rfl⟩ := h
    exact ⟨_, rfl⟩
  unfold Chip.armed
  refine ⟨?_, ?_, ?_, ?_, frame (frame (frame (frame (frame (frame ⟨_, rfl⟩ _ _) _ _) _ _) _ _) _ _) _ _⟩
  · simp only [arm]
    rfl
  · rw [Chip.frd_fwr_ne _ _ (by decide), Chip.frd_fwr_ne _ _ (by decide), Chip.frd_fwr_ne _ _ (by decide),
      Chip.frd_fwr_ne _ _ (by decide), Chip.frd_fwr_ne _ _ (by decide), Chip.frd_fwr_self]
    rfl
  · rw [Chip.frd_fwr_ne _ _ (by decide), Chip.frd_fwr_self]
    exact Nat.mod_eq_of_lt fits
  · rw [Chip.frd_fwr_ne _ _ (by decide), Chip.frd_fwr_ne _ _ (by decide), Chip.frd_fwr_self]
    rfl

theorem cmdInject_arms {c : Chip} {k a0 a1 : Nat} (known : k < 13) (exists_ : checkerInstance k (a1 % 65536) = true)
    (free : c.fcu.arm = none) (some : a0 ≠ 0) (fits : a0 < 2 ^ checkWidth k) :
    cmdInject c k a0 a1 = (0, (c.armed k (a1 % 65536) a0 (bit a1 16)).raise 0xF6 cmdPage k 0) := by
  simp only [cmdInject, exists_, free, Nat.not_le.mpr known, Nat.not_le.mpr fits, some, Bool.not_true, Bool.false_eq_true,
    Option.isSome_none, or_self, if_false]
  rfl

theorem cmdInject_busy {c : Chip} {k a0 a1 : Nat} (known : k < 13) (exists_ : checkerInstance k (a1 % 65536) = true)
    (taken : c.fcu.arm ≠ none) : cmdInject c k a0 a1 = (3, c) := by
  simp only [cmdInject, exists_, Option.isSome_iff_ne_none.mpr taken, Nat.not_le.mpr known, Bool.not_true, Bool.false_eq_true, if_false,
    if_true]

/-! ## The scrubber of a stack (R423) -/

/-- The scrubber's position in stack `k` moves, and a pass is counted where it starts again. -/
def Chip.scrubbed (c : Chip) (k pos : Nat) : Chip :=
  (if pos < c.rd (Hbm.pos.nth k) then (c.inc (Hbm.passes.nth k)).stick hbmPage 4 else c).wr (Hbm.pos.nth k) pos

/-- A wider claim of what an effect writes. -/
theorem Chip.Writes.widen {gs hs : List Fld} {ps qs : List Nat} {a b : Chip} (h : Chip.Writes gs ps a b) (k : gs ⊆ hs) (l : ps ⊆ qs) :
    Chip.Writes hs qs a b := ⟨fun f hf => h.rd f fun g hg => hf g (k hg), fun p hp => h.sticky p fun m => hp (l m)⟩

theorem Chip.rd_inc_self (c : Chip) (f : Fld) : (c.inc f).rd f = satInc f.w (c.rd f) := by
  rw [Chip.inc, Chip.rd_wr_self]
  refine Nat.mod_eq_of_lt ?_
  unfold satInc
  have whole := Nat.two_pow_pos f.w
  split <;> omega

section
variable {k : Nat} (hk : k < 2)
include hk

/-- The registers of one stack stand at places of their own. -/
theorem hbm_key_ne : (Hbm.passes.nth k).key ≠ (Hbm.pos.nth k).key ∧ (Hbm.ueCnt.nth k).key ≠ (Hbm.pos.nth k).key ∧
    (Hbm.ueCnt.nth k).key ≠ (Hbm.passes.nth k).key ∧ (Hbm.ueCnt.nth k).key ≠ (Hbm.poison.nth k).key ∧
    (Hbm.pos.nth k).key ≠ (Hbm.poison.nth k).key := by
  rcases (by omega : k = 0 ∨ k = 1) with rfl | rfl <;> decide

theorem hbm_ok : (Hbm.pos.nth k).ok = true ∧ (Hbm.passes.nth k).ok = true ∧ (Hbm.ueCnt.nth k).ok = true := by
  rcases (by omega : k = 0 ∨ k = 1) with rfl | rfl <;> decide

theorem Chip.writes_scrubbed (c : Chip) (pos : Nat) :
    Chip.Writes [Hbm.pos.nth k, Hbm.passes.nth k] [hbmPage] c (c.scrubbed k pos) := by
  unfold Chip.scrubbed
  refine .wr ?_ (by simp) pos
  split
  · exact ((Chip.Writes.refl c).wr (f := Hbm.passes.nth k) (by simp) _).stick (by simp) 4
  · exact .refl c

theorem Chip.rd_scrubbed_ueCnt (c : Chip) (pos : Nat) : (c.scrubbed k pos).rd (Hbm.ueCnt.nth k) = c.rd (Hbm.ueCnt.nth k) := by
  obtain ⟨-, fromPos, fromPasses, -, -⟩ := hbm_key_ne hk
  exact (c.writes_scrubbed hk pos).rd _ (by simp [fromPos, fromPasses])

/-- A pass that ends is counted and shown. -/
theorem Chip.scrubbed_wraps {c : Chip} {pos : Nat} (wraps : pos < c.rd (Hbm.pos.nth k)) :
    (c.scrubbed k pos).rd (Hbm.passes.nth k) = satInc 16 (c.rd (Hbm.passes.nth k)) ∧
    bit ((c.scrubbed k pos).stickyWord hbmPage) 4 = true := by
  rw [Chip.scrubbed, if_pos wraps]
  refine ⟨?_, ?_⟩
  · rw [Chip.rd_wr_ne _ _ (hbm_key_ne hk).1, Chip.rd_stick, Chip.rd_inc_self]
    rfl
  · show bit (((c.inc (Hbm.passes.nth k)).stick hbmPage 4).stickyWord hbmPage) 4 = true
    rw [Chip.stick_self]
    exact bit_setBit_true _ 4

omit hk in
theorem Chip.rd_pos_scrubbed (c : Chip) (pos : BitVec 12) : (c.scrubbed k pos.toNat).rd (Hbm.pos.nth k) = pos.toNat := by
  rw [Chip.scrubbed, Chip.rd_wr_self]
  exact Nat.mod_eq_of_lt pos.isLt

theorem Chip.poisonWord_stack (c : Chip) (i a : Nat) : c.poisonWord k i a = if c.isPoisoned k i a then c else
    Chip.inc { c with poisoned := (k, i, a) :: c.poisoned } (Hbm.poison.nth k) := by
  rcases (by omega : k = 0 ∨ k = 1) with rfl | rfl <;> rfl

theorem Chip.isPoisoned_poisonWord (c : Chip) (i a : Nat) : (c.poisonWord k i a).isPoisoned k i a = true := by
  rw [c.poisonWord_stack hk]
  split
  · assumption
  · simp [Chip.isPoisoned, Chip.inc, Chip.wr]

theorem Chip.writes_poisonWord (c : Chip) (i a : Nat) : Chip.Writes [Hbm.poison.nth k] [] c (c.poisonWord k i a) := by
  rw [c.poisonWord_stack hk]
  split
  · exact .refl c
  · have listed : Chip.Writes [Hbm.poison.nth k] [] c { c with poisoned := (k, i, a) :: c.poisoned } := ⟨fun _ _ => rfl, fun _ _ => rfl⟩
    exact listed.wr (by simp) _

/-- A stack's word that cannot be corrected is reported, counted, shown and poisoned (R422, R423, R496). -/
theorem Chip.memRead_uncorrectable {c : Chip} (unarmed : c.fcu.arm = none) {syn : Nat} (bad : syn ≠ 0) (many : oneBit syn = false)
    (i a again : Nat) : c.memRead k i a syn again [] true =
      ((c.report ⟨memSource k + 1, memPage k i, memInst k i, a, true, false, true, [], false⟩).hbmError k false true).poisonWord k i a := by
  simp [Chip.memRead, Chip.check, unarmed, bad, many, hk, b2n]

omit hk in
theorem execScrubStep_stack (k : Fin 8) (hk : k.val < 2) (a : BitVec 32) (syn again : BitVec 16) (pos : BitVec 12) (s : State) :
    execScrubStep k 0 a syn again pos s =
      act s (fun c => (c.memRead k 0 a.toNat syn.toNat again.toNat [] true).scrubbed k pos.toNat) := by
  have small (v : BitVec 16) : v.toNat % 65536 = v.toNat := Nat.mod_eq_of_lt v.isLt
  obtain ⟨k, lt⟩ := k
  rcases (by simp only at hk; omega : k = 0 ∨ k = 1) with rfl | rfl
  · simp [execScrubStep, checkerInstance, checkWidth, small, Chip.scrubbed]
  · simp [execScrubStep, checkerInstance, checkWidth, small, Chip.scrubbed]

end

/-- Settles O45: an arming and a refusal report class 15 alone, which leaves the mailbox's result and the arming; a word of a stack is
read by `memRead`, whose reports contain nothing of the stacks' page. -/
theorem injection : Obligations.Injection := by
  intro s
  refine ⟨fun target a0 a1 hs known checker free some fits => ?_, fun target a0 a1 hs known checker taken => ?_, fun hs taken => ?_,
    fun k a again pos hs hk unarmed => ?_, fun k a syn again pos hs hk unarmed bad many => ?_⟩
  · have arms := cmdInject_arms (c := s.c.start) known checker free some fits
    obtain ⟨arm, shown, pattern, fired, u, frame⟩ :=
      s.c.start.armed_shows (k := target.toNat) (i := a1.toNat % 65536) a0.isLt (bit a1.toNat 16)
    generalize s.c.start.armed target.toNat (a1.toNat % 65536) a0.toNat (bit a1.toNat 16) = d at arms arm shown pattern fired frame
    have quiet : d.reports = [] := by rw [frame]; rfl
    have alone : ((d.raise 0xF6 cmdPage target.toNat 0).cmdEnd 9 0).reports =
        [⟨0xF6, cmdPage, target.toNat, 0, true, false, true, [], false⟩] := by
      show d.reports ++ _ = _
      rw [quiet]
      rfl
    have kept := Chip.reacts_settle (cs := [15]) ((d.raise 0xF6 cmdPage target.toNat 0).cmdEnd 9 0) (by rw [alone]; simp)
    have reported : Chip.Writes cmdResult [cmdPage] s.c.start (d.raise 0xF6 cmdPage target.toNat 0) := by
      rw [frame]
      exact ⟨fun _ _ => rfl, fun _ _ => rfl⟩
    have writes := reported.cmdEnd (by simp) 9 0
    refine gives_of_body hs (exec_injectArm target a0 a1 s) (d := (d.raise 0xF6 cmdPage target.toNat 0).cmdEnd 9 0) (by rw [arms])
      ⟨kept.arm.trans arm, ?_, ?_, ?_, ?_, ?_, writes.confined_cmd⟩
    · exact (Chip.frd_settle _ (by decide)).trans shown
    · exact (Chip.frd_settle _ (by decide)).trans pattern
    · exact (Chip.frd_settle _ (by decide)).trans fired
    · rw [Chip.rd_settle_class15 _ alone (by simp) (by decide)]
      exact Chip.rd_state_cmdEnd_done _ 9
    · rw [Chip.rd_settle_class15 _ alone (by simp) (by decide)]
      exact Chip.rd_refuse_cmdEnd_done _ 9
  · have busy := cmdInject_busy (c := s.c.start) (a0 := a0.toNat) known checker taken
    have alone : (s.c.start.cmdEnd 9 3).reports = [⟨0xF2, cmdPage, s.c.host.issuer, 0, true, false, true, [], false⟩] := rfl
    have kept := Chip.reacts_settle (cs := [15]) (s.c.start.cmdEnd 9 3) (by rw [alone]; simp)
    obtain ⟨state, refuse, -⟩ := s.c.start.rd_cmdEnd_refused 9 (code := 3) (by decide)
    refine gives_of_body hs (exec_injectArm target a0 a1 s) (d := s.c.start.cmdEnd 9 3) (by rw [busy])
      ⟨kept.arm, ?_, ?_, Chip.bit_stickyWord_settle ?_, ((Chip.Writes.refl _).cmdEnd (by simp) 9 3).confined_cmd⟩
    · rw [Chip.rd_settle_class15 _ alone (by simp) (by decide)]
      exact state
    · rw [Chip.rd_settle_class15 _ alone (by simp) (by decide)]
      exact refuse
    · rw [Chip.cmdEnd_refused _ _ (by decide), Chip.stick_self]
      exact bit_setBit_true _ 1
  · have idle := idle_settle (s.c.start.disarm.stick fcuPage 8) rfl
    refine gives_of_body hs (exec_injectExpire s) (d := s.c.start.disarm.stick fcuPage 8)
      (if_pos (Option.isSome_iff_ne_none.mpr taken)) ⟨?_, ?_, Chip.bit_stickyWord_settle ?_, ?_⟩
    · rw [idle.fcu]
      rfl
    · rw [Chip.frd, idle.fcu, ← Chip.frd]
      exact Chip.frd_fwr_self _ Fcu.injArmed 0
    · rw [Chip.stick_self]
      exact bit_setBit_true _ 8
    · exact confined_of_fcu rfl fun p hp => Chip.stick_other _ _ _ fun e => by rw [e] at hp; exact absurd hp (by decide)
  · have clean : s.c.start.memRead k 0 a.toNat 0 again.toNat [] true = s.c.start := by
      have none : s.c.start.fcu.arm = none := unarmed
      simp only [Chip.memRead, Chip.check, none, if_true, BitVec.toNat_zero]
    obtain ⟨okPos, okPasses, -⟩ := hbm_ok hk
    refine gives_of_body hs ((exec_scrubStep k 0 a 0 again pos s).trans (execScrubStep_stack k hk a 0 again pos s))
      (d := s.c.start.scrubbed k pos.toNat) (by rw [show (0 : BitVec 16).toNat = 0 from rfl, clean])
      ⟨?_, fun wraps => ⟨?_, Chip.bit_stickyWord_settle (Chip.scrubbed_wraps (c := s.c.start) hk wraps).2⟩, (s.c.start.writes_scrubbed hk _).confined⟩
    · rw [Chip.rd_settle _ okPos rfl]
      exact Chip.rd_pos_scrubbed _ pos
    · rw [Chip.rd_settle _ okPasses rfl]
      exact (Chip.scrubbed_wraps (c := s.c.start) hk wraps).1
  · have wrong : syn.toNat ≠ 0 := fun e => bad (BitVec.eq_of_toNat_eq e)
    have found := Chip.memRead_uncorrectable hk (c := s.c.start) unarmed wrong many 0 a.toNat again.toNat
    obtain ⟨-, -, okCount⟩ := hbm_ok hk
    obtain ⟨-, -, -, fromPoison, -⟩ := hbm_key_ne hk
    let r : Report := ⟨memSource k + 1, memPage k 0, memInst k 0, a.toNat, true, false, true, [], false⟩
    let e := (s.c.start.report r).hbmError k false true
    have poisons := e.writes_poisonWord hk 0 a.toNat
    have scrubs := (e.poisonWord k 0 a.toNat).writes_scrubbed hk pos.toNat
    have counts : Chip.Writes [Hbm.ueCnt.nth k] [hbmPage] s.c.start e := by
      have reported : Chip.Writes [Hbm.ueCnt.nth k] [hbmPage] s.c.start (s.c.start.report r) := ⟨fun _ _ => rfl, fun _ _ => rfl⟩
      exact (reported.stick (by simp) (2 * k.val + 1)).wr (by simp) _
    refine gives_of_body hs ((exec_scrubStep k 0 a syn again pos s).trans (execScrubStep_stack k hk a syn again pos s))
      (d := (e.poisonWord k 0 a.toNat).scrubbed k pos.toNat) (by rw [found]) ⟨?_, ?_, Chip.bit_stickyWord_settle ?_, ?_⟩
    · rw [Chip.rd_settle _ okCount rfl, Chip.rd_scrubbed_ueCnt hk, poisons.rd _ (by simp [fromPoison])]
      exact Chip.rd_inc_self _ _
    · show (Chip.settle _).isPoisoned k 0 a.toNat = true
      rw [Chip.isPoisoned, (settled _).poisoned]
      have listed : ((e.poisonWord k 0 a.toNat).scrubbed k pos.toNat).poisoned = (e.poisonWord k 0 a.toNat).poisoned := by
        unfold Chip.scrubbed
        split <;> rfl
      rw [listed]
      exact Chip.isPoisoned_poisonWord hk _ 0 a.toNat
    · have shown : bit (e.stickyWord hbmPage) (2 * k + 1) = true := by
        show bit (((s.c.start.report r).stick hbmPage (2 * k.val + 1)).stickyWord hbmPage) _ = true
        rw [Chip.stick_self]
        exact bit_setBit_true _ _
      have later : bit ((e.poisonWord k 0 a.toNat).stickyWord hbmPage) (2 * k + 1) = true := by
        rw [poisons.sticky _ (by simp)]
        exact shown
      unfold Chip.scrubbed
      split
      · show bit (((Chip.inc _ _).stick hbmPage 4).stickyWord hbmPage) _ = true
        rw [Chip.stick_self]
        exact bit_setBit_of_bit later 4
      · exact later
    · refine Chip.Writes.confined (.trans (counts.widen (by simp) (by simp)) (.trans (poisons.widen (by simp) (by simp)) (scrubs.widen (by simp) (by simp))))

end Sys2Proof.Machine
end

section
/-! SUPPORT. Clusters, their wakes, and the monitors (O53). -/

namespace Sys2Proof.Machine

theorem exec_clusterSleep (k : Fin 64) (icore ballast : BitVec 10) (s : State) :
    exec (.clusterSleep k icore ballast) s = execClusterSleep k icore ballast s := rfl
theorem exec_wakeDeferEnd (k : Fin 64) (s : State) : exec (.wakeDeferEnd k) s = execWakeDeferEnd k s := rfl
theorem exec_wakeComplete (k : Fin 64) (us : BitVec 24) (s : State) : exec (.wakeComplete k us) s = execWakeComplete k us s := rfl
theorem exec_serviceMode (m : Master) (s : State) : exec (.serviceMode m) s = execServiceMode m s := rfl
theorem exec_railMonitor (n : Fin 10) (mv : BitVec 12) (w : Bool) (s : State) :
    exec (.railMonitor n mv w) s = execRailMonitor n mv w s := rfl
theorem exec_tjMonitor (tj : BitVec 10) (warm : Bool) (sp : BitVec 8) (s : State) :
    exec (.tjMonitor tj warm sp) s = execTjMonitor tj warm sp s := rfl
theorem exec_hkLockstep (s : State) : exec .hkLockstep s = execHkLockstep s := rfl
theorem exec_hkExcept (s : State) : exec .hkExcept s = execHkExcept s := rfl

/-! ## Fields of the page -/

/-- The fields of the page but for the clusters' entries and the rails'. -/
def pwrFields : List Fld := [Pwr.railsOk, Pwr.deferring, Pwr.latTol, Pwr.icore, Pwr.ballast, Pwr.deferCnt, Pwr.lateCnt]

theorem clState_key_ne (k : Fin 64) : (∀ g ∈ pwrFields, (Pwr.clState.nth k).key ≠ g.key) ∧
    (Pwr.clState.nth k).key ≠ (Pwr.clIwake.nth k).key ∧ (∀ g ∈ pwrFields, g.key ≠ (Pwr.clIwake.nth k).key) :=
  (by decide : ∀ k : Fin 64, (∀ g ∈ pwrFields, (Pwr.clState.nth k).key ≠ g.key) ∧
    (Pwr.clState.nth k).key ≠ (Pwr.clIwake.nth k).key ∧ (∀ g ∈ pwrFields, g.key ≠ (Pwr.clIwake.nth k).key)) k

theorem rail_key_ne (n j : Fin 10) : (Pwr.railMv.nth n).key ≠ (Pwr.railInWin.nth j).key ∧ (Pwr.railMv.nth n).key ≠ Pwr.railsOk.key ∧
    (Pwr.railInWin.nth n).key ≠ Pwr.railsOk.key :=
  (by decide : ∀ n j : Fin 10, (Pwr.railMv.nth n).key ≠ (Pwr.railInWin.nth j).key ∧ (Pwr.railMv.nth n).key ≠ Pwr.railsOk.key ∧
    (Pwr.railInWin.nth n).key ≠ Pwr.railsOk.key) n j

theorem cl_ok (k : Fin 64) : (Pwr.clState.nth k).ok = true ∧ (Pwr.clIwake.nth k).ok = true :=
  (by decide : ∀ k : Fin 64, (Pwr.clState.nth k).ok = true ∧ (Pwr.clIwake.nth k).ok = true) k

theorem rail_ok (n : Fin 10) : (Pwr.railMv.nth n).ok = true ∧ (Pwr.railInWin.nth n).ok = true :=
  (by decide : ∀ n : Fin 10, (Pwr.railMv.nth n).ok = true ∧ (Pwr.railInWin.nth n).ok = true) n

theorem Chip.rd_clState_settle (c : Chip) (k : Fin 64) : c.settle.rd (Pwr.clState.nth k) = c.rd (Pwr.clState.nth k) :=
  c.rd_settle (cl_ok k).1 rfl

theorem Chip.rd_clIwake_settle (c : Chip) (k : Fin 64) : c.settle.rd (Pwr.clIwake.nth k) = c.rd (Pwr.clIwake.nth k) :=
  c.rd_settle (cl_ok k).2 rfl

/-- The state of a cluster, written. -/
theorem Chip.rd_clState_wr (c : Chip) (k : Fin 64) {st : Nat} (h : st < 8) :
    (c.wr (Pwr.clState.nth k) st).rd (Pwr.clState.nth k) = st := by
  rw [Chip.rd_wr_self]
  exact Nat.mod_eq_of_lt h

theorem Chip.Writes.updPower {gs : List Fld} {ps : List Nat} {a b : Chip} (h : Chip.Writes gs ps a b) (f : PowerX → PowerX) :
    Chip.Writes gs ps a (b.updPower f) := ⟨h.rd, h.sticky⟩

/-! ## Rest and exit (R466 to R469) -/

theorem Chip.cluster_showCore (c : Chip) (i b : Nat) (k : Fin 64) : (c.showCore i b).cluster k = c.cluster k := by
  obtain ⟨apart, -, -⟩ := clState_key_ne k
  rw [Chip.cluster, Chip.showCore, Chip.rd_wr_ne _ _ (apart _ (by decide)), Chip.rd_wr_ne _ _ (apart _ (by decide)), Chip.cluster]

/-- The currents shown are no part of what a cluster's rest depends on. -/
theorem Chip.allowedState_showCore (c : Chip) (i b k : Nat) : (c.showCore i b).allowedState k = c.allowedState k := by
  have tol : (c.showCore i b).effTol k = c.effTol k := by
    have word : (c.showCore i b).rd Pwr.latTol = c.rd Pwr.latTol := by
      rw [Chip.showCore, Chip.rd_wr_ne _ _ (by decide), Chip.rd_wr_ne _ _ (by decide)]
    rw [Chip.effTol, word]
    rfl
  have core (j : Nat) : (c.showCore i b).novaSt j = c.novaSt j := by
    have apart {f : Fld} (hf : f ∈ [Pwr.icore, Pwr.ballast]) : (Nova.state.on j).key ≠ f.key := by
      simp only [List.mem_cons, List.not_mem_nil, or_false] at hf
      rcases hf with rfl | rfl <;> simp only [Fld.key, Fld.on, placeKey, Nova.state, Pwr.icore, Pwr.ballast] <;> omega
    rw [Chip.novaSt, Chip.showCore, Chip.rd_wr_ne _ _ (apart (by simp)), Chip.rd_wr_ne _ _ (apart (by simp)), Chip.novaSt]
  have off : (c.showCore i b).mayOff k = c.mayOff k := rfl
  simp only [Chip.allowedState, tol, core, off]

/-- The fields that a cluster's command writes. -/
def clusterFields (k : Nat) : List Fld := [Pwr.clState.nth k, Pwr.clIwake.nth k, Pwr.icore, Pwr.ballast]

/-- A wake shows the core rail's currents and its own. -/
def Chip.showWake (c : Chip) (k i b iw : Nat) : Chip := (c.showCore i b).wr (Pwr.clIwake.nth k) iw

theorem Chip.cluster_showWake (c : Chip) (i b iw : Nat) (k : Fin 64) : (c.showWake k i b iw).cluster k = c.cluster k := by
  rw [Chip.cluster, Chip.showWake, Chip.rd_wr_ne _ _ (clState_key_ne k).2.1]
  exact c.cluster_showCore i b k

theorem Chip.rd_clIwake_showWake (c : Chip) (i b : Nat) (iw : BitVec 8) (k : Fin 64) :
    (c.showWake k i b iw.toNat).rd (Pwr.clIwake.nth k) = iw.toNat := by
  rw [Chip.showWake, Chip.rd_wr_self]
  exact Nat.mod_eq_of_lt iw.isLt

theorem Chip.writes_showWake (c : Chip) (k i b iw : Nat) :
    Chip.Writes [Pwr.clIwake.nth k, Pwr.icore, Pwr.ballast] [] c (c.showWake k i b iw) :=
  (((Chip.Writes.refl c).wr (f := Pwr.icore) (by simp) i).wr (f := Pwr.ballast) (by simp) b).wr (by simp) iw

theorem Chip.writes_wake (c : Chip) (k i b iw st : Nat) :
    Chip.Writes (clusterFields k) [] c ((c.showWake k i b iw).wr (Pwr.clState.nth k) st) :=
  ((c.writes_showWake k i b iw).widen (by simp [clusterFields]) (List.nil_subset _)).wr (by simp [clusterFields]) st

/-- The wake of a cluster that takes no more: what it shows at the end of the command. -/
theorem Chip.wake_settle (c : Chip) (k : Fin 64) (i b : Nat) (iw : BitVec 8) {st : Nat} (h : st < 8) :
    ((c.showWake k i b iw.toNat).wr (Pwr.clState.nth k) st).settle.rd (Pwr.clState.nth k) = st ∧
    ((c.showWake k i b iw.toNat).wr (Pwr.clState.nth k) st).settle.rd (Pwr.clIwake.nth k) = iw.toNat := by
  refine ⟨(Chip.rd_clState_settle _ k).trans (Chip.rd_clState_wr _ k h), ?_⟩
  rw [Chip.rd_clIwake_settle, Chip.rd_wr_ne _ _ (clState_key_ne k).2.1.symm]
  exact c.rd_clIwake_showWake i b iw k

/-! ## A fault that is reported alone, logged or OFF (R407, R414) -/

/-- A fault that is OFF leaves the log. -/
theorem Chip.log_settle_off (c : Chip) {r : Report} (alone : c.reports = [r]) (off : c.effSev r = 0) : c.settle.fcu.log = c.fcu.log := by
  have one : c.ranked = [(c.effSev r, r)] := by simp [Chip.ranked, alone, insertReport]
  have first : c.collectAll = Chip.collect { c with reports := [] } (c.effSev r, r) := by
    rw [Chip.collectAll, one]
    rfl
  have kept := Chip.log_collect { c with reports := [] } (c.effSev r) r
  rw [if_pos off, ← first] at kept
  have none : c.collectAll.reports = [] := by
    rw [first, off]
    simp only [Chip.collect, if_true]
    split <;> rfl
  have settles : c.settle = c.collectAll.interrupts := by
    rw [Chip.settle, Chip.collectTwice, none, alone]
    rfl
  rw [settles, (idle_interrupts _).fcu]
  exact kept.log

/-- What a command that reports one real fault alone leaves in the collector. -/
theorem Chip.raises_log (c : Chip) (quiet : c.reports = []) {src : Nat} (page inst : Nat) (small : src < 256) {r : Report}
    (hr : r = ⟨src, page, inst, 0, true, false, true, [], false⟩) :
    if c.effSev r = 0 then (c.raise src page inst 0).settle.fcu.log = c.fcu.log
    else (Store.get {} (c.raise src page inst 0).settle.fcu.log (c.frd Fcu.logWptr) : LogEntry).src = src ∧
      (Store.get {} (c.raise src page inst 0).settle.fcu.log (c.frd Fcu.logWptr) : LogEntry).esev = c.effSev r ∧
      bit ((c.raise src page inst 0).settle.frd Fcu.unackReal) (src / 16) = true ∧
      (c.raise src page inst 0).settle.fcu.first.isSome = true := by
  subst hr
  have alone : (c.raise src page inst 0).reports = [⟨src, page, inst, 0, true, false, true, [], false⟩] := by
    show c.reports ++ _ = _
    rw [quiet]
    rfl
  have same := Chip.effSev_congr (c := c) (d := c.raise src page inst 0) rfl ⟨src, page, inst, 0, true, false, true, [], false⟩
  split
  next off => exact Chip.log_settle_off _ alone (same.trans off)
  next on =>
    have logged := same ▸ on
    have entry := Chip.log_settle _ alone logged
    obtain ⟨first, -, marked⟩ := Chip.recorded_settle _ alone logged
    have wptr : (c.raise src page inst 0).frd Fcu.logWptr = c.frd Fcu.logWptr := rfl
    rw [wptr] at entry
    rw [entry]
    exact ⟨rfl, same, marked rfl small, first⟩

/-! ## The monitors (R424, R461) -/

/-- What a rail's reading shows. -/
def Chip.showRail (c : Chip) (n mv : Nat) (w : Bool) : Chip :=
  let c := (c.wr (Pwr.railMv.nth n) mv).wr (Pwr.railInWin.nth n) (b2n w)
  c.wr Pwr.railsOk (b2n ((List.range 10).all (fun k => c.rd (Pwr.railInWin.nth k) = 1)))

theorem b2n_mod (b : Bool) : b2n b % 2 = 1 ↔ b = true := by cases b <;> decide

theorem Chip.showRail_shows (c : Chip) (n : Fin 10) (mv : BitVec 12) (w : Bool) :
    (c.showRail n mv.toNat w).rd (Pwr.railMv.nth n) = mv.toNat ∧ ((c.showRail n mv.toNat w).rd (Pwr.railInWin.nth n) = 1 ↔ w = true) ∧
    ((c.showRail n mv.toNat w).rd Pwr.railsOk = 1 ↔ ∀ k : Fin 10, (c.showRail n mv.toNat w).rd (Pwr.railInWin.nth k) = 1) ∧
    Chip.Writes [Pwr.railMv.nth n, Pwr.railInWin.nth n, Pwr.railsOk] [pwrPage] c (c.showRail n mv.toNat w) := by
  obtain ⟨own, mvOk, winOk⟩ := rail_key_ne n n
  unfold Chip.showRail
  dsimp only
  refine ⟨?_, ?_, ?_, (((Chip.Writes.refl c).wr (by simp) _).wr (by simp) _).wr (by simp) _⟩
  · rw [Chip.rd_wr_ne _ _ mvOk, Chip.rd_wr_ne _ _ own, Chip.rd_wr_self]
    exact Nat.mod_eq_of_lt mv.isLt
  · rw [Chip.rd_wr_ne _ _ winOk, Chip.rd_wr_self]
    exact b2n_mod w
  · rw [Chip.rd_wr_self]
    have shown (k : Fin 10) (d : Chip) (v : Nat) : (d.wr Pwr.railsOk v).rd (Pwr.railInWin.nth k) = d.rd (Pwr.railInWin.nth k) :=
      d.rd_wr_ne v (rail_key_ne k k).2.2
    simp only [shown]
    refine (b2n_mod _).trans ?_
    simp only [List.all_eq_true, List.mem_range, decide_eq_true_eq]
    exact ⟨fun h k => h k k.isLt, fun h k hk => h ⟨k, hk⟩⟩

/-- What follows the reading of a rail: its report and its sticky bit. -/
def Chip.judgeRail (c : Chip) (n mv : Nat) (w : Bool) : Chip :=
  if n = 0 then
    (if mv < 680 then (c.raise 0xE2 pwrPage 0 0).stick pwrPage 1
     else if 880 < mv then (c.raise 0xE3 pwrPage 0 0).stick pwrPage 2
     else c)
  else if w then c
  else (c.raise 0xE4 pwrPage n 0).stick pwrPage 0

theorem Chip.rd_judgeRail (c : Chip) (n mv : Nat) (w : Bool) (f : Fld) : (c.judgeRail n mv w).rd f = c.rd f := by
  unfold Chip.judgeRail
  split
  · split
    · rfl
    · split <;> rfl
  · split <;> rfl

theorem Chip.stickyWord_judgeRail (c : Chip) (n mv : Nat) (w : Bool) {p : Nat} (h : p ≠ pwrPage) :
    (c.judgeRail n mv w).stickyWord p = c.stickyWord p := by
  have other (d : Chip) (b : Nat) : (d.stick pwrPage b).stickyWord p = d.stickyWord p := Chip.stick_other _ _ _ h
  unfold Chip.judgeRail
  split
  · split
    · exact other _ _
    · split
      · exact other _ _
      · rfl
  · split
    · rfl
    · exact other _ _

theorem Chip.bit_stick (c : Chip) (p b : Nat) : bit ((c.stick p b).stickyWord p) b = true := by
  rw [Chip.stick_self]
  exact bit_setBit_true _ b

/-- The sticky bits of a rail out of its window. -/
theorem Chip.bit_judgeRail (c : Chip) (n mv : Nat) (w : Bool) :
    (n ≠ 0 → w = false → bit ((c.judgeRail n mv w).stickyWord pwrPage) 0 = true) ∧
    (n = 0 → mv < 680 → bit ((c.judgeRail n mv w).stickyWord pwrPage) 1 = true) ∧
    (n = 0 → 880 < mv → bit ((c.judgeRail n mv w).stickyWord pwrPage) 2 = true) := by
  refine ⟨fun other out => ?_, fun core low => ?_, fun core high => ?_⟩
  · rw [Chip.judgeRail, if_neg other, if_neg (by simp [out])]
    exact Chip.bit_stick _ _ _
  · rw [Chip.judgeRail, if_pos core, if_pos low]
    exact Chip.bit_stick _ _ _
  · rw [Chip.judgeRail, if_pos core, if_neg (by omega), if_pos high]
    exact Chip.bit_stick _ _ _

/-- A condition of the temperature is reported with its sticky bit. -/
def Chip.notes (c : Chip) (b : Bool) (src n : Nat) : Chip := if b then (c.raise src pwrPage 0 0).stick pwrPage n else c

theorem Chip.writes_notes (c : Chip) (b : Bool) (src n : Nat) : Chip.Writes [] [pwrPage] c (c.notes b src n) := by
  unfold Chip.notes
  split
  · exact ((Chip.Writes.refl c).raise _ _ _ _).stick (by simp) n
  · exact .refl c

theorem Chip.bit_notes (c : Chip) (src n : Nat) : bit ((c.notes true src n).stickyWord pwrPage) n = true := Chip.bit_stick _ _ _

theorem Chip.bit_notes_of_bit {c : Chip} {k : Nat} (h : bit (c.stickyWord pwrPage) k = true) (b : Bool) (src n : Nat) :
    bit ((c.notes b src n).stickyWord pwrPage) k = true := by
  unfold Chip.notes
  split
  · show bit (((c.raise src pwrPage 0 0).stick pwrPage n).stickyWord pwrPage) k = true
    rw [Chip.stick_self]
    exact bit_setBit_of_bit h n
  · exact h

/-- The three conditions of the temperature sensors (R424). -/
def Chip.judgeTj (c : Chip) (tj : Int) (warm : Bool) (sp : Nat) : Chip :=
  ((c.notes (warm && decide ((min 110 (c.frd Fcu.tjWarn) : Int) < tj)) 0xE0 6).notes (decide (115 < tj)) 0xE1 7).notes
    (decide (8 < sp)) 0xE8 5

theorem execTjMonitor_eq (tj : BitVec 10) (warm : Bool) (sp : BitVec 8) (s : State) :
    execTjMonitor tj warm sp s = act s (fun c => c.judgeTj tj.toInt warm sp.toNat) := by
  simp only [execTjMonitor, Chip.judgeTj, Chip.notes, Bool.and_eq_true, decide_eq_true_eq]

/-- A master's right to a word is the same for every bit of it, but on the host's page (R435). -/
theorem Chip.mayWrite_lo (c : Chip) (m : Master) {p : Nat} (h : p ≠ hostPage) (sp off lo lo' : Nat) :
    c.mayWrite m p sp off lo = c.mayWrite m p sp off lo' := by
  cases m <;> simp [Chip.mayWrite, h]

/-- Settles O53: each command writes its own entries of the page, and no reaction to a fault writes there. -/
theorem powerStates : Obligations.PowerStates := by
  intro s
  have wakes (k : Fin 64) (wait : Bool) (iw : BitVec 8) (icore ballast : BitVec 10) : exec (.clusterWake k wait iw icore ballast) s =
      act s (fun c => (fun c => if c.cluster k = 1 then c.wr (Pwr.clState.nth k) 0
        else if 2 ≤ c.cluster k ∧ c.cluster k ≤ 4 ∧ !c.power.waits.contains k.val then
          (if wait then
            (((c.inc Pwr.deferCnt).wr Pwr.deferring 1).raise 0xE5 pwrPage k 0).stick pwrPage 3 |>.updPower
              (fun x => { x with waits := x.waits ++ [k.val] })
           else c.beginExit k)
        else c) (c.showWake k icore.toNat ballast.toNat iw.toNat)) := rfl
  refine ⟨fun k icore ballast hs rest shallow => ?_, fun k wait iw icore ballast hs idle => ?_,
    fun k iw icore ballast hs low high alone => ?_, fun k iw icore ballast hs low high alone => ?_, fun k hs waited low high => ?_,
    fun k us hs waking none => ?_, fun m allows => ?_, fun n mv w hs => ?_, fun tj warm sp hs => ?_, fun r hs hr => ?_, fun r hs hr => ?_⟩
  · have places : (s.c.start.showCore icore.toNat ballast.toNat).cluster k <
        (s.c.start.showCore icore.toNat ballast.toNat).allowedState k ∧ (s.c.start.showCore icore.toNat ballast.toNat).cluster k < 4 := by
      have depth : (s.c.start.showCore icore.toNat ballast.toNat).cluster k = s.c.cluster k := s.c.start.cluster_showCore _ _ k
      rw [depth, Chip.allowedState_showCore]
      exact ⟨rest, Nat.lt_trans rest shallow⟩
    have same := s.c.start.allowedState_showCore icore.toNat ballast.toNat k
    have lasts : s.c.start.allowedState k < 4 := shallow
    have deepest : ¬s.c.start.allowedState k = 4 := Nat.ne_of_lt lasts
    have writes : Chip.Writes [Pwr.clState.nth k, Pwr.icore, Pwr.ballast] [] s.c.start
        ((s.c.start.showCore icore.toNat ballast.toNat).wr (Pwr.clState.nth k) (s.c.start.allowedState k)) :=
      (((Chip.Writes.refl _).wr (f := Pwr.icore) (by simp) _).wr (f := Pwr.ballast) (by simp) _).wr (by simp) _
    refine gives_of_body hs (exec_clusterSleep k icore ballast s)
      (d := (s.c.start.showCore icore.toNat ballast.toNat).wr (Pwr.clState.nth k) (s.c.start.allowedState k)) ?_ ⟨?_, ?_, ?_, writes.confined⟩
    · dsimp only
      rw [if_pos places, same, Chip.placeCluster, if_neg deepest]
    · exact (Chip.rd_clState_settle _ k).trans (Chip.rd_clState_wr _ k (Nat.lt_trans lasts (by decide)))
    · rw [Chip.rd_settle _ (by decide) rfl, Chip.rd_wr_ne _ _ ((clState_key_ne k).1 _ (by decide)).symm, Chip.showCore,
        Chip.rd_wr_ne _ _ (by decide), Chip.rd_wr_self]
      exact Nat.mod_eq_of_lt icore.isLt
    · rw [Chip.rd_settle _ (by decide) rfl, Chip.rd_wr_ne _ _ ((clState_key_ne k).1 _ (by decide)).symm, Chip.showCore,
        Chip.rd_wr_self]
      exact Nat.mod_eq_of_lt ballast.isLt
  · obtain ⟨state, shown⟩ := s.c.start.wake_settle k icore.toNat ballast.toNat iw (st := 0) (by decide)
    refine gives_of_body hs (wakes k wait iw icore ballast)
      (d := (s.c.start.showWake k icore.toNat ballast.toNat iw.toNat).wr (Pwr.clState.nth k) 0) (if_pos ?_)
      ⟨state, shown, (s.c.start.writes_wake k _ _ _ 0).confined⟩
    rw [Chip.cluster_showWake]
    exact idle
  · obtain ⟨state, shown⟩ := s.c.start.wake_settle k icore.toNat ballast.toNat iw (st := 5) (by decide)
    have sleeps := s.c.start.cluster_showWake icore.toNat ballast.toNat iw.toNat k
    have depth : s.c.start.cluster k = s.c.cluster k := rfl
    have free : (s.c.start.showWake k icore.toNat ballast.toNat iw.toNat).power.waits.contains k.val = false := alone
    refine gives_of_body hs (wakes k false iw icore ballast)
      (d := (s.c.start.showWake k icore.toNat ballast.toNat iw.toNat).wr (Pwr.clState.nth k) 5) ?_
      ⟨state, shown, (s.c.start.writes_wake k _ _ _ 5).confined⟩
    dsimp only
    rw [sleeps, depth, if_neg (by omega), if_pos ⟨low, high, by simp only [free]; rfl⟩, if_neg (by decide)]
    rfl
  · let b := s.c.start.showWake k icore.toNat ballast.toNat iw.toNat
    let d := (((b.inc Pwr.deferCnt).wr Pwr.deferring 1).raise 0xE5 pwrPage k 0).stick pwrPage 3 |>.updPower
      (fun x => { x with waits := x.waits ++ [k.val] })
    have sleeps : b.cluster k = s.c.cluster k := s.c.start.cluster_showWake icore.toNat ballast.toNat iw.toNat k
    have free : b.power.waits.contains k.val = false := alone
    have shows := s.c.start.writes_showWake k icore.toNat ballast.toNat iw.toNat
    have writes : Chip.Writes [Pwr.clIwake.nth k, Pwr.icore, Pwr.ballast, Pwr.deferCnt, Pwr.deferring] [pwrPage] s.c.start d :=
      ((((Chip.Writes.widen shows (by simp) (List.nil_subset _)).wr (f := Pwr.deferCnt) (by simp) _).wr (f := Pwr.deferring) (by simp) 1).raise
        _ _ _ _).stick (by simp) 3 |>.updPower _
    obtain ⟨state, fromIwake, apart⟩ := clState_key_ne k
    have settles := settled d
    refine gives_of_body hs (wakes k true iw icore ballast) (d := d) ?_ ⟨?_, ?_, ?_, ?_, ?_, writes.confined⟩
    · have asleep : ¬b.cluster k = 1 := by omega
      have waits : 2 ≤ b.cluster k ∧ b.cluster k ≤ 4 ∧ (!b.power.waits.contains k.val) = true := ⟨by omega, by omega, by rw [free]; rfl⟩
      exact (if_neg asleep).trans ((if_pos waits).trans (if_pos rfl))
    · rw [Chip.rd_clState_settle]
      exact (writes.rd _ (by
        simp only [List.mem_cons, List.not_mem_nil, or_false, forall_eq_or_imp, forall_eq]
        exact ⟨fromIwake, state _ (by decide), state _ (by decide), state _ (by decide), state _ (by decide)⟩))
    · rw [Chip.rd_settle _ (by decide) rfl]
      show ((b.inc Pwr.deferCnt).wr Pwr.deferring 1).rd Pwr.deferCnt = _
      rw [Chip.rd_wr_ne _ _ (by decide), Chip.rd_inc_self, shows.rd _ (by
        simp only [List.mem_cons, List.not_mem_nil, or_false, forall_eq_or_imp, forall_eq]
        exact ⟨apart _ (by decide), by decide, by decide⟩)]
      rfl
    · rw [Chip.rd_settle _ (by decide) rfl]
      exact Chip.rd_wr_self _ Pwr.deferring 1
    · show d.settle.power.waits = _
      rw [settles.power]
      rfl
    · exact Chip.bit_stickyWord_settle (Chip.bit_stick _ pwrPage 3)
  · let w := s.c.power.waits.filter (· ≠ k.val)
    let d := ((s.c.start.updPower (fun x => { x with waits := w })).wr Pwr.deferring (b2n (!w.isEmpty))).wr (Pwr.clState.nth k) 5
    have writes : Chip.Writes [Pwr.clState.nth k, Pwr.deferring] [] s.c.start d :=
      ((((Chip.Writes.refl _).updPower _).wr (f := Pwr.deferring) (by simp) _)).wr (by simp) 5
    obtain ⟨state, -, -⟩ := clState_key_ne k
    have sleeps : ((s.c.start.updPower (fun x => { x with waits := w })).wr Pwr.deferring (b2n (!w.isEmpty))).cluster k = s.c.cluster k :=
      Chip.rd_wr_ne _ _ (state _ (by decide))
    have waits : d.settle.power.waits = w := by
      rw [(settled d).power]
      rfl
    refine gives_of_body hs (exec_wakeDeferEnd k s) (d := d) ?_ ⟨?_, waits, ?_, writes.confined⟩
    · show (if s.c.power.waits.contains k.val = true then _ else _) = d
      rw [if_pos waited]
      exact if_pos (sleeps ▸ ⟨low, high⟩)
    · exact (Chip.rd_clState_settle _ k).trans (Chip.rd_clState_wr _ k (by decide))
    · show d.settle.rd Pwr.deferring = 1 ↔ d.settle.power.waits ≠ []
      rw [waits, Chip.rd_settle _ (by decide) rfl, Chip.rd_wr_ne _ _ (state _ (by decide)).symm, Chip.rd_wr_self]
      refine (b2n_mod _).trans ?_
      simp
  · let b := s.c.start.wr (Pwr.clState.nth k) 0
    have tol : b.effTol k = s.c.effTol k := by
      have word : b.rd Pwr.latTol = s.c.rd Pwr.latTol := Chip.rd_wr_ne _ _ ((clState_key_ne k).1 _ (by decide)).symm
      rw [Chip.effTol, word]
      rfl
    let l := if s.c.effTol k < us.toNat then ((b.inc Pwr.lateCnt).raise 0xE6 pwrPage k 0).stick pwrPage 4 else b
    have quiet (d : Chip) (h : d.power.starts = []) : d.startWaiting = d.updPower (fun x => { x with starts := [] }) := by
      simp [Chip.startWaiting, h, Chip.updPower]
    have starts : l.power.starts = [] := by
      simp only [l]
      split <;> exact none
    have writes : Chip.Writes [Pwr.clState.nth k, Pwr.lateCnt] [pwrPage] s.c.start l := by
      have exits : Chip.Writes [Pwr.clState.nth k, Pwr.lateCnt] [pwrPage] s.c.start b := (Chip.Writes.refl _).wr (by simp) 0
      simp only [l]
      split
      · exact ((exits.wr (f := Pwr.lateCnt) (by simp) _).raise _ _ _ _).stick (by simp) 4
      · exact exits
    obtain ⟨state, -, -⟩ := clState_key_ne k
    refine gives_of_body hs (exec_wakeComplete k us s) (d := l.updPower (fun x => { x with starts := [] })) ?_
      ⟨?_, ?_, fun late => Chip.bit_stickyWord_settle ?_, (writes.updPower _).confined⟩
    · have leaves : ¬s.c.start.cluster k ≠ 5 := not_not.mpr waking
      show (if s.c.start.cluster k ≠ 5 then s.c.start
        else (if b.effTol k < us.toNat then ((b.inc Pwr.lateCnt).raise 0xE6 pwrPage k 0).stick pwrPage 4 else b).startWaiting) = _
      rw [if_neg leaves, tol]
      exact quiet l starts
    · rw [Chip.rd_clState_settle]
      show l.rd _ = 0
      have done : b.rd (Pwr.clState.nth k) = 0 := Chip.rd_clState_wr _ k (by decide)
      simp only [l]
      split
      · exact (Chip.rd_wr_ne b _ (state Pwr.lateCnt (by decide))).trans done
      · exact done
    · rw [Chip.rd_settle _ (by decide) rfl]
      show l.rd _ = _
      have before : b.rd Pwr.lateCnt = s.c.rd Pwr.lateCnt := Chip.rd_wr_ne _ _ (state _ (by decide)).symm
      simp only [l]
      split
      · exact (Chip.rd_inc_self b Pwr.lateCnt).trans (by rw [before]; rfl)
      · exact before
    · show bit (l.stickyWord pwrPage) 4 = true
      simp only [l]
      rw [if_pos late]
      exact Chip.bit_stick _ _ _
  · have writes : Chip.Writes [Pwr.service] [] s.c.start (s.c.start.wr Pwr.service 1) := (Chip.Writes.refl _).wr (by simp) 1
    refine gives_of_body allows.1 (exec_serviceMode m s) (d := s.c.start.wr Pwr.service 1) ?_ ⟨?_, writes.confined⟩
    · obtain ⟨runs, may, seen, free⟩ := allows.2
      exact guarded_allows s m 0 pwrPage 0x40 1 false _ ⟨allows.1, runs, (s.c.mayWrite_lo m (by decide) _ _ _ _).trans may, seen, free⟩
    · rw [Chip.rd_settle _ (by decide) rfl]
      exact Chip.rd_wr_self _ Pwr.service 1
  · obtain ⟨shown, inWin, allOk, writes⟩ := s.c.start.showRail_shows n mv w
    let b := s.c.start.showRail n mv.toNat w
    obtain ⟨out, below, above⟩ := b.bit_judgeRail n mv.toNat w
    obtain ⟨okMv, okWin⟩ := rail_ok n
    have first : n = 0 ↔ n.val = 0 := Fin.ext_iff
    have reads {f : Fld} (hf : f.ok = true) (hp : reacts f.page = false) : (b.judgeRail n mv.toNat w).settle.rd f = b.rd f :=
      (Chip.rd_settle _ hf hp).trans (b.rd_judgeRail n mv.toNat w f)
    refine gives_of_body hs (exec_railMonitor n mv w s) (d := b.judgeRail n mv.toNat w) rfl
      ⟨(reads okMv rfl).trans shown, by rw [reads okWin rfl]; exact inWin, ?_,
        fun other bad => Chip.bit_stickyWord_settle (out (fun e => other (first.mpr e)) bad),
        fun core low => Chip.bit_stickyWord_settle (below (first.mp core) low),
        fun core high => Chip.bit_stickyWord_settle (above (first.mp core) high), ?_⟩
    · rw [reads (by decide) rfl, allOk]
      exact forall_congr' fun k => by rw [reads (rail_ok k).2 rfl]
    · refine Confined.of_body (fun f _ _ hf => (b.rd_judgeRail n mv.toNat w f).trans (writes.rd f hf)) (fun p _ hp => ?_)
      exact (b.stickyWord_judgeRail n mv.toNat w fun e => hp (by simp [e])).trans (writes.sticky p hp)
  · let warms := warm && decide ((min 110 (s.c.start.frd Fcu.tjWarn) : Int) < tj.toInt)
    let a := s.c.start.notes warms 0xE0 6
    let b := a.notes (decide (115 < tj.toInt)) 0xE1 7
    have writes : Chip.Writes [] [pwrPage] s.c.start (b.notes (decide (8 < sp.toNat)) 0xE8 5) :=
      ((s.c.start.writes_notes warms 0xE0 6).trans (a.writes_notes _ 0xE1 7)).trans (b.writes_notes _ 0xE8 5)
    refine gives_of_body hs ((exec_tjMonitor tj warm sp s).trans (execTjMonitor_eq tj warm sp s)) (d := b.notes (decide (8 < sp.toNat)) 0xE8 5)
      rfl ⟨fun hot => Chip.bit_stickyWord_settle ?_, fun warmed hot => Chip.bit_stickyWord_settle ?_,
        fun apart => Chip.bit_stickyWord_settle ?_, fun cool cold near => ?_, writes.confined⟩
    · have now : bit (b.stickyWord pwrPage) 7 = true := by
        simp only [b, hot, decide_true]
        exact Chip.bit_notes _ _ _
      exact Chip.bit_notes_of_bit now _ _ _
    · have exceeds : warms = true := by
        have limit : (min 110 (s.c.start.frd Fcu.tjWarn) : Int) ≤ 110 := min_le_left _ _
        simp only [warms, warmed, Bool.true_and, decide_eq_true_eq]
        omega
      have now : bit (a.stickyWord pwrPage) 6 = true := by
        simp only [a, exceeds]
        exact Chip.bit_notes _ _ _
      exact Chip.bit_notes_of_bit (Chip.bit_notes_of_bit now _ _ _) _ _ _
    · simp only [apart, decide_true]
      exact Chip.bit_notes _ _ _
    · have none : b.notes (decide (8 < sp.toNat)) 0xE8 5 = s.c.start := by
        simp [b, a, warms, Chip.notes, cold, Int.not_lt.mpr cool, Nat.not_lt.mpr near]
      show (Chip.settle _).stickyWord pwrPage = _
      rw [none, (settled _).stickyWord _ rfl]
      rfl
  · have logged := s.c.start.raises_log rfl devPage 0 (by decide) hr
    have same : s.c.start.effSev r = s.c.effSev r := Chip.effSev_congr rfl r
    rw [same] at logged
    exact gives_of_body hs (exec_hkLockstep s) rfl ⟨logged, ((Chip.Writes.refl _).raise _ _ _ _).confined⟩
  · have logged := s.c.start.raises_log rfl devPage 0 (by decide) hr
    have same : s.c.start.effSev r = s.c.effSev r := Chip.effSev_congr rfl r
    rw [same] at logged
    exact gives_of_body hs (exec_hkExcept s) rfl ⟨logged, ((Chip.Writes.refl _).raise _ _ _ _).confined⟩

end Sys2Proof.Machine
end

section
/-! SUPPORT. The mailbox (O49), and what a command leaves alone beside the pages that a reaction may write. -/

namespace Sys2Proof.Machine

/-! ## What an effect leaves alone -/

/-- Between two machines the fields at the places `gs` and the sticky words of the pages `ps` may differ, and what a reaction to a fault
may write. -/
structure Chip.Leaves (gs : List Fld) (ps : List Nat) (c d : Chip) : Prop where
  rd : ∀ f : Fld, f.ok = true → reacts f.page = false → (∀ g ∈ gs, f.key ≠ g.key) → d.rd f = c.rd f
  sticky : ∀ p, reactsSticky p = false → p ∉ ps → d.stickyWord p = c.stickyWord p

theorem Chip.Leaves.confined {gs : List Fld} {ps : List Nat} {s : State} {d : Chip} (h : Chip.Leaves gs ps s.c.start d) :
    Confined gs ps s { s with c := d.settle } := Confined.of_body h.rd h.sticky

section
variable {gs : List Fld} {ps : List Nat} {a b c : Chip}

theorem Chip.Leaves.refl (c : Chip) : Chip.Leaves gs ps c c := ⟨fun _ _ _ _ => rfl, fun _ _ _ => rfl⟩

theorem Chip.Leaves.trans (h : Chip.Leaves gs ps a b) (k : Chip.Leaves gs ps b c) : Chip.Leaves gs ps a c :=
  ⟨fun f hf hr hn => (k.rd f hf hr hn).trans (h.rd f hf hr hn), fun p hr hp => (k.sticky p hr hp).trans (h.sticky p hr hp)⟩

theorem Chip.Leaves.widen {hs : List Fld} {qs : List Nat} (h : Chip.Leaves gs ps a b) (k : gs ⊆ hs) (l : ps ⊆ qs) :
    Chip.Leaves hs qs a b :=
  ⟨fun f hf hr hn => h.rd f hf hr fun g m => hn g (k m), fun p hr hp => h.sticky p hr fun m => hp (l m)⟩

/-- A change of neither a register nor a sticky word. -/
theorem Chip.Leaves.keep (h : Chip.Leaves gs ps a b) (hf : c.flds = b.flds) (hs : c.sticky = b.sticky) : Chip.Leaves gs ps a c :=
  h.trans ⟨fun f _ _ _ => by rw [Chip.rd, hf, Chip.rd], fun p _ _ => by rw [Chip.stickyWord, hs, Chip.stickyWord]⟩

theorem Chip.Leaves.wr (h : Chip.Leaves gs ps a b) {f : Fld} (hf : f ∈ gs) (v : Nat) : Chip.Leaves gs ps a (b.wr f v) :=
  h.trans ⟨fun _ _ _ hn => b.rd_wr_ne v (hn f hf), fun _ _ _ => rfl⟩

/-- A field of a page that a reaction may write. -/
theorem Chip.Leaves.wrReacting (h : Chip.Leaves gs ps a b) {f : Fld} (hf : (f.ok && reacts f.page) = true) (v : Nat) :
    Chip.Leaves gs ps a (b.wr f v) := by
  obtain ⟨ok, react⟩ := Bool.and_eq_true_iff.mp hf
  exact h.trans ⟨fun g hg hr _ => b.rd_wr_other v ok hg (.inr (.inl fun e => by rw [e, react] at hr; exact absurd hr (by decide))),
    fun _ _ _ => rfl⟩

theorem Chip.Leaves.stick (h : Chip.Leaves gs ps a b) {p : Nat} (hp : p ∈ ps ∨ reactsSticky p = true) (n : Nat) :
    Chip.Leaves gs ps a (b.stick p n) := by
  refine h.trans ⟨fun _ _ _ _ => rfl, fun q hr hn => b.stick_other p n ?_⟩
  rintro rfl
  rcases hp with hp | hp
  · exact hn hp
  · exact absurd (hr.symm.trans hp) (by decide)

theorem Chip.Leaves.raise (h : Chip.Leaves gs ps a b) (src page inst detail : Nat) :
    Chip.Leaves gs ps a (b.raise src page inst detail) := h.keep rfl rfl

theorem Chip.Leaves.judge (h : Chip.Leaves gs ps a b) (src page inst detail : Nat) (bad inj : Bool) :
    Chip.Leaves gs ps a (b.judge src page inst detail bad inj) := by
  obtain ⟨u, r, e⟩ := b.judge_frame src page inst detail bad inj
  rw [e]
  exact h.keep rfl rfl

theorem Chip.Leaves.ite {p : Prop} [Decidable p] (h : p → Chip.Leaves gs ps a b) (k : ¬p → Chip.Leaves gs ps a c) :
    Chip.Leaves gs ps a (if p then b else c) := by
  split
  · exact h ‹_›
  · exact k ‹_›

theorem Chip.Leaves.foldl {β : Type} {step : Chip → β → Chip} {l : List β} (h : Chip.Leaves gs ps a b)
    (hstep : ∀ x ∈ l, ∀ d, Chip.Leaves gs ps d (step d x)) : Chip.Leaves gs ps a (l.foldl step b) :=
  List.foldlRecOn (motive := Chip.Leaves gs ps a) l step h fun d hd x hx => hd.trans (hstep x hx d)

/-- The end of a command writes the mailbox. -/
theorem Chip.Leaves.cmdEnd (h : Chip.Leaves gs ps a b) (hp : cmdPage ∈ ps) (op code : Nat) : Chip.Leaves gs ps a (b.cmdEnd op code) := by
  have begun := (h.wrReacting (f := Cmd.lastOp) rfl op).wrReacting (f := Cmd.go) rfl 0
  by_cases hc : code = 0
  · subst hc
    rw [Chip.cmdEnd_done]
    exact ((begun.wrReacting (f := Cmd.state) rfl 3).wrReacting (f := Cmd.refuse) rfl 0).stick (.inl hp) 0
  · rw [Chip.cmdEnd_refused _ _ hc]
    exact (((begun.wrReacting (f := Cmd.state) rfl 4).wrReacting (f := Cmd.refuse) rfl code).raise _ _ _ _).stick (.inl hp) 1

theorem Chip.Leaves.cmdRunning (h : Chip.Leaves gs ps a b) (op : Nat) : Chip.Leaves gs ps a (b.cmdRunning op) :=
  ((h.wrReacting (f := Cmd.lastOp) rfl op).wrReacting (f := Cmd.state) rfl 2).wrReacting (f := Cmd.refuse) rfl 0

end

/-! ## A read of one register at its port (R431, R432, R435) -/

/-- A request that its port takes is served, whatever the machine is that it finds. -/
theorem Chip.transact_free {c : Chip} {m : Master} {id : Nat} {write : Bool} (free : c.portHeld (masterNum m) write = false)
    (fewIds : (id :: (c.inFlight.filter (fun p => p.1 = masterNum m)).map Prod.snd).eraseDups.length ≤ idLimit (masterNum m))
    (first : ((c.inFlight.filter (fun p => p.1 = masterNum m)).map Prod.snd).filter (· = id) = []) (runs : c.masterRuns m = true)
    (mem : Mem) (addr : Nat) (f : Chip → Chip × Mem) :
    c.transact mem m addr id write f =
      (let r := f (c.wr (Cfab.outPeak.nth (masterNum m)) (c.nextPeak m))
       (if r.1.resp = .withheld then c.staysInFlight r.1 (masterNum m) id else r.1, r.2)) := by
  simp only [Chip.transact, Chip.nextPeak, runs, free, Nat.not_lt.mpr fewIds, first, Bool.false_eq_true, and_false, if_false, if_true,
    List.length_nil, inOrder_first]
  rfl

/-- A machine that serves a request shows the peak of its master's transactions, on a page that a reaction may write. -/
theorem Chip.Leaves.portServes {gs : List Fld} {ps : List Nat} {a b : Chip} (h : Chip.Leaves gs ps a b) (m : Master) :
    Chip.Leaves gs ps a (b.portServes m) := by
  have shown : ((Cfab.outPeak.nth (masterNum m)).ok && reacts (Cfab.outPeak.nth (masterNum m)).page) = true := by cases m <;> rfl
  exact (h.wrReacting shown (b.nextPeak m)).keep rfl rfl

/-- A permitted read of one register word below page 512 reaches the word alone. -/
theorem Chip.fabricRead_word {c : Chip} {m : Master} (runs : c.masterRuns m = true) (seen : m = .jtag → c.debugSeen = true) (mem : Mem)
    (id : Nat) {p off : Nat} (exists_ : pageExists p = true) (inPage : off < 4096) (aligned : off % 4 = 0) (plain : p ≠ hostPage)
    (may : Chip.mayRead { c with resp := .okay, rdata := [] } m p off = true) :
    c.fabricRead mem m (0x40000000 + 4096 * p + off) id 1 =
      (let x := Chip.regWordRead { c with resp := .okay, rdata := [] } mem m p off 0 0
       x.1.answered [x.2]) := by
  have small : p < 512 := lt_of_pageExists exists_
  have place : Chip.region { c with resp := .okay, rdata := [] } (0x40000000 + 4096 * p + off) = .reg (4096 * p + off) := by
    have offset : 0x40000000 + 4096 * p + off - 0x40000000 = 4096 * p + off := by omega
    rw [Chip.region, if_pos (by omega), offset]
  have page : (4096 * p + off) / 4096 = p := by omega
  have inside : (4096 * p + off) % 4096 = off := by omega
  have shape : regShape (4096 * p + off) 1 = true := by
    simp only [regShape, Bool.and_eq_true, decide_eq_true_eq, Bool.or_eq_true]
    omega
  have open_ : Chip.twBlocked { c with resp := .okay, rdata := [] } m p off 1 = none := if_neg fun h => plain h.1
  have runs' : Chip.masterRuns { c with resp := .okay, rdata := [] } m = true := runs
  have reach : c.fabricReach mem m (0x40000000 + 4096 * p + off) id 1 =
      (let x := Chip.regWordRead { c with resp := .okay, rdata := [] } mem m p off 0 0
       x.1.answered [x.2]) := by
    have range : List.range 1 = [0] := rfl
    simp only [Chip.fabricReach, c.debugOpen_seen m seen, runs', place, page, inside, shape, exists_, range, List.any_cons, List.any_nil,
      Nat.mul_zero, Nat.add_zero, may, open_, Bool.not_true, Bool.false_eq_true, Bool.or_false, if_false, Chip.regReads]
  rw [Chip.fabricRead, reach]
  exact if_neg (by simp [Chip.answered])

/-- A permitted read of one register that its port takes, whatever the machine is that it finds. -/
theorem Chip.transact_readWord {c : Chip} {m : Master} {id : Nat} (free : c.portHeld (masterNum m) false = false)
    (fewIds : (id :: (c.inFlight.filter (fun p => p.1 = masterNum m)).map Prod.snd).eraseDups.length ≤ idLimit (masterNum m))
    (first : ((c.inFlight.filter (fun p => p.1 = masterNum m)).map Prod.snd).filter (· = id) = []) (runs : c.masterRuns m = true)
    (seen : m = .jtag → c.debugSeen = true) (mem : Mem) {p off : Nat} (exists_ : pageExists p = true) (inPage : off < 4096)
    (aligned : off % 4 = 0) (plain : p ≠ hostPage) (may : (c.portServes m).mayRead m p off = true) :
    c.transact mem m (0x40000000 + 4096 * p + off) id false (fun d => (d.fabricRead mem m (0x40000000 + 4096 * p + off) id 1, mem)) =
      (let x := (c.portServes m).regWordRead mem m p off 0 0
       (x.1.answered [x.2], mem)) := by
  rw [Chip.transact_free free fewIds first runs]
  have read := Chip.fabricRead_word (c := c.wr (Cfab.outPeak.nth (masterNum m)) (c.nextPeak m)) (m := m) runs seen mem id exists_ inPage
    aligned plain may
  have served : { c.wr (Cfab.outPeak.nth (masterNum m)) (c.nextPeak m) with resp := .okay, rdata := [] } = c.portServes m := rfl
  rw [served] at read
  simp only [read]
  exact congrArg (·, mem) (if_neg (by decide : ¬Resp.okay = .withheld))

/-! ## The commands' own meanings -/

theorem exec_nonceDrawn (n : BitVec 64) (s : State) : exec (.nonceDrawn n) s = execNonceDrawn n s := rfl
theorem exec_cmdClaim (m : Master) (s : State) : exec (.cmdClaim m) s = execCmdClaim m s := rfl
theorem exec_cmdRelease (m : Master) (s : State) : exec (.cmdRelease m) s = execCmdRelease m s := rfl
theorem exec_cmdOwnerTimeout (s : State) : exec .cmdOwnerTimeout s = execCmdOwnerTimeout s := rfl
theorem exec_cmdGo (m : Master) (s : State) : exec (.cmdGo m) s = execCmdGo m s := rfl
theorem exec_cmdVerifyDone (s : State) : exec .cmdVerifyDone s = execCmdVerifyDone s := rfl
theorem exec_mailboxLockExpire (s : State) : exec .mailboxLockExpire s = execMailboxLockExpire s := rfl
theorem exec_compatSet (target : BitVec 16) (a0 : BitVec 32) (s : State) : exec (.compatSet target a0) s = execCompatSet target a0 s := rfl

/-! ## Claims (R445) -/

/-- The owner of the mailbox after a claim by master number `m`. -/
def Chip.claimedBy (c : Chip) (m : Nat) : Chip := c.updHost (fun h => { h with owner := some (h.owner.getD m) })

/-- A claim takes a free mailbox and tells the owner of another. -/
theorem Chip.cmdClaim_eq (c : Chip) (m : Master) : c.cmdClaim m = (c.claimedBy (masterNum m),
    (if c.host.owner.isNone then 3 else 2) + 4 * c.host.owner.getD (masterNum m)) := by
  unfold Chip.cmdClaim
  cases owner : c.host.owner with
  | none =>
    simp only [Chip.claimedBy, Chip.updHost, owner]
    rfl
  | some o =>
    have same : { c.host with owner := some (c.host.owner.getD (masterNum m)) } = c.host := by
      rw [owner, Option.getD_some, ← owner]
    have kept : c.claimedBy (masterNum m) = c := congrArg (fun h => { c with host := h }) same
    rw [kept]
    rfl

/-! ## Verification (R446 to R450) -/

/-- A command ends in a final state, for one fault, with its sticky bit. -/
def Chip.cmdFails (c : Chip) (st src n : Nat) : Chip := ((c.cmdFinal st).raise src cmdPage c.host.issuer 0).stick cmdPage n

theorem Chip.leaves_cmdFails (c : Chip) (st src n : Nat) : Chip.Leaves [] [cmdPage] c (c.cmdFails st src n) :=
  ((((Chip.Leaves.refl c).wrReacting (f := Cmd.state) rfl st).wrReacting (f := Cmd.go) rfl 0).raise _ _ _ _).stick (.inl (by simp)) n

theorem Chip.cmdFails_shows (c : Chip) {st : Nat} (h : st < 16) (src n : Nat) : (c.cmdFails st src n).rd Cmd.state = st ∧
    (c.cmdFails st src n).rd Cmd.go = 0 ∧ bit ((c.cmdFails st src n).stickyWord cmdPage) n = true := by
  refine ⟨?_, ?_, Chip.bit_stick _ _ _⟩
  · show ((c.wr Cmd.state st).wr Cmd.go 0).rd Cmd.state = st
    rw [Chip.rd_wr_ne _ _ (by decide), Chip.rd_wr_self]
    exact Nat.mod_eq_of_lt h
  · exact Chip.rd_wr_self _ Cmd.go 0

/-- A failure counts, and the sixteenth in a second is a fault of its own: the mailbox's result stands. -/
theorem Chip.cmdFailure_frame (c : Chip) : ∃ h r w, c.cmdFailure = { c with host := h, reports := r, sticky := w } ∧
    (∀ q ∈ r, q ∈ c.reports ∨ q.src = 0xF3) ∧ (∀ p, p ≠ cmdPage → c.cmdFailure.stickyWord p = c.stickyWord p) ∧
    (∀ b, bit (c.stickyWord cmdPage) b = true → bit (c.cmdFailure.stickyWord cmdPage) b = true) := by
  unfold Chip.cmdFailure
  dsimp only
  split
  · refine ⟨_, _, _, rfl, fun q hq => ?_, fun p hp => Chip.stick_other _ _ _ hp, fun b hb => ?_⟩
    · exact (List.mem_append.mp hq).imp_right fun m => by
        rw [List.mem_singleton.mp m]
    · rw [Chip.stick_self]
      exact bit_setBit_of_bit hb 4
  · exact ⟨_, _, _, rfl, fun q hq => .inl hq, fun _ _ => rfl, fun _ h => h⟩

/-- What a wrong tag or counter shows when the command ends: no reaction to class 15 writes the mailbox's state. -/
theorem Chip.cmdFailure_settles {c : Chip} (quiet : c.reports = []) {st src n : Nat} (h : st < 16) (class_ : src / 16 = 15) :
    (c.cmdFails st src n).cmdFailure.settle.rd Cmd.state = st ∧
    bit ((c.cmdFails st src n).cmdFailure.settle.stickyWord cmdPage) n = true ∧
    Chip.Leaves [] [cmdPage] c (c.cmdFails st src n).cmdFailure := by
  obtain ⟨state, -, shown⟩ := c.cmdFails_shows h src n
  obtain ⟨x, r, w, frame, named, other, stands⟩ := (c.cmdFails st src n).cmdFailure_frame
  have reports : (c.cmdFails st src n).reports = [⟨src, cmdPage, c.host.issuer, 0, true, false, true, [], false⟩] := by
    show c.reports ++ _ = _
    rw [quiet]
    rfl
  have class15 : ∀ q ∈ (c.cmdFails st src n).cmdFailure.reports, q.src / 16 ∈ [15] := by
    rw [frame]
    intro q hq
    rcases named q hq with own | lock
    · rw [reports, List.mem_singleton] at own
      rw [own]
      simpa using class_
    · simp [lock]
  have regs (f : Fld) : (c.cmdFails st src n).cmdFailure.rd f = (c.cmdFails st src n).rd f := by rw [frame]; rfl
  refine ⟨?_, Chip.bit_stickyWord_settle (stands n shown), ?_⟩
  · rw [(Chip.reacts_settle _ class15).rd _ (by decide), regs]
    exact state
  · exact (c.leaves_cmdFails st src n).trans ⟨fun f _ _ _ => regs f, fun p _ hp => other p fun e => hp (by simp [e])⟩

theorem Chip.cmdVerify_eq {c : Chip} (verifies : c.rd Cmd.state = 1) (open_ : c.on Cmd.locked = false) (named : 1 ≤ c.rd Cmd.opcode)
    (table : c.rd Cmd.opcode ≤ 7) (serves : c.slotServes (b2n c.otp.active1) = true) : c.cmdVerify =
      if !c.tagRight (b2n c.otp.active1) then (c.cmdFails 5 0xF0 2).cmdFailure
      else if c.rd Cmd.cntLo + 2 ^ 32 * c.rd Cmd.cntHi ≤ c.rd Cmd.lastLo + 2 ^ 32 * c.rd Cmd.lastHi then (c.cmdFails 6 0xF1 3).cmdFailure
      else ((c.wr Cmd.lastLo ((c.rd Cmd.cntLo + 2 ^ 32 * c.rd Cmd.cntHi) % 2 ^ 32)).wr Cmd.lastHi
        ((c.rd Cmd.cntLo + 2 ^ 32 * c.rd Cmd.cntHi) / 2 ^ 32)).cmdRunning (c.rd Cmd.opcode) := by
  have known : ¬(c.rd Cmd.opcode = 0 ∨ 0x0B < c.rd Cmd.opcode) := by omega
  have noRotation : ¬c.rd Cmd.opcode = 8 := by omega
  have started : ¬c.rd Cmd.state ≠ 1 := not_not.mpr verifies
  simp only [Chip.cmdVerify, started, if_false, open_, Bool.false_eq_true, known, serves, Bool.not_true, noRotation]
  rfl

/-! ## `COMPAT_SET` (R455) -/

/-- A change of `DEV_COMPAT` keeps to the pages that it touches, and reports nothing. -/
theorem Chip.setCompat_frame (c : Chip) (v : Nat) : (c.setCompat v).reports = c.reports ∧
    (c.setCompat v).rd Dev.compat = v % 16 ∧ Chip.Leaves [Dev.compat, Mix.fs, Mix.plen] [devPage] c (c.setCompat v) := by
  let a := c.wr Dev.compat v
  let b := if v % 16 = c.rd Dev.compat then a else a.stick devPage 1
  let d := if bit (c.rd Dev.compat) 3 ∧ !bit v 3 then b.wr Sched.plen 1 else b
  have first : b.reports = c.reports ∧ b.rd Dev.compat = v % 16 ∧ Chip.Leaves [Dev.compat, Mix.fs, Mix.plen] [devPage] c b := by
    have written : Chip.Leaves [Dev.compat, Mix.fs, Mix.plen] [devPage] c a := (Chip.Leaves.refl c).wr (by simp) v
    have value : a.rd Dev.compat = v % 16 := Chip.rd_wr_self c Dev.compat v
    simp only [b]
    split
    · exact ⟨rfl, value, written⟩
    · exact ⟨rfl, value, written.stick (.inl (by simp)) 1⟩
  obtain ⟨reports, value, leaves⟩ := first
  have second : d.reports = c.reports ∧ d.rd Dev.compat = v % 16 ∧ Chip.Leaves [Dev.compat, Mix.fs, Mix.plen] [devPage] c d := by
    simp only [d]
    split
    · exact ⟨reports, (b.rd_wr_ne 1 (by decide)).trans value, leaves.wrReacting (f := Sched.plen) rfl 1⟩
    · exact ⟨reports, value, leaves⟩
  obtain ⟨reports, value, leaves⟩ := second
  have shown (e : Chip) : ∃ u, e.showStatic = { e with fcu := u } := by
    unfold Chip.showStatic
    split <;> exact ⟨_, rfl⟩
  have whole : c.setCompat v = d.showRate.showStatic := rfl
  obtain ⟨u, hu⟩ := shown d.showRate
  rw [whole, hu]
  refine ⟨reports, ?_, ?_⟩
  · show d.showRate.rd Dev.compat = v % 16
    rw [Chip.showRate, Chip.rd_wr_ne _ _ (by decide), Chip.rd_wr_ne _ _ (by decide)]
    exact value
  · exact ((leaves.wr (f := Mix.fs) (by simp) _).wr (f := Mix.plen) (by simp) d.plenCode).keep rfl rfl

/-- The refusal codes of `COMPAT_SET`. -/
theorem Chip.compatCode_lt (c : Chip) (target a0 : Nat) : c.compatCode target a0 < 16 := by
  unfold Chip.compatCode
  dsimp only
  split
  · decide
  · split
    · decide
    · split
      · decide
      · split <;> decide

theorem Chip.compatCode_zero {c : Chip} {target a0 : Nat} (h : c.compatCode target a0 = 0) : a0 < 16 := by
  unfold Chip.compatCode at h
  by_contra large
  have refused : 16 ≤ a0 := Nat.not_lt.mp large
  simp only [refused, if_true] at h
  split at h <;> exact absurd h (by decide)

/-- A mirrored write that the replay buffer has room for is queued and sent. -/
theorem Chip.mirrorWrite_room {c : Chip} (room : c.replayFull = false) (m : Master) (sp p off data be : Nat) :
    c.mirrorWrite m sp p off data be = c.queueMirror (masterNum m) sp p off data be := if_neg (by simp [room])

/-- A cell that is given to LGTW changes no register. -/
theorem Chip.cellOut_frame (c : Chip) (kind seq : Nat) (ws : List Nat) :
    ∃ x, c.cellOut kind seq ws = { c with out := c.out ++ [.cell kind seq ws], twin := x } := by
  unfold Chip.cellOut
  dsimp only
  split <;> exact ⟨_, rfl⟩

/-- An item that is queued and sent shows how many cells wait. -/
theorem Chip.sendItem_frame (c : Chip) (it : MirrorItem) (kind : Nat) (ws : List Nat) : (c.sendItem it kind ws).mirrorQ = c.mirrorQ ++ [it] ∧
    (c.sendItem it kind ws).reports = c.reports ∧ (∀ gs ps, Twin.queued ∈ gs → Chip.Leaves gs ps c (c.sendItem it kind ws)) := by
  obtain ⟨x, hx⟩ := Chip.cellOut_frame { c with
    mirrorQ := c.mirrorQ ++ [it], mirrorSeq := (c.mirrorSeq + 1) % 65536, replay := c.replay ++ [(it.seq, kind, ws)] } kind it.seq ws
  simp only [Chip.sendItem, hx]
  refine ⟨rfl, rfl, fun gs ps hq => Chip.Leaves.wr ?_ hq _⟩
  exact .keep (.refl c) rfl rfl

/-- Settles O49: the mailbox's own registers stand on a page that a reaction to class 15 alone may write, and there it writes only the
lock. -/
theorem mailbox : Obligations.Mailbox := by
  intro s
  refine ⟨fun n hs fresh => ?_, fun m hs port runs seen may => ?_, fun m allows owns => ?_, fun hs idle1 idle2 => ?_,
    fun m allows owns idle => ?_, fun hs verifies locked => ?_, fun hs verifies open_ outside => ?_,
    fun hs verifies open_ named table serves => ?_, fun hs => ?_, fun target a0 hs alone => ?_, fun target a0 hs paired accepted room => ?_⟩
  · let d := ((s.c.start.wr Cmd.nonceLo (n.toNat % 2 ^ 32)).wr Cmd.nonceHi (n.toNat / 2 ^ 32)).updHost (fun h => { h with nonce := true })
    have leaves : Chip.Leaves [] [] s.c.start d :=
      (((Chip.Leaves.refl _).wrReacting (f := Cmd.nonceLo) rfl _).wrReacting (f := Cmd.nonceHi) rfl _).keep rfl rfl
    refine gives_of_body hs (exec_nonceDrawn n s) (d := d) (if_neg (by simp [fresh])) ⟨?_, ?_, ?_, leaves.confined⟩
    · rw [Chip.rd_settle_idle d rfl]
      show ((s.c.start.wr Cmd.nonceLo (n.toNat % 2 ^ 32)).wr Cmd.nonceHi (n.toNat / 2 ^ 32)).rd Cmd.nonceLo = _
      rw [Chip.rd_wr_ne _ _ (by decide), Chip.rd_wr_self]
      exact Nat.mod_mod _ _
    · rw [Chip.rd_settle_idle d rfl]
      refine (Chip.rd_wr_self _ Cmd.nonceHi _).trans (Nat.mod_eq_of_lt ?_)
      exact Nat.div_lt_of_lt_mul n.isLt
    · show d.settle.host.nonce = true
      rw [(settled d).host]
      rfl
  · have rights : (s.c.start.portServes m).mayRead m cmdPage 0x44 = true := by
      cases m
      case bi2c =>
        have same : (s.c.start.portServes .bi2c).on Mgmt.bi2cCmd = s.c.on Mgmt.bi2cCmd := by
          rw [Chip.on, Chip.rd_portServes _ _ (by decide)]
          rfl
        simp only [Chip.mayRead, same]
        exact may
      all_goals exact may
    obtain ⟨free, fewIds, first⟩ := port
    have read := Chip.transact_readWord (c := s.c.start) (m := m) (id := 0) free fewIds first runs seen s.mem (p := cmdPage) (off := 0x44)
      (by decide) (by decide) (by decide) (by decide) rights
    have claim : (s.c.start.portServes m).regWordRead s.mem m cmdPage 0x44 0 0 = (s.c.start.portServes m).cmdClaim m := rfl
    rw [claim, Chip.cmdClaim_eq] at read
    let d := ((s.c.start.portServes m).claimedBy (masterNum m)).answered
      [(if s.c.host.owner.isNone then 3 else 2) + 4 * s.c.host.owner.getD (masterNum m)]
    have leaves : Chip.Leaves [] [] s.c.start d := ((Chip.Leaves.refl _).portServes m).keep rfl rfl
    refine gives_of_body_mem hs (exec_cmdClaim m s) (d := d) (m := s.mem) read ⟨?_, ?_, leaves.confined⟩
    · show d.settle.host.owner = _
      rw [(settled d).host]
      rfl
    · show d.settle.rdata = _
      rw [(settled d).rdata]
      rfl
  · let d := s.c.start.updHost (fun h => { h with owner := none })
    have release : s.c.start.cmdRelease m = d := if_pos (by simp [Chip.ownsCmd, owns])
    have leaves : Chip.Leaves [] [] s.c.start d := .keep (.refl _) rfl rfl
    refine gives_of_body allows.1 (exec_cmdRelease m s) (d := d)
      ((trigger_allows s m cmdPage 0x40 1 false (fun c => c.cmdRelease m) allows).trans release) ⟨?_, leaves.confined⟩
    show d.settle.host.owner = none
    rw [(settled d).host]
    rfl
  · let d := s.c.start.updHost (fun h => { h with owner := none })
    have ends : ¬(s.c.start.rd Cmd.state = 1 ∨ s.c.start.rd Cmd.state = 2) := fun h => h.elim idle1 idle2
    have leaves : Chip.Leaves [] [] s.c.start d := .keep (.refl _) rfl rfl
    refine gives_of_body hs (exec_cmdOwnerTimeout s) (d := d) (if_neg ends) ⟨?_, leaves.confined⟩
    show d.settle.host.owner = none
    rw [(settled d).host]
    rfl
  · let b := ((s.c.start.wr Cmd.lastOp (s.c.rd Cmd.opcode)).wr Cmd.refuse 0).updHost (fun h => { h with issuer := masterNum m })
    let d := if s.c.host.nonce then (b.wr Cmd.state 1).wr Cmd.go 1 else b.wr Cmd.state 9
    have begins : s.c.start.cmdGo m = d := by
      refine if_neg ?_
      have own : s.c.start.ownsCmd m = true := by simp [Chip.ownsCmd, owns]
      have free : s.c.start.on Cmd.go = false := idle
      simp [own, free]
    have leaves : Chip.Leaves [] [] s.c.start d := by
      have shown : Chip.Leaves [] [] s.c.start b :=
        (((Chip.Leaves.refl _).wrReacting (f := Cmd.lastOp) rfl (s.c.rd Cmd.opcode)).wrReacting (f := Cmd.refuse) rfl 0).keep rfl rfl
      exact .ite (fun _ => (shown.wrReacting (f := Cmd.state) rfl 1).wrReacting (f := Cmd.go) rfl 1)
        (fun _ => shown.wrReacting (f := Cmd.state) rfl 9)
    have quiet : d.reports = [] := by simp only [d]; split <;> rfl
    have opcode : b.rd Cmd.lastOp = s.c.rd Cmd.opcode % 256 := by
      show ((s.c.start.wr Cmd.lastOp (s.c.rd Cmd.opcode)).wr Cmd.refuse 0).rd Cmd.lastOp = _
      rw [Chip.rd_wr_ne _ _ (by decide)]
      exact Chip.rd_wr_self _ Cmd.lastOp _
    refine gives_of_body allows.1 (exec_cmdGo m s) ((trigger_allows s m cmdPage 0x40 0 false (fun c => c.cmdGo m) allows).trans begins)
      ⟨?_, ?_, ?_, fun ready => ?_, leaves.confined⟩
    · rw [Chip.rd_settle_idle d quiet]
      simp only [d]
      split
      · rw [Chip.rd_wr_ne _ _ (by decide)]
        exact Chip.rd_wr_self _ Cmd.state 1
      · exact Chip.rd_wr_self _ Cmd.state 9
    · rw [Chip.rd_settle_idle d quiet]
      simp only [d]
      split
      · rw [Chip.rd_wr_ne _ _ (by decide), Chip.rd_wr_ne _ _ (by decide)]
        exact opcode
      · rw [Chip.rd_wr_ne _ _ (by decide)]
        exact opcode
    · show d.settle.host.issuer = _
      rw [(settled d).host]
      simp only [d]
      split <;> rfl
    · rw [Chip.rd_settle_idle d quiet]
      simp only [d]
      rw [if_pos ready]
      exact Chip.rd_wr_self _ Cmd.go 1
  · let d := s.c.start.cmdFinal 7
    have ends : s.c.start.cmdVerify = d := by
      have started : ¬s.c.start.rd Cmd.state ≠ 1 := not_not.mpr verifies
      exact (if_neg started).trans (if_pos locked)
    have leaves : Chip.Leaves [] [] s.c.start d :=
      ((Chip.Leaves.refl _).wrReacting (f := Cmd.state) rfl 7).wrReacting (f := Cmd.go) rfl 0
    refine gives_of_body hs (exec_cmdVerifyDone s) ends ⟨?_, ?_, leaves.confined⟩
    · rw [Chip.rd_settle_idle d rfl]
      show ((s.c.start.wr Cmd.state 7).wr Cmd.go 0).rd Cmd.state = 7
      rw [Chip.rd_wr_ne _ _ (by decide)]
      exact Chip.rd_wr_self _ Cmd.state 7
    · rw [Chip.rd_settle_idle d rfl]
      exact Chip.rd_wr_self _ Cmd.go 0
  · have ends : s.c.start.cmdVerify = s.c.start.cmdFails 8 0xF2 1 := by
      have started : ¬s.c.start.rd Cmd.state ≠ 1 := not_not.mpr verifies
      have unlocked : ¬s.c.start.on Cmd.locked = true := by
        have same : s.c.start.on Cmd.locked = false := open_
        simp [same]
      exact (if_neg started).trans ((if_neg unlocked).trans (if_pos outside))
    obtain ⟨state, go, shown⟩ := s.c.start.cmdFails_shows (st := 8) (by decide) 0xF2 1
    have alone : (s.c.start.cmdFails 8 0xF2 1).reports = [⟨0xF2, cmdPage, s.c.host.issuer, 0, true, false, true, [], false⟩] := rfl
    refine gives_of_body hs (exec_cmdVerifyDone s) ends ⟨?_, ?_, Chip.bit_stickyWord_settle shown, (s.c.start.leaves_cmdFails 8 0xF2 1).confined⟩
    · rw [Chip.rd_settle_class15 _ alone (by simp) (by decide)]
      exact state
    · rw [Chip.rd_settle_class15 _ alone (by simp) (by decide)]
      exact go
  · have verdict := Chip.cmdVerify_eq (c := s.c.start) verifies open_ named table serves
    have sameTag : s.c.start.tagRight (b2n s.c.start.otp.active1) = s.c.tagRight (b2n s.c.otp.active1) := rfl
    by_cases right : s.c.tagRight (b2n s.c.otp.active1) = true
    · rw [sameTag, right, Bool.not_true, if_neg (by decide)] at verdict
      simp only [right, if_true]
      by_cases old : s.c.rd Cmd.cntLo + 2 ^ 32 * s.c.rd Cmd.cntHi ≤ s.c.rd Cmd.lastLo + 2 ^ 32 * s.c.rd Cmd.lastHi
      · have ends := verdict.trans (if_pos old)
        obtain ⟨state, shown, leaves⟩ := Chip.cmdFailure_settles (c := s.c.start) rfl (st := 6) (src := 0xF1) (n := 3) (by decide) (by decide)
        simp only [old, if_true]
        exact gives_of_body hs (exec_cmdVerifyDone s) ends ⟨⟨state, shown⟩, leaves.confined⟩
      · have runs := verdict.trans (if_neg old)
        simp only [old, if_false]
        let b := (s.c.start.wr Cmd.lastLo ((s.c.rd Cmd.cntLo + 2 ^ 32 * s.c.rd Cmd.cntHi) % 2 ^ 32)).wr Cmd.lastHi
          ((s.c.rd Cmd.cntLo + 2 ^ 32 * s.c.rd Cmd.cntHi) / 2 ^ 32)
        have leaves : Chip.Leaves [] [cmdPage] s.c.start (b.cmdRunning (s.c.rd Cmd.opcode)) :=
          (((Chip.Leaves.refl _).wrReacting (f := Cmd.lastLo) rfl _).wrReacting (f := Cmd.lastHi) rfl _).cmdRunning _
        obtain ⟨state, opcode, -⟩ := b.rd_cmdRunning (s.c.rd Cmd.opcode)
        have small : s.c.rd Cmd.opcode % 256 = s.c.rd Cmd.opcode := Nat.mod_eq_of_lt (by omega)
        refine gives_of_body hs (exec_cmdVerifyDone s) (d := b.cmdRunning (s.c.rd Cmd.opcode)) runs ⟨⟨?_, ?_⟩, leaves.confined⟩
        · rw [Chip.rd_settle_idle _ rfl]
          exact state
        · rw [Chip.rd_settle_idle _ rfl]
          exact opcode.trans small
    · rw [Bool.not_eq_true] at right
      rw [sameTag, right, Bool.not_false, if_pos rfl] at verdict
      obtain ⟨state, shown, leaves⟩ := Chip.cmdFailure_settles (c := s.c.start) rfl (st := 5) (src := 0xF0) (n := 2) (by decide) (by decide)
      simp only [right, Bool.false_eq_true, if_false]
      exact gives_of_body hs (exec_cmdVerifyDone s) verdict ⟨⟨state, shown⟩, leaves.confined⟩
  · have leaves : Chip.Leaves [] [] s.c.start (s.c.start.wr Cmd.locked 0) := (Chip.Leaves.refl _).wrReacting (f := Cmd.locked) rfl 0
    refine gives_of_body hs (exec_mailboxLockExpire s) (d := s.c.start.wr Cmd.locked 0) rfl ⟨?_, leaves.confined⟩
    rw [Chip.rd_settle_idle _ rfl]
    exact Chip.rd_wr_self _ Cmd.locked 0
  · have code : s.c.start.compatCode target.toNat a0.toNat = s.c.compatCode target.toNat a0.toNat := rfl
    by_cases accepted : s.c.compatCode target.toNat a0.toNat = 0
    · obtain ⟨reports, value, leaves⟩ := s.c.start.setCompat_frame a0.toNat
      have lone : s.c.start.mirrors = false := alone
      have sets : s.c.start.compatSet target.toNat a0.toNat = (s.c.start.setCompat a0.toNat).cmdEnd 0x0A 0 := by
        have ok : ¬s.c.start.compatCode target.toNat a0.toNat ≠ 0 := not_not.mpr accepted
        simp only [Chip.compatSet, ok, lone, Bool.false_eq_true, if_false]
      have quiet : ((s.c.start.setCompat a0.toNat).cmdEnd 0x0A 0).reports = [] := reports
      have within_ : Within [cmdPage, devPage, mixPage] s { s with c := ((s.c.start.setCompat a0.toNat).cmdEnd 0x0A 0).settle } := by
        have whole := (leaves.widen (qs := [cmdPage, devPage]) (List.Subset.refl _) (by simp)).cmdEnd (by simp) 0x0A 0
        refine Within.of_body (fun f hf hr hp => whole.rd f hf hr fun g hg => ?_) (fun p hr hp => whole.sticky p hr fun m => hp ?_)
        · have placed : ∀ g ∈ [Dev.compat, Mix.fs, Mix.plen], g.ok = true ∧ g.page ∈ [cmdPage, devPage, mixPage] := by decide
          obtain ⟨ok, page⟩ := placed g hg
          exact Fld.key_ne hf ok (.inr (.inl fun e => hp (e ▸ page)))
        · exact (List.mem_cons.mp m).elim (fun e => by simp [e]) (fun e => by simp [List.mem_singleton.mp e])
      simp only [accepted, if_true]
      refine gives_of_body hs (exec_compatSet target a0 s) sets ⟨⟨?_, ?_, ?_⟩, within_⟩
      · rw [Chip.rd_settle_idle _ quiet, Chip.cmdEnd_done, Chip.rd_stick, Chip.rd_wr_ne _ _ (by decide), Chip.rd_wr_ne _ _ (by decide),
          Chip.rd_wr_ne _ _ (by decide), Chip.rd_wr_ne _ _ (by decide), value]
        exact Nat.mod_eq_of_lt (Chip.compatCode_zero accepted)
      · rw [Chip.rd_settle_idle _ quiet]
        exact Chip.rd_state_cmdEnd_done _ _
      · rw [Chip.rd_settle_idle _ quiet]
        exact Chip.rd_refuse_cmdEnd_done _ _
    · have refuses : s.c.start.compatSet target.toNat a0.toNat = s.c.start.cmdEnd 0x0A (s.c.compatCode target.toNat a0.toNat) := if_pos accepted
      obtain ⟨state, refuse, -⟩ := s.c.start.rd_cmdEnd_refused 0x0A accepted
      have small := s.c.compatCode_lt target.toNat a0.toNat
      generalize s.c.compatCode target.toNat a0.toNat = code_ at accepted refuses state refuse small
      have alone : (s.c.start.cmdEnd 0x0A code_).reports = [⟨0xF2, cmdPage, s.c.host.issuer, 0, true, false, true, [], false⟩] := by
        rw [Chip.cmdEnd_refused _ _ accepted]
        rfl
      have within_ : Within [cmdPage, devPage, mixPage] s { s with c := (s.c.start.cmdEnd 0x0A code_).settle } := by
        have whole := (Chip.Leaves.refl (gs := []) (ps := [cmdPage]) s.c.start).cmdEnd (by simp) 0x0A code_
        exact Within.of_body (fun f hf hr _ => whole.rd f hf hr (by simp)) (fun p hr hp => whole.sticky p hr fun m => hp (by simp_all))
      simp only [accepted, if_false]
      refine gives_of_body hs (exec_compatSet target a0 s) refuses ⟨⟨?_, ?_, ?_⟩, within_⟩
      · rw [Chip.rd_settle _ (by decide) rfl, Chip.cmdEnd_refused _ _ accepted, Chip.rd_stick, Chip.rd_raise, Chip.rd_wr_ne _ _ (by decide),
          Chip.rd_wr_ne _ _ (by decide), Chip.rd_wr_ne _ _ (by decide), Chip.rd_wr_ne _ _ (by decide)]
        rfl
      · rw [Chip.rd_settle_class15 _ alone (by simp) (by decide)]
        exact state
      · rw [Chip.rd_settle_class15 _ alone (by simp) (by decide), refuse]
        exact Nat.mod_eq_of_lt small
  · let it : MirrorItem := ⟨s.c.nextEpoch, s.c.mirrorSeq, 0, devPage, 0x48, a0.toNat, 15, 0xFFFFFFFF, masterNum (masterOf s.c.host.issuer), []⟩
    let b := s.c.start.sendItem it 1 [s.c.nextEpoch, 0 + 16 * 15 + 256 * devPage, 0x48, a0.toNat, 0xFFFFFFFF, masterNum (masterOf s.c.host.issuer)]
    obtain ⟨queue, reports, leaves⟩ := s.c.start.sendItem_frame it 1
      [s.c.nextEpoch, 0 + 16 * 15 + 256 * devPage, 0x48, a0.toNat, 0xFFFFFFFF, masterNum (masterOf s.c.host.issuer)]
    have sends : s.c.start.compatSet target.toNat a0.toNat = b.cmdEnd 0x0A 0 := by
      have ok : ¬s.c.start.compatCode target.toNat a0.toNat ≠ 0 := not_not.mpr accepted
      have pair : s.c.start.mirrors = true := paired
      have queued := Chip.mirrorWrite_room (c := s.c.start) room (masterOf s.c.start.host.issuer) 0 devPage 0x48 a0.toNat 15
      simp only [Chip.compatSet, ok, pair, if_false, if_true, queued]
      rfl
    have quiet : (b.cmdEnd 0x0A 0).reports = [] := reports
    have whole : Chip.Leaves [Twin.queued] [cmdPage] s.c.start (b.cmdEnd 0x0A 0) := (leaves _ _ (by simp)).cmdEnd (by simp) 0x0A 0
    refine gives_of_body hs (exec_compatSet target a0 s) sends ⟨?_, ?_, ?_, ?_, whole.confined⟩
    · exact whole.confined.regs Dev.compat rfl rfl (by decide)
    · rw [Chip.rd_settle_idle _ quiet]
      exact Chip.rd_state_cmdEnd_done _ _
    · rw [Chip.rd_settle_idle _ quiet]
      exact Chip.rd_refuse_cmdEnd_done _ _
    · show (b.cmdEnd 0x0A 0).settle.mirrorQ = _
      rw [(settled _).mirrorQ]
      exact queue

end Sys2Proof.Machine
end

section
/-! SUPPORT. What the selection of a reference, the loop's states, and a candidate's coming and going change (R328 to R348): the fields
of three pages, sticky words that a reaction to a fault may set too, and Meridian's own state; what they report is of class 10. -/

namespace Sys2Proof.Machine

/-- The pages that the selection and the loop write; a reaction to a fault may write them too. -/
def merPages : List Nat := [merSelPage, merLoopPage, merHoldPage]

theorem reacts_of_merPages {p : Nat} (h : p ∈ merPages) : reacts p = true :=
  (by decide : ∀ p ∈ merPages, reacts p = true) p h

/-- Between two machines lie only writes of the fields of `ps`, of the sticky words of `qs` and of MER_SEL and MER_LOOP, of Meridian's own
state, of free values, and reports of class 10. -/
structure Chip.Times (ps qs : List Nat) (c d : Chip) : Prop where
  rd : ∀ f : Fld, f.ok = true → f.page ∉ ps → d.rd f = c.rd f
  sticky : ∀ p, reactsSticky p = false → p ∉ qs → d.stickyWord p = c.stickyWord p
  set : ∀ p b, bit (c.stickyWord p) b = true → bit (d.stickyWord p) b = true
  reports : ∀ r ∈ d.reports, r ∈ c.reports ∨ r.src / 16 = 10
  frame : ∃ (F : Store Nat) (W : Store Nat) (r : List Report) (m : Mer) (n : Nat),
    d = { c with flds := F, sticky := W, reports := r, mer := m, free := n }

section
variable {ps qs : List Nat} {a b c : Chip}

theorem Chip.Times.refl (c : Chip) : Chip.Times ps qs c c :=
  ⟨fun _ _ _ => rfl, fun _ _ _ => rfl, fun _ _ h => h, fun _ h => .inl h, c.flds, c.sticky, c.reports, c.mer, c.free, rfl⟩

theorem Chip.Times.trans (h : Chip.Times ps qs a b) (k : Chip.Times ps qs b c) : Chip.Times ps qs a c where
  rd f hf hp := (k.rd f hf hp).trans (h.rd f hf hp)
  sticky p hr hp := (k.sticky p hr hp).trans (h.sticky p hr hp)
  set p i hi := k.set p i (h.set p i hi)
  reports r hr := (k.reports r hr).elim (h.reports r) .inr
  frame := by
    obtain ⟨_, _, _, _, _, rfl⟩ := h.frame
    obtain ⟨_, _, _, _, _, rfl⟩ := k.frame
    exact ⟨_, _, _, _, _, rfl⟩

theorem Chip.Times.widen {ps' qs' : List Nat} (h : Chip.Times ps qs a b) (k : ps ⊆ ps') (l : qs ⊆ qs') : Chip.Times ps' qs' a b :=
  { h with rd := fun f hf hp => h.rd f hf fun m => hp (k m), sticky := fun p hr hp => h.sticky p hr fun m => hp (l m) }

theorem Chip.Times.wr (h : Chip.Times ps qs a b) {f : Fld} (hf : f.ok = true) (hp : f.page ∈ ps) (v : Nat) :
    Chip.Times ps qs a (b.wr f v) :=
  h.trans { Chip.Times.refl (ps := ps) (qs := qs) b with
    rd := fun _ hx hn => b.rd_wr_other v hf hx (.inr (.inl (ne_of_mem_of_not_mem hp hn).symm)),
    frame := ⟨_, _, _, _, _, rfl⟩ }

theorem Chip.Times.stick (h : Chip.Times ps qs a b) {p : Nat} (hp : p ∈ qs ∨ reactsSticky p = true) (n : Nat) :
    Chip.Times ps qs a (b.stick p n) :=
  h.trans { Chip.Times.refl (ps := ps) (qs := qs) b with
    sticky := fun q hr hn => b.stick_other p n fun e => hp.elim (fun m => hn (e ▸ m)) fun react =>
      absurd (hr.symm.trans (e ▸ react)) (by decide),
    set := fun q i hi => by
      by_cases hq : q = p
      · subst hq
        rw [Chip.stick_self]
        exact bit_setBit_of_bit hi n
      · rw [Chip.stick_other _ _ _ hq]
        exact hi
    frame := ⟨_, _, _, _, _, rfl⟩ }

theorem Chip.Times.raise (h : Chip.Times ps qs a b) {src : Nat} (hs : src / 16 = 10) (page inst detail : Nat) :
    Chip.Times ps qs a (b.raise src page inst detail) :=
  h.trans { Chip.Times.refl b with
    reports := fun r hr => (List.mem_append.mp hr).imp_right fun m => by
      rw [List.mem_singleton.mp m]
      exact hs
    frame := ⟨_, _, _, _, _, rfl⟩ }

theorem Chip.Times.updMer (h : Chip.Times ps qs a b) (f : Mer → Mer) : Chip.Times ps qs a (b.updMer f) :=
  h.trans { Chip.Times.refl b with frame := ⟨_, _, _, _, _, rfl⟩ }

theorem Chip.Times.updCand (h : Chip.Times ps qs a b) (i : Nat) (f : Cand → Cand) : Chip.Times ps qs a (b.updCand i f) :=
  h.trans { Chip.Times.refl b with frame := ⟨_, _, _, _, _, rfl⟩ }

theorem Chip.Times.updPtp (h : Chip.Times ps qs a b) (x : Nat) (f : PtpInst → PtpInst) : Chip.Times ps qs a (b.updPtp x f) :=
  h.trans { Chip.Times.refl b with frame := ⟨_, _, _, _, _, rfl⟩ }

theorem Chip.Times.fresh (h : Chip.Times ps qs a b) : Chip.Times ps qs a b.fresh.2 :=
  h.trans { Chip.Times.refl b with frame := ⟨_, _, _, _, _, rfl⟩ }

theorem Chip.Times.divFree (h : Chip.Times ps qs a b) (n d : Int) : Chip.Times ps qs a (b.divFree n d).2 := by
  unfold Chip.divFree
  split
  · exact h
  · exact h.fresh

theorem Chip.Times.ite {p : Prop} [Decidable p] (h : p → Chip.Times ps qs a b) (k : ¬p → Chip.Times ps qs a c) :
    Chip.Times ps qs a (if p then b else c) := by
  split
  · exact h ‹_›
  · exact k ‹_›

theorem Chip.Times.foldl {β : Type} {step : Chip → β → Chip} {l : List β} (h : Chip.Times ps qs a b)
    (hstep : ∀ x ∈ l, ∀ d, Chip.Times ps qs d (step d x)) : Chip.Times ps qs a (l.foldl step b) :=
  List.foldlRecOn (motive := Chip.Times ps qs a) l step h fun d hd x hx => hd.trans (hstep x hx d)

/-- What is of the timing pages alone is of no page that a command is confined to. -/
theorem Chip.Times.leaves (h : Chip.Times merPages qs a b) : Chip.Leaves [] qs a b :=
  ⟨fun f hf hr _ => h.rd f hf fun m => absurd (hr.symm.trans (reacts_of_merPages m)) (by decide), h.sticky⟩

theorem Chip.Times.frd (h : Chip.Times ps qs a b) (f : Fld) : b.frd f = a.frd f := by
  obtain ⟨_, _, _, _, _, rfl⟩ := h.frame
  rfl

end

/-- What is of Meridian's own state beside what a selection and the loop decide. -/
def Mer.undecided (m : Mer) : Mer :=
  { m with drive := 0, pend := none, lastLost := 0, clean := false, target := 0, fromHold := false, aged := false, bw := 0 }

/-- Between two machines lies no more than a selection and the states of the loop. -/
structure Chip.Steers (c d : Chip) : Prop extends Chip.Times merPages [] c d where
  mer : d.mer.undecided = c.mer.undecided

section
variable {a b c : Chip}

theorem Chip.Steers.refl (c : Chip) : Chip.Steers c c := ⟨.refl c, rfl⟩

theorem Chip.Steers.trans (h : Chip.Steers a b) (k : Chip.Steers b c) : Chip.Steers a c :=
  ⟨h.toTimes.trans k.toTimes, k.mer.trans h.mer⟩

theorem Chip.Steers.wr (h : Chip.Steers a b) {f : Fld} (hf : (f.ok && decide (f.page ∈ merPages)) = true) (v : Nat) :
    Chip.Steers a (b.wr f v) := by
  obtain ⟨ok, page⟩ := Bool.and_eq_true_iff.mp hf
  exact ⟨h.toTimes.wr ok (of_decide_eq_true page) v, h.mer⟩

theorem Chip.Steers.stick (h : Chip.Steers a b) {p : Nat} (hp : reactsSticky p = true) (n : Nat) : Chip.Steers a (b.stick p n) :=
  ⟨h.toTimes.stick (.inr hp) n, h.mer⟩

theorem Chip.Steers.raise (h : Chip.Steers a b) {src : Nat} (hs : src / 16 = 10) (page inst detail : Nat) :
    Chip.Steers a (b.raise src page inst detail) := ⟨h.toTimes.raise hs page inst detail, h.mer⟩

theorem Chip.Steers.updMer (h : Chip.Steers a b) {f : Mer → Mer} (hf : (f b.mer).undecided = b.mer.undecided) :
    Chip.Steers a (b.updMer f) := ⟨h.toTimes.updMer f, hf.trans h.mer⟩

theorem Chip.Steers.ite {p : Prop} [Decidable p] (h : p → Chip.Steers a b) (k : ¬p → Chip.Steers a c) :
    Chip.Steers a (if p then b else c) := by
  split
  · exact h ‹_›
  · exact k ‹_›

theorem Chip.Steers.showQlOut (h : Chip.Steers a b) : Chip.Steers a b.showQlOut := h.wr rfl _

theorem Chip.Steers.endHoldover (h : Chip.Steers a b) : Chip.Steers a b.endHoldover := (h.wr rfl 0).updMer rfl

theorem Chip.Steers.setBw (h : Chip.Steers a b) (bw : Nat) : Chip.Steers a (b.setBw bw) :=
  Chip.Steers.wr (h.updMer (f := fun m => { m with bw := bw }) rfl) rfl _

theorem Chip.Steers.enterTrack (h : Chip.Steers a b) (bw : Nat) : Chip.Steers a (b.enterTrack bw) :=
  Chip.Steers.setBw ((h.wr (f := MerLoop.state) rfl 3).stick rfl 3) bw

theorem Chip.Steers.halve (h : Chip.Steers a b) (bw : Nat) : Chip.Steers a (b.halve bw) :=
  .ite (fun _ => h.enterTrack _) (fun _ => h.setBw _)

theorem Chip.Steers.enterNarrow (h : Chip.Steers a b) (bw : Nat) : Chip.Steers a (b.enterNarrow bw) :=
  .ite (fun _ => h.enterTrack _) (fun _ => Chip.Steers.halve (h.wr (f := MerLoop.state) rfl 2) bw)

theorem Chip.Steers.enterAcquire (h : Chip.Steers a b) (fromHold : Bool) : Chip.Steers a (b.enterAcquire fromHold) := by
  unfold Chip.enterAcquire
  exact Chip.Steers.showQlOut (Chip.Steers.setBw (Chip.Steers.updMer
    ((h.endHoldover.wr (f := MerLoop.state) rfl 1).wr (f := MerLoop.regimeNow) rfl _) rfl) _)

theorem Chip.Steers.loopToFreerun (h : Chip.Steers a b) : Chip.Steers a b.loopToFreerun := by
  have left := (((h.endHoldover.wr (f := MerLoop.state) rfl 0).wr (f := MerSel.sel) rfl 8).wr (f := MerSel.manual) rfl 0).wr
    (f := MerSel.fallback) rfl 0
  have run := left.updMer (f := fun m => { m with pend := none, drive := 8, clean := false, target := 0 }) rfl
  exact (((run.wr (f := MerSel.qlOut) rfl 14).raise rfl merLoopPage (b.rd MerSel.sel) 0).stick rfl 1).stick rfl 0

theorem Chip.Steers.loopToHoldover (h : Chip.Steers a b) : Chip.Steers a b.loopToHoldover := by
  have left := ((((h.wr (f := MerLoop.state) rfl 4).wr (f := MerSel.sel) rfl 15).wr (f := MerHold.age) rfl 0).wr (f := MerSel.manual)
    rfl 0).wr (f := MerSel.fallback) rfl 0
  have held (t : Int) := left.updMer (f := fun m => { m with pend := none, aged := false, clean := false, target := t }) rfl
  exact ((((held _).wr (f := MerSel.qlOut) rfl _).raise rfl merLoopPage (b.rd MerSel.sel) 0).stick rfl 0).stick rfl 0

theorem Chip.Steers.selectCand (h : Chip.Steers a b) (n : Nat) (manual fallback : Bool) : Chip.Steers a (b.selectCand n manual fallback) := by
  unfold Chip.selectCand
  exact Chip.Steers.stick (Chip.Steers.showQlOut (Chip.Steers.updMer
    (((h.wr (f := MerSel.sel) rfl n).wr (f := MerSel.manual) rfl _).wr (f := MerSel.fallback) rfl _) rfl)) rfl 0

theorem Chip.Steers.dropPending (h : Chip.Steers a b) : Chip.Steers a b.dropPending := by
  have dropped (v : Nat) := (((h.updMer (f := fun m => { m with pend := none, fromHold := false }) rfl).wr (f := MerSel.sel) rfl v).wr
    (f := MerSel.manual) rfl 0).wr (f := MerSel.fallback) rfl 0
  unfold Chip.dropPending
  exact .ite (fun _ => (dropped _).showQlOut) (fun _ => (dropped _).showQlOut.stick rfl 0)

theorem Chip.Steers.applySel (h : Chip.Steers a b) (n : Nat) (manual fallback : Bool) : Chip.Steers a (b.applySel n manual fallback) := by
  have shown {d : Chip} (k : Chip.Steers a d) : Chip.Steers a ((d.wr MerSel.manual (b2n manual)).wr MerSel.fallback (b2n fallback)) :=
    (k.wr rfl _).wr rfl _
  unfold Chip.applySel
  refine .ite (fun _ => .ite (fun _ => h.dropPending) (fun _ => h.loopToHoldover)) (fun _ => .ite (fun _ => ?_) (fun _ => .ite (fun _ => ?_)
    (fun _ => h.selectCand n manual fallback)))
  · exact shown (.ite (fun _ => h.dropPending) (fun _ => h.loopToFreerun))
  · exact shown h.showQlOut

theorem Chip.Steers.reselect (h : Chip.Steers a b) : Chip.Steers a b.reselect := by
  unfold Chip.reselect
  refine .ite (fun _ => ?_) (fun _ => h.applySel _ _ _)
  have noted : Chip.Steers a (if b.rd MerSel.sel < 8 ∧ !b.eligible (b.rd MerSel.sel) then
      b.updMer (fun m => { m with lastLost := b.rd MerSel.sel }) else b) := .ite (fun _ => h.updMer rfl) (fun _ => h)
  exact .ite (fun _ => noted.applySel _ _ _) (fun _ => noted.applySel _ _ _)

/-- Candidates' registers stand on their page. -/
theorem cand_field {f : Fld} {i : Nat} (hi : i < 9)
    (hf : (decide (f.page = merSelPage) && decide (f.lo < 32) && decide (f.off + 9 * f.stride < 67108864)) = true) :
    ((f.nth i).ok && decide ((f.nth i).page ∈ merPages)) = true := by
  simp only [Bool.and_eq_true, decide_eq_true_eq] at hf
  obtain ⟨⟨page, lo⟩, off⟩ := hf
  have room : i * f.stride ≤ 9 * f.stride := Nat.mul_le_mul_right _ hi.le
  have ok : (f.nth i).ok = true := Fld.nth_ok (by rw [page]; decide) lo (by omega)
  have here : (f.nth i).page ∈ merPages := by
    show f.page ∈ merPages
    rw [page]
    decide
  rw [ok, decide_eq_true here]
  rfl

theorem Chip.Steers.showCand (h : Chip.Steers a b) {i : Nat} (hi : i < 9) : Chip.Steers a (b.showCand i) :=
  (h.wr (cand_field (f := MerSel.ql) hi rfl) _).wr (cand_field (f := MerSel.cstate) hi rfl) _

theorem Chip.Steers.candChanged (h : Chip.Steers a b) {i : Nat} (hi : i < 9) : Chip.Steers a (b.candChanged i) :=
  (h.showCand hi).reselect

end

/-! ## Candidates come and go -/

section
variable {ps qs : List Nat} {a b c : Chip}

theorem Chip.Times.steers (h : Chip.Times merPages qs a b) (k : Chip.Steers b c) : Chip.Times merPages qs a c :=
  h.trans (k.toTimes.widen (List.Subset.refl _) (List.nil_subset _))

theorem Chip.Times.candPresent (h : Chip.Times merPages qs a b) {i : Nat} (hi : i < 9) : Chip.Times merPages qs a (b.candPresent i) := by
  unfold Chip.candPresent
  refine .ite (fun _ => h) (fun _ => ?_)
  refine Chip.Times.steers ?_ (Chip.Steers.candChanged (.refl _) hi)
  exact .ite (fun _ => (h.updCand _ _).updMer _) (fun _ => h.updCand _ _)

theorem Chip.Times.candField (h : Chip.Times merPages qs a b) {f : Fld} {i : Nat} (hi : i < 9)
    (hf : (decide (f.page = merSelPage) && decide (f.lo < 32) && decide (f.off + 9 * f.stride < 67108864)) = true) (v : Nat) :
    Chip.Times merPages qs a (b.wr (f.nth i) v) := by
  obtain ⟨ok, page⟩ := Bool.and_eq_true_iff.mp (cand_field hi hf)
  exact h.wr ok (of_decide_eq_true page) v

/-- A candidate that is lost, before its loss is reported. -/
def Chip.loses (c : Chip) (i : Nat) : Chip :=
  let c := c.updCand i (fun x => { x with present := false, st := 0, hardRun := 0, eval := false })
  let c := c.updMer (fun m => { m with apart := m.apart.filter (fun p => p.1 ≠ i && p.2.1 ≠ i), stopped := m.stopped || i = 8 })
  let c := c.wr MerSel.disagree (b2n (!c.mer.apart.isEmpty))
  (c.wr (MerSel.drift.nth i) 0).wr (MerSel.freq.nth i) 0

/-- The report of a lost candidate, and of `LOSC_IN`. -/
def Chip.reportsLoss (c : Chip) (i : Nat) (sel : Prop) [Decidable sel] : Chip :=
  let c := if sel then (c.raise 0xA0 merSelPage i 0).stick merSelPage 1 else (c.raise 0xA1 merSelPage i 0).stick merSelPage 2
  if i = 8 then (c.raise 0xAB merLoopPage 8 0).stick merLoopPage 5 else c

theorem Chip.candLost_eq (c : Chip) (i : Nat) :
    c.candLost i = if !(c.cand i).present then c else ((c.loses i).reportsLoss i (c.rd MerSel.sel = i)).candChanged i := rfl

theorem Chip.Times.loses (h : Chip.Times merPages qs a b) {i : Nat} (hi : i < 9) : Chip.Times merPages qs a (b.loses i) :=
  Chip.Times.candField (Chip.Times.candField (Chip.Times.wr ((h.updCand _ _).updMer _) (f := MerSel.disagree) rfl (by decide) _) hi rfl 0) hi
    rfl 0

theorem Chip.Times.reportsLoss (h : Chip.Times merPages qs a b) (i : Nat) (sel : Prop) [Decidable sel] :
    Chip.Times merPages qs a (b.reportsLoss i sel) := by
  have told : Chip.Times merPages qs a
      (if sel then (b.raise 0xA0 merSelPage i 0).stick merSelPage 1 else (b.raise 0xA1 merSelPage i 0).stick merSelPage 2) :=
    .ite (fun _ => (h.raise rfl _ _ _).stick (.inr rfl) 1) (fun _ => (h.raise rfl _ _ _).stick (.inr rfl) 2)
  exact .ite (fun _ => (told.raise rfl _ _ _).stick (.inr rfl) 5) (fun _ => told)

theorem Chip.Times.candLost (h : Chip.Times merPages qs a b) {i : Nat} (hi : i < 9) : Chip.Times merPages qs a (b.candLost i) := by
  rw [Chip.candLost_eq]
  exact .ite (fun _ => h) (fun _ => ((h.loses hi).reportsLoss i _).steers (Chip.Steers.candChanged (.refl _) hi))

/-! ## PTP instances (R355) -/

/-- The pages that a change of a PTP instance's state writes. -/
def ptpPages : List Nat := ptpPage :: merPages

theorem Chip.Times.ptpCand (h : Chip.Times ptpPages [ptpPage] a b) {x : Nat} (hx : x < 2) : Chip.Times ptpPages [ptpPage] a (b.ptpCand x) := by
  have onPages {d : Chip} (k : Chip.Times merPages [] b d) : Chip.Times ptpPages [ptpPage] a d :=
    h.trans (k.widen (by simp [ptpPages]) (List.nil_subset _))
  unfold Chip.ptpCand
  exact .ite (fun _ => onPages (Chip.Times.candPresent (.refl b) (by omega))) (fun _ => onPages (Chip.Times.candLost (.refl b) (by omega)))

/-- Registers of a PTP instance stand on their page. -/
theorem ptp_ok {f : Fld} {x : Nat} (hx : x < 2)
    (hf : (decide (f.page = ptpPage) && decide (f.lo < 32) && decide (f.off + 2 * f.stride < 67108864)) = true) :
    (f.nth x).ok = true ∧ (f.nth x).page = ptpPage := by
  simp only [Bool.and_eq_true, decide_eq_true_eq] at hf
  obtain ⟨⟨page, lo⟩, off⟩ := hf
  have room : x * f.stride ≤ 2 * f.stride := Nat.mul_le_mul_right _ hx.le
  exact ⟨Fld.nth_ok (by rw [page]; decide) lo (by omega), page⟩

theorem Chip.Times.ptpField (h : Chip.Times ptpPages [ptpPage] a b) {f : Fld} {x : Nat} (hx : x < 2)
    (hf : (decide (f.page = ptpPage) && decide (f.lo < 32) && decide (f.off + 2 * f.stride < 67108864)) = true) (v : Nat) :
    Chip.Times ptpPages [ptpPage] a (b.wr (f.nth x) v) := by
  obtain ⟨ok, page⟩ := ptp_ok hx hf
  exact h.wr ok (by rw [page]; decide) v

/-- A PTP instance enters a state, before its candidate follows. -/
def Chip.entersPtp (c : Chip) (x st : Nat) : Chip :=
  let c := (c.wr (Ptp.iState.nth x) st).updPtp x (fun p => { p with run := 0, offs := [], adjRun := 0 })
  let c := if st = 3 then (c.stick ptpPage 8).updPtp x (fun p => { p with base := p.ofs }) else c
  let c := c.updMer (fun m => { m with servo := m.servo && (st = 3 || c.rd Ptp.steer ≠ x) })
  let c := if st = 2 ∨ st = 3 then c
    else (c.wr (Ptp.iRefusing.nth x) 0).updPtp x (fun p => { p with refuseRun := 0 })
  c.wr Ptp.following (b2n c.rateFollows)

theorem Chip.setPtp_eq (c : Chip) (x st : Nat) :
    c.setPtp x st = if c.rd (Ptp.iState.nth x) = st then c else (c.entersPtp x st).ptpCand x := rfl

theorem Chip.Times.entersPtp (h : Chip.Times ptpPages [ptpPage] a b) {x : Nat} (hx : x < 2) (st : Nat) :
    Chip.Times ptpPages [ptpPage] a (b.entersPtp x st) := by
  have began := (h.ptpField (f := Ptp.iState) hx rfl st).updPtp x (fun p => { p with run := 0, offs := [], adjRun := 0 })
  have shown := Chip.Times.ite (p := st = 3) (fun _ => (began.stick (p := ptpPage) (.inl (by simp)) 8).updPtp x
    (fun p => { p with base := p.ofs })) (fun _ => began)
  unfold Chip.entersPtp
  dsimp only
  generalize (if st = 3 then _ else _) = d at shown ⊢
  have kept := shown.updMer (fun m => { m with servo := m.servo && (st = 3 || d.rd Ptp.steer ≠ x) })
  refine Chip.Times.wr ?_ (f := Ptp.following) rfl (by decide) _
  exact .ite (fun _ => kept) (fun _ => (kept.ptpField (f := Ptp.iRefusing) hx rfl 0).updPtp x _)

theorem Chip.Times.setPtp (h : Chip.Times ptpPages [ptpPage] a b) {x : Nat} (hx : x < 2) (st : Nat) :
    Chip.Times ptpPages [ptpPage] a (b.setPtp x st) := by
  rw [Chip.setPtp_eq]
  exact .ite (fun _ => h) (fun _ => (h.entersPtp hx st).ptpCand hx)

end

end Sys2Proof.Machine
end

section
/-! SUPPORT. The flash banks and the fuses (O50), and what a WARM reset leaves alone. -/

namespace Sys2Proof.Machine

/-! ## What a WARM reset leaves alone (R472, R473) -/

/-- Between two machines lie neither a fuse, a change of the resets' own state, nor a report. -/
structure Chip.Spares (c d : Chip) : Prop where
  otp : d.otp = c.otp
  power : d.power = c.power
  reports : d.reports = c.reports

section
variable {a b c : Chip}

theorem Chip.Spares.refl (c : Chip) : Chip.Spares c c := ⟨rfl, rfl, rfl⟩

theorem Chip.Spares.trans (h : Chip.Spares a b) (k : Chip.Spares b c) : Chip.Spares a c :=
  ⟨k.otp.trans h.otp, k.power.trans h.power, k.reports.trans h.reports⟩

theorem Chip.Spares.ite {p : Prop} [Decidable p] (h : p → Chip.Spares a b) (k : ¬p → Chip.Spares a c) :
    Chip.Spares a (if p then b else c) := by
  split
  · exact h ‹_›
  · exact k ‹_›

theorem Chip.Spares.foldl {β : Type} {step : Chip → β → Chip} (l : List β) (h : Chip.Spares a b)
    (hstep : ∀ d x, Chip.Spares d (step d x)) : Chip.Spares a (l.foldl step b) :=
  List.foldlRecOn (motive := Chip.Spares a) l step h fun d hd x _ => hd.trans (hstep d x)

end

theorem Chip.spares_warmLoads (c : Chip) : Chip.Spares c c.warmLoads := by
  unfold Chip.warmLoads
  refine Chip.Spares.foldl _ ?_ fun d p => ⟨rfl, rfl, rfl⟩
  have batch : Chip.Spares c (if c.rd Mix.bCode = 1 then
      (c.wr Mix.bCode 7).updMix (fun x => { x with staged := [], count := 0 }) else c) :=
    .ite (fun _ => ⟨rfl, rfl, rfl⟩) fun _ => .refl c
  refine batch.trans ?_
  generalize (if c.rd Mix.bCode = 1 then _ else _) = d
  have load : Chip.Spares d (if d.rd Amap.code = 1 ∨ d.rd Amap.code = 2 then d.wr Amap.code 5 else d) :=
    .ite (fun _ => ⟨rfl, rfl, rfl⟩) fun _ => .refl d
  refine load.trans ?_
  generalize (if d.rd Amap.code = 1 ∨ d.rd Amap.code = 2 then _ else _) = e
  exact .ite (fun _ => ⟨rfl, rfl, rfl⟩) fun _ => .refl e

theorem Chip.spares_warmCommits (c : Chip) : Chip.Spares c c.warmCommits := by
  unfold Chip.warmCommits
  refine Chip.Spares.foldl _ (Chip.Spares.foldl _ (.refl c) fun d n => ?_) fun d g => ?_
  · exact .ite (fun _ => ⟨rfl, rfl, rfl⟩) fun _ => .refl d
  · exact .ite (fun _ => .refl d) fun _ => ⟨rfl, rfl, rfl⟩

theorem Chip.spares_warmSalvos (c : Chip) : Chip.Spares c c.warmSalvos := by
  have cut : Chip.Spares c ([0, 1].foldl (fun c k =>
      if c.rd (Xpt.takeCode.nth k) = 1 ∨ c.rd (Xpt.takeCode.nth k) = 2 then c.salvoFinal k 8 else c) c) :=
    Chip.Spares.foldl _ (.refl c) fun d k => .ite (fun _ => ⟨rfl, rfl, rfl⟩) fun _ => .refl d
  exact cut.trans ⟨rfl, rfl, rfl⟩

/-- A WARM reset restarts the PTP instances. -/
theorem Chip.times_warmPtp (c : Chip) (was : List Nat) : Chip.Times ptpPages [ptpPage] c (c.warmPtp was) := by
  unfold Chip.warmPtp
  exact Chip.Times.foldl (.refl c) fun x hx d => .ite (fun _ => Chip.Times.setPtp (.refl d)
    ((by decide : ∀ x ∈ [0, 1], x < 2) x hx) _) fun _ => .refl d

/-- A queue's emptying changes neither the host nor the mailbox. -/
theorem Chip.emptyPort_keeps (c : Chip) {n : Nat} (hn : n < 8) : Chip.Spares c (c.emptyPort n) ∧ (c.emptyPort n).host = c.host ∧
    (c.emptyPort n).rd Cmd.state = c.rd Cmd.state := by
  obtain ⟨free, go⟩ := (by decide : ∀ n < 8, Cmd.state.key ≠ (Flowq.cpuFree.nth n).key ∧ Cmd.state.key ≠ (Flowq.cpuGo.nth n).key) n hn
  refine ⟨⟨rfl, rfl, rfl⟩, rfl, ?_⟩
  unfold Chip.emptyPort
  rw [Chip.rd_wr_ne _ _ go, Chip.rd_wr_ne _ _ free]
  rfl

/-- A WARM reset of the control plane keeps the fuses and what the resets know, ends what the host began, and closes the mailbox. -/
theorem Chip.warmPlane_keeps (c : Chip) : c.warmPlane.otp = c.otp ∧ c.warmPlane.power = c.power ∧ c.warmPlane.host.rotate = none ∧
    c.warmPlane.rd Cmd.state = 10 ∧ ∀ r ∈ c.warmPlane.reports, r ∈ c.reports ∨ r.src / 16 = 10 := by
  unfold Chip.warmPlane
  extract_lets was plane ended cleared unheld closed recorded emptied
  have hEnded : Chip.Spares c ended := (c.spares_warmLoads.trans (Chip.spares_warmCommits _)).trans (Chip.spares_warmSalvos _)
  clear_value ended
  have hUnheld : Chip.Spares c unheld := hEnded.trans ⟨rfl, rfl, rfl⟩
  clear_value unheld
  have hClosed : Chip.Spares c closed ∧ closed.host.rotate = none ∧ closed.rd Cmd.state = 10 :=
    ⟨hUnheld.trans ⟨rfl, rfl, rfl⟩, rfl, Chip.rd_wr_self unheld Cmd.state 10⟩
  clear_value closed
  have hRecorded : Chip.Spares c recorded.disarm ∧ recorded.disarm.host.rotate = none ∧ recorded.disarm.rd Cmd.state = 10 :=
    ⟨hClosed.1.trans ⟨rfl, rfl, rfl⟩, hClosed.2⟩
  have hEmptied : Chip.Spares c emptied ∧ emptied.host.rotate = none ∧ emptied.rd Cmd.state = 10 :=
    List.foldlRecOn (motive := fun d => Chip.Spares c d ∧ d.host.rotate = none ∧ d.rd Cmd.state = 10)
      (List.range 8) (fun c n => c.emptyPort n) hRecorded fun d ⟨spares, host, state⟩ n hn => by
        obtain ⟨s, h, r⟩ := d.emptyPort_keeps (List.mem_range.mp hn)
        exact ⟨spares.trans s, by rw [h, host], r.trans state⟩
  clear_value emptied
  obtain ⟨⟨otp, power, reports⟩, host, state⟩ := hEmptied
  have timed := emptied.times_warmPtp was
  have shown := (timed.rd Cmd.state rfl (by decide)).trans state
  have told := timed.reports
  obtain ⟨F, W, r, m, n, same⟩ := timed.frame
  generalize emptied.warmPtp was = t at same shown told ⊢
  subst same
  exact ⟨otp, power, host, shown, fun q hq => (told q hq).imp_left fun h => reports ▸ h⟩

/-- A WARM reset has begun. -/
def Chip.warmBegun (c : Chip) (cause : Nat) : Chip := c.warmPlane.updPower (fun x => { x with warm := some cause, deferred := none })

theorem Chip.warmBegun_shows (c : Chip) (k : Nat) : (c.warmBegun k).host = c.warmPlane.host ∧ (c.warmBegun k).otp = c.warmPlane.otp ∧
    (c.warmBegun k).power.warm = some k ∧ (c.warmBegun k).power.deferred = none ∧ (c.warmBegun k).reports = c.warmPlane.reports ∧
    ∀ f, (c.warmBegun k).rd f = c.warmPlane.rd f := by
  unfold Chip.warmBegun
  generalize c.warmPlane = d
  exact ⟨rfl, rfl, rfl, rfl, rfl, fun _ => rfl⟩

/-- A request begins a WARM reset where none is in progress and no fuse is being programmed. -/
theorem Chip.warmRequest_begins {c : Chip} (cold : c.power.warm = none) (idle : c.host.rotate = none) (m : Mem) (cause : Nat) :
    c.warmRequest m cause = (c.warmBegun cause, Mem.clear m 0) := by
  simp only [Chip.warmRequest, cold, idle, Option.isSome_none, Bool.false_eq_true, if_false]
  rfl

/-! ## Bytes of a bank (R453) -/

/-- An erased bank reads as unwritten, and no other byte changes. -/
theorem Mem.byte_eraseBank (m : Mem) {b r o : Nat} (hb : b < 2) (ho : o < 8589934592) : Mem.byte (Mem.eraseBank m b) r o =
    if r = 6 ∧ bankOff b ≤ o ∧ o < bankOff (b + 1) then 0 else Mem.byte m r o := by
  have inside : (memKey 6 (bankOff b) ≤ memKey r o ∧ memKey r o < memKey 6 (bankOff (b + 1))) ↔
      (r = 6 ∧ bankOff b ≤ o ∧ o < bankOff (b + 1)) := by
    unfold memKey bankOff
    omega
  unfold Mem.byte Mem.eraseBank
  rw [Store.get_clear]
  simp only [inside]
  split <;> rfl

@[simp] theorem Mem.length_bytes (m : Mem) (r o n : Nat) : (Mem.bytes m r o n).length = n := by
  induction n generalizing o with
  | zero => rfl
  | succ n ih => simp [Mem.bytes, ih]

theorem Mem.getD_bytes (m : Mem) (r o : Nat) {n k : Nat} (h : k < n) : (Mem.bytes m r o n).getD k 0 = Mem.byte m r (o + k) := by
  induction n generalizing o k with
  | zero => omega
  | succ n ih =>
    cases k with
    | zero => rfl
    | succ k =>
      rw [Mem.bytes, List.getD_cons_succ, ih _ (by omega)]
      congr 1
      omega

theorem Mem.byte_lt (m : Mem) (r o : Nat) : Mem.byte m r o < 256 := (Store.get memDefault m (memKey r o)).isLt

/-- An image as it is written: its `SEQ` is another one (R453). -/
def stamped (img : List Nat) (seq : Nat) : List Nat := img.take 16 ++ leBytes 4 seq ++ img.drop 20

section
variable {img : List Nat} (long : 20 ≤ img.length) (seq : Nat)
include long

theorem length_stamped : (stamped img seq).length = img.length := by
  simp only [stamped, List.length_append, List.length_take, List.length_drop, length_leBytes]
  omega

theorem getD_stamped_seq {k : Nat} (h : k < 4) : (stamped img seq).getD (16 + k) 0 = (leBytes 4 seq).getD k 0 := by
  have head : (img.take 16).length = 16 := by simp; omega
  rw [stamped, List.getD_append _ _ _ _ (by simp [head]; omega), List.getD_append_right _ _ _ _ (by omega), head]
  congr 1
  omega

theorem getD_stamped_other {k : Nat} (h : k < 16 ∨ 20 ≤ k) : (stamped img seq).getD k 0 = img.getD k 0 := by
  have head : (img.take 16).length = 16 := by simp; omega
  rcases h with h | h
  · rw [stamped, List.getD_append _ _ _ _ (by simp [head]; omega), List.getD_append _ _ _ _ (by omega)]
    simp [List.getD_eq_getElem?_getD, h]
  · rw [stamped, List.getD_append_right _ _ _ _ (by simp [head]; omega)]
    simp only [List.length_append, head, length_leBytes, List.getD_eq_getElem?_getD, List.getElem?_drop]
    congr 2
    omega

/-- An image that is written with a `SEQ` of its own reads back with it. -/
theorem Mem.word_puts_stamped (m : Mem) (r o : Nat) (small : seq < 4294967296) (room : o + img.length ≤ 8589934592) :
    Mem.word (Mem.puts m r o (stamped img seq)) r (o + 16) = seq := by
  have len := length_stamped long seq
  have same : Mem.bytes (Mem.puts m r o (stamped img seq)) r (o + 16) 4 = (leBytes 4 seq).map (· % 256) := by
    refine List.ext_getElem (by simp) fun k hk _ => ?_
    have small : k < 4 := by simpa using hk
    have read := Mem.getD_bytes (Mem.puts m r o (stamped img seq)) r (o + 16) small
    rw [Nat.add_assoc, Mem.byte_puts_at _ _ _ _ _ (by omega) (by omega), getD_stamped_seq long seq small,
      List.getD_eq_getElem _ _ hk, List.getD_eq_getElem _ _ (by simpa using small)] at read
    simpa using read
  have cut : ∀ l : List Nat, leNat (l.map (· % 256)) = leNat l := fun l => by
    induction l with
    | nil => rfl
    | cons v l ih => simp [leNat, ih]
  rw [Mem.word, same, cut, leNat_leBytes]
  exact Nat.mod_eq_of_lt small

end

/-! ## The results of these commands -/

theorem exec_fwInstall (target : BitVec 16) (a0 a1 : BitVec 32) (s : State) :
    exec (.fwInstall target a0 a1) s = execFwInstall target a0 a1 s := rfl
theorem exec_fwInstallDone (ok : Bool) (s : State) : exec (.fwInstallDone ok) s = execFwInstallDone ok s := rfl
theorem exec_keyRotate (target : BitVec 16) (a0 : BitVec 32) (s : State) : exec (.keyRotate target a0) s = execKeyRotate target a0 s := rfl
theorem exec_keyRotateDone (ok : Bool) (s : State) : exec (.keyRotateDone ok) s = execKeyRotateDone ok s := rfl

theorem Chip.reports_cmdEnd (c : Chip) (op code : Nat) : ∀ r ∈ (c.cmdEnd op code).reports, r ∈ c.reports ∨ r.src = 0xF2 := by
  by_cases h : code = 0
  · subst h
    exact fun r hr => .inl hr
  · rw [Chip.cmdEnd_refused _ _ h]
    exact fun r hr => (List.mem_append.mp hr).imp_right fun m => by rw [List.mem_singleton.mp m]

/-- What the end of a command shows, where nothing but the commands' own class is reported. -/
theorem Chip.cmdEnd_settles {c : Chip} (class15 : ∀ r ∈ c.reports, r.src / 16 = 15) (op : Nat) {code : Nat} (small : code < 16) :
    (c.cmdEnd op code).settle.rd Cmd.state = (if code = 0 then 3 else 4) ∧ (c.cmdEnd op code).settle.rd Cmd.refuse = code ∧
    bit ((c.cmdEnd op code).settle.stickyWord cmdPage) (if code = 0 then 0 else 1) = true := by
  have reacts_ : Chip.Reacts [15] (c.cmdEnd op code) (c.cmdEnd op code).settle :=
    Chip.reacts_settle _ fun r hr => by
      rcases c.reports_cmdEnd op code r hr with h | h
      · simp [class15 r h]
      · simp [h]
  rw [reacts_.rd Cmd.state (by decide), reacts_.rd Cmd.refuse (by decide)]
  by_cases h : code = 0
  · subst h
    exact ⟨c.rd_state_cmdEnd_done op, c.rd_refuse_cmdEnd_done op, Chip.bit_stickyWord_settle (Chip.bit_stick _ _ _)⟩
  · obtain ⟨state, refuse, -⟩ := c.rd_cmdEnd_refused op h
    rw [if_neg h, if_neg h, state, refuse]
    refine ⟨rfl, Nat.mod_eq_of_lt small, Chip.bit_stickyWord_settle ?_⟩
    rw [Chip.cmdEnd_refused _ _ h]
    exact Chip.bit_stick _ _ _

theorem Chip.installCode_lt (c : Chip) (m : Mem) (target a0 a1 : Nat) : c.installCode m target a0 a1 < 16 := by
  unfold Chip.installCode
  split
  · decide
  · split
    · decide
    · split
      · decide
      · split <;> decide

/-- The fuses after a programming that succeeds or fails, and no rotation in progress. -/
def Chip.fused (c : Chip) (rv ok : Bool) : Chip :=
  if ok then { c with
    host := { c.host with rotate := none }, otp := { c.otp with active1 := true, revoked0 := c.otp.revoked0 || rv } }
  else { c with host := { c.host with rotate := none } }

theorem Chip.fused_frame (c : Chip) (rv ok : Bool) : ∃ h o, c.fused rv ok = { c with host := h, otp := o } := by
  cases ok <;> exact ⟨_, _, rfl⟩

theorem Chip.power_cmdEnd (c : Chip) (op code : Nat) : (c.cmdEnd op code).power = c.power := by
  by_cases h : code = 0
  · subst h
    rfl
  · rw [Chip.cmdEnd_refused _ _ h]
    rfl

section
variable {c : Chip} {rv : Bool} (busy : c.host.rotate = some rv) (m : Mem) (ok : Bool)
include busy

theorem Chip.keyRotateDone_alone (alone : c.power.deferred = none) :
    c.keyRotateDone m ok = ((c.fused rv ok).cmdEnd 8 (if ok then 0 else 3), m) := by
  unfold Chip.keyRotateDone
  simp only [busy]
  cases ok <;> simp only [Chip.power_cmdEnd, Chip.updHost, alone, Bool.false_eq_true, if_false, if_true, Chip.fused]

theorem Chip.keyRotateDone_waits {k : Nat} (waits : c.power.deferred = some k) :
    c.keyRotateDone m ok = ((c.fused rv ok).cmdEnd 8 (if ok then 0 else 3)).warmRequest m k := by
  unfold Chip.keyRotateDone
  simp only [busy]
  cases ok <;> simp only [Chip.power_cmdEnd, Chip.updHost, waits, Bool.false_eq_true, if_false, if_true, Chip.fused]

end

/-- Settles O50: an install reaches flash memory alone, and the mailbox shows the result of every command, whose own class of reports
changes no register of it. -/
theorem firmwareAndKeys : Obligations.FirmwareAndKeys := by
  intro s
  have quiet : ∀ r ∈ s.c.start.reports, r.src / 16 = 15 := fun _ h => absurd h List.not_mem_nil
  refine ⟨fun target a0 a1 hs => ?_, fun b off n seq hs busy hb long inside small => ?_, fun b off n seq hs busy => ?_,
    fun ok hs idle => ?_, fun target a0 hs named inactive programmed serves rail => ?_, fun target a0 hs refused => ?_,
    fun rv ok hs busy alone => ?_, fun rv ok k hs busy waits cold => ?_, fun ok hs idle => ?_⟩
  · have fits := s.c.installCode_lt s.mem target.toNat a0.toNat a1.toNat
    have code : s.c.start.installCode s.mem target.toNat a0.toNat a1.toNat = s.c.installCode s.mem target.toNat a0.toNat a1.toNat := rfl
    by_cases accepted : s.c.installCode s.mem target.toNat a0.toNat a1.toNat = 0
    · have hb : a1.toNat % 2 < 2 := Nat.mod_lt _ (by decide)
      let b := s.c.start.updHost (fun h => { h with
        install := some (a1.toNat % 2, a0.toNat, 256 + Mem.word s.mem 0 (a0.toNat + 8),
          (max (Mem.bankSeq s.mem 0) (Mem.bankSeq s.mem 1) + 1) % 2 ^ 32) })
      have begins : s.c.start.fwInstall s.mem target.toNat a0.toNat a1.toNat =
          (b.cmdRunning 7, Mem.eraseBank s.mem (a1.toNat % 2)) := if_neg (not_not.mpr (code.trans accepted))
      have leaves : Chip.Leaves [] [cmdPage] s.c.start b := .keep (.refl _) rfl rfl
      obtain ⟨state, -, refuse⟩ := b.rd_cmdRunning 7
      simp only [accepted, if_true]
      refine gives_of_body_mem hs (exec_fwInstall target a0 a1 s) begins ⟨⟨?_, ?_, ?_, fun o lo hi => ?_, fun r o ho out => ?_⟩,
        (leaves.cmdRunning 7).confined⟩
      · rw [Chip.rd_settle_idle _ rfl]
        exact state
      · rw [Chip.rd_settle_idle _ rfl]
        exact refuse
      · show (b.cmdRunning 7).settle.host.install = _
        rw [(settled _).host]
        rfl
      · refine (Mem.byte_eraseBank s.mem hb ?_).trans (if_pos ⟨rfl, lo, hi⟩)
        unfold bankOff at hi
        omega
      · exact (Mem.byte_eraseBank s.mem hb ho).trans (if_neg out)
    · let b := if s.c.installCode s.mem target.toNat a0.toNat a1.toNat = 2 then s.c.start.raise 0xF4 devPage 2 0 else s.c.start
      have refuses : s.c.start.fwInstall s.mem target.toNat a0.toNat a1.toNat =
          (b.cmdEnd 7 (s.c.installCode s.mem target.toNat a0.toNat a1.toNat), s.mem) := if_pos accepted
      have class15 : ∀ r ∈ b.reports, r.src / 16 = 15 := by
        intro r hr
        simp only [b] at hr
        split at hr
        · obtain rfl := List.mem_singleton.mp hr
          rfl
        · exact quiet r hr
      have leaves : Chip.Leaves [] [cmdPage] s.c.start (b.cmdEnd 7 (s.c.installCode s.mem target.toNat a0.toNat a1.toNat)) :=
        Chip.Leaves.cmdEnd (.ite (fun _ => .raise (.refl _) _ _ _ _) fun _ => .refl _) (by simp) _ _
      have host : b.host = s.c.host := by simp only [b]; split <;> rfl
      have ended := Chip.cmdEnd_settles class15 7 fits
      simp only [accepted, if_false] at ended ⊢
      obtain ⟨state, refuse, shown⟩ := ended
      refine gives_of_body_mem hs (exec_fwInstall target a0 a1 s) refuses ⟨⟨state, refuse, ?_, shown, rfl⟩, leaves.confined⟩
      show (b.cmdEnd 7 (s.c.installCode s.mem target.toNat a0.toNat a1.toNat)).settle.host.install = _
      rw [(settled _).host, Chip.cmdEnd_refused _ _ accepted]
      exact congrArg HostX.install host
  · let c := (s.c.start.updHost (fun h => { h with install := none })).emit (.flash b n)
    let img := Mem.bytes s.mem 0 off n
    have len : img.length = n := Mem.length_bytes _ _ _ _
    have long' : 20 ≤ img.length := by omega
    have lenStamped := (length_stamped long' seq).trans len
    have room : bankOff b + n ≤ 8589934592 := by unfold bankOff; omega
    have ends : s.c.start.fwInstallDone s.mem true = (c.cmdEnd 7 0, Mem.puts s.mem 6 (bankOff b) (stamped img seq)) := by
      have host : s.c.start.host.install = some (b, off, n, seq) := busy
      simp only [Chip.fwInstallDone, host, Bool.not_true, Bool.false_eq_true, if_false]
      rfl
    have leaves : Chip.Leaves [] [cmdPage] s.c.start c := .keep (.refl _) rfl rfl
    obtain ⟨state, refuse, shown⟩ := Chip.cmdEnd_settles (c := c) quiet 7 (code := 0) (by decide)
    refine gives_of_body_mem hs (exec_fwInstallDone true s) ends ⟨?_, state, refuse, shown, ?_, ?_, fun j hj other => ?_,
      fun r o ho out => ?_, (leaves.cmdEnd (List.mem_singleton_self _) 7 0).confined⟩
    · show (c.cmdEnd 7 0).settle.host.install = none
      rw [(settled _).host]
      rfl
    · exact mem_out_settle (c := c.cmdEnd 7 0) rfl (List.mem_append_right _ (List.mem_singleton_self _))
    · exact Mem.word_puts_stamped long' seq s.mem 6 (bankOff b) small (by rw [len]; exact room)
    · show Mem.byte (Mem.puts s.mem 6 (bankOff b) (stamped img seq)) 6 (bankOff b + j) = _
      rw [Mem.byte_puts_at _ _ _ _ _ (by rw [lenStamped]; exact hj) (by rw [lenStamped]; exact room), getD_stamped_other long' seq other,
        Mem.getD_bytes _ _ _ hj]
      exact Nat.mod_eq_of_lt (Mem.byte_lt _ _ _)
    · show Mem.byte (Mem.puts s.mem 6 (bankOff b) (stamped img seq)) r o = _
      by_cases hr : r = 6
      · subst hr
        rcases Nat.lt_or_ge o (bankOff b) with below | above
        · exact Mem.byte_puts_below _ _ _ _ _ below (by rw [lenStamped]; exact room)
        · refine Mem.byte_puts_above _ _ _ _ _ ?_ ho
          rw [lenStamped]
          exact Nat.not_lt.mp fun h => out ⟨rfl, above, h⟩
      · exact Mem.byte_puts_region _ _ _ _ _ _ hr ho (by rw [lenStamped]; exact room)
  · let c := s.c.start.updHost (fun h => { h with install := none })
    have ends : s.c.start.fwInstallDone s.mem false = (c.cmdEnd 7 4, s.mem) := by
      have host : s.c.start.host.install = some (b, off, n, seq) := busy
      simp only [Chip.fwInstallDone, host, Bool.not_false, if_true]
      rfl
    have leaves : Chip.Leaves [] [cmdPage] s.c.start c := .keep (.refl _) rfl rfl
    obtain ⟨state, refuse, shown⟩ := Chip.cmdEnd_settles (c := c) quiet 7 (code := 4) (by decide)
    refine gives_of_body_mem hs (exec_fwInstallDone false s) ends ⟨?_, state, refuse, shown,
      (leaves.cmdEnd (List.mem_singleton_self _) 7 4).confined⟩
    show (c.cmdEnd 7 4).settle.host.install = none
    rw [(settled _).host]
    rfl
  · have ends : s.c.start.fwInstallDone s.mem ok = (s.c.start, s.mem) := by
      have host : s.c.start.host.install = none := idle
      simp only [Chip.fwInstallDone, host]
    exact gives_of_body_mem hs (exec_fwInstallDone ok s) ends ⟨(settled s.c.start).host, (Chip.Leaves.refl s.c.start).confined⟩
  · let c := s.c.start.updHost (fun h => { h with rotate := some (bit a0.toNat 0) })
    have begins : s.c.start.keyRotate target.toNat a0.toNat = c.cmdRunning 8 := by
      have active : s.c.start.otp.active1 = false := inactive
      have prog : s.c.start.otp.prog1 = true := programmed
      have slot : s.c.start.slotServes 1 = true := serves
      have power : s.c.start.rd (Pwr.railInWin.nth 9) ≠ 0 := rail
      simp only [Chip.keyRotate, named, active, prog, slot, power, ne_eq, not_true_eq_false, Bool.false_eq_true, or_self, Bool.not_true,
        if_false]
      rfl
    have leaves : Chip.Leaves [] [cmdPage] s.c.start c := .keep (.refl _) rfl rfl
    obtain ⟨state, -, refuse⟩ := c.rd_cmdRunning 8
    refine gives_of_body hs (exec_keyRotate target a0 s) begins ⟨?_, ?_, ?_, ?_, (leaves.cmdRunning 8).confined⟩
    · rw [Chip.rd_settle_idle _ rfl]
      exact state
    · rw [Chip.rd_settle_idle _ rfl]
      exact refuse
    · show (c.cmdRunning 8).settle.host.rotate = _
      rw [(settled _).host]
      rfl
    · show (c.cmdRunning 8).settle.otp = _
      rw [(settled _).otp]
      rfl
  · let code := if target.toNat ≠ 1 ∨ s.c.otp.active1 = true then 1 else if s.c.otp.prog1 = false ∨ s.c.slotServes 1 = false then 2 else 3
    have some_ : code ≠ 0 ∧ code < 16 := by
      simp only [code]
      split
      · decide
      · split <;> decide
    have ends : s.c.start.keyRotate target.toNat a0.toNat = s.c.start.cmdEnd 8 code := by
      have otp : s.c.start.otp = s.c.otp := rfl
      have slot : s.c.start.slotServes 1 = s.c.slotServes 1 := rfl
      have power (f : Fld) : s.c.start.rd f = s.c.rd f := rfl
      simp only [Chip.keyRotate, otp, slot, power, code, Bool.not_eq_true']
      split
      · rfl
      · next usable =>
        split
        · rfl
        · next serves =>
          refine if_pos ?_
          obtain ⟨named, inactive⟩ := not_or.mp usable
          obtain ⟨programmed, slot⟩ := not_or.mp serves
          rcases refused with h | h | h | h | h
          · exact absurd h named
          · exact absurd h inactive
          · exact absurd h programmed
          · exact absurd h slot
          · exact h
    obtain ⟨state, refuse, shown⟩ := Chip.cmdEnd_settles (c := s.c.start) quiet 8 some_.2
    rw [if_neg some_.1] at state shown
    refine gives_of_body hs (exec_keyRotate target a0 s) ends ⟨state, refuse, shown, ?_, ?_,
      ((Chip.Leaves.refl s.c.start).cmdEnd (List.mem_singleton_self _) 8 code).confined⟩
    · show (s.c.start.cmdEnd 8 code).settle.host.rotate = _
      rw [(settled _).host, Chip.cmdEnd_refused _ _ some_.1]
      rfl
    · show (s.c.start.cmdEnd 8 code).settle.otp = _
      rw [(settled _).otp, Chip.cmdEnd_refused _ _ some_.1]
      rfl
  · let c := s.c.start.fused rv ok
    let code := if ok then 0 else 3
    have ends : s.c.start.keyRotateDone s.mem ok = (c.cmdEnd 8 code, s.mem) :=
       Chip.keyRotateDone_alone (c := s.c.start) busy s.mem ok alone
    have leaves : Chip.Leaves [] [cmdPage] s.c.start c := by
      obtain ⟨h, o, e⟩ := s.c.start.fused_frame rv ok
      exact .keep (.refl _) (by rw [show c = _ from e]) (by rw [show c = _ from e])
    have known : c.reports = [] ∧ c.host.rotate = none ∧
        c.otp = (if ok then { s.c.otp with active1 := true, revoked0 := s.c.otp.revoked0 || rv } else s.c.otp) := by
      cases ok <;> exact ⟨rfl, rfl, rfl⟩
    obtain ⟨reports, rotate, otp⟩ := known
    have ended := Chip.cmdEnd_settles (c := c) (by simp [reports]) 8 (code := code) (by cases ok <;> decide)
    have kept : (c.cmdEnd 8 code).settle.host = c.host ∧ (c.cmdEnd 8 code).settle.otp = c.otp := by
      rw [(settled _).host, (settled _).otp]
      cases ok <;> exact ⟨rfl, rfl⟩
    refine gives_of_body_mem hs (exec_keyRotateDone ok s) ends ⟨?_, ?_, ended.2.1, ?_, kept.2.trans otp,
      (leaves.cmdEnd (List.mem_singleton_self _) 8 code).confined⟩
    · exact (congrArg HostX.rotate kept.1).trans rotate
    · refine ended.1.trans ?_
      cases ok <;> rfl
    · have shown := ended.2.2
      cases ok <;> exact shown
  · let c := (s.c.start.fused rv ok).cmdEnd 8 (if ok then 0 else 3)
    have known : c.power.warm = none ∧ c.host.rotate = none ∧
        c.otp = (if ok then { s.c.otp with active1 := true, revoked0 := s.c.otp.revoked0 || rv } else s.c.otp) := by
      cases ok <;> exact ⟨cold, rfl, rfl⟩
    obtain ⟨noWarm, rotate, otp⟩ := known
    have ends : s.c.start.keyRotateDone s.mem ok = (c.warmBegun k, Mem.clear s.mem 0) :=
      (Chip.keyRotateDone_waits (c := s.c.start) busy s.mem ok waits).trans (Chip.warmRequest_begins noWarm rotate s.mem k)
    obtain ⟨fuses, -, host, -⟩ := c.warmPlane_keeps
    clear_value c
    have begun := c.warmBegun_shows k
    generalize c.warmBegun k = d at ends begun
    obtain ⟨host', otp', warm, deferred, -, -⟩ := begun
    refine gives_of_body_mem hs (exec_keyRotateDone ok s) ends ⟨?_, ?_, ?_, ?_, rfl⟩
    · exact (congrArg HostX.rotate ((settled d).host.trans host')).trans host
    · exact (congrArg PowerX.warm (settled d).power).trans warm
    · exact (congrArg PowerX.deferred (settled d).power).trans deferred
    · exact (settled d).otp.trans (otp'.trans (fuses.trans otp))
  · have ends : s.c.start.keyRotateDone s.mem ok = (s.c.start, s.mem) := by
      have host : s.c.start.host.rotate = none := idle
      simp only [Chip.keyRotateDone, host]
    exact gives_of_body_mem hs (exec_keyRotateDone ok s) ends ⟨(settled s.c.start).otp, (settled s.c.start).host,
      (Chip.Leaves.refl s.c.start).confined⟩

end Sys2Proof.Machine
end

section
/-! SUPPORT. The host's link, its resets and its messages (O47). -/

namespace Sys2Proof.Machine

theorem exec_usb4LinkUp (gen : BitVec 3) (tunnel bm msix : Bool) (s : State) :
    exec (.usb4LinkUp gen tunnel bm msix) s = execUsb4LinkUp gen tunnel bm msix s := rfl
theorem exec_usb4LinkDown (s : State) : exec .usb4LinkDown s = execUsb4LinkDown s := rfl
theorem exec_usb4RouterReset (s : State) : exec .usb4RouterReset s = execUsb4RouterReset s := rfl
theorem exec_usb4LinkError (recovered : Bool) (s : State) : exec (.usb4LinkError recovered) s = execUsb4LinkError recovered s := rfl
theorem exec_functionLevelReset (s : State) : exec .functionLevelReset s = execFunctionLevelReset s := rfl
theorem exec_hostEoi (m : Master) (v : Fin 64) (s : State) : exec (.hostEoi m v) s = execHostEoi m v s := rfl
theorem exec_msixUnmask (m : Master) (v : Fin 64) (s : State) : exec (.msixUnmask m v) s = execMsixUnmask m v s := rfl
theorem exec_bootGo (m : Master) (s : State) : exec (.bootGo m) s = execBootGo m s := rfl

/-! ## Tables of which a part is dropped -/

/-- What is left of a table after some of its keys are dropped. -/
theorem Store.get_filter {α : Type} (d : α) (m : Store α) (keep : Nat → Bool) (k : Nat) :
    Store.get d (m.filter (fun e => keep e.1)) k = if keep k then Store.get d m k else d := by
  induction m with
  | nil => simp [Store.get]
  | cons e m ih =>
    obtain ⟨j, v⟩ := e
    by_cases kept : keep j = true
    · rw [List.filter_cons_of_pos (by exact kept), Store.get, Store.get, ih]
      by_cases same : k = j
      · subst same
        simp [kept]
      · simp [same]
    · rw [List.filter_cons_of_neg (by exact kept), Store.get, ih]
      by_cases same : k = j
      · subst same
        simp [kept]
      · simp [same]

/-- The page of a field's key. -/
theorem keyPage_key {f : Fld} (h : f.ok = true) : keyPage f.key = f.page := by
  simp only [Fld.ok, Bool.and_eq_true, decide_eq_true_eq] at h
  unfold keyPage Fld.key placeKey
  omega

/-- A page whose fields are dropped reads as after POR; every other field is kept. -/
theorem Chip.rd_dropPage (c : Chip) (p : Nat) {f : Fld} (h : f.ok = true) :
    (c.dropPage p (fun _ _ => false)).rd f = if f.page = p then f.por % 2 ^ f.w else c.rd f := by
  unfold Chip.rd getFld Chip.dropPage
  rw [Store.get_filter f.por c.flds (fun k => keyPage k ≠ p || false) f.key, keyPage_key h]
  by_cases hp : f.page = p <;> simp [hp]

/-- A region that is cleared leaves every other. -/
theorem Mem.byte_clear_other (m : Mem) {r q o : Nat} (other : q ≠ r) (ho : o < 8589934592) :
    Mem.byte (Mem.clear m r) q o = Mem.byte m q o := by
  have outside : ¬(memKey r 0 ≤ memKey q o ∧ memKey q o < memKey (r + 1) 0) := by unfold memKey; omega
  unfold Mem.byte Mem.clear
  rw [Store.get_clear, if_neg outside]

/-! ## The link (R436, R438) -/

/-- The host's outstanding transactions stand on the fabric's page alone. -/
theorem Chip.leaves_dropHost (c : Chip) : Chip.Leaves [] [] c c.dropHost :=
  ⟨fun f hf hr _ => (settled_endOutstanding c 1).rd f hf hr, fun p hp _ => (settled_endOutstanding c 1).stickyWord p hp⟩

theorem reacts_hostPage : reacts hostPage = false := by decide

/-- What the host's page shows of its link. -/
def linkFields : List Fld := [Hst.gen, Hst.linkUp, Hst.tunnelUp, Hst.busMaster, Hst.msixEn]

/-- The fields of the link are written one after the other. -/
def Chip.linked (c : Chip) (gen up tunnel bm msix : Nat) : Chip :=
  ((((c.wr Hst.gen gen).wr Hst.linkUp up).wr Hst.tunnelUp tunnel).wr Hst.busMaster bm).wr Hst.msixEn msix

theorem Chip.linked_shows (c : Chip) {gen up tunnel bm msix : Nat} (hg : gen < 8) (hu : up < 2) (ht : tunnel < 2) (hb : bm < 2)
    (hm : msix < 2) : (c.linked gen up tunnel bm msix).rd Hst.gen = gen ∧ (c.linked gen up tunnel bm msix).rd Hst.linkUp = up ∧
    (c.linked gen up tunnel bm msix).rd Hst.tunnelUp = tunnel ∧ (c.linked gen up tunnel bm msix).rd Hst.busMaster = bm ∧
    (c.linked gen up tunnel bm msix).rd Hst.msixEn = msix := by
  unfold Chip.linked
  refine ⟨?_, ?_, ?_, ?_, ?_⟩
  · rw [Chip.rd_wr_ne _ _ (by decide), Chip.rd_wr_ne _ _ (by decide), Chip.rd_wr_ne _ _ (by decide), Chip.rd_wr_ne _ _ (by decide),
      Chip.rd_wr_self]
    exact Nat.mod_eq_of_lt hg
  · rw [Chip.rd_wr_ne _ _ (by decide), Chip.rd_wr_ne _ _ (by decide), Chip.rd_wr_ne _ _ (by decide), Chip.rd_wr_self]
    exact Nat.mod_eq_of_lt hu
  · rw [Chip.rd_wr_ne _ _ (by decide), Chip.rd_wr_ne _ _ (by decide), Chip.rd_wr_self]
    exact Nat.mod_eq_of_lt ht
  · rw [Chip.rd_wr_ne _ _ (by decide), Chip.rd_wr_self]
    exact Nat.mod_eq_of_lt hb
  · rw [Chip.rd_wr_self]
    exact Nat.mod_eq_of_lt hm

theorem Chip.Leaves.linked {ps : List Nat} {a b : Chip} (h : Chip.Leaves linkFields ps a b) (gen up tunnel bm msix : Nat) :
    Chip.Leaves linkFields ps a (b.linked gen up tunnel bm msix) :=
  ((((h.wr (f := Hst.gen) (by simp [linkFields]) gen).wr (f := Hst.linkUp) (by simp [linkFields]) up).wr (f := Hst.tunnelUp)
    (by simp [linkFields]) tunnel).wr (f := Hst.busMaster) (by simp [linkFields]) bm).wr (f := Hst.msixEn) (by simp [linkFields]) msix

/-- A field of the host's page keeps its value while the command settles. -/
theorem Chip.rd_settle_host (c : Chip) {f : Fld} (ok : f.ok = true) (page : f.page = hostPage) : c.settle.rd f = c.rd f :=
  c.rd_settle ok (by rw [page, reacts_hostPage])

/-! ## Messages (R439) -/

/-- While the host has not enabled messages, no vector becomes pending. -/
theorem Chip.pba_interrupts {c : Chip} (off : c.on Hst.msixEn = false) : c.interrupts.pba = c.pba := by
  unfold Chip.interrupts
  dsimp only
  split
  · rfl
  · refine (List.foldlRecOn (motive := fun d : Chip => d.on Hst.msixEn = false ∧ d.pba = c.pba) _ _ ?_
      fun d ⟨disabled, pending⟩ v _ => ?_).2
    · exact ⟨off, rfl⟩
    split
    · rw [Chip.sendVector, disabled]
      exact ⟨disabled, pending⟩
    · exact ⟨disabled, pending⟩

theorem bit_setBit_ne (v : Nat) {i j : Nat} (h : j ≠ i) (b : Bool) : bit (setBit v i b) j = bit v j := by
  cases b
  · exact bit_setBit_false_ne v h
  · unfold setBit
    split
    · rfl
    · next clear =>
      exact testBit_add_two_pow_of_ne (by simpa using clear) h

/-- A vector that is not masked and not pending does not become pending. -/
theorem Chip.bit_pba_interrupts {c : Chip} {v : Nat} (unmasked : c.on (msixMask v) = false) (idle : bit c.pba v = false) :
    bit c.interrupts.pba v = false := by
  unfold Chip.interrupts
  dsimp only
  split
  · exact idle
  · refine (List.foldlRecOn (motive := fun d : Chip => d.on (msixMask v) = false ∧ bit d.pba v = false) _ _ ?_
      fun d ⟨open_, clear⟩ w _ => ?_).2
    · exact ⟨unmasked, idle⟩
    split
    · unfold Chip.sendVector
      split
      · exact ⟨open_, clear⟩
      · split
        · next masked =>
          refine ⟨open_, (bit_setBit_ne _ ?_ true).trans clear⟩
          rintro rfl
          exact absurd (open_.symm.trans masked) (by decide)
        · refine ⟨open_, ?_⟩
          show bit (setBit d.pba w false) v = false
          by_cases same : v = w
          · rw [same]
            exact bit_setBit_false _ _
          · exact (bit_setBit_ne _ same false).trans clear
    · exact ⟨open_, clear⟩

theorem leaves_sendVector (c : Chip) (v : Nat) {gs : List Fld} {ps : List Nat} : Chip.Leaves gs ps c (c.sendVector v) :=
  .keep (.refl c) (idle_sendVector c v).flds (idle_sendVector c v).sticky

/-- A vector that is enabled and not masked sends its message. -/
theorem Chip.mem_out_sendVector {c : Chip} {v : Nat} (enabled : c.on Hst.msixEn = true) (unmasked : c.on (msixMask v) = false) :
    Out.msix v ∈ (c.sendVector v).out ∧ (c.sendVector v).reports = c.reports := by
  simp only [Chip.sendVector, enabled, unmasked, Bool.not_true, Bool.false_eq_true, if_false]
  exact ⟨List.mem_append_right _ (List.mem_singleton_self _), rfl⟩

theorem Mem.word_lt (m : Mem) (r o : Nat) : Mem.word m r o < 2 ^ 32 := by
  simp only [Mem.word, Mem.bytes, leNat]
  omega

/-- What is left alone beside some fields lies within their pages. -/
theorem Chip.Leaves.within {gs : List Fld} {ps qs : List Nat} {s : State} {d : Chip} (h : Chip.Leaves gs ps s.c.start d)
    (hg : ∀ g ∈ gs, g.ok = true ∧ g.page ∈ qs) (hp : ∀ p ∈ ps, p ∈ qs) : Within qs s { s with c := d.settle } :=
  h.confined.within (fun f hf g m e => by
    obtain ⟨ok, page⟩ := hg g m
    rw [← keyPage_key hf, e, keyPage_key ok]
    exact page) hp

theorem reports_sendVector (c : Chip) (v : Nat) : (c.sendVector v).reports = c.reports := by
  unfold Chip.sendVector
  split
  · rfl
  · split <;> rfl

theorem msixEn_key_ne (v : Fin 64) : Hst.msixEn.key ≠ (msixMask v).key :=
  (by decide : ∀ v : Fin 64, Hst.msixEn.key ≠ (msixMask v).key) v

/-- A firmware image starts (R444). -/
theorem Chip.startFirmware_shows (c : Chip) (m : Mem) : (c.startFirmware m).rd Dev.boot = 4 ∧ (c.startFirmware m).rd Cfab.remap = 1 ∧
    (c.startFirmware m).rd Dev.fwVer = Mem.word m 0 4 ∧ (c.startFirmware m).reports = c.reports ∧
    Chip.Leaves [Dev.boot, Dev.fwVer] [devPage] c (c.startFirmware m) := by
  refine ⟨?_, ?_, ?_, rfl, ?_⟩
  · rw [Chip.startFirmware, Chip.rd_stick, Chip.rd_wr_ne _ _ (by decide), Chip.rd_wr_self]
    rfl
  · rw [Chip.startFirmware, Chip.rd_stick, Chip.rd_wr_ne _ _ (by decide), Chip.rd_wr_ne _ _ (by decide), Chip.rd_wr_self]
    rfl
  · rw [Chip.startFirmware, Chip.rd_stick, Chip.rd_wr_self]
    exact Nat.mod_eq_of_lt (Mem.word_lt m 0 4)
  · exact ((((Chip.Leaves.refl c).wrReacting (f := Cfab.remap) rfl 1).wr (f := Dev.boot) (by simp) 4).wr (f := Dev.fwVer) (by simp)
      _).stick (.inl (by simp)) 0

/-- What the link's fields show is kept while the command settles. -/
theorem Chip.linked_settle {b d : Chip} {gen up tunnel bm msix : Nat} (e : d.flds = (b.linked gen up tunnel bm msix).flds)
    (hg : gen < 8) (hu : up < 2) (ht : tunnel < 2) (hb : bm < 2) (hm : msix < 2) :
    d.settle.rd Hst.gen = gen ∧ d.settle.rd Hst.linkUp = up ∧ d.settle.rd Hst.tunnelUp = tunnel ∧ d.settle.rd Hst.busMaster = bm ∧
    d.settle.rd Hst.msixEn = msix := by
  obtain ⟨hgen, hup, htun, hbm, hmsix⟩ := b.linked_shows hg hu ht hb hm
  have same (f : Fld) : d.rd f = (b.linked gen up tunnel bm msix).rd f := by rw [Chip.rd, e, Chip.rd]
  refine ⟨?_, ?_, ?_, ?_, ?_⟩ <;> rw [Chip.rd_settle_host d rfl rfl, same] <;> assumption

section
variable {s : State}

theorem linkUp_gives (hs : s.Runs) {gen : BitVec 3} (tunnel bm msix : Bool) (lo : 2 ≤ gen.toNat) (hi : gen.toNat ≤ 4) :
    Gives (.usb4LinkUp gen tunnel bm msix) s (fun t =>
      t.c.rd Hst.gen = gen.toNat ∧ t.c.rd Hst.linkUp = 1 ∧ t.c.rd Hst.tunnelUp = b2n tunnel ∧ t.c.rd Hst.busMaster = b2n bm ∧
      t.c.rd Hst.msixEn = b2n msix ∧ bit (t.c.stickyWord hostPage) 2 = true ∧ Confined linkFields [hostPage] s t) := by
  let d := (s.c.start.linked gen.toNat 1 (b2n tunnel) (b2n bm) (b2n msix)).stick hostPage 2
  have whole : Chip.Leaves linkFields [hostPage] s.c.start d :=
    ((Chip.Leaves.refl _).linked _ _ _ _ _).stick (.inl (List.mem_singleton_self _)) 2
  have bits (b : Bool) : b2n b < 2 := by cases b <;> decide
  obtain ⟨hgen, hup, htun, hbm, hmsix⟩ := Chip.linked_settle (d := d) rfl gen.isLt (by decide) (bits tunnel) (bits bm) (bits msix)
  exact gives_of_body hs (exec_usb4LinkUp gen tunnel bm msix s) (d := d) (if_neg (by omega))
    ⟨hgen, hup, htun, hbm, hmsix, Chip.bit_stickyWord_settle (Chip.bit_stick _ _ _), whole.confined⟩

theorem linkDown_gives (hs : s.Runs) (up : s.c.on Hst.linkUp = true) : Gives .usb4LinkDown s (fun t =>
    t.c.rd Hst.linkUp = 0 ∧ t.c.rd Hst.gen = 0 ∧ t.c.rd Hst.tunnelUp = 0 ∧ t.c.rd Hst.busMaster = 0 ∧ t.c.rd Hst.msixEn = 0 ∧
      bit (t.c.stickyWord hostPage) 0 = true ∧ Confined linkFields [hostPage] s t) := by
  let d := ((s.c.start.dropHost.linked 0 0 0 0 0).raise 0xD3 hostPage 0 0).stick hostPage 0
  have whole : Chip.Leaves linkFields [hostPage] s.c.start d :=
    ((((s.c.start.leaves_dropHost.widen (by simp) (by simp)).linked 0 0 0 0 0).raise _ _ _ _)).stick (.inl (List.mem_singleton_self _)) 0
  have same (x : Chip) : ((x.raise 0xD3 hostPage 0 0).stick hostPage 0).flds = x.flds := rfl
  obtain ⟨hgen, hup, htun, hbm, hmsix⟩ := Chip.linked_settle (b := s.c.start.dropHost) (d := d) (same _) (gen := 0) (up := 0) (tunnel := 0)
    (bm := 0) (msix := 0) (by decide) (by decide) (by decide) (by decide) (by decide)
  have shown : s.c.start.on Hst.linkUp = true := up
  have body : (fun c : Chip => if !c.on Hst.linkUp then c else
      let c := (((c.dropHost.wr Hst.gen 0).wr Hst.linkUp 0).wr Hst.tunnelUp 0).wr Hst.busMaster 0
      ((c.wr Hst.msixEn 0).raise 0xD3 hostPage 0 0).stick hostPage 0) s.c.start = d := by
    simp only [shown, Bool.not_true, Bool.false_eq_true, if_false]
    rfl
  have marked : bit (d.stickyWord hostPage) 0 = true := Chip.bit_stick _ _ _
  clear_value d
  exact gives_of_body hs (exec_usb4LinkDown s) body ⟨hup, hgen, htun, hbm, hmsix, Chip.bit_stickyWord_settle marked, whole.confined⟩

theorem routerReset_gives (hs : s.Runs) (cold : s.c.power.warm = none) (idle : s.c.host.rotate = none) :
    Gives .usb4RouterReset s (fun t =>
      t.c.power.warm = some 4 ∧ t.c.rd Cmd.state = 10 ∧ (∀ o : Nat, o < 8589934592 → Mem.byte t.mem 0 o = 0) ∧
      (∀ r : Nat, ∀ o : Nat, o < 8589934592 → r ≠ 0 → Mem.byte t.mem r o = Mem.byte s.mem r o) ∧ t.pending = s.pending) := by
  have begins : s.c.start.warmRequest s.mem 4 = (s.c.start.warmBegun 4, Mem.clear s.mem 0) :=
    Chip.warmRequest_begins (c := s.c.start) cold idle s.mem 4
  obtain ⟨-, -, -, state, told⟩ := s.c.start.warmPlane_keeps
  obtain ⟨-, -, warm, -, reports, regs⟩ := s.c.start.warmBegun_shows 4
  have shown := (regs Cmd.state).trans state
  have class10 : ∀ r ∈ (s.c.start.warmBegun 4).reports, r.src / 16 ∈ [10] := by
    rw [reports]
    exact fun r hr => (told r hr).elim (fun h => absurd h List.not_mem_nil) fun h => by simp [h]
  generalize s.c.start.warmBegun 4 = d at begins warm class10 shown
  refine gives_of_body_mem hs (exec_usb4RouterReset s) begins ⟨?_, ?_, fun o ho => Mem.byte_clear_self _ _ _ ho,
    fun r o ho hr => Mem.byte_clear_other _ hr ho, rfl⟩
  · exact (congrArg PowerX.warm (settled d).power).trans warm
  · exact ((Chip.reacts_settle _ class10).rd Cmd.state (by decide)).trans shown

theorem linkError_gives (hs : s.Runs) (recovered : Bool) : Gives (.usb4LinkError recovered) s (fun t =>
      t.c.rd Hst.errCnt = satInc 32 (s.c.rd Hst.errCnt) ∧ bit (t.c.stickyWord hostPage) 1 = true ∧ Confined [Hst.errCnt] [hostPage] s t) := by
  let b := (s.c.start.inc Hst.errCnt).stick hostPage 1
  let d := if recovered then b.raiseT 0xD4 hostPage 0 0 else b.raise 0xD4 hostPage 0 0
  have counted : Chip.Leaves [Hst.errCnt] [hostPage] s.c.start b :=
    ((Chip.Leaves.refl _).wr (f := Hst.errCnt) (List.mem_singleton_self _) _).stick (.inl (List.mem_singleton_self _)) 1
  have told : d.flds = b.flds ∧ d.sticky = b.sticky := by cases recovered <;> exact ⟨rfl, rfl⟩
  obtain ⟨flds, sticky⟩ := told
  refine gives_of_body hs (exec_usb4LinkError recovered s) (d := d) rfl ⟨?_, Chip.bit_stickyWord_settle ?_,
    (counted.keep flds sticky).confined⟩
  · rw [Chip.rd_settle_host d rfl rfl, Chip.rd, flds]
    exact Chip.rd_inc_self s.c.start Hst.errCnt
  · rw [Chip.stickyWord, sticky]
    exact Chip.bit_stick _ _ _

/-- A function-level reset drops the host's page and what waits for the host. -/
def Chip.functionDropped (c : Chip) : Chip :=
  { c.dropPage hostPage (fun _ _ => false) with sticky := Store.del hostPage c.sticky, irqEn := Store.del hostPage c.irqEn, pba := 0 }

theorem Chip.rd_functionDropped (c : Chip) {f : Fld} (h : f.ok = true) :
    c.functionDropped.rd f = if f.page = hostPage then f.por % 2 ^ f.w else c.rd f := c.rd_dropPage hostPage h

theorem Chip.stickyWord_functionDropped (c : Chip) {p : Nat} (h : p ≠ hostPage) : c.functionDropped.stickyWord p = c.stickyWord p :=
  (Store.get_del _ _ _ _).trans (if_neg h)

/-- What a function-level reset does when the host's outstanding transactions have ended. -/
def Chip.functionKept (c : Chip) : Chip :=
  (((c.functionDropped.wr Hst.gen (c.rd Hst.gen)).wr Hst.linkUp (c.rd Hst.linkUp)).wr Hst.tunnelUp (c.rd Hst.tunnelUp)).stick hostPage 3

theorem Chip.functionReset_eq (c : Chip) : c.functionReset = c.dropHost.functionKept := by
  unfold Chip.functionReset
  generalize c.dropHost = d
  rfl

theorem Chip.functionKept_shows (c : Chip) : c.functionKept.rd Hst.gen = c.rd Hst.gen % 8 ∧
    c.functionKept.rd Hst.linkUp = c.rd Hst.linkUp % 2 ∧ c.functionKept.rd Hst.busMaster = 0 ∧ c.functionKept.rd Hst.msixEn = 0 ∧
    c.functionKept.pba = 0 ∧ c.functionKept.reports = c.reports ∧ bit (c.functionKept.stickyWord hostPage) 3 = true := by
  unfold Chip.functionKept
  refine ⟨?_, ?_, ?_, ?_, rfl, rfl, Chip.bit_stick _ _ _⟩
  · rw [Chip.rd_stick, Chip.rd_wr_ne _ _ (by decide), Chip.rd_wr_ne _ _ (by decide), Chip.rd_wr_self]
    rfl
  · rw [Chip.rd_stick, Chip.rd_wr_ne _ _ (by decide), Chip.rd_wr_self]
    rfl
  · rw [Chip.rd_stick, Chip.rd_wr_ne _ _ (by decide), Chip.rd_wr_ne _ _ (by decide), Chip.rd_wr_ne _ _ (by decide),
      Chip.rd_functionDropped _ rfl]
    rfl
  · rw [Chip.rd_stick, Chip.rd_wr_ne _ _ (by decide), Chip.rd_wr_ne _ _ (by decide), Chip.rd_wr_ne _ _ (by decide),
      Chip.rd_functionDropped _ rfl]
    rfl

theorem Chip.functionKept_other (c : Chip) {f : Fld} (hf : f.ok = true) (other : f.page ≠ hostPage) : c.functionKept.rd f = c.rd f := by
  unfold Chip.functionKept
  rw [Chip.rd_stick, Chip.rd_wr_other _ _ (f := Hst.tunnelUp) rfl hf (.inr (.inl other)),
    Chip.rd_wr_other _ _ (f := Hst.linkUp) rfl hf (.inr (.inl other)), Chip.rd_wr_other _ _ (f := Hst.gen) rfl hf (.inr (.inl other)),
    Chip.rd_functionDropped _ hf, if_neg other]

theorem Chip.stickyWord_functionKept (c : Chip) {p : Nat} (other : p ≠ hostPage) : c.functionKept.stickyWord p = c.stickyWord p := by
  unfold Chip.functionKept
  rw [Chip.stick_other _ _ _ other]
  exact c.stickyWord_functionDropped other

theorem functionReset_gives (hs : s.Runs) : Gives .functionLevelReset s (fun t =>
      t.c.pba = 0 ∧ t.c.rd Hst.linkUp = s.c.rd Hst.linkUp % 2 ∧ t.c.rd Hst.gen = s.c.rd Hst.gen % 8 ∧ t.c.rd Hst.busMaster = 0 ∧
      t.c.rd Hst.msixEn = 0 ∧ bit (t.c.stickyWord hostPage) 3 = true ∧ Within [hostPage] s t) := by
  have before : ∀ f : Fld, f.ok = true → reacts f.page = false → s.c.start.dropHost.rd f = s.c.rd f :=
    fun f hf hr => s.c.start.leaves_dropHost.rd f hf hr (by simp)
  have words : ∀ p, reactsSticky p = false → s.c.start.dropHost.stickyWord p = s.c.stickyWord p :=
    fun p hr => s.c.start.leaves_dropHost.sticky p hr (by simp)
  have quiet : s.c.start.dropHost.reports = [] := Chip.setFlight_reports _ _
  have body := s.c.start.functionReset_eq
  generalize s.c.start.dropHost = a at before words quiet body
  obtain ⟨hgen, hup, hbm, hmsix, pba, reports, shown⟩ := a.functionKept_shows
  have idle : a.functionKept.reports = [] := reports.trans quiet
  have settles (f : Fld) : a.functionKept.settle.rd f = a.functionKept.rd f := Chip.rd_settle_idle _ idle f
  refine gives_of_body hs (exec_functionLevelReset s) body ⟨?_, ?_, ?_, ?_, ?_, Chip.bit_stickyWord_settle shown,
    Within.of_body (fun f hf hr hp => ?_) fun p hr hp => ?_⟩
  · have off : a.functionKept.on Hst.msixEn = false := by simp [Chip.on, hmsix]
    show a.functionKept.settle.pba = 0
    unfold Chip.settle
    rw [idle]
    exact (Chip.pba_interrupts off).trans pba
  · exact (settles _).trans (hup.trans (congrArg (· % 2) (before _ rfl rfl)))
  · exact (settles _).trans (hgen.trans (congrArg (· % 8) (before _ rfl rfl)))
  · exact (settles _).trans hbm
  · exact (settles _).trans hmsix
  · exact (a.functionKept_other hf (by simpa using hp)).trans (before f hf hr)
  · exact (a.stickyWord_functionKept (by simpa using hp)).trans (words p hr)

theorem hostEoi_gives {m : Master} {v : Fin 64} (allows : s.Allows m 0 hostPage (0x48 + 4 * (v.val / 32)) 1 false)
    (raised : bit s.c.cond v = true) (enabled : s.c.on Hst.msixEn = true) (unmasked : s.c.on (msixMask v) = false) :
    Gives (.hostEoi m v) s (fun t => Out.msix v ∈ t.c.out ∧ Confined [] [] s t) := by
  have sends : s.c.start.hostEoi v = s.c.start.sendVector v := if_pos raised
  obtain ⟨sent, reports⟩ := Chip.mem_out_sendVector (c := s.c.start) enabled unmasked
  exact gives_of_body allows.1 (exec_hostEoi m v s) ((guarded_allows s m 0 hostPage _ _ false (fun c => c.hostEoi v) allows).trans sends)
    ⟨mem_out_settle reports sent, (leaves_sendVector s.c.start v).confined⟩

theorem msixUnmask_gives {m : Master} {v : Fin 64} (allows : s.Allows m 0 hostPage (0x80C + 16 * v) 1 false)
    (masked : s.c.on (msixMask v) = true) : Gives (.msixUnmask m v) s (fun t =>
      t.c.on (msixMask v) = false ∧ (bit s.c.cond v = true → s.c.on Hst.msixEn = true → Out.msix v ∈ t.c.out) ∧
      (bit s.c.cond v = false → bit t.c.pba v = false) ∧ Confined [msixMask v] [] s t) := by
  let b := s.c.start.wr (msixMask v) 0
  let d := if bit b.cond v then b.sendVector v else { b with pba := setBit b.pba v false }
  have unmasks : (if s.c.start.on (msixMask v) then s.c.start.msixUnmask v else s.c.start) = d := if_pos masked
  have opened : b.on (msixMask v) = false := by
    rw [Chip.on, Chip.rd_wr_self]
    rfl
  have written : Chip.Leaves [msixMask v] [] s.c.start b := (Chip.Leaves.refl _).wr (List.mem_singleton_self _) 0
  have known : d.flds = b.flds ∧ d.reports = [] ∧ Chip.Leaves [msixMask v] [] s.c.start d := by
    simp only [d]
    split
    · exact ⟨(idle_sendVector b v).flds, (reports_sendVector b v).trans rfl, written.trans (leaves_sendVector b v)⟩
    · exact ⟨rfl, rfl, written.keep rfl rfl⟩
  obtain ⟨flds, quiet, whole⟩ := known
  have still : d.on (msixMask v) = false := by
    rw [Chip.on, Chip.rd, flds]
    exact opened
  refine gives_of_body allows.1 (exec_msixUnmask m v s)
    ((guarded_allows s m 0 hostPage _ _ false (fun c => if c.on (msixMask v) then c.msixUnmask v else c) allows).trans unmasks)
    ⟨?_, fun raised enabled => ?_, fun none_ => ?_, whole.confined⟩
  · rw [Chip.on, Chip.rd_settle_idle _ quiet]
    exact still
  · have sends : d = b.sendVector v := if_pos raised
    have on : b.on Hst.msixEn = true := by
      rw [Chip.on, Chip.rd_wr_ne _ _ (msixEn_key_ne v)]
      exact enabled
    exact mem_out_settle quiet (sends ▸ (Chip.mem_out_sendVector on opened).1)
  · have idle : bit b.cond v = false := none_
    have drops : d = { b with pba := setBit b.pba v false } := if_neg (by simp [idle])
    show bit d.settle.pba v = false
    unfold Chip.settle
    rw [quiet]
    refine Chip.bit_pba_interrupts still ?_
    rw [drops]
    exact bit_setBit_false _ _

theorem bootGo_gives {m : Master} (allows : s.Allows m 0 hostPage 0x40 1 false) (waits : s.c.rd Dev.boot = 3) :
    Gives (.bootGo m) s (fun t => t.c.rd Hst.bootGo = 0 ∧
      (if s.c.imageValid s.mem 0 0 then t.c.rd Dev.boot = 4 ∧ t.c.rd Dev.hostImg = 1 ∧ t.c.rd Cfab.remap = 1 ∧
          t.c.rd Dev.fwVer = Mem.word s.mem 0 4
       else t.c.rd Dev.boot = 3 ∧ bit (t.c.stickyWord hostPage) 4 = true) ∧ Within [hostPage, devPage] s t) := by
  have waits' : ¬(s.c.start.rd Dev.boot ≠ 3 ∧ s.c.start.rd Dev.boot ≠ 5) := fun h => h.1 waits
  have runs := trigger_allows s m hostPage 0x40 1 false (fun c => c.bootGo s.mem) allows
  by_cases valid : s.c.imageValid s.mem 0 0 = true
  · let b := (s.c.start.wr Dev.hostImg 1).wr Hst.bootGo 0
    have starts : s.c.start.bootGo s.mem = b.startFirmware s.mem := (if_neg waits').trans (if_pos valid)
    have begun : b.rd Dev.hostImg = 1 ∧ b.rd Hst.bootGo = 0 := by
      refine ⟨?_, Chip.rd_wr_self _ Hst.bootGo 0⟩
      rw [Chip.rd_wr_ne _ _ (by decide), Chip.rd_wr_self]
      rfl
    have written : Chip.Leaves [Dev.boot, Dev.fwVer, Dev.hostImg, Hst.bootGo] [devPage] s.c.start b :=
      ((Chip.Leaves.refl _).wr (f := Dev.hostImg) (by simp) 1).wr (f := Hst.bootGo) (by simp) 0
    obtain ⟨boot, remap, ver, reports, whole⟩ := b.startFirmware_shows s.mem
    have quiet : (b.startFirmware s.mem).reports = [] := reports
    have keeps (f : Fld) (h : f.key ≠ Cfab.remap.key ∧ f.key ≠ Dev.boot.key ∧ f.key ≠ Dev.fwVer.key) :
        (b.startFirmware s.mem).rd f = b.rd f := by
      obtain ⟨h₁, h₂, h₃⟩ := h
      rw [Chip.startFirmware, Chip.rd_stick, Chip.rd_wr_ne _ _ h₃, Chip.rd_wr_ne _ _ h₂, Chip.rd_wr_ne _ _ h₁]
    simp only [valid, if_true]
    refine gives_of_body_mem allows.1 (exec_bootGo m s) (congrArg (·, s.mem) (runs.trans starts)) ⟨?_, ⟨?_, ?_, ?_, ?_⟩,
      (written.trans (whole.widen (by simp) (fun _ h => h))).within (by decide) (by decide)⟩
    · exact (Chip.rd_settle_idle _ quiet _).trans ((keeps _ (by decide)).trans begun.2)
    · exact (Chip.rd_settle_idle _ quiet _).trans boot
    · exact (Chip.rd_settle_idle _ quiet _).trans ((keeps _ (by decide)).trans begun.1)
    · exact (Chip.rd_settle_idle _ quiet _).trans remap
    · exact (Chip.rd_settle_idle _ quiet _).trans ver
  · let d := ((s.c.start.wr Hst.bootGo 0).raise 0xF4 devPage 2 0).stick hostPage 4
    have refuses : s.c.start.bootGo s.mem = d := (if_neg waits').trans (if_neg valid)
    have whole : Chip.Leaves [Hst.bootGo] [hostPage] s.c.start d :=
      (((Chip.Leaves.refl _).wr (f := Hst.bootGo) (by simp) 0).raise _ _ _ _).stick (.inl (by simp)) 4
    simp only [valid, if_false]
    refine gives_of_body_mem allows.1 (exec_bootGo m s) (congrArg (·, s.mem) (runs.trans refuses)) ⟨?_, ⟨?_,
      Chip.bit_stickyWord_settle (Chip.bit_stick _ _ _)⟩, whole.within (by decide) (by decide)⟩
    · exact (Chip.rd_settle_host d rfl rfl).trans (Chip.rd_wr_self s.c.start Hst.bootGo 0)
    · have kept : d.rd Dev.boot = s.c.start.rd Dev.boot := s.c.start.rd_wr_ne (f := Hst.bootGo) (g := Dev.boot) 0 (by decide)
      exact ((d.rd_settle rfl (by decide)).trans kept).trans waits

end

/-- Settles O47: the host's page and its messages stand on no page that a reaction to a fault writes. -/
theorem hostAttachment : Obligations.HostAttachment := fun _ =>
  ⟨fun _ tunnel bm msix hs lo hi => linkUp_gives hs tunnel bm msix lo hi, linkDown_gives, routerReset_gives,
    fun recovered hs => linkError_gives hs recovered, functionReset_gives, fun _ _ => hostEoi_gives, fun _ _ => msixUnmask_gives,
    fun _ => bootGo_gives⟩

end Sys2Proof.Machine
end

section
/-! SUPPORT. The board controller's two paths (O48): serial reads and writes of one word, each a transaction of its own. -/

namespace Sys2Proof.Machine

theorem exec_mspiRead (addr : BitVec 32) (n : BitVec 8) (s : State) : exec (.mspiRead addr n) s = execMspiRead addr n s := rfl
theorem exec_mspiWrite (addr : BitVec 32) (ws : List (BitVec 32)) (s : State) : exec (.mspiWrite addr ws) s = execMspiWrite addr ws s := rfl
theorem exec_mspiStatus (s : State) : exec .mspiStatus s = execMspiStatus s := rfl
theorem exec_mspiBadFrame (s : State) : exec .mspiBadFrame s = execMspiBadFrame s := rfl
theorem exec_bi2cWrite (addr : BitVec 32) (ws : List (BitVec 32)) (ok : Bool) (s : State) :
    exec (.bi2cWrite addr ws ok) s = execBi2cWrite addr ws ok s := rfl
theorem exec_bi2cRead (n : BitVec 8) (ok : Bool) (s : State) : exec (.bi2cRead n ok) s = execBi2cRead n ok s := rfl

/-! ## Words without mirrored fields -/

/-- No write that waits for its epoch gives a bit of a word without mirrored fields to a read. -/
theorem Chip.newest_unmirrored (c : Chip) {sp p off v : Nat} (unmirrored : newestMask sp p off = 0) (small : v < 2 ^ 32) :
    c.newest sp p off v = v := by
  have same (d : Nat) (m : Nat) : mergeBits v d (m &&& newestMask sp p off) = v := by
    rw [unmirrored, Nat.and_zero, mergeBits, Nat.and_zero, Nat.or_zero, Nat.sub_zero, allBits, Nat.and_two_pow_sub_one_eq_mod]
    exact Nat.mod_eq_of_lt small
  unfold Chip.newest
  dsimp only
  split
  · rfl
  · refine List.foldlRecOn (motive := (· = v)) _ _ rfl fun u hu i _ => ?_
    rw [hu]
    split
    · exact same _ _
    · rfl

/-- The word of the management page's rights. -/
theorem Chip.bodyWord_rights (c : Chip) (m : Master) : c.bodyWord m mgmtPage 0x40 =
    c.rd Mgmt.mspiWr + 2 * c.rd Mgmt.mspiCmd + 4 * c.rd Mgmt.bi2cCmd := by
  have word : wordFields mgmtPage 0 0x40 = [Mgmt.mspiWr, Mgmt.mspiCmd, Mgmt.bi2cCmd] := by decide
  have stored : c.bodyWord m mgmtPage 0x40 = c.storedWord mgmtPage 0 0x40 := rfl
  have sum : c.storedWord mgmtPage 0 0x40 = 0 + c.rd Mgmt.mspiWr * 2 ^ 0 + c.rd Mgmt.mspiCmd * 2 ^ 1 + c.rd Mgmt.bi2cCmd * 2 ^ 2 := by
    rw [Chip.storedWord, word]
    rfl
  rw [stored, sum]
  omega

/-- The word of the lower half of the mailbox's counter. -/
theorem Chip.bodyWord_cntLo (c : Chip) (m : Master) : c.bodyWord m cmdPage 0x60 = c.rd Cmd.cntLo := by
  have word : wordFields cmdPage 0 0x60 = [Cmd.cntLo] := by decide
  have stored : c.bodyWord m cmdPage 0x60 = c.storedWord cmdPage 0 0x60 := rfl
  have sum : c.storedWord cmdPage 0 0x60 = 0 + c.rd Cmd.cntLo * 2 ^ 0 := by
    rw [Chip.storedWord, word]
    rfl
  rw [stored, sum]
  omega

theorem Chip.regWordRead_rights (c : Chip) (mem : Mem) (m : Master) : c.regWordRead mem m mgmtPage 0x40 0 0 =
    (c, c.rd Mgmt.mspiWr + 2 * c.rd Mgmt.mspiCmd + 4 * c.rd Mgmt.bi2cCmd) := by
  have read : c.regWordRead mem m mgmtPage 0x40 0 0 = (c, c.newest 0 mgmtPage 0x40 (c.bodyWord m mgmtPage 0x40)) := rfl
  have bits := And.intro (c.rd_lt Mgmt.mspiWr) (And.intro (c.rd_lt Mgmt.mspiCmd) (c.rd_lt Mgmt.bi2cCmd))
  simp only [Mgmt.mspiWr, Mgmt.mspiCmd, Mgmt.bi2cCmd] at bits
  rw [read, c.bodyWord_rights, Chip.newest_unmirrored c (by decide)]
  simp only [Mgmt.mspiWr, Mgmt.mspiCmd, Mgmt.bi2cCmd]
  omega

theorem Chip.regWordRead_cntLo (c : Chip) (mem : Mem) (m : Master) : c.regWordRead mem m cmdPage 0x60 0 0 = (c, c.rd Cmd.cntLo) := by
  have read : c.regWordRead mem m cmdPage 0x60 0 0 = (c, c.newest 0 cmdPage 0x60 (c.bodyWord m cmdPage 0x60)) := rfl
  rw [read, c.bodyWord_cntLo, Chip.newest_unmirrored c (by decide) (c.rd_lt Cmd.cntLo)]

/-! ## A write of a word that is one field -/

section
variable {p off : Nat} {f : Fld} (word : wordFields p 0 off = [f]) (home : homePage p 0 off = p) (rw_ : f.acc = .rw) (low : f.lo = 0)
include word home rw_ low

/-- Such a write sets the field. -/
theorem Chip.plainWrite_field (c : Chip) (data : Nat) : c.plainWrite p 0 off data (2 ^ f.w - 1) = c.wrAny f (data % 2 ^ f.w) := by
  have whole (n : Nat) : n &&& (2 ^ f.w - 1) = n % 2 ^ f.w := Nat.and_two_pow_sub_one_eq_mod n f.w
  have mask : (2 ^ f.w - 1) % 2 ^ f.w = 2 ^ f.w - 1 := Nat.mod_eq_of_lt (Nat.sub_lt (Nat.two_pow_pos _) Nat.one_pos)
  simp only [Chip.plainWrite, home, word, Chip.putRw, List.foldl_cons, List.foldl_nil, rw_, low, if_true, Nat.pow_zero, Nat.div_one, mask,
    whole, Nat.mod_mod, Nat.sub_self, Nat.and_zero, Nat.or_zero]

end

section
variable {p off : Nat} {f : Fld} (hit : reached p 0 off (beMask 15) writable = [f])
  (unlocked : reached p 0 off (beMask 15) (· = .rwl) = []) (kept : clearsOnZero p 0 off = false) (low : f.lo = 0)
include hit unlocked kept low

/-- A write with the right to it reaches the page with the field's bits. -/
theorem Chip.bodyWrite_field {c : Chip} {m : Master} (may : c.mayWrite m p 0 off 0 = true)
    (here : mirroredFld p f = true → c.ignoresMirrored = false ∧ c.mirrors = false) (mem : Mem) (data : Nat) :
    c.bodyWrite mem m p 0 off data 15 = c.applyWord mem m p 0 off data (fldMask [f] &&& beMask 15) := by
  have noCounts : clearedFields p 0 off (beMask 15) = [] := by simp [clearedFields, kept]
  have yes : [f].filter (fun f => c.mayWrite m p 0 off f.lo) = [f] := by simp [low, may]
  cases mirrored : mirroredFld p f with
  | false =>
    simp only [Chip.bodyWrite, hit, unlocked, noCounts, ite_self, List.isEmpty_nil, if_true, yes, low, may, List.any_cons, List.any_nil,
      mirrored, List.filter_cons, List.filter_nil, Bool.not_true, Bool.false_and, Bool.or_false, Bool.false_eq_true, if_false,
      List.foldl_nil]
  | true =>
    obtain ⟨obeys, single⟩ := here mirrored
    simp only [Chip.bodyWrite, hit, unlocked, noCounts, ite_self, List.isEmpty_nil, if_true, yes, low, may, List.any_cons, List.any_nil,
      mirrored, List.filter_cons, List.filter_nil, Bool.not_true, Bool.false_and, Bool.or_false, Bool.false_eq_true, if_false,
      List.foldl_nil, obeys, single, Bool.and_false]

/-- A write without the right to it that would change the field is denied and changes nothing else. -/
theorem Chip.bodyWrite_denied {c : Chip} {m : Master} (may : c.mayWrite m p 0 off 0 = false) {data : Nat}
    (touches : c.touches f data (beMask 15) = true) (mem : Mem) : c.bodyWrite mem m p 0 off data 15 = (c.denied m, mem) := by
  have noCounts : clearedFields p 0 off (beMask 15) = [] := by simp [clearedFields, kept]
  have no : [f].filter (fun f => c.mayWrite m p 0 off f.lo) = [] := by simp [low, may]
  have none_ : fldMask [] &&& beMask 15 = 0 := by decide
  simp only [Chip.bodyWrite, hit, unlocked, noCounts, ite_self, List.isEmpty_nil, if_true, no, low, may, List.any_cons, List.any_nil,
    List.filter_nil, Bool.not_true, Bool.not_false, Bool.true_and, Bool.false_and, Bool.or_false, Bool.false_eq_true, if_false,
    List.foldl_nil, touches, Bool.false_or, none_, Chip.applyWord]

end

/-! ## One transaction on a serial path (R441, R442) -/

/-- A write of one register word below page 512 that its port takes reaches the word alone. -/
theorem Chip.transact_writeWord {c : Chip} {m : Master} {id : Nat} (free : c.portHeld (masterNum m) true = false)
    (fewIds : (id :: (c.inFlight.filter (fun p => p.1 = masterNum m)).map Prod.snd).eraseDups.length ≤ idLimit (masterNum m))
    (first : ((c.inFlight.filter (fun p => p.1 = masterNum m)).map Prod.snd).filter (· = id) = []) (runs : c.masterRuns m = true)
    (seen : m = .jtag → c.debugSeen = true) (mem : Mem) {p off : Nat} (exists_ : pageExists p = true) (inPage : off < 4096)
    (aligned : off % 4 = 0) (body : 0x40 ≤ off) (common : perMaster p off = false) (noWindow : ¬(hasWindow p ∧ off = 0xF4)) (w : Nat)
    {r : Chip × Mem} (written : (c.portServes m).bodyWrite mem m p 0 off w 15 = r) (answered : r.1.resp = .okay) :
    c.transact mem m (0x40000000 + 4096 * p + off) id true
      (fun d => d.fabricWrite mem m (0x40000000 + 4096 * p + off) id [(w, 15)]) = r := by
  have small : p < 512 := lt_of_pageExists exists_
  have place : Chip.region (c.portServes m) (0x40000000 + 4096 * p + off) = .reg (4096 * p + off) := by
    have offset : 0x40000000 + 4096 * p + off - 0x40000000 = 4096 * p + off := by omega
    rw [Chip.region, if_pos (by omega), offset]
  have page : (4096 * p + off) / 4096 = p := by omega
  have inside : (4096 * p + off) % 4096 = off := by omega
  have shape : regShape (4096 * p + off) [(w, 15)].length = true := by
    simp only [regShape, Bool.and_eq_true, decide_eq_true_eq, Bool.or_eq_true, List.length_singleton]
    omega
  have runs' : Chip.masterRuns (c.portServes m) m = true := runs
  have seen' : m = .jtag → (c.wr (Cfab.outPeak.nth (masterNum m)) (c.nextPeak m)).debugSeen = true := seen
  have served : { c.wr (Cfab.outPeak.nth (masterNum m)) (c.nextPeak m) with resp := .okay, rdata := [] } = c.portServes m := rfl
  have word : (c.portServes m).regWordWrite mem m p off w 15 = r := by
    rw [Chip.regWordWrite, if_neg (by omega), if_neg (by simp [common]), if_neg noWindow]
    exact written
  have reach : (c.wr (Cfab.outPeak.nth (masterNum m)) (c.nextPeak m)).fabricWrite mem m (0x40000000 + 4096 * p + off) id [(w, 15)] = r := by
    simp only [Chip.fabricWrite, Chip.debugOpen_seen _ m seen', served, runs', place, page, inside, shape, exists_, Bool.not_true,
      Bool.false_eq_true, if_false, Chip.regRun, word]
  rw [Chip.transact_free free fewIds first runs, reach]
  simp only [answered]
  exact congrArg (·, r.2) (if_neg (by decide : ¬Resp.okay = .withheld))

/-- A serial write of one word that is answered. -/
theorem Chip.serialWrites_one {c : Chip} {mem : Mem} {m : Master} {addr w : Nat} {r : Chip × Mem}
    (h : c.transact mem m addr 0 true (fun d => d.fabricWrite mem m addr 0 [(w, 15)]) = r) (answered : r.1.resp = .okay) :
    c.serialWrites mem m addr [w] = r := by
  have same : ({ r.1 with resp := .okay } : Chip) = r.1 := by rw [← answered]
  simp only [Chip.serialWrites, h, answered, same]
  rw [if_neg (by decide), if_neg (by decide)]

/-- A serial read of one word that is answered. -/
theorem Chip.serialReads_one {c : Chip} {mem : Mem} {m : Master} {addr : Nat} {d : Chip} {v : Nat} (mark : Bool)
    (h : c.transact mem m addr 0 false (fun c => (c.fabricRead mem m addr 0 1, mem)) = (d.answered [v], mem)) :
    c.serialReads mem m addr mark 1 = (d.answered [v], (if mark then [0xA5] else []) ++ shaBytes 4 v) := by
  have okay : (d.answered [v]).resp = .okay := rfl
  have data : (d.answered [v]).rdata = [v] := rfl
  generalize d.answered [v] = e at h okay data
  simp [Chip.serialReads, h, okay, data]

/-- A serial read that no target answers. -/
theorem Chip.serialReads_decErr {c : Chip} {mem : Mem} {m : Master} {addr : Nat} {e : Chip}
    (h : c.transact mem m addr 0 false (fun c => (c.fabricRead mem m addr 0 1, mem)) = (e, mem)) (failed : e.resp = .decerr) :
    c.serialReads mem m addr true 1 = ({ e with resp := .slverr }, [0x5A, 0, 0, 0, 0]) := by
  simp [Chip.serialReads, h, failed]

theorem Chip.region_portServes (c : Chip) (m : Master) (a : Nat) : (c.portServes m).region a = c.region a := by
  have same : (c.portServes m).rd Cfab.remap = c.rd Cfab.remap := c.rd_portServes m (by decide)
  rw [Chip.region, Chip.region, Chip.on, Chip.on, same]

/-- A read of an address that no target holds, below the ports (R431). -/
theorem Chip.fabricRead_unmapped {c : Chip} {m : Master} (runs : c.masterRuns m = true) (seen : m = .jtag → c.debugSeen = true)
    {addr : Nat} (nowhere : Chip.region { c with resp := .okay, rdata := [] } addr = .none) (mem : Mem) (id n : Nat) :
    c.fabricRead mem m addr id n =
      { (Chip.decErr { c with resp := .okay, rdata := [] } m addr id false) with rdata := List.replicate n 0 } := by
  have runs' : Chip.masterRuns { c with resp := .okay, rdata := [] } m = true := runs
  have reach : c.fabricReach mem m addr id n = Chip.decErr { c with resp := .okay, rdata := [] } m addr id false := by
    simp only [Chip.fabricReach, c.debugOpen_seen m seen, runs', nowhere, Bool.not_true, Bool.false_eq_true, if_false]
  rw [Chip.fabricRead, reach]
  exact if_pos rfl

/-- Such a read at its port. -/
theorem Chip.transact_unmapped {c : Chip} {m : Master} {id : Nat} (free : c.portHeld (masterNum m) false = false)
    (fewIds : (id :: (c.inFlight.filter (fun p => p.1 = masterNum m)).map Prod.snd).eraseDups.length ≤ idLimit (masterNum m))
    (first : ((c.inFlight.filter (fun p => p.1 = masterNum m)).map Prod.snd).filter (· = id) = []) (runs : c.masterRuns m = true)
    (seen : m = .jtag → c.debugSeen = true) {addr : Nat} (nowhere : c.region addr = .none) (mem : Mem) :
    c.transact mem m addr id false (fun d => (d.fabricRead mem m addr id 1, mem)) =
      ({ (c.portServes m).decErr m addr id false with rdata := [0] }, mem) := by
  have place : Chip.region (c.portServes m) addr = .none := (c.region_portServes m addr).trans nowhere
  have read : (c.wr (Cfab.outPeak.nth (masterNum m)) (c.nextPeak m)).fabricRead mem m addr id 1 =
      { (c.portServes m).decErr m addr id false with rdata := [0] } :=
    Chip.fabricRead_unmapped (c := c.wr (Cfab.outPeak.nth (masterNum m)) (c.nextPeak m)) runs seen place mem id 1
  have failed : ((c.portServes m).decErr m addr id false).resp = .decerr := rfl
  rw [Chip.transact_free free fewIds first runs]
  simp only [read, failed]
  exact congrArg (·, mem) (if_neg (by decide : ¬Resp.decerr = .withheld))

/-- An error response is recorded on the fabric's own page. -/
theorem Chip.Leaves.decErr {gs : List Fld} {ps : List Nat} {a b : Chip} (h : Chip.Leaves gs ps a b) (hp : cfabPage ∈ ps) (m : Master)
    (addr id : Nat) (write : Bool) : Chip.Leaves gs ps a (b.decErr m addr id write) := by
  have shown := (((((h.wrReacting (f := Cfab.errMaster) rfl (masterNum m)).wrReacting (f := Cfab.errResp) rfl 2).wrReacting
    (f := Cfab.errWrite) rfl (b2n write)).wrReacting (f := Cfab.errId) rfl id).wrReacting (f := Cfab.errValid) rfl 1).wrReacting
    (f := Cfab.errAddr) rfl addr
  have recorded : Chip.Leaves gs ps a (b.fabricError m addr 2 id write) := shown.keep rfl rfl
  exact (recorded.raise _ _ _ _).stick (.inl hp) 0

/-! ## The board controller's frames (R441) -/

/-- What a judgement of a frame or a transfer leaves: the collector's notes and what it reports. -/
theorem Chip.judge_keeps (c : Chip) (quiet : c.reports = []) (src page inst detail : Nat) (bad inj : Bool) :
    ∃ u r, c.judge src page inst detail bad inj = { c with fcu := u, reports := r } ∧ ∀ q ∈ r, q.src = src := by
  obtain ⟨u, r, e⟩ := c.judge_frame src page inst detail bad inj
  refine ⟨u, r, e, fun q hq => ?_⟩
  have known := Chip.mem_reports_judge (c := c) (r := q) (by rw [e]; exact hq)
  rw [quiet] at known
  exact known.resolve_left List.not_mem_nil

/-- What is driven outward before a command ends stands when it ends. -/
theorem Chip.mem_out_settle_any {c : Chip} {x : Out} (hx : x ∈ c.out) : x ∈ c.settle.out := by
  obtain ⟨l, e, -⟩ := c.drivesOn_settle
  rw [e]
  exact List.mem_append_left _ hx

section
variable {s : State}

/-- What a read frame of one word leaves, once its transaction is known. -/
theorem mspiRead_body {b d : Chip} {mem : Mem} {addr : BitVec 32} {bytes : List Nat} {c : Chip} (good : c.spiGood = b)
    (reads : b.serialReads mem .mspi addr.toNat true 1 = (d, bytes)) :
    (fun c mem => let r := Chip.serialReads (Chip.spiGood c) mem .mspi addr.toNat true (1 : BitVec 8).toNat
      ((r.1.updHost (fun h => { h with spiErr := r.1.failed })).emit (.serial r.2), (mem : Mem))) c mem =
    ((d.updHost (fun h => { h with spiErr := d.failed })).emit (.serial bytes), mem) := by
  have one : (1 : BitVec 8).toNat = 1 := rfl
  simp only [good, one, reads]

theorem mspiRead_gives (hs : s.Runs) (port : s.PortTakes .mspi 0 false) (runs : s.c.masterRuns .mspi = true) :
    Gives (.mspiRead 0x4000B040 1) s (fun t =>
      Out.serial [0xA5, 0, 0, 0, s.c.rd Mgmt.mspiWr + 2 * s.c.rd Mgmt.mspiCmd + 4 * s.c.rd Mgmt.bi2cCmd] ∈ t.c.out ∧
      t.c.host.spiErr = false ∧ Confined [] [] s t) := by
  obtain ⟨u, r, judged⟩ := s.c.start.judge_frame 0xD5 mgmtPage 0 0 false false
  let b := { s.c.start with fcu := u, reports := r }
  have good : s.c.start.spiGood = b := judged
  obtain ⟨free, fewIds, first⟩ := port
  have read := Chip.transact_readWord (c := b) (m := .mspi) (id := 0) free fewIds first runs nofun s.mem (p := mgmtPage) (off := 0x40)
    (by decide) (by decide) (by decide) (by decide) rfl
  rw [Chip.regWordRead_rights, Chip.rd_portServes _ _ (by decide), Chip.rd_portServes _ _ (by decide),
    Chip.rd_portServes _ _ (by decide)] at read
  let v := s.c.rd Mgmt.mspiWr + 2 * s.c.rd Mgmt.mspiCmd + 4 * s.c.rd Mgmt.bi2cCmd
  have small : v < 8 := by
    have bits := And.intro (s.c.rd_lt Mgmt.mspiWr) (And.intro (s.c.rd_lt Mgmt.mspiCmd) (s.c.rd_lt Mgmt.bi2cCmd))
    simp only [Mgmt.mspiWr, Mgmt.mspiCmd, Mgmt.bi2cCmd] at bits
    simp only [v, Mgmt.mspiWr, Mgmt.mspiCmd, Mgmt.bi2cCmd]
    omega
  have bytes : [0xA5] ++ shaBytes 4 v = [0xA5, 0, 0, 0, v] := by
    generalize v = n at small
    interval_cases n <;> rfl
  have one := Chip.serialReads_one (addr := (0x4000B040 : BitVec 32).toNat) (d := b.portServes .mspi) (v := v) true read
  rw [if_pos rfl, bytes] at one
  let d := (((b.portServes .mspi).answered [v]).updHost
    (fun h => { h with spiErr := ((b.portServes .mspi).answered [v]).failed })).emit (.serial [0xA5, 0, 0, 0, v])
  have kept : Chip.Leaves [] [] s.c.start d := Chip.Leaves.keep
    (Chip.Leaves.portServes (.keep (.refl s.c.start) (c := b) rfl rfl) .mspi) rfl rfl
  refine gives_of_body_mem hs (exec_mspiRead _ _ s) (d := d) (m := s.mem) (mspiRead_body good one)
    ⟨Chip.mem_out_settle_any (List.mem_append_right _ (List.mem_singleton_self _)), ?_, kept.confined⟩
  show d.settle.host.spiErr = false
  rw [(settled _).host]
  rfl

/-- What is left of a read frame that no target answers. -/
def Chip.unmapped (c : Chip) (addr : Nat) : Chip :=
  (({ c.decErr .mspi addr 0 false with rdata := [0], resp := .slverr } : Chip).updHost (fun h => { h with spiErr := true })).emit
    (.serial [0x5A, 0, 0, 0, 0])

theorem Chip.unmapped_eq (c : Chip) (addr : Nat) :
    (Chip.updHost { ({ c.decErr .mspi addr 0 false with rdata := [0] } : Chip) with resp := .slverr } (fun h => { h with
      spiErr := Chip.failed { ({ c.decErr .mspi addr 0 false with rdata := [0] } : Chip) with resp := .slverr } })).emit
      (.serial [0x5A, 0, 0, 0, 0]) = c.unmapped addr := by
  rfl

theorem Chip.unmapped_shows (c : Chip) (addr : Nat) : Out.serial [0x5A, 0, 0, 0, 0] ∈ (c.unmapped addr).out ∧
    (c.unmapped addr).host.spiErr = true ∧ bit ((c.unmapped addr).stickyWord cfabPage) 0 = true ∧
    Chip.Leaves [] [cfabPage] c (c.unmapped addr) :=
  ⟨List.mem_append_right _ (List.mem_singleton_self _), rfl, Chip.bit_stick _ _ _,
    ((Chip.Leaves.refl c).decErr (List.mem_singleton_self _) .mspi addr 0 false).keep rfl rfl⟩

theorem mspiRead_unmapped {addr : BitVec 32} (hs : s.Runs) (port : s.PortTakes .mspi 0 false) (runs : s.c.masterRuns .mspi = true)
    (nowhere : s.c.region addr.toNat = .none) : Gives (.mspiRead addr 1) s (fun t =>
      Out.serial [0x5A, 0, 0, 0, 0] ∈ t.c.out ∧ t.c.host.spiErr = true ∧ bit (t.c.stickyWord cfabPage) 0 = true ∧
        Confined [] [cfabPage] s t) := by
  obtain ⟨u, r, judged⟩ := s.c.start.judge_frame 0xD5 mgmtPage 0 0 false false
  let b := { s.c.start with fcu := u, reports := r }
  have good : s.c.start.spiGood = b := judged
  obtain ⟨free, fewIds, first⟩ := port
  have read := Chip.transact_unmapped (c := b) (m := .mspi) free fewIds first runs nofun nowhere s.mem
  have one := Chip.serialReads_decErr read rfl
  have served : Chip.Leaves [] [cfabPage] s.c.start (b.portServes .mspi) :=
    Chip.Leaves.portServes (.keep (c := b) (.refl s.c.start) rfl rfl) .mspi
  obtain ⟨told, failed, shown, kept⟩ := (b.portServes .mspi).unmapped_shows addr.toNat
  have body := (mspiRead_body good one).trans (congrArg (·, s.mem) ((b.portServes .mspi).unmapped_eq addr.toNat))
  generalize (b.portServes .mspi).unmapped addr.toNat = d at body told failed shown kept
  refine gives_of_body_mem hs (exec_mspiRead _ _ s) body
    ⟨Chip.mem_out_settle_any told, ?_, Chip.bit_stickyWord_settle shown, (served.trans kept).confined⟩
  exact (congrArg HostX.spiErr (settled d).host).trans failed

/-- What a write frame of one word leaves, once its transaction is known. -/
theorem mspiWrite_body {b d : Chip} {mem : Mem} {addr w : BitVec 32} {c : Chip} (good : c.spiGood = b)
    (writes : (b.updHost (fun h => { h with spiDenied := false })).serialWrites mem .mspi addr.toNat [w.toNat] = (d, mem)) :
    (fun c mem => let c := (Chip.spiGood c).updHost (fun h => { h with spiDenied := false })
      let r := c.serialWrites mem .mspi addr.toNat ([w].map (fun w => w.toNat))
      (r.1.updHost (fun h => { h with spiErr := r.1.failed }), r.2)) c mem =
    (d.updHost (fun h => { h with spiErr := d.failed }), mem) := by
  have one : [w].map (fun w => w.toNat) = [w.toNat] := rfl
  simp only [good, one, writes]

/-- The rights to a register and the pair's state do not turn on the peak that a port shows. -/
theorem Chip.portServes_may (c : Chip) (m : Master) (p sp off lo : Nat) : (c.portServes m).mayWrite m p sp off lo = c.mayWrite m p sp off lo ∧
    (c.portServes m).ignoresMirrored = c.ignoresMirrored ∧ (c.portServes m).mirrors = c.mirrors := by
  obtain ⟨-, obeys, single, -⟩ := c.portServes_rights m 0
  refine ⟨?_, obeys, single⟩
  cases m
  case mspi => simp only [Chip.mayWrite, Chip.on, Chip.rd_portServes _ _ (f := Mgmt.mspiWr) rfl,
    Chip.rd_portServes _ _ (f := Mgmt.mspiCmd) rfl]
  case bi2c => simp only [Chip.mayWrite, Chip.on, Chip.rd_portServes _ _ (f := Mgmt.bi2cCmd) rfl]
  all_goals rfl

/-- A permitted write of the exception classes of a port. -/
theorem Chip.bodyWrite_excClass {c : Chip} {m : Master} (may : c.mayWrite m (ethPage 0) 0 0x4C 0 = true) (obeys : c.ignoresMirrored = false)
    (single : c.mirrors = false) (mem : Mem) (w : Nat) :
    c.bodyWrite mem m (ethPage 0) 0 0x4C w 15 = (c.wr (Eth.excClass.on 0) (w % 32), mem) := by
  rw [Chip.bodyWrite_field (f := Eth.excClass.on 0) (by decide) (by decide) (by decide) rfl may (fun _ => ⟨obeys, single⟩)]
  have mask : fldMask [Eth.excClass.on 0] &&& beMask 15 = 2 ^ (Eth.excClass.on 0).w - 1 := by decide
  have page (msk : Nat) (h : msk ≠ 0) : c.applyWord mem m (ethPage 0) 0 0x4C w msk = (c.plainWrite (ethPage 0) 0 0x4C w msk, mem) := by
    unfold Chip.applyWord
    exact (if_neg h).trans rfl
  rw [page _ (by decide), mask, Chip.plainWrite_field (f := Eth.excClass.on 0) (by decide) (by decide) rfl rfl]
  rfl

/-- The registers of a written word that the board controller sees. -/
theorem mspiWrite_gives {w : BitVec 32} (allows : s.Allows .mspi 0 (ethPage 0) 0x4C 0 true) (port : s.PortTakes .mspi 0 true) :
    Gives (.mspiWrite 0x4004804C [w]) s (fun t =>
      t.c.rd (Eth.excClass.on 0) = w.toNat % 32 ∧ t.c.host.spiErr = false ∧ t.c.host.spiDenied = false ∧
      Confined [Eth.excClass.on 0] [] s t) := by
  obtain ⟨hs, runs, may, -, here⟩ := allows
  obtain ⟨obeys, single⟩ := here rfl
  obtain ⟨u, r, judged⟩ := s.c.start.judge_frame 0xD5 mgmtPage 0 0 false false
  let b : Chip := { s.c.start with fcu := u, reports := r }
  let b' := b.updHost (fun h => { h with spiDenied := false })
  have good : s.c.start.spiGood = b := judged
  obtain ⟨free, fewIds, first⟩ := port
  obtain ⟨may', obeys', single'⟩ := b'.portServes_may .mspi (ethPage 0) 0 0x4C 0
  have written := Chip.bodyWrite_excClass (c := b'.portServes .mspi) (m := .mspi) (may'.trans may) (obeys'.trans obeys)
    (single'.trans single) s.mem w.toNat
  have one := Chip.serialWrites_one (Chip.transact_writeWord (c := b') (m := .mspi) (id := 0) free fewIds first runs nofun s.mem
    (p := ethPage 0) (off := 0x4C) (by decide) (by decide) (by decide) (by decide) (by decide) (by decide) w.toNat written rfl) rfl
  have body := mspiWrite_body (addr := 0x4004804C) good one
  have served : Chip.Leaves [Eth.excClass.on 0] [] s.c.start (b'.portServes .mspi) :=
    Chip.Leaves.portServes (.keep (c := b') (.refl s.c.start) rfl rfl) .mspi
  have flags : (b'.portServes .mspi).host.spiDenied = false := rfl
  have okay : (b'.portServes .mspi).resp = .okay := rfl
  generalize b'.portServes .mspi = q at body served flags okay
  let d := (q.wr (Eth.excClass.on 0) (w.toNat % 32)).updHost (fun h => { h with
    spiErr := (q.wr (Eth.excClass.on 0) (w.toNat % 32)).failed })
  have kept : Chip.Leaves [Eth.excClass.on 0] [] s.c.start d := (served.wr (List.mem_singleton_self _) (w.toNat % 32)).keep rfl rfl
  refine gives_of_body_mem hs (exec_mspiWrite _ _ s) (d := d) (m := s.mem) body ⟨?_, ?_, ?_, kept.confined⟩
  · refine (d.rd_settle rfl (by decide)).trans ?_
    refine (Chip.rd_wr_self q (Eth.excClass.on 0) _).trans (Nat.mod_eq_of_lt (Nat.mod_lt _ (by decide)))
  · refine (congrArg HostX.spiErr (settled d).host).trans ?_
    show (q.wr (Eth.excClass.on 0) (w.toNat % 32)).failed = false
    simp [Chip.failed, okay]
  · exact (congrArg HostX.spiDenied (settled d).host).trans flags

/-- A denied write of the management SPI. -/
theorem Chip.denied_mspi_shows (c : Chip) : (c.denied .mspi).rd Mgmt.denyMspi = satInc 16 (c.rd Mgmt.denyMspi) ∧
    (c.denied .mspi).host.spiDenied = true ∧ bit ((c.denied .mspi).stickyWord mgmtPage) 2 = true ∧ (c.denied .mspi).reports = c.reports ∧
    Chip.Leaves [Mgmt.denyMspi] [mgmtPage] c (c.denied .mspi) := by
  let b : Chip := { c with host := { c.host with spiDenied := true } }
  have noted : Chip.Leaves [Mgmt.denyMspi] [mgmtPage] c b := .keep (.refl c) rfl rfl
  exact ⟨b.rd_inc_self Mgmt.denyMspi, rfl, Chip.bit_stick _ _ _, rfl,
    (noted.wr (List.mem_singleton_self _) _).stick (.inl (List.mem_singleton_self _)) 2⟩

/-- A write frame without the right to its word is counted. -/
theorem mspiWrite_denied {w : BitVec 32} (hs : s.Runs) (port : s.PortTakes .mspi 0 true) (runs : s.c.masterRuns .mspi = true)
    (locked : s.c.on Mgmt.mspiWr = false) (small : s.c.rd (Eth.excClass.on 0) < 32) (differs : w.toNat % 32 ≠ s.c.rd (Eth.excClass.on 0)) :
    Gives (.mspiWrite 0x4004804C [w]) s (fun t =>
      t.c.rd Mgmt.denyMspi = satInc 16 (s.c.rd Mgmt.denyMspi) ∧ t.c.host.spiDenied = true ∧ bit (t.c.stickyWord mgmtPage) 2 = true ∧
      Confined [Mgmt.denyMspi] [mgmtPage] s t) := by
  obtain ⟨u, r, judged, own⟩ := s.c.start.judge_keeps rfl 0xD5 mgmtPage 0 0 false false
  let b : Chip := { s.c.start with fcu := u, reports := r }
  let b' := b.updHost (fun h => { h with spiDenied := false })
  have good : s.c.start.spiGood = b := judged
  obtain ⟨free, fewIds, first⟩ := port
  have regs {f : Fld} (apart : (decide (f.lo < 32) && decide (f.lo ≠ 17)) = true) : (b'.portServes .mspi).rd f = s.c.rd f :=
    b'.rd_portServes .mspi apart
  have may : (b'.portServes .mspi).mayWrite .mspi (ethPage 0) 0 0x4C 0 = false := by
    have off : (b'.portServes .mspi).on Mgmt.mspiWr = false := by
      rw [Chip.on, regs (by decide)]
      exact locked
    simp only [Chip.mayWrite, off, Bool.false_and]
    exact if_neg (by decide)
  have touched : (b'.portServes .mspi).touches (Eth.excClass.on 0) w.toNat (beMask 15) = true := by
    have low (n : Nat) : n &&& 31 = n % 32 := Nat.and_two_pow_sub_one_eq_mod n 5
    have stands : (b'.portServes .mspi).rdAny (Eth.excClass.on 0) = s.c.rd (Eth.excClass.on 0) := regs (by decide)
    have bits : beMask 15 / 2 ^ (Eth.excClass.on 0).lo % 2 ^ (Eth.excClass.on 0).w = 31 := by decide
    have whole : w.toNat / 2 ^ (Eth.excClass.on 0).lo = w.toNat := Nat.div_one _
    have acc : (Eth.excClass.on 0).acc = .rw := rfl
    simp only [Chip.touches, acc, stands, bits, whole, low, Nat.mod_eq_of_lt small, decide_eq_true_eq]
    exact differs
  have written := Chip.bodyWrite_denied (f := Eth.excClass.on 0) (by decide) (by decide) (by decide) rfl may touched s.mem
  have one := Chip.serialWrites_one (Chip.transact_writeWord (c := b') (m := .mspi) (id := 0) free fewIds first runs nofun s.mem
    (p := ethPage 0) (off := 0x4C) (by decide) (by decide) (by decide) (by decide) (by decide) (by decide) w.toNat written rfl) rfl
  have body := mspiWrite_body (addr := 0x4004804C) good one
  have served : Chip.Leaves [Mgmt.denyMspi] [mgmtPage] s.c.start (b'.portServes .mspi) :=
    Chip.Leaves.portServes (.keep (c := b') (.refl s.c.start) rfl rfl) .mspi
  have counts : (b'.portServes .mspi).rd Mgmt.denyMspi = s.c.rd Mgmt.denyMspi := regs (by decide)
  have told : (b'.portServes .mspi).reports = r := rfl
  generalize b'.portServes .mspi = q at body served counts told
  obtain ⟨count, flag, shown, reports, leaves⟩ := q.denied_mspi_shows
  generalize q.denied .mspi = e at body count flag shown reports leaves
  have kept : Chip.Leaves [Mgmt.denyMspi] [mgmtPage] s.c.start (e.updHost (fun h => { h with spiErr := e.failed })) :=
    (served.trans leaves).keep rfl rfl
  have class13 : ∀ x ∈ (e.updHost (fun h => { h with spiErr := e.failed })).reports, x.src / 16 ∈ [13] := fun x hx => by
    rw [own x (told ▸ reports ▸ hx)]
    decide
  refine gives_of_body_mem hs (exec_mspiWrite _ _ s) body
    ⟨?_, (congrArg HostX.spiDenied (settled _).host).trans flag, Chip.bit_stickyWord_settle shown, kept.confined⟩
  rw [(Chip.reacts_settle _ class13).rd Mgmt.denyMspi (by decide), ← counts]
  exact count

theorem mspiStatus_gives (hs : s.Runs) : Gives .mspiStatus s (fun t =>
      Out.serial [s.c.rd Mgmt.mspiBusy + 2 * b2n s.c.host.spiErr + 4 * b2n s.c.host.spiDenied] ∈ t.c.out ∧
      t.c.host.spiErr = false ∧ t.c.host.spiDenied = false ∧ Confined [] [] s t) := by
  obtain ⟨u, r, judged⟩ := s.c.start.judge_frame 0xD5 mgmtPage 0 0 false false
  let b : Chip := { s.c.start with fcu := u, reports := r }
  have good : s.c.start.spiGood = b := judged
  let d := (b.emit (.serial [b.rd Mgmt.mspiBusy + 2 * b2n b.host.spiErr + 4 * b2n b.host.spiDenied])).updHost
    (fun h => { h with spiErr := false, spiDenied := false })
  have body : (fun c : Chip => let c := c.spiGood
      let b := c.rd Mgmt.mspiBusy + 2 * b2n c.host.spiErr + 4 * b2n c.host.spiDenied
      (c.emit (.serial [b])).updHost (fun h => { h with spiErr := false, spiDenied := false })) s.c.start = d := by
    simp only [good]
    rfl
  have kept : Chip.Leaves [] [] s.c.start d := .keep (.refl _) rfl rfl
  exact gives_of_body hs (exec_mspiStatus s) body
    ⟨Chip.mem_out_settle_any (List.mem_append_right _ (List.mem_singleton_self _)), congrArg HostX.spiErr (settled d).host,
      congrArg HostX.spiDenied (settled d).host, kept.confined⟩

/-- A bad frame is counted. -/
theorem mspiBadFrame_gives (hs : s.Runs) : Gives .mspiBadFrame s (fun t =>
      t.c.rd Mgmt.errMspi = satInc 16 (s.c.rd Mgmt.errMspi) ∧ bit (t.c.stickyWord mgmtPage) 0 = true ∧
        Confined [Mgmt.errMspi] [mgmtPage] s t) := by
  let b := (s.c.start.inc Mgmt.errMspi).stick mgmtPage 0
  obtain ⟨u, r, judged, own⟩ := b.judge_keeps rfl 0xD5 mgmtPage 0 0 true false
  have kept : Chip.Leaves [Mgmt.errMspi] [mgmtPage] s.c.start { b with fcu := u, reports := r } :=
    (((Chip.Leaves.refl _).wr (List.mem_singleton_self _) _).stick (.inl (List.mem_singleton_self _)) 0).keep rfl rfl
  have class13 : ∀ x ∈ r, x.src / 16 ∈ [13] := fun x hx => by
    rw [own x hx]
    decide
  refine gives_of_body hs (exec_mspiBadFrame s) judged ⟨?_, Chip.bit_stickyWord_settle (Chip.bit_stick _ _ _), kept.confined⟩
  rw [(Chip.reacts_settle _ class13).rd Mgmt.errMspi (by decide)]
  exact s.c.start.rd_inc_self Mgmt.errMspi

/-! ## The board controller's transfers (R442) -/

/-- A permitted write of the lower half of the mailbox's counter. -/
theorem Chip.bodyWrite_cntLo {c : Chip} {m : Master} (may : c.mayWrite m cmdPage 0 0x60 0 = true) (idle : c.on Cmd.go = false)
    (free : c.host.owner = none) (mem : Mem) (w : BitVec 32) :
    c.bodyWrite mem m cmdPage 0 0x60 w.toNat 15 = (c.wr Cmd.cntLo w.toNat, mem) := by
  have open_ : ¬((0x5C : Nat) ≤ 0x60 ∧ (0x60 : Nat) < 0xA0 ∧ (c.on Cmd.go ∨ (c.host.owner.isSome ∧ !c.ownsCmd m))) := by
    simp [idle, free]
  rw [Chip.bodyWrite_field (f := Cmd.cntLo) (by decide) (by decide) (by decide) rfl may (fun h => absurd h (by decide))]
  have mask : fldMask [Cmd.cntLo] &&& beMask 15 = 2 ^ Cmd.cntLo.w - 1 := by decide
  have page (msk : Nat) (h : msk ≠ 0) : c.applyWord mem m cmdPage 0 0x60 w.toNat msk = (c.cmdWrite m 0x60 w.toNat msk, mem) := by
    unfold Chip.applyWord
    exact (if_neg h).trans rfl
  rw [page _ (by decide), mask, Chip.cmdWrite, if_neg (by decide), if_neg open_,
    Chip.plainWrite_field (f := Cmd.cntLo) (by decide) (by decide) rfl rfl]
  exact congrArg (fun v => (c.wr Cmd.cntLo v, mem)) (Nat.mod_eq_of_lt w.isLt)

theorem bi2cWrite_gives {w : BitVec 32} (hs : s.Runs) (port : s.PortTakes .bi2c 0 true) (runs : s.c.masterRuns .bi2c = true)
    (may : s.c.on Mgmt.bi2cCmd = true) (idle : s.c.on Cmd.go = false) (unowned : s.c.host.owner = none) :
    Gives (.bi2cWrite 0x40008060 [w] true) s (fun t =>
      t.c.rd Cmd.cntLo = w.toNat ∧ t.c.host.i2cAddr = 0x40008064 ∧ Confined [] [] s t) := by
  obtain ⟨free, fewIds, first⟩ := port
  let q := s.c.start.portServes .bi2c
  have regs {f : Fld} (apart : (decide (f.lo < 32) && decide (f.lo ≠ 17)) = true) : q.rd f = s.c.rd f :=
    s.c.start.rd_portServes .bi2c apart
  have on_ (f : Fld) (apart : (decide (f.lo < 32) && decide (f.lo ≠ 17)) = true) : q.on f = s.c.on f := by rw [Chip.on, regs apart, Chip.on]
  have right : q.mayWrite .bi2c cmdPage 0 0x60 0 = true := by
    simp only [Chip.mayWrite, on_ Mgmt.bi2cCmd (by decide), may]
    decide
  have written := Chip.bodyWrite_cntLo (c := q) (m := .bi2c) right ((on_ Cmd.go (by decide)).trans idle) unowned s.mem w
  have one := Chip.serialWrites_one (Chip.transact_writeWord (c := s.c.start) (m := .bi2c) (id := 0) free fewIds first runs nofun s.mem
    (p := cmdPage) (off := 0x60) (by decide) (by decide) (by decide) (by decide) (by decide) (by decide) w.toNat written rfl) rfl
  have whole : Chip.Leaves [] [] s.c.start (q.wr Cmd.cntLo w.toNat) :=
    ((Chip.Leaves.refl _).portServes .bi2c).wrReacting (f := Cmd.cntLo) rfl w.toNat
  have quiet : (q.wr Cmd.cntLo w.toNat).reports = [] := rfl
  have counter : (q.wr Cmd.cntLo w.toNat).rd Cmd.cntLo = w.toNat := (Chip.rd_wr_self q Cmd.cntLo _).trans (Nat.mod_eq_of_lt w.isLt)
  generalize q.wr Cmd.cntLo w.toNat = e at one whole quiet counter
  let b := e.updHost (fun h => { h with i2cAddr := 0x40008064 })
  obtain ⟨u, r, judged, own⟩ := b.judge_keeps quiet 0xD6 mgmtPage 0 0 false false
  have body : (fun c mem => let r := Chip.serialWrites c mem .bi2c (0x40008060 : BitVec 32).toNat ([w].map (fun w => w.toNat))
      ((r.1.updHost (fun h => { h with i2cAddr := ((0x40008060 : BitVec 32).toNat + 4 * [w].length) % 2 ^ 32 })).i2cEnd true, r.2))
      s.c.start s.mem = ({ b with fcu := u, reports := r }, s.mem) := by
    have single : [w].map (fun w => w.toNat) = [w.toNat] := rfl
    simp only [single]
    refine (congrArg (fun x : Chip × Mem => ((x.1.updHost (fun h => { h with
      i2cAddr := ((0x40008060 : BitVec 32).toNat + 4 * [w].length) % 2 ^ 32 })).i2cEnd true, x.2)) one).trans ?_
    exact congrArg (·, s.mem) judged
  have class13 : ∀ x ∈ r, x.src / 16 ∈ [13] := fun x hx => by
    rw [own x hx]
    decide
  refine gives_of_body_mem hs (exec_bi2cWrite _ _ _ s) body ⟨?_, (congrArg HostX.i2cAddr (settled _).host).trans rfl,
    (whole.keep (c := { b with fcu := u, reports := r }) rfl rfl).confined⟩
  rw [(Chip.reacts_settle _ class13).rd Cmd.cntLo (by decide)]
  exact counter

/-- A transfer that ends with a protocol error is counted. -/
theorem bi2cError_gives (addr : BitVec 32) (hs : s.Runs) : Gives (.bi2cWrite addr [] false) s (fun t =>
      t.c.rd Mgmt.errBi2c = satInc 16 (s.c.rd Mgmt.errBi2c) ∧ bit (t.c.stickyWord mgmtPage) 1 = true ∧ t.c.host.i2cAddr = addr.toNat ∧
      Confined [Mgmt.errBi2c] [mgmtPage] s t) := by
  let e := Chip.updHost { s.c.start with resp := .okay } (fun h => { h with i2cAddr := addr.toNat })
  let b := (e.inc Mgmt.errBi2c).stick mgmtPage 1
  obtain ⟨u, r, judged, own⟩ := b.judge_keeps rfl 0xD6 mgmtPage 0 0 true false
  have ends : (addr.toNat + 4 * 0) % 2 ^ 32 = addr.toNat := Nat.mod_eq_of_lt addr.isLt
  have body : (fun c mem => let r := Chip.serialWrites c mem .bi2c addr.toNat (([] : List (BitVec 32)).map (fun w => w.toNat))
      ((r.1.updHost (fun h => { h with i2cAddr := (addr.toNat + 4 * ([] : List (BitVec 32)).length) % 2 ^ 32 })).i2cEnd false, r.2))
      s.c.start s.mem = ({ b with fcu := u, reports := r }, s.mem) := by
    simp only [List.length_nil, ends]
    exact congrArg (·, s.mem) judged
  have class13 : ∀ x ∈ r, x.src / 16 ∈ [13] := fun x hx => by
    rw [own x hx]
    decide
  have kept : Chip.Leaves [Mgmt.errBi2c] [mgmtPage] s.c.start { b with fcu := u, reports := r } :=
    (((Chip.Leaves.keep (c := e) (.refl s.c.start) rfl rfl).wr (List.mem_singleton_self Mgmt.errBi2c)
      (satInc 16 (e.rd Mgmt.errBi2c))).stick (.inl (List.mem_singleton_self mgmtPage)) 1).keep rfl rfl
  refine gives_of_body_mem hs (exec_bi2cWrite _ _ _ s) body ⟨?_, Chip.bit_stickyWord_settle (Chip.bit_stick _ _ _),
    (congrArg HostX.i2cAddr (settled _).host).trans rfl, kept.confined⟩
  rw [(Chip.reacts_settle _ class13).rd Mgmt.errBi2c (by decide)]
  exact e.rd_inc_self Mgmt.errBi2c

theorem bi2cRead_gives (hs : s.Runs) (port : s.PortTakes .bi2c 0 false) (runs : s.c.masterRuns .bi2c = true)
    (may : s.c.on Mgmt.bi2cCmd = true) (stands : s.c.host.i2cAddr = 0x40008060) : Gives (.bi2cRead 1 true) s (fun t =>
      Out.serial (shaBytes 4 (s.c.rd Cmd.cntLo)) ∈ t.c.out ∧ t.c.host.i2cAddr = 0x40008064 ∧ Confined [] [] s t) := by
  obtain ⟨free, fewIds, first⟩ := port
  have right : (s.c.start.portServes .bi2c).mayRead .bi2c cmdPage 0x60 = true := by
    have on_ : (s.c.start.portServes .bi2c).on Mgmt.bi2cCmd = true := by
      rw [Chip.on, Chip.rd_portServes _ _ (by decide)]
      exact may
    simp only [Chip.mayRead, on_]
    decide
  have read := Chip.transact_readWord (c := s.c.start) (m := .bi2c) (id := 0) free fewIds first runs nofun s.mem (p := cmdPage) (off := 0x60)
    (by decide) (by decide) (by decide) (by decide) right
  rw [Chip.regWordRead_cntLo, Chip.rd_portServes _ _ (by decide)] at read
  have one := Chip.serialReads_one (addr := 0x40008060) (d := s.c.start.portServes .bi2c) (v := s.c.start.rd Cmd.cntLo) false read
  have whole : Chip.Leaves [] [] s.c.start ((s.c.start.portServes .bi2c).answered [s.c.start.rd Cmd.cntLo]) :=
    ((Chip.Leaves.refl _).portServes .bi2c).keep rfl rfl
  have quiet : ((s.c.start.portServes .bi2c).answered [s.c.start.rd Cmd.cntLo]).reports = [] := rfl
  have place : ((s.c.start.portServes .bi2c).answered [s.c.start.rd Cmd.cntLo]).host.i2cAddr = 0x40008060 := stands
  generalize (s.c.start.portServes .bi2c).answered [s.c.start.rd Cmd.cntLo] = e at one whole quiet place
  let b := (e.emit (.serial (shaBytes 4 (s.c.rd Cmd.cntLo)))).updHost (fun h => { h with i2cAddr := (h.i2cAddr + 4 * 1) % 2 ^ 32 })
  obtain ⟨u, r, judged⟩ := b.judge_frame 0xD6 mgmtPage 0 0 false false
  have body : (fun c mem => let r := Chip.serialReads c mem .bi2c (Chip.host c).i2cAddr false (1 : BitVec 8).toNat
      let c := r.1.emit (.serial r.2)
      ((c.updHost (fun h => { h with i2cAddr := (h.i2cAddr + 4 * (1 : BitVec 8).toNat) % 2 ^ 32 })).i2cEnd true, (mem : Mem)))
      s.c.start s.mem = ({ b with fcu := u, reports := r }, s.mem) := by
    have addr : s.c.start.host.i2cAddr = 0x40008060 := stands
    have count : (1 : BitVec 8).toNat = 1 := rfl
    simp only [addr, count, one]
    exact congrArg (·, s.mem) judged
  refine gives_of_body_mem hs (exec_bi2cRead _ _ s) body ⟨Chip.mem_out_settle_any (List.mem_append_right _ (List.mem_singleton_self _)),
    ?_, (whole.keep (c := { b with fcu := u, reports := r }) rfl rfl).confined⟩
  refine (congrArg HostX.i2cAddr (settled _).host).trans ?_
  show (e.host.i2cAddr + 4 * 1) % 2 ^ 32 = _
  rw [place]
  rfl

end

/-- Settles O48: a serial path's words are transactions of one register each, and what a frame or a transfer judges is of one class, whose
reaction writes no register of the mailbox's or the management page. -/
theorem boardController : Obligations.BoardController := fun _ =>
  ⟨fun hs port runs _ => mspiRead_gives hs port runs, fun _ hs port runs nowhere => mspiRead_unmapped hs port runs nowhere,
    fun _ allows port => mspiWrite_gives allows port,
    fun _ hs port runs locked small differs => mspiWrite_denied hs port runs locked small differs, mspiStatus_gives, mspiBadFrame_gives,
    fun _ hs port runs may idle unowned => bi2cWrite_gives hs port runs may idle unowned, fun addr hs => bi2cError_gives addr hs,
    fun hs port runs may _ stands => bi2cRead_gives hs port runs may stands⟩

end Sys2Proof.Machine
end

section
/-! SUPPORT. Power-on reset, `RESET_N`, brown-outs and their release (O51); and the end of a command whose reports no block contains. -/

namespace Sys2Proof.Machine

/-! ## Reports that are not contained (R409, R410) -/

/-- Between two machines no register changes, nor Meridian's own state, nor what is reported. -/
structure Chip.Still (c d : Chip) : Prop where
  flds : d.flds = c.flds
  mer : d.mer = c.mer
  reports : d.reports = c.reports

section
variable {a b c : Chip}

theorem Chip.Still.refl (c : Chip) : Chip.Still c c := ⟨rfl, rfl, rfl⟩

theorem Chip.Still.trans (h : Chip.Still a b) (k : Chip.Still b c) : Chip.Still a c :=
  ⟨k.flds.trans h.flds, k.mer.trans h.mer, k.reports.trans h.reports⟩

theorem Chip.Still.ite {p : Prop} [Decidable p] (h : p → Chip.Still a b) (k : ¬p → Chip.Still a c) : Chip.Still a (if p then b else c) := by
  split
  · exact h ‹_›
  · exact k ‹_›

end

/-- No block contains a report of severity `esev` while the registers stand as in `c`. -/
def Chip.Uncontained (c : Chip) (esev : Nat) (r : Report) : Prop := 3 ≤ esev → ∀ d : Chip, d.flds = c.flds → d.contain r = d

theorem Chip.still_logEntry (c : Chip) (e : LogEntry) : Chip.Still c (c.logEntry e) := by
  unfold Chip.logEntry
  dsimp only
  split <;> exact ⟨rfl, rfl, rfl⟩

theorem Chip.still_markUnack (c : Chip) (e : LogEntry) : Chip.Still c (c.markUnack e) := by
  unfold Chip.markUnack
  dsimp only
  split <;> split <;> exact ⟨rfl, rfl, rfl⟩

theorem Chip.still_stopAlive (c : Chip) (cause : Nat) : Chip.Still c (c.stopAlive cause) := by
  unfold Chip.stopAlive
  dsimp only
  split <;> exact ⟨rfl, rfl, rfl⟩

theorem Chip.still_react {c : Chip} {esev : Nat} {r : Report} (free : c.Uncontained esev r) : Chip.Still c (c.react esev r) := by
  have shown : Chip.Still c (if 2 ≤ esev then c.stick fcuPage (esev - 1) else c) := .ite (fun _ => ⟨rfl, rfl, rfl⟩) fun _ => .refl c
  unfold Chip.react
  dsimp only
  generalize (if 2 ≤ esev then c.stick fcuPage (esev - 1) else c) = d at shown ⊢
  have contained : (if 3 ≤ esev then d.contain r else d) = d := by
    split
    · exact free ‹_› d shown.flds
    · rfl
  rw [contained]
  have held : Chip.Still c (if 3 ≤ esev ∧ !d.masked r then d.startHolds r else d) :=
    .ite (fun _ => shown.trans ⟨rfl, rfl, rfl⟩) fun _ => shown
  generalize (if 3 ≤ esev ∧ !d.masked r then d.startHolds r else d) = d at held ⊢
  refine .ite (fun _ => ?_) fun _ => held
  exact .ite (fun _ => (held.trans (d.still_stopAlive 0)).trans ⟨rfl, rfl, rfl⟩) fun _ => held.trans (d.still_stopAlive 0)

theorem Chip.still_collect {c : Chip} {p : Nat × Report} (free : c.Uncontained p.1 p.2) : Chip.Still c (c.collect p) := by
  have seen : Chip.Still c (if p.2.src = 0x18 then { c with twin := { c.twin with eyeAt := some c.stc } } else c) :=
    .ite (fun _ => ⟨rfl, rfl, rfl⟩) fun _ => .refl c
  unfold Chip.collect
  dsimp only
  generalize (if p.2.src = 0x18 then { c with twin := { c.twin with eyeAt := some c.stc } } else c) = d at seen ⊢
  refine .ite (fun _ => seen) fun _ => ?_
  have logged := seen.trans ((d.still_logEntry (d.entryOf p.1 p.2)).trans (Chip.still_markUnack _ (d.entryOf p.1 p.2)))
  exact logged.trans (Chip.still_react fun severe e he => free severe e (he.trans logged.flds))

/-- The order of R408 ranks each report by its effective severity. -/
theorem Chip.ranked_sev {c : Chip} {p : Nat × Report} (h : p ∈ c.ranked) : p.2 ∈ c.reports ∧ p.1 = c.effSev p.2 := by
  refine ⟨Chip.mem_reports_of_ranked h, ?_⟩
  refine List.foldlRecOn (motive := fun l : List (Nat × Report) => ∀ p ∈ l, p.1 = c.effSev p.2) c.reports _ (by simp)
    (fun l ranked r _ q hq => ?_) p h
  rcases mem_insertReport hq with rfl | hq
  · rfl
  · exact ranked q hq

/-- What is not contained changes no register when it is collected, and reports nothing further. -/
theorem Chip.still_collectTwice {c : Chip} (free : ∀ r ∈ c.reports, c.Uncontained (c.effSev r) r) :
    Chip.Still { c with reports := [] } c.collectTwice := by
  have all : Chip.Still { c with reports := [] } c.collectAll :=
    List.foldlRecOn (motive := Chip.Still { c with reports := [] }) _ _ (.refl _) fun d hd p hp => by
      refine hd.trans (Chip.still_collect fun severe e he => ?_)
      obtain ⟨reported, sev⟩ := Chip.ranked_sev hp
      rw [sev] at severe
      exact free p.2 reported severe e (he.trans hd.flds)
  have none : c.collectAll.reports.isEmpty = true := by rw [all.reports]; rfl
  rw [Chip.collectTwice, if_pos none]
  exact all

/-- A command whose reports are not contained changes no register when it ends. -/
theorem Chip.settle_uncontained {c : Chip} (free : ∀ r ∈ c.reports, c.Uncontained (c.effSev r) r) :
    c.settle.flds = c.flds ∧ c.settle.mer = c.mer := by
  have still := Chip.still_collectTwice free
  unfold Chip.settle
  rw [(idle_interrupts _).flds, (idle_interrupts _).mer]
  split
  · exact ⟨rfl, rfl⟩
  · exact ⟨still.flds, still.mer⟩

theorem Chip.rd_settle_uncontained {c : Chip} (free : ∀ r ∈ c.reports, c.Uncontained (c.effSev r) r) (f : Fld) :
    c.settle.rd f = c.rd f := by rw [Chip.rd, (Chip.settle_uncontained free).1, Chip.rd]

/-! ## COLD and POR (R463, R472 to R476) -/

theorem exec_brownOut (n : Fin 10) (s : State) : exec (.brownOut n) s = execBrownOut n s := rfl
theorem exec_resetRelease (scale compat side bootHost : Bool) (s : State) :
    exec (.resetRelease scale compat side bootHost) s = execResetRelease scale compat side bootHost s := rfl
theorem exec_brownOutRecovery (scale compat side bootHost : Bool) (s : State) :
    exec (.brownOutRecovery scale compat side bootHost) s = execBrownOutRecovery scale compat side bootHost s := rfl

/-- An event of the supplies or pins answers what its body leaves. -/
theorem gives_always {i : Instr} {s : State} {P : State → Prop} {f : Chip → Mem → Chip × Mem} {d : Chip} {m : Mem}
    (e : exec i s = actAlways s f) (hd : f s.c.start s.mem = (d, m)) (h : P { s with c := d.settle, mem := m }) : Gives i s P :=
  Gives.actAlways e (by rw [hd]; exact h)

/-- A reset clears the six memories that are not in the flash, and keeps the flash (R474). -/
theorem Mem.byte_coldReset (m : Mem) : (∀ r : Fin 6, ∀ o : Nat, o < 8589934592 → Mem.byte (Mem.coldReset m) r o = 0) ∧
    (∀ o : Nat, o < 8589934592 → Mem.byte (Mem.coldReset m) 6 o = Mem.byte m 6 o) := by
  have cleared (l : List Nat) (r o : Nat) (ho : o < 8589934592) : ∀ m : Mem, Mem.byte (l.foldl (fun m r => Mem.clear m r) m) r o =
      if r ∈ l then 0 else Mem.byte m r o := by
    induction l with
    | nil => simp
    | cons q l ih =>
      intro m
      rw [List.foldl_cons, ih]
      by_cases later : r ∈ l
      · simp [later]
      · by_cases now : r = q
        · subst now
          simp [later, Mem.byte_clear_self _ _ _ ho]
        · simp [later, now, Mem.byte_clear_other _ now ho]
  refine ⟨fun r o ho => ?_, fun o ho => ?_⟩
  · exact (cleared _ _ _ ho m).trans (if_pos ((by decide : ∀ r : Fin 6, r.val ∈ [0, 1, 2, 3, 4, 5]) r))
  · exact (cleared _ _ _ ho m).trans (if_neg (by decide))

/-- What a write lists is the written key or was listed before. -/
theorem Store.mem_set {α : Type} [DecidableEq α] {d v : α} {m : Store α} {k : Nat} {e : Nat × α} (h : e ∈ Store.set d m k v) :
    e.1 = k ∨ e ∈ m := by
  have inserted (m : Store α) (h : e ∈ Store.ins k v m) : e.1 = k ∨ e ∈ m := by
    induction m with
    | nil => exact .inl (by simp [Store.ins] at h; simp [h])
    | cons x m ih =>
      obtain ⟨j, w⟩ := x
      unfold Store.ins at h
      split at h
      · rcases List.mem_cons.mp h with rfl | h
        · exact .inl rfl
        · exact .inr h
      · split at h
        · rcases List.mem_cons.mp h with rfl | h
          · exact .inl rfl
          · exact .inr (List.mem_cons_of_mem _ h)
        · rcases List.mem_cons.mp h with rfl | h
          · exact .inr List.mem_cons_self
          · exact (ih h).imp_right (List.mem_cons_of_mem _)
  unfold Store.set at h
  split at h
  · exact .inr (List.mem_filter.mp h).1
  · exact inserted m h

/-- What POR or COLD leaves beside its registers. -/
theorem Chip.coldReset_shows (c : Chip) (kind : Nat) : (c.coldReset kind).power.asserted = kind ∧
    (c.coldReset kind).otp = c.otp ∧ (c.coldReset kind).lanes = [] ∧ (c.coldReset kind).reports = c.reports ∧
    (c.coldReset kind).pwrReq = (if kind = 1 then [] else c.pwrReq) ∧ (c.coldReset kind).latTol = (if kind = 1 then [] else c.latTol) ∧
    (c.coldReset kind).fcu.first = (if kind = 1 then none else c.fcu.first) ∧
    (c.coldReset kind).fcu.aon = (if kind = 1 then [] else c.fcu.aon) := by
  obtain ⟨m, h⟩ := c.coldReset_eq kind
  rw [h]
  refine ⟨rfl, rfl, rfl, rfl, rfl, rfl, ?_, ?_⟩
  · show (if kind = 1 then _ else _ : Fcu).first = _
    split <;> rfl
  · show (if kind = 1 then _ else _ : Fcu).aon = _
    split <;> rfl

section
variable {s : State}

theorem por_gives : Gives .por s (fun t =>
      t.c.power.asserted = 1 ∧ (∀ e ∈ t.c.flds, reacts (keyPage e.1) = true) ∧ t.c.fcu.first = none ∧ t.c.fcu.aon = [] ∧
      t.c.pwrReq = [] ∧ t.c.latTol = [] ∧ t.c.otp = s.c.otp ∧ t.c.lanes = [] ∧
      (∀ r : Fin 6, ∀ o : Nat, o < 8589934592 → Mem.byte t.mem r o = 0) ∧
      (∀ o : Nat, o < 8589934592 → Mem.byte t.mem 6 o = Mem.byte s.mem 6 o) ∧ t.pending = s.pending) := by
  obtain ⟨asserted, otp, lanes, reports, pwrReq, latTol, first, aon⟩ := s.c.start.coldReset_shows 1
  have flds : (s.c.start.coldReset 1).flds = [] := (Chip.flds_coldReset _ 1).trans rfl
  obtain ⟨cleared, flash⟩ := Mem.byte_coldReset s.mem
  refine ⟨_, exec_por s, ?_⟩
  generalize s.c.start.coldReset 1 = d at *
  have quiet : d.reports = [] := reports
  refine ⟨?_, ?_, ?_, ?_, ?_, ?_, ?_, ?_, cleared, flash, rfl⟩
  · exact (congrArg PowerX.asserted (settled d).power).trans asserted
  · show ∀ e ∈ d.settle.flds, _
    rw [(idle_settle d quiet).flds, flds]
    exact fun _ h => absurd h List.not_mem_nil
  · exact (congrArg Fcu.first (idle_settle d quiet).fcu).trans first
  · exact (congrArg Fcu.aon (idle_settle d quiet).fcu).trans aon
  · exact (settled d).pwrReq.trans pwrReq
  · exact (settled d).latTol.trans latTol
  · exact (settled d).otp.trans otp
  · exact (settled d).lanes.trans lanes

theorem coldReset_gives (free : s.c.power.asserted = 0 ∨ s.c.power.asserted = 2) : Gives .coldReset s (fun t =>
      t.c.power.asserted = 2 ∧ t.c.pins.resetN = false ∧
      (∀ e ∈ t.c.flds, reacts (keyPage e.1) = true ∨ coldKept e.1 = true) ∧ t.c.fcu.first = s.c.fcu.first ∧
      t.c.fcu.aon = s.c.fcu.aon ∧ t.c.pwrReq = s.c.pwrReq ∧ t.c.latTol = s.c.latTol ∧ t.c.otp = s.c.otp ∧
      (∀ r : Fin 6, ∀ o : Nat, o < 8589934592 → Mem.byte t.mem r o = 0) ∧
      (∀ o : Nat, o < 8589934592 → Mem.byte t.mem 6 o = Mem.byte s.mem 6 o) ∧ t.pending = s.pending) := by
  obtain ⟨asserted, otp, lanes, reports, pwrReq, latTol, first, aon⟩ := s.c.start.coldReset_shows 2
  have flds := s.c.start.flds_coldReset 2
  obtain ⟨cleared, flash⟩ := Mem.byte_coldReset s.mem
  have e := exec_coldReset s
  rw [Chip.coldPin_free (c := s.c.start) s.mem free] at e
  refine ⟨_, e, ?_⟩
  generalize s.c.start.coldReset 2 = b at *
  let d : Chip := { b with pins := { resetN := false } }
  have quiet : d.reports = [] := reports
  refine ⟨?_, ?_, ?_, ?_, ?_, ?_, ?_, ?_, cleared, flash, rfl⟩
  · exact (congrArg PowerX.asserted (settled d).power).trans asserted
  · show d.settle.pins.resetN = false
    unfold Chip.settle
    rw [quiet]
    exact congrArg Pins.resetN d.pins_interrupts
  · show ∀ e ∈ d.settle.flds, _
    rw [(idle_settle d quiet).flds]
    show ∀ e ∈ b.flds, _
    rw [flds]
    exact fun _ h => .inr (List.mem_filter.mp h).2
  · exact (congrArg Fcu.first (idle_settle d quiet).fcu).trans first
  · exact (congrArg Fcu.aon (idle_settle d quiet).fcu).trans aon
  · exact (settled d).pwrReq.trans pwrReq
  · exact (settled d).latTol.trans latTol
  · exact (settled d).otp.trans otp

/-- An event that a stronger reset covers changes nothing. -/
theorem gives_covered {i : Instr} {f : Chip → Mem → Chip × Mem} (e : exec i s = actAlways s f) (hd : f s.c.start s.mem = (s.c.start, s.mem)) :
    Gives i s (fun t => t.c.power = s.c.power ∧ Confined [] [] s t) :=
  gives_always e hd ⟨(settled s.c.start).power, (Chip.Leaves.refl s.c.start).confined⟩

theorem brownOut_gives {n : Fin 10} (notAon : n ≠ 1) (notFuse : n ≠ 9) (weaker : s.c.power.asserted ≠ 1) : Gives (.brownOut n) s (fun t =>
      t.c.power.asserted = 3 ∧
      (∀ e ∈ t.c.flds, reacts (keyPage e.1) = true ∨ coldKept e.1 = true ∨ e.1 = Hbm.sref.key) ∧
      (n ≠ 5 → t.c.rd Hbm.sref = 3) ∧ t.c.pwrReq = s.c.pwrReq ∧ t.c.latTol = s.c.latTol ∧ t.c.otp = s.c.otp ∧
      (∀ r : Fin 6, ∀ o : Nat, o < 8589934592 → Mem.byte t.mem r o = 0) ∧
      (∀ o : Nat, o < 8589934592 → Mem.byte t.mem 6 o = Mem.byte s.mem 6 o) ∧ t.pending = s.pending) := by
  obtain ⟨cleared, flash⟩ := Mem.byte_coldReset s.mem
  let a := s.c.start.raise 0xE7 pwrPage n 0
  have free : ∀ r ∈ a.reports, a.Uncontained (a.effSev r) r := fun r hr => by
    obtain rfl := List.mem_singleton.mp hr
    exact fun _ d _ => by simp [Chip.contain]
  have still := Chip.still_collectTwice free
  have kept := settled_collectTwice a
  have quiet : a.collectTwice.reports = [] := still.reports
  have pwr : a.collectTwice.pwrReq = s.c.pwrReq := kept.pwrReq
  have tol : a.collectTwice.latTol = s.c.latTol := kept.latTol
  have fuses : a.collectTwice.otp = s.c.otp := kept.otp
  have covered : ¬(n.val = 1 ∨ n.val = 9 ∨ s.c.start.power.asserted = 1) := by
    rintro (h | h | h)
    · exact notAon (Fin.ext h)
    · exact notFuse (Fin.ext h)
    · exact weaker h
  have body : (fun (c : Chip) (mem : Mem) => if n.val = 1 ∨ n.val = 9 ∨ c.power.asserted = 1 then (c, mem)
      else
        let c := ((c.raise 0xE7 pwrPage n 0).collectTwice).coldReset 3
        (if n.val = 5 then c else c.wr Hbm.sref 3, Mem.coldReset mem)) s.c.start s.mem =
      (if n.val = 5 then a.collectTwice.coldReset 3 else (a.collectTwice.coldReset 3).wr Hbm.sref 3, Mem.coldReset s.mem) := if_neg covered
  obtain ⟨asserted, otp, -, reports, pwrReq, latTol, -, -⟩ := a.collectTwice.coldReset_shows 3
  have flds := a.collectTwice.flds_coldReset 3
  generalize a.collectTwice.coldReset 3 = b at body asserted otp reports pwrReq latTol flds
  have same : (if n.val = 5 then b else b.wr Hbm.sref 3).reports = [] ∧
      (if n.val = 5 then b else b.wr Hbm.sref 3).power.asserted = 3 ∧ (if n.val = 5 then b else b.wr Hbm.sref 3).otp = s.c.otp ∧
      (if n.val = 5 then b else b.wr Hbm.sref 3).pwrReq = s.c.pwrReq ∧ (if n.val = 5 then b else b.wr Hbm.sref 3).latTol = s.c.latTol ∧
      (∀ e ∈ (if n.val = 5 then b else b.wr Hbm.sref 3).flds, coldKept e.1 = true ∨ e.1 = Hbm.sref.key) ∧
      (n.val ≠ 5 → (if n.val = 5 then b else b.wr Hbm.sref 3).rd Hbm.sref = 3) := by
    have left : ∀ e ∈ b.flds, coldKept e.1 = true := by
      rw [flds]
      exact fun _ h => (List.mem_filter.mp h).2
    split
    · exact ⟨reports.trans quiet, asserted, otp.trans fuses, pwrReq.trans pwr, latTol.trans tol, fun e h => .inl (left e h),
        fun h => absurd ‹_› h⟩
    · refine ⟨reports.trans quiet, asserted, otp.trans fuses, pwrReq.trans pwr, latTol.trans tol, fun e h => ?_,
        fun _ => Chip.rd_wr_self b Hbm.sref 3⟩
      exact (Store.mem_set (d := Hbm.sref.por) (v := 3 % 2 ^ Hbm.sref.w) (m := b.flds) (k := Hbm.sref.key) h).elim .inr fun old => .inl (left e old)
  generalize (if n.val = 5 then b else b.wr Hbm.sref 3) = d at body same
  obtain ⟨quiet', asserted', otp', pwr', tol', flds', sref⟩ := same
  refine gives_always (exec_brownOut n s) body ⟨?_, ?_, fun other => ?_, ?_, ?_, ?_, cleared, flash, rfl⟩
  · exact (congrArg PowerX.asserted (settled d).power).trans asserted'
  · show ∀ e ∈ d.settle.flds, _
    rw [(idle_settle d quiet').flds]
    exact fun e h => .inr (flds' e h)
  · exact (Chip.rd_settle_idle d quiet' _).trans (sref fun h => other (Fin.ext h))
  · exact (settled d).pwrReq.trans pwr'
  · exact (settled d).latTol.trans tol'
  · exact (settled d).otp.trans otp'

end

/-! ## The release (R444, R463, R477) -/

/-- Fields of an array that are all written with one value. -/
theorem Chip.rd_foldl_wr (g : Nat → Fld) (v : Nat) {l : List Nat} {k : Nat} (listed : k ∈ l)
    (apart : ∀ i ∈ l, i ≠ k → (g k).key ≠ (g i).key) (c : Chip) :
    (l.foldl (fun c n => c.wr (g n) v) c).rd (g k) = v % 2 ^ (g k).w := by
  have goal : ∀ r : List Nat, (∀ i ∈ r, i ∈ l) → k ∈ r → ∀ c : Chip, (r.foldl (fun c n => c.wr (g n) v) c).rd (g k) = v % 2 ^ (g k).w := by
    intro r
    induction r using List.reverseRecOn with
    | nil => exact fun _ h => absurd h List.not_mem_nil
    | append_singleton r i ih =>
      intro inside h c
      rw [List.foldl_append, List.foldl_cons, List.foldl_nil]
      by_cases same : i = k
      · subst same
        exact Chip.rd_wr_self _ _ _
      · rw [Chip.rd_wr_ne _ _ (apart i (inside i (by simp)) same)]
        exact ih (fun j hj => inside j (List.mem_append_left _ hj))
          ((List.mem_append.mp h).resolve_right fun m => same (List.mem_singleton.mp m).symm) c
  exact goal l (fun _ h => h) listed c

/-- The rails and the clusters. -/
def railFields : List Fld := (List.range 10).map Pwr.railInWin.nth

/-- What a release writes before the ROM runs. -/
def poweredFields : List Fld :=
  [Dev.compat, Rst.cause, Hbm.ready, Hbm.sref, Twin.active, Pwr.railsOk] ++ railFields ++ clusterStates

/-- The straps are sampled and the supplies shown. -/
def Chip.sampled (c : Chip) (st : Straps) (cause : Nat) : Chip :=
  let c := { c with straps := st, power := {}, pins := {} }
  let c := (((c.wr Dev.compat (if st.compat then 15 else 0)).wr Rst.cause cause).wr Hbm.ready 3).wr Hbm.sref 0
  if st.scale then c else c.wr Twin.active 1

/-- The rails are shown in window and the clusters in IDLE. -/
def Chip.awake (c : Chip) : Chip :=
  (List.range 64).foldl (fun c k => c.wr (Pwr.clState.nth k) 1)
    ((List.range 10).foldl (fun c n => c.wr (Pwr.railInWin.nth n) 1) (c.wr Pwr.railsOk 1))

theorem Chip.release_eq (c : Chip) (mem : Mem) (st : Straps) (cause : Nat) :
    c.release mem st cause = ((c.sampled st cause).awake).showStatic.boot mem := rfl

theorem Chip.sampled_shows (c : Chip) (st : Straps) {cause : Nat} (small : cause < 8) :
    (c.sampled st cause).rd Rst.cause = cause ∧ (c.sampled st cause).rd Dev.compat = (if st.compat then 15 else 0) ∧
    (c.sampled st cause).straps = st ∧ (c.sampled st cause).power = {} ∧ (c.sampled st cause).pins = {} ∧
    (c.sampled st cause).reports = c.reports ∧ Chip.Leaves poweredFields [] c (c.sampled st cause) := by
  let a : Chip := { c with straps := st, power := {}, pins := {} }
  let b := (((a.wr Dev.compat (if st.compat then 15 else 0)).wr Rst.cause cause).wr Hbm.ready 3).wr Hbm.sref 0
  have leaves : Chip.Leaves poweredFields [] c b :=
    (((((Chip.Leaves.keep (c := a) (.refl c) rfl rfl).wr (f := Dev.compat) (by simp [poweredFields]) _).wr (f := Rst.cause)
      (by simp [poweredFields]) cause).wr (f := Hbm.ready) (by simp [poweredFields]) 3).wr (f := Hbm.sref) (by simp [poweredFields]) 0)
  have causes : b.rd Rst.cause = cause := by
    rw [Chip.rd_wr_ne _ _ (by decide), Chip.rd_wr_ne _ _ (by decide), Chip.rd_wr_self]
    exact Nat.mod_eq_of_lt small
  have compat : b.rd Dev.compat = (if st.compat then 15 else 0) := by
    rw [Chip.rd_wr_ne _ _ (by decide), Chip.rd_wr_ne _ _ (by decide), Chip.rd_wr_ne _ _ (by decide), Chip.rd_wr_self]
    cases st.compat <;> rfl
  have whole : c.sampled st cause = if st.scale then b else b.wr Twin.active 1 := rfl
  rw [whole]
  split
  · exact ⟨causes, compat, rfl, rfl, rfl, rfl, leaves⟩
  · exact ⟨(b.rd_wr_ne 1 (by decide)).trans causes, (b.rd_wr_ne 1 (by decide)).trans compat, rfl, rfl, rfl, rfl,
      leaves.wr (f := Twin.active) (by simp [poweredFields]) 1⟩

theorem Chip.foldl_wr_frame (g : Nat → Fld) (v : Nat) (l : List Nat) (c : Chip) :
    ∃ F, l.foldl (fun c n => c.wr (g n) v) c = { c with flds := F } :=
  List.foldlRecOn (motive := fun d => ∃ F, d = { c with flds := F }) l _ ⟨_, rfl⟩ fun d ⟨F, e⟩ n _ => by
    subst e
    exact ⟨_, rfl⟩

theorem Chip.Leaves.foldl_wr {gs : List Fld} {ps : List Nat} {a b : Chip} (h : Chip.Leaves gs ps a b) (g : Nat → Fld) (v : Nat)
    {l : List Nat} (hg : ∀ n ∈ l, g n ∈ gs) : Chip.Leaves gs ps a (l.foldl (fun c n => c.wr (g n) v) b) :=
  h.foldl fun n hn d => (Chip.Leaves.refl d).wr (hg n hn) v

theorem Chip.awake_shows (c : Chip) : (∀ k : Fin 64, c.awake.rd (Pwr.clState.nth k) = 1) ∧
    (∀ n : Fin 10, c.awake.rd (Pwr.railInWin.nth n) = 1) ∧ c.awake.rd Pwr.railsOk = 1 ∧ (∃ F, c.awake = { c with flds := F }) ∧
    Chip.Leaves (Pwr.railsOk :: railFields ++ clusterStates) [] c c.awake := by
  let a := c.wr Pwr.railsOk 1
  let b := (List.range 10).foldl (fun c n => c.wr (Pwr.railInWin.nth n) 1) a
  have clusters (d : Chip) : Chip.Leaves clusterStates [] d ((List.range 64).foldl (fun c k => c.wr (Pwr.clState.nth k) 1) d) :=
    (Chip.Leaves.refl d).foldl_wr _ _ fun n hn => List.mem_map_of_mem hn
  have rails : Chip.Leaves railFields [] a b := (Chip.Leaves.refl a).foldl_wr _ _ fun n hn => List.mem_map_of_mem hn
  have first : Chip.Leaves [Pwr.railsOk] [] c a := (Chip.Leaves.refl c).wr (List.mem_singleton_self _) 1
  refine ⟨fun k => ?_, fun n => ?_, ?_, ?_, ?_⟩
  · exact (Chip.rd_foldl_wr Pwr.clState.nth 1 (List.mem_range.mpr k.isLt)
      (fun i hi => (by decide +kernel : ∀ k : Fin 64, ∀ i ∈ List.range 64, i ≠ k.val → (Pwr.clState.nth k).key ≠ (Pwr.clState.nth i).key) k i hi)
      b).trans rfl
  · obtain ⟨ok, reacts_, apart⟩ := (by decide +kernel : ∀ n : Fin 10, (Pwr.railInWin.nth n).ok = true ∧
      reacts (Pwr.railInWin.nth n).page = false ∧ ∀ g ∈ clusterStates, (Pwr.railInWin.nth n).key ≠ g.key) n
    refine ((clusters b).rd _ ok reacts_ apart).trans ?_
    exact (Chip.rd_foldl_wr Pwr.railInWin.nth 1 (List.mem_range.mpr n.isLt)
      (fun i hi => (by decide +kernel : ∀ k : Fin 10, ∀ i ∈ List.range 10, i ≠ k.val → (Pwr.railInWin.nth k).key ≠ (Pwr.railInWin.nth i).key)
        n i hi) a).trans rfl
  · refine ((clusters b).rd Pwr.railsOk rfl (by decide) (by decide +kernel)).trans ?_
    exact (rails.rd Pwr.railsOk rfl (by decide) (by decide +kernel)).trans (Chip.rd_wr_self c Pwr.railsOk 1)
  · obtain ⟨F, hF⟩ := a.foldl_wr_frame Pwr.railInWin.nth 1 (List.range 10)
    obtain ⟨G, hG⟩ := b.foldl_wr_frame Pwr.clState.nth 1 (List.range 64)
    refine ⟨G, hG.trans ?_⟩
    rw [show b = { a with flds := F } from hF]
    rfl
  · exact (first.widen (by simp) (by simp)).trans ((rails.widen (by simp) (by simp)).trans ((clusters b).widen (by simp) (by simp)))

/-- The fields that the ROM's boot sequence writes, beside one that a reaction may write. -/
def bootFields : List Fld := [Dev.boot, Dev.bank, Dev.fwVer, Dev.fallback, Hst.wramEn]

/-- What the boot sequence changes of the machine. -/
structure Chip.Boots (c d : Chip) : Prop where
  leaves : Chip.Leaves bootFields [devPage] c d
  straps : d.straps = c.straps
  power : d.power = c.power
  pins : d.pins = c.pins

section
variable {a b : Chip} (h : Chip.Boots a b)
include h

theorem Chip.Boots.wr {f : Fld} (hf : f ∈ bootFields) (v : Nat) : Chip.Boots a (b.wr f v) :=
  ⟨h.leaves.wr hf v, h.straps, h.power, h.pins⟩

theorem Chip.Boots.waitImage (stage : Nat) : Chip.Boots a (b.waitImage stage) :=
  (h.wr (f := Dev.boot) (by simp [bootFields]) stage).wr (f := Hst.wramEn) (by simp [bootFields]) 1

theorem Chip.Boots.raise (src page inst detail : Nat) : Chip.Boots a (b.raise src page inst detail) :=
  ⟨h.leaves.raise _ _ _ _, h.straps, h.power, h.pins⟩

theorem Chip.Boots.stick (n : Nat) : Chip.Boots a (b.stick devPage n) :=
  ⟨h.leaves.stick (.inl (List.mem_singleton_self _)) n, h.straps, h.power, h.pins⟩

theorem Chip.Boots.startFirmware (m : Mem) : Chip.Boots a (b.startFirmware m) := by
  obtain ⟨-, -, -, -, leaves⟩ := b.startFirmware_shows m
  exact ⟨h.leaves.trans (leaves.widen (by simp [bootFields]) (fun _ h => h)), h.straps, h.power, h.pins⟩

end

theorem Chip.boots_boot (c : Chip) (m : Mem) : Chip.Boots c (c.boot m).1 := by
  have begun : Chip.Boots c (c.wr Cfab.remap 0) :=
    ⟨(Chip.Leaves.refl c).wrReacting (f := Cfab.remap) rfl 0, rfl, rfl, rfl⟩
  unfold Chip.boot
  dsimp only
  generalize c.wr Cfab.remap 0 = d at begun ⊢
  have bank {e : Chip} (he : Chip.Boots c e) (v : Nat) : Chip.Boots c (e.wr Dev.bank v) := he.wr (by simp [bootFields]) v
  split
  · exact begun.waitImage 3
  · split
    · exact (bank begun _).startFirmware _
    · have fallen := (begun.raise 0xF4 devPage (b2n (decide (Mem.bankSeq m 0 < Mem.bankSeq m 1))) 0).wr (f := Dev.fallback)
        (by simp [bootFields]) 1
      split
      · exact ((bank fallen _).stick 2).startFirmware _
      · exact (fallen.raise 0xF4 devPage (1 - b2n (decide (Mem.bankSeq m 0 < Mem.bankSeq m 1))) 0).waitImage 5

/-- With the host's strap the ROM waits for the host's image. -/
theorem Chip.boot_host {c : Chip} (strap : c.straps.bootHost = true) (m : Mem) : (c.boot m).1.rd Dev.boot = 3 ∧ (c.boot m).2 = m := by
  have same : (c.wr Cfab.remap 0).straps.bootHost = true := strap
  have waits : c.boot m = ((c.wr Cfab.remap 0).waitImage 3, m) := if_pos same
  rw [waits]
  refine ⟨?_, rfl⟩
  rw [Chip.waitImage, Chip.rd_wr_ne _ _ (by decide), Chip.rd_wr_self]
  rfl

/-! ## `RESET_N` as the end of a command leaves it -/

theorem Chip.pins_contain (c : Chip) (r : Report) : (c.contain r).pins = c.pins := by
  unfold Chip.contain
  split
  · split <;> rfl
  · rfl
  · rfl
  · split
    · simp [Chip.endOutstanding, Chip.setFlight, Chip.showFlightOf]
    · rfl
  · split
    · unfold Chip.setVolt
      dsimp only
      split
      · rfl
      · split <;> rfl
    · rfl
  · rfl
  · rfl

theorem Chip.pins_react (c : Chip) (esev : Nat) (r : Report) : (c.react esev r).pins = c.pins := by
  have stopped (d : Chip) : (d.stopAlive 0).pins = d.pins := by
    unfold Chip.stopAlive
    dsimp only
    split <;> rfl
  unfold Chip.react
  dsimp only
  have shown : (if 2 ≤ esev then c.stick fcuPage (esev - 1) else c).pins = c.pins := by split <;> rfl
  generalize (if 2 ≤ esev then c.stick fcuPage (esev - 1) else c) = d at shown ⊢
  rw [← shown]
  have contained : (if 3 ≤ esev then d.contain r else d).pins = d.pins := by
    split
    · exact d.pins_contain r
    · rfl
  generalize (if 3 ≤ esev then d.contain r else d) = e at contained ⊢
  rw [← contained]
  have held : (if 3 ≤ esev ∧ !e.masked r then e.startHolds r else e).pins = e.pins := by split <;> rfl
  generalize (if 3 ≤ esev ∧ !e.masked r then e.startHolds r else e) = g at held ⊢
  rw [← held]
  split
  · split <;> exact stopped g
  · rfl

theorem Chip.pins_collect (c : Chip) (p : Nat × Report) : (c.collect p).pins = c.pins := by
  have logged (d : Chip) (e : LogEntry) : (d.logEntry e).pins = d.pins := by
    unfold Chip.logEntry
    dsimp only
    split <;> rfl
  have marked (d : Chip) (e : LogEntry) : (d.markUnack e).pins = d.pins := by
    unfold Chip.markUnack
    dsimp only
    split <;> split <;> rfl
  unfold Chip.collect
  dsimp only
  have seen : (if p.2.src = 0x18 then { c with twin := { c.twin with eyeAt := some c.stc } } else c).pins = c.pins := by split <;> rfl
  generalize (if p.2.src = 0x18 then { c with twin := { c.twin with eyeAt := some c.stc } } else c) = d at seen ⊢
  rw [← seen]
  split
  · rfl
  · rw [Chip.pins_react, marked, logged]

/-- The end of a command changes nothing at `RESET_N`. -/
theorem Chip.resetN_settle (c : Chip) : c.settle.pins.resetN = c.pins.resetN := by
  have all (d : Chip) : d.collectAll.pins = d.pins :=
    List.foldlRecOn (motive := fun e : Chip => e.pins = d.pins) _ _ rfl fun e he p _ => (e.pins_collect p).trans he
  have twice : (if c.reports.isEmpty then c else c.collectTwice).pins = c.pins := by
    split
    · rfl
    · unfold Chip.collectTwice
      split
      · exact all c
      · exact (all _).trans (all c)
  unfold Chip.settle
  rw [Chip.pins_interrupts, twice]

/-! ## What a release shows -/

/-- Everything that a release writes. -/
def releaseFields : List Fld := poweredFields ++ bootFields

theorem Chip.release_shows (c : Chip) (mem : Mem) (st : Straps) {cause : Nat} (small : cause < 8) :
    (c.release mem st cause).1.rd Rst.cause = cause ∧ (c.release mem st cause).1.rd Dev.compat = (if st.compat then 15 else 0) ∧
    (∀ k : Fin 64, (c.release mem st cause).1.rd (Pwr.clState.nth k) = 1) ∧
    (∀ n : Fin 10, (c.release mem st cause).1.rd (Pwr.railInWin.nth n) = 1) ∧ (c.release mem st cause).1.rd Pwr.railsOk = 1 ∧
    (c.release mem st cause).1.straps = st ∧ (c.release mem st cause).1.power = {} ∧ (c.release mem st cause).1.pins = {} ∧
    (st.bootHost = true → (c.release mem st cause).1.rd Dev.boot = 3 ∧ (c.release mem st cause).2 = mem) ∧
    Chip.Leaves releaseFields [devPage] c (c.release mem st cause).1 := by
  obtain ⟨hcause, hcompat, hstraps, hpower, hpins, -, first⟩ := c.sampled_shows st small
  rw [Chip.release_eq]
  generalize c.sampled st cause = a at *
  obtain ⟨clusters, rails, ok, ⟨F, frame⟩, second⟩ := a.awake_shows
  have kept (f : Fld) (hf : (f.ok && !reacts f.page) = true) (hn : ∀ g ∈ Pwr.railsOk :: railFields ++ clusterStates, f.key ≠ g.key) :
      a.awake.rd f = a.rd f := by
    simp only [Bool.and_eq_true, Bool.not_eq_true'] at hf
    exact second.rd f hf.1 hf.2 hn
  have causes := (kept Rst.cause rfl (by decide +kernel)).trans hcause
  have compat := (kept Dev.compat rfl (by decide +kernel)).trans hcompat
  have straps : a.awake.straps = st := by rw [frame]; exact hstraps
  have power : a.awake.power = {} := by rw [frame]; exact hpower
  have pins : a.awake.pins = {} := by rw [frame]; exact hpins
  generalize a.awake = b at *
  have static : ∃ u, b.showStatic = { b with fcu := u } := by
    unfold Chip.showStatic
    split <;> exact ⟨_, rfl⟩
  obtain ⟨u, hu⟩ := static
  rw [hu]
  let d : Chip := { b with fcu := u }
  have booted := d.boots_boot mem
  have regs (f : Fld) (hf : (f.ok && !reacts f.page) = true) (hn : ∀ g ∈ bootFields, f.key ≠ g.key) : (d.boot mem).1.rd f = b.rd f := by
    simp only [Bool.and_eq_true, Bool.not_eq_true'] at hf
    exact booted.leaves.rd f hf.1 hf.2 hn
  refine ⟨?_, ?_, fun k => ?_, fun n => ?_, ?_, booted.straps.trans straps, booted.power.trans power, booted.pins.trans pins,
    fun host => ?_, ?_⟩
  · exact (regs Rst.cause rfl (by decide)).trans causes
  · exact (regs Dev.compat rfl (by decide)).trans compat
  · obtain ⟨hf, hn⟩ := (by decide +kernel : ∀ k : Fin 64, ((Pwr.clState.nth k).ok && !reacts (Pwr.clState.nth k).page) = true ∧
      ∀ g ∈ bootFields, (Pwr.clState.nth k).key ≠ g.key) k
    exact (regs _ hf hn).trans (clusters k)
  · obtain ⟨hf, hn⟩ := (by decide +kernel : ∀ k : Fin 10, ((Pwr.railInWin.nth k).ok && !reacts (Pwr.railInWin.nth k).page) = true ∧
      ∀ g ∈ bootFields, (Pwr.railInWin.nth k).key ≠ g.key) n
    exact (regs _ hf hn).trans (rails n)
  · exact (regs Pwr.railsOk rfl (by decide)).trans ok
  · have strap : d.straps.bootHost = true := (congrArg Straps.bootHost straps).trans host
    exact Chip.boot_host strap mem
  · have awakened : Pwr.railsOk :: railFields ++ clusterStates ⊆ releaseFields := by
      intro g hg
      simp only [List.cons_append, List.mem_cons, List.mem_append] at hg
      simp only [releaseFields, poweredFields, List.mem_append, List.mem_cons]
      tauto
    have upTo : Chip.Leaves releaseFields [devPage] c b :=
      (first.widen (by simp [releaseFields]) (by simp)).trans (second.widen awakened (by simp))
    exact (upTo.keep (c := d) rfl rfl).trans (booted.leaves.widen (by simp [releaseFields]) (fun _ h => h))

section
variable {s : State}

/-- What holds of the state after a release. -/
def Released (s : State) (st : Straps) (cause : Nat) (t : State) : Prop :=
  t.c.power.asserted = 0 ∧ t.c.straps = st ∧ t.c.pins.resetN = true ∧ t.c.rd Rst.cause = cause ∧
  t.c.rd Dev.compat = (if st.compat then 15 else 0) ∧ (∀ k : Fin 64, t.c.rd (Pwr.clState.nth k) = 1) ∧
  (∀ n : Fin 10, t.c.rd (Pwr.railInWin.nth n) = 1) ∧ t.c.rd Pwr.railsOk = 1 ∧ (st.bootHost = true → t.c.rd Dev.boot = 3 ∧ t.mem = s.mem) ∧
  Within releasePages s { t with mem := s.mem }

theorem release_gives {i : Instr} {f : Chip → Mem → Chip × Mem} {st : Straps} {cause : Nat} (small : cause < 8) (e : exec i s = actAlways s f)
    (hd : f s.c.start s.mem = s.c.start.release s.mem st cause) : Gives i s (Released s st cause) := by
  obtain ⟨causes, compat, clusters, rails, ok, straps, power, pins, host, leaves⟩ := s.c.start.release_shows s.mem st small
  refine Gives.actAlways e ?_
  rw [hd]
  generalize s.c.start.release s.mem st cause = r at *
  have regs (f : Fld) (hf : (f.ok && !reacts f.page) = true) : r.1.settle.rd f = r.1.rd f := by
    simp only [Bool.and_eq_true, Bool.not_eq_true'] at hf
    exact r.1.rd_settle hf.1 hf.2
  refine ⟨?_, (settled r.1).straps.trans straps, ?_, (regs _ rfl).trans causes, (regs _ rfl).trans compat, fun k => ?_, fun n => ?_,
    (regs _ rfl).trans ok, fun strap => ?_, ?_⟩
  · exact (congrArg PowerX.asserted (settled r.1).power).trans (congrArg PowerX.asserted power)
  · exact r.1.resetN_settle.trans (congrArg Pins.resetN pins)
  · exact (r.1.rd_clState_settle k).trans (clusters k)
  · exact (regs _ ((by decide : ∀ n : Fin 10, ((Pwr.railInWin.nth n).ok && !reacts (Pwr.railInWin.nth n).page) = true) n)).trans (rails n)
  · exact ⟨(regs _ rfl).trans (host strap).1, (host strap).2⟩
  · exact leaves.within (by decide +kernel) (by decide)

end

/-- Settles O51: POR and COLD leave the machine of `coldState`, and a release writes the fields of `releaseFields` alone. -/
theorem coldAndPor : Obligations.ColdAndPor := by
  intro s
  refine ⟨por_gives, coldReset_gives, fun stands => ?_, fun n => brownOut_gives, fun n covered => ?_,
    fun scale compat side bootHost stands => ?_, fun scale compat side bootHost stands => ?_⟩
  · refine gives_covered (f := fun c mem => if c.power.asserted = 1 ∨ c.power.asserted = 3 then (c, mem)
      else ({ c.coldReset 2 with pins := { resetN := false } }, Mem.coldReset mem)) rfl (if_pos stands)
  · have weaker : n.val = 1 ∨ n.val = 9 ∨ s.c.start.power.asserted = 1 := covered.imp (congrArg Fin.val) (.imp_left (congrArg Fin.val))
    exact gives_covered (exec_brownOut n s) (if_pos weaker)
  · have released : Gives (.resetRelease scale compat side bootHost) s
        (Released s ⟨scale, compat, side, bootHost⟩ (if s.c.power.asserted = 2 then 1 else 0)) := by
      have known : s.c.start.power = s.c.power := rfl
      by_cases pin : s.c.power.asserted = 2
      · rw [if_pos pin]
        exact release_gives (by decide) (exec_resetRelease scale compat side bootHost s) (if_pos pin)
      · rw [if_neg pin]
        have ends : s.c.start.power.asserted = 1 ∨
            (s.c.start.power.asserted = 0 ∧ s.c.start.rd Dev.boot = 0 ∧ s.c.start.power.warm.isNone) := by
          rcases stands with h | h | ⟨h, boot, cold⟩
          · exact .inl h
          · exact absurd h pin
          · exact .inr ⟨h, boot, by rw [known, cold]; rfl⟩
        exact release_gives (by decide) (exec_resetRelease scale compat side bootHost s) ((if_neg pin).trans (if_pos ends))
    exact released
  · have released : Gives (.brownOutRecovery scale compat side bootHost) s (Released s ⟨scale, compat, side, bootHost⟩ 2) :=
      release_gives (by decide) (exec_brownOutRecovery scale compat side bootHost s) (if_pos stands)
    exact released.mono fun t ⟨asserted, straps, _, cause, _, clusters, _, _, host, within_⟩ =>
      ⟨asserted, straps, cause, clusters, host, within_⟩

end Sys2Proof.Machine
end

section
/-! SUPPORT. The STC, its compare units and the event FIFO (O37). -/

namespace Sys2Proof.Machine

theorem exec_stcAdvance (s : State) : exec .stcAdvance s = execStcAdvance s := rfl
theorem exec_stcReadLatch (m : Master) (s : State) : exec (.stcReadLatch m) s = execStcReadLatch m s := rfl
theorem exec_compareArm (m : Master) (u : Fin 8) (s : State) : exec (.compareArm m u) s = execCompareArm m u s := rfl
theorem exec_compareDisarm (m : Master) (u : Fin 8) (s : State) : exec (.compareDisarm m u) s = execCompareDisarm m u s := rfl
theorem exec_eventCapture (source : Fin 12) (fall : Bool) (ns : Fin 40) (s : State) :
    exec (.eventCapture source fall ns) s = execEventCapture source fall ns s := rfl

/-! ## Compare units (R362) -/

/-- What the units that fire change: fields and sticky bits of TIME, and pulses on FPOUT. -/
structure Chip.Fires (c d : Chip) : Prop where
  rd : ∀ f : Fld, f.ok = true → f.page ≠ timePage → d.rd f = c.rd f
  sticky : ∀ p, p ≠ timePage → d.stickyWord p = c.stickyWord p
  stc : d.stc = c.stc
  stcRes : d.mer.stcRes = c.mer.stcRes
  reports : d.reports = c.reports

section
variable {a b c : Chip}

theorem Chip.Fires.refl (c : Chip) : Chip.Fires c c := ⟨fun _ _ _ => rfl, fun _ _ => rfl, rfl, rfl, rfl⟩

theorem Chip.Fires.trans (h : Chip.Fires a b) (k : Chip.Fires b c) : Chip.Fires a c :=
  ⟨fun f hf hp => (k.rd f hf hp).trans (h.rd f hf hp), fun p hp => (k.sticky p hp).trans (h.sticky p hp), k.stc.trans h.stc,
    k.stcRes.trans h.stcRes, k.reports.trans h.reports⟩

theorem Chip.Fires.ite {p : Prop} [Decidable p] (h : p → Chip.Fires a b) (k : ¬p → Chip.Fires a c) : Chip.Fires a (if p then b else c) := by
  split
  · exact h ‹_›
  · exact k ‹_›

theorem Chip.Fires.foldl {β : Type} {step : Chip → β → Chip} {l : List β} (h : Chip.Fires a b)
    (hstep : ∀ x ∈ l, ∀ d, Chip.Fires d (step d x)) : Chip.Fires a (l.foldl step b) :=
  List.foldlRecOn (motive := Chip.Fires a) l step h fun d hd x hx => hd.trans (hstep x hx d)

end

/-- A pulse changes no register. -/
theorem Chip.pulseStart_keeps (c : Chip) (n : Nat) : (c.pulseStart n).flds = c.flds ∧ (c.pulseStart n).sticky = c.sticky ∧
    (c.pulseStart n).reports = c.reports ∧ (c.pulseStart n).stc = c.stc ∧ (c.pulseStart n).mer.stcRes = c.mer.stcRes := by
  unfold Chip.pulseStart
  split <;> exact ⟨rfl, rfl, rfl, rfl, rfl⟩

theorem Chip.fires_pulseStart (c : Chip) (n : Nat) : Chip.Fires c (c.pulseStart n) := by
  obtain ⟨flds, sticky, reports, stc, res⟩ := c.pulseStart_keeps n
  exact ⟨fun f _ _ => by rw [Chip.rd, flds, Chip.rd], fun p _ => by rw [Chip.stickyWord, sticky, Chip.stickyWord], stc, res, reports⟩

/-- A unit's fields stand on the page of TIME, apart from each other. -/
theorem unit_fields (u : Fin 8) : ((Time.cArm.nth u).ok = true ∧ (Time.cArm.nth u).w = 1) ∧
    ((Time.cLate.nth u).ok = true ∧ (Time.cLate.nth u).w = 1) ∧ (Time.cLate.nth u).key ≠ (Time.cArm.nth u).key ∧
    reacts (Time.cArm.nth u).page = false ∧ reacts (Time.cLate.nth u).page = false :=
  (by decide : ∀ u : Fin 8, ((Time.cArm.nth u).ok = true ∧ (Time.cArm.nth u).w = 1) ∧
    ((Time.cLate.nth u).ok = true ∧ (Time.cLate.nth u).w = 1) ∧ (Time.cLate.nth u).key ≠ (Time.cArm.nth u).key ∧
    reacts (Time.cArm.nth u).page = false ∧ reacts (Time.cLate.nth u).page = false) u

theorem Chip.fires_cmpFire (c : Chip) (u : Fin 8) : Chip.Fires c (c.cmpFire u) := by
  have fired : Chip.Fires c ((c.wr (Time.cArm.nth u) 0).stick timePage u) :=
    ⟨fun f hf hp => c.rd_wr_other 0 (unit_fields u).1.1 hf (.inr (.inl hp)), fun p hp => Chip.stick_other _ _ _ hp, rfl, rfl, rfl⟩
  unfold Chip.cmpFire
  exact .ite (fun _ => fired.trans (Chip.fires_pulseStart _ _)) fun _ => fired

theorem Chip.fires_cmpCheck (c : Chip) (amcBase : Bool) : Chip.Fires c (c.cmpCheck amcBase) := by
  unfold Chip.cmpCheck
  exact Chip.Fires.foldl (.refl c) fun u hu d => .ite (fun _ => d.fires_cmpFire ⟨u, List.mem_range.mp hu⟩) fun _ => .refl d

/-- What a unit that fires shows of itself. -/
theorem Chip.cmpFire_shows (c : Chip) (u : Fin 8) : (c.cmpFire u).rd (Time.cArm.nth u) = 0 ∧
    (c.cmpFire u).rd (Time.cLate.nth u) = c.rd (Time.cLate.nth u) ∧
    (∀ b, b = u.val ∨ bit (c.stickyWord timePage) b = true → bit ((c.cmpFire u).stickyWord timePage) b = true) ∧
    Chip.Leaves [Time.cArm.nth u] [timePage] c (c.cmpFire u) := by
  obtain ⟨-, -, apart, -, -⟩ := unit_fields u
  let d := (c.wr (Time.cArm.nth u) 0).stick timePage u
  have leaves : Chip.Leaves [Time.cArm.nth u] [timePage] c d :=
    ((Chip.Leaves.refl c).wr (List.mem_singleton_self _) 0).stick (.inl (List.mem_singleton_self _)) u
  have shown : d.rd (Time.cArm.nth u) = 0 := (Chip.rd_wr_self _ _ _).trans (Nat.zero_mod _)
  have late : d.rd (Time.cLate.nth u) = c.rd (Time.cLate.nth u) := c.rd_wr_ne 0 apart
  have marked : ∀ b, b = u.val ∨ bit (c.stickyWord timePage) b = true → bit (d.stickyWord timePage) b = true := by
    rintro b (rfl | hb)
    · exact Chip.bit_stick _ _ _
    · exact (congrArg (bit · b) (Chip.stick_self _ _ _)).trans (bit_setBit_of_bit hb _)
  have whole : c.cmpFire u = if u.val < 4 ∧ d.rd (MerLoop.fpRate.nth u) = 9 then d.pulseStart u else d := rfl
  obtain ⟨flds, sticky, -⟩ := d.pulseStart_keeps u
  rw [whole]
  split
  · refine ⟨?_, ?_, fun b hb => ?_, leaves.keep flds sticky⟩
    · rw [Chip.rd, flds]
      exact shown
    · rw [Chip.rd, flds]
      exact late
    · rw [Chip.stickyWord, sticky]
      exact marked b hb
  · exact ⟨shown, late, marked, leaves⟩

section
variable {s : State}

theorem stcAdvance_gives (hs : s.Runs) (goes : s.c.mer.stopped = false) : Gives .stcAdvance s (fun t =>
      t.c.stc = Stc.ofTotal (s.c.stc.total + (s.c.mer.stcRes + 2621440 * (256000000000 + s.c.rdS Time.rate)) / 256000000000) ∧
      t.c.mer.stcRes = (s.c.mer.stcRes + 2621440 * (256000000000 + s.c.rdS Time.rate)) % 256000000000 ∧
      Within [timePage] s t) := by
  let n := s.c.mer.stcRes + 2621440 * (256000000000 + s.c.rdS Time.rate)
  let b := Chip.updMer { s.c.start with stc := Stc.ofTotal (s.c.stc.total + n / 256000000000) } (fun m => { m with stcRes := n % 256000000000 })
  let d := if b.stc.sec = s.c.stc.sec then b
    else (List.range 4).foldl (fun c n => if c.fpRateOf n = 8 then c.pulseStart n else c) b
  have body : (fun c : Chip => if c.mer.stopped then c else
      let a := c.mer.stcRes + 2621440 * (256000000000 + c.rdS Time.rate)
      let sec := c.stc.sec
      let c := { c with stc := Stc.ofTotal (c.stc.total + a / 256000000000) }.updMer (fun m => { m with stcRes := a % 256000000000 })
      let c := if c.stc.sec = sec then c
        else (List.range 4).foldl (fun c n => if c.fpRateOf n = 8 then c.pulseStart n else c) c
      c.cmpCheck false) s.c.start = d.cmpCheck false := if_neg (by simp [goes])
  have second : Chip.Fires b d :=
    .ite (fun _ => .refl b) fun _ => Chip.Fires.foldl (.refl b) fun n _ c => .ite (fun _ => c.fires_pulseStart n) fun _ => .refl c
  have whole := second.trans (d.fires_cmpCheck false)
  clear_value d
  generalize d.cmpCheck false = e at body whole
  have quiet : e.reports = [] := whole.reports
  refine gives_of_body hs (exec_stcAdvance s) body ⟨?_, ?_, Within.of_body (fun f hf _ hp => ?_) fun p _ hp => ?_⟩
  · exact (settled e).stc.trans whole.stc
  · exact (congrArg Mer.stcRes (idle_settle e quiet).mer).trans whole.stcRes
  · exact whole.rd f hf (by simpa using hp)
  · exact whole.sticky p (by simpa using hp)

theorem stcReadLatch_gives (m : Master) (hs : s.Runs) : Gives (.stcReadLatch m) s (fun t =>
      t.c.rdata = [s.c.stc.ns] ∧ Store.get {} t.c.mer.latch (masterNum m) = s.c.stc ∧ t.c.stc = s.c.stc ∧ Confined [] [] s t) := by
  let d := Chip.updMer { s.c.start with resp := .okay, rdata := [s.c.stc.ns] }
    (fun x => { x with latch := Store.set {} x.latch (masterNum m) s.c.stc })
  have whole : Chip.Leaves [] [] s.c.start d := .keep (.refl _) rfl rfl
  refine gives_of_body hs (exec_stcReadLatch m s) (d := d) rfl ⟨(settled d).rdata, ?_, (settled d).stc, whole.confined⟩
  exact (congrArg (fun x : Mer => Store.get {} x.latch (masterNum m)) (idle_settle d rfl).mer).trans (Store.get_set_self _ _ _ _)

theorem compareArm_coming {m : Master} {u : Fin 8} (allows : s.Allows m 0 timePage (0x100 + 16 * u) 0 true) (coming : s.c.cmpDiff u < 0) :
    Gives (.compareArm m u) s (fun t =>
      t.c.rd (Time.cArm.nth u) = 1 ∧ t.c.rd (Time.cLate.nth u) = 0 ∧ Confined [Time.cArm.nth u, Time.cLate.nth u] [] s t) := by
  obtain ⟨⟨armOk, armW⟩, ⟨lateOk, lateW⟩, apart, armStill, lateStill⟩ := unit_fields u
  let d := (s.c.start.wr (Time.cArm.nth u) 1).wr (Time.cLate.nth u) 0
  have arms : s.c.start.compareArmGo u = d := if_neg (Int.not_le.mpr coming)
  have whole : Chip.Leaves [Time.cArm.nth u, Time.cLate.nth u] [] s.c.start d :=
    ((Chip.Leaves.refl _).wr (f := Time.cArm.nth u) (by simp) 1).wr (f := Time.cLate.nth u) (by simp) 0
  refine gives_of_body allows.1 (exec_compareArm m u s) ((trigger_allows s m timePage _ 0 true (fun c => c.compareArmGo u) allows).trans arms)
    ⟨?_, ?_, whole.confined⟩
  · refine (d.rd_settle armOk armStill).trans ((Chip.rd_wr_ne _ _ (Ne.symm apart)).trans ((Chip.rd_wr_self _ _ _).trans ?_))
    rw [armW]
    rfl
  · exact (d.rd_settle lateOk lateStill).trans ((Chip.rd_wr_self _ _ _).trans (Nat.zero_mod _))

theorem compareArm_late {m : Master} {u : Fin 8} (allows : s.Allows m 0 timePage (0x100 + 16 * u) 0 true) (past : 0 ≤ s.c.cmpDiff u) :
    Gives (.compareArm m u) s (fun t =>
      t.c.rd (Time.cArm.nth u) = 0 ∧ t.c.rd (Time.cLate.nth u) = 1 ∧ bit (t.c.stickyWord timePage) u = true ∧
      bit (t.c.stickyWord timePage) 9 = true ∧ Confined [Time.cArm.nth u, Time.cLate.nth u] [timePage] s t) := by
  obtain ⟨⟨armOk, armW⟩, ⟨lateOk, lateW⟩, apart, armStill, lateStill⟩ := unit_fields u
  let b := ((s.c.start.wr (Time.cLate.nth u) 1).raise 0xB9 timePage u 0).stick timePage 9
  have fires : s.c.start.compareArmGo u = b.cmpFire u := if_pos past
  have late : b.rd (Time.cLate.nth u) = 1 := by
    refine (Chip.rd_wr_self s.c.start (Time.cLate.nth u) 1).trans ?_
    rw [lateW]
    rfl
  have marked : bit (b.stickyWord timePage) 9 = true := Chip.bit_stick _ _ _
  have begun : Chip.Leaves [Time.cArm.nth u, Time.cLate.nth u] [timePage] s.c.start b :=
    (((Chip.Leaves.refl _).wr (f := Time.cLate.nth u) (by simp) 1).raise _ _ _ _).stick (.inl (List.mem_singleton_self _)) 9
  obtain ⟨arm, kept, sticky, leaves⟩ := b.cmpFire_shows u
  have whole := begun.trans (leaves.widen (by simp) (fun _ h => h))
  generalize b.cmpFire u = d at *
  refine gives_of_body allows.1 (exec_compareArm m u s)
    ((trigger_allows s m timePage _ 0 true (fun c => c.compareArmGo u) allows).trans fires)
    ⟨?_, ?_, Chip.bit_stickyWord_settle (sticky u (.inl rfl)), Chip.bit_stickyWord_settle (sticky 9 (.inr marked)), whole.confined⟩
  · exact (d.rd_settle armOk armStill).trans arm
  · exact (d.rd_settle lateOk lateStill).trans (kept.trans late)

theorem compareDisarm_gives {m : Master} {u : Fin 8} (allows : s.Allows m 0 timePage (0x100 + 16 * u) 2 true) :
    Gives (.compareDisarm m u) s (fun t => t.c.rd (Time.cArm.nth u) = 0 ∧ Confined [Time.cArm.nth u] [] s t) := by
  obtain ⟨⟨armOk, armW⟩, -, -, armStill, -⟩ := unit_fields u
  let d := s.c.start.wr (Time.cArm.nth u) 0
  have whole : Chip.Leaves [Time.cArm.nth u] [] s.c.start d := (Chip.Leaves.refl _).wr (List.mem_singleton_self _) 0
  exact gives_of_body allows.1 (exec_compareDisarm m u s)
    (trigger_allows s m timePage _ 2 true (fun c => c.wr (Time.cArm.nth u) 0) allows)
    ⟨(d.rd_settle armOk armStill).trans ((Chip.rd_wr_self _ _ _).trans (Nat.zero_mod _)), whole.confined⟩

end

/-! ## The event FIFO (R363, R364) -/

/-- The four words of the FIFO's record `w`. -/
def eventWords (w : Nat) : List Fld := (List.range 4).map (fun j => Time.evt.nth (4 * w + j))

theorem mem_eventWords {w j : Nat} (h : j < 4) : Time.evt.nth (4 * w + j) ∈ eventWords w :=
  List.mem_map_of_mem (List.mem_range.mpr h)

/-- The FIFO stands in table space, its pointers in the registers of the page. -/
theorem evt_apart {w : Nat} (h : w < 1024) : (Time.evt.nth w).ok = true ∧ (Time.evt.nth w).key ≠ Time.evtWptr.key := by
  refine ⟨Fld.nth_ok (by decide) (by decide) (show 0 + w * 1 < 67108864 by omega), fun same => ?_⟩
  have table : (Time.evt.nth w).key = placeKey 1 0x14 (0 + w * 1) 0 := rfl
  have pointer : Time.evtWptr.key = placeKey 0 0x14 0x60 0 := rfl
  simp only [placeKey] at table pointer
  omega

/-- A stamp stored where there is room. -/
theorem Chip.pushEvent_room {c : Chip} (source : Fin 12) (fall : Bool) (t : Stc) (room : (c.rd Time.evtWptr + 1) % 256 ≠ c.rd Time.evtRptr) :
    (c.pushEvent source fall t).rd Time.evtWptr = (c.rd Time.evtWptr + 1) % 256 ∧
    (c.pushEvent source fall t).rd (Time.evt.nth (4 * c.rd Time.evtWptr)) = (t.ns + 2 ^ 30 * b2n c.mer.evtGap) % 2 ^ 32 ∧
    (c.pushEvent source fall t).rd (Time.evt.nth (4 * c.rd Time.evtWptr + 3)) = source.val + (if fall then 32 else 0) ∧
    bit ((c.pushEvent source fall t).stickyWord timePage) 11 = true ∧
    Chip.Leaves (Time.evtWptr :: eventWords (c.rd Time.evtWptr)) [timePage] c (c.pushEvent source fall t) := by
  have small : c.rd Time.evtWptr < 256 := c.rd_lt Time.evtWptr
  generalize hw : c.rd Time.evtWptr = w at *
  let c1 := c.wr (Time.evt.nth (4 * w)) (t.ns + 2 ^ 30 * b2n c.mer.evtGap)
  let c2 := c1.wr (Time.evt.nth (4 * w + 1)) (t.sec % 2 ^ 32)
  let c3 := c2.wr (Time.evt.nth (4 * w + 2)) (t.sec / 2 ^ 32 + 65536 * t.frac)
  let c4 := c3.wr (Time.evt.nth (4 * w + 3)) (source + 32 * b2n fall)
  let c5 := c4.wr Time.evtWptr (w + 1)
  have stored : c.pushEvent source fall t = (c5.stick timePage 11).updMer (fun m => { m with evtGap := false }) := by
    unfold Chip.pushEvent
    simp only [hw]
    exact if_neg room
  have apart : ∀ {i j : Nat}, i ≠ j → (Time.evt.nth i).key ≠ (Time.evt.nth j).key := fun h => Fld.key_nth_ne (by decide) h
  have first : c5.rd (Time.evt.nth (4 * w)) = (t.ns + 2 ^ 30 * b2n c.mer.evtGap) % 2 ^ 32 :=
    (c4.rd_wr_ne _ (evt_apart (by omega)).2).trans <| (c3.rd_wr_ne _ (apart (by omega))).trans <|
      (c2.rd_wr_ne _ (apart (by omega))).trans <| (c1.rd_wr_ne _ (apart (by omega))).trans (c.rd_wr_self _ _)
  have fits : (source.val + 32 * b2n fall) % 2 ^ 32 = source.val + (if fall then 32 else 0) := by
    have := source.isLt
    cases fall
    · exact Nat.mod_eq_of_lt (show source.val + 0 < 2 ^ 32 by omega)
    · exact Nat.mod_eq_of_lt (show source.val + 32 < 2 ^ 32 by omega)
  have last : c5.rd (Time.evt.nth (4 * w + 3)) = source.val + (if fall then 32 else 0) :=
    (c4.rd_wr_ne _ (evt_apart (by omega)).2).trans ((c3.rd_wr_self _ _).trans fits)
  have word {d : Chip} (h : Chip.Leaves (Time.evtWptr :: eventWords w) [timePage] c d) (j : Nat) (hj : j < 4) (v : Nat) :
      Chip.Leaves (Time.evtWptr :: eventWords w) [timePage] c (d.wr (Time.evt.nth (4 * w + j)) v) :=
    h.wr (List.mem_cons_of_mem _ (mem_eventWords hj)) v
  have leaves : Chip.Leaves (Time.evtWptr :: eventWords w) [timePage] c c4 :=
    word (word (word (word (.refl c) 0 (by decide) _) 1 (by decide) _) 2 (by decide) _) 3 (by decide) _
  have pointer : c5.rd Time.evtWptr = (w + 1) % 256 := c4.rd_wr_self _ _
  have leaves5 : Chip.Leaves (Time.evtWptr :: eventWords w) [timePage] c (c5.stick timePage 11) :=
    (leaves.wr List.mem_cons_self (w + 1)).stick (.inl (List.mem_singleton_self _)) 11
  rw [stored]
  exact ⟨pointer, first, last, Chip.bit_stick c5 timePage 11, leaves5.keep rfl rfl⟩

/-- A stamp lost where there is none. -/
theorem Chip.pushEvent_full {c : Chip} (source : Nat) (fall : Bool) (t : Stc) (full : (c.rd Time.evtWptr + 1) % 256 = c.rd Time.evtRptr) :
    (c.pushEvent source fall t).rd Time.evtLost = satInc 32 (c.rd Time.evtLost) ∧
    bit ((c.pushEvent source fall t).stickyWord timePage) 8 = true ∧
    Chip.Leaves [Time.evtLost] [timePage] c (c.pushEvent source fall t) := by
  have lost : c.pushEvent source fall t =
      (((c.inc Time.evtLost).stick timePage 8).raise 0xB8 timePage source 0).updMer (fun m => { m with evtGap := true }) := if_pos full
  have leaves : Chip.Leaves [Time.evtLost] [timePage] c (((c.inc Time.evtLost).stick timePage 8).raise 0xB8 timePage source 0) :=
    (((Chip.Leaves.refl c).wr (List.mem_singleton_self _) _).stick (.inl (List.mem_singleton_self _)) 8).raise _ _ _ _
  rw [lost]
  exact ⟨Chip.rd_inc_self c Time.evtLost, Chip.bit_stick (c.inc Time.evtLost) timePage 8, leaves.keep rfl rfl⟩

/-- The counting of edges, and the machine after it: it changes no register. -/
def Chip.edgeCounted (c : Chip) (source : Fin 12) : Bool × Chip := if source.val < 8 then (true, c) else c.captureCount (source - 8)

theorem Chip.edgeCounted_keeps (c : Chip) (source : Fin 12) : (c.edgeCounted source).2.flds = c.flds ∧
    (c.edgeCounted source).2.sticky = c.sticky ∧ (c.edgeCounted source).2.mer.evtGap = c.mer.evtGap := by
  unfold Chip.edgeCounted
  split <;> exact ⟨rfl, rfl, rfl⟩

/-- The stamp of an edge (R363). -/
def Chip.edgeStamp (c : Chip) (ns : Fin 40) : Stc := { Stc.ofTotal (c.stc.total + 65536 * ns.val) with frac := 0 }

section
variable {s : State}

/-- The body of an edge that is stamped. -/
theorem edge_stamped {source : Fin 12} {fall : Bool} {ns : Fin 40} (selected : s.c.edgeSelected source fall = true)
    (counted : 8 ≤ source.val → (s.c.captureCount (source - 8)).1 = true) :
    (let e := s.c.start.edgeCounted source
     if !s.c.start.edgeSelected source fall then s.c.start else if !e.1 then e.2 else e.2.pushEvent source fall (s.c.start.edgeStamp ns)) =
    (s.c.start.edgeCounted source).2.pushEvent source fall (s.c.start.edgeStamp ns) := by
  have counts : (s.c.start.edgeCounted source).1 = true := by
    unfold Chip.edgeCounted
    split
    · rfl
    · exact counted (by omega)
  have chosen : s.c.start.edgeSelected source fall = true := selected
  simp [counts, chosen]

theorem eventCapture_room {source : Fin 12} {fall : Bool} {ns : Fin 40} (hs : s.Runs) (selected : s.c.edgeSelected source fall = true)
    (counted : 8 ≤ source.val → (s.c.captureCount (source - 8)).1 = true) (room : (s.c.rd Time.evtWptr + 1) % 256 ≠ s.c.rd Time.evtRptr) :
    Gives (.eventCapture source fall ns) s (fun t =>
      t.c.rd Time.evtWptr = (s.c.rd Time.evtWptr + 1) % 256 ∧
      t.c.rd (Time.evt.nth (4 * s.c.rd Time.evtWptr)) =
        ((Stc.ofTotal (s.c.stc.total + 65536 * ns.val)).ns + 2 ^ 30 * b2n s.c.mer.evtGap) % 2 ^ 32 ∧
      t.c.rd (Time.evt.nth (4 * s.c.rd Time.evtWptr + 3)) = source.val + (if fall then 32 else 0) ∧
      bit (t.c.stickyWord timePage) 11 = true ∧
      Confined (Time.evtWptr :: (List.range 4).map (fun j => Time.evt.nth (4 * s.c.rd Time.evtWptr + j))) [timePage] s t) := by
  have body := edge_stamped (ns := ns) selected counted
  have small : s.c.rd Time.evtWptr < 256 := s.c.rd_lt Time.evtWptr
  obtain ⟨flds, sticky, gap⟩ := s.c.start.edgeCounted_keeps source
  have same : ∀ f, (s.c.start.edgeCounted source).2.rd f = s.c.rd f := fun f => by
    rw [Chip.rd, flds]
    rfl
  obtain ⟨pointer, first, last, marked, leaves⟩ := Chip.pushEvent_room (c := (s.c.start.edgeCounted source).2) source fall
    (s.c.start.edgeStamp ns) (by rw [same, same]; exact room)
  rw [same] at pointer first last leaves
  have whole := (Chip.Leaves.keep (.refl s.c.start) flds sticky).trans leaves
  have begins : (s.c.start.edgeStamp ns).ns = (Stc.ofTotal (s.c.stc.total + 65536 * ns.val)).ns := rfl
  rw [gap, begins] at first
  generalize (s.c.start.edgeCounted source).2.pushEvent source fall (s.c.start.edgeStamp ns) = d at *
  refine gives_of_body hs (exec_eventCapture source fall ns s) body ⟨?_, ?_, ?_, Chip.bit_stickyWord_settle marked, whole.confined⟩
  · exact (d.rd_settle (by decide) (by decide)).trans pointer
  · exact (d.rd_settle (evt_apart (by omega)).1 rfl).trans first
  · exact (d.rd_settle (evt_apart (by omega)).1 rfl).trans last

theorem eventCapture_full {source : Fin 12} {fall : Bool} {ns : Fin 40} (hs : s.Runs) (selected : s.c.edgeSelected source fall = true)
    (counted : 8 ≤ source.val → (s.c.captureCount (source - 8)).1 = true) (full : (s.c.rd Time.evtWptr + 1) % 256 = s.c.rd Time.evtRptr) :
    Gives (.eventCapture source fall ns) s (fun t =>
      t.c.rd Time.evtLost = satInc 32 (s.c.rd Time.evtLost) ∧ bit (t.c.stickyWord timePage) 8 = true ∧
      Confined [Time.evtLost] [timePage] s t) := by
  have body := edge_stamped (ns := ns) selected counted
  obtain ⟨flds, sticky, -⟩ := s.c.start.edgeCounted_keeps source
  have same : ∀ f, (s.c.start.edgeCounted source).2.rd f = s.c.rd f := fun f => by
    rw [Chip.rd, flds]
    rfl
  obtain ⟨lost, marked, leaves⟩ := Chip.pushEvent_full (c := (s.c.start.edgeCounted source).2) source fall
    (s.c.start.edgeStamp ns) (by rw [same, same]; exact full)
  rw [same] at lost
  have whole := (Chip.Leaves.keep (.refl s.c.start) flds sticky).trans leaves
  generalize (s.c.start.edgeCounted source).2.pushEvent source fall (s.c.start.edgeStamp ns) = d at *
  exact gives_of_body hs (exec_eventCapture source fall ns s) body
    ⟨(d.rd_settle (by decide) (by decide)).trans lost, Chip.bit_stickyWord_settle marked, whole.confined⟩

theorem eventCapture_passed {source : Fin 12} {fall : Bool} {ns : Fin 40} (hs : s.Runs)
    (passed : s.c.edgeSelected source fall = false ∨ (8 ≤ source.val ∧ (s.c.captureCount (source - 8)).1 = false)) :
    Gives (.eventCapture source fall ns) s (fun t => Confined [] [] s t) := by
  obtain ⟨flds, sticky, -⟩ := s.c.start.edgeCounted_keeps source
  by_cases selected : s.c.edgeSelected source fall = true
  · obtain ⟨from8, missed⟩ := passed.resolve_left (by simp [selected])
    have counts : (s.c.start.edgeCounted source).1 = false := (congrArg Prod.fst (if_neg (by omega))).trans missed
    have chosen : s.c.start.edgeSelected source fall = true := selected
    exact gives_of_body hs (exec_eventCapture source fall ns s) (d := (s.c.start.edgeCounted source).2)
      (show (let e := s.c.start.edgeCounted source
        if !s.c.start.edgeSelected source fall then s.c.start else if !e.1 then e.2 else e.2.pushEvent source fall (s.c.start.edgeStamp ns)) = _ by
          simp [counts, chosen])
      (Chip.Leaves.confined (.keep (.refl s.c.start) flds sticky))
  · have unchosen : s.c.start.edgeSelected source fall = false := Bool.eq_false_iff.mpr selected
    exact gives_of_body hs (exec_eventCapture source fall ns s) (d := s.c.start) (if_pos (by simp [unchosen]))
      (Chip.Leaves.confined (.refl s.c.start))

end

/-- Settles O37: the advance carries what is below the fraction, a unit fires or waits by its distance from its target, and an edge is
stamped at the write pointer or lost. -/
theorem timeCounter : Obligations.TimeCounter := fun _ =>
  ⟨stcAdvance_gives, stcReadLatch_gives, fun _ _ => compareArm_coming, fun _ _ => compareArm_late, fun _ _ => compareDisarm_gives,
    fun _ _ _ => eventCapture_room, fun _ _ _ => eventCapture_full, fun _ _ _ => eventCapture_passed⟩

end Sys2Proof.Machine
end

section
/-! SUPPORT. What the pair's events leave alone, and the device's own health (O42). -/

namespace Sys2Proof.Machine

theorem exec_healthGrade (s : State) : exec .healthGrade s = execHealthGrade s := rfl
theorem exec_healthClr (m : Master) (s : State) : exec (.healthClr m) s = execHealthClr m s := rfl
theorem exec_bistSegment (tile : BitVec 10) (r : BistEnd) (s : State) : exec (.bistSegment tile r) s = execBistSegment tile r s := rfl
theorem exec_lsideMismatch (g : Fin 32) (s : State) : exec (.lsideMismatch g) s = execLsideMismatch g s := rfl

/-! ## Events of the pair (R374) -/

/-- A device that takes part in the pair's states is one of a pair. -/
theorem Chip.paired_of_pairState {c : Chip} (h : c.pairState ≠ 0) : c.paired = true := by
  by_contra single
  exact h (if_neg single)

theorem Chip.rd_state_of_pairState {c : Chip} {n : Nat} (h : c.pairState = n) (hn : n ≠ 0) : c.rd Twin.state = n :=
  (if_pos (Chip.paired_of_pairState (by rw [h]; exact hn))).symm.trans h

theorem Chip.pairState_of_paired {c : Chip} (h : c.paired = true) : c.pairState = c.rd Twin.state := if_pos h

section
variable {s : State} {a : Instr} {f : Chip → Chip} {d : Chip} {P : State → Prop}

/-- An event of a pair runs its body. -/
theorem gives_of_pair (hs : s.Runs) (hp : s.c.paired = true) (he : exec a s = actPair s f) (hf : f s.c.start = d)
    (h : P { s with c := d.settle }) : Gives a s P :=
  gives_of_body hs he ((if_pos hp).trans hf) h

/-- A cell of the mate runs its body while LGTW is UP. -/
theorem gives_of_cell (hs : s.Runs) (hp : s.c.paired = true) (up : s.c.grpState 32 = 6) (he : exec a s = actCell s f) (hf : f s.c.start = d)
    (h : P { s with c := d.settle }) : Gives a s P :=
  gives_of_pair hs hp he ((if_pos up).trans hf) h

end

/-- The end of a command keeps the pair's own state, but for the instant of a closing eye. -/
theorem Chip.twin_settle (c : Chip) : { c.settle.twin with eyeAt := none } = { c.twin with eyeAt := none } := (settled c).twin

theorem Chip.Leaves.updTwin {gs : List Fld} {ps : List Nat} {a b : Chip} (h : Chip.Leaves gs ps a b) (f : TwinX → TwinX) :
    Chip.Leaves gs ps a (b.updTwin f) := h.keep rfl rfl

theorem Chip.leaves_cellOut {gs : List Fld} {ps : List Nat} (c : Chip) (kind seq : Nat) (ws : List Nat) :
    Chip.Leaves gs ps c (c.cellOut kind seq ws) := by
  obtain ⟨x, hx⟩ := c.cellOut_frame kind seq ws
  rw [hx]
  exact .keep (.refl c) rfl rfl

/-- A device that is due to yield changes nothing else. -/
theorem Chip.dueYield_frame (c : Chip) (cause : Nat) : ∃ n, c.dueYield cause = { c with yieldDue := n } := by
  unfold Chip.dueYield
  split <;> exact ⟨_, rfl⟩

/-! ## Health (R394 to R397) -/

theorem gradeOf_lt (causes : Nat) : gradeOf causes < 4 := by
  unfold gradeOf
  split
  · decide
  · split <;> decide

/-- The grade as a machine shows it, before the mate is told. -/
def Chip.gradesHealth (c : Chip) : Chip :=
  let d := (c.wr Twin.cause c.healthCauses).wr Twin.health (gradeOf c.healthCauses)
  let d := if gradeOf c.healthCauses = c.rd Twin.health then d else d.stick twinPage 12
  if gradeOf c.healthCauses = 2 ∧ c.rd Twin.health ≠ 2 then d.dueYield 3 else d

theorem Chip.gradesHealth_shows (c : Chip) : c.gradesHealth.rd Twin.health = gradeOf c.healthCauses ∧
    c.gradesHealth.rd Twin.cause = c.healthCauses % 256 ∧
    (gradeOf c.healthCauses ≠ c.rd Twin.health → bit (c.gradesHealth.stickyWord twinPage) 12 = true) ∧
    Chip.Leaves [Twin.health, Twin.cause] [twinPage] c c.gradesHealth ∧ c.gradesHealth.reports = c.reports := by
  unfold Chip.gradesHealth
  generalize c.healthCauses = causes
  have fits : gradeOf causes % 2 ^ 2 = gradeOf causes := Nat.mod_eq_of_lt (gradeOf_lt causes)
  generalize gradeOf causes = new at *
  extract_lets d e
  have health : d.rd Twin.health = new := (Chip.rd_wr_self _ _ _).trans fits
  have cause : d.rd Twin.cause = causes % 256 := (Chip.rd_wr_ne _ _ (by decide)).trans (Chip.rd_wr_self _ _ _)
  have leaves : Chip.Leaves [Twin.health, Twin.cause] [twinPage] c d :=
    ((Chip.Leaves.refl c).wr (f := Twin.cause) (by simp) _).wr (f := Twin.health) (by simp) _
  have marked : new ≠ c.rd Twin.health → bit (e.stickyWord twinPage) 12 = true := fun h => by
    rw [show e = d.stick twinPage 12 from if_neg h]
    exact Chip.bit_stick _ _ _
  have whole : Chip.Leaves [Twin.health, Twin.cause] [twinPage] c e :=
    .ite (fun _ => leaves) fun _ => leaves.stick (.inl (List.mem_singleton_self _)) 12
  have same : e.flds = d.flds ∧ e.reports = d.reports := by
    show (if _ then _ else _ : Chip).flds = _ ∧ (if _ then _ else _ : Chip).reports = _
    split <;> exact ⟨rfl, rfl⟩
  obtain ⟨flds, reports⟩ := same
  have quiet : d.reports = c.reports := rfl
  clear_value e d
  have shown : e.rd Twin.health = new ∧ e.rd Twin.cause = causes % 256 := by
    rw [Chip.rd, Chip.rd, flds]
    exact ⟨health, cause⟩
  obtain ⟨n, hn⟩ := e.dueYield_frame 3
  split
  · rw [hn]
    exact ⟨shown.1, shown.2, marked, whole.keep rfl rfl, reports.trans quiet⟩
  · exact ⟨shown.1, shown.2, marked, whole, reports.trans quiet⟩

section
variable {s : State}

theorem healthGrade_gives (hs : s.Runs) (hp : s.c.paired = true) : Gives .healthGrade s (fun t =>
      t.c.rd Twin.health = gradeOf s.c.healthCauses ∧ t.c.rd Twin.cause = s.c.healthCauses % 256 ∧
      (gradeOf s.c.healthCauses ≠ s.c.rd Twin.health → bit (t.c.stickyWord twinPage) 12 = true) ∧
      Confined [Twin.health, Twin.cause] [twinPage] s t) := by
  let b := s.c.start.gradesHealth
  have told : s.c.start.gradeHealth = b.cellOut 5 0 [gradeOf s.c.start.healthCauses + 4 * b2n (activeRole b.pairState) + 8 * b.pairState +
      64 * b.rd Twin.partialUp, s.c.start.healthCauses, b.lsideCount, b.rd Twin.epoch] := rfl
  obtain ⟨health, cause, marked, leaves, -⟩ := s.c.start.gradesHealth_shows
  have whole := leaves.trans (b.leaves_cellOut 5 0 [gradeOf s.c.start.healthCauses + 4 * b2n (activeRole b.pairState) + 8 * b.pairState +
      64 * b.rd Twin.partialUp, s.c.start.healthCauses, b.lsideCount, b.rd Twin.epoch])
  obtain ⟨x, hx⟩ := b.cellOut_frame 5 0 [gradeOf s.c.start.healthCauses + 4 * b2n (activeRole b.pairState) + 8 * b.pairState +
      64 * b.rd Twin.partialUp, s.c.start.healthCauses, b.lsideCount, b.rd Twin.epoch]
  rw [hx] at told whole
  change b.rd Twin.health = _ at health
  change b.rd Twin.cause = _ at cause
  change _ → bit (b.stickyWord twinPage) 12 = true at marked
  generalize b = b at *
  refine gives_of_pair hs hp (exec_healthGrade s) told ⟨?_, ?_, fun h => Chip.bit_stickyWord_settle (marked h), whole.confined⟩
  · exact (Chip.rd_settle _ (by decide) (by decide)).trans health
  · exact (Chip.rd_settle _ (by decide) (by decide)).trans cause

theorem healthClr_gives {m : Master} (allows : s.Allows m 0 twinPage 0x48 0 false) :
    Gives (.healthClr m) s (fun t => t.c.twin.latched = 0 ∧ Confined [Twin.hClr] [] s t) := by
  let d := s.c.start.clearHealth
  have whole : Chip.Leaves [Twin.hClr] [] s.c.start d :=
    (Chip.Leaves.updTwin (.refl _) fun t => { t with latched := 0 }).wr (List.mem_singleton_self _) 0
  have cleared : d.twin.latched = 0 := rfl
  have body := trigger_allows s m twinPage 0x48 0 false Chip.clearHealth allows
  change _ = d at body
  generalize d = d at *
  exact gives_of_body allows.1 (exec_healthClr m s) body ⟨(congrArg TwinX.latched d.twin_settle).trans cleared, whole.confined⟩

theorem bistSegment_failed {tile : BitVec 10} (hs : s.Runs) (standby : s.c.pairState = 6) (on : s.c.on Twin.bistEn = true) :
    Gives (.bistSegment tile .failed) s (fun t =>
      bit t.c.twin.latched 2 = true ∧ bit (t.c.stickyWord twinPage) 7 = true ∧ Confined [] [twinPage] s t) := by
  let b := s.c.start.updTwin (fun t => { t with latched := setBit t.latched 2 true })
  let d := (b.raise 0xCA twinPage tile.toNat 0).stick twinPage 7
  have body : (if s.c.start.pairState = 6 ∧ s.c.start.on Twin.bistEn ∧ BistEnd.failed = .failed then d else s.c.start) = d :=
    if_pos ⟨standby, on, rfl⟩
  have whole : Chip.Leaves [] [twinPage] s.c.start d :=
    ((Chip.Leaves.updTwin (.refl _) fun t => { t with latched := setBit t.latched 2 true }).raise _ _ _ _).stick (.inl (List.mem_singleton_self _)) 7
  have latched : bit d.twin.latched 2 = true := bit_setBit_true _ _
  have marked : bit (d.stickyWord twinPage) 7 = true := Chip.bit_stick _ _ _
  refine gives_of_pair hs (Chip.paired_of_pairState (by rw [standby]; decide)) (exec_bistSegment tile .failed s) body ?_
  clear_value d
  exact ⟨(congrArg (fun x : TwinX => bit x.latched 2) d.twin_settle).trans latched, Chip.bit_stickyWord_settle marked, whole.confined⟩

theorem bistSegment_other {tile : BitVec 10} {r : BistEnd} (hs : s.Runs) (hr : r ≠ .failed) :
    Gives (.bistSegment tile r) s (fun t => t.c.twin = s.c.twin ∧ Confined [] [] s t) := by
  have nothing (c d : Chip) : (if c.pairState = 6 ∧ c.on Twin.bistEn ∧ r = .failed then d else c) = c := if_neg fun h => hr h.2.2
  have body : (if s.c.start.paired then (if s.c.start.pairState = 6 ∧ s.c.start.on Twin.bistEn ∧ r = .failed then
      ((s.c.start.updTwin (fun t => { t with latched := setBit t.latched 2 true })).raise 0xCA twinPage tile.toNat 0).stick twinPage 7
      else s.c.start) else s.c.start) = s.c.start := by
    rw [nothing, ite_self]
  exact gives_of_body hs (exec_bistSegment tile r s) body ⟨(idle_settle s.c.start rfl).twin, (Chip.Leaves.refl _).confined⟩

theorem lsideMismatch_gives {g : Fin 32} (hs : s.Runs) (hp : s.c.paired = true) (differs : s.c.lsideDiffers g = true)
    (fresh : s.c.twin.lsideBad.contains g.val = false) : Gives (.lsideMismatch g) s (fun t =>
      t.c.twin.lsideBad = s.c.twin.lsideBad ++ [g.val] ∧ t.c.rd Twin.lsideBad = (s.c.twin.lsideBad.length + 1) % 64 ∧
      bit (t.c.stickyWord twinPage) 5 = true ∧ Confined [Twin.lsideBad] [twinPage] s t) := by
  let b := s.c.start.updTwin (fun t => { t with lsideBad := t.lsideBad ++ [g.val] })
  let d := ((b.wr Twin.lsideBad b.twin.lsideBad.length).raise 0xC8 twinPage g 0).stick twinPage 5
  have body : (if !s.c.start.lsideDiffers g ∨ s.c.start.twin.lsideBad.contains g.val then s.c.start else d) = d := by
    have differs' : s.c.start.lsideDiffers g = true := differs
    have fresh' : s.c.start.twin.lsideBad.contains g.val = false := fresh
    exact if_neg (by simp only [differs', fresh']; decide)
  have whole : Chip.Leaves [Twin.lsideBad] [twinPage] s.c.start d :=
    (((Chip.Leaves.updTwin (.refl _) fun t => { t with lsideBad := t.lsideBad ++ [g.val] }).wr (List.mem_singleton_self _) _).raise _ _ _ _).stick (.inl (List.mem_singleton_self _)) 5
  have listed : d.twin.lsideBad = s.c.twin.lsideBad ++ [g.val] := rfl
  have count : d.rd Twin.lsideBad = (s.c.twin.lsideBad.length + 1) % 64 :=
    (b.rd_wr_self Twin.lsideBad _).trans (congrArg (· % 64) (List.length_append (as := s.c.twin.lsideBad) (bs := [g.val])))
  have marked : bit (d.stickyWord twinPage) 5 = true := Chip.bit_stick _ _ _
  refine gives_of_pair hs hp (exec_lsideMismatch g s) body ?_
  clear_value d
  exact ⟨(congrArg TwinX.lsideBad d.twin_settle).trans listed, (d.rd_settle (by decide) (by decide)).trans count,
    Chip.bit_stickyWord_settle marked, whole.confined⟩

end

/-- Settles O42: the grade is what the causes of the moment give, and each latch is set by its one event. -/
theorem pairHealth : Obligations.PairHealth := fun _ =>
  ⟨healthGrade_gives, fun _ => healthClr_gives, fun _ => bistSegment_failed, fun _ _ => bistSegment_other, fun _ => lsideMismatch_gives⟩

end Sys2Proof.Machine
end

section
/-! SUPPORT. What the pair's own operations write (R375 to R391): beside the fields and sticky words named, only what the fabric shows of
its answers, the lists of holds and of group faults, and the cells and verdicts on their way. -/

namespace Sys2Proof.Machine

/-- The pair's own state without what its shared operations move: the cells on their way, the groups listed and the open dispute. -/
def TwinX.core (t : TwinX) : TwinX :=
  { t with eyeAt := none, lsideBad := [], tx := [], win := none, own := none, mate := none, matched := 0 }

/-- Between two machines lie only operations of the pair. -/
structure Chip.Mates (gs : List Fld) (ps : List Nat) (c d : Chip) : Prop extends Chip.Leaves gs ps c d where
  set : ∀ p b, bit (c.stickyWord p) b = true → bit (d.stickyWord p) b = true
  reports : ∀ r ∈ d.reports, r ∈ c.reports ∨ r.src / 16 = 12
  out : ∀ o ∈ c.out, o ∈ d.out
  twin : d.twin.core = c.twin.core
  frame : ∃ (F : Store Nat) (W : Store Nat) (u : Fcu) (rs : List Report) (fl : List (Nat × Nat)) (sv : List Served) (si : List (Nat × Nat))
    (r : Resp) (x : List Nat) (o : List Out) (t : TwinX),
    d = { c with flds := F, sticky := W, fcu := u, reports := rs, inFlight := fl, served := sv, silent := si, resp := r, rdata := x,
                 out := o, twin := t }

section
variable {gs : List Fld} {ps : List Nat} {a b c : Chip}

theorem Chip.Mates.refl (c : Chip) : Chip.Mates gs ps c c :=
  ⟨.refl c, fun _ _ h => h, fun _ h => .inl h, fun _ h => h, rfl, _, _, _, _, _, _, _, _, _, _, _, rfl⟩

theorem Chip.Mates.trans (h : Chip.Mates gs ps a b) (k : Chip.Mates gs ps b c) : Chip.Mates gs ps a c where
  toLeaves := h.toLeaves.trans k.toLeaves
  set p i hi := k.set p i (h.set p i hi)
  reports r hr := (k.reports r hr).elim (h.reports r) .inr
  out o ho := k.out o (h.out o ho)
  twin := k.twin.trans h.twin
  frame := by
    obtain ⟨_, _, _, _, _, _, _, _, _, _, _, rfl⟩ := h.frame
    obtain ⟨_, _, _, _, _, _, _, _, _, _, _, rfl⟩ := k.frame
    exact ⟨_, _, _, _, _, _, _, _, _, _, _, rfl⟩

theorem Chip.Mates.widen {hs : List Fld} {qs : List Nat} (h : Chip.Mates gs ps a b) (k : gs ⊆ hs) (l : ps ⊆ qs) : Chip.Mates hs qs a b :=
  { h with toLeaves := h.toLeaves.widen k l }

theorem Chip.Mates.ite {p : Prop} [Decidable p] (h : p → Chip.Mates gs ps a b) (k : ¬p → Chip.Mates gs ps a c) :
    Chip.Mates gs ps a (if p then b else c) := by
  split
  · exact h ‹_›
  · exact k ‹_›

theorem Chip.Mates.foldl {β : Type} {step : Chip → β → Chip} {l : List β} (h : Chip.Mates gs ps a b)
    (hstep : ∀ x ∈ l, ∀ d, Chip.Mates gs ps d (step d x)) : Chip.Mates gs ps a (l.foldl step b) :=
  List.foldlRecOn (motive := Chip.Mates gs ps a) l step h fun d hd x hx => hd.trans (hstep x hx d)

theorem Chip.Mates.wr (h : Chip.Mates gs ps a b) {f : Fld} (hf : f ∈ gs) (v : Nat) : Chip.Mates gs ps a (b.wr f v) :=
  h.trans ⟨(Chip.Leaves.refl b).wr hf v, fun _ _ h => h, fun _ h => .inl h, fun _ h => h, rfl, _, _, _, _, _, _, _, _, _, _, _, rfl⟩

theorem Chip.Mates.stick (h : Chip.Mates gs ps a b) {p : Nat} (hp : p ∈ ps ∨ reactsSticky p = true) (n : Nat) :
    Chip.Mates gs ps a (b.stick p n) :=
  h.trans ⟨(Chip.Leaves.refl b).stick hp n, (b.reacts_stick (cs := []) p n).sticky, fun _ h => .inl h, fun _ h => h, rfl,
    _, _, _, _, _, _, _, _, _, _, _, rfl⟩

theorem Chip.Mates.raise (h : Chip.Mates gs ps a b) {src : Nat} (hs : src / 16 = 12) (page inst detail : Nat) :
    Chip.Mates gs ps a (b.raise src page inst detail) := by
  refine h.trans ⟨(Chip.Leaves.refl b).raise _ _ _ _, fun _ _ h => h, fun r hr => ?_, fun _ h => h, rfl, _, _, _, _, _, _, _, _, _, _, _, rfl⟩
  refine (List.mem_append.mp hr).imp_right fun m => ?_
  obtain rfl := List.mem_singleton.mp m
  exact hs

/-- A change of the parts of the pair's own state that its operations move. -/
theorem Chip.Mates.updTwin (h : Chip.Mates gs ps a b) {f : TwinX → TwinX} (hf : (f b.twin).core = b.twin.core) :
    Chip.Mates gs ps a (b.updTwin f) :=
  h.trans ⟨(Chip.Leaves.refl b).updTwin f, fun _ _ h => h, fun _ h => .inl h, fun _ h => h, hf, _, _, _, _, _, _, _, _, _, _, _, rfl⟩

theorem Chip.Mates.cellOut (h : Chip.Mates gs ps a b) (kind seq : Nat) (ws : List Nat) : Chip.Mates gs ps a (b.cellOut kind seq ws) := by
  have told : Chip.Mates gs ps b (b.emit (.cell kind seq ws)) :=
    ⟨.keep (.refl b) rfl rfl, fun _ _ h => h, fun _ h => .inl h, fun _ h => List.mem_append_left _ h, rfl,
      _, _, _, _, _, _, _, _, _, _, _, rfl⟩
  refine h.trans (.ite (fun _ => ?_) fun _ => told)
  exact told.updTwin (f := fun t => { t with tx := putCell (kind, seq, ws) t.tx }) rfl

theorem Chip.mem_cellOut (c : Chip) (kind seq : Nat) (ws : List Nat) : Out.cell kind seq ws ∈ (c.cellOut kind seq ws).out := by
  obtain ⟨x, hx⟩ := c.cellOut_frame kind seq ws
  rw [hx]
  exact List.mem_append_right _ (List.mem_singleton_self _)

/-! ## Answers of the fabric -/

theorem Chip.setFlight_frame (c : Chip) (l : List (Nat × Nat)) : ∃ F, c.setFlight l = { c with flds := F, inFlight := l } := by
  have shown (b : Chip) (m : Nat) (h : ∃ F, b = { c with flds := F, inFlight := l }) :
      ∃ F, b.showFlightOf m = { c with flds := F, inFlight := l } := by
    obtain ⟨F, rfl⟩ := h
    exact ⟨_, rfl⟩
  unfold Chip.setFlight
  exact shown _ 5 (shown _ 4 (shown _ 3 (shown _ 2 (shown _ 1 (shown _ 0 ⟨_, rfl⟩)))))

theorem Chip.mates_setFlight (c : Chip) (l : List (Nat × Nat)) : Chip.Mates gs ps c (c.setFlight l) := by
  have answers := c.onlyAnswers_setFlight l
  obtain ⟨F, hF⟩ := c.setFlight_frame l
  rw [hF] at answers ⊢
  exact ⟨⟨fun f hf hr _ => answers.rd f hf hr, fun p hr _ => answers.sticky p hr⟩, fun _ _ h => h, fun _ h => .inl h, fun _ h => h, rfl,
    _, _, _, _, _, _, _, _, _, _, _, rfl⟩

theorem Chip.mates_oneResponse (c : Chip) (f : Nat × Nat) (r : Resp) (data : List Nat) : Chip.Mates gs ps c (c.oneResponse f r data) := by
  have sent : Chip.Mates gs ps c ({ c with resp := r, rdata := data }.emit (.response f.1 f.2 r data)) :=
    ⟨.keep (.refl c) rfl rfl, fun _ _ h => h, fun _ h => .inl h, fun _ h => List.mem_append_left _ h, rfl,
      _, _, _, _, _, _, _, _, _, _, _, rfl⟩
  exact sent.trans (Chip.mates_setFlight _ _)

theorem Chip.mates_answerFlight (c : Chip) (f : Nat × Nat) : Chip.Mates gs ps c (c.answerFlight f) := by
  have ended (x : List (Nat × Nat)) : Chip.Mates gs ps c { c with silent := x } :=
    ⟨.keep (.refl c) rfl rfl, fun _ _ h => h, fun _ h => .inl h, fun _ h => h, rfl, _, _, _, _, _, _, _, _, _, _, _, rfl⟩
  have taken (x : List Served) : Chip.Mates gs ps c { c with served := x } :=
    ⟨.keep (.refl c) rfl rfl, fun _ _ h => h, fun _ h => .inl h, fun _ h => h, rfl, _, _, _, _, _, _, _, _, _, _, _, rfl⟩
  unfold Chip.answerFlight Chip.returnFlight
  refine .ite (fun _ => ended _) fun _ => .ite (fun _ => ?_) fun _ => .refl c
  exact .foldl ((taken _).trans (Chip.mates_oneResponse _ _ _ _)) fun x _ d => d.mates_oneResponse _ _ _

theorem Chip.Mates.answerWaits (h : Chip.Mates gs ps a b) (l : List MirrorItem) : Chip.Mates gs ps a (b.answerWaits l) :=
  .foldl h fun i _ d => .foldl (.refl d) fun id _ e => e.mates_answerFlight _

/-! ## Roles and disputes -/

theorem Chip.mates_passHolds (c : Chip) (src page inst : Nat) : Chip.Mates gs ps c (c.passHolds src page inst) :=
  ⟨.keep (.refl c) rfl rfl, fun _ _ h => h, fun _ h => .inl h, fun _ h => h, rfl, _, _, _, _, _, _, _, _, _, _, _, rfl⟩

theorem Chip.Mates.lsideEase (h : Chip.Mates gs ps a b) (hg : Twin.lsideBad ∈ gs) : Chip.Mates gs ps a b.lsideEase := by
  unfold Chip.lsideEase
  refine .ite (fun _ => h) fun _ => Chip.Mates.wr ?_ hg _
  exact .foldl (h.updTwin (f := fun t => { t with lsideBad := t.lsideBad.filter fun g => b.lsideDiffers g }) rfl) fun g _ d =>
    d.mates_passHolds _ _ _

/-- The fields that the change of a state writes. -/
def roleFields : List Fld :=
  [Twin.state, Twin.active, Twin.switches, Twin.lastCause, Twin.lastDir, Twin.lsideBad, Ump.comparing]

theorem Chip.Mates.showPair (h : Chip.Mates gs ps a b) (shown : Ump.comparing ∈ gs) (listed : Twin.lsideBad ∈ gs) :
    Chip.Mates gs ps a b.showPair := (h.wr shown _).lsideEase listed

theorem Chip.Mates.endDispute (h : Chip.Mates gs ps a b) (hg : Ump.dispute ∈ gs) (hp : umpPage ∈ ps) : Chip.Mates gs ps a b.endDispute := by
  unfold Chip.endDispute
  exact .ite (fun _ => ((h.wr hg 0).stick (.inl hp) 3).updTwin rfl) fun _ => h

/-- A device in a state, before the pair's comparison is shown. -/
def Chip.entersState (c : Chip) (st cause : Nat) : Chip :=
  let d := (c.wr Twin.state st).wr Twin.active (b2n (activeRole st))
  if activeRole c.pairState = activeRole st then d
  else
    let d := (d.inc Twin.switches).stick twinPage 0
    if cause = 0 then d else (d.wr Twin.lastCause cause).wr Twin.lastDir (b2n (activeRole c.pairState))

theorem Chip.setPair_eq (c : Chip) (st cause : Nat) : c.setPair st cause = (c.entersState st cause).showPair := rfl

theorem Chip.Mates.entersState (h : Chip.Mates gs ps a b) (hg : roleFields ⊆ gs) (hp : twinPage ∈ ps) (st cause : Nat) :
    Chip.Mates gs ps a (b.entersState st cause) := by
  have begun : Chip.Mates gs ps a ((b.wr Twin.state st).wr Twin.active (b2n (activeRole st))) :=
    (h.wr (hg (by decide)) st).wr (hg (by decide)) _
  have counted := (begun.wr (f := Twin.switches) (hg (by decide)) (satInc 16 (((b.wr Twin.state st).wr Twin.active
    (b2n (activeRole st))).rd Twin.switches))).stick (.inl hp) 0
  unfold Chip.entersState
  exact .ite (fun _ => begun) fun _ => .ite (fun _ => counted) fun _ =>
    (counted.wr (f := Twin.lastCause) (hg (by decide)) _).wr (f := Twin.lastDir) (hg (by decide)) _

theorem Chip.Mates.setPair (h : Chip.Mates gs ps a b) (hg : roleFields ⊆ gs) (hp : twinPage ∈ ps) (st cause : Nat) :
    Chip.Mates gs ps a (b.setPair st cause) := by
  rw [Chip.setPair_eq]
  exact (h.entersState hg hp st cause).showPair (hg (by decide)) (hg (by decide))

end

/-- What showing the comparison leaves: every field but its own and the count of group faults. -/
theorem Chip.mates_showPair (c : Chip) : Chip.Mates [Ump.comparing, Twin.lsideBad] [] c c.showPair :=
  (Chip.Mates.refl c).showPair (by simp) (by simp)

/-- What a device shows of a state that it has entered. -/
theorem Chip.setPair_shows (c : Chip) (st cause : Nat) : (c.setPair st cause).rd Twin.state = st % 8 ∧
    (c.setPair st cause).rd Twin.active = b2n (activeRole st) ∧
    (activeRole c.pairState ≠ activeRole st → bit ((c.setPair st cause).stickyWord twinPage) 0 = true ∧
      (cause ≠ 0 → (c.setPair st cause).rd Twin.lastCause = cause % 16 ∧
        (c.setPair st cause).rd Twin.lastDir = b2n (activeRole c.pairState))) := by
  have whole := (c.entersState st cause).mates_showPair
  rw [← Chip.setPair_eq] at whole
  have bool (p : Bool) : b2n p % 2 ^ 1 = b2n p := by cases p <;> rfl
  have state : (c.entersState st cause).rd Twin.state = st % 8 ∧ (c.entersState st cause).rd Twin.active = b2n (activeRole st) := by
    have begun : ((c.wr Twin.state st).wr Twin.active (b2n (activeRole st))).rd Twin.state = st % 8 ∧
        ((c.wr Twin.state st).wr Twin.active (b2n (activeRole st))).rd Twin.active = b2n (activeRole st) :=
      ⟨(Chip.rd_wr_ne _ _ (by decide)).trans (c.rd_wr_self _ _), (Chip.rd_wr_self _ _ _).trans (bool _)⟩
    unfold Chip.entersState
    dsimp only
    generalize (c.wr Twin.state st).wr Twin.active (b2n (activeRole st)) = d at begun ⊢
    have counted : ((d.inc Twin.switches).stick twinPage 0).rd Twin.state = st % 8 ∧
        ((d.inc Twin.switches).stick twinPage 0).rd Twin.active = b2n (activeRole st) :=
      ⟨(d.rd_wr_ne _ (by decide)).trans begun.1, (d.rd_wr_ne _ (by decide)).trans begun.2⟩
    generalize (d.inc Twin.switches).stick twinPage 0 = e at counted ⊢
    split
    · exact begun
    · split
      · exact counted
      · exact ⟨(Chip.rd_wr_ne _ _ (by decide)).trans ((e.rd_wr_ne _ (by decide)).trans counted.1),
          (Chip.rd_wr_ne _ _ (by decide)).trans ((e.rd_wr_ne _ (by decide)).trans counted.2)⟩
  refine ⟨(whole.rd _ (by decide) (by decide) (by decide)).trans state.1, (whole.rd _ (by decide) (by decide) (by decide)).trans state.2,
    fun changes => ⟨whole.set _ _ ?_, fun named => ?_⟩⟩
  · unfold Chip.entersState
    dsimp only
    rw [if_neg changes]
    split
    · exact Chip.bit_stick _ _ _
    · exact Chip.bit_stick (Chip.inc _ _) _ _
  · rw [whole.rd _ (by decide) (by decide) (by decide), whole.rd _ (by decide) (by decide) (by decide)]
    unfold Chip.entersState
    dsimp only
    rw [if_neg changes, if_neg named]
    exact ⟨(Chip.rd_wr_ne _ _ (by decide)).trans (Chip.rd_wr_self _ _ _), (Chip.rd_wr_self _ _ _).trans (bool _)⟩

end Sys2Proof.Machine
end

section
/-! SUPPORT. The pair's states (R375, R376, R389 to R391), which O39 states. -/

namespace Sys2Proof.Machine

theorem exec_healthCell (h : BitVec 2) (st : BitVec 3) (part : Bool) (lside : BitVec 6) (bad : Bool) (sel : BitVec 4) (s : State) :
    exec (.healthCell h st part lside bad sel) s = execHealthCell h st part lside bad sel s := rfl
theorem exec_mateLost (s : State) : exec .mateLost s = execMateLost s := rfl
theorem exec_pairWaitExpire (s : State) : exec .pairWaitExpire s = execPairWaitExpire s := rfl
theorem exec_arbitration (s : State) : exec .arbitration s = execArbitration s := rfl
theorem exec_yieldDecision (s : State) : exec .yieldDecision s = execYieldDecision s := rfl
theorem exec_yieldCell (cause : BitVec 32) (last : BitVec 16) (s : State) : exec (.yieldCell cause last) s = execYieldCell cause last s := rfl
theorem exec_takeCell (s : State) : exec .takeCell s = execTakeCell s := rfl
theorem exec_takeTimeout (s : State) : exec .takeTimeout s = execTakeTimeout s := rfl

/-! ## Pages of the pair -/

/-- The registers of the pair's two pages. -/
def pairFields : List Fld := Twin.fields ++ Ump.fields

theorem pairFields_pages : ∀ g ∈ pairFields, g.ok = true ∧ g.page ∈ pairPages := by decide

theorem roleFields_pair : roleFields ⊆ pairFields := by decide

/-- What is written on the pair's pages alone keeps the command within them. -/
theorem Chip.Leaves.paired {s : State} {d : Chip} (h : Chip.Leaves pairFields pairPages s.c.start d) :
    Within pairPages s { s with c := d.settle } := h.within pairFields_pages (List.Subset.refl _)

/-- A state's number at the end of a command. -/
theorem Chip.pairState_settle {c d : Chip} {n : Nat} (paired : c.paired = true) (straps : d.straps = c.straps) (state : d.rd Twin.state = n) :
    d.settle.pairState = n := by
  have same : d.settle.paired = true := by
    rw [Chip.paired, (settled d).straps, straps]
    exact paired
  exact (Chip.pairState_of_paired same).trans ((d.rd_settle (by decide) (by decide)).trans state)

theorem Chip.pairState_congr {c d : Chip} (straps : d.straps = c.straps) (state : d.rd Twin.state = c.rd Twin.state) :
    d.pairState = c.pairState := by
  rw [Chip.pairState, Chip.pairState, Chip.paired, straps, state, Chip.paired]

section
variable {gs : List Fld} {ps : List Nat} {a b c : Chip}

theorem Chip.Mates.straps (h : Chip.Mates gs ps a b) : b.straps = a.straps := by
  obtain ⟨_, _, _, _, _, _, _, _, _, _, _, rfl⟩ := h.frame
  rfl

theorem Chip.Mates.yieldDue (h : Chip.Mates gs ps a b) : b.yieldDue = a.yieldDue := by
  obtain ⟨_, _, _, _, _, _, _, _, _, _, _, rfl⟩ := h.frame
  rfl

theorem Chip.Mates.mirrorSeq (h : Chip.Mates gs ps a b) : b.mirrorSeq = a.mirrorSeq := by
  obtain ⟨_, _, _, _, _, _, _, _, _, _, _, rfl⟩ := h.frame
  rfl

theorem Chip.Mates.pairState (h : Chip.Mates gs ps a b) (hg : ∀ g ∈ gs, Twin.state.key ≠ g.key) : b.pairState = a.pairState :=
  Chip.pairState_congr h.straps (h.rd _ (by decide) (by decide) hg)

/-! ## Steps between states -/

theorem Chip.mates_mirrorDrop (c : Chip) : Chip.Mates [] [twinPage] { c with mirrorWait := [] } c.mirrorDrop := by
  have answered := (Chip.Mates.refl (gs := []) (ps := [twinPage]) { c with mirrorWait := [] }).answerWaits c.mirrorWait
  exact .ite (fun _ => answered.stick (.inl (by simp)) 10) fun _ => answered

theorem Chip.leaves_mirrorDrop (c : Chip) : Chip.Leaves [] [twinPage] c c.mirrorDrop :=
  (Chip.Leaves.keep (.refl c) (c := { c with mirrorWait := [] }) rfl rfl).trans c.mates_mirrorDrop.toLeaves

theorem Chip.mates_mirrorAlone (c : Chip) : ∃ q w, Chip.Mates [] [] { c with mirrorQ := q, mirrorWait := w } c.mirrorAlone := by
  unfold Chip.mirrorAlone
  split
  · exact ⟨c.mirrorQ, c.mirrorWait, .refl c⟩
  · exact ⟨_, _, (Chip.Mates.refl _).answerWaits _⟩

/-- What a device shows once it has entered `STBY_SYNC`. -/
theorem Chip.enterSync_shows (c : Chip) (cause : Nat) : (c.enterSync cause).rd Twin.state = 5 ∧ (c.enterSync cause).rd Twin.resyncPhase = 1 ∧
    (c.enterSync cause).mirrorQ = [] ∧ (c.enterSync cause).replay = [] ∧ (c.enterSync cause).straps = c.straps ∧
    (activeRole c.pairState = true → cause ≠ 0 → (c.enterSync cause).rd Twin.lastCause = cause % 16) ∧
    Chip.Leaves pairFields pairPages c (c.enterSync cause) ∧
    (∀ p b, bit (c.stickyWord p) b = true → bit ((c.enterSync cause).stickyWord p) b = true) := by
  have dropped := c.mates_mirrorDrop
  have left := c.leaves_mirrorDrop
  unfold Chip.enterSync
  generalize c.mirrorDrop = d at dropped left ⊢
  let e := Chip.updTwin { d with mirrorQ := [], replay := [], yieldDue := 0 } (fun t =>
    { t with rxAny := true, tail := none, due := [], counters := [], imgNext := [], imgBase := [], imgLeft := 0 })
  let f := (e.wr Twin.queued 0).wr Twin.resyncPhase 1
  have straps : f.straps = c.straps := dropped.straps
  have phase : f.rd Twin.resyncPhase = 1 := Chip.rd_wr_self _ _ _
  have still : f.rd Twin.state = d.rd Twin.state := (Chip.rd_wr_ne _ _ (by decide)).trans (e.rd_wr_ne _ (by decide))
  have role : f.pairState = c.pairState := Chip.pairState_congr straps (still.trans (dropped.rd _ (by decide) (by decide) (by simp)))
  have leaves : Chip.Leaves pairFields pairPages c f :=
    (((left.widen (List.nil_subset _) (by decide)).keep (c := e) rfl rfl).wr (f := Twin.queued) (by decide) 0).wr (f := Twin.resyncPhase) (by decide) 1
  have set : ∀ p b, bit (c.stickyWord p) b = true → bit (f.stickyWord p) b = true := dropped.set
  have queue : f.mirrorQ = [] := rfl
  have replay : f.replay = [] := rfl
  change (f.setPair 5 cause).rd _ = _ ∧ (f.setPair 5 cause).rd _ = _ ∧ (f.setPair 5 cause).mirrorQ = _ ∧ (f.setPair 5 cause).replay = _ ∧
    (f.setPair 5 cause).straps = _ ∧ (_ → _ → (f.setPair 5 cause).rd _ = _) ∧ Chip.Leaves _ _ _ (f.setPair 5 cause) ∧
    ∀ p b, _ → bit ((f.setPair 5 cause).stickyWord p) b = true
  clear_value f
  obtain ⟨state, -, changes⟩ := f.setPair_shows 5 cause
  have whole := (Chip.Mates.refl f (gs := roleFields) (ps := [twinPage])).setPair (List.Subset.refl _) (by simp) 5 cause
  refine ⟨state, (whole.rd _ (by decide) (by decide) (by decide)).trans phase, ?_, ?_, whole.straps.trans straps, fun active named => ?_,
    leaves.trans (whole.toLeaves.widen roleFields_pair (by decide)), fun p b hb => whole.set p b (set p b hb)⟩
  · obtain ⟨_, _, _, _, _, _, _, _, _, _, _, e⟩ := whole.frame
    rw [e]
    exact queue
  · obtain ⟨_, _, _, _, _, _, _, _, _, _, _, e⟩ := whole.frame
    rw [e]
    exact replay
  · exact ((changes (by rw [role, active]; decide)).2 named).1

/-- What a device shows once it has become `ALONE` from `START`. -/
theorem Chip.startAlone_shows (c : Chip) : c.startAlone.rd Twin.state = 2 ∧ c.startAlone.rd Twin.active = 1 ∧ c.startAlone.straps = c.straps ∧
    Chip.Leaves pairFields pairPages c c.startAlone := by
  obtain ⟨state, active, -⟩ := c.setPair_shows 2 0
  have whole := (Chip.Mates.refl c (gs := pairFields) (ps := pairPages)).setPair roleFields_pair (by decide) 2 0
  unfold Chip.startAlone
  extract_lets d
  change d.rd Twin.state = _ at state
  change d.rd Twin.active = _ at active
  change Chip.Mates _ _ _ d at whole
  clear_value d
  split
  · exact ⟨(d.rd_wr_ne _ (by decide)).trans state, (d.rd_wr_ne _ (by decide)).trans active, whole.straps, whole.toLeaves.wr (by decide) 1⟩
  · exact ⟨state, active, whole.straps, whole.toLeaves⟩

/-- What a device shows once it has taken over. -/
theorem Chip.takeOver_shows (c : Chip) (st cause : Nat) : (c.takeOver st cause).rd Twin.state = st % 8 ∧
    (c.takeOver st cause).rd Twin.active = b2n (activeRole st) ∧ (c.takeOver st cause).straps = c.straps ∧
    (activeRole c.pairState ≠ activeRole st → bit ((c.takeOver st cause).stickyWord twinPage) 0 = true ∧
      (cause ≠ 0 → (c.takeOver st cause).rd Twin.lastCause = cause % 16)) ∧
    Chip.Leaves pairFields pairPages c (c.takeOver st cause) ∧ (c.takeOver st cause).rd Twin.matePresent = c.rd Twin.matePresent ∧
    (∀ p b, bit (c.stickyWord p) b = true → bit ((c.takeOver st cause).stickyWord p) b = true) := by
  obtain ⟨state, active, changes⟩ := c.setPair_shows st cause
  have begun := ((Chip.Mates.refl c (gs := roleFields) (ps := [twinPage])).setPair (List.Subset.refl _) (by simp) st cause)
  unfold Chip.takeOver
  generalize c.setPair st cause = d at *
  dsimp only
  have told := (Chip.Mates.refl d (gs := [Ump.dispute]) (ps := [umpPage])).raise (src := 0xC5) rfl twinPage 0 cause
  generalize d.raise 0xC5 twinPage 0 cause = e at *
  let x := { e with mirrorSeq := e.twin.rxSeq }.updXpt fun x => { x with own := [] }
  have goes : Chip.Mates [Ump.dispute] [umpPage] x x.endDispute := (Chip.Mates.refl x).endDispute (by simp) (by simp)
  have leaves : Chip.Leaves [Ump.dispute] [umpPage] d x.endDispute := (told.toLeaves.keep (c := x) rfl rfl).trans goes.toLeaves
  have set : ∀ p b, bit (d.stickyWord p) b = true → bit (x.endDispute.stickyWord p) b = true :=
    fun p b hb => goes.set p b (told.set p b hb)
  have straps : x.endDispute.straps = c.straps := goes.straps.trans (told.straps.trans begun.straps)
  change x.endDispute.rd _ = _ ∧ x.endDispute.rd _ = _ ∧ x.endDispute.straps = _ ∧ (_ → bit (x.endDispute.stickyWord _) _ = _ ∧
    (_ → x.endDispute.rd _ = _)) ∧ Chip.Leaves _ _ _ x.endDispute ∧ x.endDispute.rd _ = _ ∧ ∀ p b, _ → bit (x.endDispute.stickyWord p) b = true
  generalize x.endDispute = g at *
  have same {f : Fld} (h : (f.ok && !reacts f.page && decide (f.key ≠ Ump.dispute.key)) = true) : g.rd f = d.rd f := by
    simp only [Bool.and_eq_true, Bool.not_eq_true', decide_eq_true_eq] at h
    obtain ⟨⟨ok, still⟩, apart⟩ := h
    exact leaves.rd f ok still fun x hx => by rwa [List.mem_singleton.mp hx]
  refine ⟨(same (by decide)).trans state, (same (by decide)).trans active, straps, fun changed => ⟨set _ _ (changes changed).1, fun named => ?_⟩,
    (begun.toLeaves.widen roleFields_pair (by decide)).trans (leaves.widen (by decide) (by decide)), (same (by decide)).trans ?_,
    fun p b hb => set p b (begun.set p b hb)⟩
  · exact (same (by decide)).trans ((changes changed).2 named).1
  · exact begun.rd _ (by decide) (by decide) (by decide)

/-! ## What the mate tells (R339, R395) -/

/-- What the mate's grade shows. -/
def gradeFields : List Fld := [Twin.mateHealth, Twin.matePresent, Twin.mateGood]

/-- The mate's grade: beside its fields, the sticky bits of the page and the count of good cells, a report alone. -/
theorem Chip.mateGrade_frame (c : Chip) (h : Nat) : ∃ (W : Store Nat) (R : List Report) (n : Nat) (F : Store Nat),
    c.mateGrade h = { c with flds := F, sticky := W, reports := R, twin := { c.twin with goodRun := n } } ∧
    (∃ d : Chip, d.flds = ((c.wr Twin.mateHealth h).wr Twin.matePresent 1).flds ∧ (F = d.flds ∨ ∃ v, F = (d.wr Twin.mateGood v).flds)) ∧
    ∀ p, p ≠ twinPage → Chip.stickyWord { c with sticky := W } p = c.stickyWord p := by
  let d := (c.wr Twin.mateHealth h).wr Twin.matePresent 1
  have marked : ∃ W, (if h = 2 then d.stick twinPage 4 else d) = { d with sticky := W } ∧
      ∀ p, p ≠ twinPage → Chip.stickyWord { c with sticky := W } p = c.stickyWord p := by
    split
    · exact ⟨_, rfl, fun p hp => c.stick_other _ 4 hp⟩
    · exact ⟨_, rfl, fun p _ => rfl⟩
  obtain ⟨W, marked, others⟩ := marked
  have told : ∃ R, (if h = 2 ∧ c.rd Twin.mateHealth ≠ 2 then Chip.raise { d with sticky := W } 0xC7 twinPage 0 0 else { d with sticky := W }) =
      { d with sticky := W, reports := R } := by
    split <;> exact ⟨_, rfl⟩
  obtain ⟨R, told⟩ := told
  unfold Chip.mateGrade
  change ∃ W R n F, (let e := if h = 2 then d.stick twinPage 4 else d
    let e := if h = 2 ∧ c.rd Twin.mateHealth ≠ 2 then e.raise 0xC7 twinPage 0 0 else e
    if h ≠ 0 then (e.wr Twin.mateGood 0).updTwin (fun t => { t with goodRun := 0 })
    else if e.twin.goodRun < 99 then e.updTwin (fun t => { t with goodRun := t.goodRun + 1 })
    else (e.inc Twin.mateGood).updTwin (fun t => { t with goodRun := 0 })) = _ ∧ _
  simp only [marked, told]
  split
  · exact ⟨W, R, 0, _, rfl, ⟨d, rfl, .inr ⟨0, rfl⟩⟩, others⟩
  · split
    · exact ⟨W, R, _, _, rfl, ⟨d, rfl, .inl rfl⟩, others⟩
    · exact ⟨W, R, 0, _, rfl, ⟨d, rfl, .inr ⟨_, rfl⟩⟩, others⟩

theorem Chip.mateGrade_shows (c : Chip) (h : Nat) : (c.mateGrade h).rd Twin.mateHealth = h % 4 ∧ (c.mateGrade h).rd Twin.matePresent = 1 ∧
    (∀ f : Fld, (∀ g ∈ gradeFields, f.key ≠ g.key) → (c.mateGrade h).rd f = c.rd f) ∧
    (∀ p, p ≠ twinPage → (c.mateGrade h).stickyWord p = c.stickyWord p) ∧ (c.mateGrade h).straps = c.straps ∧
    ∃ n, (c.mateGrade h).twin = { c.twin with goodRun := n } := by
  obtain ⟨W, R, n, F, e, ⟨d, hd, hF⟩, others⟩ := c.mateGrade_frame h
  have shown (f : Fld) (hf : f.key ≠ Twin.mateGood.key) : (c.mateGrade h).rd f = ((c.wr Twin.mateHealth h).wr Twin.matePresent 1).rd f := by
    have same : d.rd f = ((c.wr Twin.mateHealth h).wr Twin.matePresent 1).rd f := by rw [Chip.rd, hd, Chip.rd]
    rw [e, ← same]
    rcases hF with hF | ⟨v, hF⟩
    · exact congrArg (getFld · f) hF
    · exact (congrArg (getFld · f) hF).trans (d.rd_wr_ne v hf)
  refine ⟨(shown _ (by decide)).trans ((Chip.rd_wr_ne _ _ (by decide)).trans (c.rd_wr_self _ _)),
    (shown _ (by decide)).trans (Chip.rd_wr_self _ _ _), fun f hf => ?_, fun p hp => ?_, ?_, n, ?_⟩
  · exact (shown f (hf _ (by simp [gradeFields]))).trans ((Chip.rd_wr_ne _ _ (hf _ (by simp [gradeFields]))).trans
      (c.rd_wr_ne _ (hf _ (by simp [gradeFields]))))
  · rw [e]
    exact others p hp
  · rw [e]
  · rw [e]

/-- Whether the pair ends up on different candidates (R339). -/
def Chip.selsDiffer (c : Chip) (sel : Nat) : Bool := decide (c.rd MerSel.sel ≠ sel ∧ c.rd MerSel.sel ≤ 8 ∧ sel ≤ 8)

theorem Chip.mateCandidate_shows (c : Chip) (sel : Nat) : (c.mateCandidate sel).flds = c.flds ∧ (c.mateCandidate sel).straps = c.straps ∧
    (c.mateCandidate sel).twin = { c.twin with refDiff := c.selsDiffer sel } ∧
    (c.selsDiffer sel = true → bit ((c.mateCandidate sel).stickyWord merSelPage) 8 = true) ∧
    Chip.Leaves [] [] c (c.mateCandidate sel) := by
  have whole : c.mateCandidate sel = ((if (c.selsDiffer sel && !(if c.selsDiffer sel then c.stick merSelPage 8 else c).twin.refDiff) = true then
      (if c.selsDiffer sel then c.stick merSelPage 8 else c).raise 0xAD merSelPage (c.rd MerSel.sel) 0
      else if c.selsDiffer sel then c.stick merSelPage 8 else c)).updTwin (fun t => { t with refDiff := c.selsDiffer sel }) := rfl
  rw [whole]
  cases c.selsDiffer sel with
  | false => exact ⟨rfl, rfl, rfl, fun h => absurd h (by decide), .updTwin (.refl c) _⟩
  | true =>
    have marked : Chip.Leaves [] [] c (c.stick merSelPage 8) := (Chip.Leaves.refl c).stick (.inr rfl) 8
    simp only [if_true, Bool.true_and]
    split
    · exact ⟨rfl, rfl, rfl, fun _ => Chip.bit_stick c merSelPage 8, (marked.raise _ _ _ _).updTwin _⟩
    · exact ⟨rfl, rfl, rfl, fun _ => Chip.bit_stick c merSelPage 8, marked.updTwin _⟩

/-- What a HEALTH cell of a mate whose straps fit tells, before the device's own state moves. -/
def Chip.hears (c : Chip) (h st : Nat) (part : Bool) (lside sel : Nat) : Chip :=
  ((c.mateGrade h).updTwin (fun t => { t with mateState := st, matePartial := part, mateLside := lside, cfgBad := false })).mateCandidate sel

theorem Chip.healthCell_eq (c : Chip) (h st : Nat) (part : Bool) (lside sel : Nat) :
    c.healthCell h st part lside false (some sel) = (c.hears h st part lside sel).mateMoves c.twin.mateState st := rfl

theorem Chip.hears_shows (c : Chip) (h st : Nat) (part : Bool) (lside sel : Nat) :
    (c.hears h st part lside sel).rd Twin.mateHealth = h % 4 ∧ (c.hears h st part lside sel).rd Twin.matePresent = 1 ∧
    (c.hears h st part lside sel).pairState = c.pairState ∧ (c.hears h st part lside sel).straps = c.straps ∧
    (∃ n, (c.hears h st part lside sel).twin =
      { c.twin with goodRun := n, mateState := st, matePartial := part, mateLside := lside, cfgBad := false, refDiff := c.selsDiffer sel }) ∧
    (c.selsDiffer sel = true → bit ((c.hears h st part lside sel).stickyWord merSelPage) 8 = true) ∧
    Chip.Leaves gradeFields [twinPage] c (c.hears h st part lside sel) := by
  obtain ⟨grade, present, rest, others, straps, n, twin⟩ := c.mateGrade_shows h
  unfold Chip.hears
  generalize c.mateGrade h = d at *
  have graded : Chip.Leaves gradeFields [twinPage] c d := ⟨fun f _ _ hf => rest f hf, fun p _ hp => others p (by simpa using hp)⟩
  let e := d.updTwin (fun t => { t with mateState := st, matePartial := part, mateLside := lside, cfgBad := false })
  have kept : Chip.Leaves gradeFields [twinPage] d e := (Chip.Leaves.refl d).updTwin _
  have fits : e.twin = { c.twin with goodRun := n, mateState := st, matePartial := part, mateLside := lside, cfgBad := false } :=
    congrArg (fun t : TwinX => { t with mateState := st, matePartial := part, mateLside := lside, cfgBad := false }) twin
  have same : e.selsDiffer sel = c.selsDiffer sel := by
    have read : e.rd MerSel.sel = c.rd MerSel.sel := rest _ (by decide)
    rw [Chip.selsDiffer, Chip.selsDiffer, read]
  have read (f : Fld) : e.rd f = d.rd f := rfl
  have strap : e.straps = c.straps := straps
  change (e.mateCandidate sel).rd _ = _ ∧ (e.mateCandidate sel).rd _ = _ ∧ (e.mateCandidate sel).pairState = _ ∧
    (e.mateCandidate sel).straps = _ ∧ (∃ n, (e.mateCandidate sel).twin = _) ∧ (_ → bit ((e.mateCandidate sel).stickyWord _) _ = _) ∧
    Chip.Leaves _ _ _ (e.mateCandidate sel)
  clear_value e
  obtain ⟨flds, straps', twin', marked, leaves⟩ := e.mateCandidate_shows sel
  rw [same] at twin' marked
  have shown (f : Fld) : (e.mateCandidate sel).rd f = d.rd f := by rw [Chip.rd, flds, ← read f, Chip.rd]
  exact ⟨(shown _).trans grade, (shown _).trans present,
    Chip.pairState_congr (straps'.trans strap) ((shown _).trans (rest _ (by decide))), straps'.trans strap, ⟨n, by rw [twin', fits]⟩, marked,
    (graded.trans kept).trans (leaves.widen (List.nil_subset _) (List.nil_subset _))⟩

end

/-! ## The clauses of O39 -/

section
variable {s : State}

theorem healthCell_standby {h : BitVec 2} {st : BitVec 3} {part : Bool} {lside : BitVec 6} {sel : BitVec 4} (hs : s.Runs)
    (hp : s.c.paired = true) (up : s.c.grpState 32 = 6) (standby : s.c.pairState = 6) {P : State → Prop}
    (hP : P { s with c := (s.c.start.hears h.toNat st.toNat part lside.toNat sel.toNat).settle }) :
    Gives (.healthCell h st part lside false sel) s P := by
  obtain ⟨-, -, state, -⟩ := s.c.start.hears_shows h.toNat st.toNat part lside.toNat sel.toNat
  refine gives_of_cell hs hp up (exec_healthCell h st part lside false sel s) ((Chip.healthCell_eq _ _ _ _ _ _).trans ?_) hP
  have six : (s.c.start.hears h.toNat st.toNat part lside.toNat sel.toNat).pairState = 6 := state.trans standby
  unfold Chip.mateMoves
  simp only [six]
  rfl

theorem healthCell_agrees {h : BitVec 2} {st : BitVec 3} {part : Bool} {lside : BitVec 6} {sel : BitVec 4} (hs : s.Runs)
    (hp : s.c.paired = true) (up : s.c.grpState 32 = 6) (standby : s.c.pairState = 6) :
    Gives (.healthCell h st part lside false sel) s (fun t =>
      t.c.rd Twin.mateHealth = h.toNat ∧ t.c.rd Twin.matePresent = 1 ∧ t.c.twin.mateState = st.toNat ∧
      t.c.twin.matePartial = part ∧ t.c.twin.mateLside = lside.toNat ∧ t.c.pairState = 6 ∧
      Confined [Twin.mateHealth, Twin.matePresent, Twin.mateGood] [twinPage] s t) := by
  obtain ⟨grade, present, state, straps, ⟨n, twin⟩, -, leaves⟩ := s.c.start.hears_shows h.toNat st.toNat part lside.toNat sel.toNat
  refine healthCell_standby hs hp up standby ?_
  generalize s.c.start.hears h.toNat st.toNat part lside.toNat sel.toNat = d at *
  have own : d.paired = true := by
    rw [Chip.paired, straps]
    exact hp
  have six : d.rd Twin.state = 6 := Chip.rd_state_of_pairState (state.trans standby) (by decide)
  refine ⟨(d.rd_settle (by decide) (by decide)).trans (grade.trans (Nat.mod_eq_of_lt h.isLt)),
    (d.rd_settle (by decide) (by decide)).trans present, (congrArg TwinX.mateState d.twin_settle).trans ?_,
    (congrArg TwinX.matePartial d.twin_settle).trans ?_, (congrArg TwinX.mateLside d.twin_settle).trans ?_,
    Chip.pairState_settle hp straps six, leaves.confined⟩
  all_goals rw [twin]

theorem healthCell_differs {h : BitVec 2} {st : BitVec 3} {part : Bool} {lside : BitVec 6} {sel : BitVec 4} (hs : s.Runs)
    (hp : s.c.paired = true) (up : s.c.grpState 32 = 6) (standby : s.c.pairState = 6) (candidate : sel.toNat ≤ 8)
    (own : s.c.rd MerSel.sel ≤ 8) (differ : sel.toNat ≠ s.c.rd MerSel.sel) :
    Gives (.healthCell h st part lside false sel) s (fun t =>
      t.c.twin.refDiff = true ∧ bit (t.c.stickyWord merSelPage) 8 = true ∧ Within pairPages s t) := by
  obtain ⟨-, -, -, -, ⟨n, twin⟩, marked, leaves⟩ := s.c.start.hears_shows h.toNat st.toNat part lside.toNat sel.toNat
  have diff : s.c.start.selsDiffer sel.toNat = true := decide_eq_true ⟨Ne.symm differ, own, candidate⟩
  rw [diff] at twin marked
  refine healthCell_standby hs hp up standby ?_
  generalize s.c.start.hears h.toNat st.toNat part lside.toNat sel.toNat = d at *
  refine ⟨(congrArg TwinX.refDiff d.twin_settle).trans ?_, Chip.bit_stickyWord_settle (marked rfl),
    (leaves.widen (by decide) (by decide)).paired⟩
  rw [twin]

theorem healthCell_begins {st : BitVec 3} {part : Bool} {lside : BitVec 6} {sel : BitVec 4} (hs : s.Runs) (hp : s.c.paired = true)
    (up : s.c.grpState 32 = 6) (starts : s.c.pairState = 1) (low : 2 ≤ st.toNat) (high : st.toNat ≤ 4) :
    Gives (.healthCell 0 st part lside false sel) s (fun t =>
      t.c.pairState = 5 ∧ t.c.rd Twin.resyncPhase = 1 ∧ t.c.mirrorQ = [] ∧ t.c.replay = [] ∧ Within pairPages s t) := by
  obtain ⟨-, -, state, straps, -, -, leaves⟩ := s.c.start.hears_shows 0 st.toNat part lside.toNat sel.toNat
  have body := s.c.start.healthCell_eq 0 st.toNat part lside.toNat sel.toNat
  generalize s.c.start.hears 0 st.toNat part lside.toNat sel.toNat = b at *
  have one : b.pairState = 1 := state.trans starts
  have moves : b.mateMoves s.c.start.twin.mateState st.toNat = b.enterSync 0 := by
    unfold Chip.mateMoves
    simp only [one, low, high, and_self, if_true]
  obtain ⟨five, phase, queue, replay, straps', -, synced, -⟩ := b.enterSync_shows 0
  have whole := (leaves.widen (hs := pairFields) (qs := pairPages) (by decide) (by decide)).trans synced
  rw [moves] at body
  generalize b.enterSync 0 = d at *
  exact gives_of_cell hs hp up (exec_healthCell 0 st part lside false sel s) body
    ⟨Chip.pairState_settle hp (straps'.trans straps) five, (d.rd_settle (by decide) (by decide)).trans phase, (settled d).mirrorQ.trans queue,
      (settled d).replay.trans replay, whole.paired⟩

/-- What a device shows that has lost its mate, before its own state moves. -/
def Chip.losesMate (c : Chip) : Chip :=
  let c := (((c.wr Twin.matePresent 0).wr Twin.mateHealth 3).wr Twin.mateGood 0).updTwin (fun t => { t with goodRun := 0, mateState := 1 })
  (c.raise 0xC6 twinPage 0 0).stick twinPage 3

theorem Chip.losesMate_shows (c : Chip) : c.losesMate.rd Twin.matePresent = 0 ∧ c.losesMate.rd Twin.mateHealth = 3 ∧
    bit (c.losesMate.stickyWord twinPage) 3 = true ∧ c.losesMate.pairState = c.pairState ∧ c.losesMate.straps = c.straps ∧
    c.losesMate.rd Twin.lossTake = c.rd Twin.lossTake ∧ Chip.Leaves gradeFields [twinPage] c c.losesMate := by
  let b := ((c.wr Twin.matePresent 0).wr Twin.mateHealth 3).wr Twin.mateGood 0
  have lost : b.rd Twin.matePresent = 0 :=
    (Chip.rd_wr_ne _ _ (by decide)).trans ((Chip.rd_wr_ne _ _ (by decide)).trans (c.rd_wr_self _ _))
  have unknown : b.rd Twin.mateHealth = 3 := (Chip.rd_wr_ne _ _ (by decide)).trans (Chip.rd_wr_self _ _ _)
  have present : c.losesMate.rd Twin.matePresent = 0 := lost
  have grade : c.losesMate.rd Twin.mateHealth = 3 := unknown
  have marked : bit (c.losesMate.stickyWord twinPage) 3 = true := Chip.bit_stick _ _ _
  have straps : c.losesMate.straps = c.straps := rfl
  have leaves : Chip.Leaves gradeFields [twinPage] c c.losesMate :=
    ((((((Chip.Leaves.refl c).wr (f := Twin.matePresent) (by decide) 0).wr (f := Twin.mateHealth) (by decide) 3).wr (f := Twin.mateGood)
      (by decide) 0).updTwin fun t => { t with goodRun := 0, mateState := 1 }).raise _ _ _ _).stick (.inl (by simp)) 3
  generalize c.losesMate = d at *
  exact ⟨present, grade, marked, Chip.pairState_congr straps (leaves.rd _ (by decide) (by decide) (by decide)), straps,
    leaves.rd _ (by decide) (by decide) (by decide), leaves⟩

theorem mateLost_active (hs : s.Runs) (had : s.c.mateLost = false) (active : s.c.pairState = 3) : Gives .mateLost s (fun t =>
      t.c.pairState = 2 ∧ t.c.rd Twin.mateHealth = 3 ∧ t.c.mateLost = true ∧ bit (t.c.stickyWord twinPage) 3 = true ∧
      Within pairPages s t) := by
  have hp : s.c.paired = true := Chip.paired_of_pairState (by rw [active]; decide)
  have three : s.c.start.pairState = 3 := active
  have had' : s.c.start.mateLost = false := had
  obtain ⟨present, grade, marked, -, straps, -, leaves⟩ := s.c.start.losesMate_shows
  let a := (s.c.start.losesMate.wr Twin.resyncPhase 0).wr Twin.resyncGo 0
  let b := { a with yieldDue := 0 }
  have body : (if s.c.start.mateLost then s.c.start else
      match s.c.start.pairState with
      | 2 | 3 => b.mirrorAlone.setPair 2 0
      | 5 => ((s.c.start.losesMate.wr Twin.resyncPhase 0).updTwin (fun t => { t with broken := true })).setPair 1 0
      | 6 => if s.c.start.losesMate.on Twin.lossTake then s.c.start.losesMate.takeOver 2 6 else s.c.start.losesMate
      | _ => s.c.start.losesMate) = b.mirrorAlone.setPair 2 0 := by
    simp only [had', three]
    rfl
  have cleared : Chip.Leaves pairFields pairPages s.c.start a :=
    ((leaves.widen (hs := pairFields) (qs := pairPages) (by decide) (by decide)).wr (f := Twin.resyncPhase) (by decide) 0).wr
      (f := Twin.resyncGo) (by decide) 0
  have alone : Chip.Leaves pairFields pairPages s.c.start b := cleared.keep rfl rfl
  have absent : a.rd Twin.matePresent = 0 := (Chip.rd_wr_ne _ _ (by decide)).trans ((Chip.rd_wr_ne _ _ (by decide)).trans present)
  have unknown : a.rd Twin.mateHealth = 3 := (Chip.rd_wr_ne _ _ (by decide)).trans ((Chip.rd_wr_ne _ _ (by decide)).trans grade)
  have present' : b.rd Twin.matePresent = 0 := absent
  have grade' : b.rd Twin.mateHealth = 3 := unknown
  have marked' : bit (b.stickyWord twinPage) 3 = true := marked
  have straps' : b.straps = s.c.straps := straps
  obtain ⟨q, w, told⟩ := b.mates_mirrorAlone
  have moved := ((Chip.Mates.refl b.mirrorAlone (gs := roleFields) (ps := [twinPage])).setPair (List.Subset.refl _) (by simp) 2 0)
  have whole := (told.widen (List.nil_subset _) (List.nil_subset _)).trans moved
  have pair : Chip.Leaves pairFields pairPages s.c.start (b.mirrorAlone.setPair 2 0) :=
    (alone.keep (c := { b with mirrorQ := q, mirrorWait := w }) rfl rfl).trans (whole.toLeaves.widen roleFields_pair (by decide))
  obtain ⟨two, -⟩ := b.mirrorAlone.setPair_shows 2 0
  refine gives_of_pair hs hp (exec_mateLost s) body ?_
  generalize b.mirrorAlone.setPair 2 0 = d at *
  have gone : d.rd Twin.matePresent = 0 := (whole.rd _ (by decide) (by decide) (by decide)).trans present'
  refine ⟨Chip.pairState_settle hp (whole.straps.trans straps') two,
    (d.rd_settle (by decide) (by decide)).trans ((whole.rd _ (by decide) (by decide) (by decide)).trans grade'), ?_,
    Chip.bit_stickyWord_settle (whole.set _ _ marked'), pair.paired⟩
  rw [Chip.mateLost, Chip.on, d.rd_settle (by decide) (by decide), gone]
  rfl

theorem mateLost_standby (hs : s.Runs) (had : s.c.mateLost = false) (standby : s.c.pairState = 6) : Gives .mateLost s (fun t =>
      t.c.pairState = (if s.c.on Twin.lossTake then 2 else 6) ∧ t.c.mateLost = true ∧ bit (t.c.stickyWord twinPage) 3 = true ∧
      (s.c.on Twin.lossTake = true → t.c.rd Twin.lastCause = 6 ∧ bit (t.c.stickyWord twinPage) 0 = true) ∧
      Within pairPages s t) := by
  have hp : s.c.paired = true := Chip.paired_of_pairState (by rw [standby]; decide)
  have six : s.c.start.pairState = 6 := standby
  have had' : s.c.start.mateLost = false := had
  obtain ⟨present, -, marked, state, straps, takes, leaves⟩ := s.c.start.losesMate_shows
  have body : (if s.c.start.mateLost then s.c.start else
      match s.c.start.pairState with
      | 2 | 3 => ({ (s.c.start.losesMate.wr Twin.resyncPhase 0).wr Twin.resyncGo 0 with yieldDue := 0 }).mirrorAlone.setPair 2 0
      | 5 => ((s.c.start.losesMate.wr Twin.resyncPhase 0).updTwin (fun t => { t with broken := true })).setPair 1 0
      | 6 => if s.c.start.losesMate.on Twin.lossTake then s.c.start.losesMate.takeOver 2 6 else s.c.start.losesMate
      | _ => s.c.start.losesMate) =
      if s.c.on Twin.lossTake then s.c.start.losesMate.takeOver 2 6 else s.c.start.losesMate := by
    have same : s.c.start.losesMate.on Twin.lossTake = s.c.on Twin.lossTake := by
      rw [Chip.on, takes]
      rfl
    rw [← same]
    simp only [had', six]
    rfl
  refine gives_of_pair hs hp (exec_mateLost s) body ?_
  generalize s.c.start.losesMate = b at *
  have lost {d : Chip} (h : d.rd Twin.matePresent = 0) : d.settle.mateLost = true := by
    rw [Chip.mateLost, Chip.on, d.rd_settle (by decide) (by decide), h]
    rfl
  have whole : Chip.Leaves pairFields pairPages s.c.start b := leaves.widen (by decide) (by decide)
  cases s.c.on Twin.lossTake with
  | false =>
    exact ⟨Chip.pairState_settle hp straps (Chip.rd_state_of_pairState (state.trans six) (by decide)), lost present,
      Chip.bit_stickyWord_settle marked, fun h => absurd h (by decide), whole.paired⟩
  | true =>
    obtain ⟨two, -, straps', changes, taken, present', set⟩ := b.takeOver_shows 2 6
    obtain ⟨switched, cause⟩ := changes (by rw [state, six]; decide)
    exact ⟨Chip.pairState_settle hp (straps'.trans straps) two, lost (present'.trans present), Chip.bit_stickyWord_settle (set _ _ marked),
      fun _ => ⟨(Chip.rd_settle _ (by decide) (by decide)).trans (cause (by decide)), Chip.bit_stickyWord_settle switched⟩,
      (whole.trans taken).paired⟩

theorem pairWaitExpire_gives (hs : s.Runs) (starts : s.c.pairState = 1) (down : s.c.grpState 32 ≠ 6) :
    Gives .pairWaitExpire s (fun t => t.c.pairState = 2 ∧ t.c.rd Twin.active = 1 ∧ Within pairPages s t) := by
  have hp : s.c.paired = true := Chip.paired_of_pairState (by rw [starts]; decide)
  obtain ⟨two, active, straps, leaves⟩ := s.c.start.startAlone_shows
  exact gives_of_pair hs hp (exec_pairWaitExpire s) (if_pos ⟨starts, down⟩)
    ⟨Chip.pairState_settle hp straps two, (Chip.rd_settle _ (by decide) (by decide)).trans active, leaves.paired⟩

theorem arbitration_gives (hs : s.Runs) (active : s.c.pairState = 3) (both : s.c.on (Lgrp.rxActive.on 32) = true)
    (decided : s.c.lsideCount ≠ s.c.twin.mateLside) : Gives .arbitration s (fun t =>
      t.c.pairState = (if s.c.lsideCount < s.c.twin.mateLside then 5 else 3) ∧ bit (t.c.stickyWord twinPage) 6 = true ∧
      (s.c.lsideCount < s.c.twin.mateLside → t.c.rd Twin.lastCause = 7) ∧ Within pairPages s t) := by
  have hp : s.c.paired = true := Chip.paired_of_pairState (by rw [active]; decide)
  have three : s.c.start.pairState = 3 := active
  have both' : s.c.start.on (Lgrp.rxActive.on 32) = true := both
  let b := (s.c.start.raise 0xC9 twinPage 0 0).stick twinPage 6
  have body : (if !(s.c.start.pairState = 2 ∨ s.c.start.pairState = 3) ∨ !s.c.start.on (Lgrp.rxActive.on 32) then s.c.start
      else if s.c.start.lsideCount < b.twin.mateLside ∨ (s.c.start.lsideCount = b.twin.mateLside ∧ b.straps.side) then b.enterSync 7 else b) =
      if s.c.lsideCount < s.c.twin.mateLside then b.enterSync 7 else b := by
    rw [if_neg (by simp [three, both'])]
    exact if_congr (or_iff_left fun h => decided h.1) rfl rfl
  have begun := ((Chip.Mates.refl s.c.start (gs := []) (ps := [twinPage])).raise (src := 0xC9) rfl twinPage 0 0).stick
    (p := twinPage) (.inl (by simp)) 6
  have marked : bit (b.stickyWord twinPage) 6 = true := Chip.bit_stick _ _ _
  refine gives_of_pair hs hp (exec_arbitration s) body ?_
  change Chip.Mates [] [twinPage] s.c.start b at begun
  clear_value b
  have state : b.pairState = 3 := (begun.pairState (by simp)).trans three
  have leaves : Chip.Leaves pairFields pairPages s.c.start b := begun.toLeaves.widen (List.nil_subset _) (by decide)
  by_cases fewer : s.c.lsideCount < s.c.twin.mateLside
  · obtain ⟨five, -, -, -, straps, cause, synced, set⟩ := b.enterSync_shows 7
    rw [if_pos fewer, if_pos fewer]
    exact ⟨Chip.pairState_settle hp (straps.trans begun.straps) five, Chip.bit_stickyWord_settle (set _ _ marked),
      fun _ => (Chip.rd_settle _ (by decide) (by decide)).trans (cause (by rw [state]; rfl) (by decide)), (leaves.trans synced).paired⟩
  · rw [if_neg fewer, if_neg fewer]
    exact ⟨Chip.pairState_settle hp begun.straps (Chip.rd_state_of_pairState state (by decide)), Chip.bit_stickyWord_settle marked,
      fun h => absurd h fewer, leaves.paired⟩

/-- A device yields (R390): it tells the mate the cause and the last number sent. -/
def Chip.yields (c : Chip) (cause : Nat) : Chip :=
  let e := (c.setPair 4 0).mirrorDrop
  (e.raise 0xC4 twinPage 0 cause).cellOut 6 0 (e.yieldWords cause)

theorem Chip.yields_shows (c : Chip) (cause : Nat) : (c.yields cause).rd Twin.state = 4 ∧ (c.yields cause).straps = c.straps ∧
    (c.yields cause).yieldDue = c.yieldDue ∧ (c.yields cause).twin.core = c.twin.core ∧
    Out.cell 6 0 [3, cause, (c.mirrorSeq + 65535) % 65536] ∈ (c.yields cause).out ∧ Chip.Leaves pairFields pairPages c (c.yields cause) := by
  obtain ⟨four, -⟩ := c.setPair_shows 4 0
  have moved := (Chip.Mates.refl c (gs := roleFields) (ps := [twinPage])).setPair (List.Subset.refl _) (by simp) 4 0
  have dropped := (c.setPair 4 0).mates_mirrorDrop
  have left := (c.setPair 4 0).leaves_mirrorDrop
  unfold Chip.yields
  generalize c.setPair 4 0 = d at *
  generalize d.mirrorDrop = e at *
  dsimp only
  have told := ((Chip.Mates.refl e (gs := []) (ps := [])).raise (src := 0xC4) rfl twinPage 0 cause).cellOut 6 0 (e.yieldWords cause)
  have sent := (e.raise 0xC4 twinPage 0 cause).mem_cellOut 6 0 (e.yieldWords cause)
  have words : e.yieldWords cause = [3, cause, (c.mirrorSeq + 65535) % 65536] := by
    have last : e.mirrorSeq = c.mirrorSeq := dropped.mirrorSeq.trans moved.mirrorSeq
    rw [Chip.yieldWords, last]
  rw [words] at told sent ⊢
  generalize (e.raise 0xC4 twinPage 0 cause).cellOut 6 0 [3, cause, (c.mirrorSeq + 65535) % 65536] = g at *
  refine ⟨?_, told.straps.trans (dropped.straps.trans moved.straps), told.yieldDue.trans (dropped.yieldDue.trans moved.yieldDue),
    told.twin.trans (dropped.twin.trans moved.twin), sent, (moved.toLeaves.widen roleFields_pair (by decide)).trans
    ((left.widen (List.nil_subset _) (by decide)).trans (told.toLeaves.widen (List.nil_subset _) (List.nil_subset _)))⟩
  exact (told.rd _ (by decide) (by decide) (by simp)).trans ((left.rd _ (by decide) (by decide) (by simp)).trans four)

theorem yieldDecision_gives (hs : s.Runs) (active : s.c.pairState = 3) (due : s.c.yieldDue ≠ 0) : Gives .yieldDecision s (fun t =>
      t.c.pairState = 4 ∧ t.c.yieldDue = 0 ∧ t.c.twin.yieldCause = s.c.yieldDue ∧
      Out.cell 6 0 [3, s.c.yieldDue, (s.c.mirrorSeq + 65535) % 65536] ∈ t.c.out ∧ Within pairPages s t) := by
  have hp : s.c.paired = true := Chip.paired_of_pairState (by rw [active]; decide)
  have three : Chip.pairState { s.c.start with yieldDue := 0 } = 3 := active
  let b := Chip.updTwin { s.c.start with yieldDue := 0 } (fun t => { t with yieldCause := s.c.yieldDue })
  have body : (if s.c.start.yieldDue = 0 ∨ Chip.pairState { s.c.start with yieldDue := 0 } ≠ 3 then { s.c.start with yieldDue := 0 }
      else b.yields s.c.yieldDue) = b.yields s.c.yieldDue := if_neg (not_or.mpr ⟨due, not_not.mpr three⟩)
  have begun : Chip.Leaves pairFields pairPages s.c.start b := .keep (.refl _) rfl rfl
  obtain ⟨four, straps, idle, twin, sent, leaves⟩ := b.yields_shows s.c.yieldDue
  refine gives_of_pair hs hp (exec_yieldDecision s) body ?_
  have cause : (b.yields s.c.yieldDue).twin.yieldCause = s.c.yieldDue := congrArg TwinX.yieldCause twin
  have quiet : (b.yields s.c.yieldDue).yieldDue = 0 := idle
  generalize b.yields s.c.yieldDue = d at *
  have kept := (d.reacts_settle (cs := d.reports.map fun r => r.src / 16) fun r hr => List.mem_map_of_mem hr).yieldDue
    (.inr fun h => by rw [four] at h; exact absurd h.2 (by decide))
  exact ⟨Chip.pairState_settle hp straps four, kept.trans quiet, (congrArg TwinX.yieldCause d.twin_settle).trans cause,
    Chip.mem_out_settle_any sent, (begun.trans leaves).paired⟩

theorem yieldCell_gives {cause : BitVec 32} {last : BitVec 16} (hs : s.Runs) (hp : s.c.paired = true) (up : s.c.grpState 32 = 6)
    (standby : s.c.pairState = 6) : Gives (.yieldCell cause last) s (fun t =>
      t.c.pairState = 3 ∧ t.c.rd Twin.active = 1 ∧ t.c.rd Twin.lastCause = 8 ∧ Out.cell 6 0 [4] ∈ t.c.out ∧
      t.c.mirrorSeq = (last.toNat + 1) % 65536 ∧ bit (t.c.stickyWord twinPage) 0 = true ∧ Within pairPages s t) := by
  have six : s.c.start.pairState = 6 := standby
  obtain ⟨three, active, straps, changes, leaves, -, -⟩ := s.c.start.takeOver_shows 3 8
  obtain ⟨marked, cause'⟩ := changes (by rw [six]; decide)
  let a := s.c.start.takeOver 3 8
  let b := { a with mirrorSeq := (last.toNat + 1) % 65536 }.updTwin
    (fun t => { t with tail := if s.c.start.twin.rxSeq ≠ (last.toNat + 1) % 65536 then some last.toNat else none })
  have body : s.c.start.yieldReceived last.toNat = b.cellOut 6 0 [4] := if_neg (not_not.mpr six)
  have begun : Chip.Leaves pairFields pairPages s.c.start b := leaves.keep rfl rfl
  have shown (f : Fld) : b.rd f = a.rd f := rfl
  have same : b.straps = s.c.straps := straps
  have first : b.mirrorSeq = (last.toNat + 1) % 65536 := rfl
  have sticky : b.stickyWord twinPage = a.stickyWord twinPage := rfl
  change a.rd _ = _ at three active
  change bit (a.stickyWord twinPage) 0 = true at marked
  change _ → a.rd _ = _ at cause'
  clear_value b a
  have told := (Chip.Mates.refl b (gs := []) (ps := [])).cellOut 6 0 [4]
  have sent := b.mem_cellOut 6 0 [4]
  generalize b.cellOut 6 0 [4] = d at *
  have reads {f : Fld} (hf : f.ok = true) (hr : reacts f.page = false) : d.settle.rd f = a.rd f :=
    (d.rd_settle hf hr).trans ((told.rd _ hf hr (by simp)).trans (shown f))
  exact gives_of_cell hs hp up (exec_yieldCell cause last s) body
    ⟨Chip.pairState_settle hp (told.straps.trans same) ((told.rd _ (by decide) (by decide) (by simp)).trans ((shown _).trans three)),
      (reads (by decide) (by decide)).trans active, (reads (by decide) (by decide)).trans (cause' (by decide)), Chip.mem_out_settle_any sent,
      (settled d).mirrorSeq.trans (told.mirrorSeq.trans first), Chip.bit_stickyWord_settle (told.set _ _ (by rw [sticky]; exact marked)),
      (begun.trans (told.toLeaves.widen (List.nil_subset _) (List.nil_subset _))).paired⟩

theorem takeCell_gives (hs : s.Runs) (hp : s.c.paired = true) (up : s.c.grpState 32 = 6) (yields : s.c.pairState = 4)
    (due : s.c.twin.yieldCause ≠ 0) (fits : s.c.twin.yieldCause < 16) : Gives .takeCell s (fun t =>
      t.c.pairState = 6 ∧ t.c.rd Twin.active = 0 ∧ t.c.rd Twin.lastCause = s.c.twin.yieldCause ∧ t.c.rd Twin.lastDir = 1 ∧
      t.c.twin.rxSeq = s.c.mirrorSeq ∧ Within pairPages s t) := by
  have four : s.c.start.pairState = 4 := yields
  obtain ⟨six, active, changes⟩ := s.c.start.setPair_shows 6 s.c.twin.yieldCause
  obtain ⟨cause, dir⟩ := (changes (by rw [four]; decide)).2 due
  rw [four] at dir
  have moved := (Chip.Mates.refl s.c.start (gs := roleFields) (ps := [twinPage])).setPair (List.Subset.refl _) (by simp) 6 s.c.twin.yieldCause
  let a := s.c.start.setPair 6 s.c.twin.yieldCause
  let b := a.updTwin (fun t => { t with rxSeq := s.c.start.mirrorSeq, yieldCause := 0 })
  have body : s.c.start.takeReceived = b.endDispute := if_neg (not_not.mpr four)
  have begun : Chip.Leaves pairFields pairPages s.c.start b := (moved.toLeaves.widen roleFields_pair (by decide)).keep rfl rfl
  have straps : b.straps = s.c.straps := moved.straps
  have from_ : b.twin.core.rxSeq = s.c.mirrorSeq := rfl
  have shown (f : Fld) : b.rd f = a.rd f := rfl
  change a.rd _ = _ at six active cause dir
  clear_value b a
  have ended := (Chip.Mates.refl b (gs := [Ump.dispute]) (ps := [umpPage])).endDispute (by simp) (by simp)
  generalize b.endDispute = d at *
  have reads {f : Fld} (hf : f.ok = true) (hr : reacts f.page = false) (hd : f.key ≠ Ump.dispute.key) : d.rd f = a.rd f :=
    (ended.rd _ hf hr (by simpa using hd)).trans (shown f)
  have seq : d.twin.rxSeq = s.c.mirrorSeq := (congrArg TwinX.rxSeq ended.twin).trans from_
  exact gives_of_cell hs hp up (exec_takeCell s) body
    ⟨Chip.pairState_settle hp (ended.straps.trans straps) ((reads (by decide) (by decide) (by decide)).trans six),
      (d.rd_settle (by decide) (by decide)).trans ((reads (by decide) (by decide) (by decide)).trans active),
      (d.rd_settle (by decide) (by decide)).trans ((reads (by decide) (by decide) (by decide)).trans (cause.trans (Nat.mod_eq_of_lt fits))),
      (d.rd_settle (by decide) (by decide)).trans ((reads (by decide) (by decide) (by decide)).trans dir),
      (congrArg TwinX.rxSeq d.twin_settle).trans seq, (begun.trans (ended.toLeaves.widen (by decide) (by decide))).paired⟩

theorem takeTimeout_gives (hs : s.Runs) (yields : s.c.pairState = 4) : Gives .takeTimeout s (fun t =>
      t.c.pairState = (if s.c.mateLost then 2 else 3) ∧ bit (t.c.stickyWord twinPage) 9 = true ∧ Within pairPages s t) := by
  have hp : s.c.paired = true := Chip.paired_of_pairState (by rw [yields]; decide)
  have four : s.c.start.pairState = 4 := yields
  let n := if s.c.mateLost then 2 else 3
  have small : n % 8 = n := by
    show (if s.c.mateLost then 2 else 3) % 8 = if s.c.mateLost then 2 else 3
    split <;> rfl
  have goes : (if s.c.start.mateLost then s.c.start.setPair 2 0 else s.c.start.setPair 3 0) = s.c.start.setPair n 0 :=
    (apply_ite (fun k => s.c.start.setPair k 0) (s.c.mateLost = true) 2 3).symm
  obtain ⟨state, -⟩ := s.c.start.setPair_shows n 0
  have moved := (Chip.Mates.refl s.c.start (gs := roleFields) (ps := [twinPage])).setPair (List.Subset.refl _) (by simp) n 0
  have body : (if s.c.start.pairState ≠ 4 then s.c.start
      else ((((if s.c.start.mateLost then s.c.start.setPair 2 0 else s.c.start.setPair 3 0)).updTwin
        (fun t => { t with yieldCause := 0 })).raise 0xCD twinPage 0 0).stick twinPage 9) =
      (((s.c.start.setPair n 0).updTwin (fun t => { t with yieldCause := 0 })).raise 0xCD twinPage 0 0).stick twinPage 9 := by
    rw [if_neg (not_not.mpr four), goes]
  refine gives_of_pair hs hp (exec_takeTimeout s) body ?_
  change Chip.pairState _ = n ∧ _
  generalize s.c.start.setPair n 0 = a at *
  have told : Chip.Leaves pairFields pairPages s.c.start (((a.updTwin (fun t => { t with yieldCause := 0 })).raise 0xCD twinPage 0 0).stick
      twinPage 9) :=
    (((moved.toLeaves.widen roleFields_pair (by decide)).updTwin _).raise _ _ _ _).stick (.inl (by decide)) 9
  exact ⟨Chip.pairState_settle hp moved.straps (state.trans small), Chip.bit_stickyWord_settle (Chip.bit_stick _ _ _), told.paired⟩

end

/-- Settles O39: each move of the pair is one change of state, and beside it a device writes only the pages of the pair. -/
theorem pairStates : Obligations.PairStates := fun _ =>
  ⟨fun _ _ _ _ _ hs hp up standby _ => healthCell_agrees hs hp up standby, fun _ _ _ _ _ => healthCell_differs, fun _ _ _ _ => healthCell_begins, mateLost_active,
    mateLost_standby, pairWaitExpire_gives, arbitration_gives, yieldDecision_gives, fun _ _ => yieldCell_gives, takeCell_gives,
    takeTimeout_gives⟩

end Sys2Proof.Machine
end

section
/-! SUPPORT. Sequenced cells and items at their epochs (R377 to R382), which O38 states. -/

namespace Sys2Proof.Machine

theorem exec_writeCell (seq : BitVec 16) (epoch : BitVec 32) (space : Fin 3) (be : BitVec 4) (page : BitVec 16) (off data bidx : BitVec 32)
    (master : BitVec 8) (s : State) :
    exec (.writeCell seq epoch space be page off data bidx master) s = execWriteCell seq epoch space be page off data bidx master s := rfl
theorem exec_bulkCell (seq : BitVec 16) (sub : BitVec 8) (addr : BitVec 32) (stack : Fin 2) (slice : Fin 8) (bytes : List (BitVec 8))
    (s : State) : exec (.bulkCell seq sub addr stack slice bytes) s = execBulkCell seq sub addr stack slice bytes s := rfl
theorem exec_decisionCell (seq : BitVec 16) (epoch : BitVec 32) (kind : BitVec 8) (page : BitVec 16) (bidx w4 w5 w6 w7 : BitVec 32)
    (s : State) :
    exec (.decisionCell seq epoch kind page bidx w4 w5 w6 w7) s = execDecisionCell seq epoch kind page bidx w4 w5 w6 w7 s := rfl
theorem exec_ackCell (seq : BitVec 16) (s : State) : exec (.ackCell seq) s = execAckCell seq s := rfl
theorem exec_nakCell (seq : BitVec 16) (s : State) : exec (.nakCell seq) s = execNakCell seq s := rfl
theorem exec_ackTimeout (s : State) : exec .ackTimeout s = execAckTimeout s := rfl
theorem exec_mirrorApply (s : State) : exec .mirrorApply s = execMirrorApply s := rfl

/-- A machine whose registers stand, and one field that is written then. -/
theorem Chip.leaves_wr_of {gs : List Fld} {ps : List Nat} {c d : Chip} {f : Fld} (hg : f ∈ gs) (v : Nat) (flds : d.flds = c.flds)
    (sticky : d.sticky = c.sticky) : Chip.Leaves gs ps c (d.wr f v) := ((Chip.Leaves.refl c).keep flds sticky).wr hg v

/-! ## Reception (R378) -/

/-- The pair's own state after the cell that was expected. -/
def TwinX.received (t : TwinX) (seq : Nat) : TwinX :=
  { t with rxSeq := (seq + 1) % 65536, rxAny := false, tail := if t.tail = some seq then none else t.tail }

/-- What a machine that acknowledges the expected cell has left to do with it. -/
def Chip.acknowledges (c : Chip) (seq : Nat) : Chip := (c.updTwin (fun t => t.received seq)).cellOut 6 0 [1, seq]

section
variable {c : Chip} {seq : Nat}

theorem Chip.takesCells_standby (standby : c.isStandby = true) : c.takesCells seq = true := by
  rw [Chip.takesCells, standby, Bool.true_or]

theorem Chip.sequenced_expected (up : c.grpState 32 = 6) (standby : c.isStandby = true) (known : c.twin.rxAny = false)
    (expected : c.twin.rxSeq = seq) (mem : Mem) (f : Chip → Mem → Chip × Mem) :
    c.sequenced mem seq f = f (c.acknowledges seq) mem := by
  unfold Chip.sequenced
  simp only [up, Chip.takesCells_standby standby, known, expected, ne_eq, not_true, Bool.not_true, Bool.false_eq_true, or_self, if_false,
    if_true]
  rfl

theorem Chip.sequenced_gap (up : c.grpState 32 = 6) (standby : c.isStandby = true) (known : c.twin.rxAny = false)
    (other : c.twin.rxSeq ≠ seq) (ahead : (seq + 65536 - c.twin.rxSeq) % 65536 < 32768) (mem : Mem) (f : Chip → Mem → Chip × Mem) :
    c.sequenced mem seq f = (c.cellOut 6 0 [2, c.twin.rxSeq], mem) := by
  unfold Chip.sequenced
  simp only [up, Chip.takesCells_standby standby, known, ne_eq, not_true, Bool.not_true, Bool.false_eq_true, or_self, if_false, if_true,
    Ne.symm other, ahead]

end

/-- An acknowledged cell changes the pair's own state and tells the mate. -/
theorem Chip.acknowledges_frame (c : Chip) (seq : Nat) : ∃ x, c.acknowledges seq =
      { c with out := c.out ++ [.cell 6 0 [1, seq]], twin := { c.twin.received seq with tx := x } } := by
  unfold Chip.acknowledges Chip.cellOut
  dsimp only
  split
  · exact ⟨_, rfl⟩
  · exact ⟨c.twin.tx, rfl⟩

/-- A received item whose epoch is still to come waits for it, on a standby; a Keeper load is noted. -/
theorem Chip.receiveItem_waits {c : Chip} (standby : c.isStandby = true) (i : MirrorItem) (coming : 0 < frameDiff i.epoch c.twin.applied)
    (mem : Mem) : ∃ x, c.receiveItem mem i = ({ c with mirrorQ := c.mirrorQ ++ [i], twin := { c.twin with imgNext := x } }, mem) := by
  have noted : ∃ x, c.expectImage i = { c with twin := { c.twin with imgNext := x } } := by
    unfold Chip.expectImage
    dsimp only
    split
    · exact ⟨_, rfl⟩
    · exact ⟨c.twin.imgNext, rfl⟩
  obtain ⟨x, hx⟩ := noted
  have standby' : Chip.isStandby { c with twin := { c.twin with imgNext := x } } = true := standby
  refine ⟨x, ?_⟩
  unfold Chip.receiveItem
  simp only [hx, standby', Int.not_le.mpr coming, Bool.not_true, Bool.false_eq_true, false_and, if_false]

section
variable {s : State}

/-- A sequenced item that the standby expects, its epoch still to come, waits. -/
theorem item_waits {a : Instr} {seq : BitVec 16} {f : Chip → Mem → Chip × Mem} {i : MirrorItem} (hs : s.Runs) (up : s.c.grpState 32 = 6)
    (standby : s.c.isStandby = true) (known : s.c.twin.rxAny = false) (expected : s.c.twin.rxSeq = seq.toNat)
    (coming : 0 < frameDiff i.epoch s.c.twin.applied) (he : exec a s = actMem s f)
    (hf : f s.c.start s.mem = s.c.start.sequenced s.mem seq.toNat (fun c mem => c.receiveItem mem i)) : Gives a s (fun t =>
      t.c.mirrorQ = s.c.mirrorQ ++ [i] ∧ t.c.twin.rxSeq = (seq.toNat + 1) % 65536 ∧ Out.cell 6 0 [1, seq.toNat] ∈ t.c.out ∧
      Confined [] [] s t) := by
  have taken := hf.trans (Chip.sequenced_expected (c := s.c.start) up standby known expected s.mem (fun c mem => c.receiveItem mem i))
  obtain ⟨tx, told⟩ := s.c.start.acknowledges_frame seq.toNat
  let b := s.c.start.acknowledges seq.toNat
  have facts : b.isStandby = s.c.isStandby ∧ b.twin.applied = s.c.twin.applied ∧ b.twin.rxSeq = (seq.toNat + 1) % 65536 ∧
      b.mirrorQ = s.c.mirrorQ ∧ Out.cell 6 0 [1, seq.toNat] ∈ b.out ∧ b.flds = s.c.start.flds ∧ b.sticky = s.c.start.sticky := by
    show (s.c.start.acknowledges seq.toNat).isStandby = _ ∧ (s.c.start.acknowledges seq.toNat).twin.applied = _ ∧
      (s.c.start.acknowledges seq.toNat).twin.rxSeq = _ ∧ (s.c.start.acknowledges seq.toNat).mirrorQ = _ ∧
      _ ∈ (s.c.start.acknowledges seq.toNat).out ∧ (s.c.start.acknowledges seq.toNat).flds = _ ∧
      (s.c.start.acknowledges seq.toNat).sticky = _
    rw [told]
    exact ⟨rfl, rfl, rfl, rfl, List.mem_append_right _ (List.mem_singleton_self _), rfl, rfl⟩
  change _ = b.receiveItem s.mem i at taken
  clear_value b
  obtain ⟨standby', applied, next, queue, sent, flds, sticky⟩ := facts
  obtain ⟨img, waits⟩ := Chip.receiveItem_waits (standby'.trans standby) i (by rw [applied]; exact coming) s.mem
  have leaves : Chip.Leaves [] [] s.c.start { b with mirrorQ := b.mirrorQ ++ [i], twin := { b.twin with imgNext := img } } :=
    .keep (.refl _) flds sticky
  refine gives_of_body_mem hs he (taken.trans waits) ⟨(settled _).mirrorQ.trans (congrArg (· ++ [i]) queue),
    (congrArg TwinX.rxSeq (Chip.twin_settle _)).trans next, Chip.mem_out_settle_any sent, leaves.confined⟩

theorem writeCell_gap {seq : BitVec 16} {epoch : BitVec 32} {space : Fin 3} {be : BitVec 4} {page : BitVec 16} {off data bidx : BitVec 32}
    {master : BitVec 8} (hs : s.Runs) (up : s.c.grpState 32 = 6) (standby : s.c.isStandby = true) (known : s.c.twin.rxAny = false)
    (other : s.c.twin.rxSeq ≠ seq.toNat) (ahead : (seq.toNat + 65536 - s.c.twin.rxSeq) % 65536 < 32768) :
    Gives (.writeCell seq epoch space be page off data bidx master) s (fun t =>
      t.c.mirrorQ = s.c.mirrorQ ∧ t.c.twin = { s.c.twin with tx := t.c.twin.tx } ∧ Out.cell 6 0 [2, s.c.twin.rxSeq] ∈ t.c.out ∧
        Confined [] [] s t) := by
  have body := Chip.sequenced_gap (c := s.c.start) up standby known other ahead s.mem (fun c mem => c.receiveItem mem
    ⟨epoch.toNat, seq.toNat, space, page.toNat, off.toNat, data.toNat, be.toNat, bidx.toNat, master.toNat, []⟩)
  let d := s.c.start.cellOut 6 0 [2, s.c.twin.rxSeq]
  have sent : Out.cell 6 0 [2, s.c.twin.rxSeq] ∈ d.out := s.c.start.mem_cellOut _ _ _
  have leaves : Chip.Leaves [] [] s.c.start d := s.c.start.leaves_cellOut _ _ _
  have same : d.mirrorQ = s.c.mirrorQ ∧ d.reports = [] := by
    obtain ⟨x, hx⟩ := s.c.start.cellOut_frame 6 0 [2, s.c.twin.rxSeq]
    show (s.c.start.cellOut 6 0 [2, s.c.twin.rxSeq]).mirrorQ = _ ∧ (s.c.start.cellOut 6 0 [2, s.c.twin.rxSeq]).reports = _
    rw [hx]
    exact ⟨rfl, rfl⟩
  have twin : d.twin = { s.c.twin with tx := d.twin.tx } := by
    show (s.c.start.cellOut 6 0 [2, s.c.twin.rxSeq]).twin = { s.c.twin with tx := (s.c.start.cellOut 6 0 [2, s.c.twin.rxSeq]).twin.tx }
    unfold Chip.cellOut
    dsimp only
    split <;> rfl
  obtain ⟨queue, quiet⟩ := same
  change _ = (d, s.mem) at body
  clear_value d
  refine gives_of_body_mem hs (exec_writeCell seq epoch space be page off data bidx master s) body
    ⟨(settled d).mirrorQ.trans queue, ?_, Chip.mem_out_settle_any sent, leaves.confined⟩
  show d.settle.twin = { s.c.twin with tx := d.settle.twin.tx }
  rw [(idle_settle d quiet).twin]
  exact twin

/-- A cell of bytes that the resync image takes. -/
theorem bulkCell_gives {seq : BitVec 16} {addr : BitVec 32} {stack : Fin 2} {slice : Fin 8} {bytes : List (BitVec 8)} (hs : s.Runs)
    (up : s.c.grpState 32 = 6) (standby : s.c.isStandby = true) (known : s.c.twin.rxAny = false) (expected : s.c.twin.rxSeq = seq.toNat)
    (short : bytes.length ≤ 24) : Gives (.bulkCell seq 4 addr stack slice bytes) s (fun t =>
      (∀ j : Fin 24, j.val < bytes.length → Mem.byte t.mem 5 (addr.toNat + j) = (bytes.getD j 0).toNat) ∧
      (∀ r : Nat, ∀ o : Nat, o < 8589934592 → ¬(r = 5 ∧ addr.toNat ≤ o ∧ o < addr.toNat + bytes.length) →
        Mem.byte t.mem r o = Mem.byte s.mem r o) ∧
      t.c.twin.rxSeq = (seq.toNat + 1) % 65536 ∧ t.c.flds = s.c.flds ∧ t.pending = s.pending) := by
  let bs := bytes.map BitVec.toNat
  have len : bs.length = bytes.length := List.length_map _
  have small := addr.isLt
  obtain ⟨tx, told⟩ := s.c.start.acknowledges_frame seq.toNat
  let b := s.c.start.acknowledges seq.toNat
  let d := b.updTwin (fun t => { t with bulkAt := (4 + 8 * (stack.val + 2 * slice.val), addr.toNat + bs.length) })
  have body : s.c.start.bulkCell s.mem seq.toNat 4 addr.toNat stack.val slice.val bs = (d, Mem.puts s.mem 5 addr.toNat bs) := by
    refine (Chip.sequenced_expected (c := s.c.start) up standby known expected s.mem _).trans ?_
    have all : bs.take 24 = bs := List.take_of_length_le (by omega)
    have place : (4 + 8 * (stack.val + 2 * slice.val)) % 8 = 4 := by omega
    simp only [show ¬(4 = 255) by decide, show 4 % 8 = 4 by decide, if_false, all, Chip.bulkAt, place]
    rfl
  have next : d.twin.rxSeq = (seq.toNat + 1) % 65536 := by
    show (s.c.start.acknowledges seq.toNat).twin.rxSeq = _
    rw [told]
    rfl
  have kept : d.flds = s.c.flds ∧ d.reports = [] := by
    show (s.c.start.acknowledges seq.toNat).flds = _ ∧ (s.c.start.acknowledges seq.toNat).reports = _
    rw [told]
    exact ⟨rfl, rfl⟩
  obtain ⟨flds, quiet⟩ := kept
  clear_value d
  refine gives_of_body_mem hs (exec_bulkCell seq 4 addr stack slice bytes s) body
    ⟨fun j hj => ?_, fun r o ho outside => ?_, (congrArg TwinX.rxSeq d.twin_settle).trans next, (idle_settle d quiet).flds.trans flds, rfl⟩
  · refine (Mem.byte_puts_at s.mem 5 addr.toNat j bs (by omega) (by omega)).trans ?_
    have read : bs.getD j 0 = (bytes.getD j 0).toNat := by
      show (bytes.map BitVec.toNat).getD j 0 = _
      rw [List.getD_eq_getElem _ _ (by simpa using hj), List.getD_eq_getElem _ _ hj, List.getElem_map]
    rw [read]
    exact Nat.mod_eq_of_lt (bytes.getD j 0).isLt
  · show Mem.byte (Mem.puts s.mem 5 addr.toNat bs) r o = _
    by_cases hr : r = 5
    · subst hr
      by_cases below : o < addr.toNat
      · exact Mem.byte_puts_below _ _ _ _ _ below (by omega)
      · exact Mem.byte_puts_above _ _ _ _ _ (by rw [len]; by_contra h; exact outside ⟨rfl, by omega, by omega⟩) ho
    · exact Mem.byte_puts_region _ _ _ _ _ _ hr ho (by omega)

end

/-! ## Acknowledgements and replay (R378) -/

/-- Between two machines cells have been queued: the buffer's count on the pair's page, what waits to be applied, and cells on their way. -/
structure Chip.Queues (c d : Chip) : Prop extends Chip.Leaves [Twin.queued] [] c d where
  sticky_eq : d.sticky = c.sticky
  wait : d.mirrorWait = c.mirrorWait
  straps : d.straps = c.straps

section
variable {a b c : Chip}

theorem Chip.Queues.refl (c : Chip) : Chip.Queues c c := ⟨.refl c, rfl, rfl, rfl⟩

theorem Chip.Queues.trans (h : Chip.Queues a b) (k : Chip.Queues b c) : Chip.Queues a c :=
  ⟨h.toLeaves.trans k.toLeaves, k.sticky_eq.trans h.sticky_eq, k.wait.trans h.wait, k.straps.trans h.straps⟩

/-- A cell that is kept for replay and sent. -/
theorem Chip.queues_sent (c : Chip) (q : List MirrorItem) (n : Nat) (r : List (Nat × Nat × List Nat)) (kind seq v : Nat) (ws : List Nat) :
    Chip.Queues c ((Chip.cellOut { c with mirrorQ := q, mirrorSeq := n, replay := r } kind seq ws).wr Twin.queued v) := by
  obtain ⟨x, hx⟩ := Chip.cellOut_frame { c with mirrorQ := q, mirrorSeq := n, replay := r } kind seq ws
  rw [hx]
  exact ⟨Chip.leaves_wr_of (List.mem_singleton_self _) _ rfl rfl, rfl, rfl, rfl⟩

theorem Chip.queues_queueWaiting (c : Chip) (i : MirrorItem) : Chip.Queues c (c.queueWaiting i) := by
  have sent (d : Chip) (it : MirrorItem) (kind : Nat) (ws : List Nat) : Chip.Queues d (d.sendItem it kind ws) := by
    unfold Chip.sendItem
    dsimp only
    exact d.queues_sent _ _ _ _ _ _ _
  unfold Chip.queueWaiting
  split
  · exact sent c _ _ _
  · exact c.queues_sent c.mirrorQ _ _ _ _ _ _
  · exact sent c _ _ _

end

/-- Where room has been made, as many of the writes that wait go out as it holds. -/
theorem Chip.mirrorRoom_shows (c : Chip) : c.mirrorRoom.mirrorWait = c.mirrorWait.drop (8192 - c.replay.length) ∧
    c.mirrorRoom.straps = c.straps ∧ (∀ p b, bit (c.stickyWord p) b = true → bit (c.mirrorRoom.stickyWord p) b = true) ∧
    Chip.Leaves [Twin.queued] [] c c.mirrorRoom := by
  unfold Chip.mirrorRoom
  dsimp only
  split
  case isTrue h =>
    refine ⟨?_, rfl, fun _ _ h => h, .refl c⟩
    rcases h with none_ | empty
    · rw [none_, List.drop_zero]
    · rw [List.isEmpty_iff.mp empty, List.drop_nil]
  case isFalse =>
    let b := { c with mirrorWait := c.mirrorWait.drop (8192 - c.replay.length) }
    have queued : Chip.Queues b ((c.mirrorWait.take (8192 - c.replay.length)).foldl Chip.queueWaiting b) :=
      List.foldlRecOn (motive := Chip.Queues b) _ _ (.refl b) fun d hd i _ => hd.trans (d.queues_queueWaiting i)
    have begun : Chip.Leaves [Twin.queued] [] c b := .keep (.refl c) rfl rfl
    have same : b.sticky = c.sticky ∧ b.straps = c.straps ∧ b.mirrorWait = c.mirrorWait.drop (8192 - c.replay.length) := ⟨rfl, rfl, rfl⟩
    change (Chip.answerWaits (List.foldl Chip.queueWaiting b _) _).mirrorWait = _ ∧ _
    generalize List.foldl Chip.queueWaiting b _ = d at *
    clear_value b
    obtain ⟨sticky, straps, wait⟩ := same
    have answered := (Chip.Mates.refl d (gs := [Twin.queued]) (ps := [])).answerWaits (c.mirrorWait.take (8192 - c.replay.length))
    generalize d.answerWaits (c.mirrorWait.take (8192 - c.replay.length)) = e at *
    refine ⟨?_, answered.straps.trans (queued.straps.trans straps), fun p i hi => answered.set p i ?_,
      begun.trans (queued.toLeaves.trans answered.toLeaves)⟩
    · obtain ⟨_, _, _, _, _, _, _, _, _, _, _, e⟩ := answered.frame
      rw [e]
      exact queued.wait.trans wait
    · rw [Chip.stickyWord, queued.sticky_eq, sticky]
      exact hi

/-- Where nothing waits for room, an acknowledgement frees cells alone. -/
theorem Chip.mirrorRoom_empty {c : Chip} (h : c.mirrorWait = []) : c.mirrorRoom = c := if_pos (.inr (by rw [h]; rfl))

/-- Cells that are sent in their order. -/
theorem Chip.foldl_cellOut_frame (l : List (Nat × Nat × List Nat)) (c : Chip) : ∃ o x,
    l.foldl (fun c e => c.cellOut e.2.1 e.1 e.2.2) c = { c with out := o, twin := x } ∧ (∀ y ∈ c.out, y ∈ o) ∧
      ∀ e ∈ l, Out.cell e.2.1 e.1 e.2.2 ∈ o := by
  induction l generalizing c with
  | nil => exact ⟨c.out, c.twin, rfl, fun _ h => h, fun _ h => absurd h (List.not_mem_nil)⟩
  | cons e l ih =>
    obtain ⟨x, hx⟩ := c.cellOut_frame e.2.1 e.1 e.2.2
    obtain ⟨o, y, h, kept, sent⟩ := ih (c.cellOut e.2.1 e.1 e.2.2)
    rw [hx] at h kept
    refine ⟨o, y, (congrArg (fun d => List.foldl _ d l) hx).trans h, fun z hz => kept z (List.mem_append_left _ hz), fun f hf => ?_⟩
    rcases List.mem_cons.mp hf with rfl | hf
    · exact kept _ (List.mem_append_right _ (List.mem_singleton_self _))
    · exact sent f hf

theorem satAdd_mod (w v n : Nat) : satAdd w v n % 2 ^ w = satAdd w v n :=
  Nat.mod_eq_of_lt (lt_of_le_of_lt (Nat.min_le_right _ _) (Nat.sub_one_lt (Nat.two_pow_pos w).ne'))

section
variable {s : State} {seq : BitVec 16}

/-- The cells that an acknowledgement of `seq` leaves in the replay buffer. -/
def Chip.unacked (c : Chip) (seq : Nat) : List (Nat × Nat × List Nat) :=
  c.replay.filter (fun e => !decide ((seq + 65536 - e.1) % 65536 < 32768))

/-- The machine with those alone. -/
def Chip.frees (c : Chip) (seq : Nat) : Chip := Chip.wr { c with replay := c.unacked seq } Twin.queued (c.unacked seq).length

theorem Chip.leaves_frees (c : Chip) (seq : Nat) : Chip.Leaves [Twin.queued] [] c (c.frees seq) :=
  Chip.leaves_wr_of (List.mem_singleton_self _) _ rfl rfl

theorem ackCell_frees (hs : s.Runs) (hp : s.c.paired = true) (up : s.c.grpState 32 = 6) : Gives (.ackCell seq) s (fun t =>
      t.c.mirrorWait = s.c.mirrorWait.drop (8192 - (s.c.unacked seq.toNat).length) ∧ Within [twinPage] s t) := by
  have freed := s.c.start.leaves_frees seq.toNat
  have body : s.c.start.ackCell seq.toNat = (s.c.start.frees seq.toNat).mirrorRoom := rfl
  have same : (s.c.start.frees seq.toNat).mirrorWait = s.c.mirrorWait ∧ (s.c.start.frees seq.toNat).replay = s.c.unacked seq.toNat := ⟨rfl, rfl⟩
  obtain ⟨wait, replay⟩ := same
  generalize s.c.start.frees seq.toNat = b at *
  obtain ⟨drops, -, -, leaves⟩ := b.mirrorRoom_shows
  rw [wait, replay] at drops
  generalize b.mirrorRoom = d at *
  refine gives_of_cell hs hp up (exec_ackCell seq s) body ⟨(settled d).mirrorWait.trans drops, (freed.trans leaves).within (fun g hg => ?_) (by simp)⟩
  obtain rfl := List.mem_singleton.mp hg
  decide

theorem ackCell_empty (hs : s.Runs) (hp : s.c.paired = true) (up : s.c.grpState 32 = 6) (none_ : s.c.mirrorWait = []) :
    Gives (.ackCell seq) s (fun t =>
      t.c.replay = s.c.unacked seq.toNat ∧ t.c.rd Twin.queued = t.c.replay.length % 16384 ∧ Confined [Twin.queued] [] s t) := by
  have freed := s.c.start.leaves_frees seq.toNat
  have body : s.c.start.ackCell seq.toNat = s.c.start.frees seq.toNat :=
    Chip.mirrorRoom_empty (c := s.c.start.frees seq.toNat) none_
  have count : (s.c.start.frees seq.toNat).rd Twin.queued = (s.c.unacked seq.toNat).length % 16384 := Chip.rd_wr_self _ _ _
  have replay : (s.c.start.frees seq.toNat).replay = s.c.unacked seq.toNat := rfl
  generalize s.c.start.frees seq.toNat = d at *
  have kept : d.settle.replay = s.c.unacked seq.toNat := (settled d).replay.trans replay
  refine gives_of_cell hs hp up (exec_ackCell seq s) body ⟨kept, ?_, freed.confined⟩
  show d.settle.rd Twin.queued = d.settle.replay.length % 16384
  rw [kept, d.rd_settle (by decide) (by decide), count]

theorem nakCell_gives (hs : s.Runs) (hp : s.c.paired = true) (up : s.c.grpState 32 = 6) : Gives (.nakCell seq) s (fun t =>
      (∀ e ∈ s.c.replay, (e.1 + 65536 - seq.toNat) % 65536 < 32768 → Out.cell e.2.1 e.1 e.2.2 ∈ t.c.out) ∧
      t.c.replay = s.c.replay ∧
      t.c.rd Twin.replays = satAdd 16 (s.c.rd Twin.replays)
        (s.c.replay.filter (fun e => decide ((e.1 + 65536 - seq.toNat) % 65536 < 32768))).length ∧ Confined [Twin.replays] [] s t) := by
  let again := s.c.replay.filter (fun e => decide ((e.1 + 65536 - seq.toNat) % 65536 < 32768))
  obtain ⟨o, x, h, -, sent⟩ := Chip.foldl_cellOut_frame again s.c.start
  have body : s.c.start.nakCell seq.toNat = Chip.addSat { s.c.start with out := o, twin := x } Twin.replays again.length :=
    congrArg (fun d : Chip => d.addSat Twin.replays again.length) h
  let b := { s.c.start with out := o, twin := x }
  let d := b.addSat Twin.replays again.length
  have leaves : Chip.Leaves [Twin.replays] [] s.c.start d := Chip.leaves_wr_of (List.mem_singleton_self _) _ rfl rfl
  have count : d.rd Twin.replays = satAdd 16 (s.c.rd Twin.replays) again.length := (b.rd_wr_self _ _).trans (satAdd_mod 16 _ _)
  have replay : d.replay = s.c.replay := rfl
  have out : ∀ y ∈ o, y ∈ d.out := fun _ h => h
  change _ = d at body
  clear_value d b
  exact gives_of_cell hs hp up (exec_nakCell seq s) body
    ⟨fun e he near => Chip.mem_out_settle_any (out _ (sent e (List.mem_filter.mpr ⟨he, decide_eq_true near⟩))), (settled d).replay.trans replay,
      (d.rd_settle (by decide) (by decide)).trans count, leaves.confined⟩

/-- A device whose cells have not been acknowledged, before it resynchronises its mate. -/
def Chip.dropsReplay (c : Chip) : Chip :=
  ((Chip.wr { c with replay := [] } Twin.queued 0).raise 0xC3 twinPage ((c.replay.map Prod.fst).headD 0) 0).stick twinPage 2

theorem ackTimeout_gives (hs : s.Runs) (active : s.c.pairState = 3) (mate : s.c.mateLost = false) (cells : s.c.replay ≠ []) :
    Gives .ackTimeout s (fun t =>
      (s.c.mirrorWait = [] → t.c.replay = [] ∧ t.c.rd Twin.queued = 0) ∧ t.c.mirrorWait = s.c.mirrorWait.drop 8192 ∧
      t.c.rd Twin.resyncPhase = 1 ∧ bit (t.c.stickyWord twinPage) 2 = true ∧ Within pairPages s t) := by
  have hp : s.c.paired = true := Chip.paired_of_pairState (by rw [active]; decide)
  have three : s.c.start.pairState = 3 := active
  have mate' : s.c.start.mateLost = false := mate
  have cells' : s.c.start.replay.isEmpty = false := List.isEmpty_eq_false_iff.mpr cells
  let a := Chip.wr { s.c.start with replay := [] } Twin.queued 0
  let b := s.c.start.dropsReplay
  have none_ : a.rd Twin.queued = 0 := Chip.rd_wr_self _ _ _
  have cleared : Chip.Leaves [Twin.queued] [twinPage] s.c.start a := Chip.leaves_wr_of (List.mem_singleton_self _) _ rfl rfl
  have begun : Chip.Leaves [Twin.queued] [twinPage] s.c.start b := (cleared.raise _ _ _ _).stick (.inl (List.mem_singleton_self _)) 2
  have empty : b.rd Twin.queued = 0 := none_
  have replay : b.replay = [] := rfl
  have wait : b.mirrorWait = s.c.mirrorWait := rfl
  have marked : bit (b.stickyWord twinPage) 2 = true := Chip.bit_stick _ _ _
  have straps : b.straps = s.c.start.straps := rfl
  have state : b.pairState = 3 :=
    (Chip.pairState_congr straps (begun.rd Twin.state (by decide) (by decide) (by decide))).trans three
  have body : (if !activeRole s.c.start.pairState ∨ s.c.start.mateLost ∨ s.c.start.replay.isEmpty then s.c.start
      else if b.pairState = 4 then b else b.mirrorRoom.beginResync) =
      (b.mirrorRoom.wr Twin.resyncPhase 1).showPair := by
    rw [if_neg (not_or.mpr ⟨by rw [three]; decide, not_or.mpr ⟨by rw [mate']; decide, by rw [cells']; decide⟩⟩),
      if_neg (by rw [state]; decide)]
    rfl
  refine gives_of_pair hs hp (exec_ackTimeout s) body ?_
  clear_value b
  clear body
  obtain ⟨drops, -, set, room⟩ := b.mirrorRoom_shows
  have alone (h : s.c.mirrorWait = []) : b.mirrorRoom = b := Chip.mirrorRoom_empty (wait.trans h)
  rw [wait, replay] at drops
  generalize b.mirrorRoom = e at *
  have begins := (e.wr Twin.resyncPhase 1).mates_showPair
  have phase : (e.wr Twin.resyncPhase 1).rd Twin.resyncPhase = 1 := Chip.rd_wr_self _ _ _
  have queue : (e.wr Twin.resyncPhase 1).rd Twin.queued = e.rd Twin.queued := Chip.rd_wr_ne _ _ (by decide)
  have phased : Chip.Leaves pairFields pairPages s.c.start (e.wr Twin.resyncPhase 1) :=
    ((begun.widen (hs := pairFields) (qs := pairPages) (by decide) (by decide)).trans (room.widen (by decide) (List.nil_subset _))).wr
      (f := Twin.resyncPhase) (by decide) 1
  have same : (e.wr Twin.resyncPhase 1).replay = e.replay ∧ (e.wr Twin.resyncPhase 1).mirrorWait = e.mirrorWait ∧
      (e.wr Twin.resyncPhase 1).sticky = e.sticky := ⟨rfl, rfl, rfl⟩
  generalize e.wr Twin.resyncPhase 1 = f at *
  have frame : f.showPair.replay = e.replay ∧ f.showPair.mirrorWait = e.mirrorWait := by
    obtain ⟨_, _, _, _, _, _, _, _, _, _, _, h⟩ := begins.frame
    rw [h]
    exact ⟨same.1, same.2.1⟩
  have word : f.stickyWord twinPage = e.stickyWord twinPage := by rw [Chip.stickyWord, same.2.2, Chip.stickyWord]
  have whole := phased.trans (begins.toLeaves.widen (by decide) (List.nil_subset _))
  generalize f.showPair = d at *
  refine ⟨fun h => ⟨(settled d).replay.trans (frame.1.trans ?_), (d.rd_settle (by decide) (by decide)).trans ?_⟩,
    (settled d).mirrorWait.trans (frame.2.trans drops), (d.rd_settle (by decide) (by decide)).trans ?_, Chip.bit_stickyWord_settle ?_,
    whole.paired⟩
  · rw [alone h, replay]
  · exact (begins.rd _ (by decide) (by decide) (by decide)).trans (queue.trans (by rw [alone h, empty]))
  · exact (begins.rd _ (by decide) (by decide) (by decide)).trans phase
  · exact begins.set _ _ (by rw [word]; exact set _ _ marked)

end

/-! ## The mirror step boundary (R379) -/

section
variable {s : State}

/-- A machine at the mirror step boundary of epoch `e`, where nothing waits for a boundary of its own. -/
def Chip.stepsTo (c : Chip) (e : Nat) : Chip :=
  { c with mirrorQ := c.mirrorQ.filter (fun i => 0 < frameDiff i.epoch e), twin := { c.twin with applied := e, due := [] } }

theorem Chip.mirrorStep_of_none_due {c : Chip} (none_ : c.twin.due = []) (mem : Mem) (l : List MirrorItem)
    (due : c.mirrorQ.filter (fun i => frameDiff i.epoch (c.rd Twin.epoch) ≤ 0) = l) (verdicts : ∀ i ∈ l, i.space = 3) :
    c.mirrorStep mem = (c.stepsTo (c.rd Twin.epoch)).applyItems mem
      (groupItems (l.map (fun i => (decide (frameDiff i.epoch (c.rd Twin.epoch) < 0), i)))) := by
  have boundary : c.twin.due.filter (fun i => decide (i.space ≠ 3)) = [] := by rw [none_]; rfl
  have early (d : Chip) (held : List (Nat × Nat)) (l : List (Bool × MirrorItem)) (h : ∀ x ∈ l, x.2.space = 3) :
      d.splitEarly held l = (l, []) := by
    induction l with
    | nil => rfl
    | cons x l ih =>
      rw [Chip.splitEarly, if_neg fun k => k.1 (h x List.mem_cons_self), ih fun y hy => h y (List.mem_cons_of_mem _ hy)]
  have split_ := early c [] (l.map (fun i => (decide (frameDiff i.epoch (c.rd Twin.epoch) < 0), i))) (by simpa using verdicts)
  have idle (d : Chip) (h : d.twin.due = []) : d.idleImages mem = d := by
    have same : { d.twin with due := [] } = d.twin := by rw [← h]
    unfold Chip.idleImages Chip.updTwin
    simp only [h, List.filter_nil, List.foldl_nil]
    split
    · rfl
    · exact congrArg (fun t => { d with twin := t }) same
  unfold Chip.mirrorStep
  simp only [boundary, due, List.map_nil, List.nil_append, split_, none_, List.append_nil, List.filter_nil, Chip.updTwin]
  exact congrArg (fun d : Chip => d.applyItems mem _) (idle _ rfl)

/-- The boundary of an epoch that no item names. -/
theorem mirrorApply_coming (hs : s.Runs) (hp : s.c.paired = true) (none_ : s.c.twin.due = [])
    (coming : ∀ i ∈ s.c.mirrorQ, 0 < frameDiff i.epoch (s.c.rd Twin.epoch)) : Gives .mirrorApply s (fun t =>
      t.c.mirrorQ = s.c.mirrorQ ∧ t.c.twin.applied = s.c.rd Twin.epoch ∧ Confined [] [] s t) := by
  have due : s.c.start.mirrorQ.filter (fun i => decide (frameDiff i.epoch (s.c.start.rd Twin.epoch) ≤ 0)) = [] :=
    List.filter_eq_nil_iff.mpr fun i hi h => absurd (of_decide_eq_true h) (Int.not_le.mpr (coming i hi))
  have step := Chip.mirrorStep_of_none_due (c := s.c.start) none_ s.mem [] due (by simp)
  have body : (if s.c.start.paired then s.c.start.mirrorStep s.mem else (s.c.start, s.mem)) =
      (s.c.start.stepsTo (s.c.rd Twin.epoch), s.mem) := (if_pos hp).trans step
  have queue : (s.c.start.stepsTo (s.c.rd Twin.epoch)).mirrorQ = s.c.mirrorQ :=
    List.filter_eq_self.mpr fun i hi => decide_eq_true (coming i hi)
  have leaves : Chip.Leaves [] [] s.c.start (s.c.start.stepsTo (s.c.rd Twin.epoch)) := .keep (.refl _) rfl rfl
  have applied : (s.c.start.stepsTo (s.c.rd Twin.epoch)).twin.applied = s.c.rd Twin.epoch := rfl
  generalize s.c.start.stepsTo (s.c.rd Twin.epoch) = d at *
  exact gives_of_body_mem hs (exec_mirrorApply s) body ⟨(settled d).mirrorQ.trans queue,
    (congrArg TwinX.applied d.twin_settle).trans applied, leaves.confined⟩

theorem frameDiff_self {a : Nat} (h : a < 2 ^ 32) : frameDiff a a = 0 := by
  have none_ : (a + 2 ^ 32 - a) % 2 ^ 32 = 0 := by omega
  rw [frameDiff, none_]
  rfl

/-- An armed instance. -/
theorem Chip.armRestep_shows (c : Chip) {x : Nat} (hx : x < 2) : (c.armRestep x true).rd Ptp.restepArmed = 1 ∧
    ((c.armRestep x true).ptpInst x).armed = true ∧ Chip.Leaves [Ptp.restepArmed] [] c (c.armRestep x true) := by
  have armed : ((c.updPtp x (fun p => { p with armed := true })).ptpInst x).armed = true :=
    congrArg PtpInst.armed (Store.get_set_self _ _ _ _)
  have leaves : Chip.Leaves [Ptp.restepArmed] [] c (c.armRestep x true) :=
    Chip.leaves_wr_of (d := c.updPtp x (fun p => { p with armed := true })) (List.mem_singleton_self _) _ rfl rfl
  have any : ∀ d : Chip, (d.ptpInst x).armed = true → ((d.ptpInst 0).armed || (d.ptpInst 1).armed) = true := by
    intro d hd
    interval_cases x
    · rw [hd, Bool.true_or]
    · rw [hd, Bool.or_true]
  refine ⟨?_, armed, leaves⟩
  unfold Chip.armRestep
  dsimp only
  rw [any _ armed]
  exact Chip.rd_wr_self _ _ _

/-- The boundary of the epoch of one decision: that of a re-step (R381). -/
theorem mirrorApply_restep {i : MirrorItem} (hs : s.Runs) (hp : s.c.paired = true) (none_ : s.c.twin.due = []) (alone : s.c.mirrorQ = [i])
    (now : i.epoch = s.c.rd Twin.epoch) (decision : i.space = 3) (restep : i.off = 7) (unbound : i.bidx = 0xFFFFFFFF) :
    Gives .mirrorApply s (fun t =>
      t.c.mirrorQ = [] ∧ t.c.twin.applied = s.c.rd Twin.epoch ∧ t.c.rd Ptp.restepArmed = 1 ∧
      (t.c.ptpInst (i.payload.getD 0 0 % 2)).armed = true ∧ Confined [Ptp.restepArmed] [] s t) := by
  have zero : frameDiff i.epoch (s.c.start.rd Twin.epoch) = 0 := by
    rw [now]
    exact frameDiff_self (s.c.rd_lt Twin.epoch)
  have queued : s.c.start.mirrorQ = [i] := alone
  have due : s.c.start.mirrorQ.filter (fun i => decide (frameDiff i.epoch (s.c.start.rd Twin.epoch) ≤ 0)) = [i] := by
    rw [queued, List.filter_singleton, zero]
    rfl
  have step := Chip.mirrorStep_of_none_due (c := s.c.start) none_ s.mem [i] due (by simpa using decision)
  let b := s.c.start.stepsTo (s.c.rd Twin.epoch)
  have left : b.mirrorQ = [] := by
    show s.c.start.mirrorQ.filter (fun i => decide (0 < frameDiff i.epoch (s.c.start.rd Twin.epoch))) = []
    rw [queued, List.filter_singleton, zero]
    rfl
  have applied : b.twin.applied = s.c.rd Twin.epoch := rfl
  have quiet : b.reports = [] := rfl
  have kept : Chip.Leaves [Ptp.restepArmed] [] s.c.start b := .keep (.refl _) rfl rfl
  have once : [i].map (fun i => (decide (frameDiff i.epoch (s.c.start.rd Twin.epoch) < 0), i)) = [(false, i)] := by
    rw [List.map_singleton, zero]
    rfl
  have apply_ : b.applyOne s.mem false i [] = (b.armRestep (i.payload.getD 0 0 % 2) true, s.mem) := by
    have passes : b.passedBy i = false := by
      rw [Chip.passedBy, unbound]
      rfl
    unfold Chip.applyOne
    simp [passes, decision, Chip.applyDecision, restep]
  rw [once] at step
  have body : (if s.c.start.paired then s.c.start.mirrorStep s.mem else (s.c.start, s.mem)) =
      (b.armRestep (i.payload.getD 0 0 % 2) true, s.mem) := (if_pos hp).trans (step.trans apply_)
  clear_value b
  obtain ⟨shown, armed, leaves⟩ := b.armRestep_shows (x := i.payload.getD 0 0 % 2) (Nat.mod_lt _ (by decide))
  have frame : (b.armRestep (i.payload.getD 0 0 % 2) true).mirrorQ = b.mirrorQ ∧
      (b.armRestep (i.payload.getD 0 0 % 2) true).twin = b.twin ∧ (b.armRestep (i.payload.getD 0 0 % 2) true).reports = b.reports :=
    ⟨rfl, rfl, rfl⟩
  generalize b.armRestep (i.payload.getD 0 0 % 2) true = d at *
  obtain ⟨queue, twin, reports⟩ := frame
  refine gives_of_body_mem hs (exec_mirrorApply s) body ⟨(settled d).mirrorQ.trans (queue.trans left),
    (congrArg TwinX.applied d.twin_settle).trans ((congrArg TwinX.applied twin).trans applied),
    (d.rd_settle (by decide) (by decide)).trans shown, ?_, (kept.trans leaves).confined⟩
  have same : d.settle.mer = d.mer := (idle_settle d (reports.trans quiet)).mer
  show (d.settle.ptpInst _).armed = true
  rw [Chip.ptpInst, same]
  exact armed

end

/-- Settles O38: a standby's place in the sequence decides what each cell does, and an item waits for its epoch. -/
theorem twinCells : Obligations.TwinCells := fun _ =>
  ⟨fun _ _ _ _ _ _ _ _ _ hs _ up standby known expected coming =>
      item_waits hs up standby known expected coming (exec_writeCell _ _ _ _ _ _ _ _ _ _) rfl,
    fun _ _ _ _ _ _ _ _ _ hs _ up standby known other _ ahead => writeCell_gap hs up standby known other ahead,
    fun _ _ _ _ _ _ _ _ _ hs _ up standby known expected coming =>
      item_waits hs up standby known expected coming (exec_decisionCell _ _ _ _ _ _ _ _ _ _) rfl,
    fun _ _ _ _ _ hs _ up standby known expected short => bulkCell_gives hs up standby known expected short,
    fun _ hs hp up _ => ackCell_frees hs hp up, fun _ => ackCell_empty, fun _ => nakCell_gives, ackTimeout_gives, mirrorApply_coming,
    fun _ => mirrorApply_restep⟩

end Sys2Proof.Machine
end

section
/-! SUPPORT. The Umpire (R384 to R388), which O41 states. -/

namespace Sys2Proof.Machine

theorem exec_digestCell (label : BitVec 32) (first : BitVec 13) (ds : List (BitVec 32)) (s : State) :
    exec (.digestCell label first ds) s = execDigestCell label first ds s := rfl
theorem exec_umpireCompare (u : BitVec 13) (s : State) : exec (.umpireCompare u) s = execUmpireCompare u s := rfl
theorem exec_verdictSend (s : State) : exec .verdictSend s = execVerdictSend s := rfl
theorem exec_verdictCell (u : BitVec 13) (label : BitVec 32) (fault : Bool) (src : BitVec 8) (s : State) :
    exec (.verdictCell u label fault src) s = execVerdictCell u label fault src s := rfl
theorem exec_verdictTimeout (s : State) : exec .verdictTimeout s = execVerdictTimeout s := rfl

/-! ## What a comparison changes -/

/-- Between two machines the fields `gs`, the sticky words `ps` and what is beside the registers may differ; no sticky bit is lost, and
nothing that has been driven outward. -/
structure Chip.Compares (gs : List Fld) (ps : List Nat) (c d : Chip) : Prop extends Chip.Leaves gs ps c d where
  set : ∀ p b, bit (c.stickyWord p) b = true → bit (d.stickyWord p) b = true
  out : ∀ o ∈ c.out, o ∈ d.out

section
variable {gs : List Fld} {ps : List Nat} {a b c : Chip}

theorem Chip.Compares.refl (c : Chip) : Chip.Compares gs ps c c := ⟨.refl c, fun _ _ h => h, fun _ h => h⟩

theorem Chip.Compares.trans (h : Chip.Compares gs ps a b) (k : Chip.Compares gs ps b c) : Chip.Compares gs ps a c :=
  ⟨h.toLeaves.trans k.toLeaves, fun p i hi => k.set p i (h.set p i hi), fun o ho => k.out o (h.out o ho)⟩

theorem Chip.Compares.widen {hs : List Fld} {qs : List Nat} (h : Chip.Compares gs ps a b) (k : gs ⊆ hs) (l : ps ⊆ qs) :
    Chip.Compares hs qs a b := ⟨h.toLeaves.widen k l, h.set, h.out⟩

theorem Chip.Compares.ite {p : Prop} [Decidable p] (h : p → Chip.Compares gs ps a b) (k : ¬p → Chip.Compares gs ps a c) :
    Chip.Compares gs ps a (if p then b else c) := by
  split
  · exact h ‹_›
  · exact k ‹_›

theorem Chip.Compares.wr (h : Chip.Compares gs ps a b) {f : Fld} (hf : f ∈ gs) (v : Nat) : Chip.Compares gs ps a (b.wr f v) :=
  ⟨h.toLeaves.wr hf v, h.set, h.out⟩

theorem Chip.Compares.stick (h : Chip.Compares gs ps a b) {p : Nat} (hp : p ∈ ps ∨ reactsSticky p = true) (n : Nat) :
    Chip.Compares gs ps a (b.stick p n) :=
  ⟨h.toLeaves.stick hp n, fun q i hi => (b.reacts_stick (cs := []) p n).sticky q i (h.set q i hi), h.out⟩

theorem Chip.Compares.raise (h : Chip.Compares gs ps a b) (src page inst detail : Nat) :
    Chip.Compares gs ps a (b.raise src page inst detail) := ⟨h.toLeaves.raise _ _ _ _, h.set, h.out⟩

theorem Chip.Compares.updTwin (h : Chip.Compares gs ps a b) (f : TwinX → TwinX) : Chip.Compares gs ps a (b.updTwin f) :=
  ⟨h.toLeaves.updTwin f, h.set, h.out⟩

theorem Chip.Compares.judge (h : Chip.Compares gs ps a b) (src page inst detail : Nat) (bad inj : Bool) :
    Chip.Compares gs ps a (b.judge src page inst detail bad inj) := by
  obtain ⟨u, r, e⟩ := b.judge_frame src page inst detail bad inj
  rw [e]
  exact ⟨h.toLeaves.keep rfl rfl, h.set, h.out⟩

theorem Chip.compares_check (c : Chip) (k i real : Nat) : Chip.Compares gs ps c (c.check k i real).c ∧ (c.check k i real).c.twin = c.twin ∧
    (c.check k i real).c.flds = c.flds ∧ (c.check k i real).c.stc = c.stc := by
  unfold Chip.check
  split
  · split
    · have fired (u : Fcu) : Chip.Compares gs ps c (Chip.stick { c with fcu := u } fcuPage 7) :=
        Chip.Compares.stick (b := { c with fcu := u }) ⟨.keep (.refl c) rfl rfl, fun _ _ h => h, fun _ h => h⟩ (.inr rfl) 7
      dsimp only
      split
      · exact ⟨fired _, rfl, rfl, rfl⟩
      · exact ⟨(fired _).stick (.inr rfl) 9, rfl, rfl, rfl⟩
    · exact ⟨.refl c, rfl, rfl, rfl⟩
  · exact ⟨.refl c, rfl, rfl, rfl⟩

theorem Chip.Compares.endDispute (h : Chip.Compares gs ps a b) (hg : Ump.dispute ∈ gs) (hp : umpPage ∈ ps) :
    Chip.Compares gs ps a b.endDispute := by
  have ended := (Chip.Mates.refl b (gs := gs) (ps := ps)).endDispute hg hp
  exact h.trans ⟨ended.toLeaves, ended.set, ended.out⟩

end

/-! ## Units -/

/-- What the Umpire keeps of a unit. -/
def TwinX.unit (t : TwinX) (u : Nat) : UmpUnit := Store.get {} t.umps u

theorem Chip.unit_updUmp (c : Chip) (u : Nat) (f : UmpUnit → UmpUnit) : (c.updUmp u f).twin.unit u = f (c.twin.unit u) :=
  Store.get_set_self _ _ _ _

theorem Chip.Compares.updUmp {gs : List Fld} {ps : List Nat} {a b : Chip} (h : Chip.Compares gs ps a b) (u : Nat) (f : UmpUnit → UmpUnit) :
    Chip.Compares gs ps a (b.updUmp u f) := h.updTwin _

theorem Chip.unit_settle (c : Chip) (u : Nat) : c.settle.twin.unit u = c.twin.unit u := by
  have same := congrArg TwinX.umps c.twin_settle
  exact congrArg (fun m => (Store.get {} m u : UmpUnit)) same

theorem Chip.unit_endDispute (c : Chip) (u : Nat) : c.endDispute.twin.unit u = c.twin.unit u := by
  have ended := (Chip.Mates.refl c (gs := [Ump.dispute]) (ps := [umpPage])).endDispute (by simp) (by simp)
  have same := congrArg TwinX.umps ended.twin
  exact congrArg (fun m => (Store.get {} m u : UmpUnit)) same

/-- Where no own digest has waited too long, its wait goes on. -/
theorem Chip.waitsOver_waiting {c : Chip} {u : Nat} (h : ∀ d ∈ (c.twin.unit u).mine, ¬d.2.2.total ≤ c.stc.total) :
    ∃ m, c.waitsOver u = c.updTwin (fun t => { t with umps := m }) ∧ (c.waitsOver u).twin.unit u = c.twin.unit u := by
  have past : (c.twin.unit u).mine.filter (fun d => decide (d.2.2.total ≤ c.stc.total)) = [] :=
    List.filter_eq_nil_iff.mpr fun d hd k => h d hd (of_decide_eq_true k)
  have rest : (c.twin.unit u).mine.filter (fun d => !decide (d.2.2.total ≤ c.stc.total)) = (c.twin.unit u).mine :=
    List.filter_eq_self.mpr fun d hd => by rw [decide_eq_false (h d hd)]; rfl
  have whole : c.waitsOver u = ((c.twin.unit u).mine.filter (fun d => decide (d.2.2.total ≤ c.stc.total))).foldl (fun c _ => c.umpireGap u)
      (c.updUmp u (fun x => { x with mine := x.mine.filter (fun d => !decide (d.2.2.total ≤ c.stc.total)) })) := rfl
  rw [past] at whole
  refine ⟨_, whole, ?_⟩
  rw [whole]
  refine (c.unit_updUmp u _).trans ?_
  rw [rest]

/-! ## Comparisons (R385, R386) -/

/-- A comparison as its checker sees it. -/
def Chip.judgesUnit (c : Chip) (u label own mate : Nat) : Chip :=
  let i := c.check 11 u (own ^^^ mate)
  let d := i.c.judge 0xC1 umpPage u label (decide (own ≠ mate)) i.inj
  if i.inj ∧ !decide (own ≠ mate) then d.stick umpPage 0 else d

theorem Chip.judgesUnit_shows (c : Chip) (u label own mate : Nat) : (c.judgesUnit u label own mate).flds = c.flds ∧
    (c.judgesUnit u label own mate).twin = c.twin ∧ (c.judgesUnit u label own mate).stc = c.stc ∧
    Chip.Compares [] [umpPage] c (c.judgesUnit u label own mate) := by
  obtain ⟨checked, twin, flds, stc⟩ := c.compares_check (gs := []) (ps := [umpPage]) 11 u (own ^^^ mate)
  have judged := checked.judge 0xC1 umpPage u label (decide (own ≠ mate)) (c.check 11 u (own ^^^ mate)).inj
  obtain ⟨v, r, e⟩ := (c.check 11 u (own ^^^ mate)).c.judge_frame 0xC1 umpPage u label (decide (own ≠ mate)) (c.check 11 u (own ^^^ mate)).inj
  unfold Chip.judgesUnit
  dsimp only
  rw [e] at judged ⊢
  split
  · exact ⟨flds, twin, stc, judged.stick (.inl (List.mem_singleton_self _)) 0⟩
  · exact ⟨flds, twin, stc, judged⟩

/-- What follows a comparison that was equal. -/
def Chip.endsRun (c : Chip) (u : Nat) : Chip :=
  let c := c.updUmp u (fun x => { x with run := 0, gaps := 0, firsts := [] })
  if c.on Ump.dispute ∧ c.rd Ump.dunit = u then
    let c := c.updTwin (fun t => { t with matched := t.matched + 1 })
    if orElse0 (c.rd Ump.dclr) 1 ≤ c.twin.matched then c.endDispute else c
  else c

/-- A mismatch as it is shown, before a dispute. -/
def Chip.showsMismatch (c : Chip) (u label own mate : Nat) (firsts : List Stc) : Chip :=
  let c := c.updUmp u (fun x => { x with run := x.run + 1, gaps := 0, firsts := firsts })
  let c := (((c.wr Ump.lastUnit u).wr Ump.lastLabel label).wr Ump.lastOwn own).wr Ump.lastMate mate
  let c := (c.inc Ump.mismatchCnt).stick umpPage 0
  if c.rd Ump.dunit = u then c.updTwin (fun t => { t with matched := 0 }) else c

/-- Whether a mismatch that comes after `run` others of its unit begins a dispute (R386). -/
def Chip.disputes (c : Chip) (run : Nat) : Prop :=
  3 ≤ run + 1 ∧ !c.on Ump.dispute ∧ c.rd Twin.health ≠ 2 ∧ c.rd Twin.mateHealth ≠ 2

theorem Chip.endsRun_shows (c : Chip) (u : Nat) : ((c.endsRun u).twin.unit u).run = 0 ∧
    (c.endsRun u).rd Ump.mismatchCnt = c.rd Ump.mismatchCnt ∧ Chip.Compares [Ump.dispute] [umpPage] c (c.endsRun u) := by
  have ends := c.unit_updUmp u (fun x => { x with run := 0, gaps := 0, firsts := [] })
  have begun := (Chip.Compares.refl c (gs := [Ump.dispute]) (ps := [umpPage])).updUmp u (fun x => { x with run := 0, gaps := 0, firsts := [] })
  have count : (c.updUmp u (fun x => { x with run := 0, gaps := 0, firsts := [] })).rd Ump.mismatchCnt = c.rd Ump.mismatchCnt := rfl
  unfold Chip.endsRun
  generalize c.updUmp u (fun x => { x with run := 0, gaps := 0, firsts := [] }) = d at *
  have run : (d.twin.unit u).run = 0 := congrArg UmpUnit.run ends
  dsimp only
  split
  · have more := begun.updTwin (fun t => { t with matched := t.matched + 1 })
    have run' : ((d.updTwin (fun t => { t with matched := t.matched + 1 })).twin.unit u).run = 0 := run
    have count' : (d.updTwin (fun t => { t with matched := t.matched + 1 })).rd Ump.mismatchCnt = c.rd Ump.mismatchCnt := count
    generalize d.updTwin (fun t => { t with matched := t.matched + 1 }) = e at *
    split
    · have ended := (Chip.Compares.refl e (gs := [Ump.dispute]) (ps := [umpPage])).endDispute (by simp) (by simp)
      exact ⟨by rw [e.unit_endDispute, run'], (ended.rd _ (by decide) (by decide) (by decide)).trans count', more.trans ended⟩
    · exact ⟨run', count', more⟩
  · exact ⟨run, count, begun⟩

/-- Equal digests end a run of mismatches, and a dispute over the unit once they have been equal often enough. -/
theorem Chip.compareUnit_equal (c : Chip) (u label x : Nat) : ((c.compareUnit u label x x).twin.unit u).run = 0 ∧
    (c.compareUnit u label x x).rd Ump.mismatchCnt = c.rd Ump.mismatchCnt ∧
    Chip.Compares [Ump.dispute] [umpPage] c (c.compareUnit u label x x) := by
  obtain ⟨-, -, -, judged⟩ := c.judgesUnit_shows u label x x
  have same : decide (x ≠ x) = false := decide_eq_false fun h => h rfl
  have whole : c.compareUnit u label x x = (c.judgesUnit u label x x).endsRun u := if_pos (by rw [same]; rfl)
  obtain ⟨run, count, leaves⟩ := (c.judgesUnit u label x x).endsRun_shows u
  rw [whole]
  exact ⟨run, count.trans (judged.rd _ (by decide) (by decide) (by simp)), (judged.widen (List.nil_subset _) (by simp)).trans leaves⟩

/-- The fields that a mismatch shows. -/
def mismatchFields : List Fld := [Ump.lastUnit, Ump.lastLabel, Ump.lastOwn, Ump.lastMate, Ump.mismatchCnt]

theorem Chip.showsMismatch_shows (c : Chip) (u label own mate : Nat) (firsts : List Stc) :
    (c.showsMismatch u label own mate firsts).twin.unit u = { c.twin.unit u with run := (c.twin.unit u).run + 1, gaps := 0, firsts := firsts } ∧
    (c.showsMismatch u label own mate firsts).rd Ump.mismatchCnt = satInc 32 (c.rd Ump.mismatchCnt) ∧
    (c.showsMismatch u label own mate firsts).rd Ump.lastUnit = u % 2 ^ 13 ∧
    (c.showsMismatch u label own mate firsts).rd Ump.lastMate = mate % 2 ^ 32 ∧
    (c.showsMismatch u label own mate firsts).rd Ump.lastLabel = label % 2 ^ 32 ∧
    bit ((c.showsMismatch u label own mate firsts).stickyWord umpPage) 0 = true ∧
    Chip.Compares mismatchFields [umpPage] c (c.showsMismatch u label own mate firsts) := by
  let b := c.updUmp u (fun x => { x with run := x.run + 1, gaps := 0, firsts := firsts })
  let d := (((b.wr Ump.lastUnit u).wr Ump.lastLabel label).wr Ump.lastOwn own).wr Ump.lastMate mate
  let e := (d.inc Ump.mismatchCnt).stick umpPage 0
  have whole : c.showsMismatch u label own mate firsts =
      if e.rd Ump.dunit = u then e.updTwin (fun t => { t with matched := 0 }) else e := rfl
  have first : d.rd Ump.lastUnit = u % 2 ^ 13 := (Chip.rd_wr_ne _ _ (by decide)).trans ((Chip.rd_wr_ne _ _ (by decide)).trans
    ((Chip.rd_wr_ne _ _ (by decide)).trans (b.rd_wr_self _ _)))
  have named : d.rd Ump.lastLabel = label % 2 ^ 32 := (Chip.rd_wr_ne _ _ (by decide)).trans ((Chip.rd_wr_ne _ _ (by decide)).trans
    (Chip.rd_wr_self _ _ _))
  have theirs : d.rd Ump.lastMate = mate % 2 ^ 32 := Chip.rd_wr_self _ _ _
  have before : d.rd Ump.mismatchCnt = b.rd Ump.mismatchCnt := (Chip.rd_wr_ne _ _ (by decide)).trans ((Chip.rd_wr_ne _ _ (by decide)).trans
    ((Chip.rd_wr_ne _ _ (by decide)).trans (Chip.rd_wr_ne _ _ (by decide))))
  have counted : e.rd Ump.mismatchCnt = satInc 32 (c.rd Ump.mismatchCnt) :=
    (Chip.rd_inc_self d Ump.mismatchCnt).trans (congrArg (satInc 32) before)
  have shown {f : Fld} (h : f.key ≠ Ump.mismatchCnt.key) : e.rd f = d.rd f := d.rd_wr_ne _ h
  have marked : bit (e.stickyWord umpPage) 0 = true := Chip.bit_stick (d.inc Ump.mismatchCnt) umpPage 0
  have unit : e.twin.unit u = { c.twin.unit u with run := (c.twin.unit u).run + 1, gaps := 0, firsts := firsts } :=
    c.unit_updUmp u (fun x => { x with run := x.run + 1, gaps := 0, firsts := firsts })
  have begun : Chip.Compares mismatchFields [umpPage] c b := (Chip.Compares.refl c).updUmp u _
  have leaves : Chip.Compares mismatchFields [umpPage] c d := (((begun.wr (f := Ump.lastUnit) (by decide) u).wr (f := Ump.lastLabel)
    (by decide) label).wr (f := Ump.lastOwn) (by decide) own).wr (f := Ump.lastMate) (by decide) mate
  have all : Chip.Compares mismatchFields [umpPage] c e := (leaves.wr (f := Ump.mismatchCnt) (by decide) _).stick (.inl (by simp)) 0
  have first' := (shown (by decide)).trans first
  have named' := (shown (by decide)).trans named
  have theirs' := (shown (by decide)).trans theirs
  rw [whole]
  clear_value e
  split
  · exact ⟨unit, counted, first', theirs', named', marked, all.updTwin _⟩
  · exact ⟨unit, counted, first', theirs', named', marked, all⟩

/-- The fields that the beginning of a dispute shows. -/
def disputeFields : List Fld := [Ump.dispute, Ump.dunit, Ump.attrib, Twin.disputes]

theorem Chip.enterDispute_shows (c : Chip) (u : Nat) (first : Stc) : (c.enterDispute u first).rd Ump.dispute = 1 ∧
    (c.enterDispute u first).rd Ump.dunit = u % 2 ^ 13 ∧ bit ((c.enterDispute u first).stickyWord umpPage) 1 = true ∧
    (c.enterDispute u first).twin.unit u = c.twin.unit u ∧ Chip.Compares disputeFields [umpPage] c (c.enterDispute u first) := by
  let b := ((c.wr Ump.dispute 1).wr Ump.dunit u).wr Ump.attrib 0
  have on_ : b.rd Ump.dispute = 1 := (Chip.rd_wr_ne _ _ (by decide)).trans ((Chip.rd_wr_ne _ _ (by decide)).trans (c.rd_wr_self _ _))
  have which : b.rd Ump.dunit = u % 2 ^ 13 := (Chip.rd_wr_ne _ _ (by decide)).trans (Chip.rd_wr_self _ _ _)
  have leaves : Chip.Compares disputeFields [umpPage] c b := (((Chip.Compares.refl c).wr (f := Ump.dispute) (by decide) 1).wr
    (f := Ump.dunit) (by decide) u).wr (f := Ump.attrib) (by decide) 0
  have same : b.twin = c.twin := rfl
  let begins (win : Option (Stc × Stc)) (t : TwinX) : TwinX := { t with win := win, matched := 0, own := none, mate := none }
  have whole : ∃ win, c.enterDispute u first = (((b.updTwin (begins win)).inc Twin.disputes).raise 0xC0 umpPage u 0).stick umpPage 1 :=
    ⟨_, rfl⟩
  obtain ⟨win, whole⟩ := whole
  rw [whole]
  clear_value b
  have unit : (((b.updTwin (begins win)).inc Twin.disputes).raise 0xC0 umpPage u 0).twin.unit u = c.twin.unit u := by
    show Store.get {} b.twin.umps u = Store.get {} c.twin.umps u
    rw [same]
  exact ⟨(Chip.rd_wr_ne _ _ (by decide)).trans on_, (Chip.rd_wr_ne _ _ (by decide)).trans which, Chip.bit_stick _ _ _, unit,
    (((leaves.updTwin (begins win)).wr (f := Twin.disputes) (by decide) _).raise _ _ _ _).stick (.inl (by simp)) 1⟩

/-- Unequal digests are counted and shown, and may begin a dispute. -/
theorem Chip.compareUnit_unequal (c : Chip) {u label own mate : Nat} (differ : own ≠ mate) :
    ((c.compareUnit u label own mate).twin.unit u).run = (c.twin.unit u).run + 1 ∧
    ((c.compareUnit u label own mate).twin.unit u).mine = (c.twin.unit u).mine ∧
    (c.compareUnit u label own mate).rd Ump.mismatchCnt = satInc 32 (c.rd Ump.mismatchCnt) ∧
    (c.compareUnit u label own mate).rd Ump.lastUnit = u % 2 ^ 13 ∧
    (c.compareUnit u label own mate).rd Ump.lastMate = mate % 2 ^ 32 ∧
    (c.compareUnit u label own mate).rd Ump.lastLabel = label % 2 ^ 32 ∧
    bit ((c.compareUnit u label own mate).stickyWord umpPage) 0 = true ∧
    (c.disputes (c.twin.unit u).run → (c.compareUnit u label own mate).rd Ump.dispute = 1 ∧
      (c.compareUnit u label own mate).rd Ump.dunit = u % 2 ^ 13 ∧ bit ((c.compareUnit u label own mate).stickyWord umpPage) 1 = true) ∧
    Chip.Compares pairFields pairPages c (c.compareUnit u label own mate) := by
  obtain ⟨flds, twin, -, judged⟩ := c.judgesUnit_shows u label own mate
  have bad : decide (own ≠ mate) = true := decide_eq_true differ
  let b := c.judgesUnit u label own mate
  let firsts := ((b.twin.unit u).firsts ++ [b.stc]).drop (((b.twin.unit u).firsts ++ [b.stc]).length - 3)
  let d := b.showsMismatch u label own mate firsts
  have whole : c.compareUnit u label own mate = if 3 ≤ (b.twin.unit u).run + 1 ∧ !d.on Ump.dispute ∧ d.rd Twin.health ≠ 2 ∧
      d.rd Twin.mateHealth ≠ 2 then d.enterDispute u (firsts.headD d.stc) else d := if_neg (by rw [bad]; decide)
  rw [whole]
  have seen (f : Fld) : b.rd f = c.rd f := by
    show (c.judgesUnit u label own mate).rd f = _
    rw [Chip.rd, flds, Chip.rd]
  have unit : b.twin.unit u = c.twin.unit u := congrArg (fun t : TwinX => t.unit u) twin
  have judged' : Chip.Compares [] [umpPage] c b := judged
  clear_value b
  obtain ⟨counts, count, last, theirs, named, marked, shown⟩ := b.showsMismatch_shows u label own mate firsts
  change d.twin.unit u = _ at counts
  change d.rd _ = _ at count last theirs named
  change bit (d.stickyWord umpPage) 0 = true at marked
  change Chip.Compares _ _ b d at shown
  rw [unit] at counts
  rw [seen] at count
  have disputed : (3 ≤ (b.twin.unit u).run + 1 ∧ !d.on Ump.dispute ∧ d.rd Twin.health ≠ 2 ∧ d.rd Twin.mateHealth ≠ 2) ↔
      c.disputes (c.twin.unit u).run := by
    have same {f : Fld} (hf : (f.ok && !reacts f.page && decide (∀ g ∈ mismatchFields, f.key ≠ g.key)) = true) : d.rd f = c.rd f := by
      simp only [Bool.and_eq_true, Bool.not_eq_true', decide_eq_true_eq] at hf
      obtain ⟨⟨ok, still⟩, apart⟩ := hf
      exact (shown.rd f ok still apart).trans (seen f)
    rw [unit, Chip.disputes, Chip.on, Chip.on, same (by decide), same (by decide), same (by decide)]
  have all : Chip.Compares pairFields pairPages c d := (judged'.widen (List.nil_subset _) (by decide)).trans (shown.widen (by decide) (by decide))
  have run : (d.twin.unit u).run = (c.twin.unit u).run + 1 := congrArg UmpUnit.run counts
  have mine : (d.twin.unit u).mine = (c.twin.unit u).mine := (congrArg UmpUnit.mine counts).trans rfl
  clear_value d
  by_cases h : c.disputes (c.twin.unit u).run
  · rw [if_pos (disputed.mpr h)]
    obtain ⟨on_, which, begun, keeps, entered⟩ := d.enterDispute_shows u (firsts.headD d.stc)
    generalize d.enterDispute u (firsts.headD d.stc) = e at *
    have same {f : Fld} (hf : (f.ok && !reacts f.page && decide (∀ g ∈ disputeFields, f.key ≠ g.key)) = true) : e.rd f = d.rd f := by
      simp only [Bool.and_eq_true, Bool.not_eq_true', decide_eq_true_eq] at hf
      obtain ⟨⟨ok, still⟩, apart⟩ := hf
      exact entered.rd f ok still apart
    exact ⟨by rw [keeps, run], by rw [keeps, mine], (same (by decide)).trans count, (same (by decide)).trans last,
      (same (by decide)).trans theirs, (same (by decide)).trans named, entered.set _ _ marked, fun _ => ⟨on_, which, begun⟩,
      all.trans (entered.widen (by decide) (by decide))⟩
  · rw [if_neg fun k => h (disputed.mp k)]
    exact ⟨run, mine, count, last, theirs, named, marked, fun k => absurd k h, all⟩

/-! ## The clauses on digests -/

/-- What a device keeps of the mate's digest of a unit whose own digest is still to come. -/
theorem Chip.mateDigest_kept {c : Chip} {u : Nat} (none_ : (c.twin.unit u).mine = []) (label digest : Nat) :
    ∃ m, c.mateDigest u label digest = c.updTwin (fun t => { t with umps := m }) ∧
      ((c.mateDigest u label digest).twin.unit u).mates = (label, digest) :: (c.twin.unit u).mates := by
  obtain ⟨m, goes, same⟩ := Chip.waitsOver_waiting (c := c) (u := u) (by simp [none_])
  have empty : ((c.waitsOver u).twin.unit u).mine = [] := by rw [same, none_]
  have kept : c.mateDigest u label digest = (c.waitsOver u).updUmp u (fun x => { x with mates := (label, digest) :: x.mates }) := by
    unfold Chip.mateDigest
    unfold TwinX.unit at empty
    simp only [empty, List.find?_nil]
  refine ⟨Store.upd {} m u (fun x => { x with mates := (label, digest) :: x.mates }), by rw [kept, goes]; rfl, ?_⟩
  rw [kept, Chip.unit_updUmp, same]

/-- The mate's digest meets the own one that waits for it. -/
theorem Chip.mateDigest_meets {c : Chip} {u label own : Nat} {at_ : Stc} (waits : (c.twin.unit u).mine = [(label, own, at_)])
    (early : c.stc.total < at_.total) (digest : Nat) : ∃ m, c.mateDigest u label digest =
      (c.updTwin (fun t => { t with umps := m })).compareUnit u label own digest ∧
      (c.updTwin (fun t => { t with umps := m })).twin.unit u = { c.twin.unit u with mine := [] } := by
  obtain ⟨m, goes, same⟩ := Chip.waitsOver_waiting (c := c) (u := u) (by simpa [waits] using early)
  have one : ((c.waitsOver u).twin.unit u).mine = [(label, own, at_)] := by rw [same, waits]
  have found : (((c.waitsOver u).twin.unit u).mine.find? (fun d => decide (d.1 = label))) = some (label, own, at_) := by
    rw [one, List.find?_cons_of_pos (by simp)]
  have taken : ((c.waitsOver u).updUmp u (fun x => { x with mine := x.mine.filter (fun e => decide (e.1 ≠ label)) })).twin.unit u =
      { c.twin.unit u with mine := [] } := by
    rw [Chip.unit_updUmp, same, waits]
    simp
  have meets : c.mateDigest u label digest = ((c.waitsOver u).updUmp u
      (fun x => { x with mine := x.mine.filter (fun e => decide (e.1 ≠ label)) })).compareUnit u label own digest := by
    unfold Chip.mateDigest
    unfold TwinX.unit at found
    simp only [found]
  rw [goes] at meets taken
  exact ⟨_, meets, taken⟩

/-- An own digest for which the mate's has not come waits for it. -/
theorem Chip.ownDigest_waits {c : Chip} {u label : Nat} (none_ : (c.twin.unit u).mine = [])
    (absent : (c.twin.unit u).mates.find? (fun d => decide (d.1 = label)) = none) (own : Nat) :
    ∃ m, c.ownDigest u label own = c.updTwin (fun t => { t with umps := m }) ∧ ((c.ownDigest u label own).twin.unit u).mine =
      [(label, own, c.stc.plus (10000 * orElse0 (c.rd Ump.cmpWait) 1 : Nat))] := by
  obtain ⟨m, goes, same⟩ := Chip.waitsOver_waiting (c := c) (u := u) (by simp [none_])
  have missing : ((c.waitsOver u).twin.unit u).mates.find? (fun d => decide (d.1 = label)) = none := by rw [same, absent]
  have waits : c.ownDigest u label own = (c.waitsOver u).awaitMate u label own := by
    unfold Chip.ownDigest
    unfold TwinX.unit at missing
    simp only [missing]
  have times : (c.waitsOver u).stc = c.stc ∧ (c.waitsOver u).rd Ump.cmpWait = c.rd Ump.cmpWait := by
    rw [goes]
    exact ⟨rfl, rfl⟩
  rw [waits, Chip.awaitMate, times.1, times.2]
  refine ⟨Store.upd {} m u _, by rw [goes]; rfl, ?_⟩
  rw [Chip.unit_updUmp, same, none_]
  rfl

/-- An own digest meets the mate's that has come before. -/
theorem Chip.ownDigest_meets {c : Chip} {u label mate : Nat} (none_ : (c.twin.unit u).mine = [])
    (came : (c.twin.unit u).mates.find? (fun d => decide (d.1 = label)) = some (label, mate)) (own : Nat) :
    ∃ m, c.ownDigest u label own = (c.updTwin (fun t => { t with umps := m })).compareUnit u label own mate ∧
      ((c.updTwin (fun t => { t with umps := m })).twin.unit u).run = (c.twin.unit u).run := by
  obtain ⟨m, goes, same⟩ := Chip.waitsOver_waiting (c := c) (u := u) (by simp [none_])
  have found : ((c.waitsOver u).twin.unit u).mates.find? (fun d => decide (d.1 = label)) = some (label, mate) := by rw [same, came]
  have taken : (((c.waitsOver u).updUmp u (fun x => { x with mates := x.mates.takeWhile (fun e => decide (e.1 ≠ label)) })).twin.unit u).run =
      (c.twin.unit u).run := by
    rw [Chip.unit_updUmp, same]
  have meets : c.ownDigest u label own = ((c.waitsOver u).updUmp u
      (fun x => { x with mates := x.mates.takeWhile (fun e => decide (e.1 ≠ label)) })).compareUnit u label own mate := by
    unfold Chip.ownDigest
    unfold TwinX.unit at found
    simp only [found]
  rw [goes] at meets taken
  exact ⟨_, meets, taken⟩

section
variable {s : State} {u : BitVec 13}

theorem digestCell_kept {label d : BitVec 32} (hs : s.Runs) (hp : s.c.paired = true) (up : s.c.grpState 32 = 6)
    (none_ : (s.c.twin.unit u.toNat).mine = []) : Gives (.digestCell label u [d]) s (fun t =>
      (t.c.twin.unit u.toNat).mates = (label.toNat, d.toNat) :: (s.c.twin.unit u.toNat).mates ∧ Confined [] [] s t) := by
  obtain ⟨m, goes, kept⟩ := Chip.mateDigest_kept (c := s.c.start) none_ label.toNat d.toNat
  have body : s.c.start.digestCell label.toNat u.toNat ([d].map BitVec.toNat) = s.c.start.mateDigest u.toNat label.toNat d.toNat := rfl
  have leaves : Chip.Leaves [] [] s.c.start (s.c.start.mateDigest u.toNat label.toNat d.toNat) := by
    rw [goes]
    exact (Chip.Leaves.refl _).updTwin _
  generalize s.c.start.mateDigest u.toNat label.toNat d.toNat = e at *
  refine gives_of_cell hs hp up (exec_digestCell label u [d] s) body ⟨?_, leaves.confined⟩
  show (e.settle.twin.unit u.toNat).mates = _
  rw [e.unit_settle]
  exact kept

theorem digestCell_differs {label own d : Nat} {at_ : Stc} (hs : s.Runs) (hp : s.c.paired = true) (up : s.c.grpState 32 = 6)
    (hl : label < 4294967296) (hd : d < 4294967296) (waits : (s.c.twin.unit u.toNat).mine = [(label, own, at_)])
    (early : s.c.stc.total < at_.total) (differ : own ≠ d) :
    Gives (.digestCell (BitVec.ofNat 32 label) u [BitVec.ofNat 32 d]) s (fun t =>
      (t.c.twin.unit u.toNat).mine = [] ∧ (t.c.twin.unit u.toNat).run = (s.c.twin.unit u.toNat).run + 1 ∧
      t.c.rd Ump.mismatchCnt = satInc 32 (s.c.rd Ump.mismatchCnt) ∧ t.c.rd Ump.lastUnit = u.toNat ∧ t.c.rd Ump.lastMate = d ∧
      t.c.rd Ump.lastLabel = label ∧ bit (t.c.stickyWord umpPage) 0 = true ∧ Within pairPages s t) := by
  obtain ⟨m, meets, unit⟩ := Chip.mateDigest_meets (c := s.c.start) waits early d
  have body : s.c.start.digestCell (BitVec.ofNat 32 label).toNat u.toNat ([BitVec.ofNat 32 d].map BitVec.toNat) =
      (s.c.start.updTwin (fun t => { t with umps := m })).compareUnit u.toNat label own d := by
    rw [← meets]
    have one : s.c.start.digestCell (BitVec.ofNat 32 label).toNat u.toNat ([BitVec.ofNat 32 d].map BitVec.toNat) =
        s.c.start.mateDigest u.toNat (BitVec.ofNat 32 label).toNat (BitVec.ofNat 32 d).toNat := rfl
    rw [one, BitVec.toNat_ofNat, BitVec.toNat_ofNat, Nat.mod_eq_of_lt hl, Nat.mod_eq_of_lt hd]
  let b := s.c.start.updTwin (fun t => { t with umps := m })
  obtain ⟨run, mine, count, last, theirs, named, marked, -, leaves⟩ := b.compareUnit_unequal (u := u.toNat) (label := label) differ
  have same : b.rd Ump.mismatchCnt = s.c.rd Ump.mismatchCnt := rfl
  have begun : Chip.Leaves pairFields pairPages s.c.start b := (Chip.Leaves.refl _).updTwin _
  change b.twin.unit u.toNat = _ at unit
  rw [unit] at run mine
  rw [same] at count
  change _ = b.compareUnit u.toNat label own d at body
  generalize b.compareUnit u.toNat label own d = e at *
  refine gives_of_cell hs hp up (exec_digestCell _ u _ s) body ⟨?_, ?_, (e.rd_settle (by decide) (by decide)).trans count,
    (e.rd_settle (by decide) (by decide)).trans (last.trans (Nat.mod_eq_of_lt u.isLt)),
    (e.rd_settle (by decide) (by decide)).trans (theirs.trans (Nat.mod_eq_of_lt hd)),
    (e.rd_settle (by decide) (by decide)).trans (named.trans (Nat.mod_eq_of_lt hl)), Chip.bit_stickyWord_settle marked,
    (begun.trans leaves.toLeaves).paired⟩
  · show (e.settle.twin.unit u.toNat).mine = _
    rw [e.unit_settle]
    exact mine
  · show (e.settle.twin.unit u.toNat).run = _
    rw [e.unit_settle]
    exact run

/-- An own digest is sent, and waits or meets the mate's. -/
theorem umpireCompare_sends {label : Nat} {bs : List Nat} {d : Chip} {P : State → Prop} (hs : s.Runs) (hp : s.c.paired = true)
    (on_ : s.c.on Ump.en = true) (comparing : s.c.on Ump.comparing = true) (compared : s.c.unitCompared u.toNat = true)
    (period : s.c.unitPeriod u.toNat = some (label, some bs)) (none_ : (s.c.twin.unit u.toNat).mine = [])
    (hd : (s.c.start.cellOut 4 0 [label, u.toNat + 8192, digestOf bs]).ownDigest u.toNat label (digestOf bs) = d)
    (h : P { s with c := d.settle }) : Gives (.umpireCompare u) s P := by
  have on' : s.c.start.on Ump.en = true := on_
  have comparing' : s.c.start.on Ump.comparing = true := comparing
  have compared' : s.c.start.unitCompared u.toNat = true := compared
  have period' : s.c.start.unitPeriod u.toNat = some (label, some bs) := period
  have idle : s.c.start.awaits u.toNat label = false := by
    have none' : (s.c.start.twin.unit u.toNat).mine = [] := none_
    unfold Chip.awaits
    unfold TwinX.unit at none'
    rw [none', List.any_nil]
  refine gives_of_pair hs hp (exec_umpireCompare u s) ?_ h
  simp only [on', comparing', compared', period', idle, Bool.not_true, Bool.false_eq_true, or_self, if_false]
  exact hd

/-- A device that has sent its digest is as before, but for the cell. -/
theorem Chip.sent_shows (c : Chip) (kind seq : Nat) (ws : List Nat) : (∀ f, (c.cellOut kind seq ws).rd f = c.rd f) ∧
    (c.cellOut kind seq ws).stc = c.stc ∧ (∀ v, (c.cellOut kind seq ws).twin.unit v = c.twin.unit v) ∧
    Out.cell kind seq ws ∈ (c.cellOut kind seq ws).out ∧ Chip.Compares [] [] c (c.cellOut kind seq ws) := by
  have told := (Chip.Mates.refl c (gs := []) (ps := [])).cellOut kind seq ws
  have umps := congrArg TwinX.umps told.twin
  have sent := c.mem_cellOut kind seq ws
  obtain ⟨x, hx⟩ := c.cellOut_frame kind seq ws
  refine ⟨fun f => by rw [hx]; rfl, by rw [hx], fun v => ?_, sent, told.toLeaves, told.set, told.out⟩
  exact congrArg (fun m => (Store.get {} m v : UmpUnit)) umps

theorem umpireCompare_waits {label : Nat} {bs : List Nat} (hs : s.Runs) (hp : s.c.paired = true) (on_ : s.c.on Ump.en = true)
    (comparing : s.c.on Ump.comparing = true) (compared : s.c.unitCompared u.toNat = true)
    (period : s.c.unitPeriod u.toNat = some (label, some bs)) (none_ : (s.c.twin.unit u.toNat).mine = [])
    (absent : (s.c.twin.unit u.toNat).mates.find? (fun d => decide (d.1 = label)) = none) : Gives (.umpireCompare u) s (fun t =>
      (t.c.twin.unit u.toNat).mine = [(label, digestOf bs, s.c.stc.plus (10000 * orElse0 (s.c.rd Ump.cmpWait) 1 : Nat))] ∧
      t.c.rd Ump.gapCnt = s.c.rd Ump.gapCnt ∧ t.c.rd Ump.mismatchCnt = s.c.rd Ump.mismatchCnt ∧
      Out.cell 4 0 [label, u.toNat + 8192, digestOf bs] ∈ t.c.out ∧ Confined [] [] s t) := by
  obtain ⟨shown, stc, units, sent, told⟩ := s.c.start.sent_shows 4 0 [label, u.toNat + 8192, digestOf bs]
  refine umpireCompare_sends hs hp on_ comparing compared period none_ rfl ?_
  generalize s.c.start.cellOut 4 0 [label, u.toNat + 8192, digestOf bs] = b at *
  have unit : b.twin.unit u.toNat = s.c.twin.unit u.toNat := units _
  obtain ⟨m, goes, mine⟩ := Chip.ownDigest_waits (c := b) (u := u.toNat) (label := label) (by rw [unit, none_]) (by rw [unit, absent])
    (digestOf bs)
  have wait : b.rd Ump.cmpWait = s.c.rd Ump.cmpWait := shown _
  have now : b.stc = s.c.stc := stc
  rw [wait, now] at mine
  have kept := told.updTwin (fun t => { t with umps := m })
  rw [← goes] at kept
  have out : Out.cell 4 0 [label, u.toNat + 8192, digestOf bs] ∈ (b.ownDigest u.toNat label (digestOf bs)).out := by
    rw [goes]
    exact sent
  generalize b.ownDigest u.toNat label (digestOf bs) = d at *
  refine ⟨?_, (d.rd_settle (by decide) (by decide)).trans (kept.rd _ (by decide) (by decide) (by simp)),
    (d.rd_settle (by decide) (by decide)).trans (kept.rd _ (by decide) (by decide) (by simp)), Chip.mem_out_settle_any out,
    kept.toLeaves.confined⟩
  show (d.settle.twin.unit u.toNat).mine = _
  rw [d.unit_settle]
  exact mine

theorem umpireCompare_equal {label : Nat} {bs : List Nat} (hs : s.Runs) (hp : s.c.paired = true) (on_ : s.c.on Ump.en = true)
    (comparing : s.c.on Ump.comparing = true) (compared : s.c.unitCompared u.toNat = true)
    (period : s.c.unitPeriod u.toNat = some (label, some bs)) (none_ : (s.c.twin.unit u.toNat).mine = [])
    (came : (s.c.twin.unit u.toNat).mates.find? (fun d => decide (d.1 = label)) = some (label, digestOf bs)) :
    Gives (.umpireCompare u) s (fun t =>
      (t.c.twin.unit u.toNat).run = 0 ∧ t.c.rd Ump.mismatchCnt = s.c.rd Ump.mismatchCnt ∧
      Out.cell 4 0 [label, u.toNat + 8192, digestOf bs] ∈ t.c.out ∧ Within [umpPage] s t) := by
  obtain ⟨shown, -, units, sent, told⟩ := s.c.start.sent_shows 4 0 [label, u.toNat + 8192, digestOf bs]
  refine umpireCompare_sends hs hp on_ comparing compared period none_ rfl ?_
  generalize s.c.start.cellOut 4 0 [label, u.toNat + 8192, digestOf bs] = b at *
  have unit : b.twin.unit u.toNat = s.c.twin.unit u.toNat := units _
  obtain ⟨m, meets, -⟩ := Chip.ownDigest_meets (c := b) (u := u.toNat) (label := label) (by rw [unit, none_]) (by rw [unit, came]) (digestOf bs)
  have taken := told.updTwin (fun t => { t with umps := m })
  obtain ⟨run, count, compares⟩ := (b.updTwin (fun t => { t with umps := m })).compareUnit_equal u.toNat label (digestOf bs)
  have same : (b.updTwin (fun t => { t with umps := m })).rd Ump.mismatchCnt = s.c.rd Ump.mismatchCnt := shown _
  have whole := (taken.widen (hs := [Ump.dispute]) (qs := [umpPage]) (List.nil_subset _) (List.nil_subset _)).trans compares
  have out := compares.out _ sent
  rw [← meets] at run count whole out
  generalize b.ownDigest u.toNat label (digestOf bs) = d at *
  refine ⟨?_, (d.rd_settle (by decide) (by decide)).trans (count.trans same), Chip.mem_out_settle_any out,
    whole.toLeaves.within (fun g hg => ?_) (by simp)⟩
  · show (d.settle.twin.unit u.toNat).run = _
    rw [d.unit_settle]
    exact run
  · obtain rfl := List.mem_singleton.mp hg
    decide

theorem umpireCompare_differs {label mate : Nat} {bs : List Nat} (hs : s.Runs) (hp : s.c.paired = true) (on_ : s.c.on Ump.en = true)
    (comparing : s.c.on Ump.comparing = true) (compared : s.c.unitCompared u.toNat = true)
    (period : s.c.unitPeriod u.toNat = some (label, some bs)) (none_ : (s.c.twin.unit u.toNat).mine = [])
    (came : (s.c.twin.unit u.toNat).mates.find? (fun d => decide (d.1 = label)) = some (label, mate)) (differ : mate ≠ digestOf bs) :
    Gives (.umpireCompare u) s (fun t =>
      (t.c.twin.unit u.toNat).run = (s.c.twin.unit u.toNat).run + 1 ∧
      t.c.rd Ump.mismatchCnt = satInc 32 (s.c.rd Ump.mismatchCnt) ∧ t.c.rd Ump.lastUnit = u.toNat ∧
      t.c.rd Ump.lastMate = mate % 2 ^ 32 ∧ t.c.rd Ump.lastLabel = label % 2 ^ 32 ∧ bit (t.c.stickyWord umpPage) 0 = true ∧
      ((2 ≤ (s.c.twin.unit u.toNat).run ∧ s.c.on Ump.dispute = false ∧ s.c.rd Twin.health ≠ 2 ∧ s.c.rd Twin.mateHealth ≠ 2) →
        t.c.rd Ump.dispute = 1 ∧ t.c.rd Ump.dunit = u.toNat ∧ bit (t.c.stickyWord umpPage) 1 = true) ∧
      Within pairPages s t) := by
  obtain ⟨shown, -, units, -, told⟩ := s.c.start.sent_shows 4 0 [label, u.toNat + 8192, digestOf bs]
  refine umpireCompare_sends hs hp on_ comparing compared period none_ rfl ?_
  generalize s.c.start.cellOut 4 0 [label, u.toNat + 8192, digestOf bs] = b at *
  have unit : b.twin.unit u.toNat = s.c.twin.unit u.toNat := units _
  obtain ⟨m, meets, before⟩ := Chip.ownDigest_meets (c := b) (u := u.toNat) (label := label) (by rw [unit, none_]) (by rw [unit, came])
    (digestOf bs)
  rw [unit] at before
  have taken := told.updTwin (fun t => { t with umps := m })
  have read (f : Fld) : (b.updTwin (fun t => { t with umps := m })).rd f = s.c.rd f := shown f
  rw [meets]
  generalize b.updTwin (fun t => { t with umps := m }) = e at *
  obtain ⟨run, -, count, last, theirs, named, marked, disputed, compares⟩ := e.compareUnit_unequal (u := u.toNat) (label := label)
    (Ne.symm differ)
  have whole := (taken.widen (hs := pairFields) (qs := pairPages) (List.nil_subset _) (List.nil_subset _)).trans compares
  have begins (h : 2 ≤ (s.c.twin.unit u.toNat).run ∧ s.c.on Ump.dispute = false ∧ s.c.rd Twin.health ≠ 2 ∧ s.c.rd Twin.mateHealth ≠ 2) :
      e.disputes (e.twin.unit u.toNat).run := by
    obtain ⟨often, none', own, mates⟩ := h
    have closed : e.on Ump.dispute = false := by
      rw [Chip.on, read]
      exact none'
    exact ⟨by omega, by rw [closed]; rfl, by rw [read]; exact own, by rw [read]; exact mates⟩
  generalize e.compareUnit u.toNat label (digestOf bs) mate = d at *
  refine ⟨?_, (d.rd_settle (by decide) (by decide)).trans (count.trans (by rw [read])),
    (d.rd_settle (by decide) (by decide)).trans (last.trans (Nat.mod_eq_of_lt u.isLt)), (d.rd_settle (by decide) (by decide)).trans theirs,
    (d.rd_settle (by decide) (by decide)).trans named, Chip.bit_stickyWord_settle marked, fun h => ?_, whole.toLeaves.paired⟩
  · show (d.settle.twin.unit u.toNat).run = _
    rw [d.unit_settle, run, before]
  · obtain ⟨open_, which, shown'⟩ := disputed (begins h)
    exact ⟨(d.rd_settle (by decide) (by decide)).trans open_,
      (d.rd_settle (by decide) (by decide)).trans (which.trans (Nat.mod_eq_of_lt u.isLt)), Chip.bit_stickyWord_settle shown'⟩

/-- A comparison without the mate's digest is counted. -/
theorem Chip.umpireGap_shows (c : Chip) (v : Nat) : (c.umpireGap v).twin.unit v = { c.twin.unit v with gaps := (c.twin.unit v).gaps + 1 } ∧
    (c.umpireGap v).rd Ump.gapCnt = satInc 32 (c.rd Ump.gapCnt) ∧ Chip.Compares [Ump.gapCnt] [umpPage] c (c.umpireGap v) := by
  have unit := c.unit_updUmp v (fun x => { x with gaps := x.gaps + 1 })
  have count : ((c.updUmp v (fun x => { x with gaps := x.gaps + 1 })).inc Ump.gapCnt).rd Ump.gapCnt = satInc 32 (c.rd Ump.gapCnt) :=
    Chip.rd_inc_self (c.updUmp v (fun x => { x with gaps := x.gaps + 1 })) Ump.gapCnt
  have leaves : Chip.Compares [Ump.gapCnt] [umpPage] c ((c.updUmp v (fun x => { x with gaps := x.gaps + 1 })).inc Ump.gapCnt) :=
    ((Chip.Compares.refl c).updUmp v _).wr (by simp) _
  have unit' : ((c.updUmp v (fun x => { x with gaps := x.gaps + 1 })).inc Ump.gapCnt).twin.unit v =
      { c.twin.unit v with gaps := (c.twin.unit v).gaps + 1 } := unit
  unfold Chip.umpireGap
  generalize (c.updUmp v (fun x => { x with gaps := x.gaps + 1 })).inc Ump.gapCnt = d at *
  dsimp only
  split
  · exact ⟨unit', count, (leaves.raise _ _ _ _).stick (.inl (by simp)) 2⟩
  · exact ⟨unit', count, leaves⟩

theorem umpireCompare_gap {label own : Nat} {bs : Option (List Nat)} {at_ : Stc} (hs : s.Runs) (hp : s.c.paired = true)
    (on_ : s.c.on Ump.en = true) (comparing : s.c.on Ump.comparing = true) (compared : s.c.unitCompared u.toNat = true)
    (period : s.c.unitPeriod u.toNat = some (label, bs)) (waits : (s.c.twin.unit u.toNat).mine = [(label, own, at_)]) :
    Gives (.umpireCompare u) s (fun t =>
      (t.c.twin.unit u.toNat).mine = [] ∧ t.c.rd Ump.gapCnt = satInc 32 (s.c.rd Ump.gapCnt) ∧
      (t.c.twin.unit u.toNat).gaps = (s.c.twin.unit u.toNat).gaps + 1 ∧ Confined [Ump.gapCnt] [umpPage] s t) := by
  have on' : s.c.start.on Ump.en = true := on_
  have comparing' : s.c.start.on Ump.comparing = true := comparing
  have compared' : s.c.start.unitCompared u.toNat = true := compared
  have period' : s.c.start.unitPeriod u.toNat = some (label, bs) := period
  have waits' : s.c.start.awaits u.toNat label = true := by
    have one : (s.c.start.twin.unit u.toNat).mine = [(label, own, at_)] := waits
    unfold Chip.awaits
    unfold TwinX.unit at one
    rw [one]
    simp
  let b := s.c.start.updUmp u.toNat (fun x => { x with mine := x.mine.filter (fun d => decide (d.1 ≠ label)) })
  have body : (if !s.c.start.on Ump.en ∨ !s.c.start.on Ump.comparing ∨ !s.c.start.unitCompared u.toNat then s.c.start
      else match s.c.start.unitPeriod u.toNat with
      | none => s.c.start
      | some p => if s.c.start.awaits u.toNat p.1 then
          (s.c.start.updUmp u.toNat (fun x => { x with mine := x.mine.filter (fun d => d.1 ≠ p.1) })).umpireGap u.toNat
        else
          let own := match p.2 with
            | some bs => (digestOf bs, s.c.start)
            | none => (s.c.start.fresh.1 % 2 ^ 32, s.c.start.fresh.2)
          (own.2.cellOut 4 0 [p.1, u.toNat + 8192, own.1]).ownDigest u.toNat p.1 own.1) = b.umpireGap u.toNat := by
    simp only [on', comparing', compared', period', waits', Bool.not_true, Bool.false_eq_true, or_self, if_false, if_true]
    rfl
  have taken : b.twin.unit u.toNat = { s.c.twin.unit u.toNat with mine := [] } := by
    refine (s.c.start.unit_updUmp u.toNat _).trans ?_
    have one : s.c.start.twin.unit u.toNat = s.c.twin.unit u.toNat := rfl
    rw [one, waits]
    simp
  have begun : Chip.Compares [Ump.gapCnt] [umpPage] s.c.start b := (Chip.Compares.refl _).updUmp _ _
  have before : b.rd Ump.gapCnt = s.c.rd Ump.gapCnt := rfl
  refine gives_of_pair hs hp (exec_umpireCompare u s) body ?_
  clear body
  clear_value b
  obtain ⟨unit, count, leaves⟩ := b.umpireGap_shows u.toNat
  rw [taken] at unit
  rw [before] at count
  generalize b.umpireGap u.toNat = d at *
  refine ⟨?_, (d.rd_settle (by decide) (by decide)).trans count, ?_, (begun.trans leaves).toLeaves.confined⟩
  · show (d.settle.twin.unit u.toNat).mine = _
    rw [d.unit_settle, unit]
  · show (d.settle.twin.unit u.toNat).gaps = _
    rw [d.unit_settle, unit]

/-! ## Verdicts (R386, R387) -/

theorem Chip.cellOut_waits (c : Chip) (kind seq : Nat) (ws : List Nat) :
    ∃ x, c.cellOut kind seq ws = { c with out := c.out ++ [.cell kind seq ws], twin := { c.twin with tx := x } } := by
  unfold Chip.cellOut
  dsimp only
  split
  · exact ⟨_, rfl⟩
  · exact ⟨c.twin.tx, rfl⟩

/-- A dispute is decided by both verdicts. -/
theorem Chip.decideDispute_waits {c : Chip} (h : c.twin.own = none ∨ c.twin.mate = none) : c.decideDispute = c := by
  unfold Chip.decideDispute
  split
  case h_1 own mate =>
    rcases h with h | h
    · rw [h] at own
      exact absurd own (by simp)
    · rw [h] at mate
      exact absurd mate (by simp)
  case h_2 => rfl

theorem verdictSend_gives {w : Stc × Stc} (hs : s.Runs) (hp : s.c.paired = true) (window : s.c.twin.win = some w)
    (open_ : s.c.on Ump.dispute = true) (first : s.c.twin.own = none) (alone : s.c.twin.mate = none) : Gives .verdictSend s (fun t =>
      t.c.twin.own = some ((s.c.worstInWindow w).isSome, ((s.c.worstInWindow w).map LogEntry.src).getD 0) ∧
      Out.cell 6 0 [5, s.c.rd Ump.dunit, s.c.rd Ump.lastLabel,
        b2n (s.c.worstInWindow w).isSome + 2 * ((s.c.worstInWindow w).map LogEntry.src).getD 0] ∈ t.c.out ∧ Confined [] [] s t) := by
  have window' : s.c.start.twin.win = some w := window
  have open' : s.c.start.on Ump.dispute = true := open_
  have first' : s.c.start.twin.own = none := first
  have judged : s.c.start.worstInWindow w = s.c.worstInWindow w := rfl
  generalize hv : s.c.worstInWindow w = worst at *
  let words := [5, s.c.rd Ump.dunit, s.c.rd Ump.lastLabel, b2n worst.isSome + 2 * (worst.map LogEntry.src).getD 0]
  let b := s.c.start.updTwin (fun t => { t with own := some (worst.isSome, (worst.map LogEntry.src).getD 0) })
  obtain ⟨x, hx⟩ := b.cellOut_waits 6 0 words
  have sent := b.mem_cellOut 6 0 words
  have decided : (b.cellOut 6 0 words).decideDispute = b.cellOut 6 0 words := by
    refine Chip.decideDispute_waits (.inr ?_)
    rw [hx]
    exact alone
  have own : (b.cellOut 6 0 words).twin.own = some (worst.isSome, (worst.map LogEntry.src).getD 0) := by
    rw [hx]
    rfl
  have leaves : Chip.Leaves [] [] s.c.start (b.cellOut 6 0 words) := ((Chip.Leaves.refl _).updTwin _).trans (b.leaves_cellOut _ _ _)
  refine gives_of_pair hs hp (exec_verdictSend s) (d := b.cellOut 6 0 words) ?_ ?_
  · simp only [window', open', first', judged, Bool.not_true, Option.isSome_none, Bool.false_eq_true, or_self, if_false]
    exact decided
  · generalize b.cellOut 6 0 words = d at *
    exact ⟨(congrArg TwinX.own d.twin_settle).trans own, Chip.mem_out_settle_any sent, leaves.confined⟩

/-- The mate's verdict on the unit in dispute. -/
theorem Chip.verdictReceived_taken {c : Chip} {v : Nat} (open_ : c.on Ump.dispute = true) (window : c.twin.win ≠ none)
    (unit : c.rd Ump.dunit = v) (fault : Bool) (src : Nat) :
    c.verdictReceived v fault src = (c.updTwin (fun t => { t with mate := some (fault, src) })).decideDispute :=
  if_pos ⟨open_, Option.isSome_iff_ne_none.mpr window, unit⟩

theorem verdictCell_kept {label : BitVec 32} {fault : Bool} {src : BitVec 8} (hs : s.Runs) (hp : s.c.paired = true)
    (up : s.c.grpState 32 = 6) (open_ : s.c.on Ump.dispute = true) (window : s.c.twin.win ≠ none) (unit : s.c.rd Ump.dunit = u.toNat)
    (first : s.c.twin.own = none) : Gives (.verdictCell u label fault src) s (fun t =>
      t.c.twin.mate = some (fault, src.toNat) ∧ Confined [] [] s t) := by
  have taken := Chip.verdictReceived_taken (c := s.c.start) open_ window unit fault src.toNat
  have decided : (s.c.start.updTwin (fun t => { t with mate := some (fault, src.toNat) })).decideDispute =
      s.c.start.updTwin (fun t => { t with mate := some (fault, src.toNat) }) := Chip.decideDispute_waits (.inl first)
  have leaves : Chip.Leaves [] [] s.c.start (s.c.start.updTwin (fun t => { t with mate := some (fault, src.toNat) })) :=
    (Chip.Leaves.refl _).updTwin _
  have mate : (s.c.start.updTwin (fun t => { t with mate := some (fault, src.toNat) })).twin.mate = some (fault, src.toNat) := rfl
  rw [decided] at taken
  generalize s.c.start.updTwin (fun t => { t with mate := some (fault, src.toNat) }) = d at *
  exact gives_of_cell hs hp up (exec_verdictCell u label fault src s) taken
    ⟨(congrArg TwinX.mate d.twin_settle).trans mate, leaves.confined⟩

/-- The fields that an attribution shows. -/
def attribFields : List Fld := [Ump.attrib, Ump.dispute, Twin.health]

/-- What an attribution does (R387): `code` names the active device with 1, the standby with 2 and neither with 3. -/
def Chip.blames (c : Chip) (code : Nat) : Chip :=
  let c := c.wr Ump.attrib code
  let mine := (code = 1 && activeRole c.pairState) || (code = 2 && c.pairState = 6)
  let c := if mine then c.updTwin (fun t => { t with latched := setBit t.latched 1 true }) else c
  let c := if mine ∧ c.rd Twin.health ≠ 2 then (c.wr Twin.health 2).stick twinPage 12 else c
  let c := if code = 1 then c.dueYield 2 else c
  if code = 3 then c.updTwin (fun t => { t with win := none }) else c.endDispute

/-- Two verdicts name the one who is at fault alone. -/
theorem Chip.decideDispute_both {c : Chip} {a b : Bool × Nat} (own : c.twin.own = some a) (mate : c.twin.mate = some b) :
    c.decideDispute =
      (let fa := if activeRole c.pairState then a.1 else b.1
       let fs := if activeRole c.pairState then b.1 else a.1
       c.blames (if fa && !fs then 1 else if fs && !fa then 2 else 3)) := by
  unfold Chip.decideDispute
  rw [own, mate]
  rfl

/-- The attribution of a dispute to the active device, on that device: it is FAILED and becomes due to yield. -/
theorem Chip.blames_active {c : Chip} (active : c.pairState = 3) (idle : c.yieldDue = 0) (open_ : c.on Ump.dispute = true) :
    (c.blames 1).rd Ump.attrib = 1 ∧ (c.blames 1).yieldDue = 2 ∧ (c.blames 1).rd Ump.dispute = 0 ∧
    (c.blames 1).rd Twin.health = 2 ∧ bit ((c.blames 1).stickyWord umpPage) 3 = true ∧
    Chip.Compares attribFields [umpPage, twinPage] c (c.blames 1) := by
  let b := (c.wr Ump.attrib 1).updTwin (fun t => { t with latched := setBit t.latched 1 true })
  have attrib : b.rd Ump.attrib = 1 := c.rd_wr_self Ump.attrib 1
  have begun : Chip.Compares attribFields [umpPage, twinPage] c b := ((Chip.Compares.refl c).wr (f := Ump.attrib) (by decide) 1).updTwin _
  have wrote : (c.wr Ump.attrib 1).pairState = 3 :=
    (Chip.pairState_congr (c := c) (d := c.wr Ump.attrib 1) rfl (c.rd_wr_ne 1 (by decide))).trans active
  have state : b.pairState = 3 := wrote
  have due : b.yieldDue = 0 := idle
  have disputed : b.rd Ump.dispute = 1 :=
    (c.rd_wr_ne (f := Ump.attrib) (g := Ump.dispute) 1 (by decide)).trans (of_decide_eq_true open_)
  have whole : c.blames 1 = Chip.endDispute (Chip.dueYield (if b.rd Twin.health ≠ 2 then (b.wr Twin.health 2).stick twinPage 12 else b) 2) := by
    unfold Chip.blames
    have own : activeRole 3 = true := rfl
    simp only [wrote, own, decide_true, Bool.true_and, Bool.true_or, if_true, true_and, Nat.reduceEqDiff, if_false]
    rfl
  rw [whole]
  clear whole
  clear_value b
  have failed : ∃ e, (if b.rd Twin.health ≠ 2 then (b.wr Twin.health 2).stick twinPage 12 else b) = e ∧ e.rd Twin.health = 2 ∧
      e.yieldDue = 0 ∧ e.straps = b.straps ∧ Chip.Compares [Twin.health] [twinPage] b e := by
    refine ⟨_, rfl, ?_⟩
    split
    · have shown : ((b.wr Twin.health 2).stick twinPage 12).rd Twin.health = 2 := b.rd_wr_self Twin.health 2
      exact ⟨shown, due, rfl, ((Chip.Compares.refl b).wr (by simp) 2).stick (.inl (by simp)) 12⟩
    · exact ⟨not_not.mp ‹_›, due, rfl, .refl b⟩
  obtain ⟨e, he, health, due', straps, graded⟩ := failed
  rw [he]
  have state' : e.pairState = 3 :=
    (Chip.pairState_congr straps (graded.rd Twin.state (by decide) (by decide) (by decide))).trans state
  have yields : e.dueYield 2 = { e with yieldDue := 2 } := if_pos ⟨state', due'⟩
  rw [yields]
  let f := { e with yieldDue := 2 }
  have kept : Chip.Compares attribFields [umpPage, twinPage] c f := by
    have all := begun.trans (graded.widen (by decide) (by decide))
    exact ⟨all.toLeaves.keep rfl rfl, all.set, all.out⟩
  have read (g : Fld) : f.rd g = e.rd g := rfl
  have soon : f.yieldDue = 2 := rfl
  change (Chip.endDispute f).rd _ = 1 ∧ (Chip.endDispute f).yieldDue = 2 ∧ (Chip.endDispute f).rd _ = 0 ∧ (Chip.endDispute f).rd _ = 2 ∧
    bit ((Chip.endDispute f).stickyWord umpPage) 3 = true ∧ Chip.Compares _ _ c (Chip.endDispute f)
  clear_value f
  have standing : f.on Ump.dispute = true := by
    rw [Chip.on, read, graded.rd _ (by decide) (by decide) (by decide), disputed]
    rfl
  have ended := (Chip.Mates.refl f (gs := [Ump.dispute]) (ps := [umpPage])).endDispute (by simp) (by simp)
  have ends : ∃ g : TwinX → TwinX, f.endDispute = ((f.wr Ump.dispute 0).stick umpPage 3).updTwin g := ⟨_, if_pos standing⟩
  obtain ⟨g, ends⟩ := ends
  have over_ : f.endDispute.rd Ump.dispute = 0 := by
    rw [ends]
    exact f.rd_wr_self Ump.dispute 0
  have marked : bit (f.endDispute.stickyWord umpPage) 3 = true := by
    rw [ends]
    exact Chip.bit_stick (f.wr Ump.dispute 0) umpPage 3
  refine ⟨?_, ended.yieldDue.trans soon, over_, ?_, marked, kept.endDispute (by decide) (by simp)⟩
  · exact (ended.rd _ (by decide) (by decide) (by decide)).trans ((read _).trans
      ((graded.rd _ (by decide) (by decide) (by decide)).trans attrib))
  · exact (ended.rd _ (by decide) (by decide) (by decide)).trans ((read _).trans health)

theorem verdictCell_yields {label : BitVec 32} {src : BitVec 8} {n : Nat} (hs : s.Runs) (hp : s.c.paired = true) (up : s.c.grpState 32 = 6)
    (active : s.c.pairState = 3) (idle : s.c.yieldDue = 0) (open_ : s.c.on Ump.dispute = true) (window : s.c.twin.win ≠ none)
    (unit : s.c.rd Ump.dunit = u.toNat) (own : s.c.twin.own = some (true, n)) : Gives (.verdictCell u label false src) s (fun t =>
      t.c.rd Ump.attrib = 1 ∧ t.c.yieldDue = 2 ∧ t.c.rd Ump.dispute = 0 ∧ t.c.rd Twin.health = 2 ∧
      bit (t.c.stickyWord umpPage) 3 = true ∧ Confined [Ump.attrib, Ump.dispute, Twin.health] [umpPage, twinPage] s t) := by
  have taken := Chip.verdictReceived_taken (c := s.c.start) open_ window unit false src.toNat
  let b := s.c.start.updTwin (fun t => { t with mate := some (false, src.toNat) })
  have active' : b.pairState = 3 := active
  have idle' : b.yieldDue = 0 := idle
  have open' : b.on Ump.dispute = true := open_
  have own' : b.twin.own = some (true, n) := own
  have mate : b.twin.mate = some (false, src.toNat) := rfl
  have begun : Chip.Compares attribFields [umpPage, twinPage] s.c.start b := (Chip.Compares.refl _).updTwin _
  change _ = b.decideDispute at taken
  clear_value b
  have decides : b.decideDispute = b.blames 1 := by
    rw [Chip.decideDispute_both own' mate]
    simp only [active']
    rfl
  rw [decides] at taken
  obtain ⟨attrib, due, closed, health, marked, leaves⟩ := Chip.blames_active active' idle' open'
  generalize b.blames 1 = d at *
  have kept := (d.reacts_settle (cs := d.reports.map fun r => r.src / 16) fun r hr => List.mem_map_of_mem hr).yieldDue
    (.inl (by rw [due]; decide))
  exact gives_of_cell hs hp up (exec_verdictCell u label false src s) taken
    ⟨(d.rd_settle (by decide) (by decide)).trans attrib, kept.trans due, (d.rd_settle (by decide) (by decide)).trans closed,
      (d.rd_settle (by decide) (by decide)).trans health, Chip.bit_stickyWord_settle marked, (begun.trans leaves).toLeaves.confined⟩

theorem verdictTimeout_gives (hs : s.Runs) (hp : s.c.paired = true) (open_ : s.c.on Ump.dispute = true) (window : s.c.twin.win ≠ none)
    (own : s.c.twin.own ≠ none) (alone : s.c.twin.mate = none) : Gives .verdictTimeout s (fun t =>
      t.c.rd Ump.attrib = 3 ∧ t.c.rd Ump.dispute = 1 ∧ t.c.yieldDue = s.c.yieldDue ∧ Confined [Ump.attrib] [] s t) := by
  let d := (s.c.start.wr Ump.attrib 3).updTwin (fun t => { t with win := none })
  have neither : s.c.start.blames 3 = d := by
    unfold Chip.blames
    simp only [Nat.reduceEqDiff, decide_false, Bool.false_and, Bool.or_self, Bool.false_eq_true, false_and, if_false, if_true]
    rfl
  have body : (if s.c.start.on Ump.dispute ∧ s.c.start.twin.win.isSome ∧ s.c.start.twin.own.isSome ∧ s.c.start.twin.mate.isNone then
      s.c.start.blames 3 else s.c.start) = d :=
    (if_pos ⟨open_, Option.isSome_iff_ne_none.mpr window, Option.isSome_iff_ne_none.mpr own, Option.isNone_iff_eq_none.mpr alone⟩).trans neither
  have attrib : d.rd Ump.attrib = 3 := s.c.start.rd_wr_self Ump.attrib 3
  have disputed : d.rd Ump.dispute = 1 :=
    (s.c.start.rd_wr_ne (f := Ump.attrib) (g := Ump.dispute) 3 (by decide)).trans (of_decide_eq_true open_)
  have leaves : Chip.Leaves [Ump.attrib] [] s.c.start d := ((Chip.Leaves.refl _).wr (by simp) 3).updTwin _
  have quiet : d.reports = [] := rfl
  have due : d.yieldDue = s.c.yieldDue := rfl
  refine gives_of_pair hs hp (exec_verdictTimeout s) body ?_
  clear body
  clear_value d
  exact ⟨(d.rd_settle (by decide) (by decide)).trans attrib, (d.rd_settle (by decide) (by decide)).trans disputed,
    (idle_settle d quiet).yieldDue.trans due, leaves.confined⟩

end

/-- Settles O41: digests meet by their label, and a dispute is attributed by both verdicts or by none. -/
theorem umpireRules : Obligations.UmpireRules := fun _ _ =>
  ⟨fun _ _ => digestCell_kept, fun _ _ => umpireCompare_waits, fun _ _ _ _ => umpireCompare_gap, fun _ _ _ _ => digestCell_differs,
    fun _ _ => umpireCompare_equal, fun _ _ _ => umpireCompare_differs, fun _ => verdictSend_gives, fun _ _ _ => verdictCell_kept,
    fun _ _ _ => verdictCell_yields, verdictTimeout_gives⟩

end Sys2Proof.Machine
end

section
/-! SUPPORT. The PTP instances (R354 to R358), which O36 states: what the change of an instance's state, a refused offset and a step of the
STC change. -/

namespace Sys2Proof.Machine

theorem exec_announceReceive (x : Fin 2) (dom p1 p2 cls acc : BitVec 8) (gm : BitVec 64) (variance utc : BitVec 16)
    (utcValid traceable : Bool) (s : State) : exec (.announceReceive x dom gm p1 p2 cls acc variance utc utcValid traceable) s =
      execAnnounceReceive x dom gm p1 p2 cls acc variance utc utcValid traceable s := rfl
theorem exec_ptpAnnounceTimeout (x : Fin 2) (s : State) : exec (.ptpAnnounceTimeout x) s = execPtpAnnounceTimeout x s := rfl
theorem exec_ptpSyncTimeout (x : Fin 2) (s : State) : exec (.ptpSyncTimeout x) s = execPtpSyncTimeout x s := rfl
theorem exec_delayExchange (x : Fin 2) (delay : BitVec 32) (s : State) :
    exec (.delayExchange x delay) s = execDelayExchange x delay s := rfl
theorem exec_ptpRestep (target : BitVec 16) (s : State) : exec (.ptpRestep target) s = execPtpRestep target s := rfl
theorem exec_ptpServoUpdate (x : Fin 2) (ofs : BitVec 96) (s : State) :
    exec (.ptpServoUpdate x ofs) s = execPtpServoUpdate x ofs s := rfl

/-! ## What an instance carries on -/

theorem Chip.ptpInst_congr {c d : Chip} (h : d.mer.ptp = c.mer.ptp) (z : Nat) : d.ptpInst z = c.ptpInst z := by
  rw [Chip.ptpInst, h, Chip.ptpInst]

/-- Between two machines the fields at the places `gs`, those of the pages `ts` and the sticky words of the pages `ps` may differ; sticky
bits stand, the STC as well, and no instance's arming or grandmaster changes. -/
structure Chip.Nets (gs : List Fld) (ts ps : List Nat) (c d : Chip) : Prop where
  rd : ∀ f : Fld, f.ok = true → reacts f.page = false → f.page ∉ ts → (∀ g ∈ gs, f.key ≠ g.key) → d.rd f = c.rd f
  sticky : ∀ p, reactsSticky p = false → p ∉ ps → d.stickyWord p = c.stickyWord p
  set : ∀ p b, bit (c.stickyWord p) b = true → bit (d.stickyWord p) b = true
  stc : d.stc = c.stc
  inst : ∀ z, (d.ptpInst z).armed = (c.ptpInst z).armed ∧ (d.ptpInst z).traceable = (c.ptpInst z).traceable

section
variable {gs : List Fld} {ts ps : List Nat} {a b c : Chip}

theorem Chip.Nets.refl (c : Chip) : Chip.Nets gs ts ps c c :=
  ⟨fun _ _ _ _ _ => rfl, fun _ _ _ => rfl, fun _ _ h => h, rfl, fun _ => ⟨rfl, rfl⟩⟩

theorem Chip.Nets.trans (h : Chip.Nets gs ts ps a b) (k : Chip.Nets gs ts ps b c) : Chip.Nets gs ts ps a c where
  rd f hf hr ht hg := (k.rd f hf hr ht hg).trans (h.rd f hf hr ht hg)
  sticky p hr hp := (k.sticky p hr hp).trans (h.sticky p hr hp)
  set p i hi := k.set p i (h.set p i hi)
  stc := k.stc.trans h.stc
  inst z := ⟨(k.inst z).1.trans (h.inst z).1, (k.inst z).2.trans (h.inst z).2⟩

theorem Chip.Nets.widen {hs : List Fld} {us qs : List Nat} (h : Chip.Nets gs ts ps a b) (k : gs ⊆ hs) (l : ts ⊆ us) (m : ps ⊆ qs) :
    Chip.Nets hs us qs a b :=
  { h with rd := fun f hf hr ht hg => h.rd f hf hr (fun w => ht (l w)) fun g w => hg g (k w)
           sticky := fun p hr hp => h.sticky p hr fun w => hp (m w) }

theorem Chip.Nets.ite {p : Prop} [Decidable p] (h : p → Chip.Nets gs ts ps a b) (k : ¬p → Chip.Nets gs ts ps a c) :
    Chip.Nets gs ts ps a (if p then b else c) := by
  split
  · exact h ‹_›
  · exact k ‹_›

theorem Chip.Nets.foldl {β : Type} {step : Chip → β → Chip} {l : List β} (h : Chip.Nets gs ts ps a b)
    (hstep : ∀ x ∈ l, ∀ d, Chip.Nets gs ts ps d (step d x)) : Chip.Nets gs ts ps a (l.foldl step b) :=
  List.foldlRecOn (motive := Chip.Nets gs ts ps a) l step h fun d hd x hx => hd.trans (hstep x hx d)

theorem Chip.Nets.wr (h : Chip.Nets gs ts ps a b) {f : Fld} (hf : f ∈ gs) (v : Nat) : Chip.Nets gs ts ps a (b.wr f v) :=
  h.trans { Chip.Nets.refl (gs := gs) (ts := ts) (ps := ps) b with rd := fun _ _ _ _ hn => b.rd_wr_ne v (hn f hf) }

theorem Chip.Nets.stick (h : Chip.Nets gs ts ps a b) {p : Nat} (hp : p ∈ ps) (n : Nat) : Chip.Nets gs ts ps a (b.stick p n) :=
  h.trans { Chip.Nets.refl (gs := gs) (ts := ts) (ps := ps) b with
    sticky := fun q _ hn => b.stick_other p n fun e => hn (e ▸ hp)
    set := (Chip.reacts_stick (cs := []) b p n).sticky }

theorem Chip.Nets.raise (h : Chip.Nets gs ts ps a b) (src page inst detail : Nat) :
    Chip.Nets gs ts ps a (b.raise src page inst detail) := h.trans { Chip.Nets.refl b with }

theorem Chip.Nets.judge (h : Chip.Nets gs ts ps a b) (src page inst detail : Nat) (bad inj : Bool) :
    Chip.Nets gs ts ps a (b.judge src page inst detail bad inj) := by
  obtain ⟨u, r, e⟩ := b.judge_frame src page inst detail bad inj
  rw [e]
  exact h.trans { Chip.Nets.refl b with }

theorem Chip.Nets.updMer (h : Chip.Nets gs ts ps a b) {f : Mer → Mer} (hf : (f b.mer).ptp = b.mer.ptp) :
    Chip.Nets gs ts ps a (b.updMer f) :=
  have same (z : Nat) : (b.updMer f).ptpInst z = b.ptpInst z := Chip.ptpInst_congr hf z
  h.trans { Chip.Nets.refl b with inst := fun z => by rw [same z]; exact ⟨rfl, rfl⟩ }

theorem Chip.ptpInst_updPtp (c : Chip) (x z : Nat) (f : PtpInst → PtpInst) :
    (c.updPtp x f).ptpInst z = if z = x then f (c.ptpInst x) else c.ptpInst z := Store.get_set _ _ _ _ _

theorem Chip.Nets.updPtp (h : Chip.Nets gs ts ps a b) (x : Nat) {f : PtpInst → PtpInst}
    (hf : ∀ p, (f p).armed = p.armed ∧ (f p).traceable = p.traceable) : Chip.Nets gs ts ps a (b.updPtp x f) :=
  h.trans { Chip.Nets.refl b with
    inst := fun z => by
      rw [Chip.ptpInst_updPtp]
      split
      case isTrue e => rw [e]; exact hf _
      case isFalse => exact ⟨rfl, rfl⟩ }

theorem Chip.Nets.fresh (h : Chip.Nets gs ts ps a b) : Chip.Nets gs ts ps a b.fresh.2 := h.trans { Chip.Nets.refl b with }

/-- What is of the candidates, the selection and the loop alone. -/
theorem Chip.Nets.times (h : Chip.Nets gs ts ps a b) (k : Chip.Times merPages [] b c) (same : c.mer.ptp = b.mer.ptp) :
    Chip.Nets gs ts ps a c :=
  have insts (z : Nat) : c.ptpInst z = b.ptpInst z := Chip.ptpInst_congr same z
  h.trans
    { rd := fun f hf hr _ _ => k.leaves.rd f hf hr (by simp)
      sticky := fun p hr _ => k.sticky p hr (by simp)
      set := k.set
      stc := by
        obtain ⟨_, _, _, _, _, rfl⟩ := k.frame
        rfl
      inst := fun z => by rw [insts z]; exact ⟨rfl, rfl⟩ }

/-- Fields of the pages `ps` alone keep a command within them. -/
theorem Chip.Nets.within {s : State} {d : Chip} (h : Chip.Nets gs ts ps s.c.start d) (places : ∀ g ∈ gs, g.ok = true ∧ g.page ∈ ps)
    (pages : ts ⊆ ps) : Within ps s { s with c := d.settle } :=
  Within.of_body (fun f hf hr hp => h.rd f hf hr (fun m => hp (pages m)) fun g hg =>
    Fld.key_ne hf (places g hg).1 (.inr (.inl fun e => hp (e ▸ (places g hg).2)))) h.sticky

end

/-! ## Candidates carry on no instance -/

theorem Chip.ptp_candChanged (c : Chip) {i : Nat} (hi : i < 9) : (c.candChanged i).mer.ptp = c.mer.ptp :=
  have same := congrArg Mer.ptp (Chip.Steers.candChanged (.refl c) hi).mer
  same

theorem Chip.ptp_candPresent (c : Chip) {i : Nat} (hi : i < 9) : (c.candPresent i).mer.ptp = c.mer.ptp := by
  unfold Chip.candPresent
  split
  · rfl
  · refine (Chip.ptp_candChanged _ hi).trans ?_
    split <;> rfl

theorem Chip.ptp_candLost (c : Chip) {i : Nat} (hi : i < 9) : (c.candLost i).mer.ptp = c.mer.ptp := by
  rw [Chip.candLost_eq]
  split
  · rfl
  · refine (Chip.ptp_candChanged _ hi).trans ?_
    unfold Chip.reportsLoss
    dsimp only
    split <;> split <;> rfl

section
variable {gs : List Fld} {ts ps : List Nat} {a b c : Chip}

theorem Chip.Nets.candChanged (h : Chip.Nets gs ts ps a b) {i : Nat} (hi : i < 9) : Chip.Nets gs ts ps a (b.candChanged i) :=
  h.times (Chip.Times.steers (.refl b) (Chip.Steers.candChanged (.refl b) hi)) (b.ptp_candChanged hi)

theorem Chip.Nets.ptpCand (h : Chip.Nets gs ts ps a b) (x : Fin 2) : Chip.Nets gs ts ps a (b.ptpCand x) := by
  have place : 4 + x.val < 9 := by omega
  exact .ite (fun _ => h.times (.candPresent (.refl b) place) (b.ptp_candPresent place))
    fun _ => h.times (.candLost (.refl b) place) (b.ptp_candLost place)

/-! ## The state of an instance (R355) -/

/-- The fields that show a refusal. -/
def refusal (x : Fin 2) : List Fld := [Ptp.iRefusing.nth x, Ptp.following]

/-- The fields that a change of state writes. -/
def entered (x : Fin 2) : List Fld := Ptp.iState.nth x :: refusal x

theorem entered_places (x : Fin 2) : ∀ g ∈ entered x, g.ok = true ∧ g.page ∈ [ptpPage] :=
  (by decide : ∀ x : Fin 2, ∀ g ∈ entered x, g.ok = true ∧ g.page ∈ [ptpPage]) x

theorem state_apart (x : Fin 2) : ∀ g ∈ refusal x, (Ptp.iState.nth x).key ≠ g.key :=
  (by decide : ∀ x : Fin 2, ∀ g ∈ refusal x, (Ptp.iState.nth x).key ≠ g.key) x

/-- What the entry to a state changes once the state is shown. -/
theorem Chip.nets_entersPtp (c : Chip) (x : Fin 2) (st : Nat) :
    Chip.Nets (refusal x) [] [ptpPage] (c.wr (Ptp.iState.nth x) st) (c.entersPtp x st) := by
  have began := (Chip.Nets.refl (gs := refusal x) (ts := []) (ps := [ptpPage])
    (c.wr (Ptp.iState.nth x) st)).updPtp x (f := fun p => { p with run := 0, offs := [], adjRun := 0 }) fun _ => ⟨rfl, rfl⟩
  have shown := Chip.Nets.ite (p := st = 3) (fun _ => (began.stick (List.mem_singleton_self ptpPage) 8).updPtp x
    (f := fun p => { p with base := p.ofs }) fun _ => ⟨rfl, rfl⟩) (fun _ => began)
  unfold Chip.entersPtp
  dsimp only
  generalize (if st = 3 then _ else _) = d at shown ⊢
  have kept := shown.updMer (f := fun m => { m with servo := m.servo && (st = 3 || d.rd Ptp.steer ≠ x) }) rfl
  exact Chip.Nets.wr (f := Ptp.following) (.ite (fun _ => kept) fun _ =>
    (kept.wr (f := Ptp.iRefusing.nth x) List.mem_cons_self 0).updPtp x (f := fun p => { p with refuseRun := 0 }) fun _ => ⟨rfl, rfl⟩)
    (by simp [refusal]) _

theorem Chip.Nets.setPtp (h : Chip.Nets gs ts ps a b) (x : Fin 2) (st : Nat) (fields : entered x ⊆ gs) (page : ptpPage ∈ ps) :
    Chip.Nets gs ts ps a (b.setPtp x st) := by
  rw [Chip.setPtp_eq]
  refine .ite (fun _ => h) fun _ => Chip.Nets.ptpCand ?_ x
  exact (h.wr (f := Ptp.iState.nth x) (fields List.mem_cons_self) st).trans
    ((b.nets_entersPtp x st).widen (fun _ m => fields (List.mem_cons_of_mem _ m)) (List.nil_subset _) (by simpa using page))

end

/-- The field that shows an instance's state after a change of it. -/
theorem Chip.rd_state_setPtp (c : Chip) (x : Fin 2) {st : Nat} (small : st < 8) : (c.setPtp x st).rd (Ptp.iState.nth x) = st := by
  obtain ⟨ok, page⟩ := ptp_ok (f := Ptp.iState) x.isLt rfl
  have quiet : reacts (Ptp.iState.nth x).page = false := by rw [page]; rfl
  have written : (c.entersPtp x st).rd (Ptp.iState.nth x) = st :=
    ((c.nets_entersPtp x st).rd _ ok quiet (by simp) (state_apart x)).trans
      ((c.rd_wr_self _ _).trans (Nat.mod_eq_of_lt small))
  rw [Chip.setPtp_eq]
  split
  · assumption
  · exact ((Chip.Nets.ptpCand (gs := []) (ts := []) (ps := []) (.refl _) x).rd _ ok quiet (by simp) (by simp)).trans written

section
variable {s : State} {x : Fin 2}

theorem rd_inst_settle (d : Chip) {f : Fld} (x : Fin 2)
    (hf : (decide (f.page = ptpPage) && decide (f.lo < 32) && decide (f.off + 2 * f.stride < 67108864)) = true) :
    d.settle.rd (f.nth x) = d.rd (f.nth x) := by
  obtain ⟨ok, page⟩ := ptp_ok x.isLt hf
  exact d.rd_settle ok (by rw [page]; rfl)

theorem Chip.ptpInst_settle (d : Chip) (z : Nat) : d.settle.ptpInst z = d.ptpInst z := by
  have same := congrArg Mer.ptp (settled d).mer
  exact Chip.ptpInst_congr same z

theorem announceTimeout_gives (hs : s.Runs) (slave : s.c.rd (Ptp.iState.nth x) = 3) : Gives (.ptpAnnounceTimeout x) s (fun t =>
      t.c.rd (Ptp.iState.nth x) = 1 ∧ bit (t.c.stickyWord ptpPage) 3 = true ∧ Within [ptpPage] s t) := by
  let b := (s.c.start.raise 0xB3 ptpPage x 0).stick ptpPage 3
  have marked : bit (b.stickyWord ptpPage) 3 = true := Chip.bit_stick _ _ _
  have begun : Chip.Nets (entered x) [] [ptpPage] s.c.start b := ((Chip.Nets.refl _).raise _ _ _ _).stick (List.mem_singleton_self _) 3
  have whole := begun.setPtp x 1 (List.Subset.refl _) (List.mem_singleton_self _)
  have left := Chip.Nets.setPtp (.refl b) x 1 (List.Subset.refl _) (List.mem_singleton_self ptpPage) (ts := [])
  exact gives_of_body hs (exec_ptpAnnounceTimeout x s) (d := b.setPtp x 1) (if_pos (.inr slave))
    ⟨(rd_inst_settle (f := Ptp.iState) _ x rfl).trans (b.rd_state_setPtp x (by decide)), Chip.bit_stickyWord_settle (left.set _ _ marked),
      whole.within (entered_places x) (List.nil_subset _)⟩

theorem syncTimeout_gives (hs : s.Runs) (enabled : s.c.on (Ptp.iEn.nth x) = true) (slave : s.c.rd (Ptp.iState.nth x) = 3) :
    Gives (.ptpSyncTimeout x) s (fun t =>
      t.c.rd (Ptp.iState.nth x) = 1 ∧ bit (t.c.stickyWord ptpPage) 2 = true ∧ Within [ptpPage] s t) := by
  let b := (s.c.start.judge 0xB2 ptpPage x 0 true).stick ptpPage 2
  have marked : bit (b.stickyWord ptpPage) 2 = true := Chip.bit_stick _ _ _
  have begun : Chip.Nets (entered x) [] [ptpPage] s.c.start b :=
    ((Chip.Nets.refl _).judge _ _ _ _ _ _).stick (List.mem_singleton_self _) 2
  have state : b.rd (Ptp.iState.nth x) = 3 := by
    obtain ⟨ok, page⟩ := ptp_ok (f := Ptp.iState) x.isLt rfl
    obtain ⟨u, r, e⟩ := s.c.start.judge_frame 0xB2 ptpPage x 0 true false
    show (s.c.start.judge 0xB2 ptpPage x 0 true).rd _ = 3
    rw [e]
    exact slave
  have body : (if s.c.start.on (Ptp.iEn.nth x) ∧ s.c.start.rd (Ptp.iState.nth x) ≠ 4 then
      (if b.rd (Ptp.iState.nth x) = 2 ∨ b.rd (Ptp.iState.nth x) = 3 then b.setPtp x 1 else b) else s.c.start) = b.setPtp x 1 := by
    rw [if_pos ⟨enabled, fun e => absurd (slave.symm.trans e) (by decide)⟩, if_pos (.inr state)]
  have whole := begun.setPtp x 1 (List.Subset.refl _) (List.mem_singleton_self _)
  have left := Chip.Nets.setPtp (.refl b) x 1 (List.Subset.refl _) (List.mem_singleton_self ptpPage) (ts := [])
  exact gives_of_body hs (exec_ptpSyncTimeout x s) (d := b.setPtp x 1) body
    ⟨(rd_inst_settle (f := Ptp.iState) _ x rfl).trans (b.rd_state_setPtp x (by decide)), Chip.bit_stickyWord_settle (left.set _ _ marked),
      whole.within (entered_places x) (List.nil_subset _)⟩

theorem delayExchange_gives {delay : BitVec 32} (hs : s.Runs) (up : 1 ≤ s.c.rd (Ptp.iState.nth x)) (live : s.c.rd (Ptp.iState.nth x) ≤ 3) :
    Gives (.delayExchange x delay) s (fun t =>
      t.c.rd (Ptp.iDelay.nth x) = delay.toNat ∧
      ((delay.toInt < 0 ∨ 256000000 < delay.toInt) → bit (t.c.stickyWord ptpPage) 7 = true) ∧ Confined [Ptp.iDelay.nth x] [ptpPage] s t) := by
  let bad := decide (delay.toInt < 0 ∨ 256000000 < delay.toInt)
  let b := (s.c.start.judge 0xB7 ptpPage x delay.toNat bad).wr (Ptp.iDelay.nth x) delay.toNat
  have shown : b.rd (Ptp.iDelay.nth x) = delay.toNat := (Chip.rd_wr_self _ _ _).trans (Nat.mod_eq_of_lt delay.isLt)
  have begun : Chip.Leaves [Ptp.iDelay.nth x] [ptpPage] s.c.start b :=
    ((Chip.Leaves.refl _).judge _ _ _ _ _ _).wr (List.mem_singleton_self _) _
  have active : ¬(s.c.start.rd (Ptp.iState.nth x) = 0 ∨ s.c.start.rd (Ptp.iState.nth x) = 4) := by
    show ¬(s.c.rd (Ptp.iState.nth x) = 0 ∨ s.c.rd (Ptp.iState.nth x) = 4)
    omega
  refine gives_of_body hs (exec_delayExchange x delay s) (d := if bad then b.stick ptpPage 7 else b) (if_neg active) ?_
  by_cases beyond : delay.toInt < 0 ∨ 256000000 < delay.toInt
  · rw [if_pos (decide_eq_true beyond)]
    exact ⟨(rd_inst_settle (f := Ptp.iDelay) _ x rfl).trans shown, fun _ => Chip.bit_stickyWord_settle (Chip.bit_stick b ptpPage 7),
      (begun.stick (.inl (List.mem_singleton_self _)) 7).confined⟩
  · rw [if_neg (by rwa [decide_eq_true_eq])]
    exact ⟨(rd_inst_settle (f := Ptp.iDelay) _ x rfl).trans shown, fun h => absurd h beyond, begun.confined⟩

/-! ## Re-steps and refusals (R356, R357) -/

/-- A device that is active and sends to no standby takes what is told to it. -/
theorem Chip.ignoresMirrored_alone {c : Chip} (active : c.isStandby = false) (alone : c.mirrors = false) : c.ignoresMirrored = false := by
  have notYielding : c.pairState ≠ 4 := fun h => by simp [Chip.mirrors, h] at alone
  simp [Chip.ignoresMirrored, active, notYielding]

theorem ptpRestep_gives {target : BitVec 16} (hs : s.Runs) (target_ : target.toNat = x) (steers : s.c.rd Ptp.steer = x)
    (slave : s.c.rd (Ptp.iState.nth x) = 3) (active : s.c.isStandby = false) (alone : s.c.mirrors = false) :
    Gives (.ptpRestep target) s (fun t =>
      (t.c.ptpInst x).armed = true ∧ t.c.rd Ptp.restepArmed = 1 ∧ t.c.rd Cmd.state = 3 ∧ t.c.rd Cmd.refuse = 0 ∧
        Confined [Ptp.restepArmed] [cmdPage] s t) := by
  let b := s.c.start.armRestep x true
  have accepted : cmdPtpRestep s.c.start target.toNat = (0, b) := by
    have taken := Chip.ignoresMirrored_alone (c := s.c.start) active alone
    have steers' : s.c.start.rd Ptp.steer = x.val := steers
    have slave' : s.c.start.rd (Ptp.iState.nth x) = 3 := slave
    have own : ¬(s.c.start.rd Ptp.steer ≠ x.val ∨ 1 < x.val) := by omega
    have locked : ¬(s.c.start.rd (Ptp.iState.nth x) ≠ 2 ∧ s.c.start.rd (Ptp.iState.nth x) ≠ 3) := by omega
    rw [target_, cmdPtpRestep, if_neg own, if_neg locked, taken, if_neg (by decide), Chip.decision_alone (c := s.c.start) alone]
  obtain ⟨shown, armed, leaves⟩ := s.c.start.armRestep_shows x.isLt
  change b.rd _ = 1 at shown
  change (b.ptpInst x).armed = true at armed
  change Chip.Leaves [Ptp.restepArmed] [] s.c.start b at leaves
  have quiet : b.reports = [] := rfl
  clear_value b
  let d := b.cmdEnd 0x0B 0
  have whole : Chip.Leaves [Ptp.restepArmed] [cmdPage] s.c.start d :=
    (leaves.widen (List.Subset.refl _) (List.nil_subset _)).cmdEnd (List.mem_singleton_self _) 0x0B 0
  have still : d.reports = [] := quiet
  have kept : d.rd Ptp.restepArmed = b.rd Ptp.restepArmed :=
    (Chip.Leaves.cmdEnd (gs := []) (.refl b) (List.mem_singleton_self cmdPage) 0x0B 0).rd _ rfl rfl (by simp)
  refine gives_of_body hs (exec_ptpRestep target s) (d := d) (by rw [accepted]) ⟨?_, ?_, ?_, ?_, whole.confined⟩
  · rw [Chip.ptpInst_settle]
    exact armed
  · exact (d.rd_settle rfl rfl).trans (kept.trans shown)
  · exact (d.rd_settle_idle still _).trans (b.rd_state_cmdEnd_done 0x0B)
  · exact (d.rd_settle_idle still _).trans (b.rd_refuse_cmdEnd_done 0x0B)

end

/-! ## A new grandmaster (R354) -/

/-- What an instance shows of the grandmaster that it hears. -/
def Chip.hearsMaster (c : Chip) (x : Fin 2) (gm cls acc variance p1 p2 : Nat) (traceable : Bool) : Chip :=
  let c := (c.wr (Ptp.gmIdLo.nth x) (gm % 2 ^ 32)).wr (Ptp.gmIdHi.nth x) (gm / 2 ^ 32)
  let c := ((c.wr (Ptp.gmClass.nth x) cls).wr (Ptp.gmAccuracy.nth x) acc).wr (Ptp.gmVariance.nth x) variance
  (c.wr (Ptp.iQl.nth x) (classQl cls)).updPtp x (fun p => { p with traceable := traceable, prio1 := p1, prio2 := p2 })

/-- The fields that an announce writes, in their order. -/
def announced (x : Fin 2) : List Fld :=
  [Ptp.gmIdLo.nth x, Ptp.gmIdHi.nth x, Ptp.gmClass.nth x, Ptp.gmAccuracy.nth x, Ptp.gmVariance.nth x, Ptp.iQl.nth x]

theorem announced_apart (x : Fin 2) : (announced x).Pairwise (fun f g => f.key ≠ g.key) :=
  (by decide : ∀ x : Fin 2, (announced x).Pairwise (fun f g => f.key ≠ g.key)) x

/-- The fields that follow an announce. -/
def followed (x : Fin 2) : List Fld := [Ptp.utcOfs, Ptp.utcValid] ++ entered x

theorem followed_apart (x : Fin 2) : ∀ f ∈ announced x, f.ok = true ∧ reacts f.page = false ∧ ∀ g ∈ followed x, f.key ≠ g.key :=
  (by decide : ∀ x : Fin 2, ∀ f ∈ announced x, f.ok = true ∧ reacts f.page = false ∧ ∀ g ∈ followed x, f.key ≠ g.key) x

theorem announce_places (x : Fin 2) : ∀ g ∈ announced x ++ followed x, g.ok = true ∧ g.page ∈ [ptpPage] :=
  (by decide : ∀ x : Fin 2, ∀ g ∈ announced x ++ followed x, g.ok = true ∧ g.page ∈ [ptpPage]) x

theorem classQl_lt (k : Nat) : classQl k < 16 := by
  unfold classQl
  split <;> decide

/-- Values are written one after another. -/
def Chip.wrAll (c : Chip) (l : List (Fld × Nat)) : Chip := l.foldl (fun c p => c.wr p.1 p.2) c

theorem Chip.rd_wrAll_ne (c : Chip) {l : List (Fld × Nat)} {f : Fld} (h : ∀ p ∈ l, f.key ≠ p.1.key) : (c.wrAll l).rd f = c.rd f := by
  induction l generalizing c with
  | nil => rfl
  | cons p l ih =>
    exact (ih (c.wr p.1 p.2) fun q m => h q (List.mem_cons_of_mem _ m)).trans (c.rd_wr_ne _ (h p List.mem_cons_self))

/-- Where no place is written twice, each reads as what was written there. -/
theorem Chip.rd_wrAll (c : Chip) {l : List (Fld × Nat)} (apart : l.Pairwise (fun p q => p.1.key ≠ q.1.key)) {f : Fld} {v : Nat}
    (h : (f, v) ∈ l) : (c.wrAll l).rd f = v % 2 ^ f.w := by
  induction l generalizing c with
  | nil => cases h
  | cons p l ih =>
    obtain ⟨first, rest⟩ := List.pairwise_cons.mp apart
    rcases List.mem_cons.mp h with rfl | m
    · exact ((c.wr f v).rd_wrAll_ne first).trans (c.rd_wr_self f v)
    · exact ih (c.wr p.1 p.2) rest m

section
variable {c : Chip} {x : Fin 2} {gm cls acc variance p1 p2 : Nat} {traceable : Bool}

theorem Chip.hearsMaster_shows (gmSmall : gm < 2 ^ 64) (clsSmall : cls < 2 ^ 8) :
    (c.hearsMaster x gm cls acc variance p1 p2 traceable).rd (Ptp.gmIdLo.nth x) = gm % 2 ^ 32 ∧
    (c.hearsMaster x gm cls acc variance p1 p2 traceable).rd (Ptp.gmIdHi.nth x) = gm / 2 ^ 32 ∧
    (c.hearsMaster x gm cls acc variance p1 p2 traceable).rd (Ptp.gmClass.nth x) = cls ∧
    (c.hearsMaster x gm cls acc variance p1 p2 traceable).rd (Ptp.iQl.nth x) = classQl cls ∧
    ((c.hearsMaster x gm cls acc variance p1 p2 traceable).ptpInst x).traceable = traceable := by
  let l := (announced x).zip [gm % 2 ^ 32, gm / 2 ^ 32, cls, acc, variance, classQl cls]
  have whole : c.hearsMaster x gm cls acc variance p1 p2 traceable =
      (c.wrAll l).updPtp x (fun p => { p with traceable := traceable, prio1 := p1, prio2 := p2 }) := rfl
  have apart : l.Pairwise (fun p q => p.1.key ≠ q.1.key) :=
    (List.pairwise_map (f := Prod.fst) (R := fun f g : Fld => f.key ≠ g.key)).mp (announced_apart x)
  have shown {f : Fld} {v : Nat} (m : (f, v) ∈ l) (small : v < 2 ^ f.w) :
      (c.hearsMaster x gm cls acc variance p1 p2 traceable).rd f = v := by
    rw [whole]
    exact (c.rd_wrAll apart m).trans (Nat.mod_eq_of_lt small)
  refine ⟨shown (f := Ptp.gmIdLo.nth x) (by simp [l, announced]) (Nat.mod_lt _ (by decide)),
    shown (f := Ptp.gmIdHi.nth x) (by simp [l, announced]) (by show gm / 2 ^ 32 < 2 ^ 32; omega),
    shown (f := Ptp.gmClass.nth x) (by simp [l, announced]) clsSmall, shown (f := Ptp.iQl.nth x) (by simp [l, announced]) (classQl_lt cls), ?_⟩
  rw [whole, Chip.ptpInst_updPtp, if_pos rfl]

end

theorem Chip.rd_hearsMaster_other (c : Chip) (x : Fin 2) (gm cls acc variance p1 p2 : Nat) (traceable : Bool) {f : Fld}
    (h : ∀ g ∈ announced x, f.key ≠ g.key) : (c.hearsMaster x gm cls acc variance p1 p2 traceable).rd f = c.rd f :=
  c.rd_wrAll_ne (l := (announced x).zip [gm % 2 ^ 32, gm / 2 ^ 32, cls, acc, variance, classQl cls]) fun p m =>
    h p.1 (List.of_mem_zip m).1

section
variable {s : State} {x : Fin 2}

theorem announce_listening {dom p1 p2 cls acc : BitVec 8} {gm : BitVec 64} {variance utc : BitVec 16} {utcValid traceable : Bool}
    (hs : s.Runs) (listens : s.c.rd (Ptp.iState.nth x) = 1) (own : dom.toNat = s.c.rd (Ptp.iDomain.nth x)) :
    Gives (.announceReceive x dom gm p1 p2 cls acc variance utc utcValid traceable) s (fun t =>
      t.c.rd (Ptp.iState.nth x) = 2 ∧ t.c.rd (Ptp.gmIdLo.nth x) = gm.toNat % 2 ^ 32 ∧ t.c.rd (Ptp.gmIdHi.nth x) = gm.toNat / 2 ^ 32 ∧
      t.c.rd (Ptp.gmClass.nth x) = cls.toNat ∧ t.c.rd (Ptp.iQl.nth x) = classQl cls.toNat ∧ (t.c.ptpInst x).traceable = traceable ∧
      Within [ptpPage] s t) := by
  let b := s.c.start.hearsMaster x gm.toNat cls.toNat acc.toNat variance.toNat p1.toNat p2.toNat traceable
  let e := if b.rd Ptp.steer = x.val then (b.wr Ptp.utcOfs utc.toNat).wr Ptp.utcValid (b2n utcValid) else b
  obtain ⟨lo, hi, class_, ql, trace⟩ := s.c.start.hearsMaster_shows (x := x) (acc := acc.toNat) (variance := variance.toNat)
    (p1 := p1.toNat) (p2 := p2.toNat) (traceable := traceable) gm.isLt cls.isLt
  have body : (fun c : Chip =>
      let st := c.rd (Ptp.iState.nth x)
      let same := gm.toNat = c.rd (Ptp.gmIdLo.nth x) + 2 ^ 32 * c.rd (Ptp.gmIdHi.nth x)
      let better := dataSet p1.toNat cls.toNat acc.toNat variance.toNat p2.toNat gm.toNat < c.ownDataSet x
      if st = 0 ∨ st = 4 ∨ dom.toNat ≠ c.rd (Ptp.iDomain.nth x) ∨ (st ≠ 1 ∧ !(same || better)) then c
      else
        let changed := st ≠ 1 ∧ !same
        let c := c.hearsMaster x gm.toNat cls.toNat acc.toNat variance.toNat p1.toNat p2.toNat traceable
        let c := if c.rd Ptp.steer = x.val then (c.wr Ptp.utcOfs utc.toNat).wr Ptp.utcValid (b2n utcValid) else c
        let c := if changed then (c.raise 0xB4 ptpPage x 0).stick ptpPage 4 else c
        let c := if st = 1 ∨ changed then c.setPtp x 2 else c
        c.candChanged (4 + x)) s.c.start = (e.setPtp x 2).candChanged (4 + x) := by
    have st : s.c.start.rd (Ptp.iState.nth x) = 1 := listens
    have dom_ : dom.toNat = s.c.start.rd (Ptp.iDomain.nth x) := own
    dsimp only
    rw [if_neg (by simp [st, dom_]), if_pos (.inl st), if_neg (fun h => h.1 st)]
  have rest : Chip.Nets (followed x) [] [ptpPage] b ((e.setPtp x 2).candChanged (4 + x)) := by
    refine Chip.Nets.candChanged (Chip.Nets.setPtp ?_ x 2 (fun _ m => List.mem_append_right _ m) (List.mem_singleton_self _)) (by omega)
    exact .ite (fun _ => ((Chip.Nets.refl b).wr (f := Ptp.utcOfs) (by simp [followed]) _).wr (f := Ptp.utcValid) (by simp [followed]) _)
      fun _ => .refl b
  have state : ((e.setPtp x 2).candChanged (4 + x)).rd (Ptp.iState.nth x) = 2 := by
    obtain ⟨ok, page⟩ := ptp_ok (f := Ptp.iState) x.isLt rfl
    have kept := Chip.Nets.candChanged (.refl (gs := []) (ts := []) (ps := []) (e.setPtp x 2)) (i := 4 + x) (by omega)
    exact (kept.rd _ ok (by rw [page]; rfl) (by simp) (by simp)).trans (e.rd_state_setPtp x (by decide))
  have first {f : Fld} (h : ∀ g ∈ announced x, f.key ≠ g.key) : b.rd f = s.c.start.rd f :=
    s.c.start.rd_hearsMaster_other x gm.toNat cls.toNat acc.toNat variance.toNat p1.toNat p2.toNat traceable h
  change b.rd _ = _ at lo hi class_ ql
  change (b.ptpInst x).traceable = traceable at trace
  have unstuck : b.sticky = s.c.start.sticky := rfl
  clear_value b
  generalize (e.setPtp x 2).candChanged (4 + x) = d at *
  have shown {f : Fld} {v : Nat} (m : f ∈ announced x) (h : b.rd f = v) : d.settle.rd f = v := by
    obtain ⟨ok, quiet, apart⟩ := followed_apart x f m
    exact (d.rd_settle ok quiet).trans ((rest.rd f ok quiet (by simp) apart).trans h)
  refine gives_of_body hs (exec_announceReceive x dom p1 p2 cls acc gm variance utc utcValid traceable s) body
    ⟨(rd_inst_settle (f := Ptp.iState) _ x rfl).trans state, shown (by simp [announced]) lo, shown (by simp [announced]) hi,
      shown (by simp [announced]) class_, shown (by simp [announced]) ql, ?_, Within.of_body (fun f hf hr hp => ?_) fun p hr hp => ?_⟩
  · rw [Chip.ptpInst_settle]
    exact (rest.inst x).2.trans trace
  · have apart : ∀ g ∈ announced x ++ followed x, f.key ≠ g.key := fun g hg =>
      Fld.key_ne hf (announce_places x g hg).1 (.inr (.inl fun e => hp (e ▸ (announce_places x g hg).2)))
    exact (rest.rd f hf hr (by simp) fun g m => apart g (List.mem_append_right _ m)).trans
      (first fun g m => apart g (List.mem_append_left _ m))
  · exact (rest.sticky p hr hp).trans (congrArg (fun w => Store.get 0 w p) unstuck)

theorem announce_foreign {dom p1 p2 cls acc : BitVec 8} {gm : BitVec 64} {variance utc : BitVec 16} {utcValid traceable : Bool}
    (hs : s.Runs) (other : dom.toNat ≠ s.c.rd (Ptp.iDomain.nth x)) :
    Gives (.announceReceive x dom gm p1 p2 cls acc variance utc utcValid traceable) s (fun t =>
      t.c.mer = s.c.mer ∧ Confined [] [] s t) :=
  gives_of_body hs (exec_announceReceive x dom p1 p2 cls acc gm variance utc utcValid traceable s) (d := s.c.start)
    (if_pos (.inr (.inr (.inl other)))) ⟨(idle_settle s.c.start rfl).mer, Chip.Leaves.confined (.refl s.c.start)⟩

end

/-! ## Offsets (R356, R357, R360) -/

theorem Chip.Nets.setOfs {gs : List Fld} {ts ps : List Nat} {a b : Chip} (h : Chip.Nets gs ts ps a b) {x : Nat}
    (hg : Ptp.iOfs.nth x ∈ gs) (v : Int) : Chip.Nets gs ts ps a (b.setOfs x v) := by
  have kept := h.updPtp x (f := fun p => { p with ofs := v }) fun _ => ⟨rfl, rfl⟩
  unfold Chip.setOfs
  exact .ite (fun _ => kept.wr hg _) fun _ => kept.fresh.wr hg _

theorem Chip.ptp_cmpCheck (c : Chip) (amcBase : Bool) : (c.cmpCheck amcBase).mer.ptp = c.mer.ptp := by
  have pulse (d : Chip) (n : Nat) : (d.pulseStart n).mer.ptp = d.mer.ptp := by
    unfold Chip.pulseStart
    split <;> rfl
  have fire (d : Chip) (u : Nat) : (d.cmpFire u).mer.ptp = d.mer.ptp := by
    unfold Chip.cmpFire
    dsimp only
    split
    · exact pulse _ _
    · rfl
  unfold Chip.cmpCheck
  refine List.foldlRecOn (motive := fun d : Chip => d.mer.ptp = c.mer.ptp) _ _ rfl fun d hd u _ => ?_
  split
  · exact (fire d u).trans hd
  · exact hd

theorem Chip.set_cmpCheck (c : Chip) (amcBase : Bool) (p b : Nat) (h : bit (c.stickyWord p) b = true) :
    bit ((c.cmpCheck amcBase).stickyWord p) b = true := by
  unfold Chip.cmpCheck
  refine List.foldlRecOn (motive := fun d : Chip => bit (d.stickyWord p) b = true) _ _ h fun d hd u _ => ?_
  split
  · have marked : bit (((d.wr (Time.cArm.nth u) 0).stick timePage u).stickyWord p) b = true :=
      (Chip.reacts_stick (cs := []) (d.wr (Time.cArm.nth u) 0) timePage u).sticky p b hd
    unfold Chip.cmpFire
    dsimp only
    split
    · rw [Chip.stickyWord, (Chip.pulseStart_keeps _ _).2.1]
      exact marked
    · exact marked
  · exact hd

/-- The STEP entry of the event FIFO, and the compare units that a step passes, are of the page of TIME. -/
theorem Chip.nets_pushEvent (c : Chip) (source : Nat) (fall : Bool) (t : Stc) :
    Chip.Nets [] [timePage] [timePage] c (c.pushEvent source fall t) := by
  have onTime {b : Chip} (h : Chip.Nets [] [timePage] [timePage] c b) {f : Fld} (hf : (f.ok && decide (f.page = timePage)) = true)
      (v : Nat) : Chip.Nets [] [timePage] [timePage] c (b.wr f v) := by
    obtain ⟨ok, page⟩ := Bool.and_eq_true_iff.mp hf
    exact h.trans { Chip.Nets.refl (gs := []) (ts := [timePage]) (ps := [timePage]) b with
      rd := fun g hg _ ht _ => b.rd_wr_other v ok hg (.inr (.inl fun e => ht (by rw [e, of_decide_eq_true page]; simp))) }
  have word {b : Chip} (h : Chip.Nets [] [timePage] [timePage] c b) {j : Nat} (hj : j < 1024) (v : Nat) :
      Chip.Nets [] [timePage] [timePage] c (b.wr (Time.evt.nth j) v) :=
    onTime h (Bool.and_eq_true_iff.mpr ⟨(evt_apart hj).1, rfl⟩) v
  have small : c.rd Time.evtWptr < 256 := c.rd_lt Time.evtWptr
  unfold Chip.pushEvent
  dsimp only
  refine .ite (fun _ => ?_) fun _ => ?_
  · exact (((onTime (.refl c) (f := Time.evtLost) rfl _).stick (List.mem_singleton_self _) 8).raise _ _ _ _).updMer rfl
  · exact ((onTime (word (word (word (word (.refl c) (by omega) _) (by omega) _) (by omega) _) (by omega) _)
      (f := Time.evtWptr) rfl _).stick (List.mem_singleton_self _) 11).updMer rfl

theorem Chip.nets_cmpCheck (c : Chip) (amcBase : Bool) : Chip.Nets [] [timePage] [timePage] c (c.cmpCheck amcBase) where
  rd f hf _ ht _ := (c.fires_cmpCheck amcBase).rd f hf (by simpa using ht)
  sticky p _ hp := (c.fires_cmpCheck amcBase).sticky p (by simpa using hp)
  set := c.set_cmpCheck amcBase
  stc := (c.fires_cmpCheck amcBase).stc
  inst z := by rw [Chip.ptpInst_congr (c.ptp_cmpCheck amcBase) z]; exact ⟨rfl, rfl⟩

theorem Chip.nets_loadAmc {gs : List Fld} {ts ps : List Nat} (c : Chip) (n : Nat) :
    Chip.Nets gs ts ps c ((c.loadAmc n).updMer (fun m => { m with amcLoaded := true })) :=
  ⟨fun _ _ _ _ _ => rfl, fun _ _ _ => rfl, fun _ _ h => h, rfl, fun _ => ⟨rfl, rfl⟩⟩

/-- The offsets that a step moves. -/
def offsets : List Fld := [Ptp.iOfs.nth 0, Ptp.iOfs.nth 1]

/-- What a step changes beside the STC. -/
theorem Chip.nets_stepStc (c : Chip) (x : Nat) (d : Int) :
    Chip.Nets offsets [timePage] [timePage, ptpPage] { c with stc := Stc.ofTotal (c.stc.total + 256 * d) } (c.stepStc x d) ∧
    bit ((c.stepStc x d).stickyWord ptpPage) 5 = true := by
  let a := { c with stc := Stc.ofTotal (c.stc.total + 256 * d) }
  let b := [0, 1].foldl (fun c x => c.setOfs x ((c.ptpInst x).ofs - d)) a
  let e := b.pushEvent 31 false b.stc
  let g := if 0 ≤ d then e.cmpCheck false else e
  let h := if !g.enabled schedPage ∧ !g.mer.amcLoaded then
      (g.loadAmc g.mediaClock).updMer (fun m => { m with amcLoaded := true }) else g
  have whole : c.stepStc x d = (h.raise 0xB5 ptpPage x 0).stick ptpPage 5 := rfl
  have moved : Chip.Nets offsets [timePage] [timePage, ptpPage] a b :=
    Chip.Nets.foldl (.refl a) fun y m d => Chip.Nets.setOfs (.refl d) (by simp at m; rcases m with rfl | rfl <;> simp [offsets]) _
  have onTime {p q : Chip} (k : Chip.Nets [] [timePage] [timePage] p q) : Chip.Nets offsets [timePage] [timePage, ptpPage] p q :=
    k.widen (List.nil_subset _) (List.Subset.refl _) (by simp)
  have passed : Chip.Nets offsets [timePage] [timePage, ptpPage] e g :=
    .ite (fun _ => onTime (e.nets_cmpCheck false)) fun _ => .refl e
  have loaded : Chip.Nets offsets [timePage] [timePage, ptpPage] g h :=
    .ite (fun _ => g.nets_loadAmc _) fun _ => .refl g
  rw [whole]
  exact ⟨((((moved.trans (onTime (b.nets_pushEvent _ _ _))).trans passed).trans loaded).raise _ _ _ _).stick (by simp) 5,
    Chip.bit_stick _ _ _⟩

theorem Chip.Nets.endRefusal {gs : List Fld} {ts ps : List Nat} {a b : Chip} (h : Chip.Nets gs ts ps a b) (x : Fin 2)
    (fields : refusal x ⊆ gs) : Chip.Nets gs ts ps a (b.endRefusal x) := by
  unfold Chip.endRefusal
  exact Chip.Nets.ptpCand (((h.wr (f := Ptp.iRefusing.nth x) (fields (by simp [refusal])) 0).updPtp x
    (f := fun p => { p with refuseRun := 0 }) fun _ => ⟨rfl, rfl⟩).wr (f := Ptp.following) (fields (by simp [refusal])) _) x

/-- A re-step is over. -/
theorem Chip.armRestep_off (c : Chip) {x : Nat} : ((c.armRestep x false).ptpInst x).armed = false := by
  have own : ((c.updPtp x (fun p => { p with armed := false })).ptpInst x).armed = false := by
    rw [Chip.ptpInst_updPtp, if_pos rfl]
  exact own

/-- A re-step is armed in a field of its own. -/
theorem Chip.rd_armRestep_ne (c : Chip) (x : Nat) (on : Bool) {f : Fld} (h : f.key ≠ Ptp.restepArmed.key) :
    (c.armRestep x on).rd f = c.rd f := c.rd_wr_ne _ h

/-- An offset that is refused, before its run is judged. -/
def Chip.refusesOffset (c : Chip) (x : Nat) : Chip :=
  let d := (c.updPtp x (fun p => { p with refuseRun := (c.ptpInst x).refuseRun + 1, run := 0 })).updMer
    (fun m => { m with servo := m.servo && c.rd Ptp.steer ≠ x })
  ((d.wr (Ptp.iRefusing.nth x) 1).inc (Ptp.refused.nth x)).stick ptpPage 0

/-- The fields of a refused offset. -/
def refusedFields (x : Fin 2) : List Fld := [Ptp.iRefusing.nth x, Ptp.refused.nth x, Ptp.following]

theorem Chip.nets_refusesOffset (c : Chip) (x : Fin 2) : Chip.Nets (refusedFields x) [] [ptpPage] c (c.refusesOffset x) := by
  have noted := ((Chip.Nets.refl (gs := refusedFields x) (ts := []) (ps := [ptpPage]) c).updPtp x
    (f := fun p => { p with refuseRun := (c.ptpInst x).refuseRun + 1, run := 0 }) fun _ => ⟨rfl, rfl⟩).updMer
    (f := fun m => { m with servo := m.servo && c.rd Ptp.steer ≠ x }) rfl
  exact ((noted.wr (f := Ptp.iRefusing.nth x) (by simp [refusedFields]) 1).wr (f := Ptp.refused.nth x)
    (by simp [refusedFields]) _).stick (List.mem_singleton_self _) 0

theorem refused_apart (x : Fin 2) : (Ptp.iRefusing.nth x).key ≠ (Ptp.refused.nth x).key ∧
    (Ptp.refused.nth x).key ≠ (Ptp.iRefusing.nth x).key ∧ (Ptp.iRefusing.nth x).key ≠ Ptp.following.key ∧
    (Ptp.refused.nth x).key ≠ Ptp.following.key :=
  (by decide : ∀ x : Fin 2, (Ptp.iRefusing.nth x).key ≠ (Ptp.refused.nth x).key ∧
    (Ptp.refused.nth x).key ≠ (Ptp.iRefusing.nth x).key ∧ (Ptp.iRefusing.nth x).key ≠ Ptp.following.key ∧
    (Ptp.refused.nth x).key ≠ Ptp.following.key) x

theorem Chip.refusesOffset_shows (c : Chip) (x : Fin 2) : (c.refusesOffset x).rd (Ptp.iRefusing.nth x) = 1 ∧
    (c.refusesOffset x).rd (Ptp.refused.nth x) = satInc 32 (c.rd (Ptp.refused.nth x)) ∧
    bit ((c.refusesOffset x).stickyWord ptpPage) 0 = true := by
  obtain ⟨apart, apart', -, -⟩ := refused_apart x
  let d := ((c.updPtp x (fun p => { p with refuseRun := (c.ptpInst x).refuseRun + 1, run := 0 })).updMer
    (fun m => { m with servo := m.servo && c.rd Ptp.steer ≠ x })).wr (Ptp.iRefusing.nth x) 1
  have before : d.rd (Ptp.refused.nth x) = c.rd (Ptp.refused.nth x) := Chip.rd_wr_ne _ _ apart'
  refine ⟨(d.rd_wr_ne _ apart).trans (Chip.rd_wr_self _ _ _), (d.rd_inc_self (Ptp.refused.nth x)).trans ?_, Chip.bit_stick _ _ _⟩
  rw [before]
  rfl

theorem Chip.refuseOffset_eq (c : Chip) (x : Fin 2) : c.refuseOffset x =
    (let d := if (c.ptpInst x).refuseRun + 1 = orElse0 ((c.refusesOffset x).rd Ptp.jumpN) 1 then
        ((c.refusesOffset x).raise 0xB1 ptpPage x 0).stick ptpPage 1 else c.refusesOffset x
     (d.wr Ptp.following (b2n d.rateFollows)).ptpCand x) := rfl

theorem Chip.nets_refuseOffset (c : Chip) (x : Fin 2) :
    Chip.Nets [Ptp.following] [] [ptpPage] (c.refusesOffset x) (c.refuseOffset x) := by
  rw [Chip.refuseOffset_eq]
  have counted (d : Chip) (p : Prop) [Decidable p] : Chip.Nets [Ptp.following] [] [ptpPage] d
      (if p then (d.raise 0xB1 ptpPage x 0).stick ptpPage 1 else d) :=
    .ite (fun _ => ((Chip.Nets.refl d).raise _ _ _ _).stick (List.mem_singleton_self _) 1) fun _ => .refl d
  exact Chip.Nets.ptpCand ((counted _ _).wr (List.mem_singleton_self _) _) x

/-- The machine that a sync of an instance has come to. -/
def Chip.hasSynced (c : Chip) (x : Nat) (ofs : Int) : Chip := (c.judge 0xB2 ptpPage x 0 false).setOfs x ofs

theorem Chip.nets_hasSynced (c : Chip) (x : Fin 2) (ofs : Int) : Chip.Nets offsets [] [] c (c.hasSynced x ofs) := by
  have own : Ptp.iOfs.nth x ∈ offsets := (by decide : ∀ x : Fin 2, Ptp.iOfs.nth x ∈ offsets) x
  exact ((Chip.Nets.refl c).judge _ _ _ _ _ _).setOfs own ofs

/-- What offsets, steps and refusals write keeps apart from an instance's state, and from what steers. -/
def offsetFields (x : Fin 2) : List Fld := offsets ++ [Ptp.stepped, Ptp.restepArmed] ++ refusedFields x

theorem offset_places (x : Fin 2) : ∀ g ∈ offsetFields x, g.ok = true ∧ g.page ∈ [ptpPage] :=
  (by decide : ∀ x : Fin 2, ∀ g ∈ offsetFields x, g.ok = true ∧ g.page ∈ [ptpPage]) x

theorem offset_apart (x : Fin 2) : ∀ f ∈ [Ptp.iState.nth x, Ptp.steer, Ptp.jumpLimit], f.ok = true ∧ reacts f.page = false ∧
    f.page ∉ [timePage] ∧ ∀ g ∈ offsetFields x, f.key ≠ g.key :=
  (by decide : ∀ x : Fin 2, ∀ f ∈ [Ptp.iState.nth x, Ptp.steer, Ptp.jumpLimit], f.ok = true ∧ reacts f.page = false ∧
    f.page ∉ [timePage] ∧ ∀ g ∈ offsetFields x, f.key ≠ g.key) x

theorem stepped_apart (x : Fin 2) : Ptp.stepped.key ≠ Ptp.restepArmed.key ∧ ∀ g ∈ refusal x, Ptp.stepped.key ≠ g.key :=
  (by decide : ∀ x : Fin 2, Ptp.stepped.key ≠ Ptp.restepArmed.key ∧ ∀ g ∈ refusal x, Ptp.stepped.key ≠ g.key) x

section
variable {s : State} {x : Fin 2}

/-- The branch of an instance whose sync has come (R356). -/
def Chip.handlesOffset (c : Chip) (x : Nat) (ofs : Int) : Chip :=
  if (c.ptpInst x).armed then c.restep x ofs else if c.rd Ptp.steer = x then c.steerOffset x ofs else c.watchOffset x ofs

theorem gives_of_handled {ofs : BitVec 96} {b d : Chip} {P : State → Prop} (hs : s.Runs) (slave : s.c.rd (Ptp.iState.nth x) = 3)
    (hb : s.c.start.hasSynced x ofs.toInt = b) (hd : b.handlesOffset x ofs.toInt = d) (h : P { s with c := d.settle }) :
    Gives (.ptpServoUpdate x ofs) s P :=
  gives_of_body hs (exec_ptpServoUpdate x ofs s)
    ((if_pos (.inr slave)).trans ((congrArg (fun c : Chip => c.handlesOffset x ofs.toInt) hb).trans hd)) h

theorem servoUpdate_restep {ofs : BitVec 96} (hs : s.Runs) (slave : s.c.rd (Ptp.iState.nth x) = 3) (armed : (s.c.ptpInst x).armed = true) :
    Gives (.ptpServoUpdate x ofs) s (fun t =>
      t.c.stc = Stc.ofTotal (s.c.stc.total + 256 * ofs.toInt) ∧ t.c.rd Ptp.stepped = 1 ∧ (t.c.ptpInst x).armed = false ∧
      bit (t.c.stickyWord ptpPage) 5 = true ∧ Within [ptpPage, timePage] s t) := by
  obtain ⟨stateOk, stateStill, stateTime, stateApart⟩ := offset_apart x (Ptp.iState.nth x) (by simp)
  obtain ⟨fromArm, fromRefusal⟩ := stepped_apart x
  obtain ⟨b, hb⟩ : ∃ b, s.c.start.hasSynced x ofs.toInt = b := ⟨_, rfl⟩
  have synced : Chip.Nets offsets [] [] s.c.start b := hb ▸ s.c.start.nets_hasSynced x ofs.toInt
  have handled : b.handlesOffset x ofs.toInt = b.restep x ofs.toInt := if_pos ((synced.inst x).1.trans armed)
  obtain ⟨stepNets, stepMark⟩ := b.nets_stepStc x ofs.toInt
  obtain ⟨moved, hm⟩ : ∃ d, (b.stepStc x ofs.toInt).wr Ptp.stepped 1 = d := ⟨_, rfl⟩
  obtain ⟨disarmed, hd⟩ : ∃ d, moved.armRestep x false = d := ⟨_, rfl⟩
  obtain ⟨ended, he⟩ : ∃ d, disarmed.endRefusal x = d := ⟨_, rfl⟩
  have whole : b.restep x ofs.toInt = ended.calibrate x ofs.toInt := by rw [Chip.restep, hm, hd, he]
  have ends : Chip.Nets (refusal x) [] [] disarmed ended := he ▸ (Chip.Nets.refl disarmed).endRefusal x (List.Subset.refl _)
  have kept {f : Fld} (hf : f.ok = true) (hr : reacts f.page = false) (ht : f.page ∉ [timePage]) (hg : ∀ g ∈ offsetFields x, f.key ≠ g.key) :
      ended.rd f = s.c.rd f := by
    have apart {g : Fld} (m : g ∈ offsetFields x) := hg g m
    calc ended.rd f = disarmed.rd f := ends.rd f hf hr (by simp) fun g m => apart (by
            simp only [refusal, List.mem_cons, List.not_mem_nil, or_false] at m
            rcases m with rfl | rfl <;> simp [offsetFields, refusedFields])
      _ = moved.rd f := hd ▸ moved.rd_armRestep_ne x false (apart (by simp [offsetFields]))
      _ = (b.stepStc x ofs.toInt).rd f := hm ▸ Chip.rd_wr_ne _ _ (apart (by simp [offsetFields]))
      _ = b.rd f := stepNets.rd f hf hr ht fun g m => apart (by simp [offsetFields, m])
      _ = s.c.rd f := synced.rd f hf hr (by simp) fun g m => apart (by simp [offsetFields, m])
  have still : ended.calibrate x ofs.toInt = ended :=
    if_pos (by rw [kept stateOk stateStill stateTime stateApart, slave]; decide)
  have shown : moved.rd Ptp.stepped = 1 := hm ▸ (Chip.rd_wr_self _ _ _).trans rfl
  have off : (disarmed.ptpInst x).armed = false := hd ▸ moved.armRestep_off
  have stc : ended.stc = Stc.ofTotal (s.c.stc.total + 256 * ofs.toInt) := by
    have same : b.stc = s.c.stc := synced.stc
    rw [← same]
    have steps : disarmed.stc = (b.stepStc x ofs.toInt).stc := by rw [← hd, ← hm]; rfl
    exact ends.stc.trans (steps.trans stepNets.stc)
  have unstuck : disarmed.sticky = (b.stepStc x ofs.toInt).sticky := by rw [← hd, ← hm]; rfl
  have marked : bit (ended.stickyWord ptpPage) 5 = true := ends.set _ _ (by rw [Chip.stickyWord, unstuck]; exact stepMark)
  refine gives_of_handled hs slave hb (handled.trans (whole.trans still)) ⟨(settled ended).stc.trans stc, ?_, ?_,
    Chip.bit_stickyWord_settle marked, Within.of_body (fun f hf hr hp => ?_) fun p hr hp => ?_⟩
  · exact (ended.rd_settle rfl rfl).trans ((ends.rd _ rfl rfl (by simp) fromRefusal).trans
      ((hd ▸ moved.rd_armRestep_ne x false fromArm).trans shown))
  · rw [Chip.ptpInst_settle]
    exact (ends.inst x).1.trans off
  · exact kept hf hr (fun m => hp (List.mem_cons_of_mem _ m)) fun g m => Fld.key_ne hf (offset_places x g m).1
      (.inr (.inl fun e => hp (e ▸ List.mem_cons.mpr (.inl (List.mem_singleton.mp (offset_places x g m).2)))))
  · have first : (b.stepStc x ofs.toInt).stickyWord p = b.stickyWord p := stepNets.sticky p hr fun m => hp (by simpa [or_comm] using m)
    exact (ends.sticky p hr (by simp)).trans ((congrArg (fun w => Store.get 0 w p) unstuck).trans (first.trans (synced.sticky p hr (by simp))))

theorem servoUpdate_refused {ofs : BitVec 96} (hs : s.Runs) (slave : s.c.rd (Ptp.iState.nth x) = 3) (steers : s.c.rd Ptp.steer = x)
    (unarmed : (s.c.ptpInst x).armed = false) (stepped : s.c.on Ptp.stepped = true) (beyond : s.c.jumpLimit < ofs.toInt.natAbs) :
    Gives (.ptpServoUpdate x ofs) s (fun t =>
      t.c.rd (Ptp.iRefusing.nth x) = 1 ∧ t.c.rd (Ptp.refused.nth x) = satInc 32 (s.c.rd (Ptp.refused.nth x)) ∧
      bit (t.c.stickyWord ptpPage) 0 = true ∧ t.c.stc = s.c.stc ∧ t.c.rd Time.rate = s.c.rd Time.rate ∧
      Within [ptpPage] s t) := by
  obtain ⟨b, hb⟩ : ∃ b, s.c.start.hasSynced x ofs.toInt = b := ⟨_, rfl⟩
  have synced : Chip.Nets offsets [] [] s.c.start b := hb ▸ s.c.start.nets_hasSynced x ofs.toInt
  have kept {f : Fld} (hf : f.ok = true) (hr : reacts f.page = false) (hg : ∀ g ∈ offsets, f.key ≠ g.key) : b.rd f = s.c.rd f :=
    synced.rd f hf hr (by simp) hg
  have limit : b.jumpLimit = s.c.jumpLimit := by
    rw [Chip.jumpLimit, kept rfl rfl (by decide), Chip.jumpLimit]
  have done_ : b.on Ptp.stepped = true := by
    rw [Chip.on, kept rfl rfl (by decide)]
    exact stepped
  have handled : b.handlesOffset x ofs.toInt = b.refuseOffset x := by
    rw [Chip.handlesOffset, if_neg (by rw [(synced.inst x).1.trans unarmed]; decide), if_pos ((kept rfl rfl (by decide)).trans steers),
      Chip.steerOffset, done_, if_neg (by decide), if_pos (limit.symm ▸ beyond)]
  obtain ⟨-, -, fromFollowing, fromFollowing'⟩ := refused_apart x
  obtain ⟨refusingOk, refusingPage⟩ := ptp_ok (f := Ptp.iRefusing) x.isLt rfl
  obtain ⟨refusedOk, refusedPage⟩ := ptp_ok (f := Ptp.refused) x.isLt rfl
  have countBefore : b.rd (Ptp.refused.nth x) = s.c.rd (Ptp.refused.nth x) :=
    kept refusedOk (by rw [refusedPage]; rfl) ((by decide : ∀ x : Fin 2, ∀ g ∈ offsets, (Ptp.refused.nth x).key ≠ g.key) x)
  obtain ⟨refusing, counted, marked⟩ := b.refusesOffset_shows x
  have rest := b.nets_refuseOffset x
  have whole : Chip.Nets (offsetFields x) [] [ptpPage] s.c.start (b.refuseOffset x) :=
    ((synced.widen (fun g m => by simp [offsetFields, m]) (List.Subset.refl _) (List.nil_subset _)).trans
      ((b.nets_refusesOffset x).widen (fun g m => by simp [offsetFields, m]) (List.Subset.refl _) (List.Subset.refl _))).trans
      (rest.widen (fun g m => by simp [offsetFields, refusedFields, List.mem_singleton.mp m]) (List.Subset.refl _) (List.Subset.refl _))
  generalize b.refuseOffset x = d at *
  refine gives_of_handled hs slave hb handled ⟨?_, ?_, Chip.bit_stickyWord_settle (rest.set _ _ marked), ?_, ?_,
    whole.within (offset_places x) (List.nil_subset _)⟩
  · exact (rd_inst_settle (f := Ptp.iRefusing) d x rfl).trans
      ((rest.rd _ refusingOk (by rw [refusingPage]; rfl) (by simp) (by simpa using fromFollowing)).trans refusing)
  · rw [rd_inst_settle (f := Ptp.refused) d x rfl, rest.rd _ refusedOk (by rw [refusedPage]; rfl) (by simp) (by simpa using fromFollowing'),
      counted, countBefore]
  · exact (settled d).stc.trans whole.stc
  · exact (d.rd_settle rfl rfl).trans (whole.rd _ rfl rfl (by simp) fun g m =>
      Fld.key_ne rfl (offset_places x g m).1 (.inr (.inl fun e => absurd (e ▸ (offset_places x g m).2) (by decide))))

end

/-- Settles O36: an instance's state, its refusal and its arming stand in fields of their own, which its candidate, the selection and the
loop do not write; a step moves the STC alone. -/
theorem ptpInstances : Obligations.PtpInstances := fun _ _ =>
  ⟨fun _ _ _ _ _ _ _ _ _ _ hs listens own => announce_listening hs listens own,
    fun _ _ _ _ _ _ _ _ _ _ hs _ other => announce_foreign hs other, announceTimeout_gives, syncTimeout_gives,
    fun _ hs up live => delayExchange_gives hs up live,
    fun _ hs target steers slave active alone => ptpRestep_gives hs target steers slave active alone,
    fun _ hs slave armed => servoUpdate_restep hs slave armed,
    fun _ hs slave steers unarmed stepped beyond => servoUpdate_refused hs slave steers unarmed stepped beyond⟩

end Sys2Proof.Machine
end

section
/-! SUPPORT. The loop and its selection (R340 to R348), which O34 states. -/

namespace Sys2Proof.Machine

theorem exec_refManualSelect (i : BitVec 16) (s : State) : exec (.refManualSelect i) s = execRefManualSelect i s := rfl
theorem exec_refPhaseEvent (i : Fin 9) (fall : Bool) (phase : BitVec 32) (s : State) :
    exec (.refPhaseEvent i fall phase) s = execRefPhaseEvent i fall phase s := rfl
theorem exec_loopAcquired (s : State) : exec .loopAcquired s = execLoopAcquired s := rfl
theorem exec_loopNarrowStep (s : State) : exec .loopNarrowStep s = execLoopNarrowStep s := rfl
theorem exec_loopPhaseLoss (s : State) : exec .loopPhaseLoss s = execLoopPhaseLoss s := rfl
theorem exec_recoveryEnd (s : State) : exec .recoveryEnd s = execRecoveryEnd s := rfl
theorem exec_holdoverAgeLimit (s : State) : exec .holdoverAgeLimit s = execHoldoverAgeLimit s := rfl

/-- Between two machines the fields `gs` may differ; the collector, and what is reported to it, is the same. -/
structure Chip.Moves (gs : List Fld) (c d : Chip) : Prop where
  rd : ∀ f : Fld, (∀ g ∈ gs, f.key ≠ g.key) → d.rd f = c.rd f
  reports : d.reports = c.reports
  fcu : d.fcu = c.fcu

section
variable {gs : List Fld} {a b c : Chip}

theorem Chip.Moves.refl (c : Chip) : Chip.Moves gs c c := ⟨fun _ _ => rfl, rfl, rfl⟩

theorem Chip.Moves.trans (h : Chip.Moves gs a b) (k : Chip.Moves gs b c) : Chip.Moves gs a c :=
  ⟨fun f hf => (k.rd f hf).trans (h.rd f hf), k.reports.trans h.reports, k.fcu.trans h.fcu⟩

theorem Chip.Moves.wr (h : Chip.Moves gs a b) {f : Fld} (hf : f ∈ gs) (v : Nat) : Chip.Moves gs a (b.wr f v) :=
  ⟨fun g hg => (b.rd_wr_ne v (hg f hf)).trans (h.rd g hg), h.reports, h.fcu⟩

/-- A change of no register, and of nothing that the collector knows. -/
theorem Chip.Moves.keep (h : Chip.Moves gs a b) (flds : c.flds = b.flds) (reports : c.reports = b.reports) (fcu : c.fcu = b.fcu) :
    Chip.Moves gs a c :=
  ⟨fun f hf => by rw [Chip.rd, flds]; exact h.rd f hf, reports.trans h.reports, fcu.trans h.fcu⟩

theorem Chip.Moves.ite {p : Prop} [Decidable p] (h : p → Chip.Moves gs a b) (k : ¬p → Chip.Moves gs a c) :
    Chip.Moves gs a (if p then b else c) := by
  split
  · exact h ‹_›
  · exact k ‹_›

end

/-! ## Bandwidths and states (R342 to R344) -/

/-- The fields that a halving writes. -/
def trackFields : List Fld := [MerLoop.state, MerLoop.bwNow]

/-- The machine that the bandwidth `w` and the state `st` stand in. -/
structure Chip.RunsAt (c d : Chip) (st bw : Nat) : Prop extends Chip.Moves trackFields c d where
  state : d.rd MerLoop.state = st
  mer : d.mer = { c.mer with bw := bw }

theorem Chip.runsAt_setBw (c : Chip) (bw : Nat) : Chip.RunsAt c (c.setBw bw) (c.rd MerLoop.state) bw where
  toMoves := ((Chip.Moves.refl c).keep (c := c.updMer (fun m => { m with bw := bw })) rfl rfl rfl).wr (f := MerLoop.bwNow) (by decide) _
  state := Chip.rd_wr_ne _ _ (by decide)
  mer := rfl

/-- The fields that the entry to `ACQUIRE` writes. -/
def acquireFields : List Fld := [MerHold.age, MerLoop.state, MerLoop.regimeNow, MerLoop.bwNow, MerSel.qlOut]

/-- What the loop's entry to `ACQUIRE` shows. -/
theorem Chip.enterAcquire_shows (c : Chip) (fromHold : Bool) : (c.enterAcquire fromHold).rd MerLoop.state = 1 ∧
    (∃ bw, (c.enterAcquire fromHold).mer = { c.mer with aged := false, clean := false, bw := bw }) ∧
    Chip.Moves acquireFields c (c.enterAcquire fromHold) := by
  let now := if c.regime = 0 then (if (fromHold && c.on MerLoop.recovEn) || c.rd MerLoop.regimeNow = 3 then 3 else 0) else c.regime
  let b := ((c.endHoldover.wr MerLoop.state 1).wr MerLoop.regimeNow now).updMer (fun m => { m with clean := false })
  obtain ⟨w, whole⟩ : ∃ w, c.enterAcquire fromHold = (b.setBw w).showQlOut := ⟨_, rfl⟩
  have held : Chip.Moves acquireFields c c.endHoldover := ((Chip.Moves.refl c).wr (f := MerHold.age) (by decide) 0).keep rfl rfl rfl
  have begun : Chip.Moves acquireFields c b :=
    ((held.wr (f := MerLoop.state) (by decide) 1).wr (f := MerLoop.regimeNow) (by decide) now).keep rfl rfl rfl
  have state : b.rd MerLoop.state = 1 := (Chip.rd_wr_ne _ _ (by decide)).trans (Chip.rd_wr_self c.endHoldover _ _)
  have mer : b.mer = { c.mer with aged := false, clean := false } := rfl
  rw [whole]
  clear_value b
  refine ⟨(Chip.rd_wr_ne _ _ (by decide)).trans ((b.runsAt_setBw w).state.trans state), ⟨w, congrArg (fun m => { m with bw := w }) mer⟩, ?_⟩
  exact ((begun.keep (c := b.updMer (fun m => { m with bw := w })) rfl rfl rfl).wr (f := MerLoop.bwNow) (by decide) _).wr
    (f := MerSel.qlOut) (by decide) _

theorem Chip.runsAt_enterTrack (c : Chip) (bw : Nat) : Chip.RunsAt c (c.enterTrack bw) 3 bw where
  toMoves := (((Chip.Moves.refl c).wr (f := MerLoop.state) (by decide) 3).keep (c := ((c.wr MerLoop.state 3).stick merLoopPage 3).updMer
    (fun m => { m with bw := bw })) rfl rfl rfl).wr (f := MerLoop.bwNow) (by decide) _
  state := (Chip.rd_wr_ne _ _ (by decide)).trans (Chip.rd_wr_self c MerLoop.state 3)
  mer := rfl

/-- One halving (R342). -/
theorem Chip.runsAt_halve (c : Chip) (bw : Nat) : if bw / 2 < c.trackBw * 65536 then Chip.RunsAt c (c.halve bw) 3 (c.trackBw * 65536)
    else Chip.RunsAt c (c.halve bw) (c.rd MerLoop.state) (bw / 2) := by
  unfold Chip.halve
  split
  · exact c.runsAt_enterTrack _
  · exact c.runsAt_setBw _

theorem Chip.RunsAt.after {a b c : Chip} {st bw : Nat} (h : Chip.Moves trackFields a b) (mer : b.mer = a.mer) (k : Chip.RunsAt b c st bw) :
    Chip.RunsAt a c st bw := ⟨h.trans k.toMoves, k.state, by rw [k.mer, mer]⟩

/-- The loop enters `NARROW` and halves, unless that takes it to `TRACK` (R342, R343). -/
theorem Chip.runsAt_enterNarrow (c : Chip) (bw : Nat) : if bw ≤ c.trackBw * 65536 ∨ bw / 2 < c.trackBw * 65536 then
      Chip.RunsAt c (c.enterNarrow bw) 3 (c.trackBw * 65536) else Chip.RunsAt c (c.enterNarrow bw) 2 (bw / 2) := by
  have begun : Chip.Moves trackFields c (c.wr MerLoop.state 2) := (Chip.Moves.refl c).wr (by decide) 2
  have same : (c.wr MerLoop.state 2).trackBw = c.trackBw := by
    rw [Chip.trackBw, Chip.rd_wr_ne _ _ (by decide), Chip.trackBw]
  have narrow : (c.wr MerLoop.state 2).rd MerLoop.state = 2 := Chip.rd_wr_self _ _ _
  have halves := (c.wr MerLoop.state 2).runsAt_halve bw
  rw [same, narrow] at halves
  unfold Chip.enterNarrow
  by_cases low : bw ≤ c.trackBw * 65536
  · rw [if_pos (.inl low), if_pos low]
    exact c.runsAt_enterTrack _
  · by_cases half : bw / 2 < c.trackBw * 65536
    · rw [if_pos half] at halves
      rw [if_pos (.inr half), if_neg low]
      exact halves.after begun rfl
    · rw [if_neg half] at halves
      rw [if_neg (not_or.mpr ⟨low, half⟩), if_neg low]
      exact halves.after begun rfl

theorem Chip.trackBw_le (c : Chip) : c.trackBw ≤ 2000 := by
  unfold Chip.trackBw clampN
  split <;> [decide; split <;> omega]

/-- The regime in force is no part of a candidate's type. -/
theorem Chip.typeBw_wr_regimeNow (c : Chip) (v i : Nat) : (c.wr MerLoop.regimeNow v).typeBw i = c.typeBw i := by
  have type : (c.wr MerLoop.regimeNow v).refType i = c.refType i := by
    rw [Chip.refType, Chip.rd_wr_ne _ _ (Fld.key_ne_of_lo rfl), Chip.refType]
  have width (f : Fld) (h : f.key ≠ MerLoop.regimeNow.key) : (c.wr MerLoop.regimeNow v).rd f = c.rd f := c.rd_wr_ne v h
  unfold Chip.typeBw
  rw [type]
  split <;> [exact width _ (by decide); exact width _ (by decide); exact width _ (by decide); exact width _ (by decide);
    (split <;> exact width _ (by decide))]

section
variable {s : State}

/-- What a quiet command shows of the loop. -/
theorem runsAt_settle {d : Chip} {st bw : Nat} (h : Chip.RunsAt s.c.start d st bw) :
    d.settle.rd MerLoop.state = st ∧ d.settle.mer.bw = bw := by
  have quiet : d.reports = [] := h.reports
  exact ⟨(d.rd_settle_idle quiet _).trans h.state, (congrArg Mer.bw (idle_settle d quiet).mer).trans (congrArg Mer.bw h.mer)⟩

theorem loopAcquired_service (hs : s.Runs) (acquires : s.c.rd MerLoop.state = 1) (service : s.c.rd MerLoop.regimeNow = 0) :
    Gives .loopAcquired s (fun t => t.c.rd MerLoop.state = 2 ∧ t.c.mer.bw = 20000 * 65536 ∧ Confined [] [] s t) := by
  have low := s.c.start.trackBw_le
  have runs := s.c.start.runsAt_enterNarrow (40000 * 65536)
  rw [if_neg (by omega)] at runs
  have left := (Chip.Steers.enterNarrow (.refl s.c.start) (40000 * 65536)).toTimes.leaves
  obtain ⟨state, bw⟩ := runsAt_settle runs
  exact gives_of_body hs (exec_loopAcquired s) (d := s.c.start.enterNarrow (40000 * 65536))
    ((if_neg (not_not.mpr acquires)).trans (if_pos service)) ⟨state, bw, left.confined⟩

theorem loopAcquired_other (hs : s.Runs) (acquires : s.c.rd MerLoop.state = 1) (regime : s.c.rd MerLoop.regimeNow ≠ 0) :
    Gives .loopAcquired s (fun t =>
      t.c.rd MerLoop.state = 3 ∧ t.c.mer.bw = s.c.typeBw s.c.mer.drive * 65536 ∧ bit (t.c.stickyWord merLoopPage) 3 = true ∧
      Confined [] [] s t) := by
  let bw := s.c.typeBw s.c.mer.drive * 65536
  have left := (Chip.Steers.enterTrack (.refl s.c.start) bw).toTimes.leaves
  obtain ⟨state, width⟩ := runsAt_settle (s.c.start.runsAt_enterTrack bw)
  have marked : bit ((s.c.start.enterTrack bw).stickyWord merLoopPage) 3 = true := Chip.bit_stick _ _ _
  exact gives_of_body hs (exec_loopAcquired s) (d := s.c.start.enterTrack bw)
    ((if_neg (not_not.mpr acquires)).trans (if_neg regime)) ⟨state, width, Chip.bit_stickyWord_settle marked, left.confined⟩

theorem loopNarrowStep_gives (hs : s.Runs) (narrow : s.c.rd MerLoop.state = 2)
    (close : (s.c.rdS MerLoop.pherr).natAbs < 16 * orElse0 (s.c.rd MerLoop.thresh) 1) : Gives .loopNarrowStep s (fun t =>
      (if s.c.mer.bw / 2 < s.c.trackBw * 65536 then t.c.rd MerLoop.state = 3 ∧ t.c.mer.bw = s.c.trackBw * 65536
       else t.c.rd MerLoop.state = 2 ∧ t.c.mer.bw = s.c.mer.bw / 2) ∧ Confined [] [] s t) := by
  have left := (Chip.Steers.halve (.refl s.c.start) s.c.mer.bw).toTimes.leaves
  have runs := s.c.start.runsAt_halve s.c.mer.bw
  refine gives_of_body hs (exec_loopNarrowStep s) (d := s.c.start.halve s.c.mer.bw) (if_pos ⟨narrow, close⟩) ⟨?_, left.confined⟩
  change if s.c.mer.bw / 2 < s.c.trackBw * 65536 then _ else Chip.RunsAt _ _ (s.c.rd MerLoop.state) _ at runs
  rw [narrow] at runs
  split at runs
  case isTrue low => exact (if_pos low).symm ▸ runsAt_settle runs
  case isFalse high => exact (if_neg high).symm ▸ runsAt_settle runs

theorem recoveryEnd_gives (hs : s.Runs) (recovers : s.c.rd MerLoop.regimeNow = 3) (tracks : s.c.rd MerLoop.state = 3) :
    Gives .recoveryEnd s (fun t =>
      t.c.rd MerLoop.regimeNow = 0 ∧
      (if s.c.typeBw s.c.mer.drive ≤ s.c.trackBw ∨ s.c.typeBw s.c.mer.drive * 65536 / 2 < s.c.trackBw * 65536
       then t.c.rd MerLoop.state = 3 ∧ t.c.mer.bw = s.c.trackBw * 65536
       else t.c.rd MerLoop.state = 2 ∧ t.c.mer.bw = s.c.typeBw s.c.mer.drive * 65536 / 2) ∧ Confined [] [] s t) := by
  let b := s.c.start.wr MerLoop.regimeNow 0
  let w := s.c.typeBw s.c.mer.drive
  have width : b.trackBw = s.c.trackBw := by
    rw [Chip.trackBw, Chip.rd_wr_ne _ _ (by decide), Chip.trackBw]
    rfl
  have type : b.typeBw b.mer.drive = w := s.c.start.typeBw_wr_regimeNow 0 _
  have shown : b.rd MerLoop.state = 3 := (Chip.rd_wr_ne _ _ (by decide)).trans tracks
  have still : ¬(b.rd MerLoop.state = 0 ∨ b.rd MerLoop.state = 4) := by omega
  have body : s.c.start.endRegime = b.enterNarrow (w * 65536) := by
    rw [← type]
    exact if_neg still
  have runs := b.runsAt_enterNarrow (w * 65536)
  have low : w * 65536 ≤ s.c.trackBw * 65536 ↔ w ≤ s.c.trackBw := by omega
  simp only [width, low] at runs
  have ended : b.rd MerLoop.regimeNow = 0 := Chip.rd_wr_self _ _ _
  have begun : Chip.Steers s.c.start b := (Chip.Steers.refl s.c.start).wr rfl 0
  have left := (begun.enterNarrow (w * 65536)).toTimes.leaves
  have quiet : b.reports = [] := rfl
  clear_value b
  generalize b.enterNarrow (w * 65536) = d at *
  have shows {st bw : Nat} (h : Chip.RunsAt b d st bw) :
      d.settle.rd MerLoop.regimeNow = 0 ∧ d.settle.rd MerLoop.state = st ∧ d.settle.mer.bw = bw := by
    have none : d.reports = [] := h.reports.trans quiet
    exact ⟨(d.rd_settle_idle none _).trans ((h.rd _ (by decide)).trans ended), (d.rd_settle_idle none _).trans h.state,
      (congrArg Mer.bw (idle_settle d none).mer).trans (congrArg Mer.bw h.mer)⟩
  refine gives_of_body hs (exec_recoveryEnd s) ((if_pos ⟨recovers, .inr tracks⟩).trans body) ?_
  split at runs
  case isTrue track => exact ⟨(shows runs).1, (if_pos track).symm ▸ (shows runs).2, left.confined⟩
  case isFalse halve => exact ⟨(shows runs).1, (if_neg halve).symm ▸ (shows runs).2, left.confined⟩

end

/-! ## Phase events (R341) -/

theorem Chip.divFree_frame (c : Chip) (n d : Int) : ∃ k, (c.divFree n d).2 = { c with free := k } := by
  unfold Chip.divFree
  split
  · exact ⟨c.free, rfl⟩
  · exact ⟨_, rfl⟩

/-- The first event after a selection takes the build-out, and the loop enters `ACQUIRE`. -/
theorem Chip.phaseEvent_selected (c : Chip) {i : Nat} (hi : i < 8) (type : i < 4 → c.refType i ≠ 0) (present : (c.cand i).present = true)
    (selected : c.mer.pend = some i) (phase : Int) : (c.phaseEvent i phase).rd MerLoop.state = 1 ∧
    (c.phaseEvent i phase).mer.pend = none ∧ (c.phaseEvent i phase).mer.drive = i ∧ (c.phaseEvent i phase).mer.build16 = phase ∧
    (c.phaseEvent i phase).rd MerLoop.pherr = 0 ∧ (c.phaseEvent i phase).reports = c.reports ∧
    Chip.Times merPages [] c (c.phaseEvent i phase) := by
  obtain ⟨k, shown⟩ : ∃ k, (c.shownPhase i phase).2 = { c with free := k } := c.divFree_frame _ _
  let b := (c.shownPhase i phase).2.wrS (MerSel.cphase.nth i) (c.shownPhase i phase).1
  have mer : b.mer = c.mer := by
    show (c.shownPhase i phase).2.mer = _
    rw [shown]
  have reports : b.reports = c.reports := by
    show (c.shownPhase i phase).2.reports = _
    rw [shown]
  have first : Chip.Times merPages [] c b := by
    refine Chip.Times.candField (b := (c.shownPhase i phase).2) ?_ (by omega) rfl _
    exact (Chip.Times.refl c).divFree _ _
  obtain ⟨n, divided⟩ := b.divFree_frame phase 16
  let d := ((b.divFree phase 16).2.wrS MerLoop.build (b.divFree phase 16).1).wr MerLoop.pherr 0
  have dMer : d.mer = c.mer := by
    show (b.divFree phase 16).2.mer = _
    rw [divided]
    exact mer
  have dReports : d.reports = c.reports := by
    show (b.divFree phase 16).2.reports = _
    rw [divided]
    exact reports
  have zero : d.rd MerLoop.pherr = 0 := (Chip.rd_wr_self _ _ _).trans (Nat.zero_mod _)
  have second : Chip.Times merPages [] c d :=
    ((first.divFree phase 16).wr (f := MerLoop.build) rfl (by decide) _).wr (f := MerLoop.pherr) rfl (by decide) _
  let e := d.updMer (fun m => { m with pend := none, drive := i, fromHold := false, build16 := phase, slewRem := 0 })
  have whole : c.phaseEvent i phase = e.enterAcquire d.mer.fromHold := by
    have here : (b.cand i).present = true := by
      rw [Chip.cand, mer]
      exact present
    unfold Chip.phaseEvent
    rw [if_neg (by rintro (rfl | ⟨low, off⟩); exacts [absurd hi (by decide), type low off])]
    show (if !(b.cand i).present then b else if b.mer.pend = some i then e.enterAcquire d.mer.fromHold else _) = _
    rw [here, if_neg (by decide), if_pos (by rw [mer]; exact selected)]
  obtain ⟨state, ⟨bw, after⟩, moves⟩ := e.enterAcquire_shows d.mer.fromHold
  have times := (second.updMer (fun m => { m with pend := none, drive := i, fromHold := false, build16 := phase, slewRem := 0 })).steers
    (Chip.Steers.enterAcquire (.refl e) d.mer.fromHold)
  rw [whole, after]
  exact ⟨state, rfl, rfl, rfl, (moves.rd _ (by decide)).trans zero, moves.reports.trans dReports, times⟩

section
variable {s : State}

theorem refPhaseEvent_selected {i : Fin 9} {fall : Bool} {phase : BitVec 32} (hs : s.Runs) (other : i ≠ 8)
    (present : (s.c.cand i).present = true) (type : i.val < 4 → s.c.refType i ≠ 0 ∧ fall = s.c.on (MerSel.edge.nth i))
    (selected : s.c.mer.pend = some i.val) (mark : i = 6 → s.c.mer.fabMark ≠ none) : Gives (.refPhaseEvent i fall phase) s (fun t =>
      t.c.rd MerLoop.state = 1 ∧ t.c.mer.pend = none ∧ t.c.mer.drive = i.val ∧
      t.c.mer.build16 = phase.toInt + (if i = 6 then ((335 * s.c.mer.fabMark.getD 0 / 64 : Nat) : Int) else 0) ∧
      t.c.rd MerLoop.pherr = 0 ∧ Confined [] [] s t) := by
  have small : i.val < 8 := by
    have : i.val ≠ 8 := fun e => other (Fin.ext e)
    omega
  let ph := phase.toInt + (if i = 6 then ((335 * s.c.mer.fabMark.getD 0 / 64 : Nat) : Int) else 0)
  let b := if i = 6 then s.c.start.updMer (fun m => { m with fabMark := none }) else s.c.start
  have facts : (b.refType i = s.c.refType i) ∧ b.cand i = s.c.cand i ∧ b.mer.pend = s.c.mer.pend ∧ b.reports = [] ∧
      Chip.Times merPages [] s.c.start b := by
    show (Chip.refType (if i = 6 then _ else _) i = _) ∧ Chip.cand (if i = 6 then _ else _) i = _ ∧
      (if i = 6 then s.c.start.updMer (fun m => { m with fabMark := none }) else s.c.start).mer.pend = _ ∧
      (if i = 6 then s.c.start.updMer (fun m => { m with fabMark := none }) else s.c.start).reports = _ ∧ Chip.Times merPages [] s.c.start b
    refine ⟨?_, ?_, ?_, ?_, .ite (fun _ => (Chip.Times.refl _).updMer _) fun _ => .refl _⟩
    all_goals split <;> rfl
  have body : (fun c : Chip =>
      if i.val < 4 ∧ fall ≠ c.on (MerSel.edge.nth i) then c
      else if i.val ≠ 6 then c.phaseEvent i phase.toInt
      else match c.mer.fabMark with
        | none => c
        | some r => (c.updMer (fun m => { m with fabMark := none })).phaseEvent 6 (phase.toInt + (335 * r / 64 : Nat))) s.c.start =
      b.phaseEvent i ph := by
    dsimp only
    rw [if_neg (fun h => h.2 (type h.1).2)]
    by_cases fabric : i = 6
    · obtain ⟨r, hr⟩ := Option.ne_none_iff_exists'.mp (mark fabric)
      subst fabric
      have there : s.c.start.mer.fabMark = some r := hr
      rw [if_neg (by decide), there]
      show _ = Chip.phaseEvent (if (6 : Fin 9) = 6 then _ else _) 6 (phase.toInt + if (6 : Fin 9) = 6 then _ else _)
      rw [if_pos rfl, if_pos rfl, hr]
      rfl
    · have elsewhere : i.val ≠ 6 := fun e => fabric (Fin.ext e)
      rw [if_pos elsewhere]
      show _ = Chip.phaseEvent (if i = 6 then _ else _) i (phase.toInt + if i = 6 then _ else _)
      rw [if_neg fabric, if_neg fabric, Int.add_zero]
  clear_value b
  obtain ⟨types, cands, pends, quiet, times⟩ := facts
  obtain ⟨state, pend, drive, build, pherr, reports, moved⟩ := b.phaseEvent_selected small (fun low => by rw [types]; exact (type low).1)
    (by rw [cands]; exact present) (pends.trans selected) ph
  generalize b.phaseEvent i ph = d at *
  have none_ : d.reports = [] := reports.trans quiet
  have mer := (idle_settle d none_).mer
  exact gives_of_body hs (exec_refPhaseEvent i fall phase s) body ⟨(d.rd_settle_idle none_ _).trans state, (congrArg Mer.pend mer).trans pend,
    (congrArg Mer.drive mer).trans drive, (congrArg Mer.build16 mer).trans build, (d.rd_settle_idle none_ _).trans pherr,
    (times.trans moved).leaves.confined⟩

theorem refPhaseEvent_none {i : Fin 4} {fall : Bool} {phase : BitVec 32} (hs : s.Runs)
    (none_ : s.c.refType i = 0 ∨ fall ≠ s.c.on (MerSel.edge.nth i)) :
    Gives (.refPhaseEvent ⟨i.val, Nat.lt_trans i.isLt (by decide)⟩ fall phase) s (fun t => t.c.mer = s.c.mer ∧ Confined [] [] s t) := by
  have body : (if i.val < 4 ∧ fall ≠ s.c.start.on (MerSel.edge.nth i) then s.c.start
      else if i.val ≠ 6 then s.c.start.phaseEvent i phase.toInt
      else match s.c.start.mer.fabMark with
        | none => s.c.start
        | some r => (s.c.start.updMer (fun m => { m with fabMark := none })).phaseEvent 6 (phase.toInt + (335 * r / 64 : Nat))) =
      s.c.start := by
    by_cases edge : fall = s.c.on (MerSel.edge.nth i)
    · have off : s.c.start.refType i = 0 := none_.resolve_right (not_not.mpr edge)
      rw [if_neg (fun h => h.2 edge), if_pos (by omega)]
      exact if_pos (.inr ⟨i.isLt, off⟩)
    · exact if_pos ⟨i.isLt, edge⟩
  exact gives_of_body hs (exec_refPhaseEvent _ fall phase s) (d := s.c.start) body
    ⟨(idle_settle s.c.start rfl).mer, Chip.Leaves.confined (.refl s.c.start)⟩

theorem loopPhaseLoss_gives (hs : s.Runs) (runs : 1 ≤ s.c.rd MerLoop.state) (loops : s.c.rd MerLoop.state ≤ 3)
    (minor : s.c.effSev ⟨0xA7, merLoopPage, s.c.mer.drive, 0, true, false, false, [], false⟩ < 3) : Gives .loopPhaseLoss s (fun t =>
      t.c.rd MerLoop.state = 1 ∧ t.c.rd MerSel.sel = s.c.rd MerSel.sel ∧ bit (t.c.stickyWord merLoopPage) 2 = true ∧
      Confined [] [] s t) := by
  let b := (s.c.start.raise 0xA7 merLoopPage s.c.mer.drive 0).stick merLoopPage 2
  have marked : bit (b.stickyWord merLoopPage) 2 = true := Chip.bit_stick _ _ _
  have told : Chip.Steers s.c.start b := (Chip.Steers.raise (.refl _) rfl _ _ _).stick rfl 2
  have reported : b.reports = [{ src := 0xA7, page := merLoopPage, inst := s.c.mer.drive, detail := 0, lasting := true }] := rfl
  have collector : b.fcu = s.c.fcu := rfl
  have same : b.rd MerSel.sel = s.c.rd MerSel.sel := rfl
  have body : (if 1 ≤ s.c.start.rd MerLoop.state ∧ s.c.start.rd MerLoop.state ≤ 3 then
      ((s.c.start.raise 0xA7 merLoopPage s.c.start.mer.drive 0).stick merLoopPage 2).enterAcquire false else s.c.start) =
      b.enterAcquire false := if_pos ⟨runs, loops⟩
  clear_value b
  obtain ⟨state, -, moves⟩ := b.enterAcquire_shows false
  have left := Chip.Steers.enterAcquire (.refl b) false
  have whole := told.trans left
  generalize b.enterAcquire false = d at *
  have free : ∀ r ∈ d.reports, d.Uncontained (d.effSev r) r := fun r hr severe => by
    obtain rfl := List.mem_singleton.mp (reported ▸ moves.reports ▸ hr)
    have sev : d.effSev { src := 0xA7, page := merLoopPage, inst := s.c.mer.drive, detail := 0, lasting := true } =
        s.c.effSev ⟨0xA7, merLoopPage, s.c.mer.drive, 0, true, false, false, [], false⟩ := by
      have frd (f : Fld) : d.frd f = s.c.frd f := by rw [Chip.frd, moves.fcu, collector, Chip.frd]
      simp only [Chip.effSev, Chip.baseSev, Chip.escalates, frd, Bool.false_and]
    omega
  exact gives_of_body hs (exec_loopPhaseLoss s) body ⟨(Chip.rd_settle_uncontained free _).trans state,
    (Chip.rd_settle_uncontained free _).trans ((moves.rd _ (by decide)).trans same),
    Chip.bit_stickyWord_settle (left.set _ _ marked), whole.toTimes.leaves.confined⟩

end

/-! ## Selections (R338 to R341) -/

/-- The fields that a selection writes. -/
def selFields : List Fld := [MerSel.sel, MerSel.manual, MerSel.fallback, MerSel.qlOut]

/-- What the selection of a candidate shows. -/
theorem Chip.selectCand_shows (c : Chip) {n : Nat} (hn : n < 16) (manual fallback : Bool) :
    (c.selectCand n manual fallback).rd MerSel.sel = n ∧ (c.selectCand n manual fallback).rd MerSel.manual = b2n manual ∧
    (c.selectCand n manual fallback).mer.pend = some n ∧ (c.selectCand n manual fallback).reports = c.reports := by
  let b := ((c.wr MerSel.sel n).wr MerSel.manual (b2n manual)).wr MerSel.fallback (b2n fallback)
  have sel : b.rd MerSel.sel = n :=
    (Chip.rd_wr_ne _ _ (by decide)).trans ((Chip.rd_wr_ne _ _ (by decide)).trans ((Chip.rd_wr_self _ _ _).trans (Nat.mod_eq_of_lt hn)))
  have shown : b.rd MerSel.manual = b2n manual :=
    (Chip.rd_wr_ne _ _ (by decide)).trans ((Chip.rd_wr_self _ _ _).trans (by cases manual <;> rfl))
  exact ⟨(Chip.rd_wr_ne _ _ (by decide)).trans sel, (Chip.rd_wr_ne _ _ (by decide)).trans shown, rfl, rfl⟩

theorem Chip.mer_cmdEnd (c : Chip) (op code : Nat) : (c.cmdEnd op code).mer = c.mer := by
  by_cases h : code = 0
  · subst h
    rfl
  · rw [Chip.cmdEnd_refused _ _ h]
    rfl

theorem Chip.rd_cmdEnd_sel (c : Chip) (op : Nat) {f : Fld} (h : ∀ g ∈ [Cmd.lastOp, Cmd.go, Cmd.state, Cmd.refuse], f.key ≠ g.key) :
    (c.cmdEnd op 0).rd f = c.rd f := by
  rw [Chip.cmdEnd_done, Chip.rd_stick, Chip.rd_wr_ne _ _ (h _ (by simp)), Chip.rd_wr_ne _ _ (h _ (by simp)),
    Chip.rd_wr_ne _ _ (h _ (by simp)), Chip.rd_wr_ne _ _ (h _ (by simp))]

section
variable {s : State}

theorem refManualSelect_accepted {i : BitVec 16} (hs : s.Runs) (paired : s.c.paired = true) (small : i.toNat < 8)
    (eligible : s.c.eligible i.toNat = true) (other : s.c.rd MerSel.sel ≠ i.toNat) (active : s.c.isStandby = false)
    (alone : s.c.mirrors = false) : Gives (.refManualSelect i) s (fun t =>
      t.c.rd MerSel.sel = i.toNat ∧ t.c.rd MerSel.manual = 1 ∧ t.c.mer.pend = some i.toNat ∧ t.c.rd Cmd.state = 3 ∧
      t.c.rd Cmd.refuse = 0 ∧ Confined [] [cmdPage] s t) := by
  have accepted : cmdRefManual s.c.start i.toNat = (0, s.c.start.selectCand i.toNat true false) := by
    have applied : s.c.start.takeManual i.toNat = s.c.start.selectCand i.toNat true false := by
      have fits : s.c.start.eligible i.toNat = true := eligible
      have elsewhere : ¬ i.toNat = s.c.start.rd MerSel.sel := fun e => other e.symm
      unfold Chip.takeManual Chip.applySel
      rw [if_pos fits]
      dsimp only
      rw [if_neg (by omega), if_neg (by omega), if_neg elsewhere]
    have fits : s.c.start.eligible i.toNat = true := eligible
    have pair : s.c.start.paired = true := paired
    rw [cmdRefManual, pair, fits, Chip.ignoresMirrored_alone (c := s.c.start) active alone, if_neg (by decide),
      if_neg (by simp; omega), if_neg (by decide), Chip.decision_alone (c := s.c.start) alone, applied]
  obtain ⟨sel, manual, pend, quiet⟩ := s.c.start.selectCand_shows (n := i.toNat) (by omega) true false
  have left := (Chip.Steers.selectCand (.refl s.c.start) i.toNat true false).toTimes.leaves
  generalize s.c.start.selectCand i.toNat true false = b at *
  let d := b.cmdEnd 0x03 0
  have still : d.reports = [] := quiet
  have whole : Chip.Leaves [] [cmdPage] s.c.start d :=
    (left.widen (List.Subset.refl _) (List.nil_subset _)).cmdEnd (List.mem_singleton_self _) 0x03 0
  exact gives_of_body hs (exec_refManualSelect i s) (d := d) (by rw [accepted])
    ⟨(d.rd_settle_idle still _).trans ((b.rd_cmdEnd_sel 0x03 (by decide)).trans sel),
      (d.rd_settle_idle still _).trans ((b.rd_cmdEnd_sel 0x03 (by decide)).trans manual),
      (congrArg Mer.pend (idle_settle d still).mer).trans ((congrArg Mer.pend (b.mer_cmdEnd 0x03 0)).trans pend),
      (d.rd_settle_idle still _).trans (b.rd_state_cmdEnd_done 0x03), (d.rd_settle_idle still _).trans (b.rd_refuse_cmdEnd_done 0x03),
      whole.confined⟩

theorem refManualSelect_single {i : BitVec 16} (hs : s.Runs) (single : s.c.paired = false) : Gives (.refManualSelect i) s (fun t =>
      t.c.rd Cmd.state = 4 ∧ t.c.rd Cmd.refuse = 1 ∧ bit (t.c.stickyWord cmdPage) 1 = true ∧ t.c.mer = s.c.mer ∧
        Confined [] [cmdPage] s t) := by
  have refused : cmdRefManual s.c.start i.toNat = (1, s.c.start) := by
    have alone : s.c.start.paired = false := single
    rw [cmdRefManual, alone]
    rfl
  let d := s.c.start.cmdEnd 0x03 1
  obtain ⟨state, refuse, marked⟩ := Chip.cmdEnd_settles (c := s.c.start) (by simp) 0x03 (code := 1) (by decide)
  have class15 : ∀ r ∈ d.reports, r.src / 16 ∈ [15] := fun r hr => by
    rcases s.c.start.reports_cmdEnd 0x03 1 r hr with h | h
    · cases h
    · rw [h]
      decide
  have mer : d.settle.mer = s.c.mer := ((d.reacts_settle class15).mer (by decide)).trans (s.c.start.mer_cmdEnd 0x03 1)
  have whole : Chip.Leaves [] [cmdPage] s.c.start d := (Chip.Leaves.refl _).cmdEnd (List.mem_singleton_self _) 0x03 1
  exact gives_of_body hs (exec_refManualSelect i s) (d := d) (by rw [refused]) ⟨state, refuse, marked, mer, whole.confined⟩

end

/-! ## The age of a holdover (R348) -/

theorem Chip.moves_dropPending (c : Chip) : Chip.Moves selFields c c.dropPending ∧ c.dropPending.mer.aged = c.mer.aged := by
  let v := if c.rd MerLoop.state = 4 then 15 else 8
  let b := (((c.updMer (fun m => { m with pend := none, fromHold := false })).wr MerSel.sel v).wr MerSel.manual 0).wr MerSel.fallback 0
  have whole : c.dropPending = if c.rd MerSel.sel = v then b.showQlOut else b.showQlOut.stick merSelPage 0 := rfl
  have dropped : Chip.Moves selFields c (c.updMer (fun m => { m with pend := none, fromHold := false })) := (Chip.Moves.refl c).keep rfl rfl rfl
  have given : Chip.Moves selFields c b :=
    ((dropped.wr (f := MerSel.sel) (by decide) v).wr (f := MerSel.manual) (by decide) 0).wr (f := MerSel.fallback) (by decide) 0
  have shown : Chip.Moves selFields c b.showQlOut := given.wr (f := MerSel.qlOut) (by decide) _
  have aged : b.mer.aged = c.mer.aged := rfl
  rw [whole]
  clear_value b
  split
  · exact ⟨shown, aged⟩
  · exact ⟨shown.keep rfl rfl rfl, aged⟩

theorem Chip.rd_state_loopToFreerun (c : Chip) : c.loopToFreerun.rd MerLoop.state = 0 := by
  let b := (((c.endHoldover.wr MerLoop.state 0).wr MerSel.sel 8).wr MerSel.manual 0).wr MerSel.fallback 0
  have free : b.rd MerLoop.state = 0 := (Chip.rd_wr_ne _ _ (by decide)).trans ((Chip.rd_wr_ne _ _ (by decide)).trans
    ((Chip.rd_wr_ne _ _ (by decide)).trans (Chip.rd_wr_self c.endHoldover _ _)))
  have shown (d : Chip) (v : Nat) : (d.wr MerSel.qlOut v).rd MerLoop.state = d.rd MerLoop.state := d.rd_wr_ne v (by decide)
  exact (shown (b.updMer fun m => { m with pend := none, drive := 8, clean := false, target := 0 }) 14).trans free

/-- A selection that is made in `HOLDOVER` leaves the loop and its age there, or takes it to `FREERUN`. -/
theorem Chip.applySel_held {c : Chip} (held : c.rd MerLoop.state = 4) (n : Nat) (manual fallback : Bool) :
    (Chip.Moves selFields c (c.applySel n manual fallback) ∧ (c.applySel n manual fallback).mer.aged = c.mer.aged) ∨
      (c.applySel n manual fallback).rd MerLoop.state = 0 := by
  have shows {d : Chip} (h : Chip.Moves selFields c d) :
      Chip.Moves selFields c ((d.wr MerSel.manual (b2n manual)).wr MerSel.fallback (b2n fallback)) :=
    (h.wr (by decide) _).wr (by decide) _
  unfold Chip.applySel
  dsimp only
  split
  · left
    rw [if_pos (.inl held)]
    exact c.moves_dropPending
  split
  · right
    have still : ¬c.rd MerLoop.state = 0 := by omega
    rw [if_neg still]
    exact (Chip.rd_wr_ne _ _ (by decide)).trans ((Chip.rd_wr_ne _ _ (by decide)).trans c.rd_state_loopToFreerun)
  split
  · exact .inl ⟨shows ((Chip.Moves.refl c).wr (by decide) _), rfl⟩
  · left
    unfold Chip.selectCand
    exact ⟨((((((Chip.Moves.refl c).wr (f := MerSel.sel) (by decide) n).wr (f := MerSel.manual) (by decide) _).wr (f := MerSel.fallback)
      (by decide) _).keep rfl rfl rfl).wr (f := MerSel.qlOut) (by decide) _).keep rfl rfl rfl, rfl⟩

/-- The same of the selection that follows a change. -/
theorem Chip.reselect_held {c : Chip} (held : c.rd MerLoop.state = 4) :
    (Chip.Moves selFields c c.reselect ∧ c.reselect.mer.aged = c.mer.aged) ∨ c.reselect.rd MerLoop.state = 0 := by
  have noted (p : Prop) [Decidable p] (n m : Nat) (manual fallback : Bool) :
      (Chip.Moves selFields c ((if p then c.updMer (fun x => { x with lastLost := m }) else c).applySel n manual fallback) ∧
        ((if p then c.updMer (fun x => { x with lastLost := m }) else c).applySel n manual fallback).mer.aged = c.mer.aged) ∨
        ((if p then c.updMer (fun x => { x with lastLost := m }) else c).applySel n manual fallback).rd MerLoop.state = 0 := by
    split
    · refine (Chip.applySel_held (c := c.updMer (fun x => { x with lastLost := m })) held n manual fallback).imp_left fun h => ?_
      have lost : Chip.Moves selFields c (c.updMer (fun x => { x with lastLost := m })) := (Chip.Moves.refl c).keep rfl rfl rfl
      exact ⟨lost.trans h.1, h.2⟩
    · exact Chip.applySel_held held n manual fallback
  unfold Chip.reselect
  split
  · dsimp only
    split <;> exact noted _ _ _ _ _
  · exact Chip.applySel_held held _ _ _

/-- A holdover that has come to `HOLD_MAX`, before the selection is made again. -/
def Chip.ages (c : Chip) : Chip :=
  let c := (c.wr MerHold.age (max (c.rd MerHold.age) (c.rd MerHold.holdMax))).updMer (fun m => { m with aged := true })
  (((c.raise 0xA6 merHoldPage 15 0).stick merHoldPage 1).stick merLoopPage 1).wr MerSel.qlOut 14

section
variable {s : State}

theorem holdoverAgeLimit_gives (hs : s.Runs) (held : s.c.rd MerLoop.state = 4) (young : s.c.mer.aged = false) :
    Gives .holdoverAgeLimit s (fun t =>
      (t.c.rd MerLoop.state = 4 →
        t.c.holdoverQl = 14 ∧ t.c.mer.aged = true ∧ t.c.rd MerHold.age = max (s.c.rd MerHold.age) (s.c.rd MerHold.holdMax)) ∧
      (t.c.rd MerLoop.state = 4 ∨ t.c.rd MerLoop.state = 0) ∧ bit (t.c.stickyWord merHoldPage) 1 = true ∧
      bit (t.c.stickyWord merLoopPage) 1 = true ∧ Within [merHoldPage] s t) := by
  let b := s.c.start.ages
  have fits : max (s.c.rd MerHold.age) (s.c.rd MerHold.holdMax) < 2 ^ 20 := by
    have age : s.c.rd MerHold.age < 2 ^ 20 := s.c.rd_lt MerHold.age
    have limit : s.c.rd MerHold.holdMax < 2 ^ 20 := s.c.rd_lt MerHold.holdMax
    omega
  let a := s.c.start.wr MerHold.age (max (s.c.rd MerHold.age) (s.c.rd MerHold.holdMax))
  let told := (((a.updMer (fun m => { m with aged := true })).raise 0xA6 merHoldPage 15 0).stick merHoldPage 1).stick merLoopPage 1
  have whole : b = told.wr MerSel.qlOut 14 := rfl
  have state : b.rd MerLoop.state = 4 :=
    (told.rd_wr_ne _ (by decide)).trans ((s.c.start.rd_wr_ne _ (by decide)).trans held)
  have age : b.rd MerHold.age = max (s.c.rd MerHold.age) (s.c.rd MerHold.holdMax) :=
    (told.rd_wr_ne _ (by decide)).trans ((s.c.start.rd_wr_self _ _).trans (Nat.mod_eq_of_lt fits))
  have limit : b.rd MerHold.holdMax = s.c.rd MerHold.holdMax := (told.rd_wr_ne _ (by decide)).trans (s.c.start.rd_wr_ne _ (by decide))
  have aged : b.mer.aged = true := rfl
  have holdMark : bit (b.stickyWord merHoldPage) 1 = true :=
    (Chip.reacts_stick (cs := []) _ merLoopPage 1).sticky _ _ (Chip.bit_stick _ _ _)
  have loopMark : bit (b.stickyWord merLoopPage) 1 = true := Chip.bit_stick _ _ _
  have times : Chip.Times merPages [merHoldPage] s.c.start b :=
    ((((((Chip.Times.refl _).wr (f := MerHold.age) rfl (by decide) _).updMer _).raise rfl _ _ _).stick (.inl (List.mem_singleton_self _))
      1).stick (.inr rfl) 1).wr (f := MerSel.qlOut) rfl (by decide) 14
  have body : (if s.c.start.rd MerLoop.state = 4 ∧ !s.c.start.mer.aged then s.c.start.holdAged else s.c.start) = b.reselect :=
    if_pos ⟨held, by simp [young]⟩
  clear_value b
  have left := Chip.Steers.reselect (.refl b)
  have all := times.steers left
  have after := Chip.reselect_held state
  generalize b.reselect = d at *
  have states : d.rd MerLoop.state = 4 ∨ d.rd MerLoop.state = 0 :=
    after.imp_left fun h => (h.1.rd _ (by decide)).trans state
  have free : ∀ r ∈ d.reports, d.Uncontained (d.effSev r) r := fun r hr _ e he => by
    have class10 : r.src / 16 = 10 := (all.reports r hr).resolve_left (by simp)
    have same : e.rd MerLoop.state = d.rd MerLoop.state := by rw [Chip.rd, he, Chip.rd]
    unfold Chip.contain
    rw [class10]
    exact if_neg (by omega)
  obtain ⟨flds, mer⟩ := Chip.settle_uncontained free
  have rd (f : Fld) : d.settle.rd f = d.rd f := Chip.rd_settle_uncontained free f
  refine gives_of_body hs (exec_holdoverAgeLimit s) body ⟨fun stays => ?_, ?_, Chip.bit_stickyWord_settle (left.set _ _ holdMark),
    Chip.bit_stickyWord_settle (left.set _ _ loopMark), Within.of_body (fun f hf hr _ => all.leaves.rd f hf hr (by simp)) all.leaves.sticky⟩
  · obtain ⟨moves, kept⟩ := after.resolve_right fun z => by
      have four : d.rd MerLoop.state = 4 := (rd _).symm.trans stays
      omega
    have ages : d.settle.rd MerHold.age = max (s.c.rd MerHold.age) (s.c.rd MerHold.holdMax) :=
      (rd _).trans ((moves.rd _ (by decide)).trans age)
    have limits : d.settle.rd MerHold.holdMax = s.c.rd MerHold.holdMax := (rd _).trans ((moves.rd _ (by decide)).trans limit)
    refine ⟨?_, (congrArg Mer.aged mer).trans (kept.trans aged), ages⟩
    show d.settle.holdoverQl = 14
    rw [Chip.holdoverQl, ages, limits, if_neg (by omega)]
  · exact states.imp (rd _).trans (rd _).trans

end

/-- Settles O34: each entry to a state of the loop shows its state and its bandwidth, and a holdover that ages stays one unless LOCAL ends
it. -/
theorem loopStates : Obligations.LoopStates := fun _ =>
  ⟨fun _ hs paired small eligible other active alone => refManualSelect_accepted hs paired small eligible other active alone,
    fun _ hs single => refManualSelect_single hs single,
    fun _ _ _ hs other present type _ selected mark => refPhaseEvent_selected hs other present type selected mark,
    fun _ _ _ hs none_ => refPhaseEvent_none hs none_, loopAcquired_service, loopAcquired_other, loopNarrowStep_gives, loopPhaseLoss_gives,
    recoveryEnd_gives, holdoverAgeLimit_gives⟩

end Sys2Proof.Machine
end

section
/-! SUPPORT. Candidates (R328 to R338), which O33 states. -/

namespace Sys2Proof.Machine

theorem exec_candidatePresent (i : Fin 9) (s : State) : exec (.candidatePresent i) s = execCandidatePresent i s := rfl
theorem exec_candidateLost (i : Fin 9) (s : State) : exec (.candidateLost i) s = execCandidateLost i s := rfl
theorem exec_qualificationDone (i : Fin 9) (s : State) : exec (.qualificationDone i) s = execQualificationDone i s := rfl
theorem exec_disqualification (i : Fin 9) (hard : Bool) (s : State) :
    exec (.disqualification i hard) s = execDisqualification i hard s := rfl
theorem exec_disqHoldExpire (i : Fin 9) (s : State) : exec (.disqHoldExpire i) s = execDisqHoldExpire i s := rfl
theorem exec_qualityMessageReceive (i : Fin 9) (m : List (BitVec 8)) (s : State) :
    exec (.qualityMessageReceive i m) s = execQualityMessageReceive i m s := rfl
theorem exec_qmsgTimeout (i : Fin 9) (s : State) : exec (.qmsgTimeout i) s = execQmsgTimeout i s := rfl
theorem exec_candidateMeasure (freqs : List (BitVec 32)) (mean : BitVec 24) (s : State) :
    exec (.candidateMeasure freqs mean) s = execCandidateMeasure freqs mean s := rfl
theorem exec_disagreement (i j : Fin 9) (cleared : Bool) (s : State) :
    exec (.disagreement i j cleared) s = execDisagreement i j cleared s := rfl

/-! ## A candidate's record -/

theorem Chip.cand_updCand_self (c : Chip) (i : Nat) (f : Cand → Cand) : (c.updCand i f).cand i = f (c.cand i) := Store.get_set_self _ _ _ _

theorem Chip.cand_updCand_ne (c : Chip) {i j : Nat} (h : j ≠ i) (f : Cand → Cand) : (c.updCand i f).cand j = c.cand j :=
  Store.get_set_ne _ _ _ h

theorem Chip.cand_congr {c d : Chip} (h : d.mer.cands = c.mer.cands) (i : Nat) : d.cand i = c.cand i := by
  rw [Chip.cand, h, Chip.cand]

theorem Chip.Steers.cands {a b : Chip} (h : Chip.Steers a b) (i : Nat) : b.cand i = a.cand i :=
  have same := congrArg Mer.cands h.mer
  Chip.cand_congr same i

theorem Chip.Steers.apart {a b : Chip} (h : Chip.Steers a b) : b.mer.apart = a.mer.apart :=
  have same := congrArg Mer.apart h.mer
  same

theorem Chip.cand_settle (d : Chip) (i : Nat) : d.settle.cand i = d.cand i :=
  have same := congrArg Mer.cands (settled d).mer
  Chip.cand_congr same i

theorem Chip.apart_settle (d : Chip) : d.settle.mer.apart = d.mer.apart :=
  have same := congrArg Mer.apart (settled d).mer
  same

/-! ## What a selection leaves of the registers -/

theorem Chip.rd_loopToFreerun (c : Chip) {f : Fld} (h : ∀ g ∈ holdoverFields, f.key ≠ g.key) : c.loopToFreerun.rd f = c.rd f := by
  let b := (((c.endHoldover.wr MerLoop.state 0).wr MerSel.sel 8).wr MerSel.manual 0).wr MerSel.fallback 0
  have shown (d : Chip) (v : Nat) : (d.wr MerSel.qlOut v).rd f = d.rd f := d.rd_wr_ne v (h _ (by decide))
  have held : c.endHoldover.rd f = c.rd f := c.rd_wr_ne 0 (h MerHold.age (by decide))
  have left : b.rd f = c.rd f := (Chip.rd_wr_ne _ _ (h _ (by decide))).trans ((Chip.rd_wr_ne _ _ (h _ (by decide))).trans
    ((Chip.rd_wr_ne _ _ (h _ (by decide))).trans ((c.endHoldover.rd_wr_ne _ (h _ (by decide))).trans held)))
  exact (shown (b.updMer fun m => { m with pend := none, drive := 8, clean := false, target := 0 }) 14).trans left

theorem selFields_sub : selFields ⊆ holdoverFields := by decide

theorem Chip.rd_applySel (c : Chip) (n : Nat) (manual fallback : Bool) {f : Fld} (h : ∀ g ∈ holdoverFields, f.key ≠ g.key) :
    (c.applySel n manual fallback).rd f = c.rd f := by
  have sels {d : Chip} (k : Chip.Moves selFields c d) : d.rd f = c.rd f := k.rd f fun g m => h g (selFields_sub m)
  have dropped : c.dropPending.rd f = c.rd f := sels c.moves_dropPending.1
  have shown {d : Chip} (k : d.rd f = c.rd f) : ((d.wr MerSel.manual (b2n manual)).wr MerSel.fallback (b2n fallback)).rd f = c.rd f :=
    (Chip.rd_wr_ne _ _ (h _ (by decide))).trans ((Chip.rd_wr_ne _ _ (h _ (by decide))).trans k)
  unfold Chip.applySel
  dsimp only
  split
  · split
    · exact dropped
    · exact (c.reacts_loopToHoldover (cs := [10]) (by simp)).rd f (by simpa [containedBy] using h)
  split
  · refine shown ?_
    split
    · exact dropped
    · exact c.rd_loopToFreerun h
  split
  · exact shown (c.rd_wr_ne _ (h MerSel.qlOut (by decide)))
  · unfold Chip.selectCand
    exact sels ((((((Chip.Moves.refl c).wr (f := MerSel.sel) (by decide) n).wr (f := MerSel.manual) (by decide) _).wr (f := MerSel.fallback)
      (by decide) _).keep rfl rfl rfl).wr (f := MerSel.qlOut) (by decide) _ |>.keep rfl rfl rfl)

theorem Chip.rd_reselect (c : Chip) {f : Fld} (h : ∀ g ∈ holdoverFields, f.key ≠ g.key) : c.reselect.rd f = c.rd f := by
  have noted (p : Prop) [Decidable p] (n m : Nat) (manual fallback : Bool) :
      ((if p then c.updMer (fun x => { x with lastLost := m }) else c).applySel n manual fallback).rd f = c.rd f := by
    refine (Chip.rd_applySel _ n manual fallback h).trans ?_
    split <;> rfl
  unfold Chip.reselect
  split
  · dsimp only
    split <;> exact noted _ _ _ _ _
  · exact c.rd_applySel _ _ _ h

theorem Chip.rd_candChanged (c : Chip) (i : Nat) {f : Fld} (h : ∀ g ∈ MerSel.ql.nth i :: MerSel.cstate.nth i :: holdoverFields, f.key ≠ g.key) :
    (c.candChanged i).rd f = c.rd f :=
  (Chip.rd_reselect _ fun g m => h g (by simp [m])).trans
    ((Chip.rd_wr_ne _ _ (h _ (by simp))).trans (c.rd_wr_ne _ (h _ (by simp))))

/-- What the end of a command whose reports are of class 10 leaves. -/
theorem Chip.rd_settle_class10 {d : Chip} (class10 : ∀ r ∈ d.reports, r.src / 16 = 10) {f : Fld}
    (h : ∀ g ∈ holdoverFields, f.key ≠ g.key) : d.settle.rd f = d.rd f :=
  (d.reacts_settle (cs := [10]) fun r hr => by simp [class10 r hr]).rd f (by simpa [containedBy] using h)

theorem Chip.Times.within {s : State} {d : Chip} {qs : List Nat} (h : Chip.Times merPages qs s.c.start d) :
    Within qs s { s with c := d.settle } :=
  Within.of_body (fun f hf hr _ => h.leaves.rd f hf hr (by simp)) h.sticky

theorem Chip.Times.class10 {s : State} {d : Chip} {ps qs : List Nat} (h : Chip.Times ps qs s.c.start d) :
    ∀ r ∈ d.reports, r.src / 16 = 10 := fun r hr => (h.reports r hr).resolve_left (by simp)

/-! ## Presence and qualification (R328, R334) -/

/-- The fields of each candidate's own that a selection and a report's reaction leave. -/
theorem own_apart (i : Fin 9) : ∀ f ∈ [MerSel.drift.nth i, MerSel.freq.nth i, MerSel.srcId.nth i],
    ∀ g ∈ MerSel.ql.nth i :: MerSel.cstate.nth i :: holdoverFields, f.key ≠ g.key :=
  (by decide : ∀ i : Fin 9, ∀ f ∈ [MerSel.drift.nth i, MerSel.freq.nth i, MerSel.srcId.nth i],
    ∀ g ∈ MerSel.ql.nth i :: MerSel.cstate.nth i :: holdoverFields, f.key ≠ g.key) i

section
variable {s : State} {i : Fin 9}

/-- A candidate's record changes, its state is shown and the selection follows. -/
theorem Chip.updCand_changed (c : Chip) (i : Fin 9) (f : Cand → Cand) : ((c.updCand i f).candChanged i).cand i = f (c.cand i) ∧
    (∀ j, j ≠ i.val → ((c.updCand i f).candChanged i).cand j = c.cand j) ∧
    Chip.Times merPages [] c ((c.updCand i f).candChanged i) := by
  have left := Chip.Steers.candChanged (.refl (c.updCand i f)) i.isLt
  exact ⟨(left.cands i).trans (c.cand_updCand_self i f), fun j h => (left.cands j).trans (c.cand_updCand_ne h f),
    ((Chip.Times.refl c).updCand i f).steers left⟩

theorem candidatePresent_gives (hs : s.Runs) (can : s.c.canPresent i = true) (absent : (s.c.cand i).present = false) :
    Gives (.candidatePresent i) s (fun t =>
      (t.c.cand i).present = true ∧ (t.c.cand i).st = (if i = 8 then 2 else 1) ∧ (t.c.cand i).eff = [] ∧ Within [] s t) := by
  let f : Cand → Cand := fun x => { x with present := true, st := if i.val = 8 then 2 else 1, eff := [], timedOut := false, hardRun := 0 }
  let b := s.c.start.updCand i f
  let d := if i.val = 8 then b.updMer (fun m => { m with stopped := false }) else b
  have body : (if s.c.start.canPresent i then s.c.start.candPresent i else s.c.start) = d.candChanged i := by
    have missing : ¬(s.c.start.cand i).present = true := by
      show ¬(s.c.cand i).present = true
      rw [absent]
      decide
    refine (if_pos can).trans ?_
    exact if_neg missing
  have cand : d.cand i = f (s.c.cand i) := by
    show Chip.cand (if i.val = 8 then _ else _) i = _
    split <;> exact s.c.start.cand_updCand_self i f
  have times : Chip.Times merPages [] s.c.start d :=
    .ite (fun _ => ((Chip.Times.refl _).updCand i f).updMer _) fun _ => (Chip.Times.refl _).updCand i f
  clear_value d
  have left := Chip.Steers.candChanged (.refl d) i.isLt
  have shown : (d.candChanged i).settle.cand i = f (s.c.cand i) := ((d.candChanged i).cand_settle i).trans ((left.cands i).trans cand)
  refine gives_of_body hs (exec_candidatePresent i s) body ⟨congrArg Cand.present shown, (congrArg Cand.st shown).trans ?_,
    congrArg Cand.eff shown, (times.steers left).within⟩
  show (if i.val = 8 then 2 else 1) = _
  simp only [Fin.ext_iff]
  rfl

/-- The report of a loss is noted, and changes nothing else of its page. -/
theorem Chip.reportsLoss_shows (c : Chip) (i : Nat) (sel : Prop) [Decidable sel] : (c.reportsLoss i sel).flds = c.flds ∧
    (c.reportsLoss i sel).mer = c.mer ∧ bit ((c.reportsLoss i sel).stickyWord merSelPage) (if sel then 1 else 2) = true := by
  have noted (b : Chip) (n : Nat) (h : bit (b.stickyWord merSelPage) n = true) (k : b.flds = c.flds ∧ b.mer = c.mer) :
      (if i = 8 then (b.raise 0xAB merLoopPage 8 0).stick merLoopPage 5 else b).flds = c.flds ∧
      (if i = 8 then (b.raise 0xAB merLoopPage 8 0).stick merLoopPage 5 else b).mer = c.mer ∧
      bit ((if i = 8 then (b.raise 0xAB merLoopPage 8 0).stick merLoopPage 5 else b).stickyWord merSelPage) n = true := by
    split
    · exact ⟨k.1, k.2, (Chip.reacts_stick (cs := []) (b.raise 0xAB merLoopPage 8 0) merLoopPage 5).sticky _ _ h⟩
    · exact ⟨k.1, k.2, h⟩
  unfold Chip.reportsLoss
  by_cases selected : sel
  · rw [if_pos selected, if_pos selected]
    exact noted _ 1 (Chip.bit_stick _ _ _) ⟨rfl, rfl⟩
  · rw [if_neg selected, if_neg selected]
    exact noted _ 2 (Chip.bit_stick _ _ _) ⟨rfl, rfl⟩

theorem candidateLost_gives (hs : s.Runs) (present : (s.c.cand i).present = true) : Gives (.candidateLost i) s (fun t =>
      (t.c.cand i).present = false ∧ (t.c.cand i).st = 0 ∧ t.c.rd (MerSel.drift.nth i) = 0 ∧ t.c.rd (MerSel.freq.nth i) = 0 ∧
      bit (t.c.stickyWord merSelPage) (if s.c.rd MerSel.sel = i then 1 else 2) = true ∧ Within [] s t) := by
  let b := s.c.start.loses i
  let d := b.reportsLoss i (s.c.rd MerSel.sel = i)
  have body : s.c.start.candLost i = d.candChanged i := by
    rw [Chip.candLost_eq]
    refine if_neg ?_
    show ¬(!(s.c.cand i).present) = true
    rw [present]
    decide
  have times : Chip.Times merPages [] s.c.start d := ((Chip.Times.refl _).loses i.isLt).reportsLoss i _
  have apart : (MerSel.drift.nth i).key ≠ (MerSel.freq.nth i).key :=
    (by decide : ∀ i : Fin 9, (MerSel.drift.nth i).key ≠ (MerSel.freq.nth i).key) i
  have drift : b.rd (MerSel.drift.nth i) = 0 := (Chip.rd_wr_ne _ _ apart).trans ((Chip.rd_wr_self _ _ _).trans (Nat.zero_mod _))
  have freq : b.rd (MerSel.freq.nth i) = 0 := (Chip.rd_wr_self _ _ _).trans (Nat.zero_mod _)
  have cand : b.cand i = { s.c.cand i with present := false, st := 0, hardRun := 0, eval := false } :=
    s.c.start.cand_updCand_self i fun x => { x with present := false, st := 0, hardRun := 0, eval := false }
  clear_value b
  obtain ⟨flds, mer, marked⟩ := b.reportsLoss_shows i (s.c.rd MerSel.sel = i)
  change d.flds = _ at flds
  change d.mer = _ at mer
  change bit (d.stickyWord merSelPage) _ = true at marked
  clear_value d
  have left := Chip.Steers.candChanged (.refl d) i.isLt
  have whole := times.steers left
  have shown : (d.candChanged i).settle.cand i = { s.c.cand i with present := false, st := 0, hardRun := 0, eval := false } :=
    ((d.candChanged i).cand_settle i).trans ((left.cands i).trans ((Chip.cand_congr (congrArg Mer.cands mer) i).trans cand))
  have field {f : Fld} (m : f ∈ [MerSel.drift.nth i, MerSel.freq.nth i, MerSel.srcId.nth i]) (h : b.rd f = 0) :
      (d.candChanged i).settle.rd f = 0 := by
    have kept : d.rd f = b.rd f := by rw [Chip.rd, flds, Chip.rd]
    exact (Chip.rd_settle_class10 whole.class10 fun g k => own_apart i f m g (by simp [k])).trans
      ((d.rd_candChanged i (own_apart i f m)).trans (kept.trans h))
  exact gives_of_body hs (exec_candidateLost i s) body ⟨congrArg Cand.present shown, congrArg Cand.st shown, field (by simp) drift,
    field (by simp) freq, Chip.bit_stickyWord_settle (left.set _ _ marked), whole.within⟩

theorem qualificationDone_gives (hs : s.Runs) (present : (s.c.cand i).present = true) (qualifies : s.c.candState i = 1)
    (within : (s.c.cand i).hardRun = 0) : Gives (.qualificationDone i) s (fun t =>
      (t.c.cand i).st = 2 ∧ (∀ j : Fin 9, j ≠ i → t.c.cand j = s.c.cand j) ∧ Within [] s t) := by
  obtain ⟨own, others, times⟩ := s.c.start.updCand_changed i fun x => { x with st := 2 }
  exact gives_of_body hs (exec_qualificationDone i s) (if_pos ⟨present, qualifies, within⟩)
    ⟨congrArg Cand.st ((Chip.cand_settle _ i).trans own),
      fun j other => (Chip.cand_settle _ j).trans (others j fun e => other (Fin.ext e)), times.within⟩

theorem disqHoldExpire_gives (hs : s.Runs) (present : (s.c.cand i).present = true) (disqualified : s.c.candState i = 3)
    (cleared : (s.c.cand i).hardRun = 0) : Gives (.disqHoldExpire i) s (fun t => (t.c.cand i).st = 1 ∧ Within [] s t) := by
  obtain ⟨own, -, times⟩ := s.c.start.updCand_changed i fun x => { x with st := 1 }
  exact gives_of_body hs (exec_disqHoldExpire i s) (if_pos ⟨present, disqualified, cleared⟩)
    ⟨congrArg Cand.st ((Chip.cand_settle _ i).trans own), times.within⟩

end

/-- A disqualified candidate (R334). -/
theorem Chip.disqualify_shows {c : Chip} {i : Fin 9} (qualified : c.candState i = 2) (other : i ≠ 8) :
    ((c.disqualify i).cand i).st = 3 ∧ bit ((c.disqualify i).stickyWord merSelPage) 4 = true := by
  let b := ((c.updCand i (fun x => { x with st := 3 })).raise 0xA3 merSelPage i 0).stick merSelPage 4
  have body : c.disqualify i = b.candChanged i := if_pos ⟨qualified, fun e => other (Fin.ext e)⟩
  have own : b.cand i = { c.cand i with st := 3 } := c.cand_updCand_self i fun x => { x with st := 3 }
  have marked : bit (b.stickyWord merSelPage) 4 = true := Chip.bit_stick _ _ _
  rw [body]
  clear_value b
  have left := Chip.Steers.candChanged (.refl b) i.isLt
  exact ⟨congrArg Cand.st ((left.cands i).trans own), left.set _ _ marked⟩

theorem Chip.times_disqualify (c : Chip) (i : Fin 9) : Chip.Times merPages [] c (c.disqualify i) := by
  unfold Chip.disqualify
  refine .ite (fun _ => Chip.Times.steers ?_ (Chip.Steers.candChanged (.refl _) i.isLt)) fun _ => .refl c
  exact (((Chip.Times.refl c).updCand i _).raise rfl _ _ _).stick (.inr rfl) 4

section
variable {s : State} {i : Fin 9}

theorem disqualification_gives (hs : s.Runs) (qualified : s.c.candState i = 2) (other : i ≠ 8) : Gives (.disqualification i false) s (fun t =>
      (t.c.cand i).st = 3 ∧ bit (t.c.stickyWord merSelPage) 4 = true ∧ Within [] s t) := by
  obtain ⟨st, marked⟩ := Chip.disqualify_shows (c := s.c.start) qualified other
  exact gives_of_body hs (exec_disqualification i false s) (d := s.c.start.disqualify i) (if_neg (by simp))
    ⟨(congrArg Cand.st (Chip.cand_settle _ i)).trans st, Chip.bit_stickyWord_settle marked, (s.c.start.times_disqualify i).within⟩

/-! ## Quality messages (R331) -/

theorem qmsgTimeout_gives (hs : s.Runs) (noPtp0 : i ≠ 4) (noPtp1 : i ≠ 5) (noLocal : i ≠ 8) (present : (s.c.cand i).present = true)
    (once : (s.c.cand i).timedOut = false ∨ (s.c.cand i).chain = true) : Gives (.qmsgTimeout i) s (fun t =>
      (t.c.cand i).timedOut = true ∧ (t.c.cand i).eff = [] ∧ (t.c.cand i).chain = false ∧ bit (t.c.stickyWord merSelPage) 6 = true ∧
      Within [] s t) := by
  let b := (s.c.start.raise 0xA9 merSelPage i 0).stick merSelPage 6
  have begun : Chip.Times merPages [] s.c.start b := ((Chip.Times.refl _).raise rfl _ _ _).stick (.inr rfl) 6
  have marked : bit (b.stickyWord merSelPage) 6 = true := Chip.bit_stick _ _ _
  obtain ⟨own, -, times⟩ := b.updCand_changed i fun x => { x with timedOut := true, chain := false, eff := [] }
  have shown := (Chip.cand_settle _ i).trans own
  refine gives_of_body hs (exec_qmsgTimeout i s) (d := (b.updCand i fun x => { x with timedOut := true, chain := false, eff := [] }).candChanged i)
    (if_neg ?_) ⟨congrArg Cand.timedOut shown, congrArg Cand.eff shown, congrArg Cand.chain shown,
      Chip.bit_stickyWord_settle (times.set _ _ marked), (begun.trans times).within⟩
  have here : (s.c.start.cand i).present = true := present
  rintro (e | e | e | e | ⟨timed, chained⟩)
  · exact noPtp0 (Fin.ext e)
  · exact noPtp1 (Fin.ext e)
  · exact noLocal (Fin.ext e)
  · rw [here] at e
    exact absurd e (by decide)
  · rcases once with h | h
    · exact absurd (h.symm.trans timed) (by decide)
    · have chain : (s.c.start.cand i).chain = true := h
      rw [chain] at chained
      exact absurd chained (by decide)

end

/-- The check of a message's syndrome (R330): `QMSG` inputs are a checker. -/
def Chip.messageChecked (c : Chip) (i : Nat) (m : List Nat) : Checked :=
  if i < 4 then c.check 12 i (qmsgSyndrome m) else ⟨c, qmsgSyndrome m, qmsgSyndrome m, false⟩

/-- A message has been judged. -/
def Chip.judgesMessage (c : Chip) (i : Nat) (m : List Nat) (bad : Bool) : Chip :=
  let c' := (c.messageChecked i m).c.judge 0xA8 merSelPage i 0 bad (c.messageChecked i m).inj
  if bad || (c.messageChecked i m).inj then c'.stick merSelPage 6 else c'

theorem Chip.messageChecked_keeps (c : Chip) (i : Nat) (m : List Nat) : (c.messageChecked i m).c.mer = c.mer ∧
    (c.messageChecked i m).c.reports = c.reports ∧ (c.messageChecked i m).c.flds = c.flds ∧
    ∀ p, reactsSticky p = false → (c.messageChecked i m).c.stickyWord p = c.stickyWord p := by
  unfold Chip.messageChecked
  split
  · obtain ⟨flds, sticky, -, -⟩ := c.onlyCollects_check 12 i (qmsgSyndrome m)
    refine ⟨?_, ?_, flds, sticky⟩
    all_goals
      unfold Chip.check
      split
      · split
        · dsimp only
          split <;> rfl
        · rfl
      · rfl
  · exact ⟨rfl, rfl, rfl, fun _ _ => rfl⟩

/-- The judgement of a message changes no register of Meridian's. -/
theorem Chip.judgesMessage_shows (c : Chip) (i : Nat) (m : List Nat) (bad : Bool) : (c.judgesMessage i m bad).mer = c.mer ∧
    (c.judgesMessage i m bad).flds = c.flds ∧ (bad = true → bit ((c.judgesMessage i m bad).stickyWord merSelPage) 6 = true) ∧
    (∀ r ∈ (c.judgesMessage i m bad).reports, r ∈ c.reports ∨ r.src / 16 = 10) ∧ Chip.Leaves [] [] c (c.judgesMessage i m bad) := by
  obtain ⟨mer, reports, flds, sticky⟩ := c.messageChecked_keeps i m
  let b := (c.messageChecked i m).c
  let d := b.judge 0xA8 merSelPage i 0 bad (c.messageChecked i m).inj
  have whole : c.judgesMessage i m bad = if bad || (c.messageChecked i m).inj then d.stick merSelPage 6 else d := rfl
  obtain ⟨u, r, frame⟩ := b.judge_frame 0xA8 merSelPage i 0 bad (c.messageChecked i m).inj
  have dFlds : d.flds = b.flds := by
    show (b.judge _ _ _ _ _ _).flds = _
    rw [frame]
  have dMer : d.mer = b.mer := by
    show (b.judge _ _ _ _ _ _).mer = _
    rw [frame]
  have told : ∀ r ∈ d.reports, r ∈ c.reports ∨ r.src / 16 = 10 := fun r hr => by
    rcases Chip.mem_reports_judge hr with h | h
    · exact .inl (reports ▸ h)
    · rw [h]
      exact .inr rfl
  have checked : Chip.Leaves [] [] c b := ⟨fun f _ _ _ => by rw [Chip.rd, flds, Chip.rd], fun p hp _ => sticky p hp⟩
  have left : Chip.Leaves [] [] c d := checked.judge _ _ _ _ _ _
  rw [whole]
  clear_value d
  split
  case isTrue => exact ⟨dMer.trans mer, dFlds.trans flds, fun _ => Chip.bit_stick _ _ _, told, left.stick (.inr rfl) 6⟩
  case isFalse good => exact ⟨dMer.trans mer, dFlds.trans flds, fun h => absurd (by simp [h]) good, told, left⟩

theorem Chip.qualityMessage_judged {c : Chip} {i : Nat} {m : List Nat} (sync : m.headD 0 = 0x5A) {bad : Bool}
    (hb : (qmsgSyndrome m ≠ 0 || m.getD 2 0 / 16 ≠ 1) = bad) :
    c.qualityMessage i m = if bad then c.judgesMessage i m bad else (c.judgesMessage i m bad).acceptQmsg i m := by
  subst hb
  unfold Chip.qualityMessage
  rw [if_neg (not_not.mpr sync)]
  rfl

/-- A message that is accepted becomes the last one, and takes effect with a second one that carries the same. -/
def Cand.accepts (x : Cand) (m : List Nat) : Cand :=
  let pair := x.chain ∧ (x.last.getD 4 0 + 1) % 256 = m.getD 4 0 ∧ qmsgContent x.last = qmsgContent m
  { x with last := m, chain := true, eff := if pair then m else x.eff, timedOut := if pair then false else x.timedOut }

theorem Chip.acceptQmsg_shows (c : Chip) (i : Fin 9) (m : List Nat) : (c.acceptQmsg i m).cand i = (c.cand i).accepts m ∧
    (c.acceptQmsg i m).rd (MerSel.srcId.nth i) = m.getD 1 0 % 2 ^ 8 ∧ Chip.Times merPages [] c (c.acceptQmsg i m) := by
  let a := (c.updCand i (fun x => x.accepts m)).wr (MerSel.srcId.nth i) (m.getD 1 0)
  let b := ((a.wr (MerSel.trace.nth i) (m.getD 3 0)).wr (MerSel.chold.nth i) (m.getD 3 0 / 2)).wr (MerSel.hops.nth i) (m.getD 3 0 / 16)
  have first : b.cand i = (c.cand i).accepts m := c.cand_updCand_self i fun x => x.accepts m
  have source : b.rd (MerSel.srcId.nth i) = m.getD 1 0 % 2 ^ 8 :=
    (Chip.rd_wr_ne _ _ (Fld.key_ne_of_lo rfl)).trans ((Chip.rd_wr_ne _ _ (Fld.key_ne_of_lo rfl)).trans
      ((a.rd_wr_ne _ (Fld.key_ne_of_lo rfl)).trans (Chip.rd_wr_self _ _ _)))
  have times : Chip.Times merPages [] c b := by
    have written := ((Chip.Times.refl c).updCand (ps := merPages) (qs := []) i (fun x => x.accepts m)).candField (f := MerSel.srcId) i.isLt
      rfl (m.getD 1 0)
    exact ((written.candField (f := MerSel.trace) i.isLt rfl _).candField (f := MerSel.chold) i.isLt rfl _).candField (f := MerSel.hops)
      i.isLt rfl _
  obtain ⟨own, ho⟩ : ∃ own : Bool, decide (qmsgDevId m = b.rd MerSel.devId ∧ qmsgDevId m ≠ 0) = own := ⟨_, rfl⟩
  let d := if own = true ∧ !b.on (MerSel.loop.nth i) then (b.raise 0xAA merSelPage i 0).stick merSelPage 7 else b
  have whole : c.acceptQmsg i m = (d.wr (MerSel.loop.nth i) (b2n own)).candChanged i := by
    subst ho
    have same : d = if (qmsgDevId m = b.rd MerSel.devId ∧ qmsgDevId m ≠ 0) ∧ !b.on (MerSel.loop.nth i) then
        (b.raise 0xAA merSelPage i 0).stick merSelPage 7 else b := by
      simp only [d, decide_eq_true_eq]
    rw [same]
    rfl
  clear_value b
  have kept : d.cand i = b.cand i ∧ d.rd (MerSel.srcId.nth i) = b.rd (MerSel.srcId.nth i) ∧ Chip.Times merPages [] b d := by
    show Chip.cand (if _ then _ else _) i = _ ∧ Chip.rd (if _ then _ else _) _ = _ ∧ Chip.Times merPages [] b (if _ then _ else _)
    split
    · exact ⟨rfl, rfl, ((Chip.Times.refl b).raise rfl _ _ _).stick (.inr rfl) 7⟩
    · exact ⟨rfl, rfl, .refl b⟩
  clear_value d
  obtain ⟨cand, src, looped⟩ := kept
  let e := d.wr (MerSel.loop.nth i) (b2n own)
  have left := Chip.Steers.candChanged (.refl e) i.isLt
  rw [whole]
  exact ⟨(left.cands i).trans (cand.trans first), (e.rd_candChanged i (own_apart i _ (by simp))).trans
    ((d.rd_wr_ne _ (Fld.key_ne_of_lo rfl)).trans (src.trans source)),
    ((times.trans looped).candField (f := MerSel.loop) i.isLt rfl (b2n own)).steers left⟩

/-- A message's bytes. -/
theorem getD_bytes (m : List (BitVec 8)) (k : Nat) : (m.map BitVec.toNat).getD k 0 = (m.getD k 0).toNat := by
  simp only [List.getD_eq_getElem?_getD, List.getElem?_map]
  cases m[k]? <;> rfl

theorem headD_bytes (m : List (BitVec 8)) : (m.map BitVec.toNat).headD 0 = (m.getD 0 0).toNat := by
  cases m <;> rfl

section
variable {s : State} {i : Fin 9} {m : List (BitVec 8)}

/-- The receivers that take messages judge those of eight bytes. -/
theorem message_heard (noPtp0 : i ≠ 4) (noPtp1 : i ≠ 5) (noLocal : i ≠ 8) (whole : m.length = 8) :
    ¬(i.val = 4 ∨ i.val = 5 ∨ i.val = 8 ∨ m.length ≠ 8) := by
  rintro (e | e | e | e)
  · exact noPtp0 (Fin.ext e)
  · exact noPtp1 (Fin.ext e)
  · exact noLocal (Fin.ext e)
  · exact e whole

theorem qualityMessage_good (hs : s.Runs) (noPtp0 : i ≠ 4) (noPtp1 : i ≠ 5) (noLocal : i ≠ 8) (length : m.length = 8)
    (sync : (m.getD 0 0).toNat = 0x5A) (crc : qmsgSyndrome (m.map BitVec.toNat) = 0) (ver : (m.getD 2 0).toNat / 16 = 1) :
    Gives (.qualityMessageReceive i m) s (fun t =>
      (t.c.cand i).last = m.map BitVec.toNat ∧ t.c.rd (MerSel.srcId.nth i) = (m.getD 1 0).toNat ∧
      (t.c.cand i).eff = (if (s.c.cand i).chain = true ∧ ((s.c.cand i).last.getD 4 0 + 1) % 256 = (m.getD 4 0).toNat ∧
        qmsgContent (s.c.cand i).last = qmsgContent (m.map BitVec.toNat) then m.map BitVec.toNat else (s.c.cand i).eff) ∧
      Within [] s t) := by
  let b := s.c.start.judgesMessage i (m.map BitVec.toNat) false
  have body : (if i.val = 4 ∨ i.val = 5 ∨ i.val = 8 ∨ m.length ≠ 8 then s.c.start else s.c.start.qualityMessage i (m.map BitVec.toNat)) =
      b.acceptQmsg i (m.map BitVec.toNat) := by
    rw [if_neg (message_heard noPtp0 noPtp1 noLocal length),
      Chip.qualityMessage_judged (bad := false) ((headD_bytes m).trans sync) (by simp only [crc, getD_bytes, ver]; decide)]
    rfl
  obtain ⟨mer, flds, -, told, left⟩ := s.c.start.judgesMessage_shows i (m.map BitVec.toNat) false
  change b.mer = _ at mer
  change ∀ r ∈ b.reports, _ at told
  change Chip.Leaves [] [] _ b at left
  clear_value b
  obtain ⟨cand, source, times⟩ := b.acceptQmsg_shows i (m.map BitVec.toNat)
  generalize b.acceptQmsg i (m.map BitVec.toNat) = d at *
  have whole := left.trans times.leaves
  have class10 : ∀ r ∈ d.reports, r.src / 16 = 10 := fun r hr => (times.reports r hr).elim
    (fun h => (told r h).resolve_left (by simp)) id
  have shown : d.settle.cand i = (s.c.cand i).accepts (m.map BitVec.toNat) := by
    rw [Chip.cand_settle, cand, Chip.cand_congr (congrArg Mer.cands mer)]
    rfl
  refine gives_of_body hs (exec_qualityMessageReceive i m s) body ⟨congrArg Cand.last shown, ?_, (congrArg Cand.eff shown).trans ?_,
    Within.of_body (fun f hf hr _ => whole.rd f hf hr (by simp)) whole.sticky⟩
  · refine (Chip.rd_settle_class10 class10 fun g k => own_apart i _ (by simp) g (by simp [k])).trans (source.trans ?_)
    rw [getD_bytes]
    exact Nat.mod_eq_of_lt (m.getD 1 0).isLt
  · simp only [Cand.accepts, getD_bytes]

theorem qualityMessage_bad (hs : s.Runs) (noPtp0 : i ≠ 4) (noPtp1 : i ≠ 5) (noLocal : i ≠ 8) (length : m.length = 8)
    (sync : (m.getD 0 0).toNat = 0x5A) (crc : qmsgSyndrome (m.map BitVec.toNat) ≠ 0) : Gives (.qualityMessageReceive i m) s (fun t =>
      t.c.cand i = s.c.cand i ∧ bit (t.c.stickyWord merSelPage) 6 = true ∧ Confined [] [] s t) := by
  have body : (if i.val = 4 ∨ i.val = 5 ∨ i.val = 8 ∨ m.length ≠ 8 then s.c.start else s.c.start.qualityMessage i (m.map BitVec.toNat)) =
      s.c.start.judgesMessage i (m.map BitVec.toNat) true := by
    rw [if_neg (message_heard noPtp0 noPtp1 noLocal length),
      Chip.qualityMessage_judged (bad := true) ((headD_bytes m).trans sync) (by simp [crc])]
    rfl
  obtain ⟨mer, -, marked, -, left⟩ := s.c.start.judgesMessage_shows i (m.map BitVec.toNat) true
  generalize s.c.start.judgesMessage i (m.map BitVec.toNat) true = d at *
  exact gives_of_body hs (exec_qualityMessageReceive i m s) body
    ⟨(d.cand_settle i).trans (Chip.cand_congr (congrArg Mer.cands mer) i), Chip.bit_stickyWord_settle (marked rfl), left.confined⟩

theorem qualityMessage_none (hs : s.Runs) (noise : (m.getD 0 0).toNat ≠ 0x5A) :
    Gives (.qualityMessageReceive i m) s (fun t => t.c.mer = s.c.mer ∧ Confined [] [] s t) := by
  have body : (if i.val = 4 ∨ i.val = 5 ∨ i.val = 8 ∨ m.length ≠ 8 then s.c.start else s.c.start.qualityMessage i (m.map BitVec.toNat)) =
      s.c.start := by
    split
    · rfl
    · exact if_pos (by rwa [headD_bytes])
  exact gives_of_body hs (exec_qualityMessageReceive i m s) (d := s.c.start) body
    ⟨(idle_settle s.c.start rfl).mer, Chip.Leaves.confined (.refl s.c.start)⟩

end

/-! ## Disagreements (R336) -/

/-- Whether an entry is that of the pair `a`, `b`. -/
def isPair (a b : Nat) (p : Nat × Nat × Nat) : Bool := p.1 = a && p.2.1 = b

theorem disagree_apart (i : Fin 9) : ∀ g ∈ MerSel.ql.nth i :: MerSel.cstate.nth i :: holdoverFields, MerSel.disagree.key ≠ g.key :=
  (by decide : ∀ i : Fin 9, ∀ g ∈ MerSel.ql.nth i :: MerSel.cstate.nth i :: holdoverFields, MerSel.disagree.key ≠ g.key) i

/-- From a machine with noted pairs `l` on, pairs and sticky bits stand. -/
structure Chip.Notes (l : List (Nat × Nat × Nat)) (c d : Chip) : Prop extends Chip.Times merPages [] c d where
  apart : d.mer.apart = l
  shown : d.rd MerSel.disagree = b2n (!l.isEmpty)

section
variable {l : List (Nat × Nat × Nat)} {a b c : Chip}

theorem Chip.notes_setApart (h : Chip.Times merPages [] a b) (l : List (Nat × Nat × Nat)) : Chip.Notes l a (b.setApart l) where
  toTimes := (h.updMer _).wr (f := MerSel.disagree) rfl (by decide) _
  apart := rfl
  shown := (Chip.rd_wr_self _ _ _).trans (by cases l <;> rfl)

theorem Chip.Notes.reselect (h : Chip.Notes l a b) : Chip.Notes l a b.reselect where
  toTimes := h.toTimes.steers (Chip.Steers.reselect (.refl b))
  apart := (Chip.Steers.reselect (.refl b)).apart.trans h.apart
  shown := (b.rd_reselect (by decide)).trans h.shown

theorem Chip.Notes.disqualify (h : Chip.Notes l a b) (i : Fin 9) : Chip.Notes l a (b.disqualify i) where
  toTimes := h.toTimes.trans (b.times_disqualify i)
  apart := by
    unfold Chip.disqualify
    split
    · exact (Chip.Steers.candChanged (.refl _) i.isLt).apart.trans h.apart
    · exact h.apart
  shown := by
    unfold Chip.disqualify
    split
    · exact (Chip.rd_candChanged _ i (disagree_apart i)).trans h.shown
    · exact h.shown

end

section
variable {s : State} {i j : Fin 9}

theorem disagreement_noted (hs : s.Runs) (other : i ≠ j) (equal : s.c.equalRank i j = true) (differ : s.c.agree i j = false) :
    Gives (.disagreement i j false) s (fun t =>
      t.c.rd MerSel.disagree = 1 ∧ t.c.mer.apart.any (fun p => p.1 = min i.val j.val && p.2.1 = max i.val j.val) = true ∧
      bit (t.c.stickyWord merSelPage) 5 = true ∧ Within [] s t) := by
  let rest := s.c.mer.apart.filter (fun p => !isPair (min i.val j.val) (max i.val j.val) p)
  let noted (last : Nat) := rest ++ [(min i.val j.val, max i.val j.val, last)]
  let b := (s.c.start.raise 0xA4 merSelPage i.val 0).stick merSelPage 5
  have marked : bit (b.stickyWord merSelPage) 5 = true := Chip.bit_stick _ _ _
  have told : Chip.Times merPages [] s.c.start b := ((Chip.Times.refl _).raise rfl _ _ _).stick (.inr rfl) 5
  let e := b.setApart (noted 15)
  have first : Chip.Notes (noted 15) b e := Chip.notes_setApart (.refl b) _
  have all (last : Nat) : Chip.Notes (noted last) b (e.setApart (noted last)).reselect := (Chip.notes_setApart first.toTimes _).reselect
  have outcome : ∃ d last, (fun c : Chip =>
      let a := min i.val j.val
      let b := max i.val j.val
      let rest := c.mer.apart.filter (fun p => !(p.1 = a && p.2.1 = b))
      if (false : Bool) then
        if rest.length = c.mer.apart.length ∨ (c.equalRank i j ∧ !c.agree i j) then c else (c.setApart rest).reselect
      else if i = j ∨ !c.equalRank i j ∨ c.agree i j then c
      else
        let c := ((c.raise 0xA4 merSelPage i.val 0).stick merSelPage 5).setApart (rest ++ [(a, b, 15)])
        let others := (List.range 8).filter (fun k => k ≠ i.val && k ≠ j.val && c.candState k = 2)
        let sel := c.rd MerSel.sel
        let neither := fun (_ : Unit) =>
          let last := if sel = i.val then j.val else if sel = j.val then i.val else max i.val j.val
          (c.setApart (rest ++ [(a, b, last)])).reselect
        match firstBy c.judgeRank others with
        | none => neither ()
        | some k =>
          if c.agree k i ∧ !c.agree k j then c.disqualify j
          else if c.agree k j ∧ !c.agree k i then c.disqualify i
          else neither ()) s.c.start = d ∧ Chip.Notes (noted last) b d := by
    have ranks : s.c.start.equalRank i j = true := equal
    have splits : s.c.start.agree i j = false := differ
    dsimp only
    rw [if_neg (by decide), if_neg (by simp [other, ranks, splits])]
    split
    · exact ⟨_, _, rfl, all _⟩
    · split
      · exact ⟨_, _, rfl, first.disqualify j⟩
      · split
        · exact ⟨_, _, rfl, first.disqualify i⟩
        · exact ⟨_, _, rfl, all _⟩
  obtain ⟨d, last, body, notes⟩ := outcome
  have whole := told.trans notes.toTimes
  have some_ : (noted last).isEmpty = false := by simp [noted]
  refine gives_of_body hs (exec_disagreement i j false s) body ⟨?_, ?_, Chip.bit_stickyWord_settle (notes.set _ _ marked), whole.within⟩
  · refine (Chip.rd_settle_class10 whole.class10 (by decide)).trans (notes.shown.trans ?_)
    rw [some_]
    rfl
  · show d.settle.mer.apart.any _ = true
    rw [Chip.apart_settle, notes.apart]
    simp [noted]

theorem disagreement_cleared (hs : s.Runs)
    (stands : s.c.mer.apart.any (fun p => p.1 = min i.val j.val && p.2.1 = max i.val j.val) = true)
    (cleared : s.c.equalRank i j = false ∨ s.c.agree i j = true) : Gives (.disagreement i j true) s (fun t =>
      t.c.mer.apart = s.c.mer.apart.filter (fun p => !(p.1 = min i.val j.val && p.2.1 = max i.val j.val)) ∧
      t.c.rd MerSel.disagree = (if t.c.mer.apart = [] then 0 else 1) ∧
      t.c.demoted i = t.c.mer.apart.any (fun p => p.2.2 = i.val) ∧ Within [] s t) := by
  let rest := s.c.mer.apart.filter (fun p => !(p.1 = min i.val j.val && p.2.1 = max i.val j.val))
  have fewer : rest.length ≠ s.c.mer.apart.length := by
    obtain ⟨p, hp, matches_⟩ := List.any_eq_true.mp stands
    exact fun same => by
      have kept := (List.length_filter_eq_length_iff.mp same) p hp
      rw [matches_] at kept
      exact absurd kept (by decide)
  have body : (if rest.length = s.c.start.mer.apart.length ∨ (s.c.start.equalRank i j ∧ !s.c.start.agree i j) then s.c.start
      else (s.c.start.setApart rest).reselect) = (s.c.start.setApart rest).reselect := by
    refine if_neg (not_or.mpr ⟨fewer, fun ⟨equal, differ⟩ => ?_⟩)
    rcases cleared with h | h
    · exact absurd (h.symm.trans equal) (by decide)
    · have agrees : s.c.start.agree i j = true := h
      rw [agrees] at differ
      exact absurd differ (by decide)
  have notes := (Chip.notes_setApart (.refl s.c.start) rest).reselect
  obtain ⟨d, hd⟩ : ∃ d, (s.c.start.setApart rest).reselect = d := ⟨_, rfl⟩
  rw [hd] at notes
  have left : d.settle.mer.apart = rest := (d.apart_settle).trans notes.apart
  refine gives_of_body hs (exec_disagreement i j true s) (d := d) ((if_pos rfl).trans (body.trans hd)) ⟨left, ?_, rfl, notes.toTimes.within⟩
  show d.settle.rd MerSel.disagree = if d.settle.mer.apart = [] then 0 else 1
  rw [left, Chip.rd_settle_class10 notes.toTimes.class10 (by decide), notes.shown]
  cases rest <;> rfl

end

/-! ## Each second (R335, R346 to R348, R358) -/

/-- What a measurement changes (R335). -/
theorem Chip.times_measureCand (c : Chip) (j : Fin 9) (f : Int) : Chip.Times merPages [] c (c.measureCand j f) := by
  unfold Chip.measureCand
  refine .ite (fun _ => .refl c) fun _ => .ite (fun _ => ?_) fun _ => ?_
  · exact (((Chip.Times.refl c).updCand j _).candField (f := MerSel.freq) j.isLt rfl 0).candField (f := MerSel.drift) j.isLt rfl 0
  · have taken (g : Cand → Cand) (v : Nat) := ((Chip.Times.refl (ps := merPages) (qs := []) c).updCand j g).candField (f := MerSel.freq) j.isLt
      rfl v
    refine Chip.Times.candField (f := MerSel.drift) ?_ j.isLt rfl _
    exact .ite (fun _ => ((taken _ _).raise rfl _ _ _).stick (.inr rfl) 3) fun _ => taken _ _

/-- A measurement keeps a candidate's state, and the place of the newest sample. -/
theorem Chip.measureCand_present {c : Chip} {j : Fin 9} (present : (c.cand j).present = true) (f : Int) : ∃ g : Cand → Cand,
    (∀ x, (g x).freq = f ∧ (g x).st = x.st ∧ (g x).present = x.present) ∧ (c.measureCand j f).mer = (c.updCand j g).mer ∧
    (c.measureCand j f).rd MerHold.newest = c.rd MerHold.newest := by
  have apart : MerHold.newest.key ≠ (MerSel.freq.nth j).key ∧ MerHold.newest.key ≠ (MerSel.drift.nth j).key :=
    (by decide : ∀ j : Fin 9, MerHold.newest.key ≠ (MerSel.freq.nth j).key ∧ MerHold.newest.key ≠ (MerSel.drift.nth j).key) j
  have freq (d : Chip) (v : Nat) : (d.wr (MerSel.freq.nth j) v).rd MerHold.newest = d.rd MerHold.newest := d.rd_wr_ne v apart.1
  have drift (d : Chip) (v : Nat) : (d.wr (MerSel.drift.nth j) v).rd MerHold.newest = d.rd MerHold.newest := d.rd_wr_ne v apart.2
  unfold Chip.measureCand
  rw [if_neg (by rw [present]; decide)]
  by_cases blind : j.val = 8 ∨ (!c.on MerHold.valid) = true
  · rw [if_pos blind]
    exact ⟨fun x => { x with freq := f, eval := false, hardRun := 0 }, fun _ => ⟨rfl, rfl, rfl⟩, rfl, (drift _ _).trans (freq _ _)⟩
  · rw [if_neg blind]
    let d := f - c.rdS MerHold.value
    let g : Cand → Cand := fun x =>
      { x with freq := f, eval := true, hardRun := if 256 * c.rd MerSel.driftHard < d.natAbs then x.hardRun + 1 else 0 }
    let b := (c.updCand j g).wrS (MerSel.freq.nth j) d
    have told (p : Prop) [Decidable p] :
        (if p then (b.raise 0xA2 merSelPage j 0).stick merSelPage 3 else b).mer = (c.updCand j g).mer ∧
        (if p then (b.raise 0xA2 merSelPage j 0).stick merSelPage 3 else b).rd MerHold.newest = c.rd MerHold.newest := by
      have first : b.rd MerHold.newest = c.rd MerHold.newest := freq (c.updCand j g) _
      split
      · exact ⟨rfl, first⟩
      · exact ⟨rfl, first⟩
    exact ⟨g, fun _ => ⟨rfl, rfl, rfl⟩, (told _).1, (drift _ _).trans (told _).2⟩

theorem Chip.measureCand_absent {c : Chip} {j : Nat} (absent : (c.cand j).present = false) (f : Int) : c.measureCand j f = c :=
  if_pos (by rw [absent]; rfl)

theorem Chip.rd_measureCand (c : Chip) (j : Fin 9) (f : Int) : (c.measureCand j f).rd MerHold.newest = c.rd MerHold.newest := by
  by_cases present : (c.cand j).present = true
  · obtain ⟨-, -, -, same⟩ := Chip.measureCand_present present f
    exact same
  · rw [Chip.measureCand_absent (Bool.eq_false_iff.mpr present)]

theorem Chip.measureCand_own {c : Chip} {j : Fin 9} (present : (c.cand j).present = true) (f : Int) :
    ((c.measureCand j f).cand j).freq = f ∧ ((c.measureCand j f).cand j).st = (c.cand j).st ∧
    ((c.measureCand j f).cand j).present = true := by
  obtain ⟨g, taken, mer, -⟩ := Chip.measureCand_present present f
  obtain ⟨freq, st, here⟩ := taken (c.cand j)
  rw [Chip.cand_congr (congrArg Mer.cands mer), Chip.cand_updCand_self]
  exact ⟨freq, st, here.trans present⟩

theorem Chip.measureCand_other (c : Chip) {j : Fin 9} {k : Nat} (other : k ≠ j.val) (f : Int) : (c.measureCand j f).cand k = c.cand k := by
  by_cases present : (c.cand j).present = true
  · obtain ⟨g, -, mer, -⟩ := Chip.measureCand_present present f
    exact (Chip.cand_congr (congrArg Mer.cands mer) k).trans (c.cand_updCand_ne other g)
  · rw [Chip.measureCand_absent (Bool.eq_false_iff.mpr present)]

/-- Each candidate of a list is measured in its turn. -/
theorem Chip.measured_shows (freqs : List (BitVec 32)) (i : Nat) : ∀ (l : List Nat) (c : Chip), (∀ j ∈ l, j < 9) →
    (c.cand i).present = true → (i ∈ l ∨ (c.cand i).freq = (freqs.getD i 0).toInt) →
    ((l.foldl (fun c j => c.measureCand j (freqs.getD j 0).toInt) c).cand i).freq = (freqs.getD i 0).toInt ∧
    ((l.foldl (fun c j => c.measureCand j (freqs.getD j 0).toInt) c).cand i).st = (c.cand i).st
  | [], c, _, _, h => ⟨h.resolve_left (by simp), rfl⟩
  | j :: l, c, small, present, h => by
    have rest : ∀ k ∈ l, k < 9 := fun k m => small k (List.mem_cons_of_mem _ m)
    have place : j < 9 := small j List.mem_cons_self
    by_cases own : i = j
    · subst own
      obtain ⟨freq, st, still⟩ := Chip.measureCand_own (j := ⟨i, place⟩) present (freqs.getD i 0).toInt
      obtain ⟨last, kept⟩ := Chip.measured_shows freqs i l _ rest still (.inr freq)
      exact ⟨last, kept.trans st⟩
    · have same := c.measureCand_other (j := ⟨j, place⟩) own (freqs.getD j 0).toInt
      obtain ⟨last, kept⟩ := Chip.measured_shows freqs i l (c.measureCand j (freqs.getD j 0).toInt) rest
        (by rw [same]; exact present) (by rw [same]; exact h.imp_left fun m => (List.mem_cons.mp m).resolve_left own)
      exact ⟨last, kept.trans (congrArg Cand.st same)⟩

/-- The fields that a second writes beside the candidates and the sample. -/
def secondFields : List Fld := [MerHold.value, MerHold.valid, MerLoop.cw] ++ holdoverFields

/-- What the end of a second does once its sample is stored. -/
structure Chip.Passes (c d : Chip) : Prop extends Chip.Times merPages [merHoldPage] c d where
  kept : ∀ f : Fld, (∀ g ∈ secondFields, f.key ≠ g.key) → d.rd f = c.rd f
  cands : ∀ i, d.cand i = c.cand i

section
variable {a b c : Chip}

theorem Chip.Passes.refl (c : Chip) : Chip.Passes c c := ⟨.refl c, fun _ _ => rfl, fun _ => rfl⟩

theorem Chip.Passes.trans (h : Chip.Passes a b) (k : Chip.Passes b c) : Chip.Passes a c :=
  ⟨h.toTimes.trans k.toTimes, fun f hf => (k.kept f hf).trans (h.kept f hf), fun i => (k.cands i).trans (h.cands i)⟩

theorem Chip.Passes.ite {p : Prop} [Decidable p] (h : p → Chip.Passes a b) (k : ¬p → Chip.Passes a c) :
    Chip.Passes a (if p then b else c) := by
  split
  · exact h ‹_›
  · exact k ‹_›

theorem Chip.Passes.wr (h : Chip.Passes a b) {f : Fld} (hf : f ∈ secondFields) (v : Nat) : Chip.Passes a (b.wr f v) := by
  obtain ⟨ok, page⟩ := (by decide : ∀ f ∈ secondFields, f.ok = true ∧ f.page ∈ merPages) f hf
  exact ⟨h.toTimes.wr ok page v, fun g hg => (b.rd_wr_ne v (hg f hf)).trans (h.kept g hg), h.cands⟩

theorem Chip.Passes.stick (h : Chip.Passes a b) {p : Nat} (hp : p ∈ merPages) (n : Nat) : Chip.Passes a (b.stick p n) :=
  ⟨h.toTimes.stick ((by decide : ∀ p ∈ merPages, p ∈ [merHoldPage] ∨ reactsSticky p = true) p hp) n, h.kept, h.cands⟩

theorem Chip.Passes.updMer (h : Chip.Passes a b) {f : Mer → Mer} (hf : (f b.mer).cands = b.mer.cands) : Chip.Passes a (b.updMer f) :=
  ⟨h.toTimes.updMer f, h.kept, fun i => (Chip.cand_congr (c := b) hf i).trans (h.cands i)⟩

theorem Chip.Passes.divFree (h : Chip.Passes a b) (n d : Int) : Chip.Passes a (b.divFree n d).2 := by
  obtain ⟨k, e⟩ := b.divFree_frame n d
  have times := h.toTimes.divFree n d
  rw [e] at times ⊢
  exact ⟨times, h.kept, h.cands⟩

theorem Chip.Passes.reselect (h : Chip.Passes a b) : Chip.Passes a b.reselect :=
  have left := Chip.Steers.reselect (.refl b)
  ⟨h.toTimes.steers left, fun _ hf => (b.rd_reselect fun g m => hf g (List.mem_append_right _ m)).trans (h.kept _ hf),
    fun i => (left.cands i).trans (h.cands i)⟩

theorem Chip.Passes.updHoldValue (h : Chip.Passes a b) : Chip.Passes a b.updHoldValue := by
  unfold Chip.updHoldValue
  dsimp only
  have valued : Chip.Passes a (if decide (orElse0 (b.rd MerHold.minSamp) 1 ≤ b.holdSamples.length) = true then
      (b.divFree (b.holdSamples.sum * 16) b.holdSamples.length).2.wrS MerHold.value
        (b.divFree (b.holdSamples.sum * 16) b.holdSamples.length).1 else b) :=
    .ite (fun _ => Chip.Passes.wr (h.divFree _ _) (f := MerHold.value) (by decide) _) fun _ => h
  exact .ite (fun _ => valued) fun _ => ((valued.wr (f := MerHold.valid) (by decide) _).stick (by decide) 0).reselect

theorem Chip.Passes.holdAged (h : Chip.Passes a b) : Chip.Passes a b.holdAged := by
  have aged := (h.wr (f := MerHold.age) (by decide) (max (b.rd MerHold.age) (b.rd MerHold.holdMax))).updMer
    (f := fun m => { m with aged := true }) rfl
  have told : Chip.Passes a (((b.wr MerHold.age (max (b.rd MerHold.age) (b.rd MerHold.holdMax))).updMer
      (fun m => { m with aged := true })).raise 0xA6 merHoldPage 15 0) := ⟨aged.toTimes.raise rfl _ _ _, aged.kept, aged.cands⟩
  exact (((told.stick (p := merHoldPage) (by decide) 1).stick (p := merLoopPage) (by decide) 1).wr (f := MerSel.qlOut) (by decide) 14).reselect

theorem Chip.Passes.slewSecond (h : Chip.Passes a b) : Chip.Passes a b.slewSecond := by
  unfold Chip.slewSecond
  dsimp only
  refine .ite (fun _ => ?_) fun _ => h
  have slewed (v : Int) : Chip.Passes a (b.wrS MerLoop.cw v) := h.wr (f := MerLoop.cw) (by decide) _
  exact .ite (fun _ => .ite (fun _ => Chip.Passes.holdAged ((slewed _).wr (f := MerHold.age) (by decide) _)) fun _ =>
    (slewed _).wr (f := MerHold.age) (by decide) _) fun _ => slewed _

end

/-- The rate that follows the media reference. -/
def rateFields : List Fld := [Ptp.following, Time.rate]

theorem Chip.followSecond_shows (c : Chip) : Chip.Moves rateFields c c.followSecond ∧ (∀ i, c.followSecond.cand i = c.cand i) ∧
    Chip.Leaves rateFields [] c c.followSecond := by
  let b := (c.wr Ptp.following (b2n c.rateFollows)).updMer (fun m => { m with servo := m.servo && !c.rateFollows })
  have moved : Chip.Moves rateFields c b := ((Chip.Moves.refl c).wr (f := Ptp.following) (by decide) _).keep rfl rfl rfl
  have left : Chip.Leaves rateFields [] c b := ((Chip.Leaves.refl c).wr (f := Ptp.following) (by decide) _).keep rfl rfl
  have cands : ∀ i, b.cand i = c.cand i := fun _ => rfl
  have whole : c.followSecond = if b.rateFollows ∧ !b.rateHeld then
      b.wrS Time.rate (slewTo (b.rdS Time.rate) (b.rdS MerLoop.cw) (256 * orElse0 (b.rd MerLoop.slew) 1)) else b := rfl
  rw [whole]
  clear_value b
  split
  · exact ⟨moved.wr (f := Time.rate) (by decide) _, cands, left.wr (f := Time.rate) (by decide) _⟩
  · exact ⟨moved, cands, left⟩

/-- The place of a sample in the history. -/
theorem sample_ok {n : Nat} (h : n < 1024) : (MerHold.smpCw.nth n).ok = true ∧ (MerHold.smpValid.nth n).ok = true :=
  ⟨Fld.nth_ok (by decide) (by decide) (show 0 + n * 1 < 67108864 by omega),
    Fld.nth_ok (by decide) (by decide) (show 0 + n * 1 < 67108864 by omega)⟩

/-- The second's sample, before the holdover value follows (R346). -/
def Chip.storesSample (c : Chip) (good : Bool) (mean : Nat) : Chip :=
  let i := (c.rd MerHold.newest + 1) % 1024
  let n := c.rd MerHold.samples + b2n good - b2n (c.on (MerHold.smpValid.nth i))
  let c := (((c.wr MerHold.newest i).wr (MerHold.smpCw.nth i) mean).wr (MerHold.smpValid.nth i) (b2n good)).wr MerHold.samples n
  c.updMer (fun m => { m with clean := c.rd MerLoop.state = 3 })

theorem Chip.historySample_eq (c : Chip) (good : Bool) (mean : Nat) : c.historySample good mean = (c.storesSample good mean).updHoldValue := rfl

theorem Chip.storesSample_shows (c : Chip) (good : Bool) {mean : Nat} (small : mean < 2 ^ 24) :
    (c.storesSample good mean).rd MerHold.newest = (c.rd MerHold.newest + 1) % 1024 ∧
    (c.storesSample good mean).rd (MerHold.smpCw.nth ((c.rd MerHold.newest + 1) % 1024)) = mean ∧
    (∀ i, (c.storesSample good mean).cand i = c.cand i) ∧ Chip.Times merPages [] c (c.storesSample good mean) := by
  generalize hi : (c.rd MerHold.newest + 1) % 1024 = i
  have hlt : i < 1024 := hi ▸ Nat.mod_lt _ (by decide)
  obtain ⟨cwOk, validOk⟩ := sample_ok hlt
  have spaces {g : Fld} (ok : g.ok = true) (body : g.space = 0) {f : Fld} (hf : f.ok = true) (table : f.space = 1) : f.key ≠ g.key :=
    Fld.key_ne hf ok (.inl (by rw [table, body]; decide))
  let a := c.wr MerHold.newest i
  let b := a.wr (MerHold.smpCw.nth i) mean
  let d := b.wr (MerHold.smpValid.nth i) (b2n good)
  obtain ⟨n, clean, whole⟩ : ∃ (n : Nat) (clean : Bool), c.storesSample good mean =
      (d.wr MerHold.samples n).updMer (fun m => { m with clean := clean }) := by
    unfold Chip.storesSample
    rw [hi]
    exact ⟨_, _, rfl⟩
  have page : merHoldPage ∈ merPages := by decide
  have cw : b.rd (MerHold.smpCw.nth i) = mean := (Chip.rd_wr_self _ _ _).trans (Nat.mod_eq_of_lt small)
  have newest : a.rd MerHold.newest = i := (Chip.rd_wr_self _ _ _).trans (Nat.mod_eq_of_lt hlt)
  rw [whole]
  refine ⟨?_, ?_, fun k => rfl, ?_⟩
  · exact (d.rd_wr_ne n (by decide)).trans ((b.rd_wr_ne _ (spaces (g := MerHold.newest) rfl rfl validOk rfl).symm).trans
      ((a.rd_wr_ne _ (spaces (g := MerHold.newest) rfl rfl cwOk rfl).symm).trans newest))
  · exact (d.rd_wr_ne n (spaces (g := MerHold.samples) rfl rfl cwOk rfl)).trans ((b.rd_wr_ne _ (Fld.key_ne_of_lo rfl)).trans cw)
  · exact ((((Chip.Times.refl c).wr (f := MerHold.newest) rfl (by decide) _).wr (f := MerHold.smpCw.nth i) cwOk page _).wr
      (f := MerHold.smpValid.nth i) validOk page _ |>.wr (f := MerHold.samples) rfl (by decide) n).updMer _

/-- Where the second's sample stands, no other field of the second does. -/
theorem sample_apart {n : Nat} (h : n < 1024) : ∀ g ∈ secondFields ++ rateFields, (MerHold.smpCw.nth n).key ≠ g.key := fun g hg => by
  obtain ⟨ok, body⟩ := (by decide : ∀ g ∈ secondFields ++ rateFields, g.ok = true ∧ g.space = 0) g hg
  exact Fld.key_ne (sample_ok h).1 ok (.inl (by rw [body]; exact one_ne_zero))

section
variable {s : State} {i : Fin 9}

theorem candidateMeasure_gives {freqs : List (BitVec 32)} {mean : BitVec 24} (hs : s.Runs) (present : (s.c.cand i).present = true)
    (goes : s.c.mer.stopped = false) : Gives (.candidateMeasure freqs mean) s (fun t =>
      (t.c.cand i).freq = (freqs.getD i 0).toInt ∧ (t.c.cand i).st = (s.c.cand i).st ∧
      t.c.rd MerHold.newest = (s.c.rd MerHold.newest + 1) % 1024 ∧
      t.c.rd (MerHold.smpCw.nth ((s.c.rd MerHold.newest + 1) % 1024)) = mean.toNat ∧
      Confined [Ptp.following, Time.rate] [merHoldPage] s t) := by
  obtain ⟨a, ha⟩ : ∃ a, (List.range 9).foldl (fun c i => c.measureCand i (freqs.getD i 0).toInt) s.c.start = a := ⟨_, rfl⟩
  obtain ⟨b, hb⟩ : ∃ b, a.storesSample s.c.start.secondGood mean.toNat = b := ⟨_, rfl⟩
  obtain ⟨d, hd⟩ : ∃ d, b.updHoldValue.slewSecond = d := ⟨_, rfl⟩
  obtain ⟨e, he⟩ : ∃ e, d.followSecond = e := ⟨_, rfl⟩
  have body : (if s.c.start.mer.stopped then s.c.start else
      ((((List.range 9).foldl (fun c i => c.measureCand i (freqs.getD i 0).toInt) s.c.start).historySample s.c.start.secondGood
        mean.toNat).slewSecond).followSecond) = e := by
    rw [if_neg (by show ¬s.c.mer.stopped = true; rw [goes]; decide), ha, Chip.historySample_eq, hb, hd, he]
  obtain ⟨freq, st⟩ := Chip.measured_shows freqs i (List.range 9) s.c.start (fun j => List.mem_range.mp) present
    (.inl (List.mem_range.mpr i.isLt))
  have measured : Chip.Times merPages [] s.c.start
      ((List.range 9).foldl (fun c i => c.measureCand i (freqs.getD i 0).toInt) s.c.start) := Chip.Times.foldl (.refl _) fun j hj c =>
    c.times_measureCand ⟨j, List.mem_range.mp hj⟩ _
  have same : ((List.range 9).foldl (fun c i => c.measureCand i (freqs.getD i 0).toInt) s.c.start).rd MerHold.newest =
      s.c.rd MerHold.newest :=
    List.foldlRecOn (motive := fun c : Chip => c.rd MerHold.newest = s.c.rd MerHold.newest) (List.range 9) _ rfl
      fun c hc j hj => (c.rd_measureCand ⟨j, List.mem_range.mp hj⟩ _).trans hc
  rw [ha] at freq st measured same
  obtain ⟨newest, sample, cands, stored⟩ := a.storesSample_shows s.c.start.secondGood (mean := mean.toNat) mean.isLt
  rw [hb] at newest sample cands stored
  rw [same] at newest sample
  have passes : Chip.Passes b d := hd ▸ (Chip.Passes.refl b).updHoldValue.slewSecond
  obtain ⟨moves, kept, left⟩ := d.followSecond_shows
  rw [he] at moves kept left
  have times : Chip.Times merPages [merHoldPage] s.c.start d :=
    (measured.trans stored |>.widen (List.Subset.refl _) (List.nil_subset _)).trans passes.toTimes
  have class10 : ∀ r ∈ e.reports, r.src / 16 = 10 := fun r hr => times.class10 r (moves.reports ▸ hr)
  have whole : Chip.Leaves rateFields [merHoldPage] s.c.start e :=
    (times.leaves.widen (List.nil_subset _) (List.Subset.refl _)).trans (left.widen (List.Subset.refl _) (List.nil_subset _))
  have cand : e.settle.cand i = a.cand i := (e.cand_settle i).trans ((kept i).trans ((passes.cands i).trans (cands i)))
  have shown {f : Fld} (h : ∀ g ∈ secondFields ++ rateFields, f.key ≠ g.key) : e.settle.rd f = b.rd f :=
    (Chip.rd_settle_class10 class10 fun g m => h g (by simp [secondFields, m])).trans
      ((moves.rd f fun g m => h g (by simp [m])).trans (passes.kept f fun g m => h g (by simp [m])))
  exact gives_of_body hs (exec_candidateMeasure freqs mean s) body ⟨(congrArg Cand.freq cand).trans freq, (congrArg Cand.st cand).trans st,
    (shown (by decide)).trans newest, (shown (sample_apart (Nat.mod_lt _ (by decide)))).trans sample, whole.confined⟩

end

/-- Settles O33: each change of a candidate's record is shown, and the selection that follows it writes none. -/
theorem candidates : Obligations.Candidates := fun _ _ =>
  ⟨candidatePresent_gives, candidateLost_gives, qualificationDone_gives, disqualification_gives, disqHoldExpire_gives,
    fun _ hs noPtp0 noPtp1 noLocal length sync crc ver => qualityMessage_good hs noPtp0 noPtp1 noLocal length sync crc ver,
    fun _ hs noPtp0 noPtp1 noLocal length sync crc => qualityMessage_bad hs noPtp0 noPtp1 noLocal length sync crc,
    fun _ hs noise => qualityMessage_none hs noise, qmsgTimeout_gives, fun _ _ hs present goes => candidateMeasure_gives hs present goes,
    fun _ hs other equal differ => disagreement_noted hs other equal differ,
    fun _ hs stands cleared => disagreement_cleared hs stands cleared⟩

end Sys2Proof.Machine
end
